-- ==== Sys2Proof/Word.lean ====
section
/-! DEFINITION. Words, bytes and the device's index types (R12, R16). -/

namespace Sys2Proof

/-- A register is 32 bits wide (R8, chapter "Register tables and access codes"). -/
abbrev Word := BitVec 32

abbrev Byte := BitVec 8

/-- Loop 0 to 31 (R16). -/
abbrev LoopId := Fin 32

/-- Rail 0 to 63; rails 0 to 31 are the device's own loops (R16). -/
abbrev RailId := Fin 64

/-- Phase 0 to 223 (R16). -/
abbrev PhaseId := Fin 224

/-- Phase die n is written n - 1 here, so that every value of the type is a die (R16). -/
abbrev DieId := Fin 7

/-- Policy processor PP0 to PP3. -/
abbrev ProcId := Fin 4

/-- Event-hub source 0 to 2047. -/
abbrev SourceId := Fin 2048

/-- Sequenced converter: 0 and 1 are SQH0 and SQH1, 2 to 8 are SQP1 to SQP7 (R449). -/
abbrev SqId := Fin 9

/-- Sequence domain SD0 to SD3. -/
abbrev DomainId := Fin 4

/-- The die a phase lies on, less one (R12). -/
def PhaseId.die (p : PhaseId) : DieId := ⟨p.val / 32, by omega⟩

/-- The channel of a phase on its die (R12). -/
def PhaseId.chan (p : PhaseId) : Fin 32 := ⟨p.val % 32, by omega⟩

/-- The phase at channel `c` of a die (R12). -/
def phaseOf (d : DieId) (c : Fin 32) : PhaseId := ⟨d.val * 32 + c.val, by omega⟩

end Sys2Proof
end

