-- ==== Sys2Proof/Config.lean ====
section
/-! DEFINITION. What a device fixes at manufacture, and the values the spec leaves open. Every constant here is opaque: no proof can use a value of it. -/

namespace Sys2Proof

/-- The 128-bit device number, least significant word first (R7). -/
opaque Config.uid : Fin 4 → Word

/-- The strap that places the PMBus address in 0x40 to 0x47 (R450). -/
opaque Config.pmbStrap : Fin 8

/-- The k-th free value: a value that the spec leaves open, and that nothing constrains (log entry 7). -/
opaque Config.freeValue : Nat → Nat

/-- The version code that PMBus 1.3.1 Part III assigns (R267): the spec names the code and does not give its value. -/
opaque Config.avsVersion : Fin 65536

/-- The vendor's public key, x then y, whose digest the boot ROM holds (R457). -/
opaque Config.vendorKey : Fin 96 → Byte

/-- SHA-384 of the boot ROM (R470). -/
opaque Config.romDigest : Fin 48 → Byte

/-- The parts of the three certificates of SPDM slot 0 that the spec does not give, in DER: the first argument is the certificate, 0 root, 1 intermediate and 2 leaf, and the second the part, 0 serial number, 1 signature algorithm, 2 notBefore, 3 notAfter, 4 public key, 5 further extensions and 6 signature (R461). -/
opaque Config.certPart : Fin 3 → Fin 7 → List Byte

/-- The device's public key, x then y (R461). -/
opaque Config.deviceKey : Fin 96 → Byte

/-- Whether the device number's hexadecimal digits in the certificate are capitals (R461). -/
opaque Config.certHexUpper : Bool

/-- The byte at a place of a signature by the device key over a transcript, with the random number that the engine draws for it (R461, R470): no key is in the model. -/
opaque Config.deviceSign : Nat → List Byte → Nat → Byte

/-- The device's UUID; the spec names the MCTP command that returns it and not its value (R441). -/
opaque Config.uuid : Fin 16 → Byte

/-- The version entry that Get MCTP Version Support returns for a message type (R441). -/
opaque Config.mctpVersion : Fin 256 → Word

/-- The completion code that means "operation rejected" (R441): the spec names the code and does not give its value. -/
opaque Config.opRejected : Byte

/-- The subsystem vendor ID and subsystem ID that the committed policy parameters hold; the spec does not say where they stand in them (R413). -/
opaque Config.subsystem : List (List Byte) → Fin 65536 × Fin 65536

end Sys2Proof
end

