-- ==== Sys2Proof/Syntax.lean ====
section
/-! DEFINITION. The commands the device takes: one constructor for each row of the opcode table, in its order, with the operands that the row's event or access carries. -/

namespace Sys2Proof

/-- Who makes a register access (R502). -/
inductive Requester | pcie | ring | pmbus | mctp | pp (k : Fin 4) | tap
deriving DecidableEq, Repr


/-- How the parts of a cold start that the outside decides turn out (R459): the self-test, whether the memory answers, the identity check, and how many of the records that close the log before a requested cold start are written before a line fails all its writes (R362, R488); 256 is all. -/
structure ColdIn where
  selfTest : Bool
  nvmOk : Bool
  idOk : Bool
  closing : Fin 257
deriving DecidableEq, Repr

/-- A command descriptor as a ring carries it, less its opcode: the ring, FLAGS, TAG, TARGET and ARGS (R422). -/
structure Cmd where
  ring : Fin 8
  flags : BitVec 8
  tag : BitVec 16
  target : BitVec 32
  args : List Byte
deriving DecidableEq, Repr

/-- How a phase-die access of a command fails: the index of the access whose service flit fails a fourth time (R506). -/
abbrev DieFail := Option (Fin 12)

/-- A PMBus transaction: whether a PEC was sent, and whether it is right (R435). -/
inductive Pec | none | good | bad
deriving DecidableEq, Repr

/-- The instants of R127 in a period. -/
inductive PwmEdge | on | onDtr | off | offDtf
deriving DecidableEq, Repr

/-- A frame from a stage: header fields, payload and CRC (R184 to R187). -/
structure StageAnswer where
  addr : Fin 16
  op : Fin 16
  dir : Bool
  seq : Bool
  payload : List Byte
  crc : BitVec 16
deriving DecidableEq, Repr

/-- What a sequenced converter's input is as a conversion completes, in nanovolts, with the excitation in nanovolts that a ratiometric input is held against; or that the modulator overloads, to a side (R216 to R218, R224). -/
inductive Conversion
  | input (nanovolts : Int) (excitation : Nat)
  | overload (positive : Bool)
deriving DecidableEq, Repr

/-- What the policy firmware posts to the host: an event entry of type 0x10 + `type` with its instance and body, or a telemetry record of KIND 0x10 + `kind` on a stream, with its instance, DEC, time of first sample and words (R430, R431). -/
inductive FwPost
  | event (type : Fin 16) (inst : Byte) (body : List Byte)
  | record (strm : Fin 4) (kind : Fin 16) (inst dec : Byte) (start : Nat) (words : List (BitVec 32))
deriving DecidableEq, Repr

/-- A duty word as it arrives: whether its checks pass (R27), and in bit p of `settled` whether DTF + 2.5 ns have passed since the last OFF of phase p (R132). -/
structure DutyRx where
  good : Bool
  settled : BitVec 224
deriving DecidableEq, Repr

/-- The release of the held words of a loop in the fixed class (R76), with `settled` as a duty word's. -/
structure ClassRelease where
  loop : LoopId
  settled : BitVec 224
deriving DecidableEq, Repr

/-- The MSI-X message control a host writes: the enable and the function mask (R428). -/
structure MsixCtl where
  enable : Bool
  mask : Bool
deriving DecidableEq, Repr

/-- A descriptor of opcode 0x00, or of an opcode that R424 does not list. -/
structure NopCmd where
  cmd : Cmd
  opcode : Byte
deriving DecidableEq, Repr

/-- A PMBus status register by its place in R438, or a command code that R437 and R440 do not list. -/
structure PmbCode where
  reg : Fin 9
  other : Option Byte
deriving DecidableEq, Repr

/-- A write of MBDONE: its slot, and what the policy firmware posts before it (R430, R431, R454). -/
structure MbDone where
  slot : Fin 32
  posts : List FwPost
deriving DecidableEq, Repr

/-- A line of the NVM read back (R488): whether it compares equal and, where the line makes a commit live, whether the coefficient tile of each position passes its check as it is loaded (R496). -/
structure LineBack where
  good : Bool
  coefOk : BitVec 128
deriving DecidableEq, Repr

/-- The commands, in the order of the opcode table. -/
inductive Instr
  /-- VAUX33_RISE (R31). -/
  | vaux33Rise
  /-- SUPPLIES_GOOD (R31). -/
  | suppliesGood (cold : ColdIn)
  /-- CORE_SUPPLY_LOSS (R517). -/
  | coreSupplyLoss
  /-- HOLDUP_ENTRY (R35). -/
  | holdupEntry
  /-- HOLDUP_END (R518). -/
  | holdupEnd
  /-- AON_POWER_OFF (R518). -/
  | aonPowerOff
  /-- DIE_LINK_UP (R482). -/
  | dieLinkUp (d : DieId)
  /-- LINK_TRAINING_FAIL (R54). -/
  | linkTrainingFail (d : DieId)
  /-- POL_SLEEP_REQUEST (R34). -/
  | polSleepRequest (req : Requester)
  /-- POL_SLEEP_ENTRY (R34). -/
  | polSleepEntry
  /-- POL_WAKE (R34). -/
  | polWake
  /-- KEEP_ALIVE_SEND (R28). -/
  | keepAliveSend (d : DieId)
  /-- DIE_KEEP_ALIVE_TIMEOUT (R28). -/
  | dieKeepAliveTimeout (d : DieId)
  /-- LINK_LOSS (R28). -/
  | linkLoss (d : DieId)
  /-- DUTY_WORD_ARRIVE (R123). -/
  | dutyWordArrive (d : DieId) (n : LoopId) (rx : DutyRx)
  /-- DISCARD_LIMIT (R27). -/
  | discardLimit (d : DieId) (n : LoopId)
  /-- SERVICE_FLIT_RECEIVE (R26). -/
  | serviceFlitReceive (d : DieId) (good : Bool)
  /-- SERVICE_FLIT_FAIL (R27). -/
  | serviceFlitFail (d : DieId) (req : Requester) (off : BitVec 17) (write : Bool)
  /-- SPEED_MEASURE (R41). -/
  | speedMeasure (idx : BitVec 8)
  /-- TB0_LOSS (R42). -/
  | tb0Loss
  /-- TB1_LOSS (R44). -/
  | tb1Loss
  /-- TB_RETURN (R43). -/
  | tbReturn (one : Bool)
  /-- TB1_RELOCK (R44). -/
  | tb1Relock
  /-- SNAPSHOT_LOW_READ (R510). -/
  | snapshotLowRead (req : Requester) (w : Fin 7)
  /-- SAMPLE_INSTANT (R74). -/
  | sampleInstant (n : LoopId) (vdiff : Int)
  /-- ERROR_CODE_ARRIVE (R71). -/
  | errorCodeArrive (n : LoopId)
  /-- RUN_AHEAD_COMPLETE (R70). -/
  | runAheadComplete (n : LoopId)
  /-- SAMPLE_OVERRUN (R79). -/
  | sampleOverrun (n : LoopId)
  /-- OVERRUN_LIMIT (R79). -/
  | overrunLimit (n : LoopId)
  /-- FIXED_CLASS_RELEASE (R76). -/
  | fixedClassRelease (r : ClassRelease)
  /-- CURRENT_SUM_LAUNCH (R215). -/
  | currentSumLaunch (d : DieId) (n : LoopId)
  /-- CURRENT_SUM_ARRIVE (R22). -/
  | currentSumArrive (d : DieId) (n : LoopId)
  /-- LOOP_START (R81). -/
  | loopStart (n : LoopId)
  /-- LOOP_STOP (R82). -/
  | loopStop (n : LoopId)
  /-- TRANSIENT_TIMEOUT (R68). -/
  | transientTimeout (n : LoopId)
  /-- CURRENT_LIMIT_PERSISTENCE (R65). -/
  | currentLimitPersistence (n : LoopId)
  /-- FEED_FORWARD_EXPIRE (R69). -/
  | feedForwardExpire (n : LoopId)
  /-- COEF_SWAP_REQUEST (R103). -/
  | coefSwapRequest (req : Requester) (n : LoopId) (set : Fin 4) (tileOk : Bool)
  /-- COEF_SWAP_APPLY (R104). -/
  | coefSwapApply (n : LoopId) (tileOk : Bool)
  /-- AUTOTUNE_START (R107). -/
  | autotuneStart (req : Requester) (n : LoopId)
  /-- AUTOTUNE_ABORT (R111). -/
  | autotuneAbort (req : Requester) (n : LoopId)
  /-- TUNE_LEAVE_TIMEOUT (R108). -/
  | tuneLeaveTimeout (n : LoopId)
  /-- TUNE_ENTER (R108). -/
  | tuneEnter (n : LoopId)
  /-- TUNE_MAXS_EXPIRE (R111). -/
  | tuneMaxsExpire (n : LoopId)
  /-- TUNE_EXIT (R112). -/
  | tuneExit (n : LoopId)
  /-- PWM_RELOAD (R131). -/
  | pwmReload (p : PhaseId) (cmp cmp2 : Bool)
  /-- BOOTSTRAP_REFRESH (R134). -/
  | bootstrapRefresh (p : PhaseId) (low : Bool)
  /-- TRIGGER_FIRE (R133). -/
  | triggerFire (p : PhaseId) (t : Fin 2) (soon : Bool)
  /-- CMPB_WRITE (R125). -/
  | cmpbWrite (req : Requester) (p : PhaseId) (value : Word)
  /-- TRIP_PIN_CHANGE (R138). -/
  | tripPinChange (d : DieId) (pin : Fin 8) (active : Bool)
  /-- PEAK_CURRENT_TRIP (R240). -/
  | peakCurrentTrip (p : PhaseId) (ticks : Fin 4096) (out : Bool)
  /-- TRIP_CLEAR (R141). -/
  | tripClear (req : Requester) (p : PhaseId)
  /-- BALANCE_UPDATE (R157). -/
  | balanceUpdate (n : LoopId)
  /-- MEAN_ARRIVE (R158). -/
  | meanArrive (d : DieId) (n : LoopId)
  /-- SHED_DWELL_EXPIRE (R159). -/
  | shedDwellExpire (n : LoopId)
  /-- PHASE_IDLE_REPORT (R161). -/
  | phaseIdleReport (p : PhaseId)
  /-- INTERLEAVE_COMMAND (R155). -/
  | interleaveCommand (d : DieId) (n : LoopId) (good : Bool)
  /-- SEG_TABLE_SUBMIT (R165). -/
  | segTableSubmit (req : Requester) (n : LoopId)
  /-- SEGMENT_DECREASE_DWELL (R167). -/
  | segmentDecreaseDwell (p : PhaseId)
  /-- WEAR_ROTATION (R169). -/
  | wearRotation (p : PhaseId) (low : Bool)
  /-- SEGMENT_RETIRE (R171). -/
  | segmentRetire (req : Requester) (p : PhaseId) (low : Bool) (first : Fin 16384) (num : Fin 32768)
  /-- HEALTH_MAP_FLUSH (R172). -/
  | healthMapFlush (tile : Fin 7168)
  /-- STAGE_FRAME_SEND (R188). -/
  | stageFrameSend (d : DieId) (lane : Fin 4) (tileOk : BitVec 16)
  /-- STAGE_ANSWER_TIMEOUT (R189). -/
  | stageAnswerTimeout (d : DieId) (lane : Fin 4)
  /-- STAGE_MISS_LIMIT (R198). -/
  | stageMissLimit (p : PhaseId)
  /-- ENUMERATION_RESET_WAIT (R190). -/
  | enumerationResetWait (d : DieId) (lane : Fin 4)
  /-- STAGE_IDENT_ANSWER (R190). -/
  | stageIdentAnswer (d : DieId) (lane : Fin 4) (a : StageAnswer)
  /-- STAGE_MAPW_ACK (R192). -/
  | stageMapwAck (d : DieId) (lane : Fin 4) (a : StageAnswer)
  /-- STAGE_CNTW_ACK (R192). -/
  | stageCntwAck (d : DieId) (lane : Fin 4) (a : StageAnswer)
  /-- STAGE_STAT_ANSWER (R194). -/
  | stageStatAnswer (d : DieId) (lane : Fin 4) (a : StageAnswer)
  /-- STAGE_FLTR_ANSWER (R195). -/
  | stageFltrAnswer (d : DieId) (lane : Fin 4) (a : StageAnswer)
  /-- STAGE_RELAY_ANSWER (R199). -/
  | stageRelayAnswer (d : DieId) (lane : Fin 4) (a : StageAnswer)
  /-- STAGE_ALERT (R196). -/
  | stageAlert (d : DieId) (lane : Fin 4)
  /-- STAGE_POLL (R196). -/
  | stagePoll (p : PhaseId)
  /-- ALERT_STUCK (R196). -/
  | alertStuck (d : DieId) (lane : Fin 4)
  /-- RELAY_SEND (R199). -/
  | relaySend (req : Requester) (d : DieId) (op : Fin 16) (len : Fin 64) (lane : Fin 4) (addr : Fin 16)
  /-- IADC_RESULT (R211). -/
  | iadcResult (p : PhaseId) (nanovolts : Int)
  /-- IADC_DELAYED_START (R212). -/
  | iadcDelayedStart (p : PhaseId)
  /-- SQ_ENTRY_COMPLETE (R221). -/
  | sqEntryComplete (x : SqId) (c : Conversion)
  /-- SQ_PASS_START (R222). -/
  | sqPassStart (x : SqId)
  /-- SQ_START (R222). -/
  | sqStart (req : Requester) (x : SqId)
  /-- SQ_STOP (R222). -/
  | sqStop (req : Requester) (x : SqId)
  /-- SQ_INJECT_REQUEST (R223). -/
  | sqInjectRequest (req : Requester) (x : SqId) (entry : Fin 16) (pre : Bool)
  /-- SQ_INJECTION_COMPLETE (R223). -/
  | sqInjectionComplete (x : SqId) (c : Conversion)
  /-- SQ_CALIBRATE_STEP (R225). -/
  | sqCalibrateStep (req : Requester) (x : SqId) (step : Fin 4) (entry : Fin 16) (ref : BitVec 24)
  /-- SQ_CALIBRATE_ABORT (R227). -/
  | sqCalibrateAbort (req : Requester) (x : SqId)
  /-- SQ_CALIBRATION_STEP_DONE (R227). -/
  | sqCalibrationStepDone (x : SqId) (c : List Conversion)
  /-- SQ_CALHOLD_EXPIRE (R226). -/
  | sqCalholdExpire (x : SqId)
  /-- LOOP_COMPARATOR_ACTIVE (R245). -/
  | loopComparatorActive (n : LoopId) (ov : Bool) (v : Int)
  /-- UV_MASK_END (R243). -/
  | uvMaskEnd (n : LoopId)
  /-- WINDOW_TICK (R248). -/
  | windowTick (r : RailId) (microvolts : Int)
  /-- WINDOW_CONFIRM_REQUEST (R249). -/
  | windowConfirmRequest (r : RailId)
  /-- AVS_TARGET_VOLTAGE_WRITE (R268). -/
  | avsTargetVoltageWrite (k : Fin 8) (sel : Fin 16) (hold : Bool) (mv : BitVec 16) (crcOk : Bool)
  /-- AVS_TARGET_VOLTAGE_READ (R267). -/
  | avsTargetVoltageRead (k : Fin 8) (sel : Fin 16) (crcOk : Bool)
  /-- AVS_TRANSITION_RATE_WRITE (R263). -/
  | avsTransitionRateWrite (k : Fin 8) (sel : Fin 16) (hold : Bool) (rate : BitVec 16) (crcOk : Bool)
  /-- AVS_TRANSITION_RATE_READ (R267). -/
  | avsTransitionRateRead (k : Fin 8) (sel : Fin 16) (crcOk : Bool)
  /-- AVS_CURRENT_READ (R267). -/
  | avsCurrentRead (k : Fin 8) (sel : Fin 16) (crcOk : Bool)
  /-- AVS_TEMPERATURE_READ (R267). -/
  | avsTemperatureRead (k : Fin 8) (sel : Fin 16) (crcOk : Bool)
  /-- AVS_RESET_VOLTAGE (R267). -/
  | avsResetVoltage (k : Fin 8) (sel : Fin 16) (hold crcOk : Bool)
  /-- AVS_STATUS_WRITE (R269), and, with `other`, a write of a data type that the port does not support (R267). -/
  | avsStatusWrite (k : Fin 8) (sel : Fin 16) (other hold crcOk : Bool)
  /-- AVS_STATUS_READ (R269). -/
  | avsStatusRead (k : Fin 8) (sel : Fin 16) (crcOk : Bool)
  /-- AVS_VERSION_READ, and, with `other`, a read of a data type that the port does not support (R267). -/
  | avsVersionRead (k : Fin 8) (sel : Fin 16) (other crcOk : Bool)
  /-- AVS_FRAME_TIMEOUT (R270). -/
  | avsFrameTimeout (k : Fin 8)
  /-- HINT_RECEIVE (R276). -/
  | hintReceive (l : Fin 8) (clean : Bool) (crc : BitVec 8) (w0 w1 : BitVec 16)
  /-- CANCEL_RECEIVE (R283). -/
  | cancelReceive (l : Fin 8) (clean : Bool) (crc : BitVec 8) (w0 : BitVec 16)
  /-- HINT_DEFER_TIMEOUT (R280). -/
  | hintDeferTimeout (l : Fin 8) (hid : Fin 64)
  /-- HINT_HOLD_END (R279). -/
  | hintHoldEnd (l : Fin 8) (hid : Fin 64)
  /-- HINT_FRAME_RETRY (R274). -/
  | hintFrameRetry (l : Fin 8) (k : Fin 8)
  /-- LHALERT_PULSE_END (R282). -/
  | lhalertPulseEnd (l : Fin 8)
  /-- INPUT_SAMPLE (R294). -/
  | inputSample (vins hsout : Nat) (shunt : Int)
  /-- HSW_QUALIFIED (R297). -/
  | hswQualified
  /-- HSW_INPUT_GOOD (R298). -/
  | hswInputGood
  /-- INRUSH_TIMEOUT (R298). -/
  | inrushTimeout
  /-- INPUT_LOSS (R299). -/
  | inputLoss
  /-- FAST_BREAKER (R301). -/
  | fastBreaker (amps16 : Nat)
  /-- SLOW_BREAKER (R301). -/
  | slowBreaker
  /-- FET_SOA_TRIP (R302). -/
  | fetSoaTrip
  /-- SHORTED_FET (R304). -/
  | shortedFet
  /-- RETRY_DELAY_EXPIRE (R303). -/
  | retryDelayExpire
  /-- TRIES_RESET (R303). -/
  | triesReset
  /-- LEAVE_REQUEST (R305). -/
  | leaveRequest (k : Nat)
  /-- BUDGET_GRANT (R307). -/
  | budgetGrant (tileOk : Bool)
  /-- LEAVE_WITHDRAW (R308). -/
  | leaveWithdraw (k : Nat)
  /-- BUDGET_WAIT_LIMIT (R308). -/
  | budgetWaitLimit (k : Nat)
  /-- LEAVE_DONE (R309). -/
  | leaveDone (k : Nat)
  /-- LEAVE_EXPIRE (R309). -/
  | leaveExpire (k : Nat)
  /-- DOMAIN_START (R324). -/
  | domainStart (req : Requester) (d : DomainId)
  /-- DOMAIN_STOP (R334). -/
  | domainStop (req : Requester) (d : DomainId)
  /-- DOMAIN_CLR (R333). -/
  | domainClr (req : Requester) (d : DomainId)
  /-- RAIL_RELEASE (R322). -/
  | railRelease (r : RailId)
  /-- RAIL_DWELL_COMPLETE (R326). -/
  | railDwellComplete (r : RailId)
  /-- QUALIFICATION_TIMEOUT (R327). -/
  | qualificationTimeout (r : RailId)
  /-- RAIL_CHATTER_LIMIT (R327). -/
  | railChatterLimit (r : RailId)
  /-- XPG_CHANGE (R325). -/
  | xpgChange (r : RailId) (high : Bool)
  /-- STOP_STEP_BEGIN (R329). -/
  | stopStepBegin (r : RailId) (tileOk : Bool)
  /-- STOP_STEP_END (R330). -/
  | stopStepEnd (r : RailId) (cold : ColdIn)
  /-- STOP_STEP_TIMEOUT (R330). -/
  | stopStepTimeout (r : RailId) (cold : ColdIn)
  /-- FIRST_FAILURE_ARM (R337). -/
  | firstFailureArm (req : Requester)
  /-- FAULT_POST (R344). -/
  | faultPost (k : Nat)
  /-- SAFETO_EXPIRE (R349). -/
  | safetoExpire (cold : ColdIn)
  /-- ESCALATION_EXPIRE (R352). -/
  | escalationExpire (i : Fin 64)
  /-- FAULT_ACKNOWLEDGE (R353). -/
  | faultAcknowledge (req : Requester) (slot : Fin 64) (code : BitVec 16)
  /-- FAULT_CLEAR (R353). -/
  | faultClear (req : Requester) (slot : Fin 64) (code : BitVec 16)
  /-- FAULT_ACK_AND_CLEAR (R353). -/
  | faultAckAndClear (req : Requester) (slot : Fin 64) (code : BitVec 16)
  /-- COLLECTOR_COMPARE (R358). -/
  | collectorCompare (mismatch : Bool)
  /-- FAULT_INJECT (R359). -/
  | faultInject (req : Requester) (tgt : Fin 16)
  /-- INJECTION_NOT_EXERCISED (R360). -/
  | injectionNotExercised
  /-- SOFTWARE_RAISE (R361). -/
  | softwareRaise (req : Requester) (cls : Fin 4) (inst num : BitVec 8)
  /-- COLD_START_REQUEST (R362). -/
  | coldStartRequest (req : Requester) (key : BitVec 16) (cold : ColdIn)
  /-- GUARD_END (R356). -/
  | guardEnd (req : Requester) (test : Bool)
  /-- GUARD_TEST (R356). -/
  | guardTest (req : Requester) (test : Bool)
  /-- SENSOR_READING (R373). -/
  | sensorReading (i : Fin 36) (temp : BitVec 12)
  /-- CROSS_CHECK_ROUND (R375). -/
  | crossCheckRound
  /-- THERMAL_SHUTDOWN (R378). -/
  | thermalShutdown (i : Fin 36)
  /-- COOLING_RESTART (R379). -/
  | coolingRestart (cold : ColdIn)
  /-- DOORBELL (R389). -/
  | doorbell (src : SourceId)
  /-- SOFTWARE_DOORBELL (R392). -/
  | softwareDoorbell (req : Requester) (src : SourceId)
  /-- GROUP_TIMER_EXPIRE (R394). -/
  | groupTimerExpire (g : Fin 64)
  /-- SOURCE_CFG_WRITE (R395). -/
  | sourceCfgWrite (req : Requester) (src : SourceId) (value : Word)
  /-- CLAIM (R400). -/
  | claim (req : Requester) (k : ProcId)
  /-- END_OF_INTERRUPT (R401). -/
  | endOfInterrupt (req : Requester) (k : ProcId) (src : SourceId)
  /-- PROCESSOR_CTRL_WRITE (R402). -/
  | processorCtrlWrite (req : Requester) (k : ProcId) (value : Word)
  /-- PCIE_LINK_DOWN (R416). -/
  | pcieLinkDown (tb4 : Bool)
  /-- FUNCTION_LEVEL_RESET (R416). -/
  | functionLevelReset
  /-- POWER_STATE_CHANGE (R429). -/
  | powerStateChange (d3 : Bool) (link : Fin 3) (pme : Bool) (busMaster : Bool) (msix : MsixCtl)
  /-- MSIX_UNMASK (R428). -/
  | msixUnmask (vec : Option (Fin 32)) (msix busMaster : Bool)
  /-- RING_CFG_WRITE (R417). -/
  | ringCfgWrite (req : Requester) (ring : Fin 22) (value : Word)
  /-- HOST_POLL (R419). -/
  | hostPoll (bells : List Word) (ok : Bool)
  /-- KICK (R419). -/
  | kick (req : Requester)
  /-- DMA_READ_ERROR (R421). -/
  | dmaReadError (ring : Fin 8)
  /-- NOP (R424). -/
  | nop (c : NopCmd)
  /-- REG_READ (R425). -/
  | regRead (c : Cmd) (fail : DieFail)
  /-- REG_WRITE (R425). -/
  | regWrite (c : Cmd) (fail : DieFail) (cold : ColdIn)
  /-- SET_VOUT (R425). -/
  | setVout (c : Cmd)
  /-- SET_SLEW (R425). -/
  | setSlew (c : Cmd)
  /-- FAULT_ACK (R425). -/
  | faultAck (c : Cmd)
  /-- DOMAIN (R425). -/
  | domain (c : Cmd)
  /-- LOG_READ (R495). -/
  | logRead (c : Cmd)
  /-- MAP_READ (R424). -/
  | mapRead (c : Cmd)
  /-- TILE_STAGE (R484). -/
  | tileStage (c : Cmd) (host : Option (List Byte))
  /-- COMMIT (R485). -/
  | commit (c : Cmd)
  /-- COMMIT_DISCARD (R485). -/
  | commitDiscard (c : Cmd)
  /-- IMAGE_STAGE (R458). -/
  | imageStage (c : Cmd) (host : Option (List Byte))
  /-- IMAGE_ACTIVATE (R458). -/
  | imageActivate (c : Cmd)
  /-- KEY_ENROL (R462). -/
  | keyEnrol (c : Cmd) (host : Option (List Byte))
  /-- WARM_START (R465). -/
  | warmStart (c : Cmd)
  /-- POLICY_COMMAND (R426). -/
  | policyCommand (c : Cmd) (opcode : Fin 128)
  /-- POLICY_TIMEOUT (R426). -/
  | policyTimeout (ring : Fin 8)
  /-- COMPLETION_MODERATION_EXPIRE (R427). -/
  | completionModerationExpire (ring : Fin 22)
  /-- TELEMETRY_FLUSH (R432). -/
  | telemetryFlush (kind : Fin 5) (inst : Fin 256) (trig : Fin 2)
  /-- PAGE (R436). -/
  | page (write : Option Byte) (pec : Pec)
  /-- OPERATION (R437). -/
  | operation (write : Option Byte) (pec : Pec)
  /-- CLEAR_FAULTS (R438). -/
  | clearFaults (pec : Pec)
  /-- WRITE_PROTECT (R437). -/
  | writeProtect (write : Option Byte) (pec : Pec)
  /-- CAPABILITY (R437). -/
  | capability (write : Bool) (pec : Pec)
  /-- VOUT_MODE (R437). -/
  | voutMode (write : Bool) (pec : Pec)
  /-- VOUT_COMMAND_WRITE (R439). -/
  | voutCommandWrite (value : BitVec 16) (pec : Pec)
  /-- VOUT_COMMAND_READ (R437). -/
  | voutCommandRead
  /-- VOUT_MAX (R437). -/
  | voutMax (write : Bool) (pec : Pec)
  /-- VOUT_MIN (R437). -/
  | voutMin (write : Bool) (pec : Pec)
  /-- VOUT_TRANSITION_RATE_WRITE (R263). -/
  | voutTransitionRateWrite (value : BitVec 16) (pec : Pec)
  /-- VOUT_TRANSITION_RATE_READ (R437). -/
  | voutTransitionRateRead
  /-- COEFFICIENTS (R437). -/
  | coefficients (write : Bool) (pec : Pec)
  /-- IOUT_OC_FAULT_LIMIT (R437). -/
  | ioutOcFaultLimit (write : Bool) (pec : Pec)
  /-- STATUS_READ (R438). -/
  | statusRead (code : PmbCode)
  /-- STATUS_WRITE_CLEAR (R438). -/
  | statusWriteClear (code : PmbCode) (value : Byte) (pec : Pec)
  /-- READ_VIN (R437). -/
  | readVin (write : Bool) (pec : Pec)
  /-- READ_IIN (R437). -/
  | readIin (write : Bool) (pec : Pec)
  /-- READ_PIN (R437). -/
  | readPin (write : Bool) (pec : Pec)
  /-- READ_VOUT (R437). -/
  | readVout (write : Bool) (pec : Pec)
  /-- READ_IOUT (R437). -/
  | readIout (write : Bool) (pec : Pec)
  /-- READ_POUT (R437). -/
  | readPout (write : Bool) (pec : Pec)
  /-- READ_TEMPERATURE_1 (R437). -/
  | readTemperature1 (write : Bool) (pec : Pec)
  /-- PMBUS_REVISION (R437). -/
  | pmbusRevision (write : Bool) (pec : Pec)
  /-- MFR_ID (R437). -/
  | mfrId (write : Bool) (pec : Pec)
  /-- MFR_MODEL (R437). -/
  | mfrModel (write : Bool) (pec : Pec)
  /-- MFR_REVISION (R437). -/
  | mfrRevision (write : Bool) (pec : Pec)
  /-- MFR_SERIAL (R437). -/
  | mfrSerial (write : Bool) (pec : Pec)
  /-- MFR_REG_ADDR (R440). -/
  | mfrRegAddr (write : Option Word) (pec : Pec)
  /-- MFR_REG_DATA_READ (R440). -/
  | mfrRegDataRead (dieOk : Bool)
  /-- MFR_REG_DATA_WRITE (R440). -/
  | mfrRegDataWrite (value : Word) (dieOk : Bool) (pec : Pec) (cold : ColdIn)
  /-- MFR_FAULT_SUMMARY (R440). -/
  | mfrFaultSummary (write : Bool) (pec : Pec)
  /-- MFR_FAULT_ACK (R440). -/
  | mfrFaultAck (value : Word) (pec : Pec)
  /-- MFR_DOMAIN (R440). -/
  | mfrDomain (value : Byte) (pec : Pec)
  /-- MFR_EPOCH (R440). -/
  | mfrEpoch (write : Bool) (pec : Pec)
  /-- MFR_SEQ_STATE (R440). -/
  | mfrSeqState (write : Bool) (pec : Pec)
  /-- SMBUS_TIMEOUT (R435). -/
  | smbusTimeout
  /-- ALERT_RESPONSE (R435). -/
  | alertResponse
  /-- MCTP_PACKET (R441). -/
  | mctpPacket (binding : Fin 2) (src dest : Byte) (som eom : Bool) (seq : Fin 4) (tag : Fin 16) (payload : List Byte)
  /-- SET_ENDPOINT_ID (R441). -/
  | setEndpointId (k : Nat)
  /-- GET_ENDPOINT_ID (R441). -/
  | getEndpointId (k : Nat)
  /-- GET_ENDPOINT_UUID (R441). -/
  | getEndpointUuid (k : Nat)
  /-- GET_MCTP_VERSION_SUPPORT (R441). -/
  | getMctpVersionSupport (k : Nat)
  /-- GET_MESSAGE_TYPE_SUPPORT (R441). -/
  | getMessageTypeSupport (k : Nat)
  /-- MCTP_REG_READ (R442). -/
  | mctpRegRead (k : Nat) (fail : Option (Fin 32))
  /-- GET_VERSION (R443). -/
  | getVersion (k : Nat)
  /-- GET_CAPABILITIES (R443). -/
  | getCapabilities (k : Nat)
  /-- NEGOTIATE_ALGORITHMS (R443). -/
  | negotiateAlgorithms (k : Nat)
  /-- GET_DIGESTS (R443). -/
  | getDigests (k : Nat)
  /-- GET_CERTIFICATE (R461). -/
  | getCertificate (k : Nat)
  /-- CHALLENGE (R443). -/
  | challenge (k : Nat)
  /-- GET_MEASUREMENTS (R470). -/
  | getMeasurements (k : Nat)
  /-- CHUNK_GET (R443). -/
  | chunkGet (k : Nat)
  /-- SPDM_SIGNATURE_DONE (R444). -/
  | spdmSignatureDone
  /-- MBTAKE (R454). -/
  | mbtake (req : Requester) (slot : Fin 32)
  /-- MBDONE (R454). -/
  | mbdone (req : Requester) (d : MbDone)
  /-- BOOTOK (R459). -/
  | bootok (req : Requester)
  /-- FW_WARM_REQUEST (R465). -/
  | fwWarmRequest (req : Requester) (key : BitVec 16)
  /-- BOOT_TIMEOUT (R460). -/
  | bootTimeout (cold : ColdIn)
  /-- STGCTL_GO (R484). -/
  | stgctlGo (req : Requester) (kind : Fin 16) (index : Fin 8192)
  /-- CMTCTL_GO (R485). -/
  | cmtctlGo (req : Requester)
  /-- CMTCTL_DISCARD (R485). -/
  | cmtctlDiscard (req : Requester)
  /-- NVM_LINE_WRITE (R488). -/
  | nvmLineWrite (b : LineBack)
  /-- SCRUB_CHECK (R498). -/
  | scrubCheck (nvmOk copyOk : Bool)
  /-- NVM_RDDATA_READ (R501). -/
  | nvmRddataRead (req : Requester)
  /-- REGISTER_WRITE (R508). -/
  | registerWrite (req : Requester) (off : BitVec 21) (value : Word) (cold : ColdIn)
  /-- W1C_CLEAR (R13). -/
  | w1cClear (req : Requester) (off : BitVec 21) (value : Word)
  /-- COUNTER_CLEAR (R85). -/
  | counterClear (req : Requester) (off : BitVec 21) (value : Word)
  /-- PCIE_LINK_UP (R414). -/
  | pcieLinkUp (gen : Fin 4) (two : Bool)
  /-- PWM_EDGE (R127). -/
  | pwmEdge (p : PhaseId) (edge : PwmEdge)
  /-- ALERT_LINE_RELEASE (R196). -/
  | alertLineRelease (d : DieId) (lane : Fin 4)
  /-- TB_LOCK_LOSS (R42). -/
  | tbLockLoss (tb : Fin 3)
  /-- LOOP_COMPARATOR_INACTIVE (R244). -/
  | loopComparatorInactive (n : LoopId) (ov : Bool)
deriving DecidableEq, Repr

end Sys2Proof
end

