-- ==== Sys2Proof/Machine/Checks.lean ====
section
/-! DEFINITION. The check codes the device computes: CRC-32C of tiles and log records (R478), CRC-16 of stage frames (R187), CRC-8 of hint frames (R272) and SHA-384 of digests (R469). -/

namespace Sys2Proof.Machine

/-- One bit of a reflected CRC of width `n` with reflected polynomial `p`. -/
def crcBitR {n : Nat} (p c : BitVec n) : BitVec n := if c.getLsbD 0 then (c >>> 1) ^^^ p else c >>> 1

/-- One byte of a reflected CRC. -/
def crcByteR {n : Nat} (p : BitVec n) (c : BitVec n) (b : Byte) : BitVec n :=
  let c := c ^^^ b.setWidth n
  crcBitR p (crcBitR p (crcBitR p (crcBitR p (crcBitR p (crcBitR p (crcBitR p (crcBitR p c)))))))

/-- CRC-32C: polynomial 0x1EDC6F41 reflected, initial value and final XOR all ones (R478). -/
def crc32c (l : List Byte) : BitVec 32 := ~~~(l.foldl (crcByteR (0x82f63b78 : BitVec 32)) 0xffffffff)

/-- One bit of a CRC that takes the most significant bit first. -/
def crcBitM {n : Nat} (p c : BitVec n) : BitVec n := if c.getMsbD 0 then (c <<< 1) ^^^ p else c <<< 1

/-- One byte of a CRC that takes the most significant bit first. -/
def crcByteM {n : Nat} (p : BitVec n) (c : BitVec n) (b : Byte) : BitVec n :=
  let c := c ^^^ (b.setWidth n <<< (n - 8))
  crcBitM p (crcBitM p (crcBitM p (crcBitM p (crcBitM p (crcBitM p (crcBitM p (crcBitM p c)))))))

/-- The e-th root of n, rounded down, by its bits from bit b - 1 down to bit 0; r is what the bits above give. -/
def rootBits (e n : Nat) : Nat → Nat → Nat
  | 0, r => r
  | b + 1, r => rootBits e n b (if (r + 2 ^ b) ^ e ≤ n then r + 2 ^ b else r)

/-- The first 64 bits after the point of the e-th root of p. -/
def rootFraction (e p : Nat) : BitVec 64 := BitVec.ofNat 64 (rootBits e (p * 2 ^ (64 * e)) 70 0)

/-- The first 80 prime numbers. -/
def shaPrimes : List Nat := (List.range 410).filter fun n => decide (2 ≤ n) && (List.range n).all fun d => decide (d < 2) || n % d != 0

/-- The 80 words added in the steps: fractions of the cube roots of the primes (PRESUMED: FIPS 180-4). -/
def shaConsts : List (BitVec 64) := shaPrimes.map (rootFraction 3)

/-- The digest before the first block: fractions of the square roots of the ninth to the sixteenth prime (PRESUMED: FIPS 180-4). -/
def shaStart : List (BitVec 64) := ((shaPrimes.drop 8).take 8).map (rootFraction 2)

/-- The exclusive or of rotations to the right of one word. -/
def xorTurns (x : BitVec 64) (turns : List Nat) : BitVec 64 := turns.foldl (fun y n => y ^^^ x.rotateRight n) 0

/-- One step, with the sum of its constant and message word: the four newest words of each of the two sequences that the compression forms, the newest first. -/
def shaStep (st : List (BitVec 64) × List (BitVec 64)) (kw : BitVec 64) : List (BitVec 64) × List (BitVec 64) :=
  match st with
  | ([a0, a1, a2, a3], [e0, e1, e2, e3]) =>
    let pick := e2 ^^^ (e0 &&& (e1 ^^^ e2))
    let most := (a0 &&& a1) ||| (a2 &&& (a0 ||| a1))
    let new := e3 + xorTurns e0 [14, 18, 41] + pick + kw
    ([new + xorTurns a0 [28, 34, 39] + most, a0, a1, a2], [a3 + new, e0, e1, e2])
  | _ => st

/-- The message words, the newest first, carried on by n more. -/
def shaWords : Nat → List (BitVec 64) → List (BitVec 64)
  | 0, l => l
  | n + 1, l =>
    let at' := fun i => l.getD i 0
    let near := xorTurns (at' 1) [19, 61] ^^^ (at' 1 >>> 6)
    let far := xorTurns (at' 14) [1, 8] ^^^ (at' 14 >>> 7)
    shaWords n ((at' 15 + far + at' 6 + near) :: l)

/-- The number a list of bytes spells, most significant first. -/
def natBE (l : List Byte) : Nat := l.foldl (fun n b => n * 256 + b.toNat) 0

/-- The low `n` bytes of a number, most significant first. -/
def bytesBE (n v : Nat) : List Byte := ((List.range n).map fun i => BitVec.ofNat 8 (v / 256 ^ (n - 1 - i)))

/-- The digest after one more block of 128 bytes. -/
def shaBlock (digest : List (BitVec 64)) (block : List Byte) : List (BitVec 64) :=
  let first := ((List.range 16).map fun i => BitVec.ofNat 64 (natBE ((block.drop (8 * i)).take 8))).reverse
  let sums := (shaWords 64 first).reverse.zipWith (· + ·) shaConsts
  let last := sums.foldl shaStep (digest.take 4, digest.drop 4)
  digest.zipWith (· + ·) (last.1 ++ last.2)

/-- SHA-384 of a list of bytes, 48 bytes (PRESUMED: FIPS 180-4, the function the spec names). -/
def sha384 (l : List Byte) : List Byte :=
  let fill := (239 - l.length % 128) % 128
  let m := l ++ [0x80] ++ List.replicate fill 0 ++ bytesBE 16 (8 * l.length)
  let digest := (List.range (m.length / 128)).foldl (fun d i => shaBlock d ((m.drop (128 * i)).take 128)) shaStart
  (digest.take 6).flatMap fun x => bytesBE 8 x.toNat

end Sys2Proof.Machine
end

