-- ==== Sys2Proof/Machine/Ecdsa.lean ====
section
/-! DEFINITION. Verification of an ECDSA P-384 signature (R456, R457, R462): the curve and the equations are those of FIPS 186 (PRESUMED, log entry 38), numbers in bytes most significant first. -/

namespace Sys2Proof.Machine

/-- The field's prime, the order of the group, the curve's coefficient b and its base point. -/
def p384 : Nat := 2 ^ 384 - 2 ^ 128 - 2 ^ 96 + 2 ^ 32 - 1
def n384 : Nat := 0xffffffffffffffffffffffffffffffffffffffffffffffffc7634d81f4372ddf581a0db248b0a77aecec196accc52973
def b384 : Nat := 0xb3312fa7e23ee7e4988e056be3f82d19181d9c6efe8141120314088f5013875ac656398d8a2ed19d2a85c8edd3ec2aef
def g384x : Nat := 0xaa87ca22be8b05378eb1c71ef320ad746e1d3b628ba79b9859f741e082542a385502f25dbf55296c3a545e3872760ab7
def g384y : Nat := 0x3617de4a96262c6f5d9e98bf9292dc29f8f41dbd289a147ce9da3113b5f0b8c00a60b1ce1d7e819d7a431d7c90ea0e5f

/-- A point in Jacobian coordinates; z = 0 is the point at infinity. -/
structure Point where
  x : Nat
  y : Nat
  z : Nat
deriving DecidableEq, Repr

/-- A difference in a field. -/
def subMod (p a b : Nat) : Nat := (a + p - b % p) % p

/-- A power in a ring of residues, by the low `f` bits of the exponent. -/
def powMod (m : Nat) : Nat → Nat → Nat → Nat
  | 0, _, _ => 1
  | f + 1, a, e => (if e % 2 = 1 then a else 1) * powMod m f (a * a % m) (e / 2) % m

def invMod (m a : Nat) : Nat := powMod m 384 (a % m) (m - 2)

/-- Twice a point (the curve's a is −3). -/
def Point.double (q : Point) : Point :=
  let p := p384
  let zz := q.z * q.z % p
  let m := 3 * (subMod p q.x zz * (q.x + zz) % p) % p
  let yy := q.y * q.y % p
  let s := 4 * (q.x * yy % p) % p
  let x := subMod p (m * m % p) (2 * s)
  ⟨x, subMod p (m * subMod p s x % p) (8 * (yy * yy % p)), 2 * (q.y * q.z % p) % p⟩

/-- The sum of two points. -/
def Point.add (q r : Point) : Point :=
  let p := p384
  if q.z = 0 then r
  else if r.z = 0 then q
  else
    let qz := q.z * q.z % p
    let rz := r.z * r.z % p
    let u := q.x * rz % p
    let v := subMod p (r.x * qz % p) u
    let s := q.y * (rz * r.z % p) % p
    let w := subMod p (r.y * (qz * q.z % p) % p) s
    if v = 0 then (if w = 0 then q.double else ⟨1, 1, 0⟩)
    else
      let vv := v * v % p
      let vvv := vv * v % p
      let uvv := u * vv % p
      let x := subMod p (subMod p (w * w % p) vvv) (2 * uvv)
      ⟨x, subMod p (w * subMod p uvv x % p) (s * vvv % p), q.z * (r.z * v % p) % p⟩

/-- A multiple of a point, by the low `f` bits of the number. -/
def Point.mul : Nat → Nat → Point → Point
  | 0, _, _ => ⟨1, 1, 0⟩
  | f + 1, k, q =>
    let h := Point.mul f (k / 2) q.double
    if k % 2 = 1 then h.add q else h

/-- A public key, x then y, lies on the curve. -/
def keyOk (x y : Nat) : Bool :=
  decide (x < p384) && decide (y < p384) && (y * y % p384 == (x * x % p384 * x + (p384 - 3) * x + b384) % p384)

/-- A signature, r then s, over a 48-byte digest verifies under a public key, x then y. -/
def ecdsaOk (key digest sig : List Byte) : Bool :=
  let x := natBE (key.take 48)
  let y := natBE ((key.drop 48).take 48)
  let r := natBE (sig.take 48)
  let s := natBE ((sig.drop 48).take 48)
  if keyOk x y && decide (0 < r) && decide (r < n384) && decide (0 < s) && decide (s < n384) then
    let w := invMod n384 s
    let q := (Point.mul 384 (natBE digest * w % n384) ⟨g384x, g384y, 1⟩).add (Point.mul 384 (r * w % n384) ⟨x, y, 1⟩)
    let zi := invMod p384 q.z
    q.z != 0 && (q.x * (zi * zi % p384) % p384) % n384 == r
  else false

end Sys2Proof.Machine
end

