-- ==== Sys2Proof/Machine/RegTable.lean ====
section
/-! DEFINITION. The register map of R502 to R504 with the field tables of every block: where each register lies, and each field's place, access code and reset value. -/

namespace Sys2Proof.Machine

/-- The access codes of R13; a reserved field is one that no row lists. -/
inductive Acc | rw | ro | w1c | w1s | wo | rwl
deriving DecidableEq, Repr

/-- The power domain a register lies in (R30, R503, R504). -/
inductive Dom | aon | core | pol | host | nvm | hka | px (d : Fin 7)
deriving DecidableEq, Repr

/-- A field of a register: its lowest bit, its width, its access code and its reset value. -/
structure FieldRow where
  lo : Nat
  width : Nat
  acc : Acc
  reset : Nat
deriving DecidableEq, Repr

/-- A register of an instance: `count` words from `off`, `stride` bytes apart. -/
structure RegRow where
  off : Nat
  count : Nat
  stride : Nat
  fields : List FieldRow
deriving DecidableEq, Repr

/-- A block: `count` instances from `base`, `stride` bytes apart; a die block repeats on every phase die. -/
structure BlockRow where
  base : Nat
  stride : Nat
  count : Nat
  die : Bool
  dom : Dom
  regs : List RegRow
deriving DecidableEq, Repr

/-- TOP (R503; fields R4, R5, R6, R7). -/
def regsOfTOP : List RegRow :=
  [⟨0x0, 1, 4, [⟨24, 8, .ro, 0x1c⟩, ⟨16, 8, .ro, 0xc⟩, ⟨0, 16, .ro, 0x8224⟩]⟩,
   ⟨0x4, 1, 4, [⟨16, 8, .ro, 0x12⟩, ⟨8, 8, .ro, 0x11⟩, ⟨0, 8, .ro, 3⟩]⟩,
   ⟨0x8, 1, 4, [⟨9, 7, .ro, 0⟩, ⟨1, 7, .ro, 0⟩, ⟨0, 1, .ro, 1⟩]⟩,
   ⟨0xc, 1, 4, [⟨0, 32, .ro, (Config.uid 0).toNat⟩]⟩,
   ⟨0x10, 1, 4, [⟨0, 32, .ro, (Config.uid 1).toNat⟩]⟩,
   ⟨0x14, 1, 4, [⟨0, 32, .ro, (Config.uid 2).toNat⟩]⟩,
   ⟨0x18, 1, 4, [⟨0, 32, .ro, (Config.uid 3).toNat⟩]⟩]

/-- LINK (R503; fields R29). -/
def regsOfLINK : List RegRow :=
  [⟨0x0, 1, 4, [⟨24, 8, .ro, 0⟩, ⟨16, 8, .ro, 0⟩, ⟨3, 1, .wo, 0⟩, ⟨2, 1, .w1c, 0⟩, ⟨1, 1, .ro, 0⟩, ⟨0, 1, .ro, 0⟩]⟩]

/-- ACC (R503; fields R512). -/
def regsOfACC : List RegRow :=
  [⟨0x0, 1, 4, [⟨31, 1, .ro, 1⟩, ⟨4, 21, .ro, 0⟩, ⟨3, 1, .w1c, 0⟩, ⟨2, 1, .w1c, 0⟩, ⟨1, 1, .w1c, 0⟩, ⟨0, 1, .w1c, 0⟩]⟩,
   ⟨0x4, 1, 4, [⟨24, 8, .ro, 0⟩, ⟨16, 8, .ro, 0⟩, ⟨8, 8, .ro, 0⟩, ⟨1, 7, .ro, 0⟩, ⟨0, 1, .wo, 0⟩]⟩]

/-- PWR (R503; fields R36, R37). -/
def regsOfPWR : List RegRow :=
  [⟨0x0, 1, 4, [⟨31, 1, .ro, 0⟩, ⟨6, 7, .ro, 0⟩, ⟨5, 1, .ro, 0⟩, ⟨4, 1, .ro, 0⟩, ⟨3, 1, .ro, 0⟩, ⟨2, 1, .ro, 0⟩, ⟨1, 1, .ro, 0⟩, ⟨0, 1, .ro, 1⟩]⟩,
   ⟨0x4, 1, 4, [⟨0, 1, .w1s, 0⟩]⟩]

/-- TIME (R503; fields R41, R45, R46). -/
def regsOfTIME : List RegRow :=
  [⟨0x0, 1, 4, [⟨0, 32, .ro, 0⟩]⟩,
   ⟨0x4, 1, 4, [⟨0, 32, .ro, 0⟩]⟩,
   ⟨0x8, 1, 4, [⟨24, 8, .ro, 0⟩, ⟨16, 8, .ro, 0⟩, ⟨10, 1, .wo, 0⟩, ⟨9, 1, .w1c, 0⟩, ⟨8, 1, .w1c, 0⟩, ⟨7, 1, .ro, 0⟩, ⟨5, 1, .ro, 0⟩, ⟨4, 1, .ro, 0⟩, ⟨3, 1, .ro, 0⟩, ⟨2, 1, .ro, 0⟩, ⟨1, 1, .ro, 0⟩, ⟨0, 1, .ro, 0⟩]⟩,
   ⟨0xc, 1, 4, [⟨8, 8, .rwl, 0x60⟩, ⟨0, 8, .ro, 0⟩]⟩]

/-- WMON (R503; fields R259). -/
def regsOfWMON : List RegRow :=
  [⟨0x0, 1, 4, [⟨16, 12, .rwl, 0xfff⟩, ⟨0, 12, .rwl, 0⟩]⟩,
   ⟨0x4, 1, 4, [⟨24, 8, .rwl, 8⟩, ⟨14, 10, .rwl, 0xa⟩, ⟨12, 2, .rwl, 0⟩, ⟨8, 4, .rwl, 0⟩, ⟨7, 1, .rwl, 0⟩, ⟨4, 3, .rwl, 3⟩, ⟨1, 1, .rwl, 1⟩, ⟨0, 1, .rwl, 0⟩]⟩,
   ⟨0x8, 1, 4, [⟨3, 1, .ro, 0⟩, ⟨2, 1, .ro, 0⟩, ⟨0, 2, .ro, 3⟩]⟩,
   ⟨0xc, 1, 4, [⟨3, 1, .wo, 0⟩, ⟨2, 1, .w1c, 0⟩, ⟨1, 1, .w1c, 0⟩, ⟨0, 1, .w1c, 0⟩]⟩,
   ⟨0x10, 1, 4, [⟨24, 8, .ro, 0⟩, ⟨16, 8, .ro, 0⟩, ⟨8, 8, .ro, 0⟩]⟩]

/-- FLTA (R503; fields R372). -/
def regsOfFLTA : List RegRow :=
  [⟨0x0, 1, 4, [⟨0, 1, .ro, 1⟩]⟩,
   ⟨0x4, 1, 4, [⟨24, 8, .ro, 0⟩, ⟨16, 8, .ro, 0⟩, ⟨0, 16, .ro, 0⟩]⟩,
   ⟨0x8, 1, 4, [⟨0, 32, .ro, 0⟩]⟩,
   ⟨0xc, 1, 4, [⟨0, 32, .ro, 0⟩]⟩]

/-- THMA (R503; fields R386). -/
def regsOfTHMA : List RegRow :=
  [⟨0x0, 1, 4, [⟨24, 8, .ro, 0⟩, ⟨22, 2, .ro, 0⟩, ⟨8, 8, .ro, 0⟩, ⟨0, 2, .ro, 0⟩]⟩,
   ⟨0x4, 1, 4, [⟨0, 32, .ro, 0⟩]⟩,
   ⟨0x8, 1, 4, [⟨0, 32, .ro, 0⟩]⟩,
   ⟨0xc, 1, 4, [⟨0, 8, .ro, 0⟩]⟩,
   ⟨0x10, 1, 4, [⟨0, 16, .ro, 0⟩]⟩]

/-- FWA (R503; fields R475). -/
def regsOfFWA : List RegRow :=
  [⟨0x0, 1, 4, [⟨4, 4, .ro, 0⟩, ⟨0, 4, .ro, 0⟩]⟩]

/-- LOOP (R503; fields R86, R87, R88, R89, R90, R91, R92, R93, R94, R95, R96, R97, R98). -/
def regsOfLOOP : List RegRow :=
  [⟨0x0, 1, 4, [⟨11, 1, .rw, 0⟩, ⟨10, 1, .rw, 0⟩, ⟨9, 1, .rw, 0⟩, ⟨8, 1, .rw, 1⟩, ⟨7, 1, .rw, 0⟩, ⟨6, 1, .rwl, 0⟩, ⟨5, 1, .rw, 0⟩, ⟨4, 1, .rw, 1⟩, ⟨0, 1, .rwl, 0⟩]⟩,
   ⟨0x4, 1, 4, [⟨22, 2, .ro, 0⟩, ⟨15, 1, .ro, 0⟩, ⟨14, 1, .ro, 0⟩, ⟨13, 1, .ro, 0⟩, ⟨12, 1, .ro, 0⟩, ⟨11, 1, .ro, 0⟩, ⟨8, 2, .ro, 0⟩, ⟨0, 4, .ro, 0⟩]⟩,
   ⟨0x8, 1, 4, [⟨31, 1, .rwl, 0⟩, ⟨16, 10, .rwl, 0x20⟩, ⟨0, 10, .rwl, 0⟩]⟩,
   ⟨0xc, 1, 4, [⟨15, 1, .ro, 0⟩, ⟨0, 14, .ro, 0⟩]⟩,
   ⟨0x10, 1, 4, [⟨16, 16, .rw, 0x3e8⟩, ⟨0, 14, .rw, 0⟩]⟩,
   ⟨0x14, 1, 4, [⟨0, 16, .rw, 0⟩]⟩,
   ⟨0x18, 1, 4, [⟨16, 10, .rw, 0x40⟩, ⟨10, 6, .rw, 8⟩, ⟨0, 10, .rw, 0xc0⟩]⟩,
   ⟨0x1c, 1, 4, [⟨16, 16, .rw, 0⟩, ⟨0, 16, .rw, 0⟩]⟩,
   ⟨0x20, 1, 4, [⟨16, 16, .rw, 0xffff⟩, ⟨0, 16, .rw, 0⟩]⟩,
   ⟨0x24, 1, 4, [⟨16, 16, .rwl, 0⟩]⟩,
   ⟨0x28, 1, 4, [⟨16, 16, .rw, 0x100⟩, ⟨0, 16, .rw, 0x100⟩]⟩,
   ⟨0x2c, 1, 4, [⟨16, 16, .rw, 0⟩, ⟨8, 8, .rw, 0x10⟩, ⟨0, 8, .rw, 0x10⟩]⟩,
   ⟨0x30, 1, 4, [⟨8, 24, .ro, 0⟩, ⟨0, 1, .wo, 0⟩]⟩,
   ⟨0x34, 1, 4, [⟨0, 32, .ro, 0⟩]⟩,
   ⟨0x38, 1, 4, [⟨16, 16, .ro, 0⟩, ⟨8, 2, .ro, 0⟩, ⟨1, 1, .wo, 0⟩, ⟨0, 1, .w1c, 0⟩]⟩,
   ⟨0x3c, 1, 4, [⟨5, 1, .wo, 0⟩, ⟨4, 1, .w1c, 0⟩, ⟨3, 1, .w1c, 0⟩, ⟨2, 1, .w1c, 0⟩, ⟨1, 1, .w1c, 0⟩, ⟨0, 1, .w1c, 0⟩]⟩,
   ⟨0x40, 1, 4, [⟨24, 8, .ro, 0⟩, ⟨16, 8, .ro, 0⟩, ⟨8, 8, .ro, 0⟩, ⟨0, 8, .ro, 0⟩]⟩,
   ⟨0x44, 1, 4, [⟨16, 16, .ro, 0⟩, ⟨0, 16, .ro, 0⟩]⟩,
   ⟨0x48, 1, 4, [⟨12, 20, .ro, 0⟩, ⟨10, 2, .ro, 0⟩]⟩,
   ⟨0x4c, 1, 4, [⟨16, 16, .ro, 0⟩, ⟨0, 12, .ro, 0⟩]⟩,
   ⟨0x50, 1, 4, [⟨0, 18, .ro, 0⟩]⟩,
   ⟨0x54, 1, 4, [⟨0, 32, .ro, 0⟩]⟩]

/-- COEF (R503; fields R115, R116, R117, R118). -/
def regsOfCOEF : List RegRow :=
  [⟨0x0, 1, 4, [⟨12, 4, .ro, 0⟩, ⟨5, 1, .w1c, 0⟩, ⟨4, 1, .w1c, 0⟩, ⟨3, 1, .ro, 0⟩, ⟨2, 1, .wo, 0⟩, ⟨0, 2, .rw, 0⟩]⟩,
   ⟨0x4, 1, 4, [⟨0, 4, .ro, 0⟩]⟩,
   ⟨0x8, 4, 4, [⟨0, 32, .ro, 0⟩]⟩,
   ⟨0x18, 1, 4, [⟨16, 16, .ro, 0⟩, ⟨8, 8, .ro, 0⟩, ⟨0, 1, .wo, 0⟩]⟩,
   ⟨0x20, 1, 4, [⟨16, 16, .rw, 0⟩, ⟨0, 10, .rw, 4⟩]⟩,
   ⟨0x24, 1, 4, [⟨24, 4, .rw, 4⟩, ⟨16, 6, .rw, 8⟩, ⟨0, 16, .rw, 0x400⟩]⟩,
   ⟨0x28, 1, 4, [⟨16, 16, .rw, 0x14⟩, ⟨0, 16, .rw, 0x1f4⟩]⟩,
   ⟨0x2c, 1, 4, [⟨1, 1, .wo, 0⟩, ⟨0, 1, .wo, 0⟩]⟩,
   ⟨0x30, 1, 4, [⟨16, 16, .rwl, 0⟩, ⟨0, 10, .rwl, 0x40⟩]⟩,
   ⟨0x34, 1, 4, [⟨28, 4, .ro, 0⟩, ⟨24, 4, .ro, 0⟩, ⟨16, 8, .ro, 0⟩, ⟨0, 16, .ro, 0⟩]⟩,
   ⟨0x38, 1, 4, [⟨0, 24, .ro, 0⟩]⟩,
   ⟨0x3c, 1, 4, [⟨31, 1, .ro, 0⟩, ⟨0, 20, .ro, 0⟩]⟩,
   ⟨0x40, 1, 4, [⟨0, 16, .ro, 0⟩]⟩,
   ⟨0x44, 1, 4, [⟨24, 8, .ro, 0⟩, ⟨16, 8, .ro, 0⟩, ⟨2, 1, .wo, 0⟩, ⟨1, 1, .w1c, 0⟩, ⟨0, 1, .w1c, 0⟩]⟩]

/-- PHSL (R503; fields R175, R176). -/
def regsOfPHSL : List RegRow :=
  [⟨0x0, 1, 4, [⟨16, 6, .rwl, 1⟩, ⟨7, 1, .rw, 0⟩, ⟨6, 1, .rw, 0⟩, ⟨0, 1, .rw, 1⟩]⟩,
   ⟨0x4, 1, 4, [⟨24, 8, .rw, 4⟩, ⟨16, 8, .rw, 0x10⟩, ⟨0, 16, .rw, 0x32⟩]⟩,
   ⟨0x8, 1, 4, [⟨16, 16, .rw, 0⟩, ⟨0, 16, .rw, 0⟩]⟩,
   ⟨0xc, 1, 4, [⟨0, 22, .rw, 0xc80⟩]⟩,
   ⟨0x10, 1, 4, [⟨24, 6, .ro, 0⟩, ⟨16, 6, .ro, 0⟩, ⟨4, 1, .ro, 0⟩, ⟨3, 1, .ro, 0⟩, ⟨2, 1, .ro, 0⟩, ⟨0, 2, .ro, 0⟩]⟩,
   ⟨0x14, 1, 4, [⟨0, 22, .ro, 0⟩]⟩,
   ⟨0x18, 1, 4, [⟨4, 1, .wo, 0⟩, ⟨3, 1, .w1c, 0⟩, ⟨2, 1, .w1c, 0⟩, ⟨1, 1, .w1c, 0⟩, ⟨0, 1, .w1c, 0⟩]⟩,
   ⟨0x1c, 1, 4, [⟨24, 8, .ro, 0⟩, ⟨16, 8, .ro, 0⟩, ⟨8, 8, .ro, 0⟩, ⟨0, 8, .ro, 0⟩]⟩]

/-- SEGL (R503; fields R179). -/
def regsOfSEGL : List RegRow :=
  [⟨0x0, 8, 4, [⟨20, 12, .rw, 0⟩, ⟨9, 9, .rw, 0x100⟩, ⟨0, 9, .rw, 0x100⟩]⟩,
   ⟨0x20, 1, 4, [⟨24, 8, .rw, 4⟩, ⟨0, 14, .rw, 0x100⟩]⟩,
   ⟨0x24, 1, 4, [⟨16, 16, .rw, 0x64⟩, ⟨0, 14, .rw, 0⟩]⟩,
   ⟨0x28, 1, 4, [⟨16, 9, .rwl, 0x10⟩, ⟨0, 9, .rwl, 0x80⟩]⟩,
   ⟨0x2c, 1, 4, [⟨24, 8, .ro, 0⟩, ⟨4, 1, .wo, 0⟩, ⟨3, 1, .rw, 1⟩, ⟨2, 1, .w1c, 0⟩, ⟨0, 1, .wo, 0⟩]⟩]

/-- EADC (R503; fields R231). -/
def regsOfEADC : List RegRow :=
  [⟨0x0, 1, 4, [⟨0, 8, .rw, 0⟩]⟩,
   ⟨0x4, 1, 4, [⟨2, 1, .wo, 0⟩, ⟨1, 1, .w1c, 0⟩, ⟨0, 1, .w1c, 0⟩]⟩,
   ⟨0x8, 1, 4, [⟨16, 16, .ro, 0⟩, ⟨0, 16, .ro, 0⟩]⟩]

/-- SQ[x] (R503; fields R234, R235, R236, R237). -/
def regsOfSQH : List RegRow :=
  [⟨0x0, 1, 4, [⟨16, 16, .ro, 0⟩, ⟨8, 4, .ro, 0⟩, ⟨4, 2, .ro, 0⟩, ⟨2, 1, .wo, 0⟩, ⟨1, 1, .wo, 0⟩]⟩,
   ⟨0x4, 1, 4, [⟨24, 8, .ro, 0⟩, ⟨16, 4, .ro, 0⟩, ⟨0, 2, .ro, 0⟩]⟩,
   ⟨0x8, 1, 4, [⟨5, 1, .wo, 0⟩, ⟨4, 1, .w1c, 0⟩, ⟨3, 1, .w1c, 0⟩, ⟨2, 1, .w1c, 0⟩, ⟨1, 1, .w1c, 0⟩, ⟨0, 1, .w1c, 0⟩]⟩,
   ⟨0xc, 1, 4, [⟨24, 8, .ro, 0⟩, ⟨16, 8, .ro, 0⟩, ⟨8, 8, .ro, 0⟩, ⟨0, 8, .ro, 0⟩]⟩,
   ⟨0x10, 1, 4, [⟨0, 16, .w1c, 0⟩]⟩,
   ⟨0x14, 4, 4, [⟨0, 32, .ro, 0⟩]⟩,
   ⟨0x40, 16, 16, [⟨24, 7, .ro, 0⟩, ⟨20, 3, .ro, 0⟩, ⟨16, 4, .ro, 0⟩, ⟨1, 1, .ro, 0⟩, ⟨0, 1, .ro, 0⟩]⟩,
   ⟨0x44, 16, 16, [⟨24, 3, .ro, 3⟩, ⟨8, 16, .ro, 0x400⟩, ⟨0, 8, .ro, 0⟩]⟩,
   ⟨0x48, 16, 16, [⟨0, 24, .ro, 0⟩]⟩,
   ⟨0x4c, 16, 16, [⟨0, 24, .ro, 0x400000⟩]⟩,
   ⟨0x140, 16, 4, [⟨24, 8, .ro, 0⟩, ⟨0, 24, .ro, 0⟩]⟩,
   ⟨0x180, 1, 4, [⟨31, 1, .wo, 0⟩, ⟨30, 1, .rw, 0⟩, ⟨0, 4, .rw, 0⟩]⟩,
   ⟨0x184, 1, 4, [⟨4, 2, .ro, 0⟩, ⟨0, 4, .ro, 0⟩]⟩,
   ⟨0x188, 4, 4, [⟨31, 1, .ro, 0⟩, ⟨30, 1, .ro, 0⟩, ⟨29, 1, .ro, 0⟩, ⟨28, 1, .ro, 0⟩, ⟨24, 4, .ro, 0⟩, ⟨0, 24, .ro, 0⟩]⟩,
   ⟨0x1a0, 1, 4, [⟨31, 1, .wo, 0⟩, ⟨30, 1, .wo, 0⟩, ⟨28, 2, .rw, 0⟩, ⟨24, 4, .rw, 0⟩, ⟨0, 24, .rw, 0⟩]⟩,
   ⟨0x1a4, 1, 4, [⟨28, 4, .ro, 0⟩, ⟨0, 24, .ro, 0⟩]⟩,
   ⟨0x1a8, 1, 4, [⟨16, 16, .rw, 0x3e8⟩, ⟨0, 3, .rw, 2⟩]⟩]

/-- CMPL (R503; fields R257). -/
def regsOfCMPL : List RegRow :=
  [⟨0x0, 1, 4, [⟨16, 10, .rwl, 0x64⟩, ⟨0, 10, .rwl, 0x64⟩]⟩,
   ⟨0x4, 1, 4, [⟨0, 14, .rwl, 0x3fff⟩]⟩,
   ⟨0x8, 1, 4, [⟨16, 16, .rwl, 0x64⟩, ⟨4, 2, .rwl, 1⟩, ⟨2, 2, .rwl, 1⟩, ⟨1, 1, .rwl, 1⟩, ⟨0, 1, .rwl, 1⟩]⟩,
   ⟨0xc, 1, 4, [⟨4, 1, .wo, 0⟩, ⟨3, 1, .ro, 0⟩, ⟨2, 1, .ro, 0⟩, ⟨1, 1, .w1c, 0⟩, ⟨0, 1, .w1c, 0⟩]⟩,
   ⟨0x10, 1, 4, [⟨16, 16, .ro, 0⟩, ⟨0, 16, .ro, 0⟩]⟩]

/-- AVSP (R503; fields R289). -/
def regsOfAVSP : List RegRow :=
  [⟨0x0, 1, 4, [⟨31, 1, .rwl, 0⟩, ⟨18, 6, .rwl, 0⟩, ⟨12, 6, .rwl, 0⟩, ⟨6, 6, .rwl, 0⟩, ⟨0, 6, .rwl, 0⟩]⟩,
   ⟨0x4, 1, 4, [⟨4, 1, .wo, 0⟩, ⟨3, 1, .w1c, 0⟩, ⟨2, 1, .w1c, 0⟩, ⟨1, 1, .w1c, 0⟩, ⟨0, 1, .w1c, 0⟩]⟩,
   ⟨0x8, 1, 4, [⟨24, 8, .ro, 0⟩, ⟨16, 8, .ro, 0⟩, ⟨8, 8, .ro, 0⟩, ⟨0, 8, .ro, 0⟩]⟩,
   ⟨0xc, 1, 4, [⟨0, 32, .ro, 0⟩]⟩]

/-- AVSL (R503; fields R290). -/
def regsOfAVSL : List RegRow :=
  [⟨0x0, 1, 4, [⟨30, 2, .rwl, 0⟩, ⟨0, 14, .rwl, 0⟩]⟩,
   ⟨0x4, 1, 4, [⟨16, 14, .rwl, 0⟩, ⟨0, 14, .rwl, 0⟩]⟩,
   ⟨0x8, 1, 4, [⟨16, 16, .rwl, 0x2710⟩, ⟨0, 16, .ro, 0⟩]⟩,
   ⟨0xc, 1, 4, [⟨0, 16, .rwl, 0⟩]⟩,
   ⟨0x10, 1, 4, [⟨31, 1, .ro, 0⟩, ⟨16, 14, .ro, 0⟩, ⟨0, 14, .ro, 0⟩]⟩,
   ⟨0x14, 1, 4, [⟨16, 16, .ro, 0⟩, ⟨8, 8, .ro, 0⟩, ⟨4, 4, .ro, 0⟩, ⟨3, 1, .wo, 0⟩, ⟨2, 1, .w1c, 0⟩, ⟨1, 1, .w1c, 0⟩]⟩]

/-- HINT (R503; fields R292, R293). -/
def regsOfHINT : List RegRow :=
  [⟨0x0, 1, 4, [⟨31, 1, .rwl, 0⟩, ⟨28, 3, .rw, 3⟩, ⟨16, 10, .rw, 0x11c⟩]⟩,
   ⟨0x4, 1, 4, [⟨0, 6, .rwl, 0⟩, ⟨6, 6, .rwl, 0⟩, ⟨12, 6, .rwl, 0⟩, ⟨18, 6, .rwl, 0⟩]⟩,
   ⟨0x8, 1, 4, [⟨16, 16, .rw, 0x32⟩, ⟨0, 16, .rw, 0x64⟩]⟩,
   ⟨0xc, 1, 4, [⟨4, 1, .ro, 0⟩, ⟨3, 1, .ro, 0⟩, ⟨0, 3, .ro, 0⟩]⟩,
   ⟨0x10, 1, 4, [⟨7, 1, .wo, 0⟩, ⟨6, 1, .w1c, 0⟩, ⟨5, 1, .w1c, 0⟩, ⟨4, 1, .w1c, 0⟩, ⟨3, 1, .w1c, 0⟩, ⟨2, 1, .w1c, 0⟩, ⟨1, 1, .w1c, 0⟩, ⟨0, 1, .w1c, 0⟩]⟩,
   ⟨0x14, 1, 4, [⟨16, 16, .ro, 0⟩, ⟨8, 8, .ro, 0⟩, ⟨0, 8, .ro, 0⟩]⟩,
   ⟨0x18, 1, 4, [⟨24, 8, .ro, 0⟩, ⟨16, 8, .ro, 0⟩, ⟨8, 8, .ro, 0⟩, ⟨0, 8, .ro, 0⟩]⟩,
   ⟨0x1c, 1, 4, [⟨26, 6, .ro, 0⟩, ⟨24, 2, .ro, 0⟩, ⟨16, 8, .ro, 0⟩, ⟨8, 8, .ro, 0⟩, ⟨0, 4, .ro, 0⟩]⟩,
   ⟨0x20, 1, 4, [⟨16, 16, .ro, 0⟩, ⟨0, 16, .ro, 0xffff⟩]⟩]

/-- HSW (R503; fields R314, R315). -/
def regsOfHSW : List RegRow :=
  [⟨0x0, 1, 4, [⟨0, 1, .rwl, 0⟩]⟩,
   ⟨0x4, 1, 4, [⟨16, 16, .rwl, 0x100⟩, ⟨0, 16, .rwl, 0⟩]⟩,
   ⟨0x8, 1, 4, [⟨16, 16, .rwl, 0xfa0⟩, ⟨0, 16, .rwl, 0x1770⟩]⟩,
   ⟨0xc, 1, 4, [⟨16, 16, .rwl, 0x64⟩, ⟨0, 16, .rwl, 0x32⟩]⟩,
   ⟨0x10, 1, 4, [⟨24, 8, .rwl, 0x14⟩, ⟨8, 16, .rwl, 0x3c⟩, ⟨0, 8, .rwl, 0x32⟩]⟩,
   ⟨0x14, 1, 4, [⟨16, 16, .rwl, 0x960⟩, ⟨0, 16, .rwl, 0x3e8⟩]⟩,
   ⟨0x18, 1, 4, [⟨16, 16, .rwl, 0xc80⟩, ⟨0, 16, .rwl, 0x10⟩]⟩,
   ⟨0x1c, 1, 4, [⟨16, 16, .rwl, 0x14⟩, ⟨0, 16, .rwl, 0x3e8⟩]⟩,
   ⟨0x20, 1, 4, [⟨16, 4, .rwl, 3⟩, ⟨0, 16, .rwl, 0x3e8⟩]⟩,
   ⟨0x24, 1, 4, [⟨20, 4, .ro, 0⟩, ⟨16, 4, .ro, 0⟩, ⟨4, 1, .ro, 0⟩, ⟨0, 4, .ro, 0⟩]⟩,
   ⟨0x28, 1, 4, [⟨6, 1, .wo, 0⟩, ⟨5, 1, .w1c, 0⟩, ⟨4, 1, .w1c, 0⟩, ⟨3, 1, .w1c, 0⟩, ⟨2, 1, .w1c, 0⟩, ⟨1, 1, .w1c, 0⟩, ⟨0, 1, .w1c, 0⟩]⟩,
   ⟨0x2c, 1, 4, [⟨24, 8, .ro, 0⟩, ⟨16, 8, .ro, 0⟩, ⟨8, 8, .ro, 0⟩, ⟨4, 4, .ro, 0⟩, ⟨0, 4, .ro, 0⟩]⟩,
   ⟨0x30, 1, 4, [⟨16, 16, .ro, 0⟩, ⟨0, 16, .ro, 0⟩]⟩,
   ⟨0x34, 1, 4, [⟨16, 16, .ro, 0⟩, ⟨0, 16, .ro, 0⟩]⟩,
   ⟨0x38, 1, 4, [⟨0, 16, .ro, 0⟩]⟩,
   ⟨0x3c, 1, 4, [⟨0, 32, .ro, 0⟩]⟩,
   ⟨0x40, 1, 4, [⟨0, 32, .ro, 0⟩]⟩]

/-- BUD (R503; fields R316). -/
def regsOfBUD : List RegRow :=
  [⟨0x0, 1, 4, [⟨16, 16, .rwl, 0x1f40⟩, ⟨0, 16, .rwl, 0x960⟩]⟩,
   ⟨0x4, 1, 4, [⟨16, 16, .rwl, 0x100⟩, ⟨8, 8, .rwl, 0x40⟩, ⟨0, 8, .rw, 0xa⟩]⟩,
   ⟨0x8, 1, 4, [⟨0, 16, .rw, 0x64⟩]⟩,
   ⟨0xc, 1, 4, [⟨16, 3, .rw, 4⟩, ⟨12, 3, .rw, 6⟩, ⟨8, 3, .rw, 1⟩, ⟨4, 3, .rw, 2⟩, ⟨0, 3, .rw, 2⟩]⟩,
   ⟨0x10, 1, 4, [⟨16, 16, .rwl, 5⟩, ⟨0, 16, .rwl, 0xc8⟩]⟩,
   ⟨0x14, 1, 4, [⟨16, 16, .rwl, 5⟩, ⟨0, 16, .rwl, 0xc8⟩]⟩,
   ⟨0x18, 1, 4, [⟨31, 1, .ro, 1⟩, ⟨24, 7, .ro, 0⟩, ⟨16, 7, .ro, 0⟩, ⟨0, 16, .ro, 0⟩]⟩,
   ⟨0x1c, 1, 4, [⟨16, 16, .ro, 0⟩, ⟨0, 16, .ro, 0⟩]⟩,
   ⟨0x20, 1, 4, [⟨3, 1, .wo, 0⟩, ⟨2, 1, .w1c, 0⟩, ⟨1, 1, .w1c, 0⟩, ⟨0, 1, .w1c, 0⟩]⟩,
   ⟨0x24, 1, 4, [⟨16, 16, .ro, 0⟩, ⟨8, 8, .ro, 0⟩, ⟨0, 8, .ro, 0⟩]⟩,
   ⟨0x28, 1, 4, [⟨8, 8, .ro, 0⟩, ⟨0, 4, .ro, 0⟩]⟩,
   ⟨0x2c, 1, 4, [⟨0, 32, .ro, 0⟩]⟩,
   ⟨0x100, 64, 4, [⟨16, 16, .rwl, 0⟩, ⟨0, 16, .rwl, 1⟩]⟩]

/-- SEQD (R503; fields R340). -/
def regsOfSEQD : List RegRow :=
  [⟨0x0, 1, 4, [⟨4, 1, .rwl, 1⟩, ⟨3, 1, .rwl, 1⟩, ⟨2, 1, .rwl, 0⟩, ⟨0, 1, .rwl, 0⟩]⟩,
   ⟨0x4, 1, 4, [⟨2, 1, .wo, 0⟩, ⟨1, 1, .wo, 0⟩, ⟨0, 1, .wo, 0⟩]⟩,
   ⟨0x8, 1, 4, [⟨24, 7, .ro, 0⟩, ⟨16, 7, .ro, 0⟩, ⟨15, 1, .ro, 0⟩, ⟨8, 6, .ro, 0⟩, ⟨3, 1, .ro, 0⟩, ⟨0, 3, .ro, 0⟩]⟩,
   ⟨0xc, 1, 4, [⟨4, 1, .wo, 0⟩, ⟨3, 1, .w1c, 0⟩, ⟨2, 1, .w1c, 0⟩, ⟨1, 1, .w1c, 0⟩, ⟨0, 1, .w1c, 0⟩]⟩,
   ⟨0x10, 1, 4, [⟨24, 8, .ro, 0⟩, ⟨16, 8, .ro, 0⟩, ⟨8, 8, .ro, 0⟩, ⟨0, 8, .ro, 0⟩]⟩]

/-- SEQ (R503; fields R341). -/
def regsOfSEQ : List RegRow :=
  [⟨0x0, 1, 4, [⟨2, 1, .ro, 1⟩, ⟨1, 1, .ro, 0⟩, ⟨0, 1, .ro, 0⟩]⟩,
   ⟨0x4, 1, 4, [⟨31, 1, .ro, 0⟩, ⟨30, 1, .wo, 0⟩, ⟨20, 4, .ro, 0⟩, ⟨16, 2, .ro, 0⟩, ⟨0, 6, .ro, 0⟩]⟩,
   ⟨0x8, 1, 4, [⟨0, 32, .ro, 0⟩]⟩,
   ⟨0xc, 1, 4, [⟨0, 32, .ro, 0⟩]⟩]

/-- SEQR (R503; fields R342, R343). -/
def regsOfSEQR : List RegRow :=
  [⟨0x0, 1, 4, [⟨31, 1, .rwl, 0⟩, ⟨26, 2, .rwl, 0⟩, ⟨24, 2, .rwl, 1⟩, ⟨23, 1, .rwl, 0⟩, ⟨22, 1, .rwl, 0⟩, ⟨20, 2, .rwl, 1⟩, ⟨16, 4, .rwl, 3⟩, ⟨0, 16, .rwl, 0⟩]⟩,
   ⟨0x4, 1, 4, [⟨24, 8, .rwl, 0⟩, ⟨16, 8, .rwl, 0⟩, ⟨8, 8, .rwl, 0⟩, ⟨0, 8, .rwl, 0⟩]⟩,
   ⟨0x8, 1, 4, [⟨16, 16, .rwl, 0⟩, ⟨0, 16, .rwl, 0x64⟩]⟩,
   ⟨0xc, 1, 4, [⟨16, 16, .rwl, 0x64⟩, ⟨0, 16, .rwl, 0x64⟩]⟩,
   ⟨0x10, 1, 4, [⟨20, 4, .ro, 0⟩, ⟨16, 4, .ro, 0⟩, ⟨5, 1, .ro, 0⟩, ⟨4, 1, .ro, 0⟩, ⟨0, 4, .ro, 7⟩]⟩,
   ⟨0x14, 1, 4, [⟨3, 1, .wo, 0⟩, ⟨2, 1, .w1c, 0⟩, ⟨1, 1, .w1c, 0⟩, ⟨0, 1, .w1c, 0⟩]⟩,
   ⟨0x18, 1, 4, [⟨16, 16, .ro, 0⟩, ⟨8, 8, .ro, 0⟩, ⟨0, 8, .ro, 0⟩]⟩]

/-- FLT (R503; fields R367, R368, R369, R370, R371). -/
def regsOfFLT : List RegRow :=
  [⟨0x0, 1, 4, [⟨16, 16, .rwl, 0x64⟩, ⟨8, 8, .rwl, 0x64⟩, ⟨4, 1, .rwl, 0⟩, ⟨0, 3, .rwl, 2⟩]⟩,
   ⟨0x4, 1, 4, [⟨31, 1, .ro, 0⟩, ⟨30, 1, .ro, 0⟩, ⟨29, 1, .ro, 0⟩, ⟨24, 3, .ro, 0⟩, ⟨23, 1, .ro, 1⟩, ⟨20, 3, .ro, 1⟩, ⟨0, 7, .ro, 0⟩]⟩,
   ⟨0x8, 1, 4, [⟨1, 1, .rw, 0⟩, ⟨0, 1, .wo, 0⟩]⟩,
   ⟨0xc, 1, 4, [⟨30, 2, .wo, 0⟩, ⟨16, 6, .wo, 0⟩, ⟨0, 16, .wo, 0⟩]⟩,
   ⟨0x10, 1, 4, [⟨28, 4, .ro, 0⟩, ⟨16, 6, .ro, 0⟩, ⟨0, 16, .ro, 0⟩]⟩,
   ⟨0x14, 1, 4, [⟨5, 1, .wo, 0⟩, ⟨4, 1, .w1c, 0⟩, ⟨3, 1, .w1c, 0⟩, ⟨2, 1, .w1c, 0⟩, ⟨1, 1, .w1c, 0⟩, ⟨0, 1, .w1c, 0⟩]⟩,
   ⟨0x18, 1, 4, [⟨16, 16, .ro, 0⟩, ⟨8, 8, .ro, 0⟩, ⟨0, 8, .ro, 0⟩]⟩,
   ⟨0x1c, 1, 4, [⟨16, 16, .ro, 0⟩, ⟨8, 8, .ro, 0⟩, ⟨0, 8, .ro, 0⟩]⟩,
   ⟨0x20, 1, 4, [⟨24, 8, .ro, 0⟩, ⟨16, 8, .ro, 0⟩, ⟨0, 16, .ro, 0⟩]⟩,
   ⟨0x24, 1, 4, [⟨0, 32, .ro, 0⟩]⟩,
   ⟨0x28, 1, 4, [⟨0, 32, .ro, 0⟩]⟩,
   ⟨0x30, 1, 4, [⟨31, 1, .wo, 0⟩, ⟨24, 4, .rw, 0⟩, ⟨20, 4, .ro, 0⟩, ⟨19, 1, .ro, 0⟩]⟩,
   ⟨0x34, 1, 4, [⟨31, 1, .wo, 0⟩, ⟨24, 2, .rw, 1⟩, ⟨16, 8, .rw, 0⟩, ⟨0, 8, .rw, 0⟩]⟩,
   ⟨0x38, 1, 4, [⟨16, 16, .wo, 0⟩, ⟨0, 1, .wo, 0⟩]⟩,
   ⟨0x100, 64, 8, [⟨16, 16, .ro, 0⟩, ⟨8, 8, .ro, 0⟩, ⟨4, 4, .ro, 0⟩, ⟨3, 1, .ro, 0⟩, ⟨2, 1, .ro, 0⟩, ⟨0, 2, .ro, 0⟩]⟩,
   ⟨0x104, 64, 8, [⟨0, 32, .ro, 0⟩]⟩]

/-- THM (R503; fields R387, R388). -/
def regsOfTHM : List RegRow :=
  [⟨0x0, 1, 4, [⟨24, 8, .rwl, 0x50⟩, ⟨16, 8, .rwl, 0xa⟩, ⟨0, 1, .rwl, 1⟩]⟩,
   ⟨0x4, 1, 4, [⟨16, 12, .rw, 0x398⟩, ⟨0, 12, .rw, 0x370⟩]⟩,
   ⟨0x8, 1, 4, [⟨20, 12, .ro, 0⟩, ⟨8, 12, .ro, 0⟩, ⟨0, 1, .ro, 0⟩]⟩,
   ⟨0xc, 1, 4, [⟨0, 32, .ro, 0⟩]⟩,
   ⟨0x10, 1, 4, [⟨0, 4, .ro, 0⟩]⟩,
   ⟨0x14, 1, 4, [⟨4, 1, .wo, 0⟩, ⟨3, 1, .w1c, 0⟩, ⟨2, 1, .w1c, 0⟩, ⟨1, 1, .w1c, 0⟩, ⟨0, 1, .w1c, 0⟩]⟩,
   ⟨0x18, 1, 4, [⟨24, 8, .ro, 0⟩, ⟨16, 8, .ro, 0⟩, ⟨8, 8, .ro, 0⟩, ⟨0, 8, .ro, 0⟩]⟩,
   ⟨0x1c, 1, 4, [⟨16, 16, .ro, 0⟩, ⟨0, 9, .ro, 0⟩]⟩,
   ⟨0x100, 36, 4, [⟨20, 12, .ro, 0⟩, ⟨8, 12, .ro, 0⟩, ⟨1, 1, .ro, 0⟩, ⟨0, 1, .ro, 0⟩]⟩,
   ⟨0x200, 36, 4, [⟨0, 6, .rwl, 0⟩, ⟨7, 1, .rwl, 0⟩, ⟨8, 6, .rwl, 0⟩, ⟨15, 1, .rwl, 0⟩, ⟨16, 6, .rwl, 0⟩, ⟨23, 1, .rwl, 0⟩, ⟨24, 6, .rwl, 0⟩, ⟨31, 1, .rwl, 0⟩]⟩]

/-- EVH (R503; fields R409). -/
def regsOfEVH : List RegRow :=
  [⟨0x0, 1, 4, [⟨0, 11, .wo, 0⟩]⟩,
   ⟨0x4, 1, 4, [⟨28, 4, .ro, 0⟩, ⟨26, 2, .ro, 0⟩, ⟨0, 12, .ro, 0⟩]⟩,
   ⟨0x8, 1, 4, [⟨2, 1, .wo, 0⟩, ⟨1, 1, .w1c, 0⟩]⟩,
   ⟨0xc, 1, 4, [⟨16, 16, .ro, 0⟩, ⟨0, 16, .ro, 0⟩]⟩,
   ⟨0x10, 1, 4, [⟨31, 1, .ro, 0⟩, ⟨30, 1, .ro, 0⟩, ⟨11, 2, .ro, 0⟩, ⟨0, 11, .ro, 0⟩]⟩]

/-- PP (R503; fields R410). -/
def regsOfPP : List RegRow :=
  [⟨0x0, 1, 4, [⟨1, 7, .rw, 0x40⟩, ⟨0, 1, .rw, 0⟩]⟩,
   ⟨0x4, 1, 4, [⟨31, 1, .ro, 0⟩, ⟨30, 1, .ro, 0⟩, ⟨29, 1, .ro, 0⟩, ⟨28, 1, .ro, 1⟩, ⟨16, 5, .ro, 0⟩, ⟨8, 7, .ro, 0x40⟩]⟩,
   ⟨0x8, 1, 4, [⟨31, 1, .ro, 0⟩, ⟨30, 1, .ro, 0⟩, ⟨24, 6, .ro, 0⟩, ⟨16, 8, .ro, 0⟩, ⟨0, 11, .ro, 0⟩]⟩,
   ⟨0xc, 1, 4, [⟨31, 1, .ro, 0⟩, ⟨30, 1, .ro, 0⟩, ⟨24, 6, .ro, 0⟩, ⟨16, 8, .ro, 0⟩, ⟨0, 11, .ro, 0⟩]⟩,
   ⟨0x10, 1, 4, [⟨0, 11, .wo, 0⟩]⟩,
   ⟨0x14, 1, 4, [⟨2, 1, .wo, 0⟩, ⟨1, 1, .w1c, 0⟩, ⟨0, 1, .w1c, 0⟩]⟩,
   ⟨0x18, 1, 4, [⟨16, 16, .ro, 0⟩, ⟨0, 16, .ro, 0⟩]⟩,
   ⟨0x1c, 1, 4, [⟨0, 32, .ro, 0⟩]⟩,
   ⟨0x40, 16, 4, [⟨31, 1, .ro, 0⟩, ⟨30, 1, .ro, 0⟩, ⟨24, 6, .ro, 0⟩, ⟨0, 11, .ro, 0⟩]⟩]

/-- GRP (R503; fields R411). -/
def regsOfGRP : List RegRow :=
  [⟨0x0, 1, 4, [⟨24, 8, .rw, 1⟩, ⟨0, 16, .rw, 1⟩]⟩,
   ⟨0x4, 1, 4, [⟨24, 8, .ro, 0⟩, ⟨0, 1, .ro, 0⟩]⟩]

/-- SRC (R503; fields R412). -/
def regsOfSRC : List RegRow :=
  [⟨0x0, 1, 4, [⟨31, 1, .rw, 0⟩, ⟨30, 1, .rw, 0⟩, ⟨24, 6, .rw, 0x3f⟩, ⟨23, 1, .rw, 0⟩, ⟨17, 6, .rw, 0⟩, ⟨0, 4, .rw, 0⟩]⟩,
   ⟨0x4, 1, 4, [⟨24, 8, .ro, 0⟩, ⟨4, 1, .ro, 0⟩, ⟨2, 2, .ro, 0⟩, ⟨1, 1, .ro, 0⟩, ⟨0, 1, .ro, 0⟩]⟩]

/-- HIF (R503; fields R446, R447). -/
def regsOfHIF : List RegRow :=
  [⟨0x0, 1, 4, [⟨31, 1, .rw, 0⟩, ⟨30, 1, .rw, 0⟩, ⟨27, 3, .rw, 1⟩]⟩,
   ⟨0x4, 1, 4, [⟨31, 1, .ro, 0⟩, ⟨28, 3, .ro, 0⟩, ⟨26, 2, .ro, 0⟩, ⟨24, 2, .ro, 0⟩, ⟨22, 2, .ro, 3⟩, ⟨21, 1, .ro, 0⟩]⟩,
   ⟨0x8, 1, 4, [⟨7, 25, .rw, 0⟩]⟩,
   ⟨0xc, 1, 4, [⟨0, 32, .rw, 0⟩]⟩,
   ⟨0x10, 1, 4, [⟨7, 25, .rw, 0⟩]⟩,
   ⟨0x14, 1, 4, [⟨0, 32, .rw, 0⟩]⟩,
   ⟨0x18, 1, 4, [⟨16, 16, .rw, 0x64⟩, ⟨0, 10, .rw, 0xa⟩]⟩,
   ⟨0x1c, 1, 4, [⟨0, 1, .wo, 0⟩]⟩,
   ⟨0x20, 1, 4, [⟨5, 1, .wo, 0⟩, ⟨4, 1, .w1c, 0⟩, ⟨3, 1, .w1c, 0⟩, ⟨2, 1, .w1c, 0⟩, ⟨1, 1, .w1c, 0⟩, ⟨0, 1, .w1c, 0⟩]⟩,
   ⟨0x24, 1, 4, [⟨24, 8, .ro, 0⟩, ⟨16, 8, .ro, 0⟩, ⟨8, 8, .ro, 0⟩, ⟨0, 8, .ro, 0⟩]⟩,
   ⟨0x28, 1, 4, [⟨16, 16, .ro, 0⟩, ⟨8, 8, .ro, 0⟩]⟩]

/-- RING, the registers of a command ring: a field of other ring types is none of it (R503; fields R448). -/
def regsOfRINGC : List RegRow :=
  [⟨0x0, 1, 4, [⟨12, 20, .rw, 0⟩]⟩,
   ⟨0x4, 1, 4, [⟨0, 32, .rw, 0⟩]⟩,
   ⟨0x8, 1, 4, [⟨31, 1, .rw, 0⟩, ⟨24, 5, .rw, 6⟩, ⟨12, 3, .rw, 0⟩, ⟨8, 4, .rw, 4⟩]⟩,
   ⟨0xc, 1, 4, [⟨24, 8, .rw, 1⟩, ⟨0, 16, .rw, 1⟩]⟩,
   ⟨0x10, 1, 4, [⟨0, 32, .ro, 0⟩]⟩,
   ⟨0x14, 1, 4, [⟨0, 32, .ro, 0⟩]⟩,
   ⟨0x18, 1, 4, [⟨2, 1, .ro, 0⟩, ⟨0, 2, .ro, 0⟩]⟩,
   ⟨0x1c, 1, 4, [⟨0, 32, .ro, 0⟩]⟩]

/-- RING, the registers of a completion ring or the event ring: a field of other ring types is none of it (R503; fields R448). -/
def regsOfRINGX : List RegRow :=
  [⟨0x0, 1, 4, [⟨12, 20, .rw, 0⟩]⟩,
   ⟨0x4, 1, 4, [⟨0, 32, .rw, 0⟩]⟩,
   ⟨0x8, 1, 4, [⟨31, 1, .rw, 0⟩, ⟨24, 5, .rw, 6⟩, ⟨16, 5, .rw, 0⟩]⟩,
   ⟨0xc, 1, 4, [⟨24, 8, .rw, 1⟩, ⟨0, 16, .rw, 1⟩]⟩,
   ⟨0x10, 1, 4, [⟨0, 32, .ro, 0⟩]⟩,
   ⟨0x14, 1, 4, [⟨0, 32, .ro, 0⟩]⟩,
   ⟨0x18, 1, 4, [⟨2, 1, .ro, 0⟩, ⟨0, 2, .ro, 0⟩]⟩,
   ⟨0x1c, 1, 4, [⟨0, 32, .ro, 0⟩]⟩]

/-- RING, the registers of a telemetry ring: a field of other ring types is none of it (R503; fields R448). -/
def regsOfRINGT : List RegRow :=
  [⟨0x0, 1, 4, [⟨12, 20, .rw, 0⟩]⟩,
   ⟨0x4, 1, 4, [⟨0, 32, .rw, 0⟩]⟩,
   ⟨0x8, 1, 4, [⟨31, 1, .rw, 0⟩, ⟨24, 5, .rw, 6⟩, ⟨16, 5, .rw, 0⟩]⟩,
   ⟨0xc, 1, 4, [⟨24, 8, .rw, 1⟩, ⟨16, 8, .rw, 0x64⟩, ⟨0, 16, .rw, 1⟩]⟩,
   ⟨0x10, 1, 4, [⟨0, 32, .ro, 0⟩]⟩,
   ⟨0x14, 1, 4, [⟨0, 32, .ro, 0⟩]⟩,
   ⟨0x18, 1, 4, [⟨2, 1, .ro, 0⟩, ⟨0, 2, .ro, 0⟩]⟩,
   ⟨0x1c, 1, 4, [⟨0, 32, .ro, 0⟩]⟩]

/-- TELS (R503; fields R449). -/
def regsOfTELS : List RegRow :=
  [⟨0x0, 32, 4, [⟨31, 1, .rw, 0⟩, ⟨24, 2, .rw, 0⟩, ⟨0, 4, .rw, 0⟩]⟩,
   ⟨0x80, 7, 4, [⟨0, 32, .rw, 0⟩]⟩,
   ⟨0xa0, 7, 4, [⟨31, 1, .rw, 0⟩, ⟨30, 1, .rw, 0⟩, ⟨24, 2, .rw, 0⟩, ⟨0, 4, .rw, 0⟩]⟩,
   ⟨0xc0, 9, 4, [⟨31, 1, .rw, 0⟩, ⟨24, 2, .rw, 0⟩]⟩,
   ⟨0xe4, 1, 4, [⟨31, 1, .rw, 0⟩, ⟨24, 2, .rw, 0⟩, ⟨0, 4, .rw, 0⟩]⟩]

/-- PMB (R503; fields R450). -/
def regsOfPMB : List RegRow :=
  [⟨0x0, 1, 4, [⟨24, 7, .ro, 0x40 + Config.pmbStrap.val⟩, ⟨19, 1, .rwl, 1⟩, ⟨18, 1, .rwl, 0⟩, ⟨17, 1, .rwl, 0⟩, ⟨16, 1, .rwl, 1⟩, ⟨8, 8, .rwl, 0⟩]⟩,
   ⟨0x4, 1, 4, [⟨24, 8, .ro, 0⟩, ⟨16, 8, .ro, 0⟩, ⟨8, 8, .ro, 0⟩, ⟨0, 1, .ro, 0⟩]⟩,
   ⟨0x8, 1, 4, [⟨5, 1, .wo, 0⟩, ⟨4, 1, .w1c, 0⟩, ⟨3, 1, .w1c, 0⟩, ⟨2, 1, .w1c, 0⟩, ⟨1, 1, .w1c, 0⟩, ⟨0, 1, .w1c, 0⟩]⟩,
   ⟨0xc, 1, 4, [⟨24, 8, .ro, 0⟩, ⟨16, 8, .ro, 0⟩, ⟨8, 8, .ro, 0⟩, ⟨0, 8, .ro, 0⟩]⟩,
   ⟨0x10, 1, 4, [⟨24, 8, .ro, 0⟩]⟩,
   ⟨0x14, 1, 4, [⟨24, 8, .ro, 0⟩, ⟨16, 8, .ro, 0⟩, ⟨0, 4, .ro, 0⟩]⟩]

/-- MSIX (R503; fields R427). -/
def regsOfMSIX : List RegRow :=
  [⟨0x0, 1, 4, [⟨0, 32, .rw, 0⟩]⟩,
   ⟨0x4, 1, 4, [⟨0, 32, .rw, 0⟩]⟩,
   ⟨0x8, 1, 4, [⟨0, 32, .rw, 0⟩]⟩,
   ⟨0xc, 1, 4, [⟨0, 1, .rw, 1⟩]⟩]

/-- PBA (R503; fields R427). -/
def regsOfPBA : List RegRow :=
  [⟨0x0, 2, 4, [⟨0, 32, .ro, 0⟩]⟩]

/-- FW (R503; fields R472, R473, R474, R475). -/
def regsOfFW : List RegRow :=
  [⟨0x0, 1, 4, [⟨16, 16, .wo, 0⟩, ⟨1, 1, .w1s, 0⟩, ⟨0, 1, .wo, 0⟩]⟩,
   ⟨0x4, 1, 4, [⟨31, 1, .ro, 0⟩, ⟨28, 3, .ro, 0⟩, ⟨26, 2, .ro, 1⟩, ⟨25, 1, .ro, 0⟩, ⟨24, 1, .ro, 0⟩, ⟨23, 1, .ro, 0⟩]⟩,
   ⟨0x8, 1, 4, [⟨0, 16, .rwl, 0x7d0⟩]⟩,
   ⟨0x10, 2, 8, [⟨31, 1, .ro, 0⟩, ⟨30, 1, .ro, 0⟩, ⟨24, 4, .ro, 0xf⟩]⟩,
   ⟨0x14, 2, 8, [⟨0, 32, .ro, 0⟩]⟩,
   ⟨0x20, 1, 4, [⟨0, 5, .wo, 0⟩]⟩,
   ⟨0x24, 1, 4, [⟨0, 5, .wo, 0⟩]⟩,
   ⟨0x28, 1, 4, [⟨0, 2, .ro, 0⟩, ⟨2, 2, .ro, 0⟩, ⟨4, 2, .ro, 0⟩, ⟨6, 2, .ro, 0⟩, ⟨8, 2, .ro, 0⟩, ⟨10, 2, .ro, 0⟩, ⟨12, 2, .ro, 0⟩, ⟨14, 2, .ro, 0⟩, ⟨16, 2, .ro, 0⟩, ⟨18, 2, .ro, 0⟩, ⟨20, 2, .ro, 0⟩, ⟨22, 2, .ro, 0⟩, ⟨24, 2, .ro, 0⟩, ⟨26, 2, .ro, 0⟩, ⟨28, 2, .ro, 0⟩, ⟨30, 2, .ro, 0⟩]⟩,
   ⟨0x2c, 1, 4, [⟨0, 2, .ro, 0⟩, ⟨2, 2, .ro, 0⟩, ⟨4, 2, .ro, 0⟩, ⟨6, 2, .ro, 0⟩, ⟨8, 2, .ro, 0⟩, ⟨10, 2, .ro, 0⟩, ⟨12, 2, .ro, 0⟩, ⟨14, 2, .ro, 0⟩, ⟨16, 2, .ro, 0⟩, ⟨18, 2, .ro, 0⟩, ⟨20, 2, .ro, 0⟩, ⟨22, 2, .ro, 0⟩, ⟨24, 2, .ro, 0⟩, ⟨26, 2, .ro, 0⟩, ⟨28, 2, .ro, 0⟩, ⟨30, 2, .ro, 0⟩]⟩,
   ⟨0x30, 1, 4, [⟨0, 2, .ro, 0⟩, ⟨2, 2, .ro, 0⟩, ⟨4, 2, .ro, 0⟩, ⟨6, 2, .ro, 0⟩, ⟨8, 2, .ro, 0⟩, ⟨10, 2, .ro, 0⟩, ⟨12, 2, .ro, 0⟩, ⟨14, 2, .ro, 0⟩, ⟨16, 2, .ro, 0⟩, ⟨18, 2, .ro, 0⟩, ⟨20, 2, .ro, 0⟩, ⟨22, 2, .ro, 0⟩, ⟨24, 2, .ro, 0⟩, ⟨26, 2, .ro, 0⟩, ⟨28, 2, .ro, 0⟩, ⟨30, 2, .ro, 0⟩]⟩,
   ⟨0x34, 1, 4, [⟨0, 2, .ro, 0⟩, ⟨2, 2, .ro, 0⟩, ⟨4, 2, .ro, 0⟩, ⟨6, 2, .ro, 0⟩, ⟨8, 2, .ro, 0⟩, ⟨10, 2, .ro, 0⟩, ⟨12, 2, .ro, 0⟩, ⟨14, 2, .ro, 0⟩, ⟨16, 2, .ro, 0⟩, ⟨18, 2, .ro, 0⟩, ⟨20, 2, .ro, 0⟩, ⟨22, 2, .ro, 0⟩, ⟨24, 2, .ro, 0⟩, ⟨26, 2, .ro, 0⟩, ⟨28, 2, .ro, 0⟩, ⟨30, 2, .ro, 0⟩]⟩,
   ⟨0x38, 1, 4, [⟨4, 1, .wo, 0⟩, ⟨3, 1, .w1c, 0⟩, ⟨2, 1, .w1c, 0⟩, ⟨1, 1, .w1c, 0⟩, ⟨0, 1, .w1c, 0⟩]⟩,
   ⟨0x3c, 1, 4, [⟨24, 8, .ro, 0⟩, ⟨16, 8, .ro, 0⟩, ⟨8, 8, .ro, 0⟩, ⟨0, 8, .ro, 0⟩]⟩]

/-- SEC (R503; fields R476, R477). -/
def regsOfSEC : List RegRow :=
  [⟨0x0, 1, 4, [⟨31, 1, .ro, 0⟩, ⟨30, 1, .ro, 0⟩, ⟨29, 1, .ro, 0⟩]⟩,
   ⟨0x4, 1, 4, [⟨0, 32, .ro, 0⟩]⟩,
   ⟨0x8, 1, 4, [⟨0, 32, .ro, 0⟩]⟩,
   ⟨0xc, 1, 4, [⟨0, 32, .ro, 0⟩]⟩,
   ⟨0x10, 12, 4, [⟨0, 32, .ro, 0⟩]⟩,
   ⟨0x40, 12, 4, [⟨0, 32, .ro, 0⟩]⟩,
   ⟨0x70, 1, 4, [⟨0, 32, .ro, 0⟩]⟩,
   ⟨0x74, 1, 4, [⟨3, 1, .wo, 0⟩, ⟨2, 1, .w1c, 0⟩, ⟨1, 1, .w1c, 0⟩, ⟨0, 1, .w1c, 0⟩]⟩,
   ⟨0x78, 1, 4, [⟨24, 8, .ro, 0⟩, ⟨16, 8, .ro, 0⟩]⟩]

/-- TILE (R503; fields R500). -/
def regsOfTILE : List RegRow :=
  [⟨0x0, 1, 4, [⟨31, 1, .wo, 0⟩, ⟨24, 4, .rw, 0⟩, ⟨0, 13, .rw, 0⟩]⟩,
   ⟨0x4, 1, 4, [⟨0, 32, .rw, 0⟩]⟩,
   ⟨0x8, 1, 4, [⟨28, 4, .ro, 0⟩, ⟨16, 8, .ro, 0⟩, ⟨8, 8, .ro, 0⟩, ⟨0, 7, .ro, 0⟩]⟩,
   ⟨0xc, 1, 4, [⟨31, 1, .wo, 0⟩, ⟨30, 1, .wo, 0⟩]⟩,
   ⟨0x10, 1, 4, [⟨28, 4, .ro, 0⟩, ⟨16, 8, .ro, 0⟩, ⟨0, 9, .ro, 0x1ff⟩]⟩,
   ⟨0x14, 1, 4, [⟨4, 1, .wo, 0⟩, ⟨3, 1, .w1c, 0⟩, ⟨2, 1, .w1c, 0⟩, ⟨1, 1, .w1c, 0⟩, ⟨0, 1, .w1c, 0⟩]⟩,
   ⟨0x18, 1, 4, [⟨24, 8, .ro, 0⟩, ⟨16, 8, .ro, 0⟩, ⟨8, 8, .ro, 0⟩, ⟨0, 8, .ro, 0⟩]⟩,
   ⟨0x20, 8, 4, [⟨0, 32, .ro, 0⟩]⟩,
   ⟨0x100, 64, 4, [⟨0, 32, .rw, 0⟩]⟩,
   ⟨0x400, 256, 4, [⟨0, 32, .ro, 0⟩]⟩]

/-- NVM (R503; fields R501). -/
def regsOfNVM : List RegRow :=
  [⟨0x0, 1, 4, [⟨16, 16, .rwl, 0x3c⟩, ⟨8, 8, .rwl, 4⟩]⟩,
   ⟨0x4, 1, 4, [⟨31, 1, .ro, 0⟩, ⟨30, 1, .ro, 0⟩, ⟨29, 1, .ro, 0⟩, ⟨0, 16, .ro, 0⟩]⟩,
   ⟨0x8, 1, 4, [⟨0, 32, .ro, 0⟩]⟩,
   ⟨0xc, 1, 4, [⟨0, 32, .ro, 0⟩]⟩,
   ⟨0x10, 1, 4, [⟨2, 22, .rw, 0⟩]⟩,
   ⟨0x14, 1, 4, [⟨0, 32, .ro, 0⟩]⟩,
   ⟨0x18, 1, 4, [⟨3, 1, .wo, 0⟩, ⟨2, 1, .w1c, 0⟩, ⟨1, 1, .w1c, 0⟩, ⟨0, 1, .w1c, 0⟩]⟩,
   ⟨0x1c, 1, 4, [⟨16, 16, .ro, 0⟩, ⟨8, 8, .ro, 0⟩, ⟨0, 8, .ro, 0⟩]⟩,
   ⟨0x20, 1, 4, [⟨0, 32, .ro, 0⟩]⟩]

/-- PWM (R504; fields R144, R145, R146, R147, R148, R149, R150). -/
def regsOfPWM : List RegRow :=
  [⟨0x0, 1, 4, [⟨16, 1, .rw, 1⟩, ⟨15, 1, .rwl, 0⟩, ⟨13, 2, .rw, 0⟩, ⟨12, 1, .rw, 0⟩, ⟨10, 2, .rwl, 0⟩, ⟨9, 1, .rwl, 0⟩, ⟨8, 1, .rwl, 0⟩, ⟨6, 2, .rwl, 0⟩, ⟨5, 1, .rwl, 0⟩, ⟨0, 1, .rwl, 0⟩]⟩,
   ⟨0x4, 1, 4, [⟨0, 16, .rwl, 0x320⟩]⟩,
   ⟨0x8, 1, 4, [⟨0, 22, .rw, 0⟩]⟩,
   ⟨0xc, 1, 4, [⟨30, 2, .ro, 0⟩, ⟨0, 22, .ro, 0⟩]⟩,
   ⟨0x10, 1, 4, [⟨30, 2, .ro, 0⟩, ⟨0, 22, .ro, 0⟩]⟩,
   ⟨0x14, 1, 4, [⟨0, 22, .rw, 0⟩]⟩,
   ⟨0x18, 1, 4, [⟨0, 22, .rw, 0⟩]⟩,
   ⟨0x1c, 1, 4, [⟨31, 1, .rw, 0⟩, ⟨30, 1, .rw, 0⟩, ⟨0, 22, .rw, 0⟩]⟩,
   ⟨0x20, 1, 4, [⟨31, 1, .rw, 0⟩, ⟨30, 1, .rw, 0⟩, ⟨0, 22, .rw, 0⟩]⟩,
   ⟨0x24, 1, 4, [⟨16, 12, .rwl, 0xc0⟩, ⟨0, 12, .rwl, 0x80⟩]⟩,
   ⟨0x28, 1, 4, [⟨16, 8, .rwl, 8⟩, ⟨0, 7, .rwl, 0x10⟩]⟩,
   ⟨0x2c, 1, 4, [⟨12, 1, .rwl, 0⟩, ⟨11, 1, .rwl, 1⟩, ⟨10, 1, .rwl, 0⟩, ⟨9, 1, .rwl, 0⟩, ⟨8, 1, .rwl, 1⟩, ⟨0, 8, .rwl, 0⟩]⟩,
   ⟨0x30, 1, 4, [⟨19, 11, .ro, 0⟩, ⟨8, 11, .ro, 0⟩, ⟨4, 1, .w1c, 0⟩, ⟨3, 1, .w1c, 0⟩, ⟨2, 1, .w1c, 0⟩, ⟨1, 1, .ro, 0⟩, ⟨0, 1, .wo, 0⟩]⟩,
   ⟨0x34, 1, 4, [⟨16, 16, .ro, 0⟩, ⟨8, 8, .ro, 0⟩, ⟨1, 7, .ro, 0⟩, ⟨0, 1, .wo, 0⟩]⟩,
   ⟨0x38, 1, 4, [⟨16, 16, .ro, 0⟩, ⟨8, 8, .ro, 0⟩, ⟨0, 1, .wo, 0⟩]⟩,
   ⟨0x3c, 1, 4, [⟨0, 2, .ro, 2⟩]⟩]

/-- PWMP (R504; fields R151). -/
def regsOfPWMP : List RegRow :=
  [⟨0x0, 1, 4, [⟨3, 1, .rwl, 1⟩, ⟨7, 1, .rwl, 1⟩, ⟨11, 1, .rwl, 1⟩, ⟨15, 1, .rwl, 1⟩, ⟨19, 1, .rwl, 1⟩, ⟨23, 1, .rwl, 1⟩, ⟨27, 1, .rwl, 1⟩, ⟨31, 1, .rwl, 1⟩, ⟨1, 2, .rwl, 1⟩, ⟨5, 2, .rwl, 1⟩, ⟨9, 2, .rwl, 1⟩, ⟨13, 2, .rwl, 1⟩, ⟨17, 2, .rwl, 1⟩, ⟨21, 2, .rwl, 1⟩, ⟨25, 2, .rwl, 1⟩, ⟨29, 2, .rwl, 1⟩, ⟨0, 1, .rwl, 0⟩, ⟨4, 1, .rwl, 0⟩, ⟨8, 1, .rwl, 0⟩, ⟨12, 1, .rwl, 0⟩, ⟨16, 1, .rwl, 0⟩, ⟨20, 1, .rwl, 0⟩, ⟨24, 1, .rwl, 0⟩, ⟨28, 1, .rwl, 0⟩]⟩,
   ⟨0x4, 1, 4, [⟨0, 8, .ro, 0⟩]⟩]

/-- PHS (R504; fields R177). -/
def regsOfPHS : List RegRow :=
  [⟨0x0, 1, 4, [⟨31, 1, .rwl, 0⟩, ⟨8, 5, .rwl, 0⟩, ⟨0, 6, .rwl, 0⟩]⟩,
   ⟨0x4, 1, 4, [⟨16, 16, .rw, 0x100⟩, ⟨12, 1, .rw, 0⟩, ⟨0, 12, .rw, 0x200⟩]⟩,
   ⟨0x8, 1, 4, [⟨0, 13, .ro, 0⟩]⟩,
   ⟨0xc, 1, 4, [⟨4, 1, .ro, 0⟩, ⟨3, 1, .ro, 0⟩, ⟨0, 3, .ro, 0⟩]⟩,
   ⟨0x10, 1, 4, [⟨0, 14, .ro, 0⟩]⟩,
   ⟨0x14, 1, 4, [⟨0, 22, .ro, 0⟩]⟩]

/-- PHSP (R504; fields R177). -/
def regsOfPHSP : List RegRow :=
  [⟨0x0, 32, 4, [⟨0, 18, .ro, 0⟩]⟩]

/-- SEG (R504; fields R180, R181). -/
def regsOfSEG : List RegRow :=
  [⟨0x0, 1, 4, [⟨16, 15, .ro, 0⟩, ⟨0, 15, .ro, 0⟩]⟩,
   ⟨0x4, 1, 4, [⟨16, 15, .ro, 0⟩, ⟨0, 15, .ro, 0⟩]⟩,
   ⟨0x8, 1, 4, [⟨16, 15, .ro, 0⟩, ⟨0, 15, .ro, 0⟩]⟩,
   ⟨0xc, 1, 4, [⟨16, 15, .ro, 0⟩, ⟨0, 15, .ro, 0⟩]⟩,
   ⟨0x10, 1, 4, [⟨4, 1, .wo, 0⟩, ⟨3, 1, .w1c, 0⟩, ⟨2, 1, .w1c, 0⟩, ⟨1, 1, .w1c, 0⟩, ⟨0, 1, .w1c, 0⟩]⟩,
   ⟨0x14, 1, 4, [⟨16, 16, .ro, 0⟩, ⟨8, 8, .ro, 0⟩, ⟨4, 4, .ro, 0⟩, ⟨0, 4, .ro, 0⟩]⟩,
   ⟨0x18, 1, 4, [⟨31, 1, .wo, 0⟩, ⟨30, 1, .rw, 0⟩, ⟨16, 14, .rw, 0⟩, ⟨0, 15, .rw, 0⟩]⟩,
   ⟨0x1c, 1, 4, [⟨3, 1, .ro, 0⟩, ⟨0, 3, .ro, 0⟩]⟩]

/-- SEGP (R504; fields R181). -/
def regsOfSEGP : List RegRow :=
  [⟨0x0, 1, 4, [⟨0, 1, .rwl, 0⟩]⟩,
   ⟨0x4, 1, 4, [⟨16, 16, .ro, 0⟩, ⟨11, 5, .ro, 0⟩, ⟨0, 11, .ro, 0⟩]⟩]

/-- STB (R504; fields R201, R202, R203, R204, R205). -/
def regsOfSTB : List RegRow :=
  [⟨0x0, 1, 4, [⟨24, 8, .rw, 0xa⟩, ⟨20, 4, .rwl, 6⟩, ⟨8, 8, .rw, 4⟩, ⟨0, 8, .rwl, 0xc8⟩]⟩,
   ⟨0x10, 4, 4, [⟨24, 8, .ro, 0⟩, ⟨16, 8, .ro, 0⟩, ⟨3, 1, .wo, 0⟩, ⟨2, 1, .ro, 0⟩, ⟨1, 1, .ro, 0⟩, ⟨0, 1, .ro, 0⟩]⟩,
   ⟨0x40, 32, 4, [⟨20, 12, .ro, 0⟩, ⟨16, 4, .ro, 0⟩, ⟨8, 5, .ro, 0⟩, ⟨4, 4, .ro, 0⟩, ⟨0, 2, .ro, 0⟩]⟩,
   ⟨0xc0, 1, 4, [⟨5, 1, .wo, 0⟩, ⟨4, 1, .w1c, 0⟩, ⟨3, 1, .w1c, 0⟩, ⟨2, 1, .w1c, 0⟩, ⟨1, 1, .w1c, 0⟩, ⟨0, 1, .w1c, 0⟩]⟩,
   ⟨0xc4, 1, 4, [⟨24, 8, .ro, 0⟩, ⟨16, 8, .ro, 0⟩, ⟨8, 8, .ro, 0⟩]⟩,
   ⟨0x100, 1, 4, [⟨24, 8, .ro, 0⟩, ⟨20, 4, .rw, 0⟩, ⟨14, 6, .rw, 0⟩, ⟨12, 2, .rw, 0⟩, ⟨8, 4, .rw, 0⟩, ⟨4, 4, .ro, 0⟩, ⟨3, 1, .wo, 0⟩, ⟨2, 1, .w1c, 0⟩, ⟨0, 1, .wo, 0⟩]⟩,
   ⟨0x104, 9, 4, [⟨0, 32, .rw, 0⟩]⟩,
   ⟨0x13c, 1, 4, [⟨8, 4, .ro, 0⟩, ⟨0, 6, .ro, 0⟩]⟩,
   ⟨0x140, 9, 4, [⟨0, 32, .ro, 0⟩]⟩]

/-- IADC (R504; fields R232). -/
def regsOfIADC : List RegRow :=
  [⟨0x0, 1, 4, [⟨16, 16, .rwl, 0x400⟩, ⟨15, 1, .rwl, 0⟩, ⟨0, 10, .rwl, 0⟩]⟩,
   ⟨0x4, 1, 4, [⟨31, 1, .ro, 0⟩, ⟨30, 1, .ro, 0⟩, ⟨12, 14, .ro, 0⟩, ⟨0, 10, .ro, 0⟩]⟩,
   ⟨0x8, 1, 4, [⟨31, 1, .ro, 0⟩, ⟨30, 1, .ro, 0⟩, ⟨12, 14, .ro, 0⟩, ⟨0, 10, .ro, 0⟩]⟩,
   ⟨0xc, 1, 4, [⟨3, 1, .wo, 0⟩, ⟨2, 1, .w1c, 0⟩, ⟨1, 1, .w1c, 0⟩, ⟨0, 1, .w1c, 0⟩]⟩,
   ⟨0x10, 1, 4, [⟨16, 16, .ro, 0⟩, ⟨8, 8, .ro, 0⟩, ⟨0, 8, .ro, 0⟩]⟩,
   ⟨0x14, 1, 4, [⟨0, 32, .ro, 0⟩]⟩]

/-- IADCP (R504; fields R232). -/
def regsOfIADCP : List RegRow :=
  [⟨0x0, 32, 4, [⟨0, 18, .ro, 0⟩]⟩]

/-- CMP (R504; fields R256). -/
def regsOfCMP : List RegRow :=
  [⟨0x0, 1, 4, [⟨20, 10, .rwl, 0x3ff⟩, ⟨8, 12, .rwl, 0⟩, ⟨0, 8, .rwl, 0x10⟩]⟩,
   ⟨0x4, 1, 4, [⟨31, 1, .ro, 0⟩, ⟨0, 10, .ro, 0x3ff⟩]⟩]

/-- THMD (R504; fields R388). -/
def regsOfTHMD : List RegRow :=
  [⟨0x0, 1, 4, [⟨4, 1, .ro, 0⟩, ⟨0, 4, .ro, 0⟩]⟩]

/-- The blocks of the hub window up to the comparators (R503). -/
def hubBlocks0 : List BlockRow :=
  [⟨0x0, 0x1c, 1, false, .aon, regsOfTOP⟩,  -- TOP
   ⟨0x20, 0x4, 7, false, .core, regsOfLINK⟩,  -- LINK
   ⟨0x40, 0x8, 1, false, .core, regsOfACC⟩,  -- ACC
   ⟨0x400, 0x8, 1, false, .aon, regsOfPWR⟩,  -- PWR
   ⟨0x800, 0x10, 1, false, .aon, regsOfTIME⟩,  -- TIME
   ⟨0x1000, 0x20, 64, false, .aon, regsOfWMON⟩,  -- WMON
   ⟨0x1800, 0x10, 1, false, .aon, regsOfFLTA⟩,  -- FLTA
   ⟨0x2000, 0x14, 1, false, .aon, regsOfTHMA⟩,  -- THMA
   ⟨0x2800, 0x4, 1, false, .aon, regsOfFWA⟩,  -- FWA
   ⟨0x10000, 0x100, 32, false, .core, regsOfLOOP⟩,  -- LOOP
   ⟨0x14000, 0x100, 32, false, .core, regsOfCOEF⟩,  -- COEF
   ⟨0x18000, 0x40, 32, false, .core, regsOfPHSL⟩,  -- PHSL
   ⟨0x1a000, 0x40, 32, false, .core, regsOfSEGL⟩,  -- SEGL
   ⟨0x1c000, 0x20, 32, false, .core, regsOfEADC⟩,  -- EADC
   ⟨0x1d000, 0x400, 2, false, .hka, regsOfSQH⟩,  -- SQH
   ⟨0x1e000, 0x20, 32, false, .core, regsOfCMPL⟩,  -- CMPL
   ⟨0x20000, 0x40, 8, false, .core, regsOfAVSP⟩,  -- AVSP
   ⟨0x20400, 0x20, 32, false, .core, regsOfAVSL⟩]  -- AVSL

/-- The other blocks of the hub window (R503). -/
def hubBlocks1 : List BlockRow :=
  [⟨0x21000, 0x80, 8, false, .core, regsOfHINT⟩,  -- HINT
   ⟨0x22000, 0x44, 1, false, .hka, regsOfHSW⟩,  -- HSW
   ⟨0x23000, 0x200, 1, false, .core, regsOfBUD⟩,  -- BUD
   ⟨0x24000, 0x20, 4, false, .core, regsOfSEQD⟩,  -- SEQD
   ⟨0x24080, 0x10, 1, false, .core, regsOfSEQ⟩,  -- SEQ
   ⟨0x24400, 0x20, 64, false, .core, regsOfSEQR⟩,  -- SEQR
   ⟨0x25000, 0x300, 1, false, .core, regsOfFLT⟩,  -- FLT
   ⟨0x26000, 0x290, 1, false, .core, regsOfTHM⟩,  -- THM
   ⟨0x28000, 0x14, 1, false, .core, regsOfEVH⟩,  -- EVH
   ⟨0x28100, 0x80, 4, false, .pol, regsOfPP⟩,  -- PP
   ⟨0x28400, 0x8, 64, false, .core, regsOfGRP⟩,  -- GRP
   ⟨0x2a000, 0x8, 2048, false, .core, regsOfSRC⟩,  -- SRC
   ⟨0x30000, 0x2c, 1, false, .host, regsOfHIF⟩,  -- HIF
   ⟨0x31000, 0x20, 8, false, .host, regsOfRINGC⟩,  -- RING
   ⟨0x31100, 0x20, 9, false, .host, regsOfRINGX⟩,  -- RINGX
   ⟨0x31240, 0x20, 4, false, .host, regsOfRINGT⟩,  -- RINGT
   ⟨0x31400, 0xe8, 1, false, .host, regsOfTELS⟩,  -- TELS
   ⟨0x32000, 0x18, 1, false, .host, regsOfPMB⟩,  -- PMB
   ⟨0x34000, 0x10, 32, false, .host, regsOfMSIX⟩,  -- MSIX
   ⟨0x35000, 0x8, 1, false, .host, regsOfPBA⟩,  -- PBA
   ⟨0x38000, 0x40, 1, false, .core, regsOfFW⟩,  -- FW
   ⟨0x39000, 0x7c, 1, false, .core, regsOfSEC⟩,  -- SEC
   ⟨0x3a000, 0x800, 1, false, .core, regsOfTILE⟩,  -- TILE
   ⟨0x3b000, 0x24, 1, false, .core, regsOfNVM⟩]  -- NVM

/-- The blocks of a phase die, at die-relative offsets (R504). -/
def dieBlocks : List BlockRow :=
  [⟨0x0, 0x40, 32, true, .px 0, regsOfPWM⟩,  -- PWM
   ⟨0x800, 0x8, 1, true, .px 0, regsOfPWMP⟩,  -- PWMP
   ⟨0x1000, 0x20, 32, true, .px 0, regsOfPHS⟩,  -- PHS
   ⟨0x1400, 0x80, 1, true, .px 0, regsOfPHSP⟩,  -- PHSP
   ⟨0x2000, 0x40, 32, true, .px 0, regsOfSEG⟩,  -- SEG
   ⟨0x2800, 0x8, 1, true, .px 0, regsOfSEGP⟩,  -- SEGP
   ⟨0x3000, 0x164, 1, true, .px 0, regsOfSTB⟩,  -- STB
   ⟨0x4000, 0x20, 32, true, .px 0, regsOfIADC⟩,  -- IADC
   ⟨0x4400, 0x80, 1, true, .px 0, regsOfIADCP⟩,  -- IADCP
   ⟨0x5000, 0x1ac, 1, true, .px 0, regsOfSQH⟩,  -- SQP
   ⟨0x6000, 0x8, 32, true, .px 0, regsOfCMP⟩,  -- CMP
   ⟨0x7000, 0x4, 1, true, .px 0, regsOfTHMD⟩]  -- THMD

/-- The register of an instance that holds the word at `rel`. -/
def findReg (rel : Nat) : List RegRow → Option RegRow
  | [] => none
  | r :: rs =>
    if r.off ≤ rel ∧ rel < r.off + r.count * r.stride ∧ (rel - r.off) % r.stride = 0 then some r
    else findReg rel rs

/-- The register of the first block that holds the word at `o`, with the block's domain. -/
def findBlock (o : Nat) : List BlockRow → Option (Dom × RegRow)
  | [] => none
  | b :: bs =>
    if b.base ≤ o ∧ o < b.base + b.count * b.stride then
      match findReg ((o - b.base) % b.stride) b.regs with
      | some r => some (b.dom, r)
      | none => findBlock o bs
    else findBlock o bs

/-- Where the windows of the phase dies begin (R504). -/
def dieWindow : Nat := 0x100000

/-- The phase die a BAR0 offset lies on, less one. -/
def dieOfOff (o : Nat) : Option (Fin 7) :=
  if h : dieWindow ≤ o ∧ o < dieWindow + 7 * 0x20000 then
    some ⟨(o - dieWindow) / 0x20000, by obtain ⟨h1, h2⟩ := h; unfold dieWindow at *; omega⟩
  else none

/-- The register at a BAR0 offset and its domain; none for a reserved offset (R503, R504). -/
def regAt (o : Nat) : Option (Dom × RegRow) :=
  if o < dieWindow then
    (if o < 0x21000 then findBlock o hubBlocks0 else findBlock o hubBlocks1)
  else match dieOfOff o with
    | some d => (findBlock ((o - dieWindow) % 0x20000) dieBlocks).map (fun p => (.px d, p.2))
    | none => none

/-- The bits of a field in its word. -/
def fieldMask (lo width : Nat) : Word := BitVec.ofNat 32 ((2 ^ width - 1) * 2 ^ lo)

/-- A register's word at reset, from its fields' reset values (R15). -/
def resetFields : List FieldRow → Word
  | [] => 0
  | f :: fs => (BitVec.ofNat 32 (f.reset * 2 ^ f.lo)) ||| resetFields fs

/-- What the register at `o` holds after reset; 0 where no register lies. -/
def resetWord (o : Nat) : Word :=
  match regAt o with
  | some (_, r) => resetFields r.fields
  | none => 0

/-- The domain of the register at `o`. -/
def domAt (o : Nat) : Option Dom := (regAt o).map (·.1)

end Sys2Proof.Machine
end

