-- ==== Sys2Proof/Machine/RegNames.lean ====
section
/-! DEFINITION. The manual's names: BLOCK.REGISTER gives a register's BAR0 offset (R503, R504) and BLOCK.REGISTER_FIELD a field of it. A phase p and a channel are related as R12 says; a phase die is numbered 1 to 7 as in the manual. -/

namespace Sys2Proof.Machine

/-- A field: the BAR0 offset of its register, its lowest bit and its width. -/
structure Fld where
  off : Nat
  lo : Nat
  width : Nat
deriving DecidableEq, Repr

/-- The base of phase die n's window (R504). -/
def dieBase (n : Nat) : Nat := 0x100000 + (n - 1) * 0x20000

/-- The base of SQ[x]: x = 0 and 1 are H0 and H1, 2 to 8 are P1 to P7 (R449, R503, R504). -/
def sqBase (x : Nat) : Nat := if x < 2 then 0x1d000 + 0x400 * x else dieBase (x - 1) + 0x5000

def TOP.IDENT : Nat := 0x0
def TOP.IDENT_VENDOR : Fld := ⟨TOP.IDENT, 24, 8⟩
def TOP.IDENT_FAMILY : Fld := ⟨TOP.IDENT, 16, 8⟩
def TOP.IDENT_PART : Fld := ⟨TOP.IDENT, 0, 16⟩
def TOP.REVISION : Nat := 0x4
def TOP.REVISION_HUB_REV : Fld := ⟨TOP.REVISION, 16, 8⟩
def TOP.REVISION_PX_REV : Fld := ⟨TOP.REVISION, 8, 8⟩
def TOP.REVISION_ROM_REV : Fld := ⟨TOP.REVISION, 0, 8⟩
def TOP.DIECFG : Nat := 0x8
def TOP.DIECFG_PXUSE : Fld := ⟨TOP.DIECFG, 9, 7⟩
def TOP.DIECFG_PXPWR : Fld := ⟨TOP.DIECFG, 1, 7⟩
def TOP.DIECFG_HUB : Fld := ⟨TOP.DIECFG, 0, 1⟩
def TOP.UID0 : Nat := 0xc
def TOP.UID0_UID : Fld := ⟨TOP.UID0, 0, 32⟩
def TOP.UID1 : Nat := 0x10
def TOP.UID1_UID : Fld := ⟨TOP.UID1, 0, 32⟩
def TOP.UID2 : Nat := 0x14
def TOP.UID2_UID : Fld := ⟨TOP.UID2, 0, 32⟩
def TOP.UID3 : Nat := 0x18
def TOP.UID3_UID : Fld := ⟨TOP.UID3, 0, 32⟩
def LINK.LINKSTAT (n : Nat) : Nat := 0x20 + 4 * (n - 1)
def LINK.LINKSTAT_CWERR (n : Nat) : Fld := ⟨LINK.LINKSTAT n, 24, 8⟩
def LINK.LINKSTAT_SFRETRY (n : Nat) : Fld := ⟨LINK.LINKSTAT n, 16, 8⟩
def LINK.LINKSTAT_CNTCLR (n : Nat) : Fld := ⟨LINK.LINKSTAT n, 3, 1⟩
def LINK.LINKSTAT_ERRF (n : Nat) : Fld := ⟨LINK.LINKSTAT n, 2, 1⟩
def LINK.LINKSTAT_WDOG (n : Nat) : Fld := ⟨LINK.LINKSTAT n, 1, 1⟩
def LINK.LINKSTAT_UP (n : Nat) : Fld := ⟨LINK.LINKSTAT n, 0, 1⟩
def ACC.ACCST : Nat := 0x40
def ACC.ACCST_LOCKED : Fld := ⟨ACC.ACCST, 31, 1⟩
def ACC.ACCST_LASTOFS : Fld := ⟨ACC.ACCST, 4, 21⟩
def ACC.ACCST_FAILF : Fld := ⟨ACC.ACCST, 3, 1⟩
def ACC.ACCST_OFFF : Fld := ⟨ACC.ACCST, 2, 1⟩
def ACC.ACCST_RSVF : Fld := ⟨ACC.ACCST, 1, 1⟩
def ACC.ACCST_LOCKF : Fld := ⟨ACC.ACCST, 0, 1⟩
def ACC.ACCCNT : Nat := 0x44
def ACC.ACCCNT_LOCKCNT : Fld := ⟨ACC.ACCCNT, 24, 8⟩
def ACC.ACCCNT_OFFCNT : Fld := ⟨ACC.ACCCNT, 16, 8⟩
def ACC.ACCCNT_RSVCNT : Fld := ⟨ACC.ACCCNT, 8, 8⟩
def ACC.ACCCNT_FAILCNT : Fld := ⟨ACC.ACCCNT, 1, 7⟩
def ACC.ACCCNT_CNTCLR : Fld := ⟨ACC.ACCCNT, 0, 1⟩
def PWR.DOMSTAT : Nat := 0x400
def PWR.DOMSTAT_HOLDUP : Fld := ⟨PWR.DOMSTAT, 31, 1⟩
def PWR.DOMSTAT_PX : Fld := ⟨PWR.DOMSTAT, 6, 7⟩
def PWR.DOMSTAT_HKA : Fld := ⟨PWR.DOMSTAT, 5, 1⟩
def PWR.DOMSTAT_NVM : Fld := ⟨PWR.DOMSTAT, 4, 1⟩
def PWR.DOMSTAT_HOST : Fld := ⟨PWR.DOMSTAT, 3, 1⟩
def PWR.DOMSTAT_POL : Fld := ⟨PWR.DOMSTAT, 2, 1⟩
def PWR.DOMSTAT_CORE : Fld := ⟨PWR.DOMSTAT, 1, 1⟩
def PWR.DOMSTAT_AON : Fld := ⟨PWR.DOMSTAT, 0, 1⟩
def PWR.DOMCTL : Nat := 0x404
def PWR.DOMCTL_POLSLP : Fld := ⟨PWR.DOMCTL, 0, 1⟩
def TIME.NOW_LO : Nat := 0x800
def TIME.NOW_LO_NOWL : Fld := ⟨TIME.NOW_LO, 0, 32⟩
def TIME.NOW_HI : Nat := 0x804
def TIME.NOW_HI_NOWH : Fld := ⟨TIME.NOW_HI, 0, 32⟩
def TIME.TBSTAT : Nat := 0x808
def TIME.TBSTAT_TB1LCNT : Fld := ⟨TIME.TBSTAT, 24, 8⟩
def TIME.TBSTAT_TB0LCNT : Fld := ⟨TIME.TBSTAT, 16, 8⟩
def TIME.TBSTAT_CNTCLR : Fld := ⟨TIME.TBSTAT, 10, 1⟩
def TIME.TBSTAT_TB1LF : Fld := ⟨TIME.TBSTAT, 9, 1⟩
def TIME.TBSTAT_TB0LF : Fld := ⟨TIME.TBSTAT, 8, 1⟩
def TIME.TBSTAT_HOLDOVER : Fld := ⟨TIME.TBSTAT, 7, 1⟩
def TIME.TBSTAT_TB7LK : Fld := ⟨TIME.TBSTAT, 5, 1⟩
def TIME.TBSTAT_TB4OK : Fld := ⟨TIME.TBSTAT, 4, 1⟩
def TIME.TBSTAT_TB3LK : Fld := ⟨TIME.TBSTAT, 3, 1⟩
def TIME.TBSTAT_TB2LK : Fld := ⟨TIME.TBSTAT, 2, 1⟩
def TIME.TBSTAT_TB1OK : Fld := ⟨TIME.TBSTAT, 1, 1⟩
def TIME.TBSTAT_TB0OK : Fld := ⟨TIME.TBSTAT, 0, 1⟩
def TIME.SPEED : Nat := 0x80c
def TIME.SPEED_LOWLIM : Fld := ⟨TIME.SPEED, 8, 8⟩
def TIME.SPEED_SPDIDX : Fld := ⟨TIME.SPEED, 0, 8⟩
def WMON.THR (r : Nat) : Nat := 0x1000 + 0x20 * r
def WMON.THR_WHI (r : Nat) : Fld := ⟨WMON.THR r, 16, 12⟩
def WMON.THR_WLO (r : Nat) : Fld := ⟨WMON.THR r, 0, 12⟩
def WMON.CFG (r : Nat) : Nat := 0x1004 + 0x20 * r
def WMON.CFG_WHYS (r : Nat) : Fld := ⟨WMON.CFG r, 24, 8⟩
def WMON.CFG_TICK (r : Nat) : Fld := ⟨WMON.CFG r, 14, 10⟩
def WMON.CFG_WTRIP (r : Nat) : Fld := ⟨WMON.CFG r, 12, 2⟩
def WMON.CFG_CONFENT (r : Nat) : Fld := ⟨WMON.CFG r, 8, 4⟩
def WMON.CFG_CONFSQ (r : Nat) : Fld := ⟨WMON.CFG r, 7, 1⟩
def WMON.CFG_CONFDLY (r : Nat) : Fld := ⟨WMON.CFG r, 4, 3⟩
def WMON.CFG_CONFEN (r : Nat) : Fld := ⟨WMON.CFG r, 1, 1⟩
def WMON.CFG_EN (r : Nat) : Fld := ⟨WMON.CFG r, 0, 1⟩
def WMON.STAT (r : Nat) : Nat := 0x1008 + 0x20 * r
def WMON.STAT_CONFD (r : Nat) : Fld := ⟨WMON.STAT r, 3, 1⟩
def WMON.STAT_CONFPEND (r : Nat) : Fld := ⟨WMON.STAT r, 2, 1⟩
def WMON.STAT_STATE (r : Nat) : Fld := ⟨WMON.STAT r, 0, 2⟩
def WMON.EVT (r : Nat) : Nat := 0x100c + 0x20 * r
def WMON.EVT_CNTCLR (r : Nat) : Fld := ⟨WMON.EVT r, 3, 1⟩
def WMON.EVT_CONFF (r : Nat) : Fld := ⟨WMON.EVT r, 2, 1⟩
def WMON.EVT_UNDERF (r : Nat) : Fld := ⟨WMON.EVT r, 1, 1⟩
def WMON.EVT_OVERF (r : Nat) : Fld := ⟨WMON.EVT r, 0, 1⟩
def WMON.EVTCNT (r : Nat) : Nat := 0x1010 + 0x20 * r
def WMON.EVTCNT_OVERCNT (r : Nat) : Fld := ⟨WMON.EVTCNT r, 24, 8⟩
def WMON.EVTCNT_UNDERCNT (r : Nat) : Fld := ⟨WMON.EVTCNT r, 16, 8⟩
def WMON.EVTCNT_CONFCNT (r : Nat) : Fld := ⟨WMON.EVTCNT r, 8, 8⟩
def FLTA.PIN : Nat := 0x1800
def FLTA.PIN_LEVEL : Fld := ⟨FLTA.PIN, 0, 1⟩
def FLTA.F4 : Nat := 0x1804
def FLTA.F4_CNT : Fld := ⟨FLTA.F4, 24, 8⟩
def FLTA.F4_INST : Fld := ⟨FLTA.F4, 16, 8⟩
def FLTA.F4_CODE : Fld := ⟨FLTA.F4, 0, 16⟩
def FLTA.F4TIME_LO : Nat := 0x1808
def FLTA.F4TIME_LO_F4TL : Fld := ⟨FLTA.F4TIME_LO, 0, 32⟩
def FLTA.F4TIME_HI : Nat := 0x180c
def FLTA.F4TIME_HI_F4TH : Fld := ⟨FLTA.F4TIME_HI, 0, 32⟩
def THMA.SDSTAT : Nat := 0x2000
def THMA.SDSTAT_SDTOT : Fld := ⟨THMA.SDSTAT, 24, 8⟩
def THMA.SDSTAT_N24 : Fld := ⟨THMA.SDSTAT, 22, 2⟩
def THMA.SDSTAT_INST : Fld := ⟨THMA.SDSTAT, 8, 8⟩
def THMA.SDSTAT_STATE : Fld := ⟨THMA.SDSTAT, 0, 2⟩
def THMA.SDTIME_LO : Nat := 0x2004
def THMA.SDTIME_LO_SDTL : Fld := ⟨THMA.SDTIME_LO, 0, 32⟩
def THMA.SDTIME_HI : Nat := 0x2008
def THMA.SDTIME_HI_SDTH : Fld := ⟨THMA.SDTIME_HI, 0, 32⟩
def THMA.SDMASK : Nat := 0x200c
def THMA.SDMASK_MASK : Fld := ⟨THMA.SDMASK, 0, 8⟩
def THMA.BUFLOST : Nat := 0x2010
def THMA.BUFLOST_LOST : Fld := ⟨THMA.BUFLOST, 0, 16⟩
def FWA.FAIL : Nat := 0x2800
def FWA.FAIL_FAILB : Fld := ⟨FWA.FAIL, 4, 4⟩
def FWA.FAIL_FAILA : Fld := ⟨FWA.FAIL, 0, 4⟩
def LOOP.CTRL (n : Nat) : Nat := 0x10000 + 0x100 * n
def LOOP.CTRL_SPECDIS (n : Nat) : Fld := ⟨LOOP.CTRL n, 11, 1⟩
def LOOP.CTRL_TRLOHZ (n : Nat) : Fld := ⟨LOOP.CTRL n, 10, 1⟩
def LOOP.CTRL_TREXM (n : Nat) : Fld := ⟨LOOP.CTRL n, 9, 1⟩
def LOOP.CTRL_TREN (n : Nat) : Fld := ⟨LOOP.CTRL n, 8, 1⟩
def LOOP.CTRL_FFEN (n : Nat) : Fld := ⟨LOOP.CTRL n, 7, 1⟩
def LOOP.CTRL_LLEN (n : Nat) : Fld := ⟨LOOP.CTRL n, 6, 1⟩
def LOOP.CTRL_STOPM (n : Nat) : Fld := ⟨LOOP.CTRL n, 5, 1⟩
def LOOP.CTRL_PBSAFE (n : Nat) : Fld := ⟨LOOP.CTRL n, 4, 1⟩
def LOOP.CTRL_DCLASS (n : Nat) : Fld := ⟨LOOP.CTRL n, 0, 1⟩
def LOOP.STATUS (n : Nat) : Nat := 0x10004 + 0x100 * n
def LOOP.STATUS_ACTSET (n : Nat) : Fld := ⟨LOOP.STATUS n, 22, 2⟩
def LOOP.STATUS_ILIMACT (n : Nat) : Fld := ⟨LOOP.STATUS n, 15, 1⟩
def LOOP.STATUS_CLAMPHI (n : Nat) : Fld := ⟨LOOP.STATUS n, 14, 1⟩
def LOOP.STATUS_CLAMPLO (n : Nat) : Fld := ⟨LOOP.STATUS n, 13, 1⟩
def LOOP.STATUS_WINDUP (n : Nat) : Fld := ⟨LOOP.STATUS n, 12, 1⟩
def LOOP.STATUS_NOSINK (n : Nat) : Fld := ⟨LOOP.STATUS n, 11, 1⟩
def LOOP.STATUS_TRSTATE (n : Nat) : Fld := ⟨LOOP.STATUS n, 8, 2⟩
def LOOP.STATUS_STATE (n : Nat) : Fld := ⟨LOOP.STATUS n, 0, 4⟩
def LOOP.RATE (n : Nat) : Nat := 0x10008 + 0x100 * n
def LOOP.RATE_SYNC (n : Nat) : Fld := ⟨LOOP.RATE n, 31, 1⟩
def LOOP.RATE_SPER (n : Nat) : Fld := ⟨LOOP.RATE n, 16, 10⟩
def LOOP.RATE_SPHASE (n : Nat) : Fld := ⟨LOOP.RATE n, 0, 10⟩
def LOOP.TARGET (n : Nat) : Nat := 0x1000c + 0x100 * n
def LOOP.TARGET_RAMPING (n : Nat) : Fld := ⟨LOOP.TARGET n, 15, 1⟩
def LOOP.TARGET_VTGT (n : Nat) : Fld := ⟨LOOP.TARGET n, 0, 14⟩
def LOOP.SOFT (n : Nat) : Nat := 0x10010 + 0x100 * n
def LOOP.SOFT_SSRATE (n : Nat) : Fld := ⟨LOOP.SOFT n, 16, 16⟩
def LOOP.SOFT_VSTOP (n : Nat) : Fld := ⟨LOOP.SOFT n, 0, 14⟩
def LOOP.LLINE (n : Nat) : Nat := 0x10014 + 0x100 * n
def LOOP.LLINE_RLL (n : Nat) : Fld := ⟨LOOP.LLINE n, 0, 16⟩
def LOOP.TRBAND (n : Nat) : Nat := 0x10018 + 0x100 * n
def LOOP.TRBAND_TRMAXS (n : Nat) : Fld := ⟨LOOP.TRBAND n, 16, 10⟩
def LOOP.TRBAND_TRHYST (n : Nat) : Fld := ⟨LOOP.TRBAND n, 10, 6⟩
def LOOP.TRBAND_LINBAND (n : Nat) : Fld := ⟨LOOP.TRBAND n, 0, 10⟩
def LOOP.TRDUTY (n : Nat) : Nat := 0x1001c + 0x100 * n
def LOOP.TRDUTY_DTRHI (n : Nat) : Fld := ⟨LOOP.TRDUTY n, 16, 16⟩
def LOOP.TRDUTY_DTRLO (n : Nat) : Fld := ⟨LOOP.TRDUTY n, 0, 16⟩
def LOOP.DCLAMP (n : Nat) : Nat := 0x10020 + 0x100 * n
def LOOP.DCLAMP_DMAX (n : Nat) : Fld := ⟨LOOP.DCLAMP n, 16, 16⟩
def LOOP.DCLAMP_DMIN (n : Nat) : Fld := ⟨LOOP.DCLAMP n, 0, 16⟩
def LOOP.DLIMHW (n : Nat) : Nat := 0x10024 + 0x100 * n
def LOOP.DLIMHW_DHWMAX (n : Nat) : Fld := ⟨LOOP.DLIMHW n, 16, 16⟩
def LOOP.CLIM (n : Nat) : Nat := 0x10028 + 0x100 * n
def LOOP.CLIM_ILIMT (n : Nat) : Fld := ⟨LOOP.CLIM n, 16, 16⟩
def LOOP.CLIM_KCL (n : Nat) : Fld := ⟨LOOP.CLIM n, 0, 16⟩
def LOOP.FFCFG (n : Nat) : Nat := 0x1002c + 0x100 * n
def LOOP.FFCFG_FFGAIN (n : Nat) : Fld := ⟨LOOP.FFCFG n, 16, 16⟩
def LOOP.FFCFG_FFLEN (n : Nat) : Fld := ⟨LOOP.FFCFG n, 8, 8⟩
def LOOP.FFCFG_FFDEC (n : Nat) : Fld := ⟨LOOP.FFCFG n, 0, 8⟩
def LOOP.SPEC (n : Nat) : Nat := 0x10030 + 0x100 * n
def LOOP.SPEC_SQCNT (n : Nat) : Fld := ⟨LOOP.SPEC n, 8, 24⟩
def LOOP.SPEC_CNTCLR (n : Nat) : Fld := ⟨LOOP.SPEC n, 0, 1⟩
def LOOP.SAMPLES (n : Nat) : Nat := 0x10034 + 0x100 * n
def LOOP.SAMPLES_COUNT (n : Nat) : Fld := ⟨LOOP.SAMPLES n, 0, 32⟩
def LOOP.OVR (n : Nat) : Nat := 0x10038 + 0x100 * n
def LOOP.OVR_OVRCNT (n : Nat) : Fld := ⟨LOOP.OVR n, 16, 16⟩
def LOOP.OVR_CONSEC (n : Nat) : Fld := ⟨LOOP.OVR n, 8, 2⟩
def LOOP.OVR_CNTCLR (n : Nat) : Fld := ⟨LOOP.OVR n, 1, 1⟩
def LOOP.OVR_OVRF (n : Nat) : Fld := ⟨LOOP.OVR n, 0, 1⟩
def LOOP.EVT (n : Nat) : Nat := 0x1003c + 0x100 * n
def LOOP.EVT_CNTCLR (n : Nat) : Fld := ⟨LOOP.EVT n, 5, 1⟩
def LOOP.EVT_STALEF (n : Nat) : Fld := ⟨LOOP.EVT n, 4, 1⟩
def LOOP.EVT_ILIMF (n : Nat) : Fld := ⟨LOOP.EVT n, 3, 1⟩
def LOOP.EVT_WINDF (n : Nat) : Fld := ⟨LOOP.EVT n, 2, 1⟩
def LOOP.EVT_TRTOF (n : Nat) : Fld := ⟨LOOP.EVT n, 1, 1⟩
def LOOP.EVT_TRF (n : Nat) : Fld := ⟨LOOP.EVT n, 0, 1⟩
def LOOP.EVTCNT (n : Nat) : Nat := 0x10040 + 0x100 * n
def LOOP.EVTCNT_ILIMCNT (n : Nat) : Fld := ⟨LOOP.EVTCNT n, 24, 8⟩
def LOOP.EVTCNT_WINDCNT (n : Nat) : Fld := ⟨LOOP.EVTCNT n, 16, 8⟩
def LOOP.EVTCNT_TRTOCNT (n : Nat) : Fld := ⟨LOOP.EVTCNT n, 8, 8⟩
def LOOP.EVTCNT_TRCNT (n : Nat) : Fld := ⟨LOOP.EVTCNT n, 0, 8⟩
def LOOP.STALE (n : Nat) : Nat := 0x10044 + 0x100 * n
def LOOP.STALE_FFXCNT (n : Nat) : Fld := ⟨LOOP.STALE n, 16, 16⟩
def LOOP.STALE_STALECNT (n : Nat) : Fld := ⟨LOOP.STALE n, 0, 16⟩
def LOOP.DUTYMON (n : Nat) : Nat := 0x10048 + 0x100 * n
def LOOP.DUTYMON_DUTY (n : Nat) : Fld := ⟨LOOP.DUTYMON n, 12, 20⟩
def LOOP.DUTYMON_TAG (n : Nat) : Fld := ⟨LOOP.DUTYMON n, 10, 2⟩
def LOOP.ERRMON (n : Nat) : Nat := 0x1004c + 0x100 * n
def LOOP.ERRMON_EEFF (n : Nat) : Fld := ⟨LOOP.ERRMON n, 16, 16⟩
def LOOP.ERRMON_ECODE (n : Nat) : Fld := ⟨LOOP.ERRMON n, 0, 12⟩
def LOOP.ISUM (n : Nat) : Nat := 0x10050 + 0x100 * n
def LOOP.ISUM_ISUM (n : Nat) : Fld := ⟨LOOP.ISUM n, 0, 18⟩
def LOOP.INTEG (n : Nat) : Nat := 0x10054 + 0x100 * n
def LOOP.INTEG_INTEG (n : Nat) : Fld := ⟨LOOP.INTEG n, 0, 32⟩
def COEF.SEL (n : Nat) : Nat := 0x14000 + 0x100 * n
def COEF.SEL_SWREF (n : Nat) : Fld := ⟨COEF.SEL n, 12, 4⟩
def COEF.SEL_SWREFF (n : Nat) : Fld := ⟨COEF.SEL n, 5, 1⟩
def COEF.SEL_SWAPF (n : Nat) : Fld := ⟨COEF.SEL n, 4, 1⟩
def COEF.SEL_PEND (n : Nat) : Fld := ⟨COEF.SEL n, 3, 1⟩
def COEF.SEL_GO (n : Nat) : Fld := ⟨COEF.SEL n, 2, 1⟩
def COEF.SEL_REQSET (n : Nat) : Fld := ⟨COEF.SEL n, 0, 2⟩
def COEF.SETVAL (n : Nat) : Nat := 0x14004 + 0x100 * n
def COEF.SETVAL_VALID (n : Nat) : Fld := ⟨COEF.SETVAL n, 0, 4⟩
def COEF.SETCRC (n : Nat) (i : Nat) : Nat := 0x14008 + 0x100 * n + 4 * i
def COEF.SETCRC_CRC (n : Nat) (i : Nat) : Fld := ⟨COEF.SETCRC n i, 0, 32⟩
def COEF.SWCNT (n : Nat) : Nat := 0x14018 + 0x100 * n
def COEF.SWCNT_SWPCNT (n : Nat) : Fld := ⟨COEF.SWCNT n, 16, 16⟩
def COEF.SWCNT_SWRCNT (n : Nat) : Fld := ⟨COEF.SWCNT n, 8, 8⟩
def COEF.SWCNT_CNTCLR (n : Nat) : Fld := ⟨COEF.SWCNT n, 0, 1⟩
def COEF.TUNECFG (n : Nat) : Nat := 0x14020 + 0x100 * n
def COEF.TUNECFG_HREL (n : Nat) : Fld := ⟨COEF.TUNECFG n, 16, 16⟩
def COEF.TUNECFG_HYST (n : Nat) : Fld := ⟨COEF.TUNECFG n, 0, 10⟩
def COEF.TUNECYC (n : Nat) : Nat := 0x14024 + 0x100 * n
def COEF.TUNECYC_NSKIP (n : Nat) : Fld := ⟨COEF.TUNECYC n, 24, 4⟩
def COEF.TUNECYC_NMEAS (n : Nat) : Fld := ⟨COEF.TUNECYC n, 16, 6⟩
def COEF.TUNECYC_MAXS (n : Nat) : Fld := ⟨COEF.TUNECYC n, 0, 16⟩
def COEF.TUNELEAVE (n : Nat) : Nat := 0x14028 + 0x100 * n
def COEF.TUNELEAVE_PEAKW (n : Nat) : Fld := ⟨COEF.TUNELEAVE n, 16, 16⟩
def COEF.TUNELEAVE_LVWAIT (n : Nat) : Fld := ⟨COEF.TUNELEAVE n, 0, 16⟩
def COEF.TUNECTL (n : Nat) : Nat := 0x1402c + 0x100 * n
def COEF.TUNECTL_ABORT (n : Nat) : Fld := ⟨COEF.TUNECTL n, 1, 1⟩
def COEF.TUNECTL_START (n : Nat) : Fld := ⟨COEF.TUNECTL n, 0, 1⟩
def COEF.TUNELIM (n : Nat) : Nat := 0x14030 + 0x100 * n
def COEF.TUNELIM_HMAX (n : Nat) : Fld := ⟨COEF.TUNELIM n, 16, 16⟩
def COEF.TUNELIM_EXLIM (n : Nat) : Fld := ⟨COEF.TUNELIM n, 0, 10⟩
def COEF.TUNESTAT (n : Nat) : Nat := 0x14034 + 0x100 * n
def COEF.TUNESTAT_RESULT (n : Nat) : Fld := ⟨COEF.TUNESTAT n, 28, 4⟩
def COEF.TUNESTAT_CAUSE (n : Nat) : Fld := ⟨COEF.TUNESTAT n, 24, 4⟩
def COEF.TUNESTAT_CYCLES (n : Nat) : Fld := ⟨COEF.TUNESTAT n, 16, 8⟩
def COEF.TUNESTAT_SAMPLES (n : Nat) : Fld := ⟨COEF.TUNESTAT n, 0, 16⟩
def COEF.TUNEKU (n : Nat) : Nat := 0x14038 + 0x100 * n
def COEF.TUNEKU_KU (n : Nat) : Fld := ⟨COEF.TUNEKU n, 0, 24⟩
def COEF.TUNEPER (n : Nat) : Nat := 0x1403c + 0x100 * n
def COEF.TUNEPER_ASYM (n : Nat) : Fld := ⟨COEF.TUNEPER n, 31, 1⟩
def COEF.TUNEPER_TPER (n : Nat) : Fld := ⟨COEF.TUNEPER n, 0, 20⟩
def COEF.TUNEAMP (n : Nat) : Nat := 0x14040 + 0x100 * n
def COEF.TUNEAMP_AMPL (n : Nat) : Fld := ⟨COEF.TUNEAMP n, 0, 16⟩
def COEF.TUNEEVT (n : Nat) : Nat := 0x14044 + 0x100 * n
def COEF.TUNEEVT_DONECNT (n : Nat) : Fld := ⟨COEF.TUNEEVT n, 24, 8⟩
def COEF.TUNEEVT_ABRTCNT (n : Nat) : Fld := ⟨COEF.TUNEEVT n, 16, 8⟩
def COEF.TUNEEVT_CNTCLR (n : Nat) : Fld := ⟨COEF.TUNEEVT n, 2, 1⟩
def COEF.TUNEEVT_ABRTF (n : Nat) : Fld := ⟨COEF.TUNEEVT n, 1, 1⟩
def COEF.TUNEEVT_DONEF (n : Nat) : Fld := ⟨COEF.TUNEEVT n, 0, 1⟩
def PHSL.CTRL (n : Nat) : Nat := 0x18000 + 0x40 * n
def PHSL.CTRL_NMIN (n : Nat) : Fld := ⟨PHSL.CTRL n, 16, 6⟩
def PHSL.CTRL_TRADD (n : Nat) : Fld := ⟨PHSL.CTRL n, 7, 1⟩
def PHSL.CTRL_AUTO (n : Nat) : Fld := ⟨PHSL.CTRL n, 6, 1⟩
def PHSL.CTRL_BALEN (n : Nat) : Fld := ⟨PHSL.CTRL n, 0, 1⟩
def PHSL.TIMING (n : Nat) : Nat := 0x18004 + 0x40 * n
def PHSL.TIMING_BALINT (n : Nat) : Fld := ⟨PHSL.TIMING n, 24, 8⟩
def PHSL.TIMING_RAMPN (n : Nat) : Fld := ⟨PHSL.TIMING n, 16, 8⟩
def PHSL.TIMING_PDWELL (n : Nat) : Fld := ⟨PHSL.TIMING n, 0, 16⟩
def PHSL.THRESH (n : Nat) : Nat := 0x18008 + 0x40 * n
def PHSL.THRESH_PADD (n : Nat) : Fld := ⟨PHSL.THRESH n, 16, 16⟩
def PHSL.THRESH_PSHED (n : Nat) : Fld := ⟨PHSL.THRESH n, 0, 16⟩
def PHSL.ALIGN (n : Nat) : Nat := 0x1800c + 0x40 * n
def PHSL.ALIGN_ALSTEP (n : Nat) : Fld := ⟨PHSL.ALIGN n, 0, 22⟩
def PHSL.STATUS (n : Nat) : Nat := 0x18010 + 0x40 * n
def PHSL.STATUS_NAVAIL (n : Nat) : Fld := ⟨PHSL.STATUS n, 24, 6⟩
def PHSL.STATUS_NACT (n : Nat) : Fld := ⟨PHSL.STATUS n, 16, 6⟩
def PHSL.STATUS_THRBAD (n : Nat) : Fld := ⟨PHSL.STATUS n, 4, 1⟩
def PHSL.STATUS_FLOOR (n : Nat) : Fld := ⟨PHSL.STATUS n, 3, 1⟩
def PHSL.STATUS_MOVING (n : Nat) : Fld := ⟨PHSL.STATUS n, 2, 1⟩
def PHSL.STATUS_PROC (n : Nat) : Fld := ⟨PHSL.STATUS n, 0, 2⟩
def PHSL.BASE (n : Nat) : Nat := 0x18014 + 0x40 * n
def PHSL.BASE_B (n : Nat) : Fld := ⟨PHSL.BASE n, 0, 22⟩
def PHSL.EVT (n : Nat) : Nat := 0x18018 + 0x40 * n
def PHSL.EVT_CNTCLR (n : Nat) : Fld := ⟨PHSL.EVT n, 4, 1⟩
def PHSL.EVT_NMINF (n : Nat) : Fld := ⟨PHSL.EVT n, 3, 1⟩
def PHSL.EVT_LOSTF (n : Nat) : Fld := ⟨PHSL.EVT n, 2, 1⟩
def PHSL.EVT_SHEDF (n : Nat) : Fld := ⟨PHSL.EVT n, 1, 1⟩
def PHSL.EVT_ADDF (n : Nat) : Fld := ⟨PHSL.EVT n, 0, 1⟩
def PHSL.EVTCNT (n : Nat) : Nat := 0x1801c + 0x40 * n
def PHSL.EVTCNT_ADDCNT (n : Nat) : Fld := ⟨PHSL.EVTCNT n, 24, 8⟩
def PHSL.EVTCNT_SHEDCNT (n : Nat) : Fld := ⟨PHSL.EVTCNT n, 16, 8⟩
def PHSL.EVTCNT_LOSTCNT (n : Nat) : Fld := ⟨PHSL.EVTCNT n, 8, 8⟩
def PHSL.EVTCNT_NMINCNT (n : Nat) : Fld := ⟨PHSL.EVTCNT n, 0, 8⟩
def SEGL.BP (n : Nat) (i : Nat) : Nat := 0x1a000 + 0x40 * n + 4 * i
def SEGL.BP_ITH (n : Nat) (i : Nat) : Fld := ⟨SEGL.BP n i, 20, 12⟩
def SEGL.BP_HSF (n : Nat) (i : Nat) : Fld := ⟨SEGL.BP n i, 9, 9⟩
def SEGL.BP_LSF (n : Nat) (i : Nat) : Fld := ⟨SEGL.BP n i, 0, 9⟩
def SEGL.CFG (n : Nat) : Nat := 0x1a020 + 0x40 * n
def SEGL.CFG_HYS (n : Nat) : Fld := ⟨SEGL.CFG n, 24, 8⟩
def SEGL.CFG_ROTSTEP (n : Nat) : Fld := ⟨SEGL.CFG n, 0, 14⟩
def SEGL.ROT (n : Nat) : Nat := 0x1a024 + 0x40 * n
def SEGL.ROT_SDWELL (n : Nat) : Fld := ⟨SEGL.ROT n, 16, 16⟩
def SEGL.ROT_ROTINT (n : Nat) : Fld := ⟨SEGL.ROT n, 0, 14⟩
def SEGL.USEMIN (n : Nat) : Nat := 0x1a028 + 0x40 * n
def SEGL.USEMIN_FMIN (n : Nat) : Fld := ⟨SEGL.USEMIN n, 16, 9⟩
def SEGL.USEMIN_MINUSE (n : Nat) : Fld := ⟨SEGL.USEMIN n, 0, 9⟩
def SEGL.CTRL (n : Nat) : Nat := 0x1a02c + 0x40 * n
def SEGL.CTRL_TBLERRCNT (n : Nat) : Fld := ⟨SEGL.CTRL n, 24, 8⟩
def SEGL.CTRL_CNTCLR (n : Nat) : Fld := ⟨SEGL.CTRL n, 4, 1⟩
def SEGL.CTRL_SEGAUTO (n : Nat) : Fld := ⟨SEGL.CTRL n, 3, 1⟩
def SEGL.CTRL_TBLERRF (n : Nat) : Fld := ⟨SEGL.CTRL n, 2, 1⟩
def SEGL.CTRL_TBLGO (n : Nat) : Fld := ⟨SEGL.CTRL n, 0, 1⟩
def EADC.CFG (n : Nat) : Nat := 0x1c000 + 0x20 * n
def EADC.CFG_OFSADJ (n : Nat) : Fld := ⟨EADC.CFG n, 0, 8⟩
def EADC.EVT (n : Nat) : Nat := 0x1c004 + 0x20 * n
def EADC.EVT_CNTCLR (n : Nat) : Fld := ⟨EADC.EVT n, 2, 1⟩
def EADC.EVT_SATLF (n : Nat) : Fld := ⟨EADC.EVT n, 1, 1⟩
def EADC.EVT_SATHF (n : Nat) : Fld := ⟨EADC.EVT n, 0, 1⟩
def EADC.EVTCNT (n : Nat) : Nat := 0x1c008 + 0x20 * n
def EADC.EVTCNT_SATHCNT (n : Nat) : Fld := ⟨EADC.EVTCNT n, 16, 16⟩
def EADC.EVTCNT_SATLCNT (n : Nat) : Fld := ⟨EADC.EVTCNT n, 0, 16⟩
def SQ.CTRL (x : Nat) : Nat := sqBase x + 0x0
def SQ.CTRL_REPINT (x : Nat) : Fld := ⟨SQ.CTRL x, 16, 16⟩
def SQ.CTRL_LASTE (x : Nat) : Fld := ⟨SQ.CTRL x, 8, 4⟩
def SQ.CTRL_MODE (x : Nat) : Fld := ⟨SQ.CTRL x, 4, 2⟩
def SQ.CTRL_STOP (x : Nat) : Fld := ⟨SQ.CTRL x, 2, 1⟩
def SQ.CTRL_START (x : Nat) : Fld := ⟨SQ.CTRL x, 1, 1⟩
def SQ.STAT (x : Nat) : Nat := sqBase x + 0x4
def SQ.STAT_SEQCNT (x : Nat) : Fld := ⟨SQ.STAT x, 24, 8⟩
def SQ.STAT_CUR (x : Nat) : Fld := ⟨SQ.STAT x, 16, 4⟩
def SQ.STAT_ACT (x : Nat) : Fld := ⟨SQ.STAT x, 0, 2⟩
def SQ.EVT (x : Nat) : Nat := sqBase x + 0x8
def SQ.EVT_CNTCLR (x : Nat) : Fld := ⟨SQ.EVT x, 5, 1⟩
def SQ.EVT_CALF (x : Nat) : Fld := ⟨SQ.EVT x, 4, 1⟩
def SQ.EVT_SLIPF (x : Nat) : Fld := ⟨SQ.EVT x, 3, 1⟩
def SQ.EVT_INJREFF (x : Nat) : Fld := ⟨SQ.EVT x, 2, 1⟩
def SQ.EVT_INJF (x : Nat) : Fld := ⟨SQ.EVT x, 1, 1⟩
def SQ.EVT_SEQF (x : Nat) : Fld := ⟨SQ.EVT x, 0, 1⟩
def SQ.EVTCNT (x : Nat) : Nat := sqBase x + 0xc
def SQ.EVTCNT_INJCNT (x : Nat) : Fld := ⟨SQ.EVTCNT x, 24, 8⟩
def SQ.EVTCNT_INJRCNT (x : Nat) : Fld := ⟨SQ.EVTCNT x, 16, 8⟩
def SQ.EVTCNT_SLIPCNT (x : Nat) : Fld := ⟨SQ.EVTCNT x, 8, 8⟩
def SQ.EVTCNT_CALCNT (x : Nat) : Fld := ⟨SQ.EVTCNT x, 0, 8⟩
def SQ.OVR (x : Nat) : Nat := sqBase x + 0x10
def SQ.OVR_OVR (x : Nat) : Fld := ⟨SQ.OVR x, 0, 16⟩
def SQ.OVRC (x : Nat) (i : Nat) : Nat := sqBase x + 0x14 + 4 * i
def SQ.OVRC_OVRC (x : Nat) (i : Nat) : Fld := ⟨SQ.OVRC x i, 0, 32⟩
def SQ.ENT_CFG (x : Nat) (i : Nat) : Nat := sqBase x + 0x40 + 16 * i
def SQ.ENT_CFG_INPUT (x : Nat) (i : Nat) : Fld := ⟨SQ.ENT_CFG x i, 24, 7⟩
def SQ.ENT_CFG_GAIN (x : Nat) (i : Nat) : Fld := ⟨SQ.ENT_CFG x i, 20, 3⟩
def SQ.ENT_CFG_ACQ (x : Nat) (i : Nat) : Fld := ⟨SQ.ENT_CFG x i, 16, 4⟩
def SQ.ENT_CFG_EVT (x : Nat) (i : Nat) : Fld := ⟨SQ.ENT_CFG x i, 1, 1⟩
def SQ.ENT_CFG_TEL (x : Nat) (i : Nat) : Fld := ⟨SQ.ENT_CFG x i, 0, 1⟩
def SQ.ENT_FILT (x : Nat) (i : Nat) : Nat := sqBase x + 0x44 + 16 * i
def SQ.ENT_FILT_ORDER (x : Nat) (i : Nat) : Fld := ⟨SQ.ENT_FILT x i, 24, 3⟩
def SQ.ENT_FILT_DEC (x : Nat) (i : Nat) : Fld := ⟨SQ.ENT_FILT x i, 8, 16⟩
def SQ.ENT_FILT_FRAC (x : Nat) (i : Nat) : Fld := ⟨SQ.ENT_FILT x i, 0, 8⟩
def SQ.ENT_CALOFS (x : Nat) (i : Nat) : Nat := sqBase x + 0x48 + 16 * i
def SQ.ENT_CALOFS_CALOFS (x : Nat) (i : Nat) : Fld := ⟨SQ.ENT_CALOFS x i, 0, 24⟩
def SQ.ENT_CALGAIN (x : Nat) (i : Nat) : Nat := sqBase x + 0x4c + 16 * i
def SQ.ENT_CALGAIN_CALGAIN (x : Nat) (i : Nat) : Fld := ⟨SQ.ENT_CALGAIN x i, 0, 24⟩
def SQ.RES (x : Nat) (i : Nat) : Nat := sqBase x + 0x140 + 4 * i
def SQ.RES_SEQ (x : Nat) (i : Nat) : Fld := ⟨SQ.RES x i, 24, 8⟩
def SQ.RES_RESULT (x : Nat) (i : Nat) : Fld := ⟨SQ.RES x i, 0, 24⟩
def SQ.INJREQ (x : Nat) : Nat := sqBase x + 0x180
def SQ.INJREQ_GO (x : Nat) : Fld := ⟨SQ.INJREQ x, 31, 1⟩
def SQ.INJREQ_PRE (x : Nat) : Fld := ⟨SQ.INJREQ x, 30, 1⟩
def SQ.INJREQ_ENTRY (x : Nat) : Fld := ⟨SQ.INJREQ x, 0, 4⟩
def SQ.INJST (x : Nat) : Nat := sqBase x + 0x184
def SQ.INJST_LAST (x : Nat) : Fld := ⟨SQ.INJST x, 4, 2⟩
def SQ.INJST_PEND (x : Nat) : Fld := ⟨SQ.INJST x, 0, 4⟩
def SQ.INJRES (x : Nat) (i : Nat) : Nat := sqBase x + 0x188 + 4 * i
def SQ.INJRES_VALID (x : Nat) (i : Nat) : Fld := ⟨SQ.INJRES x i, 31, 1⟩
def SQ.INJRES_OLDCAL (x : Nat) (i : Nat) : Fld := ⟨SQ.INJRES x i, 30, 1⟩
def SQ.INJRES_OVR (x : Nat) (i : Nat) : Fld := ⟨SQ.INJRES x i, 29, 1⟩
def SQ.INJRES_NODATA (x : Nat) (i : Nat) : Fld := ⟨SQ.INJRES x i, 28, 1⟩
def SQ.INJRES_ENTRY (x : Nat) (i : Nat) : Fld := ⟨SQ.INJRES x i, 24, 4⟩
def SQ.INJRES_RESULT (x : Nat) (i : Nat) : Fld := ⟨SQ.INJRES x i, 0, 24⟩
def SQ.CALCTL (x : Nat) : Nat := sqBase x + 0x1a0
def SQ.CALCTL_GO (x : Nat) : Fld := ⟨SQ.CALCTL x, 31, 1⟩
def SQ.CALCTL_ABORT (x : Nat) : Fld := ⟨SQ.CALCTL x, 30, 1⟩
def SQ.CALCTL_STEP (x : Nat) : Fld := ⟨SQ.CALCTL x, 28, 2⟩
def SQ.CALCTL_ENTRY (x : Nat) : Fld := ⟨SQ.CALCTL x, 24, 4⟩
def SQ.CALCTL_REF (x : Nat) : Fld := ⟨SQ.CALCTL x, 0, 24⟩
def SQ.CALST (x : Nat) : Nat := sqBase x + 0x1a4
def SQ.CALST_STATUS (x : Nat) : Fld := ⟨SQ.CALST x, 28, 4⟩
def SQ.CALST_RAW (x : Nat) : Fld := ⟨SQ.CALST x, 0, 24⟩
def SQ.CALCFG (x : Nat) : Nat := sqBase x + 0x1a8
def SQ.CALCFG_CALHOLD (x : Nat) : Fld := ⟨SQ.CALCFG x, 16, 16⟩
def SQ.CALCFG_CALAVG (x : Nat) : Fld := ⟨SQ.CALCFG x, 0, 3⟩
def CMPL.REL (n : Nat) : Nat := 0x1e000 + 0x20 * n
def CMPL.REL_OVREL (n : Nat) : Fld := ⟨CMPL.REL n, 16, 10⟩
def CMPL.REL_UVREL (n : Nat) : Fld := ⟨CMPL.REL n, 0, 10⟩
def CMPL.ABS (n : Nat) : Nat := 0x1e004 + 0x20 * n
def CMPL.ABS_OVABS (n : Nat) : Fld := ⟨CMPL.ABS n, 0, 14⟩
def CMPL.CFG (n : Nat) : Nat := 0x1e008 + 0x20 * n
def CMPL.CFG_RBLK (n : Nat) : Fld := ⟨CMPL.CFG n, 16, 16⟩
def CMPL.CFG_UVFLT (n : Nat) : Fld := ⟨CMPL.CFG n, 4, 2⟩
def CMPL.CFG_OVFLT (n : Nat) : Fld := ⟨CMPL.CFG n, 2, 2⟩
def CMPL.CFG_UVEN (n : Nat) : Fld := ⟨CMPL.CFG n, 1, 1⟩
def CMPL.CFG_OVEN (n : Nat) : Fld := ⟨CMPL.CFG n, 0, 1⟩
def CMPL.EVT (n : Nat) : Nat := 0x1e00c + 0x20 * n
def CMPL.EVT_CNTCLR (n : Nat) : Fld := ⟨CMPL.EVT n, 4, 1⟩
def CMPL.EVT_UVACT (n : Nat) : Fld := ⟨CMPL.EVT n, 3, 1⟩
def CMPL.EVT_OVACT (n : Nat) : Fld := ⟨CMPL.EVT n, 2, 1⟩
def CMPL.EVT_UVF (n : Nat) : Fld := ⟨CMPL.EVT n, 1, 1⟩
def CMPL.EVT_OVF (n : Nat) : Fld := ⟨CMPL.EVT n, 0, 1⟩
def CMPL.EVTCNT (n : Nat) : Nat := 0x1e010 + 0x20 * n
def CMPL.EVTCNT_OVCNT (n : Nat) : Fld := ⟨CMPL.EVTCNT n, 16, 16⟩
def CMPL.EVTCNT_UVCNT (n : Nat) : Fld := ⟨CMPL.EVTCNT n, 0, 16⟩
def AVSP.CFG (k : Nat) : Nat := 0x20000 + 0x40 * k
def AVSP.CFG_EN (k : Nat) : Fld := ⟨AVSP.CFG k, 31, 1⟩
def AVSP.CFG_SEL3 (k : Nat) : Fld := ⟨AVSP.CFG k, 18, 6⟩
def AVSP.CFG_SEL2 (k : Nat) : Fld := ⟨AVSP.CFG k, 12, 6⟩
def AVSP.CFG_SEL1 (k : Nat) : Fld := ⟨AVSP.CFG k, 6, 6⟩
def AVSP.CFG_SEL0 (k : Nat) : Fld := ⟨AVSP.CFG k, 0, 6⟩
def AVSP.EVT (k : Nat) : Nat := 0x20004 + 0x40 * k
def AVSP.EVT_CNTCLR (k : Nat) : Fld := ⟨AVSP.EVT k, 4, 1⟩
def AVSP.EVT_FTOF (k : Nat) : Fld := ⟨AVSP.EVT k, 3, 1⟩
def AVSP.EVT_UNSF (k : Nat) : Fld := ⟨AVSP.EVT k, 2, 1⟩
def AVSP.EVT_UNMF (k : Nat) : Fld := ⟨AVSP.EVT k, 1, 1⟩
def AVSP.EVT_CRCF (k : Nat) : Fld := ⟨AVSP.EVT k, 0, 1⟩
def AVSP.EVTCNT (k : Nat) : Nat := 0x20008 + 0x40 * k
def AVSP.EVTCNT_CRCCNT (k : Nat) : Fld := ⟨AVSP.EVTCNT k, 24, 8⟩
def AVSP.EVTCNT_UNMCNT (k : Nat) : Fld := ⟨AVSP.EVTCNT k, 16, 8⟩
def AVSP.EVTCNT_UNSCNT (k : Nat) : Fld := ⟨AVSP.EVTCNT k, 8, 8⟩
def AVSP.EVTCNT_FTOCNT (k : Nat) : Fld := ⟨AVSP.EVTCNT k, 0, 8⟩
def AVSP.FRAMES (k : Nat) : Nat := 0x2000c + 0x40 * k
def AVSP.FRAMES_COUNT (k : Nat) : Fld := ⟨AVSP.FRAMES k, 0, 32⟩
def AVSL.CTRL (n : Nat) : Nat := 0x20400 + 0x20 * n
def AVSL.CTRL_OWNER (n : Nat) : Fld := ⟨AVSL.CTRL n, 30, 2⟩
def AVSL.CTRL_VBOOT (n : Nat) : Fld := ⟨AVSL.CTRL n, 0, 14⟩
def AVSL.VLIM (n : Nat) : Nat := 0x20404 + 0x20 * n
def AVSL.VLIM_VMAX (n : Nat) : Fld := ⟨AVSL.VLIM n, 16, 14⟩
def AVSL.VLIM_VMIN (n : Nat) : Fld := ⟨AVSL.VLIM n, 0, 14⟩
def AVSL.SLEW (n : Nat) : Nat := 0x20408 + 0x20 * n
def AVSL.SLEW_SLEWMAX (n : Nat) : Fld := ⟨AVSL.SLEW n, 16, 16⟩
def AVSL.SLEW_SLEWCMD (n : Nat) : Fld := ⟨AVSL.SLEW n, 0, 16⟩
def AVSL.ILIM (n : Nat) : Nat := 0x2040c + 0x20 * n
def AVSL.ILIM_ILIM (n : Nat) : Fld := ⟨AVSL.ILIM n, 0, 16⟩
def AVSL.SETPT (n : Nat) : Nat := 0x20410 + 0x20 * n
def AVSL.SETPT_HELD (n : Nat) : Fld := ⟨AVSL.SETPT n, 31, 1⟩
def AVSL.SETPT_HOLDV (n : Nat) : Fld := ⟨AVSL.SETPT n, 16, 14⟩
def AVSL.SETPT_SETPT (n : Nat) : Fld := ⟨AVSL.SETPT n, 0, 14⟩
def AVSL.REF (n : Nat) : Nat := 0x20414 + 0x20 * n
def AVSL.REF_REFCNT (n : Nat) : Fld := ⟨AVSL.REF n, 16, 16⟩
def AVSL.REF_CLIPCNT (n : Nat) : Fld := ⟨AVSL.REF n, 8, 8⟩
def AVSL.REF_LASTREF (n : Nat) : Fld := ⟨AVSL.REF n, 4, 4⟩
def AVSL.REF_CNTCLR (n : Nat) : Fld := ⟨AVSL.REF n, 3, 1⟩
def AVSL.REF_CLIPF (n : Nat) : Fld := ⟨AVSL.REF n, 2, 1⟩
def AVSL.REF_REFF (n : Nat) : Fld := ⟨AVSL.REF n, 1, 1⟩
def HINT.CFG (l : Nat) : Nat := 0x21000 + 0x80 * l
def HINT.CFG_EN (l : Nat) : Fld := ⟨HINT.CFG l, 31, 1⟩
def HINT.CFG_PRIO (l : Nat) : Fld := ⟨HINT.CFG l, 28, 3⟩
def HINT.CFG_KPW (l : Nat) : Fld := ⟨HINT.CFG l, 16, 10⟩
def HINT.MAP (l : Nat) : Nat := 0x21004 + 0x80 * l
def HINT.MAP_SEL0 (l : Nat) : Fld := ⟨HINT.MAP l, 0, 6⟩
def HINT.MAP_SEL1 (l : Nat) : Fld := ⟨HINT.MAP l, 6, 6⟩
def HINT.MAP_SEL2 (l : Nat) : Fld := ⟨HINT.MAP l, 12, 6⟩
def HINT.MAP_SEL3 (l : Nat) : Fld := ⟨HINT.MAP l, 18, 6⟩
def HINT.TIMING (l : Nat) : Nat := 0x21008 + 0x80 * l
def HINT.TIMING_GHOLD (l : Nat) : Fld := ⟨HINT.TIMING l, 16, 16⟩
def HINT.TIMING_DEFT (l : Nat) : Fld := ⟨HINT.TIMING l, 0, 16⟩
def HINT.STAT (l : Nat) : Nat := 0x2100c + 0x80 * l
def HINT.STAT_LHAL (l : Nat) : Fld := ⟨HINT.STAT l, 4, 1⟩
def HINT.STAT_DEF (l : Nat) : Fld := ⟨HINT.STAT l, 3, 1⟩
def HINT.STAT_QLEN (l : Nat) : Fld := ⟨HINT.STAT l, 0, 3⟩
def HINT.EVT (l : Nat) : Nat := 0x21010 + 0x80 * l
def HINT.EVT_CNTCLR (l : Nat) : Fld := ⟨HINT.EVT l, 7, 1⟩
def HINT.EVT_COLLF (l : Nat) : Fld := ⟨HINT.EVT l, 6, 1⟩
def HINT.EVT_FRMF (l : Nat) : Fld := ⟨HINT.EVT l, 5, 1⟩
def HINT.EVT_EARLYF (l : Nat) : Fld := ⟨HINT.EVT l, 4, 1⟩
def HINT.EVT_UNGF (l : Nat) : Fld := ⟨HINT.EVT l, 3, 1⟩
def HINT.EVT_REFF (l : Nat) : Fld := ⟨HINT.EVT l, 2, 1⟩
def HINT.EVT_DEFF (l : Nat) : Fld := ⟨HINT.EVT l, 1, 1⟩
def HINT.EVT_GRNTF (l : Nat) : Fld := ⟨HINT.EVT l, 0, 1⟩
def HINT.EVTCNT (l : Nat) : Nat := 0x21014 + 0x80 * l
def HINT.EVTCNT_GRNTCNT (l : Nat) : Fld := ⟨HINT.EVTCNT l, 16, 16⟩
def HINT.EVTCNT_DEFCNT (l : Nat) : Fld := ⟨HINT.EVTCNT l, 8, 8⟩
def HINT.EVTCNT_REFCNT (l : Nat) : Fld := ⟨HINT.EVTCNT l, 0, 8⟩
def HINT.EVTCNT2 (l : Nat) : Nat := 0x21018 + 0x80 * l
def HINT.EVTCNT2_UNGCNT (l : Nat) : Fld := ⟨HINT.EVTCNT2 l, 24, 8⟩
def HINT.EVTCNT2_EARLYCNT (l : Nat) : Fld := ⟨HINT.EVTCNT2 l, 16, 8⟩
def HINT.EVTCNT2_FRMCNT (l : Nat) : Fld := ⟨HINT.EVTCNT2 l, 8, 8⟩
def HINT.EVTCNT2_COLLCNT (l : Nat) : Fld := ⟨HINT.EVTCNT2 l, 0, 8⟩
def HINT.LAST (l : Nat) : Nat := 0x2101c + 0x80 * l
def HINT.LAST_HID (l : Nat) : Fld := ⟨HINT.LAST l, 26, 6⟩
def HINT.LAST_KIND (l : Nat) : Fld := ⟨HINT.LAST l, 24, 2⟩
def HINT.LAST_STEP (l : Nat) : Fld := ⟨HINT.LAST l, 16, 8⟩
def HINT.LAST_LEAD (l : Nat) : Fld := ⟨HINT.LAST l, 8, 8⟩
def HINT.LAST_CODE (l : Nat) : Fld := ⟨HINT.LAST l, 0, 4⟩
def HINT.LAT (l : Nat) : Nat := 0x21020 + 0x80 * l
def HINT.LAT_GLAT (l : Nat) : Fld := ⟨HINT.LAT l, 16, 16⟩
def HINT.LAT_READY (l : Nat) : Fld := ⟨HINT.LAT l, 0, 16⟩
def HSW.CTRL : Nat := 0x22000
def HSW.CTRL_EN : Fld := ⟨HSW.CTRL, 0, 1⟩
def HSW.SCALE : Nat := 0x22004
def HSW.SCALE_DIVV : Fld := ⟨HSW.SCALE, 16, 16⟩
def HSW.SCALE_RSH : Fld := ⟨HSW.SCALE, 0, 16⟩
def HSW.VWIN : Nat := 0x22008
def HSW.VWIN_UVTH : Fld := ⟨HSW.VWIN, 16, 16⟩
def HSW.VWIN_OVTH : Fld := ⟨HSW.VWIN, 0, 16⟩
def HSW.QUAL : Nat := 0x2200c
def HSW.QUAL_QUALT : Fld := ⟨HSW.QUAL, 16, 16⟩
def HSW.QUAL_UVT : Fld := ⟨HSW.QUAL, 0, 16⟩
def HSW.INR : Nat := 0x22010
def HSW.INR_DVDT : Fld := ⟨HSW.INR, 24, 8⟩
def HSW.INR_TINR : Fld := ⟨HSW.INR, 8, 16⟩
def HSW.INR_PGDV : Fld := ⟨HSW.INR, 0, 8⟩
def HSW.CB : Nat := 0x22014
def HSW.CB_ICB : Fld := ⟨HSW.CB, 16, 16⟩
def HSW.CB_TCB : Fld := ⟨HSW.CB, 0, 16⟩
def HSW.FAST : Nat := 0x22018
def HSW.FAST_IFAST : Fld := ⟨HSW.FAST, 16, 16⟩
def HSW.FAST_ISHORT : Fld := ⟨HSW.FAST, 0, 16⟩
def HSW.SOA : Nat := 0x2201c
def HSW.SOA_SOAP : Fld := ⟨HSW.SOA, 16, 16⟩
def HSW.SOA_SOAE : Fld := ⟨HSW.SOA, 0, 16⟩
def HSW.RETRY : Nat := 0x22020
def HSW.RETRY_RETRYN : Fld := ⟨HSW.RETRY, 16, 4⟩
def HSW.RETRY_TRETRY : Fld := ⟨HSW.RETRY, 0, 16⟩
def HSW.STAT : Nat := 0x22024
def HSW.STAT_TRIES : Fld := ⟨HSW.STAT, 20, 4⟩
def HSW.STAT_CAUSE : Fld := ⟨HSW.STAT, 16, 4⟩
def HSW.STAT_GATE : Fld := ⟨HSW.STAT, 4, 1⟩
def HSW.STAT_STATE : Fld := ⟨HSW.STAT, 0, 4⟩
def HSW.EVT : Nat := 0x22028
def HSW.EVT_CNTCLR : Fld := ⟨HSW.EVT, 6, 1⟩
def HSW.EVT_SHORTF : Fld := ⟨HSW.EVT, 5, 1⟩
def HSW.EVT_LOSSF : Fld := ⟨HSW.EVT, 4, 1⟩
def HSW.EVT_INRTOF : Fld := ⟨HSW.EVT, 3, 1⟩
def HSW.EVT_SOAF : Fld := ⟨HSW.EVT, 2, 1⟩
def HSW.EVT_CBF : Fld := ⟨HSW.EVT, 1, 1⟩
def HSW.EVT_FASTF : Fld := ⟨HSW.EVT, 0, 1⟩
def HSW.EVTCNT : Nat := 0x2202c
def HSW.EVTCNT_FASTCNT : Fld := ⟨HSW.EVTCNT, 24, 8⟩
def HSW.EVTCNT_CBCNT : Fld := ⟨HSW.EVTCNT, 16, 8⟩
def HSW.EVTCNT_SOACNT : Fld := ⟨HSW.EVTCNT, 8, 8⟩
def HSW.EVTCNT_INRTOCNT : Fld := ⟨HSW.EVTCNT, 4, 4⟩
def HSW.EVTCNT_LOSSCNT : Fld := ⟨HSW.EVTCNT, 0, 4⟩
def HSW.VI : Nat := 0x22030
def HSW.VI_VIN : Fld := ⟨HSW.VI, 16, 16⟩
def HSW.VI_IIN : Fld := ⟨HSW.VI, 0, 16⟩
def HSW.PV : Nat := 0x22034
def HSW.PV_PIN : Fld := ⟨HSW.PV, 16, 16⟩
def HSW.PV_VOUT : Fld := ⟨HSW.PV, 0, 16⟩
def HSW.SOAACC : Nat := 0x22038
def HSW.SOAACC_ACC : Fld := ⟨HSW.SOAACC, 0, 16⟩
def HSW.ENERGY_LO : Nat := 0x2203c
def HSW.ENERGY_LO_ENL : Fld := ⟨HSW.ENERGY_LO, 0, 32⟩
def HSW.ENERGY_HI : Nat := 0x22040
def HSW.ENERGY_HI_ENH : Fld := ⟨HSW.ENERGY_HI, 0, 32⟩
def BUD.CFG : Nat := 0x23000
def BUD.CFG_PBUD : Fld := ⟨BUD.CFG, 16, 16⟩
def BUD.CFG_IBUD : Fld := ⟨BUD.CFG, 0, 16⟩
def BUD.RATE : Nat := 0x23004
def BUD.RATE_DIDT : Fld := ⟨BUD.RATE, 16, 16⟩
def BUD.RATE_AVGW : Fld := ⟨BUD.RATE, 8, 8⟩
def BUD.RATE_AGE : Fld := ⟨BUD.RATE, 0, 8⟩
def BUD.WAIT : Nat := 0x23008
def BUD.WAIT_MAXWAIT : Fld := ⟨BUD.WAIT, 0, 16⟩
def BUD.PRIO : Nat := 0x2300c
def BUD.PRIO_NVM : Fld := ⟨BUD.PRIO, 16, 3⟩
def BUD.PRIO_TUNE : Fld := ⟨BUD.PRIO, 12, 3⟩
def BUD.PRIO_DIE : Fld := ⟨BUD.PRIO, 8, 3⟩
def BUD.PRIO_XEN : Fld := ⟨BUD.PRIO, 4, 3⟩
def BUD.PRIO_START : Fld := ⟨BUD.PRIO, 0, 3⟩
def BUD.DIECFG : Nat := 0x23010
def BUD.DIECFG_PEAKW : Fld := ⟨BUD.DIECFG, 16, 16⟩
def BUD.DIECFG_DUR : Fld := ⟨BUD.DIECFG, 0, 16⟩
def BUD.NVMCFG : Nat := 0x23014
def BUD.NVMCFG_PEAKW : Fld := ⟨BUD.NVMCFG, 16, 16⟩
def BUD.NVMCFG_DUR : Fld := ⟨BUD.NVMCFG, 0, 16⟩
def BUD.STAT : Nat := 0x23018
def BUD.STAT_INHIBIT : Fld := ⟨BUD.STAT, 31, 1⟩
def BUD.STAT_QLEN : Fld := ⟨BUD.STAT, 24, 7⟩
def BUD.STAT_NHELD : Fld := ⟨BUD.STAT, 16, 7⟩
def BUD.STAT_HEADROOM : Fld := ⟨BUD.STAT, 0, 16⟩
def BUD.HELD : Nat := 0x2301c
def BUD.HELD_SUMW : Fld := ⟨BUD.HELD, 16, 16⟩
def BUD.HELD_PAVG : Fld := ⟨BUD.HELD, 0, 16⟩
def BUD.EVT : Nat := 0x23020
def BUD.EVT_CNTCLR : Fld := ⟨BUD.EVT, 3, 1⟩
def BUD.EVT_OVERF : Fld := ⟨BUD.EVT, 2, 1⟩
def BUD.EVT_REFF : Fld := ⟨BUD.EVT, 1, 1⟩
def BUD.EVT_GRNTF : Fld := ⟨BUD.EVT, 0, 1⟩
def BUD.EVTCNT : Nat := 0x23024
def BUD.EVTCNT_GRNTCNT : Fld := ⟨BUD.EVTCNT, 16, 16⟩
def BUD.EVTCNT_REFCNT : Fld := ⟨BUD.EVTCNT, 8, 8⟩
def BUD.EVTCNT_OVERCNT : Fld := ⟨BUD.EVTCNT, 0, 8⟩
def BUD.LAST : Nat := 0x23028
def BUD.LAST_REQ : Fld := ⟨BUD.LAST, 8, 8⟩
def BUD.LAST_REASON : Fld := ⟨BUD.LAST, 0, 4⟩
def BUD.WMAX : Nat := 0x2302c
def BUD.WMAX_WMAX : Fld := ⟨BUD.WMAX, 0, 32⟩
def BUD.RAIL (i : Nat) : Nat := 0x23100 + 4 * i
def BUD.RAIL_PEAKW (i : Nat) : Fld := ⟨BUD.RAIL i, 16, 16⟩
def BUD.RAIL_DUR (i : Nat) : Fld := ⟨BUD.RAIL i, 0, 16⟩
def SEQD.CFG (d : Nat) : Nat := 0x24000 + 0x20 * d
def SEQD.CFG_FCLS (d : Nat) : Fld := ⟨SEQD.CFG d, 4, 1⟩
def SEQD.CFG_AUTORS (d : Nat) : Fld := ⟨SEQD.CFG d, 3, 1⟩
def SEQD.CFG_AUTO (d : Nat) : Fld := ⟨SEQD.CFG d, 2, 1⟩
def SEQD.CFG_ACTION (d : Nat) : Fld := ⟨SEQD.CFG d, 0, 1⟩
def SEQD.CTRL (d : Nat) : Nat := 0x24004 + 0x20 * d
def SEQD.CTRL_CLR (d : Nat) : Fld := ⟨SEQD.CTRL d, 2, 1⟩
def SEQD.CTRL_STOP (d : Nat) : Fld := ⟨SEQD.CTRL d, 1, 1⟩
def SEQD.CTRL_START (d : Nat) : Fld := ⟨SEQD.CTRL d, 0, 1⟩
def SEQD.STAT (d : Nat) : Nat := 0x24008 + 0x20 * d
def SEQD.STAT_NGOOD (d : Nat) : Fld := ⟨SEQD.STAT d, 24, 7⟩
def SEQD.STAT_NRAIL (d : Nat) : Fld := ⟨SEQD.STAT d, 16, 7⟩
def SEQD.STAT_LVALID (d : Nat) : Fld := ⟨SEQD.STAT d, 15, 1⟩
def SEQD.STAT_LRAIL (d : Nat) : Fld := ⟨SEQD.STAT d, 8, 6⟩
def SEQD.STAT_PENDST (d : Nat) : Fld := ⟨SEQD.STAT d, 3, 1⟩
def SEQD.STAT_STATE (d : Nat) : Fld := ⟨SEQD.STAT d, 0, 3⟩
def SEQD.EVT (d : Nat) : Nat := 0x2400c + 0x20 * d
def SEQD.EVT_CNTCLR (d : Nat) : Fld := ⟨SEQD.EVT d, 4, 1⟩
def SEQD.EVT_REFF (d : Nat) : Fld := ⟨SEQD.EVT d, 3, 1⟩
def SEQD.EVT_LATF (d : Nat) : Fld := ⟨SEQD.EVT d, 2, 1⟩
def SEQD.EVT_DOWNF (d : Nat) : Fld := ⟨SEQD.EVT d, 1, 1⟩
def SEQD.EVT_UPF (d : Nat) : Fld := ⟨SEQD.EVT d, 0, 1⟩
def SEQD.EVTCNT (d : Nat) : Nat := 0x24010 + 0x20 * d
def SEQD.EVTCNT_UPCNT (d : Nat) : Fld := ⟨SEQD.EVTCNT d, 24, 8⟩
def SEQD.EVTCNT_DOWNCNT (d : Nat) : Fld := ⟨SEQD.EVTCNT d, 16, 8⟩
def SEQD.EVTCNT_LATCNT (d : Nat) : Fld := ⟨SEQD.EVTCNT d, 8, 8⟩
def SEQD.EVTCNT_REFCNT (d : Nat) : Fld := ⟨SEQD.EVTCNT d, 0, 8⟩
def SEQ.GSTAT : Nat := 0x24080
def SEQ.GSTAT_ALLOFF : Fld := ⟨SEQ.GSTAT, 2, 1⟩
def SEQ.GSTAT_INSHUT : Fld := ⟨SEQ.GSTAT, 1, 1⟩
def SEQ.GSTAT_INGOOD : Fld := ⟨SEQ.GSTAT, 0, 1⟩
def SEQ.FFCTL : Nat := 0x24084
def SEQ.FFCTL_VALID : Fld := ⟨SEQ.FFCTL, 31, 1⟩
def SEQ.FFCTL_ARM : Fld := ⟨SEQ.FFCTL, 30, 1⟩
def SEQ.FFCTL_CAUSE : Fld := ⟨SEQ.FFCTL, 20, 4⟩
def SEQ.FFCTL_DOMAIN : Fld := ⟨SEQ.FFCTL, 16, 2⟩
def SEQ.FFCTL_RAIL : Fld := ⟨SEQ.FFCTL, 0, 6⟩
def SEQ.FFTIME_LO : Nat := 0x24088
def SEQ.FFTIME_LO_FFTL : Fld := ⟨SEQ.FFTIME_LO, 0, 32⟩
def SEQ.FFTIME_HI : Nat := 0x2408c
def SEQ.FFTIME_HI_FFTH : Fld := ⟨SEQ.FFTIME_HI, 0, 32⟩
def SEQR.CFG (r : Nat) : Nat := 0x24400 + 0x20 * r
def SEQR.CFG_EN (r : Nat) : Fld := ⟨SEQR.CFG r, 31, 1⟩
def SEQR.CFG_DOMAIN (r : Nat) : Fld := ⟨SEQR.CFG r, 26, 2⟩
def SEQR.CFG_PGSRC (r : Nat) : Fld := ⟨SEQR.CFG r, 24, 2⟩
def SEQR.CFG_XPGPOL (r : Nat) : Fld := ⟨SEQR.CFG r, 23, 1⟩
def SEQR.CFG_XENPOL (r : Nat) : Fld := ⟨SEQR.CFG r, 22, 1⟩
def SEQR.CFG_XPGFLT (r : Nat) : Fld := ⟨SEQR.CFG r, 20, 2⟩
def SEQR.CFG_CHATLIM (r : Nat) : Fld := ⟨SEQR.CFG r, 16, 4⟩
def SEQR.CFG_STOPDLY (r : Nat) : Fld := ⟨SEQR.CFG r, 0, 16⟩
def SEQR.DEP (r : Nat) : Nat := 0x24404 + 0x20 * r
def SEQR.DEP_DEP3 (r : Nat) : Fld := ⟨SEQR.DEP r, 24, 8⟩
def SEQR.DEP_DEP2 (r : Nat) : Fld := ⟨SEQR.DEP r, 16, 8⟩
def SEQR.DEP_DEP1 (r : Nat) : Fld := ⟨SEQR.DEP r, 8, 8⟩
def SEQR.DEP_DEP0 (r : Nat) : Fld := ⟨SEQR.DEP r, 0, 8⟩
def SEQR.TIMING (r : Nat) : Nat := 0x24408 + 0x20 * r
def SEQR.TIMING_DELAY (r : Nat) : Fld := ⟨SEQR.TIMING r, 16, 16⟩
def SEQR.TIMING_DWELL (r : Nat) : Fld := ⟨SEQR.TIMING r, 0, 16⟩
def SEQR.LIMITS (r : Nat) : Nat := 0x2440c + 0x20 * r
def SEQR.LIMITS_QUALTO (r : Nat) : Fld := ⟨SEQR.LIMITS r, 16, 16⟩
def SEQR.LIMITS_STOPTO (r : Nat) : Fld := ⟨SEQR.LIMITS r, 0, 16⟩
def SEQR.STAT (r : Nat) : Nat := 0x24410 + 0x20 * r
def SEQR.STAT_CHAT (r : Nat) : Fld := ⟨SEQR.STAT r, 20, 4⟩
def SEQR.STAT_CAUSE (r : Nat) : Fld := ⟨SEQR.STAT r, 16, 4⟩
def SEQR.STAT_XEN (r : Nat) : Fld := ⟨SEQR.STAT r, 5, 1⟩
def SEQR.STAT_RAWGOOD (r : Nat) : Fld := ⟨SEQR.STAT r, 4, 1⟩
def SEQR.STAT_STATE (r : Nat) : Fld := ⟨SEQR.STAT r, 0, 4⟩
def SEQR.EVT (r : Nat) : Nat := 0x24414 + 0x20 * r
def SEQR.EVT_CNTCLR (r : Nat) : Fld := ⟨SEQR.EVT r, 3, 1⟩
def SEQR.EVT_STOPTOF (r : Nat) : Fld := ⟨SEQR.EVT r, 2, 1⟩
def SEQR.EVT_QUALF (r : Nat) : Fld := ⟨SEQR.EVT r, 1, 1⟩
def SEQR.EVT_FAILF (r : Nat) : Fld := ⟨SEQR.EVT r, 0, 1⟩
def SEQR.EVTCNT (r : Nat) : Nat := 0x24418 + 0x20 * r
def SEQR.EVTCNT_QUALCNT (r : Nat) : Fld := ⟨SEQR.EVTCNT r, 16, 16⟩
def SEQR.EVTCNT_FAILCNT (r : Nat) : Fld := ⟨SEQR.EVTCNT r, 8, 8⟩
def SEQR.EVTCNT_STOPTOCNT (r : Nat) : Fld := ⟨SEQR.EVTCNT r, 0, 8⟩
def FLT.CFG : Nat := 0x25000
def FLT.CFG_ESCT : Fld := ⟨FLT.CFG, 16, 16⟩
def FLT.CFG_SAFETO : Fld := ⟨FLT.CFG, 8, 8⟩
def FLT.CFG_F3GATE : Fld := ⟨FLT.CFG, 4, 1⟩
def FLT.CFG_FNCLS : Fld := ⟨FLT.CFG, 0, 3⟩
def FLT.STAT : Nat := 0x25004
def FLT.STAT_SAFE : Fld := ⟨FLT.STAT, 31, 1⟩
def FLT.STAT_F4L : Fld := ⟨FLT.STAT, 30, 1⟩
def FLT.STAT_F3L : Fld := ⟨FLT.STAT, 29, 1⟩
def FLT.STAT_MAXCLS : Fld := ⟨FLT.STAT, 24, 3⟩
def FLT.STAT_GUARD : Fld := ⟨FLT.STAT, 23, 1⟩
def FLT.STAT_GREASON : Fld := ⟨FLT.STAT, 20, 3⟩
def FLT.STAT_NHELD : Fld := ⟨FLT.STAT, 0, 7⟩
def FLT.GUARD : Nat := 0x25008
def FLT.GUARD_TEST : Fld := ⟨FLT.GUARD, 1, 1⟩
def FLT.GUARD_END : Fld := ⟨FLT.GUARD, 0, 1⟩
def FLT.ACK : Nat := 0x2500c
def FLT.ACK_OP : Fld := ⟨FLT.ACK, 30, 2⟩
def FLT.ACK_SLOT : Fld := ⟨FLT.ACK, 16, 6⟩
def FLT.ACK_CODE : Fld := ⟨FLT.ACK, 0, 16⟩
def FLT.ACKST : Nat := 0x25010
def FLT.ACKST_RES : Fld := ⟨FLT.ACKST, 28, 4⟩
def FLT.ACKST_SLOT : Fld := ⟨FLT.ACKST, 16, 6⟩
def FLT.ACKST_CODE : Fld := ⟨FLT.ACKST, 0, 16⟩
def FLT.EVT : Nat := 0x25014
def FLT.EVT_CNTCLR : Fld := ⟨FLT.EVT, 5, 1⟩
def FLT.EVT_INJF : Fld := ⟨FLT.EVT, 4, 1⟩
def FLT.EVT_OVFF : Fld := ⟨FLT.EVT, 3, 1⟩
def FLT.EVT_REFF : Fld := ⟨FLT.EVT, 2, 1⟩
def FLT.EVT_ESCF : Fld := ⟨FLT.EVT, 1, 1⟩
def FLT.EVT_RAISEF : Fld := ⟨FLT.EVT, 0, 1⟩
def FLT.EVTCNT : Nat := 0x25018
def FLT.EVTCNT_RAISECNT : Fld := ⟨FLT.EVTCNT, 16, 16⟩
def FLT.EVTCNT_ESCCNT : Fld := ⟨FLT.EVTCNT, 8, 8⟩
def FLT.EVTCNT_REFCNT : Fld := ⟨FLT.EVTCNT, 0, 8⟩
def FLT.EVTCNT2 : Nat := 0x2501c
def FLT.EVTCNT2_F0DROP : Fld := ⟨FLT.EVTCNT2, 16, 16⟩
def FLT.EVTCNT2_OVFCNT : Fld := ⟨FLT.EVTCNT2, 8, 8⟩
def FLT.EVTCNT2_INJCNT : Fld := ⟨FLT.EVTCNT2, 0, 8⟩
def FLT.LATCH3 : Nat := 0x25020
def FLT.LATCH3_CNT : Fld := ⟨FLT.LATCH3, 24, 8⟩
def FLT.LATCH3_INST : Fld := ⟨FLT.LATCH3, 16, 8⟩
def FLT.LATCH3_CODE : Fld := ⟨FLT.LATCH3, 0, 16⟩
def FLT.F3TIME_LO : Nat := 0x25024
def FLT.F3TIME_LO_F3TL : Fld := ⟨FLT.F3TIME_LO, 0, 32⟩
def FLT.F3TIME_HI : Nat := 0x25028
def FLT.F3TIME_HI_F3TH : Fld := ⟨FLT.F3TIME_HI, 0, 32⟩
def FLT.INJ : Nat := 0x25030
def FLT.INJ_GO : Fld := ⟨FLT.INJ, 31, 1⟩
def FLT.INJ_TGT : Fld := ⟨FLT.INJ, 24, 4⟩
def FLT.INJ_RESULT : Fld := ⟨FLT.INJ, 20, 4⟩
def FLT.INJ_ARMED : Fld := ⟨FLT.INJ, 19, 1⟩
def FLT.SWRAISE : Nat := 0x25034
def FLT.SWRAISE_GO : Fld := ⟨FLT.SWRAISE, 31, 1⟩
def FLT.SWRAISE_CLS : Fld := ⟨FLT.SWRAISE, 24, 2⟩
def FLT.SWRAISE_INST : Fld := ⟨FLT.SWRAISE, 16, 8⟩
def FLT.SWRAISE_NUM : Fld := ⟨FLT.SWRAISE, 0, 8⟩
def FLT.CSREQ : Nat := 0x25038
def FLT.CSREQ_KEY : Fld := ⟨FLT.CSREQ, 16, 16⟩
def FLT.CSREQ_GO : Fld := ⟨FLT.CSREQ, 0, 1⟩
def FLT.ENT0 (i : Nat) : Nat := 0x25100 + 8 * i
def FLT.ENT0_CODE (i : Nat) : Fld := ⟨FLT.ENT0 i, 16, 16⟩
def FLT.ENT0_INST (i : Nat) : Fld := ⟨FLT.ENT0 i, 8, 8⟩
def FLT.ENT0_OCC (i : Nat) : Fld := ⟨FLT.ENT0 i, 4, 4⟩
def FLT.ENT0_ESC (i : Nat) : Fld := ⟨FLT.ENT0 i, 3, 1⟩
def FLT.ENT0_COND (i : Nat) : Fld := ⟨FLT.ENT0 i, 2, 1⟩
def FLT.ENT0_STATE (i : Nat) : Fld := ⟨FLT.ENT0 i, 0, 2⟩
def FLT.ENT1 (i : Nat) : Nat := 0x25104 + 8 * i
def FLT.ENT1_TIME (i : Nat) : Fld := ⟨FLT.ENT1 i, 0, 32⟩
def THM.CFG : Nat := 0x26000
def THM.CFG_XTHR : Fld := ⟨THM.CFG, 24, 8⟩
def THM.CFG_XINT : Fld := ⟨THM.CFG, 16, 8⟩
def THM.CFG_XCHK : Fld := ⟨THM.CFG, 0, 1⟩
def THM.WARN : Nat := 0x26004
def THM.WARN_DIEWARN : Fld := ⟨THM.WARN, 16, 12⟩
def THM.WARN_STGWARN : Fld := ⟨THM.WARN, 0, 12⟩
def THM.STAT : Nat := 0x26008
def THM.STAT_HUBTJ : Fld := ⟨THM.STAT, 20, 12⟩
def THM.STAT_MAXTJ : Fld := ⟨THM.STAT, 8, 12⟩
def THM.STAT_WINOPEN : Fld := ⟨THM.STAT, 0, 1⟩
def THM.BRK0 : Nat := 0x2600c
def THM.BRK0_BRK : Fld := ⟨THM.BRK0, 0, 32⟩
def THM.BRK1 : Nat := 0x26010
def THM.BRK1_BRK : Fld := ⟨THM.BRK1, 0, 4⟩
def THM.EVT : Nat := 0x26014
def THM.EVT_CNTCLR : Fld := ⟨THM.EVT, 4, 1⟩
def THM.EVT_WINF : Fld := ⟨THM.EVT, 3, 1⟩
def THM.EVT_STGWF : Fld := ⟨THM.EVT, 2, 1⟩
def THM.EVT_DIEWF : Fld := ⟨THM.EVT, 1, 1⟩
def THM.EVT_BRKF : Fld := ⟨THM.EVT, 0, 1⟩
def THM.EVTCNT : Nat := 0x26018
def THM.EVTCNT_BRKCNT : Fld := ⟨THM.EVTCNT, 24, 8⟩
def THM.EVTCNT_DIEWCNT : Fld := ⟨THM.EVTCNT, 16, 8⟩
def THM.EVTCNT_STGWCNT : Fld := ⟨THM.EVTCNT, 8, 8⟩
def THM.EVTCNT_WINCNT : Fld := ⟨THM.EVTCNT, 0, 8⟩
def THM.NVMW : Nat := 0x2601c
def THM.NVMW_DROPCNT : Fld := ⟨THM.NVMW, 16, 16⟩
def THM.NVMW_BUFOCC : Fld := ⟨THM.NVMW, 0, 9⟩
def THM.SENS (i : Nat) : Nat := 0x26100 + 4 * i
def THM.SENS_TEMP (i : Nat) : Fld := ⟨THM.SENS i, 20, 12⟩
def THM.SENS_USED (i : Nat) : Fld := ⟨THM.SENS i, 8, 12⟩
def THM.SENS_BRK (i : Nat) : Fld := ⟨THM.SENS i, 1, 1⟩
def THM.SENS_VALID (i : Nat) : Fld := ⟨THM.SENS i, 0, 1⟩
def THM.NBR (i : Nat) : Nat := 0x26200 + 4 * i
def THM.NBR_NBR0 (i : Nat) : Fld := ⟨THM.NBR i, 0, 8⟩
def THM.NBR_NBR1 (i : Nat) : Fld := ⟨THM.NBR i, 8, 8⟩
def THM.NBR_NBR2 (i : Nat) : Fld := ⟨THM.NBR i, 16, 8⟩
def THM.NBR_NBR3 (i : Nat) : Fld := ⟨THM.NBR i, 24, 8⟩
def EVH.DOORBELL : Nat := 0x28000
def EVH.DOORBELL_SRC : Fld := ⟨EVH.DOORBELL, 0, 11⟩
def EVH.STAT : Nat := 0x28004
def EVH.STAT_AWAKE : Fld := ⟨EVH.STAT, 28, 4⟩
def EVH.STAT_RRPTR : Fld := ⟨EVH.STAT, 26, 2⟩
def EVH.STAT_NPEND : Fld := ⟨EVH.STAT, 0, 12⟩
def EVH.EVT : Nat := 0x28008
def EVH.EVT_CNTCLR : Fld := ⟨EVH.EVT, 2, 1⟩
def EVH.EVT_DBREFF : Fld := ⟨EVH.EVT, 1, 1⟩
def EVH.EVTCNT : Nat := 0x2800c
def EVH.EVTCNT_DBREFCNT : Fld := ⟨EVH.EVTCNT, 16, 16⟩
def EVH.EVTCNT_SATCNT : Fld := ⟨EVH.EVTCNT, 0, 16⟩
def EVH.WAKEST : Nat := 0x28010
def EVH.WAKEST_VALID : Fld := ⟨EVH.WAKEST, 31, 1⟩
def EVH.WAKEST_POLW : Fld := ⟨EVH.WAKEST, 30, 1⟩
def EVH.WAKEST_PP : Fld := ⟨EVH.WAKEST, 11, 2⟩
def EVH.WAKEST_SRC : Fld := ⟨EVH.WAKEST, 0, 11⟩
def PP.CTRL (k : Nat) : Nat := 0x28100 + 0x80 * k
def PP.CTRL_PMR (k : Nat) : Fld := ⟨PP.CTRL k, 1, 7⟩
def PP.CTRL_PARK (k : Nat) : Fld := ⟨PP.CTRL k, 0, 1⟩
def PP.STAT (k : Nat) : Nat := 0x28104 + 0x80 * k
def PP.STAT_REQ (k : Nat) : Fld := ⟨PP.STAT k, 31, 1⟩
def PP.STAT_REQCLS (k : Nat) : Fld := ⟨PP.STAT k, 30, 1⟩
def PP.STAT_FASTBK (k : Nat) : Fld := ⟨PP.STAT k, 29, 1⟩
def PP.STAT_ASLEEP (k : Nat) : Fld := ⟨PP.STAT k, 28, 1⟩
def PP.STAT_DEPTH (k : Nat) : Fld := ⟨PP.STAT k, 16, 5⟩
def PP.STAT_RUNPRI (k : Nat) : Fld := ⟨PP.STAT k, 8, 7⟩
def PP.WIN (k : Nat) : Nat := 0x28108 + 0x80 * k
def PP.WIN_VALID (k : Nat) : Fld := ⟨PP.WIN k, 31, 1⟩
def PP.WIN_CLS (k : Nat) : Fld := ⟨PP.WIN k, 30, 1⟩
def PP.WIN_PRI (k : Nat) : Fld := ⟨PP.WIN k, 24, 6⟩
def PP.WIN_CNT (k : Nat) : Fld := ⟨PP.WIN k, 16, 8⟩
def PP.WIN_SRC (k : Nat) : Fld := ⟨PP.WIN k, 0, 11⟩
def PP.CLAIM (k : Nat) : Nat := 0x2810c + 0x80 * k
def PP.CLAIM_VALID (k : Nat) : Fld := ⟨PP.CLAIM k, 31, 1⟩
def PP.CLAIM_CLS (k : Nat) : Fld := ⟨PP.CLAIM k, 30, 1⟩
def PP.CLAIM_PRI (k : Nat) : Fld := ⟨PP.CLAIM k, 24, 6⟩
def PP.CLAIM_CNT (k : Nat) : Fld := ⟨PP.CLAIM k, 16, 8⟩
def PP.CLAIM_SRC (k : Nat) : Fld := ⟨PP.CLAIM k, 0, 11⟩
def PP.EOI (k : Nat) : Nat := 0x28110 + 0x80 * k
def PP.EOI_SRC (k : Nat) : Fld := ⟨PP.EOI k, 0, 11⟩
def PP.EVT (k : Nat) : Nat := 0x28114 + 0x80 * k
def PP.EVT_CNTCLR (k : Nat) : Fld := ⟨PP.EVT k, 2, 1⟩
def PP.EVT_EMPF (k : Nat) : Fld := ⟨PP.EVT k, 1, 1⟩
def PP.EVT_ORDF (k : Nat) : Fld := ⟨PP.EVT k, 0, 1⟩
def PP.EVTCNT (k : Nat) : Nat := 0x28118 + 0x80 * k
def PP.EVTCNT_ORDCNT (k : Nat) : Fld := ⟨PP.EVTCNT k, 16, 16⟩
def PP.EVTCNT_EMPCNT (k : Nat) : Fld := ⟨PP.EVTCNT k, 0, 16⟩
def PP.ACKCNT (k : Nat) : Nat := 0x2811c + 0x80 * k
def PP.ACKCNT_COUNT (k : Nat) : Fld := ⟨PP.ACKCNT k, 0, 32⟩
def PP.STK (k : Nat) (i : Nat) : Nat := 0x28140 + 0x80 * k + 4 * i
def PP.STK_VALID (k : Nat) (i : Nat) : Fld := ⟨PP.STK k i, 31, 1⟩
def PP.STK_CLS (k : Nat) (i : Nat) : Fld := ⟨PP.STK k i, 30, 1⟩
def PP.STK_PRI (k : Nat) (i : Nat) : Fld := ⟨PP.STK k i, 24, 6⟩
def PP.STK_SRC (k : Nat) (i : Nat) : Fld := ⟨PP.STK k i, 0, 11⟩
def GRP.CFG (g : Nat) : Nat := 0x28400 + 0x8 * g
def GRP.CFG_CNTTH (g : Nat) : Fld := ⟨GRP.CFG g, 24, 8⟩
def GRP.CFG_TIME (g : Nat) : Fld := ⟨GRP.CFG g, 0, 16⟩
def GRP.STATE (g : Nat) : Nat := 0x28404 + 0x8 * g
def GRP.STATE_ACC (g : Nat) : Fld := ⟨GRP.STATE g, 24, 8⟩
def GRP.STATE_ARMED (g : Nat) : Fld := ⟨GRP.STATE g, 0, 1⟩
def SRC.CFG (s : Nat) : Nat := 0x2a000 + 0x8 * s
def SRC.CFG_EN (s : Nat) : Fld := ⟨SRC.CFG s, 31, 1⟩
def SRC.CFG_CLS (s : Nat) : Fld := ⟨SRC.CFG s, 30, 1⟩
def SRC.CFG_PRI (s : Nat) : Fld := ⟨SRC.CFG s, 24, 6⟩
def SRC.CFG_GV (s : Nat) : Fld := ⟨SRC.CFG s, 23, 1⟩
def SRC.CFG_GRP (s : Nat) : Fld := ⟨SRC.CFG s, 17, 6⟩
def SRC.CFG_TGT (s : Nat) : Fld := ⟨SRC.CFG s, 0, 4⟩
def SRC.STATE (s : Nat) : Nat := 0x2a004 + 0x8 * s
def SRC.STATE_CNT (s : Nat) : Fld := ⟨SRC.STATE s, 24, 8⟩
def SRC.STATE_ROUTED (s : Nat) : Fld := ⟨SRC.STATE s, 4, 1⟩
def SRC.STATE_PP (s : Nat) : Fld := ⟨SRC.STATE s, 2, 2⟩
def SRC.STATE_INSRV (s : Nat) : Fld := ⟨SRC.STATE s, 1, 1⟩
def SRC.STATE_PEND (s : Nat) : Fld := ⟨SRC.STATE s, 0, 1⟩
def HIF.CTRL : Nat := 0x30000
def HIF.CTRL_EN : Fld := ⟨HIF.CTRL, 31, 1⟩
def HIF.CTRL_WOP : Fld := ⟨HIF.CTRL, 30, 1⟩
def HIF.CTRL_EVCLS : Fld := ⟨HIF.CTRL, 27, 3⟩
def HIF.STAT : Nat := 0x30004
def HIF.STAT_LINKUP : Fld := ⟨HIF.STAT, 31, 1⟩
def HIF.STAT_SPEED : Fld := ⟨HIF.STAT, 28, 3⟩
def HIF.STAT_WIDTH : Fld := ⟨HIF.STAT, 26, 2⟩
def HIF.STAT_DSTATE : Fld := ⟨HIF.STAT, 24, 2⟩
def HIF.STAT_LSTATE : Fld := ⟨HIF.STAT, 22, 2⟩
def HIF.STAT_PAUSED : Fld := ⟨HIF.STAT, 21, 1⟩
def HIF.DBBASE_LO : Nat := 0x30008
def HIF.DBBASE_LO_ADDR : Fld := ⟨HIF.DBBASE_LO, 7, 25⟩
def HIF.DBBASE_HI : Nat := 0x3000c
def HIF.DBBASE_HI_ADDR : Fld := ⟨HIF.DBBASE_HI, 0, 32⟩
def HIF.WBBASE_LO : Nat := 0x30010
def HIF.WBBASE_LO_ADDR : Fld := ⟨HIF.WBBASE_LO, 7, 25⟩
def HIF.WBBASE_HI : Nat := 0x30014
def HIF.WBBASE_HI_ADDR : Fld := ⟨HIF.WBBASE_HI, 0, 32⟩
def HIF.POLL : Nat := 0x30018
def HIF.POLL_PTO : Fld := ⟨HIF.POLL, 16, 16⟩
def HIF.POLL_PINT : Fld := ⟨HIF.POLL, 0, 10⟩
def HIF.KICK : Nat := 0x3001c
def HIF.KICK_GO : Fld := ⟨HIF.KICK, 0, 1⟩
def HIF.EVT : Nat := 0x30020
def HIF.EVT_CNTCLR : Fld := ⟨HIF.EVT, 5, 1⟩
def HIF.EVT_FLRF : Fld := ⟨HIF.EVT, 4, 1⟩
def HIF.EVT_LINKDF : Fld := ⟨HIF.EVT, 3, 1⟩
def HIF.EVT_DMAERRF : Fld := ⟨HIF.EVT, 2, 1⟩
def HIF.EVT_RINGERRF : Fld := ⟨HIF.EVT, 1, 1⟩
def HIF.EVT_MMIOREFF : Fld := ⟨HIF.EVT, 0, 1⟩
def HIF.EVTCNT : Nat := 0x30024
def HIF.EVTCNT_MMIOREFCNT : Fld := ⟨HIF.EVTCNT, 24, 8⟩
def HIF.EVTCNT_RINGERRCNT : Fld := ⟨HIF.EVTCNT, 16, 8⟩
def HIF.EVTCNT_DMAERRCNT : Fld := ⟨HIF.EVTCNT, 8, 8⟩
def HIF.EVTCNT_LINKDCNT : Fld := ⟨HIF.EVTCNT, 0, 8⟩
def HIF.LOST : Nat := 0x30028
def HIF.LOST_CPLLOST : Fld := ⟨HIF.LOST, 16, 16⟩
def HIF.LOST_FLRCNT : Fld := ⟨HIF.LOST, 8, 8⟩
def RING.BASE_LO (r : Nat) : Nat := 0x31000 + 0x20 * r
def RING.BASE_LO_ADDR (r : Nat) : Fld := ⟨RING.BASE_LO r, 12, 20⟩
def RING.BASE_HI (r : Nat) : Nat := 0x31004 + 0x20 * r
def RING.BASE_HI_ADDR (r : Nat) : Fld := ⟨RING.BASE_HI r, 0, 32⟩
def RING.CFG (r : Nat) : Nat := 0x31008 + 0x20 * r
def RING.CFG_EN (r : Nat) : Fld := ⟨RING.CFG r, 31, 1⟩
def RING.CFG_LOG2N (r : Nat) : Fld := ⟨RING.CFG r, 24, 5⟩
def RING.CFG_VEC (r : Nat) : Fld := ⟨RING.CFG r, 16, 5⟩
def RING.CFG_CPLSEL (r : Nat) : Fld := ⟨RING.CFG r, 12, 3⟩
def RING.CFG_FBURST (r : Nat) : Fld := ⟨RING.CFG r, 8, 4⟩
def RING.MOD (r : Nat) : Nat := 0x3100c + 0x20 * r
def RING.MOD_MODCNT (r : Nat) : Fld := ⟨RING.MOD r, 24, 8⟩
def RING.MOD_TFLUSH (r : Nat) : Fld := ⟨RING.MOD r, 16, 8⟩
def RING.MOD_MODTIME (r : Nat) : Fld := ⟨RING.MOD r, 0, 16⟩
def RING.DIDX (r : Nat) : Nat := 0x31010 + 0x20 * r
def RING.DIDX_DIDX (r : Nat) : Fld := ⟨RING.DIDX r, 0, 32⟩
def RING.HIDX (r : Nat) : Nat := 0x31014 + 0x20 * r
def RING.HIDX_HIDX (r : Nat) : Fld := ⟨RING.HIDX r, 0, 32⟩
def RING.STAT (r : Nat) : Nat := 0x31018 + 0x20 * r
def RING.STAT_FULL (r : Nat) : Fld := ⟨RING.STAT r, 2, 1⟩
def RING.STAT_STATE (r : Nat) : Fld := ⟨RING.STAT r, 0, 2⟩
def RING.CNT (r : Nat) : Nat := 0x3101c + 0x20 * r
def RING.CNT_CNT (r : Nat) : Fld := ⟨RING.CNT r, 0, 32⟩
def TELS.TLOOP (i : Nat) : Nat := 0x31400 + 4 * i
def TELS.TLOOP_EN (i : Nat) : Fld := ⟨TELS.TLOOP i, 31, 1⟩
def TELS.TLOOP_STRM (i : Nat) : Fld := ⟨TELS.TLOOP i, 24, 2⟩
def TELS.TLOOP_DEC (i : Nat) : Fld := ⟨TELS.TLOOP i, 0, 4⟩
def TELS.TPHM (n : Nat) : Nat := 0x31480 + 4 * (n - 1)
def TELS.TPHM_MASK (n : Nat) : Fld := ⟨TELS.TPHM n, 0, 32⟩
def TELS.TPHC (n : Nat) : Nat := 0x314a0 + 4 * (n - 1)
def TELS.TPHC_EN (n : Nat) : Fld := ⟨TELS.TPHC n, 31, 1⟩
def TELS.TPHC_TSEL (n : Nat) : Fld := ⟨TELS.TPHC n, 30, 1⟩
def TELS.TPHC_STRM (n : Nat) : Fld := ⟨TELS.TPHC n, 24, 2⟩
def TELS.TPHC_DEC (n : Nat) : Fld := ⟨TELS.TPHC n, 0, 4⟩
def TELS.TSQ (i : Nat) : Nat := 0x314c0 + 4 * i
def TELS.TSQ_EN (i : Nat) : Fld := ⟨TELS.TSQ i, 31, 1⟩
def TELS.TSQ_STRM (i : Nat) : Fld := ⟨TELS.TSQ i, 24, 2⟩
def TELS.TIN : Nat := 0x314e4
def TELS.TIN_EN : Fld := ⟨TELS.TIN, 31, 1⟩
def TELS.TIN_STRM : Fld := ⟨TELS.TIN, 24, 2⟩
def TELS.TIN_DEC : Fld := ⟨TELS.TIN, 0, 4⟩
def PMB.CFG : Nat := 0x32000
def PMB.CFG_ADDR : Fld := ⟨PMB.CFG, 24, 7⟩
def PMB.CFG_ALERTEN : Fld := ⟨PMB.CFG, 19, 1⟩
def PMB.CFG_REGWEN : Fld := ⟨PMB.CFG, 18, 1⟩
def PMB.CFG_PECREQ : Fld := ⟨PMB.CFG, 17, 1⟩
def PMB.CFG_MCTPEN : Fld := ⟨PMB.CFG, 16, 1⟩
def PMB.CFG_SEID : Fld := ⟨PMB.CFG, 8, 8⟩
def PMB.STAT : Nat := 0x32004
def PMB.STAT_EID : Fld := ⟨PMB.STAT, 24, 8⟩
def PMB.STAT_WP : Fld := ⟨PMB.STAT, 16, 8⟩
def PMB.STAT_PAGE : Fld := ⟨PMB.STAT, 8, 8⟩
def PMB.STAT_ALERT : Fld := ⟨PMB.STAT, 0, 1⟩
def PMB.EVT : Nat := 0x32008
def PMB.EVT_CNTCLR : Fld := ⟨PMB.EVT, 5, 1⟩
def PMB.EVT_MDROPF : Fld := ⟨PMB.EVT, 4, 1⟩
def PMB.EVT_REFF : Fld := ⟨PMB.EVT, 3, 1⟩
def PMB.EVT_CMLF : Fld := ⟨PMB.EVT, 2, 1⟩
def PMB.EVT_TOF : Fld := ⟨PMB.EVT, 1, 1⟩
def PMB.EVT_PECF : Fld := ⟨PMB.EVT, 0, 1⟩
def PMB.EVTCNT : Nat := 0x3200c
def PMB.EVTCNT_PECCNT : Fld := ⟨PMB.EVTCNT, 24, 8⟩
def PMB.EVTCNT_TOCNT : Fld := ⟨PMB.EVTCNT, 16, 8⟩
def PMB.EVTCNT_CMLCNT : Fld := ⟨PMB.EVTCNT, 8, 8⟩
def PMB.EVTCNT_REFCNT : Fld := ⟨PMB.EVTCNT, 0, 8⟩
def PMB.EVTCNT2 : Nat := 0x32010
def PMB.EVTCNT2_MDROPCNT : Fld := ⟨PMB.EVTCNT2, 24, 8⟩
def PMB.LASTREF : Nat := 0x32014
def PMB.LASTREF_CMD : Fld := ⟨PMB.LASTREF, 24, 8⟩
def PMB.LASTREF_PAGE : Fld := ⟨PMB.LASTREF, 16, 8⟩
def PMB.LASTREF_REASON : Fld := ⟨PMB.LASTREF, 0, 4⟩
def MSIX.ADDR_LO (v : Nat) : Nat := 0x34000 + 0x10 * v
def MSIX.ADDR_LO_ADDR (v : Nat) : Fld := ⟨MSIX.ADDR_LO v, 0, 32⟩
def MSIX.ADDR_HI (v : Nat) : Nat := 0x34004 + 0x10 * v
def MSIX.ADDR_HI_ADDR (v : Nat) : Fld := ⟨MSIX.ADDR_HI v, 0, 32⟩
def MSIX.DATA (v : Nat) : Nat := 0x34008 + 0x10 * v
def MSIX.DATA_DATA (v : Nat) : Fld := ⟨MSIX.DATA v, 0, 32⟩
def MSIX.VCTRL (v : Nat) : Nat := 0x3400c + 0x10 * v
def MSIX.VCTRL_MASK (v : Nat) : Fld := ⟨MSIX.VCTRL v, 0, 1⟩
def PBA.BITS (i : Nat) : Nat := 0x35000 + 4 * i
def PBA.BITS_PEND (i : Nat) : Fld := ⟨PBA.BITS i, 0, 32⟩
def FW.CTRL : Nat := 0x38000
def FW.CTRL_KEY : Fld := ⟨FW.CTRL, 16, 16⟩
def FW.CTRL_BOOTOK : Fld := ⟨FW.CTRL, 1, 1⟩
def FW.CTRL_WARM : Fld := ⟨FW.CTRL, 0, 1⟩
def FW.STAT : Nat := 0x38004
def FW.STAT_HOLD : Fld := ⟨FW.STAT, 31, 1⟩
def FW.STAT_HOLDRSN : Fld := ⟨FW.STAT, 28, 3⟩
def FW.STAT_START : Fld := ⟨FW.STAT, 26, 2⟩
def FW.STAT_RUNSLOT : Fld := ⟨FW.STAT, 25, 1⟩
def FW.STAT_BOOTSEL : Fld := ⟨FW.STAT, 24, 1⟩
def FW.STAT_FALLBK : Fld := ⟨FW.STAT, 23, 1⟩
def FW.BOOTTO : Nat := 0x38008
def FW.BOOTTO_BOOTTO : Fld := ⟨FW.BOOTTO, 0, 16⟩
def FW.SLOT0 (i : Nat) : Nat := 0x38010 + 8 * i
def FW.SLOT0_VALID (i : Nat) : Fld := ⟨FW.SLOT0 i, 31, 1⟩
def FW.SLOT0_SIGNER (i : Nat) : Fld := ⟨FW.SLOT0 i, 30, 1⟩
def FW.SLOT0_AUTHRES (i : Nat) : Fld := ⟨FW.SLOT0 i, 24, 4⟩
def FW.SLOT1 (i : Nat) : Nat := 0x38014 + 8 * i
def FW.SLOT1_SVN (i : Nat) : Fld := ⟨FW.SLOT1 i, 0, 32⟩
def FW.MBTAKE : Nat := 0x38020
def FW.MBTAKE_SLOT : Fld := ⟨FW.MBTAKE, 0, 5⟩
def FW.MBDONE : Nat := 0x38024
def FW.MBDONE_SLOT : Fld := ⟨FW.MBDONE, 0, 5⟩
def FW.MBSTAT0 : Nat := 0x38028
def FW.MBSTAT0_ST0 : Fld := ⟨FW.MBSTAT0, 0, 2⟩
def FW.MBSTAT0_ST1 : Fld := ⟨FW.MBSTAT0, 2, 2⟩
def FW.MBSTAT0_ST2 : Fld := ⟨FW.MBSTAT0, 4, 2⟩
def FW.MBSTAT0_ST3 : Fld := ⟨FW.MBSTAT0, 6, 2⟩
def FW.MBSTAT0_ST4 : Fld := ⟨FW.MBSTAT0, 8, 2⟩
def FW.MBSTAT0_ST5 : Fld := ⟨FW.MBSTAT0, 10, 2⟩
def FW.MBSTAT0_ST6 : Fld := ⟨FW.MBSTAT0, 12, 2⟩
def FW.MBSTAT0_ST7 : Fld := ⟨FW.MBSTAT0, 14, 2⟩
def FW.MBSTAT0_ST8 : Fld := ⟨FW.MBSTAT0, 16, 2⟩
def FW.MBSTAT0_ST9 : Fld := ⟨FW.MBSTAT0, 18, 2⟩
def FW.MBSTAT0_ST10 : Fld := ⟨FW.MBSTAT0, 20, 2⟩
def FW.MBSTAT0_ST11 : Fld := ⟨FW.MBSTAT0, 22, 2⟩
def FW.MBSTAT0_ST12 : Fld := ⟨FW.MBSTAT0, 24, 2⟩
def FW.MBSTAT0_ST13 : Fld := ⟨FW.MBSTAT0, 26, 2⟩
def FW.MBSTAT0_ST14 : Fld := ⟨FW.MBSTAT0, 28, 2⟩
def FW.MBSTAT0_ST15 : Fld := ⟨FW.MBSTAT0, 30, 2⟩
def FW.MBSTAT1 : Nat := 0x3802c
def FW.MBSTAT1_ST0 : Fld := ⟨FW.MBSTAT1, 0, 2⟩
def FW.MBSTAT1_ST1 : Fld := ⟨FW.MBSTAT1, 2, 2⟩
def FW.MBSTAT1_ST2 : Fld := ⟨FW.MBSTAT1, 4, 2⟩
def FW.MBSTAT1_ST3 : Fld := ⟨FW.MBSTAT1, 6, 2⟩
def FW.MBSTAT1_ST4 : Fld := ⟨FW.MBSTAT1, 8, 2⟩
def FW.MBSTAT1_ST5 : Fld := ⟨FW.MBSTAT1, 10, 2⟩
def FW.MBSTAT1_ST6 : Fld := ⟨FW.MBSTAT1, 12, 2⟩
def FW.MBSTAT1_ST7 : Fld := ⟨FW.MBSTAT1, 14, 2⟩
def FW.MBSTAT1_ST8 : Fld := ⟨FW.MBSTAT1, 16, 2⟩
def FW.MBSTAT1_ST9 : Fld := ⟨FW.MBSTAT1, 18, 2⟩
def FW.MBSTAT1_ST10 : Fld := ⟨FW.MBSTAT1, 20, 2⟩
def FW.MBSTAT1_ST11 : Fld := ⟨FW.MBSTAT1, 22, 2⟩
def FW.MBSTAT1_ST12 : Fld := ⟨FW.MBSTAT1, 24, 2⟩
def FW.MBSTAT1_ST13 : Fld := ⟨FW.MBSTAT1, 26, 2⟩
def FW.MBSTAT1_ST14 : Fld := ⟨FW.MBSTAT1, 28, 2⟩
def FW.MBSTAT1_ST15 : Fld := ⟨FW.MBSTAT1, 30, 2⟩
def FW.MBOWN0 : Nat := 0x38030
def FW.MBOWN0_PP0 : Fld := ⟨FW.MBOWN0, 0, 2⟩
def FW.MBOWN0_PP1 : Fld := ⟨FW.MBOWN0, 2, 2⟩
def FW.MBOWN0_PP2 : Fld := ⟨FW.MBOWN0, 4, 2⟩
def FW.MBOWN0_PP3 : Fld := ⟨FW.MBOWN0, 6, 2⟩
def FW.MBOWN0_PP4 : Fld := ⟨FW.MBOWN0, 8, 2⟩
def FW.MBOWN0_PP5 : Fld := ⟨FW.MBOWN0, 10, 2⟩
def FW.MBOWN0_PP6 : Fld := ⟨FW.MBOWN0, 12, 2⟩
def FW.MBOWN0_PP7 : Fld := ⟨FW.MBOWN0, 14, 2⟩
def FW.MBOWN0_PP8 : Fld := ⟨FW.MBOWN0, 16, 2⟩
def FW.MBOWN0_PP9 : Fld := ⟨FW.MBOWN0, 18, 2⟩
def FW.MBOWN0_PP10 : Fld := ⟨FW.MBOWN0, 20, 2⟩
def FW.MBOWN0_PP11 : Fld := ⟨FW.MBOWN0, 22, 2⟩
def FW.MBOWN0_PP12 : Fld := ⟨FW.MBOWN0, 24, 2⟩
def FW.MBOWN0_PP13 : Fld := ⟨FW.MBOWN0, 26, 2⟩
def FW.MBOWN0_PP14 : Fld := ⟨FW.MBOWN0, 28, 2⟩
def FW.MBOWN0_PP15 : Fld := ⟨FW.MBOWN0, 30, 2⟩
def FW.MBOWN1 : Nat := 0x38034
def FW.MBOWN1_PP0 : Fld := ⟨FW.MBOWN1, 0, 2⟩
def FW.MBOWN1_PP1 : Fld := ⟨FW.MBOWN1, 2, 2⟩
def FW.MBOWN1_PP2 : Fld := ⟨FW.MBOWN1, 4, 2⟩
def FW.MBOWN1_PP3 : Fld := ⟨FW.MBOWN1, 6, 2⟩
def FW.MBOWN1_PP4 : Fld := ⟨FW.MBOWN1, 8, 2⟩
def FW.MBOWN1_PP5 : Fld := ⟨FW.MBOWN1, 10, 2⟩
def FW.MBOWN1_PP6 : Fld := ⟨FW.MBOWN1, 12, 2⟩
def FW.MBOWN1_PP7 : Fld := ⟨FW.MBOWN1, 14, 2⟩
def FW.MBOWN1_PP8 : Fld := ⟨FW.MBOWN1, 16, 2⟩
def FW.MBOWN1_PP9 : Fld := ⟨FW.MBOWN1, 18, 2⟩
def FW.MBOWN1_PP10 : Fld := ⟨FW.MBOWN1, 20, 2⟩
def FW.MBOWN1_PP11 : Fld := ⟨FW.MBOWN1, 22, 2⟩
def FW.MBOWN1_PP12 : Fld := ⟨FW.MBOWN1, 24, 2⟩
def FW.MBOWN1_PP13 : Fld := ⟨FW.MBOWN1, 26, 2⟩
def FW.MBOWN1_PP14 : Fld := ⟨FW.MBOWN1, 28, 2⟩
def FW.MBOWN1_PP15 : Fld := ⟨FW.MBOWN1, 30, 2⟩
def FW.EVT : Nat := 0x38038
def FW.EVT_CNTCLR : Fld := ⟨FW.EVT, 4, 1⟩
def FW.EVT_LATEF : Fld := ⟨FW.EVT, 3, 1⟩
def FW.EVT_MBVIOF : Fld := ⟨FW.EVT, 2, 1⟩
def FW.EVT_WFAILF : Fld := ⟨FW.EVT, 1, 1⟩
def FW.EVT_WARMF : Fld := ⟨FW.EVT, 0, 1⟩
def FW.EVTCNT : Nat := 0x3803c
def FW.EVTCNT_WARMCNT : Fld := ⟨FW.EVTCNT, 24, 8⟩
def FW.EVTCNT_WFAILCNT : Fld := ⟨FW.EVTCNT, 16, 8⟩
def FW.EVTCNT_MBVIOCNT : Fld := ⟨FW.EVTCNT, 8, 8⟩
def FW.EVTCNT_LATECNT : Fld := ⟨FW.EVTCNT, 0, 8⟩
def SEC.STAT : Nat := 0x39000
def SEC.STAT_IDOK : Fld := ⟨SEC.STAT, 31, 1⟩
def SEC.STAT_OWNER : Fld := ⟨SEC.STAT, 30, 1⟩
def SEC.STAT_OWNERONLY : Fld := ⟨SEC.STAT, 29, 1⟩
def SEC.MINSVN : Nat := 0x39004
def SEC.MINSVN_MINSVN : Fld := ⟨SEC.MINSVN, 0, 32⟩
def SEC.EPOCH_LO : Nat := 0x39008
def SEC.EPOCH_LO_EPL : Fld := ⟨SEC.EPOCH_LO, 0, 32⟩
def SEC.EPOCH_HI : Nat := 0x3900c
def SEC.EPOCH_HI_EPH : Fld := ⟨SEC.EPOCH_HI, 0, 32⟩
def SEC.CDIG (i : Nat) : Nat := 0x39010 + 4 * i
def SEC.CDIG_DIG (i : Nat) : Fld := ⟨SEC.CDIG i, 0, 32⟩
def SEC.ODIG (i : Nat) : Nat := 0x39040 + 4 * i
def SEC.ODIG_DIG (i : Nat) : Fld := ⟨SEC.ODIG i, 0, 32⟩
def SEC.CSCNT : Nat := 0x39070
def SEC.CSCNT_COUNT : Fld := ⟨SEC.CSCNT, 0, 32⟩
def SEC.EVT : Nat := 0x39074
def SEC.EVT_CNTCLR : Fld := ⟨SEC.EVT, 3, 1⟩
def SEC.EVT_AUTHFF : Fld := ⟨SEC.EVT, 2, 1⟩
def SEC.EVT_ENRREFF : Fld := ⟨SEC.EVT, 1, 1⟩
def SEC.EVT_ENRF : Fld := ⟨SEC.EVT, 0, 1⟩
def SEC.EVTCNT : Nat := 0x39078
def SEC.EVTCNT_AUTHFCNT : Fld := ⟨SEC.EVTCNT, 24, 8⟩
def SEC.EVTCNT_ENRREFCNT : Fld := ⟨SEC.EVTCNT, 16, 8⟩
def TILE.STGCTL : Nat := 0x3a000
def TILE.STGCTL_GO : Fld := ⟨TILE.STGCTL, 31, 1⟩
def TILE.STGCTL_KIND : Fld := ⟨TILE.STGCTL, 24, 4⟩
def TILE.STGCTL_INDEX : Fld := ⟨TILE.STGCTL, 0, 13⟩
def TILE.SCHK : Nat := 0x3a004
def TILE.SCHK_CHK : Fld := ⟨TILE.SCHK, 0, 32⟩
def TILE.STGST : Nat := 0x3a008
def TILE.STGST_STATUS : Fld := ⟨TILE.STGST, 28, 4⟩
def TILE.STGST_REASON : Fld := ⟨TILE.STGST, 16, 8⟩
def TILE.STGST_NSTG : Fld := ⟨TILE.STGST, 8, 8⟩
def TILE.STGST_NSM : Fld := ⟨TILE.STGST, 0, 7⟩
def TILE.CMTCTL : Nat := 0x3a00c
def TILE.CMTCTL_GO : Fld := ⟨TILE.CMTCTL, 31, 1⟩
def TILE.CMTCTL_DISCARD : Fld := ⟨TILE.CMTCTL, 30, 1⟩
def TILE.CMTST : Nat := 0x3a010
def TILE.CMTST_STATUS : Fld := ⟨TILE.CMTST, 28, 4⟩
def TILE.CMTST_REASON : Fld := ⟨TILE.CMTST, 16, 8⟩
def TILE.CMTST_POS : Fld := ⟨TILE.CMTST, 0, 9⟩
def TILE.EVT : Nat := 0x3a014
def TILE.EVT_CNTCLR : Fld := ⟨TILE.EVT, 4, 1⟩
def TILE.EVT_SCRMF : Fld := ⟨TILE.EVT, 3, 1⟩
def TILE.EVT_USEFF : Fld := ⟨TILE.EVT, 2, 1⟩
def TILE.EVT_CREFF : Fld := ⟨TILE.EVT, 1, 1⟩
def TILE.EVT_CMTF : Fld := ⟨TILE.EVT, 0, 1⟩
def TILE.EVTCNT : Nat := 0x3a018
def TILE.EVTCNT_CMTCNT : Fld := ⟨TILE.EVTCNT, 24, 8⟩
def TILE.EVTCNT_CREFCNT : Fld := ⟨TILE.EVTCNT, 16, 8⟩
def TILE.EVTCNT_USEFCNT : Fld := ⟨TILE.EVTCNT, 8, 8⟩
def TILE.EVTCNT_SCRMCNT : Fld := ⟨TILE.EVTCNT, 0, 8⟩
def TILE.PRES (i : Nat) : Nat := 0x3a020 + 4 * i
def TILE.PRES_PRESENT (i : Nat) : Fld := ⟨TILE.PRES i, 0, 32⟩
def TILE.SBUF (i : Nat) : Nat := 0x3a100 + 4 * i
def TILE.SBUF_DATA (i : Nat) : Fld := ⟨TILE.SBUF i, 0, 32⟩
def TILE.TABLE (i : Nat) : Nat := 0x3a400 + 4 * i
def TILE.TABLE_CHK (i : Nat) : Fld := ⟨TILE.TABLE i, 0, 32⟩
def NVM.CFG : Nat := 0x3b000
def NVM.CFG_SCRINT : Fld := ⟨NVM.CFG, 16, 16⟩
def NVM.CFG_BURSTTH : Fld := ⟨NVM.CFG, 8, 8⟩
def NVM.STAT : Nat := 0x3b004
def NVM.STAT_WRITING : Fld := ⟨NVM.STAT, 31, 1⟩
def NVM.STAT_LEAVE : Fld := ⟨NVM.STAT, 30, 1⟩
def NVM.STAT_WAITWIN : Fld := ⟨NVM.STAT, 29, 1⟩
def NVM.STAT_QLINES : Fld := ⟨NVM.STAT, 0, 16⟩
def NVM.LOGHEAD : Nat := 0x3b008
def NVM.LOGHEAD_SEQ : Fld := ⟨NVM.LOGHEAD, 0, 32⟩
def NVM.LOGOLD : Nat := 0x3b00c
def NVM.LOGOLD_SEQ : Fld := ⟨NVM.LOGOLD, 0, 32⟩
def NVM.RDADDR : Nat := 0x3b010
def NVM.RDADDR_ADDR : Fld := ⟨NVM.RDADDR, 2, 22⟩
def NVM.RDDATA : Nat := 0x3b014
def NVM.RDDATA_DATA : Fld := ⟨NVM.RDDATA, 0, 32⟩
def NVM.EVT : Nat := 0x3b018
def NVM.EVT_CNTCLR : Fld := ⟨NVM.EVT, 3, 1⟩
def NVM.EVT_TORNF : Fld := ⟨NVM.EVT, 2, 1⟩
def NVM.EVT_VERFF : Fld := ⟨NVM.EVT, 1, 1⟩
def NVM.EVT_SCRPF : Fld := ⟨NVM.EVT, 0, 1⟩
def NVM.EVTCNT : Nat := 0x3b01c
def NVM.EVTCNT_TORNCNT : Fld := ⟨NVM.EVTCNT, 16, 16⟩
def NVM.EVTCNT_VERFCNT : Fld := ⟨NVM.EVTCNT, 8, 8⟩
def NVM.EVTCNT_SCRPCNT : Fld := ⟨NVM.EVTCNT, 0, 8⟩
def NVM.WRCNT : Nat := 0x3b020
def NVM.WRCNT_COUNT : Fld := ⟨NVM.WRCNT, 0, 32⟩
def PWM.CTRL (p : Nat) : Nat := dieBase (p / 32 + 1) + 0x0 + 0x40 * (p % 32)
def PWM.CTRL_ENSNK (p : Nat) : Fld := ⟨PWM.CTRL p, 16, 1⟩
def PWM.CTRL_ERLY (p : Nat) : Fld := ⟨PWM.CTRL p, 15, 1⟩
def PWM.CTRL_INV (p : Nat) : Fld := ⟨PWM.CTRL p, 13, 2⟩
def PWM.CTRL_SWAP (p : Nat) : Fld := ⟨PWM.CTRL p, 12, 1⟩
def PWM.CTRL_PAIRM (p : Nat) : Fld := ⟨PWM.CTRL p, 10, 2⟩
def PWM.CTRL_PAIR (p : Nat) : Fld := ⟨PWM.CTRL p, 9, 1⟩
def PWM.CTRL_RLD (p : Nat) : Fld := ⟨PWM.CTRL p, 8, 1⟩
def PWM.CTRL_MOD (p : Nat) : Fld := ⟨PWM.CTRL p, 6, 2⟩
def PWM.CTRL_CNT (p : Nat) : Fld := ⟨PWM.CTRL p, 5, 1⟩
def PWM.CTRL_EN (p : Nat) : Fld := ⟨PWM.CTRL p, 0, 1⟩
def PWM.PERIOD (p : Nat) : Nat := dieBase (p / 32 + 1) + 0x4 + 0x40 * (p % 32)
def PWM.PERIOD_PER (p : Nat) : Fld := ⟨PWM.PERIOD p, 0, 16⟩
def PWM.PHOFS (p : Nat) : Nat := dieBase (p / 32 + 1) + 0x8 + 0x40 * (p % 32)
def PWM.PHOFS_OFS (p : Nat) : Fld := ⟨PWM.PHOFS p, 0, 22⟩
def PWM.DUTY (p : Nat) : Nat := dieBase (p / 32 + 1) + 0xc + 0x40 * (p % 32)
def PWM.DUTY_TAG (p : Nat) : Fld := ⟨PWM.DUTY p, 30, 2⟩
def PWM.DUTY_D (p : Nat) : Fld := ⟨PWM.DUTY p, 0, 22⟩
def PWM.SHDW (p : Nat) : Nat := dieBase (p / 32 + 1) + 0x10 + 0x40 * (p % 32)
def PWM.SHDW_TAG (p : Nat) : Fld := ⟨PWM.SHDW p, 30, 2⟩
def PWM.SHDW_D (p : Nat) : Fld := ⟨PWM.SHDW p, 0, 22⟩
def PWM.CMPA (p : Nat) : Nat := dieBase (p / 32 + 1) + 0x14 + 0x40 * (p % 32)
def PWM.CMPA_ON (p : Nat) : Fld := ⟨PWM.CMPA p, 0, 22⟩
def PWM.CMPB (p : Nat) : Nat := dieBase (p / 32 + 1) + 0x18 + 0x40 * (p % 32)
def PWM.CMPB_OFF (p : Nat) : Fld := ⟨PWM.CMPB p, 0, 22⟩
def PWM.TRIG0 (p : Nat) : Nat := dieBase (p / 32 + 1) + 0x1c + 0x40 * (p % 32)
def PWM.TRIG0_EN (p : Nat) : Fld := ⟨PWM.TRIG0 p, 31, 1⟩
def PWM.TRIG0_MIDON (p : Nat) : Fld := ⟨PWM.TRIG0 p, 30, 1⟩
def PWM.TRIG0_POS (p : Nat) : Fld := ⟨PWM.TRIG0 p, 0, 22⟩
def PWM.TRIG1 (p : Nat) : Nat := dieBase (p / 32 + 1) + 0x20 + 0x40 * (p % 32)
def PWM.TRIG1_EN (p : Nat) : Fld := ⟨PWM.TRIG1 p, 31, 1⟩
def PWM.TRIG1_MIDON (p : Nat) : Fld := ⟨PWM.TRIG1 p, 30, 1⟩
def PWM.TRIG1_POS (p : Nat) : Fld := ⟨PWM.TRIG1 p, 0, 22⟩
def PWM.DEADT (p : Nat) : Nat := dieBase (p / 32 + 1) + 0x24 + 0x40 * (p % 32)
def PWM.DEADT_DTR (p : Nat) : Fld := ⟨PWM.DEADT p, 16, 12⟩
def PWM.DEADT_DTF (p : Nat) : Fld := ⟨PWM.DEADT p, 0, 12⟩
def PWM.BOOT (p : Nat) : Nat := dieBase (p / 32 + 1) + 0x28 + 0x40 * (p % 32)
def PWM.BOOT_BRN (p : Nat) : Fld := ⟨PWM.BOOT p, 16, 8⟩
def PWM.BOOT_BMIN (p : Nat) : Fld := ⟨PWM.BOOT p, 0, 7⟩
def PWM.TRIPEN (p : Nat) : Nat := dieBase (p / 32 + 1) + 0x2c + 0x40 * (p % 32)
def PWM.TRIPEN_TSTATE (p : Nat) : Fld := ⟨PWM.TRIPEN p, 12, 1⟩
def PWM.TRIPEN_WMMODE (p : Nat) : Fld := ⟨PWM.TRIPEN p, 11, 1⟩
def PWM.TRIPEN_PKMODE (p : Nat) : Fld := ⟨PWM.TRIPEN p, 10, 1⟩
def PWM.TRIPEN_WMEN (p : Nat) : Fld := ⟨PWM.TRIPEN p, 9, 1⟩
def PWM.TRIPEN_PKEN (p : Nat) : Fld := ⟨PWM.TRIPEN p, 8, 1⟩
def PWM.TRIPEN_PINEN (p : Nat) : Fld := ⟨PWM.TRIPEN p, 0, 8⟩
def PWM.TRIPST (p : Nat) : Nat := dieBase (p / 32 + 1) + 0x30 + 0x40 * (p % 32)
def PWM.TRIPST_LAT (p : Nat) : Fld := ⟨PWM.TRIPST p, 19, 11⟩
def PWM.TRIPST_ACT (p : Nat) : Fld := ⟨PWM.TRIPST p, 8, 11⟩
def PWM.TRIPST_RCLRF (p : Nat) : Fld := ⟨PWM.TRIPST p, 4, 1⟩
def PWM.TRIPST_CBCF (p : Nat) : Fld := ⟨PWM.TRIPST p, 3, 1⟩
def PWM.TRIPST_TRIPF (p : Nat) : Fld := ⟨PWM.TRIPST p, 2, 1⟩
def PWM.TRIPST_TRIPPED (p : Nat) : Fld := ⟨PWM.TRIPST p, 1, 1⟩
def PWM.TRIPST_CLR (p : Nat) : Fld := ⟨PWM.TRIPST p, 0, 1⟩
def PWM.TRIPCNT (p : Nat) : Nat := dieBase (p / 32 + 1) + 0x34 + 0x40 * (p % 32)
def PWM.TRIPCNT_CBCCNT (p : Nat) : Fld := ⟨PWM.TRIPCNT p, 16, 16⟩
def PWM.TRIPCNT_LTCNT (p : Nat) : Fld := ⟨PWM.TRIPCNT p, 8, 8⟩
def PWM.TRIPCNT_RCLRCNT (p : Nat) : Fld := ⟨PWM.TRIPCNT p, 1, 7⟩
def PWM.TRIPCNT_CNTCLR (p : Nat) : Fld := ⟨PWM.TRIPCNT p, 0, 1⟩
def PWM.EVCNT (p : Nat) : Nat := dieBase (p / 32 + 1) + 0x38 + 0x40 * (p % 32)
def PWM.EVCNT_BOOTCNT (p : Nat) : Fld := ⟨PWM.EVCNT p, 16, 16⟩
def PWM.EVCNT_ERLYCNT (p : Nat) : Fld := ⟨PWM.EVCNT p, 8, 8⟩
def PWM.EVCNT_CNTCLR (p : Nat) : Fld := ⟨PWM.EVCNT p, 0, 1⟩
def PWM.OUT (p : Nat) : Nat := dieBase (p / 32 + 1) + 0x3c + 0x40 * (p % 32)
def PWM.OUT_LEVEL (p : Nat) : Fld := ⟨PWM.OUT p, 0, 2⟩
def PWMP.TPIN (n : Nat) : Nat := dieBase n + 0x800
def PWMP.TPIN_MODE0 (n : Nat) : Fld := ⟨PWMP.TPIN n, 3, 1⟩
def PWMP.TPIN_MODE1 (n : Nat) : Fld := ⟨PWMP.TPIN n, 7, 1⟩
def PWMP.TPIN_MODE2 (n : Nat) : Fld := ⟨PWMP.TPIN n, 11, 1⟩
def PWMP.TPIN_MODE3 (n : Nat) : Fld := ⟨PWMP.TPIN n, 15, 1⟩
def PWMP.TPIN_MODE4 (n : Nat) : Fld := ⟨PWMP.TPIN n, 19, 1⟩
def PWMP.TPIN_MODE5 (n : Nat) : Fld := ⟨PWMP.TPIN n, 23, 1⟩
def PWMP.TPIN_MODE6 (n : Nat) : Fld := ⟨PWMP.TPIN n, 27, 1⟩
def PWMP.TPIN_MODE7 (n : Nat) : Fld := ⟨PWMP.TPIN n, 31, 1⟩
def PWMP.TPIN_FILT0 (n : Nat) : Fld := ⟨PWMP.TPIN n, 1, 2⟩
def PWMP.TPIN_FILT1 (n : Nat) : Fld := ⟨PWMP.TPIN n, 5, 2⟩
def PWMP.TPIN_FILT2 (n : Nat) : Fld := ⟨PWMP.TPIN n, 9, 2⟩
def PWMP.TPIN_FILT3 (n : Nat) : Fld := ⟨PWMP.TPIN n, 13, 2⟩
def PWMP.TPIN_FILT4 (n : Nat) : Fld := ⟨PWMP.TPIN n, 17, 2⟩
def PWMP.TPIN_FILT5 (n : Nat) : Fld := ⟨PWMP.TPIN n, 21, 2⟩
def PWMP.TPIN_FILT6 (n : Nat) : Fld := ⟨PWMP.TPIN n, 25, 2⟩
def PWMP.TPIN_FILT7 (n : Nat) : Fld := ⟨PWMP.TPIN n, 29, 2⟩
def PWMP.TPIN_POL0 (n : Nat) : Fld := ⟨PWMP.TPIN n, 0, 1⟩
def PWMP.TPIN_POL1 (n : Nat) : Fld := ⟨PWMP.TPIN n, 4, 1⟩
def PWMP.TPIN_POL2 (n : Nat) : Fld := ⟨PWMP.TPIN n, 8, 1⟩
def PWMP.TPIN_POL3 (n : Nat) : Fld := ⟨PWMP.TPIN n, 12, 1⟩
def PWMP.TPIN_POL4 (n : Nat) : Fld := ⟨PWMP.TPIN n, 16, 1⟩
def PWMP.TPIN_POL5 (n : Nat) : Fld := ⟨PWMP.TPIN n, 20, 1⟩
def PWMP.TPIN_POL6 (n : Nat) : Fld := ⟨PWMP.TPIN n, 24, 1⟩
def PWMP.TPIN_POL7 (n : Nat) : Fld := ⟨PWMP.TPIN n, 28, 1⟩
def PWMP.TPSTAT (n : Nat) : Nat := dieBase n + 0x804
def PWMP.TPSTAT_LVL (n : Nat) : Fld := ⟨PWMP.TPSTAT n, 0, 8⟩
def PHS.ASSIGN (p : Nat) : Nat := dieBase (p / 32 + 1) + 0x1000 + 0x20 * (p % 32)
def PHS.ASSIGN_OWN (p : Nat) : Fld := ⟨PHS.ASSIGN p, 31, 1⟩
def PHS.ASSIGN_LOOP (p : Nat) : Fld := ⟨PHS.ASSIGN p, 8, 5⟩
def PHS.ASSIGN_RANK (p : Nat) : Fld := ⟨PHS.ASSIGN p, 0, 6⟩
def PHS.BAL (p : Nat) : Nat := dieBase (p / 32 + 1) + 0x1004 + 0x20 * (p % 32)
def PHS.BAL_KB (p : Nat) : Fld := ⟨PHS.BAL p, 16, 16⟩
def PHS.BAL_TSEL (p : Nat) : Fld := ⟨PHS.BAL p, 12, 1⟩
def PHS.BAL_TRMAX (p : Nat) : Fld := ⟨PHS.BAL p, 0, 12⟩
def PHS.TRIM (p : Nat) : Nat := dieBase (p / 32 + 1) + 0x1008 + 0x20 * (p % 32)
def PHS.TRIM_TRIM (p : Nat) : Fld := ⟨PHS.TRIM p, 0, 13⟩
def PHS.STATE (p : Nat) : Nat := dieBase (p / 32 + 1) + 0x100c + 0x20 * (p % 32)
def PHS.STATE_OFFPOS (p : Nat) : Fld := ⟨PHS.STATE p, 4, 1⟩
def PHS.STATE_FROZEN (p : Nat) : Fld := ⟨PHS.STATE p, 3, 1⟩
def PHS.STATE_ROLE (p : Nat) : Fld := ⟨PHS.STATE p, 0, 3⟩
def PHS.IAVG (p : Nat) : Nat := dieBase (p / 32 + 1) + 0x1010 + 0x20 * (p % 32)
def PHS.IAVG_IAVG (p : Nat) : Fld := ⟨PHS.IAVG p, 0, 14⟩
def PHS.OTGT (p : Nat) : Nat := dieBase (p / 32 + 1) + 0x1014 + 0x20 * (p % 32)
def PHS.OTGT_OTGT (p : Nat) : Fld := ⟨PHS.OTGT p, 0, 22⟩
def PHSP.MEAN (n : Nat) (i : Nat) : Nat := dieBase n + 0x1400 + 4 * i
def PHSP.MEAN_MEAN (n : Nat) (i : Nat) : Fld := ⟨PHSP.MEAN n i, 0, 18⟩
def SEG.INST (p : Nat) : Nat := dieBase (p / 32 + 1) + 0x2000 + 0x40 * (p % 32)
def SEG.INST_HS (p : Nat) : Fld := ⟨SEG.INST p, 16, 15⟩
def SEG.INST_LS (p : Nat) : Fld := ⟨SEG.INST p, 0, 15⟩
def SEG.USE (p : Nat) : Nat := dieBase (p / 32 + 1) + 0x2004 + 0x40 * (p % 32)
def SEG.USE_HS (p : Nat) : Fld := ⟨SEG.USE p, 16, 15⟩
def SEG.USE_LS (p : Nat) : Fld := ⟨SEG.USE p, 0, 15⟩
def SEG.ACT (p : Nat) : Nat := dieBase (p / 32 + 1) + 0x2008 + 0x40 * (p % 32)
def SEG.ACT_HS (p : Nat) : Fld := ⟨SEG.ACT p, 16, 15⟩
def SEG.ACT_LS (p : Nat) : Fld := ⟨SEG.ACT p, 0, 15⟩
def SEG.WIN (p : Nat) : Nat := dieBase (p / 32 + 1) + 0x200c + 0x40 * (p % 32)
def SEG.WIN_HS (p : Nat) : Fld := ⟨SEG.WIN p, 16, 15⟩
def SEG.WIN_LS (p : Nat) : Fld := ⟨SEG.WIN p, 0, 15⟩
def SEG.EVT (p : Nat) : Nat := dieBase (p / 32 + 1) + 0x2010 + 0x40 * (p % 32)
def SEG.EVT_CNTCLR (p : Nat) : Fld := ⟨SEG.EVT p, 4, 1⟩
def SEG.EVT_CLIPF (p : Nat) : Fld := ⟨SEG.EVT p, 3, 1⟩
def SEG.EVT_RETF (p : Nat) : Fld := ⟨SEG.EVT p, 2, 1⟩
def SEG.EVT_WEAKF (p : Nat) : Fld := ⟨SEG.EVT p, 1, 1⟩
def SEG.EVT_FAILF (p : Nat) : Fld := ⟨SEG.EVT p, 0, 1⟩
def SEG.EVTCNT (p : Nat) : Nat := dieBase (p / 32 + 1) + 0x2014 + 0x40 * (p % 32)
def SEG.EVTCNT_FAILCNT (p : Nat) : Fld := ⟨SEG.EVTCNT p, 16, 16⟩
def SEG.EVTCNT_WEAKCNT (p : Nat) : Fld := ⟨SEG.EVTCNT p, 8, 8⟩
def SEG.EVTCNT_RETCNT (p : Nat) : Fld := ⟨SEG.EVTCNT p, 4, 4⟩
def SEG.EVTCNT_CLIPCNT (p : Nat) : Fld := ⟨SEG.EVTCNT p, 0, 4⟩
def SEG.RETIRE (p : Nat) : Nat := dieBase (p / 32 + 1) + 0x2018 + 0x40 * (p % 32)
def SEG.RETIRE_GO (p : Nat) : Fld := ⟨SEG.RETIRE p, 31, 1⟩
def SEG.RETIRE_SW (p : Nat) : Fld := ⟨SEG.RETIRE p, 30, 1⟩
def SEG.RETIRE_FIRST (p : Nat) : Fld := ⟨SEG.RETIRE p, 16, 14⟩
def SEG.RETIRE_NUM (p : Nat) : Fld := ⟨SEG.RETIRE p, 0, 15⟩
def SEG.STAT (p : Nat) : Nat := dieBase (p / 32 + 1) + 0x201c + 0x40 * (p % 32)
def SEG.STAT_ROTON (p : Nat) : Fld := ⟨SEG.STAT p, 3, 1⟩
def SEG.STAT_REGION (p : Nat) : Fld := ⟨SEG.STAT p, 0, 3⟩
def SEGP.CTRL (n : Nat) : Nat := dieBase n + 0x2800
def SEGP.CTRL_WK2F (n : Nat) : Fld := ⟨SEGP.CTRL n, 0, 1⟩
def SEGP.MAPST (n : Nat) : Nat := dieBase n + 0x2804
def SEGP.MAPST_WRCNT (n : Nat) : Fld := ⟨SEGP.MAPST n, 16, 16⟩
def SEGP.MAPST_DISCCNT (n : Nat) : Fld := ⟨SEGP.MAPST n, 11, 5⟩
def SEGP.MAPST_DIRTY (n : Nat) : Fld := ⟨SEGP.MAPST n, 0, 11⟩
def STB.CFG (n : Nat) : Nat := dieBase n + 0x3000
def STB.CFG_POLLINT (n : Nat) : Fld := ⟨STB.CFG n, 24, 8⟩
def STB.CFG_MISSLIM (n : Nat) : Fld := ⟨STB.CFG n, 20, 4⟩
def STB.CFG_ALSTUCK (n : Nat) : Fld := ⟨STB.CFG n, 8, 8⟩
def STB.CFG_TTO (n : Nat) : Fld := ⟨STB.CFG n, 0, 8⟩
def STB.LANE (n : Nat) (i : Nat) : Nat := dieBase n + 0x3010 + 4 * i
def STB.LANE_CRCCNT (n : Nat) (i : Nat) : Fld := ⟨STB.LANE n i, 24, 8⟩
def STB.LANE_NOACNT (n : Nat) (i : Nat) : Fld := ⟨STB.LANE n i, 16, 8⟩
def STB.LANE_CNTCLR (n : Nat) (i : Nat) : Fld := ⟨STB.LANE n i, 3, 1⟩
def STB.LANE_ALIGN (n : Nat) (i : Nat) : Fld := ⟨STB.LANE n i, 2, 1⟩
def STB.LANE_ALERT (n : Nat) (i : Nat) : Fld := ⟨STB.LANE n i, 1, 1⟩
def STB.LANE_BUSY (n : Nat) (i : Nat) : Fld := ⟨STB.LANE n i, 0, 1⟩
def STB.STG (n : Nat) (i : Nat) : Nat := dieBase n + 0x3040 + 4 * i
def STB.STG_TEMP (n : Nat) (i : Nat) : Fld := ⟨STB.STG n i, 20, 12⟩
def STB.STG_MISS (n : Nat) (i : Nat) : Fld := ⟨STB.STG n i, 16, 4⟩
def STB.STG_SFLT (n : Nat) (i : Nat) : Fld := ⟨STB.STG n i, 8, 5⟩
def STB.STG_REASON (n : Nat) (i : Nat) : Fld := ⟨STB.STG n i, 4, 4⟩
def STB.STG_STATE (n : Nat) (i : Nat) : Fld := ⟨STB.STG n i, 0, 2⟩
def STB.EVT (n : Nat) : Nat := dieBase n + 0x30c0
def STB.EVT_CNTCLR (n : Nat) : Fld := ⟨STB.EVT n, 5, 1⟩
def STB.EVT_OVFF (n : Nat) : Fld := ⟨STB.EVT n, 4, 1⟩
def STB.EVT_STUCKF (n : Nat) : Fld := ⟨STB.EVT n, 3, 1⟩
def STB.EVT_CRCF (n : Nat) : Fld := ⟨STB.EVT n, 2, 1⟩
def STB.EVT_NOAF (n : Nat) : Fld := ⟨STB.EVT n, 1, 1⟩
def STB.EVT_ABSF (n : Nat) : Fld := ⟨STB.EVT n, 0, 1⟩
def STB.EVTCNT (n : Nat) : Nat := dieBase n + 0x30c4
def STB.EVTCNT_ABSCNT (n : Nat) : Fld := ⟨STB.EVTCNT n, 24, 8⟩
def STB.EVTCNT_OVFCNT (n : Nat) : Fld := ⟨STB.EVTCNT n, 16, 8⟩
def STB.EVTCNT_STUCKCNT (n : Nat) : Fld := ⟨STB.EVTCNT n, 8, 8⟩
def STB.RLYCTL (n : Nat) : Nat := dieBase n + 0x3100
def STB.RLYCTL_RLYCNT (n : Nat) : Fld := ⟨STB.RLYCTL n, 24, 8⟩
def STB.RLYCTL_OP (n : Nat) : Fld := ⟨STB.RLYCTL n, 20, 4⟩
def STB.RLYCTL_LEN (n : Nat) : Fld := ⟨STB.RLYCTL n, 14, 6⟩
def STB.RLYCTL_LANE (n : Nat) : Fld := ⟨STB.RLYCTL n, 12, 2⟩
def STB.RLYCTL_ADDR (n : Nat) : Fld := ⟨STB.RLYCTL n, 8, 4⟩
def STB.RLYCTL_STATUS (n : Nat) : Fld := ⟨STB.RLYCTL n, 4, 4⟩
def STB.RLYCTL_CNTCLR (n : Nat) : Fld := ⟨STB.RLYCTL n, 3, 1⟩
def STB.RLYCTL_DONEF (n : Nat) : Fld := ⟨STB.RLYCTL n, 2, 1⟩
def STB.RLYCTL_GO (n : Nat) : Fld := ⟨STB.RLYCTL n, 0, 1⟩
def STB.RLYREQ (n : Nat) (i : Nat) : Nat := dieBase n + 0x3104 + 4 * i
def STB.RLYREQ_DATA (n : Nat) (i : Nat) : Fld := ⟨STB.RLYREQ n i, 0, 32⟩
def STB.RLYRSPH (n : Nat) : Nat := dieBase n + 0x313c
def STB.RLYRSPH_RSPOP (n : Nat) : Fld := ⟨STB.RLYRSPH n, 8, 4⟩
def STB.RLYRSPH_RSPLEN (n : Nat) : Fld := ⟨STB.RLYRSPH n, 0, 6⟩
def STB.RLYRSP (n : Nat) (i : Nat) : Nat := dieBase n + 0x3140 + 4 * i
def STB.RLYRSP_DATA (n : Nat) (i : Nat) : Fld := ⟨STB.RLYRSP n i, 0, 32⟩
def IADC.CFG (p : Nat) : Nat := dieBase (p / 32 + 1) + 0x4000 + 0x20 * (p % 32)
def IADC.CFG_GAIN (p : Nat) : Fld := ⟨IADC.CFG p, 16, 16⟩
def IADC.CFG_SUMSEL (p : Nat) : Fld := ⟨IADC.CFG p, 15, 1⟩
def IADC.CFG_ZERO (p : Nat) : Fld := ⟨IADC.CFG p, 0, 10⟩
def IADC.RES0 (p : Nat) : Nat := dieBase (p / 32 + 1) + 0x4004 + 0x20 * (p % 32)
def IADC.RES0_SAT (p : Nat) : Fld := ⟨IADC.RES0 p, 31, 1⟩
def IADC.RES0_DLY (p : Nat) : Fld := ⟨IADC.RES0 p, 30, 1⟩
def IADC.RES0_AMPS (p : Nat) : Fld := ⟨IADC.RES0 p, 12, 14⟩
def IADC.RES0_CODE (p : Nat) : Fld := ⟨IADC.RES0 p, 0, 10⟩
def IADC.RES1 (p : Nat) : Nat := dieBase (p / 32 + 1) + 0x4008 + 0x20 * (p % 32)
def IADC.RES1_SAT (p : Nat) : Fld := ⟨IADC.RES1 p, 31, 1⟩
def IADC.RES1_DLY (p : Nat) : Fld := ⟨IADC.RES1 p, 30, 1⟩
def IADC.RES1_AMPS (p : Nat) : Fld := ⟨IADC.RES1 p, 12, 14⟩
def IADC.RES1_CODE (p : Nat) : Fld := ⟨IADC.RES1 p, 0, 10⟩
def IADC.EVT (p : Nat) : Nat := dieBase (p / 32 + 1) + 0x400c + 0x20 * (p % 32)
def IADC.EVT_CNTCLR (p : Nat) : Fld := ⟨IADC.EVT p, 3, 1⟩
def IADC.EVT_COLF (p : Nat) : Fld := ⟨IADC.EVT p, 2, 1⟩
def IADC.EVT_DLYF (p : Nat) : Fld := ⟨IADC.EVT p, 1, 1⟩
def IADC.EVT_SATF (p : Nat) : Fld := ⟨IADC.EVT p, 0, 1⟩
def IADC.EVTCNT (p : Nat) : Nat := dieBase (p / 32 + 1) + 0x4010 + 0x20 * (p % 32)
def IADC.EVTCNT_SATCNT (p : Nat) : Fld := ⟨IADC.EVTCNT p, 16, 16⟩
def IADC.EVTCNT_DLYCNT (p : Nat) : Fld := ⟨IADC.EVTCNT p, 8, 8⟩
def IADC.EVTCNT_COLCNT (p : Nat) : Fld := ⟨IADC.EVTCNT p, 0, 8⟩
def IADC.CONV (p : Nat) : Nat := dieBase (p / 32 + 1) + 0x4014 + 0x20 * (p % 32)
def IADC.CONV_COUNT (p : Nat) : Fld := ⟨IADC.CONV p, 0, 32⟩
def IADCP.SUM (n : Nat) (i : Nat) : Nat := dieBase n + 0x4400 + 4 * i
def IADCP.SUM_SUM (n : Nat) (i : Nat) : Fld := ⟨IADCP.SUM n i, 0, 18⟩
def CMP.PKCFG (p : Nat) : Nat := dieBase (p / 32 + 1) + 0x6000 + 0x8 * (p % 32)
def CMP.PKCFG_START (p : Nat) : Fld := ⟨CMP.PKCFG p, 20, 10⟩
def CMP.PKCFG_SLOPE (p : Nat) : Fld := ⟨CMP.PKCFG p, 8, 12⟩
def CMP.PKCFG_BLANK (p : Nat) : Fld := ⟨CMP.PKCFG p, 0, 8⟩
def CMP.PKSTAT (p : Nat) : Nat := dieBase (p / 32 + 1) + 0x6004 + 0x8 * (p % 32)
def CMP.PKSTAT_CMPOUT (p : Nat) : Fld := ⟨CMP.PKSTAT p, 31, 1⟩
def CMP.PKSTAT_THR (p : Nat) : Fld := ⟨CMP.PKSTAT p, 0, 10⟩
def THMD.DSTAT (n : Nat) : Nat := dieBase n + 0x7000
def THMD.DSTAT_OTL (n : Nat) : Fld := ⟨THMD.DSTAT n, 4, 1⟩
def THMD.DSTAT_MASK (n : Nat) : Fld := ⟨THMD.DSTAT n, 0, 4⟩

end Sys2Proof.Machine
end

