-- ==== Sys2Proof/Machine/Tbl.lean ====
section
/-! DEFINITION. Sparse storage keyed by a number, in one canonical form: keys strictly rise and no entry equals what an unlisted key reads as. -/

namespace Sys2Proof.Machine

/-- The value listed for `k`, or what an unlisted key reads as. -/
def cellsGet {α : Type} (d : Nat → α) : List (Nat × α) → Nat → α
  | [], k => d k
  | (j, v) :: t, k => if j = k then v else if k < j then d k else cellsGet d t k

/-- Writes `v` at `k` into a list whose keys rise, or removes the entry when `v` is what an unlisted key reads as. -/
def cellsSet {α : Type} [DecidableEq α] (d : Nat → α) : List (Nat × α) → Nat → α → List (Nat × α)
  | [], k, v => if v = d k then [] else [(k, v)]
  | (j, w) :: t, k, v =>
    if j = k then (if v = d k then t else (k, v) :: t)
    else if k < j then (if v = d k then (j, w) :: t else (k, v) :: (j, w) :: t)
    else (j, w) :: cellsSet d t k v

/-- The canonical form of a list of cells. -/
abbrev CellsWf {α : Type} (d : Nat → α) (l : List (Nat × α)) : Prop :=
  l.Pairwise (fun a b => a.1 < b.1) ∧ ∀ e ∈ l, e.2 ≠ d e.1

theorem cellsSet_keys {α : Type} [DecidableEq α] (d : Nat → α) (l : List (Nat × α)) (k : Nat) (v : α) :
    ∀ e ∈ cellsSet d l k v, e = (k, v) ∨ e ∈ l := by
  induction l with
  | nil => intro e; unfold cellsSet; split <;> simp
  | cons a t ih =>
    obtain ⟨j, w⟩ := a
    intro e he
    unfold cellsSet at he
    split at he
    · split at he
      · exact .inr (List.mem_cons_of_mem _ he)
      · rcases List.mem_cons.1 he with h | h
        · exact .inl h
        · exact .inr (List.mem_cons_of_mem _ h)
    · split at he
      · split at he
        · exact .inr he
        · rcases List.mem_cons.1 he with h | h
          · exact .inl h
          · exact .inr h
      · rcases List.mem_cons.1 he with h | h
        · exact .inr (h ▸ List.mem_cons_self)
        · rcases ih e h with h | h
          · exact .inl h
          · exact .inr (List.mem_cons_of_mem _ h)

/-- A write keeps the canonical form. -/
theorem cellsSet_wf {α : Type} [DecidableEq α] (d : Nat → α) (l : List (Nat × α)) (k : Nat) (v : α)
    (h : CellsWf d l) : CellsWf d (cellsSet d l k v) := by
  induction l with
  | nil =>
    unfold cellsSet
    split
    · exact h
    · next hv =>
      refine ⟨List.pairwise_singleton _ _, fun e he => ?_⟩
      rw [List.mem_singleton.1 he]
      exact hv
  | cons a t ih =>
    obtain ⟨j, w⟩ := a
    obtain ⟨hs, hd⟩ := h
    rw [List.pairwise_cons] at hs
    have ht : CellsWf d t := ⟨hs.2, fun e he => hd e (List.mem_cons_of_mem _ he)⟩
    unfold cellsSet
    split
    · next hjk =>
      split
      · exact ht
      · next hv =>
        subst hjk
        refine ⟨List.pairwise_cons.2 ⟨hs.1, hs.2⟩, ?_⟩
        intro e he
        rcases List.mem_cons.1 he with h | h
        · subst h; exact hv
        · exact hd e (List.mem_cons_of_mem _ h)
    · next hjk =>
      split
      · next hlt =>
        split
        · exact ⟨List.pairwise_cons.2 hs, hd⟩
        · next hv =>
          refine ⟨List.pairwise_cons.2 ⟨?_, List.pairwise_cons.2 hs⟩, ?_⟩
          · intro e he
            rcases List.mem_cons.1 he with h | h
            · subst h; exact hlt
            · exact lt_trans hlt (hs.1 e h)
          · intro e he
            rcases List.mem_cons.1 he with h | h
            · subst h; exact hv
            · exact hd e h
      · next hge =>
        obtain ⟨is, id'⟩ := ih ht
        refine ⟨List.pairwise_cons.2 ⟨?_, is⟩, ?_⟩
        · intro e he
          rcases cellsSet_keys d t k v e he with h | h
          · subst h; simp only; omega
          · exact hs.1 e h
        · intro e he
          rcases List.mem_cons.1 he with h | h
          · subst h; exact hd _ List.mem_cons_self
          · exact id' e h

/-- Keeping some of the cells keeps the canonical form. -/
theorem cellsFilter_wf {α : Type} (d : Nat → α) (l : List (Nat × α)) (p : Nat × α → Bool)
    (h : CellsWf d l) : CellsWf d (l.filter p) :=
  ⟨h.1.filter p, fun e he => h.2 e (List.mem_of_mem_filter he)⟩

/-- A table in canonical form; an unlisted key `k` reads `d k`. -/
structure Tbl (α : Type) (d : Nat → α) where
  entries : List (Nat × α)
  wf : CellsWf d entries
deriving DecidableEq, Repr

/-- The table that lists nothing. -/
def Tbl.empty {α : Type} {d : Nat → α} : Tbl α d := ⟨[], by simp [CellsWf]⟩

def Tbl.get {α : Type} {d : Nat → α} (t : Tbl α d) (k : Nat) : α := cellsGet d t.entries k

def Tbl.set {α : Type} [DecidableEq α] {d : Nat → α} (t : Tbl α d) (k : Nat) (v : α) : Tbl α d :=
  ⟨cellsSet d t.entries k v, cellsSet_wf d _ k v t.wf⟩

/-- Drops every entry whose key satisfies `p`, so that it reads as unlisted again. -/
def Tbl.drop {α : Type} {d : Nat → α} (t : Tbl α d) (p : Nat → Bool) : Tbl α d :=
  ⟨t.entries.filter (fun e => !p e.1), cellsFilter_wf d _ _ t.wf⟩

/-- Applies `f` to the value at `k`. -/
def Tbl.upd {α : Type} [DecidableEq α] {d : Nat → α} (t : Tbl α d) (k : Nat) (f : α → α) : Tbl α d :=
  t.set k (f (t.get k))

end Sys2Proof.Machine
end

