-- ==== Sys2Proof/Machine/State.lean ====
section
/-! DEFINITION. The state of the device as plain data: its registers, what the spec gives it beside them, its non-volatile bytes and the queue of waiting commands. -/

namespace Sys2Proof.Machine

/-- A fault message on its way to the collector (R344). -/
structure FaultMsg where
  code : Nat
  inst : Nat := 0
  detail : Word := 0
deriving DecidableEq, Repr

/-- A log record before it is a line of the log (R492, R493). `flags` bit 0 ESC, bit 1 through the RAM buffer, bit 2 in hold-up. -/
structure LogRec where
  type : Nat
  code : Nat := 0
  inst : Nat := 0
  flags : Nat := 0
  time : Nat := 0
  detail : Word := 0
  body : List Byte := []
deriving DecidableEq, Repr

/-- What a stage lane or a hint pair carries: the start delimiter, a byte, four bits of preamble, the end delimiter (R184, R272). -/
inductive StbSym
  | start
  | byte (b : Byte)
  | nibble (n : Nat)
  | stop
deriving DecidableEq, Repr

/-- What the device puts on its interfaces; the outbox lists it in order (log entry 5). -/
inductive Output
  /-- The data a register access returns to its requester; `ok = false` for a failed access (R506). -/
  | data (req : Requester) (off : Nat) (value : Word) (ok : Bool)
  /-- A 64-byte entry written at index `idx` of a ring, at address `addr` of host memory (R417). -/
  | entry (ring idx addr : Nat) (bytes : List Byte)
  /-- A write-back word of a ring: its address in host memory and the index written there (R418). -/
  | writeback (ring addr idx : Nat)
  /-- A read of host memory: a descriptor or the doorbell area (R418, R419, R421). -/
  | hostRead (addr len : Nat)
  /-- An MSI-X message (R428). -/
  | msix (vec : Nat)
  /-- PM_PME, or PCIE_WAKE_N in L2 (R428). -/
  | pme
  | wakePin
  /-- Bytes written to host memory by a command (R424). -/
  | hostWrite (addr : Nat) (bytes : List Byte)
  /-- A PMBus reply (R437, R440); an empty list is a command taken without a reply, NACK is `none`. -/
  | pmbus (reply : Option (List Byte))
  /-- An AVSBus answer: acknowledgement code, data, VDone, status alert and AVSControl (R269). -/
  | avs (port ack data : Nat) (vdone alert control : Bool)
  /-- A frame sent on a hint link (R272, R273). -/
  | hint (link : Nat) (frame : List StbSym)
  /-- A frame sent on a stage lane (R184). -/
  | stage (die lane : Nat) (frame : List StbSym)
  /-- An MCTP message sent on a binding (0 SMBus, 1 PCIe) to an endpoint (R441 to R444). -/
  | mctp (binding eid type : Nat) (body : List Byte)
  /-- A keep-alive word on a die's control channel (R28). -/
  | keepAlive (die : Nat)
deriving DecidableEq, Repr

/-- What the time counter runs from (R43). -/
inductive TimeSource | tb1 | tb0 | osc
deriving DecidableEq, Repr

/-- The time counter and the time bases' timers (R41 to R44). -/
structure TimeHw where
  /-- The 64-bit count of microseconds (R43). -/
  now : Nat := 0
  /-- The 16-bit fraction the counter keeps while it runs from TB0 (R43). -/
  frac : Nat := 0
  source : TimeSource := .tb0
  /-- The count before the counter's last step (R539). -/
  prev : Nat := 0
  /-- Since when TB1 has been present, while the 1 ms to a relock runs (R44). -/
  tb1Back : Option Nat := none
  /-- The slow-logic notice may be raised: SPDIDX has recovered since the last one (R41). -/
  slowArmed : Bool := true
deriving DecidableEq, Repr

/-- What the supplies and domains hold beside PWR (R30 to R35, R517, R518). -/
structure PowerHw where
  /-- AON is powered. -/
  aon : Bool := true
  /-- VAUX33 stands above 3.00 V. -/
  vaux : Bool := true
  /-- VCORE and VANA18 are good (R31). -/
  supplies : Bool := false
  /-- HKA is isolated though powered (R507), in hold-up. -/
  isolated : Bool := false
  /-- The XEN pins are driven: bit r − 32 is the XENPOL with which rail r's pin was last loaded; none, from AON reset until a cold start has loaded the sequence tiles, leaves them high-impedance (R524). -/
  xenPol : Option Nat := none
deriving DecidableEq, Repr

/-- What a phase die and its link hold beside TOP.LINKSTAT (R26 to R28, R33, R482). -/
structure DieHw where
  /-- Leave is held or asked for this die's power-up (R33). -/
  asked : Bool := false
  /-- The link of a powered die is training (R54). -/
  training : Bool := false
  /-- A keep-alive timeout has forced the die's outputs to high-impedance until its next power-up (R28). -/
  silenced : Bool := false
  /-- The collector's trip wire to the die (R24, R349). -/
  tripWire : Bool := false
  /-- Resends of the service flit in progress (R27). -/
  resends : Nat := 0
  /-- The time counter at the last keep-alive word (R28). -/
  keepAlive : Nat := 0
  /-- The filtered level of the trip pins, bit k for pin k (R138). -/
  pins : Nat := 0
  /-- The trip pins whose level TRIP_PIN_CHANGE has reported (R138). -/
  told : Nat := 0
  /-- The die's window trip wire, a bit mask of loops whose rail drives it (R250). -/
  wmWire : Nat := 0
deriving DecidableEq, Repr

/-- A coefficient set, each number in the units of its format (R61, R99). -/
structure CoefSet where
  bsh : Nat := 0
  ish : Nat := 0
  b0 : Int := 0
  b1 : Int := 0
  b2 : Int := 0
  a1 : Int := 0
  a2 : Int := 0
  a3 : Int := 0
  ki : Int := 0
  imin : Int := 0
  imax : Int := 0
deriving DecidableEq, Repr

/-- Feed-forward (R69): armed with a step S and the recorded current sum, by a hint of a link, until a quarter-microsecond count; or firing, with its position in the shape. -/
inductive FeedForward
  | idle
  | armed (step base : Int) (link hid until' : Nat)
  | firing (step : Int) (link hid pos : Nat)
deriving DecidableEq, Repr

/-- What run-ahead takes when it begins: register words, the current sum (Q14.4), the set in use and the feed-forward (R57, R73). -/
structure RunIn where
  ctrl : Word := 0
  soft : Word := 0
  lline : Word := 0
  trband : Word := 0
  trduty : Word := 0
  dclamp : Word := 0
  dlimhw : Word := 0
  clim : Word := 0
  ffcfg : Word := 0
  ilim : Nat := 0
  isum : Int := 0
  set : CoefSet := {}
  ff : FeedForward := .idle
  /-- None of the conditions that leave the window empty held (R70). -/
  mayGuess : Bool := false
deriving DecidableEq, Repr

/-- A swap that waits for a sample boundary (R103, R106). -/
inductive SwapReq
  /-- To another set, by request. -/
  | request (set : Nat)
  /-- To the new contents of a set and its check word, by a commit. -/
  | contents (set : Nat) (c : CoefSet) (crc : Word)
deriving DecidableEq, Repr

/-- A start or stop command on its way to a loop engine (R80). -/
inductive LoopCmd
  | start
  | stop
  /-- Immediate, whatever STOPM is (R330). -/
  | halt
  /-- By the fault collector (R349). -/
  | trip
deriving DecidableEq, Repr

/-- Loop engine n beside LOOP[n] (R57 to R84, R242, R243). -/
structure LoopHw where
  /-- The slew accumulator and the direction VTGT moved in last (R59). -/
  frac : Nat := 0
  dir : Int := 0
  /-- The committed state: the integrator in Q2.38, the histories, and the duty word in UQ0.20 (R61, R62). -/
  integ : Int := 0
  e1 : Int := 0
  e2 : Int := 0
  y1 : Int := 0
  y2 : Int := 0
  y3 : Int := 0
  duty : Nat := 0
  /-- Samples of the transient path since its entry from the linear path; it may not be entered; the next sample is an exit sample (R67, R68). -/
  trn : Nat := 0
  trBlock : Bool := false
  trExit : Bool := false
  /-- The integrator was clipped in the last sample (R66). -/
  clipped : Bool := false
  /-- NOSINK is in force since a start (R81). -/
  noSink : Bool := false
  /-- The next run-ahead makes no speculation (R79, R104). -/
  noSpec : Bool := false
  /-- Consecutive samples with the current-limit ceiling (R65). -/
  ilimN : Nat := 0
  ff : FeedForward := .idle
  /-- A soft stop begins at the next sample (R84). -/
  stopReq : Bool := false
  /-- The error code of the sample in progress, and that of the next when its instant has come before this one's commit (R78, R208). -/
  code : Option Int := none
  next : Option Int := none
  /-- Faults of three consecutive overruns, and of a current-limit ceiling active for ILIMT samples, that are due (R65, R79). -/
  ovrDue : Nat := 0
  ilimDue : Nat := 0
  /-- The run-ahead for the next sample, and its partial sum in units of 2^-60 and load-line term once it is complete (R70). -/
  run : RunIn := {}
  ahead : Option (Int × Int) := none
  /-- The set contents in use, and the swaps that wait (R103). -/
  active : CoefSet := {}
  swaps : List SwapReq := []
  /-- A setpoint accepted in TUNE (R262). -/
  heldSet : Option Nat := none
  /-- When the UV mask and the relative OV hold began to run out (R242, R243). -/
  maskAt : Option Nat := none
  vhiAt : Option Nat := none
  vhi : Nat := 0
deriving DecidableEq, Repr

/-- Where an auto-tune run stands (R108 to R112). -/
inductive TunePhase
  | idle
  /-- Leave has been asked for. -/
  | waiting
  /-- Leave is held; TUNE is entered at the next sample boundary. -/
  | granted
  | running
  /-- The run has ended; RUN follows at the next sample boundary. -/
  | ending
deriving DecidableEq, Repr

/-- The auto-tune run of a loop, with the settings of its START (R107 to R112, R117). -/
structure TuneHw where
  phase : TunePhase := .idle
  since : Nat := 0
  hrel : Nat := 0
  hyst : Nat := 0
  nskip : Nat := 0
  nmeas : Nat := 0
  maxs : Nat := 0
  wait : Nat := 1
  d0 : Nat := 0
  /-- The relay, once the first sample has set it. -/
  high : Option Bool := none
  /-- A cycle has begun: its length, its samples spent high, its least and largest e_eff. -/
  cyc : Option (Nat × Nat × Int × Int) := none
  /-- Sums over the measured cycles: lengths, samples high, and peak-to-peak. -/
  sumLen : Nat := 0
  sumHigh : Nat := 0
  sumPp : Int := 0
deriving DecidableEq, Repr

/-- Where a generator's output stands in its period (R127, R134). -/
inductive GenStage
  /-- Before ON. -/
  | pre
  /-- The dead time at a reload that takes a high output low (R127, "High into a later window"). -/
  | preFall
  /-- From ON to ON + DTR. -/
  | rise
  /-- High, to OFF. -/
  | high
  /-- From OFF to OFF + DTF. -/
  | fall
  /-- After OFF + DTF. -/
  | post
  /-- The refresh pulse: high-impedance, then low (R134). -/
  | refHz
  | refLow
deriving DecidableEq, Repr

/-- What a generator holds beside PWM[p] (R123 to R142). -/
structure GenHw where
  /-- A start command has arrived and no stop (R130). -/
  go : Bool := false
  /-- The output has left high-impedance at a reload since then (R130). -/
  run : Bool := false
  stage : GenStage := .pre
  /-- CMPA of the shadow pair (R125). -/
  cmpA : Nat := 0
  /-- The completed shadow pair that no reload has copied (R125). -/
  cmpPair : Option (Nat × Nat) := none
  /-- The active on-window (R124). -/
  on : Nat := 0
  off : Nat := 0
  /-- The captured overrides (R136). -/
  swap : Bool := false
  inv : Nat := 0
  /-- The active period is under the NOSINK tag or its like (R128). -/
  noSink : Bool := false
  /-- A cycle trip acts in this period: of the peak-current comparator, and of another source (R137, R140). -/
  cycPk : Bool := false
  cyc : Bool := false
  /-- The dead time of a cycle trip that takes a high output low runs, and that of a latched trip that takes a high pin low (R139). -/
  tdead : Bool := false
  pdead : Bool := false
  /-- The level held between an accepted clear and the next reload (R141). -/
  resume : Option Nat := none
  /-- The period began with the output high. -/
  beganHigh : Bool := false
  /-- The output stands in the part of a half-period-shifted window that wraps past P: 0 not, 1 turned on at the reload, 2 carried on across it (R135). -/
  head : Nat := 0
  /-- Consecutive periods without refresh, and whether this period carries a refresh pulse (R134). -/
  boot : Nat := 0
  refDue : Bool := false
  /-- Triggers that have fired in this period, and firings carried into it, bit t for TRIGt (R133). -/
  fired : Nat := 0
  carried : Nat := 0
  /-- The phase error that early reloads leave (R156). -/
  phi : Nat := 0
  /-- A phase being shed goes high-impedance at its next OFF (R161). -/
  shedOff : Bool := false
  /-- An added phase sinks no current yet (R160, R162). -/
  soft : Bool := false
deriving DecidableEq, Repr

/-- A rail duty word on a control lane: the 20-bit fraction and the tag (R60), and the loop's delay class as the word is sent (R25). -/
structure LaneWord where
  duty : Nat
  tag : Nat
  fixed : Bool
deriving DecidableEq, Repr

/-- What a phase holds beside PHS[p], SEG[p], IADC[p] and STB[n].STG[c] (R153 to R172, R190 to R214). -/
structure PhaseHw where
  /-- Declared lost (R164). -/
  lost : Bool := false
  /-- The balance accumulator, Q13.8 fine steps (R158). -/
  acc : Int := 0
  /-- The sum and the number of the balance samples since the last update (R158). -/
  sampleSum : Int := 0
  samples : Nat := 0
  /-- The latest sum result, Q10.4, and whether there is one since the phase last became adding or active (R214, R215). -/
  latest : Int := 0
  fresh : Bool := false
  /-- The ramp of an add or shed: its fraction is ramp ÷ rampOf, and each balance update moves it by rampInc ÷ rampOf, up in an add and down in a shed (R160 to R163). -/
  ramp : Nat := 0
  rampOf : Nat := 1
  rampInc : Nat := 1
  /-- When the wanted counts first were lower than the counts in force (R167). -/
  lowSince : Option Nat := none
  /-- GEN of the last CNTW (R192). -/
  gen : Nat := 0
  /-- The segment manager has a map or count write on the lane or in its queue (R193). -/
  inflight : Bool := false
  /-- The stage is being enumerated, past its IDENT answer (R190). -/
  mapping : Bool := false
  /-- The segment counts that IDENT reported (R187). -/
  hsn : Nat := 0
  lsn : Nat := 0
  /-- A held-back trigger (R212). -/
  iadcWait : Option Nat := none
  /-- Conversions in progress: trigger and DLY (R211, R212). -/
  convs : List (Nat × Bool) := []
  /-- The last result was saturated (R213). -/
  satRun : Bool := false
deriving DecidableEq, Repr

/-- What the segment manager holds of a switch; key 2 p + switch (R166 to R169, R192, R193). -/
structure SwitchHw where
  /-- The count and window start that the stage should have. -/
  wantC : Nat := 0
  wantW : Nat := 0
  /-- A count or window write is due. -/
  due : Bool := false
  /-- The counter when its window last rotated, or its phase started (R169). -/
  rotLast : Nat := 0
  /-- C, W and GEN of the last CNTW naming the switch whose latch has not been reported (R192). -/
  sent : Option (Nat × Nat × Nat) := none
  /-- Chunks whose map must be sent (R193). -/
  chunks : List Nat := []
deriving DecidableEq, Repr

/-- What the phase manager holds of a loop beside PHS[Ln] and SEG[Ln] (R153 to R165). -/
structure LoopPhHw where
  /-- The active phases in ascending rank (R153). -/
  act : List Nat := []
  /-- When the shed condition began to hold (R159). -/
  shedSince : Option Nat := none
  /-- The phase of the procedure that runs. -/
  procPhase : Option Nat := none
  /-- The hint floors, 0 for none (R163, R279). -/
  floorN : Nat := 0
  floorReg : Nat := 0
  /-- The segment table in force, and one that takes effect at the next balance update (R165). -/
  table : List (Nat × Nat × Nat) := []
  tableNext : Option (List (Nat × Nat × Nat)) := none
deriving DecidableEq, Repr

/-- An add, shed or loss command on its way to a die: the position of every active phase, and the phases that start (R155). -/
structure IlvCmd where
  targets : List (Nat × Nat)
  added : List Nat
  removed : List Nat
  /-- A transient add: no ramp (R163). -/
  transient : Bool
deriving DecidableEq, Repr

/-- A changed health-map tile that is not written (R172). -/
structure DirtyTile where
  since : Nat
  failed : Bool
deriving DecidableEq, Repr

/-- A word on a control lane: a rail duty word, or one of the loop-state commands: an add, shed or loss, a start with the position of every phase of the die that starts, or a stop (R25, R130). -/
inductive CtlWord
  | duty (w : LaneWord)
  | ilv (c : IlvCmd)
  | start (positions : List (Nat × Nat))
  | stop
deriving DecidableEq, Repr

/-- A request on a stage-bus lane (R187 to R199). Map and count payloads are formed when the frame is sent. -/
inductive StbJob
  | reset (addr : Nat)
  | ident (addr : Nat)
  /-- With `fill = some (state, n)` the n + 1 chunks from `chunk` take a state (R191). -/
  | mapw (addr sw chunk : Nat) (fill : Option (Nat × Nat))
  /-- The switches named: high side, low side; GEN when it was sent. -/
  | cntw (addr : Nat) (hs ls : Bool)
  /-- `poll` for the periodic read (R196). -/
  | stat (addr : Nat) (poll : Bool)
  | fltr (addr : Nat)
  | relay (addr op : Nat) (payload : List Byte)
deriving DecidableEq, Repr

/-- A request whose last attempt failed, waiting for its repeat: its client, SEQ, failed attempts and payload (R189). -/
structure StbTx where
  client : Nat
  job : StbJob
  seq : Nat
  tries : Nat
  payload : List Byte
deriving DecidableEq, Repr

/-- What a lane holds; lane l of die n at key 4 n + l (R188 to R199). -/
structure LaneHw where
  /-- The transaction in progress: its request, its SEQ and its failed attempts. -/
  cur : Option (StbJob × Nat × Nat) := none
  /-- The payload of the transaction in progress: its client is the one served last. -/
  curPl : List Byte := []
  /-- Requests to repeat, at most one of each client (R188, R189). -/
  again : List StbTx := []
  /-- The requests of the segment manager, the alert service and the relay. -/
  segQ : List StbJob := []
  alertQ : List StbJob := []
  relay : Option StbJob := none
  /-- The client served last: 0 segment manager, 1 relay, 2 alert service (R49). -/
  last : Nat := 2
  /-- The sequence bits, bit a for address a (R189). -/
  seq : Nat := 0
  /-- The addresses whose enumeration waits out the 100 µs after RESET, and when the wait began (R190). -/
  waitEnum : List (Nat × Nat) := []
  /-- The stage read last by the alert service, and the reads since a reason was last reported (R196). -/
  rr : Nat := 7
  quiet : Nat := 0
  /-- Events of the last good FLTR answer, by address (R195). -/
  pops : List Nat := [0, 0, 0, 0, 0, 0, 0, 0]
deriving DecidableEq, Repr

/-- What a sequenced converter runs. -/
inductive SqRun
  | idle
  /-- Sequence entry e. -/
  | entry (e : Nat)
  /-- The injection of a slot. -/
  | inject (slot : Nat)
  /-- A calibration step: 0 zero, 1 full. -/
  | cal (step : Nat)
deriving DecidableEq, Repr

/-- An injection that holds a slot (R223). -/
structure SqInj where
  slot : Fin 4
  entry : Nat
  /-- It was pending when the zero request was written (R226). -/
  old : Bool := false
  /-- The rail whose window pair it confirms (R249). -/
  confirm : Option Nat := none
deriving DecidableEq, Repr

/-- The settings and coefficients that a conversion started under (R226, R229). -/
structure SqSet where
  cfg : Word := 0
  ofs : Int := 0
  gain : Nat := 0x400000
deriving DecidableEq, Repr

/-- What a sequenced converter holds beside SQ[x] (R220 to R229). -/
structure SqHw where
  run : SqRun := .idle
  inUse : SqSet := {}
  /-- A pass is in progress, and the entry that comes next. -/
  pass : Bool := false
  next : Nat := 0
  /-- A START is held (single mode). -/
  startHeld : Bool := false
  /-- The sequence has been stopped. -/
  stopped : Bool := true
  /-- A pass was due while one ran (R222). -/
  slipped : Bool := false
  /-- When the last pass was due. -/
  passAt : Nat := 0
  /-- The accepted injections that have not completed, in request order. -/
  injs : List SqInj := []
  /-- Hardware requests that wait for a slot: the rail and the entry. -/
  hwWait : List (Nat × Nat) := []
  /-- No request has taken a slot since the last cold start (R223). -/
  fresh : Bool := true
  /-- The calibration that holds the converter: 0 none, 1 waiting for injections, 2 zero step, 3 zero done, 4 full step (R226). -/
  calPhase : Nat := 0
  calEntry : Nat := 0
  calZero : Int := 0
  /-- The time of the zero request and the hold in force. -/
  calAt : Nat := 0
  calHold : Nat := 1
  /-- The averaging in force: 2^calAvg outputs a step (R225, R237). -/
  calAvg : Nat := 0
  /-- Sequence settings of a commit that take effect at the next pass: the tile's payload (R229). -/
  nextTile : Option (List Byte) := none
deriving DecidableEq, Repr

/-- Where a hint of a link stands (R276 to R283). -/
inductive HintPhase
  /-- Behind another hint, or before its checks at the head. -/
  | queued
  /-- At the head, waiting for a loop to leave TUNE (R280 cause 0x03). -/
  | tuning
  /-- Leave has been asked for. -/
  | asked
  /-- Granted, until the floors end. -/
  | holding
deriving DecidableEq, Repr

/-- A hint queued, deferred or holding (R276). -/
structure Hint where
  hid : Nat
  /-- RMASK, STEP and LEAD as received. -/
  mask : Nat
  step : Int
  lead : Nat
  phase : HintPhase := .queued
  /-- A DEFER was sent; its cause. -/
  deferred : Option Nat := none
  /-- The time counter at the end of its frame, and at its GRANT. -/
  at' : Nat := 0
  grantAt : Nat := 0
  /-- GLAT and READY of its grant (R278, R279). -/
  glat : Nat := 0
  readyIn : Nat := 0xffff
  /-- KPW, PRIO, GHOLD and DEFT when it was received (R291). -/
  kpw : Nat := 256
  prio : Nat := 0
  hold : Nat := 0
  deft : Nat := 1
  /-- The sums of the named loops at its receipt, by hint select, and whether the early step has been counted (R284). -/
  sums : List Int := [0, 0, 0, 0]
  early : Bool := false
  /-- The floors it set, by hint select: N_f and the region (R277). -/
  floors : List (Nat × Nat) := [(0, 0), (0, 0), (0, 0), (0, 0)]
deriving DecidableEq, Repr

/-- A hint link beside HINT[l] (R271 to R286). -/
structure HintHw where
  /-- Its hints in arrival order. -/
  hints : List Hint := []
  /-- The frames sent last, the newest first: kind, HID, argument, and its collisions (R274). -/
  tx : List (Nat × Nat × Nat × Nat) := []
  /-- When the refusal pulse on LHALERT began (R282). -/
  pulse : Option Nat := none
  /-- The holding hint that LAT describes (R279, R293). -/
  ready : Option Nat := none
deriving DecidableEq, Repr

/-- An AVSBus port beside AVS[k] (R266 to R270). -/
structure AvsHw where
  /-- The held voltage in LSB and slew in µV/µs, by select (R268). -/
  holdV : List (Option Nat) := [none, none, none, none]
  holdS : List (Option Nat) := [none, none, none, none]
  /-- A reset of the voltage and a status write that are held, by select. -/
  holdR : List Bool := [false, false, false, false]
  holdE : List Bool := [false, false, false, false]
  /-- A refusal or clip since the last status write (R269). -/
  alert : Bool := false
deriving DecidableEq, Repr

/-- Who asks the budget arbiter for leave (R305). A hint is named by its link and HID, so that each leave it holds is known. -/
inductive Asker
  | rail (r : Nat)
  | die (n : Nat)
  | hint (l hid : Nat)
  | tune (n : Nat)
  | nvm
deriving DecidableEq, Repr

/-- A request: peak in W, duration in µs, priority (R305). -/
structure Ask where
  who : Asker
  peak : Nat
  dur : Nat
  prio : Nat
deriving DecidableEq, Repr

/-- A waiting request: its order of arrival, and the arbiter's input-ON time when it arrived (R307, R310). -/
structure BudReq where
  ask : Ask
  stamp : Nat
  onAt : Nat
  /-- It arrived while the input was not ON, and has not had the test of R308. -/
  untested : Bool
deriving DecidableEq, Repr

/-- A leave: the asker, its peak, and when its duration ends (R309). -/
structure Leave where
  who : Asker
  peak : Nat
  until' : Nat
deriving DecidableEq, Repr

/-- The budget arbiter beside BUD (R305 to R310). -/
structure BudHw where
  queue : List BudReq := []
  held : List Leave := []
  stamp : Nat := 0
  /-- The most recent grant: its peak and instant (R306). -/
  last : Option (Nat × Nat) := none
  /-- Input-ON time: what had run when the input last left ON, and when it came on. -/
  onAcc : Nat := 0
  onSince : Option Nat := none
deriving DecidableEq, Repr

/-- One sample of the input monitor: VIN and VOUT in µV, IIN in µA (R294). -/
structure InSample where
  vin : Nat
  vout : Nat
  iin : Int
deriving DecidableEq, Repr

/-- What holds HSGATE low: the AON clamp while HKA is off, the normal or the fast pull-down (R30, R527). -/
inductive PullDown | clamp | normal | fast
deriving DecidableEq, Repr

/-- The hot-swap block beside HSW (R294 to R304). Times are those of the time counter. -/
structure HswHw where
  /-- The samples, newest first; 255 are enough for every mean (R294, R306). -/
  hist : List InSample := []
  /-- When the QUALT timer last restarted (R297). -/
  qualAt : Nat := 0
  /-- When the state last became INRUSH or ON. -/
  inAt : Nat := 0
  onAt : Nat := 0
  /-- The gate drive is at its full level, and since when both input-good conditions hold (R298). -/
  full : Bool := false
  goodAt : Option Nat := none
  /-- Consecutive samples below UVTH, above OVTH, above ICB and above ISHORT (R299, R301, R304). -/
  uvN : Nat := 0
  ovN : Nat := 0
  cbN : Nat := 0
  shN : Nat := 0
  /-- The SOA accumulator in 10^-18 J (R302). -/
  soa : Int := 0
  /-- When the gate last went low, and when the last trip came (R303, R304). -/
  lowAt : Option Nat := none
  /-- The pull-down by which the gate went low last (R527). -/
  pull : PullDown := .normal
  tripAt : Option Nat := none
  /-- The input energy since cold start in 10^-18 J (R315). -/
  energy : Int := 0
  /-- A restart after re-qualification is due at ON (R336). -/
  requal : Bool := false
deriving DecidableEq, Repr

/-- Rail r of the sequencer beside SEQ.RAIL[r] (R317 to R336). -/
structure RailHw where
  /-- It has been ordered to stop, and what its stop ends in: LATCHED, and the cause (R329 to R335). -/
  ordered : Bool := false
  latch : Bool := false
  cause : Nat := 0
  /-- In WAIT: the later of its entry and the instant its dependencies became met (R322). -/
  metAt : Option Nat := none
  /-- When it was released (R323). -/
  relAt : Nat := 0
  /-- Leave has been asked for and not answered; leave is held (R323). -/
  asked : Bool := false
  leave : Bool := false
  /-- Since when the raw good signal has been true in RAMP (R326). -/
  goodAt : Option Nat := none
  /-- When its stop step began, and when its last stop step since the cold start ended (R329, R330). -/
  stepAt : Nat := 0
  endAt : Option Nat := none
  /-- The stop step's timeout has passed (R330). -/
  late : Bool := false
  /-- QUALTO as its release took it, DWELL and CHATLIM as its start step, STOPTO as its stop step: a commit acts at the next step (R320). -/
  qualto : Nat := 0
  dwell : Nat := 0
  chatlim : Nat := 0
  stopto : Nat := 0
  /-- It has failed since its release or its start as a rail of a stop in progress: one failure is recorded once (R331). -/
  failed : Bool := false
  /-- The filtered level of XPG[r] (R325). -/
  xpg : Bool := false
deriving DecidableEq, Repr

/-- Domain d beside SEQ.DOM[d] (R324, R332, R356). -/
structure DomHw where
  /-- A native latch is in force (R332). -/
  ownLatch : Bool := false
  /-- It has reached UP since the cold start began (R356). -/
  upOnce : Bool := false
  /-- A CLR was accepted and no START since; a START in the recovery window runs (R356). -/
  cleared : Bool := false
  recovering : Bool := false
deriving DecidableEq, Repr

/-- The sequencer's own state (R333, R335). -/
structure SeqHw where
  /-- A safe-state or F3 stop has run: CLR is refused (R333, R335). -/
  safeStop : Bool := false
deriving DecidableEq, Repr

/-- A fault-table entry beside FLT.ENT[i] (R345, R352). -/
structure EntHw where
  /-- When the escalation timer started. -/
  timer : Option Nat := none
  /-- The detail word of its raise, for the record of an escalation. -/
  detail : Word := 0
  /-- The order in which entries were taken. -/
  stamp : Nat := 0
  /-- When its timer escalated it (R365). -/
  escAt : Option Nat := none
deriving DecidableEq, Repr

/-- A stop that the collector has ordered: its instant, and whether it has ended, at ALLOFF or at SAFETO (R349, R350). -/
structure FaultStop where
  since : Nat
  done : Bool := false
deriving DecidableEq, Repr

/-- The fault collector beside FLT (R344 to R365). -/
structure FltHw where
  stamp : Nat := 0
  /-- The F3 stop and the safe state's. -/
  stop3 : Option FaultStop := none
  stopS : Option FaultStop := none
  /-- The guard windows that are open, the most recent first: 1 start-up, 2 warm start, 3 test, 4 recovery (R356). -/
  windows : List Nat := [1]
  /-- The armed injection: its target, whether the checker reports inverted check bits, and when it was armed (R359). -/
  inj : Option (Nat × Bool × Nat) := none
  /-- A cold start is requested and held (R362). -/
  coldHeld : Bool := false
  /-- The FLT configuration has not been loaded since the cold start began (R355). -/
  unloaded : Bool := true
  /-- The port that the round-robin at the collector looks at first (R344). -/
  port : Nat := 1
deriving DecidableEq, Repr

/-- What thermal management holds beside THM (R373 to R382). -/
structure ThermHw where
  /-- AON: the times of the last three shutdowns, newest first (R380). -/
  times : List Nat := []
  /-- AON: the last reading of each hub sensor, Q9.3 °C in 12 bits (R379). -/
  hub : List Nat := [0, 0, 0, 0, 0, 0, 0, 0]
  /-- AON: when cooling began (R379). -/
  coolAt : Nat := 0
  /-- CORE: the sensors that have entered their warning and not re-armed, bit i for sensor i (R374). -/
  warm : Nat := 0
  /-- CORE: when the last cross-check round ran (R375). -/
  roundAt : Nat := 0
  /-- CORE: the write window has closed since the last drain, and DROPCNT at that drain (R381, R382). -/
  closed : Bool := false
  dropBase : Nat := 0
deriving DecidableEq, Repr

/-- What the event hub holds of a source beside SRC[s].STATE (R391, R394, R397). -/
structure SrcHw where
  /-- Pending: it may be routed as soon as it is enabled. -/
  ready : Bool := false
  /-- In service, with a doorbell since the claim that its group has released. -/
  released : Bool := false
  /-- A doorbell since its group's last release. -/
  unreleased : Bool := false
  /-- The order in which sources last became pending. -/
  stamp : Nat := 0
deriving DecidableEq, Repr

/-- The event hub's own state (R397, R404). -/
structure EvhHw where
  /-- The next order number of a source that becomes pending. -/
  stamp : Nat := 0
  /-- Each processor's winner. -/
  winners : List (Option Nat) := [none, none, none, none]
  /-- Whether a tie decided each processor's route. -/
  ties : List Bool := [false, false, false, false]
  /-- A source that wakes POL, which is asleep (R404). -/
  wake : Option Nat := none
  /-- The CTRL words of the processors at POL sleep entry (R404, R405). -/
  slept : List Word := []
  /-- A wake whose source has not been routed yet (WAKEST.PP). -/
  wakeRoute : Option Nat := none
  /-- The processors' wake lines, bit k for PP[k] (R404). -/
  wakeLines : Nat := 0
  /-- The doorbell port from which the round-robin looks next: port 0 is the hub's, port n die n's (R49, R389). -/
  port : Nat := 0
deriving DecidableEq, Repr

/-- A command of a command ring that has been fetched and not completed (R421, R426). -/
structure HostCmd where
  opcode : Nat
  tag : Nat
  nocpl : Bool
  irq : Bool
  /-- CPLSEL at its fetch: the ring in which its completion slot is reserved. -/
  cpl : Fin 8
  /-- The function has lost its link since: the completion is discarded (R416). -/
  dead : Bool := false
  /-- A policy command's descriptor, when it was fetched, and its mailbox slot (R426, R454). -/
  desc : List Byte := []
  since : Nat := 0
  slot : Option Nat := none
deriving DecidableEq, Repr

/-- What a ring holds beside its registers (R427, R430). Ring x: 0 to 7 CMD, 8 to 15 CPL, 16 EVT, 18 to 21 TEL. -/
structure RingHw where
  /-- P: the entries written since the last signal. -/
  unsig : Nat := 0
  /-- The time counter when the first of them was written. -/
  first : Nat := 0
  /-- The next entry of the ring carries LOSS = 1. -/
  loss : Bool := false
  /-- The ring's command that has not completed. -/
  busy : Option HostCmd := none
  /-- Slots of a completion ring reserved for commands in progress (R421). -/
  reserved : Nat := 0
deriving DecidableEq, Repr

/-- An entry that waits for the function to return to D0 (R429): its ring, its bytes without PHASE, and whether it signals at once. -/
structure HeldEntry where
  ring : Nat
  bytes : List Byte
  irq : Bool
deriving DecidableEq, Repr

/-- The PCIe function's state beside HIF (R414, R419, R428 to R430). -/
structure HifHw where
  busMaster : Bool := false
  msixEn : Bool := false
  funcMask : Bool := false
  pmeEn : Bool := false
  evSeq : Nat := 0
  held : List HeldEntry := []
  heldEvents : Nat := 0
  pollBusy : Bool := false
  kickAgain : Bool := false
  /-- The command ring that the fetcher visits, and the descriptors it has taken there (R421). -/
  visit : Nat := 0
  fetched : Nat := 0
  /-- The count at which telemetry records were produced last, and how many at that count (R433). -/
  telAt : Nat := 0
  telSent : Nat := 0
  /-- The telemetry queue: records produced and not yet written (R433). -/
  telQ : List HeldEntry := []
  /-- Subsystem Vendor ID and Subsystem ID, taken at cold start (R413). -/
  subsystem : Nat × Nat := (0, 0)
deriving DecidableEq, Repr

/-- A telemetry source's record that is being filled, and its counts (R431, R432). -/
structure TelHw where
  words : List Word := []
  start : Nat := 0
  /-- Values the source has produced, for the choice of every 2^DEC-th. -/
  seen : Nat := 0
  /-- DEC, and the stream, when the record began. -/
  dec : Nat := 0
  strm : Nat := 0
deriving DecidableEq, Repr

/-- A telemetry stream: the records it has produced. -/
structure StreamHw where
  seq : Nat := 0
deriving DecidableEq, Repr

/-- PMBus beside PMB (R435 to R440): the latched status bits, each with the set of pages that hold it: bit b of byte j at key 8 j + b with j 0 VOUT, 1 IOUT, 2 INPUT, 3 TEMPERATURE, 4 CML, 5 MFR_SPECIFIC; and MFR_REG_ADDR. -/
structure PmbHw where
  status : Tbl Nat (fun _ => 0) := Tbl.empty
  regAddr : Nat := 0
deriving DecidableEq, Repr

/-- A message in reassembly (R441): its binding, source endpoint and tag with the tag owner, the next packet sequence number, and the bytes so far. -/
structure MctpPart where
  binding : Nat
  src : Nat
  tag : Nat
  seq : Nat
  body : List Byte
deriving DecidableEq, Repr

/-- A whole message that waits to be answered: its first body byte is the message type. -/
structure MctpMsg where
  binding : Nat
  src : Nat
  tag : Nat
  body : List Byte
deriving DecidableEq, Repr

/-- What the SPDM responder holds of a binding (R443, R444): how far the connection stands (0 none, 1 version, 2 capabilities, 3 algorithms), the transcripts, and a large response in chunks. -/
structure SpdmConn where
  stage : Nat := 0
  /-- The requests and responses of VCA, of GET_DIGESTS to CHALLENGE, and of the measurement exchange. -/
  vca : List Byte := []
  cert : List Byte := []
  meas : List Byte := []
  /-- The requester accepts chunks, its DataTransferSize, and the response that goes in chunks: its handle, its bytes, those sent, and the next chunk's number. -/
  chunks : Bool := false
  size : Nat := 4096
  handle : Nat := 0
  large : Option (List Byte) := none
  sent : Nat := 0
  chunk : Nat := 0
deriving DecidableEq, Repr

/-- A response that waits for the identity engine's signature (R444). -/
structure SignJob where
  binding : Nat
  src : Nat
  tag : Nat
  /-- The response without its signature, and the transcript that is signed. -/
  body : List Byte
  transcript : List Byte
deriving DecidableEq, Repr

/-- MCTP and SPDM (R441 to R444). -/
structure MctpHw where
  parts : List MctpPart := []
  inbox : List MctpMsg := []
  spdm : Tbl SpdmConn (fun _ => {}) := Tbl.empty
  signing : List SignJob := []
deriving DecidableEq, Repr

/-- A mailbox slot beside FW.MBSTAT and MBOWN: the ring whose command it holds, and the processor whose late MBDONE is still to come (R454, R455). -/
structure MailSlot where
  ring : Option Nat := none
  /-- The processor that held the slot when PTO freed it, until its MBDONE comes, and whether PTO has freed the slot since it was last posted (R455). -/
  late : Option Nat := none
  timedOut : Bool := false
deriving DecidableEq, Repr

/-- The policy processors' starts (R452, R459, R465, R466). -/
structure FwHw where
  /-- The image memory: header and body of the image loaded last. -/
  image : List Byte := []
  /-- The processors run, released from reset; and when, while BOOTTO runs. -/
  released : Bool := false
  /-- The entry point at which they started last, a byte offset in the body of the image: cold, warm or resume (R452). -/
  entry : Nat := 0
  bootAt : Option Nat := none
  /-- The slot that ran before the warm start, whether this warm start has already returned to it, and the ring whose IMAGE_ACTIVATE waits. -/
  prevSlot : Nat := 0
  retried : Bool := false
  warmRing : Option Nat := none
  /-- Step 8 of the cold start has begun, and step 9 is done (R459). -/
  diesStep : Bool := false
  autoDone : Bool := false
  /-- The die for whose power-up step 8 waits (R31 step 7). -/
  dieSeq : Option Nat := none
deriving DecidableEq, Repr

/-- Who writes the NVM, in the port's priority order (R49); boot control and the enrolled key come last (log entry 11). -/
inductive Writer | log | tile | map | image | boot
deriving DecidableEq, Repr

/-- Bytes to be written within one 64-byte line (R488). -/
structure NvmLine where
  addr : Nat
  data : List Byte
deriving DecidableEq, Repr

/-- What a sequence of line writes belongs to. -/
inductive JobKind
  /-- A staged tile: its kind and index, the place of its frame, and the ring whose TILE_STAGE it is, or none for STGCTL. -/
  | stage (kind index frame : Nat) (ring : Option Nat)
  /-- The commit record, step 3 of R485. -/
  | record
  /-- The copy of a segment-map tile from the staging area, step 5. -/
  | copy (tile : Nat)
  /-- The DONE mark of the commit record. -/
  | done
  /-- A health-map tile's flush (R172). -/
  | map (tile : Nat)
  /-- Image bytes of IMAGE_STAGE, with the ring that waits and the slot. -/
  | image (ring slot : Nat)
  /-- A scrub repair. -/
  | repair
  /-- Boot control's copies, or the enrolled owner key (R462, R487). -/
  | boot
  /-- The segment-map copy that a cold start completes (R486). -/
  | redo
deriving DecidableEq, Repr

structure NvmJob where
  writer : Writer
  kind : JobKind
  lines : List NvmLine
  /-- Since when its line in front waits at the port. -/
  since : Nat
deriving DecidableEq, Repr

/-- Whether a burst holds leave (R489). -/
inductive BurstLeave | none | asked | held | refused
deriving DecidableEq, Repr

/-- A staged tile: its kind and index, and its frame: bank × 256 + position for a configuration tile, a staging frame for a segment-map tile (R484). -/
structure StagedTile where
  kind : Nat
  index : Nat
  frame : Nat
deriving DecidableEq, Repr

/-- A tile of the configuration table: its position, payload and check word (R483). -/
structure CfgTile where
  pos : Nat
  payload : List Byte
  check : Word
deriving DecidableEq, Repr

/-- A commit past its step 1 (R485): the rings that wait, the configuration it makes live, the positions it changes, its segment-map tiles (tile number and payload), digest and bank bitmap. -/
structure CommitRun where
  ring : Option Nat
  tiles : List CfgTile
  changed : List Nat
  maps : List (Nat × List Byte)
  digest : List Byte
  banks : Nat
deriving DecidableEq, Repr

/-- What the log writer, the NVM port and the tile store hold (R484 to R498). -/
structure StoreHw where
  /-- Log records that wait to be written, oldest first (R382). -/
  logBuf : List LogRec := []
  /-- Since when the log writer's record in front waits at the port. -/
  logSince : Nat := 0
  /-- The slot of the log that the next record takes (R495). -/
  logSlot : Nat := 0
  /-- The log writer waits for a new record after a failed write (R56, R488). -/
  logFailed : Bool := false
  jobs : List NvmJob := []
  /-- Failed writes of the line in progress, and its writer (R488). -/
  tries : Nat := 0
  trying : Option Writer := none
  /-- When the port wrote its last line (R489). -/
  lineAt : Option Nat := none
  leave : BurstLeave := .none
  /-- A drain after a window closing that owes its drop summary (R382). -/
  drainOwed : Bool := false
  /-- The 1 ms interval of the time counter in which F0 records are counted, and their number (R363). -/
  f0Slot : Nat := 0
  f0Count : Nat := 0
  /-- Hold-up: the closing record is still to be written, and the records written so far (R311, R493). -/
  closing : Bool := false
  holdCount : Nat := 0
  /-- Staged tiles (R484). -/
  staged : List StagedTile := []
  /-- A commit past its step 1. -/
  commit : Option CommitRun := none
  /-- The journal slot of the last valid commit record (R487). -/
  journal : Nat := 31
  /-- The bank bitmap of the committed configuration, bit i for position i. -/
  banks : Nat := 0
  /-- CORE's copy of the committed configuration: the present tiles in ascending position (R321, R482). -/
  committed : List CfgTile := []
  /-- Health-map tiles that failed the cold-start scan: all their segments are failed (R497). -/
  badMap : List Nat := []
  /-- Weak and failed segments of the previous power cycle's log: phase, switch, segment, state (R172). -/
  replay : List (Nat × Nat × Nat × Nat) := []
  /-- The position of the scrub in its pass (R498). -/
  scrubPos : Nat := 0
deriving DecidableEq, Repr

/-- CORE's copy of boot control and of the enrolled owner key, which the cold start takes from the non-volatile memory (R462, R487), and AON's record of a hold-up (R312). -/
structure BootCtl where
  bootsel : Nat := 0
  minsvn : Nat := 0
  cscnt : Nat := 0
  holdup : Bool := false
  /-- The slots whose last activation had RAISE, bit s for slot s (R458, R463). -/
  raise : Nat := 0
  /-- The enrolled owner key, x then y, and OWNERONLY, from the identity tiles (R462). -/
  owner : Option (List Byte) := none
  ownerOnly : Bool := false
deriving DecidableEq, Repr

/-- Everything but the non-volatile bytes and the queue. -/
structure Chip where
  /-- Every register of R503 and R504, keyed by its BAR0 offset. -/
  regs : Tbl Word resetWord := Tbl.empty
  /-- The time counter and its sources (R41 to R46). -/
  time : TimeHw := {}
  /-- The supplies and domains (R30 to R37). -/
  power : PowerHw := {}
  /-- Die n at key n, 1 to 7. -/
  dies : Tbl DieHw (fun _ => {}) := Tbl.empty
  /-- Consecutive discarded control words of loop n on die d at key 32 d + n (R27). -/
  discards : Tbl Nat (fun _ => 0) := Tbl.empty
  /-- One more than the count at the last instant of an activity of R539, or at its enabling: the window pair of rail r at key r, the balance update of loop n at 64 + n, the input monitor at 96, host polls at 97. -/
  grid : Tbl Nat (fun _ => 0) := Tbl.empty
  /-- The loop from which a control lane's round-robin looks next: downstream lane l of die d at key 8 d + l, upstream at 64 + 8 d + l (R25, R49). -/
  laneTurn : Tbl Nat (fun _ => 0) := Tbl.empty
  /-- The snapshot latches of R510: key 64 × requester + word. -/
  snap : Tbl Word (fun _ => 0) := Tbl.empty
  /-- The sources whose doorbell message waits, in the order in which each began to wait (R39, R389). -/
  bellOrder : List Nat := []
  /-- Fault messages waiting at the collector's ports (R344). -/
  faultQ : List FaultMsg := []
  /-- Repeat counts of the doorbell messages waiting at the ports, by source (R389). -/
  bells : Tbl Nat (fun _ => 0) := Tbl.empty
  /-- What the device has put on its interfaces, oldest first (log entry 5). -/
  outbox : List Output := []
  /-- The MODEL'S OWN counter that picks the next free value (log entry 7). -/
  freeCtr : Nat := 0
  /-- Loop engine n at key n. -/
  loops : Tbl LoopHw (fun _ => {}) := Tbl.empty
  /-- Auto-tune of loop n at key n. -/
  tunes : Tbl TuneHw (fun _ => {}) := Tbl.empty
  /-- The shadow of COEF storage, same keys: contents with their check word, or a set becoming invalid, live at the loop's next sample boundary (R101). -/
  shadows : Tbl (Option (Option (CoefSet × Word))) (fun _ => none) := Tbl.empty
  /-- COEF storage: set s of loop n at key 4 n + s (R101). -/
  coefs : Tbl CoefSet (fun _ => {}) := Tbl.empty
  /-- Start and stop commands on their way to the loop engines, oldest first (R80). -/
  loopCmds : List (Nat × LoopCmd) := []
  /-- Generator p at key p (R123 to R142). -/
  gens : Tbl GenHw (fun _ => {}) := Tbl.empty
  /-- The hold registers of fixed-class loops, same keys (R76). -/
  holds : Tbl (Option LaneWord) (fun _ => none) := Tbl.empty
  /-- The tag of the loop's last word on a die, same keys (R156, R158). -/
  lastTag : Tbl Nat (fun _ => 0) := Tbl.empty
  /-- Phase p at key p. -/
  phases : Tbl PhaseHw (fun _ => {}) := Tbl.empty
  /-- The switches: high side of phase p at key 2 p, low side at 2 p + 1. -/
  switches : Tbl SwitchHw (fun _ => {}) := Tbl.empty
  /-- The phase manager, loop n at key n. -/
  loopPh : Tbl LoopPhHw (fun _ => {}) := Tbl.empty
  /-- Control words on their way, oldest first: loop n to die d at key 32 d + n (R25, R123, R155). -/
  lanes : Tbl (List CtlWord) (fun _ => []) := Tbl.empty
  /-- MEAN writes on their way, Q14.4, same keys (R157). -/
  means : Tbl (Option Int) (fun _ => none) := Tbl.empty
  /-- The dies' working copies of the health map: byte b of tile t at key 256 t + b (R170). -/
  mapBytes : Tbl Byte (fun _ => 0) := Tbl.empty
  /-- Changed tiles of the health map by number (R172). -/
  dirtyTiles : Tbl (Option DirtyTile) (fun _ => none) := Tbl.empty
  /-- Stage-bus lanes, lane l of die n at key 4 n + l. -/
  stbLanes : Tbl LaneHw (fun _ => {}) := Tbl.empty
  /-- Health-map tiles that failed their check at use: their segments are sent masked (R496). -/
  badTiles : List Nat := []
  /-- The stage of a phase has entered its warning and not re-armed (R374). -/
  stgWarm : Tbl Bool (fun _ => false) := Tbl.empty
  /-- When each stage was last read by the periodic STAT, by phase (R196). -/
  pollDue : Tbl Nat (fun _ => 0) := Tbl.empty
  /-- Current sums on their way, Q14.4: loop n of die d at key 32 d + n (R215). -/
  sumLanes : Tbl (List Int) (fun _ => []) := Tbl.empty
  /-- The last sum that the hub received, same keys. -/
  sums : Tbl Int (fun _ => 0) := Tbl.empty
  /-- The sum has been renewed since the previous run-ahead began, same keys. -/
  renewed : Tbl Bool (fun _ => false) := Tbl.empty
  /-- Sequenced converter x at key x (R220 to R229). -/
  sqs : Tbl SqHw (fun _ => {}) := Tbl.empty
  /-- Rail r: when SQH0 or SQH1 last gave a result on its sense input, in µs plus 1, the result, and its gain code (R437). -/
  senseRes : Tbl (Nat × Nat × Nat) (fun _ => (0, 0, 0)) := Tbl.empty
  /-- Error converter n: 1 in a run of +2,047, 2 in a run of −2,048 (R209). -/
  satRuns : Tbl Nat (fun _ => 0) := Tbl.empty
  /-- Hint link l at key l. -/
  hintHw : Tbl HintHw (fun _ => {}) := Tbl.empty
  /-- AVSBus port k at key k. -/
  avsHw : Tbl AvsHw (fun _ => {}) := Tbl.empty
  /-- The budget arbiter (R305 to R310). -/
  bud : BudHw := {}
  /-- The hot-swap block (R294 to R304). -/
  hsw : HswHw := {}
  /-- Requests for leave on their way to the arbiter (R305). -/
  asks : List Ask := []
  /-- Withdrawals on their way (R308). -/
  drops : List Asker := []
  /-- Done reports on their way (R309). -/
  dones : List Asker := []
  /-- Rail r at key r. -/
  rails : Tbl RailHw (fun _ => {}) := Tbl.empty
  /-- Domain d at key d. -/
  doms : Tbl DomHw (fun _ => {}) := Tbl.empty
  /-- The sequencer (R317 to R338). -/
  seq : SeqHw := {}
  /-- Consecutive ticks for which window pair r has been UNDET (R249). -/
  undet : Tbl Nat (fun _ => 0) := Tbl.empty
  /-- Fault-table slot i at key i. -/
  ents : Tbl EntHw (fun _ => {}) := Tbl.empty
  /-- The fault collector (R344 to R365). -/
  flt : FltHw := {}
  /-- Thermal management (R373 to R382). -/
  therm : ThermHw := {}
  /-- Source s at key s (R391). -/
  srcs : Tbl SrcHw (fun _ => {}) := Tbl.empty
  /-- The time counter when group g's timer started (R394). -/
  groupStart : Tbl Nat (fun _ => 0) := Tbl.empty
  /-- The event hub (R389 to R407); PP[k] registers stand for the live and the retained copy alike (R405). -/
  evh : EvhHw := {}
  /-- Ring x at key x (R417). -/
  rings : Tbl RingHw (fun _ => {}) := Tbl.empty
  /-- The PCIe function (R413 to R430). -/
  hif : HifHw := {}
  /-- Telemetry sources, keyed by 1024 × KIND + 2 × instance + trigger (R431). -/
  tels : Tbl TelHw (fun _ => {}) := Tbl.empty
  /-- Streams TEL0 to TEL3. -/
  streams : Tbl StreamHw (fun _ => {}) := Tbl.empty
  /-- PMBus (R435 to R440). -/
  pmb : PmbHw := {}
  /-- MCTP and SPDM (R441 to R444). -/
  mctp : MctpHw := {}
  /-- The policy processors' starts (R452 to R467). -/
  fw : FwHw := {}
  /-- Mailbox slot j at key j (R454). -/
  mail : Tbl MailSlot (fun _ => {}) := Tbl.empty
  /-- The mailbox RAM by byte (R453). -/
  mbox : Tbl Byte (fun _ => 0) := Tbl.empty
  /-- The log writer, the NVM port and the tile store (R484 to R498). -/
  store : StoreHw := {}
  /-- Boot control and AON's hold-up record (R312, R487). -/
  boot : BootCtl := {}
deriving DecidableEq, Repr

/-- What an unlisted byte of the non-volatile memory reads as: 0, and in boot control the values 0 with their check words (log entries 10 and 11). -/
def blankByte (a : Nat) : Byte :=
  if 0xa30000 ≤ a && decide (a < 0xa30180) then
    if a % 64 = 4 then 0xc7 else if a % 64 = 5 then 0x4b else if a % 64 = 6 then 0x67 else if a % 64 = 7 then 0x48 else 0
  else 0

/-- The device. -/
structure State where
  chip : Chip := {}
  /-- The bytes of the 16 MiB non-volatile memory that differ from a blank one (R487). -/
  nvm : List Host.Cell := []
  /-- The commands that wait, first in, first out. -/
  pending : List Instr := []
deriving DecidableEq, Repr

/-- Why the device stops. No command of the table stops it: every event the spec lists has an effect, and a fault of the spec is a message to the collector. -/
inductive Fault
  /-- Raised by no command: kept so that the type has a name for a stop of the hardware itself. Safe. -/
  | halted
deriving DecidableEq, Repr

/-- Why the model refuses a command. -/
inductive Refusal
  /-- Raised by Dispatch for a command that has no meaning yet. Safe: nothing is claimed of it. -/
  | notModelled (mnemonic : String)
deriving DecidableEq, Repr

/-- The non-volatile memory's canonical form: addresses strictly rise and no listed byte is what a blank memory reads. -/
abbrev Memory.wf (m : List Host.Cell) : Prop := CellsWf blankByte m

/-- The device at the instant AON leaves reset (R36): every register at its reset value, nothing listed, no command waiting. -/
def State.reset : State := {}

end Sys2Proof.Machine
end

