-- ==== Sys2Proof/Machine/Ops.lean ====
section
/-! DEFINITION. The named operations over registers, counters, flags, doorbells, fault messages and free values. Every meaning is written over these. -/

namespace Sys2Proof.Machine

/-- The word a register holds. -/
def Chip.reg (s : Chip) (off : Nat) : Word := s.regs.get off

/-- Writes a register's whole word. -/
def Chip.setReg (s : Chip) (off : Nat) (w : Word) : Chip := { s with regs := s.regs.set off w }

/-- A field of a word. -/
def wordField (w : Word) (lo width : Nat) : Nat := w.toNat / 2 ^ lo % 2 ^ width

/-- A word with one field replaced by the low bits of `v`. -/
def wordPut (w : Word) (lo width v : Nat) : Word :=
  (w &&& ~~~(fieldMask lo width)) ||| (BitVec.ofNat 32 (v % 2 ^ width * 2 ^ lo))

/-- A field's value. -/
def Chip.get (s : Chip) (f : Fld) : Nat := wordField (s.reg f.off) f.lo f.width

/-- A one-bit field read as a truth value. -/
def Chip.bit (s : Chip) (f : Fld) : Bool := s.get f != 0

/-- Writes a field; a value too wide for it keeps its low bits. -/
def Chip.put (s : Chip) (f : Fld) (v : Nat) : Chip := s.setReg f.off (wordPut (s.reg f.off) f.lo f.width v)

/-- Writes a one-bit field. -/
def Chip.putB (s : Chip) (f : Fld) (b : Bool) : Chip := s.put f b.toNat

/-- The value of a two's-complement number of `n` bits. -/
def signedOf (n v : Nat) : Int := if v % 2 ^ n < 2 ^ (n - 1) then (v % 2 ^ n : Nat) else (v % 2 ^ n : Nat) - (2 ^ n : Nat)

/-- The `n` bits of an integer in two's complement. -/
def bitsOf (n : Nat) (v : Int) : Nat := (v % (2 ^ n : Nat)).toNat

/-- Saturation of a signed format of `n` bits (R9). -/
def satS (n : Nat) (v : Int) : Int :=
  if v > (2 ^ (n - 1) : Nat) - 1 then (2 ^ (n - 1) : Nat) - 1
  else if v < -((2 ^ (n - 1) : Nat) : Int) then -((2 ^ (n - 1) : Nat) : Int) else v

/-- Division that rounds to nearest, ties to even. -/
def rne (n : Int) (d : Nat) : Int :=
  let q := n / d
  let r := n % d
  if 2 * r > d then q + 1 else if 2 * r < d then q else if q % 2 = 0 then q else q + 1

/-- A field read as a signed number. -/
def Chip.getS (s : Chip) (f : Fld) : Int := signedOf f.width (s.get f)

/-- Writes a signed number, saturated to the field. -/
def Chip.putS (s : Chip) (f : Fld) (v : Int) : Chip := s.put f (bitsOf f.width (satS f.width v))

/-- Adds to a counter that saturates (R85). -/
def Chip.add (s : Chip) (f : Fld) (n : Nat) : Chip := s.put f (min (s.get f + n) (2 ^ f.width - 1))

/-- Counts one event in a counter that saturates. -/
def Chip.inc (s : Chip) (f : Fld) : Chip := s.add f 1

/-- Counts one event in a counter that wraps. -/
def Chip.incWrap (s : Chip) (f : Fld) : Chip := s.put f (s.get f + 1)

/-- A source whose message begins to wait takes the last place; one that waits keeps its place (R389). -/
def waitIn (l : List Nat) (src : Nat) : List Nat := if l.contains src then l else l ++ [src]

/-- Posts `n` doorbell messages of a source at once (R389). -/
def Chip.bellTimes (s : Chip) (src n : Nat) : Chip :=
  if n = 0 then s else { s with bells := s.bells.set src (min (s.bells.get src + n) 255), bellOrder := waitIn s.bellOrder src }

/-- Posts a doorbell message for a source; a message still waiting takes the count, up to 255 (R389). -/
def Chip.bell (s : Chip) (src : Nat) : Chip :=
  { s with bells := s.bells.set src (min (s.bells.get src + 1) 255), bellOrder := waitIn s.bellOrder src }

/-- Hardware sets a flag (R13). -/
def Chip.flag (s : Chip) (f : Fld) : Chip := s.put f 1

/-- Hardware sets a W1C flag, its event counter records it (R14) and its source's doorbell is posted (R390). -/
def Chip.event (s : Chip) (flag cnt : Fld) (src : Nat) : Chip := ((s.flag flag).inc cnt).bell src

/-- A flag and its counter with no source of the event hub. -/
def Chip.eventQuiet (s : Chip) (flag cnt : Fld) : Chip := (s.flag flag).inc cnt

/-- Posts a fault message to the collector; posting never waits (R344). -/
def Chip.raise (s : Chip) (m : FaultMsg) : Chip := { s with faultQ := s.faultQ ++ [m] }

/-- A commit that is not done shows whether it waits for the window or for leave (R500). -/
def Chip.cmtWindow (s : Chip) : Chip :=
  if s.get TILE.CMTST_STATUS = 2 || s.get TILE.CMTST_STATUS = 3 then
    s.put TILE.CMTST_STATUS (if s.bit THM.STAT_WINOPEN && s.store.leave != .asked then 3 else 2) else s

/-- A tile, or a copy of it, fails its check at a use, and its re-read fails too (R496). -/
def Chip.tileUseFail (s : Chip) (kind pos use : Nat) : Chip :=
  (s.event TILE.EVT_USEFF TILE.EVTCNT_USEFCNT 0x1e8).raise ⟨0x4500, kind, BitVec.ofNat 32 (pos * 2 ^ 16 + use)⟩

/-- A request for leave is sent to the budget arbiter (R305). -/
def Chip.ask (s : Chip) (a : Ask) : Chip := { s with asks := s.asks ++ [a] }

/-- A requester withdraws its request (R308). One that is still on its way never arrives (log entry 2). -/
def Chip.askDrop (s : Chip) (a : Asker) : Chip :=
  if s.asks.any fun q => q.who == a then { s with asks := s.asks.filter fun q => q.who != a }
  else { s with drops := s.drops ++ [a] }

/-- An operation reports done (R309); a leave that has ended already needs no report. -/
def Chip.askDone (s : Chip) (a : Asker) : Chip :=
  if (s.dones.filter (· == a)).length < (s.bud.held.filter fun h => h.who == a).length then { s with dones := s.dones ++ [a] } else s

/-- A start or stop command is sent to loop n (R80). -/
def Chip.loopCmd (s : Chip) (n : Nat) (c : LoopCmd) : Chip := { s with loopCmds := s.loopCmds ++ [(n, c)] }

/-- Puts something on an interface. -/
def Chip.out (s : Chip) (o : Output) : Chip := { s with outbox := s.outbox ++ [o] }

/-- The next free value: a value the spec leaves open (log entry 7). -/
def Chip.freeVal (s : Chip) : Nat := Config.freeValue s.freeCtr

/-- Moves on to the next free value. -/
def Chip.freeNext (s : Chip) : Chip := { s with freeCtr := s.freeCtr + 1 }

/-- The time counter (R43). -/
def Chip.now (s : Chip) : Nat := s.time.now

/-- The time counter's low word. -/
def Chip.nowLo (s : Chip) : Nat := s.time.now % 2 ^ 32

/-- Whether a domain is powered and out of isolation (R36). -/
def Chip.domOn (s : Chip) : Dom → Bool
  | .aon => s.power.aon
  | .core => s.bit PWR.DOMSTAT_CORE
  | .pol => s.bit PWR.DOMSTAT_POL
  | .host => s.bit PWR.DOMSTAT_HOST
  | .nvm => s.bit PWR.DOMSTAT_NVM
  | .hka => s.bit PWR.DOMSTAT_HKA
  | .px d => (s.get PWR.DOMSTAT_PX / 2 ^ d.val) % 2 == 1

/-- Whether phase die n, 1 to 7, is powered and out of isolation (R36). -/
def Chip.dieOn (s : Chip) (n : Nat) : Bool := (s.get PWR.DOMSTAT_PX / 2 ^ (n - 1)) % 2 == 1

/-- CORE is on and not in hold-up, where only the fault collector and the log writer are active in it (R35). -/
def Chip.coreRuns (s : Chip) : Bool := s.domOn .core && !s.bit PWR.DOMSTAT_HOLDUP

/-- The counter has reached a whole multiple of `i` µs at its last step, and the activity of this key has had no instant, enabling or start at this count (R539). -/
def Chip.gridAt (s : Chip) (key i : Nat) : Bool :=
  (s.now % i == 0 || s.now / i != s.time.prev / i) && s.grid.get key != s.now + 1

/-- The count's next step, in µs (R43). -/
def Chip.countStep (s : Chip) : Nat := match s.time.source with
  | .tb0 => 30 + (s.time.frac + 33920) / 65536
  | _ => 1

/-- The next instant of an activity that goes on every `i` µs after its last one while TB1 is absent (R539). -/
def Chip.tb3Next (s : Chip) (key i : Nat) : Nat := (max s.now (s.grid.get key) + i - 1) / i * i

/-- An activity that in holdover goes on by TB3's ticks: at a multiple while the counter runs from TB1, and else in the step of the counter in which its next instant falls, by the nominal length of both (R539; log entry 152). -/
def Chip.gridOrTb3 (s : Chip) (key i : Nat) : Bool :=
  if s.time.source = .tb1 then s.gridAt key i else decide (s.tb3Next key i < s.now + s.countStep)

/-- An instant of an activity falls now, or it is enabled or started now (R539). -/
def Chip.gridMark (s : Chip) (key : Nat) : Chip := { s with grid := s.grid.set key (s.now + 1) }

/-- An instant of an activity that TB3's ticks carry in holdover is taken (R539). -/
def Chip.gridTake (s : Chip) (key i : Nat) : Chip :=
  { s with grid := s.grid.set key ((if s.time.source = .tb1 then s.now else s.tb3Next key i) + 1) }

/-- A latch of some PMBus page is set (R435). -/
def Chip.pmbPending (s : Chip) : Bool := s.pmb.status.entries.any fun e => e.2 != 0

/-- PMB_ALERT_N follows the latches (R435). -/
def Chip.pmbAlert (s : Chip) : Chip := s.putB PMB.STAT_ALERT (s.bit PMB.CFG_ALERTEN && s.pmbPending)

/-- Every page that holds status: 0x00 to 0x40 (R436). -/
def pmbEvery : Nat := 2 ^ 65 - 1

/-- Bit `b` of status byte `j` latches on a set of pages, while HOST is on (R438); j is 0 VOUT, 1 IOUT, 2 INPUT, 3 TEMPERATURE, 4 CML, 5 MFR_SPECIFIC. -/
def Chip.pmbLatch (s : Chip) (pages j b : Nat) : Chip :=
  if s.domOn .host then { s with pmb := { s.pmb with status := s.pmb.status.upd (8 * j + b) (· ||| pages) } }.pmbAlert else s

/-- The registers of some domains take their reset values, as when those domains lose power (R15, R30). -/
def Chip.resetRegs (s : Chip) (p : Dom → Bool) : Chip :=
  { s with regs := s.regs.drop fun o => match domAt o with | some d => p d | none => false }

/-- A quotient whose rounding the spec does not state: exact where it divides, and else one of its two neighbours, which a free value chooses (log entry 7). -/
def Chip.openDiv (s : Chip) (n : Int) (d : Nat) : Chip × Int :=
  if n % d = 0 then (s, n / d) else (s.freeNext, n / d + (s.freeVal % 2 : Nat))

/-- A bit of a mask. -/
def bitAt (m k : Nat) : Bool := (m / 2 ^ k) % 2 == 1

/-- A mask with a bit set or cleared. -/
def setBitAt (m k : Nat) (b : Bool) : Nat :=
  if bitAt m k = b then m else if b then m + 2 ^ k else m - 2 ^ k

/-- Applies `f` to the state for each number of a list, in order. -/
def Chip.forEach (s : Chip) (l : List Nat) (f : Nat → Chip → Chip) : Chip := l.foldl (fun t i => f i t) s

/-- A value kept within bounds. -/
def clampN (lo hi v : Nat) : Nat := min hi (max lo v)

/-- A field value in which 0 acts as 1. -/
def orOne (v : Nat) : Nat := if v = 0 then 1 else v

/-- The keys of R539's activities. -/
def gridRail (r : Nat) : Nat := r
def gridBal (n : Nat) : Nat := 64 + n
def gridInput : Nat := 96
def gridPoll : Nat := 97
/-- The count at which a confirmation last set the state of rail r's pair (R254). -/
def gridConf (r : Nat) : Nat := 128 + r

/-- The first of 32 numbers that a round-robin finds when it looks from `from'` on (R49). -/
def roundRobin (n from' : Nat) (p : Nat → Bool) : Option Nat :=
  ((List.range n).map fun k => (from' + k) % n).find? p

/-- The bytes of a number, least significant first (R8). -/
def bytesLE : Nat → Nat → List Byte
  | 0, _ => []
  | n + 1, v => BitVec.ofNat 8 v :: bytesLE n (v / 256)

/-- The number a list of bytes spells, least significant first (R8). -/
def natLE : List Byte → Nat
  | [] => 0
  | b :: bs => b.toNat + 256 * natLE bs

/-- Bytes `o` to `o + n - 1` of a list, as a number. -/
def fieldLE (l : List Byte) (o n : Nat) : Nat := natLE ((l.drop o).take n)

/-- A list of bytes cut or filled with zeros to a length. -/
def padTo (n : Nat) (l : List Byte) : List Byte := (l ++ List.replicate n 0).take n

/-- A meaning that changes only what is not the non-volatile memory or the queue. -/
def State.on (s : State) (f : Chip → Chip) : Host.Outcome State Fault Refusal := .next { s with chip := f s.chip }

end Sys2Proof.Machine
end

