-- ==== Sys2Proof/Machine/Rings.lean ====
section
/-! DEFINITION. The host rings: entries, write-back, moderation and signals, event entries and telemetry records (R417 to R433). -/

namespace Sys2Proof.Machine

/-- The event ring's number in the RING blocks (R445). -/
def evtRing : Nat := 16

/-- The number of TELj in the RING blocks (R445). -/
def telRing (j : Nat) : Nat := 18 + j

/-- The entries of a ring in use: produced and not consumed, with the slots reserved for more (R417, R421). -/
def Chip.ringUsed (s : Chip) (r : Nat) : Nat :=
  let d := s.get (RING.DIDX_DIDX r)
  let h := s.get (RING.HIDX_HIDX r)
  if r < 8 then (h + 2 ^ 32 - d) % 2 ^ 32 else (d + 2 ^ 32 - h) % 2 ^ 32 + (s.rings.get r).reserved

/-- Whether a ring has no free entry: the host produces the command rings and the device the others (R417, R448). -/
def Chip.ringFull (s : Chip) (r : Nat) : Bool := decide (2 ^ s.get (RING.CFG_LOG2N r) ≤ s.ringUsed r)

/-- FULL follows the entries and the reserved slots (R448). -/
def Chip.fullShow (s : Chip) (r : Nat) : Chip := s.putB (RING.STAT_FULL r) (s.ringFull r)

/-- Where entry i of ring r lies in host memory (R417). -/
def Chip.entryAddr (s : Chip) (r i : Nat) : Nat :=
  (s.reg (RING.BASE_LO r)).toNat + 2 ^ 32 * (s.reg (RING.BASE_HI r)).toNat + 64 * (i % 2 ^ s.get (RING.CFG_LOG2N r))

/-- The place of a ring's index in the doorbell and the write-back area (R418). -/
def areaOff (r : Nat) : Nat := if r < 17 then 4 * r else 0x44 + 4 * (r - 18)

/-- Where a ring's write-back word lies in host memory (R418). -/
def Chip.backAddr (s : Chip) (r : Nat) : Nat := (s.reg HIF.WBBASE_LO).toNat + 2 ^ 32 * (s.reg HIF.WBBASE_HI).toNat + areaOff r

/-- A ring takes entries while the interface is enabled and the ring runs (R417, R420). -/
def Chip.ringRuns (s : Chip) (r : Nat) : Bool :=
  s.domOn .host && s.bit HIF.CTRL_EN && s.get (RING.STAT_STATE r) == 1

/-- The function is in D0 and may send requests (R429). -/
def Chip.inD0 (s : Chip) : Bool := s.get HIF.STAT_DSTATE == 0

/-- The link leaves L1 for L0 before a message goes out (R428). -/
def Chip.linkWake (s : Chip) : Chip := if s.get HIF.STAT_LSTATE == 1 then s.put HIF.STAT_LSTATE 0 else s

/-- Delivers vector `v` by the function's state; HOST isolated, its rings are stopped (R30, R428). -/
def Chip.signalVec (s : Chip) (v : Nat) : Chip :=
  if !s.bit HIF.STAT_LINKUP || !s.domOn .host then s
  else if s.inD0 then
    if s.hif.msixEn && s.hif.busMaster && !s.hif.funcMask && !s.bit (MSIX.VCTRL_MASK v) then s.linkWake.out (.msix v)
    else s.put (PBA.BITS_PEND 0) (setBitAt (s.get (PBA.BITS_PEND 0)) v true)
  else
    let t := s.put (PBA.BITS_PEND 0) (setBitAt (s.get (PBA.BITS_PEND 0)) v true)
    if t.hif.pmeEn && t.bit HIF.CTRL_WOP then
      (if t.get HIF.STAT_LSTATE == 2 then t.out .wakePin else t.linkWake.out .pme)
    else t

/-- A ring signals its vector; P becomes 0 (R427). -/
def Chip.ringSignal (s : Chip) (r : Nat) : Chip :=
  { s with rings := s.rings.upd r (fun h => { h with unsig := 0 }) }.signalVec (s.get (RING.CFG_VEC r))

/-- Writes a 64-byte entry at the device's index, with PHASE and LOSS, then the write-back word (R417, R418, R430). -/
def Chip.ringStore (s : Chip) (r : Nat) (bytes : List Byte) : Chip :=
  let i := s.get (RING.DIDX_DIDX r)
  let ph := 1 - i / 2 ^ s.get (RING.CFG_LOG2N r) % 2
  let b7 := (bytes.getD 7 0).toNat % 128 + 128 * ph
  let b7 := if (s.rings.get r).loss && b7 % 2 == 0 then b7 + 1 else b7
  let t := s.out (.entry r i (s.entryAddr r i) ((padTo 64 bytes).set 7 (BitVec.ofNat 8 b7)))
  let t := t.incWrap (RING.DIDX_DIDX r)
  let t := if 8 ≤ r && decide (r < 16) then t.incWrap (RING.CNT_CNT r) else t
  let t := t.out (.writeback r (t.backAddr r) ((i + 1) % 2 ^ 32))
  let t := { t with rings := t.rings.upd r (fun h => { h with loss := false }) }
  t.fullShow r

/-- An entry counts for its ring's moderation, which may signal (R427). -/
def Chip.ringCount (s : Chip) (r : Nat) (irq : Bool) : Chip :=
  let t := { s with rings := s.rings.upd r (fun h =>
    { h with unsig := h.unsig + 1, first := (if h.unsig = 0 then s.now else h.first) }) }
  if irq || decide (orOne (t.get (RING.MOD_MODCNT r)) ≤ (t.rings.get r).unsig) then t.ringSignal r else t

/-- An entry is written and counted. -/
def Chip.ringPut (s : Chip) (r : Nat) (bytes : List Byte) (irq : Bool) : Chip := (s.ringStore r bytes).ringCount r irq

/-- An entry that could not be written is dropped and counted; the next one carries LOSS (R430, R433). -/
def Chip.ringDrop (s : Chip) (r : Nat) : Chip :=
  { s.inc (RING.CNT_CNT r) with rings := s.rings.upd r (fun h => { h with loss := true }) }

/-- Posts an event entry: its type, instance and body; with HOST off it is dropped and counted (R30, R429, R430). -/
def Chip.hostEvent (s : Chip) (type inst : Nat) (body : List Byte) : Chip :=
  if !s.domOn .core then s
  else
    let seq := s.hif.evSeq
    let t := { s with hif := { s.hif with evSeq := (seq + 1) % 2 ^ 16 } }
    let bytes := bytesLE 1 type ++ [0] ++ bytesLE 2 seq ++ bytesLE 1 inst ++ [0, 0, 0] ++ bytesLE 8 t.now ++ padTo 48 body
    if !t.domOn .host || !t.ringRuns evtRing then t.ringDrop evtRing
    else if !t.inD0 then
      if t.hif.heldEvents < 32 then
        { t with hif := { t.hif with held := t.hif.held ++ [⟨evtRing, bytes, false⟩], heldEvents := t.hif.heldEvents + 1 } }
      else t.ringDrop evtRing
    else if t.ringFull evtRing then t.ringDrop evtRing
    else t.ringPut evtRing bytes false

/-- Writes a completion entry to completion ring 8 + `sel`; in D3hot it is held, and counts for the wake; a ring that does not run discards it (R416, R423, R429). -/
def Chip.completionPut (s : Chip) (sel : Nat) (bytes : List Byte) (irq : Bool) : Chip :=
  let r := 8 + sel
  if !s.ringRuns r then s.inc HIF.LOST_CPLLOST
  else if !s.inD0 then Chip.ringCount { s with hif := { s.hif with held := s.hif.held ++ [⟨r, bytes, irq⟩] } } r irq
  else s.ringPut r bytes irq

/-- Moderation of ring r falls due; HOST isolated, its rings are stopped (R30, R427). -/
def Chip.moderation (s : Chip) (r : Nat) : Chip :=
  let h := s.rings.get r
  if s.domOn .host && h.unsig != 0 && decide (h.first + orOne (s.get (RING.MOD_MODTIME r)) ≤ s.now) then s.ringSignal r else s

/-- The register that assigns a telemetry source to a stream, and whether the source is streamed (R449). KIND 1 phase, 2 loop, 3 sequenced converter, 4 input. -/
def Chip.telSel (s : Chip) (kind inst trig : Nat) : Option (Nat × Nat) :=
  if kind = 1 then
    let n := inst / 32 + 1
    if s.bit (TELS.TPHC_EN n) && s.get (TELS.TPHC_TSEL n) == trig && bitAt (s.get (TELS.TPHM_MASK n)) (inst % 32)
    then some (s.get (TELS.TPHC_STRM n), s.get (TELS.TPHC_DEC n)) else none
  else if kind = 2 then
    if s.bit (TELS.TLOOP_EN inst) then some (s.get (TELS.TLOOP_STRM inst), s.get (TELS.TLOOP_DEC inst)) else none
  else if kind = 3 then
    if s.bit (TELS.TSQ_EN (inst / 16)) then some (s.get (TELS.TSQ_STRM (inst / 16)), 0) else none
  else if s.bit TELS.TIN_EN then some (s.get TELS.TIN_STRM, s.get TELS.TIN_DEC) else none

/-- The records that the limit of 8 M a second allows in the time counter's last step (R433; log entry 182). -/
def Chip.telRoom (s : Chip) : Bool :=
  s.hif.telAt != s.now || decide (s.hif.telSent < 8 * orOne (s.now - s.time.prev))

/-- A record is produced on a stream, whose SEQ counts it: it is dropped and counted with HOST off, in D3hot, with its ring full, with 64 records in the telemetry queue and beyond 8 M records a second; else it joins the queue, and carries LOSS after a drop (R30, R429, R431, R433). -/
def Chip.telProduce (s : Chip) (strm kind inst dec start : Nat) (words : List Word) : Chip :=
  let r := telRing strm
  let t := { s with streams := s.streams.upd strm (fun x => { x with seq := (x.seq + 1) % 2 ^ 16 }) }
  if !t.domOn .host || !t.ringRuns r || !t.inD0 || t.ringFull r || decide (64 ≤ t.hif.telQ.length) || !t.telRoom then t.ringDrop r
  else
    let bytes := bytesLE 1 kind ++ bytesLE 1 words.length ++ bytesLE 2 (s.streams.get strm).seq ++ bytesLE 1 inst ++ bytesLE 1 dec
      ++ [0, if (t.rings.get r).loss then 1 else 0] ++ bytesLE 8 start ++ padTo 48 (words.flatMap fun w => bytesLE 4 w.toNat)
    let n := if t.hif.telAt = t.now then t.hif.telSent + 1 else 1
    Chip.fullShow { t with hif := { t.hif with telAt := t.now, telSent := n, telQ := t.hif.telQ ++ [⟨r, bytes, false⟩] },
                           rings := t.rings.upd r fun h => { h with loss := false, reserved := h.reserved + 1 } } r

/-- A record of the telemetry queue is written to its ring; LOSS was settled when it was produced (R417, R433). -/
def Chip.telWrite (s : Chip) (e : HeldEntry) : Chip :=
  let loss := (s.rings.get e.ring).loss
  let t := { s with rings := s.rings.upd e.ring fun h => { h with loss := false, reserved := h.reserved - 1 } }
  let u := if t.ringRuns e.ring then t.ringPut e.ring e.bytes false else t.ringDrop e.ring
  { u with rings := u.rings.upd e.ring fun h => { h with loss := loss || h.loss } }

/-- The records of the telemetry queue are dropped and counted (R30, R416, R429). -/
def Chip.telDiscard (s : Chip) : Chip :=
  s.hif.telQ.foldl (fun u e => { u with rings := u.rings.upd e.ring fun h => { h with reserved := h.reserved - 1 } }.ringDrop e.ring)
    { s with hif := { s.hif with telQ := [] } }

/-- The ring engine, with nothing else to do, writes the telemetry that waits (R421, R433; log entry 201). -/
def Chip.telDrain (s : Chip) : Chip :=
  if !s.domOn .host || !s.inD0 then s.telDiscard else s.hif.telQ.foldl Chip.telWrite { s with hif := { s.hif with telQ := [] } }

/-- Sends the record that a source has filled on the stream that it began on (R431, R432). -/
def Chip.telSend (s : Chip) (kind inst trig : Nat) : Chip :=
  let key := 1024 * kind + 2 * inst + trig
  let h := s.tels.get key
  { s with tels := s.tels.upd key (fun h => { h with words := [] }) }.telProduce h.strm kind inst h.dec h.start h.words

/-- A source produces a value of `ws` words (R432). -/
def Chip.telSample (s : Chip) (kind inst trig : Nat) (ws : List Word) : Chip :=
  match s.telSel kind inst trig with
  | none => s
  | some (strm, dec) =>
    let key := 1024 * kind + 2 * inst + trig
    let h := s.tels.get key
    let t := { s with tels := s.tels.upd key (fun h => { h with seen := (h.seen + 1) % 2 ^ 16 }) }
    if h.seen % 2 ^ dec != 0 then t
    else
      let t := { t with tels := t.tels.upd key (fun h =>
        { h with words := h.words ++ ws, start := (if h.words.isEmpty then t.now else h.start),
                 dec := (if h.words.isEmpty then dec else h.dec), strm := (if h.words.isEmpty then strm else h.strm) }) }
      if 12 ≤ (t.tels.get key).words.length then t.telSend kind inst trig else t

/-- TFLUSH has passed since a record's first sample: it is sent, though its source has been switched off since (R432). -/
def Chip.telFlush (s : Chip) (kind inst trig : Nat) : Chip :=
  let h := s.tels.get (1024 * kind + 2 * inst + trig)
  if !h.words.isEmpty && decide (h.start + orOne (s.get (RING.MOD_TFLUSH (telRing h.strm))) ≤ s.now) then s.telSend kind inst trig else s

/-- What the policy firmware posts: an event entry of type 0x10 to 0x1F, or a telemetry record of KIND 0x10 to 0x1F (R430, R431). -/
def Chip.fwPost (s : Chip) : FwPost → Chip
  | .event type inst body => s.hostEvent (0x10 + type.val) inst.toNat body
  | .record strm kind inst dec start words => s.telProduce strm.val (0x10 + kind.val) inst.toNat dec.toNat start words

end Sys2Proof.Machine
end

