-- ==== Sys2Proof/Machine/Log.lean ====
section
/-! DEFINITION. Log records and the RAM buffer they wait in (R363, R382, R492 to R494). -/

namespace Sys2Proof.Machine

/-- The configuration epoch, 64 bits. -/
def Chip.epoch (s : Chip) : Nat := s.get SEC.EPOCH_LO_EPL + 2 ^ 32 * s.get SEC.EPOCH_HI_EPH

/-- The class a record counts as when the buffer is full (R382): its fault class, and F4 for the other types (log entry 22). -/
def LogRec.cls (r : LogRec) : Nat := if r.type = 1 then r.code / 2 ^ 13 else 4

/-- Bytes 16 to 59 of a record: TYPE, FLAGS, CODE, INST, DETAIL and BODY (R492). -/
def LogRec.tail (r : LogRec) : List Byte :=
  bytesLE 1 r.type ++ bytesLE 1 r.flags ++ bytesLE 2 r.code ++ bytesLE 1 r.inst ++ [0, 0, 0] ++ bytesLE 4 r.detail.toNat
    ++ padTo 32 r.body

/-- A record as a 64-byte line with its sequence number and the cold-start count (R492). -/
def LogRec.line (r : LogRec) (seq csc : Nat) : List Byte :=
  let l := bytesLE 4 seq ++ bytesLE 4 csc ++ bytesLE 8 r.time ++ r.tail
  l ++ bytesLE 4 (crc32c l).toNat

/-- The oldest record of the lowest class. -/
def lowestRec : List LogRec → Option LogRec
  | [] => none
  | r :: l => match lowestRec l with
    | none => some r
    | some q => if r.cls ≤ q.cls then some r else some q

/-- Puts a record into the buffer of 256 (R382). -/
def bufAdd (l : List LogRec) (r : LogRec) : List LogRec × Bool :=
  if l.length < 256 then (l ++ [r], false)
  else match lowestRec l with
    | some q => if r.cls < q.cls then (l, true) else (l.erase q ++ [r], true)
    | none => (l ++ [r], false)

/-- A record that reports a failure of the log itself never starts a write, whatever class guarded operation has given it (R56, R357). -/
def LogRec.ofLog (r : LogRec) : Bool := r.code % 2 ^ 13 == 0x502 || r.code % 2 ^ 13 == 0x503

/-- A record that has to stay in the RAM buffer has bit 1 of FLAGS (R492). -/
def LogRec.buffered (r : LogRec) : LogRec := if r.flags / 2 % 2 = 1 then r else { r with flags := r.flags + 2 }

/-- The records that wait have to wait on: the window has closed, or a write has failed (R488, R490, R492). -/
def Chip.logHeld (s : Chip) : Chip := { s with store := { s.store with logBuf := s.store.logBuf.map LogRec.buffered } }

/-- A record as it is raised now: FLAGS bit 1 says that it cannot be written yet (R363, R382, R492). -/
def Chip.logMark (s : Chip) (r : LogRec) : LogRec :=
  let r := { r with time := s.now }
  if s.bit THM.STAT_WINOPEN && s.domOn .nvm && !r.ofLog then r else r.buffered

/-- The records that the log writer will write: those of its own failures stay in the RAM buffer (R56). -/
def Chip.logWaiting (s : Chip) : List LogRec := s.store.logBuf.filter (!·.ofLog)

/-- Hands a record to the log writer; it waits in the RAM buffer (R363, R382). -/
def Chip.log (s : Chip) (r : LogRec) : Chip :=
  let b := bufAdd s.store.logBuf (s.logMark r)
  let t := { s with store := { s.store with
    logBuf := b.1, logSince := (if s.logWaiting.isEmpty then s.now else s.store.logSince), logFailed := s.store.logFailed && r.ofLog } }
  let t := if b.2 then t.inc THM.NVMW_DROPCNT else t
  t.put THM.NVMW_BUFOCC t.store.logBuf.length

/-- The body of a fault record (R493, type 0x01). -/
def Chip.faultBody (s : Chip) : List Byte :=
  bytesLE 8 s.epoch ++ bytesLE 4 (s.reg HSW.VI).toNat ++ bytesLE 4 (s.reg HSW.PV).toNat ++ bytesLE 2 (s.get THM.STAT_HUBTJ)

end Sys2Proof.Machine
end

