-- ==== Sys2Proof/Machine/Pwm.lean ====
section
/-! DEFINITION. The PWM generators: windows, edges, reloads, pairs, refresh, triggers and trips (R119 to R151). -/

namespace Sys2Proof.Machine

/-- The event-hub source of PWM[p] (R390). -/
def srcPwm (p : Nat) : Nat := 0x400 + 0x80 * (p / 32) + p % 32

/-- The phases of die n. -/
def diePhases (n : Nat) : List Nat := (List.range 32).map fun c => 32 * (n - 1) + c

/-- The die of a phase, 1 to 7 (R16). -/
def dieOf (p : Nat) : Nat := p / 32 + 1

def Chip.genUpd (s : Chip) (p : Nat) (f : GenHw → GenHw) : Chip := { s with gens := s.gens.upd p f }

/-- The period in fine steps (R120). -/
def Chip.genPeriod (s : Chip) (p : Nat) : Nat := s.get (PWM.PERIOD_PER p) * 64

/-- The loop that owns phase p (R152). -/
def Chip.owner (s : Chip) (p : Nat) : Option Nat :=
  if s.bit (PHS.ASSIGN_OWN p) then some (s.get (PHS.ASSIGN_LOOP p)) else none

/-- The even generator of the pair that p belongs to, when p is generator p + 1 of a pair (R135). -/
def Chip.pairOdd (s : Chip) (p : Nat) : Bool := p % 2 == 1 && s.bit (PWM.CTRL_PAIR (p - 1))

/-- Whether p is the even generator of a pair (R135). -/
def Chip.pairEven (s : Chip) (p : Nat) : Bool := p % 2 == 0 && s.bit (PWM.CTRL_PAIR p)

/-- The generator whose period, window, enable and trip state p uses (R135, R137). -/
def Chip.genLead (s : Chip) (p : Nat) : Nat := if s.pairOdd p then p - 1 else p

/-- The loop that owns p is OFF (R129). -/
def Chip.ownerOff (s : Chip) (p : Nat) : Bool := (s.owner p).any fun n => s.get (LOOP.STATUS_STATE n) == 0

/-- Whether a generator holds its output high-impedance whatever its period does (R129, R130, R153). -/
def Chip.genHeld (s : Chip) (p : Nat) : Bool :=
  let q := s.genLead p
  let d := dieOf p
  !s.bit (PWM.CTRL_EN q) || !s.dieOn d || (s.dies.get d).silenced || !(s.gens.get q).run || s.ownerOff q

/-- The window that D places (R124). -/
def Chip.placeWindow (s : Chip) (p d : Nat) : Nat × Nat :=
  let per := s.genPeriod p
  match s.get (PWM.CTRL_MOD p) with
  | 0 => (0, d)
  | 1 => (per - d, per)
  | 2 => (per / 2 - d / 2, per / 2 - d / 2 + d)
  | _ => (s.get (PWM.CMPA_ON p), s.get (PWM.CMPB_OFF p))

/-- The dead time before turn-on that p uses: its pair's (R135). -/
def Chip.genDtr (s : Chip) (p : Nat) : Nat := s.get (PWM.DEADT_DTR (s.genLead p))

/-- OFF ≤ ON + DTR: the output never goes high (R127). -/
def Chip.genShort (s : Chip) (p : Nat) : Bool := decide ((s.gens.get p).off ≤ (s.gens.get p).on + s.genDtr p)

/-- ON = 0 and OFF = P (R124). A direct-mode window from 0 whose CMPB lies beyond P counts as full as well: DESIGN CHOICE, log entry 166. -/
def Chip.genFull (s : Chip) (p : Nat) : Bool :=
  let per := s.genPeriod (s.genLead p)
  (s.gens.get p).on == 0 && decide (per ≤ (s.gens.get p).off) && per != 0

/-- The part of a half-period-shifted window that lies past P, 0 for a window inside the period (R135). -/
def Chip.genHead (s : Chip) (p : Nat) : Nat :=
  if s.pairOdd p && !s.genFull p then (s.gens.get p).off - s.genPeriod (p - 1) else 0

/-- OFF ≤ ON (R124). -/
def Chip.genEmpty (s : Chip) (p : Nat) : Bool := decide ((s.gens.get p).off ≤ (s.gens.get p).on)

/-- The level of an interval that would be low: 0, or 2 under NOSINK (R128). -/
def GenHw.lowLevel (g : GenHw) : Nat := if g.noSink || g.soft then 2 else 0

/-- The level the on-window gives, before trips and overrides (R127, R128, R134). -/
def GenHw.plain (g : GenHw) : Nat :=
  match g.stage with
  | .high => 1
  | .pre | .post => g.lowLevel
  | .refLow => 0
  | .preFall | .rise | .fall | .refHz => 2

/-- The level with a cycle trip: the off-level, by way of the dead time (R139). -/
def GenHw.cycled (g : GenHw) (cyc : Bool) : Nat := if cyc then (if g.tdead then 2 else g.lowLevel) else g.plain

/-- Exchanges high and low (R136). -/
def invLevel (on : Bool) (l : Nat) : Nat := if on && decide (l < 2) then 1 - l else l

/-- The complement of a level in pair mode 0b00 (R135). -/
def complLevel (l : Nat) : Nat := if l < 2 then 1 - l else 2

/-- The generators whose pins a trip on p acts on (R137). -/
def Chip.genBoth (s : Chip) (p : Nat) : List Nat :=
  let q := s.genLead p
  if s.pairEven q then [q, q + 1] else [p]

/-- The latched sources that act on p: its own and, in a pair, its partner's (R137). -/
def Chip.genLatched (s : Chip) (p : Nat) : Nat :=
  if s.pairEven p then s.get (PWM.TRIPST_LAT p) ||| s.get (PWM.TRIPST_LAT (p + 1))
  else if s.pairOdd p then s.get (PWM.TRIPST_LAT p) ||| s.get (PWM.TRIPST_LAT (p - 1))
  else s.get (PWM.TRIPST_LAT p)

/-- Whether a cycle trip ends p's window: its own, and in a pair its partner's; but in pair mode 0b01 a peak-current comparator ends its own output's window alone (R137). -/
def Chip.genCyc (s : Chip) (p : Nat) : Bool :=
  let q := s.genLead p
  if s.pairEven q then
    (s.gens.get q).cyc || (s.gens.get (q + 1)).cyc || (s.gens.get p).cycPk
      || s.get (PWM.CTRL_PAIRM q) == 0 && ((s.gens.get q).cycPk || (s.gens.get (q + 1)).cycPk)
  else (s.gens.get p).cyc || (s.gens.get p).cycPk

/-- The pin levels of a pair, before the trip state (R135, R136). -/
def Chip.pairLevel (s : Chip) (q k : Nat) : Nat :=
  let g := s.gens.get q
  let a := g.cycled (s.genCyc q)
  let b := if s.get (PWM.CTRL_PAIRM q) = 0 then complLevel a else (s.gens.get (q + 1)).cycled (s.genCyc (q + 1))
  let pin := if g.swap then 1 - k else k
  invLevel (bitAt g.inv k) (if pin = 0 then a else b)

/-- The trip state of latched sources: low with TSTATE = 1, but high-impedance when the collector's is one of them (R139). -/
def Chip.tripState (s : Chip) (q lat : Nat) : Nat := if bitAt lat 0 || !s.bit (PWM.TRIPEN_TSTATE q) then 2 else 0

/-- The level of the pin of p (R127 to R142). -/
def Chip.pinLevel (s : Chip) (p : Nat) : Nat :=
  let q := s.genLead p
  let lat := s.genLatched p
  if s.genHeld p then 2
  else if lat != 0 then (if (s.gens.get p).pdead then 2 else s.tripState q lat)
  else match (s.gens.get q).resume with
    | some l => if (s.gens.get p).pdead then 2 else l
    | none => if s.pairEven q then s.pairLevel q (p - q) else (s.gens.get p).cycled (s.genCyc p)

/-- The level of the output of p with the cycle trips in force, before overrides and latched trips (R135, R139). -/
def Chip.outLevel (s : Chip) (p : Nat) : Nat :=
  let q := s.genLead p
  if p != q && s.get (PWM.CTRL_PAIRM q) == 0 then complLevel ((s.gens.get q).cycled (s.genCyc q))
  else (s.gens.get p).cycled (s.genCyc p)

/-- OUT.LEVEL and TRIPST.TRIPPED follow the pin (R149, R150). -/
def Chip.genShow (s : Chip) (p : Nat) : Chip :=
  let q := s.genLead p
  let tripped := s.genLatched p != 0 || (s.gens.get q).resume.isSome || s.genCyc p
  (s.put (PWM.OUT_LEVEL p) (s.pinLevel p)).putB (PWM.TRIPST_TRIPPED p) tripped

/-- Shows p and, for a pair, both of its generators. -/
def Chip.genShowAll (s : Chip) (p : Nat) : Chip :=
  let q := s.genLead p
  if s.pairEven q then (s.genShow q).genShow (q + 1) else s.genShow p

/-- The pins of a die after polarity and filter, as the TRIPST fields number them (R149, R151). -/
def Chip.tripInputs (s : Chip) (p : Nat) : Nat :=
  let d := dieOf p
  let h := s.dies.get d
  let flt := (h.tripWire || !s.domOn .core).toNat
  let wm := (h.wmWire != 0).toNat
  let pk := (bitAt (s.get (PWM.TRIPST_ACT p)) 2).toNat
  flt + 2 * wm + 4 * pk + 8 * s.get (PWMP.TPSTAT_LVL d)

/-- The trip sources that p enables: the collector always (R138). -/
def Chip.tripEnabled (s : Chip) (p : Nat) : Nat :=
  1 + 2 * s.get (PWM.TRIPEN_WMEN p) + 4 * s.get (PWM.TRIPEN_PKEN p) + 8 * s.get (PWM.TRIPEN_PINEN p)

/-- The trip pins of a die in latched mode (R151). -/
def Chip.pinModes (s : Chip) (d : Nat) : Nat :=
  let w := s.reg (PWMP.TPIN d)
  (List.range 8).foldl (fun m k => m + 2 ^ k * wordField w (4 * k + 3) 1) 0

/-- The sources in latched mode (R138). -/
def Chip.tripLatchMode (s : Chip) (p : Nat) : Nat :=
  1 + 2 * s.get (PWM.TRIPEN_WMMODE p) + 4 * s.get (PWM.TRIPEN_PKMODE p) + 8 * s.pinModes (dieOf p)

/-- The number of bits set in the low `n` bits of a mask. -/
def countBits (n m : Nat) : Nat := (List.range n).foldl (fun a k => a + (bitAt m k).toNat) 0

/-- The bits of `a` that are not in `b`, of the low `n`. -/
def maskDiff (n a b : Nat) : Nat := (List.range n).foldl (fun m k => if bitAt a k && !bitAt b k then m + 2 ^ k else m) 0

/-- Latches every enabled latched-mode source that is active and not latched (R139, R141). -/
def Chip.tripLatch (s : Chip) (p : Nat) : Chip :=
  let lat := s.get (PWM.TRIPST_LAT p)
  let new := maskDiff 11 (s.get (PWM.TRIPST_ACT p) &&& s.tripEnabled p &&& s.tripLatchMode p) lat
  if new = 0 then s
  else
    let t := s.put (PWM.TRIPST_LAT p) (lat ||| new)
    let t := (t.flag (PWM.TRIPST_TRIPF p)).add (PWM.TRIPCNT_LTCNT p) (countBits 11 new)
    let t := (List.range (countBits 11 new)).foldl (fun u _ => u.bell (srcPwm p)) t
    let q := s.genLead p
    let t := t.forEach (s.genBoth p) fun k u =>
      let dead := s.pinLevel k == 1 || (s.gens.get k).tdead
      u.genUpd k fun g => { g with pdead := g.pdead || dead }
    t.genUpd q fun g => { g with resume := none, boot := 0, refDue := false }

/-- A cycle-mode source acts once in each period (R139, R140). -/
def Chip.tripCycle (s : Chip) (p : Nat) : Chip :=
  let act := maskDiff 11 (s.get (PWM.TRIPST_ACT p) &&& s.tripEnabled p) (s.tripLatchMode p)
  let g := s.gens.get p
  let other := maskDiff 11 act 4 != 0
  if act = 0 || (g.cyc || !other) && (g.cycPk || !bitAt act 2) then s
  else
    let t := if g.cyc || g.cycPk then s else s.event (PWM.TRIPST_CBCF p) (PWM.TRIPCNT_CBCCNT p) (srcPwm p)
    let t := t.genUpd p fun g => { g with cyc := g.cyc || other, cycPk := g.cycPk || bitAt act 2 }
    let t := t.forEach (s.genBoth p) fun k u =>
      let dead := !s.genHeld k && s.outLevel k == 1 && t.genCyc k
      u.genUpd k fun g => { g with tdead := g.tdead || dead }
    t.genUpd (t.genLead p) fun g => { g with boot := 0, refDue := false }

/-- The trip inputs of p are taken anew, and its sources act (R138 to R140). -/
def Chip.tripEval (s : Chip) (p : Nat) : Chip :=
  let t := s.put (PWM.TRIPST_ACT p) (s.tripInputs p)
  (t.tripLatch p).tripCycle p |>.genShowAll p

/-- Every generator of a die takes its trip inputs anew. -/
def Chip.tripEvalDie (s : Chip) (n : Nat) : Chip := s.forEach (diePhases n) fun p t => t.tripEval p

/-- Sets the collector's trip wire of a die (R24, R138). -/
def Chip.setTripWire (s : Chip) (n : Nat) (on : Bool) : Chip :=
  let t := { s with dies := s.dies.upd n (fun d => { d with tripWire := on }) }
  if t.dieOn n then t.tripEvalDie n else t

/-- Rail r drives or leaves the window trip wire of a die (R250). -/
def Chip.setWmWire (s : Chip) (n r : Nat) (on : Bool) : Chip :=
  let h := s.dies.get n
  let m := setBitAt h.wmWire r on
  if m = h.wmWire then s
  else
    let t := { s with dies := s.dies.upd n (fun d => { d with wmWire := m }) }
    if t.dieOn n then t.tripEvalDie n else t

/-- The output goes high-impedance at once and stays so until a start command (R130); its periods and windows go on. The trim of a shed phase becomes 0 (R161). -/
def Chip.genStop (s : Chip) (p : Nat) : Chip :=
  let s := if (s.gens.get p).shedOff then
      { s.put (PHS.TRIM_TRIM p) 0 with phases := s.phases.upd p fun h => { h with acc := 0 } } else s
  (s.genUpd p fun g =>
    { g with go := false, run := false, shedOff := false, soft := false, boot := 0, refDue := false, tdead := false, pdead := false }).genShowAll p

/-- A start command: the output leaves high-impedance at the next reload (R130). -/
def Chip.genStart (s : Chip) (p : Nat) : Chip := s.genUpd p fun g => { g with go := true }

/-- Where the output stands right after a reload (R127). A short window that begins at 0 after a period that ended high leaves the output high until its OFF: DESIGN CHOICE, log entry 167. A shifted window that wraps past P is on at the reload (R135). -/
def Chip.openStage (s : Chip) (p : Nat) (wasHigh : Bool) : GenStage :=
  let g := s.gens.get p
  if s.genEmpty p || (g.on != 0 && s.genHead p == 0) then (if wasHigh then .preFall else .pre)
  else if wasHigh then .high else .rise

/-- The output whose window the comparator of p uses: its own, and in pair mode 0b00 the even generator's (R239). -/
def Chip.peakWindow (s : Chip) (p : Nat) : Nat :=
  let q := s.genLead p
  if s.get (PWM.CTRL_PAIRM q) == 0 then q else p

/-- Output p opens a period after one that ended in stage `last` (R127, R135). -/
def Chip.openPeriod (s : Chip) (p : Nat) (last : GenStage) (wasHigh : Bool) : Chip :=
  let head := if s.genHead p == 0 then 0 else if wasHigh || last == .rise then 2 else 1
  s.genUpd p fun g => { g with stage := s.openStage p wasHigh, head := head, beganHigh := wasHigh }

/-- The trips of the period that a reload ends are over, and so is the hold between an accepted clear and the reload (R140, R141). -/
def Chip.tripReload (s : Chip) (p : Nat) : Chip :=
  s.genUpd p fun g => { g with cyc := false, cycPk := false, resume := none }

/-- The dead time that a trip runs goes on across a reload as long as that trip still acts; without it the level follows the new window (R127, R139). -/
def Chip.deadKeep (s : Chip) (p : Nat) : Chip :=
  s.genUpd p fun g => { g with tdead := g.tdead && s.genCyc p, pdead := g.pdead && s.genLatched p != 0 }

/-- A generator's trips act on it now: latched, held to the reload, or ending its window (R149). -/
def Chip.genTripped (s : Chip) (p : Nat) : Bool :=
  s.genLatched p != 0 || (s.gens.get (s.genLead p)).resume.isSome || s.genCyc p

/-- The output of p is high as its period ends (R127). -/
def Chip.endsHigh (s : Chip) (p : Nat) : Bool := !s.genHeld p && !s.genTripped p && (s.gens.get p).stage == .high

/-- The ramp of the comparators that use the window of output p runs: from T_on to OFF (R239). -/
def Chip.rampRuns (s : Chip) (p : Nat) : Bool :=
  let st := (s.gens.get p).stage
  st == .high || st == .refHz || st == .refLow

/-- The comparator of p at a reload, after a period with a full window (`wasFull`) that ended with the output of the window high (`wasHigh`). The ramp starts again, but for a window that is carried on past P; the PK input is inactive, unless the window is full and the comparator high, after a period that ended high or that the comparator tripped in a full window (R239, R240, R254). -/
def Chip.peakReload (s : Chip) (p : Nat) (cmp wasFull wasHigh : Bool) : Chip :=
  let w := s.peakWindow p
  let keep := cmp && s.genFull w && (wasHigh || wasFull && bitAt (s.get (PWM.TRIPST_ACT p)) 2)
  let t := s.putB (CMP.PKSTAT_CMPOUT p) cmp
  let t := if wasHigh && s.genHead w != 0 then t else t.put (CMP.PKSTAT_THR p) (s.get (CMP.PKCFG_START p))
  t.put (PWM.TRIPST_ACT p) (setBitAt (t.get (PWM.TRIPST_ACT p)) 2 keep)

/-- The window of output p + 1 in pair mode 0b01: the same window moved by P/2, modulo P (R135). -/
def Chip.shiftedWindow (s : Chip) (q : Nat) : Nat × Nat :=
  let g := s.gens.get q
  let per := s.genPeriod q
  if s.genEmpty q then (0, 0) else if s.genFull q then (0, per)
  else
    let a := (g.on + per / 2) % per
    (a, a + (g.off - g.on))

/-- Updates the count of R134 for the period that a reload ends. -/
def Chip.bootCount (s : Chip) (p : Nat) (endHigh : Bool) : Chip :=
  let g := s.gens.get p
  let low := if g.lowLevel = 2 then 0 else g.on - (if g.beganHigh then s.get (PWM.DEADT_DTF p) else 0)
  let bmin := clampN 8 80 (s.get (PWM.BOOT_BMIN p)) * 64
  let n := if endHigh && decide (low < bmin) then g.boot + 1 else 0
  let brn := s.get (PWM.BOOT_BRN p)
  s.genUpd p fun g => { g with boot := n, refDue := brn != 0 && decide (brn ≤ n) }

/-- The on-time's start: ON + DTR, and ON for a short window (R133). -/
def Chip.tOn (s : Chip) (p : Nat) : Nat :=
  (s.gens.get p).on + (if s.genShort p then 0 else s.genDtr p)

/-- The unplaced instant of a trigger, and whether MIDON places it (R133). -/
def Chip.trigInstant (s : Chip) (p q t : Nat) : Int :=
  let w := s.reg (if t = 0 then PWM.TRIG0 p else PWM.TRIG1 p)
  let pos := signedOf 22 (wordField w 0 22)
  if wordField w 30 1 = 0 then 0
  else if s.genEmpty q then (s.gens.get q).on + pos
  else if s.genFull q then (s.genPeriod q / 2 : Nat) + pos
  else ((s.tOn q + (s.gens.get q).off) / 2 : Nat) + pos

/-- A trigger's own instant lies in the next period (R133). -/
def Chip.trigCarries (s : Chip) (p q t : Nat) : Bool :=
  let w := s.reg (if t = 0 then PWM.TRIG0 p else PWM.TRIG1 p)
  wordField w 31 1 == 1 && decide ((s.genPeriod q : Int) ≤ s.trigInstant p q t)

/-- The triggers of a generator at the end of a period: an early reload drops what has not fired (R132, R133). -/
def Chip.trigReload (s : Chip) (p q : Nat) (early : Bool) : Chip :=
  let c := if early then 0 else (s.trigCarries p q 0).toNat + 2 * (s.trigCarries p q 1).toNat
  s.genUpd p fun g => { g with fired := 0, carried := c }

/-- MOVING of R176: an active phase of the loop has not reached its target. -/
def Chip.moveShow (s : Chip) (n : Nat) : Chip :=
  s.putB (PHSL.STATUS_MOVING n) ((s.loopPh.get n).act.any fun p => s.get (PWM.PHOFS_OFS p) != s.get (PHS.OTGT_OTGT p))

/-- The steps by which a phase moves forward at a reload: realignment, then its interleave move, together at most ALSTEP; none under TRHI (R155, R156). -/
def Chip.alignStep (s : Chip) (p tag : Nat) : Chip :=
  match s.owner p with
  | none => s
  | some n =>
    let per := s.genPeriod p
    let al := (fun v => if v = 0 then 64 else v) (s.get (PHSL.ALIGN_ALSTEP n))
    let role := s.get (PHS.STATE_ROLE p)
    if tag = 1 || per = 0 || !(role == 2 || role == 3 || role == 4) then s
    else
      let g := s.gens.get p
      let a := min g.phi al
      let ofs := s.get (PWM.PHOFS_OFS p)
      let left := (s.get (PHS.OTGT_OTGT p) + per - ofs % per) % per
      let b := min left (al - a)
      let t := (s.genUpd p fun g => { g with phi := g.phi - a }).put (PWM.PHOFS_OFS p) ((ofs + b) % per)
      (t.putB (PHS.STATE_OFFPOS p) (g.phi != a || left != b)).moveShow n

/-- The snapshot of a reload: the shadow, or a completed compare pair in direct mode, places the window (R123 to R125, R131). In direct mode DUTY.TAG reads LIN or NOSINK by ENSNK, and DUTY.D keeps its value: DESIGN CHOICE, log entry 191. -/
def Chip.snapshot (s : Chip) (p : Nat) : Chip :=
  let direct := s.get (PWM.CTRL_MOD p) == 3
  let t := match direct, (s.gens.get p).cmpPair with
    | true, some (a, b) => ((s.put (PWM.CMPA_ON p) a).put (PWM.CMPB_OFF p) b).genUpd p fun g => { g with cmpPair := none }
    | _, _ => s
  let t := if direct then t.put (PWM.DUTY_TAG p) (if t.bit (PWM.CTRL_ENSNK p) then 0 else 3)
    else (t.put (PWM.DUTY_TAG p) (t.get (PWM.SHDW_TAG p))).put (PWM.DUTY_D p) (t.get (PWM.SHDW_D p))
  let w := t.placeWindow p (t.get (PWM.DUTY_D p))
  let t := if direct then t else (t.put (PWM.CMPA_ON p) w.1).put (PWM.CMPB_OFF p) w.2
  t.genUpd p fun g =>
    { g with on := w.1, off := w.2, noSink := t.get (PWM.DUTY_TAG p) == 3, swap := t.bit (PWM.CTRL_SWAP p),
             inv := t.get (PWM.CTRL_INV p), run := g.go || (t.owner p).isNone }

/-- A reload event: the shadow is taken as one snapshot and a new period opens, for both outputs of a pair; `cmp` and `cmp2` are the comparators of p and of p + 1 (R127 to R142). -/
def Chip.genReload (s : Chip) (p : Nat) (early cmp cmp2 : Bool) : Chip :=
  let g := s.gens.get p
  let pair := s.pairEven p
  let wasHigh := s.endsHigh p
  let t := s.bootCount p wasHigh
  -- A phase being shed whose period had no OFF goes high-impedance here (R161).
  let t := if g.shedOff && !wasHigh then t.genStop p else t
  let t := t.trigReload p p early
  let t := if pair then t.trigReload (p + 1) p early else t
  let t := (t.snapshot p).tripReload p
  let t := t.openPeriod p g.stage wasHigh
  -- The partner of a pair takes its window and edges from p (R135).
  let t := if pair then
      let v := t.shiftedWindow p
      let u := (t.tripReload (p + 1)).genUpd (p + 1) fun h => { h with on := v.1, off := v.2, noSink := (t.gens.get p).noSink }
      u.openPeriod (p + 1) (s.gens.get (p + 1)).stage (s.endsHigh (p + 1))
    else t
  let t := t.alignStep p (t.get (PWM.DUTY_TAG p))
  let t := t.peakReload p cmp (s.genFull p) wasHigh
  let t := if pair then t.peakReload (p + 1) cmp2 (s.genFull (s.peakWindow (p + 1))) (s.endsHigh (s.peakWindow (p + 1))) else t
  let t := (t.tripEval p).deadKeep p
  let t := if pair then ((t.tripEval (p + 1)).deadKeep (p + 1)).deadKeep p else t
  t.genShowAll p

/-- A generator runs periods: enabled, on a powered die, and not the second of a pair (R129, R135). -/
def Chip.genRuns (s : Chip) (p : Nat) : Bool := s.dieOn (dieOf p) && s.bit (PWM.CTRL_EN p) && !s.pairOdd p

/-- One output of a generator that is not enabled at a period boundary: its window opens again, and its cycle trips release and act as on any other (R129, R140). -/
def Chip.idleOpen (s : Chip) (p : Nat) (cmp : Bool) : Chip :=
  let t := (s.tripReload p).openPeriod p (s.gens.get p).stage false
  ((t.peakReload p cmp (s.genFull (s.peakWindow p)) false).tripEval p).deadKeep p

/-- A period boundary of a generator that is not enabled: it takes no word (R129). -/
def Chip.idleReload (s : Chip) (p : Nat) (cmp cmp2 : Bool) : Chip :=
  let t := s.idleOpen p cmp
  if s.pairEven p then t.idleOpen (p + 1) cmp2 else t

/-- PWM_RELOAD (R131). -/
def Chip.pwmReload (s : Chip) (p : Nat) (cmp cmp2 : Bool) : Chip :=
  if s.genRuns p then s.genReload p false cmp cmp2
  else if s.dieOn (dieOf p) && !s.pairOdd p then s.idleReload p cmp cmp2
  else s

/-- The off-interval: from OFF + DTF to the next ON (R132). -/
def GenHw.offInterval (g : GenHw) : Bool := g.stage == .pre || g.stage == .post

/-- An early reload of a TRHI word (R132), on a phase that has been started or that no loop owns. `settled`: DTF + 2.5 ns have passed since its last OFF. The phase error it leaves is not fixed by any command (log entry 23). -/
def Chip.earlyReload (s : Chip) (p : Nat) (settled : Bool) : Chip :=
  let up := (s.gens.get p).go || (s.owner p).isNone
  if s.genRuns p && s.bit (PWM.CTRL_ERLY p) && up && settled && (s.gens.get p).offInterval && !s.genTripped p then
    let v := s.freeVal
    let per := orOne (s.genPeriod p)
    let t := (s.freeNext.inc (PWM.EVCNT_ERLYCNT p)).genReload p true (s.bit (CMP.PKSTAT_CMPOUT p)) (s.bit (CMP.PKSTAT_CMPOUT (p + 1)))
    let t := t.genUpd p fun g => { g with phi := (g.phi + v) % per }
    if (t.owner p).isSome then t.putB (PHS.STATE_OFFPOS p) ((t.gens.get p).phi != 0 || t.get (PWM.PHOFS_OFS p) != t.get (PHS.OTGT_OTGT p)) else t
  else s

/-- A word's handshake into the shadow of one phase: D = clip(rnd(f × P) + trim, 0, P) (R123, R132). -/
def Chip.shadowWrite (s : Chip) (p : Nat) (w : LaneWord) (settled : Bool) : Chip :=
  if !s.bit (PWM.CTRL_EN p) then s
  else
    let per := s.genPeriod p
    let d := rne ((w.duty * per : Nat) : Int) (2 ^ 20) + s.getS (PHS.TRIM_TRIM p)
    let d := min (max d 0) per
    let t := (s.put (PWM.SHDW_TAG p) w.tag).put (PWM.SHDW_D p) d.toNat
    if w.tag = 1 then t.earlyReload p settled else t

/-- The phases of loop n on die d. -/
def Chip.loopPhasesOn (s : Chip) (d n : Nat) : List Nat := (diePhases d).filter fun p => s.owner p == some n

/-- A duty word reaches the shadows of every phase of loop n on die d (R123). Bit p of `settled`: DTF + 2.5 ns have passed since the last OFF of phase p (R132). -/
def Chip.wordToShadows (s : Chip) (d n : Nat) (w : LaneWord) (settled : Nat) : Chip :=
  let t := { s with lastTag := s.lastTag.set (32 * d + n) w.tag }
  t.forEach (t.loopPhasesOn d n) fun p u => u.shadowWrite p w (bitAt settled p)

/-- The loop whose word the downstream lane of loop n to die d moves next: loops n mod 8, + 8, + 16 and + 24 in turn, among those with a word waiting (R25, R49). -/
def Chip.laneNext (s : Chip) (d n : Nat) : Option Nat :=
  (roundRobin 4 (s.laneTurn.get (8 * d + n % 8)) fun k => !(s.lanes.get (32 * d + n % 8 + 8 * k)).isEmpty).map (n % 8 + 8 * ·)

/-- The oldest word of loop n to die d leaves its lane, when it is the loop's turn (R25). -/
def Chip.laneTake (s : Chip) (d n : Nat) : Option (CtlWord × Chip) :=
  match s.lanes.get (32 * d + n) with
  | [] => none
  | w :: rest =>
    if s.laneNext d n = some n then
      some (w, { s with lanes := s.lanes.set (32 * d + n) rest, laneTurn := s.laneTurn.set (8 * d + n % 8) ((n / 8 + 1) % 4) })
    else none

/-- A control word of loop n is discarded on die d for its check (R27). -/
def Chip.wordDiscard (s : Chip) (d n : Nat) : Chip :=
  let t := (s.event (LINK.LINKSTAT_ERRF d) (LINK.LINKSTAT_CWERR d) (0x18 + d))
  { t with discards := t.discards.upd (32 * d + n) (min 3 <| · + 1) }

/-- DUTY_WORD_ARRIVE: the loop's oldest word is a duty word and has its turn on the lane. A bad check discards it; a word sent in the fixed class waits in the hold register (R25, R27, R76, R123). -/
def Chip.dutyArrive (s : Chip) (d n : Nat) (good : Bool) (settled : Nat) : Chip :=
  match s.laneTake d n with
  | some (.duty w, t) =>
    if !t.dieOn d then t
    else if !good then t.wordDiscard d n
    else
      let t := { t with discards := t.discards.set (32 * d + n) 0 }
      if w.fixed then { t with holds := t.holds.set (32 * d + n) (some w) }
      else t.wordToShadows d n w settled
  | _ => s

/-- DISCARD_LIMIT: three consecutive discards of a loop's words on a die (R27). -/
def Chip.discardLimit (s : Chip) (d n : Nat) : Chip :=
  let key := 32 * d + n
  if 3 ≤ s.discards.get key then { s with discards := s.discards.set key 0 }.raise ⟨0x4010, d, 0⟩ else s

/-- FIXED_CLASS_RELEASE: every die's hold register for the loop is released to the shadows (R76). -/
def Chip.fixedRelease (s : Chip) (n settled : Nat) : Chip :=
  s.forEach [1, 2, 3, 4, 5, 6, 7] fun d t =>
    match t.holds.get (32 * d + n) with
    | some w => { t with holds := t.holds.set (32 * d + n) none }.wordToShadows d n w settled
    | none => t

/-- The stage that an edge brings the output of p to, if it is due (R127). A window that wraps past P ends its first part at OFF − P and turns on again at ON (R135). -/
def Chip.edgeStage (s : Chip) (p : Nat) (e : PwmEdge) : Option GenStage :=
  let g := s.gens.get p
  let head := s.genHead p
  let wraps := head != 0 && g.head == 0
  match e, g.stage with
  | .on, .pre | .on, .preFall => if s.genEmpty p || g.on == 0 then none else some .rise
  | .on, .fall | .on, .post => if wraps then some .rise else none
  | .onDtr, .rise => if s.genShort p || g.head == 1 && decide (head ≤ s.genDtr p) then none else some .high
  | .off, .rise => if s.genShort p && !wraps || g.head == 1 && decide (head ≤ s.genDtr p) then some .fall else none
  | .off, .high => if s.genFull p || wraps then none else some .fall
  | .offDtf, .fall => some .post
  | .offDtf, .preFall => some .pre
  | _, _ => none

/-- The PK input of p is inactive outside the on-window, and the ramp holds START (R239, R240). -/
def Chip.peakQuiet (s : Chip) (p : Nat) : Chip :=
  (s.put (PWM.TRIPST_ACT p) (setBitAt (s.get (PWM.TRIPST_ACT p)) 2 false)).put (CMP.PKSTAT_THR p) (s.get (CMP.PKCFG_START p))

/-- PWM_EDGE: the output passes one of its instants (R127); at OFF a phase being shed goes high-impedance for good (R161), and outside the on-window the PK input of every comparator that uses the window is inactive (R240). A generator whose output is held has its window all the same (R129, R239). -/
def Chip.pwmEdge (s : Chip) (p : Nat) (e : PwmEdge) : Chip :=
  if !s.dieOn (dieOf p) then s
  else
    let t := if e == .offDtf then s.genUpd p fun g => { g with tdead := false, pdead := false } else s
    match s.edgeStage p e with
    | none => t.genShowAll p
    | some st =>
      let t := t.genUpd p fun g => { g with stage := st, head := if st == .fall then 0 else g.head }
      if st == .fall then
        let t := t.forEach ((s.genBoth p).filter fun k => s.peakWindow k == p) fun k u => u.peakQuiet k
        let t := t.genShowAll p
        if (s.gens.get p).shedOff then t.genStop p else t
      else t.genShowAll p

/-- BOOTSTRAP_REFRESH: the pulse's two instants, P − DTF − BMIN and P − BMIN; a trip overrides it (R134). -/
def Chip.bootRefresh (s : Chip) (p : Nat) (low : Bool) : Chip :=
  let g := s.gens.get p
  if !s.genRuns p || !g.run || !g.refDue then s
  else if s.genTripped p then s.genUpd p fun g => { g with boot := 0, refDue := false }
  else if !low then (if g.stage == .high then (s.genUpd p fun g => { g with stage := .refHz }).genShowAll p else s)
  else ((s.genUpd p fun g => { g with stage := .refLow, boot := 0, refDue := false }).inc (PWM.EVCNT_BOOTCNT p)).genShowAll p

/-- A write of CMPA in direct mode fills the shadow pair's first half (R125). -/
def Chip.cmpaWrite (s : Chip) (p : Nat) (w : Word) : Chip :=
  if s.get (PWM.CTRL_MOD p) == 3 then s.genUpd p fun g => { g with cmpA := wordField w 0 22 } else s

/-- A write of CMPB in direct mode completes the shadow pair (R125). -/
def Chip.cmpbWrite (s : Chip) (p : Nat) (w : Word) : Chip :=
  if s.get (PWM.CTRL_MOD p) == 3 then s.genUpd p fun g => { g with cmpPair := some (g.cmpA, wordField w 0 22) } else s

/-- A write of PHOFS of a phase that no loop owns, taken modulo P (R122, R143). -/
def Chip.phofsWrite (s : Chip) (p : Nat) (w : Word) : Chip :=
  if (s.owner p).isSome then s else s.put (PWM.PHOFS_OFS p) (wordField w 0 22 % orOne (s.genPeriod p))

/-- The OFS of a phase that no loop owns is reduced when its period changes (R122). -/
def Chip.ofsReduce (s : Chip) (p : Nat) : Chip :=
  if (s.owner p).isSome || decide (s.get (PWM.PHOFS_OFS p) < orOne (s.genPeriod p)) then s
  else s.put (PWM.PHOFS_OFS p) (s.get (PWM.PHOFS_OFS p) % orOne (s.genPeriod p))

/-- What follows a change of PWM[p]'s or PHS[p]'s configuration: a generator out of use, or a phase of a loop that is OFF, waits for a start and a reload before its output leaves high-impedance (R129, R130); its OFS stays below P (R122); the ramp of a comparator that is not in an on-window holds START (R239). -/
def Chip.genTouched (s : Chip) (p : Nat) : Chip :=
  let s := s.ofsReduce p
  let stop := !s.bit (PWM.CTRL_EN (s.genLead p)) || s.ownerOff p
  let s := if stop then s.genUpd p fun g => { g with go := false, run := false } else s
  let s := if s.rampRuns (s.peakWindow p) then s else s.put (CMP.PKSTAT_THR p) (s.get (CMP.PKCFG_START p))
  (s.tripEval p).genShowAll p

/-- TRIP_PIN_CHANGE: a filtered pin of a die changes its level after polarity (R138, R151). -/
def Chip.tripPin (s : Chip) (n k : Nat) (active : Bool) : Chip :=
  if !s.dieOn n then s
  else
    let pol := wordField (s.reg (PWMP.TPIN n)) (4 * k) 1
    let t := { s with dies := s.dies.upd n fun h =>
      { h with pins := setBitAt h.pins k (active == (pol == 1)), told := setBitAt h.told k true } }
    (t.put (PWMP.TPSTAT_LVL n) (setBitAt (t.get (PWMP.TPSTAT_LVL n)) k active)).tripEvalDie n

/-- The polarity of a die's pins changes: the filtered levels are read again (R151). A pin whose level nothing has reported reads inactive under either polarity: DESIGN CHOICE, log entry 168. -/
def Chip.pinsReread (s : Chip) (n : Nat) : Chip :=
  let w := s.reg (PWMP.TPIN n)
  let h := s.dies.get n
  (s.put (PWMP.TPSTAT_LVL n)
    ((List.range 8).foldl (fun m k => m + 2 ^ k * (bitAt h.told k && bitAt h.pins k == (wordField w (4 * k) 1 == 1)).toNat) 0)).tripEvalDie n

/-- `k` whole ticks after the ramp began lies in the qualifying interval of p's comparator: past blanking, which follows only a turn-on, and before OFF or in a full window (R240). -/
def Chip.peakQualifies (s : Chip) (p k : Nat) : Bool :=
  let w := s.peakWindow p
  let g := s.gens.get w
  let full := s.genFull w
  let unblanked := full && g.beganHigh
  let blank := if unblanked then 0 else min 200 (s.get (CMP.PKCFG_BLANK p))
  s.rampRuns w && !s.genShort w && !s.genEmpty w && (full || decide (s.tOn w + 64 * k < g.off)) && decide (blank ≤ k)

/-- PEAK_CURRENT_TRIP: the comparator's output is `out`, `k` whole ticks after the ramp began; the PK input follows it in the qualifying interval and is inactive else (R238 to R240). Outside the ramp the code is START. A comparator that is still high as blanking ends is such an instant. -/
def Chip.peakTrip (s : Chip) (p k : Nat) (out : Bool) : Chip :=
  if !s.dieOn (dieOf p) then s
  else
    let thr := s.get (CMP.PKCFG_START p) - (if s.rampRuns (s.peakWindow p) then k * s.get (CMP.PKCFG_SLOPE p) / 256 else 0)
    let t := (s.putB (CMP.PKSTAT_CMPOUT p) out).put (CMP.PKSTAT_THR p) thr
    (t.put (PWM.TRIPST_ACT p) (setBitAt (t.get (PWM.TRIPST_ACT p)) 2 (out && s.peakQualifies p k))).tripEval p

/-- A write of TRIPST.CLR: refused while the input of a latched source is active (R141). -/
def Chip.tripClear (s : Chip) (p : Nat) : Chip :=
  let lat := s.get (PWM.TRIPST_LAT p)
  if (lat &&& s.get (PWM.TRIPST_ACT p)) != 0 then s.event (PWM.TRIPST_RCLRF p) (PWM.TRIPCNT_RCLRCNT p) (srcPwm p)
  else if lat = 0 then s
  else
    let q := s.genLead p
    let l := s.tripState q (s.genLatched p)
    let t := (s.put (PWM.TRIPST_LAT p) 0)
    (t.genUpd q fun g => { g with resume := some l }).genShowAll p

/-- A trigger may fire: its generator is enabled, it has not fired in this period, and its instant or a carried firing lies in the period (R133). -/
def Chip.trigMay (s : Chip) (p t : Nat) : Bool :=
  let q := s.genLead p
  let g := s.gens.get p
  s.dieOn (dieOf p) && s.bit (PWM.CTRL_EN q) && s.get (if t = 0 then PWM.TRIG0_EN p else PWM.TRIG1_EN p) == 1
    && !bitAt g.fired t && (bitAt g.carried t || !s.trigCarries p q t)

end Sys2Proof.Machine
end

