-- ==== Sys2Proof/Machine/Interleave.lean ====
section
/-! DEFINITION. The phase manager: available and active phases, interleave commands, adds, sheds and losses (R152 to R164). -/

namespace Sys2Proof.Machine

def Chip.phUpd (s : Chip) (p : Nat) (f : PhaseHw → PhaseHw) : Chip := { s with phases := s.phases.upd p f }

def Chip.lpUpd (s : Chip) (n : Nat) (f : LoopPhHw → LoopPhHw) : Chip := { s with loopPh := s.loopPh.upd n f }

/-- The link to die n is up and trained (R29). -/
def Chip.linkUp (s : Chip) (n : Nat) : Bool := s.dieOn n && s.bit (LINK.LINKSTAT_UP n)

/-- The phases that loop n owns. -/
def Chip.ownedBy (s : Chip) (n : Nat) : List Nat := (List.range 224).filter fun p => s.owner p == some n

/-- Inserts a phase by rank. -/
def Chip.rankInsert (s : Chip) (p : Nat) : List Nat → List Nat
  | [] => [p]
  | q :: l => if s.get (PHS.ASSIGN_RANK p) ≤ s.get (PHS.ASSIGN_RANK q) then p :: q :: l else q :: s.rankInsert p l

/-- Phases in ascending rank. -/
def Chip.byRank (s : Chip) (l : List Nat) : List Nat := l.foldl (fun a p => s.rankInsert p a) []

/-- A phase's stage has been enumerated and not declared absent (R153, R203). -/
def Chip.stagePresent (s : Chip) (p : Nat) : Bool := s.get (STB.STG_STATE (dieOf p) (p % 32)) == 2

/-- R153. -/
def Chip.phaseAvail (s : Chip) (p : Nat) : Bool :=
  s.bit (PHS.ASSIGN_OWN p) && s.linkUp (dieOf p) && s.stagePresent p && !(s.phases.get p).lost

/-- The available phases of loop n in ascending rank (R153). -/
def Chip.available (s : Chip) (n : Nat) : List Nat := s.byRank ((s.ownedBy n).filter s.phaseAvail)

/-- NMIN, where 0 means 64 (R175). -/
def Chip.nmin (s : Chip) (n : Nat) : Nat := if s.get (PHSL.CTRL_NMIN n) = 0 then 64 else s.get (PHSL.CTRL_NMIN n)

/-- The dies that hold a phase of loop n and are up. -/
def Chip.loopDies (s : Chip) (n : Nat) : List Nat :=
  [1, 2, 3, 4, 5, 6, 7].filter fun d => s.linkUp d && !(s.loopPhasesOn d n).isEmpty

/-- The status fields of PHS[Ln] follow what the phase manager holds (R176). -/
def Chip.phStatus (s : Chip) (n : Nat) : Chip :=
  let h := s.loopPh.get n
  let t := (s.put (PHSL.STATUS_NAVAIL n) (s.available n).length).put (PHSL.STATUS_NACT n) h.act.length
  let t := t.putB (PHSL.STATUS_THRBAD n) (decide (s.get (PHSL.THRESH_PADD n) ≤ s.get (PHSL.THRESH_PSHED n)))
  (t.putB (PHSL.STATUS_FLOOR n) (h.floorN != 0 || h.floorReg != 0)).moveShow n

/-- ROLE of a phase that no procedure concerns follows its owner (R177). -/
def Chip.roleShow (s : Chip) (p : Nat) : Chip :=
  let role := s.get (PHS.STATE_ROLE p)
  if (s.owner p).isNone then s.put (PHS.STATE_ROLE p) 0
  else if (s.phases.get p).lost then s.put (PHS.STATE_ROLE p) 5
  else if role == 0 || role == 5 then s.put (PHS.STATE_ROLE p) 1 else s

/-- rnd(j × P ÷ N), the unwrapped position of index j (R154). -/
def ilvPos (per n j : Nat) : Nat := (rne ((j * per : Nat) : Int) n).toNat

/-- The index of a phase in a list. -/
def idxOf (l : List Nat) (p : Nat) : Nat := l.findIdx (· == p)

/-- δ of R155: the largest amount by which a staying phase would move backward. -/
def ilvDelta (per : Nat) (old new : List Nat) : Nat :=
  (new.filter old.contains).foldl (fun m p =>
    max m (ilvPos per old.length (idxOf old p) - ilvPos per new.length (idxOf new p))) 0

/-- A new active set: the new base, and a command to every die of the loop (R155). -/
def Chip.reinterleave (s : Chip) (n : Nat) (new added removed : List Nat) (transient : Bool) : Chip :=
  let h := s.loopPh.get n
  let per := s.genPeriod (new.headD (h.act.headD 0))
  let b := (s.get (PHSL.BASE_B n) + ilvDelta per h.act new) % orOne per
  let pos := new.map fun p => (p, (b + ilvPos per new.length (idxOf new p)) % orOne per)
  let t := (s.put (PHSL.BASE_B n) b).lpUpd n fun h => { h with act := new }
  let t := t.forEach (t.loopDies n) fun d u =>
    let cmd : IlvCmd := ⟨pos.filter fun x => dieOf x.1 == d, added.filter fun p => dieOf p == d,
      removed.filter fun p => dieOf p == d, transient⟩
    { u with lanes := u.lanes.upd (32 * d + n) (· ++ [.ilv cmd]) }
  t.phStatus n

/-- A phase leaves the active set: idle, or lost (R161, R164). -/
def Chip.phaseIdle (s : Chip) (p : Nat) : Chip :=
  let t := s.genStop p
  let t := (t.put (PHS.TRIM_TRIM p) 0).phUpd p fun h => { h with acc := 0, ramp := 0, lowSince := none }
  (t.put (PHS.STATE_ROLE p) (if (t.phases.get p).lost then 5 else 1)).putB (PHS.STATE_OFFPOS p) false

/-- A phase is started at its position, with trim 0 and its region from an IAVG of 0 (R160 step 2, R163, R167). -/
def Chip.phaseStart (s : Chip) (p pos role : Nat) (soft : Bool) : Chip :=
  let t := (s.put (PWM.PHOFS_OFS p) pos).put (PHS.OTGT_OTGT p) pos
  let t := (t.put (PHS.IAVG_IAVG p) 0).put (SEG.STAT_REGION p) 0
  let t := (t.put (PHS.TRIM_TRIM p) 0).phUpd p fun h =>
    { h with acc := 0, ramp := 0, sampleSum := 0, samples := 0, fresh := false }
  let t := (t.put (PHS.STATE_ROLE p) role).putB (PHS.STATE_OFFPOS p) false
  let t := { t with switches := (t.switches.upd (2 * p) fun w => { w with rotLast := t.now }).upd (2 * p + 1) fun w => { w with rotLast := t.now } }
  (t.genUpd p fun g => { g with soft := soft, phi := 0, shedOff := false }).genStart p

/-- A phase that stays takes its target; a transient add also ends its ramp, and brings it back from the end of a shed (R155, R163, R173). -/
def Chip.phaseStay (s : Chip) (p pos : Nat) (transient : Bool) : Chip :=
  let t := s.put (PHS.OTGT_OTGT p) pos
  let t := t.putB (PHS.STATE_OFFPOS p) ((t.gens.get p).phi != 0 || t.get (PWM.PHOFS_OFS p) != pos)
  let role := t.get (PHS.STATE_ROLE p)
  if transient && (role == 2 || role == 4) then
    ((t.put (PHS.STATE_ROLE p) 3).genUpd p fun g => { g with shedOff := false, soft := false }).genStart p
  else t

/-- A die carries out an add, shed or loss command (R155, R160, R163); a phase lost since the command was sent stays as it is (R164). -/
def Chip.ilvApply (s : Chip) (cmd : IlvCmd) : Chip :=
  let t := cmd.targets.foldl (fun u x =>
    if (u.phases.get x.1).lost then u
    else if cmd.added.contains x.1 then u.phaseStart x.1 x.2 (if cmd.transient then 3 else 2) (!cmd.transient)
    else u.phaseStay x.1 x.2 cmd.transient) s
  t.forEach cmd.removed fun p u => u.phaseIdle p

/-- A die carries out a loop-state command of loop n: an add, shed or loss, a start, or a stop (R25, R130, R155). -/
def Chip.cmdApply (s : Chip) (d n : Nat) : CtlWord → Chip
  | .duty _ => s
  | .ilv cmd => s.ilvApply cmd
  | .start pos => pos.foldl (fun u x => if (u.phases.get x.1).lost then u else u.phaseStart x.1 x.2 3 false) s
  | .stop => s.forEach (s.loopPhasesOn d n) fun p u => u.phaseIdle p

/-- INTERLEAVE_COMMAND: the loop's oldest word to the die is a loop-state command and has its turn on the lane; a bad check discards it (R25, R27, R155; log entry 169). -/
def Chip.ilvArrive (s : Chip) (d n : Nat) (good : Bool) : Chip :=
  match s.laneTake d n with
  | none | some (.duty _, _) => s
  | some (cmd, t) =>
    if !t.dieOn d then t
    else if !good then t.wordDiscard d n
    else ({ t with discards := t.discards.set (32 * d + n) 0 }.cmdApply d n cmd).phStatus n

/-- The procedure of a loop ends (R159). -/
def Chip.procEnd (s : Chip) (n : Nat) : Chip :=
  (s.put (PHSL.STATUS_PROC n) 0).lpUpd n fun h => { h with procPhase := none, shedSince := none }

/-- RAMPN, where below 4 acts as 4 (R162, R175). -/
def Chip.rampN (s : Chip) (n : Nat) : Nat := max 4 (s.get (PHSL.TIMING_RAMPN n))

/-- An add of one phase begins (R160 step 1); one that a hint floor needs ramps over 4 updates (R163). RAMPN is taken as the procedure begins: DESIGN CHOICE, log entry 170. -/
def Chip.phaseAdd (s : Chip) (n p : Nat) : Chip :=
  let h := s.loopPh.get n
  let rn := if h.act.length < h.floorN then 4 else s.rampN n
  let s := s.phUpd p fun h => { h with rampOf := rn, rampInc := 1 }
  let t := s.reinterleave n (s.byRank (h.act ++ [p])) [p] [] false
  (t.put (PHSL.STATUS_PROC n) 1).lpUpd n fun h => { h with procPhase := some p, shedSince := none }

/-- The next available phase outside the active set, lowest rank first; one that becomes available with a rank below an active one waits for such an add (R153, R159; DESIGN CHOICE, log entry 192). -/
def Chip.nextPhase (s : Chip) (n : Nat) : Option Nat :=
  (s.available n).find? fun p => !(s.loopPh.get n).act.contains p

/-- A shed of the top rank begins; its ramp falls from 1 (R161 step 1). -/
def Chip.phaseShed (s : Chip) (n p : Nat) : Chip :=
  let t := (s.put (PHS.STATE_ROLE p) 4).phUpd p fun h => { h with ramp := s.rampN n, rampOf := s.rampN n, rampInc := 1 }
  (t.put (PHSL.STATUS_PROC n) 2).lpUpd n fun h => { h with procPhase := some p, shedSince := none }

/-- A shed turns into an add of the same phase: the ramp rises from where it stands, by a quarter an update when a hint floor needs the phase, and a phase that is already high-impedance starts again (R163, R173). -/
def Chip.shedTurn (s : Chip) (n p : Nat) : Chip :=
  let fast := decide ((s.loopPh.get n).act.length ≤ (s.loopPh.get n).floorN)
  let t := (s.put (PHS.STATE_ROLE p) 2).put (PHSL.STATUS_PROC n) 1
  let t := if fast then t.phUpd p fun h => { h with ramp := 4 * h.ramp, rampOf := 4 * h.rampOf, rampInc := h.rampOf } else t
  let off := !(s.gens.get p).go
  (t.genUpd p fun g => { g with shedOff := false, soft := g.soft || off }).genStart p

/-- PHASE_IDLE_REPORT: the hub hears that a shed phase is idle and sends the shed command (R161 steps 3 and 4). -/
def Chip.idleReport (s : Chip) (p : Nat) : Chip :=
  match s.owner p with
  | none => s
  | some n =>
    if s.get (PHS.STATE_ROLE p) == 4 && !(s.gens.get p).go && (s.loopPh.get n).procPhase == some p then
      let t := s.reinterleave n ((s.loopPh.get n).act.erase p) [] [p] false
      ((t.event (PHSL.EVT_SHEDF n) (PHSL.EVTCNT_SHEDCNT n) (0x140 + n)).procEnd n).phStatus n
    else s

/-- The transient add: every available inactive phase at once; it ends an add or shed in progress, and sets no ADDF (R163; DESIGN CHOICE, log entry 194). -/
def Chip.transientAdd (s : Chip) (n : Nat) : Chip :=
  let h := s.loopPh.get n
  let all := s.available n
  let added := all.filter fun p => !h.act.contains p
  let t := s.reinterleave n (s.byRank (h.act ++ added)) added [] true
  (t.put (PHSL.STATUS_PROC n) 3).lpUpd n fun h => { h with procPhase := none, shedSince := none }

/-- A phase is declared lost (R164): reason 1 absent, 2 stage fault, 3 usable below MINUSE (R494). -/
def Chip.phaseLost (s : Chip) (p reason sflt : Nat) : Chip :=
  match s.owner p with
  | none => s
  | some n =>
    if (s.phases.get p).lost then s
    else
      let before := (s.available n).length
      let act := (s.loopPh.get n).act
      let t := (s.phUpd p fun h => { h with lost := true }).phaseIdle p
      let t := t.event (PHSL.EVT_LOSTF n) (PHSL.EVTCNT_LOSTCNT n) (0x140 + n)
      let t := t.raise ⟨0x2124, p, BitVec.ofNat 32 (reason + 256 * sflt)⟩
      let t := if (t.loopPh.get n).procPhase = some p then t.procEnd n else t
      let t := if act.contains p then t.reinterleave n (act.erase p) [] [] false else t
      let t := if t.nmin n ≤ before && decide ((t.available n).length < t.nmin n) then
          (t.event (PHSL.EVT_NMINF n) (PHSL.EVTCNT_NMINCNT n) (0x140 + n)).raise ⟨0x4125, n, t.reg (LOOP.ERRMON n)⟩
        else t
      t.phStatus n

/-- A word joins the lane of loop n to die d (R25). -/
def Chip.laneSend (s : Chip) (d n : Nat) (w : CtlWord) : Chip := { s with lanes := s.lanes.upd (32 * d + n) (· ++ [w]) }

/-- A loop starts: N is the number of available phases and B is 0, and every die that holds one is sent the start command (R25, R130, R154, R159). -/
def Chip.phasesStart (s : Chip) (n : Nat) : Chip :=
  let all := s.available n
  let per := s.genPeriod (all.headD 0)
  let t := (s.put (PHSL.BASE_B n) 0).lpUpd n fun h => { h with act := all, shedSince := none, procPhase := none }
  let t := t.put (PHSL.STATUS_PROC n) 0
  let pos := all.map fun p => (p, ilvPos per all.length (idxOf all p) % orOne per)
  let t := t.forEach (t.loopDies n) fun d u => u.laneSend d n (.start (pos.filter fun x => dieOf x.1 == d))
  (t.gridMark (gridBal n)).phStatus n

/-- A loop's procedures end, and every powered die that holds a phase of it is sent the stop command (R25, R82, R173). A procedure of a soft stop runs on until OFF: DESIGN CHOICE, log entry 196. -/
def Chip.phasesStop (s : Chip) (n : Nat) : Chip :=
  let t := (s.put (PHSL.STATUS_PROC n) 0).lpUpd n fun h => { h with act := [], shedSince := none, procPhase := none }
  let t := t.forEach [1, 2, 3, 4, 5, 6, 7] fun d u =>
    let u := { u with means := u.means.set (32 * d + n) none }
    if u.dieOn d && !(u.loopPhasesOn d n).isEmpty then u.laneSend d n .stop else u
  t.phStatus n

end Sys2Proof.Machine
end

