-- ==== Sys2Proof/Machine/Segments.lean ====
section
/-! DEFINITION. The segment manager: the health map's working copy, counts, windows and wear rotation (R165 to R172). -/

namespace Sys2Proof.Machine

/-- The event-hub source of SEG[p] and IADC[p] (R390). -/
def srcSeg (p : Nat) : Nat := 0x420 + 0x80 * (p / 32) + p % 32

def Chip.swUpd (s : Chip) (p sw : Nat) (f : SwitchHw → SwitchHw) : Chip := { s with switches := s.switches.upd (2 * p + sw) f }

/-- The installed count of a switch that IDENT reported; 0 before (R187). -/
def Chip.segInst (s : Chip) (p sw : Nat) : Nat := if sw = 0 then (s.phases.get p).hsn else (s.phases.get p).lsn

/-- The key of byte b of a switch's map (R170). -/
def mapKey (p sw b : Nat) : Nat := 256 * (32 * p + 16 * sw) + b

/-- The state of a segment; beyond the installed count it is retired (R170). -/
def Chip.segCode (s : Chip) (p sw seg : Nat) : Nat :=
  let n := s.segInst p sw
  if n != 0 && decide (n ≤ seg) then 3 else (s.mapBytes.get (mapKey p sw (seg / 4))).toNat / 4 ^ (seg % 4) % 4

/-- A byte of a switch's map (R170). -/
def Chip.mapByte (s : Chip) (p sw b : Nat) : Nat :=
  (List.range 4).foldl (fun a k => a + 4 ^ k * s.segCode p sw (4 * b + k)) 0

/-- The segments of a switch's tile that are installed and not masked. -/
def Chip.tileUsable (s : Chip) (p sw j : Nat) : Nat :=
  ((List.range 1024).filter fun k => decide (1024 * j + k < s.segInst p sw) && decide (s.segCode p sw (1024 * j + k) < 2)).length

/-- The usable segments of a switch: installed, good or weak, and not in a tile that is sent masked (R168, R180, R496). -/
def Chip.segUsable (s : Chip) (p sw : Nat) : Nat :=
  let lost := ((List.range 16).filter fun j => s.badTiles.contains (32 * p + 16 * sw + j)).foldl (fun a j => a + s.tileUsable p sw j) 0
  let n := s.segInst p sw
  let b0 := mapKey p sw 0
  let masked := (s.mapBytes.entries.filter fun e => decide (b0 ≤ e.1) && decide (e.1 < b0 + 4096)).foldl (fun a e =>
    a + ((List.range 4).filter fun k =>
      decide (4 * (e.1 - b0) + k < n) && decide (2 ≤ e.2.toNat / 4 ^ k % 4)).length) 0
  n - masked - lost

/-- The first segment at or after w, cyclically, that satisfies a test; w itself when none does. -/
def Chip.segSeek (s : Chip) (p sw w : Nat) (ok : Nat → Bool) : Nat :=
  let n := s.segInst p sw
  (((List.range n).map fun k => (w + k) % n).find? fun g => ok (s.segCode p sw g)).getD w

/-- The lane of a phase's stage (R182). -/
def laneOf (p : Nat) : Nat := 4 * dieOf p + p % 32 / 8

def Chip.laneUpd (s : Chip) (k : Nat) (f : LaneHw → LaneHw) : Chip := { s with stbLanes := s.stbLanes.upd k f }

/-- Maximal runs of chunks that hold only good segments go as one FILL frame, every other chunk in full (R191). `run` is the run that is open. -/
def Chip.mapFrames (s : Chip) (p sw : Nat) (good : Nat → Bool) : List Nat → Option (Nat × Nat) → List StbJob
  | [], none => []
  | [], some (c, k) => [.mapw (p % 8) sw c (some (0, k))]
  | c :: l, run =>
    if good c then
      match run with
      | some (b, k) => if b + k + 1 = c then s.mapFrames p sw good l (some (b, k + 1))
        else .mapw (p % 8) sw b (some (0, k)) :: s.mapFrames p sw good l (some (c, 0))
      | none => s.mapFrames p sw good l (some (c, 0))
    else
      match run with
      | some (b, k) => .mapw (p % 8) sw b (some (0, k)) :: .mapw (p % 8) sw c none :: s.mapFrames p sw good l none
      | none => .mapw (p % 8) sw c none :: s.mapFrames p sw good l none

/-- A chunk holds only good segments, and its tile passes its check (R191, R496). -/
def Chip.chunkGood (s : Chip) (p sw c : Nat) : Bool := !s.badTiles.contains (32 * p + 16 * sw + c / 8) && (List.range 32).all fun k => s.mapByte p sw (32 * c + k) == 0

/-- Queues on the lane what a present stage's switches owe, unless a write is on its way (R167, R193). -/
def Chip.segPump (s : Chip) (p : Nat) : Chip :=
  let a := s.switches.get (2 * p)
  let b := s.switches.get (2 * p + 1)
  let hs := a.due || !a.chunks.isEmpty
  let ls := b.due || !b.chunks.isEmpty
  if !s.stagePresent p || (s.phases.get p).inflight || !(hs || ls) then s
  else
    let jobs := a.chunks.map (fun c => StbJob.mapw (p % 8) 0 c none) ++ b.chunks.map (fun c => StbJob.mapw (p % 8) 1 c none)
      ++ [StbJob.cntw (p % 8) hs ls]
    let t := (s.swUpd p 0 fun w => { w with due := false, chunks := [] }).swUpd p 1 fun w => { w with due := false, chunks := [] }
    (t.phUpd p fun h => { h with inflight := true }).laneUpd (laneOf p) fun q => { q with segQ := q.segQ ++ jobs }

/-- A switch is to have a count (R167). -/
def Chip.segSetC (s : Chip) (p sw c : Nat) : Chip :=
  if (s.switches.get (2 * p + sw)).wantC = c then s else s.swUpd p sw fun w => { w with wantC := c, due := true }

/-- USE follows the map (R180). -/
def Chip.segUseShow (s : Chip) (p : Nat) : Chip := (s.put (SEG.USE_HS p) (s.segUsable p 0)).put (SEG.USE_LS p) (s.segUsable p 1)

/-- A switch of an owned phase has fewer usable segments than MINUSE ÷ 256 of the installed count (R164). -/
def Chip.segShort (s : Chip) (p : Nat) : Bool :=
  match s.owner p with
  | none => false
  | some n => [0, 1].any fun sw => decide (s.segUsable p sw * 256 < s.get (SEGL.USEMIN_MINUSE n) * s.segInst p sw)

/-- USE follows the map, and a phase with too few usable segments is lost (R164, R180). -/
def Chip.segUseRefresh (s : Chip) (p : Nat) : Chip :=
  let t := s.segUseShow p
  if t.stagePresent p && t.segShort p then t.phaseLost p 3 0 else t

/-- Marks a tile of the health map as changed (R172). -/
def Chip.tileDirty (s : Chip) (tile : Nat) (failed : Bool) : Chip :=
  let d := dieOf (tile / 32)
  match s.dirtyTiles.get tile with
  | some e =>
    { s with dirtyTiles := s.dirtyTiles.set tile (some ⟨if failed && !e.failed then s.now else e.since, e.failed || failed⟩) }
  | none =>
    let t := { s with dirtyTiles := s.dirtyTiles.set tile (some ⟨s.now, failed⟩) }
    t.put (SEGP.MAPST_DIRTY d) (t.get (SEGP.MAPST_DIRTY d) + 1)

/-- A segment takes a state in the working copy; its stage is sent the usability change (R171, R193). -/
def Chip.segWrite (s : Chip) (p sw seg code : Nat) : Chip :=
  let k := mapKey p sw (seg / 4)
  let t := { s with mapBytes := s.mapBytes.set k (BitVec.ofNat 8 ((s.mapBytes.get k).toNat
    - (s.mapBytes.get k).toNat / 4 ^ (seg % 4) % 4 * 4 ^ (seg % 4) + code * 4 ^ (seg % 4))) }
  let t := t.tileDirty (k / 256) (code == 2)
  t.swUpd p sw fun w => { w with due := true, chunks := if w.chunks.contains (seg / 128) then w.chunks else w.chunks ++ [seg / 128] }

/-- The detail word of 0x0130 and 0x0131 (R494). -/
def segDetail (sw seg : Nat) : Word := BitVec.ofNat 32 (sw * 2 ^ 31 + seg)

/-- A stage reports a segment fault or an imbalance (R171). -/
def Chip.segReport (s : Chip) (p sw seg : Nat) (imbalance : Bool) : Chip :=
  let d := dieOf p
  let toFailed (t : Chip) := (((t.segWrite p sw seg 2).event (SEG.EVT_FAILF p) (SEG.EVTCNT_FAILCNT p) (srcSeg p)).raise
    ⟨0x0131, p, segDetail sw seg⟩).segUseRefresh p |>.segPump p
  match imbalance, s.segCode p sw seg with
  | true, 0 => (((s.segWrite p sw seg 1).event (SEG.EVT_WEAKF p) (SEG.EVTCNT_WEAKCNT p) (srcSeg p)).raise
      ⟨0x0130, p, segDetail sw seg⟩).segPump p
  | true, 1 => if s.bit (SEGP.CTRL_WK2F d) then toFailed s else s.inc (SEG.EVTCNT_WEAKCNT p)
  | true, _ => s.inc (SEG.EVTCNT_WEAKCNT p)
  | false, 0 | false, 1 => toFailed s
  | false, _ => s.inc (SEG.EVTCNT_FAILCNT p)

/-- SEGMENT_RETIRE: a range of a switch's segments is retired, up to the end of the switch (R171, R181). -/
def Chip.segRetire (s : Chip) (p : Nat) : Chip :=
  let sw := s.get (SEG.RETIRE_SW p)
  let first := s.get (SEG.RETIRE_FIRST p)
  let n := s.get (SEG.RETIRE_NUM p)
  let segs := ((List.range (min n (16384 - first))).map (first + ·)).filter fun g => s.segCode p sw g != 3
  let t := s.forEach segs fun g u => u.segWrite p sw g 3
  let t := segs.foldl (fun u _ => u.event (SEG.EVT_RETF p) (SEG.EVTCNT_RETCNT p) (srcSeg p)) t
  if segs.isEmpty then t else (t.segUseRefresh p).segPump p

/-- The table of loop n in force; without one every count is the whole switch (R165). -/
def Chip.segTable (s : Chip) (n : Nat) : List (Nat × Nat × Nat) :=
  let t := (s.loopPh.get n).table
  if t.isEmpty then [(0, 256, 256)] else t

/-- Row k's threshold. -/
def rowIth (t : List (Nat × Nat × Nat)) (k : Nat) : Nat := ((t[k]?).getD (0, 256, 256)).1

/-- The region for an average current (R166). -/
def nextRegion (t : List (Nat × Nat × Nat)) (hys k : Nat) (iavg : Int) : Nat :=
  let top (f : Nat → Bool) := ((List.range t.length).filter f).foldl max 0
  let up := top fun j => decide (((rowIth t j : Nat) : Int) ≤ iavg)
  if k < up then up
  else if iavg < ((rowIth t k : Nat) : Int) - hys then top fun j => decide (((rowIth t j : Nat) : Int) - hys ≤ iavg)
  else k

/-- The count that a region wants of a switch, and whether the usable count limits it (R166). -/
def Chip.segWanted (s : Chip) (n p sw region : Nat) : Nat × Bool :=
  let row := ((s.segTable n)[region]?).getD (0, 256, 256)
  let inst := s.segInst p sw
  let use := s.segUsable p sw
  if !s.bit (SEGL.CTRL_SEGAUTO n) || s.get (LOOP.STATUS_STATE n) != 2 || s.get (PHSL.STATUS_PROC n) == 3 then (use, false)
  else
    let f := if sw = 0 then row.2.1 else row.2.2
    let c := max 1 ((f * inst + 255) / 256)
    (min c use, decide (use < c))

/-- The region register and the wanted counts of phase p follow its IAVG: increases at once, decreases after the dwell, which a rise that still wants fewer than are in force does not restart (R166, R167; DESIGN CHOICE, log entry 195). -/
def Chip.segUpdate (s : Chip) (n p : Nat) (iavg : Int) : Chip :=
  let k := s.get (SEG.STAT_REGION p)
  let r := max (nextRegion (s.segTable n) (s.get (SEGL.CFG_HYS n)) k iavg) (s.loopPh.get n).floorReg
  let t := s.put (SEG.STAT_REGION p) r
  let a := t.segWanted n p 0 r
  let b := t.segWanted n p 1 r
  let ca := (t.switches.get (2 * p)).wantC
  let cb := (t.switches.get (2 * p + 1)).wantC
  let clip (u : Chip) (on : Bool) : Chip := if on then u.event (SEG.EVT_CLIPF p) (SEG.EVTCNT_CLIPCNT p) (srcSeg p) else u
  let t := clip (clip t a.2) b.2
  let t := t.segSetC p 0 (max a.1 (min ca (t.segUsable p 0)))
  let t := t.segSetC p 1 (max b.1 (min cb (t.segUsable p 1)))
  let lower := decide (a.1 < ca) || decide (b.1 < cb)
  let t := t.phUpd p fun h => { h with lowSince := if lower then (match h.lowSince with | some x => some x | none => some t.now) else none }
  t.segPump p

/-- SEGMENT_DECREASE_DWELL: counts are lowered only of an active phase, while no procedure runs on its loop (R167). -/
def Chip.segDecrease (s : Chip) (p : Nat) : Chip :=
  match s.owner p, (s.phases.get p).lowSince with
  | some n, some x =>
    if x + orOne (s.get (SEGL.ROT_SDWELL n)) ≤ s.now && s.get (PHSL.STATUS_PROC n) == 0 && s.get (PHS.STATE_ROLE p) == 3 then
      let r := s.get (SEG.STAT_REGION p)
      let t := (s.segSetC p 0 (s.segWanted n p 0 r).1).segSetC p 1 (s.segWanted n p 1 r).1
      (t.phUpd p fun h => { h with lowSince := none }).segPump p
    else s
  | _, _ => s

/-- Wear rotation acts on a switch of an active phase (R169, R181). -/
def Chip.rotOn (s : Chip) (p sw : Nat) : Bool :=
  match s.owner p with
  | none => false
  | some n =>
    let role := s.get (PHS.STATE_ROLE p)
    (role == 2 || role == 3 || role == 4) && s.stagePresent p && s.get (PHSL.STATUS_PROC n) != 3
      && s.get (SEGL.ROT_ROTINT n) != 0 && decide ((s.switches.get (2 * p + sw)).wantC < s.segUsable p sw) && s.segInst p sw != 0

/-- The number of rotation instants of phase p up to count x: every ROTINT ms, at most 10,000, the 32 phases of a die spread over the interval (R169). They are counted from the counter's zero: DESIGN CHOICE, log entry 171. -/
def Chip.rotSlot (s : Chip) (n p x : Nat) : Nat :=
  let i := 1000 * min 10000 (orOne (s.get (SEGL.ROT_ROTINT n)))
  (x + i - p % 32 * i / 32) / i

/-- WEAR_ROTATION: a rotation instant since the last rotation; the window start of the switch advances (R169). -/
def Chip.wearRotate (s : Chip) (p sw : Nat) : Chip :=
  match s.owner p with
  | none => s
  | some n =>
    let inst := s.segInst p sw
    let w := s.switches.get (2 * p + sw)
    if !s.rotOn p sw || !decide (s.rotSlot n p w.rotLast < s.rotSlot n p s.now) then s
    else
      let w' := s.segSeek p sw ((w.wantW + orOne (s.get (SEGL.CFG_ROTSTEP n))) % inst) (· != 3)
      (s.swUpd p sw fun h => { h with wantW := w', due := true, rotLast := s.now }).segPump p

/-- The table in the BP registers (R165, R179). -/
def Chip.bpTable (s : Chip) (n : Nat) : List (Nat × Nat × Nat) :=
  (List.range 8).map fun k => (s.get (SEGL.BP_ITH n k), s.get (SEGL.BP_HSF n k), s.get (SEGL.BP_LSF n k))

/-- The rules a table must keep (R165). -/
def tableOk (fmin : Nat) (t : List (Nat × Nat × Nat)) : Bool :=
  rowIth t 0 == 0
    && (t.zip t.tail).all (fun x => decide (x.1.1 < x.2.1) && decide (x.1.2.1 ≤ x.2.2.1) && decide (x.1.2.2 ≤ x.2.2.2))
    && t.all fun r => decide (fmin ≤ r.2.1) && decide (r.2.1 ≤ 256) && decide (fmin ≤ r.2.2) && decide (r.2.2 ≤ 256)

/-- SEG_TABLE_SUBMIT: the eight rows are taken, or the table before stays (R165). -/
def Chip.tableSubmit (s : Chip) (n : Nat) : Chip :=
  let t := s.bpTable n
  if tableOk (s.get (SEGL.USEMIN_FMIN n)) t then s.lpUpd n fun h => { h with tableNext := some t }
  else s.event (SEGL.CTRL_TBLERRF n) (SEGL.CTRL_TBLERRCNT n) (0x160 + n)

/-- A table submitted takes effect at a balance update (R165). -/
def Chip.tableTake (s : Chip) (n : Nat) : Chip :=
  match (s.loopPh.get n).tableNext with
  | some t => s.lpUpd n fun h => { h with table := t, tableNext := none }
  | none => s

/-- Every active phase's counts rise to all usable segments (R163). -/
def Chip.segRaiseAll (s : Chip) (n : Nat) : Chip :=
  s.forEach (s.loopPh.get n).act fun p t =>
    ((t.segSetC p 0 (t.segUsable p 0)).segSetC p 1 (t.segUsable p 1)).segPump p

end Sys2Proof.Machine
end

