-- ==== Sys2Proof/Machine/Balance.lean ====
section
/-! DEFINITION. Current balance and the procedures that add and shed phases (R157 to R163). -/

namespace Sys2Proof.Machine

/-- The loop stops: no die's sum for it counts any more (R215). -/
def Chip.sumsDrop (s : Chip) (n : Nat) : Chip := s.forEach [1, 2, 3, 4, 5, 6, 7] fun d u => { u with sums := u.sums.set (32 * d + n) 0 }

/-- A commit has changed which dies hold phases: one that holds none of a loop is no die of it, and its sum counts no more (R215). -/
def Chip.sumsFit (s : Chip) : Chip :=
  s.forEach (List.range 32) fun n t => t.forEach ([1, 2, 3, 4, 5, 6, 7].filter fun d => (t.loopPhasesOn d n).isEmpty) fun d u =>
    if u.sums.get (32 * d + n) = 0 || !u.dieOn d then u else { u with sums := u.sums.set (32 * d + n) 0 }

/-- The loop's current sum at the hub: the latest sum of every die, of one that sends nothing too, Q14.4, saturating (R22, R215). -/
def Chip.loopSum (s : Chip) (n : Nat) : Int :=
  satS 18 ([1, 2, 3, 4, 5, 6, 7].foldl (fun a d => a + s.sums.get (32 * d + n)) 0)

/-- The add condition (R159); N falls only by the shed command (R161, R173). -/
def Chip.addCond (s : Chip) (n : Nat) : Bool :=
  decide ((((s.loopPh.get n).act.length * s.get (PHSL.THRESH_PADD n) : Nat) : Int) ≤ s.loopSum n)

/-- The shed condition (R159). -/
def Chip.shedCond (s : Chip) (n : Nat) : Bool :=
  let h := s.loopPh.get n
  let k := h.act.length
  decide (s.loopSum n ≤ (((k - 1) * s.get (PHSL.THRESH_PSHED n) : Nat) : Int)) && decide (s.nmin n < k) && decide (h.floorN < k)
    && decide (1 < k) && h.act.all (fun p => s.get (SEG.STAT_REGION p) == 0)
    && decide (s.get (PHSL.THRESH_PSHED n) < s.get (PHSL.THRESH_PADD n))

/-- What the phase manager evaluates at a balance update with the loop in RUN (R159, R163, R173). -/
def Chip.evalProcs (s : Chip) (n : Nat) : Chip :=
  let h := s.loopPh.get n
  let k := h.act.length
  let proc := s.get (PHSL.STATUS_PROC n)
  let auto := s.bit (PHSL.CTRL_AUTO n)
  if proc = 0 then
    match s.nextPhase n with
    | some p =>
      if !auto || decide (k < h.floorN) || s.addCond n then s.phaseAdd n p
      else s.lpUpd n fun h => { h with shedSince := if s.shedCond n then (match h.shedSince with | some x => some x | none => some s.now) else none }
    | none =>
      s.lpUpd n fun h => { h with shedSince := if auto && s.shedCond n then (match h.shedSince with | some x => some x | none => some s.now) else none }
  else if proc = 2 then
    match h.procPhase with
    | some p => if auto && s.addCond n || decide (k ≤ h.floorN) then s.shedTurn n p else s
    | none => s
  else s

/-- BALANCE_UPDATE, every BALINT µs on the grid: the loop mean goes to every die that holds an active phase, and the procedures are evaluated (R157, R159, R539). -/
def Chip.balanceUpdate (s : Chip) (n : Nat) : Chip :=
  let act := (s.loopPh.get n).act
  if act.isEmpty || !s.coreRuns || !s.gridOrTb3 (gridBal n) (orOne (s.get (PHSL.TIMING_BALINT n))) then s
  else
    let t := (s.gridTake (gridBal n) (orOne (s.get (PHSL.TIMING_BALINT n)))).tableTake n
    let mean := satS 18 (rne (t.loopSum n) act.length)
    let t := t.forEach (t.loopDies n) fun d u =>
      if act.any fun p => dieOf p == d then { u with means := u.means.set (32 * d + n) (some mean) } else u
    (if t.get (LOOP.STATUS_STATE n) == 2 then t.evalProcs n else t).phStatus n

/-- SHED_DWELL_EXPIRE: the shed begins once PDWELL has passed, at a balance update or not (R159; DESIGN CHOICE, log entry 193). -/
def Chip.shedDwell (s : Chip) (n : Nat) : Chip :=
  let h := s.loopPh.get n
  match h.shedSince, h.act.getLast? with
  | some x, some p =>
    if x + s.get (PHSL.TIMING_PDWELL n) ≤ s.now && s.get (PHSL.STATUS_PROC n) == 0 && s.bit (PHSL.CTRL_AUTO n)
      && s.get (LOOP.STATUS_STATE n) == 2 && s.shedCond n then s.phaseShed n p else s
  | _, _ => s

/-- The balance of a phase is frozen (R158). -/
def Chip.balFrozen (s : Chip) (n p : Nat) : Bool :=
  let tag := s.lastTag.get (32 * dieOf p + n)
  s.get (LOOP.STATUS_STATE n) != 2 || tag == 1 || tag == 2 || s.bit (PWM.TRIPST_TRIPPED p)
    || (s.phases.get p).samples == 0 || !s.bit (PHSL.CTRL_BALEN n)

/-- The ramp of an adding or shedding phase advances, except under TRHI (R160, R161, R173). -/
def Chip.rampStep (s : Chip) (n p : Nat) : Chip :=
  if s.lastTag.get (32 * dieOf p + n) = 1 then s
  else if s.get (PHS.STATE_ROLE p) = 2 then s.phUpd p fun h => { h with ramp := min h.rampOf (h.ramp + h.rampInc) }
  else if s.get (PHS.STATE_ROLE p) = 4 then s.phUpd p fun h => { h with ramp := h.ramp - h.rampInc }
  else s

/-- One phase's balance update: IAVG, trim, the ends of its ramp, and its segment region (R158, R160, R161, R166). -/
def Chip.balPhase (s : Chip) (n p : Nat) (mean : Int) : Chip :=
  let frozen := s.balFrozen n p
  let t := s.rampStep n p
  let h := t.phases.get p
  let rn := orOne h.rampOf
  let t := if h.samples = 0 then t else t.putS (PHS.IAVG_IAVG p) (rne h.sampleSum h.samples)
  let iavg := t.getS (PHS.IAVG_IAVG p)
  let role := t.get (PHS.STATE_ROLE p)
  let k : Nat := if role == 2 || role == 4 then min rn h.ramp else rn
  let lim : Int := (t.get (PHS.BAL_TRMAX p) * 256 : Nat)
  let acc := min (max (h.acc + rne ((t.get (PHS.BAL_KB p) : Int) * (mean * k - iavg * rn)) (16 * rn)) (-lim)) lim
  let t := t.putB (PHS.STATE_FROZEN p) frozen
  let t := t.phUpd p fun h => { h with sampleSum := 0, samples := 0, acc := if frozen then h.acc else acc }
  let t := if frozen then t else t.putS (PHS.TRIM_TRIM p) (rne acc 256)
  let t := if 8 ≤ iavg then t.genUpd p fun g => { g with soft := false } else t
  -- The end of an add (R160 step 4), and of a shed's ramp (R161 step 2).
  let t := if role = 2 && decide (rn ≤ h.ramp) then
      let u := t.put (PHS.STATE_ROLE p) 3
      (u.event (PHSL.EVT_ADDF n) (PHSL.EVTCNT_ADDCNT n) (0x140 + n)).procEnd n
    else if role = 4 && (decide (iavg ≤ 8) || h.ramp == 0) then t.genUpd p fun g => { g with shedOff := true }
    else t
  t.segUpdate n p iavg

/-- MEAN_ARRIVE (R158). -/
def Chip.meanArrive (s : Chip) (d n : Nat) : Chip :=
  let key := 32 * d + n
  match s.means.get key with
  | none => s
  | some mean =>
    let t := { s with means := s.means.set key none }
    if !t.dieOn d then t
    else
      let t := t.put (PHSP.MEAN_MEAN d n) (bitsOf 18 mean)
      t.forEach ((t.loopPhasesOn d n).filter fun p =>
        let r := t.get (PHS.STATE_ROLE p)
        r == 2 || r == 3 || (r == 4 && (t.gens.get p).go)) fun p u => u.balPhase n p mean

end Sys2Proof.Machine
end

