-- ==== Sys2Proof/Machine/Converters.lean ====
section
/-! DEFINITION. Error, phase-current and sequenced converters (R206 to R237). -/

namespace Sys2Proof.Machine

/-- The error code for a rail voltage in units of a quarter LSB, 62.5 µV (R206). -/
def Chip.errorCode (s : Chip) (n : Nat) (vdiff : Int) : Int :=
  satS 12 (rne (4 * (s.get (LOOP.TARGET_VTGT n) : Int) - vdiff + s.getS (EADC.CFG_OFSADJ n)) 4)

/-- The saturation flags of an error converter; a run counts once (R209). -/
def Chip.eadcSat (s : Chip) (n : Nat) (code : Int) : Chip :=
  let k := if code = 2047 then 1 else if code = -2048 then 2 else 0
  let t := { s with satRuns := s.satRuns.set n k }
  if k = s.satRuns.get n || k = 0 then t
  else if k = 1 then t.event (EADC.EVT_SATHF n) (EADC.EVTCNT_SATHCNT n) (0x1c0 + n)
  else t.event (EADC.EVT_SATLF n) (EADC.EVTCNT_SATLCNT n) (0x1c0 + n)

/-- TRIGGER_FIRE: a trigger fires; less than 125 ns after the previous hold it is held back, and dropped while another waits (R133, R210, R212). -/
def Chip.triggerFire (s : Chip) (p k : Nat) (soon : Bool) : Chip :=
  if !s.trigMay p k then s
  else
    let t := s.genUpd p fun g => { g with fired := setBitAt g.fired k true, carried := setBitAt g.carried k false }
    if !soon then t.phUpd p fun h => { h with convs := h.convs ++ [(k, false)] }
    else match (t.phases.get p).iadcWait with
      | none => t.phUpd p fun h => { h with iadcWait := some k }
      | some _ => t.event (IADC.EVT_COLF p) (IADC.EVTCNT_COLCNT p) (srcSeg p)

/-- IADC_DELAYED_START: the held-back trigger starts (R212). -/
def Chip.iadcDelayed (s : Chip) (p : Nat) : Chip :=
  match (s.phases.get p).iadcWait with
  | none => s
  | some k =>
    let t := s.phUpd p fun h => { h with iadcWait := none, convs := h.convs ++ [(k, true)] }
    t.event (IADC.EVT_DLYF p) (IADC.EVTCNT_DLYCNT p) (srcSeg p)

/-- The 10-bit code for a voltage above IMON_REF in nanovolts (R210). -/
def iadcCode (nv : Int) : Nat := (min (max (nv / 1171875) 0) 1023).toNat

/-- A result in amperes, Q10.4 (R211). -/
def Chip.iadcAmps (s : Chip) (p code : Nat) : Int :=
  satS 14 (rne (((code : Int) - s.get (IADC.CFG_ZERO p)) * s.get (IADC.CFG_GAIN p)) 256)

/-- IADC_RESULT (R211, R213, R214). -/
def Chip.iadcResult (s : Chip) (p : Nat) (nv : Int) : Chip :=
  match (s.phases.get p).convs with
  | [] => s
  | (k, dly) :: rest =>
    if !s.dieOn (dieOf p) then s
    else
      let code := iadcCode nv
      let amps := s.iadcAmps p code
      let sat := code == 0 || code == 1023
      let w := wordPut (wordPut (wordPut (wordPut 0 31 1 sat.toNat) 30 1 dly.toNat) 12 14 (bitsOf 14 amps)) 0 10 code
      let t := (s.setReg (if k = 0 then IADC.RES0 p else IADC.RES1 p) w).incWrap (IADC.CONV_COUNT p)
      let t := if sat && !(s.phases.get p).satRun then t.event (IADC.EVT_SATF p) (IADC.EVTCNT_SATCNT p) (srcSeg p) else t
      let bal := t.get (PHS.BAL_TSEL p) == k
      let sum := t.get (IADC.CFG_SUMSEL p) == k
      let t := t.phUpd p fun h =>
        { h with convs := rest, satRun := sat,
                 sampleSum := if bal then h.sampleSum + amps else h.sampleSum,
                 samples := if bal then h.samples + 1 else h.samples,
                 latest := if sum then amps else h.latest, fresh := h.fresh || sum }
      t.telSample 1 p k [w]

/-- CURRENT_SUM_LAUNCH: a die adds the latest sum results of the loop's adding, active and shedding phases and sends the sum (R215). -/
def Chip.sumLaunch (s : Chip) (d n : Nat) : Chip :=
  if !s.dieOn d || s.get (LOOP.STATUS_STATE n) == 0 then s
  else
    let ps := (s.loopPhasesOn d n).filter fun p => let r := s.get (PHS.STATE_ROLE p); r == 2 || r == 3 || r == 4
    let v := satS 18 (ps.foldl (fun a p => if (s.phases.get p).fresh then a + (s.phases.get p).latest else a) 0)
    let t := s.put (IADCP.SUM_SUM d n) (bitsOf 18 v)
    { t with sumLanes := t.sumLanes.upd (32 * d + n) (· ++ [v]) }

/-- The event-hub source of SQ[x] (R390). -/
def srcSq (x : Nat) : Nat := if x < 2 then 0xd0 + x else 0x441 + 0x80 * (x - 2)

def Chip.sqUpd (s : Chip) (x : Nat) (f : SqHw → SqHw) : Chip := { s with sqs := s.sqs.upd x f }

/-- A converter's domain is on (R228). -/
def Chip.sqOn (s : Chip) (x : Nat) : Bool := if x < 2 then s.domOn .hka else s.dieOn (x - 1)

/-- STAT.ACT (R234). -/
def SqHw.act (h : SqHw) : Nat :=
  match h.run with
  | .entry _ => 1
  | .inject _ => 2
  | .cal _ => 3
  | .idle => if h.calPhase ≠ 0 then 3 else 0

/-- Begins a pass: settings of a commit that waited take effect by `load` beforehand (R222). -/
def SqHw.begin (h : SqHw) : SqHw := { h with pass := true, next := 0, slipped := false }

/-- The settings of an entry, as a conversion that starts now takes them (R226, R229). -/
def Chip.sqSet (s : Chip) (x e : Nat) : SqSet :=
  ⟨s.reg (SQ.ENT_CFG x e), s.getS (SQ.ENT_CALOFS_CALOFS x e), s.get (SQ.ENT_CALGAIN_CALGAIN x e)⟩

/-- A conversion of entry e starts. -/
def Chip.sqRun (s : Chip) (x e : Nat) (r : SqRun) : Chip := s.sqUpd x fun h => { h with run := r, inUse := s.sqSet x e }

/-- The injection that comes next starts. -/
def Chip.sqRunInj (s : Chip) (x : Nat) (i : SqInj) : Chip := s.sqRun x i.entry (.inject i.slot.val)

/-- The sequence at an entry boundary: a held START, a due pass or the next pass begins one (R222). -/
def Chip.sqPassNext (s : Chip) (x : Nat) : SqHw :=
  let h := s.sqs.get x
  let mode := s.get (SQ.CTRL_MODE x)
  if h.pass then h
  else if h.startHeld && mode != 0 then { { h with startHeld := false, stopped := false }.begin with passAt := s.now }
  else if h.stopped then h
  else if mode = 2 && (h.slipped || s.get (SQ.CTRL_REPINT x) == 0) then h.begin
  else h

/-- What runs at an entry boundary: during calibration the injections that were pending, then the step; otherwise injections, then the sequence (R222, R223, R226). -/
def Chip.sqNext (s : Chip) (x : Nat) : Chip :=
  let h := s.sqs.get x
  if h.run ≠ .idle then s
  else
    let t :=
      if h.calPhase ≠ 0 then
        match h.injs.find? (·.old) with
        | some i => s.sqRunInj x i
        | none =>
          if h.calPhase = 1 then ((s.put (SQ.CALST_STATUS x) 2).sqUpd x fun h => { h with calPhase := 2 }).sqRun x h.calEntry (.cal 0)
          else if h.calPhase = 2 then s.sqRun x h.calEntry (.cal 0)
          else if h.calPhase = 4 then s.sqRun x h.calEntry (.cal 1)
          else s
      else match h.injs with
        | i :: _ => s.sqRunInj x i
        | [] =>
          let h := s.sqPassNext x
          let t := s.sqUpd x fun _ => h
          if h.pass && !h.stopped && s.get (SQ.CTRL_MODE x) ≠ 0 then (t.put (SQ.STAT_CUR x) h.next).sqRun x h.next (.entry h.next)
          else t
    t.put (SQ.STAT_ACT x) (t.sqs.get x).act

/-- The attenuator of an input; none for the ratiometric ones (R217, R218). -/
def inputAtt (x i : Nat) : Option Nat :=
  if x < 2 then
    if i < 0x40 then some 4 else if i < 0x48 then none
    else if i = 0x4a then some 16 else if i = 0x4b then some 4 else if i = 0x4c then some 2 else some 1
  else if 0x21 ≤ i && i < 0x25 then none else if i = 0x29 then some 2 else some 1

/-- The raw filter result of an input under an entry's settings, before it is held to 24 bits (R216 to R218). -/
def SqSet.raw (q : SqSet) (x : Nat) (nanovolts : Int) (excitation : Nat) : Int :=
  let g := 2 ^ wordField q.cfg 20 3
  match inputAtt x (wordField q.cfg 24 7) with
  | some att => rne (nanovolts * g * 2 ^ 23) (att * 1250000000)
  | none => rne (nanovolts * g * 2 ^ 23) (orOne excitation)

/-- A raw code, or the side on which the modulator overloads: a raw result beyond 24 bits is such an overload (R216, R224). -/
def SqSet.code (q : SqSet) (x : Nat) : Conversion → Int ⊕ Bool
  | .overload pos => .inr pos
  | .input nv exc =>
    let r := q.raw x nv exc
    if 0x7fffff < r then .inr true else if r < -0x800000 then .inr false else .inl r

/-- The corrected result of a conversion, and whether it is over-range (R221, R224). -/
def SqSet.result (q : SqSet) (x : Nat) (c : Conversion) : Nat × Bool :=
  match q.code x c with
  | .inr pos => (if pos then 0x7fffff else 0x800000, true)
  | .inl v =>
    let r := rne ((v - q.ofs) * q.gain) (2 ^ 22)
    if 0x7fffff < r then (0x7fffff, true) else if r < -0x800000 then (0x800000, true) else (bitsOf 24 r, false)

/-- The over-range counter of entry e (R234). -/
def sqOvrc (x e : Nat) : Fld := ⟨SQ.OVRC x (e / 4), 8 * (e % 4), 8⟩

/-- A result of SQH0 or SQH1 on a rail's sense input is kept with its time and gain (R437). -/
def Chip.senseNote (s : Chip) (x : Nat) (q : SqSet) (res : Nat) : Chip :=
  let i := wordField q.cfg 24 7
  if x < 2 && i < 0x40 then { s with senseRes := s.senseRes.set i (s.now + 1, res, wordField q.cfg 20 3) } else s

/-- Loads the calibration settings of a converter-sequence tile (R230, R237). -/
def Chip.sqLoadCal (s : Chip) (x : Nat) (pl : List Byte) : Chip :=
  (s.put (SQ.CALCFG_CALHOLD x) (fieldLE pl 0x16 2)).put (SQ.CALCFG_CALAVG x) (fieldLE pl 0x13 1)

/-- Loads the sequence, entries and coefficients of a converter-sequence tile (R228, R230, R233). -/
def Chip.sqLoad (s : Chip) (x : Nat) (pl : List Byte) : Chip :=
  let n := fieldLE pl 0x11 1
  let t := ((s.put (SQ.CTRL_REPINT x) (fieldLE pl 0x14 2)).put (SQ.CTRL_LASTE x) (n - 1)).put (SQ.CTRL_MODE x) (fieldLE pl 0x12 1)
  t.forEach (List.range n) fun e u =>
    let u := u.setReg (SQ.ENT_CFG x e) (BitVec.ofNat 32 (fieldLE pl (0x20 + 14 * e) 4))
    let u := u.setReg (SQ.ENT_FILT x e) (BitVec.ofNat 32 (fieldLE pl (0x24 + 14 * e) 4))
    let u := u.put (SQ.ENT_CALOFS_CALOFS x e) (fieldLE pl (0x28 + 14 * e) 3)
    u.put (SQ.ENT_CALGAIN_CALGAIN x e) (fieldLE pl (0x2b + 14 * e) 3)

/-- Settings that a commit left for the next pass take effect between passes; a continuous sequence goes on or starts with them, unless STOP ended it, and a held START stays (R222, R228, R229). -/
def Chip.sqTake (s : Chip) (x : Nat) (halted : Bool) : Chip :=
  match (s.sqs.get x).nextTile with
  | none => s
  | some pl =>
    let t := s.sqLoad x pl
    let mode := t.get (SQ.CTRL_MODE x)
    t.sqUpd x fun h =>
      let h := { h with nextTile := none, pass := false, stopped := mode != 2 || halted }
      if mode = 2 && !halted then { h.begin with passAt := t.now } else h

/-- A pass ends (R222). -/
def Chip.sqPassEnd (s : Chip) (x : Nat) : Chip :=
  let t := (s.incWrap (SQ.STAT_SEQCNT x)).flag (SQ.EVT_SEQF x)
  let halted := (s.sqs.get x).stopped
  (((t.bell (srcSq x)).sqUpd x fun h => { h with pass := false, next := 0, stopped := h.stopped || t.get (SQ.CTRL_MODE x) == 1 }).sqTake x halted)

/-- SQ_ENTRY_COMPLETE: the result of the running entry; after the last one the pass ends, and after STOP the sequence does (R221, R222, R224). -/
def Chip.sqEntryDone (s : Chip) (x : Nat) (c : Conversion) : Chip :=
  let h := s.sqs.get x
  match h.run with
  | .entry e =>
    if !s.sqOn x then s
    else
      let r := h.inUse.result x c
      let t := (s.put (SQ.RES_SEQ x e) (s.get (SQ.STAT_SEQCNT x))).put (SQ.RES_RESULT x e) r.1
      let t := t.senseNote x h.inUse r.1
      let t := if r.2 then (((t.put (SQ.OVR_OVR x) (setBitAt (t.get (SQ.OVR_OVR x)) e true)).inc (sqOvrc x e)).bell (srcSq x)) else t
      let t := if wordField h.inUse.cfg 1 1 = 1 then t.bell (srcSq x) else t
      let t := if wordField h.inUse.cfg 0 1 = 1 then t.telSample 3 (16 * x + e) 0 [t.reg (SQ.RES x e)] else t
      let t := t.sqUpd x fun h => { h with run := .idle, next := e + 1 }
      let t := if t.get (SQ.CTRL_LASTE x) ≤ e then t.sqPassEnd x
        else if h.stopped then (t.sqUpd x fun h => { h with pass := false }).sqTake x true else t
      t.sqNext x
  | _ => s

/-- SQ_PASS_START: in continuous mode a pass is due every REPINT µs, or slips (R222). -/
def Chip.sqPassStart (s : Chip) (x : Nat) : Chip :=
  let h := s.sqs.get x
  let rep := s.get (SQ.CTRL_REPINT x)
  if !s.sqOn x || s.get (SQ.CTRL_MODE x) != 2 || h.stopped || rep == 0 || decide (s.now < h.passAt + rep) then s
  else
    let t := s.sqUpd x fun h => { h with passAt := s.now }
    if h.pass then
      if h.slipped then t
      else (t.event (SQ.EVT_SLIPF x) (SQ.EVTCNT_SLIPCNT x) (srcSq x)).sqUpd x fun h => { h with slipped := true }
    else (t.sqUpd x fun h => h.begin).sqNext x

/-- A write of CTRL.START: during a pass it is held, one deep, in single mode and in a continuous sequence that is being stopped (R222). -/
def Chip.sqStart (s : Chip) (x : Nat) : Chip :=
  let h := s.sqs.get x
  let mode := s.get (SQ.CTRL_MODE x)
  if mode = 1 || mode = 2 && h.stopped then (s.sqUpd x fun h => { h with startHeld := true }).sqNext x else s

/-- A write of CTRL.STOP: no entry starts after the running one (R222, R229). -/
def Chip.sqStop (s : Chip) (x : Nat) : Chip :=
  let t := s.sqUpd x fun h => { h with stopped := true, startHeld := false, slipped := false }
  match (s.sqs.get x).run with
  | .entry _ => t
  | _ => (t.sqUpd x fun h => { h with pass := false }).sqTake x true

/-- The first free slot after LAST, cyclically; slot 0 after a cold start (R223). -/
def Chip.sqSlot (s : Chip) (x : Nat) : Option Nat :=
  let h := s.sqs.get x
  let last := s.get (SQ.INJST_LAST x)
  let order := if h.fresh then [0, 1, 2, 3] else (List.range 4).map fun j => (last + 1 + j) % 4
  order.find? fun k => !h.injs.any fun i => i.slot.val == k

/-- An injection takes a slot (R223, R236). -/
def Chip.sqTakeSlot (s : Chip) (x k e : Nat) (confirm : Option Nat) : Chip :=
  let t := (s.put (SQ.INJST_LAST x) k).put (SQ.INJST_PEND x) (setBitAt (s.get (SQ.INJST_PEND x)) k true)
  (t.setReg (SQ.INJRES x k) 0).sqUpd x fun h => { h with fresh := false, injs := h.injs ++ [⟨Fin.ofNat 4 k, e, false, confirm⟩] }

/-- A write of INJREQ with GO = 1 (R223). -/
def Chip.sqInject (s : Chip) (x e : Nat) (pre : Bool) : Chip :=
  match s.sqSlot x with
  | none => s.event (SQ.EVT_INJREFF x) (SQ.EVTCNT_INJRCNT x) (srcSq x)
  | some k =>
    let t := s.sqTakeSlot x k e none
    let t := match pre, (t.sqs.get x).run with
      | true, .entry e => if (t.sqs.get x).calPhase = 0 then
          let u := t.sqUpd x fun h => { h with run := .idle, next := e, pass := h.pass && !h.stopped }
          if (u.sqs.get x).pass then u else u.sqTake x true
        else t
      | _, _ => t
    t.sqNext x

/-- The hardware asks for an injection; it waits when no slot is free (R223, R249). -/
def Chip.sqConfirm (s : Chip) (x e r : Nat) : Chip :=
  match s.sqSlot x with
  | none => s.sqUpd x fun h => { h with hwWait := h.hwWait ++ [(r, e)] }
  | some k => (s.sqTakeSlot x k e (some r)).sqNext x

/-- A slot is free again: a waiting hardware request takes one (R223). -/
def Chip.sqHwTake (s : Chip) (x : Nat) : Chip :=
  match (s.sqs.get x).hwWait with
  | [] => s
  | (r, e) :: l =>
    match s.sqSlot x with
    | none => s
    | some k => (s.sqUpd x fun h => { h with hwWait := l }).sqTakeSlot x k e (some r)

/-- SQ_INJECTION_COMPLETE: the result goes to its slot; the answer names the rail it confirms, its result and whether it is over-range (R223, R224, R226). -/
def Chip.sqInjDone (s : Chip) (x : Nat) (c : Conversion) : Chip × Option (Nat × Nat × Nat × Bool) :=
  match (s.sqs.get x).run with
  | .inject k =>
    match (s.sqs.get x).injs.find? (·.slot.val == k) with
    | none => (s, none)
    | some i =>
      if !s.sqOn x then (s, none)
      else
        let q := (s.sqs.get x).inUse
        let r := q.result x c
        let w := wordPut (wordPut (wordPut (wordPut (wordPut 0 31 1 1) 30 1 i.old.toNat) 29 1 r.2.toNat) 24 4 i.entry) 0 24 r.1
        let t := (s.setReg (SQ.INJRES x k) w).put (SQ.INJST_PEND x) (setBitAt (s.get (SQ.INJST_PEND x)) k false)
        let t := t.event (SQ.EVT_INJF x) (SQ.EVTCNT_INJCNT x) (srcSq x)
        let t := (if r.2 then t.inc (sqOvrc x i.entry) else t).senseNote x q r.1
        let t := t.sqUpd x fun h => { h with run := .idle, injs := h.injs.filter fun j => j.slot.val != k }
        ((t.sqHwTake x).sqNext x, i.confirm.map fun rail => (rail, i.entry, r.1, r.2))
  | _ => (s, none)

/-- A calibration ends with a status; every failure and the success set CALF (R227). -/
def Chip.calOver (s : Chip) (x status : Nat) : Chip :=
  ((s.put (SQ.CALST_STATUS x) status).event (SQ.EVT_CALF x) (SQ.EVTCNT_CALCNT x) (srcSq x)).sqUpd x fun h =>
    { h with calPhase := 0, run := (match h.run with | .cal _ => .idle | r => r) }

/-- A calibration ends, and the converter goes on. -/
def Chip.calEnd (s : Chip) (x status : Nat) : Chip := (s.calOver x status).sqNext x

/-- A write of CALCTL with GO = 1 (R225 to R227). -/
def Chip.calStep (s : Chip) (x step e : Nat) : Chip :=
  let h := s.sqs.get x
  let refuse := (s.put (SQ.CALST_STATUS x) 6).event (SQ.EVT_CALF x) (SQ.EVTCNT_CALCNT x) (srcSq x)
  if s.get (SQ.CTRL_LASTE x) < e then refuse
  else match step with
    | 0 =>
      if h.calPhase ≠ 0 then refuse
      else
        let t := (s.put (SQ.CALST_STATUS x) 1).sqUpd x fun h =>
          { h with calPhase := 1, calEntry := e, calAt := s.now, calHold := orOne (s.get (SQ.CALCFG_CALHOLD x)), calAvg := min 6 (s.get (SQ.CALCFG_CALAVG x)),
                   injs := h.injs.map fun i => { i with old := true } }
        t.sqNext x
    | 1 =>
      if h.calPhase = 3 && h.calEntry == e then
        ((s.put (SQ.CALST_STATUS x) 4).sqUpd x fun h => { h with calPhase := 4 }).sqNext x
      else refuse
    | _ => refuse

/-- A write of CALCTL.ABORT (R227). -/
def Chip.calAbort (s : Chip) (x : Nat) : Chip := if (s.sqs.get x).calPhase = 0 then s else s.calEnd x 7

/-- SQ_CALHOLD_EXPIRE (R226). -/
def Chip.calHoldExpire (s : Chip) (x : Nat) : Chip :=
  let h := s.sqs.get x
  if h.calPhase ≠ 0 && decide (h.calAt + 1000 * h.calHold ≤ s.now) then s.calEnd x 0xa else s

/-- The average of a calibration step's outputs, none when one of them is over-range (R225, R227). It is rounded to nearest with ties to even: DESIGN CHOICE, log entry 174. -/
def SqSet.average (q : SqSet) (x : Nat) (c : List Conversion) : Option Int :=
  (c.foldl (fun a v => match a, q.code x v with | some a, .inl r => some (a + r) | _, _ => none) (some 0)).map fun t => rne t c.length

/-- A step's average is there: the full step computes the coefficients (R225, R227). -/
def Chip.calAverage (s : Chip) (x step : Nat) (v : Int) : Chip :=
  let h := s.sqs.get x
  let t := s.putS (SQ.CALST_RAW x) v
  if step = 0 then
    let t := (t.put (SQ.CALST_STATUS x) 3).sqUpd x fun h => { h with calPhase := 3, calZero := v, run := .idle }
    t.put (SQ.STAT_ACT x) (t.sqs.get x).act
  else
    let ref := t.getS (SQ.CALCTL_REF x)
    let fz := v - h.calZero
    let num := ref * 2 ^ 22
    let gain := if fz = 0 then 0 else rne (if fz < 0 then -num else num) fz.natAbs
    if fz = 0 || decide (gain < 0x200000) || decide (0x800000 < gain) then t.calEnd x 8
    else
      let t := (t.put (SQ.ENT_CALOFS_CALOFS x h.calEntry) (bitsOf 24 h.calZero)).put (SQ.ENT_CALGAIN_CALGAIN x h.calEntry) gain.toNat
      t.calEnd x 5

/-- SQ_CALIBRATION_STEP_DONE: the running step has given its 2^CALAVG outputs (R225, R227). -/
def Chip.calDone (s : Chip) (x : Nat) (c : List Conversion) : Chip :=
  let h := s.sqs.get x
  match h.run with
  | .cal step =>
    if !s.sqOn x || c.length != 2 ^ h.calAvg then s
    else match h.inUse.average x c with
      | none => s.calEnd x 9
      | some v => s.calAverage x step v
  | _ => s

/-- The converter's domain goes off: a running calibration aborts, and pending injections end with no data (R227, R228, R236). -/
def Chip.sqLost (s : Chip) (x : Nat) : Chip :=
  let t := if (s.sqs.get x).calPhase ≠ 0 then
      (s.put (SQ.CALST_STATUS x) 7).event (SQ.EVT_CALF x) (SQ.EVTCNT_CALCNT x) (srcSq x) else s
  let t := (s.sqs.get x).injs.foldl (fun u i =>
    (u.setReg (SQ.INJRES x i.slot.val) (wordPut (wordPut (wordPut (wordPut 0 31 1 1) 30 1 i.old.toNat) 28 1 1) 24 4 i.entry)).put (SQ.INJST_PEND x)
      (setBitAt (u.get (SQ.INJST_PEND x)) i.slot.val false)) t
  { t with sqs := t.sqs.set x {} }

/-- A commit of the converter's tile: a running pass completes first; a running calibration aborts; the calibration settings are loaded at once (R229, R237). -/
def Chip.sqCommit (s : Chip) (x : Nat) (pl : List Byte) : Chip :=
  if !s.sqOn x then s
  else
    let t := (s.sqLoadCal x pl).sqUpd x fun h => { h with nextTile := some pl }
    let t := if (t.sqs.get x).calPhase ≠ 0 then t.calOver x 7 else t
    (if (t.sqs.get x).pass then t else t.sqTake x false).sqNext x

/-- The converter's domain comes on: it takes its committed tile, and a continuous sequence starts (R228). -/
def Chip.sqPowerUp (s : Chip) (x : Nat) (pl : Option (List Byte)) : Chip :=
  let t := { s with sqs := s.sqs.set x {} }
  match pl with
  | none => t
  | some p => (((t.sqLoadCal x p).sqUpd x fun h => { h with nextTile := some p }).sqTake x false).sqNext x

end Sys2Proof.Machine
end

