-- ==== Sys2Proof/Machine/Inject.lean ====
section
/-! DEFINITION. The guard windows (R356), and what a checker does with an armed injection (R359, R360). -/

namespace Sys2Proof.Machine

/-- GUARD and GREASON show the window that opened last among those still open (R356, R367). -/
def Chip.guardShow (s : Chip) : Chip :=
  let g := s.flt.windows.headD 0
  (s.put FLT.STAT_GREASON g).putB FLT.STAT_GUARD (g != 0)

/-- A guard window opens: 1 start-up, 2 warm start, 3 test, 4 recovery (R356). -/
def Chip.guardOpen (s : Chip) (g : Nat) : Chip :=
  if s.flt.windows.contains g then s else { s with flt := { s.flt with windows := g :: s.flt.windows } }.guardShow

/-- A guard window closes (R356). -/
def Chip.guardClose (s : Chip) (g : Nat) : Chip :=
  { s with flt := { s.flt with windows := s.flt.windows.filter (· != g) } }.guardShow

/-- The test window is open while TEST is set or an injection is armed (R356). -/
def Chip.guardTest (s : Chip) : Chip :=
  if s.bit FLT.GUARD_TEST || s.flt.inj.isSome then s.guardOpen 3 else s.guardClose 3

/-- An injection ends with a result: INJF is set and INJCNT counts it (R360). -/
def Chip.injEnd (s : Chip) (result : Nat) : Chip :=
  let t := (s.put FLT.INJ_RESULT result).put FLT.INJ_ARMED 0
  ({ t with flt := { t.flt with inj := none } }.event FLT.EVT_INJF FLT.EVTCNT2_INJCNT 4).guardTest

/-- A checker of target `tgt` makes a check; `real` says that it finds a true mismatch. An injection armed there is exercised: a checker that works reports it, and one that does not is found out (R359, R360). -/
def Chip.checkMade (s : Chip) (tgt : Nat) (real : Bool) : Chip :=
  match s.flt.inj with
  | some (t, works, _) =>
    if t ≠ tgt then s
    else if real || works then (s.raise ⟨0x0602, tgt, 0⟩).injEnd 2
    else (s.raise ⟨0x4601, tgt, 0⟩).injEnd 3
  | none => s

end Sys2Proof.Machine
end

