-- ==== Sys2Proof/Machine/Loop.lean ====
section
/-! DEFINITION. Loop engines: target ramp, control law, run-ahead, feed-forward, overruns, start and stop (R57 to R98). -/

namespace Sys2Proof.Machine

def Chip.engUpd (s : Chip) (n : Nat) (f : LoopHw → LoopHw) : Chip := { s with loops := s.loops.upd n f }

/-- The event-hub source of LOOP[n] (R390). -/
def srcLoop (n : Nat) : Nat := 0x100 + n

/-- Loop states (R80): 0 OFF, 1 STARTING, 2 RUN, 3 STOPPING, 4 TUNE. -/
def Chip.loopState (s : Chip) (n : Nat) : Nat := s.get (LOOP.STATUS_STATE n)

/-- The highest slew a loop may take (R261). -/
def Chip.slewMax (s : Chip) (n : Nat) : Nat := min (s.get (AVSL.SLEW_SLEWMAX n)) 50000

/-- What VTGT moves toward: the setpoint in force, or VSTOP in a stop (R59). -/
def Chip.goal (s : Chip) (n : Nat) : Nat :=
  if s.loopState n = 3 then wordField (s.loops.get n).run.soft 0 14 else s.get (AVSL.SETPT_SETPT n)

/-- RAMPING follows VTGT and reads 0 in OFF; while it is 1 the highest VTGT is held, and its fall starts the mask and the hold of RBLK (R89, R242, R243; log entry 158). The slew accumulator is cleared when VTGT is at its goal and when the goal turns to its other side (R59). -/
def Chip.rampRefresh (s : Chip) (n : Nat) : Chip :=
  let v := s.get (LOOP.TARGET_VTGT n)
  let ramp := s.loopState n != 0 && v != s.goal n
  let was := s.bit (LOOP.TARGET_RAMPING n)
  let h := s.loops.get n
  let dir : Int := if v < s.goal n then 1 else -1
  let t := s.putB (LOOP.TARGET_RAMPING n) ramp
  let t := if v = s.goal n then t.engUpd n fun h => { h with frac := 0 }
    else if h.dir = dir then t else t.engUpd n fun h => { h with frac := 0, dir := dir }
  if ramp then
    (t.put (CMPL.EVT_UVACT n) 0).engUpd n fun h => { h with maskAt := none, vhiAt := none, vhi := if was then max h.vhi v else v }
  else if was then t.engUpd n fun h => { h with maskAt := some t.now, vhiAt := some t.now, vhi := max h.vhi v }
  else t

/-- The values held for the AVSBus selects of a loop are discarded (R268). -/
def Chip.avsForget (s : Chip) (n : Nat) : Chip :=
  ((s.put (AVSL.SETPT_HELD n) 0).put (AVSL.SETPT_HOLDV n) 0).forEach (List.range 8) fun k v => { v with avsHw := v.avsHw.upd k fun a =>
    let mine := fun j => wordField (v.reg (AVSP.CFG k)) (6 * j) 6 == 32 + n
    { a with holdV := a.holdV.mapIdx (fun j x => if mine j then none else x), holdS := a.holdS.mapIdx (fun j x => if mine j then none else x),
             holdR := a.holdR.mapIdx (fun j x => x && !mine j), holdE := a.holdE.mapIdx fun j x => x && !mine j } }

/-- The loop takes a state; an entry into RUN masks the UV comparator for RBLK (R80, R243). Outside RUN and TUNE the UV comparator does not compare (R242); values held for the loop's AVSBus selects are discarded when the loop leaves RUN or TUNE (R268). -/
def Chip.loopEnter (s : Chip) (n st : Nat) : Chip :=
  let t := s.put (LOOP.STATUS_STATE n) st
  let t := if st = 2 then (t.put (CMPL.EVT_UVACT n) 0).engUpd n fun h => { h with maskAt := some t.now } else t
  let t := if st = 2 || st = 4 then t
    else
      let u := t.put (CMPL.EVT_UVACT n) 0
      if s.loopState n = 2 || s.loopState n = 4 then u.avsForget n else u
  t.rampRefresh n

/-- The part of a die that holds phases of the loop, its link up or not, has not been renewed since the previous run-ahead began (R215). -/
def Chip.sumStale (s : Chip) (n : Nat) : Bool :=
  [1, 2, 3, 4, 5, 6, 7].any fun d => !(s.loopPhasesOn d n).isEmpty && !s.renewed.get (32 * d + n)

/-- A set's contents become live with their check word, or the set becomes invalid (R101). -/
def Chip.setLive (s : Chip) (n set : Nat) (x : Option (CoefSet × Word)) : Chip :=
  let t := match x with
    | some (c, _) => { s with coefs := s.coefs.set (4 * n + set) c }
    | none => s
  (t.put (COEF.SETVAL_VALID n) (setBitAt (t.get (COEF.SETVAL_VALID n)) set x.isSome)).setReg (COEF.SETCRC n set)
    (match x with | some (_, crc) => crc | none => 0)

/-- A commit's swap to new contents of a set waits (R103, R106). -/
def SwapReq.ofSet (k : Nat) : SwapReq → Bool
  | .contents j _ _ => j == k
  | .request _ => false

/-- The shadow of a loop's sets becomes live, but for a set whose earlier contents still wait as a swap (R101, R106). -/
def Chip.shadowTake (s : Chip) (n : Nat) : Chip :=
  s.forEach [0, 1, 2, 3] fun k t =>
    match t.shadows.get (4 * n + k) with
    | some x => if (t.loops.get n).swaps.any (·.ofSet k) then t else { t with shadows := t.shadows.set (4 * n + k) none }.setLive n k x
    | none => t

/-- A sample boundary: the shadow becomes live, except in TUNE, where it waits for the run's end (R101, R106). -/
def Chip.coefBoundary (s : Chip) (n : Nat) : Chip := if s.loopState n = 4 then s else s.shadowTake n

/-- Run-ahead for the next sample begins: it takes the fields, the current sum and the set (R57, R70, R73). `count` is false at a start, where no run-ahead came before. -/
def Chip.runAhead (s : Chip) (n : Nat) (count : Bool) : Chip :=
  let t := if count && s.sumStale n then s.event (LOOP.EVT_STALEF n) (LOOP.STALE_STALECNT n) (srcLoop n) else s
  let t := t.forEach [1, 2, 3, 4, 5, 6, 7] fun d u => { u with renewed := u.renewed.set (32 * d + n) false }
  let t := t.coefBoundary n
  let h := t.loops.get n
  let guess := !(t.bit (LOOP.STATUS_CLAMPHI n) || t.bit (LOOP.STATUS_CLAMPLO n) || t.bit (LOOP.STATUS_WINDUP n)
    || t.bit (LOOP.STATUS_ILIMACT n) || t.get (LOOP.STATUS_TRSTATE n) != 0 || h.noSink || t.loopState n == 4
    || t.bit (LOOP.CTRL_SPECDIS n) || h.noSpec)
  let r : RunIn :=
    { ctrl := t.reg (LOOP.CTRL n), soft := t.reg (LOOP.SOFT n), lline := t.reg (LOOP.LLINE n), trband := t.reg (LOOP.TRBAND n),
      trduty := t.reg (LOOP.TRDUTY n), dclamp := t.reg (LOOP.DCLAMP n), dlimhw := t.reg (LOOP.DLIMHW n), clim := t.reg (LOOP.CLIM n),
      ffcfg := t.reg (LOOP.FFCFG n), ilim := t.get (AVSL.ILIM_ILIM n), isum := t.loopSum n, set := h.active,
      ff := h.ff, mayGuess := guess }
  (t.engUpd n fun h => { h with run := r, ahead := none, noSpec := false }).rampRefresh n

/-- LINBAND and TRHYST as they act (R92). -/
def RunIn.linband (r : RunIn) : Int := max 16 (wordField r.trband 0 10 : Nat)
def RunIn.trhyst (r : RunIn) : Int := min (wordField r.trband 10 6 : Nat) (r.linband - 1)
def RunIn.trmaxs (r : RunIn) : Nat := orOne (wordField r.trband 16 10)

/-- The load-line term (R63). -/
def RunIn.loadLine (r : RunIn) : Int :=
  if wordField r.ctrl 6 1 = 1 then satS 16 (rne ((wordField r.lline 0 16 : Nat) * r.isum) 4000) else 0

/-- The code-independent part of the filter, ((b1·e1 + b2·e2) >> bsh) − a1·y1 − a2·y2 − a3·y3, in units of 2^-60 (R61, R70, R104). -/
def CoefSet.tail (c : CoefSet) (h : LoopHw) : Int :=
  (c.b1 * h.e1 + c.b2 * h.e2) * 2 ^ (37 - c.bsh) - (c.a1 * h.y1 + c.a2 * h.y2 + c.a3 * h.y3) * 2 ^ 9

/-- The clamps of a set in Q2.38 (R61). -/
def CoefSet.lo (c : CoefSet) : Int := c.imin * 2 ^ 23
def CoefSet.hi (c : CoefSet) : Int := c.imax * 2 ^ 23
def CoefSet.clip (c : CoefSet) (i : Int) : Int := min (max i c.lo) c.hi

/-- The feed-forward value at a position of its shape, Q2.30: FFGAIN × 2^-20 × S for FFLEN samples, then a linear fall over FFDEC (R69; log entry 26). -/
def ffValue (cfg : Word) (step : Int) (pos : Nat) : Int :=
  let full := (wordField cfg 16 16 : Nat) * step * 2 ^ 10
  let len := orOne (wordField cfg 8 8)
  let dec := wordField cfg 0 8
  satS 32 (if pos < len then full else if pos < len + dec then rne (full * ((dec - (pos - len) : Nat) : Int)) dec else 0)

/-- The feed-forward armed when run-ahead began fires in its sample (R57, R69). -/
def RunIn.fires (r : RunIn) : Bool :=
  match r.ff with
  | .armed step base _ _ _ =>
    let moved := if 0 ≤ step then r.isum - base else base - r.isum
    wordField r.ctrl 7 1 == 1 && decide ((step.natAbs * 64 : Nat) ≤ moved)
  | _ => false

/-- The run-ahead of the sample in progress has taken the firing of the feed-forward that is armed: it counts as firing from then on (R57, R69; log entry 204). -/
def LoopHw.ffTaken (h : LoopHw) : Bool := h.run.fires && h.ff == h.run.ff

/-- The feed-forward of a sample: whether an armed one fires, and its value; one that was not armed when run-ahead began takes no part (R57, R69, R84). -/
def RunIn.forward (r : RunIn) (ff : FeedForward) : FeedForward × Int :=
  let on := wordField r.ctrl 7 1 = 1
  match ff with
  | .idle => (.idle, 0)
  | .armed step base l hid due =>
    if r.fires && r.ff == .armed step base l hid due then (.firing step l hid 0, ffValue r.ffcfg step 0)
    else (.armed step base l hid due, 0)
  | .firing step l hid pos => (.firing step l hid pos, if on then ffValue r.ffcfg step pos else 0)

/-- A firing feed-forward moves on by one sample and ends with its shape (R69). -/
def RunIn.forwardNext (r : RunIn) : FeedForward → FeedForward
  | .firing step l hid pos =>
    if pos + 1 < orOne (wordField r.ffcfg 8 8) + wordField r.ffcfg 0 8 then .firing step l hid (pos + 1) else .idle
  | ff => ff

/-- RUN_AHEAD_COMPLETE: the partial sum and the load-line term are ready (R70). -/
def Chip.aheadDone (s : Chip) (n : Nat) : Chip :=
  let h := s.loops.get n
  if s.loopState n = 0 || h.ahead.isSome then s
  else
    let u0 := h.integ * 2 ^ 22 + h.run.set.tail h + (h.run.forward h.ff).2 * 2 ^ 30
    s.engUpd n fun h => { h with ahead := some (u0, h.run.loadLine) }

/-- The duty limits of a sample in units of 2^-30: the hardware ceiling, the linear ceiling and the floor, and whether the current-limit ceiling is active (R64, R65). -/
structure Limits where
  hwcl : Int
  ceil : Int
  floor : Int
  ilim : Bool
deriving DecidableEq, Repr

def RunIn.limits (r : RunIn) (duty : Nat) : Limits :=
  let past := decide ((r.ilim : Int) < r.isum)
  let dhw : Int := (wordField r.dlimhw 16 16 * 2 ^ 14 : Nat)
  let hwcl := if past then min dhw ((duty * 2 ^ 10 : Nat) - (wordField r.clim 0 16 : Nat) * (r.isum - r.ilim) * 4) else dhw
  let ceil := min hwcl (wordField r.dclamp 16 16 * 2 ^ 14 : Nat)
  { hwcl := hwcl, ceil := ceil, floor := min (wordField r.dclamp 0 16 * 2 ^ 14 : Nat) ceil, ilim := past }

/-- What a sample computes (R62). -/
structure Sample where
  eeff : Int
  ef : Int
  y : Int
  integ : Int
  /-- The transient state: 0 none, 1 high, 2 low. -/
  tr : Nat
  entry : Bool
  duty : Nat
  tag : Nat
  clipped : Bool
  inhibited : Bool
  hi : Bool
  lo : Bool
  ilim : Bool
  block : Bool
  noSink : Bool
  /-- The integrator before its clip, for the window of R70. -/
  raw : Int
deriving DecidableEq, Repr

/-- The transient state of a sample: available only in RUN with TREN = 1 (R67, R68). -/
def RunIn.transient (r : RunIn) (st tr0 : Nat) (block : Bool) (eeff : Int) : Nat :=
  let lb := r.linband
  let want := if lb < eeff then 1 else if eeff < -lb then 2 else tr0
  if !(st == 2 && wordField r.ctrl 8 1 == 1) then 0
  else if tr0 ≠ 0 then (if decide ((eeff.natAbs : Int) ≤ lb - r.trhyst) then 0 else want)
  else if block then 0 else want

/-- A duty in units of 2^-30 as the 20-bit word that is sent: never below 0 (R62, R64). -/
def dutyWord (d : Int) : Nat := min (rne (max d 0) (2 ^ 10)).toNat 0xfffff

/-- The control law of R62 on the committed state, in the formats of R61. `st` is the loop state and `tr0` the committed transient state. A clip to IMIN or IMAX is reported also in a sample whose hold keeps the old integrator, and the hold also in an exit sample that is preloaded (R66, R68; log entry 159). -/
def LoopHw.law (h : LoopHw) (st tr0 : Nat) (code : Int) : Sample :=
  let r := h.run
  let c := r.set
  let lb := r.linband
  let eeff := satS 16 (code - r.loadLine)
  let inside := decide ((eeff.natAbs : Int) ≤ lb)
  let block := h.trBlock && !inside
  let tr := r.transient st tr0 block eeff
  let exit' := (tr0 ≠ 0 && tr = 0) || h.trExit
  let ef := if tr = 0 then eeff else min (max eeff (-lb)) lb
  -- Accumulators in units of 2^-60; each is rounded only into its own destination (R61, R62, R70).
  let accY := satS 80 (c.b0 * ef * 2 ^ (37 - c.bsh) + c.tail h)
  let y := satS 32 (rne accY (2 ^ 30))
  let accF := accY + (r.forward h.ff).2 * 2 ^ 30
  let lim := r.limits h.duty
  let ns := h.noSink && st != 3 && decide (eeff < 0)
  if tr ≠ 0 then
    let d : Int := min ((wordField r.trduty (if tr = 1 then 16 else 0) 16 * 2 ^ 14 : Nat) : Int) lim.hwcl
    { eeff := eeff, ef := ef, y := y, integ := h.integ, tr := tr, entry := tr ≠ tr0, duty := dutyWord d,
      tag := if ns || (tr = 2 && wordField r.ctrl 10 1 == 1) then 3 else tr,
      clipped := false, inhibited := false, hi := false, lo := false, ilim := lim.ilim, block := block, noSink := ns, raw := h.integ }
  else
    let pre := exit' && wordField r.ctrl 9 1 == 1
    let acc := satS 80 (if pre then (h.duty * 2 ^ 40 : Nat) - accF else h.integ * 2 ^ 22 + c.ki * eeff * 2 ^ (37 - c.ish))
    let cut := min (max acc (c.lo * 2 ^ 22)) (c.hi * 2 ^ 22)
    let raw := satS 40 (rne acc (2 ^ 22))
    let it := c.clip raw
    let u := satS 32 (rne (satS 80 (cut + accF)) (2 ^ 30))
    let high := decide (lim.ceil ≤ u)
    let under := !high && decide (u ≤ lim.floor)
    let d := if high then lim.ceil else if under then lim.floor else u
    let hold := (high && decide (0 < eeff)) || (under && decide (eeff < 0))
    { eeff := eeff, ef := ef, y := y, integ := if hold && !pre then h.integ else it, tr := 0, entry := false, duty := dutyWord d,
      tag := if ns then 3 else 0, clipped := cut ≠ acc, inhibited := hold, hi := d = lim.ceil, lo := d = lim.floor, ilim := lim.ilim,
      block := block, noSink := ns, raw := raw }

/-- Whether a code lies in the speculation window [EL, EH] (R70). -/
def LoopHw.inWindow (h : LoopHw) (code : Int) : Bool :=
  match h.ahead with
  | none => false
  | some (u0, ll) =>
    let r := h.run
    let c := r.set
    let e := code - ll
    let i := h.integ * 2 ^ 22 + c.ki * e * 2 ^ (37 - c.ish)
    let u := u0 + c.b0 * e * 2 ^ (37 - c.bsh) + c.ki * e * 2 ^ (37 - c.ish)
    let lim := r.limits h.duty
    decide ((e.natAbs : Int) ≤ r.linband) && decide (c.lo * 2 ^ 22 < i) && decide (i < c.hi * 2 ^ 22)
      && decide (lim.floor * 2 ^ 30 < u) && decide (u < lim.ceil * 2 ^ 30)

/-- The codes of a strict condition lo < a + g·x < hi on x, as a closed interval; empty when its ends cross. -/
def strictRange (lo hi a g : Int) : Int × Int :=
  if g = 0 then (if lo < a && a < hi then (-0x10000, 0x10000) else (1, 0))
  else if 0 < g then ((lo - a) / g + 1, -((a - hi) / g) - 1)
  else ((a - hi) / -g + 1, -((lo - a) / -g) - 1)

/-- The window of R70 is empty by its own conditions: no 12-bit code meets them, so that nothing was speculated (R71). -/
def LoopHw.windowEmpty (h : LoopHw) : Bool :=
  match h.ahead with
  | none => false
  | some (u0, ll) =>
    let r := h.run
    let c := r.set
    let k := c.ki * 2 ^ (37 - c.ish)
    let lim := r.limits h.duty
    let i := strictRange (c.lo * 2 ^ 22) (c.hi * 2 ^ 22) (h.integ * 2 ^ 22) k
    let u := strictRange (lim.floor * 2 ^ 30) (lim.ceil * 2 ^ 30) u0 (c.b0 * 2 ^ (37 - c.bsh) + k)
    decide (min (min (r.linband) (2047 - ll)) (min i.2 u.2) < max (max (-r.linband) (-2048 - ll)) (max i.1 u.1))

/-- A word goes on the loop's control lane of every die that holds a phase of the loop, with the loop's delay class (R25, R60). -/
def Chip.sendDuty (s : Chip) (n duty tag : Nat) : Chip :=
  let fixed := wordField (s.loops.get n).run.ctrl 0 1 == 0
  s.forEach (s.loopDies n) fun d t => { t with lanes := t.lanes.upd (32 * d + n) (· ++ [.duty ⟨duty, tag, fixed⟩]) }

/-- The monitors of a committed sample, its count and its telemetry (R98, R431). -/
def Chip.monitors (s : Chip) (n duty tag : Nat) (eeff code isum integ : Int) : Chip :=
  let t := (s.put (LOOP.DUTYMON_DUTY n) duty).put (LOOP.DUTYMON_TAG n) tag
  let t := (t.put (LOOP.ERRMON_EEFF n) (bitsOf 16 eeff)).put (LOOP.ERRMON_ECODE n) (bitsOf 12 code)
  let t := (t.put (LOOP.ISUM_ISUM n) (bitsOf 18 isum)).put (LOOP.INTEG_INTEG n) (bitsOf 32 (integ / 256))
  let t := (t.incWrap (LOOP.SAMPLES_COUNT n)).put (LOOP.OVR_CONSEC n) 0
  t.telSample 2 n 0 [t.reg (LOOP.DUTYMON n), t.reg (LOOP.ERRMON n), t.reg (LOOP.ISUM n)]

/-- The current-limit ceiling's flag, status and persistence: at ILIMT consecutive samples its fault is due and the count restarts (R65, R438). -/
def Chip.ilimTrack (s : Chip) (n : Nat) (on : Bool) : Chip :=
  let was := s.bit (LOOP.STATUS_ILIMACT n)
  let lim := orOne (wordField (s.loops.get n).run.clim 16 16)
  let t := if on && !was then (s.event (LOOP.EVT_ILIMF n) (LOOP.EVTCNT_ILIMCNT n) (srcLoop n)).pmbLatch (2 ^ n) 1 7 else s
  (t.putB (LOOP.STATUS_ILIMACT n) on).engUpd n fun h =>
    if !on then { h with ilimN := 0 }
    else if lim ≤ h.ilimN + 1 then { h with ilimN := 0, ilimDue := h.ilimDue + 1 } else { h with ilimN := h.ilimN + 1 }

/-- CURRENT_LIMIT_PERSISTENCE: the ceiling has been active for ILIMT consecutive samples (R65). -/
def Chip.ilimPersist (s : Chip) (n : Nat) : Chip :=
  if (s.loops.get n).ilimDue = 0 then s
  else (s.raise ⟨0x4122, n, s.reg (LOOP.ERRMON n)⟩).engUpd n fun h => { h with ilimDue := h.ilimDue - 1 }

/-- TRANSIENT_TIMEOUT: the transient path has lasted TRMAXS samples and ends by force; the next sample is computed on the linear path (R68). -/
def Chip.trTimeout (s : Chip) (n : Nat) : Chip :=
  let h := s.loops.get n
  if s.get (LOOP.STATUS_TRSTATE n) != 0 && decide (h.run.trmaxs ≤ h.trn) then
    let t := s.event (LOOP.EVT_TRTOF n) (LOOP.EVTCNT_TRTOCNT n) (srcLoop n)
    let t := (t.put (LOOP.STATUS_TRSTATE n) 0).engUpd n fun h => { h with trn := 0, trBlock := true, trExit := true }
    if t.get (PHSL.STATUS_PROC n) == 3 then t.procEnd n else t
  else s

/-- Commits a sample of the control law and sends its word (R62, R66 to R68, R72, R81, R163). -/
def Chip.commitSample (s : Chip) (n : Nat) (code : Int) (x : Sample) : Chip :=
  let h := s.loops.get n
  let tr0 := s.get (LOOP.STATUS_TRSTATE n)
  let squash := h.run.mayGuess && !(h.inWindow code) && !h.windowEmpty
  let ff := (h.run.forward h.ff).1
  let t := if squash then s.inc (LOOP.SPEC_SQCNT n) else s
  let t := t.engUpd n fun h =>
    { h with code := h.next, next := none, integ := x.integ, e2 := h.e1, e1 := x.ef, y3 := h.y2, y2 := h.y1, y1 := x.y, duty := x.duty,
             trn := if x.tr = 0 then 0 else h.trn + 1, trBlock := x.block, trExit := false, clipped := x.clipped, noSink := x.noSink,
             ff := h.run.forwardNext ff }
  let t := t.put (LOOP.STATUS_TRSTATE n) x.tr
  let t := ((t.putB (LOOP.STATUS_CLAMPHI n) x.hi).putB (LOOP.STATUS_CLAMPLO n) x.lo).putB (LOOP.STATUS_WINDUP n) (x.clipped || x.inhibited)
  let t := t.putB (LOOP.STATUS_NOSINK n) (x.tag == 3)
  let t := if x.entry then t.event (LOOP.EVT_TRF n) (LOOP.EVTCNT_TRCNT n) (srcLoop n) else t
  let t := if x.clipped && !h.clipped then t.event (LOOP.EVT_WINDF n) (LOOP.EVTCNT_WINDCNT n) (srcLoop n) else t
  let t := t.ilimTrack n x.ilim
  let t := t.monitors n x.duty x.tag x.eeff code h.run.isum x.integ
  let t := t.sendDuty n x.duty x.tag
  let t := if x.tr == 1 && tr0 != 1 && t.bit (PHSL.CTRL_TRADD n) then (t.transientAdd n).segRaiseAll n
    else if x.tr == 0 && t.get (PHSL.STATUS_PROC n) == 3 then t.procEnd n else t
  t.runAhead n true

/-- The error code is computed on the linear or transient path (R62, R71). -/
def Chip.lawSample (s : Chip) (n : Nat) (code : Int) : Chip :=
  let t := s.trTimeout n
  t.commitSample n code ((t.loops.get n).law (t.loopState n) (t.get (LOOP.STATUS_TRSTATE n)) code)

/-- OVERRUN_LIMIT: the fault of three consecutive overruns (R79). -/
def Chip.overrunLimit (s : Chip) (n : Nat) : Chip :=
  if (s.loops.get n).ovrDue = 0 then s
  else (s.raise ⟨0x4123, n, s.reg (LOOP.ERRMON n)⟩).engUpd n fun h => { h with ovrDue := h.ovrDue - 1 }

/-- SAMPLE_OVERRUN: sample k, not yet committed at its deadline, which in the immediate class comes with the code of sample k + 1, is abandoned and its error code discarded; sample k + 1 proceeds from the state committed before, with no speculation. The third in a row sets CONSEC to 0, and its fault is due (R78, R79, R96). -/
def Chip.overrun (s : Chip) (n : Nat) : Chip :=
  let h := s.loops.get n
  if s.loopState n = 0 || h.code.isNone || (wordField h.run.ctrl 0 1 = 1 && h.next.isNone) then s
  else
    let t := s.event (LOOP.OVR_OVRF n) (LOOP.OVR_OVRCNT n) (srcLoop n)
    let k := t.get (LOOP.OVR_CONSEC n) + 1
    let t := t.put (LOOP.OVR_CONSEC n) (if 3 ≤ k then 0 else k)
    (t.engUpd n fun h => { h with code := h.next, next := none, noSpec := true, ovrDue := h.ovrDue + (k / 3) }).runAhead n true

/-- Feed-forward is armed by a grant, by the FFEN that the present run-ahead has taken (R73), until LEAD plus 20 µs; an armed one is replaced and counts as expired, and a firing one, or one whose firing run-ahead has taken, completes (R69). -/
def Chip.ffArm (s : Chip) (n : Nat) (step : Int) (l hid lead : Nat) : Chip :=
  if wordField (s.loops.get n).run.ctrl 7 1 = 0 || (s.loops.get n).ffTaken then s
  else
    let new := FeedForward.armed step (s.loopSum n) l hid (4 * s.now + lead + 80)
    match (s.loops.get n).ff with
    | .firing .. => s
    | .armed .. => (s.inc (LOOP.STALE_FFXCNT n)).engUpd n fun h => { h with ff := new }
    | .idle => s.engUpd n fun h => { h with ff := new }

/-- FEED_FORWARD_EXPIRE (R69). -/
def Chip.ffExpire (s : Chip) (n : Nat) : Chip :=
  match (s.loops.get n).ff with
  | .armed _ _ _ _ due => if (s.loops.get n).ffTaken then s else if due ≤ 4 * s.now then (s.inc (LOOP.STALE_FFXCNT n)).engUpd n fun h => { h with ff := .idle } else s
  | _ => s

/-- A hint is cancelled: the feed-forward it armed is disarmed and not counted; one that fires completes its shape (R283). -/
def Chip.ffDisarm (s : Chip) (n l hid : Nat) : Chip :=
  match (s.loops.get n).ff with
  | .armed _ _ l' hid' _ => if l' = l && hid' = hid && !(s.loops.get n).ffTaken then s.engUpd n fun h => { h with ff := .idle } else s
  | _ => s

/-- A hint ends with the stop of a loop: its feed-forward ends, armed or firing (R285). -/
def Chip.ffStop (s : Chip) (n l hid : Nat) : Chip :=
  match (s.loops.get n).ff with
  | .armed _ _ l' hid' _ | .firing _ l' hid' _ => if l' = l && hid' = hid then s.engUpd n fun h => { h with ff := .idle } else s
  | .idle => s

/-- One move of VTGT after a sample instant (R59). -/
def Chip.slewStep (s : Chip) (n : Nat) : Chip :=
  let st := s.loopState n
  let h := s.loops.get n
  let goal := s.goal n
  let v := s.get (LOOP.TARGET_VTGT n)
  if goal = v || (st = 4) || (st = 3 && v ≤ goal) then s
  else
    let dir : Int := if v < goal then 1 else -1
    let slew := if st = 2 then s.get (AVSL.SLEW_SLEWCMD n) else orOne (wordField h.run.soft 16 16)
    let step := min slew (s.slewMax n) * s.get (LOOP.RATE_SPER n) * 65536 / 50000
    let acc := (if h.dir = dir then h.frac else 0) + step
    let k := acc / 65536
    let gap := if v < goal then goal - v else v - goal
    let done := decide (gap ≤ k)
    let v' := if done then goal else if v < goal then v + k else v - k
    let v' := if v < v' then max v (min v' (s.get (AVSL.VLIM_VMAX n))) else v'
    let t := s.put (LOOP.TARGET_VTGT n) v'
    (t.engUpd n fun h => { h with frac := if done then 0 else acc % 65536, dir := dir }).rampRefresh n

end Sys2Proof.Machine
end

