-- ==== Sys2Proof/Machine/Coef.lean ====
section
/-! DEFINITION. Coefficient sets, swaps and relay auto-tune (R99 to R118). -/

namespace Sys2Proof.Machine

def srcCoef (n : Nat) : Nat := 0x120 + n

def Chip.tuneUpd (s : Chip) (n : Nat) (f : TuneHw → TuneHw) : Chip := { s with tunes := s.tunes.upd n f }

/-- The set that a coefficient tile's payload holds; offsets are those of R99 less 0x10. -/
def coefOf (pl : List Byte) : CoefSet :=
  let w := fun o => signedOf 24 (fieldLE pl o 4)
  { bsh := fieldLE pl 0x02 1, ish := fieldLE pl 0x03 1, b0 := w 0x04, b1 := w 0x08, b2 := w 0x0c, a1 := w 0x10, a2 := w 0x14, a3 := w 0x18,
    ki := w 0x1c, imin := signedOf 16 (fieldLE pl 0x20 2), imax := signedOf 16 (fieldLE pl 0x22 2) }

/-- A 4-byte field whose top byte is the sign extension of bit 23 (R99). -/
def extended (v : Nat) : Bool := v / 2 ^ 24 == (if bitAt v 23 then 0xff else 0)

/-- The checks of R100 on a coefficient tile's payload. -/
def coefOk (pl : List Byte) (loop set : Nat) : Bool :=
  fieldLE pl 0 1 == loop && fieldLE pl 1 1 == set && decide (fieldLE pl 2 1 ≤ 15) && decide (fieldLE pl 3 1 ≤ 23)
    && [0x04, 0x08, 0x0c, 0x10, 0x14, 0x18, 0x1c].all (fun o => extended (fieldLE pl o 4))
    && decide (signedOf 16 (fieldLE pl 0x20 2) ≤ signedOf 16 (fieldLE pl 0x22 2)) && (pl.drop 0x24).all (· == 0)

/-- Whether a software request or a commit's swap waits (R115). -/
def Chip.pendRefresh (s : Chip) (n : Nat) : Chip := s.putB (COEF.SEL_PEND n) (!(s.loops.get n).swaps.isEmpty)

/-- A swap request is refused (R103, R115). -/
def Chip.swapRefuse (s : Chip) (n reason : Nat) : Chip :=
  (s.put (COEF.SEL_SWREF n) reason).event (COEF.SEL_SWREFF n) (COEF.SWCNT_SWRCNT n) (srcCoef n)

/-- A set fails its check when it is loaded, and its re-read fails too (R496 use 0x1). -/
def Chip.coefFails (s : Chip) (n set : Nat) : Chip :=
  let t := s.put (COEF.SETVAL_VALID n) (setBitAt (s.get (COEF.SETVAL_VALID n)) set false)
  (t.setReg (COEF.SETCRC n set) 0).tileUseFail 1 (4 * n + set) 1

/-- The loop takes a set without a rebase, because its committed state is clear; the first run-ahead after it makes no speculation (R103, R104, R112). -/
def Chip.swapPlain (s : Chip) (n set : Nat) : Chip :=
  let t := (s.engUpd n fun h => { h with active := s.coefs.get (4 * n + set), noSpec := true }).put (LOOP.STATUS_ACTSET n) set
  t.event (COEF.SEL_SWAPF n) (COEF.SWCNT_SWPCNT n) (srcCoef n)

/-- The integrator at a swap, and whether it was clipped: rebased, or its saturation carried across; of an old set with IMIN = IMAX it is at IMAX (R104, R105; DESIGN CHOICE, log entry 189). -/
def LoopHw.rebase (h : LoopHw) (new : CoefSet) : Int × Bool :=
  let old := h.active
  if h.integ = old.hi then (new.hi, decide (new.hi < old.hi))
  else if h.integ = old.lo then (new.lo, decide (old.lo < new.lo))
  else
    let raw := satS 40 (rne (satS 80 (h.integ * 2 ^ 22 + old.tail h - new.tail h)) (2 ^ 22))
    (new.clip raw, new.clip raw ≠ raw)

/-- A swap at a sample boundary (R103 to R105). A clip here does not count as clipping in the sample before the next (log entry 162). -/
def Chip.swapRebased (s : Chip) (n set : Nat) : Chip :=
  let h := s.loops.get n
  let new := s.coefs.get (4 * n + set)
  let r := h.rebase new
  let t := if r.2 then (s.event (LOOP.EVT_WINDF n) (LOOP.EVTCNT_WINDCNT n) (srcLoop n)).put (LOOP.STATUS_WINDUP n) 1 else s
  let t := (t.engUpd n fun h => { h with active := new, integ := r.1, noSpec := true }).put (LOOP.STATUS_ACTSET n) set
  t.event (COEF.SEL_SWAPF n) (COEF.SWCNT_SWPCNT n) (srcCoef n)

/-- A waiting swap is due: to another set, or to the new contents that a commit has given a set (R103, R106). A set that fails its check is refused to a request; a commit's swap is never counted as a refusal. -/
def Chip.swapDue (s : Chip) (n : Nat) (tileOk : Bool) : SwapReq → Chip
  | .request k =>
    let t := s.checkMade 0 (!tileOk)
    let t := if tileOk then t else t.coefFails n k
    if !bitAt (t.get (COEF.SETVAL_VALID n)) k then t.swapRefuse n 1
    else if t.loopState n = 0 then t.swapPlain n k else t.swapRebased n k
  | .contents k c crc =>
    let t := s.checkMade 0 (!tileOk)
    if !tileOk then t.coefFails n k
    else
      let t := t.setLive n k (some (c, crc))
      let a := t.get (LOOP.STATUS_ACTSET n)
      if t.loopState n = 0 then t.swapPlain n a else t.swapRebased n a

/-- COEF_SWAP_APPLY: the oldest waiting swap is applied between a commit and the next run-ahead, never inside a sample (R84, R103, R106). -/
def Chip.swapApply (s : Chip) (n : Nat) (tileOk : Bool) : Chip :=
  match (s.loops.get n).swaps with
  | [] => s
  | q :: rest =>
    if s.loopState n = 4 || (s.loops.get n).code.isSome then s
    else
      let t := ((s.coefBoundary n).engUpd n fun h => { h with swaps := rest }).swapDue n tileOk q
      (if t.loopState n = 0 then t else t.runAhead n false).pendRefresh n

/-- Whether an auto-tune run waits for leave, or holds it and has not entered TUNE. -/
def Chip.tuneWaits (s : Chip) (n : Nat) : Bool := (s.tunes.get n).phase == .waiting || (s.tunes.get n).phase == .granted

/-- A write of COEF[n].SEL with GO = 1; of several refusal conditions the first tested gives the reason (R103; log entry 160). -/
def Chip.swapRequest (s : Chip) (n set : Nat) (tileOk : Bool) : Chip :=
  let valid := bitAt (s.get (COEF.SETVAL_VALID n)) set
  if !valid then s.swapRefuse n 1
  else if s.loopState n = 4 || s.tuneWaits n then s.swapRefuse n 2
  else if !(s.loops.get n).swaps.isEmpty then s.swapRefuse n 3
  else if s.loopState n = 0 then
    let t := s.checkMade 0 (!tileOk)
    if tileOk then t.swapPlain n set else (t.coefFails n set).swapRefuse n 1
  else (s.engUpd n fun h => { h with swaps := h.swaps ++ [.request set] }).pendRefresh n

/-- A set takes a tile's contents, or becomes invalid, at a commit: at once in OFF; else the active set by a swap, and another through the shadow (R101, R103, R106; log entry 61). -/
def Chip.coefLoad (s : Chip) (n set : Nat) (tile : Option (List Byte × Word)) (tileOk : Bool) : Chip :=
  let t := s.checkMade 0 (!tileOk)
  let x := tile.map fun y => (coefOf y.1, y.2)
  if tile.isSome && !tileOk then t.coefFails n set
  else if t.loopState n = 0 then
    let t := t.setLive n set x
    match x with
    | some (c, _) => if t.get (LOOP.STATUS_ACTSET n) = set then t.engUpd n fun h => { h with active := c } else t
    | none => t
  else match x with
    | some (c, crc) =>
      if t.get (LOOP.STATUS_ACTSET n) = set then (t.engUpd n fun h => { h with swaps := h.swaps ++ [.contents set c crc] }).pendRefresh n
      else { t with shadows := t.shadows.set (4 * n + set) (some x) }
    | none => { t with shadows := t.shadows.set (4 * n + set) (some none) }

/-- A run is refused, with its cause (R107). -/
def Chip.tuneRefuse (s : Chip) (n cause : Nat) : Chip :=
  ((s.put (COEF.TUNESTAT_RESULT n) 5).put (COEF.TUNESTAT_CAUSE n) cause).event (COEF.TUNEEVT_ABRTF n) (COEF.TUNEEVT_ABRTCNT n) (srcCoef n)

/-- A write of COEF[n].TUNECTL.START; of several refusal conditions the first in the order of the causes gives the cause (R107, R108; log entry 161). -/
def Chip.tuneStart (s : Chip) (n : Nat) : Chip :=
  let h := s.loops.get n
  let u := s.tunes.get n
  let hrel := s.get (COEF.TUNECFG_HREL n)
  let hmax := s.get (COEF.TUNELIM_HMAX n)
  let nmeas := s.get (COEF.TUNECYC_NMEAS n)
  let maxs := s.get (COEF.TUNECYC_MAXS n)
  if s.loopState n ≠ 2 then s.tuneRefuse n 1
  else if s.get (LOOP.STATUS_TRSTATE n) ≠ 0 || h.ff ≠ .idle then s.tuneRefuse n 2
  else if hmax = 0 || hrel = 0 || hmax < hrel || nmeas = 0 || maxs = 0 then s.tuneRefuse n 3
  else if u.phase ≠ .idle || !h.swaps.isEmpty then s.tuneRefuse n 4
  else
    let t := (((s.put (COEF.TUNESTAT_RESULT n) 1).put (COEF.TUNESTAT_CAUSE n) 0).put (COEF.TUNESTAT_CYCLES n) 0).put (COEF.TUNESTAT_SAMPLES n) 0
    let t := ((t.setReg (COEF.TUNEKU n) 0).setReg (COEF.TUNEPER n) 0).setReg (COEF.TUNEAMP n) 0
    let t := t.tuneUpd n fun _ =>
      { phase := .waiting, since := s.now, hrel := hrel, hyst := s.get (COEF.TUNECFG_HYST n), nskip := s.get (COEF.TUNECYC_NSKIP n),
        nmeas := nmeas, maxs := maxs, wait := orOne (s.get (COEF.TUNELEAVE_LVWAIT n)) }
    -- MAXS sample periods of 5 ns ticks, rounded up to a whole microsecond, plus 20 µs (R108).
    let dur := (maxs * s.get (LOOP.RATE_SPER n) * 5 + 999) / 1000 + 20
    t.ask ⟨.tune n, s.get (COEF.TUNELEAVE_PEAKW n), dur, s.get BUD.PRIO_TUNE⟩

/-- A run ends without its results: its result and cause, and its leave or its request (R108, R111). -/
def Chip.tuneAbort (s : Chip) (n cause : Nat) : Chip :=
  let u := s.tunes.get n
  let mark := ((s.put (COEF.TUNESTAT_RESULT n) 4).put (COEF.TUNESTAT_CAUSE n) cause).event (COEF.TUNEEVT_ABRTF n) (COEF.TUNEEVT_ABRTCNT n) (srcCoef n)
  match u.phase with
  | .idle | .ending => s
  | .waiting => (mark.askDrop (.tune n)).tuneUpd n fun u => { u with phase := .idle }
  | .granted => (mark.askDone (.tune n)).tuneUpd n fun u => { u with phase := .idle }
  | .running => mark.tuneUpd n fun u => { u with phase := .ending }

/-- The run is over as the loop leaves TUNE: it reports done (R108). -/
def Chip.tuneOver (s : Chip) (n : Nat) : Chip :=
  if (s.tunes.get n).phase = .ending then (s.askDone (.tune n)).tuneUpd n fun u => { u with phase := .idle } else s

/-- A setpoint accepted in TUNE replaces the setpoint in force as the loop leaves TUNE (R112, R265). -/
def Chip.heldTake (s : Chip) (n : Nat) : Chip :=
  match (s.loops.get n).heldSet with
  | some v => (s.put (AVSL.SETPT_SETPT n) v).engUpd n fun h => { h with heldSet := none }
  | none => s

/-- The arbiter refuses the run's leave (R308): it ends with cause 0x5, as at LVWAIT. -/
def Chip.tuneNoLeave (s : Chip) (n : Nat) : Chip :=
  if (s.tunes.get n).phase ≠ .waiting then s
  else
    let mark := ((s.put (COEF.TUNESTAT_RESULT n) 4).put (COEF.TUNESTAT_CAUSE n) 5).event (COEF.TUNEEVT_ABRTF n) (COEF.TUNEEVT_ABRTCNT n) (srcCoef n)
    mark.tuneUpd n fun u => { u with phase := .idle }

/-- TUNE_LEAVE_TIMEOUT: LVWAIT has passed without leave (R108). -/
def Chip.tuneWaitOver (s : Chip) (n : Nat) : Chip :=
  let u := s.tunes.get n
  if u.phase == .waiting && decide (u.since + u.wait ≤ s.now) then s.tuneAbort n 5 else s

/-- Leave is granted to the run (R108). -/
def Chip.tuneGranted (s : Chip) (n : Nat) : Chip :=
  if (s.tunes.get n).phase = .waiting then s.tuneUpd n fun u => { u with phase := .granted }
  else s.askDone (.tune n)

/-- TUNE_ENTER: the loop enters TUNE at its next sample boundary, with no sample in progress (R73), and d0 is the last committed duty (R108, R109; log entry 27). -/
def Chip.tuneEnter (s : Chip) (n : Nat) : Chip :=
  if (s.tunes.get n).phase == .granted && s.loopState n == 2 && (s.loops.get n).code.isNone then
    let t := (s.tuneUpd n fun u => { u with phase := .running, d0 := (s.loops.get n).duty, high := none, cyc := none, sumLen := 0, sumHigh := 0, sumPp := 0 })
    let t := ((t.put (COEF.TUNESTAT_RESULT n) 2).put (COEF.TUNESTAT_CAUSE n) 0).put (LOOP.STATUS_TRSTATE n) 0
    ((t.engUpd n fun h => { h with trn := 0, trBlock := false, trExit := false }).loopEnter n 4).runAhead n false
  else s

/-- TUNE_MAXS_EXPIRE (R111 cause 0xB). -/
def Chip.tuneMaxs (s : Chip) (n : Nat) : Chip :=
  let u := s.tunes.get n
  if u.phase == .running && decide (u.maxs ≤ s.get (COEF.TUNESTAT_SAMPLES n)) then s.tuneAbort n 0xb else s

/-- π in units of 10^-40, rounded to nearest: the rule names π itself, and 40 places decide every rounding of R110 (log entry 28). -/
def piUnits : Nat := 31415926535897932384626433832795028841972

/-- The results of a completed run (R110). `hi` and `lo` are the relay duties in units of 2^-30. -/
def Chip.tuneReport (s : Chip) (n : Nat) (u : TuneHw) (hi lo : Int) : Chip :=
  let tper := min (rne (u.sumLen * 256 : Nat) u.nmeas).toNat (2 ^ 20 - 1)
  let ampl := min (rne (u.sumPp * 8) u.nmeas).toNat (2 ^ 16 - 1)
  let high : Int := (u.sumHigh : Nat)
  let low : Int := (u.sumLen : Int) - high
  let asym := decide (tper * u.nmeas < (high - low).natAbs * 1024)
  let t := ((s.put (COEF.TUNEPER_TPER n) tper).putB (COEF.TUNEPER_ASYM n) asym).put (COEF.TUNEAMP_AMPL n) ampl
  -- KU = 4 h_eff / (π AMPL) in 2^-24, with h_eff = (hi - lo) / 2 in 2^-30 and AMPL in 2^-4.
  let t := if ampl = 0 then (t.put (COEF.TUNEKU_KU n) t.freeVal).freeNext
    else
      let d := 2 * ampl * piUnits
      t.put (COEF.TUNEKU_KU n) (min (rne ((hi - lo) * 10 ^ 40) d).toNat (2 ^ 24 - 1))
  let t := ((t.put (COEF.TUNESTAT_RESULT n) 3).put (COEF.TUNESTAT_CAUSE n) 0).event (COEF.TUNEEVT_DONEF n) (COEF.TUNEEVT_DONECNT n) (srcCoef n)
  t.tuneUpd n fun _ => { u with phase := .ending }

/-- The relay after a sample: it starts high if e_eff ≥ 0, and switches with hysteresis (R109). -/
def TuneHw.relay (u : TuneHw) (e : Int) : Bool :=
  match u.high with
  | none => decide (0 ≤ e)
  | some b => if (u.hyst : Int) < e then true else if e < -(u.hyst : Int) then false else b

/-- One sample of the relay experiment: no duty is above the hardware ceiling, and every word carries LIN, while NOSINK of a start waits for its sample (R64, R81, R109 to R111; log entries 163 and 164). -/
def Chip.tuneSample (s : Chip) (n : Nat) (code : Int) : Chip :=
  let h := s.loops.get n
  let u := s.tunes.get n
  let r := h.run
  let eeff := satS 16 (code - r.loadLine)
  let lim := r.limits h.duty
  let d0 : Int := (u.d0 * 2 ^ 10 : Nat)
  let hr : Int := (u.hrel * 2 ^ 14 : Nat)
  let hi := min (d0 + hr) lim.ceil
  let lo := min (max (d0 - hr) lim.floor) lim.hwcl
  let high := u.relay eeff
  let d := if high then hi else lo
  let duty := dutyWord d
  let ns := h.noSink && decide (eeff < 0)
  let was := s.bit (LOOP.STATUS_ILIMACT n)
  let rise := u.high == some false && high
  let cycles := s.get (COEF.TUNESTAT_CYCLES n)
  -- A low-to-high switch ends a cycle and begins the next (R110).
  let ended := rise && u.cyc.isSome
  let cyc' := if rise then some (1, 1, eeff, eeff)
    else u.cyc.map fun (l, hh, mn, mx) => (l + 1, hh + high.toNat, min mn eeff, max mx eeff)
  let meas := ended && decide (u.nskip ≤ cycles)
  let done := ended && decide (u.nskip + u.nmeas ≤ cycles + 1)
  let u' := match u.cyc, meas with
    | some (l, hh, mn, mx), true => { u with sumLen := u.sumLen + l, sumHigh := u.sumHigh + hh, sumPp := u.sumPp + (mx - mn) }
    | _, _ => u
  let u' := { u' with high := some high, cyc := cyc' }
  let t := s.engUpd n fun h => { h with code := h.next, next := none, duty := duty, noSink := ns }
  let t := t.ilimTrack n lim.ilim
  let t := ((t.putB (LOOP.STATUS_CLAMPHI n) (d = lim.ceil)).putB (LOOP.STATUS_CLAMPLO n) (d = lim.floor)).put (LOOP.STATUS_WINDUP n) 0
  let t := t.monitors n duty 0 eeff code r.isum h.integ
  let t := (t.add (COEF.TUNESTAT_SAMPLES n) 1).sendDuty n duty 0
  let t := if ended then t.add (COEF.TUNESTAT_CYCLES n) 1 else t
  let t := t.put (LOOP.STATUS_NOSINK n) 0
  let t := if u.phase ≠ .running then t
    else
      let t := t.tuneUpd n fun _ => u'
      if done then t.tuneReport n u' hi lo
      else if lim.ilim && !was then t.tuneAbort n 8
      else if s.get (COEF.TUNELIM_EXLIM n) < eeff.natAbs then t.tuneAbort n 6 else t
  t.runAhead n true

/-- Swaps that wait, and the shadow, are applied with no rebase, because the committed state is clear (R101, R103, R112). -/
def Chip.swapAllPlain (s : Chip) (n : Nat) : Chip :=
  let t := (s.loops.get n).swaps.foldl (fun t q =>
    match q with
    | .request k => t.swapPlain n k
    | .contents k c crc => let u := t.setLive n k (some (c, crc)); u.swapPlain n (u.get (LOOP.STATUS_ACTSET n))) s
  ((t.engUpd n fun h => { h with swaps := [] }).shadowTake n).pendRefresh n

/-- TUNE_EXIT: at a boundary, with no sample in progress, the loop returns to RUN with its integrator at d0, clipped to the clamps of the contents committed during the run (DESIGN CHOICE, log entry 190); its clip reports nothing (R73, R112; log entry 165). -/
def Chip.tuneExit (s : Chip) (n : Nat) : Chip :=
  let u := s.tunes.get n
  if u.phase == .ending && s.loopState n == 4 && !(s.loops.get n).stopReq && (s.loops.get n).code.isNone then
    let t := s.swapAllPlain n
    let t := (t.engUpd n fun h =>
      { h with e1 := 0, e2 := 0, y1 := 0, y2 := 0, y3 := 0, integ := h.active.clip (u.d0 * 2 ^ 18 : Nat), clipped := false }).heldTake n
    ((t.tuneOver n).loopEnter n 2).runAhead n false
  else s

/-- A sample of RUN while a run waits: the excursion limit, and the current-limit ceiling becoming active, abort it (R111). -/
def Chip.tuneWatch (s t : Chip) (n : Nat) : Chip :=
  if !t.tuneWaits n then t
  else if t.bit (LOOP.STATUS_ILIMACT n) && !s.bit (LOOP.STATUS_ILIMACT n) then t.tuneAbort n 8
  else if s.get (COEF.TUNELIM_EXLIM n) < (t.getS (LOOP.ERRMON_EEFF n)).natAbs then t.tuneAbort n 6 else t

/-- ERROR_CODE_ARRIVE: the engine computes and commits the sample and sends its word (R62, R71, R109). -/
def Chip.errorArrive (s : Chip) (n : Nat) : Chip :=
  match (s.loops.get n).code with
  | none => s
  | some code => if s.loopState n = 0 then s else if s.loopState n = 4 then s.tuneSample n code else s.tuneWatch (s.lawSample n code) n

/-- Every auto-tune run is aborted by an event of the window monitor of any rail (R111 cause 0x7). -/
def Chip.tuneAbortAll (s : Chip) (cause : Nat) : Chip := s.forEach (List.range 32) fun n t => t.tuneAbort n cause

end Sys2Proof.Machine
end

