-- ==== Sys2Proof/Machine/LoopCtl.lean ====
section
/-! DEFINITION. Start and stop of a loop, its sample instants, and setpoint and slew commands (R59, R80 to R82, R208, R260 to R265). -/

namespace Sys2Proof.Machine

/-- The loop reaches OFF: the outputs of its phases are held high-impedance and its stop command is sent, its committed state and its current sums are clear, and waiting swaps are applied at once (R82, R84, R103, R129, R130, R215). -/
def Chip.loopOff (s : Chip) (n : Nat) : Chip :=
  let t := ((s.phasesStop n).heldTake n).sumsDrop n
  let t := t.engUpd n fun h => { active := h.active, swaps := h.swaps, vhi := h.vhi, noSpec := h.noSpec, ovrDue := h.ovrDue, ilimDue := h.ilimDue }
  let t := (((t.put (LOOP.STATUS_TRSTATE n) 0).put (LOOP.STATUS_CLAMPHI n) 0).put (LOOP.STATUS_CLAMPLO n) 0).put (LOOP.STATUS_WINDUP n) 0
  let t := (t.put (LOOP.STATUS_ILIMACT n) 0).put (LOOP.STATUS_NOSINK n) 0
  let t := (t.loopEnter n 0).swapAllPlain n
  t.forEach (t.ownedBy n) fun p u => u.genShowAll p

/-- A start command (R81, R262): clear state, VTGT 0, setpoint VBOOT, slew SLEWMAX; the phases start and the first run-ahead begins. -/
def Chip.loopStart (s : Chip) (n : Nat) : Chip :=
  if s.loopState n ≠ 0 then s
  else
    let t := s.engUpd n fun h => { active := h.active, swaps := h.swaps, noSink := s.bit (LOOP.CTRL_PBSAFE n), noSpec := h.noSpec, ovrDue := h.ovrDue, ilimDue := h.ilimDue }
    let t := (t.put (LOOP.TARGET_VTGT n) 0).put (AVSL.SETPT_SETPT n) (t.get (AVSL.CTRL_VBOOT n))
    let t := t.put (AVSL.SLEW_SLEWCMD n) (t.slewMax n)
    let t := t.phasesStart n
    ((t.putB (LOOP.STATUS_NOSINK n) (t.bit (LOOP.CTRL_PBSAFE n))).loopEnter n 1).runAhead n false

/-- A stop command, by the STOPM that the present run-ahead has taken: an immediate or collector stop acts at once; a soft stop begins at the next sample (R73, R82, R84). A run of auto-tune is aborted (R111 cause 0xA). -/
def Chip.loopStop (s : Chip) (n : Nat) (c : LoopCmd) : Chip :=
  if s.loopState n = 0 then s
  else
    let t := s.tuneAbort n 0xa
    if c = .stop && wordField (s.loops.get n).run.ctrl 5 1 = 0 then
      if s.loopState n = 3 then t else t.engUpd n fun h => { h with stopReq := true }
    else (t.tuneOver n).loopOff n

/-- The oldest command on its way to loop n that is a start (`start`), or a stop, taken from the queue. -/
def takeCmd (n : Nat) (start : Bool) : List (Nat × LoopCmd) → Option (LoopCmd × List (Nat × LoopCmd))
  | [] => none
  | (m, c) :: l =>
    if m = n then (if (c == .start) == start then some (c, l) else none)
    else (takeCmd n start l).map fun r => (r.1, (m, c) :: r.2)

/-- LOOP_START: a start command reaches engine n. -/
def Chip.startArrive (s : Chip) (n : Nat) : Chip :=
  match takeCmd n true s.loopCmds with
  | none => s
  | some (_, l) => { s with loopCmds := l }.loopStart n

/-- LOOP_STOP: a stop command reaches engine n. -/
def Chip.stopArrive (s : Chip) (n : Nat) : Chip :=
  match takeCmd n false s.loopCmds with
  | none => s
  | some (c, l) => { s with loopCmds := l }.loopStop n c

/-- A soft stop begins: transient state and feed-forward end, and sinking is allowed (R82, R84). -/
def Chip.stopBegin (s : Chip) (n : Nat) : Chip :=
  let t := s.engUpd n fun h => { h with stopReq := false, trn := 0, trBlock := false, trExit := false, ff := .idle, noSink := false }
  let t := t.put (LOOP.STATUS_TRSTATE n) 0
  let t := if t.get (PHSL.STATUS_PROC n) == 3 then t.procEnd n else t
  ((t.heldTake n).tuneOver n).loopEnter n 3

/-- The stop level has been reached (R82). -/
def Chip.stopReached (s : Chip) (n : Nat) : Bool := s.loopState n == 3 && decide (s.get (LOOP.TARGET_VTGT n) ≤ s.goal n)

/-- A sample whose deadline has passed by the next sample's instant overruns: in the fixed class the sample before, in the immediate class the one before that (R78). -/
def Chip.sampleLate (s : Chip) (n : Nat) : Chip :=
  let h := s.loops.get n
  if (h.code.isSome && wordField h.run.ctrl 0 1 == 0) || h.next.isSome then s.overrun n else s

/-- SAMPLE_INSTANT: the converter samples against the present target, then VTGT steps, and a start or a soft stop may complete (R59, R80 to R82, R206 to R209). -/
def Chip.sampleInstant (s : Chip) (n : Nat) (vdiff : Int) : Chip :=
  if s.loopState n = 0 then s
  else
    let t := if (s.loops.get n).stopReq then s.stopBegin n else s
    if t.stopReached n then t.loopOff n
    else
      let t := t.sampleLate n
      let code := t.errorCode n vdiff
      let t := (t.eadcSat n code).engUpd n fun h => if h.code.isNone then { h with code := some code } else { h with next := some code }
      let t := t.slewStep n
      if t.stopReached n then t.loopOff n
      else if t.loopState n == 1 && t.get (LOOP.TARGET_VTGT n) == t.get (AVSL.SETPT_SETPT n) then t.loopEnter n 2
      else t

/-- A setpoint or slew command for a loop is refused, with its reason (R264); one for VMIN or VMAX latches on the PMBus page (R438). -/
def Chip.refuseCmd (s : Chip) (n reason : Nat) : Chip :=
  let t := (s.put (AVSL.REF_LASTREF n) reason).event (AVSL.REF_REFF n) (AVSL.REF_REFCNT n) (0x1a0 + n)
  if reason = 2 || reason = 3 then t.pmbLatch (2 ^ n) 0 3 else t

/-- A setpoint command from an owner (0 host, 1 AVSBus, 2 PMBus) and its refusal reason, 0 when it is accepted (R260, R262, R264; log entry 29). -/
def Chip.setpointCmd (s : Chip) (n owner v : Nat) : Chip × Nat :=
  let st := s.loopState n
  let no := fun r => (s.refuseCmd n r, r)
  if s.get (AVSL.CTRL_OWNER n) ≠ owner then no 1
  else if st ≠ 2 && st ≠ 4 then no 4
  else if v < s.get (AVSL.VLIM_VMIN n) then no 2
  else if s.get (AVSL.VLIM_VMAX n) < v then no 3
  else if st = 4 then (s.engUpd n fun h => { h with heldSet := some v }, 0)
  else ((s.put (AVSL.SETPT_SETPT n) v).rampRefresh n, 0)

/-- A slew command in µV/µs; `least` is the smallest value that its interface can express (R263, R264). -/
def Chip.slewCmd (s : Chip) (n owner v least : Nat) : Chip × Nat :=
  let st := s.loopState n
  if s.get (AVSL.CTRL_OWNER n) ≠ owner then (s.refuseCmd n 1, 1)
  else if st ≠ 2 && st ≠ 4 then (s.refuseCmd n 4, 4)
  else
    let v := if v = 0 then least else v
    let mx := s.slewMax n
    if mx < v then ((s.put (AVSL.SLEW_SLEWCMD n) mx).event (AVSL.REF_CLIPF n) (AVSL.REF_CLIPCNT n) (0x1a0 + n), 0)
    else (s.put (AVSL.SLEW_SLEWCMD n) v, 0)

/-- UV_MASK_END: RBLK has passed since RAMPING cleared or since the entry into RUN (R242, R243). -/
def Chip.uvMaskEnd (s : Chip) (n : Nat) : Chip :=
  let rblk := s.get (CMPL.CFG_RBLK n)
  let past := fun (x : Option Nat) => match x with | some a => if a + rblk ≤ s.now then none else some a | none => none
  s.engUpd n fun h => { h with maskAt := past h.maskAt, vhiAt := past h.vhiAt }

/-- Whether the UV comparator of loop n compares: RUN or TUNE, outside the mask (R242, R243). -/
def Chip.uvCompares (s : Chip) (n : Nat) : Bool :=
  let st := s.loopState n
  (st == 2 || st == 4) && !s.bit (LOOP.TARGET_RAMPING n) && (s.loops.get n).maskAt.isNone

/-- The OV threshold in 0.25 mV (R242). -/
def Chip.ovThreshold (s : Chip) (n : Nat) : Nat :=
  let st := s.loopState n
  let h := s.loops.get n
  let abs := s.get (CMPL.ABS_OVABS n)
  let vhi := if s.bit (LOOP.TARGET_RAMPING n) || h.vhiAt.isSome then h.vhi else s.get (LOOP.TARGET_VTGT n)
  if st = 0 || st = 1 then abs else min abs (vhi + 4 * s.get (CMPL.REL_OVREL n))

/-- LOOP_COMPARATOR_ACTIVE: a comparator output becomes active after its filter at the rail voltage `v`, in 62.5 µV; an entry into the active state sets the flag, raises its cause and latches on the PMBus page (R242 to R245, R111, R438). -/
def Chip.comparatorOn (s : Chip) (n : Nat) (ov : Bool) (v : Int) : Chip :=
  if !s.coreRuns then s
  else if ov then
    if s.bit (CMPL.EVT_OVACT n) || decide (v ≤ (4 * s.ovThreshold n : Nat)) then s
    else
      let t := (s.put (CMPL.EVT_OVACT n) 1).tuneAbort n 8
      if s.bit (CMPL.CFG_OVEN n) then
        ((t.event (CMPL.EVT_OVF n) (CMPL.EVTCNT_OVCNT n) (0x180 + n)).raise ⟨0x6120, n, t.reg (LOOP.ERRMON n)⟩).pmbLatch (2 ^ n) 0 7
      else t
  else
    let thr : Int := (4 * (s.get (LOOP.TARGET_VTGT n) - 4 * s.get (CMPL.REL_UVREL n)) : Nat)
    if !s.uvCompares n || s.bit (CMPL.EVT_UVACT n) || decide (thr ≤ v) then s
    else
      let t := (s.put (CMPL.EVT_UVACT n) 1).tuneAbort n 8
      if s.bit (CMPL.CFG_UVEN n) then
        ((t.event (CMPL.EVT_UVF n) (CMPL.EVTCNT_UVCNT n) (0x180 + n)).raise ⟨0x4121, n, t.reg (LOOP.ERRMON n)⟩).pmbLatch (2 ^ n) 0 4
      else t

/-- LOOP_COMPARATOR_INACTIVE (R244). -/
def Chip.comparatorOff (s : Chip) (n : Nat) (ov : Bool) : Chip :=
  s.put (if ov then CMPL.EVT_OVACT n else CMPL.EVT_UVACT n) 0

end Sys2Proof.Machine
end

