-- ==== Sys2Proof/Machine/Wmon.lean ====
section
/-! DEFINITION. The window monitors and their confirmation (R246 to R251). -/

namespace Sys2Proof.Machine

def srcWmon (r : Nat) : Nat := 0x80 + r

/-- The dies whose window trip wire a rail drives: those that hold a phase of the loop, or every powered die (R250). -/
def Chip.wmDies (s : Chip) (r : Nat) : List Nat :=
  [1, 2, 3, 4, 5, 6, 7].filter fun d => s.dieOn d && (decide (32 ≤ r) || !(s.loopPhasesOn d r).isEmpty)

/-- Whether rail r drives the wire: a state that WTRIP selects; UNDER only while the rail is qualified (R250). -/
def Chip.wmDrives (s : Chip) (r : Nat) : Bool :=
  let st := s.get (WMON.STAT_STATE r)
  let w := s.get (WMON.CFG_WTRIP r)
  s.bit (WMON.CFG_EN r) && ((bitAt w 0 && st == 1) || (bitAt w 1 && st == 2 && s.get (SEQR.STAT_STATE r) == 4))

/-- Puts a rail's contribution on the window trip wires (R250). -/
def Chip.wmWires (s : Chip) (r : Nat) : Chip :=
  let on := s.wmDrives r
  let ds := s.wmDies r
  s.forEach [1, 2, 3, 4, 5, 6, 7] fun d t => t.setWmWire d r (on && ds.contains d)

/-- The state of a pair is set; an entry into OVER or UNDER is an event, which also aborts auto-tune (R111, R248). -/
def Chip.wmSet (s : Chip) (r st : Nat) (confirmed : Bool) : Chip :=
  let was := s.get (WMON.STAT_STATE r)
  let t := (s.put (WMON.STAT_STATE r) st).putB (WMON.STAT_CONFD r) confirmed
  let t := if st = was then t
    else if st = 1 then (t.event (WMON.EVT_OVERF r) (WMON.EVTCNT_OVERCNT r) (srcWmon r)).tuneAbortAll 7
    else if st = 2 then (t.event (WMON.EVT_UNDERF r) (WMON.EVTCNT_UNDERCNT r) (srcWmon r)).tuneAbortAll 7
    else t
  t.wmWires r

/-- The state that a sample in microvolts gives, if any (R248). -/
def Chip.wmJudge (s : Chip) (r : Nat) (uv : Int) : Option Nat :=
  let hi : Int := s.get (WMON.THR_WHI r)
  let lo : Int := s.get (WMON.THR_WLO r)
  let hys : Int := s.get (WMON.CFG_WHYS r)
  if hi * 1000 < uv then some 1
  else if uv < lo * 1000 then some 2
  else if (lo + hys) * 1000 < uv && uv < (hi - hys) * 1000 then some 0
  else none

/-- The tick interval in µs: 0 acts as 1 and above 1,000 as 1,000 (R247, R259). -/
def Chip.wmTickInt (s : Chip) (r : Nat) : Nat := min 1000 (orOne (s.get (WMON.CFG_TICK r)))

/-- WINDOW_TICK: an enabled pair samples its rail at its instants on the grid, in microvolts at its input (R247 to R250, R539). A confirmation that came at the same count stands, and the sample is judged from the next tick (R254; DEDUCED, log entry 175). -/
def Chip.wmTick (s : Chip) (r : Nat) (uv : Int) : Chip :=
  if !s.domOn .aon || !s.bit (WMON.CFG_EN r) || !s.gridAt (gridRail r) (s.wmTickInt r) then s
  else
    let s := s.gridMark (gridRail r)
    let t := match s.wmJudge r uv with
      | some st => if s.grid.get (gridConf r) = s.now + 1 then s else s.wmSet r st false
      | none => s
    { t with undet := t.undet.set r (if t.get (WMON.STAT_STATE r) = 3 then s.undet.get r + 1 else 0) }

/-- The converter and the entry that confirm rail r (R249). -/
def Chip.confSq (s : Chip) (r : Nat) : Nat := s.get (WMON.CFG_CONFSQ r)

/-- WINDOW_CONFIRM_REQUEST: a pair has been UNDET for 2^CONFDLY ticks; no request is made while HKA is off (R249). -/
def Chip.wmConfirm (s : Chip) (r : Nat) : Chip :=
  if s.bit (WMON.CFG_EN r) && s.bit (WMON.CFG_CONFEN r) && s.get (WMON.STAT_STATE r) == 3 && !s.bit (WMON.STAT_CONFPEND r)
    && decide (2 ^ s.get (WMON.CFG_CONFDLY r) ≤ s.undet.get r) && s.domOn .hka
  then
    let t := { s with undet := s.undet.set r 0 }
    (t.put (WMON.STAT_CONFPEND r) 1).sqConfirm (s.confSq r) (s.get (WMON.CFG_CONFENT r)) r
  else s

/-- A confirmation's result: V = RESULT × 1,250 mV × ATT ÷ (G × 2^23) with ATT 4 for a rail sense input; over-range leaves the pair UNDET (R217, R249). `gain` is the entry's G. -/
def Chip.wmResult (s : Chip) (r gain res : Nat) (ovr : Bool) : Chip :=
  let t := s.put (WMON.STAT_CONFPEND r) 0
  if ovr || s.get (WMON.STAT_STATE r) ≠ 3 || !s.bit (WMON.CFG_EN r) then { t with undet := t.undet.set r 0 }
  else
    -- Both sides are twice millivolts times gain × 2^23.
    let v := signedOf 24 res * 1250 * 4 * 2
    let scale : Int := (gain * 2 ^ 23 : Nat)
    let hi : Int := 2 * (s.get (WMON.THR_WHI r) : Int) - s.get (WMON.CFG_WHYS r)
    let lo : Int := 2 * (s.get (WMON.THR_WLO r) : Int) + s.get (WMON.CFG_WHYS r)
    let st := if hi * scale ≤ v then 1 else if v ≤ lo * scale then 2 else 0
    let t := t.event (WMON.EVT_CONFF r) (WMON.EVTCNT_CONFCNT r) (srcWmon r)
    { t with undet := t.undet.set r 0 }.wmSet r st true |>.gridMark (gridConf r)

/-- HKA goes off: the confirmations that wait end with no data, and each pair counts its undetermined ticks anew (R249). -/
def Chip.confLost (s : Chip) : Chip :=
  s.forEach ((List.range 64).filter fun r => s.bit (WMON.STAT_CONFPEND r)) fun r t =>
    { t.put (WMON.STAT_CONFPEND r) 0 with undet := t.undet.set r 0 }

/-- A commit or a load gives a pair new settings: EN from 0 to 1 enters UNDET, and EN that stays 1 keeps the state (R251). -/
def Chip.wmLoad (s : Chip) (r : Nat) (thr cfg : Word) : Chip :=
  let was := s.bit (WMON.CFG_EN r)
  let t := (s.setReg (WMON.THR r) thr).setReg (WMON.CFG r) cfg
  let t := if !was && t.bit (WMON.CFG_EN r) then
      ({ (t.put (WMON.STAT_STATE r) 3).put (WMON.STAT_CONFD r) 0 with undet := t.undet.set r 0 }).gridMark (gridRail r) else t
  t.wmWires r

end Sys2Proof.Machine
end

