-- ==== Sys2Proof/Machine/Avs.lean ====
section
/-! DEFINITION. AVSBus ports (R266 to R270). -/

namespace Sys2Proof.Machine

def srcAvs (k : Nat) : Nat := 0xc0 + k

def Chip.avsUpd (s : Chip) (k : Nat) (f : AvsHw → AvsHw) : Chip := { s with avsHw := s.avsHw.upd k f }

/-- The loop that a select of a port names (R266). -/
def Chip.avsLoop (s : Chip) (k sel : Nat) : Option Nat :=
  let m := wordField (s.reg (AVSP.CFG k)) (6 * sel) 6
  if sel < 4 && bitAt m 5 then some (m % 32) else none

/-- The mapped selects of a port, with their loops. -/
def Chip.avsMapped (s : Chip) (k : Nat) : List (Nat × Nat) :=
  [0, 1, 2, 3].filterMap fun j => (s.avsLoop k j).map fun n => (j, n)

/-- The slave frame of a port: acknowledgement, data and status for the loops addressed (R269). FRAMES counts it (R289). -/
def Chip.avsAnswer (s : Chip) (k ack data : Nat) (loops : List Nat) : Chip :=
  let done := loops.all fun n => s.get (LOOP.TARGET_VTGT n) == s.get (AVSL.SETPT_SETPT n)
  let ctl := loops.all fun n => s.get (AVSL.CTRL_OWNER n) == 1
  (s.incWrap (AVSP.FRAMES_COUNT k)).out
    (.avs k ack data (done && !loops.isEmpty) (s.avsHw.get k).alert (ctl && !loops.isEmpty))

/-- A frame with a bad CRC (reason 0x7), or an unmapped select (0x5), counted at the port (R264, R269). -/
def Chip.avsBadCrc (s : Chip) (k : Nat) : Chip :=
  ((s.event (AVSP.EVT_CRCF k) (AVSP.EVTCNT_CRCCNT k) (srcAvs k)).avsUpd k fun a => { a with alert := true }).avsAnswer k 2 0 []
def Chip.avsUnmapped (s : Chip) (k : Nat) : Chip :=
  ((s.event (AVSP.EVT_UNMF k) (AVSP.EVTCNT_UNMCNT k) (srcAvs k)).avsUpd k fun a => { a with alert := true }).avsAnswer k 3 0 []

/-- A frame reaches a port that may answer it (R266, R269). -/
def Chip.avsFrame (s : Chip) (k : Nat) (crcOk : Bool) (f : Chip → Chip) : Chip :=
  if !s.coreRuns || !s.bit (AVSP.CFG_EN k) then s else if !crcOk then s.avsBadCrc k else f s

/-- A setpoint or slew of the AVSBus reaches its loop; a refusal or a clip raises the port's alert (R262, R263, R269). -/
def Chip.avsSetpoint (s : Chip) (k n v : Nat) : Chip × Nat :=
  let r := s.setpointCmd n 1 v
  (if r.2 ≠ 0 then r.1.avsUpd k fun a => { a with alert := true } else r.1, r.2)
def Chip.avsSlew (s : Chip) (k n v : Nat) : Chip × Nat :=
  let r := s.slewCmd n 1 v 1000
  (if r.2 ≠ 0 || s.slewMax n < (if v = 0 then 1000 else v) then r.1.avsUpd k fun a => { a with alert := true } else r.1, r.2)

/-- The setpoint of loop n goes to VBOOT, checked as any setpoint (R267). -/
def Chip.avsDefault (s : Chip) (k n : Nat) : Chip × Nat := s.avsSetpoint k n (s.get (AVSL.CTRL_VBOOT n))

/-- The values held for a select are applied, setpoints before the slew, and are held no longer (R268). Of the setpoints the voltage comes before the reset, and a status write comes last: DESIGN CHOICE, log entry 176. -/
def Chip.avsRelease (s : Chip) (k sel n : Nat) : Chip :=
  let a := s.avsHw.get k
  let t := s.avsUpd k fun a => { a with holdV := a.holdV.set sel none, holdS := a.holdS.set sel none, holdR := a.holdR.set sel false, holdE := a.holdE.set sel false }
  let t := (t.put (AVSL.SETPT_HELD n) 0).put (AVSL.SETPT_HOLDV n) 0
  let t := match (a.holdV[sel]?).join with
    | some v => (t.avsSetpoint k n v).1
    | none => t
  let t := if (a.holdR[sel]?).getD false then (t.avsDefault k n).1 else t
  let t := match (a.holdS[sel]?).join with
    | some v => (t.avsSlew k n v).1
    | none => t
  if (a.holdE[sel]?).getD false then t.avsUpd k fun a => { a with alert := false } else t

/-- A write and commit to the selects addressed, each as a separate command (R268, R269). -/
def Chip.avsCommit (s : Chip) (k : Nat) (sels : List (Nat × Nat)) (cmd : Chip → Nat → Chip × Nat) : Chip :=
  let r := sels.foldl (fun (acc : Chip × Bool) x =>
    let t := acc.1.avsRelease k x.1 x.2
    let q := cmd t x.2
    (q.1, acc.2 && q.2 == 0)) (s, true)
  r.1.avsAnswer k (if r.2 then 0 else 1) 0 (sels.map (·.2))

/-- The selects that a write addresses: one, or by broadcast every mapped one; none where a select is not mapped. -/
def Chip.avsSels (s : Chip) (k sel : Nat) : Option (List (Nat × Nat)) :=
  if sel = 0xf then some (s.avsMapped k) else (s.avsLoop k sel).map fun n => [(sel, n)]

/-- A data type that the port does not support, of a select whose loops the status fields tell of (R267, R269). -/
def Chip.avsUnsupported (s : Chip) (k sel : Nat) : Chip :=
  ((s.event (AVSP.EVT_UNSF k) (AVSP.EVTCNT_UNSCNT k) (srcAvs k)).avsUpd k fun a => { a with alert := true }).avsAnswer k 3 0 (((s.avsSels k sel).getD []).map (·.2))

/-- AVS_TARGET_VOLTAGE_WRITE (R267, R268). -/
def Chip.avsWriteV (s : Chip) (k sel : Nat) (hold : Bool) (mv : Nat) (crcOk : Bool) : Chip :=
  s.avsFrame k crcOk fun s =>
    match s.avsSels k sel with
    | none => s.avsUnmapped k
    | some sels =>
      if hold then
        let t := sels.foldl (fun t x =>
          let t := (t.avsUpd k fun a => { a with holdV := a.holdV.set x.1 (some (4 * mv)) }).put (AVSL.SETPT_HELD x.2) 1
          if 4 * mv < 2 ^ 14 then t.put (AVSL.SETPT_HOLDV x.2) (4 * mv) else (t.put (AVSL.SETPT_HOLDV x.2) t.freeVal).freeNext) s
        t.avsAnswer k 0 0 (sels.map (·.2))
      else s.avsCommit k sels fun t n => t.avsSetpoint k n (4 * mv)

/-- AVS_TRANSITION_RATE_WRITE (R263, R267, R268). -/
def Chip.avsWriteSlew (s : Chip) (k sel : Nat) (hold : Bool) (mvus : Nat) (crcOk : Bool) : Chip :=
  s.avsFrame k crcOk fun s =>
    match s.avsSels k sel with
    | none => s.avsUnmapped k
    | some sels =>
      if hold then
        let t := sels.foldl (fun t x => t.avsUpd k fun a => { a with holdS := a.holdS.set x.1 (some (1000 * mvus)) }) s
        t.avsAnswer k 0 0 (sels.map (·.2))
      else s.avsCommit k sels fun t n => t.avsSlew k n (1000 * mvus)

/-- A frame of a data type that the port does not support in its direction (R264, R267). -/
def Chip.avsOther (s : Chip) (k sel : Nat) (crcOk : Bool) : Chip := s.avsFrame k crcOk fun s => s.avsUnsupported k sel

/-- AVS_RESET_VOLTAGE: the setpoint becomes VBOOT, checked as any setpoint (R267, R268). -/
def Chip.avsReset (s : Chip) (k sel : Nat) (hold crcOk : Bool) : Chip :=
  s.avsFrame k crcOk fun s =>
    match s.avsSels k sel with
    | none => s.avsUnmapped k
    | some sels =>
      if hold then
        (sels.foldl (fun t x => t.avsUpd k fun a => { a with holdR := a.holdR.set x.1 true }) s).avsAnswer k 0 0 (sels.map (·.2))
      else s.avsCommit k sels fun t n => t.avsDefault k n

/-- AVS_STATUS_WRITE: what is held for the selects is applied first, and the port's alert status clears (R267 to R269). -/
def Chip.avsStatusWrite (s : Chip) (k sel : Nat) (hold crcOk : Bool) : Chip :=
  s.avsFrame k crcOk fun s =>
    match s.avsSels k sel with
    | none => s.avsUnmapped k
    | some sels =>
      if hold then
        (sels.foldl (fun t x => t.avsUpd k fun a => { a with holdE := a.holdE.set x.1 true }) s).avsAnswer k 0 0 (sels.map (·.2))
      else s.avsCommit k sels fun t _ => (t.avsUpd k fun a => { a with alert := false }, 0)

/-- A read of one select; a broadcast read is refused (R267). -/
def Chip.avsRead (s : Chip) (k sel : Nat) (crcOk : Bool) (f : Chip → Nat → Chip × Nat) : Chip :=
  s.avsFrame k crcOk fun s =>
    if sel = 0xf then s.avsUnsupported k sel
    else match s.avsLoop k sel with
      | none => s.avsUnmapped k
      | some n => let r := f s n; r.1.avsAnswer k 0 r.2 [n]

/-- The reads of R267. -/
def avsTarget (s : Chip) (n : Nat) : Chip × Nat := (s, s.get (LOOP.TARGET_VTGT n) / 4)
def avsRate (s : Chip) (n : Nat) : Chip × Nat := (s, s.get (AVSL.SLEW_SLEWCMD n) / 1000)

/-- The current in 10 mA: 25/4 of a sixteenth of an ampere (R267). -/
def avsCurrent (s : Chip) (n : Nat) : Chip × Nat :=
  let r := s.openDiv (max (s.loopSum n) 0 * 25) 4
  (r.1, min r.2.toNat 0xffff)

/-- The highest stage temperature among a loop's active phases, Q9.3, if it has one. -/
def Chip.hotStage (s : Chip) (n : Nat) : Option Int :=
  (s.loopPh.get n).act.foldl (fun m p =>
    let v := s.getS (STB.STG_TEMP (dieOf p) (p % 32))
    match m with | none => some v | some w => some (max v w)) none

/-- The temperature in 0.1 °C, 16 bits of two's complement; a loop with no active phase has none, and the value is then free (R267). -/
def avsTemp (s : Chip) (n : Nat) : Chip × Nat :=
  match s.hotStage n with
  | some v => let r := s.openDiv (v * 10) 8; (r.1, bitsOf 16 r.2)
  | none => (s.freeNext, s.freeVal % 2 ^ 16)

/-- The status word: the fields of R269, VDone in bit 15, the alert in bit 14 and AVSControl in bit 13 (log entry 30). -/
def Chip.avsStatus (s : Chip) (k n : Nat) : Chip × Nat :=
  let done := s.get (LOOP.TARGET_VTGT n) == s.get (AVSL.SETPT_SETPT n)
  (s, done.toNat * 2 ^ 15 + (s.avsHw.get k).alert.toNat * 2 ^ 14 + (s.get (AVSL.CTRL_OWNER n) == 1).toNat * 2 ^ 13)

/-- AVS_FRAME_TIMEOUT: AVS_CLK stopped within a frame; nothing in it is applied (R270). -/
def Chip.avsTimeout (s : Chip) (k : Nat) : Chip :=
  if !s.coreRuns || !s.bit (AVSP.CFG_EN k) then s else s.event (AVSP.EVT_FTOF k) (AVSP.EVTCNT_FTOCNT k) (srcAvs k)

/-- Held values are discarded at commit (R268). -/
def Chip.avsDiscard (s : Chip) : Chip :=
  let t := s.forEach (List.range 8) fun k u => u.avsUpd k fun a => { a with holdV := [none, none, none, none], holdS := [none, none, none, none], holdR := [false, false, false, false], holdE := [false, false, false, false] }
  t.forEach (List.range 32) fun n u => (u.put (AVSL.SETPT_HELD n) 0).put (AVSL.SETPT_HOLDV n) 0

end Sys2Proof.Machine
end

