-- ==== Sys2Proof/Machine/Hints.lean ====
section
/-! DEFINITION. Hint links (R271 to R286). -/

namespace Sys2Proof.Machine

def srcHint (l : Nat) : Nat := 0xc8 + l

def Chip.hlUpd (s : Chip) (l : Nat) (f : HintHw → HintHw) : Chip := { s with hintHw := s.hintHw.upd l f }

/-- The loop that a hint select names (R275). -/
def Chip.hintLoop (s : Chip) (l k : Nat) : Option Nat :=
  let m := wordField (s.reg (HINT.MAP l)) (6 * k) 6
  if bitAt m 5 then some (m % 32) else none

/-- The loops that a mask names, with their selects. -/
def Chip.hintLoops (s : Chip) (l mask : Nat) : List (Nat × Nat) :=
  [0, 1, 2, 3].filterMap fun k => if bitAt mask k then (s.hintLoop l k).map fun n => (k, n) else none

/-- STAT and LHALERT follow the queue (R280, R282, R292). -/
def Chip.hintStat (s : Chip) (l : Nat) : Chip :=
  let h := s.hintHw.get l
  let waiting := h.hints.filter fun x => x.phase != .holding
  let dfr := waiting.any fun x => x.deferred.isSome
  ((s.put (HINT.STAT_QLEN l) waiting.length).putB (HINT.STAT_DEF l) dfr).putB (HINT.STAT_LHAL l) (dfr || h.pulse.isSome)

/-- CRC-8 of a frame's words: polynomial 0x07, initial value 0 (R272). -/
def hintCrc (words : List (BitVec 16)) : BitVec 8 := (words.flatMap fun w => bytesLE 2 w.toNat).foldl (crcByteM (7 : BitVec 8)) 0

/-- A frame of one word as the device sends it: preamble, start delimiter, word, CRC, end delimiter (R272, R273). -/
def hintFrame (kind hid arg : Nat) : List StbSym :=
  let w := BitVec.ofNat 16 (kind * 2 ^ 12 + hid * 2 ^ 6 + arg)
  [.nibble 5, .start] ++ (bytesLE 2 w.toNat ++ [hintCrc [w]]).map .byte ++ [.stop]

/-- The device sends a frame; a disabled link transmits nothing (R273, R275). -/
def Chip.hintTx (s : Chip) (l kind hid arg : Nat) : Chip :=
  if s.bit (HINT.CFG_EN l) then
    (s.hlUpd l fun h => { h with tx := ((kind, hid, arg, 0) :: h.tx).take 8 }).out (.hint l (hintFrame kind hid arg))
  else s

def Chip.hintSet (s : Chip) (l : Nat) (x : Hint) : Chip :=
  s.hlUpd l fun h => { h with hints := h.hints.map fun y => if y.hid = x.hid then x else y }

def Chip.hintDrop (s : Chip) (l hid : Nat) : Chip := s.hlUpd l fun h => { h with hints := h.hints.filter fun y => y.hid ≠ hid }

/-- LAST and LAT describe the hint that received its final answer (R293): kind 1 granted, 2 refused, 3 cancelled. -/
def Chip.hintLast (s : Chip) (l kind code : Nat) (x : Hint) : Chip :=
  let t := ((s.put (HINT.LAST_HID l) x.hid).put (HINT.LAST_KIND l) kind).put (HINT.LAST_STEP l) (bitsOf 8 x.step)
  let t := (t.put (HINT.LAST_LEAD l) x.lead).put (HINT.LAST_CODE l) code
  let t := (t.put (HINT.LAT_GLAT l) x.glat).put (HINT.LAT_READY l) x.readyIn
  t.hlUpd l fun h => { h with ready := if kind = 1 then some x.hid else none }

/-- A refusal: REFUSE, except for a disabled link, and a pulse on LHALERT (R281, R282). -/
def Chip.hintRefuse (s : Chip) (l reason : Nat) (x : Hint) : Chip :=
  let t := s.event (HINT.EVT_REFF l) (HINT.EVTCNT_REFCNT l) (srcHint l)
  let t := (t.hintTx l 0xa x.hid reason).hintLast l 2 reason x
  (t.hlUpd l fun h => { h with pulse := some t.now }).hintStat l

/-- A waiting hint is refused; a request it has made is withdrawn (R280, R281). -/
def Chip.hintReject (s : Chip) (l reason : Nat) (x : Hint) : Chip :=
  let t := if x.phase = .asked then s.askDrop (.hint l x.hid) else s
  (t.hintDrop l x.hid).hintRefuse l reason x

/-- A hint is deferred: the first time with a DEFER that carries the cause, which stays its last answer (R276, R280). -/
def Chip.hintDefer (s : Chip) (l cause : Nat) (x : Hint) : Chip :=
  if x.deferred.isSome then s.hintSet l x
  else
    let t := (s.hintSet l { x with deferred := some cause }).hintTx l 0x9 x.hid cause
    (t.event (HINT.EVT_DEFF l) (HINT.EVTCNT_DEFCNT l) (srcHint l)).hintStat l

/-- The floors in force on a loop: the greatest of those of all holding hints (R279). -/
def Chip.floorsOf (s : Chip) (n : Nat) : Nat × Nat :=
  (List.range 8).foldl (fun acc l =>
    (s.hintHw.get l).hints.foldl (fun acc x =>
      if x.phase = .holding then
        (s.hintLoops l x.mask).foldl (fun acc kn =>
          if kn.2 = n then let f := (x.floors[kn.1]?).getD (0, 0); (max acc.1 f.1, max acc.2 f.2) else acc) acc
      else acc) acc) (0, 0)

/-- The loop's floors follow the holding hints, and STATUS.FLOOR shows them (R163, R176, R279). -/
def Chip.floorRefresh (s : Chip) (n : Nat) : Chip :=
  let f := s.floorsOf n
  (s.lpUpd n fun h => { h with floorN := f.1, floorReg := f.2 }).putB (PHSL.STATUS_FLOOR n) (f.1 != 0 || f.2 != 0)

/-- N_f and the floor region for a loop's current with the step added (R277). -/
def Chip.hintFloor (s : Chip) (n : Nat) (step : Int) : Nat × Nat :=
  let total := s.loopSum n + step * 128
  let avail := (s.available n).length
  let padd := s.get (PHSL.THRESH_PADD n)
  let nf := if padd = 0 then avail
    else min avail (max (s.loopPh.get n).act.length ((total + padd - 1) / padd).toNat)
  let tab := s.segTable n
  let reg := ((List.range tab.length).filter fun j => decide (((rowIth tab j * nf : Nat) : Int) ≤ total)).foldl max 0
  (nf, reg)

/-- GLAT of a hint granted now: the time since its end in 10 ns, known to the microsecond on either side; what the time counter does not hold of it is a free value (R278, R293; log entry 6). -/
def Chip.hintGlat (s : Chip) (x : Hint) : Nat := min 0xffff (100 * (s.now - x.at') + s.freeVal % 199 - 99)

/-- A shed in progress that would take the loop below its floor turns into an add (R163, R173). -/
def Chip.shedFloor (s : Chip) (n : Nat) : Chip :=
  let h := s.loopPh.get n
  match h.procPhase with
  | some p => if s.get (PHSL.STATUS_PROC n) == 2 && decide (h.act.length ≤ h.floorN) then s.shedTurn n p else s
  | none => s

/-- A hint is granted: floors, pre-positioning, feed-forward and GRANT (R277, R279). -/
def Chip.hintGrant (s : Chip) (l : Nat) (x : Hint) : Chip :=
  let loops := s.hintLoops l x.mask
  let floors := if 0 < x.step then [0, 1, 2, 3].map fun k =>
      match loops.find? (·.1 == k) with
      | some kn => s.hintFloor kn.2 x.step
      | none => (0, 0)
    else [(0, 0), (0, 0), (0, 0), (0, 0)]
  let x := { x with phase := .holding, deferred := none, grantAt := s.now, floors := floors, glat := s.hintGlat x }
  let t := s.freeNext.hintSet l x
  let t := loops.foldl (fun t kn =>
    let n := kn.2
    let t := t.floorRefresh n
    let t := if 0 < x.step then t.shedFloor n else t
    let t := if 0 < x.step then t.forEach (t.loopPh.get n).act fun p u => u.segUpdate n p (u.getS (PHS.IAVG_IAVG p)) else t
    t.ffArm n x.step l x.hid x.lead) t
  let t := t.event (HINT.EVT_GRNTF l) (HINT.EVTCNT_GRNTCNT l) (srcHint l)
  ((t.hintTx l 0x8 x.hid 0).hintLast l 1 0 x).hintStat l

/-- The leave that a hint asks for (R277). -/
def Chip.hintAsk (s : Chip) (l : Nat) (x : Hint) : Ask :=
  let num := (s.hintLoops l x.mask).foldl (fun a kn => a + 8 * x.step.toNat * s.get (LOOP.TARGET_VTGT kn.2) * x.kpw) 0
  ⟨.hint l x.hid, (num + 4000 * 256 - 1) / (4000 * 256), orOne ((x.lead + 3) / 4 + x.hold), x.prio⟩

/-- The loop has an auto-tune run that runs or waits (R280 cause 0x03). -/
def Chip.tuneMeets (s : Chip) (n : Nat) : Bool := s.loopState n == 4 || (s.tunes.get n).phase != .idle

/-- The hint at the head of the queue goes on through R276 and R277, and the next after it, until one waits; in the safe state none is granted (R350). -/
def Chip.hintAdvance : Nat → Nat → Chip → Chip
  | 0, _, s => s
  | fuel + 1, l, s =>
    match (s.hintHw.get l).hints.find? (fun x => x.phase != .holding) with
    | none => s
    | some x =>
      if x.phase = .asked then s
      else
        let loops := s.hintLoops l x.mask
        if loops.any (fun kn => s.loopState kn.2 != 2 && s.loopState kn.2 != 4) then Chip.hintAdvance fuel l (s.hintReject l 2 x)
        else if loops.any (fun kn => decide (0 < x.step) && decide ((s.get (AVSL.ILIM_ILIM kn.2) : Int) < s.loopSum kn.2 + x.step * 128))
        then Chip.hintAdvance fuel l (s.hintReject l 3 x)
        else
          let meets := x.phase == .tuning || loops.any fun kn => s.tuneMeets kn.2
          let t := if meets then (loops.foldl (fun t kn => t.tuneAbort kn.2 9) s).hintDefer l 3 { x with phase := .tuning } else s
          let x := if meets then { x with phase := .tuning, deferred := some (x.deferred.getD 3) } else x
          if t.bit FLT.STAT_SAFE || loops.any (fun kn => t.loopState kn.2 == 4) then t
          else if 0 < x.step then (t.hintSet l { x with phase := .asked }).ask (t.hintAsk l x)
          else Chip.hintAdvance fuel l (t.hintGrant l x)

/-- A run that has just been accepted meets a hint that waits and names its loop: it is aborted (R111 cause 0x9, R280 cause 0x03). -/
def Chip.hintTune (s : Chip) (n : Nat) : Chip :=
  if (List.range 8).any fun l => (s.hintHw.get l).hints.any fun x => x.phase != .holding && (s.hintLoops l x.mask).any fun kn => kn.2 == n
  then s.tuneAbort n 9 else s

/-- The link's queue goes on as far as it can. -/
def Chip.hintRun (s : Chip) (l : Nat) : Chip := (Chip.hintAdvance 5 l s).hintStat l

/-- A frame is discarded (R273). -/
def Chip.hintBad (s : Chip) (l : Nat) : Chip := s.event (HINT.EVT_FRMF l) (HINT.EVTCNT2_FRMCNT l) (srcHint l)

/-- A HINT as received, with the fields of its link that it takes (R273, R291). -/
def Chip.hintNew (s : Chip) (l : Nat) (w0 w1 : BitVec 16) : Hint :=
  { hid := w0.toNat / 64 % 64, mask := w0.toNat / 4 % 16, step := signedOf 8 (w1.toNat / 256), lead := w1.toNat % 256,
    at' := s.now, kpw := max 256 (s.get (HINT.CFG_KPW l)), prio := s.get (HINT.CFG_PRIO l), hold := s.get (HINT.TIMING_GHOLD l),
    deft := orOne (s.get (HINT.TIMING_DEFT l)),
    sums := [0, 1, 2, 3].map fun k => match s.hintLoop l k with | some n => s.loopSum n | none => 0 }

/-- HINT_RECEIVE: `clean` says that the frame has the length of its type and no code violation outside its delimiters, `crc` is the CRC it carries (R272, R273, R275, R276, R280). -/
def Chip.hintReceive (s : Chip) (l : Nat) (clean : Bool) (crc : BitVec 8) (w0 w1 : BitVec 16) : Chip :=
  let x := s.hintNew l w0 w1
  if !s.coreRuns then s
  else if !clean || crc ≠ hintCrc [w0, w1] || w0.toNat / 4096 ≠ 1 || w0.toNat % 4 ≠ 0 then s.hintBad l
  else if !s.bit (HINT.CFG_EN l) then s.hintRefuse l 6 x
  else if x.mask = 0 || (s.hintLoops l x.mask).length ≠ countBits 4 x.mask then s.hintRefuse l 1 x
  else
    let h := s.hintHw.get l
    match h.hints.find? (·.hid == x.hid) with
    | some y =>
      if y.mask ≠ x.mask || y.step ≠ x.step || y.lead ≠ x.lead then s.hintRefuse l 5 x
      else if y.phase = .holding then s.hintTx l 0x8 y.hid 0
      else match y.deferred with
        | some c => s.hintTx l 0x9 y.hid c
        | none => s
    | none =>
      let waiting := (h.hints.filter fun y => y.phase != .holding).length
      if 4 ≤ waiting then s.hintRefuse l 4 x
      else
        let loops := s.hintLoops l x.mask
        let x := if loops.any fun kn => s.tuneMeets kn.2 then { x with phase := .tuning } else x
        let t := s.hlUpd l fun h => { h with hints := h.hints ++ [x] }
        let t := loops.foldl (fun t kn => t.tuneAbort kn.2 9) t
        let t := if waiting = 0 then t else t.hintDefer l 2 x
        t.hintRun l

/-- The floors of a holding hint end and its leave is done (R279, R283, R285). -/
def Chip.hintEnd (s : Chip) (l : Nat) (x : Hint) : Chip :=
  let t := (s.hintDrop l x.hid).hlUpd l fun h => { h with ready := if h.ready = some x.hid then none else h.ready }
  let t := (s.hintLoops l x.mask).foldl (fun t kn => t.floorRefresh kn.2) t
  (if 0 < x.step then t.askDone (.hint l x.hid) else t).hintStat l

/-- HINT_HOLD_END: LEAD + GHOLD after the grant (R279). -/
def Chip.hintHoldEnd (s : Chip) (l hid : Nat) : Chip :=
  match (s.hintHw.get l).hints.find? (·.hid == hid) with
  | some x =>
    if x.phase == .holding && decide (4 * x.grantAt + x.lead + 4 * x.hold ≤ 4 * s.now) then s.hintEnd l x else s
  | none => s

/-- CANCEL_RECEIVE, with `clean` and `crc` as at HINT_RECEIVE (R272, R273, R283). -/
def Chip.hintCancel (s : Chip) (l : Nat) (clean : Bool) (crc : BitVec 8) (w0 : BitVec 16) : Chip :=
  let hid := w0.toNat / 64 % 64
  if !s.coreRuns then s
  else if !clean || crc ≠ hintCrc [w0] || w0.toNat / 4096 ≠ 2 || w0.toNat % 64 ≠ 0 then s.hintBad l
  else match (s.hintHw.get l).hints.find? (·.hid == hid) with
    | none => s.hintTx l 0xb hid 1
    | some x =>
      let t :=
        if x.phase = .holding then
          (s.hintLoops l x.mask).foldl (fun t kn => t.ffDisarm kn.2 l hid) (s.hintEnd l x)
        else
          let t := if x.phase = .asked then s.askDrop (.hint l hid) else s
          (t.hintDrop l hid).hintRun l
      (t.hintLast l 3 0 x).hintTx l 0xb hid 0

/-- HINT_DEFER_TIMEOUT: not granted DEFT after its end (R280). -/
def Chip.hintTimeout (s : Chip) (l hid : Nat) : Chip :=
  match (s.hintHw.get l).hints.find? (·.hid == hid) with
  | some x =>
    if x.phase != .holding && decide (x.at' + x.deft ≤ s.now) then (s.hintReject l 7 x).hintRun l else s
  | none => s

/-- The arbiter grants a hint's leave; one that no longer waits for it is at once done (R277, R313). -/
def Chip.hintLeave (s : Chip) (l hid : Nat) : Chip :=
  match (s.hintHw.get l).hints.find? (·.hid == hid) with
  | some x => if x.phase = .asked && !s.bit FLT.STAT_SAFE then (s.hintGrant l x).hintRun l else s.askDone (.hint l hid)
  | none => s.askDone (.hint l hid)

/-- The arbiter refuses a hint's leave (R308). -/
def Chip.hintNoLeave (s : Chip) (l hid : Nat) : Chip :=
  match (s.hintHw.get l).hints.find? (·.hid == hid) with
  | some x =>
    if x.phase = .asked then (((s.hintDrop l hid).hintRefuse l 7 x)).hintRun l else s
  | none => s

/-- A hint's leave is queued at the arbiter: it is deferred (R280 cause 0x01). -/
def Chip.hintQueued (s : Chip) (l hid : Nat) : Chip :=
  match (s.hintHw.get l).hints.find? (·.hid == hid) with
  | some x => if x.phase = .asked then s.hintDefer l 1 x else s
  | none => s

/-- A loop stops: hints that name it end or are refused (R281 reason 0x08, R285). -/
def Chip.hintLoopStop (s : Chip) (n : Nat) : Chip :=
  s.forEach (List.range 8) fun l t =>
    let named := (t.hintHw.get l).hints.filter fun x => (t.hintLoops l x.mask).any fun kn => kn.2 == n
    let u := named.foldl (fun u x =>
      if x.phase = .holding then (u.hintLoops l x.mask).foldl (fun v kn => v.ffStop kn.2 l x.hid) (u.hintEnd l x)
      else u.hintReject l 8 x) t
    if named.isEmpty then u else u.hintRun l

/-- A loop is back in RUN: hints that waited for it go on (R112, R280). -/
def Chip.hintResume (s : Chip) : Chip := s.forEach (List.range 8) fun l t => t.hintRun l

/-- An early step: a waiting hint's loop has risen by 4 A × STEP since the hint's receipt (R284). -/
def Chip.hintEarly (s : Chip) (n : Nat) : Chip :=
  s.forEach (List.range 8) fun l t =>
    (t.hintHw.get l).hints.foldl (fun u x =>
      let rose := (u.hintLoops l x.mask).any fun kn => kn.2 == n && decide (((x.sums[kn.1]?).getD 0) + x.step * 64 ≤ u.loopSum n)
      if x.phase != .holding && decide (0 < x.step) && !x.early && rose then
        (u.hintSet l { x with early := true }).event (HINT.EVT_EARLYF l) (HINT.EVTCNT2_EARLYCNT l) (srcHint l)
      else u) t

/-- An unhinted step: a mapped loop enters transient high while no grant holds for it (R284). -/
def Chip.hintUnhinted (s : Chip) (n : Nat) : Chip :=
  s.forEach (List.range 8) fun l t =>
    let mapped := [0, 1, 2, 3].any fun k => t.hintLoop l k == some n
    let held := (t.hintHw.get l).hints.any fun x => x.phase == .holding && (t.hintLoops l x.mask).any fun kn => kn.2 == n
    if mapped && !held then t.event (HINT.EVT_UNGF l) (HINT.EVTCNT2_UNGCNT l) (srcHint l) else t

/-- A switch has a raised count that the stage has not acknowledged (R192, R279). -/
def Chip.raising (s : Chip) (p sw : Nat) : Bool :=
  let w := s.switches.get (2 * p + sw)
  let c := s.get (if sw = 0 then SEG.ACT_HS p else SEG.ACT_LS p)
  (w.due && decide (c < w.wantC)) || match w.sent with | some x => decide (c < x.1) | none => false

/-- A loop stands as its floors ask: no add runs or is wanted, and every raised count has been acknowledged (R279). -/
def Chip.positioned (s : Chip) (n : Nat) : Bool :=
  let h := s.loopPh.get n
  decide (h.floorN ≤ h.act.length) && s.get (PHSL.STATUS_PROC n) != 1
    && h.act.all fun p => !s.raising p 0 && !s.raising p 1

/-- READY is recorded once pre-positioning is complete, at once for a hint that asks for none (R277, R279). -/
def Chip.hintReady (s : Chip) : Chip :=
  s.forEach (List.range 8) fun l t =>
    (t.hintHw.get l).hints.foldl (fun t x =>
      if x.phase == .holding && x.readyIn == 0xffff && (decide (x.step ≤ 0) || (t.hintLoops l x.mask).all fun kn => t.positioned kn.2) then
        let r := min (t.now - x.grantAt) 0xfffe
        let t := t.hintSet l { x with readyIn := r }
        if (t.hintHw.get l).ready = some x.hid then t.put (HINT.LAT_READY l) r else t
      else t) t

/-- HINT_FRAME_RETRY: the k-th frame of the device, counted from the newest, collided; it is sent again, and dropped after 3 collisions (R274). -/
def Chip.hintRetry (s : Chip) (l k : Nat) : Chip :=
  match (s.hintHw.get l).tx[k]? with
  | none => s
  | some (kind, hid, arg, c) =>
    let t := s.event (HINT.EVT_COLLF l) (HINT.EVTCNT2_COLLCNT l) (srcHint l)
    if 2 ≤ c then (t.hlUpd l fun h => { h with tx := h.tx.eraseIdx k }).raise ⟨0x2150, l, 0⟩
    else (t.hlUpd l fun h => { h with tx := h.tx.set k (kind, hid, arg, c + 1) }).out (.hint l (hintFrame kind hid arg))

/-- LHALERT_PULSE_END: the 1 µs refusal pulse ends (R282). -/
def Chip.hintPulseEnd (s : Chip) (l : Nat) : Chip :=
  match (s.hintHw.get l).pulse with
  | some a => if a + 1 ≤ s.now then (s.hlUpd l fun h => { h with pulse := none }).hintStat l else s
  | none => s

/-- The loop whose sum the upstream lane of loop n from die d moves next (R25, R49). -/
def Chip.sumNext (s : Chip) (d n : Nat) : Option Nat :=
  (roundRobin 4 (s.laneTurn.get (64 + 8 * d + n % 8)) fun k => !(s.sumLanes.get (32 * d + n % 8 + 8 * k)).isEmpty).map (n % 8 + 8 * ·)

/-- CURRENT_SUM_ARRIVE: a die's sum for a loop has its turn on the lane and reaches the hub, where one of a loop that has stopped counts no more (R22, R25, R215, R284). -/
def Chip.sumArrive (s : Chip) (d n : Nat) : Chip :=
  let k := 32 * d + n
  match s.sumLanes.get k with
  | [] => s
  | v :: rest =>
    if s.sumNext d n = some n && s.loopState n = 0 then
      { s with sumLanes := s.sumLanes.set k rest, laneTurn := s.laneTurn.set (64 + 8 * d + n % 8) ((n / 8 + 1) % 4) }
    else if s.sumNext d n = some n then
      let t := { s with sumLanes := s.sumLanes.set k rest, sums := s.sums.set k v, renewed := s.renewed.set k true,
                        laneTurn := s.laneTurn.set (64 + 8 * d + n % 8) ((n / 8 + 1) % 4) }
      t.hintEarly n
    else s

end Sys2Proof.Machine
end

