-- ==== Sys2Proof/Machine/EventHub.lean ====
section
/-! DEFINITION. The event hub: doorbells, coalescing groups, routing, claims and end-of-interrupts (R389 to R407). -/

namespace Sys2Proof.Machine

/-- POL sleeps: its entry has been carried out and it has not woken (R34, R403). -/
def Chip.polAsleep (s : Chip) : Bool := s.bit PWR.DOMCTL_POLSLP && !s.domOn .pol

/-- The CTRL words that a judgement goes by, none for a processor whose POL is off (R403). -/
def Chip.ppCtls (s : Chip) : List (Option Word) :=
  (List.range 4).map fun k => if s.domOn .pol then some (s.reg (PP.CTRL k)) else none

/-- A processor is awake while POL is on and it is not parked (R403). -/
def ppAwake (ctl : List (Option Word)) (k : Nat) : Bool := match ctl.getD k none with
  | some w => !bitAt w.toNat 0
  | none => false

/-- The priority mask of a CTRL word; above 64 acts as 64 (R410). -/
def ppMask (ctl : List (Option Word)) (k : Nat) : Nat := min (wordField ((ctl.getD k none).getD 0) 1 7) 64

/-- The classes and priorities of the entries on a processor's stack; true for a stack with a fast entry. -/
def Chip.ppHasFast (s : Chip) (k : Nat) : Bool :=
  (List.range (s.get (PP.STAT_DEPTH k))).any fun j => s.bit (PP.STK_CLS k j)

/-- Processor k is eligible for pending source i (R396). -/
def Chip.ppEligible (s : Chip) (ctl : List (Option Word)) (i k : Nat) : Bool :=
  bitAt (s.get (SRC.CFG_TGT i)) k && ppAwake ctl k
    && decide (s.get (SRC.CFG_PRI i) < s.get (PP.STAT_RUNPRI k))
    && decide (s.get (SRC.CFG_PRI i) < ppMask ctl k)
    && decide (s.get (PP.STAT_DEPTH k) < 16)
    && !(s.bit (SRC.CFG_CLS i) && s.ppHasFast k)

/-- Source i, one of 0 to 2,047, is pending, enabled, not in service and has a target (R389, R393, R396). -/
def Chip.srcRoutable (s : Chip) (i : Nat) : Bool :=
  decide (i < 2048) && (s.srcs.get i).ready && s.bit (SRC.CFG_EN i) && s.get (SRC.CFG_TGT i) != 0 && !s.bit (SRC.STATE_INSRV i)

/-- The order of routing: priority, then time pending, then number (R397). -/
def Chip.srcBefore (s : Chip) (a b : Nat) : Bool :=
  let pa := s.get (SRC.CFG_PRI a)
  let pb := s.get (SRC.CFG_PRI b)
  let ta := (s.srcs.get a).stamp
  let tb := (s.srcs.get b).stamp
  decide (pa < pb) || (pa == pb && (decide (ta < tb) || (ta == tb && decide (a < b))))

/-- Inserts a source at its place in the routing order. -/
def Chip.srcInsert (s : Chip) (a : Nat) : List Nat → List Nat
  | [] => [a]
  | b :: l => if s.srcBefore a b then a :: b :: l else b :: s.srcInsert a l

/-- The routable sources in the order of R397. -/
def Chip.routables (s : Chip) : List Nat :=
  ((s.srcs.entries.map (·.1)).filter s.srcRoutable).foldl (fun l a => s.srcInsert a l) []

/-- The processor of R397 among candidates: the highest running priority, a tie going to the first at or after RRPTR. The flag says that a tie decided. -/
def Chip.pickProc (s : Chip) (cand : List Nat) : Option (Nat × Bool) :=
  let top := (cand.map fun k => s.get (PP.STAT_RUNPRI k)).foldl max 0
  let best := cand.filter fun k => s.get (PP.STAT_RUNPRI k) == top
  let rr := s.get EVH.STAT_RRPTR
  let order := (List.range 4).map fun j => (rr + j) % 4
  match order.find? fun k => best.contains k with
  | some k => some (k, decide (1 < best.length))
  | none => none

/-- One routing pass: sources in order, each to the processor R397 picks among the free ones. -/
def Chip.routePass (s : Chip) (ctl : List (Option Word)) : List Nat → List Nat → List (Nat × Nat × Bool)
  | [], _ => []
  | i :: l, free =>
    match s.pickProc (free.filter fun k => s.ppEligible ctl i k) with
    | some (k, tie) => (i, k, tie) :: s.routePass ctl l (free.filter (· != k))
    | none => s.routePass ctl l free

/-- PEND of a source (R412): not in service and holding doorbells. -/
def Chip.srcRefresh (s : Chip) (i : Nat) : Chip :=
  let p := !s.bit (SRC.STATE_INSRV i) && s.get (SRC.STATE_CNT i) != 0
  let was := s.bit (SRC.STATE_PEND i)
  let n := s.get EVH.STAT_NPEND
  (s.putB (SRC.STATE_PEND i) p).put EVH.STAT_NPEND (if p && !was then n + 1 else if !p && was then n - 1 else n)

/-- Source i becomes pending now, unless it already is. -/
def Chip.srcPend (s : Chip) (i : Nat) : Chip :=
  if (s.srcs.get i).ready then s
  else { s with srcs := s.srcs.upd i (fun h => { h with ready := true, stamp := s.evh.stamp }),
                evh := { s.evh with stamp := s.evh.stamp + 1 } }

/-- AWAKE and ASLEEP follow POL and the PARK bits (R403). -/
def Chip.awakeRefresh (s : Chip) : Chip :=
  s.forEach (List.range 4) fun k t =>
    let a := ppAwake t.ppCtls k
    (t.putB (PP.STAT_ASLEEP k) (!a)).put EVH.STAT_AWAKE (setBitAt (t.get EVH.STAT_AWAKE) k a)

/-- Processor k loses its winner. -/
def Chip.winClear (s : Chip) (k : Nat) : Chip :=
  let t := match s.evh.winners.getD k none with
    | some i => if i < 2048 then s.put (SRC.STATE_ROUTED i) 0 else s
    | none => s
  (((t.put (PP.STAT_REQ k) 0).put (PP.STAT_REQCLS k) 0).setReg (PP.WIN k) 0)

/-- Source i is routed to processor k: the request line, the winner word and ROUTED (R397, R400). -/
def Chip.winSet (s : Chip) (i k : Nat) (tie : Bool) : Chip :=
  let w := wordPut (wordPut (wordPut (wordPut (wordPut 0 31 1 1) 30 1 (s.get (SRC.CFG_CLS i))) 24 6 (s.get (SRC.CFG_PRI i)))
    16 8 (s.get (SRC.STATE_CNT i))) 0 11 i
  let t := (((s.put (SRC.STATE_ROUTED i) 1).put (SRC.STATE_PP i) k).put (PP.STAT_REQ k) 1).put (PP.STAT_REQCLS k) (s.get (SRC.CFG_CLS i))
  let t := t.setReg (PP.WIN k) w
  let t := { t with evh := { t.evh with winners := t.evh.winners.set k (some i), ties := t.evh.ties.set k tie } }
  if t.evh.wakeRoute = some i then
    { t.put EVH.WAKEST_PP k with evh := { t.evh with wakeRoute := none } }
  else t

/-- One evaluation of R397 over the processors that are awake. -/
def Chip.routeOnce (s : Chip) : Chip :=
  let t := s.forEach (List.range 4) fun k u => u.winClear k
  let t := { t with evh := { t.evh with winners := [none, none, none, none], ties := [false, false, false, false] } }
  let rs := t.routePass t.ppCtls t.routables [0, 1, 2, 3]
  rs.foldl (fun u r => u.winSet r.1 r.2.1 r.2.2) t

/-- The lowest-numbered processor of a target set (R404). -/
def lowestProc (tgt : Nat) : Nat := ((List.range 4).find? fun k => bitAt tgt k).getD 0

/-- A processor's wake line (R404). The spec says when it is set; that it falls when the processor is parked again is DESIGN CHOICE, log entry 205. -/
def Chip.wakeLine (s : Chip) (k : Nat) (v : Bool) : Chip := { s with evh := { s.evh with wakeLines := setBitAt s.evh.wakeLines k v } }

/-- Records a wake (R404). -/
def Chip.wakeRecord (s : Chip) (i : Nat) (pol : Bool) : Chip :=
  let t := (((s.put EVH.WAKEST_VALID 1).putB EVH.WAKEST_POLW pol).put EVH.WAKEST_PP 0).put EVH.WAKEST_SRC i
  { t with evh := { t.evh with wakeRoute := some i } }

/-- The first routable source whose whole target set is parked, by the processors' CTRL words (R404). -/
def Chip.parkedSource (s : Chip) (ctl : List Word) : Option Nat :=
  s.routables.find? fun i => (List.range 4).all fun k => !bitAt (s.get (SRC.CFG_TGT i)) k || wordField ((ctl[k]?).getD 0) 0 1 == 1

/-- The first source that would be routed if the processors unparked at sleep entry were awake, or whose whole target set is parked: it wakes a sleeping POL. A CTRL that another requester has written since then acts from the restore on (R404, R405; log entry 21). -/
def Chip.wakingSource (s : Chip) : Option Nat :=
  match s.routePass (s.evh.slept.map some) s.routables [0, 1, 2, 3] with
  | r :: _ => some r.1
  | [] => s.parkedSource s.evh.slept

/-- The routing evaluation of R397 with the wakes of R404; `n` bounds the processors it may unpark. -/
def Chip.routeN : Nat → Chip → Chip
  | 0, s => s.routeOnce
  | n + 1, s =>
    let t := s.routeOnce
    if t.polAsleep then
      { t with evh := { t.evh with wake := match t.evh.wake with | some i => some i | none => t.wakingSource } }
    else if !t.domOn .pol then t
    else match t.parkedSource ((List.range 4).map fun k => t.reg (PP.CTRL k)) with
      | some i =>
        let k := lowestProc (t.get (SRC.CFG_TGT i))
        Chip.routeN n ((((t.put (PP.CTRL_PARK k) 0).wakeLine k true).awakeRefresh).wakeRecord i false)
      | none => t

/-- The routing evaluation, which every event of R397 starts. -/
def Chip.evaluate (s : Chip) : Chip := Chip.routeN 4 s

/-- The members of group g with a doorbell since its last release. -/
def Chip.unreleasedOf (s : Chip) (g : Nat) : List Nat :=
  (s.srcs.entries.map (·.1)).filter fun i =>
    (s.srcs.get i).unreleased && s.bit (SRC.CFG_GV i) && s.get (SRC.CFG_GRP i) == g

/-- A member's unreleased doorbells are released: it becomes pending, or is marked while in service (R394). -/
def Chip.srcRelease (s : Chip) (i : Nat) : Chip :=
  let t := { s with srcs := s.srcs.upd i (fun h => { h with unreleased := false }) }
  if t.bit (SRC.STATE_INSRV i) then { t with srcs := t.srcs.upd i (fun h => { h with released := true }) }
  else t.srcPend i

/-- Group g releases its members (R394). -/
def Chip.groupRelease (s : Chip) (g : Nat) : Chip :=
  let t := s.forEach (s.unreleasedOf g) fun i u => u.srcRelease i
  (t.put (GRP.STATE_ACC g) 0).put (GRP.STATE_ARMED g) 0

/-- A doorbell of a group member adds to the group, starts its timer and may release it (R394). -/
def Chip.groupBell (s : Chip) (i n : Nat) : Chip :=
  let g := s.get (SRC.CFG_GRP i)
  let t := { s with srcs := s.srcs.upd i (fun h => { h with unreleased := true }) }
  let t := t.add (GRP.STATE_ACC g) n
  let t := if t.bit (GRP.STATE_ARMED g) then t
    else { t.put (GRP.STATE_ARMED g) 1 with groupStart := t.groupStart.set g t.now }
  if orOne (t.get (GRP.CFG_CNTTH g)) ≤ t.get (GRP.STATE_ACC g) then t.groupRelease g else t

/-- A doorbell with repeat count `n` reaches the hub (R391, R394, R397). -/
def Chip.ring (s : Chip) (i n : Nat) : Chip :=
  let c := s.get (SRC.STATE_CNT i)
  let t := s.put (SRC.STATE_CNT i) (min (c + n) 255)
  let t := if 255 < c + n then t.inc EVH.EVTCNT_SATCNT else t
  let t := if t.bit (SRC.CFG_GV i) then t.groupBell i n
    else if t.bit (SRC.STATE_INSRV i) then t else t.srcPend i
  (t.srcRefresh i).evaluate

/-- The doorbell port on which source i posts: 0 the hub's, n die n's (R49, R389, R390). -/
def bellPort (i : Nat) : Nat := if i < 0x400 then 0 else min 7 (1 + (i - 0x400) / 0x80)

/-- The port whose turn it is, of those at which a message waits (R49). -/
def Chip.bellTurn (s : Chip) : Option Nat :=
  roundRobin 8 s.evh.port fun p => s.bellOrder.any fun i => bellPort i == p

/-- The message that has waited longest at the port of source i is i's own: a port keeps the order of its messages (R39, R389). -/
def Chip.bellFirst (s : Chip) (i : Nat) : Bool := s.bellOrder.find? (fun j => bellPort j == bellPort i) == some i

/-- DOORBELL: the message waiting for source i is delivered, when it is the first of its port and its port's turn (R39, R49, R389, R391). -/
def Chip.deliverBell (s : Chip) (i : Nat) : Chip :=
  let n := s.bells.get i
  if n = 0 || !s.coreRuns || !s.bellFirst i || s.bellTurn ≠ some (bellPort i) then s
  else { s with bells := s.bells.set i 0, bellOrder := s.bellOrder.erase i, evh := { s.evh with port := (bellPort i + 1) % 8 } }.ring i n

/-- A write of EVH.DOORBELL (R392). -/
def Chip.softBell (s : Chip) (i : Nat) : Chip :=
  if 0x7c0 ≤ i then s.ring i 1 else s.eventQuiet EVH.EVT_DBREFF EVH.EVTCNT_DBREFCNT

/-- A group's timer reaches TIME (R394). -/
def Chip.groupTimer (s : Chip) (g : Nat) : Chip :=
  if s.bit (GRP.STATE_ARMED g) && decide (s.groupStart.get g + orOne (s.get (GRP.CFG_TIME g)) ≤ s.now)
  then (s.groupRelease g).evaluate else s

/-- A write of SRC[s].CFG (R393, R395, R412). -/
def Chip.srcCfgWrite (s : Chip) (i : Nat) (w : Word) : Chip :=
  let gv := s.bit (SRC.CFG_GV i)
  let g := s.get (SRC.CFG_GRP i)
  let keep := w &&& ~~~(0x1fff0#32)
  let t := s.setReg (SRC.CFG i) keep
  let moved := gv && (!t.bit (SRC.CFG_GV i) || t.get (SRC.CFG_GRP i) != g)
  let t := if moved && (t.srcs.get i).unreleased then t.srcRelease i else t
  t.evaluate

/-- A read of PP[k].CLAIM: the word read and the state after (R400, R405). -/
def Chip.claim (s : Chip) (k : Nat) : Word × Chip :=
  if s.polAsleep then (0, s)
  else match s.evh.winners.getD k none with
    | none => (0, s.eventQuiet (PP.EVT_EMPF k) (PP.EVTCNT_EMPCNT k))
    | some i =>
      let w := s.reg (PP.WIN k)
      let d := s.get (PP.STAT_DEPTH k)
      let tie := s.evh.ties.getD k false
      let t := s.winClear k
      let t := if tie then t.put EVH.STAT_RRPTR ((k + 1) % 4) else t
      let t := { t with
        srcs := t.srcs.upd i (fun h => { h with ready := false, released := false, unreleased := false }),
        evh := { t.evh with winners := t.evh.winners.set k none } }
      let t := ((t.put (SRC.STATE_CNT i) 0).put (SRC.STATE_INSRV i) 1).put (SRC.STATE_PP i) k
      let t := ((((t.put (PP.STK_VALID k d) 1).put (PP.STK_CLS k d) (wordField w 30 1)).put (PP.STK_PRI k d) (wordField w 24 6)).put (PP.STK_SRC k d) i)
      let t := ((t.put (PP.STAT_DEPTH k) (d + 1)).put (PP.STAT_RUNPRI k) (wordField w 24 6)).put (PP.STAT_FASTBK k) (wordField w 30 1)
      let t := t.incWrap (PP.ACKCNT_COUNT k)
      (w, (t.srcRefresh i).evaluate)

/-- A source's service ends: it becomes pending again or idle; a member whose doorbells all wait for the group's release becomes pending at it, also where they came before it was a member (R391). -/
def Chip.srcEnd (s : Chip) (i : Nat) : Chip :=
  let h := s.srcs.get i
  let t := s.put (SRC.STATE_INSRV i) 0
  let held := s.get (SRC.STATE_CNT i) != 0 && s.bit (SRC.CFG_GV i) && !h.released
  let t := { t with srcs := t.srcs.upd i (fun h => { h with released := false, unreleased := h.unreleased || held }) }
  let again := s.get (SRC.STATE_CNT i) != 0 && (!s.bit (SRC.CFG_GV i) || h.released)
  (if again then t.srcPend i else t).srcRefresh i

/-- A write of PP[k].EOI (R401, R405). -/
def Chip.endOfInterrupt (s : Chip) (k i : Nat) : Chip :=
  let d := s.get (PP.STAT_DEPTH k)
  if s.polAsleep then s
  else if d != 0 && s.get (PP.STK_SRC k (d - 1)) == i then
    let t := s.setReg (PP.STK k (d - 1)) 0
    let t := t.put (PP.STAT_DEPTH k) (d - 1)
    let t := (t.put (PP.STAT_RUNPRI k) (if d = 1 then 64 else t.get (PP.STK_PRI k (d - 2)))).put (PP.STAT_FASTBK k)
      (if d = 1 then 0 else t.get (PP.STK_CLS k (d - 2)))
    (t.srcEnd i).evaluate
  else
    let top := if d = 0 then 0x7ff else s.get (PP.STK_SRC k (d - 1))
    (s.eventQuiet (PP.EVT_ORDF k) (PP.EVTCNT_ORDCNT k)).raise ⟨0x2021, k, BitVec.ofNat 32 (top * 2 ^ 16 + i)⟩

/-- A write of PP[k].CTRL; PMR above 64 acts as 64 (R402, R405, R410). -/
def Chip.ppCtrlWrite (s : Chip) (k : Nat) (w : Word) : Chip :=
  let t := if w.getLsbD 0 then s.wakeLine k false else s
  ((t.setReg (PP.CTRL k) (w &&& 0xff#32)).awakeRefresh).evaluate

/-- What a warm start does to the hub: stacks emptied, sources in service pending again, all at one instant, with one more doorbell (R397, R406). -/
def Chip.evhWarm (s : Chip) : Chip :=
  let serving := (List.range 4).flatMap fun k => (List.range (s.get (PP.STAT_DEPTH k))).map fun j => s.get (PP.STK_SRC k j)
  let t := s.forEach (List.range 4) fun k u =>
    let u := u.forEach (List.range 16) fun j v => v.setReg (PP.STK k j) 0
    (((u.put (PP.STAT_DEPTH k) 0).put (PP.STAT_RUNPRI k) 64).put (PP.STAT_FASTBK k) 0)
  let now := t.evh.stamp
  let t := t.forEach serving fun i u =>
    let u := (u.put (SRC.STATE_INSRV i) 0).add (SRC.STATE_CNT i) 1
    { u with srcs := u.srcs.upd i fun h => { h with released := false, ready := true, stamp := if h.ready then h.stamp else now } }.srcRefresh i
  { t with evh := { t.evh with stamp := now + 1 } }.evaluate

/-- What a cold start leaves of the hub beside its registers (R406). -/
def Chip.evhCold (s : Chip) : Chip :=
  { s with srcs := Tbl.empty, groupStart := Tbl.empty, evh := {}, bells := Tbl.empty, bellOrder := [] }

end Sys2Proof.Machine
end

