-- ==== Sys2Proof/Machine/Sequencer.lean ====
section
/-! DEFINITION. The sequencer: domains, rails, the good signal, stops in reverse order, failures and the first-failure record (R317 to R343). -/

namespace Sys2Proof.Machine

def srcRail (r : Nat) : Nat := 0x40 + r
def srcDom (d : Nat) : Nat := 0x10 + d

def Chip.railUpd (s : Chip) (r : Nat) (f : RailHw → RailHw) : Chip := { s with rails := s.rails.upd r f }
def Chip.domUpd (s : Chip) (d : Nat) (f : DomHw → DomHw) : Chip := { s with doms := s.doms.upd d f }

/-- Rail r's state: 0 OFF, 1 WAIT, 2 LEAVE, 3 RAMP, 4 GOOD, 5 STOPPING, 6 LATCHED, 7 DISABLED (R343). -/
def Chip.railState (s : Chip) (r : Nat) : Nat := s.get (SEQR.STAT_STATE r)

def allRails : List Nat := List.range 64

/-- The valid dependencies of rail r (R342). -/
def Chip.railDeps (s : Chip) (r : Nat) : List Nat :=
  ([s.get (SEQR.DEP_DEP0 r), s.get (SEQR.DEP_DEP1 r), s.get (SEQR.DEP_DEP2 r), s.get (SEQR.DEP_DEP3 r)].filter (128 ≤ ·)).map (· % 64)

/-- The enabled rails that name r as a dependency (R329). -/
def Chip.dependants (s : Chip) (r : Nat) : List Nat :=
  allRails.filter fun q => s.railState q != 7 && (s.railDeps q).contains r

/-- The enabled rails of a domain. -/
def Chip.domRails (s : Chip) (d : Nat) : List Nat :=
  allRails.filter fun r => s.railState r != 7 && s.get (SEQR.CFG_DOMAIN r) == d

/-- The raw good signal (R325). -/
def Chip.rawGood (s : Chip) (r : Nat) : Bool :=
  let pg := s.get (SEQR.CFG_PGSRC r)
  let win := !bitAt pg 0 || s.get (WMON.STAT_STATE r) == 0
  if r < 32 then win && (s.loopState r == 2 || s.loopState r == 4)
  else win && (!bitAt pg 1 || (s.rails.get r).xpg != s.bit (SEQR.CFG_XPGPOL r))

/-- The first unmet source of a rail in GOOD (R328). -/
def Chip.failCause (s : Chip) (r : Nat) : Nat :=
  let pg := s.get (SEQR.CFG_PGSRC r)
  let w := s.get (WMON.STAT_STATE r)
  if bitAt pg 0 && (w == 2 || w == 3) then 3
  else if bitAt pg 0 && w == 1 then 4
  else if r < 32 then 7 else 5

/-- Whether an external rail's selected sources show it off (R330). -/
def Chip.shownOff (s : Chip) (r : Nat) : Bool :=
  let pg := s.get (SEQR.CFG_PGSRC r)
  (!bitAt pg 0 || s.get (WMON.STAT_STATE r) == 2) && (!bitAt pg 1 || (s.rails.get r).xpg == s.bit (SEQR.CFG_XPGPOL r))

/-- A domain's state by the precedence of R340. -/
def Chip.domState (s : Chip) (d : Nat) : Nat :=
  let rs := s.domRails d
  let st := rs.map s.railState
  if (s.doms.get d).ownLatch then 4
  else if rs.any fun r => (s.rails.get r).ordered || s.railState r == 5 then 3
  else if st.any fun x => x == 1 || x == 2 || x == 3 then 1
  else if !rs.isEmpty && st.all (· == 4) then 2
  else if st.all (· == 0) then 0
  else 5

/-- Rails in WAIT note when their dependencies become met or unmet (R322). -/
def Chip.metRefresh (s : Chip) : Chip :=
  s.forEach (allRails.filter fun r => s.railState r == 1) fun r t =>
    let met := (t.railDeps r).all fun q => t.railState q == 4
    t.railUpd r fun h => { h with metAt := if met then (match h.metAt with | some a => some a | none => some t.now) else none }

/-- A domain start acted on: every enabled rail that is OFF enters WAIT (R322, R324, R343). A START after a CLR, or a restart after re-qualification, is a recovery (R356). -/
def Chip.domStartNow (s : Chip) (d : Nat) (requal : Bool) : Chip :=
  let rs := (s.domRails d).filter fun r => s.railState r == 0
  let t := s.forEach rs fun r t =>
    ((t.put (SEQR.STAT_STATE r) 1).put (SEQR.STAT_CAUSE r) 0).railUpd r fun h => { h with metAt := none }
  if rs.isEmpty then t.metRefresh
  else
    let rec' := requal || (t.doms.get d).cleared
    let t := t.domUpd d fun h => { h with cleared := false, recovering := h.recovering || rec' }
    let t := if rec' then t.guardOpen 4 else t
    t.metRefresh

/-- A refused START or CLR (R324, R333). -/
def Chip.domRefuse (s : Chip) (d : Nat) : Chip := s.event (SEQD.EVT_REFF d) (SEQD.EVTCNT_REFCNT d) (srcDom d)

/-- The input is ON and no safe state holds, so that a start is acted on (R324, R350). -/
def Chip.mayStart (s : Chip) : Bool := s.get HSW.STAT_STATE == 3 && !s.bit FLT.STAT_SAFE

/-- A domain's counts and state are shown; an entry into UP or DOWN is an event, and every change is told to the host (R340, R430). -/
def Chip.domShow (s : Chip) (d : Nat) : Chip :=
  let rs := s.domRails d
  let was := s.get (SEQD.STAT_STATE d)
  let st := s.domState d
  let t := (s.put (SEQD.STAT_NRAIL d) rs.length).put (SEQD.STAT_NGOOD d) (rs.filter fun r => s.railState r == 4).length
  if st = was then t
  else
    let t := t.put (SEQD.STAT_STATE d) st
    let t := if st = 2 then (t.event (SEQD.EVT_UPF d) (SEQD.EVTCNT_UPCNT d) (srcDom d)).domUpd d fun h => { h with upOnce := true, recovering := false }
      else if st = 0 then t.event (SEQD.EVT_DOWNF d) (SEQD.EVTCNT_DOWNCNT d) (srcDom d)
      else if st = 4 then t.domUpd d fun h => { h with recovering := false }
      else t
    t.hostEvent 2 d (bytesLE 4 (t.reg (SEQD.STAT d)).toNat)

/-- A START that was held is acted on, or refused, at DOWN (R324). -/
def Chip.domPend (s : Chip) (d : Nat) : Chip :=
  if s.bit (SEQD.STAT_PENDST d) && s.get (SEQD.STAT_STATE d) == 0 then
    let t := s.put (SEQD.STAT_PENDST d) 0
    if t.mayStart then (t.domStartNow d false).domShow d else t.domRefuse d
  else s

/-- Every enabled rail is OFF, LATCHED or DISABLED (R341). -/
def Chip.allOff (s : Chip) : Bool := allRails.all fun r => let x := s.railState r; x == 0 || x == 6 || x == 7

/-- The start-up window closes once every domain with AUTO and an enabled rail has been UP; the recovery window once no restarted domain is on its way (R356). -/
def Chip.guardDomains (s : Chip) : Chip :=
  let auto := [0, 1, 2, 3].filter fun d => s.bit (SEQD.CFG_AUTO d) && !(s.domRails d).isEmpty
  let t := if !auto.isEmpty && auto.all fun d => (s.doms.get d).upOnce then s.guardClose 1 else s
  if [0, 1, 2, 3].any fun d => (t.doms.get d).recovering then t else t.guardClose 4

/-- The domains and the global register follow the rails (R335, R340, R341). -/
def Chip.seqRefresh (s : Chip) : Chip :=
  let t := s.metRefresh.forEach [0, 1, 2, 3] fun d u => u.domShow d
  let t := t.forEach [0, 1, 2, 3] fun d u => u.domPend d
  let off := t.allOff
  let t := (t.putB SEQ.GSTAT_ALLOFF off).putB SEQ.GSTAT_INGOOD (t.get HSW.STAT_STATE == 3)
  (if off then t.put SEQ.GSTAT_INSHUT 0 else t).guardDomains

/-- A rail takes the end state of its stop (R329, R330, R343). -/
def Chip.railEnd (s : Chip) (r : Nat) (latch : Bool) (cause : Nat) : Chip :=
  let d := s.get (SEQR.CFG_DOMAIN r)
  let t := (s.put (SEQR.STAT_STATE r) (if latch then 6 else 0)).put (SEQR.STAT_CAUSE r) cause
  let t := t.railUpd r fun h => { h with ordered := false, latch := false, metAt := none, asked := false, leave := false, goodAt := none, late := false, failed := false }
  let t := if latch then t.event (SEQD.EVT_LATF d) (SEQD.EVTCNT_LATCNT d) (srcDom d) else t
  t.wmWires r

/-- One rail is ordered to stop. `hard` is a safe-state or F3 stop, which makes a stop in progress end LATCHED (R329, R331, R335). -/
def Chip.orderOne (s : Chip) (r cause : Nat) (latch hard : Bool) : Chip :=
  let st := s.railState r
  let h := s.rails.get r
  if st = 6 || st = 7 then s
  else if st = 0 || st = 1 then s.railEnd r latch cause
  else if st = 2 then (if h.asked then s.askDrop (.rail r) else s).railEnd r latch cause
  else if st = 5 || h.ordered then s.railUpd r fun h => { h with latch := h.latch || hard }
  else s.railUpd r fun h => { h with ordered := true, latch := latch, cause := cause }

/-- The rails that a stop reaches: those given and whatever depends on them (R329). Each rail is visited once, so that 400 steps reach all. -/
def Chip.stopReach (s : Chip) : Nat → List Nat → List Nat → List Nat
  | 0, _, seen => seen
  | _ + 1, [], seen => seen
  | n + 1, r :: l, seen => if seen.contains r then s.stopReach n l seen else s.stopReach n (s.dependants r ++ l) (seen ++ [r])

/-- Rails are ordered to stop, with every rail that depends on them (R329). -/
def Chip.orderStop (s : Chip) (rs : List Nat) (cause : Nat) (latch hard : Bool) : Chip :=
  (s.forEach (s.stopReach 400 rs []) fun r t => t.orderOne r cause latch hard).seqRefresh

/-- The first-failure capture and its log record (R337). -/
def Chip.firstFailure (s : Chip) (r cause : Nat) : Chip :=
  if s.bit SEQ.FFCTL_VALID then s
  else
    let d := s.get (SEQR.CFG_DOMAIN r)
    let t := (((s.put SEQ.FFCTL_VALID 1).put SEQ.FFCTL_CAUSE cause).put SEQ.FFCTL_DOMAIN d).put SEQ.FFCTL_RAIL r
    let t := (t.put SEQ.FFTIME_LO_FFTL t.nowLo).put SEQ.FFTIME_HI_FFTH (t.now / 2 ^ 32)
    t.log { type := 2, body := (([r, d, cause, t.get (WMON.STAT_STATE r)]).map (BitVec.ofNat 8)) }

/-- A rail fails; that of a stop-ordered rail adds nothing to the stop and is recorded (R327, R328, R331, R332, R337). -/
def Chip.railFail (s : Chip) (r cause : Nat) : Chip :=
  let st := s.railState r
  if s.bit SEQ.GSTAT_INSHUT || st = 0 || st = 5 || st = 6 || st = 7 || (s.rails.get r).failed then s
  else
    let d := s.get (SEQR.CFG_DOMAIN r)
    let t := ((s.event (SEQR.EVT_FAILF r) (SEQR.EVTCNT_FAILCNT r) (srcRail r)).firstFailure r cause).railUpd r fun h => { h with failed := true }
    let t := t.raise ⟨if s.bit (SEQD.CFG_FCLS d) then 0x4300 else 0x2300, r, BitVec.ofNat 32 (cause * 2 ^ 16 + d)⟩
    if (s.rails.get r).ordered then t
    else
      let t := (t.put (SEQR.STAT_CAUSE r) cause).orderOne r cause true false
      if s.bit (SEQD.CFG_ACTION d) then t.orderStop [r] 9 true false
      else
        let t := ((t.domUpd d fun h => { h with ownLatch := true }).put (SEQD.STAT_LVALID d) 1).put (SEQD.STAT_LRAIL d) r
        t.orderStop (t.domRails d) 9 true false

/-- An evaluation of rail r's raw good signal (R325 to R328). -/
def Chip.seqEval (s : Chip) (r : Nat) : Chip :=
  let st := s.railState r
  let was := s.bit (SEQR.STAT_RAWGOOD r)
  let good := s.rawGood r
  let t := if st = 7 then s else s.putB (SEQR.STAT_RAWGOOD r) good
  if st = 3 then
    if was && !good then (t.inc (SEQR.STAT_CHAT r)).railUpd r fun h => { h with goodAt := none }
    else if good then t.railUpd r fun h => { h with goodAt := match h.goodAt with | some a => some a | none => some t.now }
    else t
  else if st = 4 && !good then t.railFail r (t.failCause r)
  else t

/-- Loop r has changed state: an evaluation, and in RAMP a stop from outside the sequencer is a failure (R325, R328). -/
def Chip.seqLoop (s : Chip) (r : Nat) : Chip :=
  let l := s.loopState r
  if s.railState r = 3 && (l = 0 || l = 3) then (s.putB (SEQR.STAT_RAWGOOD r) false).railFail r 7
  else s.seqEval r

/-- A rail in RAMP has fallen more often than CHATLIM allows (R327). -/
def Chip.chatOver (s : Chip) (r : Nat) : Bool :=
  s.railState r == 3 && !(s.rails.get r).failed && decide ((s.rails.get r).chatlim < s.get (SEQR.STAT_CHAT r))

/-- Hold-up takes every rail to OFF with no stop; one that is latched or disabled stays so (R335, R341). -/
def Chip.railsDrop (s : Chip) : Chip :=
  (s.forEach (allRails.filter fun r => s.railState r != 6 && s.railState r != 7) fun r t =>
    (t.put (SEQR.STAT_STATE r) 0).railUpd r fun h => { xpg := h.xpg, endAt := h.endAt }).put SEQ.GSTAT_ALLOFF 1

/-- RAIL_CHATTER_LIMIT: CHAT exceeds CHATLIM in RAMP (R327). -/
def Chip.chatterLimit (s : Chip) (r : Nat) : Chip := if s.chatOver r then s.railFail r 1 else s

/-- The pairs of a policy-parameter tile (R481). -/
def tilePairs (pl : List Byte) : List (Nat × Word) :=
  (List.range (min 30 (fieldLE pl 4 1))).map fun k => (fieldLE pl (0x10 + 8 * k) 4, BitVec.ofNat 32 (fieldLE pl (0x14 + 8 * k) 4))

/-- Die d holds a phase of loop n, by its registers while it is on, and by the committed pairs else (R33, R56). -/
def Chip.holdsPhases (s : Chip) (n d : Nat) : Bool :=
  (s.dieOn d && !(s.loopPhasesOn d n).isEmpty) || s.store.committed.any fun t => decide (145 ≤ t.pos) &&
    (tilePairs t.payload).any fun x => (diePhases d).any fun p => x.1 == PHS.ASSIGN p && wordField x.2 (PHS.ASSIGN_OWN p).lo 1 == 1
      && wordField x.2 (PHS.ASSIGN_LOOP p).lo (PHS.ASSIGN_LOOP p).width == n

/-- Rail r asks for leave, a loop rail once the links of its dies are up (R323). -/
def Chip.railAsk (s : Chip) (r : Nat) : Chip :=
  let h := s.rails.get r
  if s.railState r = 2 && !h.asked && (decide (32 ≤ r) || [1, 2, 3, 4, 5, 6, 7].all fun d => s.linkUp d || !s.holdsPhases r d) then
    (s.railUpd r fun h => { h with asked := true }).ask
      ⟨.rail r, s.get (BUD.RAIL_PEAKW r), 10 * orOne (s.get (BUD.RAIL_DUR r)), if r < 32 then s.get BUD.PRIO_START else s.get BUD.PRIO_XEN⟩
  else s

/-- RAIL_RELEASE: the dependencies are met and DELAY has run (R322, R323, R327). -/
def Chip.railRelease (s : Chip) (r : Nat) : Chip :=
  let h := s.rails.get r
  let due := match h.metAt with | some a => decide (a + 10 * s.get (SEQR.TIMING_DELAY r) ≤ s.now) | none => false
  if s.railState r = 1 && due then
    let t := ((s.put (SEQR.STAT_STATE r) 2).put (SEQR.STAT_CHAT r) 0).railUpd r fun h => { h with relAt := s.now, qualto := s.get (SEQR.LIMITS_QUALTO r), goodAt := none, metAt := none, failed := false }
    (t.railAsk r).seqRefresh
  else s

/-- Leave is granted: the start step, with its check of the tile copy (R321, R323). A rail that a stop has taken in the meantime ends the leave at once (R313, R338). -/
def Chip.railGranted (s : Chip) (r : Nat) (tileOk : Bool) : Chip :=
  if s.railState r = 2 && (s.rails.get r).asked then
    let t := (s.railUpd r fun h => { h with asked := false }).checkMade 1 (!tileOk)
    if tileOk then
      let t := (t.put (SEQR.STAT_STATE r) 3).railUpd r fun h =>
        { h with leave := true, dwell := s.get (SEQR.TIMING_DWELL r), chatlim := s.get (SEQR.CFG_CHATLIM r) }
      let t := if r < 32 then t.loopCmd r .start else t.put (SEQR.STAT_XEN r) 1
      let t := t.putB (SEQR.STAT_RAWGOOD r) (t.rawGood r)
      (t.railUpd r fun h => { h with goodAt := if t.rawGood r then some t.now else none }).seqRefresh
    else ((t.tileUseFail 2 (128 + r / 8) 2).askDone (.rail r)).railFail r 8
  else s.askDone (.rail r)

/-- Leave is refused (R323). -/
def Chip.railRefused (s : Chip) (r : Nat) : Chip :=
  if s.railState r = 2 then (s.railUpd r fun h => { h with asked := false }).railFail r 6 else s

/-- The rail no longer needs its leave (R309, R323). -/
def Chip.railLeaveEnd (s : Chip) (r : Nat) : Chip :=
  if (s.rails.get r).leave then (s.railUpd r fun h => { h with leave := false }).askDone (.rail r) else s

/-- Whether the dwell has run in full (R326). -/
def Chip.dwellOver (s : Chip) (r : Nat) : Bool :=
  match (s.rails.get r).goodAt with
  | some a => decide (a + clampN 1 10000 (s.rails.get r).dwell ≤ s.now)
  | none => false

/-- RAIL_DWELL_COMPLETE: the dwell's end is an evaluation, at which the rail qualifies, unless chatter has failed it (R323, R325 to R327). -/
def Chip.dwellComplete (s : Chip) (r : Nat) : Chip :=
  if s.chatOver r then s.chatterLimit r
  else if s.railState r = 3 && !(s.rails.get r).failed && s.dwellOver r then
    let t := s.seqEval r
    if t.chatOver r then t.chatterLimit r
    else if t.dwellOver r then
      let t := (t.put (SEQR.STAT_STATE r) 4).event (SEQR.EVT_QUALF r) (SEQR.EVTCNT_QUALCNT r) (srcRail r)
      ((t.railLeaveEnd r).wmWires r).seqRefresh
    else t
  else s

/-- QUALIFICATION_TIMEOUT: in LEAVE the request is withdrawn; a qualification in the same evaluation governs (R323, R327, R338). -/
def Chip.qualTimeout (s : Chip) (r : Nat) : Chip :=
  let h := s.rails.get r
  let st := s.railState r
  if (st = 2 || st = 3) && decide (h.relAt + 100 * orOne h.qualto ≤ s.now) then
    if s.chatOver r then s.chatterLimit r
    else if st = 3 && s.dwellOver r && s.rawGood r then s.dwellComplete r
    else s.railFail r 2
  else s

/-- XPG_CHANGE: the filtered level of XPG[r] changes (R325). -/
def Chip.xpgChange (s : Chip) (r : Nat) (high : Bool) : Chip :=
  (s.railUpd r fun h => { h with xpg := high }).seqEval r

/-- The order of R329 lets rail r begin its stop step. -/
def Chip.stopMayBegin (s : Chip) (r : Nat) : Bool :=
  let ds := s.dependants r
  let dly := 10 * s.get (SEQR.CFG_STOPDLY r)
  (s.rails.get r).ordered && ds.all fun q =>
    (s.railState q == 0 || s.railState q == 6)
      && (match (s.rails.get q).endAt with | some a => decide (a + dly ≤ s.now) | none => true)

/-- STOP_STEP_BEGIN: a failed check of the tile copy never delays the stop (R321, R329, R330). -/
def Chip.stopStepBegin (s : Chip) (r : Nat) (tileOk : Bool) : Chip :=
  if s.stopMayBegin r then
    let t := s.checkMade 1 (!tileOk)
    let t := if tileOk then t else t.tileUseFail 2 (128 + r / 8) 2
    let t := (t.put (SEQR.STAT_STATE r) 5).railUpd r fun h => { h with ordered := false, stepAt := s.now, stopto := s.get (SEQR.LIMITS_STOPTO r), late := false, goodAt := none, failed := false }
    let t := if r < 32 then t.loopCmd r .stop else t.put (SEQR.STAT_XEN r) 0
    ((t.railLeaveEnd r).wmWires r).seqRefresh
  else s

/-- Whether the rail of a stop step is off; a loop with a command on its way is not (R330). -/
def Chip.railIsOff (s : Chip) (r : Nat) : Bool :=
  if r < 32 then s.loopState r == 0 && !(s.loopCmds.any fun c => c.1 == r) else s.shownOff r

/-- A stop step ends (R329, R330). -/
def Chip.stopStepDone (s : Chip) (r : Nat) : Chip :=
  let h := s.rails.get r
  ((s.railEnd r h.latch h.cause).railUpd r fun h => { h with endAt := some s.now }).seqRefresh

/-- STOP_STEP_END: the rail of a stop step is off (R330). -/
def Chip.stopStepEnd (s : Chip) (r : Nat) : Chip :=
  if s.railState r = 5 && s.railIsOff r then s.stopStepDone r else s

/-- STOP_STEP_TIMEOUT: a loop is ordered to stop at once, and an external rail counts as off (R330). -/
def Chip.stopStepTimeout (s : Chip) (r : Nat) : Chip :=
  let h := s.rails.get r
  if s.railState r = 5 && !h.late && !s.railIsOff r && decide (h.stepAt + 100 * orOne h.stopto ≤ s.now) then
    let t := s.event (SEQR.EVT_STOPTOF r) (SEQR.EVTCNT_STOPTOCNT r) (srcRail r)
    if r < 32 then (t.railUpd r fun h => { h with late := true }).loopCmd r .halt else t.stopStepDone r
  else s

/-- A START from software, or an automatic start after a cold start or a re-qualification (R324, R336). -/
def Chip.domStart (s : Chip) (d : Nat) (auto requal : Bool) : Chip :=
  let st := s.get (SEQD.STAT_STATE d)
  if !s.mayStart then (if auto then s else s.domRefuse d)
  else if st = 4 then (if auto then s else s.domRefuse d)
  else if st = 3 then s.put (SEQD.STAT_PENDST d) 1
  else (s.domStartNow d requal).seqRefresh

/-- A STOP from software (R334). -/
def Chip.domStop (s : Chip) (d : Nat) : Chip := s.orderStop (s.domRails d) 0xb false false

/-- A CLR, refused while a rail's stop step runs and after a safe-state or F3 stop (R333). -/
def Chip.domClr (s : Chip) (d : Nat) : Chip :=
  let rs := s.domRails d
  if s.seq.safeStop || rs.any fun r => s.railState r == 5 then s.domRefuse d
  else
    let t := s.forEach (rs.filter fun r => s.railState r == 6) fun r t => t.put (SEQR.STAT_STATE r) 0
    let t := (t.domUpd d fun h => { h with ownLatch := false, cleared := true }).put (SEQD.STAT_LVALID d) 0
    t.seqRefresh

/-- A write of SEQ.DOM[d].CTRL: CLR, STOP and START in that order (R340). -/
def Chip.domCtrl (s : Chip) (d : Nat) (clr stop start : Bool) : Chip :=
  let t := if clr then s.domClr d else s
  let t := if stop then t.domStop d else t
  if start then t.domStart d false false else t

/-- Automatic starts, after a cold start (AUTO) or a re-qualification (AUTORS) (R324, R336). -/
def Chip.autoStarts (s : Chip) (requal : Bool) : Chip :=
  s.forEach [0, 1, 2, 3] fun d t =>
    if t.bit (if requal then SEQD.CFG_AUTORS d else SEQD.CFG_AUTO d) then t.domStart d true requal else t

/-- The input is lost: every enabled rail stops (R335). -/
def Chip.seqInputLost (s : Chip) : Chip :=
  let t := s.put SEQ.GSTAT_INSHUT 1
  { t with hsw := { t.hsw with requal := true } }.orderStop allRails 0xa false false

/-- The safe state or an F3 action stops every rail (R335, R349, R350). -/
def Chip.seqStopAll (s : Chip) : Chip :=
  { s with seq := { s.seq with safeStop := true } }.orderStop allRails 0xc true true

/-- FIRST_FAILURE_ARM (R337, R341). -/
def Chip.firstArm (s : Chip) : Chip := s.put SEQ.FFCTL_VALID 0

/-- AON takes the polarities of the XEN pins from the sequence tiles' values, and drives them from then on (R318, R524). -/
def Chip.xenDrive (s : Chip) : Chip :=
  { s with power := { s.power with xenPol := some ((List.range 32).foldl (fun m k => setBitAt m k (s.bit (SEQR.CFG_XENPOL (k + 32)))) 0) } }

/-- The level of the pin XEN[r]: high, low, or high-impedance (R318, R524). -/
def Chip.xenPin (s : Chip) (r : Nat) : Option Bool := s.power.xenPol.map fun m => s.bit (SEQR.STAT_XEN r) != bitAt m (r - 32)

/-- Every XEN pin is deasserted (R318, R349). -/
def Chip.xenOff (s : Chip) : Chip := s.forEach ((List.range 32).map (· + 32)) fun r t => t.put (SEQR.STAT_XEN r) 0

/-- Rail r's state follows a change of its EN, and its signals are evaluated (R317, R320). -/
def Chip.railSync (s : Chip) (r : Nat) : Chip :=
  let was := s.railState r
  let en := s.bit (SEQR.CFG_EN r)
  let t := if en && was == 7 then s.put (SEQR.STAT_STATE r) 0
    else if !en && was != 7 then (s.put (SEQR.STAT_STATE r) 7).put (SEQR.STAT_XEN r) 0
    else s
  t.seqEval r

/-- Sequence settings of rail r from a tile's entry: CFG, DEP, TIMING, LIMITS and the window words (R319, R320, R251, R317). -/
def Chip.railLoad (s : Chip) (r : Nat) (e : List Byte) : Chip :=
  let w := fun o => BitVec.ofNat 32 (fieldLE e o 4)
  let t := (((s.setReg (SEQR.CFG r) (w 4)).setReg (SEQR.DEP r) (w 8)).setReg (SEQR.TIMING r) (w 12)).setReg (SEQR.LIMITS r) (w 16)
  (t.wmLoad r (w 20) (w 24)).railSync r

end Sys2Proof.Machine
end

