-- ==== Sys2Proof/Machine/Budget.lean ====
section
/-! DEFINITION. The budget arbiter: requests, the tests of a grant, refusals and the ends of leaves (R305 to R310). -/

namespace Sys2Proof.Machine

/-- A requester's number in BUD.LAST (R305). -/
def Asker.id : Asker → Nat
  | .rail r => r
  | .die n => 0x40 + n
  | .hint l _ => 0x48 + l
  | .tune n => 0x50 + n
  | .nvm => 0x70

def Chip.budUpd (s : Chip) (f : BudHw → BudHw) : Chip := { s with bud := f s.bud }

/-- The input is ON, so that the arbiter works (R310). -/
def Chip.inputOn (s : Chip) : Bool := s.get HSW.STAT_STATE == 3

/-- Input-ON time in µs (R310). -/
def Chip.onTime (s : Chip) : Nat :=
  s.bud.onAcc + match s.bud.onSince with | some a => s.now - a | none => 0

/-- The last AVGW samples (R306). -/
def Chip.avgSamples (s : Chip) : List InSample := s.hsw.hist.take (orOne (s.get BUD.RATE_AVGW))

/-- Their sums of PIN in 10^-12 W and of VIN in µV, and their number. -/
def Chip.avgSums (s : Chip) : Int × Nat × Nat :=
  let l := s.avgSamples
  (l.foldl (fun a x => a + (x.vin : Int) * x.iin) 0, l.foldl (fun a x => a + x.vin) 0, l.length)

/-- PBUD in W and IBUD in 1/16 A, with their upper ends (R316). -/
def Chip.pbud (s : Chip) : Nat := min 8000 (s.get BUD.CFG_PBUD)
def Chip.ibud (s : Chip) : Nat := min 2400 (s.get BUD.CFG_IBUD)

/-- The sum of the held peaks in W. -/
def Chip.heldW (s : Chip) : Nat := s.bud.held.foldl (fun a h => a + h.peak) 0

/-- V_avg is at least 1.00 V, so that the tests which divide by it apply (R306). -/
def Chip.vavgOk (s : Chip) : Bool :=
  let (_, v, k) := s.avgSums
  decide (0 < k) && decide (1000000 * k ≤ v)

/-- A power of `w` watts over V_avg is within IBUD; `p` is a further sum of PIN over the window. -/
def Chip.currentFits (s : Chip) (p : Int) (w : Nat) : Bool :=
  let (_, v, k) := s.avgSums
  !s.vavgOk || decide ((p + (w * 10 ^ 12 * k : Nat)) * 16 ≤ (s.ibud * 10 ^ 6 * v : Nat))

/-- The spacing after the most recent grant has run (R306). -/
def Chip.spaced (s : Chip) : Bool :=
  match s.bud.last with
  | none => true
  | some (pg, tg) =>
    let (_, v, k) := s.avgSums
    let num := pg * 10 ^ 6 * k * 256
    let den := v * orOne (s.get BUD.RATE_DIDT)
    !s.vavgOk || decide (tg + (num + den - 1) / den ≤ s.now)

/-- A request fits (R306). -/
def Chip.fits (s : Chip) (pk : Nat) : Bool :=
  let (p, _, k) := s.avgSums
  let w := s.heldW + pk
  (if k = 0 then decide (w ≤ s.pbud) else decide (p + (w * 10 ^ 12 * k : Nat) ≤ (s.pbud * 10 ^ 12 * k : Nat)))
    && s.currentFits p w && s.spaced

/-- A request alone exceeds the budget (R308). -/
def Chip.tooBig (s : Chip) (pk : Nat) : Bool := decide (s.pbud < pk) || !s.currentFits 0 pk

/-- Effective priority: PRIO less one for each complete AGE × 10 µs of waiting (R307). -/
def Chip.effPrio (s : Chip) (q : BudReq) : Nat :=
  let age := s.get BUD.RATE_AGE
  if age = 0 then q.ask.prio else q.ask.prio - (s.onTime - q.onAt) / (10 * age)

/-- The head of the queue (R307). -/
def Chip.budHead (s : Chip) : Option BudReq :=
  s.bud.queue.foldl (fun b q => match b with
    | none => some q
    | some h => if s.effPrio q < s.effPrio h || (s.effPrio q == s.effPrio h && decide (q.stamp < h.stamp)) then some q else b) none

/-- The arbiter's counts and sums are shown (R316). -/
def Chip.budShow (s : Chip) : Chip :=
  let (p, _, k) := s.avgSums
  let (s, pavg) := if k = 0 then (s, (0 : Int)) else s.openDiv p (10 ^ 12 * k)
  let (s, room) := if k = 0 then (s, ((s.pbud : Int) - (s.heldW : Int)))
    else s.openDiv (((s.pbud : Int) - (s.heldW : Int)) * (10 ^ 12 * k : Nat) - p) (10 ^ 12 * k)
  let t := (s.put BUD.STAT_QLEN s.bud.queue.length).put BUD.STAT_NHELD s.bud.held.length
  let t := (t.put BUD.HELD_SUMW (min 65535 s.heldW)).put BUD.HELD_PAVG (min 65535 pavg.toNat)
  (t.put BUD.STAT_HEADROOM (min 65535 room.toNat)).putB BUD.STAT_INHIBIT (!s.inputOn)

def allDies : List Nat := [1, 2, 3, 4, 5, 6, 7]

/-- A phase die that the configuration uses asks for leave to power up (R31 step 7, R33). -/
def Chip.dieAsk (s : Chip) (n : Nat) : Chip :=
  if bitAt (s.get TOP.DIECFG_PXUSE) (n - 1) && !s.dieOn n && !(s.dies.get n).asked then
    { s with dies := s.dies.upd n fun h => { h with asked := true } }.ask
      ⟨.die n, s.get BUD.DIECFG_PEAKW, orOne (s.get BUD.DIECFG_DUR), s.get BUD.PRIO_DIE⟩
  else s

/-- The cold start powers the dies of PXUSE one after the other, in ascending order: the next one above n that is off asks for leave (R31 step 7). -/
def Chip.dieSeqAfter (s : Chip) (n : Nat) : Chip :=
  match allDies.find? fun k => decide (n < k) && bitAt (s.get TOP.DIECFG_PXUSE) (k - 1) && !s.dieOn k with
  | some k => { s with fw := { s.fw with dieSeq := some k } }.dieAsk k
  | none => { s with fw := { s.fw with dieSeq := none } }

/-- Die n's power-up is complete, or ends without it; a cold start that waits for it goes on to the next die (R31 step 7; log entry 155). -/
def Chip.dieSeqDone (s : Chip) (n : Nat) : Chip := if s.fw.dieSeq = some n then s.dieSeqAfter n else s

/-- What a requester does on refusal (R308). -/
def Chip.askRefused (s : Chip) : Asker → Chip
  | .rail r => s.railRefused r
  | .die n =>
    ({ s with dies := s.dies.upd n fun h => { h with asked := false } }.raise ⟨0x4013, n, 0⟩).dieSeqDone n
  | .hint l hid => s.hintNoLeave l hid
  | .tune n => s.tuneNoLeave n
  | .nvm => { s with store := { s.store with leave := .refused } }.cmtWindow

/-- A request is refused (R308). -/
def Chip.refuse (s : Chip) (a : Asker) (reason : Nat) : Chip :=
  let t := (s.put BUD.LAST_REQ a.id).put BUD.LAST_REASON reason
  (t.event BUD.EVT_REFF BUD.EVTCNT_REFCNT 9).askRefused a

/-- A waiting request leaves the queue. -/
def Chip.unqueue (s : Chip) (a : Asker) : Chip := s.budUpd fun b => { b with queue := b.queue.filter fun q => q.ask.who != a }

/-- A withdrawal arrives (R308). -/
def Chip.withdraw (s : Chip) (a : Asker) : Chip := (s.unqueue a).budShow

/-- LEAVE_WITHDRAW: the k-th withdrawal on its way arrives. -/
def Chip.leaveWithdraw (s : Chip) (k : Nat) : Chip :=
  match s.drops[k]? with
  | some a => { s with drops := s.drops.eraseIdx k }.withdraw a
  | none => s

/-- The hints whose requests wait behind another or do not fit now are deferred (R280 cause 0x01). -/
def Chip.budDefer (s : Chip) : Chip :=
  let head := s.budHead
  s.bud.queue.foldl (fun t q => match q.ask.who with
    | .hint l hid => if s.inputOn && head == some q && s.fits q.ask.peak then t else t.hintQueued l hid
    | _ => t) s

/-- A request that has arrived is tested, when the input is ON, and waits (R307, R308, R310). -/
def Chip.budArrive (s : Chip) (a : Ask) : Chip :=
  let on := s.inputOn
  if on && s.tooBig a.peak then s.refuse a.who 1
  else
    let q : BudReq := ⟨a, s.bud.stamp, s.onTime, !on⟩
    (s.budUpd fun b => { b with queue := b.queue ++ [q], stamp := b.stamp + 1 }).budShow.budDefer

/-- LEAVE_REQUEST: the k-th request on its way arrives; what its requester withdrew before it, a hint link under any HID, arrives first, so that a requester has one request in the arbiter (R305; log entry 2). -/
def Chip.leaveRequest (s : Chip) (k : Nat) : Chip :=
  match s.asks[k]? with
  | none => s
  | some a =>
    let t := { s with asks := s.asks.eraseIdx k }
    let mine := t.drops.filter fun q => q.id == a.who.id
    let t := mine.foldl Chip.withdraw { t with drops := t.drops.filter fun q => q.id != a.who.id }
    t.budArrive a

/-- The head of the queue that may be granted now: input ON, no safe state, and it fits (R306, R307, R310, R350). -/
def Chip.grantable (s : Chip) : Option BudReq :=
  match s.budHead with
  | some q => if s.inputOn && !s.bit FLT.STAT_SAFE && s.fits q.ask.peak then some q else none
  | none => none

/-- The arbiter's part of a grant (R306, R307, R309). -/
def Chip.grantCore (s : Chip) (q : BudReq) : Chip :=
  let waited := s.onTime - q.onAt
  let t := s.unqueue q.ask.who
  let t := t.budUpd fun b => { b with
    held := b.held ++ [⟨q.ask.who, q.ask.peak, s.now + q.ask.dur⟩], last := some (q.ask.peak, s.now) }
  let t := t.put BUD.WMAX_WMAX (min (max (t.get BUD.WMAX_WMAX) waited) (2 ^ 32 - 1))
  (t.event BUD.EVT_GRNTF BUD.EVTCNT_GRNTCNT 9).budShow.budDefer

/-- BUDGET_WAIT_LIMIT: the k-th waiting request has waited MAXWAIT of input-ON time (R308). -/
def Chip.waitLimit (s : Chip) (k : Nat) : Chip :=
  match s.bud.queue[k]? with
  | some q =>
    if s.inputOn && decide (q.onAt + 1000 * orOne (s.get BUD.WAIT_MAXWAIT) ≤ s.onTime)
    then ((s.unqueue q.ask.who).refuse q.ask.who 2).budShow else s
  | none => s

/-- The first leave of a requester ends. -/
def endLeave (a : Asker) : List Leave → List Leave
  | [] => []
  | h :: l => if h.who = a then l else h :: endLeave a l

/-- LEAVE_DONE: the k-th done report arrives (R309). -/
def Chip.leaveDone (s : Chip) (k : Nat) : Chip :=
  match s.dones[k]? with
  | some a => ({ s with dones := s.dones.eraseIdx k }.budUpd fun b => { b with held := endLeave a b.held }).budShow
  | none => s

/-- LEAVE_EXPIRE: the k-th leave's duration ends; a done report in the same window ends it as done (R309, R313). -/
def Chip.leaveExpire (s : Chip) (k : Nat) : Chip :=
  match s.bud.held[k]? with
  | some h =>
    if decide (h.until' ≤ s.now) then
      let t := s.budUpd fun b => { b with held := b.held.eraseIdx k }
      (if s.dones.contains h.who then { t with dones := t.dones.erase h.who }
       else t.event BUD.EVT_OVERF BUD.EVTCNT_OVERCNT 9).budShow
    else s
  | none => s

/-- The input leaves ON: leaves end without OVERF, the spacing is cleared and waits stop running (R310). -/
def Chip.budOff (s : Chip) : Chip :=
  ({ s with dones := [] }.budUpd fun b => { b with held := [], last := none, onAcc := s.onTime, onSince := none }).budShow.budDefer

/-- The input reaches ON: waits run again, and requests that came meanwhile have the test of R308 (R308, R310). -/
def Chip.budOn (s : Chip) : Chip :=
  let t := s.budUpd fun b => { b with onSince := some s.now }
  let t := (t.bud.queue.filter (·.untested)).foldl (fun u q =>
    if u.tooBig q.ask.peak then (u.unqueue q.ask.who).refuse q.ask.who 1 else u) t
  (t.budUpd fun b => { b with queue := b.queue.map fun q => { q with untested := false } }).budShow

end Sys2Proof.Machine
end

