-- ==== Sys2Proof/Machine/HotSwap.lean ====
section
/-! DEFINITION. The hot-swap input: the input monitor, the input states, loss, trips and the shorted FET (R294 to R304, R315). -/

namespace Sys2Proof.Machine

def Chip.hswUpd (s : Chip) (f : HswHw → HswHw) : Chip := { s with hsw := f s.hsw }

/-- The input state: 0 OFF, 1 QUALIFY, 2 INRUSH, 3 ON, 4 WAIT, 5 LATCHED, 6 SHORT (R296). -/
def Chip.hswState (s : Chip) : Nat := s.get HSW.STAT_STATE

/-- What holds the gate low, where it is low (R30, R527). -/
def Chip.gatePull (s : Chip) : Option PullDown :=
  if !s.domOn .hka then some .clamp else if s.bit HSW.STAT_GATE then none else some s.hsw.pull

/-- The gate goes low by the fast or the normal pull-down: the SOA accumulator is 0 (R302, R527). -/
def Chip.gateLow (s : Chip) (fast : Bool) : Chip :=
  let t := if s.bit HSW.STAT_GATE then s.hswUpd fun h => { h with lowAt := some s.now } else s
  ((t.hswUpd fun h => { h with pull := if fast then .fast else .normal, soa := 0, full := false, goodAt := none, cbN := 0 }).put HSW.STAT_GATE 0).put HSW.SOAACC_ACC 0

/-- The gate follows CTRL.EN: held low while EN is 0, and driven in INRUSH and ON while it is 1 (R296, R300; log entry 157). -/
def Chip.hswEnable (s : Chip) : Chip :=
  if !s.bit HSW.CTRL_EN then (if s.bit HSW.STAT_GATE then s.gateLow false else s)
  else if (s.hswState == 2 || s.hswState == 3) && !s.bit HSW.STAT_GATE then
    (s.put HSW.STAT_GATE 1).hswUpd fun h => { h with full := s.hswState == 3, goodAt := none, soa := 0 }
  else s

/-- HSW.VI, as the detail of an input fault (R494). -/
def Chip.inputFault (s : Chip) (code : Nat) : Chip := s.raise ⟨code, 0, s.reg HSW.VI⟩

/-- QUALIFY is entered: the QUALT timer starts (R296, R297). -/
def Chip.hswQualify (s : Chip) : Chip := (s.put HSW.STAT_STATE 1).hswUpd fun h => { h with qualAt := s.now }

/-- WAIT ends once the sequencer has every rail off and, after a trip, TRETRY has passed (R296, R299, R303). -/
def Chip.hswLeaveWait (s : Chip) : Chip :=
  let due := match s.hsw.tripAt with | some a => decide (a + 1000 * s.get HSW.RETRY_TRETRY ≤ s.now) | none => true
  if s.hswState = 4 && s.bit SEQ.GSTAT_ALLOFF && due then s.hswQualify else s

/-- The input becomes ON (R298, R300): the arbiter works again, and domains restart after a re-qualification (R336). -/
def Chip.hswOn (s : Chip) : Chip :=
  let t := (s.put HSW.STAT_STATE 3).hswUpd fun h => { h with onAt := s.now, uvN := 0, ovN := 0, tripAt := none }
  let t := (t.put SEQ.GSTAT_INGOOD 1).budOn
  if t.hsw.requal then (t.hswUpd fun h => { h with requal := false }).autoStarts true else t

/-- The running mean of the last 64 samples (R294). -/
def Chip.hswMeans (s : Chip) : Chip :=
  let l := s.hsw.hist.take 64
  let k := l.length
  let (s, vin) := s.openDiv (l.foldl (fun a x => a + (x.vin : Int)) 0) (10000 * k)
  let (s, iin) := s.openDiv (l.foldl (fun a x => a + x.iin) 0) (10000 * k)
  let (s, pin) := s.openDiv (4 * l.foldl (fun a x => a + (x.vin : Int) * x.iin) 0) (10 ^ 12 * k)
  let (s, vout) := s.openDiv (l.foldl (fun a x => a + (x.vout : Int)) 0) (10000 * k)
  let t := (s.put HSW.VI_VIN (min 65535 vin.toNat)).putS HSW.VI_IIN iin
  (t.put HSW.PV_PIN (min 65535 pin.toNat)).put HSW.PV_VOUT (min 65535 vout.toNat)

/-- A counter of consecutive samples. -/
def consec (n : Nat) (b : Bool) : Nat := if b then min (n + 1) 65536 else 0

/-- A sample in INRUSH: full drive at the first sample that reaches VIN − PGDV, and the 1 ms of input good (R298). -/
def Chip.hswInrush (s : Chip) (x : InSample) : Chip :=
  if s.hswState ≠ 2 || !s.bit HSW.STAT_GATE then s
  else
    let near := decide (x.vin ≤ x.vout + 10000 * s.get HSW.INR_PGDV)
    s.hswUpd fun h =>
      let full := h.full || near
      { h with full := full, goodAt := if full && near then (match h.goodAt with | some a => some a | none => some s.now) else none }

/-- The SOA accumulator while the gate is driven (R302). -/
def Chip.hswSoa (s : Chip) (x : InSample) : Chip :=
  if !s.bit HSW.STAT_GATE then s
  else
    let pfet : Int := max 0 ((x.vin : Int) - x.vout) * max 0 x.iin
    let e := max 0 (s.hsw.soa + (pfet - (s.get HSW.SOA_SOAP * 10 ^ 12 : Nat)))
    let (t, mj) := (s.hswUpd fun h => { h with soa := e }).openDiv e (10 ^ 15)
    t.put HSW.SOAACC_ACC (min 65535 mj.toNat)

/-- What a sample counts (R297, R299, R301, R304). -/
def Chip.hswCounts (s : Chip) (x : InSample) : Chip :=
  let st := s.hswState
  let uv := decide (x.vin < 10000 * s.get HSW.VWIN_UVTH)
  let ov := decide (10000 * s.get HSW.VWIN_OVTH < x.vin)
  let quiet := match s.hsw.lowAt with | some a => decide (s.now < a + 1000) | none => false
  let short := decide ((62500 * s.get HSW.FAST_ISHORT : Nat) < x.iin)
  s.hswUpd fun h => { h with
    qualAt := if uv || ov then s.now else h.qualAt
    uvN := consec h.uvN uv
    ovN := consec h.ovN ov
    cbN := if (st = 2 || st = 3) && s.bit HSW.CTRL_EN then consec h.cbN (decide ((62500 * s.get HSW.CB_ICB : Nat) < x.iin)) else 0
    shN := if st = 2 || st = 3 || !s.bit HSW.CTRL_EN then 0 else if quiet then h.shN else consec h.shN short }

/-- INPUT_SAMPLE, on the microsecond grid of R539: the pin voltages in µV and the shunt voltage in nV, as the 12-bit conversions give them; VIN = V_VINS × DIVV and IIN = V_SHUNT ÷ RSH (R294). With RSH = 0 the current is a free value. -/
def Chip.inputSample (s : Chip) (vins hsout : Nat) (shunt : Int) : Chip :=
  if !s.domOn .hka || s.power.isolated || !s.gridOrTb3 gridInput 1 then s
  else
    let s := s.gridTake gridInput 1
    let div := s.get HSW.SCALE_DIVV
    let rsh := s.get HSW.SCALE_RSH
    let (s, vin) := s.openDiv ((vins * div : Nat) : Int) 256
    let (s, vout) := s.openDiv ((hsout * div : Nat) : Int) 256
    let (s, iin) := if rsh = 0 then (s.freeNext, signedOf 32 s.freeVal) else s.openDiv (shunt * 1000) rsh
    let x : InSample := ⟨vin.toNat, vout.toNat, iin⟩
    let t := s.hswUpd fun h => { h with hist := (x :: h.hist).take 255, energy := h.energy + (x.vin : Int) * x.iin }
    let (t, e) := t.hswMeans.openDiv t.hsw.energy (10 ^ 15)
    let t := (t.put HSW.ENERGY_LO_ENL (bitsOf 64 e)).put HSW.ENERGY_HI_ENH (bitsOf 64 e / 2 ^ 32)
    let t := ((t.hswCounts x).hswInrush x).hswSoa x
    t.budShow.telSample 4 0 0 [t.reg HSW.VI, t.reg HSW.PV]

/-- HSW_QUALIFIED: VIN has stayed inside the window for QUALT (R296, R297, R300). -/
def Chip.hswQualified (s : Chip) : Chip :=
  if s.hswState = 1 && decide (s.hsw.qualAt + 1000 * orOne (s.get HSW.QUAL_QUALT) ≤ s.now) then
    if s.bit HSW.CTRL_EN then
      ((s.put HSW.STAT_STATE 2).put HSW.STAT_GATE 1).hswUpd fun h => { h with inAt := s.now, full := false, goodAt := none, soa := 0, cbN := 0 }
    else s.hswOn
  else s

/-- HSW_INPUT_GOOD: both conditions have held for 1 ms (R298). -/
def Chip.hswInputGood (s : Chip) : Chip :=
  match s.hsw.goodAt with
  | some a => if s.hswState = 2 && decide (a + 1000 ≤ s.now) then s.hswOn else s
  | none => s

/-- The state leaves INRUSH or ON with the gate low; from ON the arbiter and the sequencer are told; the fast breaker alone takes the fast pull-down (R299, R301, R310, R335, R527). -/
def Chip.hswDrop (s : Chip) (st cause : Nat) : Chip :=
  let on := s.inputOn
  let t := (((s.gateLow (cause = 1)).put HSW.STAT_STATE st).put HSW.STAT_CAUSE cause).put SEQ.GSTAT_INGOOD 0
  if on then t.budOff.seqInputLost else t.budShow

/-- INPUT_LOSS: VIN has stayed below UVTH, or above OVTH, for UVT samples (R299, R438). -/
def Chip.inputLoss (s : Chip) : Chip :=
  let n := orOne (s.get HSW.QUAL_UVT)
  let ov := decide (n ≤ s.hsw.ovN)
  if s.hswState = 3 && (ov || decide (n ≤ s.hsw.uvN)) then
    let t := (s.event HSW.EVT_LOSSF HSW.EVTCNT_LOSSCNT 8).inputFault (if ov then 0x2201 else 0x2200)
    let t := t.pmbLatch (2 ^ 64) 2 (if ov then 7 else 4)
    (t.hswDrop 4 (if ov then 6 else 5)).hswLeaveWait
  else s

/-- A trip, of which PMBus shows a breaker or SOA trip and not the inrush timeout (R301, R303, R438): TRIES counts, and the trip that brings it to RETRYN latches. -/
def Chip.hswTrip (s : Chip) (cause code : Nat) (flag cnt : Fld) : Chip :=
  let t := (s.event flag cnt 8).inputFault code
  let t := if code = 0x2205 then t else t.pmbLatch (2 ^ 64) 2 2
  let t := (t.inc HSW.STAT_TRIES).hswUpd fun h => { h with tripAt := some s.now }
  if t.get HSW.RETRY_RETRYN ≤ t.get HSW.STAT_TRIES then (t.inputFault 0x6206).hswDrop 5 cause
  else (t.hswDrop 4 cause).hswLeaveWait

/-- Trips act in INRUSH and ON with EN = 1 (R300, R301). -/
def Chip.mayTrip (s : Chip) : Bool := s.bit HSW.CTRL_EN && (s.hswState == 2 || s.hswState == 3)

/-- FAST_BREAKER: the comparator reports a shunt current above IFAST; `amps16` is the current in 1/16 A (R301). -/
def Chip.fastBreaker (s : Chip) (amps16 : Nat) : Chip :=
  if s.mayTrip && decide (s.get HSW.FAST_IFAST < amps16) then s.hswTrip 1 0x2202 HSW.EVT_FASTF HSW.EVTCNT_FASTCNT else s

/-- SLOW_BREAKER: IIN has been above ICB for TCB samples (R301). -/
def Chip.slowBreaker (s : Chip) : Chip :=
  if s.mayTrip && decide (orOne (s.get HSW.CB_TCB) ≤ s.hsw.cbN) then s.hswTrip 2 0x2203 HSW.EVT_CBF HSW.EVTCNT_CBCNT else s

/-- FET_SOA_TRIP: the accumulator has reached SOAE (R301, R302). -/
def Chip.soaTrip (s : Chip) : Chip :=
  if s.mayTrip && decide ((orOne (s.get HSW.SOA_SOAE) * 10 ^ 15 : Nat) ≤ s.hsw.soa) then
    s.hswTrip 3 0x2204 HSW.EVT_SOAF HSW.EVTCNT_SOACNT else s

/-- INRUSH_TIMEOUT: TINR has passed without ON (R298, R301). -/
def Chip.inrushTimeout (s : Chip) : Chip :=
  if s.mayTrip && s.hswState = 2 && decide (s.hsw.inAt + 1000 * s.get HSW.INR_TINR ≤ s.now) then
    s.hswTrip 4 0x2205 HSW.EVT_INRTOF HSW.EVTCNT_INRTOCNT else s

/-- SHORTED_FET: IIN has exceeded ISHORT for 100 samples with the gate low (R304). -/
def Chip.shortedFet (s : Chip) : Chip :=
  let st := s.hswState
  if s.bit HSW.CTRL_EN && s.domOn .hka && st ≠ 2 && st ≠ 3 && st ≠ 6 && decide (100 ≤ s.hsw.shN) then
    let t := ((s.put HSW.STAT_STATE 6).put HSW.STAT_CAUSE 8).flag HSW.EVT_SHORTF
    (t.bell 8).inputFault 0x8207
  else s

/-- RETRY_DELAY_EXPIRE: TRETRY has passed since the trip (R303). -/
def Chip.retryExpire (s : Chip) : Chip := s.hswLeaveWait

/-- TRIES_RESET: the input has been ON for 1 s (R303). -/
def Chip.triesReset (s : Chip) : Chip :=
  if s.hswState = 3 && decide (s.hsw.onAt + 1000000 ≤ s.now) then s.put HSW.STAT_TRIES 0 else s

/-- The collector orders HSGATE off: LATCHED, unless the FET is shorted (R303, R313). -/
def Chip.hswCollector (s : Chip) : Chip :=
  if s.hswState = 6 then s
  else
    let on := s.inputOn
    let t := (((s.gateLow true).put HSW.STAT_STATE 5).put HSW.STAT_CAUSE 7).put SEQ.GSTAT_INGOOD 0
    if on then t.budOff else t.budShow

/-- The cold start reaches its hot-swap step (R296). -/
def Chip.hswBegin (s : Chip) : Chip := if s.hswState = 0 then s.hswQualify else s

end Sys2Proof.Machine
end

