-- ==== Sys2Proof/Machine/Sensors.lean ====
section
/-! DEFINITION. The thermal sensors: readings, estimates, warnings and the NVM write window (R373 to R376, R381). -/

namespace Sys2Proof.Machine

def Chip.thermUpd (s : Chip) (f : ThermHw → ThermHw) : Chip := { s with therm := f s.therm }

/-- A thermal sensor is marked broken (R375). -/
def Chip.sensBroken (s : Chip) (i : Nat) : Bool := s.bit (THM.SENS_BRK i)

/-- The phase die of a sensor; 0 for the hub (R373). -/
def sensDie (i : Nat) : Nat := if i < 8 then 0 else (i - 8) / 4 + 1

/-- The sensors of a die; of the hub for 0. -/
def dieSens (n : Nat) : List Nat := if n = 0 then List.range 8 else (List.range 4).map (· + 8 + 4 * (n - 1))

/-- A sensor delivers readings while its domain is on, a die's while its link is up (R373). -/
def Chip.sensUp (s : Chip) (i : Nat) : Bool := if i < 8 then s.power.aon else s.dieOn (sensDie i) && s.linkUp (sensDie i)

/-- USED and TEMP in eighths of a degree. -/
def Chip.sensUsed (s : Chip) (i : Nat) : Int := s.getS (THM.SENS_USED i)

/-- A sensor that counts as a neighbour: valid and not broken (R375). -/
def Chip.sensCounts (s : Chip) (i : Nat) : Bool := decide (i < 36) && s.bit (THM.SENS_VALID i) && !s.sensBroken i

/-- The counting neighbours that THM.NBR names for sensor i (R375, R388). -/
def Chip.sensNbrs (s : Chip) (i : Nat) : List Nat :=
  ((([THM.NBR_NBR0 i, THM.NBR_NBR1 i, THM.NBR_NBR2 i, THM.NBR_NBR3 i].map s.get).filter (128 ≤ ·)).map (· % 64)).filter s.sensCounts

/-- The sum of the USED values of some sensors. -/
def Chip.usedSum (s : Chip) (l : List Nat) : Int := l.foldl (fun a i => a + s.sensUsed i) 0

/-- The highest USED value of some sensors. -/
def Chip.usedMax (s : Chip) : List Nat → Option Int
  | [] => none
  | i :: l => some (match s.usedMax l with | some m => max m (s.sensUsed i) | none => s.sensUsed i)

/-- A broken sensor's estimate (R376). -/
def Chip.estimate (s : Chip) (i : Nat) : Chip :=
  let l := s.sensNbrs i
  let e := if l.isEmpty then s.usedMax ((dieSens (sensDie i)).filter s.sensCounts) else some (rne (s.usedSum l) l.length)
  match e with
  | some v => (s.putS (THM.SENS_USED i) v).put (THM.SENS_VALID i) 1
  | none => s.put (THM.SENS_VALID i) 0

/-- The warning of an on-die sensor, once per entry (R374). -/
def Chip.sensWarn (s : Chip) (i : Nat) : Chip :=
  let u := s.sensUsed i
  let w := s.getS THM.WARN_DIEWARN
  if bitAt s.therm.warm i then (if u ≤ w - 16 then s.thermUpd fun h => { h with warm := setBitAt h.warm i false } else s)
  else if w ≤ u then (s.thermUpd fun h => { h with warm := setBitAt h.warm i true }).event THM.EVT_DIEWF THM.EVTCNT_DIEWCNT 0xa |>.pmbLatch pmbEvery 3 6
  else s

/-- HUBTJ, MAXTJ and the NVM write window: closed below 0 °C and above 105 °C, open again from 3 °C to 102 °C (R381, R387). -/
def Chip.windowJudge (s : Chip) : Chip :=
  let t := match s.usedMax ((List.range 36).filter fun i => s.bit (THM.SENS_VALID i)) with | some m => s.putS THM.STAT_MAXTJ m | none => s
  match t.usedMax ((List.range 8).filter fun i => t.bit (THM.SENS_VALID i)) with
  | none => t
  | some h =>
    let t := t.putS THM.STAT_HUBTJ h
    if t.bit THM.STAT_WINOPEN then
      if h < 0 || 840 < h then (((t.put THM.STAT_WINOPEN 0).event THM.EVT_WINF THM.EVTCNT_WINCNT 0xa).thermUpd fun x => { x with closed := true }).logHeld else t
    else if 24 ≤ h && h ≤ 816 then
      let t := t.put THM.STAT_WINOPEN 1
      if t.therm.closed then { t.thermUpd fun x => { x with closed := false } with store := { t.store with drainOwed := true } } else t
    else t

/-- The sensors of a phase die deliver no more readings: one that is marked broken keeps an estimate, the others are not valid (R373, R376). -/
def Chip.sensLost (s : Chip) (n : Nat) : Chip :=
  let t := s.forEach ((dieSens n).filter fun i => !s.sensBroken i) fun i u => u.put (THM.SENS_VALID i) 0
  let brk := (List.range 36).filter t.sensBroken
  let t := t.forEach brk fun i u => u.estimate i
  if t.domOn .core then (t.forEach brk fun i u => if u.bit (THM.SENS_VALID i) then u.sensWarn i else u).windowJudge else t

/-- A phase die that comes up is told which of its sensors are marked broken (R377, R383). -/
def Chip.sensTell (s : Chip) (n : Nat) : Chip :=
  s.put (THMD.DSTAT_MASK n) ((dieSens n).foldl (fun m i => if s.sensBroken i then m + 2 ^ ((i - 8) % 4) else m) 0)

end Sys2Proof.Machine
end

