-- ==== Sys2Proof/Machine/Power.lean ====
section
/-! DEFINITION. Phase-die power, the die links, POL sleep and the time bases (R25 to R46). -/

namespace Sys2Proof.Machine

/-- The die on which phase-indexed key p lies, for tables keyed by phase. -/
def onDie (n p : Nat) : Bool := p / 32 == n - 1

/-- A phase die's registers keep no state while it is off (R30, R482); what the device holds beside them for the die goes with them. A lost phase stays lost (R164). -/
def Chip.dieClear (s : Chip) (n : Nat) : Chip :=
  let t := (s.sqLost (n + 1)).resetRegs fun d => match d with | .px k => k.val == n - 1 | _ => false
  let byDie := fun k => k / 32 == n
  let t := { t with
    gens := t.gens.drop (onDie n), switches := t.switches.drop (fun k => onDie n (k / 2)),
    lanes := t.lanes.drop byDie, holds := t.holds.drop byDie, lastTag := t.lastTag.drop byDie,
    means := t.means.drop byDie, sumLanes := t.sumLanes.drop byDie, discards := t.discards.drop byDie,
    stbLanes := t.stbLanes.drop (fun k => k / 4 == n), stgWarm := t.stgWarm.drop (onDie n),
    pollDue := t.pollDue.drop (onDie n), mapBytes := t.mapBytes.drop (fun k => k / 262144 == n - 1),
    dirtyTiles := t.dirtyTiles.drop (fun k => k / 1024 == n - 1), badTiles := t.badTiles.filter (fun k => k / 1024 != n - 1),
    sqs := t.sqs.drop (· == n + 1) }
  let t := t.sensLost n
  t.forEach (diePhases n) fun p u => u.phUpd p fun h => { ({} : PhaseHw) with lost := h.lost }

/-- A die's bits of PWR.DOMSTAT and TOP.DIECFG (R6, R36). -/
def Chip.diePower (s : Chip) (n : Nat) (on : Bool) : Chip :=
  let t := s.put PWR.DOMSTAT_PX (setBitAt (s.get PWR.DOMSTAT_PX) (n - 1) on)
  t.put TOP.DIECFG_PXPWR (setBitAt (t.get TOP.DIECFG_PXPWR) (n - 1) on)

/-- Domain PXn is powered down (R32). -/
def Chip.dieDown (s : Chip) (n : Nat) : Chip :=
  if !s.dieOn n then s
  else
    let t := (s.dieClear n).diePower n false
    let t := { t with dies := t.dies.upd n fun h => { h with training := false, silenced := false, resends := 0, pins := 0, told := 0, wmWire := 0 } }
    t.put (LINK.LINKSTAT_UP n) 0

/-- Every phase die is powered down, PX7 first (R32). -/
def Chip.diesDown (s : Chip) : Chip := s.forEach [7, 6, 5, 4, 3, 2, 1] fun n t => t.dieDown n

/-- Domain PXn powers up and its link begins to train (R28, R29, R33). -/
def Chip.dieUp (s : Chip) (n : Nat) : Chip :=
  let t := (s.diePower n true).put (LINK.LINKSTAT_WDOG n) 0
  let t := { t with dies := t.dies.upd n fun h => { h with asked := false, training := true, silenced := false, resends := 0, keepAlive := s.now } }
  t.forEach allRails fun r u => u.wmWires r

/-- Leave for a die is granted (R33). A die that no longer wants it ends it at once. -/
def Chip.dieGranted (s : Chip) (n : Nat) : Chip :=
  if (s.dies.get n).asked && !s.dieOn n then s.dieUp n else (s.askDone (.die n)).dieSeqDone n

/-- LINK_TRAINING_FAIL: the third attempt, or a register pair's write, has failed (R54, R482). -/
def Chip.trainingFail (s : Chip) (n : Nat) : Chip :=
  if s.dieOn n && (s.dies.get n).training then
    (({ s with dies := s.dies.upd n fun h => { h with training := false } }.askDone (.die n)).raise ⟨0x6012, n, 1⟩).dieSeqDone n
  else s

/-- KEEP_ALIVE_SEND (R28). -/
def Chip.keepAliveSend (s : Chip) (n : Nat) : Chip :=
  if s.dieOn n then { s with dies := s.dies.upd n fun h => { h with keepAlive := s.now } }.out (.keepAlive n) else s

/-- Every phase die is isolated: no bit of DOMSTAT or DIECFG shows it on, and its link reads not UP (R6, R29, R35). -/
def Chip.diesIsolate (s : Chip) : Chip :=
  ((s.put PWR.DOMSTAT_PX 0).put TOP.DIECFG_PXPWR 0).forEach allDies fun n u => u.put (LINK.LINKSTAT_UP n) 0

/-- A phase of the die runs: it has been started, or its generator, which no loop owns, has begun its periods (R28, R130). -/
def Chip.dieRuns (s : Chip) (n : Nat) : Bool :=
  (diePhases n).any fun p => (s.gens.get p).go || (s.gens.get (s.genLead p)).run && s.bit (PWM.CTRL_EN (s.genLead p))

/-- DIE_KEEP_ALIVE_TIMEOUT: a die with a running phase has received nothing for 4 µs; its outputs stay high-impedance until its next power-up (R28). -/
def Chip.dieTimeout (s : Chip) (n : Nat) : Chip :=
  if s.dieOn n && s.dieRuns n then
    let t := { s with dies := s.dies.upd n fun h => { h with silenced := true } }.put (LINK.LINKSTAT_WDOG n) 1
    t.forEach (diePhases n) fun p u => u.genShow p
  else s

/-- LINK_LOSS: the hub has received nothing from a powered die for 4 µs (R28). -/
def Chip.linkLoss (s : Chip) (n : Nat) : Chip :=
  if s.dieOn n then (s.put (LINK.LINKSTAT_WDOG n) 1).raise ⟨0x6012, n, 0⟩ else s

/-- SERVICE_FLIT_RECEIVE: a flit with a bad check is sent again, up to 3 times (R26, R27, R29). -/
def Chip.flitReceive (s : Chip) (n : Nat) (good : Bool) : Chip :=
  if !s.dieOn n then s
  else if good then { s with dies := s.dies.upd n fun h => { h with resends := 0 } }
  else if (s.dies.get n).resends < 3 then
    { s with dies := s.dies.upd n fun h => { h with resends := h.resends + 1 } }.event (LINK.LINKSTAT_ERRF n) (LINK.LINKSTAT_SFRETRY n) (0x18 + n)
  else s

/-- POL_SLEEP_REQUEST (R34, R37). -/
def Chip.sleepRequest (s : Chip) : Chip := s.put PWR.DOMCTL_POLSLP 1

/-- POL_SLEEP_ENTRY: all four processors wait for an event, no delivery is held and no start is in progress (R34, R405, R467). PP[k] registers are the retained copy (R405). -/
def Chip.sleepEntry (s : Chip) : Chip :=
  if s.bit PWR.DOMCTL_POLSLP && s.domOn .pol && s.evh.winners.all (·.isNone) && s.get FW.STAT_START == 0
  then
    let t := { s with evh := { s.evh with slept := (List.range 4).map fun k => s.reg (PP.CTRL k) } }
    ((t.put PWR.DOMSTAT_POL 0).awakeRefresh).evaluate
  else s

/-- POL_WAKE: a delivery wakes POL, whose processors start at the resume entry, but not in hold-up, where POL stays isolated (R34, R35, R404). -/
def Chip.polWake (s : Chip) : Chip :=
  match s.evh.wake with
  | some i =>
    if s.polAsleep && s.coreRuns then
      let t := (s.put PWR.DOMSTAT_POL 1).put PWR.DOMCTL_POLSLP 0
      let t := { t with evh := { t.evh with wake := none }, fw := { t.fw with entry := fieldLE t.fw.image 0x20 4 } }
      ((t.wakeRecord i true).awakeRefresh).evaluate
    else s
  | none => s

/-- SPEED_MEASURE: the speed monitor's index (R41). -/
def Chip.speedMeasure (s : Chip) (idx : Nat) : Chip :=
  let lim := s.get TIME.SPEED_LOWLIM
  let t := s.put TIME.SPEED_SPDIDX idx
  if lim + 8 < idx then { t with time := { t.time with slowArmed := true } }
  else if idx < lim && t.time.slowArmed then { t with time := { t.time with slowArmed := false } }.raise ⟨0x2001, 0, 0⟩
  else t

def Chip.timeSource (s : Chip) (x : TimeSource) : Chip := { s with time := { s.time with source := x } }

/-- TB0_LOSS (R42, R43, R46). -/
def Chip.tb0Loss (s : Chip) : Chip :=
  if !s.bit TIME.TBSTAT_TB0OK then s
  else
    let t := ((s.put TIME.TBSTAT_TB0OK 0).event TIME.TBSTAT_TB0LF TIME.TBSTAT_TB0LCNT 0xb).raise ⟨0x2002, 0, 0⟩
    if t.bit TIME.TBSTAT_TB1OK then t else t.timeSource .osc

/-- TB2, TB3 and TB7 are locked, or are in holdover, where they read as not locked (R44, R46; log entry 153). -/
def Chip.tbLocks (s : Chip) (on : Bool) : Chip :=
  (((s.putB TIME.TBSTAT_TB2LK on).putB TIME.TBSTAT_TB3LK on).putB TIME.TBSTAT_TB7LK on).putB TIME.TBSTAT_HOLDOVER (!on)

/-- TB1_LOSS (R43, R44). -/
def Chip.tb1Loss (s : Chip) : Chip :=
  if !s.bit TIME.TBSTAT_TB1OK then s
  else
    let t := (((s.put TIME.TBSTAT_TB1OK 0).event TIME.TBSTAT_TB1LF TIME.TBSTAT_TB1LCNT 0xb).tbLocks false).raise ⟨0x4003, 0, 0⟩
    let t := t.timeSource (if t.bit TIME.TBSTAT_TB0OK then .tb0 else .osc)
    { t with time := { t.time with tb1Back := none } }

/-- TB_RETURN: a lost TB1, or else TB0, returns and takes over at its next edge; the fraction of TB0 ends with TB1 back and stays over a time of the oscillator (R43, R44; DESIGN CHOICE, log entry 188). -/
def Chip.tbReturn (s : Chip) (one : Bool) : Chip :=
  if one then
    if s.bit TIME.TBSTAT_TB1OK then s
    else
      let t := (s.put TIME.TBSTAT_TB1OK 1).timeSource .tb1
      { t with time := { t.time with tb1Back := some t.now, frac := 0 } }
  else if s.bit TIME.TBSTAT_TB0OK then s
  else
    let t := s.put TIME.TBSTAT_TB0OK 1
    if t.time.source = .osc then t.timeSource .tb0 else t

/-- TB1_RELOCK: TB1 has been present for 1 ms (R44). -/
def Chip.tb1Relock (s : Chip) : Chip :=
  match s.time.tb1Back with
  | some a =>
    if s.bit TIME.TBSTAT_TB1OK && decide (a + 1000 ≤ s.now) then
      let t := s.tbLocks true
      { t with time := { t.time with tb1Back := none } }
    else s
  | none => s

/-- TB_LOCK_LOSS: the lock detector of TB2 (0), TB3 (1) or TB7 (2) reports a loss of lock; holdover as in R44, with TB1's 1 ms from now (R42; log entry 31). -/
def Chip.lockLoss (s : Chip) (tb : Nat) : Chip :=
  let f := if tb = 0 then TIME.TBSTAT_TB2LK else if tb = 1 then TIME.TBSTAT_TB3LK else TIME.TBSTAT_TB7LK
  if !s.bit f then s
  else
    let t := (s.put f 0).put TIME.TBSTAT_HOLDOVER 1
    { t with time := { t.time with tb1Back := if t.bit TIME.TBSTAT_TB1OK then some t.now else none } }

/-- One step of the time counter from its present source (R43). -/
def Chip.tick (s : Chip) : Chip :=
  match s.time.source with
  | .tb0 =>
    let f := s.time.frac + 33920
    { s with time := { s.time with now := (s.time.now + 30 + f / 65536) % 2 ^ 64, frac := f % 65536, prev := s.time.now } }
  | _ => { s with time := { s.time with now := (s.time.now + 1) % 2 ^ 64, prev := s.time.now } }

end Sys2Proof.Machine
end

