-- ==== Sys2Proof/Machine/Faults.lean ====
section
/-! DEFINITION. The fault collector: the table, classes and escalation, acknowledges, the F3 stop, the safe state, FAULT_N, injection and software faults (R344 to R372). -/

namespace Sys2Proof.Machine

/-- The class in a fault code (R17). -/
def codeCls (c : Nat) : Nat := c / 2 ^ 13

/-- A code with another class (R17). -/
def codeWith (c cls : Nat) : Nat := c % 2 ^ 13 + cls * 2 ^ 13

def Chip.fltUpd (s : Chip) (f : FltHw → FltHw) : Chip := { s with flt := f s.flt }

/-- The slots that hold an entry (R345). -/
def Chip.heldSlots (s : Chip) : List Nat := (List.range 64).filter fun i => s.get (FLT.ENT0_STATE i) != 0

/-- FLT.LATCH3 holds a fault; the F4 latch holds one (R348). -/
def Chip.f3Held (s : Chip) : Bool := s.get FLT.LATCH3_CODE != 0
def Chip.f4Held (s : Chip) : Bool := s.get FLTA.F4_CODE != 0

def Chip.inHoldup (s : Chip) : Bool := s.bit PWR.DOMSTAT_HOLDUP

/-- FNCLS, where 0 acts as F1 and more than 4 as F4 (R367). -/
def Chip.fnCls (s : Chip) : Nat := clampN 1 4 (s.get FLT.CFG_FNCLS)

/-- Whether FAULT_N is driven low; without AON's supply it is not driven (R355, R378, R524). -/
def Chip.faultLow (s : Chip) : Bool :=
  s.power.aon && (s.f4Held || s.inHoldup || s.get THMA.SDSTAT_STATE != 0 || !s.domOn .core || s.flt.unloaded || s.bit FLT.STAT_SAFE || s.bit FW.STAT_HOLD
    || (s.f3Held && decide (s.fnCls ≤ 3)) || s.heldSlots.any fun i => decide (s.fnCls ≤ codeCls (s.get (FLT.ENT0_CODE i))))

/-- FAULT_N and the status fields follow what is held (R355, R367). -/
def Chip.fltShow (s : Chip) : Chip :=
  let t := s.putB FLTA.PIN_LEVEL s.faultLow
  let t := if s.faultLow then t.pmbLatch pmbEvery 5 1 else t
  if !s.domOn .core then t
  else
    let held := s.heldSlots
    let top := held.foldl (fun m i => max m (codeCls (s.get (FLT.ENT0_CODE i)))) 0
    let top := if s.f4Held then 4 else if s.f3Held then max 3 top else top
    (((t.put FLT.STAT_NHELD held.length).put FLT.STAT_MAXCLS top).putB FLT.STAT_F3L s.f3Held).putB FLT.STAT_F4L s.f4Held

/-- Whether the condition of a fault is present now (R347). -/
def Chip.faultCond (s : Chip) (code inst : Nat) : Bool :=
  let c := code % 2 ^ 13
  if c = 0x003 then s.bit TIME.TBSTAT_HOLDOVER
  else if c = 0x121 then s.bit (CMPL.EVT_UVACT inst)
  else if c = 0x122 then s.bit (LOOP.STATUS_ILIMACT inst)
  else if c = 0x125 then decide (s.get (PHSL.STATUS_NAVAIL inst) < s.nmin inst)
  else if c = 0x200 || c = 0x201 then s.hswState != 3
  else if c = 0x400 then s.sensBroken inst
  else false

/-- The table or LATCH3 holds an unacknowledged fault of this class (R357). -/
def Chip.unacked (s : Chip) (cls : Nat) : Bool :=
  (cls == 3 && s.f3Held) || s.heldSlots.any fun i => codeCls (s.get (FLT.ENT0_CODE i)) == cls && s.get (FLT.ENT0_STATE i) == 1

/-- A fault's record goes to the log writer and, for class EVCLS and above, to the event ring (R363, R430, R492). Its CRC is that of a record written next in order (log entry 32). -/
def Chip.faultRecord (s : Chip) (m : FaultMsg) (esc : Bool) : Chip :=
  let body := padTo 20 s.faultBody ++ (if m.code % 2 ^ 13 = 0x401 then bytesLE 4 (s.reg THMA.SDTIME_LO).toNat ++ bytesLE 4 (s.reg THMA.SDTIME_HI).toNat else [])
  let r : LogRec := { type := 1, code := m.code, inst := m.inst, flags := esc.toNat, detail := m.detail, body := body, time := s.now }
  let n := s.get NVM.LOGHEAD_SEQ + s.store.logBuf.length
  let t := s.log r
  if s.get HIF.CTRL_EVCLS ≤ codeCls m.code then t.hostEvent 1 m.inst (((s.logMark r).line n (s.get SEC.CSCNT_COUNT)).drop 16) else t

/-- A fault that the table cannot keep: OVFF (R346). -/
def Chip.fltOver (s : Chip) : Chip := s.event FLT.EVT_OVFF FLT.EVTCNT2_OVFCNT 3

/-- An entry is taken; an F2 entry starts its timer (R345, R352, R364). -/
def Chip.entTake (s : Chip) (i : Nat) (m : FaultMsg) (esc : Bool) : Chip :=
  let t := ((((s.put (FLT.ENT0_CODE i) m.code).put (FLT.ENT0_INST i) m.inst).put (FLT.ENT0_OCC i) 1).putB (FLT.ENT0_ESC i) esc).put (FLT.ENT0_STATE i) 1
  let t := t.put (FLT.ENT1_TIME i) t.nowLo
  { t with ents := t.ents.set i { timer := if codeCls m.code = 2 && !t.inHoldup then some t.now else none, detail := m.detail, stamp := t.flt.stamp } }.fltUpd
    fun h => { h with stamp := h.stamp + 1 }

/-- An entry is freed. -/
def Chip.entFree (s : Chip) (i : Nat) : Chip :=
  { (s.setReg (FLT.ENT0 i) 0).setReg (FLT.ENT1 i) 0 with ents := s.ents.set i {} }

/-- The F1 entry taken first. -/
def Chip.oldestF1 (s : Chip) : Option Nat :=
  (s.heldSlots.filter fun i => codeCls (s.get (FLT.ENT0_CODE i)) == 1).foldl (fun b i =>
    match b with
    | none => some i
    | some j => if (s.ents.get i).stamp < (s.ents.get j).stamp then some i else some j) none

/-- The F3 latch captures the first F3 and counts the others (R348). -/
def Chip.latch3 (s : Chip) (code inst : Nat) : Chip :=
  let t := s.inc FLT.LATCH3_CNT
  if s.f3Held then t
  else (((t.put FLT.LATCH3_CODE code).put FLT.LATCH3_INST inst).put FLT.F3TIME_LO_F3TL t.nowLo).put FLT.F3TIME_HI_F3TH (t.now / 2 ^ 32)

/-- The F4 latch in AON (R350, R351, R372). -/
def Chip.latch4 (s : Chip) (code inst : Nat) : Chip :=
  let t := s.inc FLTA.F4_CNT
  if s.f4Held then t
  else (((t.put FLTA.F4_CODE code).put FLTA.F4_INST inst).put FLTA.F4TIME_LO_F4TL t.nowLo).put FLTA.F4TIME_HI_F4TH (t.now / 2 ^ 32)

/-- A stop of the collector runs (R362). -/
def runs (o : Option FaultStop) : Bool := match o with | some x => !x.done | none => false
def Chip.stopRunning (s : Chip) : Bool := runs s.flt.stop3 || runs s.flt.stopS

/-- The F3 stop (`three`) or the safe state's stop (`safe`) has ended: with F3GATE = 1, or for the safe state, HSGATE goes low, and then the phase dies power down (R349, R350). -/
def Chip.stopsEnd (s : Chip) (three safe : Bool) : Chip :=
  let mark := fun (b : Bool) (o : Option FaultStop) => o.map fun x => { x with done := x.done || b }
  let t := s.fltUpd fun h => { h with stop3 := mark three h.stop3, stopS := mark safe h.stopS }
  ((if safe || (three && s.bit FLT.CFG_F3GATE) then t.hswCollector else t).diesDown).fltShow

/-- The collector's running stops end once every rail is off (R349, R350). -/
def Chip.stopProgress (s : Chip) : Chip :=
  if s.stopRunning && s.bit SEQ.GSTAT_ALLOFF && !s.inHoldup then s.stopsEnd (runs s.flt.stop3) (runs s.flt.stopS) else s

/-- The F3 stop; a second F3 adds nothing to it, and in hold-up nothing begins (R331, R349, R364). -/
def Chip.f3Stop (s : Chip) : Chip :=
  if s.inHoldup || s.bit FLT.STAT_SAFE || s.flt.stop3.isSome then s
  else ((s.fltUpd fun h => { h with stop3 := some ⟨s.now, false⟩ }).seqStopAll).stopProgress

/-- The safe state: the F4 latch is written, and every rail is ordered to stop (R348, R350, R364). -/
def Chip.safeState (s : Chip) (code inst : Nat) : Chip :=
  let t := s.latch4 code inst
  if t.inHoldup || t.bit FLT.STAT_SAFE then t
  else (((t.put FLT.STAT_SAFE 1).fltUpd fun h => { h with stopS := some ⟨t.now, false⟩ }).seqStopAll).stopProgress

/-- What an escalation does beside its entry: ESCF, the F3 latch, a new record and the F3 stop (R352). -/
def Chip.escalated (s : Chip) (m : FaultMsg) : Chip :=
  (((s.event FLT.EVT_ESCF FLT.EVTCNT_ESCCNT 1).latch3 m.code m.inst).faultRecord m true).f3Stop

/-- The immediate part of an F3 action (R349). -/
def Chip.f3Now (s : Chip) (m : FaultMsg) : Chip :=
  if s.inHoldup then s
  else if m.code = 0x6012 then s.setTripWire m.inst true
  else if m.code = 0x6120 then s.loopCmd m.inst .trip
  else s

/-- F0 records are limited to 16 in a fixed interval of 1 ms (R363). -/
def Chip.f0Log (s : Chip) (m : FaultMsg) : Chip :=
  let slot := s.now / 1000
  let n := if s.store.f0Slot = slot then s.store.f0Count else 0
  if 16 ≤ n then { s with store := { s.store with f0Slot := slot, f0Count := n } }.inc FLT.EVTCNT2_F0DROP
  else { s with store := { s.store with f0Slot := slot, f0Count := n + 1 } }.faultRecord m false

/-- The action of a held class (R348). -/
def Chip.fltAct (s : Chip) (m : FaultMsg) (esc : Bool) : Chip :=
  if codeCls m.code = 3 then (if esc then s.latch3 m.code m.inst else (s.latch3 m.code m.inst).f3Now m).f3Stop
  else if codeCls m.code = 4 then s.safeState m.code m.inst
  else s

/-- A fault of class F1 to F4 is held and acted on: a repeat counts in OCC; an F4 is latched before anything else (R345, R346, R350, R357). -/
def Chip.fltHold (s : Chip) (m : FaultMsg) (esc : Bool) : Chip :=
  let same := if esc then none else s.heldSlots.find? fun i => s.get (FLT.ENT0_CODE i) == m.code && s.get (FLT.ENT0_INST i) == m.inst
  match same with
  | some i => (s.inc (FLT.ENT0_OCC i)).fltAct m esc
  | none =>
    match (List.range 64).find? fun i => s.get (FLT.ENT0_STATE i) == 0 with
    | some i => ((s.entTake i m esc).faultRecord m esc).fltAct m esc
    | none =>
      if codeCls m.code = 1 then s.fltOver.faultRecord m esc
      else if codeCls m.code = 2 then
        match s.oldestF1 with
        | some i => (((s.entFree i).fltOver).entTake i m esc).faultRecord m esc
        | none => (s.faultRecord m esc).escalated { m with code := codeWith m.code 3 }
      else (s.faultRecord m esc).fltAct m esc

/-- A fault message at the collector, classed one higher in guarded operation (R344 to R348, R357). -/
def Chip.collect (s : Chip) (m : FaultMsg) : Chip :=
  let t := s.event FLT.EVT_RAISEF FLT.EVTCNT_RAISECNT 0
  let cls := codeCls m.code
  if cls = 0 then t.f0Log m
  else if t.bit FLT.STAT_GUARD && decide (cls ≤ 3) && t.unacked cls then (t.fltHold { m with code := codeWith m.code (cls + 1) } true).fltShow
  else (t.fltHold m false).fltShow

/-- The line that a message takes to the collector: an F3 or F4 code its block's own, any other the round-robin port; ports 1 to 7 are the phase dies' and those from 8 the hub blocks', each block the sixteen causes it is given (R344; log entry 200). -/
def FaultMsg.port (m : FaultMsg) : Nat :=
  let c := m.code % 2 ^ 13
  if c = 0x010 then m.inst
  else if c = 0x130 || c = 0x131 || c = 0x140 then m.inst / 32 + 1
  else if c = 0x141 then m.inst / 4 + 1
  else if c = 0x400 && decide (8 ≤ m.inst) then (m.inst - 8) / 4 + 1
  else 8 + c / 16

/-- A message of class F3 or F4 takes the fast path (R344). -/
def FaultMsg.fast (m : FaultMsg) : Bool := decide (3 ≤ codeCls m.code)

/-- Two messages share a channel to the collector (R39, R344). -/
def FaultMsg.shares (m l : FaultMsg) : Bool := m.port == l.port && m.fast == l.fast

/-- The port whose turn it is at the collector, of those at which a message waits (R49, R344). -/
def Chip.faultTurn (s : Chip) : Option Nat :=
  roundRobin 520 s.flt.port fun p => s.faultQ.any fun m => !m.fast && m.port == p

/-- The k-th waiting message may reach the collector: it is the first of its channel and, on the round-robin port, its requester has the turn (R39, R344). -/
def Chip.postMay (s : Chip) (k : Nat) : Bool :=
  match s.faultQ[k]? with
  | some m => (s.faultQ.take k).all (fun l => !l.shares m) && (m.fast || s.faultTurn == some m.port)
  | none => false

/-- FAULT_POST: the k-th waiting message reaches the collector (R344). -/
def Chip.faultPost (s : Chip) (k : Nat) : Chip :=
  match s.faultQ[k]? with
  | some m =>
    if s.domOn .core && s.postMay k then
      (if m.fast then { s with faultQ := s.faultQ.eraseIdx k }
       else { s with faultQ := s.faultQ.eraseIdx k, flt := { s.flt with port := (m.port + 1) % 520 } }).collect m
    else s
  | none => s

/-- A stop whose SAFETO has run out (R349, R350, R367). -/
def Chip.stopLate (s : Chip) (o : Option FaultStop) : Bool := match o with
  | some x => !x.done && decide (x.since + 1000 * orOne (s.get FLT.CFG_SAFETO) ≤ s.now)
  | none => false

/-- SAFETO_EXPIRE: every powered die's trip wire is asserted and every XEN deasserted, and the stop goes on as at ALLOFF (R349, R350). -/
def Chip.safetoExpire (s : Chip) : Chip :=
  if (s.stopLate s.flt.stop3 || s.stopLate s.flt.stopS) && !s.inHoldup then
    ((s.forEach (allDies.filter s.dieOn) fun n t => t.setTripWire n true).xenOff).stopsEnd (s.stopLate s.flt.stop3) (s.stopLate s.flt.stopS)
  else s

/-- ESCALATION_EXPIRE: the timer of entry i has run out (R352, R364, R367). -/
def Chip.escalationExpire (s : Chip) (i : Nat) : Chip :=
  match (s.ents.get i).timer with
  | some a =>
    if decide (a + 10 * clampN 1 10000 (s.get FLT.CFG_ESCT) ≤ s.now) && !s.inHoldup then
      let code := codeWith (s.get (FLT.ENT0_CODE i)) 3
      let t := (s.put (FLT.ENT0_CODE i) code).put (FLT.ENT0_ESC i) 1
      ({ t with ents := t.ents.upd i fun h => { h with timer := none, escAt := some t.now } }.escalated ⟨code, s.get (FLT.ENT0_INST i), (s.ents.get i).detail⟩).fltShow
    else s
  | none => s

/-- The result of a request that names a slot and a code: none where it may go ahead. An acknowledge that still names the class F2 of an entry which its timer has escalated at this count came too late (R354, R365; log entry 180). -/
def Chip.ackRefusal (s : Chip) (op slot code : Nat) : Option Nat :=
  let held := s.get (FLT.ENT0_CODE slot)
  let st := s.get (FLT.ENT0_STATE slot)
  if op ≠ 2 && st ≠ 0 && code = codeWith held 2 && (s.ents.get slot).escAt = some s.now then some 5
  else if st = 0 || held ≠ code then some 2
  else if 3 ≤ codeCls held then some 5
  else if op = 2 && codeCls held = 2 && st ≠ 2 then some 4
  else if op ≠ 1 && s.faultCond held (s.get (FLT.ENT0_INST slot)) then some 3
  else none

/-- A request of FLT.ACK: `op` 1 acknowledges, 2 clears, 3 does both, and the acknowledge of 3 stands when its clear is refused (R353, R354, R368). -/
def Chip.ackRequest (s : Chip) (op slot code : Nat) : Chip :=
  if op = 0 then s
  else
    let no := s.ackRefusal op slot code
    let ack := op ≠ 2 && (no = none || no = some 3)
    let t := if ack then { s.put (FLT.ENT0_STATE slot) 2 with ents := s.ents.upd slot fun h => { h with timer := none } } else s
    let t := if op ≠ 1 && no = none then t.entFree slot else t
    let t := ((t.put FLT.ACKST_RES (no.getD 1)).put FLT.ACKST_SLOT slot).put FLT.ACKST_CODE code
    (if no = none then t else t.event FLT.EVT_REFF FLT.EVTCNT_REFCNT 2).fltShow

/-- A write of FLT.GUARD (R356, R367). -/
def Chip.guardWrite (s : Chip) (test fin : Bool) : Chip :=
  let t := (s.putB FLT.GUARD_TEST test).guardTest
  if fin then (t.guardClose 1).guardClose 2 else t

/-- COLLECTOR_COMPARE: a mismatch of the two copies enters the safe state at once; one that an injection makes does not (R358, R359). -/
def Chip.collectorCompare (s : Chip) (mismatch : Bool) : Chip :=
  if !s.domOn .core then s
  else
    let t := s.checkMade 10 mismatch
    if mismatch then t.collect ⟨0x8600, 0, 0⟩ else t

/-- FAULT_INJECT: a write of FLT.INJ with GO = 1. Whether the checker will report is a free value (R359, R360; log entry 7). -/
def Chip.faultInject (s : Chip) (tgt : Nat) : Chip :=
  if 10 < tgt || s.flt.inj.isSome then (s.put FLT.INJ_RESULT 5).event FLT.EVT_INJF FLT.EVTCNT2_INJCNT 4
  else
    let t := (s.put FLT.INJ_RESULT 1).put FLT.INJ_ARMED 1
    ((t.fltUpd fun h => { h with inj := some (tgt, s.freeVal % 2 == 0, s.now) }).freeNext).guardTest

/-- INJECTION_NOT_EXERCISED: no check within 10 ms of arming (R360). -/
def Chip.injectionIdle (s : Chip) : Chip :=
  match s.flt.inj with
  | some (_, _, a) => if a + 10000 ≤ s.now then s.injEnd 4 else s
  | none => s

/-- SOFTWARE_RAISE: a write of FLT.SWRAISE with GO = 1; class F3 is refused (R361, R370). -/
def Chip.softRaise (s : Chip) (cls inst num : Nat) : Chip :=
  if cls = 3 then s else s.raise ⟨codeWith (0x1f00 + num) cls, inst, 0⟩

/-- A write of FLT.CSREQ with GO = 1: a wrong KEY and a request in hold-up are ignored (R362). -/
def Chip.coldAsk (s : Chip) (key : Nat) : Chip :=
  if key = 0xc5a7 && !s.inHoldup then s.fltUpd fun h => { h with coldHeld := true } else s

/-- A requested cold start may begin (R362). -/
def Chip.coldDue (s : Chip) : Bool := s.flt.coldHeld && !s.stopRunning

end Sys2Proof.Machine
end

