-- ==== Sys2Proof/Machine/Domains.lean ====
section
/-! DEFINITION. What a loss of the switched domains leaves, and their power-up (R30 to R32, R459). -/

namespace Sys2Proof.Machine

/-- Bits of PWR.DOMSTAT for CORE, POL, HOST, NVM and HKA (R36). -/
def Chip.domsPut (s : Chip) (on : Bool) : Chip :=
  ((((s.putB PWR.DOMSTAT_CORE on).putB PWR.DOMSTAT_POL on).putB PWR.DOMSTAT_HOST on).putB PWR.DOMSTAT_NVM on).putB PWR.DOMSTAT_HKA on

/-- What a device whose switched domains are all off still holds: AON and the non-volatile boot values (R30, R32). -/
def Chip.aonOnly (s : Chip) : Chip :=
  { regs := (s.resetRegs fun d => d != .aon).regs
    time := s.time
    power := { s.power with isolated := false }
    undet := s.undet
    outbox := s.outbox
    freeCtr := s.freeCtr
    boot := s.boot
    therm := { times := s.therm.times, hub := s.therm.hub, coolAt := s.therm.coolAt } }

/-- Every switched domain is isolated and powered down; a confirmation that a window pair waits for ends with its converter, and a shorted FET stays so until VAUX33 is removed (R30, R32, R249, R296; log entry 40). -/
def Chip.switchedOff (s : Chip) : Chip :=
  let t := (s.aonOnly.domsPut false).diesIsolate
  let t := if s.hswState = 6 then (t.put HSW.STAT_STATE 6).put HSW.STAT_CAUSE 8 else t
  t.confLost.fltShow

/-- CORE, HKA, NVM, HOST and POL come up with every register at its reset value (R31 steps 2 to 6, R459). -/
def Chip.switchedOn (s : Chip) : Chip := ((s.switchedOff.put PWR.DOMSTAT_HOLDUP 0).domsPut true).fltShow

end Sys2Proof.Machine
end

