-- ==== Sys2Proof/Machine/Thermal.lean ====
section
/-! DEFINITION. Thermal management: the cross-check and the hardware shutdown (R375 to R384). -/

namespace Sys2Proof.Machine

/-- Every hub sensor that is not masked reads below 120 °C (R379). -/
def Chip.hubCool (s : Chip) : Bool :=
  (List.range 8).all fun i => bitAt (s.get THMA.SDMASK_MASK) i || decide (signedOf 12 (s.therm.hub.getD i 0) < 960)

/-- Shut down turns into cooling, and back (R379). -/
def Chip.coolJudge (s : Chip) : Chip :=
  if s.hubCool then
    if s.get THMA.SDSTAT_STATE = 1 then (s.put THMA.SDSTAT_STATE 2).thermUpd fun h => { h with coolAt := s.now } else s
  else s.put THMA.SDSTAT_STATE 1

/-- SENSOR_READING: sensor i reads `v`, Q9.3 °C in 12 bits (R373, R374, R376, R379, R381). -/
def Chip.sensorReading (s : Chip) (i v : Nat) : Chip :=
  if !s.sensUp i then s
  else
    let s := if i < 8 then s.thermUpd fun h => { h with hub := h.hub.set i v } else s
    if s.get THMA.SDSTAT_STATE ≠ 0 then s.coolJudge
    else if !s.domOn .core || s.inHoldup then s
    else
      let t := s.put (THM.SENS_TEMP i) v
      let t := if t.sensBroken i then t else (t.put (THM.SENS_USED i) v).put (THM.SENS_VALID i) 1
      let brk := (List.range 36).filter fun j => t.sensBroken j &&
        ([THM.NBR_NBR0 j, THM.NBR_NBR1 j, THM.NBR_NBR2 j, THM.NBR_NBR3 j].any (fun f => t.get f % 64 == i && decide (128 ≤ t.get f)) || (t.sensNbrs j).isEmpty)
      let t := t.forEach brk fun j u => u.estimate j
      (t.forEach (i :: brk) fun j u => if u.bit (THM.SENS_VALID j) then u.sensWarn j else u).windowJudge

/-- How far sensor i deviates from its neighbours, as a numerator over their number; none where it is not judged (R375). -/
def Chip.sensDev (s : Chip) (i : Nat) : Option (Int × Nat) :=
  let l := s.sensNbrs i
  if s.sensCounts i && decide (2 ≤ l.length) then some (|s.getS (THM.SENS_TEMP i) * l.length - s.usedSum l|, l.length) else none

/-- The judged sensor with the largest deviation above XTHR; ties go to the lower number (R375). -/
def Chip.sensWorst (s : Chip) : Option Nat :=
  ((List.range 36).foldl (fun (b : Option (Nat × Int × Nat)) i =>
    match s.sensDev i with
    | none => b
    | some (n, d) =>
      if n ≤ s.get THM.CFG_XTHR * d then b
      else match b with
        | none => some (i, n, d)
        | some (_, n', d') => if n' * d < n * d' then some (i, n, d) else b) none).map (·.1)

/-- A sensor is marked broken (R375, R377). -/
def Chip.sensMark (s : Chip) (i : Nat) : Chip :=
  let l := s.sensNbrs i
  let mean := bitsOf 12 (rne (s.usedSum l) (max 1 l.length))
  let t := (s.put (THM.SENS_BRK i) 1).event THM.EVT_BRKF THM.EVTCNT_BRKCNT 0xa
  let t := if i < 32 then t.put THM.BRK0_BRK (setBitAt (t.get THM.BRK0_BRK) i true) else t.put THM.BRK1_BRK (setBitAt (t.get THM.BRK1_BRK) (i - 32) true)
  let t := if i < 8 then t.put THMA.SDMASK_MASK (setBitAt (t.get THMA.SDMASK_MASK) i true)
    else t.put (THMD.DSTAT_MASK (sensDie i)) (setBitAt (t.get (THMD.DSTAT_MASK (sensDie i))) ((i - 8) % 4) true)
  let t := (t.raise ⟨0x2400, i, BitVec.ofNat 32 (t.get (THM.SENS_TEMP i) * 2 ^ 16 + mean)⟩).estimate i
  (if t.bit (THM.SENS_VALID i) then t.sensWarn i else t).windowJudge

/-- CROSS_CHECK_ROUND, XINT ms after the one before: at most one sensor is marked, and no more than half the sensors of a die (R375; log entry 181). -/
def Chip.crossCheck (s : Chip) : Chip :=
  if !s.domOn .core || s.inHoldup || !s.bit THM.CFG_XCHK || decide (s.now < s.therm.roundAt + 1000 * orOne (s.get THM.CFG_XINT)) then s
  else
    let t := s.thermUpd fun h => { h with roundAt := s.now }
    match t.sensWorst with
    | none => t
    | some i =>
      let die := dieSens (sensDie i)
      if die.length ≤ 2 * (die.filter t.sensBroken).length then t.inc THM.EVTCNT_BRKCNT else t.sensMark i

/-- Whether a sensor trips the shutdown: its comparator, which a broken sensor lacks, or a broken sensor's estimate of 145 °C (R377). -/
def Chip.sensTrips (s : Chip) (i : Nat) : Bool :=
  if s.sensBroken i then s.bit (THM.SENS_VALID i) && decide (1160 ≤ s.sensUsed i)
  else if i < 8 then s.power.aon && !bitAt (s.get THMA.SDMASK_MASK) i else s.dieOn (sensDie i)

/-- AON's record of a shutdown; the third within 24 hours writes the F4 latch (R378, R380). -/
def Chip.sdRecord (s : Chip) (i : Nat) : Chip :=
  let ts := (s.now :: s.therm.times).take 3
  let n := (ts.filter fun a => decide (s.now ≤ a + 86400000000)).length
  let t := ((((s.put THMA.SDSTAT_INST i).inc THMA.SDSTAT_SDTOT).put THMA.SDSTAT_N24 n).put THMA.SDSTAT_STATE 1).put THMA.BUFLOST_LOST s.store.logBuf.length
  let t := (t.put THMA.SDTIME_LO_SDTL t.nowLo).put THMA.SDTIME_HI_SDTH (t.now / 2 ^ 32)
  let t := t.thermUpd fun h => { h with times := ts }
  if n = 3 && !t.f4Held then t.latch4 0x8402 0 else t

/-- The instance of a shutdown by sensor i: the sensor of the hub, the lowest-numbered sensor of the die, or the broken sensor itself (R378). -/
def Chip.sdInst (s : Chip) (i : Nat) : Nat := if i < 8 || s.sensBroken i then i else 8 + 4 * (sensDie i - 1)

/-- THERMAL_SHUTDOWN by sensor i: AON's record, and every domain but AON goes down; in hold-up, hold-up goes on (R378, R384). -/
def Chip.thermalShutdown (s : Chip) (i : Nat) : Chip :=
  if !s.power.aon || s.get THMA.SDSTAT_STATE ≠ 0 || !s.sensTrips i then s
  else if s.inHoldup then (s.sdRecord (s.sdInst i)).fltShow
  else (s.sdRecord (s.sdInst i)).switchedOff

/-- 100 ms of cooling have passed: a cold start may begin (R379, R384). -/
def Chip.coolDone (s : Chip) : Bool :=
  s.power.aon && s.power.vaux && !s.inHoldup && s.get THMA.SDSTAT_STATE == 2 && s.hubCool && decide (s.therm.coolAt + 100000 ≤ s.now)

end Sys2Proof.Machine
end

