-- ==== Sys2Proof/Machine/Nvm.lean ====
section
/-! DEFINITION. The non-volatile memory: its layout, reads and writes, the log area, commit records and the writers' order at the port (R485 to R495). -/

namespace Sys2Proof.Machine

/-- The areas of R487. -/
def slotBase (s : Nat) : Nat := 0x200000 * s
def logBase : Nat := 0x400000
def mapBase : Nat := 0x800000
def mapChkBase : Nat := 0x9c0000
def bankBase (b : Nat) : Nat := 0x9d0000 + 0x20000 * b
def journalBase : Nat := 0xa10000
def identityBase : Nat := 0xa20000
def bootBase : Nat := 0xa30000
def smStageBase : Nat := 0xa40000

/-- The byte at an address. -/
def nvmByte (m : List Host.Cell) (a : Nat) : Byte := cellsGet blankByte m a

/-- `n` bytes from an address. -/
def nvmBytes (m : List Host.Cell) (a n : Nat) : List Byte := (List.range n).map fun i => nvmByte m (a + i)

/-- `n` bytes from an address as a number (R8). -/
def nvmNum (m : List Host.Cell) (a n : Nat) : Nat := natLE (nvmBytes m a n)

/-- Writes bytes from an address. -/
def nvmWrite (m : List Host.Cell) (a : Nat) : List Byte → List Host.Cell
  | [] => m
  | b :: bs => nvmWrite (cellsSet blankByte m a b) (a + 1) bs

/-- Whether a byte of an area differs from a blank memory. -/
def nvmUsed (m : List Host.Cell) (a n : Nat) : Bool := m.any fun c => decide (a ≤ c.1) && decide (c.1 < a + n)

/-- Bytes cut into pieces that each lie in one 64-byte line (R488). -/
def linesOf : Nat → Nat → List Byte → List NvmLine
  | 0, _, _ => []
  | n + 1, a, l => if l.isEmpty then [] else
    let k := 64 - a % 64
    ⟨a, l.take k⟩ :: linesOf n (a + k) (l.drop k)

def lines (a : Nat) (l : List Byte) : List NvmLine := linesOf (l.length / 64 + 2) a l

/-- The log slots that hold anything, and whether a slot's record is whole (R495; log entry 34). -/
def logSlots (m : List Host.Cell) : List Nat :=
  ((m.filter fun c => decide (logBase ≤ c.1) && decide (c.1 < mapBase)).map fun c => (c.1 - logBase) / 64).dedup

def logLine (m : List Host.Cell) (slot : Nat) : List Byte := nvmBytes m (logBase + 64 * slot) 64

def lineWhole (l : List Byte) : Bool := (crc32c (l.take 60)).toNat == fieldLE l 60 4

/-- The valid records: their slots and lines. -/
def logValid (m : List Host.Cell) : List (Nat × List Byte) :=
  ((logSlots m).map fun i => (i, logLine m i)).filter fun x => lineWhole x.2

/-- A record's sequence number. -/
def lineSeq (l : List Byte) : Nat := fieldLE l 0 4

/-- A sequence number comes after another; the numbers wrap at 2^32 (R492). -/
def seqAfter (a b : Nat) : Bool := a != b && decide ((a + 2 ^ 32 - b) % 2 ^ 32 < 2 ^ 31)

/-- The valid record with the highest SEQ, across the wrap of the numbers (R492, R495). -/
def logNewest (m : List Host.Cell) : Option (Nat × List Byte) :=
  (logValid m).foldl (fun b x => match b with
    | none => some x
    | some y => if seqAfter (lineSeq x.2) (lineSeq y.2) then some x else some y) none

/-- The oldest record present, by age below the newest. -/
def logOldest (m : List Host.Cell) (newest : Nat) : Nat := (logValid m).foldl (fun a x => max a ((newest + 2 ^ 32 - lineSeq x.2) % 2 ^ 32)) 0

/-- The log writer takes up the log: its head, the oldest record, and the torn ones it skipped (R495, R501). -/
def Chip.logOpen (s : Chip) (m : List Host.Cell) : Chip :=
  let v := logValid m
  let torn := (logSlots m).length - v.length
  let (slot, seq) := match logNewest m with | some x => ((x.1 + 1) % 65536, (lineSeq x.2 + 1) % 2 ^ 32) | none => (0, 0)
  let old := match logNewest m with | some x => (lineSeq x.2 + 2 ^ 32 - logOldest m (lineSeq x.2)) % 2 ^ 32 | none => 0
  let t := { s with store := { s.store with logSlot := slot } }
  let t := (t.put NVM.LOGHEAD_SEQ seq).put NVM.LOGOLD_SEQ old
  if torn = 0 then t else ((t.flag NVM.EVT_TORNF).add NVM.EVTCNT_TORNCNT torn).bellTimes 0x1e9 torn

/-- A record is written: its line, and the log as it then stands (R492, R495). -/
def Chip.logLineOf (s : Chip) (r : LogRec) : NvmLine :=
  let fl := if s.inHoldup && r.flags / 4 % 2 == 0 then r.flags + 4 else r.flags
  ⟨logBase + 64 * s.store.logSlot, { r with flags := fl }.line (s.get NVM.LOGHEAD_SEQ) (s.get SEC.CSCNT_COUNT)⟩

def Chip.logAdvance (s : Chip) : Chip :=
  let seq := s.get NVM.LOGHEAD_SEQ
  let t := { s with store := { s.store with logSlot := (s.store.logSlot + 1) % 65536 } }
  let t := t.put NVM.LOGHEAD_SEQ (seq + 1)
  let old := t.get NVM.LOGOLD_SEQ
  if seq % 2 ^ 32 = old then t
  else if 65536 ≤ (seq + 2 ^ 32 - old) % 2 ^ 32 then t.put NVM.LOGOLD_SEQ (seq + 2 ^ 32 - 65535) else t

/-- A valid commit record of the journal: its slot, and its bytes (R487). -/
def journalRec (m : List Host.Cell) (i : Nat) : Option (Nat × List Byte) :=
  let a := journalBase + 0x800 * i
  if !nvmUsed m a 0x544 then none
  else
    let l := nvmBytes m a 0x544
    if (crc32c (l.take 0x500)).toNat = fieldLE l 0x500 4 then some (i, l) else none

/-- The record with the highest epoch, which defines the committed configuration (R487). -/
def journalNewest (m : List Host.Cell) : Option (Nat × List Byte) :=
  ((List.range 32).filterMap (journalRec m)).foldl (fun b x => match b with
    | none => some x
    | some y => if fieldLE y.2 0 8 < fieldLE x.2 0 8 then some x else some y) none

/-- Whether the memory may be written now: it answers, and the write window is open (R381, R490). -/
def Chip.nvmReady (s : Chip) : Bool := s.domOn .core && s.domOn .nvm && s.bit THM.STAT_WINOPEN

/-- The lines that wait (R501). -/
def Chip.nvmLines (s : Chip) : Nat := s.store.jobs.foldl (fun n j => n + j.lines.length) s.logWaiting.length

/-- The first job of a writer. -/
def Chip.jobOf (s : Chip) (w : Writer) : Option NvmJob := s.store.jobs.find? fun j => j.writer == w

/-- Since when a writer's line in front waits; none when it has none. In hold-up the log writer's records come first, and then the health map's tiles (R311). -/
def Chip.waits (s : Chip) : Writer → Option Nat
  | .log => if s.logWaiting.isEmpty || s.store.logFailed then none else some s.store.logSince
  | w => if s.inHoldup && w != .map then none else (s.jobOf w).map (·.since)

/-- The writer that the port serves next: fixed priority, and a request that has waited 100 µs at the top, the longest wait first; in hold-up the order of the list stands (R311); a line whose write failed is tried again (R49, R488). -/
def Chip.nextWriter (s : Chip) : Option Writer :=
  let ws := [Writer.log, .tile, .map, .image, .boot].filterMap fun w => (s.waits w).map fun a => (w, a)
  match s.store.trying with
  | some w => some w
  | none =>
    match ws.foldl (fun (b : Option (Writer × Nat)) x =>
        if s.inHoldup || decide (s.now < x.2 + 100) then b else match b with
          | none => some x
          | some y => if x.2 < y.2 then some x else some y) none with
    | some x => some x.1
    | none => ws.head?.map (·.1)

/-- The lines of the writers that can form a burst: the log only while it drains after the window reopened, and boot control never (R489). -/
def Chip.burstLines (s : Chip) : Nat :=
  (s.store.jobs.filter fun j => j.writer != .boot).foldl (fun n j => n + j.lines.length) (if s.store.drainOwed then s.logWaiting.length else 0)

/-- Whether one writer's queued lines exceed BURSTTH × 64 (R489). -/
def Chip.burstDue (s : Chip) : Bool :=
  let th := 64 * orOne (s.get NVM.CFG_BURSTTH)
  (s.store.drainOwed && decide (th < s.logWaiting.length)) ||
    [Writer.tile, .map, .image].any fun w =>
      decide (th < (s.store.jobs.filter fun j => j.writer == w).foldl (fun n j => n + j.lines.length) 0)

def Chip.storeUpd (s : Chip) (f : StoreHw → StoreHw) : Chip := { s with store := f s.store }

/-- A burst asks for leave, only while the input is ON; it ends its leave once nothing waits (R305, R489). -/
def Chip.burst (s : Chip) : Chip :=
  Chip.cmtWindow <| match s.store.leave with
  | .none =>
    if s.inputOn && s.burstDue then
      (s.storeUpd fun h => { h with leave := .asked }).ask ⟨.nvm, s.get BUD.NVMCFG_PEAKW, orOne (s.get BUD.NVMCFG_DUR), s.get BUD.PRIO_NVM⟩
    else s
  | .held => if s.burstLines = 0 then ((s.storeUpd fun h => { h with leave := .none }).put NVM.STAT_LEAVE 0).askDone .nvm else s
  | .asked => if s.burstLines = 0 then (s.storeUpd fun h => { h with leave := .none }).askDrop .nvm else s
  | .refused => if s.burstLines = 0 then s.storeUpd fun h => { h with leave := .none } else s

/-- Leave for a burst is granted (R489). One that nothing needs any more ends at once. -/
def Chip.burstGranted (s : Chip) : Chip :=
  if s.store.leave = .asked then ((s.storeUpd fun h => { h with leave := .held }).put NVM.STAT_LEAVE 1).cmtWindow else s.askDone .nvm

/-- A job joins the port's queue. -/
def Chip.jobAdd (s : Chip) (w : Writer) (k : JobKind) (l : List NvmLine) : Chip :=
  (s.storeUpd fun h => { h with jobs := h.jobs ++ [⟨w, k, l, s.now⟩] }).burst

/-- Whether the port's rate lets it write a line now: without leave, and while the input is ON, one line per 4 µs (R489). -/
def Chip.rateOk (s : Chip) : Bool :=
  s.store.leave == .held || !s.inputOn || s.inHoldup || (match s.store.lineAt with | some a => decide (a + 4 ≤ s.now) | none => true)

/-- The health-map tile's bytes as they stand in its die's working copy (R170, R172). -/
def Chip.tileBytes (s : Chip) (t : Nat) : List Byte := (List.range 256).map fun b => s.mapBytes.get (256 * t + b)

/-- The lines of a health-map tile: its payload and its check word (R487). -/
def mapLines (t : Nat) (pl : List Byte) : List NvmLine :=
  lines (mapBase + 256 * t) pl ++ lines (mapChkBase + 4 * t) (bytesLE 4 (crc32c pl).toNat)

end Sys2Proof.Machine
end

