-- ==== Sys2Proof/Machine/Cmds.lean ====
section
/-! DEFINITION. Taking a command from a ring, and its completion (R416, R417, R420 to R424). -/

namespace Sys2Proof.Machine

def Chip.ringUpd (s : Chip) (r : Nat) (f : RingHw → RingHw) : Chip := { s with rings := s.rings.upd r f }

/-- The command rings. -/
def cmdRings : List Nat := [0, 1, 2, 3, 4, 5, 6, 7]

/-- Ring k has a command that may be fetched: the ring runs, nothing of it is in progress, and its completion ring has a slot (R421, R429). -/
def Chip.cmdWork (s : Chip) (k : Nat) : Bool :=
  let cpl := 8 + s.get (RING.CFG_CPLSEL k)
  s.bit HIF.STAT_LINKUP && s.inD0 && s.ringRuns k && (s.rings.get k).busy.isNone && s.get (RING.HIDX_HIDX k) != s.get (RING.DIDX_DIDX k)
    && s.ringRuns cpl && !s.ringFull cpl

/-- The ring that the fetcher takes from next: the one it visits, up to FBURST descriptors, and then the next that has work (R421). -/
def Chip.cmdTurn (s : Chip) : Option Nat :=
  let v := s.hif.visit
  if decide (s.hif.fetched < orOne (s.get (RING.CFG_FBURST v))) && s.cmdWork v then some v else roundRobin 8 (v + 1) s.cmdWork

/-- The command at the head of ring k may be fetched and carried out: it is the ring's turn, and with FENCE no ring has a command in progress (R421). -/
def Chip.cmdReady (s : Chip) (k : Nat) (fence : Bool) : Bool :=
  s.cmdTurn == some k && (!fence || cmdRings.all fun j => (s.rings.get j).busy.isNone)

/-- A command with FENCE whose turn it is waits for the commands in progress, and the fetcher goes on to the other rings (R421; log entry 183). -/
def Chip.cmdPass (s : Chip) (k : Nat) (fence : Bool) : Chip :=
  if fence && s.cmdTurn == some k then { s with hif := { s.hif with visit := k, fetched := 16 } } else s

/-- The descriptor of a command as 64 bytes (R422). -/
def cmdBytes (c : Cmd) (op : Nat) : List Byte :=
  padTo 64 (bytesLE 1 op ++ bytesLE 1 c.flags.toNat ++ bytesLE 2 c.tag.toNat ++ bytesLE 4 c.target.toNat ++ c.args)

/-- ARGS bytes `o` to `o + n - 1` of the descriptor, by their place in it (R422). -/
def cmdArg (c : Cmd) (o n : Nat) : Nat := fieldLE c.args (o - 8) n

/-- A command is fetched: its index, its count, the write-back word and its completion slot (R418, R421, R448). -/
def Chip.cmdFetch (s : Chip) (c : Cmd) (op : Nat) : Chip :=
  let k := c.ring.val
  let cpl := s.get (RING.CFG_CPLSEL k)
  let t := (s.incWrap (RING.DIDX_DIDX k)).incWrap (RING.CNT_CNT k)
  let t := t.out (.hostRead (s.entryAddr k (s.get (RING.DIDX_DIDX k))) 64)
  let t := (t.out (.writeback k (s.backAddr k) (t.get (RING.DIDX_DIDX k)))).fullShow k
  let on := s.hif.visit == k && decide (s.hif.fetched < orOne (s.get (RING.CFG_FBURST k)))
  let t := { t with hif := { t.hif with visit := k, fetched := if on then s.hif.fetched + 1 else 1 } }
  let b : HostCmd := { opcode := op, tag := c.tag.toNat, nocpl := c.flags.getLsbD 0, irq := c.flags.getLsbD 2, cpl := Fin.ofNat 8 cpl, desc := cmdBytes c op, since := s.now }
  let t := t.ringUpd k fun h => { h with busy := some b }
  (t.ringUpd (8 + cpl) fun h => { h with reserved := h.reserved + 1 }).fullShow (8 + cpl)

/-- A completion entry (R423); PHASE comes when it is written. -/
def Chip.cplEntry (s : Chip) (c : HostCmd) (k status detail : Nat) (data : List Byte) : List Byte :=
  bytesLE 1 c.opcode ++ bytesLE 1 status ++ bytesLE 2 c.tag ++ bytesLE 1 k ++ [0] ++ bytesLE 1 detail ++ [0] ++ bytesLE 8 s.now ++ padTo 48 data

/-- The command in progress of ring k ends: its slot is released, and its completion is written unless NOCPL spares a success or the link has been lost since (R416, R421 to R423, R434). -/
def Chip.cmdDone (s : Chip) (k status detail : Nat) (data : List Byte) : Chip :=
  match (s.rings.get k).busy with
  | none => s
  | some c =>
    let cpl := 8 + c.cpl.val
    let t := s.ringUpd k fun h => { h with busy := none }
    let t := if t.get (RING.STAT_STATE k) = 2 then t.put (RING.STAT_STATE k) 0 else t
    if c.dead then (if c.nocpl && status == 0 then t else t.inc HIF.LOST_CPLLOST)
    else
      let t := (t.ringUpd cpl fun h => { h with reserved := h.reserved - 1 }).fullShow cpl
      if c.nocpl && status == 0 then t else t.completionPut c.cpl.val (s.cplEntry c k status detail data) c.irq

/-- Whether a completion takes its final form at once: maintenance hold and the safe state (R424, R425, R464). -/
def Chip.inHold (s : Chip) : Bool := s.bit FW.STAT_HOLD
def Chip.inSafe (s : Chip) : Bool := s.bit FLT.STAT_SAFE

/-- Whether the reserved bytes of a command are 0: FLAGS bits 7:3, and every ARGS byte outside `used`, a list of places and lengths in the descriptor (R422). -/
def cmdClean (c : Cmd) (used : List (Nat × Nat)) : Bool :=
  decide (c.flags.toNat < 8) &&
    (List.range 56).all fun i => (c.args.getD i 0) == 0 || used.any fun u => decide (u.1 ≤ i + 8) && decide (i + 8 < u.1 + u.2)

/-- A ring command: it waits unless it may be fetched; a reserved byte or a bad target completes it with 0x02; else `f` carries it out (R421 to R424). -/
def Chip.command (s : Chip) (c : Cmd) (op : Nat) (used : List (Nat × Nat)) (targetOk : Bool) (f : Chip → Nat → Chip) : Chip :=
  if !s.cmdReady c.ring.val (c.flags.getLsbD 1) then s.cmdPass c.ring.val (c.flags.getLsbD 1)
  else
    let t := s.cmdFetch c op
    if cmdClean c used && targetOk then f t c.ring.val else t.cmdDone c.ring.val 0x02 0 []

end Sys2Proof.Machine
end

