-- ==== Sys2Proof/Machine/Tiles.lean ====
section
/-! DEFINITION. Tiles: kinds and positions, the configuration a table gives, its digest, and staging (R478 to R484, R487). -/

namespace Sys2Proof.Machine

/-- The position of a tile in the configuration table (R483). -/
def tilePos (kind index : Nat) : Option Nat :=
  if kind = 1 && index < 128 then some index
  else if kind = 2 && index < 8 then some (128 + index)
  else if kind = 3 && index < 9 then some (136 + index)
  else if kind = 4 && index < 64 then some (145 + index)
  else none

/-- The kind of the tile at a position, and its index (R483). -/
def posTile (pos : Nat) : Nat × Nat :=
  if pos < 128 then (1, pos) else if pos < 136 then (2, pos - 128) else if pos < 145 then (3, pos - 136) else (4, pos - 145)

/-- The header of R479 names this kind and index, and its reserved bytes are 0; COUNT is one in the kinds that have no pairs (R484 reason 0x12). -/
def headerOk (pl : List Byte) (kind index : Nat) : Bool :=
  fieldLE pl 0 1 == kind && fieldLE pl 1 1 == 1 && fieldLE pl 2 2 == index && (kind == 4 || fieldLE pl 4 1 == 0)
    && fieldLE pl 5 3 == 0 && fieldLE pl 12 4 == 0

/-- The bits of a register that fields of some access codes take. -/
def accMask (o : Nat) (p : Acc → Bool) : Word :=
  match regAt o with
  | some (_, r) => (r.fields.filter fun f => p f.acc).foldl (fun m f => m ||| fieldMask f.lo f.width) 0
  | none => 0

/-- The bits that a pair sets, those that a commit alone changes once locked, and those that any field takes (R13, R481). -/
def pairMask (o : Nat) : Word := accMask o fun a => a == .rw || a == .rwl
def lockMask (o : Nat) : Word := accMask o fun a => a == .rwl
def anyMask (o : Nat) : Word := accMask o fun _ => true

/-- A register takes the bits of `m` from `v`. -/
def Chip.setBits (s : Chip) (o : Nat) (m v : Word) : Chip := s.setReg o ((s.reg o &&& ~~~m) ||| (v &&& m))

/-- The words that an entry of a sequence tile gives, with their registers (R319). -/
def seqEntry (s e : Nat) (pl : List Byte) : List (Nat × Word) :=
  let r := 8 * s + e
  [SEQR.CFG r, SEQR.DEP r, SEQR.TIMING r, SEQR.LIMITS r, WMON.THR r, WMON.CFG r].zipIdx.map fun x =>
    (x.1, BitVec.ofNat 32 (fieldLE pl (0x14 + 28 * e + 4 * x.2) 4))

/-- The words that a sequence tile gives. -/
def seqWords (s : Nat) (pl : List Byte) : List (Nat × Word) :=
  (List.range 8).flatMap (fun e => seqEntry s e pl) ++ (if s < 4 then [(SEQD.CFG s, BitVec.ofNat 32 (fieldLE pl 0xf0 4))] else [])

/-- The registers that a converter-sequence tile sets (R230). -/
def convRegs (x : Nat) (pl : List Byte) : List Nat :=
  [SQ.CTRL x, SQ.CALCFG x] ++ (List.range (min 16 (fieldLE pl 0x11 1))).flatMap fun e => [SQ.ENT_CFG x e, SQ.ENT_FILT x e, SQ.ENT_CALOFS x e, SQ.ENT_CALGAIN x e]

/-- The registers that a tile of the table sets. -/
def tileRegs (t : CfgTile) : List Nat :=
  let (kind, i) := posTile t.pos
  if kind = 2 then (seqWords i t.payload).map (·.1)
  else if kind = 3 then convRegs i t.payload
  else if kind = 4 then (tilePairs t.payload).map (·.1)
  else []

/-- A tile's values go into a chip that stands for a configuration. -/
def Chip.cfgTake (c : Chip) (t : CfgTile) : Chip :=
  let (kind, i) := posTile t.pos
  if kind = 2 then (seqWords i t.payload).foldl (fun c x => c.setReg x.1 x.2) c
  else if kind = 3 then c.sqLoad i t.payload
  else if kind = 4 then (tilePairs t.payload).foldl (fun c x => c.setBits x.1 (pairMask x.1) x.2) c
  else c

/-- The registers as a configuration sets them: reset values but for what its tiles give (R481, R508). -/
def cfgRegs (l : List CfgTile) : Chip := l.foldl Chip.cfgTake {}

/-- A configuration with a tile in its place (R483). -/
def cfgPut (l : List CfgTile) (t : CfgTile) : List CfgTile :=
  (l.filter fun x => decide (x.pos < t.pos)) ++ t :: l.filter fun x => decide (t.pos < x.pos)

/-- The tile at a position. -/
def cfgAt (l : List CfgTile) (pos : Nat) : Option CfgTile := l.find? fun x => x.pos == pos

/-- The configuration digest (R469, R483). -/
def cfgDigest (l : List CfgTile) : List Byte := sha384 (l.flatMap fun t => bytesLE 4 t.check.toNat)

/-- A mask with a bit for each position present (R487, R500). -/
def cfgPresent (l : List CfgTile) : Nat := l.foldl (fun m t => m + 2 ^ t.pos) 0

/-- The address of the frame of a position in a bank, and of a segment-map staging frame (R487). -/
def frameAt (bank pos : Nat) : Nat := bankBase bank + 512 * pos
def smFrame (i : Nat) : Nat := smStageBase + 512 * i

/-- A frame's bytes: the payload, the check word, and the epoch of the commit that it is staged for (R487). -/
def frameBytes (pl : List Byte) (check : Word) (epoch : Nat) : List Byte :=
  pl ++ bytesLE 4 check.toNat ++ [0, 0, 0, 0] ++ bytesLE 8 epoch ++ List.replicate 48 0

/-- The frame a staged or committed tile is read from. -/
def frameRead (m : List Host.Cell) (a : Nat) : List Byte × Word := (nvmBytes m a 256, BitVec.ofNat 32 (nvmNum m (a + 256) 4))

/-- A payload matches its check word (R478). -/
def frameOk (f : List Byte × Word) : Bool := crc32c f.1 == f.2

/-- A staging or a commit is running (R484, R485). -/
def Chip.stageBusy (s : Chip) : Bool :=
  s.store.commit.isSome || s.store.jobs.any fun j => match j.kind with
    | .stage .. | .record | .copy _ | .done => true
    | _ => false

/-- Why a staging is refused (R484). -/
def Chip.stageRefusal (s : Chip) (kind index : Nat) (pl : List Byte) (check : Word) : Option Nat :=
  if s.stageBusy then some 0x16
  else if crc32c pl ≠ check then some 0x10
  else if kind = 6 then
    if 7168 ≤ index then some 0x11
    else if (s.store.staged.filter fun t => t.kind == 6).length = 64 && !(s.store.staged.any fun t => t.kind == 6 && t.index == index) then some 0x13
    else none
  else match tilePos kind index with
    | none => some 0x11
    | some _ => if headerOk pl kind index then none else some 0x12

/-- The number of tiles staged is shown (R500). -/
def Chip.stagedShow (s : Chip) : Chip :=
  let maps := (s.store.staged.filter fun t => t.kind == 6).length
  (s.put TILE.STGST_NSM maps).put TILE.STGST_NSTG (s.store.staged.length - maps)

/-- A staging's outcome in STGST (R484, R500). -/
def Chip.stageState (s : Chip) (status reason : Nat) : Chip := (s.put TILE.STGST_STATUS status).put TILE.STGST_REASON reason

/-- Where a tile's frame goes: the bank that the committed tile does not use, or a staging frame (R484, R487). -/
def Chip.stagePlace (s : Chip) (kind index : Nat) : Nat :=
  if kind = 6 then
    match s.store.staged.find? fun t => t.kind == 6 && t.index == index with
    | some t => t.frame
    | none => ((List.range 64).find? fun i => !(s.store.staged.any fun t => t.kind == 6 && t.frame == i)).getD 0
  else
    let pos := (tilePos kind index).getD 0
    256 * (1 - s.store.banks / 2 ^ pos % 2) + pos

/-- The address of a staged tile's frame. -/
def stageAddr (kind frame : Nat) : Nat := if kind = 6 then smFrame frame else frameAt (frame / 256) (frame % 256)

/-- A tile is staged: what was staged in its place goes, and its frame is queued for writing; the answer is the reason of a refusal (R484). -/
def Chip.stageTile (s : Chip) (kind index : Nat) (pl : List Byte) (check : Word) (ring : Option Nat) : Chip × Option Nat :=
  match s.stageRefusal kind index pl check with
  | some r => (s.stageState 3 r, some r)
  | none =>
    let f := s.stagePlace kind index
    let t := s.storeUpd fun h => { h with staged := h.staged.filter fun t => !(t.kind == kind && t.index == index) }
    let t := (t.stagedShow).stageState 1 0
    (t.jobAdd .tile (.stage kind index f ring) (lines (stageAddr kind f) (frameBytes pl check (s.epoch + 1))), none)

/-- The payload in SBUF (R484, R500). -/
def Chip.sbuf (s : Chip) : List Byte := (List.range 64).flatMap fun i => bytesLE 4 (s.reg (TILE.SBUF i)).toNat

/-- STGCTL_GO: SBUF is staged as the named tile, or refused (R484). -/
def Chip.stageGo (s : Chip) (kind index : Nat) : Chip := (s.stageTile kind index s.sbuf (s.reg TILE.SCHK) none).1

/-- Every staged tile is dropped (R484, R485). -/
def Chip.stageDrop (s : Chip) : Chip := (s.storeUpd fun h => { h with staged := [] }).stagedShow

end Sys2Proof.Machine
end

