-- ==== Sys2Proof/Machine/RegEffects.lean ====
section
/-! DEFINITION. What a write of a register's configuration fields does beside the fields: views that follow them, and the registers whose write is an operation of its own (R13, R73, R417, R448, R481). -/

namespace Sys2Proof.Machine

/-- The EID in use and PMB_ALERT_N (R435, R441, R450). -/
def Chip.pmbShow (s : Chip) : Chip :=
  (if s.get PMB.CFG_SEID = 0 then s else s.put PMB.STAT_EID (s.get PMB.CFG_SEID)).pmbAlert

/-- A write of a ring's CFG: EN, VEC and FBURST always, the others only while EN is 0; enabling sets the device's index to 0, and disabling a command ring with a command in progress drains it; a write that would enable a ring of a size out of range is ignored (R417, R434, R448). -/
def Chip.ringCfgWrite (s : Chip) (r : Nat) (w : Word) : Chip :=
  let o := RING.CFG r
  let was := s.bit (RING.CFG_EN r)
  let mask := if was then anyMask o &&& 0x801f0f00#32 else anyMask o &&& 0x7fffffff#32
  let t := s.setBits o mask w
  let n := t.get (RING.CFG_LOG2N r)
  let en := w.getLsbD 31
  if was then
    if en then t
    else t.put (RING.STAT_STATE r) (if r < 8 && (t.rings.get r).busy.isSome then 2 else 0)
  else if !en then t
  else if n < 6 || 16 < n then s
  else
    let t := (((t.put (RING.CFG_EN r) 1).setReg (RING.DIDX r) 0).setReg (RING.HIDX r) 0).put (RING.STAT_STATE r) 1
    (t.ringUpd r fun h => { h with unsig := 0 }).fullShow r

/-- A register of the SEQ.RAIL block, or of WMON, takes a word (R251, R317). -/
def Chip.wmonPut (s : Chip) (o : Nat) (w : Word) : Chip :=
  let r := (o - 0x1000) / 0x20
  if (o - 0x1000) % 0x20 = 0 then s.wmLoad r w (s.reg (WMON.CFG r)) else s.wmLoad r (s.reg (WMON.THR r)) w

/-- The views that follow a register of a phase die (R129, R138, R151, R175). -/
def Chip.dieTouched (s : Chip) (o : Nat) : Chip :=
  let n := (o - dieWindow) / 0x20000 + 1
  let rel := (o - dieWindow) % 0x20000
  if rel < 0x800 then
    let p := 32 * (n - 1) + rel / 0x40
    let t := s.genTouched p
    if rel % 0x40 = 0 then t.genTouched (if p % 2 = 0 then p + 1 else p - 1) else t
  else if rel = 0x800 then s.pinsReread n
  else if 0x1000 ≤ rel && rel < 0x1400 then
    let t := if rel % 0x20 = 0 then (s.roleShow (32 * (n - 1) + (rel - 0x1000) / 0x20)).genTouched (32 * (n - 1) + (rel - 0x1000) / 0x20) else s
    let t := t.forEach (List.range 32) fun k u => u.phStatus k
    t.forEach (List.range 32) fun r u => u.wmWires r
  else if 0x6000 ≤ rel && rel < 0x6100 then s.genTouched (32 * (n - 1) + (rel - 0x6000) / 8)
  else s

/-- The views that follow a register of the hub. -/
def Chip.hubTouched (s : Chip) (o : Nat) : Chip :=
  if 0x18000 ≤ o && o < 0x1a000 then s.phStatus ((o - 0x18000) / 0x40)
  else if 0x21000 ≤ o && o < 0x21400 then s.hintStat ((o - 0x21000) / 0x80)
  else if 0x23000 ≤ o && o < 0x24000 then s.budShow
  else if 0x24000 ≤ o && o < 0x24080 then s.seqRefresh
  else if 0x24400 ≤ o && o < 0x25000 then (s.railSync ((o - 0x24400) / 0x20)).seqRefresh
  else if o = HSW.CTRL then s.hswEnable
  else if o = FLT.CFG then s.fltShow
  else if o = PMB.CFG then s.pmbShow
  else s

/-- A register takes a word, as a write or a committed pair gives it: by its own operation, or by its fields and the views that follow them; a word that changes nothing moves no view. -/
def Chip.regPut (s : Chip) (o : Nat) (w : Word) : Chip :=
  if dieWindow ≤ o then
    let p := 32 * ((o - dieWindow) / 0x20000) + (o - dieWindow) % 0x20000 / 0x40
    let rel := (o - dieWindow) % 0x20000
    if rel < 0x800 && rel % 0x40 = 0x08 then (s.phofsWrite p w).genShowAll p
    else if rel < 0x800 && rel % 0x40 = 0x14 then s.cmpaWrite p w
    else if rel < 0x800 && rel % 0x40 = 0x18 then s.cmpbWrite p w
    else if w = s.reg o then s else (s.setReg o w).dieTouched o
  else if 0x2a000 ≤ o && o < 0x2e000 && o % 8 = 0 then s.srcCfgWrite ((o - 0x2a000) / 8) w
  else if 0x28100 ≤ o && o < 0x28300 && (o - 0x28100) % 0x80 = 0 then s.ppCtrlWrite ((o - 0x28100) / 0x80) w
  else if 0x31000 ≤ o && o < 0x312c0 && (o - 0x31000) % 0x20 < 8 && s.bit (RING.CFG_EN ((o - 0x31000) / 0x20)) then s
  else if 0x31000 ≤ o && o < 0x312c0 && (o - 0x31000) % 0x20 = 8 then s.ringCfgWrite ((o - 0x31000) / 0x20) w
  else if 0x1000 ≤ o && o < 0x1800 then s.wmonPut o w
  else if w = s.reg o then s
  else if o = HIF.CTRL then
    let t := s.setReg o w
    if t.bit HIF.CTRL_EN && !s.bit HIF.CTRL_EN then t.gridMark gridPoll else t
  else (s.setReg o w).hubTouched o

/-- A committed pair is written whole to its register: its RW and RWL fields (R481). -/
def Chip.pairApply (s : Chip) (o : Nat) (v : Word) : Chip :=
  let m := pairMask o
  s.regPut o ((s.reg o &&& ~~~m) ||| (v &&& m))

end Sys2Proof.Machine
end

