-- ==== Sys2Proof/Machine/StageBus.lean ====
section
/-! DEFINITION. The stage bus: frames, transactions, enumeration, segment control, status, alerts and relayed frames (R182 to R199). -/

namespace Sys2Proof.Machine

/-- The event-hub source of STB[n] (R390). -/
def srcStb (n : Nat) : Nat := 0x440 + 0x80 * (n - 1)

/-- The phase whose stage answers at an address of a lane (R182). -/
def stagePhase (d l a : Nat) : Nat := 32 * (d - 1) + 8 * l + a % 8

/-- The address a job goes to. -/
def StbJob.addr : StbJob → Nat
  | .reset a | .ident a | .mapw a .. | .cntw a .. | .stat a _ | .fltr a | .relay a .. => a

/-- The operation a job sends (R187). -/
def StbJob.op : StbJob → Nat
  | .stat .. => 0 | .ident .. => 1 | .mapw .. => 2 | .cntw .. => 3 | .fltr .. => 4 | .reset .. => 0xf | .relay _ o _ => o

/-- CRC-16 of a frame: polynomial 0x1021, initial value 0xFFFF (R186). -/
def stageCrc (l : List Byte) : BitVec 16 := l.foldl (crcByteM (0x1021 : BitVec 16)) 0xffff

/-- The header and payload of a frame (R184, R185). -/
def stageBytes (addr op dir seq : Nat) (payload : List Byte) : List Byte :=
  bytesLE 2 (addr * 2 ^ 12 + op * 2 ^ 8 + dir * 2 ^ 7 + seq * 2 ^ 6 + payload.length % 64) ++ payload

/-- A request frame as it is sent: preamble, start delimiter, header and payload, CRC, end delimiter (R184 to R186). -/
def stageFrame (addr op seq : Nat) (payload : List Byte) : List StbSym :=
  let b := stageBytes addr op 0 seq payload
  [.byte 0x55, .start] ++ (b ++ bytesLE 2 (stageCrc b).toNat).map .byte ++ [.stop]

/-- The MAPW argument (R191). -/
def mapArg (sw chunk : Nat) (fill : Option (Nat × Nat)) : Nat :=
  match fill with
  | some (st, n) => sw * 2 ^ 31 + 2 ^ 30 + st * 2 ^ 16 + n * 2 ^ 8 + chunk
  | none => sw * 2 ^ 31 + chunk

/-- The 32 map bytes of a chunk; a tile that failed its check is sent masked (R191, R496). -/
def Chip.chunkBytes (s : Chip) (p sw c : Nat) : List Byte :=
  if s.badTiles.contains (32 * p + 16 * sw + c / 8) then List.replicate 32 0xaa
  else (List.range 32).map fun k => BitVec.ofNat 8 (s.mapByte p sw (32 * c + k))

/-- The payload of a request, formed when it is sent (R187, R192, R195). -/
def Chip.stagePayload (s : Chip) (p pop : Nat) : StbJob → List Byte
  | .reset _ | .ident _ => []
  | .stat .. => [0]
  | .fltr _ => [BitVec.ofNat 8 pop]
  | .mapw _ sw c fill => bytesLE 4 (mapArg sw c fill) ++ (if fill.isSome then [] else s.chunkBytes p sw c)
  | .cntw _ hs ls =>
    let a := s.switches.get (2 * p)
    let b := s.switches.get (2 * p + 1)
    bytesLE 1 (hs.toNat + 2 * ls.toNat) ++ bytesLE 1 (s.phases.get p).gen ++ [0, 0] ++ bytesLE 2 a.wantC ++ bytesLE 2 a.wantW
      ++ bytesLE 2 b.wantC ++ bytesLE 2 b.wantW
  | .relay _ _ pl => pl

/-- The request of a client that could go next: its repeat, or else its oldest request, unless another client's request to that stage waits for its repeat, which must stay the last that the stage carried out (R189; DESIGN CHOICE, log entry 172). -/
def LaneHw.offer (q : LaneHw) (c : Nat) : Option ((StbTx ⊕ StbJob) × LaneHw) :=
  let clear (j : StbJob) := q.again.all fun x => x.job.addr != j.addr && j.addr < 8
  match q.again.find? (·.client == c) with
  | some x => some (.inl x, { q with again := q.again.filter (·.client != c), last := c })
  | none =>
    if c = 0 then (match q.segQ with | j :: l => if clear j then some (.inr j, { q with segQ := l, last := 0 }) else none | [] => none)
    else if c = 1 then (match q.relay with | some j => if clear j then some (.inr j, { q with relay := none, last := 1 }) else none | none => none)
    else (match q.alertQ with | j :: l => if clear j then some (.inr j, { q with alertQ := l, last := 2 }) else none | [] => none)

/-- The next frame of a lane: the clients in turn after the one served last (R49, R188). -/
def LaneHw.pick (q : LaneHw) : Option ((StbTx ⊕ StbJob) × LaneHw) :=
  ((q.offer ((q.last + 1) % 3)).orElse fun _ => q.offer ((q.last + 2) % 3)).orElse fun _ => q.offer q.last

/-- The device's record of a stage when it is reset: enumerating (R190, R203). -/
def Chip.stageReset (s : Chip) (d l a : Nat) : Chip :=
  let p := stagePhase d l a
  let c := p % 32
  let t := (((s.put (STB.STG_STATE d c) 1).put (STB.STG_REASON d c) 0).put (STB.STG_MISS d c) 0).put (STB.STG_SFLT d c) 0
  let t := t.phUpd p fun h => { h with gen := 255, inflight := false, mapping := false, hsn := 0, lsn := 0 }
  let t := (t.setReg (SEG.INST p) 0).laneUpd (4 * d + l) fun q => { q with pops := q.pops.set (a % 8) 0 }
  (t.swUpd p 0 fun _ => {}).swUpd p 1 fun _ => {}

/-- A map chunk fails its check when it is pushed: its tile is sent masked, and R164 applies through the usable count (R496). -/
def Chip.chunkFails (s : Chip) (p sw c : Nat) : Chip :=
  let tile := 32 * p + 16 * sw + c / 8
  let t := (if s.badTiles.contains tile then s else { s with badTiles := s.badTiles ++ [tile] }).tileUseFail 6 tile 3
  t.segUseRefresh p

/-- The chunks of a run from `c`, `n` + 1 of them, that go out in its first frame when some of its tiles are bad: those before the first bad tile, or those of a bad tile that comes first (R191, R496). -/
def runSplit (bad : Nat → Bool) (c n : Nat) : Nat :=
  if bad (c / 8) then min (n + 1) (8 - c % 8)
  else match (List.range (n + 1)).find? fun k => bad ((c + k) / 8) with
    | some k => k
    | none => n + 1

/-- A map write meets the checks of the tiles it reads; bit j of `tileOk` tells that tile j of the switch passes. A chunk whose tile fails is sent masked, and a run of good chunks is cut at such a tile, with the rest of it next (R191, R496). The answer has the frame that goes out. -/
def Chip.mapCheck (s : Chip) (d l : Nat) (j : StbJob) (tileOk : Nat) : StbJob × Chip :=
  match j with
  | .mapw a sw c fill =>
    let p := stagePhase d l a
    let known := fun (u : Chip) (j : Nat) => u.badTiles.contains (32 * p + 16 * sw + j)
    let n := match fill with | some f => f.2 | none => 0
    let out := runSplit (fun j => known s j || !bitAt tileOk j) c n
    let tiles := (List.range 16).filter fun j => decide (c / 8 ≤ j) && decide (8 * j < c + out)
    let t := s.forEach tiles fun j u => let v := u.checkMade (1 + d) (!bitAt tileOk j); if bitAt tileOk j then v else v.chunkFails p sw (8 * j)
    match fill with
    | none => (j, t)
    | some f =>
      (.mapw a sw c (some (if known t (c / 8) then 2 else f.1, out - 1)),
       if n < out then t else t.laneUpd (4 * d + l) fun q => { q with segQ := .mapw a sw (c + out) (some (f.1, n - out)) :: q.segQ })
  | _ => (j, s)

/-- Both switches want every usable segment, from the first that is not masked (R190 step 5). -/
def Chip.segWhole (s : Chip) (p : Nat) : Chip :=
  s.forEach [0, 1] fun sw t => t.swUpd p sw fun w => { w with wantC := t.segUsable p sw, wantW := t.segSeek p sw 0 (decide <| · < 2) }

/-- A count write takes the next GEN, and what it carries is noted; that of enumeration carries the counts as they are now (R190, R192). -/
def Chip.cntwNote (s : Chip) (d l : Nat) (j : StbJob) : Chip :=
  match j with
  | .cntw a hs ls =>
    let p := stagePhase d l a
    let t := if (s.phases.get p).mapping then s.segWhole p else s
    let t := t.phUpd p fun h => { h with gen := (h.gen + 1) % 256 }
    let g := (t.phases.get p).gen
    let t := if hs then t.swUpd p 0 fun w => { w with sent := some (w.wantC, w.wantW, g) } else t
    if ls then t.swUpd p 1 fun w => { w with sent := some (w.wantC, w.wantW, g) } else t
  | _ => s

/-- An attempt of a request goes out and its transaction is open (R188). -/
def Chip.stageTry (s : Chip) (d l : Nat) (j : StbJob) (seq tries : Nat) (pl : List Byte) : Chip :=
  ((s.out (.stage d l (stageFrame j.addr j.op seq pl))).put (STB.LANE_BUSY d l) 1).laneUpd (4 * d + l) fun q =>
    { q with cur := some (j, seq, tries), curPl := pl }

/-- Sends a new request, with SEQ toggled and its payload formed for all its attempts; RESET opens no transaction (R188 to R190). -/
def Chip.stageSend (s : Chip) (d l : Nat) (j : StbJob) (tileOk : Nat) : Chip :=
  let k := 4 * d + l
  match j with
  | .reset a =>
    let addrs := if a = 0xf then List.range 8 else [a]
    let seq := 1 - (bitAt (s.stbLanes.get k).seq (addrs.headD 0)).toNat
    let t := (s.out (.stage d l (stageFrame a 0xf seq []))).forEach addrs fun a u => u.stageReset d l a
    t.laneUpd k fun q => { q with seq := addrs.foldl (fun v x => setBitAt v x (seq == 1)) q.seq, waitEnum := q.waitEnum.filter (fun x => !addrs.contains x.1) ++ addrs.map (·, t.now) }
  | _ =>
    let (j, t) := s.mapCheck d l j tileOk
    let t := t.cntwNote d l j
    let q := t.stbLanes.get k
    let seq := 1 - (bitAt q.seq j.addr).toNat
    let pl := t.stagePayload (stagePhase d l j.addr) ((q.pops[j.addr]?).getD 0) j
    (t.laneUpd k fun q => { q with seq := setBitAt q.seq j.addr (seq == 1) }).stageTry d l j seq 0 pl

/-- STAGE_FRAME_SEND: the lane is free, and the arbiter chooses the next frame, a new request or a repeat (R49, R188, R189). -/
def Chip.stageFrame (s : Chip) (d l : Nat) (tileOk : Nat) : Chip :=
  let k := 4 * d + l
  if !s.dieOn d || s.bit (STB.LANE_BUSY d l) then s
  else match (s.stbLanes.get k).pick with
    | none => s
    | some (.inl x, q) => { s with stbLanes := s.stbLanes.set k q }.stageTry d l x.job x.seq x.tries x.payload
    | some (.inr j, q) => { s with stbLanes := s.stbLanes.set k q }.stageSend d l j tileOk

/-- The present stages of a lane. -/
def Chip.lanePresent (s : Chip) (d l : Nat) : List Nat := (List.range 8).filter fun a => s.stagePresent (stagePhase d l a)

/-- A request of the alert service, beside the periodic reads (R196). -/
def StbJob.isAlert : StbJob → Bool
  | .stat _ false | .fltr _ => true
  | _ => false

/-- The alert service acts on the lane: its line is low and not ignored (R196). -/
def Chip.alerted (s : Chip) (d l : Nat) : Bool := s.bit (STB.LANE_ALERT d l) && !s.bit (STB.LANE_ALIGN d l)

/-- The alert service reads the next present stage, when none of its own requests is on its way (R196). -/
def Chip.alertNext (s : Chip) (d l : Nat) : Chip :=
  let q := s.stbLanes.get (4 * d + l)
  if !s.alerted d l || q.alertQ.any (·.isAlert) || q.again.any (·.job.isAlert) || q.cur.any (·.1.isAlert) then s
  else
    let order := (List.range 8).map fun j => (q.rr + 1 + j) % 8
    match order.find? fun a => s.stagePresent (stagePhase d l a) with
    | none => s
    | some a => s.laneUpd (4 * d + l) fun q => { q with alertQ := q.alertQ ++ [.stat a false], rr := a }

/-- A relayed frame ends (R199, R205). -/
def Chip.relayEnd (s : Chip) (d status : Nat) : Chip :=
  (s.put (STB.RLYCTL_STATUS d) status).event (STB.RLYCTL_DONEF d) (STB.RLYCTL_RLYCNT d) (srcStb d)

/-- A relayed frame. -/
def StbJob.isRelay : StbJob → Bool
  | .relay .. => true
  | _ => false

/-- Nothing more is sent to an address (R198): a transaction with it ends, and a relayed frame to it ends as one to a stage that is not present (DESIGN CHOICE, log entry 173). -/
def Chip.stageHush (s : Chip) (d l a : Nat) : Chip :=
  let k := 4 * d + l
  let q := s.stbLanes.get k
  let hit (j : StbJob) := j.addr == a
  let relayed := q.relay.any hit || q.again.any (fun x => hit x.job && x.job.isRelay) || q.cur.any (fun x => hit x.1 && x.1.isRelay)
  let t := if q.cur.any (hit ·.1) then (s.put (STB.LANE_BUSY d l) 0).laneUpd k fun q => { q with cur := none } else s
  let t := t.laneUpd k fun q =>
    { q with segQ := q.segQ.filter (!hit ·), alertQ := q.alertQ.filter (!hit ·), again := q.again.filter (!hit ·.job),
             relay := q.relay.filter (!hit ·), waitEnum := q.waitEnum.filter (·.1 != a) }
  if relayed then t.relayEnd d 5 else t

/-- A stage is declared absent, and the loss of its phase follows (R164, R190, R198). -/
def Chip.stageAbsent (s : Chip) (p reason : Nat) : Chip :=
  let d := dieOf p
  let c := p % 32
  let t := (s.stageHush d (c / 8) (p % 8)).phUpd p fun h => { h with inflight := false, mapping := false }
  let t := t.phaseLost p 1 0
  let t := (t.put (STB.STG_STATE d c) 3).put (STB.STG_REASON d c) reason
  let t := (t.event (STB.EVT_ABSF d) (STB.EVTCNT_ABSCNT d) (srcStb d)).alertNext d (c / 8)
  match t.owner p with
  | some n => t.phStatus n
  | none => t

/-- The request ends after its third failed attempt (R189, R190, R199); a map or count write is queued again (log entry 25). -/
def Chip.stageGiveUp (s : Chip) (d l : Nat) (j : StbJob) : Chip :=
  let k := 4 * d + l
  let p := stagePhase d l j.addr
  let t := match j with
    | .ident _ => if s.bit (PHS.ASSIGN_OWN p) then s.stageAbsent p 1 else s.put (STB.STG_STATE d (p % 32)) 0
    | .relay .. => s.relayEnd d 3
    | .mapw .. | .cntw .. => s.laneUpd k fun q => { q with segQ := j :: q.segQ }
    | .reset _ | .stat .. | .fltr _ => s
  t.alertNext d l

/-- An attempt fails: by timeout, or by an answer that is discarded; up to two repeats wait for the arbiter (R188, R189, R198). -/
def Chip.stageFail (s : Chip) (d l : Nat) (timeout : Bool) : Chip :=
  let k := 4 * d + l
  match (s.stbLanes.get k).cur with
  | none => s
  | some (j, seq, tries) =>
    let p := stagePhase d l j.addr
    let t := (s.put (STB.LANE_BUSY d l) 0).laneUpd k fun q => { q with cur := none }
    let t := if timeout then t.eventQuiet (STB.EVT_NOAF d) (STB.LANE_NOACNT d l) else t.eventQuiet (STB.EVT_CRCF d) (STB.LANE_CRCCNT d l)
    let t := if t.stagePresent p && !j.isRelay then t.inc (STB.STG_MISS d (p % 32)) else t
    if tries + 1 < 3 then t.laneUpd k fun q => { q with again := q.again ++ [⟨q.last, j, seq, tries + 1, q.curPl⟩] } else t.stageGiveUp d l j

/-- STAGE_ANSWER_TIMEOUT. -/
def Chip.stageTimeout (s : Chip) (d l : Nat) : Chip :=
  if s.dieOn d && s.bit (STB.LANE_BUSY d l) then s.stageFail d l true else s

/-- STAGE_MISS_LIMIT: the count of failed attempts has reached MISSLIM (R198). -/
def Chip.missLimit (s : Chip) (p : Nat) : Chip :=
  let d := dieOf p
  if s.dieOn d && s.stagePresent p && decide (orOne (s.get (STB.CFG_MISSLIM d)) ≤ s.get (STB.STG_MISS d (p % 32))) then
    s.stageAbsent p 2
  else s

/-- Enumeration of a whole lane after its link came up, or of one stage that a commit re-admits (R190). -/
def Chip.enumLane (s : Chip) (d l : Nat) : Chip :=
  (s.put (STB.LANE_BUSY d l) 0).laneUpd (4 * d + l) fun _ => { segQ := [.reset 0xf] }

def Chip.enumDie (s : Chip) (d : Nat) : Chip := s.forEach [0, 1, 2, 3] fun l t => t.enumLane d l

/-- One stage is enumerated again; until that is done it is not present (R164, R190). -/
def Chip.enumStage (s : Chip) (p : Nat) : Chip :=
  let t := (s.stageHush (dieOf p) (p % 32 / 8) (p % 8)).stageReset (dieOf p) (p % 32 / 8) (p % 8)
  t.laneUpd (laneOf p) fun q => { q with segQ := q.segQ ++ [.reset (p % 8)] }

/-- ENUMERATION_RESET_WAIT: the addresses whose 100 µs are over are asked for their IDENT in order (R190). -/
def Chip.enumWait (s : Chip) (d l : Nat) : Chip :=
  s.laneUpd (4 * d + l) fun q =>
    { q with segQ := q.segQ ++ (q.waitEnum.filter fun x => decide (x.2 + 100 ≤ s.now)).map (.ident ·.1),
             waitEnum := q.waitEnum.filter fun x => !decide (x.2 + 100 ≤ s.now) }

/-- The chunks of a switch (R191). -/
def chunksOf (inst : Nat) : List Nat := List.range ((inst + 127) / 128)

/-- An IDENT answer (R187, R190). -/
def Chip.identAnswer (s : Chip) (p : Nat) (pl : List Byte) : Chip :=
  let hsn := fieldLE pl 6 2
  let lsn := fieldLE pl 8 2
  if fieldLE pl 5 1 ≠ 1 then s.stageAbsent p 3
  else if hsn = 0 || 16384 < hsn || lsn = 0 || 16384 < lsn then s.stageAbsent p 4
  else if bitAt (fieldLE pl 10 1) 2 then s
  else
    let t := s.phUpd p fun h => { h with hsn := hsn, lsn := lsn, mapping := true, inflight := true }
    let jobs := t.mapFrames p 0 (t.chunkGood p 0) (chunksOf hsn) none ++ t.mapFrames p 1 (t.chunkGood p 1) (chunksOf lsn) none
      ++ [StbJob.cntw (p % 8) true true]
    let t := ((t.swUpd p 0 fun _ => {}).swUpd p 1 fun _ => {}).segWhole p
    t.laneUpd (laneOf p) fun q => { q with segQ := q.segQ ++ jobs }

/-- A switch's latch is reported: ACT and WIN take its C and W (R167, R192). -/
def Chip.segLatched (s : Chip) (p sw : Nat) : Chip :=
  match (s.switches.get (2 * p + sw)).sent with
  | none => s
  | some (c, w, _) =>
    let t := s.swUpd p sw fun h => { h with sent := none }
    if sw = 0 then (t.put (SEG.ACT_HS p) c).put (SEG.WIN_HS p) w else (t.put (SEG.ACT_LS p) c).put (SEG.WIN_LS p) w

/-- The tiles of a switch that hold segments beyond the installed count are retired there, if they are not already (R170). -/
def Chip.retireRest (s : Chip) (p sw : Nat) : Chip :=
  let n := s.segInst p sw
  s.forEach ((List.range 16).filter fun j => decide (n < 1024 * (j + 1))) fun j t =>
    let b0 := mapKey p sw (256 * j)
    let changed := (List.range 256).any fun b => (t.mapBytes.get (b0 + b)).toNat != t.mapByte p sw (256 * j + b)
    if changed then
      let t := t.forEach (List.range 256) fun b u => { u with mapBytes := u.mapBytes.set (b0 + b) (BitVec.ofNat 8 (u.mapByte p sw (256 * j + b))) }
      t.tileDirty (32 * p + 16 * sw + j) false
    else t

/-- The stage has taken its map and counts: it is present, and an alert of its lane reads it too; with too few usable segments its phase, not available before, is lost (R164, R190 step 6, R196). -/
def Chip.stageReady (s : Chip) (p : Nat) : Chip :=
  let d := dieOf p
  let h := s.phases.get p
  let t := ((s.phUpd p fun h => { h with mapping := false }).put (SEG.INST_HS p) h.hsn).put (SEG.INST_LS p) h.lsn
  let t := ((t.retireRest p 0).retireRest p 1).segUseShow p
  let t := if t.segShort p then t.phaseLost p 3 0 else t
  let t := t.put (STB.STG_STATE d (p % 32)) 2
  let t := match t.owner p with
    | some n => (t.roleShow p).phStatus n
    | none => t
  t.alertNext d (p % 32 / 8)

/-- The stage warning of R374: set once per entry, armed again 2 °C below the threshold. -/
def Chip.stageTemp (s : Chip) (p : Nat) (temp : Int) : Chip :=
  let t := s.putS (STB.STG_TEMP (dieOf p) (p % 32)) temp
  let w := t.getS THM.WARN_STGWARN
  let v := t.getS (STB.STG_TEMP (dieOf p) (p % 32))
  if t.stgWarm.get p then (if v ≤ w - 16 then { t with stgWarm := t.stgWarm.set p false } else t)
  else if w ≤ v then { t with stgWarm := t.stgWarm.set p true }.event THM.EVT_STGWF THM.EVTCNT_STGWCNT 0xa |>.pmbLatch pmbEvery 3 6
  else t

/-- A STAT answer (R192, R194, R196, R197). -/
def Chip.statAnswer (s : Chip) (d l p : Nat) (poll : Bool) (pl : List Byte) : Chip :=
  let c := p % 32
  let r := fieldLE pl 0 1
  let was := s.get (STB.STG_SFLT d c)
  let flt := fieldLE pl 1 1 % 32
  let t := s.put (STB.STG_SFLT d c) flt
  let gen sw := ((t.switches.get (2 * p + sw)).sent).map fun x => x.2.2
  let t := if gen 0 = some (fieldLE pl 2 1) then t.segLatched p 0 else t
  let t := if gen 1 = some (fieldLE pl 3 1) then t.segLatched p 1 else t
  let t := t.stageTemp p (signedOf 16 (fieldLE pl 4 2))
  let t := if bitAt r 3 then (t.event (STB.EVT_OVFF d) (STB.EVTCNT_OVFCNT d) (srcStb d)).raise ⟨0x2140, p, 0⟩ else t
  let t := if maskDiff 5 flt was != 0 then t.phaseLost p 2 flt else t
  let want := t.alerted d l && (bitAt r 1 || bitAt r 3) && !(t.stbLanes.get (4 * d + l)).alertQ.contains (.fltr (p % 8))
  let t := t.laneUpd (4 * d + l) fun q =>
    { q with quiet := if r % 16 != 0 then 0 else if poll then q.quiet else q.quiet + 1,
             alertQ := if want then q.alertQ ++ [.fltr (p % 8)] else q.alertQ }
  t.alertNext d l

/-- A FLTR answer: its events reach the health map, and it may report a lost event (R171, R195, R204). -/
def Chip.fltrAnswer (s : Chip) (d l p : Nat) (pl : List Byte) : Chip :=
  let n := min 8 (fieldLE pl 0 1)
  let t := (List.range n).foldl (fun u k =>
    let e := fieldLE pl (2 + 2 * k) 2
    u.segReport p (bitAt e 14).toNat (e % 2 ^ 14) (bitAt e 15)) s
  let t := if bitAt (fieldLE pl 1 1) 0 then t.event (STB.EVT_OVFF d) (STB.EVTCNT_OVFCNT d) (srcStb d) else t
  let t := t.laneUpd (4 * d + l) fun q =>
    { q with pops := q.pops.set (p % 8) n, alertQ := if n = 0 then q.alertQ else q.alertQ ++ [.fltr (p % 8)] }
  t.alertNext d l

/-- A CNTW ACK with status 0x00; LATCHED tells that the switches it named have applied (R190, R192). -/
def Chip.cntwAck (s : Chip) (p : Nat) (hs ls latched : Bool) : Chip :=
  let mapping := (s.phases.get p).mapping
  let t := s.phUpd p fun h => { h with inflight := false }
  let t := if mapping then t.stageReady p else t
  let t := if latched && hs then t.segLatched p 0 else t
  let t := if latched && ls then t.segLatched p 1 else t
  t.segPump p

/-- The answer to a relayed frame (R199, R205). -/
def Chip.relayAnswer (s : Chip) (d op : Nat) (pl : List Byte) : Chip :=
  let t := (s.put (STB.RLYRSPH_RSPOP d) op).put (STB.RLYRSPH_RSPLEN d) pl.length
  let t := t.forEach (List.range 9) fun k u => u.setReg (STB.RLYRSP d k) (BitVec.ofNat 32 (fieldLE pl (4 * k) 4))
  t.relayEnd d 2

/-- Which answer a request expects. -/
inductive StbKind | ident | mapw | cntw | stat | fltr | relay
deriving DecidableEq, Repr

def StbJob.kind : StbJob → Option StbKind
  | .reset _ => none
  | .ident _ => some .ident
  | .mapw .. => some .mapw
  | .cntw .. => some .cntw
  | .stat .. => some .stat
  | .fltr _ => some .fltr
  | .relay .. => some .relay

/-- The payload length of a request's own answer (R187). -/
def StbKind.len : StbKind → Nat
  | .ident => 16 | .mapw => 2 | .cntw => 2 | .stat => 8 | .fltr => 18 | .relay => 0

/-- An answer arrives on a lane whose request is of a kind: it is checked, and acted on or counted as a failed attempt (R186, R187, R189). One whose payload has not the length of its OP fails too (DESIGN CHOICE, log entry 199), and a NAK of an IDENT gives absent with reason 0x3 as one in steps 4 and 5 does (DESIGN CHOICE, log entry 197). -/
def Chip.stageAnswer (s : Chip) (d l : Nat) (kind : StbKind) (a : StageAnswer) : Chip :=
  let k := 4 * d + l
  match (s.stbLanes.get k).cur with
  | none => s
  | some (j, seq, _) =>
    if !s.dieOn d || !s.bit (STB.LANE_BUSY d l) || j.kind ≠ some kind then s
    else
      let p := stagePhase d l j.addr
      let good := a.dir && a.addr.val == j.addr && a.op.val == j.op && a.seq.toNat == seq && decide (a.payload.length ≤ 36)
        && stageCrc (stageBytes a.addr.val a.op.val a.dir.toNat a.seq.toNat a.payload) == a.crc
      let isAck := a.payload.length == 2
      let ownAnswer := j.op == 0 || j.op == 1 || j.op == 4
      let nak := isAck && (if j.isRelay then j.op == 0 else fieldLE a.payload 0 1 != 0 || ownAnswer)
      if !good || (kind ≠ .relay && !nak && a.payload.length != kind.len) then s.stageFail d l false
      else
        let t := (s.put (STB.LANE_BUSY d l) 0).laneUpd k fun q => { q with cur := none }
        let t := t.put (STB.STG_MISS d (p % 32)) 0
        if nak then (if j.isRelay then t.relayAnswer d a.op.val a.payload else t).stageAbsent p 3
        else match j with
          | .ident _ => t.identAnswer p a.payload
          | .mapw .. => t
          | .cntw _ hs ls => t.cntwAck p hs ls (bitAt (fieldLE a.payload 1 1) 0)
          | .stat _ poll => t.statAnswer d l p poll a.payload
          | .fltr _ => t.fltrAnswer d l p a.payload
          | .relay .. => t.relayAnswer d a.op.val a.payload
          | .reset _ => t

/-- STAGE_ALERT: SALERT_N goes low (R196). -/
def Chip.stageAlert (s : Chip) (d l : Nat) : Chip :=
  if !s.dieOn d || s.bit (STB.LANE_ALERT d l) then s
  else ((s.put (STB.LANE_ALERT d l) 1).laneUpd (4 * d + l) fun q => { q with quiet := 0 }).alertNext d l

/-- ALERT_LINE_RELEASE (R196). -/
def Chip.alertRelease (s : Chip) (d l : Nat) : Chip :=
  ((s.put (STB.LANE_ALERT d l) 0).put (STB.LANE_ALIGN d l) 0).laneUpd (4 * d + l) fun q =>
    { q with quiet := 0, alertQ := q.alertQ.filter fun j => match j with | .stat _ false => false | _ => true }

/-- ALERT_STUCK: ALSTUCK complete rounds with no reason (R196). -/
def Chip.alertStuck (s : Chip) (d l : Nat) : Chip :=
  let n := (s.lanePresent d l).length
  let q := s.stbLanes.get (4 * d + l)
  if s.dieOn d && s.bit (STB.LANE_ALERT d l) && !s.bit (STB.LANE_ALIGN d l) && n != 0
    && decide (orOne (s.get (STB.CFG_ALSTUCK d)) * n ≤ q.quiet) then
    let t := (s.put (STB.LANE_ALIGN d l) 1).event (STB.EVT_STUCKF d) (STB.EVTCNT_STUCKCNT d) (srcStb d)
    (t.raise ⟨0x2141, 4 * (d - 1) + l, 0⟩).laneUpd (4 * d + l) fun q =>
      { q with quiet := 0, alertQ := q.alertQ.filter fun j => match j with | .stat _ false => false | _ => true }
  else s

/-- STAGE_POLL: the periodic STAT of a present stage (R196). -/
def Chip.stagePoll (s : Chip) (p : Nat) : Chip :=
  let d := dieOf p
  if s.dieOn d && s.stagePresent p && decide (s.pollDue.get p + 10 * orOne (s.get (STB.CFG_POLLINT d)) ≤ s.now) then
    { s with pollDue := s.pollDue.set p s.now }.laneUpd (laneOf p) fun q => { q with alertQ := q.alertQ ++ [StbJob.stat (p % 8) true] }
  else s

/-- The operations that are relayed (R199). -/
def relayable (op : Nat) : Bool := op == 0 || op == 1 || op == 6 || (decide (8 ≤ op) && decide (op ≤ 0xd))

/-- A write of RLYCTL with GO = 1; LEN above 36 sends the 36 bytes that RLYREQ holds (R199, R205; DESIGN CHOICE, log entry 198). -/
def Chip.relaySend (s : Chip) (d : Nat) : Chip :=
  if s.get (STB.RLYCTL_STATUS d) == 1 then s
  else
    let op := s.get (STB.RLYCTL_OP d)
    let l := s.get (STB.RLYCTL_LANE d)
    let a := s.get (STB.RLYCTL_ADDR d)
    if !relayable op then s.put (STB.RLYCTL_STATUS d) 4
    else if 7 < a || !s.stagePresent (stagePhase d l a) then s.put (STB.RLYCTL_STATUS d) 5
    else
      let bytes := ((List.range 9).flatMap fun k => bytesLE 4 (s.reg (STB.RLYREQ d k)).toNat).take (s.get (STB.RLYCTL_LEN d))
      let bytes := match op, bytes with
        | 0, b :: l => (b ||| 1) :: l
        | _, b => b
      (s.put (STB.RLYCTL_STATUS d) 1).laneUpd (4 * d + l) fun q => { q with relay := some (.relay a op bytes) }

end Sys2Proof.Machine
end

