-- ==== Sys2Proof/Machine/Commit.lean ====
section
/-! DEFINITION. A commit: its rules over the new configuration, its record, and what its atomic point makes live (R33, R74, R77, R100, R120 to R125, R135, R143, R152, R217, R218, R230, R232, R249, R251, R255, R260, R261, R275, R295, R320, R481, R485, R508). -/

namespace Sys2Proof.Machine

/-- What the rules of a commit read: the registers as the new configuration sets them and as the committed one does, the device, and the tiles of both. -/
structure CfgView where
  new : Chip
  old : Chip
  live : Chip
  tiles : List CfgTile
  before : List CfgTile

/-- A rule's verdict: whether it fails, its reason, and the registers whose values it reads (R485). -/
structure Verdict where
  fails : Bool
  reason : Nat
  reads : List Nat

/-- The lowest position of a tile that sets one of some registers; 0x1FF when none does (R485). -/
def settersMin (l : List CfgTile) (offs : List Nat) : Nat :=
  l.foldl (fun m t => if (tileRegs t).any fun o => offs.contains o then min m t.pos else m) 0x1ff

/-- The value in force of a register: the device's own where its domain is on, and else the committed one (R482). -/
def CfgView.cur (v : CfgView) (o : Nat) : Word :=
  match domAt o with
  | some d => if v.live.domOn d then v.live.reg o else v.old.reg o
  | none => 0

/-- Whether the commit changes a field. -/
def CfgView.changes (v : CfgView) (f : Fld) : Bool := wordField (v.cur f.off) f.lo f.width != v.new.get f

/-- Whether the commit changes an RWL field of a register. -/
def CfgView.locked (v : CfgView) (o : Nat) : Bool := (v.cur o &&& lockMask o) != (v.new.reg o &&& lockMask o)

/-- Loop n is running: not OFF. -/
def CfgView.runs (v : CfgView) (n : Nat) : Bool := v.live.loopState n != 0

/-- A rule that reads some fields. -/
def rule (fails : Bool) (reason : Nat) (l : List Nat) : Verdict := ⟨fails, reason, l⟩

/-- The dies that a configuration uses, bit n − 1 for die n (R33). -/
def pxUse (c : Chip) : Nat :=
  allDies.foldl (fun m n => if (diePhases n).any (fun p => c.bit (PHS.ASSIGN_OWN p) || c.bit (PWM.CTRL_EN p)) || c.get (SQ.CTRL_MODE (n + 1)) != 0
    then m + 2 ^ (n - 1) else m) 0

/-- The registers of a die that R33 reads. -/
def pxReads (n : Nat) : List Nat := (diePhases n).flatMap (fun p => [PHS.ASSIGN p, PWM.CTRL p]) ++ [SQ.CTRL (n + 1)]

/-- R74, R77: the sample rate of loop n. -/
def loopRules (v : CfgView) (n : Nat) : List Verdict :=
  let per := v.new.get (LOOP.RATE_SPER n)
  let rate := [LOOP.RATE n, LOOP.CTRL n]
  let ref := (v.new.ownedBy n).head?
  let sync := v.new.bit (LOOP.RATE_SYNC n)
  [rule (per < (if v.new.bit (LOOP.CTRL_DCLASS n) then 25 else 32)) 0x22 rate,
   rule (sync && match ref with | some p => v.new.get (PWM.PERIOD_PER p) % (2 * per) != 0 | none => false) 0x22
     (LOOP.RATE n :: match ref with | some p => [PWM.PERIOD p] | none => []),
   rule (sync && decide (per ≤ v.new.get (LOOP.RATE_SPHASE n))) 0x22 [LOOP.RATE n],
   rule (v.runs n && (v.changes (LOOP.CTRL_DCLASS n) || v.changes (LOOP.RATE_SPER n))) 0x23 rate,
   rule (v.new.get (LOOP.DLIMHW_DHWMAX n) != 0 && (cfgAt v.tiles (4 * n)).isNone) 0x22 [LOOP.DLIMHW n]]

/-- R120, R121, R124, R125, R135: generator p. -/
def genRules (v : CfgView) (p : Nat) : List Verdict :=
  let c := v.new
  let per := c.get (PWM.PERIOD_PER p)
  let own := c.bit (PHS.ASSIGN_OWN p)
  let up := c.get (PWM.CTRL_CNT p) == 0
  [rule (c.bit (PWM.CTRL_EN p) && (decide (per < 100) || decide (2666 < per) || (!up && per % 2 == 1))) 0x22 [PWM.CTRL p, PWM.PERIOD p],
   rule (c.bit (PWM.CTRL_RLD p) && up) 0x22 [PWM.CTRL p],
   rule (c.get (PWM.CTRL_MOD p) == 2 && up) 0x22 [PWM.CTRL p],
   rule (own && c.get (PWM.CTRL_MOD p) == 3) 0x22 [PWM.CTRL p, PHS.ASSIGN p],
   rule (c.bit (PWM.CTRL_PAIR p) && (p % 2 == 1 || decide (2 ≤ c.get (PWM.CTRL_PAIRM p)))) 0x22 [PWM.CTRL p],
   rule (decide (2 ≤ c.get (PWM.CTRL_PAIRM p))) 0x22 [PWM.CTRL p],
   rule (own && c.pairOdd p) 0x22 [PWM.CTRL (p - 1), PHS.ASSIGN p]]

/-- R152: the phases of loop n. -/
def ownRules (v : CfgView) (n : Nat) : List Verdict :=
  let c := v.new
  let ps := c.ownedBy n
  let ranks := ps.map fun p => c.get (PHS.ASSIGN_RANK p)
  let assign := ps.map PHS.ASSIGN
  let same := fun f => (ps.map f).dedup.length ≤ 1
  [rule (ranks.dedup.length != ranks.length) 0x22 assign,
   rule (match ranks.head? with | some r => r != 0 | none => false) 0x22 assign,
   rule (!(same (fun p => c.get (PWM.PERIOD_PER p)) && same (fun p => c.get (PWM.CTRL_CNT p)) && same (fun p => c.get (PWM.CTRL_RLD p))
     && same (fun p => c.get (PWM.CTRL_MOD p)))) 0x22 (assign ++ ps.flatMap fun p => [PWM.PERIOD p, PWM.CTRL p]),
   rule (!ps.isEmpty && decide (ps.length < c.nmin n)) 0x22 (PHSL.CTRL n :: assign)]

/-- R33, R143, R152, R232, R255: phase p, whose owner runs or would run. -/
def phaseRules (v : CfgView) (p : Nat) : List Verdict :=
  let busy := match v.live.owner p with | some n => v.runs n | none => false
  let was := match v.old.owner p with | some n => v.runs n | none => false
  let next := match v.new.owner p with | some n => v.runs n | none => false
  [rule ((busy || was || next) && v.locked (PHS.ASSIGN p)) 0x23 [PHS.ASSIGN p],
   rule (busy && (List.range 16).any fun k => v.locked (PWM.CTRL p + 4 * k)) 0x23 ((List.range 16).map fun k => PWM.CTRL p + 4 * k),
   rule (busy && (v.changes (IADC.CFG_ZERO p) || v.changes (IADC.CFG_GAIN p))) 0x23 [IADC.CFG p],
   rule (busy && v.locked (CMP.PKCFG p)) 0x23 [CMP.PKCFG p]]

/-- R33, R143: die n. -/
def dieRules (v : CfgView) (n : Nat) : List Verdict :=
  let busy := (diePhases n).any fun p => match v.live.owner p with | some k => v.runs k | none => false
  [rule (busy && bitAt (v.live.get TOP.DIECFG_PXUSE) (n - 1) && !bitAt (pxUse v.new) (n - 1)) 0x23 (pxReads n),
   rule (busy && v.locked (PWMP.TPIN n)) 0x23 [PWMP.TPIN n]]

/-- The valid selects of a mapping word, with the loops they name (R266, R275). -/
def mapSels (w : Word) : List (Nat × Nat) :=
  [0, 1, 2, 3].filterMap fun j => let m := wordField w (6 * j) 6; if bitAt m 5 then some (j, m % 32) else none

/-- The loops that the selects of the enabled AVSBus ports name (R260). -/
def avsNamed (c : Chip) : List Nat :=
  (List.range 8).flatMap fun k => if c.bit (AVSP.CFG_EN k) then (mapSels (c.reg (AVSP.CFG k))).map (·.2) else []

/-- The loops that hint selects name (R275). -/
def hintNamed (c : Chip) : List Nat := (List.range 8).flatMap fun l => (mapSels (c.reg (HINT.MAP l))).map (·.2)

/-- R255, R260, R261, R275: the commands and limits of loop n. -/
def limitRules (v : CfgView) (n : Nat) : List Verdict :=
  let c := v.new
  let own := c.get (AVSL.CTRL_OWNER n)
  let lo := c.get (AVSL.VLIM_VMIN n)
  let hi := c.get (AVSL.VLIM_VMAX n)
  let vb := c.get (AVSL.CTRL_VBOOT n)
  let named := ((avsNamed c).filter (· == n)).length
  let ports := (List.range 8).map AVSP.CFG
  let hints := ((hintNamed c).filter (· == n)).length
  let maps := (List.range 8).map HINT.MAP
  [rule (own == 3) 0x22 [AVSL.CTRL n],
   rule (own == 1 && named != 1) 0x22 (AVSL.CTRL n :: ports),
   rule (own != 1 && named != 0) 0x22 (AVSL.CTRL n :: ports),
   rule (hi < lo) 0x22 [AVSL.VLIM n],
   rule (vb < lo || hi < vb) 0x22 [AVSL.VLIM n, AVSL.CTRL n],
   rule (c.get (AVSL.SLEW_SLEWMAX n) == 0) 0x22 [AVSL.SLEW n],
   rule (c.get (AVSL.ILIM_ILIM n) == 0 && c.get (LOOP.DLIMHW_DHWMAX n) != 0) 0x22 [AVSL.ILIM n, LOOP.DLIMHW n],
   rule (v.runs n && (v.changes (AVSL.VLIM_VMIN n) || v.changes (AVSL.VLIM_VMAX n) || v.changes (AVSL.SLEW_SLEWMAX n)
     || v.changes (AVSL.ILIM_ILIM n) || v.changes (AVSL.CTRL_VBOOT n))) 0x23 [AVSL.VLIM n, AVSL.SLEW n, AVSL.ILIM n, AVSL.CTRL n],
   rule (1 < hints) 0x22 maps,
   rule (0 < hints && c.get (LOOP.DLIMHW_DHWMAX n) == 0) 0x22 (LOOP.DLIMHW n :: maps),
   rule (v.runs n && (v.locked (CMPL.REL n) || v.locked (CMPL.ABS n) || v.locked (CMPL.CFG n))) 0x23 [CMPL.REL n, CMPL.ABS n, CMPL.CFG n]]

/-- R249, R251: window pair r. CONFEN counts as set by a commit whose tiles set it; its reset value is 1 (log entry 36). -/
def wmonRules (v : CfgView) (r : Nat) : List Verdict :=
  let c := v.new
  let sq := c.get (WMON.CFG_CONFSQ r)
  let e := c.get (WMON.CFG_CONFENT r)
  let hys := c.get (WMON.CFG_WHYS r)
  [rule (c.bit (WMON.CFG_EN r) && decide (c.get (WMON.THR_WHI r) ≤ c.get (WMON.THR_WLO r) + 2 * hys)) 0x22 [WMON.THR r, WMON.CFG r],
   rule (v.tiles.any (fun t => (tileRegs t).contains (WMON.CFG r)) && c.bit (WMON.CFG_CONFEN r) && c.get (SQ.ENT_CFG_INPUT sq e) != r) 0x22 [WMON.CFG r, SQ.ENT_CFG sq e]]

/-- R295: the hot-swap input. -/
def hswRules (v : CfgView) : List Verdict :=
  let c := v.new
  [rule (c.bit HSW.CTRL_EN && (c.get HSW.SCALE_DIVV == 0 || c.get HSW.SCALE_RSH == 0)) 0x22 [HSW.CTRL, HSW.SCALE],
   rule (c.bit HSW.CTRL_EN && decide (c.get HSW.VWIN_OVTH ≤ c.get HSW.VWIN_UVTH)) 0x22 [HSW.CTRL, HSW.VWIN]]

/-- Rail r takes part in a cycle of the enabled rails' dependencies: it can be reached from one of them (R320). -/
def depReach (c : Chip) : Nat → List Nat → List Nat → List Nat
  | 0, _, seen => seen
  | n + 1, todo, seen => match todo with
    | [] => seen
    | r :: l => if seen.contains r then depReach c n l seen
      else depReach c n ((if c.bit (SEQR.CFG_EN r) then c.railDeps r else []) ++ l) (r :: seen)

/-- R320: rail r, over the new configuration. -/
def railRules (v : CfgView) (r : Nat) : List Verdict :=
  let c := v.new
  let en := c.bit (SEQR.CFG_EN r)
  let pg := c.get (SEQR.CFG_PGSRC r)
  let deps := c.railDeps r
  let st := v.live.railState r
  let loop := decide (r < 32)
  [rule (en && pg == 0) 0x21 [SEQR.CFG r],
   rule (en && loop && bitAt pg 1) 0x21 [SEQR.CFG r],
   rule (en && bitAt pg 0 && !c.bit (WMON.CFG_EN r)) 0x21 [SEQR.CFG r],
   rule (en && loop && bitAt pg 0 && (decide (c.get (AVSL.VLIM_VMIN r) ≤ 4 * c.get (WMON.THR_WLO r))
     || decide (4 * c.get (WMON.THR_WHI r) ≤ c.get (AVSL.VLIM_VMAX r)))) 0x21 [SEQR.CFG r],
   rule (deps.any fun q => q == r || !c.bit (SEQR.CFG_EN q) || decide (c.get (SEQR.CFG_DOMAIN r) < c.get (SEQR.CFG_DOMAIN q))) 0x21 [SEQR.CFG r],
   rule (deps.dedup.length != deps.length) 0x21 [SEQR.CFG r],
   rule (en && (depReach c 400 deps []).contains r) 0x21 [SEQR.CFG r],
   rule (en && loop && (c.ownedBy r).isEmpty) 0x21 [SEQR.CFG r],
   rule (st != 0 && st != 7 && (v.changes (SEQR.CFG_EN r) || v.changes (SEQR.CFG_DOMAIN r) || v.locked (SEQR.DEP r) || v.changes (SEQR.CFG_PGSRC r)
     || v.changes (SEQR.CFG_XPGPOL r) || v.changes (SEQR.CFG_XENPOL r))) 0x23 [SEQR.CFG r, SEQR.DEP r]]

/-- R320: domain d. -/
def domRules (v : CfgView) (d : Nat) : List Verdict :=
  [rule (v.live.get (SEQD.STAT_STATE d) != 0 && v.changes (SEQD.CFG_ACTION d)) 0x23 [SEQD.CFG d]]

/-- The rules that read the configuration as a whole, and running state. -/
def wholeRules (v : CfgView) : List Verdict :=
  (List.range 32).flatMap (fun n => loopRules v n ++ ownRules v n ++ limitRules v n)
    ++ (List.range 224).flatMap (fun p => genRules v p ++ phaseRules v p)
    ++ allDies.flatMap (dieRules v) ++ (List.range 64).flatMap (fun r => wmonRules v r ++ railRules v r)
    ++ (List.range 4).flatMap (domRules v) ++ hswRules v

/-- R320: the contents of sequence tile i. -/
def seqTileOk (i : Nat) (pl : List Byte) : Bool :=
  (List.range 8).all (fun e => fieldLE pl (0x10 + 28 * e) 1 == 8 * i + e && fieldLE pl (0x11 + 28 * e) 3 == 0)
    && (seqWords i pl).all (fun x => (x.2 &&& ~~~anyMask x.1) == 0)
    && (List.range 8).all (fun e => (List.range 4).all fun k => !bitAt (fieldLE pl (0x18 + 28 * e + k) 1) 6)
    && (decide (i < 4) || fieldLE pl 0xf0 4 == 0) && fieldLE pl 0xf4 12 == 0

/-- An input code that a sequenced converter accepts (R217, R218). -/
def inputOk (x code : Nat) : Bool :=
  if x < 2 then decide (code ≤ 0x57) else decide (code ≤ 0x26) || [0x28, 0x29, 0x2e, 0x2f].contains code

/-- R230: the contents of the tile of converter x. -/
def convTileOk (x : Nat) (pl : List Byte) : Bool :=
  let n := fieldLE pl 0x11 1
  let ent := fun e =>
    let cfg := BitVec.ofNat 32 (fieldLE pl (0x20 + 14 * e) 4)
    let flt := BitVec.ofNat 32 (fieldLE pl (0x24 + 14 * e) 4)
    let ord := wordField flt 24 3
    let dec := wordField flt 8 16
    let gain := fieldLE pl (0x2b + 14 * e) 3
    (cfg &&& ~~~anyMask (SQ.ENT_CFG x e)) == 0 && (flt &&& ~~~anyMask (SQ.ENT_FILT x e)) == 0
      && inputOk x (wordField cfg 24 7) && decide (wordField cfg 20 3 ≤ 6) && decide (1 ≤ ord) && decide (ord ≤ 5)
      && decide (16 ≤ dec) && decide (dec ≤ 16384) && (dec != 16384 || wordField flt 0 8 == 0)
      && decide (0x200000 ≤ gain) && decide (gain ≤ 0x800000)
  fieldLE pl 0x10 1 == x && decide (1 ≤ n) && decide (n ≤ 16) && decide (fieldLE pl 0x12 1 < 3) && decide (fieldLE pl 0x13 1 ≤ 6)
    && fieldLE pl 0x18 8 == 0 && (List.range n).all ent && (pl.drop (0x20 + 14 * n)).all (· == 0)

/-- R481: the pairs of a policy-parameter tile, beside those of every other tile. -/
def pairTileOk (l : List CfgTile) (t : CfgTile) : Bool :=
  let n := fieldLE t.payload 4 1
  let ps := tilePairs t.payload
  let others := (l.filter fun u => u.pos != t.pos).flatMap tileRegs
  decide (n ≤ 30) && (t.payload.drop (0x10 + 8 * n)).all (· == 0) && (ps.map (·.1)).dedup.length == ps.length
    && ps.all fun x => pairMask x.1 != 0 && (x.2 &&& ~~~anyMask x.1) == 0 && !others.contains x.1

/-- A tile keeps its kind's rules (R100, R230, R320, R481; reason 0x21). -/
def tileOk (l : List CfgTile) (t : CfgTile) : Bool :=
  let (kind, i) := posTile t.pos
  if kind = 1 then coefOk (t.payload.drop 16) (i / 4) (i % 4)
  else if kind = 2 then seqTileOk i t.payload
  else if kind = 3 then convTileOk i t.payload
  else pairTileOk l t

/-- The failure that a commit reports: the lowest position, and there the lowest reason (R485). -/
def leastFailure (l : List (Nat × Nat)) : Option (Nat × Nat) :=
  l.foldl (fun b x => match b with
    | none => some x
    | some y => if x.1 < y.1 || (x.1 == y.1 && decide (x.2 < y.2)) then some x else some y) none

/-- The failures of a new configuration: position and reason. Tiles that break their own rules are judged before the configuration that they would give. -/
def cfgFailures (v : CfgView) (maps : List StagedTile) : List (Nat × Nat) :=
  let own := (v.tiles.filter fun t => !tileOk v.tiles t).map fun t => (t.pos, 0x21)
  let whole := (wholeRules v).filterMap fun x => if x.fails then some (settersMin (v.tiles ++ v.before) x.reads, x.reason) else none
  let map := maps.filterMap fun t => match v.live.owner (t.index / 32) with
    | some n => if v.runs n then some (0x100 + t.frame, 0x23) else none
    | none => none
  own ++ whole ++ map

/-- The staged configuration tiles as they stand in the memory, with whether each matches its check word. -/
def stagedTiles (s : Chip) (m : List Host.Cell) : List (CfgTile × Bool) :=
  (s.store.staged.filter fun t => t.kind != 6).map fun t =>
    let f := frameRead m (stageAddr t.kind t.frame)
    (⟨(tilePos t.kind t.index).getD 0, f.1, f.2⟩, frameOk f)

/-- The configuration with the staged tiles in their places. -/
def stagedConfig (s : Chip) (m : List Host.Cell) : List CfgTile := ((stagedTiles s m).map (·.1)).foldl cfgPut s.store.committed

/-- CMTST (R485, R500). -/
def Chip.cmtState (s : Chip) (status reason pos : Nat) : Chip :=
  ((s.put TILE.CMTST_STATUS status).put TILE.CMTST_REASON reason).put TILE.CMTST_POS pos

/-- A commit is refused (R485). -/
def Chip.cmtRefuse (s : Chip) (ring : Option Nat) (reason pos : Nat) : Chip :=
  let t := (s.cmtState 5 reason pos).event TILE.EVT_CREFF TILE.EVTCNT_CREFCNT 0x1e8
  match ring with
  | some k => t.cmdDone k 0x03 reason []
  | none => t

/-- The commit record of a run, up to its CRC: 21 lines. Entry k of its tile numbers is that of the tile in staging frame k (R487; log entry 39). -/
def commitRecord (epoch : Nat) (r : CommitRun) (maps : List StagedTile) : List Byte :=
  let tiles := (List.range 64).map fun k => match maps.find? fun t => t.frame == k with | some t => t.index | none => 0xffff
  let checks := (List.range 256).flatMap fun i => match cfgAt r.tiles i with | some t => bytesLE 4 t.check.toNat | none => [0, 0, 0, 0]
  let body := bytesLE 8 epoch ++ padTo 48 r.digest ++ bytesLE 32 (cfgPresent r.tiles) ++ bytesLE 32 r.banks ++ bytesLE 2 r.maps.length
    ++ List.replicate 6 0 ++ tiles.flatMap (bytesLE 2) ++ checks
  padTo 0x540 (body ++ bytesLE 4 (crc32c body).toNat)

/-- Where the next commit record goes (R487). -/
def Chip.journalNext (s : Chip) : Nat := (s.store.journal + 1) % 32
def recordAt (slot : Nat) : Nat := journalBase + 0x800 * slot

/-- Step 1 of a commit, with the memory `m`: it is refused, or its record is queued for writing; a DONE mark that the record's slot still holds is cleared first (R485 to R487; log entry 35). -/
def Chip.commitStart (s : Chip) (m : List Host.Cell) (ring : Option Nat) : Chip :=
  if s.stageBusy then s.cmtRefuse ring 0x16 0x1ff
  else if s.store.staged.isEmpty then s.cmtRefuse ring 0x20 0x1ff
  else
    let new := stagedConfig s m
    let maps := s.store.staged.filter fun t => t.kind == 6
    let mapPl := maps.map fun t => (t, frameRead m (smFrame t.frame))
    let bad : List (Nat × Nat) := ((stagedTiles s m).filterMap fun x => if x.2 then none else some (x.1.pos, 0x21))
      ++ (mapPl.filterMap fun x => if frameOk x.2 then none else some (0x100 + x.1.frame, 0x21))
    let v : CfgView := ⟨cfgRegs new, cfgRegs s.store.committed, s, new, s.store.committed⟩
    match leastFailure (bad ++ cfgFailures v maps) with
    | some (pos, reason) => s.cmtRefuse ring reason pos
    | none =>
      let placed := s.store.staged.filter fun t => t.kind != 6
      let banks := placed.foldl (fun b t => setBitAt b (t.frame % 256) (t.frame / 256 == 1)) s.store.banks
      let changed := (placed.map fun t => t.frame % 256).filter fun p => cfgAt s.store.committed p != cfgAt new p
      let run : CommitRun := ⟨ring, new, changed, mapPl.map fun x => (x.1.index, x.2.1), cfgDigest new, banks⟩
      let slot := s.journalNext
      let undone := if nvmNum m (recordAt slot + 0x540) 4 = 0 then [] else lines (recordAt slot + 0x540) [0, 0, 0, 0]
      let t := (s.storeUpd fun h => { h with commit := some run }).cmtState (if s.bit THM.STAT_WINOPEN then 3 else 2) 0 0x1ff
      t.jobAdd .tile .record (undone ++ lines (recordAt slot) (commitRecord (s.epoch + 1) run maps))

/-- The table of the committed configuration as TILE shows it (R500). -/
def Chip.tableShow (s : Chip) : Chip :=
  let l := s.store.committed
  let t := s.forEach (List.range 8) fun j u => u.setReg (TILE.PRES j) (BitVec.ofNat 32 (cfgPresent l / 2 ^ (32 * j)))
  t.forEach (List.range 209) fun i u => u.setReg (TILE.TABLE i) (match cfgAt l i with | some x => x.check | none => 0)

/-- The epoch and the digest as SEC shows them (R476). -/
def Chip.epochShow (s : Chip) (epoch : Nat) (digest : List Byte) : Chip :=
  let t := (s.put SEC.EPOCH_LO_EPL epoch).put SEC.EPOCH_HI_EPH (epoch / 2 ^ 32)
  t.forEach (List.range 12) fun i u => u.setReg (SEC.CDIG i) (BitVec.ofNat 32 (fieldLE digest (4 * i) 4))

/-- The six words that a sequence tile gives rail r (R319). -/
def railWords (r : Nat) : List Nat := [SEQR.CFG r, SEQR.DEP r, SEQR.TIMING r, SEQR.LIMITS r, WMON.THR r, WMON.CFG r]

/-- What a word of a rail without a sequence tile is: as a policy pair has set it, and else its reset value (R508). -/
def Chip.untiled (s : Chip) (l : List CfgTile) (o : Nat) : Word := if l.any fun t => (tileRegs t).contains o then s.reg o else resetWord o

/-- Some rails take their sequence settings; one that no tile sets takes its reset values, unless a policy pair sets its window (R251, R319, R508). -/
def Chip.railsTake (s : Chip) (l : List CfgTile) (rs : List Nat) : Chip :=
  s.forEach rs fun r u =>
    match cfgAt l (128 + r / 8) with
    | some t => u.railLoad r ((t.payload.drop (0x10 + 28 * (r % 8))).take 28)
    | none =>
      if (railWords r).all fun o => u.reg o == u.untiled l o then u else u.railLoad r ([0, 0, 0, 0] ++ (railWords r).flatMap fun o => bytesLE 4 (u.untiled l o).toNat)

/-- RWL fields that no tile sets have their reset values (R508). -/
def Chip.rwlReset (s : Chip) (l : List CfgTile) : Chip :=
  let set := l.flatMap tileRegs
  s.forEach (s.regs.entries.map (·.1)) fun o u =>
    let m := lockMask o
    if m = 0 || set.contains o || (u.reg o &&& m) == (resetWord o &&& m) || (decide (0x1000 ≤ o) && decide (o < 0x1800))
      || (decide (0x24400 ≤ o) && decide (o < 0x25000)) then u
    else u.regPut o ((u.reg o &&& ~~~m) ||| (resetWord o &&& m))

/-- The pairs of the policy-parameter tiles at some positions are written to the registers of domains that are on (R481, R482). -/
def Chip.pairsApply (s : Chip) (l : List CfgTile) (p : Nat → Bool) : Chip :=
  let ps := (l.filter fun t => decide (145 ≤ t.pos) && p t.pos).flatMap fun t => tilePairs t.payload
  ps.foldl (fun u x => match domAt x.1 with
    | some d => if u.domOn d then u.pairApply x.1 x.2 else u
    | none => u) s

/-- A coefficient set takes its tile, which may fail its check at this use (R101, R496). -/
def Chip.coefTake (s : Chip) (l : List CfgTile) (ok : Bool) (pos : Nat) : Chip :=
  s.coefLoad (pos / 4) (pos % 4) ((cfgAt l pos).map fun t => (t.payload.drop 16, t.check)) ok

/-- TOP.DIECFG.PXUSE follows the configuration: dies that it no longer uses power down, and others ask for leave once the cold start has reached step 8 (R33, R459). -/
def Chip.pxUseApply (s : Chip) (use : Nat) : Chip :=
  let was := s.get TOP.DIECFG_PXUSE
  let t := s.put TOP.DIECFG_PXUSE use
  t.forEach allDies fun n u =>
    if bitAt was (n - 1) && !bitAt use (n - 1) then
      let v := if (u.dies.get n).asked then ({ u with dies := u.dies.upd n fun h => { h with asked := false } }.askDrop (.die n)) else u
      v.dieDown n
    else if !bitAt was (n - 1) && bitAt use (n - 1) && u.fw.diesStep then u.dieAsk n
    else u

/-- A lost phase whose staged tiles set its ASSIGN is enumerated again (R164). -/
def Chip.readmit (s : Chip) (l : List CfgTile) (changed : List Nat) : Chip :=
  let offs := (l.filter fun t => decide (145 ≤ t.pos) && changed.contains t.pos).flatMap tileRegs
  s.forEach (List.range 224) fun p u =>
    if (u.phases.get p).lost && offs.contains (PHS.ASSIGN p) then
      let v := (u.phUpd p fun h => { h with lost := false }).roleShow p
      if v.linkUp (dieOf p) then v.enumStage p else v
    else u

/-- Steps 2 to 4 of a commit: the tiles that changed are made live (R33, R101, R268, R321, R481, R482, R485, R508). -/
def Chip.cfgApply (s : Chip) (l : List CfgTile) (changed staged : List Nat) (coefOk : BitVec 128) : Chip :=
  let t := (s.rwlReset l).pairsApply l fun p => changed.contains p
  let t := t.railsTake l ((List.range 64).filter fun r => changed.contains (128 + r / 8) || (cfgAt l (128 + r / 8)).isNone)
  let t := t.forEach ((List.range 4).filter fun d => changed.contains (128 + d)) fun d u =>
    match cfgAt l (128 + d) with
    | some x => u.setReg (SEQD.CFG d) (BitVec.ofNat 32 (fieldLE x.payload 0xf0 4))
    | none => u
  let t := t.forEach ((List.range 128).filter fun p => changed.contains p) fun p u => u.coefTake l (coefOk.getLsbD p) p
  let t := t.forEach ((List.range 9).filter fun x => changed.contains (136 + x)) fun x u =>
    match cfgAt l (136 + x) with
    | some y => u.sqCommit x y.payload
    | none => u
  let t := t.pxUseApply (pxUse (cfgRegs l))
  let t := ((t.sumsFit.readmit l staged).avsDiscard).forEach (List.range 224) fun p u => u.ofsReduce p
  let t := t.forEach allRails fun r u => u.wmWires r
  let t := if t.power.xenPol.isSome then t.xenDrive else t
  ((t.seqRefresh).fltShow).budShow

/-- The copies of the segment-map tiles are queued, and the DONE mark after them (R485 step 5). -/
def Chip.copyQueue (s : Chip) (l : List (Nat × List Byte)) : Chip :=
  let copies := l.map fun x => (⟨.tile, .copy x.1, mapLines x.1 x.2, s.now⟩ : NvmJob)
  (s.storeUpd fun h => { h with jobs := h.jobs ++ copies }).jobAdd .tile .done (lines (recordAt s.store.journal + 0x540) (bytesLE 4 0xd1))

/-- The commit record is written and verified: the atomic point, and what follows it (R33, R468, R469, R485, R493, R508). -/
def Chip.commitPoint (s : Chip) (coefOk : BitVec 128) : Chip :=
  match s.store.commit with
  | none => s
  | some r =>
    let epoch := s.epoch + 1
    let staged := (s.store.staged.filter fun t => t.kind != 6).map fun t => t.frame % 256
    let t := s.storeUpd fun h => { h with committed := r.tiles, banks := r.banks, journal := s.journalNext, staged := [] }
    let t := ((t.epochShow epoch r.digest).tableShow).stagedShow
    let t := (t.put ACC.ACCST_LOCKED 1).event TILE.EVT_CMTF TILE.EVTCNT_CMTCNT 0x1e8
    let t := t.log { type := 8, body := bytesLE 8 epoch ++ r.digest.take 24 }
    (t.cfgApply r.tiles r.changed staged coefOk).copyQueue r.maps

/-- A changed health-map tile is written, or its change is discarded: it is clean (R172, R181). -/
def Chip.dirtyClear (s : Chip) (tile : Nat) : Chip :=
  let n := dieOf (tile / 32)
  if (s.dirtyTiles.get tile).isSome then
    let t := { s with dirtyTiles := s.dirtyTiles.set tile none }
    if t.dieOn n then t.put (SEGP.MAPST_DIRTY n) (t.get (SEGP.MAPST_DIRTY n) - 1) else t
  else s

/-- A die's working copy takes a committed tile of segments: its stage is sent the chunks that changed and a count write (R171, R193). -/
def Chip.mapTake (s : Chip) (tile : Nat) (bytes : List Byte) : Chip :=
  let p := tile / 32
  let sw := tile % 32 / 16
  let moved := (List.range 8).filter fun i => (List.range 32).any fun b => decide (s.mapBytes.get (256 * tile + 32 * i + b) ≠ (bytes[32 * i + b]?).getD 0)
  let t := { s with mapBytes := bytes.zipIdx.foldl (fun m (y : Byte × Nat) => m.set (256 * tile + y.2) y.1) s.mapBytes }
  let t := if moved.isEmpty then t else t.swUpd p sw fun w =>
    { w with due := true, chunks := w.chunks ++ (moved.map (8 * (tile % 16) + ·)).filter fun c => !w.chunks.contains c }
  (t.segUseRefresh p).segPump p

/-- A tile's flush that waits for the port is dropped: the committed tile governs (R499). -/
def Chip.flushDrop (s : Chip) (tile : Nat) : Chip :=
  let drop := s.store.trying == some Writer.map && (s.jobOf .map).any fun j => j.kind == .map tile
  s.storeUpd fun h => { h with jobs := h.jobs.filter (fun j => j.kind != .map tile), tries := (if drop then 0 else h.tries),
                               trying := (if drop then none else h.trying) }

/-- A segment-map tile of the commit has been copied to the health map: the die's working copy takes it, and a change of it that waits is discarded (R485 step 5, R499). -/
def Chip.copyDone (s : Chip) (tile : Nat) : Chip :=
  match s.store.commit with
  | none => s
  | some r =>
    match r.maps.find? fun x => x.1 == tile with
    | none => s
    | some x =>
      let p := tile / 32
      let n := dieOf p
      let t := if (s.dirtyTiles.get tile).isSome then (if s.dieOn n then s.inc (SEGP.MAPST_DISCCNT n) else s).dirtyClear tile else s
      let t := t.storeUpd fun h => { h with badMap := h.badMap.filter (· != tile), commit := some { r with maps := r.maps.filter fun y => y.1 != tile } }
      let t := { t with badTiles := t.badTiles.filter (· != tile) }
      let t := t.flushDrop tile
      if t.linkUp n then t.mapTake tile x.2 else t

/-- A commit ends done (R485). -/
def Chip.commitEnd (s : Chip) : Chip :=
  match s.store.commit with
  | none => s
  | some r =>
    let t := (s.storeUpd fun h => { h with commit := none }).cmtState 4 0 0x1ff
    match r.ring with
    | some k => t.cmdDone k 0x00 0 (bytesLE 8 t.epoch)
    | none => t

/-- A commit ends because a line failed: with reason 0x15, and the rest of its lines is not written; past the atomic point the configuration is live, and the next cold start completes the copy (R486, R488; log entry 37). -/
def Chip.commitFail (s : Chip) : Chip :=
  match s.store.commit with
  | none => s
  | some r =>
    let own := fun (j : NvmJob) => match j.kind with | .record => true | .copy _ => true | .done => true | _ => false
    (s.storeUpd fun h => { h with commit := none, jobs := h.jobs.filter fun j => !own j }).cmtRefuse r.ring 0x15 0x1ff

end Sys2Proof.Machine
end

