-- ==== Sys2Proof/Machine/Store.lean ====
section
/-! DEFINITION. The NVM port at work: one line written and read back, what a finished or failed sequence of lines does, health-map flushes and the background scrub (R172, R311, R382, R485, R488 to R491, R498, R501). -/

namespace Sys2Proof.Machine

/-- Bytes that the spec leaves open (log entry 7). -/
def Chip.freeBytes (s : Chip) (n : Nat) : List Byte := bytesLE n s.freeVal

/-- The line that a writer's front request writes (R488, R492). -/
def Chip.frontLine (s : Chip) : Writer → Option NvmLine
  | .log => s.logWaiting.head?.map s.logLineOf
  | w => (s.jobOf w).bind fun j => j.lines.head?

/-- A writer's first job leaves the queue. -/
def Chip.jobDrop (s : Chip) (w : Writer) : Chip :=
  match s.jobOf w with
  | some j => s.storeUpd fun h => { h with jobs := h.jobs.erase j }
  | none => s

/-- A writer's first job has one line less. -/
def jobAdvance (now : Nat) (w : Writer) : List NvmJob → List NvmJob
  | [] => []
  | j :: l => if j.writer = w then { j with lines := j.lines.tail, since := now } :: l else j :: jobAdvance now w l

/-- A sequence of lines is written whole. `m` is the memory with them (R172, R484, R485, R458). -/
def Chip.jobEnd (s : Chip) (m : List Host.Cell) (coefOk : BitVec 128) : JobKind → Chip
  | .stage kind index frame ring =>
    let t := s.storeUpd fun h => { h with staged := h.staged ++ [⟨kind, index, frame⟩] }
    let t := (t.stagedShow).stageState 2 0
    match ring with
    | some k => t.cmdDone k 0 0 []
    | none => t
  | .record => s.commitPoint coefOk
  | .copy tile => s.copyDone tile
  | .done => s.commitEnd
  | .map tile =>
    let n := dieOf (tile / 32)
    let t := if s.dieOn n then s.inc (SEGP.MAPST_WRCNT n) else s
    if nvmBytes m (mapBase + 256 * tile) 256 = t.tileBytes tile then t.dirtyClear tile else t
  | .image ring _ => s.cmdDone ring 0 0 []
  | .repair | .boot | .redo => s

/-- A sequence of lines ends because a line failed four times (R488). -/
def Chip.jobFail (s : Chip) : JobKind → Chip
  | .stage _ _ _ ring =>
    let t := s.stageState 3 0x15
    match ring with
    | some k => t.cmdDone k 3 0x15 []
    | none => t
  | .record | .copy _ | .done => s.commitFail
  | .map _ => s
  | .image ring _ => s.cmdDone ring 3 0x15 []
  | .repair | .boot | .redo => s

/-- The drain after the window reopened ends with the record of DROPCNT (R382, R493). -/
def Chip.drainEnd (s : Chip) : Chip :=
  if s.store.drainOwed && s.logWaiting.isEmpty then
    let n := s.get THM.NVMW_DROPCNT
    let t := (s.storeUpd fun h => { h with drainOwed := false }).thermUpd fun h => { h with dropBase := n }
    t.log { type := 7, body := bytesLE 2 (n - s.therm.dropBase) }
  else s

/-- In hold-up, the closing record follows once nothing else of the list is left (R311, R493). -/
def Chip.holdNext (s : Chip) : Chip :=
  if s.inHoldup && s.store.closing && (s.waits .log).isNone && (s.waits .map).isNone then
    (s.storeUpd fun h => { h with closing := false }).log { type := 5, body := bytesLE 4 s.store.holdCount }
  else s

/-- A line is written and reads back (R485, R488, R491). -/
def Chip.lineGood (s : Chip) (m : List Host.Cell) (coefOk : BitVec 128) (w : Writer) : Chip :=
  let t := (s.storeUpd fun h => { h with tries := 0, trying := none, lineAt := some s.now }).incWrap NVM.WRCNT_COUNT
  match w with
  | .log =>
    let t := (t.storeUpd fun h => { h with logBuf := h.logBuf.eraseP (!·.ofLog), logSince := s.now, holdCount := h.holdCount + 1 }).logAdvance
    (((t.put THM.NVMW_BUFOCC t.store.logBuf.length).drainEnd).holdNext).burst
  | w =>
    let t := t.storeUpd fun h => { h with jobs := jobAdvance s.now w h.jobs }
    match t.jobOf w with
    | some j =>
      let t := if j.kind = .record then t.put TILE.CMTST_STATUS 3 else t
      if j.lines.isEmpty then (((t.jobDrop w).jobEnd m coefOk j.kind).holdNext).burst else t
    | none => t

/-- A line does not read back; after the fourth write it has failed (R54, R56, R488; log entry 33). -/
def Chip.lineBad (s : Chip) (w : Writer) : Chip :=
  let t := (s.storeUpd fun h => { h with tries := h.tries + 1, trying := some w, lineAt := some s.now }).freeNext
  if t.store.tries < 4 then t
  else
    let t := (t.storeUpd fun h => { h with tries := 0, trying := none }).event NVM.EVT_VERFF NVM.EVTCNT_VERFCNT 0x1e9
    match w with
    | .log => (((t.logHeld.storeUpd fun h => { h with logFailed := true }).raise ⟨0x2502, 0, 0⟩).raise ⟨0x2503, 0, 0⟩).holdNext
    | w => match t.jobOf w with
      | some j => (((t.jobDrop w).jobFail j.kind).holdNext).burst
      | none => t

/-- NVM_LINE_WRITE: the port writes the next line and reads it back; a line that fails holds bytes the spec leaves open (R488 to R490). -/
def State.lineWrite (s : State) (good : Bool) (coefOk : BitVec 128) : State :=
  if !s.chip.nvmReady || !s.chip.rateOk then s
  else match s.chip.nextWriter with
    | none => s
    | some w => match s.chip.frontLine w with
      | none => s
      | some l =>
        if good then
          let m := nvmWrite s.nvm l.addr l.data
          { s with nvm := m, chip := s.chip.lineGood m coefOk w }
        else { s with nvm := nvmWrite s.nvm l.addr (s.chip.freeBytes l.data.length), chip := s.chip.lineBad w }

/-- A flush of a tile waits at the port. -/
def Chip.mapQueued (s : Chip) (tile : Nat) : Bool := s.store.jobs.any fun j => j.kind == .map tile

/-- HEALTH_MAP_FLUSH: a changed tile is queued for writing (R172). -/
def Chip.mapFlush (s : Chip) (tile : Nat) : Chip :=
  if (s.dirtyTiles.get tile).isSome && !s.mapQueued tile && s.coreRuns then
    s.jobAdd .map (.map tile) (mapLines tile (s.tileBytes tile))
  else s

/-- What the background scrub verifies in turn (R498). -/
inductive ScrubItem
  /-- The frame of a present position. -/
  | frame (pos : Nat)
  /-- A health-map tile of the memory. -/
  | map (tile : Nat)
  /-- A COEF set, by position. -/
  | coef (pos : Nat)
  /-- A sequencer copy. -/
  | seq (tile : Nat)
  /-- A tile of a powered die's working copy. -/
  | working (tile : Nat)
deriving DecidableEq, Repr

/-- The items of a pass in their order (R498). -/
def scrubItem (q : Nat) : ScrubItem :=
  if q < 209 then .frame q else if q < 7377 then .map (q - 209) else if q < 7505 then .coef (q - 7377)
  else if q < 7513 then .seq (q - 7505) else .working (q - 7513)

def scrubItems : Nat := 14681

/-- An item that is there to be verified now. -/
def Chip.scrubs (s : Chip) : ScrubItem → Bool
  | .frame pos => (cfgAt s.store.committed pos).isSome
  | .map tile => (s.dirtyTiles.get tile).isNone && !s.mapQueued tile
  | .coef pos => bitAt (s.get (COEF.SETVAL_VALID (pos / 4))) (pos % 4)
  | .seq i => (cfgAt s.store.committed (128 + i)).isSome
  | .working tile => s.dieOn (dieOf (tile / 32))

/-- The next item at or after a place in the pass. -/
def Chip.scrubFrom (s : Chip) (q : Nat) : Option Nat := ((List.range (scrubItems - q)).map (· + q)).find? fun i => s.scrubs (scrubItem i)

/-- The scrub finds a mismatch: 0x2501, with use 4 for the memory and 5 for a copy (R498). -/
def Chip.scrubMismatch (s : Chip) (kind pos use : Nat) : Chip :=
  (s.event TILE.EVT_SCRMF TILE.EVTCNT_SCRMCNT 0x1e8).raise ⟨0x2501, kind, BitVec.ofNat 32 (pos * 2 ^ 16 + use)⟩

/-- Neither side matches: 0x4500, and the copy stays in use (R498). -/
def Chip.scrubLost (s : Chip) (kind pos use : Nat) : Chip := s.raise ⟨0x4500, kind, BitVec.ofNat 32 (pos * 2 ^ 16 + use)⟩

/-- A copy of a coefficient set is reloaded; the active one of a running loop is replaced at a sample boundary (R106, R498). -/
def Chip.coefReload (s : Chip) (n set : Nat) : Chip :=
  if s.loopState n != 0 && s.get (LOOP.STATUS_ACTSET n) == set then
    match cfgAt s.store.committed (4 * n + set) with
    | some x => (s.engUpd n fun h => { h with swaps := h.swaps ++ [.contents set (coefOf (x.payload.drop 16)) x.check] }).pendRefresh n
    | none => s
  else s

/-- One item is verified and repaired from the side that still matches its check word (R496, R498). -/
def Chip.scrubOne (s : Chip) (m : List Host.Cell) (item : ScrubItem) (nvmOk copyOk : Bool) : Chip :=
  match item with
  | .frame pos =>
    let s := s.checkMade 9 (!nvmOk)
    let kind := (posTile pos).1
    if nvmOk then s
    else
      let t := s.scrubMismatch kind pos 4
      match copyOk, cfgAt s.store.committed pos with
      | true, some x =>
        let a := frameAt (s.store.banks / 2 ^ pos % 2) pos
        t.jobAdd .tile .repair (lines a (frameBytes x.payload x.check (nvmNum m (a + 264) 8)))
      | _, _ => t.scrubLost kind pos 4
  | .map tile =>
    let s := s.checkMade 9 (!nvmOk)
    if nvmOk then s
    else
      let t := s.scrubMismatch 6 tile 4
      if copyOk && s.linkUp (dieOf (tile / 32)) then t.jobAdd .map .repair (mapLines tile (s.tileBytes tile)) else t.scrubLost 6 tile 4
  | .coef pos =>
    let s := s.checkMade 9 (!copyOk)
    if copyOk then s
    else
      let t := s.scrubMismatch 1 pos 5
      if nvmOk then t.coefReload (pos / 4) (pos % 4) else t.scrubLost 1 pos 5
  | .seq i =>
    let s := s.checkMade 9 (!copyOk)
    if copyOk then s
    else
      let t := s.scrubMismatch 2 (128 + i) 5
      if nvmOk then t else t.scrubLost 2 (128 + i) 5
  | .working tile =>
    let s := s.checkMade 9 (!copyOk)
    if copyOk then s
    else
      let t := s.scrubMismatch 6 tile 5
      if nvmOk then
        { t with mapBytes := (nvmBytes m (mapBase + 256 * tile) 256).zipIdx.foldl (fun w (y : Byte × Nat) => w.set (256 * tile + y.2) y.1) t.mapBytes,
                 badTiles := t.badTiles.filter (· != tile) }.segUseRefresh (tile / 32)
      else t.scrubLost 6 tile 5

/-- SCRUB_CHECK: the next item of the pass; a complete pass sets SCRPF (R498). -/
def Chip.scrubCheck (s : Chip) (m : List Host.Cell) (nvmOk copyOk : Bool) : Chip :=
  if !s.domOn .core || !s.domOn .nvm || s.inHoldup then s
  else
    match s.scrubFrom s.store.scrubPos with
    | none => (s.storeUpd fun h => { h with scrubPos := 0 }).event NVM.EVT_SCRPF NVM.EVTCNT_SCRPCNT 0x1e9
    | some q =>
      let t := (s.storeUpd fun h => { h with scrubPos := q + 1 }).scrubOne m (scrubItem q) nvmOk copyOk
      if (t.scrubFrom (q + 1)).isSome then t
      else (t.storeUpd fun h => { h with scrubPos := 0 }).event NVM.EVT_SCRPF NVM.EVTCNT_SCRPCNT 0x1e9

/-- The word of the memory at an address; the identity area and the reserved area read 0 (R487, R501). -/
def nvmWord (m : List Host.Cell) (a : Nat) : Word :=
  if (identityBase ≤ a && decide (a < bootBase)) || 0xa48000 ≤ a then 0 else BitVec.ofNat 32 (nvmNum m a 4)

/-- NVM_RDDATA_READ: the word at RDADDR, and RDADDR moves on by 4 (R501). -/
def Chip.rdData (s : Chip) (m : List Host.Cell) : Word × Chip :=
  (nvmWord m (4 * s.get NVM.RDADDR_ADDR), s.put NVM.RDADDR_ADDR (s.get NVM.RDADDR_ADDR + 1))

end Sys2Proof.Machine
end

