-- ==== Sys2Proof/Machine/Starts.lean ====
section
/-! DEFINITION. Cold starts, warm starts, maintenance hold, images, the mailbox, hold-up and the supplies (R31, R33, R35, R172, R311, R312, R351, R452 to R467, R482, R486, R497, R517, R518). -/

namespace Sys2Proof.Machine

def Chip.fwUpd (s : Chip) (f : FwHw → FwHw) : Chip := { s with fw := f s.fw }
/-- The values of boot control: 0 BOOTSEL, with the slots' RAISE bits above it, 1 MINSVN, 2 the cold-start count (R487; log entry 11). -/
def BootCtl.word (b : BootCtl) : Nat → Nat
  | 0 => b.bootsel + 256 * b.raise
  | 1 => b.minsvn
  | _ => b.cscnt

/-- The lines of a value's two copies, each with its check word (R487; log entry 11). -/
def bootLine (v c w : Nat) : NvmLine := ⟨bootBase + 64 * (2 * v + c), bytesLE 4 w ++ bytesLE 4 (crc32c (bytesLE 4 w)).toNat⟩
def bootLines (v w : Nat) : List NvmLine := [bootLine v 0 w, bootLine v 1 w]

/-- A copy's value, when it matches its check word, and the value that the copies give: the first that matches (R459, R487). -/
def bootCopy (m : List Host.Cell) (v c : Nat) : Option Nat :=
  let a := bootBase + 64 * (2 * v + c)
  if (crc32c (nvmBytes m a 4)).toNat = nvmNum m (a + 4) 4 then some (nvmNum m a 4) else none
def bootValue (m : List Host.Cell) (v : Nat) : Option Nat := (bootCopy m v 0).orElse fun _ => bootCopy m v 1

/-- Every value has a copy that matches its check word (R459). -/
def bootWhole (m : List Host.Cell) : Bool := (List.range 3).all fun v => (bootValue m v).isSome

/-- The lines that bring every copy to its value (R459). -/
def bootMend (m : List Host.Cell) : List NvmLine :=
  (List.range 3).flatMap fun v => match bootValue m v with
    | some w => ((List.range 2).filter fun c => bootCopy m v c != some w).map fun c => bootLine v c w
    | none => []

/-- The identity tiles' lines of the owner key and OWNERONLY (R462; log entry 11). -/
def ownerLines (b : BootCtl) : List NvmLine :=
  match b.owner with
  | some k => lines identityBase (padTo 96 k ++ [BitVec.ofNat 8 (1 + 2 * b.ownerOnly.toNat)])
  | none => []

/-- What CORE takes of boot control and of the owner key at a cold start (R459, R462). -/
def bootTake (m : List Host.Cell) (b : BootCtl) : BootCtl :=
  let w := (bootValue m 0).getD 0
  let o := nvmNum m (identityBase + 96) 1
  { b with bootsel := w % 2, raise := w / 256, minsvn := (bootValue m 1).getD 0, cscnt := (bootValue m 2).getD 0,
           owner := if bitAt o 0 then some (nvmBytes m identityBase 96) else none, ownerOnly := bitAt o 1 }

/-- Lines of boot control join the port's queue (R488, R490). -/
def Chip.bootQueue (s : Chip) (l : List NvmLine) : Chip :=
  if l.isEmpty then s else s.storeUpd fun h => { h with jobs := h.jobs ++ [⟨.boot, .boot, l, s.now⟩] }

/-- Boot control or the owner key changes: CORE's copy at once, and the memory line by line, as the port writes them (R462, R463, R487 to R491; log entry 11). -/
def Chip.bootUpd (s : Chip) (f : BootCtl → BootCtl) : Chip :=
  let b := f s.boot
  let l := ((List.range 3).filter fun v => b.word v != s.boot.word v).flatMap fun v => bootLines v (b.word v)
  { s with boot := b }.bootQueue (l ++ if b.owner != s.boot.owner then ownerLines b else [])

/-- The vendor's public key. -/
def vendorKey : List Byte := (List.range 96).map fun i => if h : i < 96 then Config.vendorKey ⟨i, h⟩ else 0

/-- The header of a slot's image (R456). -/
def slotHeader (m : List Host.Cell) (slot : Nat) : List Byte := nvmBytes m (slotBase slot) 512

/-- The fields of a header are as R456 lays down (R457, result 0x1). -/
def imageHeadOk (h : List Byte) : Bool :=
  let len := fieldLE h 0x14 4
  fieldLE h 0 4 == 0x3159444e && fieldLE h 4 2 == 1 && decide (fieldLE h 6 2 < 2) && len % 4 == 0 && decide (4 ≤ len) && decide (len ≤ 2096640)
    && [0x18, 0x1c, 0x20].all (fun o => fieldLE h o 4 % 4 == 0 && decide (fieldLE h o 4 < len))
    && fieldLE h 0x24 28 == 0 && fieldLE h 0x100 256 == 0

/-- The key that a header's signature is checked with (R457, result 0x3): the vendor's, or the enrolled owner's. -/
def Chip.signerKey (s : Chip) (h : List Byte) : Option (List Byte) :=
  let ok := fun k => (h.drop 0x70).take 48 == sha384 k
  if fieldLE h 6 2 = 0 then (if !s.boot.ownerOnly && ok vendorKey then some vendorKey else none)
  else s.boot.owner.bind fun k => if ok k then some k else none

/-- The result of authenticating a slot: 0, or the first check that fails (R457). -/
def Chip.authRes (s : Chip) (m : List Host.Cell) (slot : Nat) : Nat :=
  let h := slotHeader m slot
  if !imageHeadOk h then 1
  else if sha384 (nvmBytes m (slotBase slot + 512) (fieldLE h 0x14 4)) != (h.drop 0x40).take 48 then 2
  else match s.signerKey h with
    | none => 3
    | some k =>
      if !ecdsaOk k (sha384 (h.take 0xa0)) ((h.drop 0xa0).take 96) then 4
      else if fieldLE h 0x10 4 < s.boot.minsvn then 5 else 0

/-- A slot is authenticated: its registers, and a failure's flag and fault (R457, R473). -/
def Chip.authenticate (s : Chip) (m : List Host.Cell) (slot : Nat) : Chip × Nat :=
  let h := slotHeader m slot
  let r := s.authRes m slot
  let t := ((s.putB (FW.SLOT0_VALID slot) (r == 0)).put (FW.SLOT0_SIGNER slot) (fieldLE h 6 2)).put (FW.SLOT0_AUTHRES slot) r
  let t := t.put (FW.SLOT1_SVN slot) (fieldLE h 0x10 4)
  (if r = 0 then t else (t.event SEC.EVT_AUTHFF SEC.EVTCNT_AUTHFCNT 0x1e1).raise ⟨0x2700, slot, BitVec.ofNat 32 r⟩, r)

/-- The image of a slot goes into the image memory (R452). -/
def Chip.imageLoad (s : Chip) (m : List Host.Cell) (slot : Nat) : Chip :=
  let h := slotHeader m slot
  s.fwUpd fun f => { f with image := h ++ nvmBytes m (slotBase slot + 512) (fieldLE h 0x14 4) }

/-- The processors run from the entry point that the image header gives at `place`, 0x18 for a cold and 0x1C for a warm start, and BOOTTO starts (R452, R456, R459 step 6, R465 step 4). -/
def Chip.release (s : Chip) (place : Nat) : Chip :=
  (s.fwUpd fun f => { f with released := true, entry := fieldLE f.image place 4, bootAt := some s.now }).put FW.CTRL_BOOTOK 0

/-- SEC and FW show what the memory holds of boot control and of the owner key (R462, R472, R476). -/
def Chip.bootShow (s : Chip) : Chip :=
  let t := ((s.put FW.STAT_BOOTSEL s.boot.bootsel).put SEC.MINSVN_MINSVN s.boot.minsvn).put SEC.CSCNT_COUNT s.boot.cscnt
  let t := (t.putB SEC.STAT_OWNER s.boot.owner.isSome).putB SEC.STAT_OWNERONLY s.boot.ownerOnly
  let d := match s.boot.owner with | some k => sha384 k | none => []
  t.forEach (List.range 12) fun i u => u.setReg (SEC.ODIG i) (BitVec.ofNat 32 (fieldLE d (4 * i) 4))

/-- The committed configuration as the journal's newest record tells it: the table, the epoch and the digest (R487). -/
def Chip.cfgOpen (s : Chip) (m : List Host.Cell) : Chip :=
  match journalNewest m with
  | none => s.tableShow.epochShow 0 (List.replicate 48 0)
  | some (slot, l) =>
    let banks := fieldLE l 0x58 32
    let tiles := ((List.range 209).filter fun i => bitAt (fieldLE l 0x38 32) i).map fun i =>
      (⟨i, nvmBytes m (frameAt (banks / 2 ^ i % 2) i) 256, BitVec.ofNat 32 (fieldLE l (0x100 + 4 * i) 4)⟩ : CfgTile)
    let t := s.storeUpd fun h => { h with committed := tiles, banks := banks, journal := slot }
    t.tableShow.epochShow (fieldLE l 0 8) ((l.drop 8).take 48)

/-- A valid record's cold-start count (R492). -/
def lineCsc (l : List Byte) : Nat := fieldLE l 4 4
def lineType (l : List Byte) : Nat := fieldLE l 16 1

/-- The valid records of the power cycle with a cold-start count. -/
def logCycle (m : List Host.Cell) (csc : Nat) : List (List Byte) := ((logValid m).map (·.2)).filter fun l => lineCsc l == csc

/-- A hold-up of the last power cycle is incomplete: a hold-up entry record with no closing record after it, or a hold-up that AON noted without an entry record (R312). -/
def holdupBroken (m : List Host.Cell) (csc : Nat) (noted : Bool) : Bool :=
  let l := logCycle m csc
  let entry := l.filter fun x => lineType x == 3
  let close := l.filter fun x => lineType x == 5
  (entry.any fun x => !close.any fun y => seqAfter (lineSeq y) (lineSeq x)) || (noted && entry.isEmpty)

/-- The phases whose tiles a commit of that power cycle replaced (R172). -/
def commitPhases (m : List Host.Cell) (csc : Nat) : List Nat :=
  let epochs := ((logCycle m csc).filter fun l => lineType l == 8).map fun l => fieldLE l 28 8
  (((List.range 32).filterMap (journalRec m)).filter fun x => epochs.contains (fieldLE x.2 0 8)).flatMap fun x =>
    ((List.range 64).map fun k => fieldLE x.2 (0x80 + 2 * k) 2 / 32)

/-- Weak and failed segments of that power cycle's log: phase, switch, segment and state (R172). -/
def replayList (m : List Host.Cell) (csc : Nat) : List (Nat × Nat × Nat × Nat) :=
  let gone := commitPhases m csc
  ((logCycle m csc).filterMap fun l =>
    let code := fieldLE l 18 2
    let d := fieldLE l 24 4
    if lineType l = 1 && (code == 0x0130 || code == 0x0131) then some (fieldLE l 20 1, d / 2 ^ 31, d % 2 ^ 14, code - 0x012f) else none).filter
      fun x => !gone.contains x.1

/-- The beginning of a cold start: the switched domains come up reset, and AON, the log and boot control show what outlasts it (R31 steps 2 to 6, R355, R379, R383, R430, R459, R495, R508). -/
def Chip.coldBegin (s : Chip) (m : List Host.Cell) (msgs : List FaultMsg) : Chip :=
  let shut := s.get THMA.SDSTAT_STATE != 0
  let t := { s.switchedOn with faultQ := msgs }
  let t := ((((t.put THMA.SDMASK_MASK 0).put THMA.SDSTAT_STATE 0).put PWR.DOMCTL_POLSLP 0).put ACC.ACCST_LOCKED 1).guardShow
  let t := (({ t with boot := bootTake m t.boot }.bootShow.cfgOpen m).logOpen m).awakeRefresh
  let t := t.hostEvent 4 1 (bytesLE 4 (t.reg TOP.REVISION).toNat ++ bytesLE 8 t.epoch)
  let t := if shut then t.raise ⟨0x2401, t.get THMA.SDSTAT_INST, BitVec.ofNat 32 (t.get THMA.BUFLOST_LOST)⟩ |>.pmbLatch pmbEvery 3 7 else t
  t.fltShow

/-- Step 2 of a cold start: the count rises, the last power cycle's log is read for an incomplete hold-up and for worn segments (R172, R312, R459). -/
def Chip.coldCount (s : Chip) (m : List Host.Cell) : Chip :=
  let was := s.boot.cscnt
  let t := if holdupBroken m was s.boot.holdup then s.raise ⟨0x2208, 0, 0⟩ else s
  let t := (t.bootUpd fun b => { b with cscnt := (was + 1) % 2 ^ 32, holdup := false }).storeUpd fun h => { h with replay := replayList m was }
  t.bootShow

/-- Maintenance hold (R356, R464). -/
def Chip.hold (s : Chip) (reason : Nat) : Chip :=
  ((((s.put FW.STAT_HOLD 1).put FW.STAT_HOLDRSN reason).guardClose 1).raise ⟨0x2702, 0, 0⟩).fltShow

/-- The failed starts of a slot (R460). -/
def failFld (slot : Nat) : Fld := if slot = 0 then FWA.FAIL_FAILA else FWA.FAIL_FAILB

/-- A cold start on a slot fails: its count rises to 3 at most; the faults are raised in the cold start that follows (R460, R494). -/
def Chip.coldFailed (s : Chip) (slot : Nat) : Chip := s.put (failFld slot) (min 3 (s.get (failFld slot) + 1))

/-- The slot of step 4, with whether it is the fallback (R460). -/
def Chip.coldSlot (s : Chip) : Option (Nat × Bool) :=
  let b := s.boot.bootsel
  if s.get (failFld b) < 3 then some (b, false)
  else if s.get (failFld (1 - b)) < 3 then some (1 - b, true)
  else none

/-- The lines that complete a segment-map copy which a commit left unfinished, from the staging area, with the DONE mark (R486, R497). -/
def mapRedo (m : List Host.Cell) : List NvmLine :=
  match journalNewest m with
  | none => []
  | some (slot, l) =>
    if fieldLE l 0x540 4 = 0xd1 then []
    else
      let tiles := (List.range 64).filter fun k => decide (fieldLE l (0x80 + 2 * k) 2 < 7168)
      tiles.flatMap (fun k => mapLines (fieldLE l (0x80 + 2 * k) 2) (nvmBytes m (smFrame k) 256)) ++ lines (recordAt slot + 0x540) (bytesLE 4 0xd1)

/-- The memory once lines are written. -/
def linesWritten (m : List Host.Cell) (l : List NvmLine) : List Host.Cell := l.foldl (fun m x => nvmWrite m x.addr x.data) m

/-- The memory with the copy complete, which is what the tile scan judges. -/
def mapComplete (m : List Host.Cell) : List Host.Cell := linesWritten m (mapRedo m)

/-- The lines that boot control waits for are written, where the window is open, before a failed cold start begins anew (R459, R460; log entry 11). -/
def State.bootFlush (s : State) : State :=
  if s.chip.nvmReady then { s with nvm := linesWritten s.nvm ((s.chip.store.jobs.filter fun j => j.writer == .boot).flatMap (·.lines)) } else s

/-- The tile scan finds a usable configuration: every present frame matches its check word, and the digest is the stored one (R469, R497). -/
def Chip.scanOk (s : Chip) (m : List Host.Cell) : Bool :=
  match journalNewest m with
  | none => false
  | some (_, l) => (s.store.committed.all fun t => crc32c t.payload == t.check) && cfgDigest s.store.committed == (l.drop 8).take 48

/-- The health-map tiles that do not match their check words (R497). -/
def badMapTiles (m : List Host.Cell) : List Nat :=
  (List.range 7168).filter fun t => (crc32c (nvmBytes m (mapBase + 256 * t) 256)).toNat != nvmNum m (mapChkBase + 4 * t) 4

/-- The tile scan's marks: LOCKED is 0 only when no commit record is valid, a frame that fails its check is a failure at use, and a bad health-map tile fails all its segments (R496, R497, R508). -/
def Chip.scanMarks (s : Chip) (m : List Host.Cell) : Chip :=
  let t := if (journalNewest m).isNone then s.put ACC.ACCST_LOCKED 0 else s
  let t := t.forEach ((t.store.committed.filter fun x => crc32c x.payload != x.check).map (·.pos)) fun p u => u.tileUseFail (posTile p).1 p 6
  let bad := badMapTiles m
  (t.storeUpd fun h => { h with badMap := bad }).forEach bad fun k u => u.tileUseFail 6 k 6

/-- The committed configuration is loaded (R101, R102, R165, R228, R251, R319, R339, R366, R383, R459 step 5, R481). -/
def Chip.cfgLoad (s : Chip) : Chip :=
  let l := s.store.committed
  let t := (s.rwlReset l).pairsApply l fun _ => true
  let t := t.railsTake l allRails
  let t := t.forEach [0, 1, 2, 3] fun d u =>
    match cfgAt l (128 + d) with
    | some x => u.setReg (SEQD.CFG d) (BitVec.ofNat 32 (fieldLE x.payload 0xf0 4))
    | none => u
  let t := t.forEach ((List.range 128).filter fun p => (cfgAt l p).isSome) fun p u => u.coefTake l true p
  let t := t.forEach [0, 1] fun x u => u.sqPowerUp x ((cfgAt l (136 + x)).map (·.payload))
  let t := t.put TOP.DIECFG_PXUSE (pxUse (cfgRegs l))
  let t := t.forEach (List.range 32) fun n u =>
    let r := u.bpTable n
    if tableOk (u.get (SEGL.USEMIN_FMIN n)) r then u.lpUpd n fun h => { h with table := r } else u
  let t := t.forEach (List.range 32) fun n u => u.phStatus n
  let t := t.forEach (List.range 8) fun k u => u.hintStat k
  let params := (l.filter fun t => decide (145 ≤ t.pos)).map (·.payload)
  let t := { t with hif := { t.hif with subsystem := ((Config.subsystem params).1.val, (Config.subsystem params).2.val) } }
  (((t.fltUpd fun h => { h with unloaded := false }).seqRefresh.xenDrive).fltShow).budShow

/-- Steps 1 to 6 of a cold start, with the outcomes of its checks; a slot that is not authentic begins it anew, and the messages raised until then still reach the collector (R379, R457, R459, R460, R497). Each failure raises a count, so that seven rounds are enough. -/
def State.coldGo : Nat → State → ColdIn → List FaultMsg → State
  | 0, s, _, _ => s
  | n + 1, s, cold, msgs =>
    let c := s.chip.coldBegin s.nvm msgs
    if !cold.selfTest then { s with chip := c.hold 2 }
    else if !cold.nvmOk || !bootWhole s.nvm then { s with chip := c.hold 5 }
    else
      let c := (c.bootQueue (bootMend s.nvm)).coldCount s.nvm
      if !cold.idOk then { s with chip := c.hold 3 }
      else
        let c := c.put SEC.STAT_IDOK 1
        match c.coldSlot with
        | none => { s with chip := c.hold 1 }
        | some (slot, fb) =>
          let c := c.putB FW.STAT_FALLBK fb
          let (c, r) := c.authenticate s.nvm slot
          if r ≠ 0 then
            State.coldGo n (State.bootFlush { s with chip := c.coldFailed slot }) cold (c.faultQ ++ [⟨0x2701, slot, BitVec.ofNat 32 r⟩])
          else
            let m := mapComplete s.nvm
            let l := mapRedo s.nvm
            let c := if l.isEmpty then c else c.jobAdd .tile .redo l
            let c := (c.imageLoad m slot).scanMarks m
            { s with chip := if !c.scanOk m then c.hold 4 else (c.cfgLoad.put FW.STAT_RUNSLOT slot).release 0x18 }

/-- A cold start may begin: the supplies are good, and neither hold-up nor a thermal shutdown is in force (R31, R378, R518). -/
def Chip.coldMay (s : Chip) : Bool :=
  s.power.aon && s.power.vaux && s.power.supplies && !s.inHoldup && s.get THMA.SDSTAT_STATE == 0

/-- A cold start (R459). -/
def State.coldStart (s : State) (cold : ColdIn) (msgs : List FaultMsg) : State := State.coldGo 7 s cold msgs

/-- The records that wait are written before a requested cold start; after `whole` of them a line fails all its writes, and the rest is lost with the buffer (R362, R488). -/
def State.logClose (s : State) (whole : Nat) : State :=
  if s.chip.nvmReady && !s.chip.store.logFailed then
    let l := s.chip.logWaiting
    let t := (l.take whole).foldl (fun u r =>
      let l := u.chip.logLineOf r
      { u with nvm := nvmWrite u.nvm l.addr l.data, chip := u.chip.logAdvance }) s
    match (l.drop whole).head? with
    | some r => { t with nvm := nvmWrite t.nvm (t.chip.logLineOf r).addr (t.chip.freeBytes 64), chip := t.chip.freeNext }
    | none => t
  else s

/-- A requested cold start begins once no stop runs: its record closes the log (R362, R493). -/
def State.coldIfDue (s : State) (cold : ColdIn) : State :=
  if s.chip.coldDue && s.chip.coldMay then
    let t := { s with chip := s.chip.log { type := 6, body := bytesLE 8 s.chip.epoch } }.logClose cold.closing.val
    t.coldStart cold []
  else s

/-- SUPPLIES_GOOD: VCORE and VANA18 have been good for 100 µs (R31, R517). -/
def State.suppliesGood (s : State) (cold : ColdIn) : State :=
  if s.chip.power.aon && s.chip.power.vaux && !s.chip.inHoldup && !s.chip.power.supplies then
    let t := { s with chip := { s.chip with power := { s.chip.power with supplies := true } } }
    if t.chip.coldMay then t.coldStart cold [] else t
  else s

/-- COOLING_RESTART (R379). -/
def State.coolingRestart (s : State) (cold : ColdIn) : State :=
  if s.chip.coolDone && s.chip.power.supplies then s.coldStart cold [] else s

/-- The device as AON's reset leaves it, with what the memory holds of boot control (R31, R36, R351, R518). -/
def Chip.aonReset (s : Chip) (on : Bool) : Chip :=
  { power := { aon := on, vaux := on }, outbox := s.outbox, freeCtr := s.freeCtr, boot := { s.boot with holdup := false } }

/-- VAUX33_RISE: AON leaves reset, unless VHOLD has kept it powered (R31, R351, R518). -/
def Chip.vauxRise (s : Chip) : Chip :=
  if s.power.aon then { s with power := { s.power with vaux := true } } else s.aonReset true

/-- CORE_SUPPLY_LOSS, outside hold-up (R517). -/
def Chip.coreLoss (s : Chip) : Chip :=
  if s.power.aon && s.power.vaux && !s.inHoldup && s.power.supplies then
    { (if s.domOn .core then s.switchedOff else s) with power := { s.power with supplies := false, isolated := false } }
  else s

/-- AON_POWER_OFF: VHOLD has fallen too, while VAUX33 is absent (R351, R518). -/
def Chip.aonOff (s : Chip) : Chip := if s.power.aon && !s.power.vaux then s.aonReset false else s

/-- The records of a class, in their order. -/
def ofCls (l : List LogRec) (c : Nat) : List LogRec := l.filter fun r => r.type != 2 && r.cls == c

/-- The health-map tiles with a failed segment not yet written (R311). -/
def Chip.failedTiles (s : Chip) : List Nat :=
  (s.dirtyTiles.entries.filter fun e => match e.2 with | some d => d.failed | none => false).map (·.1)

/-- How many buffered records and how many tiles the time of R311 lets the log writer write beside the entry, the first-failure, the list and the closing record: 64 records and 4 tiles at least, each item at its bound, 1,872 µs in all. -/
def holdRoom (first recs tiles : Nat) : Nat × Nat :=
  let room := 1872 - 24 * (3 + first)
  let r := min recs ((room - 60 * min 4 tiles) / 24)
  (r, min tiles ((room - 24 * r) / 60))

/-- What the log writer works off in hold-up: its records in order, and the tiles (R311, R493). -/
def Chip.holdList (s : Chip) : List LogRec × List Nat :=
  let b := s.logWaiting
  let first := b.filter fun r => r.type == 2
  let rest := ofCls b 4 ++ ofCls b 3 ++ ofCls b 2 ++ ofCls b 1 ++ ofCls b 0
  let room := holdRoom first.length rest.length s.failedTiles.length
  let codes := s.heldSlots.map fun i => s.get (FLT.ENT0_CODE i)
  let vi := bytesLE 4 (s.reg HSW.VI).toNat
  let pv := bytesLE 4 (s.reg HSW.PV).toNat
  ([{ type := 3, time := s.now, body := vi ++ pv ++ bytesLE 1 s.hswState }] ++ first ++ rest.take room.1
    ++ [{ type := 4, time := s.now, detail := BitVec.ofNat 32 codes.length, body := (codes.take 16).flatMap (bytesLE 2) }],
   s.failedTiles.take room.2)

/-- The log writer's work in hold-up; nothing is written outside the write window, and a commit before its atomic point is lost (R311, R486). -/
def Chip.holdWork (s : Chip) : Chip :=
  if s.domOn .core && s.domOn .nvm then
    let jobs := s.holdList.2.map fun t => (⟨.map, .map t, mapLines t (s.tileBytes t), s.now⟩ : NvmJob)
    let t := s.storeUpd fun h => { h with commit := none, jobs := [], tries := 0, trying := none }
    if s.bit THM.STAT_WINOPEN then
      t.storeUpd fun h => { h with logBuf := s.holdList.1 ++ h.logBuf.filter (·.ofLog), logSince := s.now, logFailed := false, jobs := jobs, closing := true, holdCount := 0 }
    else t
  else s

/-- HOLDUP_ENTRY: VAUX33 falls below 2.90 V; a fall in hold-up, after VAUX33 had returned, changes nothing else (R35, R311, R318, R364, R518). -/
def Chip.holdupEntry (s : Chip) : Chip :=
  if !s.power.aon || !s.power.vaux then s
  else if s.inHoldup then { s with power := { s.power with vaux := false } }
  else
    let t := (s.bootUpd fun b => { b with holdup := true }).holdWork
    let t := { t with power := { t.power with vaux := false, isolated := true }, ents := (t.heldSlots.foldl (fun e i => e.upd i fun h => { h with timer := none }) t.ents) }
    let t := ((t.put PWR.DOMSTAT_HOLDUP 1).gateLow true |>.put HSW.STAT_STATE 0).xenOff
    let t := (((t.put PWR.DOMSTAT_POL 0).put PWR.DOMSTAT_HOST 0).put PWR.DOMSTAT_HKA 0).diesIsolate
    let t := ((t.sqLost 0).sqLost 1).confLost.railsDrop
    (((t.setReg HSW.VI 0).setReg HSW.PV 0).put SEQ.GSTAT_INGOOD 0).budOff.fltShow

/-- The log writer has finished the list of R311, or writes nothing because the memory or its window does not let it. -/
def Chip.holdDone (s : Chip) : Bool := !s.nvmReady || (!s.store.closing && (s.waits .log).isNone && (s.waits .map).isNone)

/-- HOLDUP_END, once the log writer has finished: the switched domains go down, and AON waits for VAUX33 (R518). -/
def Chip.holdupEnd (s : Chip) : Chip :=
  if s.inHoldup && s.holdDone then
    let t := s.switchedOff.put PWR.DOMSTAT_HOLDUP 0
    { t with power := { t.power with supplies := false } }.fltShow
  else s

/-- Slot j of the mailbox: its state, 0 free, 1 posted, 2 taken, and its processor (R454, R474). -/
def mbFld (own : Bool) (j : Nat) : Fld := ⟨(if own then FW.MBOWN0 else FW.MBSTAT0) + 4 * (j / 16), 2 * (j % 16), 2⟩
def Chip.mbState (s : Chip) (j : Nat) : Nat := s.get (mbFld false j)
def Chip.mbOwner (s : Chip) (j : Nat) : Nat := s.get (mbFld true j)

/-- A slot becomes free; `late` names the processor whose MBDONE is still to come, and `timedOut` says that PTO freed the slot (R455). -/
def Chip.mbFree (s : Chip) (j : Nat) (late : Option Nat) (timedOut : Bool) : Chip :=
  { (s.put (mbFld false j) 0).put (mbFld true j) 0 with mail := s.mail.set j ⟨none, late, timedOut⟩ }

/-- A mailbox protocol violation by a processor (R455). -/
def Chip.mbViolation (s : Chip) (k : Nat) : Chip := (s.event FW.EVT_MBVIOF FW.EVTCNT_MBVIOCNT 0x1e0).raise ⟨0x4020, k, 0⟩

/-- The policy commands that wait for a slot, oldest first. -/
def Chip.mbWaiting (s : Chip) : Option (Nat × HostCmd) :=
  cmdRings.foldl (fun b k => match (s.rings.get k).busy with
    | some c =>
      if c.desc.isEmpty || decide (c.opcode < 0x80) || c.slot.isSome then b
      else match b with
        | some (_, d) => if c.since < d.since then some (k, c) else b
        | none => some (k, c)
    | none => b) none

/-- A waiting policy command goes into the lowest free slot, and source 0x0E1 is posted (R454 step 1). A command posted while POL sleeps wakes it by that source (R426). -/
def Chip.mbPost (s : Chip) : Chip :=
  match s.mbWaiting, (List.range 32).find? fun j => s.mbState j == 0 && (s.domOn .pol || s.polAsleep) with
  | some (k, c), some j =>
    let t := { s with mbox := c.desc.zipIdx.foldl (fun m (y : Byte × Nat) => m.set (128 * j + y.2) y.1) s.mbox,
                      mail := s.mail.upd j fun h => { h with ring := some k, timedOut := false } }
    let t := t.ringUpd k fun h => { h with busy := some { c with slot := some j } }
    (t.put (mbFld false j) 1).bell 0xe1
  | _, _ => s

/-- Every waiting policy command that finds a slot takes one. -/
def Chip.mbFill (s : Chip) : Chip := s.forEach cmdRings fun _ t => t.mbPost

/-- MBTAKE by processor k (R454, R455). -/
def Chip.mbTake (s : Chip) (k j : Nat) : Chip :=
  if s.mbState j = 1 then (s.put (mbFld false j) 2).put (mbFld true j) k else s.mbViolation k

/-- The completion half's bytes (R453). -/
def Chip.mbBytes (s : Chip) (j : Nat) : List Byte := (List.range 64).map fun i => s.mbox.get (128 * j + 64 + i)

/-- A completion STATUS that firmware may write (R454). -/
def mbStatusOk (b : Nat) : Bool := b == 0 || b == 2 || b == 3

/-- MBDONE by processor k: the slot is freed and its command completes; a late one is discarded (R454, R455). -/
def Chip.mbDone (s : Chip) (k j : Nat) : Chip :=
  let h := s.mail.get j
  if s.mbState j = 2 && s.mbOwner j == k then
    let b := s.mbBytes j
    let st := fieldLE b 1 1
    let t := s.mbFree j h.late false
    let t := match h.ring with
      | some r => t.cmdDone r (if mbStatusOk st then st else 2) (fieldLE b 6 1) (b.drop 16)
      | none => t
    t.mbFill
  else if h.late = some k || h.timedOut then { s with mail := s.mail.set j { h with late := if h.late = some k then none else h.late } }.event FW.EVT_LATEF FW.EVTCNT_LATECNT 0x1e0
  else if s.mbState j = 2 then s.mbViolation k
  else s

/-- A warm start frees every slot in use; their commands, and the policy commands that wait for a slot, complete with status 0x06 (R416, R455). -/
def Chip.mbAbort (s : Chip) : Chip :=
  let used := (List.range 32).filter fun j => s.mbState j != 0
  let t := s.forEach used fun j u =>
    match (u.mail.get j).ring with
    | some r => (u.mbFree j none false).cmdDone r 6 0 []
    | none => u.mbFree j none false
  t.forEach cmdRings fun k u =>
    match (u.rings.get k).busy with
    | some c => if 0x80 ≤ c.opcode then u.cmdDone k 6 0 [] else u
    | none => u

/-- POLICY_TIMEOUT of ring k: its command completes with status 0x08, and its slot is freed (R426, R455). -/
def Chip.policyTimeout (s : Chip) (k : Nat) : Chip :=
  match (s.rings.get k).busy with
  | some c =>
    if 0x80 ≤ c.opcode && decide (c.since + 1000 * orOne (s.get HIF.POLL_PTO) ≤ s.now) then
      let t := match c.slot with
        | some j => s.mbFree j (if s.mbState j = 2 then some (s.mbOwner j) else (s.mail.get j).late) true
        | none => s
      (t.cmdDone k 8 0 []).mbFill
    else s
  | none => s

/-- Why a warm start is refused: status and DETAIL (R458, R465). -/
def Chip.warmRefusal (s : Chip) : Option (Nat × Nat) :=
  if s.inHold || s.inSafe then some (7, 0)
  else if s.get FW.STAT_START = 1 || s.get FW.STAT_START = 2 then some (3, 5)
  else none

/-- The IMAGE_ACTIVATE that asked for the warm start completes as it ends: DATA byte 0 AUTHRES 0, byte 1 failed (R458). -/
def Chip.warmReport (s : Chip) (failed : Bool) : Chip :=
  match s.fw.warmRing with
  | some k => (s.fwUpd fun f => { f with warmRing := none }).cmdDone k 0 0 [0, BitVec.ofNat 8 failed.toNat]
  | none => s

/-- Steps 2 to 4 of a warm start onto BOOTSEL; one that fails returns once to the slot that ran before, and else the processors are halted (R406, R455, R465, R466). `checked` skips the authentication. -/
def Chip.warmGo (m : List Host.Cell) : Nat → Bool → Chip → Chip
  | 0, _, s => s
  | n + 1, checked, s =>
    let t := ((s.fwUpd fun f => { f with released := false, bootAt := none }).put FW.CTRL_BOOTOK 0).evhWarm.mbAbort
    let slot := t.boot.bootsel
    let (t, r) := if checked then (t, 0) else t.authenticate m slot
    if r = 0 then (t.imageLoad m slot).release 0x1c
    else
      let t := t.event FW.EVT_WFAILF FW.EVTCNT_WFAILCNT 0x1e0
      if slot != t.fw.prevSlot && !t.fw.retried then
        Chip.warmGo m n false (((t.bootUpd fun b => { b with bootsel := t.fw.prevSlot }).fwUpd fun f => { f with retried := true }).bootShow)
      else (t.put FW.STAT_START 3).warmReport true

/-- An accepted warm start begins (R356, R465 step 1). -/
def Chip.warmBegin (s : Chip) (m : List Host.Cell) (checked : Bool) (ring : Option Nat) : Chip :=
  let t := s.fwUpd fun f => { f with prevSlot := s.get FW.STAT_RUNSLOT, retried := false, warmRing := ring }
  Chip.warmGo m 2 checked ((t.put FW.STAT_START 2).guardOpen 2)

/-- A warm start whose BOOTTO has run out (R466). -/
def Chip.warmLate (s : Chip) (m : List Host.Cell) : Chip :=
  let t := (s.fwUpd fun f => { f with released := false, bootAt := none }).event FW.EVT_WFAILF FW.EVTCNT_WFAILCNT 0x1e0
  if t.boot.bootsel != t.fw.prevSlot && !t.fw.retried then
    Chip.warmGo m 1 false (((t.bootUpd fun b => { b with bootsel := t.fw.prevSlot }).fwUpd fun f => { f with retried := true }).bootShow)
  else (t.put FW.STAT_START 3).warmReport true

/-- FW_WARM_REQUEST: a write of FW.CTRL with KEY and WARM = 1; a refusal is silent (R465). -/
def Chip.warmRequest (s : Chip) (m : List Host.Cell) (key : Nat) : Chip :=
  if key = 0x57a2 && s.warmRefusal.isNone then s.warmBegin m false none else s

/-- MINSVN takes the image's SVN when the running slot was activated with RAISE (R463). -/
def Chip.minsvnRaise (s : Chip) (slot : Nat) : Chip :=
  if bitAt s.boot.raise slot then
    (s.bootUpd fun b => { b with minsvn := max b.minsvn (fieldLE s.fw.image 0x10 4), raise := setBitAt b.raise slot false }).bootShow
  else s

/-- The hot-swap step of a cold start; with the F4 latch held the safe state comes again instead, by its steps (R296, R350, R351, R459 step 7). -/
def Chip.hotSwapStep (s : Chip) : Chip :=
  if s.f4Held then
    let t := if s.get FLTA.F4_CODE = 0x8207 then s.put HSW.STAT_STATE 6 else s
    (((t.put FLT.STAT_SAFE 1).fltUpd fun h => { h with stopS := some ⟨s.now, false⟩ }).seqStopAll.stopProgress).fltShow
  else s.hswBegin

/-- BOOTOK by a processor ends a cold start's wait, or a warm start (R459, R460, R463, R465). -/
def Chip.bootOk (s : Chip) : Chip :=
  if s.fw.bootAt.isNone then s
  else
    let t := (s.fwUpd fun f => { f with bootAt := none }).put FW.CTRL_BOOTOK 1
    if s.get FW.STAT_START = 1 then
      let slot := t.get FW.STAT_RUNSLOT
      (((t.put (failFld slot) 0).put FW.STAT_START 0).minsvnRaise slot).hotSwapStep
    else if s.get FW.STAT_START = 2 then
      let slot := t.boot.bootsel
      let t := (((t.put FW.STAT_START 0).put FW.STAT_RUNSLOT slot).put FW.STAT_FALLBK 0).event FW.EVT_WARMF FW.EVTCNT_WARMCNT 0x1e0
      let t := t.hostEvent 4 0 (bytesLE 4 (t.reg TOP.REVISION).toNat ++ bytesLE 8 t.epoch)
      (t.minsvnRaise slot).warmReport t.fw.retried
    else t

/-- BOOT_TIMEOUT: BOOTTO has run out (R460, R466). -/
def State.bootTimeout (s : State) (cold : ColdIn) : State :=
  match s.chip.fw.bootAt with
  | none => s
  | some a =>
    if s.chip.domOn .core && !s.chip.inHoldup && decide (a + 1000 * orOne (s.chip.get FW.BOOTTO_BOOTTO) ≤ s.chip.now) then
      if s.chip.get FW.STAT_START = 2 then { s with chip := s.chip.warmLate s.nvm }
      else
        let slot := s.chip.get FW.STAT_RUNSLOT
        { s with chip := s.chip.coldFailed slot }.coldStart cold [⟨0x2701, slot, 0xf⟩]
    else s

/-- Step 9 of a cold start: once every die of PXUSE is up, and while the input is ON, domains with AUTO start; without one to wait for, the start-up window closes (R324, R356, R459). -/
def Chip.coldStep9 (s : Chip) : Chip :=
  let use := s.get TOP.DIECFG_PXUSE
  if s.fw.diesStep && !s.fw.autoDone && s.inputOn && allDies.all fun n => !bitAt use (n - 1) || s.linkUp n then
    let t := (s.fwUpd fun f => { f with autoDone := true }).autoStarts false
    if [0, 1, 2, 3].any fun d => t.bit (SEQD.CFG_AUTO d) && !(t.domRails d).isEmpty then t else t.guardClose 1
  else s

/-- Step 8 of a cold start: at the first ON, the lowest die of PXUSE asks for leave, and each further one when the die before it is up (R31 step 7, R33, R459). -/
def Chip.coldStep8 (s : Chip) : Chip :=
  if s.inputOn && !s.fw.diesStep then ((s.fwUpd fun f => { f with diesStep := true }).dieSeqAfter 0).coldStep9 else s.coldStep9

/-- A segment's state in the working copy worsens by a log record; its tile is then changed (R172). -/
def Chip.replayOne (s : Chip) (x : Nat × Nat × Nat × Nat) : Chip :=
  let (p, sw, seg, code) := x
  if s.segCode p sw seg < code then
    let k := mapKey p sw (seg / 4)
    let b := (s.mapBytes.get k).toNat
    { s with mapBytes := s.mapBytes.set k (BitVec.ofNat 8 (b - b / 4 ^ (seg % 4) % 4 * 4 ^ (seg % 4) + code * 4 ^ (seg % 4))) }.tileDirty (k / 256) (code == 2)
  else s

/-- A die's working copy is loaded: the memory's tiles, failed where they are bad, and what the log adds (R170, R172, R482, R497). -/
def Chip.mapLoad (s : Chip) (m : List Host.Cell) (n : Nat) : Chip :=
  let lo := mapBase + 262144 * (n - 1)
  let cells := m.filter fun c => decide (lo ≤ c.1) && decide (c.1 < lo + 262144)
  let t := { s with mapBytes := cells.foldl (fun w (c : Host.Cell) => w.set (c.1 - mapBase) c.2) (s.mapBytes.drop fun k => k / 262144 == n - 1) }
  let bad := s.store.badMap.filter fun k => k / 1024 == n - 1
  let t := { t with mapBytes := bad.foldl (fun w k => (List.range 256).foldl (fun w b => w.set (256 * k + b) 0xaa) w) t.mapBytes }
  (s.store.replay.filter fun x => dieOf x.1 == n).foldl (fun u x => u.replayOne x) t

/-- DIE_LINK_UP: the link has trained, and the hub has written the die's committed pairs and its working copy (R33, R190, R228, R323, R459, R482). -/
def Chip.dieLinkUp (s : Chip) (m : List Host.Cell) (n : Nat) : Chip :=
  if s.dieOn n && (s.dies.get n).training then
    let ps := (s.store.committed.filter fun t => decide (145 ≤ t.pos)).flatMap fun t => tilePairs t.payload
    let mine := ps.filter fun x => match domAt x.1 with | some (.px d) => d.val == n - 1 | _ => false
    let t := { s with dies := s.dies.upd n fun h => { h with training := false, keepAlive := s.now } }
    let t := mine.foldl (fun u x => u.pairApply x.1 x.2) t
    let t := (t.mapLoad m n).sqPowerUp (n + 1) ((cfgAt s.store.committed (137 + n)).map (·.payload))
    let t := (t.put (LINK.LINKSTAT_UP n) 1).askDone (.die n)
    let t := t.forEach (List.range 32) fun k u => u.phStatus k
    let t := t.forEach (diePhases n) fun p u => (u.segUseRefresh p).genShow p
    let t := (t.forEach allRails fun r u => (u.railAsk r).wmWires r).sensTell n
    ((t.enumDie n).dieSeqDone n).coldStep9
  else s

end Sys2Proof.Machine
end

