-- ==== Sys2Proof/Machine/Grants.lean ====
section
/-! DEFINITION. The arbiter's grant, with what each requester then does (R33, R108, R277, R307, R313, R323, R489). -/

namespace Sys2Proof.Machine

/-- What a requester does with its leave. -/
def Chip.askGranted (s : Chip) (tileOk : Bool) : Asker → Chip
  | .rail r => s.railGranted r tileOk
  | .die n => s.dieGranted n
  | .hint l hid => s.hintLeave l hid
  | .tune n => s.tuneGranted n
  | .nvm => s.burstGranted

/-- BUDGET_GRANT: the head of the queue is granted as soon as it fits; `tileOk` is the check of the tile copy at a rail's start step (R306, R307, R321). -/
def Chip.budgetGrant (s : Chip) (tileOk : Bool) : Chip :=
  match s.grantable with
  | some q => (s.grantCore q).askGranted tileOk q.ask.who
  | none => s

end Sys2Proof.Machine
end

