-- ==== Sys2Proof/Machine/Bus.lean ====
section
/-! DEFINITION. Register accesses: what every requester reads and writes, the access codes, the lock, the counters that a write clears, the registers whose access is an operation, and the mailbox RAM (R13, R45, R85, R405, R415, R453, R455, R501, R505 to R512). -/

namespace Sys2Proof.Machine

/-- The snapshot latch of a requester (R510). -/
def reqIdx : Requester → Nat
  | .pcie => 0
  | .ring => 1
  | .pmbus => 2
  | .mctp => 3
  | .pp k => 4 + k.val
  | .tap => 8

/-- The processors run: released on an image, or the boot ROM on PP0 before that (R459, R464, R466). -/
def Chip.ppRuns (s : Chip) (k : Nat) : Bool := s.domOn .pol && (s.fw.released || (k == 0 && s.get FW.STAT_START == 1))

/-- A requester can reach the register access port, which lies in CORE (R18, R34, R35, R49, R414). -/
def Chip.reqUp (s : Chip) (r : Requester) : Bool :=
  s.domOn .core && !s.inHoldup && match r with
    | .pcie => s.domOn .host && s.bit HIF.STAT_LINKUP && s.inD0
    | .ring | .pmbus | .mctp => s.domOn .host
    | .pp k => s.ppRuns k.val
    | .tap => true

/-- An access that sets a flag of ACCST: the flag, its count and the offset (R507, R508, R512). -/
def Chip.accEvent (s : Chip) (flag cnt : Fld) (o : Nat) : Chip := (s.eventQuiet flag cnt).put ACC.ACCST_LASTOFS o

/-- The resends of a flit that no command of its own has told, up to three, and the end of that flit (R27, R29). -/
def Chip.resendRest (s : Chip) (n : Nat) : Chip :=
  let t := s.forEach (List.range (3 - (s.dies.get n).resends)) fun _ u => u.event (LINK.LINKSTAT_ERRF n) (LINK.LINKSTAT_SFRETRY n) (0x18 + n)
  { t with dies := t.dies.upd n fun h => { h with resends := 0 } }

/-- A phase-die access has failed after its three resends (R27, R506). -/
def Chip.accFail (s : Chip) (o : Nat) : Chip :=
  let n := (o - dieWindow) / 0x20000 + 1
  ((s.resendRest n).accEvent ACC.ACCST_FAILF ACC.ACCCNT_FAILCNT o).raise ⟨0x4011, n, 0⟩

/-- The mailbox RAM (R453). -/
def inMailbox (o : Nat) : Bool := decide (0x40000 ≤ o) && decide (o < 0x50000)

/-- The MSI-X table and the PBA (R503). -/
def inMsix (o : Nat) : Bool := (decide (0x34000 ≤ o) && decide (o < 0x34200)) || (decide (0x35000 ≤ o) && decide (o < 0x35008))

/-- The registers of PP[k] (R503). -/
def inPP (o : Nat) : Bool := decide (0x28100 ≤ o) && decide (o < 0x28300)

/-- What MMIO may write while EN is 1 (R415). -/
def mmioFree (o : Nat) : Bool := (decide (0x30000 ≤ o) && decide (o < 0x32000)) || inMsix o

/-- SQ[H0], SQ[H1] and HSW, which HKA's isolation cuts off (R507). -/
def inHka (o : Nat) : Bool := domAt o == some .hka

/-- A register's domain is off, or isolated; a sleeping POL's registers are retained (R405, R507). -/
def Chip.offAt (s : Chip) (o : Nat) : Bool :=
  match domAt o with
  | none => false
  | some .pol => !s.domOn .pol && !s.polAsleep
  | some d => !s.domOn d || (s.power.isolated && inHka o)

/-- A whole register. -/
def whole (o : Nat) : Fld := ⟨o, 0, 32⟩

/-- The CNTCLR bit of a register of a hub block, and the counters it names (R14, R85). -/
def cntHub (o : Nat) : Option (Nat × List Fld) :=
  if 0x20 ≤ o && o < 0x3c then let n := (o - 0x20) / 4 + 1; some (3, [LINK.LINKSTAT_CWERR n, LINK.LINKSTAT_SFRETRY n])
  else if o = ACC.ACCCNT then some (0, [whole o])
  else if o = TIME.TBSTAT then some (10, [TIME.TBSTAT_TB0LCNT, TIME.TBSTAT_TB1LCNT])
  else if 0x1000 ≤ o && o < 0x1800 then
    let r := (o - 0x1000) / 0x20
    if o = WMON.EVT r then some (3, [whole (WMON.EVTCNT r)]) else none
  else if 0x10000 ≤ o && o < 0x12000 then
    let n := (o - 0x10000) / 0x100
    if o = LOOP.SPEC n then some (0, [LOOP.SPEC_SQCNT n])
    else if o = LOOP.OVR n then some (1, [LOOP.OVR_OVRCNT n])
    else if o = LOOP.EVT n then some (5, [whole (LOOP.EVTCNT n), LOOP.STALE_STALECNT n, LOOP.STALE_FFXCNT n])
    else none
  else if 0x14000 ≤ o && o < 0x16000 then
    let n := (o - 0x14000) / 0x100
    if o = COEF.SWCNT n then some (0, [COEF.SWCNT_SWPCNT n, COEF.SWCNT_SWRCNT n])
    else if o = COEF.TUNEEVT n then some (2, [COEF.TUNEEVT_DONECNT n, COEF.TUNEEVT_ABRTCNT n])
    else none
  else if 0x18000 ≤ o && o < 0x18800 then
    let n := (o - 0x18000) / 0x40
    if o = PHSL.EVT n then some (4, [whole (PHSL.EVTCNT n)]) else none
  else if 0x1a000 ≤ o && o < 0x1a800 then
    let n := (o - 0x1a000) / 0x40
    if o = SEGL.CTRL n then some (4, [SEGL.CTRL_TBLERRCNT n]) else none
  else if 0x1c000 ≤ o && o < 0x1c400 then
    let n := (o - 0x1c000) / 0x20
    if o = EADC.EVT n then some (2, [whole (EADC.EVTCNT n)]) else none
  else if 0x1d000 ≤ o && o < 0x1d800 then
    let x := (o - 0x1d000) / 0x400
    if o = SQ.EVT x then some (5, whole (SQ.EVTCNT x) :: [0, 1, 2, 3].map fun k => whole (SQ.OVRC x k)) else none
  else if 0x1e000 ≤ o && o < 0x1e400 then
    let n := (o - 0x1e000) / 0x20
    if o = CMPL.EVT n then some (4, [whole (CMPL.EVTCNT n)]) else none
  else if 0x20000 ≤ o && o < 0x20200 then
    let k := (o - 0x20000) / 0x40
    if o = AVSP.EVT k then some (4, [whole (AVSP.EVTCNT k)]) else none
  else if 0x20400 ≤ o && o < 0x20800 then
    let n := (o - 0x20400) / 0x20
    if o = AVSL.REF n then some (3, [AVSL.REF_REFCNT n, AVSL.REF_CLIPCNT n]) else none
  else if 0x21000 ≤ o && o < 0x21400 then
    let l := (o - 0x21000) / 0x80
    if o = HINT.EVT l then some (7, [whole (HINT.EVTCNT l), whole (HINT.EVTCNT2 l)]) else none
  else if o = HSW.EVT then some (6, [whole HSW.EVTCNT])
  else if o = BUD.EVT then some (3, [whole BUD.EVTCNT, whole BUD.WMAX])
  else if 0x24000 ≤ o && o < 0x24080 then
    let d := (o - 0x24000) / 0x20
    if o = SEQD.EVT d then some (4, [whole (SEQD.EVTCNT d)]) else none
  else if 0x24400 ≤ o && o < 0x24c00 then
    let r := (o - 0x24400) / 0x20
    if o = SEQR.EVT r then some (3, [whole (SEQR.EVTCNT r)]) else none
  else if o = FLT.EVT then some (5, [whole FLT.EVTCNT, whole FLT.EVTCNT2])
  else if o = THM.EVT then some (4, [whole THM.EVTCNT])
  else if o = EVH.EVT then some (2, [whole EVH.EVTCNT])
  else if inPP o then
    let k := (o - 0x28100) / 0x80
    if o = PP.EVT k then some (2, [whole (PP.EVTCNT k)]) else none
  else if o = HIF.EVT then some (5, [whole HIF.EVTCNT, whole HIF.LOST])
  else if o = PMB.EVT then some (5, [whole PMB.EVTCNT, whole PMB.EVTCNT2])
  else if o = FW.EVT then some (4, [whole FW.EVTCNT])
  else if o = SEC.EVT then some (3, [whole SEC.EVTCNT])
  else if o = TILE.EVT then some (4, [whole TILE.EVTCNT])
  else if o = NVM.EVT then some (3, [whole NVM.EVTCNT])
  else none

/-- The same for a register of a phase die. -/
def cntDie (o : Nat) : Option (Nat × List Fld) :=
  let n := (o - dieWindow) / 0x20000 + 1
  let rel := (o - dieWindow) % 0x20000
  let p := 32 * (n - 1)
  if rel < 0x800 then
    let q := p + rel / 0x40
    if o = PWM.TRIPCNT q then some (0, [PWM.TRIPCNT_CBCCNT q, PWM.TRIPCNT_LTCNT q, PWM.TRIPCNT_RCLRCNT q])
    else if o = PWM.EVCNT q then some (0, [PWM.EVCNT_BOOTCNT q, PWM.EVCNT_ERLYCNT q])
    else none
  else if 0x2000 ≤ rel && rel < 0x2800 then
    let q := p + (rel - 0x2000) / 0x40
    if o = SEG.EVT q then some (4, [whole (SEG.EVTCNT q)]) else none
  else if 0x3010 ≤ rel && rel < 0x3020 then
    let l := (rel - 0x3010) / 4
    some (3, [STB.LANE_CRCCNT n l, STB.LANE_NOACNT n l])
  else if o = STB.EVT n then some (5, [whole (STB.EVTCNT n)])
  else if o = STB.RLYCTL n then some (3, [STB.RLYCTL_RLYCNT n])
  else if 0x4000 ≤ rel && rel < 0x4400 then
    let q := p + (rel - 0x4000) / 0x20
    if o = IADC.EVT q then some (3, [whole (IADC.EVTCNT q)]) else none
  else if o = SQ.EVT (n + 1) then some (5, whole (SQ.EVTCNT (n + 1)) :: [0, 1, 2, 3].map fun k => whole (SQ.OVRC (n + 1) k))
  else none

/-- The CNTCLR bit of a register and the counters it names. -/
def cntClears (o : Nat) : Option (Nat × List Fld) := if dieWindow ≤ o then cntDie o else cntHub o

/-- A CNTCLR bit sets the counters it names to 0; a sleeping processor's ignores it (R85, R405). -/
def Chip.cntClear (s : Chip) (o : Nat) (w : Word) : Chip :=
  match cntClears o with
  | some (b, fs) => if bitAt w.toNat b && !(inPP o && s.polAsleep) then fs.foldl (fun t f => t.put f 0) s else s
  | none => s

/-- Pending MSI-X messages that may be sent now are sent (R428). -/
def Chip.msixFlush (s : Chip) : Chip :=
  if s.bit HIF.STAT_LINKUP && s.inD0 && s.hif.msixEn && s.hif.busMaster && !s.hif.funcMask then
    s.forEach (List.range 32) fun v t =>
      if bitAt (t.get (PBA.BITS_PEND 0)) v && !t.bit (MSIX.VCTRL_MASK v) then
        (t.put (PBA.BITS_PEND 0) (setBitAt (t.get (PBA.BITS_PEND 0)) v false)).linkWake.out (.msix v)
      else t
  else s

/-- What the policy firmware posts beside a write of its own; only a processor that runs can (R430, R431; log entry 203). -/
def Chip.fwPosts (s : Chip) (req : Requester) (posts : List FwPost) : Chip :=
  match req with
  | .pp k => if s.ppRuns k.val then posts.foldl Chip.fwPost s else s
  | _ => s

/-- A write of KICK.GO: a poll starts, or one further poll follows the one in flight (R419). -/
def Chip.kick (s : Chip) : Chip :=
  { s with hif := if s.hif.pollBusy then { s.hif with kickAgain := true } else { s.hif with pollBusy := true } }

/-- A mailbox write that breaks the protocol; which processor it is charged to when another requester made it is left open (R455; log entry 7). -/
def Chip.mboxViolation (s : Chip) : Requester → Chip
  | .pp k => s.mbViolation k.val
  | _ => (s.mbViolation (s.freeVal % 256)).freeNext

/-- A processor may write a word of a completion half: it has taken the slot (R455). -/
def Chip.mboxMay (s : Chip) (req : Requester) (a : Nat) : Bool :=
  match req with
  | .pp k => s.mbState (a / 128) == 2 && s.mbOwner (a / 128) == k.val
  | _ => false

/-- A write to the mailbox RAM. One that carries another STATUS than those of R454 is a violation: the write is dropped, and 0x02 stands in STATUS (R453 to R455; log entry 202). -/
def Chip.mboxWrite (s : Chip) (req : Requester) (a : Nat) (w : Word) : Chip :=
  if a < 0x1000 && a % 128 = 64 && s.mboxMay req a && !mbStatusOk (w.toNat / 256 % 256) then
    { s with mbox := s.mbox.set (a + 1) 2 }.mboxViolation req
  else if 0x1000 ≤ a || (64 ≤ a % 128 && s.mboxMay req a) then
    { s with mbox := (bytesLE 4 w.toNat).zipIdx.foldl (fun m (y : Byte × Nat) => m.set (a + y.2) y.1) s.mbox }
  else s.mboxViolation req

/-- What a write does at a register of a hub block beside its fields. -/
def Chip.hubOps (s : Chip) (m : List Host.Cell) (req : Requester) (o : Nat) (w : Word) (tileOk : Bool) : Chip :=
  let g := fun (lo n : Nat) => wordField w lo n
  if o = PWR.DOMCTL then (if g 0 1 = 1 then s.sleepRequest else s)
  else if 0x14000 ≤ o && o < 0x16000 then
    let n := (o - 0x14000) / 0x100
    if o = COEF.SEL n then (if g 2 1 = 1 then s.swapRequest n (g 0 2) tileOk else s)
    else if o = COEF.TUNECTL n then
      let t := if g 1 1 = 1 then s.tuneAbort n 0xc else s
      if g 0 1 = 1 then (t.tuneStart n).hintTune n else t
    else s
  else if 0x1a000 ≤ o && o < 0x1a800 then
    let n := (o - 0x1a000) / 0x40
    if o = SEGL.CTRL n && g 0 1 = 1 then s.tableSubmit n else s
  else if 0x24000 ≤ o && o < 0x24080 then
    let d := (o - 0x24000) / 0x20
    if o = SEQD.CTRL d then s.domCtrl d (g 2 1 == 1) (g 1 1 == 1) (g 0 1 == 1) else s
  else if o = SEQ.FFCTL then (if g 30 1 = 1 then s.firstArm else s)
  else if o = FLT.GUARD then s.guardWrite (g 1 1 == 1) (g 0 1 == 1)
  else if o = FLT.ACK then s.ackRequest (g 30 2) (g 16 6) (g 0 16)
  else if o = FLT.INJ then (if g 31 1 = 1 then s.faultInject (g 24 4) else s)
  else if o = FLT.SWRAISE then (if g 31 1 = 1 then s.softRaise (g 24 2) (g 16 8) (g 0 8) else s)
  else if o = FLT.CSREQ then (if g 0 1 = 1 then s.coldAsk (g 16 16) else s)
  else if o = EVH.DOORBELL then s.softBell (g 0 11)
  else if inPP o then
    let k := (o - 0x28100) / 0x80
    if o = PP.EOI k then s.endOfInterrupt k (g 0 11) else s
  else if o = HIF.KICK then (if g 0 1 = 1 then s.kick else s)
  else if o = FW.CTRL then
    let t := if g 0 1 = 1 then s.warmRequest m (g 16 16) else s
    match req with
    | .pp _ => if g 1 1 = 1 then t.bootOk else t
    | _ => t
  else if o = FW.MBTAKE then match req with
    | .pp k => s.mbTake k.val (g 0 5)
    | _ => s
  else if o = FW.MBDONE then match req with
    | .pp k => s.mbDone k.val (g 0 5)
    | _ => s
  else if o = TILE.STGCTL then (if g 31 1 = 1 then s.stageGo (g 24 4) (g 0 13) else s)
  else if o = TILE.CMTCTL then
    if g 30 1 = 1 then (if s.stageBusy then s.cmtRefuse none 0x16 0x1ff else s.stageDrop)
    else if g 31 1 = 1 then s.commitStart m none else s
  else s

/-- What a write does at a sequenced converter beside its fields (R222 to R227). -/
def Chip.sqOps (s : Chip) (x rel : Nat) (w : Word) : Chip :=
  let g := fun (lo n : Nat) => wordField w lo n
  if rel = 0 then
    let t := if g 2 1 = 1 then s.sqStop x else s
    if g 1 1 = 1 then t.sqStart x else t
  else if rel = 0x180 then (if g 31 1 = 1 then s.sqInject x (g 0 4) (g 30 1 == 1) else s)
  else if rel = 0x1a0 then
    if g 30 1 = 1 then s.calAbort x
    else if g 31 1 = 1 then s.calStep x (g 28 2) (g 24 4) else s
  else s

/-- What a write does at a register of a phase die beside its fields. -/
def Chip.dieOps (s : Chip) (o : Nat) (w : Word) : Chip :=
  let n := (o - dieWindow) / 0x20000 + 1
  let rel := (o - dieWindow) % 0x20000
  if rel < 0x800 && rel % 0x40 = 0x30 then (if w.getLsbD 0 then s.tripClear (32 * (n - 1) + rel / 0x40) else s)
  else if 0x2000 ≤ rel && rel < 0x2800 && rel % 0x40 = 0x18 then (if w.getLsbD 31 then s.segRetire (32 * (n - 1) + (rel - 0x2000) / 0x40) else s)
  else if rel = 0x3100 then (if w.getLsbD 0 then s.relaySend n else s)
  else if 0x5000 ≤ rel && rel < 0x51ac then s.sqOps (n + 1) (rel - 0x5000) w
  else s

/-- The operations that a register's write starts. -/
def Chip.regOps (s : Chip) (m : List Host.Cell) (req : Requester) (o : Nat) (w : Word) (tileOk : Bool) : Chip :=
  if dieWindow ≤ o then s.dieOps o w
  else if 0x1d000 ≤ o && o < 0x1d800 then s.sqOps ((o - 0x1d000) / 0x400) ((o - 0x1d000) % 0x400) w
  else s.hubOps m req o w tileOk

/-- The bits of a register that a write takes: RW fields, and RWL fields while LOCKED is 0 (R13, R508). -/
def Chip.writeMask (s : Chip) (o : Nat) : Word := if s.bit ACC.ACCST_LOCKED then accMask o (· == .rw) else pairMask o

/-- The fields of a register take a write: the lock and LOCKF, the RW fields, and the W1C flags (R13, R508). -/
def Chip.fieldWrite (s : Chip) (o : Nat) (w : Word) : Chip :=
  let m := s.writeMask o
  let s := if s.bit ACC.ACCST_LOCKED && ((s.reg o ^^^ w) &&& lockMask o) != 0 then s.accEvent ACC.ACCST_LOCKF ACC.ACCCNT_LOCKCNT o else s
  let s := if m = 0 then s else s.regPut o ((s.reg o &&& ~~~m) ||| (w &&& m))
  let c := accMask o (· == .w1c) &&& w
  if c = 0 then s else s.setReg o (s.reg o &&& ~~~c)

/-- A write to a working register. -/
def Chip.regWrite (s : Chip) (m : List Host.Cell) (req : Requester) (o : Nat) (w : Word) (tileOk : Bool) : Chip :=
  ((s.fieldWrite o w).cntClear o w).regOps m req o w tileOk

/-- PMBus may write registers (R440, R509). -/
def Chip.pmbMayWrite (s : Chip) : Bool := s.get PMB.STAT_WP == 0 && s.bit PMB.CFG_REGWEN

/-- A requester has the right to write registers at all (R509). -/
def Chip.mayWrite (s : Chip) : Requester → Bool
  | .mctp | .tap => false
  | .pmbus => s.pmbMayWrite
  | _ => true

/-- A write of a word at an offset by a requester (R415, R505 to R509). -/
def Chip.busWrite (s : Chip) (m : List Host.Cell) (req : Requester) (o : Nat) (w : Word) (tileOk : Bool) : Chip :=
  if !s.reqUp req || !s.mayWrite req then s
  else if req == .pcie && s.bit HIF.CTRL_EN && !mmioFree o then s.event HIF.EVT_MMIOREFF HIF.EVTCNT_MMIOREFCNT 0xe0
  else if o % 4 != 0 then s.accEvent ACC.ACCST_RSVF ACC.ACCCNT_RSVCNT o
  else if inMailbox o then s.mboxWrite req (o - 0x40000) w
  else if inMsix o then (if req == .pcie then (s.fieldWrite o w).msixFlush else s)
  else if (regAt o).isNone then s.accEvent ACC.ACCST_RSVF ACC.ACCCNT_RSVCNT o
  else if s.offAt o then s.accEvent ACC.ACCST_OFFF ACC.ACCCNT_OFFCNT o
  else s.regWrite m req o w tileOk

/-- The low words of snapshots, and the words that each latches (R510). -/
def snapPairs : List (Nat × List Nat) :=
  [(TIME.NOW_LO, [TIME.NOW_HI]), (SEQ.FFTIME_LO, [SEQ.FFTIME_HI]), (FLT.F3TIME_LO, [FLT.F3TIME_HI]), (FLTA.F4TIME_LO, [FLTA.F4TIME_HI]),
   (THMA.SDTIME_LO, [THMA.SDTIME_HI]), (HSW.ENERGY_LO, [HSW.ENERGY_HI]),
   (SEC.EPOCH_LO, SEC.EPOCH_HI :: (List.range 12).map SEC.CDIG)]

/-- The latched words, in order; a requester's latch of word i has key 64 × requester + i. -/
def snapWords : List Nat := snapPairs.flatMap (·.2)

/-- With POL off no mailbox slot reads free: a free one reads as taken (R30; log entry 156). -/
def mbBusy (w : Word) : Word :=
  (List.range 16).foldl (fun v i => if wordField v (2 * i) 2 = 0 then wordPut v (2 * i) 2 2 else v) w

/-- SEG[p].STAT (R178). -/
def inSegStat (o : Nat) : Bool :=
  let rel := (o - dieWindow) % 0x20000
  decide (dieWindow ≤ o) && decide (0x2000 ≤ rel) && decide (rel < 0x2800) && rel % 0x40 == 0x1c

/-- The word that a register shows now: its own, or what follows other state (R30, R43, R347, R501). -/
def Chip.shown (s : Chip) (o : Nat) : Word :=
  if o = TIME.NOW_LO then BitVec.ofNat 32 s.nowLo
  else if o = TIME.NOW_HI then BitVec.ofNat 32 (s.now / 2 ^ 32)
  else if 0x25100 ≤ o && o < 0x25300 && o % 8 = 0 then
    let i := (o - 0x25100) / 8
    if s.get (FLT.ENT0_STATE i) = 0 then s.reg o
    else wordPut (s.reg o) 2 1 (s.faultCond (s.get (FLT.ENT0_CODE i)) (s.get (FLT.ENT0_INST i))).toNat
  else if inSegStat o then
    let p := 32 * ((o - dieWindow) / 0x20000) + (o - dieWindow) % 0x20000 % 0x2000 / 0x40
    wordPut (s.reg o) 3 1 (s.rotOn p 0 || s.rotOn p 1).toNat
  else if (o = FW.MBSTAT0 || o = FW.MBSTAT1) && !s.domOn .pol then mbBusy (s.reg o)
  else if o = NVM.STAT then
    let q := s.nvmLines
    wordPut (wordPut (wordPut (s.reg o) 31 1 s.store.trying.isSome.toNat) 29 1 (decide (0 < q) && !s.bit THM.STAT_WINOPEN).toNat) 0 16 (min 65535 q)
  else s.reg o

/-- A register's word with its WO fields, which read 0 (R13). -/
def Chip.readable (s : Chip) (o : Nat) : Word := s.shown o &&& ~~~(accMask o (· == .wo))

/-- What a requester reads at a working register, and what the read does: claims, the NVM window and snapshots (R45, R400, R501, R510). -/
def Chip.regRead (s : Chip) (m : List Host.Cell) (req : Requester) (o : Nat) : Word × Chip :=
  if inPP o && o = PP.CLAIM ((o - 0x28100) / 0x80) then s.claim ((o - 0x28100) / 0x80)
  else if o = NVM.RDDATA then s.rdData m
  else match snapPairs.find? fun x => x.1 == o with
    | some (_, hs) =>
      (s.readable o, { s with snap := hs.foldl (fun t h => t.set (64 * reqIdx req + snapWords.idxOf h) (s.shown h)) s.snap })
    | none =>
      if snapWords.contains o then (s.snap.get (64 * reqIdx req + snapWords.idxOf o), s) else (s.readable o, s)

/-- A read of the word at an offset by a requester; 0 where no working register answers (R505 to R507, R510). -/
def Chip.busRead (s : Chip) (m : List Host.Cell) (req : Requester) (o : Nat) : Word × Chip :=
  if !s.reqUp req then (0, s)
  else if o % 4 != 0 then (0, s.accEvent ACC.ACCST_RSVF ACC.ACCCNT_RSVCNT o)
  else if inMailbox o then (BitVec.ofNat 32 (natLE ((List.range 4).map fun i => s.mbox.get (o - 0x40000 + i))), s)
  else if (regAt o).isNone then (0, s)
  else if s.offAt o then (0, s.accEvent ACC.ACCST_OFFF ACC.ACCCNT_OFFCNT o)
  else s.regRead m req o

/-- A read whose data goes back to its requester. -/
def Chip.busAnswer (s : Chip) (m : List Host.Cell) (req : Requester) (o : Nat) : Chip :=
  let r := s.busRead m req o
  if s.reqUp req then r.2.out (.data req o r.1 true) else r.2

/-- Whether an offset lies in the register map and is aligned, for REG_READ, REG_WRITE and the MCTP read (R423, R442, R502). -/
def offsetOk (o : Nat) : Bool := o % 4 == 0 && decide (o < 0x200000)

/-- An access in the register map that is not one aligned word is recorded (R507). -/
def Chip.unaligned (s : Chip) (o : Nat) : Chip :=
  if o % 4 != 0 && decide (o < 0x200000) then s.accEvent ACC.ACCST_RSVF ACC.ACCCNT_RSVCNT o else s

end Sys2Proof.Machine
end

