-- ==== Sys2Proof/Machine/Host.lean ====
section
/-! DEFINITION. The PCIe function and the ring commands: the link, resets, power states, polls, kicks, and what every host command does (R172, R354, R414 to R429, R434, R454, R458, R462, R464, R465, R484, R485, R495). -/

namespace Sys2Proof.Machine

/-- The rings, by their number in the RING blocks. -/
def allRings : List Nat := [0, 1, 2, 3, 4, 5, 6, 7, 8, 9, 10, 11, 12, 13, 14, 15, 16, 18, 19, 20, 21]

def Chip.hifUpd (s : Chip) (f : HifHw → HifHw) : Chip := { s with hif := f s.hif }

/-- A flag of HIF.EVT with its counter, and source 0x0E0 (R445, R447). -/
def Chip.hifEvent (s : Chip) (flag cnt : Fld) : Chip := s.event flag cnt 0xe0

/-- What the function presents in configuration space (R413). -/
structure PcieFunction where
  vendor : Nat := 0x1e3c
  device : Nat := 0x8224
  revision : Nat
  classCode : Nat := 0x118000
  subsystem : Nat × Nat
  /-- BAR0: its size and the type in its low four bits, memory, 64-bit, non-prefetchable; and what the four BARs after its pair read. -/
  barSize : Nat := 0x200000
  barType : Nat := 0b0100
  otherBars : List Nat := [0, 0, 0, 0]
  /-- Capabilities: PCI Power Management, PCI Express and MSI-X; and the extended ones, AER and Device Serial Number. -/
  capabilities : List Nat := [0x01, 0x10, 0x11]
  extended : List Nat := [0x0001, 0x0003]
  vectors : Nat := 32
  tableAt : Nat := 0x34000
  pbaAt : Nat := 0x35000
  maxPayload : Nat := 256
  outstanding : Nat := 32
  serial : Nat
deriving DecidableEq, Repr

/-- The function's configuration values (R413). -/
def Chip.pcieFunction (s : Chip) : PcieFunction :=
  { revision := s.get TOP.REVISION_HUB_REV
    subsystem := s.hif.subsystem
    serial := (s.reg TOP.UID0).toNat + 2 ^ 32 * (s.reg TOP.UID1).toNat }

/-- PCIE_LINK_UP: the link trains to L0 at 2.5, 5, 8 or 16 GT/s, one or two lanes wide (R414, R446). -/
def Chip.pcieUp (s : Chip) (gen : Nat) (two : Bool) : Chip :=
  if s.domOn .host && !s.bit HIF.STAT_LINKUP then
    ((((s.put HIF.STAT_LINKUP 1).put HIF.STAT_SPEED (gen + 1)).put HIF.STAT_WIDTH (if two then 2 else 1)).put HIF.STAT_LSTATE 0).put TIME.TBSTAT_TB4OK 1
  else s

/-- A ring is disabled; a command of it that has been fetched is carried out, but its completion is discarded (R416). -/
def Chip.ringKill (s : Chip) (r : Nat) : Chip :=
  let t := ((s.put (RING.CFG_EN r) 0).put (RING.STAT_STATE r) 0).put (RING.STAT_FULL r) 0
  t.ringUpd r fun h => { busy := h.busy.map fun b => { b with dead := true } }

/-- Held completions are discarded and counted, held event entries are dropped and counted (R416, R434). -/
def Chip.heldDiscard (s : Chip) : Chip :=
  let t := s.hif.held.foldl (fun u e => if e.ring = evtRing then u.ringDrop evtRing else u.inc HIF.LOST_CPLLOST) s
  t.hifUpd fun h => { h with held := [], heldEvents := 0, pollBusy := false, kickAgain := false }

/-- What a lost link does to the rings (R416). -/
def Chip.ringsDown (s : Chip) : Chip := ((s.put HIF.CTRL_EN 0).heldDiscard.telDiscard).forEach allRings fun r t => t.ringKill r

/-- PCIE_LINK_DOWN: link down, PERST# or D3cold, and whether the reference TB4 is still present (R42, R46, R416). -/
def Chip.pcieDown (s : Chip) (tb4 : Bool) : Chip :=
  if s.domOn .host && s.bit HIF.STAT_LINKUP then
    let t := (s.ringsDown).hifEvent HIF.EVT_LINKDF HIF.EVTCNT_LINKDCNT
    ((((t.put HIF.STAT_LINKUP 0).put HIF.STAT_SPEED 0).put HIF.STAT_WIDTH 0).put HIF.STAT_LSTATE 3).putB TIME.TBSTAT_TB4OK tb4
  else s

/-- The registers that a Function Level Reset resets: HIF, RING, the MSI-X table and the PBA (R416). -/
def inFunction (o : Nat) : Bool := (decide (0x30000 ≤ o) && decide (o < 0x32000)) || inMsix o

/-- FUNCTION_LEVEL_RESET: as link down, and the function's registers and configuration space take their reset values; LOST survives, and the link stays up (R416, R447). -/
def Chip.flReset (s : Chip) : Chip :=
  if s.domOn .host && s.bit HIF.STAT_LINKUP then
    let t := s.ringsDown
    let st := s.reg HIF.STAT
    let lost := t.reg HIF.LOST
    let t := { t with regs := t.regs.drop inFunction, hif := { evSeq := t.hif.evSeq, subsystem := t.hif.subsystem } }
    let t := ((((t.setReg HIF.STAT st).put HIF.STAT_DSTATE 0).put HIF.STAT_PAUSED 0).setReg HIF.LOST lost)
    t.hifEvent HIF.EVT_FLRF HIF.LOST_FLRCNT
  else s

/-- A held entry is written after the return to D0; completions have been counted for moderation already (R429). -/
def Chip.heldWrite (s : Chip) (e : HeldEntry) : Chip :=
  if e.ring = evtRing then
    (if !s.ringRuns evtRing || s.ringFull evtRing then s.ringDrop evtRing else s.ringPut evtRing e.bytes e.irq)
  else if s.ringRuns e.ring then s.ringStore e.ring e.bytes
  else s.inc HIF.LOST_CPLLOST

/-- POWER_STATE_CHANGE, with the configuration space as the host has written it: the function enters D3hot and pauses, or returns to D0: held entries are written in order, and pending messages are sent (R414, R428, R429). -/
def Chip.powerState (s : Chip) (d3 : Bool) (link : Nat) (pme busMaster msix funcMask : Bool) : Chip :=
  if s.domOn .host && s.bit HIF.STAT_LINKUP then
    let t := s.hifUpd fun h => { h with pmeEn := pme, busMaster := busMaster, msixEn := msix, funcMask := funcMask }
    let t := t.put HIF.STAT_LSTATE link
    if d3 then ((t.telDiscard.put HIF.STAT_DSTATE 3).put HIF.STAT_PAUSED 1).hifUpd fun h => { h with pollBusy := false, kickAgain := false }
    else
      let t := (t.put HIF.STAT_DSTATE 0).put HIF.STAT_PAUSED 0
      let l := t.hif.held
      (l.foldl Chip.heldWrite (t.hifUpd fun h => { h with held := [], heldEvents := 0 })).msixFlush
  else s

/-- MSIX_UNMASK: a vector, or with none the function, is unmasked, or MSI-X or Bus Master is enabled; pending messages are sent (R428). -/
def Chip.msixUnmask (s : Chip) (vec : Option Nat) (msix busMaster : Bool) : Chip :=
  if s.domOn .host then
    let t := s.hifUpd fun h => { h with msixEn := msix, busMaster := busMaster }
    (match vec with
      | some v => t.put (MSIX.VCTRL_MASK v) 0
      | none => t.hifUpd fun h => { h with funcMask := false }).msixFlush
  else s

/-- A ring's host index in the doorbell area (R418). -/
def bellWord (bells : List Word) (r : Nat) : Nat := (bells.getD (if r ≤ 16 then r else r - 1) 0).toNat

/-- The instance by which event entry 0x03 names a ring (R430). -/
def ringInst (r : Nat) : Nat := if r ≤ 16 then r else r - 2

/-- A ring enters error and stops; it is told to the host, unless the event ring itself is in error (R420). -/
def Chip.ringError (s : Chip) (r : Nat) : Chip :=
  let t := (s.put (RING.STAT_STATE r) 3).hifEvent HIF.EVT_RINGERRF HIF.EVTCNT_RINGERRCNT
  if r = evtRing then t
  else t.hostEvent 3 (ringInst r) (bytesLE 4 (t.reg (RING.STAT r)).toNat ++ bytesLE 4 (t.get (RING.HIDX_HIDX r)))

/-- A poll takes a ring's host index and checks it (R419, R420). -/
def Chip.pollRing (s : Chip) (bells : List Word) (r : Nat) : Chip :=
  if s.get (RING.STAT_STATE r) ≠ 1 then s
  else
    let h := bellWord bells r
    let d := s.get (RING.DIDX_DIDX r)
    let n := 2 ^ s.get (RING.CFG_LOG2N r)
    let t := s.put (RING.HIDX_HIDX r) h
    let ahead := if r < 8 then (h + 2 ^ 32 - d) % 2 ^ 32 else (d + 2 ^ 32 - h) % 2 ^ 32
    if n < ahead then t.ringError r else t.fullShow r

/-- Polls and fetches take place: the interface is enabled and the function is in D0 with its link up (R417, R429). -/
def Chip.hostLive (s : Chip) : Bool := s.domOn .host && s.coreRuns && s.bit HIF.CTRL_EN && s.bit HIF.STAT_LINKUP && s.inD0

/-- A poll takes place: one that a KICK started, or the next at a multiple of PINT µs (R419, R539). -/
def Chip.mayPoll (s : Chip) : Bool := s.hif.pollBusy || s.gridAt gridPoll (min 1000 (orOne (s.get HIF.POLL_PINT)))

/-- HOST_POLL: the device has read the doorbell area, or its read failed; a KICK that came while a kicked poll was in flight starts one further poll (R419 to R421; log entry 178). -/
def Chip.hostPoll (s : Chip) (bells : List Word) (ok : Bool) : Chip :=
  if !s.hostLive || !s.mayPoll then s
  else
    let t := if s.hif.pollBusy then s.hifUpd fun h => { h with pollBusy := h.kickAgain, kickAgain := false } else s.gridMark gridPoll
    let t := t.out (.hostRead ((s.reg HIF.DBBASE_LO).toNat + 2 ^ 32 * (s.reg HIF.DBBASE_HI).toNat) 128)
    if ok then t.forEach allRings fun r u => u.pollRing bells r else t.hifEvent HIF.EVT_DMAERRF HIF.EVTCNT_DMAERRCNT

/-- DMA_READ_ERROR: a command ring's read of host memory ends in an error or a timeout (R421). -/
def Chip.dmaError (s : Chip) (r : Nat) : Chip :=
  if s.hostLive && s.get (RING.STAT_STATE r) == 1 then (s.ringError r).hifEvent HIF.EVT_DMAERRF HIF.EVTCNT_DMAERRCNT else s

/-- A command's read of its host buffer fails: the ring stops, and the command ends with status 0x05 (R421, R423). -/
def Chip.bufferFail (s : Chip) (k : Nat) : Chip := ((s.ringError k).hifEvent HIF.EVT_DMAERRF HIF.EVTCNT_DMAERRCNT).cmdDone k 5 0 []

/-- NOP, opcode 0x00; an opcode that R424 does not list completes with status 0x01, whatever else its descriptor holds (R423, R424). -/
def Chip.cmdNop (s : Chip) (c : Cmd) (opcode : Nat) : Chip :=
  if opcode = 0 then s.command c 0x00 [] (c.target == 0) fun t k => t.cmdDone k 0 0 []
  else s.command c opcode [(8, 56)] true fun t k => t.cmdDone k 1 0 []

/-- Registers read in order; the answer has the values read, and the status and index at which the reads stopped (R425, R506). -/
def Chip.readSeq (m : List Host.Cell) (req : Requester) (fail : Option Nat) : List (Nat × Nat) → Chip → List Word → Chip × List Word × Option (Nat × Nat)
  | [], s, vs => (s, vs, none)
  | (i, o) :: l, s, vs =>
    if !offsetOk o then (s.unaligned o, vs, some (4, i))
    else if fail == some i && dieWindow ≤ o && (regAt o).isSome && !s.offAt o then (s.accFail o, vs, some (9, i))
    else let r := s.busRead m req o; Chip.readSeq m req fail l r.2 (vs ++ [r.1])

/-- REG_READ (R424, R425). -/
def Chip.cmdRegRead (s : Chip) (m : List Host.Cell) (c : Cmd) (fail : Option Nat) : Chip :=
  let n := c.target.toNat
  s.command c 0x01 [(8, 4 * n)] (decide (1 ≤ n) && decide (n ≤ 12)) fun t k =>
    let l := (List.range n).map fun i => (i, cmdArg c (8 + 4 * i) 4)
    let (t, vs, e) := Chip.readSeq m .ring fail l t []
    let data := vs.flatMap fun w => bytesLE 4 w.toNat
    match e with
    | some (st, i) => t.cmdDone k st i data
    | none => t.cmdDone k 0 0 data

/-- Register pairs written in order, up to the first that fails. -/
def Chip.writeSeq (m : List Host.Cell) (fail : Option Nat) : List (Nat × Nat × Word) → Chip → Chip × Option (Nat × Nat)
  | [], s => (s, none)
  | (i, o, w) :: l, s =>
    if !offsetOk o then (s.unaligned o, some (4, i))
    else if fail == some i && dieWindow ≤ o && (regAt o).isSome && !s.offAt o then (s.accFail o, some (9, i))
    else Chip.writeSeq m fail l (s.busWrite m .ring o w true)

/-- REG_WRITE (R424, R425). -/
def Chip.cmdRegWrite (s : Chip) (m : List Host.Cell) (c : Cmd) (fail : Option Nat) : Chip :=
  let n := c.target.toNat
  s.command c 0x02 [(8, 8 * n)] (decide (1 ≤ n) && decide (n ≤ 6)) fun t k =>
    let l := (List.range n).map fun i => (i, cmdArg c (8 + 8 * i) 4, BitVec.ofNat 32 (cmdArg c (12 + 8 * i) 4))
    match Chip.writeSeq m fail l t with
    | (t, some (st, i)) => t.cmdDone k st i []
    | (t, none) => t.cmdDone k 0 0 []

/-- A command that the safe state and maintenance hold refuse with status 0x07 (R425, R464). -/
def Chip.unlessHeld (s : Chip) (k : Nat) (f : Chip → Chip) : Chip := if s.inHold || s.inSafe then s.cmdDone k 7 0 [] else f s

/-- SET_VOUT (R260, R262, R264, R425). -/
def Chip.cmdSetVout (s : Chip) (c : Cmd) : Chip :=
  let n := c.target.toNat
  s.command c 0x10 [(8, 2)] (decide (n < 32)) fun t k => t.unlessHeld k fun t =>
    let (u, r) := t.setpointCmd n 0 (cmdArg c 8 2)
    u.cmdDone k (if r = 0 then 0 else 3) r (bytesLE 4 (u.reg (AVSL.SETPT n)).toNat)

/-- SET_SLEW, in µV/µs (R260, R263, R264, R425). -/
def Chip.cmdSetSlew (s : Chip) (c : Cmd) : Chip :=
  let n := c.target.toNat
  s.command c 0x11 [(8, 4)] (decide (n < 32)) fun t k => t.unlessHeld k fun t =>
    let (u, r) := t.slewCmd n 0 (cmdArg c 8 4) 1
    u.cmdDone k (if r = 0 then 0 else 3) r (bytesLE 4 (u.reg (AVSL.SLEW n)).toNat)

/-- A word in the FLT.ACK layout (R353, R368). -/
def Chip.ackWord (s : Chip) (w : Nat) : Chip := s.ackRequest (w / 2 ^ 30 % 4) (w / 2 ^ 16 % 64) (w % 2 ^ 16)

/-- FAULT_ACK: ACKST is returned, and the status is 0x00 whatever RES is (R354, R425). -/
def Chip.cmdFaultAck (s : Chip) (c : Cmd) : Chip :=
  s.command c 0x12 [(8, 4)] (c.target == 0) fun t k =>
    let u := t.ackWord (cmdArg c 8 4)
    u.cmdDone k 0 0 (bytesLE 4 (u.reg FLT.ACKST).toNat)

/-- The domain refuses a START, or a CLR (R324, R333). -/
def Chip.startRefused (s : Chip) (d : Nat) : Bool := !s.mayStart || s.get (SEQD.STAT_STATE d) == 4
def Chip.clrRefused (s : Chip) (d : Nat) : Bool :=
  s.seq.safeStop || (s.domRails d).any fun r => (s.rails.get r).ordered || s.railState r == 5

/-- DOMAIN: 1 START, 2 STOP, 4 CLR (R424, R425, R464). -/
def Chip.cmdDomain (s : Chip) (c : Cmd) : Chip :=
  let d := c.target.toNat
  let op := cmdArg c 8 1
  s.command c 0x13 [(8, 1)] (decide (d < 4) && (op == 1 || op == 2 || op == 4)) fun t k =>
    if t.inHold || (op == 1 && t.inSafe) then t.cmdDone k 7 0 []
    else
      let no := if op = 1 then t.startRefused d else if op = 4 then t.clrRefused d else false
      let u := t.domCtrl d (op == 4) (op == 2) (op == 1)
      u.cmdDone k (if no then 3 else 0) no.toNat (bytesLE 4 (u.reg (SEQD.STAT d)).toNat)

/-- What LOG_READ finds from a sequence number on: the slots are taken in order, valid records are copied, torn ones skipped; the answer has the records, the torn ones, and the number that comes next (R495). -/
def logScan (m : List Host.Cell) (seq0 slot0 : Nat) : Nat → Nat → Nat → List (List Byte) → Nat → List (List Byte) × Nat × Nat
  | 0, _, i, acc, torn => (acc, torn, (seq0 + i) % 2 ^ 32)
  | _, 0, i, acc, torn => (acc, torn, (seq0 + i) % 2 ^ 32)
  | span + 1, n + 1, i, acc, torn =>
    let slot := (slot0 + i) % 65536
    if !nvmUsed m (logBase + 64 * slot) 64 then logScan m seq0 slot0 span (n + 1) (i + 1) acc torn
    else
      let l := logLine m slot
      if lineWhole l then logScan m seq0 slot0 span n (i + 1) (acc ++ [l]) torn
      else logScan m seq0 slot0 span (n + 1) (i + 1) acc (torn + 1)

/-- LOG_READ (R424, R495). -/
def Chip.cmdLogRead (s : Chip) (m : List Host.Cell) (c : Cmd) : Chip :=
  let n := c.target.toNat
  s.command c 0x20 [(8, 4), (16, 8)] (decide (1 ≤ n) && decide (n ≤ 4096)) fun t k =>
    let first := cmdArg c 8 4
    let (recs, torn, next, old) := match logNewest m with
      | none => ([], 0, first, t.get NVM.LOGOLD_SEQ)
      | some (slot, l) =>
        let top := lineSeq l
        let age := (top + 2 ^ 32 - first) % 2 ^ 32
        let oldAge := logOldest m top
        let old := (top + 2 ^ 32 - oldAge) % 2 ^ 32
        if 2 ^ 31 ≤ age then ([], 0, first, old)
        else
          let a := min age oldAge
          let r := logScan m ((top + 2 ^ 32 - a) % 2 ^ 32) ((slot + 2 ^ 32 - a) % 65536) (a + 1) n 0 [] 0
          (r.1, r.2.1, r.2.2, old)
    let t := if torn = 0 then t else ((t.flag NVM.EVT_TORNF).add NVM.EVTCNT_TORNCNT torn).bellTimes 0x1e9 torn
    let t := if recs.isEmpty then t else t.out (.hostWrite (cmdArg c 16 8) recs.flatten)
    t.cmdDone k 0 0 (bytesLE 4 recs.length ++ bytesLE 4 torn ++ bytesLE 4 next ++ bytesLE 4 old)

/-- A health-map tile as it stands: the working copy of its die, or else the memory's (R170, R172). -/
def Chip.mapTile (s : Chip) (m : List Host.Cell) (tile : Nat) : List Byte :=
  if s.linkUp (dieOf (tile / 32)) then s.tileBytes tile else nvmBytes m (mapBase + 256 * tile) 256

/-- MAP_READ: tiles of a phase, 32 to a phase (R424, R480). -/
def Chip.cmdMapRead (s : Chip) (m : List Host.Cell) (c : Cmd) : Chip :=
  let p := c.target.toNat
  let a := cmdArg c 8 1
  let n := cmdArg c 9 1
  s.command c 0x21 [(8, 2), (16, 8)] (decide (p < 224) && decide (a < 32) && decide (1 ≤ n) && decide (a + n ≤ 32)) fun t k =>
    let bytes := (List.range n).flatMap fun i => t.mapTile m (32 * p + a + i)
    (t.out (.hostWrite (cmdArg c 16 8) bytes)).cmdDone k 0 0 (bytesLE 4 n)

/-- TILE_STAGE: it completes once the frame is written (R484). -/
def Chip.cmdTileStage (s : Chip) (c : Cmd) (host : Option (List Byte)) : Chip :=
  let tg := c.target.toNat
  s.command c 0x22 [(16, 8)] (tg / 2 ^ 20 == 0 && tg / 2 ^ 13 % 8 == 0) fun t k =>
    match host with
    | none => t.bufferFail k
    | some l =>
      match t.stageTile (tg / 2 ^ 16) (tg % 2 ^ 13) (padTo 256 l) (BitVec.ofNat 32 (fieldLE l 256 4)) (some k) with
      | (u, some r) => u.cmdDone k 3 r []
      | (u, none) => u

/-- COMMIT with byte 8 = 0x01: it completes as the commit ends (R485). -/
def Chip.cmdCommit (s : Chip) (m : List Host.Cell) (c : Cmd) : Chip :=
  s.command c 0x23 [(8, 1)] (c.target == 0 && cmdArg c 8 1 == 1) fun t k => t.commitStart m (some k)

/-- COMMIT with byte 8 = 0x02: every staged tile is dropped (R485). -/
def Chip.cmdDiscard (s : Chip) (c : Cmd) : Chip :=
  s.command c 0x23 [(8, 1)] (c.target == 0 && cmdArg c 8 1 == 2) fun t k =>
    if t.stageBusy then t.cmtRefuse (some k) 0x16 0x1ff else t.stageDrop.cmdDone k 0 0 []

/-- The slot is running or being loaded (R458, R466, R467). -/
def Chip.slotBusy (s : Chip) (slot : Nat) : Bool :=
  if s.inHold || s.get FW.STAT_START = 3 then false
  else if s.get FW.STAT_START = 2 then s.boot.bootsel == slot
  else s.get FW.STAT_RUNSLOT == slot

/-- IMAGE_STAGE: it completes once its bytes are written (R458, R488). -/
def Chip.cmdImageStage (s : Chip) (c : Cmd) (host : Option (List Byte)) : Chip :=
  let slot := c.target.toNat
  let off := cmdArg c 8 4
  let len := cmdArg c 12 4
  s.command c 0x24 [(8, 8), (16, 8)] (decide (slot < 2) && len % 4 == 0 && decide (1 ≤ len) && decide (len ≤ 65536) && decide (off + len ≤ 0x200000)) fun t k =>
    if t.slotBusy slot then t.cmdDone k 3 1 []
    else match host with
      | none => t.bufferFail k
      | some l => (t.put (FW.SLOT0_VALID slot) 0).jobAdd .image (.image k slot) (lines (slotBase slot + off) (padTo len l))

/-- Boot control may be rewritten: the cold start's integrity scan has not failed (R459). -/
def Chip.bootWritable (s : Chip) : Bool := !(s.inHold && s.get FW.STAT_HOLDRSN == 5)

/-- IMAGE_ACTIVATE: bit 0 of byte 8 asks for the warm start, with which it then completes, and bit 1 is RAISE (R457, R458, R463, R465). -/
def Chip.cmdImageActivate (s : Chip) (m : List Host.Cell) (c : Cmd) : Chip :=
  let slot := c.target.toNat
  let b := cmdArg c 8 1
  s.command c 0x25 [(8, 1)] (decide (slot < 2) && decide (b < 4)) fun t k =>
    match if b % 2 = 1 then t.warmRefusal else none with
    | some (st, d) => t.cmdDone k st d []
    | none =>
      let (t, r) := t.authenticate m slot
      if r ≠ 0 then t.cmdDone k 3 2 [BitVec.ofNat 8 r]
      else
        let t := if t.bootWritable then (t.bootUpd fun x => { x with bootsel := slot, raise := setBitAt x.raise slot (decide (2 ≤ b)) }).bootShow else t
        if b % 2 = 1 then t.warmBegin m true (some k) else t.cmdDone k 0 0 [0]

/-- TOP.UID as 16 bytes (R7, R8). -/
def Chip.uidBytes (s : Chip) : List Byte := [TOP.UID0, TOP.UID1, TOP.UID2, TOP.UID3].flatMap fun o => bytesLE 4 (s.reg o).toNat

/-- An enrolment block is as R462 lays down and its signature verifies under the key it carries. -/
def Chip.enrolOk (s : Chip) (l : List Byte) : Bool :=
  decide (fieldLE l 96 1 < 2) && fieldLE l 97 63 == 0 && ecdsaOk (l.take 96) (sha384 (l.take 160 ++ s.uidBytes)) ((l.drop 160).take 96)

/-- KEY_ENROL (R458, R462, R477). -/
def Chip.cmdKeyEnrol (s : Chip) (c : Cmd) (host : Option (List Byte)) : Chip :=
  s.command c 0x26 [(16, 8)] (c.target == 0) fun t k =>
    match host with
    | none => t.bufferFail k
    | some l =>
      let l := padTo 256 l
      let no := fun (d : Nat) => (t.event SEC.EVT_ENRREFF SEC.EVTCNT_ENRREFCNT 0x1e1).cmdDone k 3 d []
      if t.boot.owner.isSome then no 3
      else if !t.enrolOk l then no 4
      else
        let u := (t.bootUpd fun b => { b with owner := some (l.take 96), ownerOnly := fieldLE l 96 1 == 1 }).bootShow
        ((u.flag SEC.EVT_ENRF).bell 0x1e1).cmdDone k 0 0 []

/-- WARM_START: it completes as its request is accepted (R458, R464, R465). -/
def Chip.cmdWarmStart (s : Chip) (m : List Host.Cell) (c : Cmd) : Chip :=
  s.command c 0x27 [(8, 1)] (c.target == 0 && cmdArg c 8 1 == 0xa5) fun t k =>
    match t.warmRefusal with
    | some (st, d) => t.cmdDone k st d []
    | none => (t.cmdDone k 0 0 []).warmBegin m false none

/-- POLICY_COMMAND: the command goes to the firmware by way of the mailbox; in maintenance hold it is refused (R422, R426, R454, R464). -/
def Chip.cmdPolicy (s : Chip) (c : Cmd) (opcode : Nat) : Chip :=
  s.command c (0x80 + opcode) [(8, 56)] true fun t k => if t.inHold then t.cmdDone k 7 0 [] else t.mbFill

end Sys2Proof.Machine
end

