-- ==== Sys2Proof/Machine/PMBus.lean ====
section
/-! DEFINITION. PMBus: pages, write protection, status, the standard and the manufacturer's commands (R435 to R440, R450, R513, R514). -/

namespace Sys2Proof.Machine

/-- The pages that a write acts on (R436, R514). -/
def Chip.pmbPages (s : Chip) : List Nat := let p := s.get PMB.STAT_PAGE; if p = 0xff then List.range 65 else [p]

/-- The same pages as a set. -/
def Chip.pmbMask (s : Chip) : Nat := let p := s.get PMB.STAT_PAGE; if p = 0xff then pmbEvery else 2 ^ p

/-- The kinds of page (R436). -/
def pgAny (p : Nat) : Bool := decide (p ≤ 0x40)
def pgLoop (p : Nat) : Bool := decide (p < 32)
def pgRail (p : Nat) : Bool := decide (p < 64)
def pgInput (p : Nat) : Bool := p == 0x40
def pgNone (_ : Nat) : Bool := true

/-- The bytes of a reply. -/
def Chip.pmbReply (s : Chip) (l : List Byte) : Chip := s.out (.pmbus (some l))

/-- A block reply carries its byte count first. -/
def blockOf (l : List Byte) : List Byte := BitVec.ofNat 8 l.length :: l

/-- An invalid command or invalid data: bit `b` of STATUS_CML on the pages, and CMLF (R437, R450). -/
def Chip.pmbBad (s : Chip) (pages b : Nat) : Chip :=
  ((s.pmbLatch pages 4 b).event PMB.EVT_CMLF PMB.EVTCNT_CMLCNT 0xe2).out (.pmbus none)

/-- A refusal: REFF and LASTREF (R438, R450). -/
def Chip.pmbRefuse (s : Chip) (code page reason : Nat) : Chip :=
  (((s.put PMB.LASTREF_CMD code).put PMB.LASTREF_PAGE page).put PMB.LASTREF_REASON reason).event PMB.EVT_REFF PMB.EVTCNT_REFCNT 0xe2

/-- A write whose PEC is bad is discarded; so is one without PEC while PECREQ is 1 (R435, R437). -/
def Chip.pmbPec (s : Chip) (pec : Pec) (f : Chip → Chip) : Chip :=
  if !s.reqUp .pmbus then s
  else match pec with
    | .bad => ((s.pmbLatch s.pmbMask 4 5).event PMB.EVT_PECF PMB.EVTCNT_PECCNT 0xe2).out (.pmbus none)
    | .none => if s.bit PMB.CFG_PECREQ then s else f s
    | .good => f s

/-- WRITE_PROTECT lets a command be written (R437). -/
def Chip.wpAllows (s : Chip) (code : Nat) : Bool :=
  let wp := s.get PMB.STAT_WP
  code == 0x10 || wp == 0 || (code == 0 && (wp == 0x40 || wp == 0x20)) || ((code == 0x21 || code == 0x27) && wp == 0x20)

/-- A write of a writable command, under write protection (R437, R439). -/
def Chip.pmbWrite (s : Chip) (code : Nat) (pec : Pec) (f : Chip → Chip) : Chip :=
  s.pmbPec pec fun t =>
    if t.wpAllows code then f t
    else ((t.pmbLatch t.pmbMask 4 6).pmbRefuse code (t.get PMB.STAT_PAGE) 8).out (.pmbus none)

/-- A read of a command on the pages where it is valid (R437). -/
def Chip.pmbRead (s : Chip) (valid : Nat → Bool) (f : Chip → Chip × List Byte) : Chip :=
  if !s.reqUp .pmbus then s
  else if valid (s.get PMB.STAT_PAGE) then let r := f s; r.1.pmbReply r.2
  else s.pmbBad s.pmbMask 7

/-- A command that is only read: a write of it sets bit 6, or bit 7 where the page has no such command (R437). -/
def Chip.pmbOnly (s : Chip) (write : Bool) (pec : Pec) (valid : Nat → Bool) (f : Chip → Chip × List Byte) : Chip :=
  if write then s.pmbPec pec fun t =>
    t.pmbBad t.pmbMask (if t.get PMB.STAT_PAGE = 0xff || valid (t.get PMB.STAT_PAGE) then 6 else 7)
  else s.pmbRead valid f

/-- A reply that is the same in every state. -/
def Chip.pmbFixed (s : Chip) (write : Bool) (pec : Pec) (valid : Nat → Bool) (l : List Byte) : Chip := s.pmbOnly write pec valid fun t => (t, l)

/-- Invalid data in a write: bit 6 and a refusal with reason 0. -/
def Chip.pmbData (s : Chip) (code : Nat) : Chip := (s.pmbBad s.pmbMask 6).pmbRefuse code (s.get PMB.STAT_PAGE) 0

/-- PAGE (R436). -/
def Chip.pmbPage (s : Chip) (write : Option Byte) (pec : Pec) : Chip :=
  match write with
  | none => s.pmbRead pgNone fun t => (t, bytesLE 1 (t.get PMB.STAT_PAGE))
  | some v => s.pmbWrite 0 pec fun t =>
    if v.toNat ≤ 0x40 || v.toNat = 0xff then (t.put PMB.STAT_PAGE v.toNat).pmbReply [] else t.pmbData 0

/-- WRITE_PROTECT (R437). -/
def Chip.pmbProtect (s : Chip) (write : Option Byte) (pec : Pec) : Chip :=
  match write with
  | none => s.pmbRead pgNone fun t => (t, bytesLE 1 (t.get PMB.STAT_WP))
  | some v => s.pmbWrite 0x10 pec fun t =>
    if [0x80, 0x40, 0x20, 0].contains v.toNat then (t.put PMB.STAT_WP v.toNat).pmbReply [] else t.pmbData 0x10

/-- OPERATION: 0x80 while the rail is GOOD (R437, R513). -/
def Chip.pmbOperation (s : Chip) (write : Option Byte) (pec : Pec) : Chip :=
  s.pmbOnly write.isSome pec pgRail fun t => (t, [if t.railState (t.get PMB.STAT_PAGE) = 4 then 0x80 else 0])

/-- A status byte of a page (R438). -/
def Chip.pmbByte (s : Chip) (q j : Nat) : Nat :=
  (List.range 8).foldl (fun a b => a + if bitAt (s.pmb.status.get (8 * j + b)) q then 2 ^ b else 0) 0

/-- Bits of a status byte clear on some pages; a FAULT_N that is still asserted latches again (R438). -/
def Chip.pmbClear (s : Chip) (pages j mask : Nat) : Chip :=
  let st := (List.range 8).foldl (fun t b => if bitAt mask b then t.upd (8 * j + b) (fun v => v - (v &&& pages)) else t) s.pmb.status
  let t := { s with pmb := { s.pmb with status := st } }
  if t.faultLow then t.pmbLatch pmbEvery 5 1 else t.pmbAlert

/-- CLEAR_FAULTS (R437, R514). -/
def Chip.pmbClearFaults (s : Chip) (pec : Pec) : Chip :=
  s.pmbWrite 3 pec fun t => (t.forEach (List.range 6) fun j u => u.pmbClear t.pmbMask j 0xff).pmbReply []

/-- STATUS_WORD: OFF and POWER_GOOD# live, the other bits summaries (R438); the places of the bits are PMBus's. -/
def Chip.pmbWord (s : Chip) (q : Nat) : Nat :=
  let by' := s.pmbByte q
  let st := s.railState q
  let rail := decide (q < 64)
  let off := rail && st != 3 && st != 4 && st != 5
  let ng := rail && st != 4
  let other := by' 0 % 128 != 0 || by' 2 - (by' 2 &&& 16) != 0 || by' 5 != 0 || by' 1 % 128 != 0
  (by' 0 != 0).toNat * 2 ^ 15 + (by' 1 != 0).toNat * 2 ^ 14 + (by' 2 != 0).toNat * 2 ^ 13 + (by' 5 != 0).toNat * 2 ^ 12 + ng.toNat * 2 ^ 11
    + off.toNat * 2 ^ 6 + (bitAt (by' 0) 7).toNat * 2 ^ 5 + (bitAt (by' 1) 7).toNat * 2 ^ 4 + (bitAt (by' 2) 4).toNat * 2 ^ 3
    + (by' 3 != 0).toNat * 2 ^ 2 + (by' 4 != 0).toNat * 2 + other.toNat

/-- Which latched byte a status command reads: codes 0x7A to 0x7E, and 0x80. -/
def statusByte : Nat → Option Nat
  | 2 => some 0
  | 3 => some 1
  | 4 => some 2
  | 5 => some 3
  | 6 => some 4
  | 8 => some 5
  | _ => none

/-- A read of STATUS_BYTE to STATUS_MFR_SPECIFIC, code 0x78 + `code`; 0x7F, and the code that `other` gives in its place, is not listed (R437, R438). -/
def Chip.pmbStatus (s : Chip) (code : Nat) (other : Option Byte) : Chip :=
  if code = 7 || other.isSome then s.pmbRead (fun _ => false) fun t => (t, [])
  else s.pmbRead pgAny fun t =>
    let q := t.get PMB.STAT_PAGE
    match statusByte code with
    | some j => (t, bytesLE 1 (t.pmbByte q j))
    | none => (t, if code = 0 then bytesLE 1 (t.pmbWord q) else bytesLE 2 (t.pmbWord q))

/-- A write-1-to-clear of a status byte; STATUS_BYTE's bits only summarise, and STATUS_WORD is read only; a code that `other` gives in its place is not listed (R437, R438). -/
def Chip.pmbStatusClear (s : Chip) (code value : Nat) (pec : Pec) (other : Option Byte) : Chip :=
  if code = 7 || code = 1 || other.isSome then s.pmbPec pec fun t => t.pmbBad t.pmbMask (if code = 7 || other.isSome then 7 else 6)
  else s.pmbWrite (0x78 + code) pec fun t =>
    match statusByte code with
    | some j => (t.pmbClear t.pmbMask j value).pmbReply []
    | none => t.pmbReply []

/-- A setpoint or slew command on each page that the write acts on, checked as from PMBus (R260 to R264, R438, R439, R514). -/
def Chip.pmbCommands (s : Chip) (code : Nat) (f : Chip → Nat → Chip × Nat) : Chip :=
  let step := fun (t : Chip) (q : Nat) =>
    if q < 32 then
      let (u, r) := f t q
      if r = 0 then u else (u.pmbRefuse code q r).pmbLatch (2 ^ q) 5 0
    else (t.pmbLatch (2 ^ q) 4 7).event PMB.EVT_CMLF PMB.EVTCNT_CMLCNT 0xe2
  (s.pmbPages.foldl step s).pmbReply []

/-- VOUT_COMMAND, written (R262, R439). -/
def Chip.pmbVout (s : Chip) (v : Nat) (pec : Pec) : Chip := s.pmbWrite 0x21 pec fun t => t.pmbCommands 0x21 fun u q => u.setpointCmd q 2 v

/-- The nearest integer to a quotient; which one, where two are as near, is left open (log entry 7). -/
def Chip.nearest (s : Chip) (n : Int) (d : Nat) : Chip × Int :=
  if 2 * (n % d) = d then (s.freeNext, n / d + (s.freeVal % 2 : Nat)) else (s, rne n d)

/-- A LINEAR11 word as a fraction: 11 bits of mantissa, 5 of exponent, both signed (PMBus). -/
def lin11Num (w : Nat) : Int := signedOf 11 w * 2 ^ (signedOf 5 (w / 2 ^ 11)).toNat
def lin11Den (w : Nat) : Nat := 2 ^ (-(signedOf 5 (w / 2 ^ 11))).toNat

/-- VOUT_TRANSITION_RATE, written: mV/µs to µV/µs, rounded to nearest, 0 acting as 1; for a negative rate the spec states no result, and the value is free (R263; log entry 7). -/
def Chip.pmbRate (s : Chip) (w : Nat) (pec : Pec) : Chip :=
  s.pmbWrite 0x27 pec fun t => t.pmbCommands 0x27 fun u q =>
    if lin11Num w < 0 then u.freeNext.slewCmd q 2 u.freeVal 1
    else let r := u.nearest (lin11Num w * 1000) (lin11Den w); r.1.slewCmd q 2 r.2.toNat 1

/-- A fraction as a LINEAR11 word. The spec names the format only: the exponent is a free one of those whose mantissa fits, and the rounding is free between the two neighbours (log entry 7). -/
def Chip.lin11 (s : Chip) (n : Int) (d : Nat) : Chip × Nat :=
  let sc := fun (k : Nat) => if k < 16 then (n * 2 ^ (16 - k), d) else (n, d * 2 ^ (k - 16))
  let fit := (List.range 32).filter fun k => let q := (sc k).1 / ((sc k).2 : Int); decide (-1024 ≤ q) && decide (q < 1023)
  let k := fit.getD (s.freeVal % max 1 fit.length) 31
  let (t, m) := s.freeNext.openDiv (sc k).1 (sc k).2
  (t, (k + 16) % 32 * 2 ^ 11 + bitsOf 11 m)

/-- A LINEAR11 reply. -/
def Chip.linReply (s : Chip) (n : Int) (d : Nat) : Chip × List Byte := let r := s.lin11 n d; (r.1, bytesLE 2 r.2)

/-- A register field in a reply of two bytes. -/
def wordReply (t : Chip) (f : Nat → Fld) : Chip × List Byte := (t, bytesLE 2 (t.get (f (t.get PMB.STAT_PAGE))))

/-- READ_VOUT in 0.25 mV: a result of the rail's sense input from the last 10 ms, V = RESULT × 1,250 mV × 4 ÷ (G × 2^23), or the estimate (R217, R437). -/
def Chip.voutNow (s : Chip) (q : Nat) : Chip × Int :=
  let (at', res, g) := s.senseRes.get q
  if at' ≠ 0 && decide (s.now + 1 ≤ at' + 10000) then s.openDiv (signedOf 24 res * 20000) (2 ^ g * 2 ^ 23)
  else if q < 32 then (s, s.get (LOOP.TARGET_VTGT q) - s.getS (LOOP.ERRMON_ECODE q))
  else (s, 0)

/-- READ_VIN, READ_IIN and READ_PIN: 10 mV, 10 mA and 0.25 W (R437). -/
def Chip.pmbVin (s : Chip) (w : Bool) (pec : Pec) : Chip := s.pmbOnly w pec pgInput fun t => t.linReply (t.get HSW.VI_VIN) 100
def Chip.pmbIin (s : Chip) (w : Bool) (pec : Pec) : Chip := s.pmbOnly w pec pgInput fun t => t.linReply (t.getS HSW.VI_IIN) 100
def Chip.pmbPin (s : Chip) (w : Bool) (pec : Pec) : Chip := s.pmbOnly w pec pgInput fun t => t.linReply (t.get HSW.PV_PIN) 4

/-- READ_VOUT (R437). -/
def Chip.pmbReadVout (s : Chip) (w : Bool) (pec : Pec) : Chip :=
  s.pmbOnly w pec pgRail fun t => let r := t.voutNow (t.get PMB.STAT_PAGE); (r.1, bytesLE 2 (bitsOf 16 (satS 16 r.2)))

/-- READ_IOUT, in sixteenths of an ampere, and READ_POUT, the product with READ_VOUT (R437). -/
def Chip.pmbIout (s : Chip) (w : Bool) (pec : Pec) : Chip :=
  s.pmbOnly w pec pgLoop fun t => t.linReply (t.getS (LOOP.ISUM_ISUM (t.get PMB.STAT_PAGE))) 16
def Chip.pmbPout (s : Chip) (w : Bool) (pec : Pec) : Chip :=
  s.pmbOnly w pec pgLoop fun t =>
    let r := t.voutNow (t.get PMB.STAT_PAGE)
    r.1.linReply (r.2 * t.getS (LOOP.ISUM_ISUM (t.get PMB.STAT_PAGE))) 64000

/-- READ_TEMPERATURE_1, in eighths of a degree; a loop with no active phase has none, and the word is free (R437). -/
def Chip.pmbTemp (s : Chip) (w : Bool) (pec : Pec) : Chip :=
  s.pmbOnly w pec (fun p => pgLoop p || pgInput p) fun t =>
    let q := t.get PMB.STAT_PAGE
    if q = 0x40 then t.linReply (t.getS THM.STAT_HUBTJ) 8
    else match t.hotStage q with
      | some v => t.linReply v 8
      | none => (t.freeNext, bytesLE 2 t.freeVal)

/-- IOUT_OC_FAULT_LIMIT: ILIM, in sixteenths of an ampere (R261, R437). -/
def Chip.pmbOcLimit (s : Chip) (w : Bool) (pec : Pec) : Chip :=
  s.pmbOnly w pec pgLoop fun t => t.linReply (t.get (AVSL.ILIM_ILIM (t.get PMB.STAT_PAGE))) 16

/-- VOUT_COMMAND, VOUT_TRANSITION_RATE, VOUT_MAX and VOUT_MIN, read (R437, R513). -/
def Chip.pmbVoutRead (s : Chip) : Chip := s.pmbRead pgLoop fun t => wordReply t AVSL.SETPT_SETPT
def Chip.pmbRateRead (s : Chip) : Chip := s.pmbRead pgLoop fun t => t.linReply (t.get (AVSL.SLEW_SLEWCMD (t.get PMB.STAT_PAGE))) 1000
def Chip.pmbVoutMax (s : Chip) (w : Bool) (pec : Pec) : Chip := s.pmbOnly w pec pgLoop fun t => wordReply t AVSL.VLIM_VMAX
def Chip.pmbVoutMin (s : Chip) (w : Bool) (pec : Pec) : Chip := s.pmbOnly w pec pgLoop fun t => wordReply t AVSL.VLIM_VMIN

/-- The text of a name as bytes. -/
def textBytes (l : List Char) : List Byte := l.map fun c => BitVec.ofNat 8 c.toNat

/-- The identification blocks (R437). -/
def Chip.pmbId (s : Chip) (w : Bool) (pec : Pec) : Chip := s.pmbFixed w pec pgNone (blockOf (textBytes ['I', 'K', 'I', 'M', 'U', 'N', 'D']))
def Chip.pmbModel (s : Chip) (w : Bool) (pec : Pec) : Chip := s.pmbFixed w pec pgNone (blockOf (textBytes ['C', 'X', '8', '2', '2', '4']))
def Chip.pmbRevision (s : Chip) (w : Bool) (pec : Pec) : Chip :=
  s.pmbOnly w pec pgNone fun t =>
    (t, blockOf (bytesLE 1 (t.get TOP.REVISION_HUB_REV) ++ bytesLE 1 (t.get TOP.REVISION_PX_REV) ++ bytesLE 1 (t.get TOP.REVISION_ROM_REV)))
def Chip.pmbSerial (s : Chip) (w : Bool) (pec : Pec) : Chip := s.pmbOnly w pec pgNone fun t => (t, blockOf t.uidBytes)

/-- MFR_REG_ADDR; an offset that is not a multiple of 4 is invalid data (R440). -/
def Chip.pmbRegAddr (s : Chip) (write : Option Word) (pec : Pec) : Chip :=
  match write with
  | none => s.pmbRead pgNone fun t => (t, blockOf (bytesLE 4 t.pmb.regAddr))
  | some v => s.pmbWrite 0xd0 pec fun t =>
    if v.toNat % 4 = 0 then { t with pmb := { t.pmb with regAddr := v.toNat } }.pmbReply [] else t.pmbData 0xd0

/-- The offset moves on by 4 (R440). -/
def Chip.pmbAdvance (s : Chip) : Chip := { s with pmb := { s.pmb with regAddr := (s.pmb.regAddr + 4) % 2 ^ 32 } }

/-- The register at the offset lies on a phase die that is on, so that its access may fail (R506). -/
def Chip.dieAccess (s : Chip) (o : Nat) : Bool := dieWindow ≤ o && (regAt o).isSome && !s.offAt o

/-- MFR_REG_DATA, read; `dieOk` false is an access whose resends all fail (R440, R506). -/
def Chip.pmbRegRead (s : Chip) (m : List Host.Cell) (dieOk : Bool) : Chip :=
  s.pmbRead pgNone fun t =>
    let o := t.pmb.regAddr
    if !dieOk && t.dieAccess o then (((t.accFail o).pmbLatch t.pmbMask 4 1).pmbAdvance, blockOf (bytesLE 4 0xffffffff))
    else let r := t.busRead m .pmbus o; (r.2.pmbAdvance, blockOf (bytesLE 4 r.1.toNat))

/-- MFR_REG_DATA, written, with WRITE_PROTECT 0x00 and REGWEN = 1 (R440, R506, R509). -/
def Chip.pmbRegWrite (s : Chip) (m : List Host.Cell) (v : Word) (dieOk : Bool) (pec : Pec) : Chip :=
  s.pmbWrite 0xd1 pec fun t =>
    let o := t.pmb.regAddr
    if !t.bit PMB.CFG_REGWEN then (t.pmbRefuse 0xd1 (t.get PMB.STAT_PAGE) 8).out (.pmbus none)
    else if !dieOk && t.dieAccess o then (((t.accFail o).pmbLatch t.pmbMask 4 1).pmbAdvance).pmbReply []
    else ((t.busWrite m .pmbus o v true).pmbAdvance).pmbReply []

/-- MFR_FAULT_SUMMARY, MFR_FAULT_ACK, MFR_DOMAIN, MFR_EPOCH and MFR_SEQ_STATE (R440). -/
def Chip.pmbSummary (s : Chip) (w : Bool) (pec : Pec) : Chip :=
  s.pmbOnly w pec pgNone fun t => (t, blockOf (bytesLE 4 (t.reg FLT.STAT).toNat ++ bytesLE 4 (t.reg FLT.LATCH3).toNat))
def Chip.pmbAck (s : Chip) (v : Nat) (pec : Pec) : Chip := s.pmbWrite 0xd3 pec fun t => (t.ackWord v).pmbReply []
def Chip.pmbDomain (s : Chip) (v : Nat) (pec : Pec) : Chip :=
  s.pmbWrite 0xd4 pec fun t =>
    let op := v / 4
    if op = 1 || op = 2 || op = 4 then (t.domCtrl (v % 4) (op == 4) (op == 2) (op == 1)).pmbReply [] else t.pmbData 0xd4
def Chip.pmbEpoch (s : Chip) (w : Bool) (pec : Pec) : Chip := s.pmbOnly w pec pgNone fun t => (t, blockOf (bytesLE 8 t.epoch))
def Chip.pmbSeqState (s : Chip) (w : Bool) (pec : Pec) : Chip :=
  s.pmbOnly w pec pgNone fun t => (t, blockOf ([0, 1, 2, 3].flatMap fun d => bytesLE 1 (t.get (SEQD.STAT_STATE d))))

/-- SCL held low for more than 25 ms (R435). -/
def Chip.smbTimeout (s : Chip) : Chip := if s.reqUp .pmbus then s.event PMB.EVT_TOF PMB.EVTCNT_TOCNT 0xe2 else s

/-- The Alert Response Address is answered with the device's address while PMB_ALERT_N is low (R435). -/
def Chip.alertAnswer (s : Chip) : Chip :=
  if !s.reqUp .pmbus then s
  else if s.bit PMB.STAT_ALERT then s.pmbReply (bytesLE 1 (2 * s.get PMB.CFG_ADDR)) else s.out (.pmbus none)

end Sys2Proof.Machine
end

