-- ==== Sys2Proof/Machine/Mctp.lean ====
section
/-! DEFINITION. MCTP: packets and their reassembly, the control commands, and the vendor-defined register read (R441, R442). The formats are those of DSP0236, which the rule names (PRESUMED). -/

namespace Sys2Proof.Machine

def Chip.mctpUpd (s : Chip) (f : MctpHw → MctpHw) : Chip := { s with mctp := f s.mctp }

/-- MCTP is served: HOST is on and MCTPEN is 1 (R441, R450). -/
def Chip.mctpUp (s : Chip) : Bool := s.reqUp .mctp && s.bit PMB.CFG_MCTPEN

/-- A message that answers `q`. -/
def Chip.mctpSend (s : Chip) (q : MctpMsg) (type : Nat) (body : List Byte) : Chip := s.out (.mctp q.binding q.src type body)

/-- Byte i of a message. -/
def MctpMsg.at (q : MctpMsg) (i : Nat) : Nat := (q.body.getD i 0).toNat

/-- The SPDM requests that the responder has (R443). -/
def spdmCodes : List Nat := [0x84, 0xe1, 0xe3, 0x81, 0x82, 0x83, 0xe0, 0x86]

/-- Which supported request a message is: a control command 1 to 5, 0x100 for REG_READ, 0x200 and its code for SPDM (R441 to R443). -/
def MctpMsg.kind (q : MctpMsg) : Option Nat :=
  if q.at 0 = 0 then (if 3 ≤ q.body.length && 128 ≤ q.at 1 && 1 ≤ q.at 2 && q.at 2 ≤ 5 then some (q.at 2) else none)
  else if q.at 0 = 0x7e then (if 4 ≤ q.body.length && q.at 1 == 0x1e && q.at 2 == 0x3c && q.at 3 == 1 then some 0x100 else none)
  else if q.at 0 = 5 then (if 5 ≤ q.body.length && spdmCodes.contains (q.at 2) then some (0x200 + q.at 2) else none)
  else none

/-- An SPDM error (R443). -/
def Chip.spdmError (s : Chip) (q : MctpMsg) (code data : Nat) (ext : List Byte) : Chip :=
  s.mctpSend q 5 ([0x12, 0x7f] ++ bytesLE 1 code ++ bytesLE 1 data ++ ext)

/-- A whole message: a supported request waits for its answer, any other control or SPDM request is answered at once (R441, R443), and a message of another type or of another vendor is not taken. -/
def Chip.mctpWhole (s : Chip) (q : MctpMsg) : Chip :=
  if q.kind.isSome then s.mctpUpd fun h => { h with inbox := h.inbox ++ [q] }
  else if q.at 0 = 0 then
    if 3 ≤ q.body.length && 128 ≤ q.at 1 then s.mctpSend q 0 (bytesLE 1 (q.at 1 % 32) ++ bytesLE 1 (q.at 2) ++ [5]) else s
  else if q.at 0 = 5 then
    if 5 ≤ q.body.length then (if 128 ≤ q.at 2 then s.spdmError q 7 (q.at 2) [] else s) else s.spdmError q 1 0 []
  else s

/-- A message is dropped (R441). -/
def Chip.mctpDrop (s : Chip) : Chip := s.event PMB.EVT_MDROPF PMB.EVTCNT2_MDROPCNT 0xe2

/-- MCTP_PACKET: messages are reassembled up to 4,096 bytes, four at once; a packet for another endpoint, or one that continues no message, is not taken (R441). -/
def Chip.mctpPacket (s : Chip) (b src dest : Nat) (som eom : Bool) (seq tag : Nat) (pl : List Byte) : Chip :=
  let mine := dest == s.get PMB.STAT_EID || dest == 0 || dest == 0xff
  if !s.mctpUp || !mine || (b == 1 && !s.bit HIF.STAT_LINKUP) || (b == 0 && decide (64 < pl.length)) then s
  else
    let same := fun (p : MctpPart) => p.binding == b && p.src == src && p.tag == tag
    let old := s.mctp.parts.find? same
    let t := s.mctpUpd fun h => { h with parts := h.parts.filter fun p => !same p }
    let take := fun (t : Chip) (body : List Byte) =>
      if 4096 < body.length then t.mctpDrop
      else if eom then t.mctpWhole ⟨b, src, tag, body⟩
      else if 4 ≤ t.mctp.parts.length then t.mctpDrop
      else t.mctpUpd fun h => { h with parts := h.parts ++ [⟨b, src, tag, (seq + 1) % 4, body⟩] }
    if som then take (if old.isSome then t.mctpDrop else t) pl
    else match old with
      | none => s
      | some p => if p.seq = seq then take t (p.body ++ pl) else t.mctpDrop

/-- The answer to the k-th message that waits, if it is of the named kind. -/
def Chip.mctpAnswer (s : Chip) (k kind : Nat) (f : Chip → MctpMsg → Chip) : Chip :=
  match s.mctp.inbox[k]? with
  | some q => if s.mctpUp && q.kind == some kind then f (s.mctpUpd fun h => { h with inbox := h.inbox.eraseIdx k }) q else s
  | none => s

/-- A control response: the instance, the command, the completion code and the data. -/
def Chip.ctlReply (s : Chip) (q : MctpMsg) (cc : Byte) (data : List Byte) : Chip :=
  s.mctpSend q 0 (bytesLE 1 (q.at 1 % 32) ++ bytesLE 1 (q.at 2) ++ [cc] ++ data)

/-- A control command whose request has a fixed length of data. -/
def Chip.ctlAnswer (s : Chip) (k cmd len : Nat) (f : Chip → MctpMsg → Chip) : Chip :=
  s.mctpAnswer k cmd fun t q => if q.body.length = 3 + len then f t q else t.ctlReply q 3 []

/-- Set Endpoint ID: the EID in use, unless SEID is not 0 (R441). -/
def Chip.setEid (s : Chip) (k : Nat) : Chip :=
  s.ctlAnswer k 1 2 fun t q =>
    let op := q.at 3 % 4
    let e := q.at 4
    let done := fun (u : Chip) => u.ctlReply q 0 ([0] ++ bytesLE 1 (u.get PMB.STAT_EID) ++ [0])
    if t.get PMB.CFG_SEID ≠ 0 then t.ctlReply q Config.opRejected []
    else if op ≤ 1 then (if e = 0 || e = 0xff then t.ctlReply q 2 [] else done (t.put PMB.STAT_EID e))
    else if op = 3 && q.binding = 1 then done t
    else t.ctlReply q 2 []

/-- Get Endpoint ID: the EID, the type of endpoint and of EID (R441). -/
def Chip.getEid (s : Chip) (k : Nat) : Chip :=
  s.ctlAnswer k 2 0 fun t q => t.ctlReply q 0 (bytesLE 1 (t.get PMB.STAT_EID) ++ [if t.get PMB.CFG_SEID = 0 then 0 else 2] ++ [0])

/-- Get Endpoint UUID (R441). -/
def Chip.getUuid (s : Chip) (k : Nat) : Chip :=
  s.ctlAnswer k 3 0 fun t q => t.ctlReply q 0 ((List.finRange 16).map Config.uuid)

/-- Get MCTP Version Support, for the base specification and the types that the device serves (R441). -/
def Chip.getMctpVersion (s : Chip) (k : Nat) : Chip :=
  s.ctlAnswer k 4 1 fun t q =>
    let x := q.at 3
    if [0xff, 0, 5, 0x7e].contains x then t.ctlReply q 0 (1 :: bytesLE 4 (Config.mctpVersion (Fin.ofNat 256 x)).toNat) else t.ctlReply q 0x80 []

/-- Get Message Type Support: SPDM and vendor-defined PCI (R441). -/
def Chip.getMessageTypes (s : Chip) (k : Nat) : Chip := s.ctlAnswer k 5 0 fun t q => t.ctlReply q 0 [2, 5, 0x7e]

/-- REG_READ over MCTP; `fail` is the index of a phase-die access whose resends all fail (R442). -/
def Chip.mctpRegRead (s : Chip) (m : List Host.Cell) (k : Nat) (fail : Option Nat) : Chip :=
  s.mctpAnswer k 0x100 fun t q =>
    let arg := q.body.drop 4
    let n := arg.length / 4
    let say := fun (u : Chip) (code : Byte) (data : List Byte) => u.mctpSend q 0x7e ([0x1e, 0x3c, 1, code] ++ data)
    if arg.length % 4 ≠ 0 || n = 0 || 32 < n then say t 2 []
    else
      let (u, vs, e) := Chip.readSeq m .mctp fail ((List.range n).map fun i => (i, fieldLE arg (4 * i) 4)) t []
      let data := vs.flatMap fun w => bytesLE 4 w.toNat
      match e with
      | none => say u 0 data
      | some (code, _) => if code = 9 then say u 3 data else say u 1 []

end Sys2Proof.Machine
end

