-- ==== Sys2Proof/Machine/Spdm.lean ====
section
/-! DEFINITION. The SPDM 1.2 responder: connection, certificates, challenge, measurements and large responses (R443, R444, R461, R470). The formats are those of DSP0274, which the rule names (PRESUMED). -/

namespace Sys2Proof.Machine

def Chip.spdm (s : Chip) (q : MctpMsg) : SpdmConn := s.mctp.spdm.get q.binding
def Chip.spdmUpd (s : Chip) (q : MctpMsg) (f : SpdmConn → SpdmConn) : Chip := s.mctpUpd fun h => { h with spdm := h.spdm.upd q.binding f }

/-- The SPDM request within a message. -/
def MctpMsg.spdm (q : MctpMsg) : List Byte := q.body.drop 1

/-- Bytes drawn at random, as a nonce (log entry 7). -/
def Chip.freshBytes (s : Chip) (n : Nat) : Chip × List Byte := (s.freeNext, bytesLE n s.freeVal)

/-- A response: whole, or as a large response in chunks, or an error where the requester takes neither (R443). -/
def Chip.spdmSend (s : Chip) (q : MctpMsg) (r : List Byte) : Chip :=
  let c := s.spdm q
  if r.length ≤ c.size then s.mctpSend q 5 r
  else if c.chunks then
    let h := (c.handle + 1) % 256
    (s.spdmUpd q fun c => { c with handle := h, large := some r, sent := 0, chunk := 0 }).spdmError q 0x0f 0 (bytesLE 1 h)
  else s.spdmError q 0x0d 0 (bytesLE 4 r.length)

/-- An SPDM request that waits: its version is 1.2, its length is at least `len`, and the connection stands at `stage` (R443). A measurement transcript ends at any other request. -/
def Chip.spdmAnswer (s : Chip) (k code stage len : Nat) (f : Chip → MctpMsg → Chip) : Chip :=
  s.mctpAnswer k (0x200 + code) fun t q =>
    let t := if code = 0x86 then t else t.spdmUpd q fun c => { c with large := none, meas := if code = 0xe0 then c.meas else [] }
    if q.at 1 ≠ 0x12 then t.spdmError q 0x41 0 []
    else if (t.spdm q).stage ≠ stage then t.spdmError q 4 0 []
    else if q.spdm.length < len then t.spdmError q 1 0 []
    else f t q

/-- GET_VERSION: version 1.2 only; the connection begins anew (R443). -/
def Chip.spdmVersion (s : Chip) (k : Nat) : Chip :=
  s.mctpAnswer k 0x284 fun t q =>
    if q.at 1 ≠ 0x10 then t.spdmError q 0x41 0 []
    else
      let r : List Byte := [0x10, 0x04, 0, 0, 0, 1, 0x00, 0x12]
      (t.spdmUpd q fun c => { stage := 1, vca := q.spdm ++ r, handle := c.handle }).mctpSend q 5 r

/-- The responder's capabilities: CERT, CHAL, MEAS signed, MEAS_FRESH and CHUNK (R443). -/
def spdmCaps : Nat := 2 + 4 + 2 * 2 ^ 3 + 2 ^ 5 + 2 ^ 17

/-- GET_CAPABILITIES (R443). -/
def Chip.spdmCapabilities (s : Chip) (k : Nat) : Chip :=
  s.spdmAnswer k 0xe1 1 20 fun t q =>
    let flags := fieldLE q.spdm 8 4
    let dts := fieldLE q.spdm 12 4
    if dts < 42 || fieldLE q.spdm 16 4 < dts then t.spdmError q 1 0 []
    else
      let r := [0x12, 0x61, 0, 0, 0, 16, 0, 0] ++ bytesLE 4 spdmCaps ++ bytesLE 4 4096 ++ bytesLE 4 16384
      (t.spdmUpd q fun c => { c with stage := 2, vca := c.vca ++ q.spdm ++ r, chunks := bitAt flags 17, size := min dts 4096 }).mctpSend q 5 r

/-- NEGOTIATE_ALGORITHMS: P-384, SHA-384 and the DMTF measurement specification, each selected if it is offered (R443). -/
def Chip.spdmAlgorithms (s : Chip) (k : Nat) : Chip :=
  s.spdmAnswer k 0xe3 2 32 fun t q =>
    let meas := bitAt (fieldLE q.spdm 6 1) 0
    let asym := bitAt (fieldLE q.spdm 8 4) 7
    let hash := bitAt (fieldLE q.spdm 12 4) 1
    let r := [0x12, 0x63, 0, 0] ++ bytesLE 2 36 ++ bytesLE 1 meas.toNat ++ [0] ++ bytesLE 4 (if meas then 4 else 0)
      ++ bytesLE 4 (if asym then 0x80 else 0) ++ bytesLE 4 (if hash then 2 else 0) ++ List.replicate 16 0
    (t.spdmUpd q fun c => { c with stage := if asym && hash then 3 else 2, vca := if asym && hash then c.vca ++ q.spdm ++ r else c.vca }).mctpSend q 5 r

/-- The 128-bit device number (R7). -/
def uidNum : Nat := (Config.uid 0).toNat + 2 ^ 32 * (Config.uid 1).toNat + 2 ^ 64 * (Config.uid 2).toNat + 2 ^ 96 * (Config.uid 3).toNat

/-- A number as a DER INTEGER of at most 16 bytes of content and a sign byte (R461; log entry 154). -/
def derInteger (v : Nat) : List Byte :=
  let l := (bytesLE 17 v).reverse
  let drop := (List.range 16).foldl (fun k i => if k = i && v < 2 ^ (8 * (16 - i) - 1) then i + 1 else k) 0
  [0x02, BitVec.ofNat 8 (17 - drop)] ++ l.drop drop

/-- A number as 32 hexadecimal digits in ASCII, most significant first (R461). -/
def hexDigits (v : Nat) : List Byte :=
  (List.range 32).map fun i =>
    let d := v / 16 ^ (31 - i) % 16
    BitVec.ofNat 8 (if d < 10 then 0x30 + d else (if Config.certHexUpper then 0x41 else 0x61) + (d - 10))

/-- A DER value: its tag, its length and its content. -/
def der (tag : Byte) (l : List Byte) : List Byte :=
  let n := l.length
  tag :: (if n < 128 then [BitVec.ofNat 8 n] else if n < 256 then [0x81, BitVec.ofNat 8 n] else [0x82, BitVec.ofNat 8 (n / 256), BitVec.ofNat 8 n]) ++ l

/-- One attribute of a name: 2.5.4.k with a string. -/
def derAttr (k tag : Byte) (text : List Byte) : List Byte := der 0x31 (der 0x30 ([0x06, 0x03, 0x55, 0x04, k] ++ der tag text))

def ascii (s : String) : List Byte := s.toList.map fun c => BitVec.ofNat 8 c.toNat

/-- A common name, 2.5.4.3. -/
def derCn (s : String) : List Byte := derAttr 3 0x0c (ascii s)

/-- An X.509 version 3 certificate of its serial number, issuer, subject, notAfter, public key and extensions; what the spec leaves open is Config's (R461; log entry 154). -/
def derCert (i : Fin 3) (serial issuer subject notAfter key exts : List Byte) : List Byte :=
  let part := Config.certPart i
  let tbs := der 0x30 (der 0xa0 [0x02, 0x01, 0x02] ++ serial ++ part 1 ++ der 0x30 issuer ++ der 0x30 (part 2 ++ notAfter) ++ der 0x30 subject ++ key
    ++ der 0xa3 (der 0x30 exts))
  der 0x30 (tbs ++ part 1 ++ part 6)

/-- The names of the vendor's certificates (R461). -/
def nameRoot : List Byte := derCn "Ikimund Ceura Root CA"
def nameCa : List Byte := derCn "Ikimund Ceura Device CA"

/-- The root and the intermediate certificate (R461). -/
def certRoot : List Byte :=
  derCert 0 (Config.certPart 0 0) nameRoot nameRoot (Config.certPart 0 3) (Config.certPart 0 4) (Config.certPart 0 5)
def certCa : List Byte :=
  derCert 1 (Config.certPart 1 0) nameRoot nameCa (Config.certPart 1 3) (Config.certPart 1 4) (Config.certPart 1 5)

/-- The device's public key on P-384, uncompressed. -/
def derDeviceKey : List Byte :=
  der 0x30 (der 0x30 [0x06, 0x07, 0x2a, 0x86, 0x48, 0xce, 0x3d, 0x02, 0x01, 0x06, 0x05, 0x2b, 0x81, 0x04, 0x00, 0x22]
    ++ der 0x03 ([0x00, 0x04] ++ (List.finRange 96).map Config.deviceKey))

/-- The key usage digitalSignature, critical. -/
def derSigning : List Byte := der 0x30 [0x06, 0x03, 0x55, 0x1d, 0x0f, 0x01, 0x01, 0xff, 0x04, 0x04, 0x03, 0x02, 0x07, 0x80]

/-- The device certificate: its serial number is the device number, its subject the part number and the device number in hexadecimal, its key usage digitalSignature, and it does not expire (R7, R461). -/
def certLeaf : List Byte :=
  derCert 2 (derInteger uidNum) nameCa (derCn "Trenyx CX8224" ++ derAttr 5 0x13 (hexDigits uidNum)) (der 0x18 (ascii "99991231235959Z"))
    derDeviceKey (derSigning ++ Config.certPart 2 5)

/-- The chain in slot 0 behind SPDM's header of length and root hash, as long as that length can say (R461; log entry 154). -/
def certChain : List Byte :=
  let certs := certRoot ++ certCa ++ certLeaf
  (bytesLE 2 (52 + certs.length) ++ [0, 0] ++ sha384 certRoot ++ certs).take 0xffff

/-- A response of the certificate exchange, kept in its transcript. -/
def Chip.spdmCert (s : Chip) (q : MctpMsg) (r : List Byte) : Chip := (s.spdmUpd q fun c => { c with cert := c.cert ++ q.spdm ++ r }).spdmSend q r

/-- GET_DIGESTS: slot 0 holds the only chain (R443, R461). -/
def Chip.spdmDigests (s : Chip) (k : Nat) : Chip := s.spdmAnswer k 0x81 3 4 fun t q => t.spdmCert q ([0x12, 0x01, 0, 1] ++ sha384 certChain)

/-- GET_CERTIFICATE: a portion of slot 0's chain; slots 1 to 7 are empty (R461). -/
def Chip.spdmCertificate (s : Chip) (k : Nat) : Chip :=
  s.spdmAnswer k 0x82 3 8 fun t q =>
    let off := fieldLE q.spdm 4 2
    if q.at 3 % 16 ≠ 0 || certChain.length ≤ off then t.spdmError q 1 0 []
    else
      let c := t.spdm q
      let n := min (fieldLE q.spdm 6 2) (certChain.length - off)
      let n := if c.chunks then n else min n (c.size - 8)
      t.spdmCert q ([0x12, 0x02, 0, 0] ++ bytesLE 2 n ++ bytesLE 2 (certChain.length - off - n) ++ (certChain.drop off).take n)

/-- The value type and value of measurement block i, if it is present (R470). -/
def Chip.measValue (s : Chip) (m : List Host.Cell) (i : Nat) : Option (Nat × List Byte) :=
  let slot := fun j => if s.bit (FW.SLOT0_VALID j) then sha384 (slotHeader m j) else List.replicate 48 0
  if i = 1 then some (0, (List.finRange 48).map Config.romDigest)
  else if i = 2 then (if s.fw.released then some (1, sha384 s.fw.image) else none)
  else if i = 3 then (if s.fw.released then some (0x86, (s.fw.image.drop 8).take 12) else none)
  else if i = 4 then some (1, slot 0)
  else if i = 5 then some (1, slot 1)
  else if i = 6 then some (0x83, bytesLE 8 s.epoch)
  else if i = 7 then some (3, (List.range 12).flatMap fun j => bytesLE 4 (s.reg (SEC.CDIG j)).toNat)
  else if i = 8 then
    let d := match s.boot.owner with | some o => sha384 o | none => List.replicate 48 0
    some (0x83, d ++ bytesLE 4 s.boot.minsvn ++ bytesLE 1 (s.boot.owner.isSome.toNat + 2 * s.boot.ownerOnly.toNat))
  else if i = 9 then
    let f := fun b => s.get b
    some (0x83, bytesLE 4 s.boot.cscnt ++ bytesLE 1 (f FW.STAT_RUNSLOT) ++ bytesLE 1 (f FW.STAT_FALLBK + 2 * f FW.STAT_HOLD)
      ++ bytesLE 1 (f FWA.FAIL_FAILA) ++ bytesLE 1 (f FWA.FAIL_FAILB))
  else none

/-- A measurement block: index, specification, size, and the DMTF value (R470). -/
def Chip.measBlock (s : Chip) (m : List Host.Cell) (i : Nat) : Option (List Byte) :=
  (s.measValue m i).map fun x => bytesLE 1 i ++ [1] ++ bytesLE 2 (x.2.length + 3) ++ bytesLE 1 x.1 ++ bytesLE 2 x.2.length ++ x.2

/-- Every block present, from one instant (R470). -/
def Chip.measAll (s : Chip) (m : List Host.Cell) : List (List Byte) := (List.range 10).filterMap (s.measBlock m)

/-- A response that waits for its signature; signatures are made in arrival order (R444). -/
def Chip.spdmSign (s : Chip) (q : MctpMsg) (body transcript : List Byte) : Chip :=
  s.mctpUpd fun h => { h with signing := h.signing ++ [⟨q.binding, q.src, q.tag, body, transcript⟩] }

/-- CHALLENGE: the chain's digest, a fresh nonce, and a summary of the measurements if it is asked for; which blocks the summary of the TCB covers is left open (R443, R444; log entry 7). -/
def Chip.spdmChallenge (s : Chip) (m : List Host.Cell) (k : Nat) : Chip :=
  s.spdmAnswer k 0x83 3 36 fun t q =>
    let type := q.at 4
    if q.at 3 ≠ 0 || !([0, 1, 0xff].contains type) then t.spdmError q 1 0 []
    else
      let (t, nonce) := t.freshBytes 32
      let (t, sum) := if type = 0 then (t, []) else if type = 1 then t.freshBytes 48 else (t, sha384 (t.measAll m).flatten)
      let r := [0x12, 0x03, 0, 1] ++ sha384 certChain ++ nonce ++ sum ++ [0, 0]
      let c := t.spdm q
      (t.spdmUpd q fun c => { c with cert := [] }).spdmSign q r (c.vca ++ c.cert ++ q.spdm ++ r)

/-- GET_MEASUREMENTS: the number of blocks, one block, or all from one instant; signed if asked (R470). -/
def Chip.spdmMeasurements (s : Chip) (m : List Host.Cell) (k : Nat) : Chip :=
  s.spdmAnswer k 0xe0 3 4 fun t q =>
    let sign := q.at 3 % 2 = 1
    let op := q.at 4
    let all := t.measAll m
    let blocks := if op = 0 then some [] else if op = 0xff then some all else (t.measBlock m op).map fun b => [b]
    match blocks with
    | none => t.spdmError q 1 0 []
    | some bs =>
      if sign && (decide (q.spdm.length < 37) || q.at 37 % 16 != 0) then t.spdmError q 1 0 []
      else
        let (t, nonce) := t.freshBytes 32
        let r := [0x12, 0x60] ++ bytesLE 1 (if op = 0 then all.length else 0) ++ [0] ++ bytesLE 1 bs.length ++ bytesLE 3 bs.flatten.length
          ++ bs.flatten ++ nonce ++ [0, 0]
        let c := t.spdm q
        if sign then (t.spdmUpd q fun c => { c with meas := [] }).spdmSign q r (c.vca ++ c.meas ++ q.spdm ++ r)
        else (t.spdmUpd q fun c => { c with meas := c.meas ++ q.spdm ++ r }).spdmSend q r

/-- SPDM_SIGNATURE_DONE: the response that has waited longest is signed over its transcript and sent (R444, R461, R470). -/
def Chip.signatureDone (s : Chip) : Chip :=
  match s.mctp.signing with
  | [] => s
  | j :: l =>
    if !s.mctpUp then s
    else
      let sig := (List.range 96).map (Config.deviceSign s.freeCtr j.transcript)
      ((s.freeNext.mctpUpd fun h => { h with signing := l }).spdmSend ⟨j.binding, j.src, j.tag, []⟩ (j.body ++ sig))

/-- CHUNK_GET: the next chunk of the large response (R443). -/
def Chip.spdmChunk (s : Chip) (k : Nat) : Chip :=
  s.spdmAnswer k 0x86 3 6 fun t q =>
    let c := t.spdm q
    match c.large with
    | none => t.spdmError q 4 0 []
    | some r =>
      if q.at 4 ≠ c.handle || fieldLE q.spdm 4 2 ≠ c.chunk then t.spdmError q 1 0 []
      else
        let first := c.chunk == 0
        let n := min (r.length - c.sent) (c.size - if first then 16 else 12)
        let last := decide (r.length ≤ c.sent + n)
        let body := [0x12, 0x06] ++ bytesLE 1 last.toNat ++ bytesLE 1 c.handle ++ bytesLE 2 c.chunk ++ [0, 0] ++ bytesLE 4 n
          ++ (if first then bytesLE 4 r.length else []) ++ (r.drop c.sent).take n
        (t.spdmUpd q fun c => { c with sent := c.sent + n, chunk := c.chunk + 1, large := if last then none else c.large }).mctpSend q 5 body

end Sys2Proof.Machine
end

