-- ==== Sys2Proof/Machine/Arms.lean ====
section
/-! DEFINITION. What the arms share: the parts of the device that an event reaches, what follows from it in other blocks, and register accesses that carry a command. -/

namespace Sys2Proof.Machine

/-- A meaning that reads the non-volatile memory. -/
def State.onNvm (s : State) (f : List Host.Cell → Chip → Chip) : Host.Outcome State Fault Refusal := .next { s with chip := f s.nvm s.chip }

/-- An event inside AON; without power it does not occur (R30). -/
def State.onAon (s : State) (f : Chip → Chip) : Host.Outcome State Fault Refusal := s.on fun u => if u.domOn .aon then f u else u

/-- An event inside CORE; without CORE, and in hold-up, it does not occur (R30, R35). -/
def State.onCore (s : State) (f : Chip → Chip) : Host.Outcome State Fault Refusal := s.on fun u => if u.coreRuns then f u else u

/-- An event after which a requested cold start may begin (R362). -/
def State.onColdNvm (s : State) (cold : ColdIn) (f : List Host.Cell → Chip → Chip) : Host.Outcome State Fault Refusal :=
  .next ({ s with chip := f s.nvm s.chip }.coldIfDue cold)

/-- The same inside CORE. -/
def State.onCold (s : State) (cold : ColdIn) (f : Chip → Chip) : Host.Outcome State Fault Refusal :=
  s.onColdNvm cold fun _ u => if u.coreRuns then f u else u

/-- What the sequencer and the hint links see of a change of loop n between two states (R279, R284, R285, R325). -/
def Chip.loopHooks (s t : Chip) (n : Nat) : Chip :=
  let a := s.loopState n
  let b := t.loopState n
  let t := if a = b then t else t.seqLoop n
  let t := if (a = 1 || a = 2 || a = 4) && (b = 0 || b = 3) then t.hintLoopStop n else t
  let t := if a = 4 && b = 2 then t.hintResume else t
  let t := if s.get (LOOP.STATUS_TRSTATE n) != 1 && t.get (LOOP.STATUS_TRSTATE n) == 1 then t.hintUnhinted n else t
  t.hintReady

/-- An event of loop n. -/
def State.onLoop (s : State) (n : Nat) (f : Chip → Chip) : Host.Outcome State Fault Refusal := s.onCore fun u => u.loopHooks (f u) n

/-- An event that may complete a hint's pre-positioning (R279). -/
def State.onReady (s : State) (f : Chip → Chip) : Host.Outcome State Fault Refusal := s.onCore fun u => (f u).hintReady

/-- The hint links look whether a hint's pre-positioning is complete (R279). -/
def Chip.readyLook (s : Chip) : Chip := if s.coreRuns then s.hintReady else s

/-- The input and the collector's stops go on once every rail is off (R296, R349, R350). -/
def Chip.settle (s : Chip) : Chip := s.hswLeaveWait.stopProgress

/-- A rail's sources are looked at again, while the sequencer is powered (R325). -/
def Chip.railLook (s : Chip) (r : Nat) : Chip := if s.coreRuns then s.seqEval r else s

/-- SQ_INJECTION_COMPLETE: an injection that confirms a window pair also judges it (R223, R249, R325). -/
def Chip.sqInjection (s : Chip) (x : Nat) (c : Conversion) : Chip :=
  match s.sqInjDone x c with
  | (t, some (r, _, res, ovr)) => (t.wmResult r (2 ^ wordField (s.sqs.get x).inUse.cfg 20 3) res ovr).railLook r
  | (t, none) => t

/-- SERVICE_FLIT_FAIL: after three resends, the access of a requester whose own command does not carry the outcome fails (R27, R506). -/
def Chip.flitFail (s : Chip) (req : Requester) (o : Nat) (write : Bool) : Chip :=
  let mine := match req with
    | .pcie => !(write && s.bit HIF.CTRL_EN)
    | .pp _ => true
    | .tap => !write
    | _ => false
  if s.reqUp req && mine && o % 4 == 0 && s.dieAccess o && (s.dies.get ((o - dieWindow) / 0x20000 + 1)).resends == 3 then
    let t := s.accFail o
    if write then t else t.out (.data req o 0xffffffff false)
  else s

/-- A word with one field set. -/
def fldSet (w : Word) (f : Fld) (v : Nat) : Word := wordPut w f.lo f.width v

/-- The word that a write carries beside the bits of its command: the present values of the configuration fields, and zeros elsewhere (log entry 12). -/
def Chip.carry (s : Chip) (o : Nat) : Word := s.reg o &&& pairMask o

/-- A command that is a write of a register. -/
def State.access (s : State) (req : Requester) (o : Nat) (w : Word → Word) : Host.Outcome State Fault Refusal :=
  s.onNvm fun m u => u.busWrite m req o (w (u.carry o)) true

/-- The same for a write that may request a cold start (R362). -/
def State.accessCold (s : State) (cold : ColdIn) (req : Requester) (o : Nat) (w : Word → Word) : Host.Outcome State Fault Refusal :=
  s.onColdNvm cold fun m u => u.busWrite m req o (w (u.carry o)) true

end Sys2Proof.Machine
end

