-- ==== Sys2Proof/Machine/AvsArms.lean ====
section
/-! DEFINITION. AVSBus ports: one meaning for each command. -/

namespace Sys2Proof.Machine

/-- AVS_TARGET_VOLTAGE_WRITE (R268). -/
def execAvsTargetVoltageWrite (k : Fin 8) (sel : Fin 16) (hold : Bool) (mv : BitVec 16) (crcOk : Bool) (s : State) : Host.Outcome State Fault Refusal :=
  s.on fun u => u.avsWriteV k.val sel.val hold mv.toNat crcOk

/-- AVS_TARGET_VOLTAGE_READ (R267). -/
def execAvsTargetVoltageRead (k : Fin 8) (sel : Fin 16) (crcOk : Bool) (s : State) : Host.Outcome State Fault Refusal :=
  s.on fun u => u.avsRead k.val sel.val crcOk avsTarget

/-- AVS_TRANSITION_RATE_WRITE (R263). -/
def execAvsTransitionRateWrite (k : Fin 8) (sel : Fin 16) (hold : Bool) (rate : BitVec 16) (crcOk : Bool) (s : State) : Host.Outcome State Fault Refusal :=
  s.on fun u => u.avsWriteSlew k.val sel.val hold rate.toNat crcOk

/-- AVS_TRANSITION_RATE_READ (R267). -/
def execAvsTransitionRateRead (k : Fin 8) (sel : Fin 16) (crcOk : Bool) (s : State) : Host.Outcome State Fault Refusal :=
  s.on fun u => u.avsRead k.val sel.val crcOk avsRate

/-- AVS_CURRENT_READ (R267). -/
def execAvsCurrentRead (k : Fin 8) (sel : Fin 16) (crcOk : Bool) (s : State) : Host.Outcome State Fault Refusal :=
  s.on fun u => u.avsRead k.val sel.val crcOk avsCurrent

/-- AVS_TEMPERATURE_READ (R267). -/
def execAvsTemperatureRead (k : Fin 8) (sel : Fin 16) (crcOk : Bool) (s : State) : Host.Outcome State Fault Refusal :=
  s.on fun u => u.avsRead k.val sel.val crcOk avsTemp

/-- AVS_RESET_VOLTAGE (R267). -/
def execAvsResetVoltage (k : Fin 8) (sel : Fin 16) (hold crcOk : Bool) (s : State) : Host.Outcome State Fault Refusal :=
  s.on fun u => u.avsReset k.val sel.val hold crcOk

/-- AVS_STATUS_WRITE (R267, R269). -/
def execAvsStatusWrite (k : Fin 8) (sel : Fin 16) (other hold crcOk : Bool) (s : State) : Host.Outcome State Fault Refusal :=
  s.on fun u => if other then u.avsOther k.val sel.val crcOk else u.avsStatusWrite k.val sel.val hold crcOk

/-- AVS_STATUS_READ (R269). -/
def execAvsStatusRead (k : Fin 8) (sel : Fin 16) (crcOk : Bool) (s : State) : Host.Outcome State Fault Refusal :=
  s.on fun u => u.avsRead k.val sel.val crcOk fun t n => t.avsStatus k.val n

/-- AVS_VERSION_READ (R267). -/
def execAvsVersionRead (k : Fin 8) (sel : Fin 16) (other crcOk : Bool) (s : State) : Host.Outcome State Fault Refusal :=
  s.on fun u => if other then u.avsOther k.val sel.val crcOk else u.avsRead k.val sel.val crcOk fun t _ => (t, Config.avsVersion.val)

/-- AVS_FRAME_TIMEOUT (R270). -/
def execAvsFrameTimeout (k : Fin 8) (s : State) : Host.Outcome State Fault Refusal := s.on fun u => u.avsTimeout k.val

end Sys2Proof.Machine
end

