-- ==== Sys2Proof/Machine/ConvArms.lean ====
section
/-! DEFINITION. The phase-current and the sequenced converters: one meaning for each command. -/

namespace Sys2Proof.Machine

/-- IADC_RESULT (R211). -/
def execIadcResult (p : PhaseId) (nanovolts : Int) (s : State) : Host.Outcome State Fault Refusal := s.on fun u => u.iadcResult p.val nanovolts

/-- IADC_DELAYED_START (R212). -/
def execIadcDelayedStart (p : PhaseId) (s : State) : Host.Outcome State Fault Refusal := s.on fun u => u.iadcDelayed p.val

/-- SQ_ENTRY_COMPLETE (R221). -/
def execSqEntryComplete (x : SqId) (c : Conversion) (s : State) : Host.Outcome State Fault Refusal := s.on fun u => u.sqEntryDone x.val c

/-- SQ_PASS_START (R222). -/
def execSqPassStart (x : SqId) (s : State) : Host.Outcome State Fault Refusal := s.on fun u => u.sqPassStart x.val

/-- SQ_START (R222). -/
def execSqStart (req : Requester) (x : SqId) (s : State) : Host.Outcome State Fault Refusal :=
  s.access req (SQ.CTRL x.val) fun w => fldSet w (SQ.CTRL_START x.val) 1

/-- SQ_STOP (R222). -/
def execSqStop (req : Requester) (x : SqId) (s : State) : Host.Outcome State Fault Refusal :=
  s.access req (SQ.CTRL x.val) fun w => fldSet w (SQ.CTRL_STOP x.val) 1

/-- SQ_INJECT_REQUEST (R223). -/
def execSqInjectRequest (req : Requester) (x : SqId) (entry : Fin 16) (pre : Bool) (s : State) : Host.Outcome State Fault Refusal :=
  s.access req (SQ.INJREQ x.val) fun w => fldSet (fldSet (fldSet w (SQ.INJREQ_GO x.val) 1) (SQ.INJREQ_PRE x.val) pre.toNat) (SQ.INJREQ_ENTRY x.val) entry.val

/-- SQ_INJECTION_COMPLETE (R223). -/
def execSqInjectionComplete (x : SqId) (c : Conversion) (s : State) : Host.Outcome State Fault Refusal := s.on fun u => u.sqInjection x.val c

/-- SQ_CALIBRATE_STEP (R225). -/
def execSqCalibrateStep (req : Requester) (x : SqId) (step : Fin 4) (entry : Fin 16) (ref : BitVec 24) (s : State) : Host.Outcome State Fault Refusal :=
  s.access req (SQ.CALCTL x.val) fun w => fldSet (fldSet (fldSet (fldSet w (SQ.CALCTL_GO x.val) 1) (SQ.CALCTL_STEP x.val) step.val) (SQ.CALCTL_ENTRY x.val) entry.val) (SQ.CALCTL_REF x.val) ref.toNat

/-- SQ_CALIBRATE_ABORT (R227). -/
def execSqCalibrateAbort (req : Requester) (x : SqId) (s : State) : Host.Outcome State Fault Refusal :=
  s.access req (SQ.CALCTL x.val) fun w => fldSet w (SQ.CALCTL_ABORT x.val) 1

/-- SQ_CALIBRATION_STEP_DONE (R227). -/
def execSqCalibrationStepDone (x : SqId) (c : List Conversion) (s : State) : Host.Outcome State Fault Refusal := s.on fun u => u.calDone x.val c

/-- SQ_CALHOLD_EXPIRE (R226). -/
def execSqCalholdExpire (x : SqId) (s : State) : Host.Outcome State Fault Refusal := s.on fun u => u.calHoldExpire x.val

end Sys2Proof.Machine
end

