-- ==== Sys2Proof/Machine/EventArms.lean ====
section
/-! DEFINITION. The event hub: one meaning for each command. -/

namespace Sys2Proof.Machine

/-- DOORBELL (R389). -/
def execDoorbell (src : SourceId) (s : State) : Host.Outcome State Fault Refusal := s.on fun u => u.deliverBell src.val

/-- SOFTWARE_DOORBELL (R392). -/
def execSoftwareDoorbell (req : Requester) (src : SourceId) (s : State) : Host.Outcome State Fault Refusal :=
  s.access req EVH.DOORBELL fun w => fldSet w EVH.DOORBELL_SRC src.val

/-- GROUP_TIMER_EXPIRE (R394). -/
def execGroupTimerExpire (g : Fin 64) (s : State) : Host.Outcome State Fault Refusal := s.onCore fun u => u.groupTimer g.val

/-- SOURCE_CFG_WRITE (R395). -/
def execSourceCfgWrite (req : Requester) (src : SourceId) (value : Word) (s : State) : Host.Outcome State Fault Refusal :=
  s.onNvm fun m u => u.busWrite m req (SRC.CFG src.val) value true

/-- CLAIM (R400). -/
def execClaim (req : Requester) (k : ProcId) (s : State) : Host.Outcome State Fault Refusal := s.onNvm fun m u => u.busAnswer m req (PP.CLAIM k.val)

/-- END_OF_INTERRUPT (R401). -/
def execEndOfInterrupt (req : Requester) (k : ProcId) (src : SourceId) (s : State) : Host.Outcome State Fault Refusal :=
  s.access req (PP.EOI k.val) fun w => fldSet w (PP.EOI_SRC k.val) src.val

/-- PROCESSOR_CTRL_WRITE (R402). -/
def execProcessorCtrlWrite (req : Requester) (k : ProcId) (value : Word) (s : State) : Host.Outcome State Fault Refusal :=
  s.onNvm fun m u => u.busWrite m req (PP.CTRL k.val) value true

end Sys2Proof.Machine
end

