-- ==== Sys2Proof/Machine/FaultArms.lean ====
section
/-! DEFINITION. Fault collection: one meaning for each command. -/

namespace Sys2Proof.Machine

/-- FAULT_POST (R344). -/
def execFaultPost (k : Nat) (s : State) : Host.Outcome State Fault Refusal := s.on fun u => u.faultPost k

/-- SAFETO_EXPIRE (R349). -/
def execSafetoExpire (cold : ColdIn) (s : State) : Host.Outcome State Fault Refusal := s.onCold cold fun u => u.safetoExpire

/-- ESCALATION_EXPIRE (R352). -/
def execEscalationExpire (i : Fin 64) (s : State) : Host.Outcome State Fault Refusal := s.onCore fun u => u.escalationExpire i.val

/-- FAULT_ACKNOWLEDGE (R353). -/
def execFaultAcknowledge (req : Requester) (slot : Fin 64) (code : BitVec 16) (s : State) : Host.Outcome State Fault Refusal :=
  s.access req FLT.ACK fun w => fldSet (fldSet (fldSet w FLT.ACK_OP 1) FLT.ACK_SLOT slot.val) FLT.ACK_CODE code.toNat

/-- FAULT_CLEAR (R353). -/
def execFaultClear (req : Requester) (slot : Fin 64) (code : BitVec 16) (s : State) : Host.Outcome State Fault Refusal :=
  s.access req FLT.ACK fun w => fldSet (fldSet (fldSet w FLT.ACK_OP 2) FLT.ACK_SLOT slot.val) FLT.ACK_CODE code.toNat

/-- FAULT_ACK_AND_CLEAR (R353). -/
def execFaultAckAndClear (req : Requester) (slot : Fin 64) (code : BitVec 16) (s : State) : Host.Outcome State Fault Refusal :=
  s.access req FLT.ACK fun w => fldSet (fldSet (fldSet w FLT.ACK_OP 3) FLT.ACK_SLOT slot.val) FLT.ACK_CODE code.toNat

/-- COLLECTOR_COMPARE (R358). -/
def execCollectorCompare (mismatch : Bool) (s : State) : Host.Outcome State Fault Refusal := s.on fun u => u.collectorCompare mismatch

/-- FAULT_INJECT (R359). -/
def execFaultInject (req : Requester) (tgt : Fin 16) (s : State) : Host.Outcome State Fault Refusal :=
  s.access req FLT.INJ fun w => fldSet (fldSet w FLT.INJ_GO 1) FLT.INJ_TGT tgt.val

/-- INJECTION_NOT_EXERCISED (R360). -/
def execInjectionNotExercised (s : State) : Host.Outcome State Fault Refusal := s.onCore fun u => u.injectionIdle

/-- SOFTWARE_RAISE (R361). -/
def execSoftwareRaise (req : Requester) (cls : Fin 4) (inst num : BitVec 8) (s : State) : Host.Outcome State Fault Refusal :=
  s.access req FLT.SWRAISE fun w => fldSet (fldSet (fldSet (fldSet w FLT.SWRAISE_GO 1) FLT.SWRAISE_CLS cls.val) FLT.SWRAISE_INST inst.toNat) FLT.SWRAISE_NUM num.toNat

/-- COLD_START_REQUEST (R362). -/
def execColdStartRequest (req : Requester) (key : BitVec 16) (cold : ColdIn) (s : State) : Host.Outcome State Fault Refusal :=
  s.accessCold cold req FLT.CSREQ fun w => fldSet (fldSet w FLT.CSREQ_GO 1) FLT.CSREQ_KEY key.toNat

/-- GUARD_END (R356). -/
def execGuardEnd (req : Requester) (test : Bool) (s : State) : Host.Outcome State Fault Refusal :=
  s.access req FLT.GUARD fun w => fldSet (fldSet w FLT.GUARD_END 1) FLT.GUARD_TEST test.toNat

/-- GUARD_TEST (R356). -/
def execGuardTest (req : Requester) (test : Bool) (s : State) : Host.Outcome State Fault Refusal :=
  s.access req FLT.GUARD fun w => fldSet w FLT.GUARD_TEST test.toNat

end Sys2Proof.Machine
end

