-- ==== Sys2Proof/Machine/FirmwareArms.lean ====
section
/-! DEFINITION. Firmware, the mailbox and starts: one meaning for each command. -/

namespace Sys2Proof.Machine

/-- MBTAKE (R454). -/
def execMbtake (req : Requester) (slot : Fin 32) (s : State) : Host.Outcome State Fault Refusal :=
  s.access req FW.MBTAKE fun w => fldSet w FW.MBTAKE_SLOT slot.val

/-- MBDONE (R454). -/
def execMbdone (req : Requester) (d : MbDone) (s : State) : Host.Outcome State Fault Refusal :=
  { s with chip := s.chip.fwPosts req d.posts }.access req FW.MBDONE fun w => fldSet w FW.MBDONE_SLOT d.slot.val

/-- BOOTOK (R459). -/
def execBootok (req : Requester) (s : State) : Host.Outcome State Fault Refusal := s.access req FW.CTRL fun w => fldSet w FW.CTRL_BOOTOK 1

/-- FW_WARM_REQUEST (R465). -/
def execFwWarmRequest (req : Requester) (key : BitVec 16) (s : State) : Host.Outcome State Fault Refusal :=
  s.access req FW.CTRL fun w => fldSet (fldSet w FW.CTRL_WARM 1) FW.CTRL_KEY key.toNat

/-- BOOT_TIMEOUT (R460). -/
def execBootTimeout (cold : ColdIn) (s : State) : Host.Outcome State Fault Refusal := .next (s.bootTimeout cold)

end Sys2Proof.Machine
end

