-- ==== Sys2Proof/Machine/HintArms.lean ====
section
/-! DEFINITION. Hint links: one meaning for each command. -/

namespace Sys2Proof.Machine

/-- HINT_RECEIVE (R276). -/
def execHintReceive (l : Fin 8) (clean : Bool) (crc : BitVec 8) (w0 w1 : BitVec 16) (s : State) : Host.Outcome State Fault Refusal :=
  s.onReady fun u => u.hintReceive l.val clean crc w0 w1

/-- CANCEL_RECEIVE (R283). -/
def execCancelReceive (l : Fin 8) (clean : Bool) (crc : BitVec 8) (w0 : BitVec 16) (s : State) : Host.Outcome State Fault Refusal :=
  s.on fun u => u.hintCancel l.val clean crc w0

/-- HINT_DEFER_TIMEOUT (R280). -/
def execHintDeferTimeout (l : Fin 8) (hid : Fin 64) (s : State) : Host.Outcome State Fault Refusal := s.onCore fun u => u.hintTimeout l.val hid.val

/-- HINT_HOLD_END (R279). -/
def execHintHoldEnd (l : Fin 8) (hid : Fin 64) (s : State) : Host.Outcome State Fault Refusal := s.onCore fun u => u.hintHoldEnd l.val hid.val

/-- HINT_FRAME_RETRY (R274). -/
def execHintFrameRetry (l : Fin 8) (k : Fin 8) (s : State) : Host.Outcome State Fault Refusal := s.onCore fun u => u.hintRetry l.val k.val

/-- LHALERT_PULSE_END (R282). -/
def execLhalertPulseEnd (l : Fin 8) (s : State) : Host.Outcome State Fault Refusal := s.onCore fun u => u.hintPulseEnd l.val

end Sys2Proof.Machine
end

