-- ==== Sys2Proof/Machine/HostArms.lean ====
section
/-! DEFINITION. The PCIe function, its rings and their commands: one meaning for each command. -/

namespace Sys2Proof.Machine

/-- PCIE_LINK_DOWN (R416). -/
def execPcieLinkDown (tb4 : Bool) (s : State) : Host.Outcome State Fault Refusal := s.on fun u => u.pcieDown tb4

/-- FUNCTION_LEVEL_RESET (R416). -/
def execFunctionLevelReset (s : State) : Host.Outcome State Fault Refusal := s.on fun u => u.flReset

/-- POWER_STATE_CHANGE (R429). -/
def execPowerStateChange (d3 : Bool) (link : Fin 3) (pme : Bool) (busMaster : Bool) (msix : MsixCtl) (s : State) : Host.Outcome State Fault Refusal :=
  s.on fun u => u.powerState d3 link.val pme busMaster msix.enable msix.mask

/-- MSIX_UNMASK (R428). -/
def execMsixUnmask (vec : Option (Fin 32)) (msix busMaster : Bool) (s : State) : Host.Outcome State Fault Refusal :=
  s.on fun u => u.msixUnmask (vec.map (·.val)) msix busMaster

/-- RING_CFG_WRITE (R417). -/
def execRingCfgWrite (req : Requester) (ring : Fin 22) (value : Word) (s : State) : Host.Outcome State Fault Refusal :=
  s.onNvm fun m u => u.busWrite m req (RING.CFG ring.val) value true

/-- HOST_POLL (R419). -/
def execHostPoll (bells : List Word) (ok : Bool) (s : State) : Host.Outcome State Fault Refusal := s.on fun u => u.hostPoll bells ok

/-- KICK (R419). -/
def execKick (req : Requester) (s : State) : Host.Outcome State Fault Refusal := s.access req HIF.KICK fun w => fldSet w HIF.KICK_GO 1

/-- DMA_READ_ERROR (R421). -/
def execDmaReadError (ring : Fin 8) (s : State) : Host.Outcome State Fault Refusal := s.on fun u => u.dmaError ring.val

/-- NOP (R424). -/
def execNop (c : NopCmd) (s : State) : Host.Outcome State Fault Refusal := s.on fun u => u.cmdNop c.cmd c.opcode.toNat

/-- REG_READ (R425). -/
def execRegRead (c : Cmd) (fail : DieFail) (s : State) : Host.Outcome State Fault Refusal := s.onNvm fun m u => u.cmdRegRead m c (fail.map (·.val))

/-- REG_WRITE (R425). -/
def execRegWrite (c : Cmd) (fail : DieFail) (cold : ColdIn) (s : State) : Host.Outcome State Fault Refusal :=
  s.onColdNvm cold fun m u => u.cmdRegWrite m c (fail.map (·.val))

/-- SET_VOUT (R425). -/
def execSetVout (c : Cmd) (s : State) : Host.Outcome State Fault Refusal := s.on fun u => u.cmdSetVout c

/-- SET_SLEW (R425). -/
def execSetSlew (c : Cmd) (s : State) : Host.Outcome State Fault Refusal := s.on fun u => u.cmdSetSlew c

/-- FAULT_ACK (R425). -/
def execFaultAck (c : Cmd) (s : State) : Host.Outcome State Fault Refusal := s.on fun u => u.cmdFaultAck c

/-- DOMAIN (R425). -/
def execDomain (c : Cmd) (s : State) : Host.Outcome State Fault Refusal := s.on fun u => u.cmdDomain c

/-- LOG_READ (R495). -/
def execLogRead (c : Cmd) (s : State) : Host.Outcome State Fault Refusal := s.onNvm fun m u => u.cmdLogRead m c

/-- MAP_READ (R424). -/
def execMapRead (c : Cmd) (s : State) : Host.Outcome State Fault Refusal := s.onNvm fun m u => u.cmdMapRead m c

/-- TILE_STAGE (R484). -/
def execTileStage (c : Cmd) (host : Option (List Byte)) (s : State) : Host.Outcome State Fault Refusal := s.on fun u => u.cmdTileStage c host

/-- COMMIT (R485). -/
def execCommit (c : Cmd) (s : State) : Host.Outcome State Fault Refusal := s.onNvm fun m u => u.cmdCommit m c

/-- COMMIT_DISCARD (R485). -/
def execCommitDiscard (c : Cmd) (s : State) : Host.Outcome State Fault Refusal := s.on fun u => u.cmdDiscard c

/-- IMAGE_STAGE (R458). -/
def execImageStage (c : Cmd) (host : Option (List Byte)) (s : State) : Host.Outcome State Fault Refusal := s.on fun u => u.cmdImageStage c host

/-- IMAGE_ACTIVATE (R458). -/
def execImageActivate (c : Cmd) (s : State) : Host.Outcome State Fault Refusal := s.onNvm fun m u => u.cmdImageActivate m c

/-- KEY_ENROL (R462). -/
def execKeyEnrol (c : Cmd) (host : Option (List Byte)) (s : State) : Host.Outcome State Fault Refusal := s.on fun u => u.cmdKeyEnrol c host

/-- WARM_START (R465). -/
def execWarmStart (c : Cmd) (s : State) : Host.Outcome State Fault Refusal := s.onNvm fun m u => u.cmdWarmStart m c

/-- POLICY_COMMAND (R426). -/
def execPolicyCommand (c : Cmd) (opcode : Fin 128) (s : State) : Host.Outcome State Fault Refusal := s.on fun u => u.cmdPolicy c opcode.val

/-- POLICY_TIMEOUT (R426). -/
def execPolicyTimeout (ring : Fin 8) (s : State) : Host.Outcome State Fault Refusal := s.on fun u => u.policyTimeout ring.val

/-- COMPLETION_MODERATION_EXPIRE (R427). -/
def execCompletionModerationExpire (ring : Fin 22) (s : State) : Host.Outcome State Fault Refusal := s.on fun u => u.moderation ring.val

/-- TELEMETRY_FLUSH (R432). -/
def execTelemetryFlush (kind : Fin 5) (inst : Fin 256) (trig : Fin 2) (s : State) : Host.Outcome State Fault Refusal :=
  s.on fun u => u.telFlush kind.val inst.val trig.val

/-- PCIE_LINK_UP (R414). -/
def execPcieLinkUp (gen : Fin 4) (two : Bool) (s : State) : Host.Outcome State Fault Refusal := s.on fun u => u.pcieUp gen.val two

end Sys2Proof.Machine
end

