-- ==== Sys2Proof/Machine/InputArms.lean ====
section
/-! DEFINITION. The hot-swap input and the power budget: one meaning for each command. -/

namespace Sys2Proof.Machine

/-- INPUT_SAMPLE (R294). -/
def execInputSample (vins hsout : Nat) (shunt : Int) (s : State) : Host.Outcome State Fault Refusal := s.on fun u => u.inputSample vins hsout shunt

/-- HSW_QUALIFIED (R297). -/
def execHswQualified (s : State) : Host.Outcome State Fault Refusal := s.on fun u => u.hswQualified.coldStep8

/-- HSW_INPUT_GOOD (R298). -/
def execHswInputGood (s : State) : Host.Outcome State Fault Refusal := s.on fun u => u.hswInputGood.coldStep8

/-- INRUSH_TIMEOUT (R298). -/
def execInrushTimeout (s : State) : Host.Outcome State Fault Refusal := s.on fun u => u.inrushTimeout

/-- INPUT_LOSS (R299). -/
def execInputLoss (s : State) : Host.Outcome State Fault Refusal := s.on fun u => u.inputLoss

/-- FAST_BREAKER (R301). -/
def execFastBreaker (amps16 : Nat) (s : State) : Host.Outcome State Fault Refusal := s.on fun u => u.fastBreaker amps16

/-- SLOW_BREAKER (R301). -/
def execSlowBreaker (s : State) : Host.Outcome State Fault Refusal := s.on fun u => u.slowBreaker

/-- FET_SOA_TRIP (R302). -/
def execFetSoaTrip (s : State) : Host.Outcome State Fault Refusal := s.on fun u => u.soaTrip

/-- SHORTED_FET (R304). -/
def execShortedFet (s : State) : Host.Outcome State Fault Refusal := s.on fun u => u.shortedFet

/-- RETRY_DELAY_EXPIRE (R303). -/
def execRetryDelayExpire (s : State) : Host.Outcome State Fault Refusal := s.on fun u => u.retryExpire

/-- TRIES_RESET (R303). -/
def execTriesReset (s : State) : Host.Outcome State Fault Refusal := s.on fun u => u.triesReset

/-- LEAVE_REQUEST (R305). -/
def execLeaveRequest (k : Nat) (s : State) : Host.Outcome State Fault Refusal := s.onCore fun u => u.leaveRequest k

/-- BUDGET_GRANT (R307). -/
def execBudgetGrant (tileOk : Bool) (s : State) : Host.Outcome State Fault Refusal := s.onReady fun u => u.budgetGrant tileOk

/-- LEAVE_WITHDRAW (R308). -/
def execLeaveWithdraw (k : Nat) (s : State) : Host.Outcome State Fault Refusal := s.onCore fun u => u.leaveWithdraw k

/-- BUDGET_WAIT_LIMIT (R308). -/
def execBudgetWaitLimit (k : Nat) (s : State) : Host.Outcome State Fault Refusal := s.onCore fun u => u.waitLimit k

/-- LEAVE_DONE (R309). -/
def execLeaveDone (k : Nat) (s : State) : Host.Outcome State Fault Refusal := s.onCore fun u => u.leaveDone k

/-- LEAVE_EXPIRE (R309). -/
def execLeaveExpire (k : Nat) (s : State) : Host.Outcome State Fault Refusal := s.onCore fun u => u.leaveExpire k

end Sys2Proof.Machine
end

