-- ==== Sys2Proof/Machine/LoopArms.lean ====
section
/-! DEFINITION. Loop engines, their coefficients and auto-tune, comparators and window monitors: one meaning for each command. -/

namespace Sys2Proof.Machine

/-- SAMPLE_INSTANT (R74). -/
def execSampleInstant (n : LoopId) (vdiff : Int) (s : State) : Host.Outcome State Fault Refusal := s.onLoop n.val fun u => u.sampleInstant n.val vdiff

/-- ERROR_CODE_ARRIVE (R71). -/
def execErrorCodeArrive (n : LoopId) (s : State) : Host.Outcome State Fault Refusal := s.onLoop n.val fun u => u.errorArrive n.val

/-- RUN_AHEAD_COMPLETE (R70). -/
def execRunAheadComplete (n : LoopId) (s : State) : Host.Outcome State Fault Refusal := s.onCore fun u => u.aheadDone n.val

/-- SAMPLE_OVERRUN (R79). -/
def execSampleOverrun (n : LoopId) (s : State) : Host.Outcome State Fault Refusal := s.onLoop n.val fun u => u.overrun n.val

/-- OVERRUN_LIMIT (R79). -/
def execOverrunLimit (n : LoopId) (s : State) : Host.Outcome State Fault Refusal := s.onCore fun u => u.overrunLimit n.val

/-- FIXED_CLASS_RELEASE (R76). -/
def execFixedClassRelease (r : ClassRelease) (s : State) : Host.Outcome State Fault Refusal := s.onCore fun u => u.fixedRelease r.loop.val r.settled.toNat

/-- CURRENT_SUM_LAUNCH (R215). -/
def execCurrentSumLaunch (d : DieId) (n : LoopId) (s : State) : Host.Outcome State Fault Refusal := s.onCore fun u => u.sumLaunch (d.val + 1) n.val

/-- CURRENT_SUM_ARRIVE (R22). -/
def execCurrentSumArrive (d : DieId) (n : LoopId) (s : State) : Host.Outcome State Fault Refusal := s.onCore fun u => u.sumArrive (d.val + 1) n.val

/-- LOOP_START (R81). -/
def execLoopStart (n : LoopId) (s : State) : Host.Outcome State Fault Refusal := s.onLoop n.val fun u => u.startArrive n.val

/-- LOOP_STOP (R82). -/
def execLoopStop (n : LoopId) (s : State) : Host.Outcome State Fault Refusal := s.onLoop n.val fun u => u.stopArrive n.val

/-- TRANSIENT_TIMEOUT (R68). -/
def execTransientTimeout (n : LoopId) (s : State) : Host.Outcome State Fault Refusal := s.onLoop n.val fun u => u.trTimeout n.val

/-- CURRENT_LIMIT_PERSISTENCE (R65). -/
def execCurrentLimitPersistence (n : LoopId) (s : State) : Host.Outcome State Fault Refusal := s.onCore fun u => u.ilimPersist n.val

/-- FEED_FORWARD_EXPIRE (R69). -/
def execFeedForwardExpire (n : LoopId) (s : State) : Host.Outcome State Fault Refusal := s.onCore fun u => u.ffExpire n.val

/-- COEF_SWAP_REQUEST (R103). -/
def execCoefSwapRequest (req : Requester) (n : LoopId) (set : Fin 4) (tileOk : Bool) (s : State) : Host.Outcome State Fault Refusal :=
  s.onNvm fun m u => u.busWrite m req (COEF.SEL n.val) (fldSet (fldSet (u.carry (COEF.SEL n.val)) (COEF.SEL_REQSET n.val) set.val) (COEF.SEL_GO n.val) 1) tileOk

/-- COEF_SWAP_APPLY (R104). -/
def execCoefSwapApply (n : LoopId) (tileOk : Bool) (s : State) : Host.Outcome State Fault Refusal := s.onCore fun u => u.swapApply n.val tileOk

/-- AUTOTUNE_START (R107). -/
def execAutotuneStart (req : Requester) (n : LoopId) (s : State) : Host.Outcome State Fault Refusal :=
  s.access req (COEF.TUNECTL n.val) fun w => fldSet w (COEF.TUNECTL_START n.val) 1

/-- AUTOTUNE_ABORT (R111). -/
def execAutotuneAbort (req : Requester) (n : LoopId) (s : State) : Host.Outcome State Fault Refusal :=
  s.access req (COEF.TUNECTL n.val) fun w => fldSet w (COEF.TUNECTL_ABORT n.val) 1

/-- TUNE_LEAVE_TIMEOUT (R108). -/
def execTuneLeaveTimeout (n : LoopId) (s : State) : Host.Outcome State Fault Refusal := s.onCore fun u => u.tuneWaitOver n.val

/-- TUNE_ENTER (R108). -/
def execTuneEnter (n : LoopId) (s : State) : Host.Outcome State Fault Refusal := s.onLoop n.val fun u => u.tuneEnter n.val

/-- TUNE_MAXS_EXPIRE (R111). -/
def execTuneMaxsExpire (n : LoopId) (s : State) : Host.Outcome State Fault Refusal := s.onLoop n.val fun u => u.tuneMaxs n.val

/-- TUNE_EXIT (R112). -/
def execTuneExit (n : LoopId) (s : State) : Host.Outcome State Fault Refusal := s.onLoop n.val fun u => u.tuneExit n.val

/-- LOOP_COMPARATOR_ACTIVE (R245). -/
def execLoopComparatorActive (n : LoopId) (ov : Bool) (v : Int) (s : State) : Host.Outcome State Fault Refusal :=
  s.onCore fun u => u.comparatorOn n.val ov v

/-- UV_MASK_END (R243). -/
def execUvMaskEnd (n : LoopId) (s : State) : Host.Outcome State Fault Refusal := s.onCore fun u => u.uvMaskEnd n.val

/-- WINDOW_TICK (R248). -/
def execWindowTick (r : RailId) (microvolts : Int) (s : State) : Host.Outcome State Fault Refusal :=
  s.on fun u => (u.wmTick r.val microvolts).railLook r.val

/-- WINDOW_CONFIRM_REQUEST (R249). -/
def execWindowConfirmRequest (r : RailId) (s : State) : Host.Outcome State Fault Refusal := s.on fun u => u.wmConfirm r.val

/-- LOOP_COMPARATOR_INACTIVE (R244). -/
def execLoopComparatorInactive (n : LoopId) (ov : Bool) (s : State) : Host.Outcome State Fault Refusal := s.onCore fun u => u.comparatorOff n.val ov

end Sys2Proof.Machine
end

