-- ==== Sys2Proof/Machine/MctpArms.lean ====
section
/-! DEFINITION. MCTP and SPDM messages: one meaning for each command. -/

namespace Sys2Proof.Machine

/-- MCTP_PACKET (R441). -/
def execMctpPacket (binding : Fin 2) (src dest : Byte) (som eom : Bool) (seq : Fin 4) (tag : Fin 16) (payload : List Byte) (s : State) : Host.Outcome State Fault Refusal :=
  s.on fun u => u.mctpPacket binding.val src.toNat dest.toNat som eom seq.val tag.val payload

/-- SET_ENDPOINT_ID (R441). -/
def execSetEndpointId (k : Nat) (s : State) : Host.Outcome State Fault Refusal := s.on fun u => u.setEid k

/-- GET_ENDPOINT_ID (R441). -/
def execGetEndpointId (k : Nat) (s : State) : Host.Outcome State Fault Refusal := s.on fun u => u.getEid k

/-- GET_ENDPOINT_UUID (R441). -/
def execGetEndpointUuid (k : Nat) (s : State) : Host.Outcome State Fault Refusal := s.on fun u => u.getUuid k

/-- GET_MCTP_VERSION_SUPPORT (R441). -/
def execGetMctpVersionSupport (k : Nat) (s : State) : Host.Outcome State Fault Refusal := s.on fun u => u.getMctpVersion k

/-- GET_MESSAGE_TYPE_SUPPORT (R441). -/
def execGetMessageTypeSupport (k : Nat) (s : State) : Host.Outcome State Fault Refusal := s.on fun u => u.getMessageTypes k

/-- MCTP_REG_READ (R442). -/
def execMctpRegRead (k : Nat) (fail : Option (Fin 32)) (s : State) : Host.Outcome State Fault Refusal :=
  s.onNvm fun m u => u.mctpRegRead m k (fail.map (·.val))

/-- GET_VERSION (R443). -/
def execGetVersion (k : Nat) (s : State) : Host.Outcome State Fault Refusal := s.on fun u => u.spdmVersion k

/-- GET_CAPABILITIES (R443). -/
def execGetCapabilities (k : Nat) (s : State) : Host.Outcome State Fault Refusal := s.on fun u => u.spdmCapabilities k

/-- NEGOTIATE_ALGORITHMS (R443). -/
def execNegotiateAlgorithms (k : Nat) (s : State) : Host.Outcome State Fault Refusal := s.on fun u => u.spdmAlgorithms k

/-- GET_DIGESTS (R443). -/
def execGetDigests (k : Nat) (s : State) : Host.Outcome State Fault Refusal := s.on fun u => u.spdmDigests k

/-- GET_CERTIFICATE (R461). -/
def execGetCertificate (k : Nat) (s : State) : Host.Outcome State Fault Refusal := s.on fun u => u.spdmCertificate k

/-- CHALLENGE (R443). -/
def execChallenge (k : Nat) (s : State) : Host.Outcome State Fault Refusal := s.onNvm fun m u => u.spdmChallenge m k

/-- GET_MEASUREMENTS (R470). -/
def execGetMeasurements (k : Nat) (s : State) : Host.Outcome State Fault Refusal := s.onNvm fun m u => u.spdmMeasurements m k

/-- CHUNK_GET (R443). -/
def execChunkGet (k : Nat) (s : State) : Host.Outcome State Fault Refusal := s.on fun u => u.spdmChunk k

/-- SPDM_SIGNATURE_DONE (R444). -/
def execSpdmSignatureDone (s : State) : Host.Outcome State Fault Refusal := s.on fun u => u.signatureDone

end Sys2Proof.Machine
end

