-- ==== Sys2Proof/Machine/PMBusArms.lean ====
section
/-! DEFINITION. PMBus transactions: one meaning for each command. -/

namespace Sys2Proof.Machine

/-- PAGE (R436). -/
def execPage (write : Option Byte) (pec : Pec) (s : State) : Host.Outcome State Fault Refusal := s.on fun u => u.pmbPage write pec

/-- OPERATION (R437). -/
def execOperation (write : Option Byte) (pec : Pec) (s : State) : Host.Outcome State Fault Refusal := s.on fun u => u.pmbOperation write pec

/-- CLEAR_FAULTS (R438). -/
def execClearFaults (pec : Pec) (s : State) : Host.Outcome State Fault Refusal := s.on fun u => u.pmbClearFaults pec

/-- WRITE_PROTECT (R437). -/
def execWriteProtect (write : Option Byte) (pec : Pec) (s : State) : Host.Outcome State Fault Refusal := s.on fun u => u.pmbProtect write pec

/-- CAPABILITY (R437). -/
def execCapability (write : Bool) (pec : Pec) (s : State) : Host.Outcome State Fault Refusal := s.on fun u => u.pmbFixed write pec pgNone [0xd0]

/-- VOUT_MODE (R437). -/
def execVoutMode (write : Bool) (pec : Pec) (s : State) : Host.Outcome State Fault Refusal := s.on fun u => u.pmbFixed write pec pgLoop [0x40]

/-- VOUT_COMMAND_WRITE (R439). -/
def execVoutCommandWrite (value : BitVec 16) (pec : Pec) (s : State) : Host.Outcome State Fault Refusal := s.on fun u => u.pmbVout value.toNat pec

/-- VOUT_COMMAND_READ (R437). -/
def execVoutCommandRead (s : State) : Host.Outcome State Fault Refusal := s.on fun u => u.pmbVoutRead

/-- VOUT_MAX (R437). -/
def execVoutMax (write : Bool) (pec : Pec) (s : State) : Host.Outcome State Fault Refusal := s.on fun u => u.pmbVoutMax write pec

/-- VOUT_MIN (R437). -/
def execVoutMin (write : Bool) (pec : Pec) (s : State) : Host.Outcome State Fault Refusal := s.on fun u => u.pmbVoutMin write pec

/-- VOUT_TRANSITION_RATE_WRITE (R263). -/
def execVoutTransitionRateWrite (value : BitVec 16) (pec : Pec) (s : State) : Host.Outcome State Fault Refusal :=
  s.on fun u => u.pmbRate value.toNat pec

/-- VOUT_TRANSITION_RATE_READ (R437). -/
def execVoutTransitionRateRead (s : State) : Host.Outcome State Fault Refusal := s.on fun u => u.pmbRateRead

/-- COEFFICIENTS (R437). -/
def execCoefficients (write : Bool) (pec : Pec) (s : State) : Host.Outcome State Fault Refusal :=
  s.on fun u => u.pmbFixed write pec pgRail (blockOf (bytesLE 2 4000 ++ [0, 0, 0]))

/-- IOUT_OC_FAULT_LIMIT (R437). -/
def execIoutOcFaultLimit (write : Bool) (pec : Pec) (s : State) : Host.Outcome State Fault Refusal := s.on fun u => u.pmbOcLimit write pec

/-- STATUS_READ (R438). -/
def execStatusRead (code : PmbCode) (s : State) : Host.Outcome State Fault Refusal := s.on fun u => u.pmbStatus code.reg.val code.other

/-- STATUS_WRITE_CLEAR (R438). -/
def execStatusWriteClear (code : PmbCode) (value : Byte) (pec : Pec) (s : State) : Host.Outcome State Fault Refusal :=
  s.on fun u => u.pmbStatusClear code.reg.val value.toNat pec code.other

/-- READ_VIN (R437). -/
def execReadVin (write : Bool) (pec : Pec) (s : State) : Host.Outcome State Fault Refusal := s.on fun u => u.pmbVin write pec

/-- READ_IIN (R437). -/
def execReadIin (write : Bool) (pec : Pec) (s : State) : Host.Outcome State Fault Refusal := s.on fun u => u.pmbIin write pec

/-- READ_PIN (R437). -/
def execReadPin (write : Bool) (pec : Pec) (s : State) : Host.Outcome State Fault Refusal := s.on fun u => u.pmbPin write pec

/-- READ_VOUT (R437). -/
def execReadVout (write : Bool) (pec : Pec) (s : State) : Host.Outcome State Fault Refusal := s.on fun u => u.pmbReadVout write pec

/-- READ_IOUT (R437). -/
def execReadIout (write : Bool) (pec : Pec) (s : State) : Host.Outcome State Fault Refusal := s.on fun u => u.pmbIout write pec

/-- READ_POUT (R437). -/
def execReadPout (write : Bool) (pec : Pec) (s : State) : Host.Outcome State Fault Refusal := s.on fun u => u.pmbPout write pec

/-- READ_TEMPERATURE_1 (R437). -/
def execReadTemperature1 (write : Bool) (pec : Pec) (s : State) : Host.Outcome State Fault Refusal := s.on fun u => u.pmbTemp write pec

/-- PMBUS_REVISION (R437). -/
def execPmbusRevision (write : Bool) (pec : Pec) (s : State) : Host.Outcome State Fault Refusal := s.on fun u => u.pmbFixed write pec pgNone [0x33]

/-- MFR_ID (R437). -/
def execMfrId (write : Bool) (pec : Pec) (s : State) : Host.Outcome State Fault Refusal := s.on fun u => u.pmbId write pec

/-- MFR_MODEL (R437). -/
def execMfrModel (write : Bool) (pec : Pec) (s : State) : Host.Outcome State Fault Refusal := s.on fun u => u.pmbModel write pec

/-- MFR_REVISION (R437). -/
def execMfrRevision (write : Bool) (pec : Pec) (s : State) : Host.Outcome State Fault Refusal := s.on fun u => u.pmbRevision write pec

/-- MFR_SERIAL (R437). -/
def execMfrSerial (write : Bool) (pec : Pec) (s : State) : Host.Outcome State Fault Refusal := s.on fun u => u.pmbSerial write pec

/-- MFR_REG_ADDR (R440). -/
def execMfrRegAddr (write : Option Word) (pec : Pec) (s : State) : Host.Outcome State Fault Refusal := s.on fun u => u.pmbRegAddr write pec

/-- MFR_REG_DATA_READ (R440). -/
def execMfrRegDataRead (dieOk : Bool) (s : State) : Host.Outcome State Fault Refusal := s.onNvm fun m u => u.pmbRegRead m dieOk

/-- MFR_REG_DATA_WRITE (R440). -/
def execMfrRegDataWrite (value : Word) (dieOk : Bool) (pec : Pec) (cold : ColdIn) (s : State) : Host.Outcome State Fault Refusal :=
  s.onColdNvm cold fun m u => u.pmbRegWrite m value dieOk pec

/-- MFR_FAULT_SUMMARY (R440). -/
def execMfrFaultSummary (write : Bool) (pec : Pec) (s : State) : Host.Outcome State Fault Refusal := s.on fun u => u.pmbSummary write pec

/-- MFR_FAULT_ACK (R440). -/
def execMfrFaultAck (value : Word) (pec : Pec) (s : State) : Host.Outcome State Fault Refusal := s.on fun u => u.pmbAck value.toNat pec

/-- MFR_DOMAIN (R440). -/
def execMfrDomain (value : Byte) (pec : Pec) (s : State) : Host.Outcome State Fault Refusal := s.on fun u => u.pmbDomain value.toNat pec

/-- MFR_EPOCH (R440). -/
def execMfrEpoch (write : Bool) (pec : Pec) (s : State) : Host.Outcome State Fault Refusal := s.on fun u => u.pmbEpoch write pec

/-- MFR_SEQ_STATE (R440). -/
def execMfrSeqState (write : Bool) (pec : Pec) (s : State) : Host.Outcome State Fault Refusal := s.on fun u => u.pmbSeqState write pec

/-- SMBUS_TIMEOUT (R435). -/
def execSmbusTimeout (s : State) : Host.Outcome State Fault Refusal := s.on fun u => u.smbTimeout

/-- ALERT_RESPONSE (R435). -/
def execAlertResponse (s : State) : Host.Outcome State Fault Refusal := s.on fun u => u.alertAnswer

end Sys2Proof.Machine
end

