-- ==== Sys2Proof/Machine/PhaseArms.lean ====
section
/-! DEFINITION. Phase management, balancing, segments and the health map: one meaning for each command. -/

namespace Sys2Proof.Machine

/-- BALANCE_UPDATE (R157). -/
def execBalanceUpdate (n : LoopId) (s : State) : Host.Outcome State Fault Refusal := s.onReady fun u => u.balanceUpdate n.val

/-- MEAN_ARRIVE (R158, R279). -/
def execMeanArrive (d : DieId) (n : LoopId) (s : State) : Host.Outcome State Fault Refusal :=
  s.on fun u => (u.meanArrive (d.val + 1) n.val).readyLook

/-- SHED_DWELL_EXPIRE (R159). -/
def execShedDwellExpire (n : LoopId) (s : State) : Host.Outcome State Fault Refusal := s.onCore fun u => u.shedDwell n.val

/-- PHASE_IDLE_REPORT (R161). -/
def execPhaseIdleReport (p : PhaseId) (s : State) : Host.Outcome State Fault Refusal := s.onReady fun u => u.idleReport p.val

/-- INTERLEAVE_COMMAND (R155). -/
def execInterleaveCommand (d : DieId) (n : LoopId) (good : Bool) (s : State) : Host.Outcome State Fault Refusal :=
  s.on fun u => (u.ilvArrive (d.val + 1) n.val good).readyLook

/-- SEG_TABLE_SUBMIT (R165). -/
def execSegTableSubmit (req : Requester) (n : LoopId) (s : State) : Host.Outcome State Fault Refusal :=
  s.access req (SEGL.CTRL n.val) fun w => fldSet w (SEGL.CTRL_TBLGO n.val) 1

/-- SEGMENT_DECREASE_DWELL (R167). -/
def execSegmentDecreaseDwell (p : PhaseId) (s : State) : Host.Outcome State Fault Refusal := s.on fun u => u.segDecrease p.val

/-- WEAR_ROTATION (R169). -/
def execWearRotation (p : PhaseId) (low : Bool) (s : State) : Host.Outcome State Fault Refusal := s.on fun u => u.wearRotate p.val low.toNat

/-- SEGMENT_RETIRE (R171). -/
def execSegmentRetire (req : Requester) (p : PhaseId) (low : Bool) (first : Fin 16384) (num : Fin 32768) (s : State) : Host.Outcome State Fault Refusal :=
  s.access req (SEG.RETIRE p.val) fun w => fldSet (fldSet (fldSet (fldSet w (SEG.RETIRE_GO p.val) 1) (SEG.RETIRE_SW p.val) low.toNat) (SEG.RETIRE_FIRST p.val) first.val) (SEG.RETIRE_NUM p.val) num.val

/-- HEALTH_MAP_FLUSH (R172). -/
def execHealthMapFlush (tile : Fin 7168) (s : State) : Host.Outcome State Fault Refusal := s.on fun u => u.mapFlush tile.val

end Sys2Proof.Machine
end

