-- ==== Sys2Proof/Machine/PowerArms.lean ====
section
/-! DEFINITION. Power supplies, domains, phase-die links and the time bases: one meaning for each command. -/

namespace Sys2Proof.Machine

/-- VAUX33_RISE (R31). -/
def execVaux33Rise (s : State) : Host.Outcome State Fault Refusal := s.on fun u => u.vauxRise

/-- SUPPLIES_GOOD (R31). -/
def execSuppliesGood (cold : ColdIn) (s : State) : Host.Outcome State Fault Refusal := .next (s.suppliesGood cold)

/-- CORE_SUPPLY_LOSS (R517). -/
def execCoreSupplyLoss (s : State) : Host.Outcome State Fault Refusal := s.on fun u => u.coreLoss

/-- HOLDUP_ENTRY (R35). -/
def execHoldupEntry (s : State) : Host.Outcome State Fault Refusal := s.on fun u => u.holdupEntry

/-- HOLDUP_END (R518). -/
def execHoldupEnd (s : State) : Host.Outcome State Fault Refusal := s.on fun u => u.holdupEnd

/-- AON_POWER_OFF (R518). -/
def execAonPowerOff (s : State) : Host.Outcome State Fault Refusal := s.on fun u => u.aonOff

/-- DIE_LINK_UP (R482). -/
def execDieLinkUp (d : DieId) (s : State) : Host.Outcome State Fault Refusal := s.onNvm fun m u => u.dieLinkUp m (d.val + 1)

/-- LINK_TRAINING_FAIL (R54). -/
def execLinkTrainingFail (d : DieId) (s : State) : Host.Outcome State Fault Refusal := s.on fun u => u.trainingFail (d.val + 1)

/-- POL_SLEEP_REQUEST (R34). -/
def execPolSleepRequest (req : Requester) (s : State) : Host.Outcome State Fault Refusal :=
  s.access req PWR.DOMCTL fun w => fldSet w PWR.DOMCTL_POLSLP 1

/-- POL_SLEEP_ENTRY (R34). -/
def execPolSleepEntry (s : State) : Host.Outcome State Fault Refusal := s.on fun u => u.sleepEntry

/-- POL_WAKE (R34). -/
def execPolWake (s : State) : Host.Outcome State Fault Refusal := s.on fun u => u.polWake.mbFill

/-- KEEP_ALIVE_SEND (R28). -/
def execKeepAliveSend (d : DieId) (s : State) : Host.Outcome State Fault Refusal := s.on fun u => u.keepAliveSend (d.val + 1)

/-- DIE_KEEP_ALIVE_TIMEOUT (R28). -/
def execDieKeepAliveTimeout (d : DieId) (s : State) : Host.Outcome State Fault Refusal := s.on fun u => u.dieTimeout (d.val + 1)

/-- LINK_LOSS (R28). -/
def execLinkLoss (d : DieId) (s : State) : Host.Outcome State Fault Refusal := s.on fun u => u.linkLoss (d.val + 1)

/-- SERVICE_FLIT_RECEIVE (R26). -/
def execServiceFlitReceive (d : DieId) (good : Bool) (s : State) : Host.Outcome State Fault Refusal := s.on fun u => u.flitReceive (d.val + 1) good

/-- SERVICE_FLIT_FAIL (R27). -/
def execServiceFlitFail (d : DieId) (req : Requester) (off : BitVec 17) (write : Bool) (s : State) : Host.Outcome State Fault Refusal :=
  s.on fun u => u.flitFail req (dieWindow + 0x20000 * d.val + off.toNat) write

/-- SPEED_MEASURE (R41). -/
def execSpeedMeasure (idx : BitVec 8) (s : State) : Host.Outcome State Fault Refusal := s.onCore fun u => u.speedMeasure idx.toNat

/-- TB0_LOSS (R42). -/
def execTb0Loss (s : State) : Host.Outcome State Fault Refusal := s.onAon fun u => u.tb0Loss

/-- TB1_LOSS (R44). -/
def execTb1Loss (s : State) : Host.Outcome State Fault Refusal := s.onAon fun u => u.tb1Loss

/-- TB_RETURN (R43). -/
def execTbReturn (one : Bool) (s : State) : Host.Outcome State Fault Refusal := s.onAon fun u => u.tbReturn one

/-- TB1_RELOCK (R44). -/
def execTb1Relock (s : State) : Host.Outcome State Fault Refusal := s.onAon fun u => u.tb1Relock

/-- TB_LOCK_LOSS (R42). -/
def execTbLockLoss (tb : Fin 3) (s : State) : Host.Outcome State Fault Refusal := s.onAon fun u => u.lockLoss tb.val

end Sys2Proof.Machine
end

