-- ==== Sys2Proof/Machine/PwmArms.lean ====
section
/-! DEFINITION. PWM generators and their trips: one meaning for each command. -/

namespace Sys2Proof.Machine

/-- DUTY_WORD_ARRIVE (R123). -/
def execDutyWordArrive (d : DieId) (n : LoopId) (rx : DutyRx) (s : State) : Host.Outcome State Fault Refusal :=
  s.on fun u => u.dutyArrive (d.val + 1) n.val rx.good rx.settled.toNat

/-- DISCARD_LIMIT (R27). -/
def execDiscardLimit (d : DieId) (n : LoopId) (s : State) : Host.Outcome State Fault Refusal := s.on fun u => u.discardLimit (d.val + 1) n.val

/-- PWM_RELOAD (R131). -/
def execPwmReload (p : PhaseId) (cmp cmp2 : Bool) (s : State) : Host.Outcome State Fault Refusal := s.on fun u => u.pwmReload p.val cmp cmp2

/-- BOOTSTRAP_REFRESH (R134). -/
def execBootstrapRefresh (p : PhaseId) (low : Bool) (s : State) : Host.Outcome State Fault Refusal := s.on fun u => u.bootRefresh p.val low

/-- TRIGGER_FIRE (R133). -/
def execTriggerFire (p : PhaseId) (t : Fin 2) (soon : Bool) (s : State) : Host.Outcome State Fault Refusal :=
  s.on fun u => u.triggerFire p.val t.val soon

/-- CMPB_WRITE (R125). -/
def execCmpbWrite (req : Requester) (p : PhaseId) (value : Word) (s : State) : Host.Outcome State Fault Refusal :=
  s.onNvm fun m u => u.busWrite m req (PWM.CMPB p.val) value true

/-- TRIP_PIN_CHANGE (R138). -/
def execTripPinChange (d : DieId) (pin : Fin 8) (active : Bool) (s : State) : Host.Outcome State Fault Refusal :=
  s.on fun u => u.tripPin (d.val + 1) pin.val active

/-- PEAK_CURRENT_TRIP (R240). -/
def execPeakCurrentTrip (p : PhaseId) (ticks : Fin 4096) (out : Bool) (s : State) : Host.Outcome State Fault Refusal :=
  s.on fun u => u.peakTrip p.val ticks.val out

/-- TRIP_CLEAR (R141). -/
def execTripClear (req : Requester) (p : PhaseId) (s : State) : Host.Outcome State Fault Refusal :=
  s.access req (PWM.TRIPST p.val) fun w => fldSet w (PWM.TRIPST_CLR p.val) 1

/-- PWM_EDGE (R127). -/
def execPwmEdge (p : PhaseId) (edge : PwmEdge) (s : State) : Host.Outcome State Fault Refusal := s.on fun u => u.pwmEdge p.val edge

end Sys2Proof.Machine
end

