-- ==== Sys2Proof/Machine/RegisterArms.lean ====
section
/-! DEFINITION. Register accesses: one meaning for each command. -/

namespace Sys2Proof.Machine

/-- SNAPSHOT_LOW_READ (R510). -/
def execSnapshotLowRead (req : Requester) (w : Fin 7) (s : State) : Host.Outcome State Fault Refusal :=
  s.onNvm fun m u => u.busAnswer m req (snapPairs.getD w.val (0, [])).1

/-- NVM_RDDATA_READ (R501). -/
def execNvmRddataRead (req : Requester) (s : State) : Host.Outcome State Fault Refusal := s.onNvm fun m u => u.busAnswer m req NVM.RDDATA

/-- REGISTER_WRITE (R508). -/
def execRegisterWrite (req : Requester) (off : BitVec 21) (value : Word) (cold : ColdIn) (s : State) : Host.Outcome State Fault Refusal :=
  s.onColdNvm cold fun m u => u.busWrite m req off.toNat value true

/-- W1C_CLEAR (R13). -/
def execW1cClear (req : Requester) (off : BitVec 21) (value : Word) (s : State) : Host.Outcome State Fault Refusal :=
  s.onNvm fun m u => u.busWrite m req off.toNat value true

/-- COUNTER_CLEAR (R85). -/
def execCounterClear (req : Requester) (off : BitVec 21) (value : Word) (s : State) : Host.Outcome State Fault Refusal :=
  s.onNvm fun m u => u.busWrite m req off.toNat value true

end Sys2Proof.Machine
end

