-- ==== Sys2Proof/Machine/SequenceArms.lean ====
section
/-! DEFINITION. Sequence domains and rails: one meaning for each command. -/

namespace Sys2Proof.Machine

/-- DOMAIN_START (R324). -/
def execDomainStart (req : Requester) (d : DomainId) (s : State) : Host.Outcome State Fault Refusal :=
  s.access req (SEQD.CTRL d.val) fun w => fldSet w (SEQD.CTRL_START d.val) 1

/-- DOMAIN_STOP (R334). -/
def execDomainStop (req : Requester) (d : DomainId) (s : State) : Host.Outcome State Fault Refusal :=
  s.access req (SEQD.CTRL d.val) fun w => fldSet w (SEQD.CTRL_STOP d.val) 1

/-- DOMAIN_CLR (R333). -/
def execDomainClr (req : Requester) (d : DomainId) (s : State) : Host.Outcome State Fault Refusal :=
  s.access req (SEQD.CTRL d.val) fun w => fldSet w (SEQD.CTRL_CLR d.val) 1

/-- RAIL_RELEASE (R322). -/
def execRailRelease (r : RailId) (s : State) : Host.Outcome State Fault Refusal := s.onCore fun u => u.railRelease r.val

/-- RAIL_DWELL_COMPLETE (R326). -/
def execRailDwellComplete (r : RailId) (s : State) : Host.Outcome State Fault Refusal := s.onCore fun u => u.dwellComplete r.val

/-- QUALIFICATION_TIMEOUT (R327). -/
def execQualificationTimeout (r : RailId) (s : State) : Host.Outcome State Fault Refusal := s.onCore fun u => u.qualTimeout r.val

/-- RAIL_CHATTER_LIMIT (R327). -/
def execRailChatterLimit (r : RailId) (s : State) : Host.Outcome State Fault Refusal := s.onCore fun u => u.chatterLimit r.val

/-- XPG_CHANGE (R325). -/
def execXpgChange (r : RailId) (high : Bool) (s : State) : Host.Outcome State Fault Refusal := s.onCore fun u => u.xpgChange r.val high

/-- STOP_STEP_BEGIN (R329). -/
def execStopStepBegin (r : RailId) (tileOk : Bool) (s : State) : Host.Outcome State Fault Refusal := s.onCore fun u => u.stopStepBegin r.val tileOk

/-- STOP_STEP_END (R330). -/
def execStopStepEnd (r : RailId) (cold : ColdIn) (s : State) : Host.Outcome State Fault Refusal := s.onCold cold fun u => (u.stopStepEnd r.val).settle

/-- STOP_STEP_TIMEOUT (R330). -/
def execStopStepTimeout (r : RailId) (cold : ColdIn) (s : State) : Host.Outcome State Fault Refusal :=
  s.onCold cold fun u => (u.stopStepTimeout r.val).settle

/-- FIRST_FAILURE_ARM (R337). -/
def execFirstFailureArm (req : Requester) (s : State) : Host.Outcome State Fault Refusal := s.access req SEQ.FFCTL fun w => fldSet w SEQ.FFCTL_ARM 1

end Sys2Proof.Machine
end

