-- ==== Sys2Proof/Machine/StageArms.lean ====
section
/-! DEFINITION. The stage bus: one meaning for each command. -/

namespace Sys2Proof.Machine

/-- STAGE_FRAME_SEND (R188). -/
def execStageFrameSend (d : DieId) (lane : Fin 4) (tileOk : BitVec 16) (s : State) : Host.Outcome State Fault Refusal :=
  s.on fun u => u.stageFrame (d.val + 1) lane.val tileOk.toNat

/-- STAGE_ANSWER_TIMEOUT (R189). -/
def execStageAnswerTimeout (d : DieId) (lane : Fin 4) (s : State) : Host.Outcome State Fault Refusal :=
  s.on fun u => u.stageTimeout (d.val + 1) lane.val

/-- STAGE_MISS_LIMIT (R198). -/
def execStageMissLimit (p : PhaseId) (s : State) : Host.Outcome State Fault Refusal := s.on fun u => u.missLimit p.val

/-- ENUMERATION_RESET_WAIT (R190). -/
def execEnumerationResetWait (d : DieId) (lane : Fin 4) (s : State) : Host.Outcome State Fault Refusal :=
  s.on fun u => u.enumWait (d.val + 1) lane.val

/-- STAGE_IDENT_ANSWER (R190). -/
def execStageIdentAnswer (d : DieId) (lane : Fin 4) (a : StageAnswer) (s : State) : Host.Outcome State Fault Refusal :=
  s.on fun u => u.stageAnswer (d.val + 1) lane.val .ident a

/-- STAGE_MAPW_ACK (R192). -/
def execStageMapwAck (d : DieId) (lane : Fin 4) (a : StageAnswer) (s : State) : Host.Outcome State Fault Refusal :=
  s.on fun u => u.stageAnswer (d.val + 1) lane.val .mapw a

/-- STAGE_CNTW_ACK (R192). -/
def execStageCntwAck (d : DieId) (lane : Fin 4) (a : StageAnswer) (s : State) : Host.Outcome State Fault Refusal :=
  s.on fun u => (u.stageAnswer (d.val + 1) lane.val .cntw a).readyLook

/-- STAGE_STAT_ANSWER (R194). -/
def execStageStatAnswer (d : DieId) (lane : Fin 4) (a : StageAnswer) (s : State) : Host.Outcome State Fault Refusal :=
  s.on fun u => (u.stageAnswer (d.val + 1) lane.val .stat a).readyLook

/-- STAGE_FLTR_ANSWER (R195). -/
def execStageFltrAnswer (d : DieId) (lane : Fin 4) (a : StageAnswer) (s : State) : Host.Outcome State Fault Refusal :=
  s.on fun u => u.stageAnswer (d.val + 1) lane.val .fltr a

/-- STAGE_RELAY_ANSWER (R199). -/
def execStageRelayAnswer (d : DieId) (lane : Fin 4) (a : StageAnswer) (s : State) : Host.Outcome State Fault Refusal :=
  s.on fun u => u.stageAnswer (d.val + 1) lane.val .relay a

/-- STAGE_ALERT (R196). -/
def execStageAlert (d : DieId) (lane : Fin 4) (s : State) : Host.Outcome State Fault Refusal := s.on fun u => u.stageAlert (d.val + 1) lane.val

/-- STAGE_POLL (R196). -/
def execStagePoll (p : PhaseId) (s : State) : Host.Outcome State Fault Refusal := s.on fun u => u.stagePoll p.val

/-- ALERT_STUCK (R196). -/
def execAlertStuck (d : DieId) (lane : Fin 4) (s : State) : Host.Outcome State Fault Refusal := s.on fun u => u.alertStuck (d.val + 1) lane.val

/-- RELAY_SEND (R199). -/
def execRelaySend (req : Requester) (d : DieId) (op : Fin 16) (len : Fin 64) (lane : Fin 4) (addr : Fin 16) (s : State) : Host.Outcome State Fault Refusal :=
  s.access req (STB.RLYCTL (d.val + 1)) fun w => fldSet (fldSet (fldSet (fldSet (fldSet w (STB.RLYCTL_OP (d.val + 1)) op.val) (STB.RLYCTL_LEN (d.val + 1)) len.val) (STB.RLYCTL_LANE (d.val + 1)) lane.val) (STB.RLYCTL_ADDR (d.val + 1)) addr.val) (STB.RLYCTL_GO (d.val + 1)) 1

/-- ALERT_LINE_RELEASE (R196). -/
def execAlertLineRelease (d : DieId) (lane : Fin 4) (s : State) : Host.Outcome State Fault Refusal :=
  s.on fun u => u.alertRelease (d.val + 1) lane.val

end Sys2Proof.Machine
end

