-- ==== Sys2Proof/Machine/StoreArms.lean ====
section
/-! DEFINITION. Tiles, commits and the non-volatile memory: one meaning for each command. -/

namespace Sys2Proof.Machine

/-- STGCTL_GO (R484). -/
def execStgctlGo (req : Requester) (kind : Fin 16) (index : Fin 8192) (s : State) : Host.Outcome State Fault Refusal :=
  s.access req TILE.STGCTL fun w => fldSet (fldSet (fldSet w TILE.STGCTL_GO 1) TILE.STGCTL_KIND kind.val) TILE.STGCTL_INDEX index.val

/-- CMTCTL_GO (R485). -/
def execCmtctlGo (req : Requester) (s : State) : Host.Outcome State Fault Refusal := s.access req TILE.CMTCTL fun w => fldSet w TILE.CMTCTL_GO 1

/-- CMTCTL_DISCARD (R485). -/
def execCmtctlDiscard (req : Requester) (s : State) : Host.Outcome State Fault Refusal :=
  s.access req TILE.CMTCTL fun w => fldSet w TILE.CMTCTL_DISCARD 1

/-- NVM_LINE_WRITE (R488). -/
def execNvmLineWrite (b : LineBack) (s : State) : Host.Outcome State Fault Refusal := .next (s.lineWrite b.good b.coefOk)

/-- SCRUB_CHECK (R498). -/
def execScrubCheck (nvmOk copyOk : Bool) (s : State) : Host.Outcome State Fault Refusal := s.onNvm fun m u => u.scrubCheck m nvmOk copyOk

end Sys2Proof.Machine
end

