-- ==== Sys2Proof/Machine/ThermalArms.lean ====
section
/-! DEFINITION. Thermal management: one meaning for each command. -/

namespace Sys2Proof.Machine

/-- SENSOR_READING (R373). -/
def execSensorReading (i : Fin 36) (temp : BitVec 12) (s : State) : Host.Outcome State Fault Refusal :=
  s.on fun u => (u.sensorReading i.val temp.toNat).cmtWindow

/-- CROSS_CHECK_ROUND (R375). -/
def execCrossCheckRound (s : State) : Host.Outcome State Fault Refusal := s.on fun u => u.crossCheck

/-- THERMAL_SHUTDOWN (R378). -/
def execThermalShutdown (i : Fin 36) (s : State) : Host.Outcome State Fault Refusal := s.on fun u => u.thermalShutdown i.val

/-- COOLING_RESTART (R379). -/
def execCoolingRestart (cold : ColdIn) (s : State) : Host.Outcome State Fault Refusal := .next (s.coolingRestart cold)

end Sys2Proof.Machine
end

