-- ==== Sys2Proof/Machine/Dispatch.lean ====
section
/-! DEFINITION. One arm for each command, each a direct call of its meaning. -/

namespace Sys2Proof.Machine

def exec (i : Instr) (s : State) : Host.Outcome State Fault Refusal :=
  match i with
  | .vaux33Rise => Sys2Proof.Machine.execVaux33Rise s
  | .suppliesGood cold => Sys2Proof.Machine.execSuppliesGood cold s
  | .coreSupplyLoss => Sys2Proof.Machine.execCoreSupplyLoss s
  | .holdupEntry => Sys2Proof.Machine.execHoldupEntry s
  | .holdupEnd => Sys2Proof.Machine.execHoldupEnd s
  | .aonPowerOff => Sys2Proof.Machine.execAonPowerOff s
  | .dieLinkUp d => Sys2Proof.Machine.execDieLinkUp d s
  | .linkTrainingFail d => Sys2Proof.Machine.execLinkTrainingFail d s
  | .polSleepRequest req => Sys2Proof.Machine.execPolSleepRequest req s
  | .polSleepEntry => Sys2Proof.Machine.execPolSleepEntry s
  | .polWake => Sys2Proof.Machine.execPolWake s
  | .keepAliveSend d => Sys2Proof.Machine.execKeepAliveSend d s
  | .dieKeepAliveTimeout d => Sys2Proof.Machine.execDieKeepAliveTimeout d s
  | .linkLoss d => Sys2Proof.Machine.execLinkLoss d s
  | .dutyWordArrive d n rx => Sys2Proof.Machine.execDutyWordArrive d n rx s
  | .discardLimit d n => Sys2Proof.Machine.execDiscardLimit d n s
  | .serviceFlitReceive d good => Sys2Proof.Machine.execServiceFlitReceive d good s
  | .serviceFlitFail d req off write => Sys2Proof.Machine.execServiceFlitFail d req off write s
  | .speedMeasure idx => Sys2Proof.Machine.execSpeedMeasure idx s
  | .tb0Loss => Sys2Proof.Machine.execTb0Loss s
  | .tb1Loss => Sys2Proof.Machine.execTb1Loss s
  | .tbReturn one => Sys2Proof.Machine.execTbReturn one s
  | .tb1Relock => Sys2Proof.Machine.execTb1Relock s
  | .snapshotLowRead req w => Sys2Proof.Machine.execSnapshotLowRead req w s
  | .sampleInstant n vdiff => Sys2Proof.Machine.execSampleInstant n vdiff s
  | .errorCodeArrive n => Sys2Proof.Machine.execErrorCodeArrive n s
  | .runAheadComplete n => Sys2Proof.Machine.execRunAheadComplete n s
  | .sampleOverrun n => Sys2Proof.Machine.execSampleOverrun n s
  | .overrunLimit n => Sys2Proof.Machine.execOverrunLimit n s
  | .fixedClassRelease r => Sys2Proof.Machine.execFixedClassRelease r s
  | .currentSumLaunch d n => Sys2Proof.Machine.execCurrentSumLaunch d n s
  | .currentSumArrive d n => Sys2Proof.Machine.execCurrentSumArrive d n s
  | .loopStart n => Sys2Proof.Machine.execLoopStart n s
  | .loopStop n => Sys2Proof.Machine.execLoopStop n s
  | .transientTimeout n => Sys2Proof.Machine.execTransientTimeout n s
  | .currentLimitPersistence n => Sys2Proof.Machine.execCurrentLimitPersistence n s
  | .feedForwardExpire n => Sys2Proof.Machine.execFeedForwardExpire n s
  | .coefSwapRequest req n set tileOk => Sys2Proof.Machine.execCoefSwapRequest req n set tileOk s
  | .coefSwapApply n tileOk => Sys2Proof.Machine.execCoefSwapApply n tileOk s
  | .autotuneStart req n => Sys2Proof.Machine.execAutotuneStart req n s
  | .autotuneAbort req n => Sys2Proof.Machine.execAutotuneAbort req n s
  | .tuneLeaveTimeout n => Sys2Proof.Machine.execTuneLeaveTimeout n s
  | .tuneEnter n => Sys2Proof.Machine.execTuneEnter n s
  | .tuneMaxsExpire n => Sys2Proof.Machine.execTuneMaxsExpire n s
  | .tuneExit n => Sys2Proof.Machine.execTuneExit n s
  | .pwmReload p cmp cmp2 => Sys2Proof.Machine.execPwmReload p cmp cmp2 s
  | .bootstrapRefresh p low => Sys2Proof.Machine.execBootstrapRefresh p low s
  | .triggerFire p t soon => Sys2Proof.Machine.execTriggerFire p t soon s
  | .cmpbWrite req p value => Sys2Proof.Machine.execCmpbWrite req p value s
  | .tripPinChange d pin active => Sys2Proof.Machine.execTripPinChange d pin active s
  | .peakCurrentTrip p ticks out => Sys2Proof.Machine.execPeakCurrentTrip p ticks out s
  | .tripClear req p => Sys2Proof.Machine.execTripClear req p s
  | .balanceUpdate n => Sys2Proof.Machine.execBalanceUpdate n s
  | .meanArrive d n => Sys2Proof.Machine.execMeanArrive d n s
  | .shedDwellExpire n => Sys2Proof.Machine.execShedDwellExpire n s
  | .phaseIdleReport p => Sys2Proof.Machine.execPhaseIdleReport p s
  | .interleaveCommand d n good => Sys2Proof.Machine.execInterleaveCommand d n good s
  | .segTableSubmit req n => Sys2Proof.Machine.execSegTableSubmit req n s
  | .segmentDecreaseDwell p => Sys2Proof.Machine.execSegmentDecreaseDwell p s
  | .wearRotation p low => Sys2Proof.Machine.execWearRotation p low s
  | .segmentRetire req p low first num => Sys2Proof.Machine.execSegmentRetire req p low first num s
  | .healthMapFlush tile => Sys2Proof.Machine.execHealthMapFlush tile s
  | .stageFrameSend d lane tileOk => Sys2Proof.Machine.execStageFrameSend d lane tileOk s
  | .stageAnswerTimeout d lane => Sys2Proof.Machine.execStageAnswerTimeout d lane s
  | .stageMissLimit p => Sys2Proof.Machine.execStageMissLimit p s
  | .enumerationResetWait d lane => Sys2Proof.Machine.execEnumerationResetWait d lane s
  | .stageIdentAnswer d lane a => Sys2Proof.Machine.execStageIdentAnswer d lane a s
  | .stageMapwAck d lane a => Sys2Proof.Machine.execStageMapwAck d lane a s
  | .stageCntwAck d lane a => Sys2Proof.Machine.execStageCntwAck d lane a s
  | .stageStatAnswer d lane a => Sys2Proof.Machine.execStageStatAnswer d lane a s
  | .stageFltrAnswer d lane a => Sys2Proof.Machine.execStageFltrAnswer d lane a s
  | .stageRelayAnswer d lane a => Sys2Proof.Machine.execStageRelayAnswer d lane a s
  | .stageAlert d lane => Sys2Proof.Machine.execStageAlert d lane s
  | .stagePoll p => Sys2Proof.Machine.execStagePoll p s
  | .alertStuck d lane => Sys2Proof.Machine.execAlertStuck d lane s
  | .relaySend req d op len lane addr => Sys2Proof.Machine.execRelaySend req d op len lane addr s
  | .iadcResult p nanovolts => Sys2Proof.Machine.execIadcResult p nanovolts s
  | .iadcDelayedStart p => Sys2Proof.Machine.execIadcDelayedStart p s
  | .sqEntryComplete x c => Sys2Proof.Machine.execSqEntryComplete x c s
  | .sqPassStart x => Sys2Proof.Machine.execSqPassStart x s
  | .sqStart req x => Sys2Proof.Machine.execSqStart req x s
  | .sqStop req x => Sys2Proof.Machine.execSqStop req x s
  | .sqInjectRequest req x entry pre => Sys2Proof.Machine.execSqInjectRequest req x entry pre s
  | .sqInjectionComplete x c => Sys2Proof.Machine.execSqInjectionComplete x c s
  | .sqCalibrateStep req x step entry ref => Sys2Proof.Machine.execSqCalibrateStep req x step entry ref s
  | .sqCalibrateAbort req x => Sys2Proof.Machine.execSqCalibrateAbort req x s
  | .sqCalibrationStepDone x c => Sys2Proof.Machine.execSqCalibrationStepDone x c s
  | .sqCalholdExpire x => Sys2Proof.Machine.execSqCalholdExpire x s
  | .loopComparatorActive n ov v => Sys2Proof.Machine.execLoopComparatorActive n ov v s
  | .uvMaskEnd n => Sys2Proof.Machine.execUvMaskEnd n s
  | .windowTick r microvolts => Sys2Proof.Machine.execWindowTick r microvolts s
  | .windowConfirmRequest r => Sys2Proof.Machine.execWindowConfirmRequest r s
  | .avsTargetVoltageWrite k sel hold mv crcOk => Sys2Proof.Machine.execAvsTargetVoltageWrite k sel hold mv crcOk s
  | .avsTargetVoltageRead k sel crcOk => Sys2Proof.Machine.execAvsTargetVoltageRead k sel crcOk s
  | .avsTransitionRateWrite k sel hold rate crcOk => Sys2Proof.Machine.execAvsTransitionRateWrite k sel hold rate crcOk s
  | .avsTransitionRateRead k sel crcOk => Sys2Proof.Machine.execAvsTransitionRateRead k sel crcOk s
  | .avsCurrentRead k sel crcOk => Sys2Proof.Machine.execAvsCurrentRead k sel crcOk s
  | .avsTemperatureRead k sel crcOk => Sys2Proof.Machine.execAvsTemperatureRead k sel crcOk s
  | .avsResetVoltage k sel hold crcOk => Sys2Proof.Machine.execAvsResetVoltage k sel hold crcOk s
  | .avsStatusWrite k sel other hold crcOk => Sys2Proof.Machine.execAvsStatusWrite k sel other hold crcOk s
  | .avsStatusRead k sel crcOk => Sys2Proof.Machine.execAvsStatusRead k sel crcOk s
  | .avsVersionRead k sel other crcOk => Sys2Proof.Machine.execAvsVersionRead k sel other crcOk s
  | .avsFrameTimeout k => Sys2Proof.Machine.execAvsFrameTimeout k s
  | .hintReceive l clean crc w0 w1 => Sys2Proof.Machine.execHintReceive l clean crc w0 w1 s
  | .cancelReceive l clean crc w0 => Sys2Proof.Machine.execCancelReceive l clean crc w0 s
  | .hintDeferTimeout l hid => Sys2Proof.Machine.execHintDeferTimeout l hid s
  | .hintHoldEnd l hid => Sys2Proof.Machine.execHintHoldEnd l hid s
  | .hintFrameRetry l k => Sys2Proof.Machine.execHintFrameRetry l k s
  | .lhalertPulseEnd l => Sys2Proof.Machine.execLhalertPulseEnd l s
  | .inputSample vins hsout shunt => Sys2Proof.Machine.execInputSample vins hsout shunt s
  | .hswQualified => Sys2Proof.Machine.execHswQualified s
  | .hswInputGood => Sys2Proof.Machine.execHswInputGood s
  | .inrushTimeout => Sys2Proof.Machine.execInrushTimeout s
  | .inputLoss => Sys2Proof.Machine.execInputLoss s
  | .fastBreaker amps16 => Sys2Proof.Machine.execFastBreaker amps16 s
  | .slowBreaker => Sys2Proof.Machine.execSlowBreaker s
  | .fetSoaTrip => Sys2Proof.Machine.execFetSoaTrip s
  | .shortedFet => Sys2Proof.Machine.execShortedFet s
  | .retryDelayExpire => Sys2Proof.Machine.execRetryDelayExpire s
  | .triesReset => Sys2Proof.Machine.execTriesReset s
  | .leaveRequest k => Sys2Proof.Machine.execLeaveRequest k s
  | .budgetGrant tileOk => Sys2Proof.Machine.execBudgetGrant tileOk s
  | .leaveWithdraw k => Sys2Proof.Machine.execLeaveWithdraw k s
  | .budgetWaitLimit k => Sys2Proof.Machine.execBudgetWaitLimit k s
  | .leaveDone k => Sys2Proof.Machine.execLeaveDone k s
  | .leaveExpire k => Sys2Proof.Machine.execLeaveExpire k s
  | .domainStart req d => Sys2Proof.Machine.execDomainStart req d s
  | .domainStop req d => Sys2Proof.Machine.execDomainStop req d s
  | .domainClr req d => Sys2Proof.Machine.execDomainClr req d s
  | .railRelease r => Sys2Proof.Machine.execRailRelease r s
  | .railDwellComplete r => Sys2Proof.Machine.execRailDwellComplete r s
  | .qualificationTimeout r => Sys2Proof.Machine.execQualificationTimeout r s
  | .railChatterLimit r => Sys2Proof.Machine.execRailChatterLimit r s
  | .xpgChange r high => Sys2Proof.Machine.execXpgChange r high s
  | .stopStepBegin r tileOk => Sys2Proof.Machine.execStopStepBegin r tileOk s
  | .stopStepEnd r cold => Sys2Proof.Machine.execStopStepEnd r cold s
  | .stopStepTimeout r cold => Sys2Proof.Machine.execStopStepTimeout r cold s
  | .firstFailureArm req => Sys2Proof.Machine.execFirstFailureArm req s
  | .faultPost k => Sys2Proof.Machine.execFaultPost k s
  | .safetoExpire cold => Sys2Proof.Machine.execSafetoExpire cold s
  | .escalationExpire slot => Sys2Proof.Machine.execEscalationExpire slot s
  | .faultAcknowledge req slot code => Sys2Proof.Machine.execFaultAcknowledge req slot code s
  | .faultClear req slot code => Sys2Proof.Machine.execFaultClear req slot code s
  | .faultAckAndClear req slot code => Sys2Proof.Machine.execFaultAckAndClear req slot code s
  | .collectorCompare mismatch => Sys2Proof.Machine.execCollectorCompare mismatch s
  | .faultInject req tgt => Sys2Proof.Machine.execFaultInject req tgt s
  | .injectionNotExercised => Sys2Proof.Machine.execInjectionNotExercised s
  | .softwareRaise req cls inst num => Sys2Proof.Machine.execSoftwareRaise req cls inst num s
  | .coldStartRequest req key cold => Sys2Proof.Machine.execColdStartRequest req key cold s
  | .guardEnd req test => Sys2Proof.Machine.execGuardEnd req test s
  | .guardTest req test => Sys2Proof.Machine.execGuardTest req test s
  | .sensorReading n temp => Sys2Proof.Machine.execSensorReading n temp s
  | .crossCheckRound => Sys2Proof.Machine.execCrossCheckRound s
  | .thermalShutdown n => Sys2Proof.Machine.execThermalShutdown n s
  | .coolingRestart cold => Sys2Proof.Machine.execCoolingRestart cold s
  | .doorbell src => Sys2Proof.Machine.execDoorbell src s
  | .softwareDoorbell req src => Sys2Proof.Machine.execSoftwareDoorbell req src s
  | .groupTimerExpire g => Sys2Proof.Machine.execGroupTimerExpire g s
  | .sourceCfgWrite req src value => Sys2Proof.Machine.execSourceCfgWrite req src value s
  | .claim req k => Sys2Proof.Machine.execClaim req k s
  | .endOfInterrupt req k src => Sys2Proof.Machine.execEndOfInterrupt req k src s
  | .processorCtrlWrite req k value => Sys2Proof.Machine.execProcessorCtrlWrite req k value s
  | .pcieLinkDown tb4 => Sys2Proof.Machine.execPcieLinkDown tb4 s
  | .functionLevelReset => Sys2Proof.Machine.execFunctionLevelReset s
  | .powerStateChange d3 link pme busMaster msix => Sys2Proof.Machine.execPowerStateChange d3 link pme busMaster msix s
  | .msixUnmask vec msix busMaster => Sys2Proof.Machine.execMsixUnmask vec msix busMaster s
  | .ringCfgWrite req ring value => Sys2Proof.Machine.execRingCfgWrite req ring value s
  | .hostPoll bells ok => Sys2Proof.Machine.execHostPoll bells ok s
  | .kick req => Sys2Proof.Machine.execKick req s
  | .dmaReadError ring => Sys2Proof.Machine.execDmaReadError ring s
  | .nop c => Sys2Proof.Machine.execNop c s
  | .regRead c fail => Sys2Proof.Machine.execRegRead c fail s
  | .regWrite c fail cold => Sys2Proof.Machine.execRegWrite c fail cold s
  | .setVout c => Sys2Proof.Machine.execSetVout c s
  | .setSlew c => Sys2Proof.Machine.execSetSlew c s
  | .faultAck c => Sys2Proof.Machine.execFaultAck c s
  | .domain c => Sys2Proof.Machine.execDomain c s
  | .logRead c => Sys2Proof.Machine.execLogRead c s
  | .mapRead c => Sys2Proof.Machine.execMapRead c s
  | .tileStage c host => Sys2Proof.Machine.execTileStage c host s
  | .commit c => Sys2Proof.Machine.execCommit c s
  | .commitDiscard c => Sys2Proof.Machine.execCommitDiscard c s
  | .imageStage c host => Sys2Proof.Machine.execImageStage c host s
  | .imageActivate c => Sys2Proof.Machine.execImageActivate c s
  | .keyEnrol c host => Sys2Proof.Machine.execKeyEnrol c host s
  | .warmStart c => Sys2Proof.Machine.execWarmStart c s
  | .policyCommand c opcode => Sys2Proof.Machine.execPolicyCommand c opcode s
  | .policyTimeout ring => Sys2Proof.Machine.execPolicyTimeout ring s
  | .completionModerationExpire ring => Sys2Proof.Machine.execCompletionModerationExpire ring s
  | .telemetryFlush kind inst trig => Sys2Proof.Machine.execTelemetryFlush kind inst trig s
  | .page write pec => Sys2Proof.Machine.execPage write pec s
  | .operation write pec => Sys2Proof.Machine.execOperation write pec s
  | .clearFaults pec => Sys2Proof.Machine.execClearFaults pec s
  | .writeProtect write pec => Sys2Proof.Machine.execWriteProtect write pec s
  | .capability write pec => Sys2Proof.Machine.execCapability write pec s
  | .voutMode write pec => Sys2Proof.Machine.execVoutMode write pec s
  | .voutCommandWrite value pec => Sys2Proof.Machine.execVoutCommandWrite value pec s
  | .voutCommandRead => Sys2Proof.Machine.execVoutCommandRead s
  | .voutMax write pec => Sys2Proof.Machine.execVoutMax write pec s
  | .voutMin write pec => Sys2Proof.Machine.execVoutMin write pec s
  | .voutTransitionRateWrite value pec => Sys2Proof.Machine.execVoutTransitionRateWrite value pec s
  | .voutTransitionRateRead => Sys2Proof.Machine.execVoutTransitionRateRead s
  | .coefficients write pec => Sys2Proof.Machine.execCoefficients write pec s
  | .ioutOcFaultLimit write pec => Sys2Proof.Machine.execIoutOcFaultLimit write pec s
  | .statusRead code => Sys2Proof.Machine.execStatusRead code s
  | .statusWriteClear code value pec => Sys2Proof.Machine.execStatusWriteClear code value pec s
  | .readVin write pec => Sys2Proof.Machine.execReadVin write pec s
  | .readIin write pec => Sys2Proof.Machine.execReadIin write pec s
  | .readPin write pec => Sys2Proof.Machine.execReadPin write pec s
  | .readVout write pec => Sys2Proof.Machine.execReadVout write pec s
  | .readIout write pec => Sys2Proof.Machine.execReadIout write pec s
  | .readPout write pec => Sys2Proof.Machine.execReadPout write pec s
  | .readTemperature1 write pec => Sys2Proof.Machine.execReadTemperature1 write pec s
  | .pmbusRevision write pec => Sys2Proof.Machine.execPmbusRevision write pec s
  | .mfrId write pec => Sys2Proof.Machine.execMfrId write pec s
  | .mfrModel write pec => Sys2Proof.Machine.execMfrModel write pec s
  | .mfrRevision write pec => Sys2Proof.Machine.execMfrRevision write pec s
  | .mfrSerial write pec => Sys2Proof.Machine.execMfrSerial write pec s
  | .mfrRegAddr write pec => Sys2Proof.Machine.execMfrRegAddr write pec s
  | .mfrRegDataRead dieOk => Sys2Proof.Machine.execMfrRegDataRead dieOk s
  | .mfrRegDataWrite value dieOk pec cold => Sys2Proof.Machine.execMfrRegDataWrite value dieOk pec cold s
  | .mfrFaultSummary write pec => Sys2Proof.Machine.execMfrFaultSummary write pec s
  | .mfrFaultAck value pec => Sys2Proof.Machine.execMfrFaultAck value pec s
  | .mfrDomain value pec => Sys2Proof.Machine.execMfrDomain value pec s
  | .mfrEpoch write pec => Sys2Proof.Machine.execMfrEpoch write pec s
  | .mfrSeqState write pec => Sys2Proof.Machine.execMfrSeqState write pec s
  | .smbusTimeout => Sys2Proof.Machine.execSmbusTimeout s
  | .alertResponse => Sys2Proof.Machine.execAlertResponse s
  | .mctpPacket binding src dest som eom seq tag payload => Sys2Proof.Machine.execMctpPacket binding src dest som eom seq tag payload s
  | .setEndpointId k => Sys2Proof.Machine.execSetEndpointId k s
  | .getEndpointId k => Sys2Proof.Machine.execGetEndpointId k s
  | .getEndpointUuid k => Sys2Proof.Machine.execGetEndpointUuid k s
  | .getMctpVersionSupport k => Sys2Proof.Machine.execGetMctpVersionSupport k s
  | .getMessageTypeSupport k => Sys2Proof.Machine.execGetMessageTypeSupport k s
  | .mctpRegRead k fail => Sys2Proof.Machine.execMctpRegRead k fail s
  | .getVersion k => Sys2Proof.Machine.execGetVersion k s
  | .getCapabilities k => Sys2Proof.Machine.execGetCapabilities k s
  | .negotiateAlgorithms k => Sys2Proof.Machine.execNegotiateAlgorithms k s
  | .getDigests k => Sys2Proof.Machine.execGetDigests k s
  | .getCertificate k => Sys2Proof.Machine.execGetCertificate k s
  | .challenge k => Sys2Proof.Machine.execChallenge k s
  | .getMeasurements k => Sys2Proof.Machine.execGetMeasurements k s
  | .chunkGet k => Sys2Proof.Machine.execChunkGet k s
  | .spdmSignatureDone => Sys2Proof.Machine.execSpdmSignatureDone s
  | .mbtake req slot => Sys2Proof.Machine.execMbtake req slot s
  | .mbdone req d => Sys2Proof.Machine.execMbdone req d s
  | .bootok req => Sys2Proof.Machine.execBootok req s
  | .fwWarmRequest req key => Sys2Proof.Machine.execFwWarmRequest req key s
  | .bootTimeout cold => Sys2Proof.Machine.execBootTimeout cold s
  | .stgctlGo req kind index => Sys2Proof.Machine.execStgctlGo req kind index s
  | .cmtctlGo req => Sys2Proof.Machine.execCmtctlGo req s
  | .cmtctlDiscard req => Sys2Proof.Machine.execCmtctlDiscard req s
  | .nvmLineWrite b => Sys2Proof.Machine.execNvmLineWrite b s
  | .scrubCheck nvmOk copyOk => Sys2Proof.Machine.execScrubCheck nvmOk copyOk s
  | .nvmRddataRead req => Sys2Proof.Machine.execNvmRddataRead req s
  | .registerWrite req off value cold => Sys2Proof.Machine.execRegisterWrite req off value cold s
  | .w1cClear req off value => Sys2Proof.Machine.execW1cClear req off value s
  | .counterClear req off value => Sys2Proof.Machine.execCounterClear req off value s
  | .pcieLinkUp gen two => Sys2Proof.Machine.execPcieLinkUp gen two s
  | .pwmEdge p edge => Sys2Proof.Machine.execPwmEdge p edge s
  | .alertLineRelease d lane => Sys2Proof.Machine.execAlertLineRelease d lane s
  | .tbLockLoss tb => Sys2Proof.Machine.execTbLockLoss tb s
  | .loopComparatorInactive n ov => Sys2Proof.Machine.execLoopComparatorInactive n ov s

end Sys2Proof.Machine
end

