-- ==== Sys2Proof/Machine/Step.lean ====
section
/-! DEFINITION. One step: the command in front is carried out; with none waiting the device idles for a tick of its time counter. -/

namespace Sys2Proof.Machine

/-- A tick of the time counter, which runs while AON is powered, and the telemetry that waits is written (R43, R433; log entries 1 and 201). -/
def State.idle (s : State) : State := if s.chip.power.aon then { s with chip := s.chip.tick.telDrain } else s

/-- The command at the front of the queue is carried out on the state with the rest of the queue; on an empty queue the device idles (log entry 1). -/
def step (s : State) : Host.Outcome State Fault Refusal :=
  match s.pending with
  | [] => .next s.idle
  | i :: rest => exec i { s with pending := rest }

/-- The state with the command that a table word spells at the front of its queue; the table gives no row a word. -/
def State.withFetchWord (s : State) (nbits w : Nat) : State :=
  match decodeTableWord nbits w with
  | some i => { s with pending := i :: s.pending }
  | none => s

end Sys2Proof.Machine
end

