-- ==== Sys2Proof/Safety.lean ====
section
/-! DEFINITION. What a safe run is, and the words in which statements say what a command changes and what it leaves alone. -/

namespace Sys2Proof.Machine

/-- A step that goes on to a next state. -/
abbrev Goes (o : Host.Outcome State Fault Refusal) : Prop := ∃ t, o = .next t

/-- A state is sound when its non-volatile memory is in canonical form. -/
abbrev State.Sound (s : State) : Prop := Memory.wf s.nvm

/-- A state is safe when it is sound and its step goes on to a sound state. -/
def State.Safe (s : State) : Prop := s.Sound ∧ ∃ t, step s = .next t ∧ t.Sound

/-- Two fields share no bit. -/
def Fld.apart (f g : Fld) : Bool := f.off != g.off || decide (f.lo + f.width ≤ g.lo) || decide (g.lo + g.width ≤ f.lo)

/-- A field lies within its word. -/
def Fld.fits (f : Fld) : Bool := decide (f.lo + f.width ≤ 32)

/-- Every field that shares no bit with those of a list reads the same in two states: whatever else the registers hold is unchanged. -/
def SameBut (s t : Chip) (l : List Fld) : Prop := ∀ g : Fld, g.fits = true → (∀ f ∈ l, g.apart f = true) → t.get g = s.get g

/-- The device beside its registers, its doorbell and fault messages, and its outputs. -/
def Chip.inner (s : Chip) : Chip := { s with regs := Tbl.empty, bells := Tbl.empty, bellOrder := [], faultQ := [], outbox := [] }

/-- What a command changes, and that it changes nothing else: the inner parts as `h` changes them, the fields of a list, one doorbell for each source of a list, fault messages and outputs. The non-volatile memory and the queue stay. -/
structure Effect (s t : State) (h : Chip → Chip) (fields : List Fld) (srcs : List Nat) (msgs : List FaultMsg) (outs : List Output) : Prop where
  nvm : t.nvm = s.nvm
  pending : t.pending = s.pending
  inner : t.chip.inner = (h s.chip).inner
  fields : SameBut s.chip t.chip fields
  bells : ∀ i, t.chip.bells.get i = if i ∈ srcs then min (s.chip.bells.get i + srcs.count i) 255 else s.chip.bells.get i
  order : t.chip.bellOrder = srcs.foldl waitIn s.chip.bellOrder
  faults : t.chip.faultQ = s.chip.faultQ ++ msgs
  outputs : t.chip.outbox = s.chip.outbox ++ outs

/-- One more event in a counter that saturates at its width (R85). -/
def counted (s : Chip) (f : Fld) : Nat := min (s.get f + 1) (2 ^ f.width - 1)

/-- A flag of R14 and its counter record one event. -/
def Recorded (s t : Chip) (flag cnt : Fld) : Prop := t.get flag = 1 ∧ t.get cnt = counted s cnt

/-- The memory, the queue and every register outside a set stay as they are: the frame of a command that changes many inner parts. -/
structure Keeps (s t : State) (may : Nat → Bool) : Prop where
  nvm : t.nvm = s.nvm
  pending : t.pending = s.pending
  regs : ∀ o, may o = false → t.chip.reg o = s.chip.reg o

/-- The commands that may write the non-volatile memory: a line at the port, and those that may begin a cold start. -/
def mayWriteNvm : Instr → Bool
  | .nvmLineWrite _ | .suppliesGood _ | .stopStepEnd _ _ | .stopStepTimeout _ _ | .safetoExpire _ | .coldStartRequest _ _ _ | .coolingRestart _
  | .regWrite _ _ _ | .mfrRegDataWrite _ _ _ _ | .bootTimeout _ | .registerWrite _ _ _ _ => true
  | _ => false

/-- Offsets from `a` up to `b`. -/
def span (a b o : Nat) : Bool := decide (a ≤ o) && decide (o < b)

/-- The windows of the phase dies. -/
def onDies (o : Nat) : Bool := decide (0x100000 ≤ o)

/-- The registers that the host's telemetry and its rings keep: RINGX, RINGT, TELS, PMB.STAT, MSIX and PBA. -/
def hostSide (o : Nat) : Bool := span 0x31000 0x36000 o

/-- Generator p stands alone, outside a pair (R135). -/
def Chip.single (s : Chip) (p : Nat) : Bool := !s.pairOdd p && !s.pairEven p

/-- Generator p is in no trip, and waits for no reload after one (R139 to R141). -/
def Chip.untripped (s : Chip) (p : Nat) : Bool := s.get (PWM.TRIPST_LAT p) == 0 && (s.gens.get p).resume.isNone && !(s.gens.get p).cyc

/-- The registers of phase p on its die: PWM, PHS, SEG, IADC and CMP. -/
def phaseRegs (p o : Nat) : Bool :=
  let b := 0x100000 + 0x20000 * (p / 32)
  let c := p % 32
  span (b + 0x40 * c) (b + 0x40 * c + 0x40) o || span (b + 0x1000 + 0x20 * c) (b + 0x1020 + 0x20 * c) o
    || span (b + 0x2000 + 0x40 * c) (b + 0x2040 + 0x40 * c) o || span (b + 0x4000 + 0x20 * c) (b + 0x4020 + 0x20 * c) o
    || span (b + 0x6000 + 8 * c) (b + 0x6008 + 8 * c) o

/-- The registers of sequenced converter x. -/
def sqRegs (x o : Nat) : Bool := span (sqBase x) (sqBase x + 0x1ac) o

/-- Blocks whose registers take a write by their fields alone: LOOP, EADC, CMPL, AVSP, AVSL, HSW, THM and GRP. -/
def fieldsOnly (o : Nat) : Bool :=
  (decide (0x10000 ≤ o) && decide (o < 0x12000)) || (decide (0x1c000 ≤ o) && decide (o < 0x1c400)) || (decide (0x1e000 ≤ o) && decide (o < 0x20800))
    || (decide (0x22000 ≤ o) && decide (o < 0x22044)) || (decide (0x26000 ≤ o) && decide (o < 0x26290)) || (decide (0x28400 ≤ o) && decide (o < 0x28600))

/-- A requester's write gets to a register: the requester reaches the port and may write, EN does not confine it, and the register's domain is on (R415, R505 to R509). -/
def Chip.reaches (s : Chip) (req : Requester) (o : Nat) : Bool :=
  s.reqUp req && s.mayWrite req && !(req == .pcie && s.bit HIF.CTRL_EN && !mmioFree o) && !s.offAt o

/-- A command of a ring will be taken, and its completion written without a signal: the ring and its completion ring run and have room, no FLAGS bit is set, and moderation is not due (R421 to R423, R427). -/
def Chip.serves (s : Chip) (c : Cmd) : Bool :=
  let r := 8 + s.get (RING.CFG_CPLSEL c.ring.val)
  s.cmdReady c.ring.val false && c.flags == 0 && !(s.rings.get r).loss && decide ((s.rings.get r).unsig + 1 < orOne (s.get (RING.MOD_MODCNT r)))

/-- The completion entry of a command and its write-back word (R418, R423). -/
def Chip.answer (s : Chip) (c : Cmd) (op status detail : Nat) (data : List Byte) : List Output :=
  let r := 8 + s.get (RING.CFG_CPLSEL c.ring.val)
  let i := s.get (RING.DIDX_DIDX r)
  [.entry r i (s.entryAddr r i) (bytesLE 1 op ++ bytesLE 1 status ++ bytesLE 2 c.tag.toNat ++ bytesLE 1 c.ring.val ++ [0] ++ bytesLE 1 detail
      ++ [BitVec.ofNat 8 (128 * (1 - i / 2 ^ s.get (RING.CFG_LOG2N r) % 2))] ++ bytesLE 8 s.now ++ padTo 48 data),
   .writeback r (s.backAddr r) ((i + 1) % 2 ^ 32)]

/-- What goes out when the device takes the next descriptor of ring k: the read of it and the write-back word (R417, R418). -/
def Chip.fetchOut (s : Chip) (k : Nat) : List Output :=
  let i := s.get (RING.DIDX_DIDX k)
  [.hostRead (s.entryAddr k i) 64, .writeback k (s.backAddr k) ((i + 1) % 2 ^ 32)]

/-- A command has been taken, and it has completed as the last thing that went out (R421 to R423). -/
def Completes (s t : Chip) (c : Cmd) (op status detail : Nat) (data : List Byte) : Prop :=
  (s.outbox ++ s.fetchOut c.ring.val) <+: t.outbox ∧ s.answer c op status detail data <:+ t.outbox
    ∧ (t.rings.get c.ring.val).busy = none ∧ t.get (RING.DIDX_DIDX c.ring.val) = (s.get (RING.DIDX_DIDX c.ring.val) + 1) % 2 ^ 32

/-- The registers of a command's ring and of its completion ring. -/
def Chip.ringsOf (s : Chip) (c : Cmd) (o : Nat) : Bool :=
  let r := 8 + s.get (RING.CFG_CPLSEL c.ring.val)
  span (0x31000 + 0x20 * c.ring.val) (0x31020 + 0x20 * c.ring.val) o || span (0x31000 + 0x20 * r) (0x31020 + 0x20 * r) o

/-- A command completes at once, with two entries of host memory and nothing else put out, and changes beside its rings only the inner parts as `h` does and the registers of a set. -/
structure Answers (s t : State) (c : Cmd) (op status detail : Nat) (data : List Byte) (h : Chip → Chip) (may : Nat → Bool) : Prop where
  done : Completes s.chip t.chip c op status detail data
  outputs : t.chip.outbox.length = s.chip.outbox.length + 4
  faults : t.chip.faultQ = s.chip.faultQ
  taken : t.chip.hif.visit = c.ring.val ∧ t.chip.hif.fetched =
    if s.chip.hif.visit = c.ring.val ∧ s.chip.hif.fetched < orOne (s.chip.get (RING.CFG_FBURST c.ring.val)) then s.chip.hif.fetched + 1 else 1
  inner : t.chip.inner = { (h s.chip).inner with rings := t.chip.rings, hif := { (h s.chip).hif with visit := t.chip.hif.visit, fetched := t.chip.hif.fetched } }
  rings : ∀ r : Fin 22, r.val ≠ c.ring.val → r.val ≠ 8 + s.chip.get (RING.CFG_CPLSEL c.ring.val) → t.chip.rings.get r.val = s.chip.rings.get r.val
  keeps : Keeps s t fun o => s.chip.ringsOf c o || may o

/-- The first failure that a commit of what is staged would find: position and reason (R485). -/
def Chip.commitFailure (s : Chip) (m : List Host.Cell) : Option (Nat × Nat) :=
  let new := stagedConfig s m
  let maps := s.store.staged.filter fun t => t.kind == 6
  leastFailure ((stagedTiles s m).filterMap (fun x => if x.2 then none else some (x.1.pos, 0x21))
    ++ maps.filterMap (fun t => if frameOk (frameRead m (smFrame t.frame)) then none else some (0x100 + t.frame, 0x21))
    ++ cfgFailures ⟨cfgRegs new, cfgRegs s.store.committed, s, new, s.store.committed⟩ maps)

/-- A LINEAR11 word stands for the fraction n / d to within one step of its own mantissa (R437): the spec names the format, not the exponent or the rounding. -/
def linNear (w : Nat) (n : Int) (d : Nat) : Prop :=
  (lin11Num w * d - n * lin11Den w).natAbs < 2 ^ (signedOf 5 (w / 2 ^ 11)).toNat * d

/-- A PMBus read answers with a LINEAR11 word for n / d, and nothing else changes but what free values have been used (R437; log entry 7). -/
def LinReplies (s t : State) (n : Int) (d : Nat) : Prop :=
  ∃ w : Fin 65536, linNear w.val n d ∧ Effect s t (fun c => { c with freeCtr := t.chip.freeCtr }) [] [] [] [.pmbus (some (bytesLE 2 w.val))]

/-- The pages that a PMBus write acts on include q (R436). -/
def Chip.pageIn (s : Chip) (q : Nat) : Bool := s.get PMB.STAT_PAGE == q || (s.get PMB.STAT_PAGE == 0xff && decide (q ≤ 0x40))

/-- One bit of a status byte latches on some pages, and no other status bit changes (R438). -/
def Latches (s t : Chip) (on : Nat → Bool) (j b : Nat) : Prop :=
  ∀ q : Fin 65, ∀ i : Fin 48, bitAt (t.pmb.status.get i.val) q.val = (bitAt (s.pmb.status.get i.val) q.val || (decide (i.val = 8 * j + b) && on q.val))

end Sys2Proof.Machine
end

