-- ==== Sys2Proof/WellFormed.lean ====
section
/-! DEFINITION. Which commands can be given: the relations between operands that the types of Syntax.lean do not say. -/

namespace Sys2Proof

/-- A descriptor's ARGS fill it to 64 bytes (R422). -/
def Cmd.wf (c : Cmd) : Bool := c.args.length == 56

/-- The bytes that a command's host buffer holds. -/
def hostLen (h : Option (List Byte)) (n : Nat) : Bool :=
  match h with
  | none => true
  | some l => l.length == n

/-- An answer of a stage has at most the payload that LEN can say (R185). -/
def StageAnswer.wf (a : StageAnswer) : Bool := decide (a.payload.length < 64)

/-- A register has fields of an access code (R85). -/
def hasAcc (o : Nat) (a : Machine.Acc) : Bool := Machine.accMask o (· == a) != 0

/-- A word sets the counter-clear bit of a register that has one (R85). -/
def clears (o : Nat) (w : Word) : Bool :=
  match Machine.cntClears o with
  | some (b, _) => w.getLsbD b
  | none => false

/-- The opcodes of ring commands that the spec lists (R424). -/
def listedOpcode (op : Nat) : Bool :=
  decide (op ≤ 2) || (decide (0x10 ≤ op) && decide (op ≤ 0x13)) || (decide (0x20 ≤ op) && decide (op ≤ 0x27)) || decide (0x80 ≤ op)

/-- The PMBus command codes that the spec lists (R437, R440). -/
def listedPmb : List Nat :=
  [0x00, 0x01, 0x03, 0x10, 0x19, 0x20, 0x21, 0x24, 0x27, 0x2b, 0x30, 0x46, 0x78, 0x79, 0x7a, 0x7b, 0x7c, 0x7d, 0x7e, 0x80, 0x88, 0x89, 0x8b, 0x8c,
   0x8d, 0x96, 0x97, 0x98, 0x99, 0x9a, 0x9b, 0x9e, 0xd0, 0xd1, 0xd2, 0xd3, 0xd4, 0xd5, 0xd7]

/-- A body of at most 48 bytes, and at most 12 words (R430, R431). -/
def FwPost.wf : FwPost → Bool
  | .event _ _ body => decide (body.length ≤ 48)
  | .record _ _ _ _ _ words => decide (words.length ≤ 12)

/-- The checks, command by command: descriptors and host buffers have their lengths, ring 17 does not exist, a poll reads 21 indices, a flit names an aligned register, and W1C_CLEAR and COUNTER_CLEAR name registers of their kind. -/
def Instr.wf : Instr → Bool
  | .serviceFlitFail _ _ off _ => off.toNat % 4 == 0
  | .stageIdentAnswer _ _ a | .stageMapwAck _ _ a | .stageCntwAck _ _ a | .stageStatAnswer _ _ a | .stageFltrAnswer _ _ a
  | .stageRelayAnswer _ _ a => a.wf
  | .ringCfgWrite _ ring _ => ring.val != 17
  | .completionModerationExpire ring => ring.val != 17 && decide (8 ≤ ring.val)
  | .hostPoll bells _ => bells.length == 21
  | .nop c => c.cmd.wf && (c.opcode == 0 || !listedOpcode c.opcode.toNat)
  | .mbdone _ d => d.posts.all FwPost.wf
  | .regRead c _ | .regWrite c _ _ | .setVout c | .setSlew c | .faultAck c | .domain c | .logRead c | .mapRead c
  | .commit c | .commitDiscard c | .imageActivate c | .warmStart c | .policyCommand c _ => c.wf
  | .tileStage c host => c.wf && hostLen host 260
  | .imageStage c host => c.wf && hostLen host (Machine.cmdArg c 12 4)
  | .keyEnrol c host => c.wf && hostLen host 256
  | .mctpPacket _ _ _ _ _ _ _ payload => decide (1 ≤ payload.length)
  | .statusRead code | .statusWriteClear code _ _ => code.other.all fun b => !listedPmb.contains b.toNat
  | .w1cClear _ off value => hasAcc off.toNat .w1c && (Machine.accMask off.toNat (· == .w1c) &&& value) != 0
  | .counterClear _ off value => clears off.toNat value
  | _ => true

end Sys2Proof
end

