-- ==== Sys2Proof/Certificates/Slice0/Obligations.lean ====
section
/-! DEFINITION. The statements for the provers. -/

open Sys2Proof Sys2Proof.Machine

/-- The command at the front of the queue is carried out on the state with the rest of the queue. -/
def Obligations.StepRunsTheFrontCommand : Prop :=
  ∀ (c : Instr) (q : List Instr) (s : State), step { s with pending := c :: q } = Machine.exec c { s with pending := q }

/-- An idle step is one step of the time counter from its source, 1 µs, or from TB0 30 µs and 33,920/65,536 µs (R43), and the writing of the telemetry that waits. That the device ticks and drains when no command waits is the model's choice (log entries 1 and 201). -/
def Obligations.IdleStepCountsTime : Prop :=
  ∀ s : State, s.pending = [] → s.chip.power.aon = true → s.chip.time.frac < 65536 → s.chip.time.now < 2 ^ 64 →
    ∃ t, step s = .next t ∧ t = { s with chip := Chip.telDrain { s.chip with time := { s.chip.time with now := t.chip.time.now, frac := t.chip.time.frac, prev := s.chip.time.now } } } ∧
      (s.chip.hif.telQ = [] → t.chip = { s.chip with time := t.chip.time }) ∧
      (s.chip.time.source = .tb0 → (65536 * t.chip.time.now + t.chip.time.frac) % 2 ^ 80 = (65536 * s.chip.time.now + s.chip.time.frac + 30 * 65536 + 33920) % 2 ^ 80
        ∧ t.chip.time.frac < 65536 ∧ t.chip.time.now < 2 ^ 64) ∧
      (s.chip.time.source ≠ .tb0 → t.chip.time.now = (s.chip.time.now + 1) % 2 ^ 64 ∧ t.chip.time.frac = s.chip.time.frac)

/-- In the reset state every field of every register, at every instance of its block, reads the reset value of its table row (R15), and nothing waits or is on its way. That the non-volatile memory is blank is the model's choice (log entry 10). -/
def Obligations.ResetGivesEveryFieldItsResetValue : Prop :=
  (∀ (o : Nat) (d : Dom) (r : RegRow) (f : FieldRow), regAt o = some (d, r) → f ∈ r.fields → State.reset.chip.get ⟨o, f.lo, f.width⟩ = f.reset) ∧
    State.reset.pending = [] ∧ State.reset.nvm = [] ∧ State.reset.chip.outbox = [] ∧ State.reset.chip.faultQ = [] ∧ (∀ i, State.reset.chip.bells.get i = 0)

/-- The reset state is safe. -/
def Obligations.ResetIsSound : Prop := State.reset.Sound ∧ State.reset.Safe

/-- From every sound state the step goes on to a sound state. -/
def Obligations.EveryStepKeepsTheMemoryCanonical : Prop := ∀ s : State, s.Sound → s.Safe

/-- Only the line write and the commands that may begin a cold start change a byte of the memory; no command changes the queue. -/
def Obligations.OtherCommandsLeaveTheMemory : Prop :=
  ∀ (c : Instr) (s : State), ∃ t, Machine.exec c s = .next t ∧ t.pending = s.pending ∧ (mayWriteNvm c = false → ∀ a, nvmByte t.nvm a = nvmByte s.nvm a)

/-- VAUX33_RISE, AON_POWER_OFF, CORE_SUPPLY_LOSS, HOLDUP_ENTRY and HOLDUP_END (R31, R35, R517, R518). That the boot-control values stand beside the memory is the model's choice (log entry 11). -/
def Obligations.SuppliesSwitchTheDomains : Prop :=
  (∀ s : State, s.chip.power.aon = false → ∃ t, Machine.exec .vaux33Rise s = .next t ∧ t.chip.power = ⟨true, true, false, false, none⟩ ∧ (∀ r, t.chip.xenPin r = none) ∧ (∀ o, t.chip.reg o = resetWord o) ∧
    t.chip.now = 0 ∧ t.chip.faultQ = [] ∧ t.chip.outbox = s.chip.outbox ∧ t.chip.boot = { s.chip.boot with holdup := false } ∧ t.nvm = s.nvm ∧ t.pending = s.pending) ∧
  (∀ s : State, s.chip.power.aon = true → ∃ t, Machine.exec .vaux33Rise s = .next t ∧ Effect s t (fun c => { c with power := { c.power with vaux := true } }) [] [] [] []) ∧
  (∀ s : State, s.chip.power.aon = true → s.chip.power.vaux = false → ∃ t, Machine.exec .aonPowerOff s = .next t ∧ t.chip.power.aon = false ∧
    (∀ o, t.chip.reg o = resetWord o) ∧ t.chip.outbox = s.chip.outbox ∧ t.chip.boot = { s.chip.boot with holdup := false } ∧ t.nvm = s.nvm ∧ t.pending = s.pending) ∧
  (∀ s : State, s.chip.power.aon = true → s.chip.power.vaux = true → s.chip.power.supplies = true → s.chip.inHoldup = false → s.chip.domOn .core = true →
    ∃ t, Machine.exec .coreSupplyLoss s = .next t ∧ t.chip.power = { s.chip.power with supplies := false, isolated := false } ∧ (∀ d, d ≠ .aon → t.chip.domOn d = false) ∧
      t.chip.get FLTA.PIN_LEVEL = 1 ∧ t.chip.time = s.chip.time ∧ t.chip.faultQ = [] ∧ t.chip.boot = s.chip.boot ∧
      (∀ o, domAt o = some .aon → o ≠ PWR.DOMSTAT → o ≠ TOP.DIECFG → o ≠ FLTA.PIN → ¬(0x1000 ≤ o ∧ o < 0x1800) → t.chip.reg o = s.chip.reg o) ∧
      t.nvm = s.nvm ∧ t.pending = s.pending) ∧
  (∀ s : State, s.chip.power.aon = true → s.chip.power.vaux = true → s.chip.inHoldup = false →
    ∃ t, Machine.exec .holdupEntry s = .next t ∧ t.chip.inHoldup = true ∧ t.chip.power = { s.chip.power with vaux := false, isolated := true } ∧
      (∀ d, d ≠ .aon → d ≠ .core → d ≠ .nvm → t.chip.domOn d = false) ∧ t.chip.domOn .core = s.chip.domOn .core ∧ t.chip.domOn .nvm = s.chip.domOn .nvm ∧
      t.chip.get HSW.STAT_GATE = 0 ∧ t.chip.get HSW.STAT_STATE = 0 ∧ t.chip.reg HSW.VI = 0 ∧ t.chip.reg HSW.PV = 0 ∧ t.chip.get TOP.DIECFG_PXPWR = 0 ∧ (∀ d : DieId, t.chip.linkUp (d.val + 1) = false) ∧ t.chip.bud.held = [] ∧ (∀ r, 32 ≤ r → r < 64 → t.chip.get (SEQR.STAT_XEN r) = 0) ∧ t.chip.get FLTA.PIN_LEVEL = 1 ∧
      t.chip.boot = { s.chip.boot with holdup := true } ∧
      Keeps s t (fun o => o == PWR.DOMSTAT || o == TOP.DIECFG || span 0x20 0x3c o || span 0x1000 0x1800 o || o == FLTA.PIN || span 0x1d000 0x1d800 o || span 0x22000 0x24c00 o || o == FLT.STAT || o == NVM.STAT)) ∧
  (∀ s : State, s.chip.inHoldup = true → ∃ t, Machine.exec .holdupEnd s = .next t ∧ t.chip.inHoldup = false ∧ t.chip.power.supplies = false ∧
    (∀ d, d ≠ .aon → t.chip.domOn d = false) ∧ t.chip.time = s.chip.time ∧ t.chip.boot = s.chip.boot ∧ t.nvm = s.nvm ∧ t.pending = s.pending)

/-- KEEP_ALIVE_SEND, LINK_LOSS, LINK_TRAINING_FAIL, SERVICE_FLIT_RECEIVE, SERVICE_FLIT_FAIL, DIE_KEEP_ALIVE_TIMEOUT and DIE_LINK_UP of a powered die (R27, R28, R54, R506). Die n is written d + 1. -/
def Obligations.DieLinksReportAndFail : Prop :=
  (∀ (s : State) (d : DieId), s.chip.dieOn (d.val + 1) = true → ∃ t, Machine.exec (.keepAliveSend d) s = .next t ∧
    Effect s t (fun c => { c with dies := c.dies.upd (d.val + 1) fun h => { h with keepAlive := c.now } }) [] [] [] [.keepAlive (d.val + 1)]) ∧
  (∀ (s : State) (d : DieId), s.chip.dieOn (d.val + 1) = true → ∃ t, Machine.exec (.linkLoss d) s = .next t ∧ t.chip.get (LINK.LINKSTAT_WDOG (d.val + 1)) = 1 ∧
    Effect s t id [LINK.LINKSTAT_WDOG (d.val + 1)] [] [⟨0x6012, d.val + 1, 0⟩] []) ∧
  (∀ (s : State) (d : DieId), s.chip.dieOn (d.val + 1) = true → (s.chip.dies.get (d.val + 1)).training = true → ∃ t, Machine.exec (.linkTrainingFail d) s = .next t ∧
    (t.chip.dies.get (d.val + 1)).training = false ∧
    Effect s t (fun c => { c with dies := c.dies.upd (d.val + 1) fun h => { h with training := false } }.askDone (.die (d.val + 1)) |>.dieSeqDone (d.val + 1)) [] [] [⟨0x6012, d.val + 1, 1⟩] []) ∧
  (∀ (s : State) (d : DieId), s.chip.dieOn (d.val + 1) = true → ∃ t, Machine.exec (.serviceFlitReceive d true) s = .next t ∧
    Effect s t (fun c => { c with dies := c.dies.upd (d.val + 1) fun h => { h with resends := 0 } }) [] [] [] []) ∧
  (∀ (s : State) (d : DieId), s.chip.dieOn (d.val + 1) = true → (s.chip.dies.get (d.val + 1)).resends < 3 → ∃ t, Machine.exec (.serviceFlitReceive d false) s = .next t ∧
    Recorded s.chip t.chip (LINK.LINKSTAT_ERRF (d.val + 1)) (LINK.LINKSTAT_SFRETRY (d.val + 1)) ∧
    Effect s t (fun c => { c with dies := c.dies.upd (d.val + 1) fun h => { h with resends := h.resends + 1 } })
      [LINK.LINKSTAT_ERRF (d.val + 1), LINK.LINKSTAT_SFRETRY (d.val + 1)] [0x18 + (d.val + 1)] [] []) ∧
  (∀ (s : State) (d : DieId), s.chip.dieOn (d.val + 1) = true → (s.chip.dies.get (d.val + 1)).resends = 3 → ∃ t, Machine.exec (.serviceFlitReceive d false) s = .next t ∧
    Effect s t id [] [] [] []) ∧
  (∀ (s : State) (d : DieId) (k : Fin 4) (off : BitVec 17) (write : Bool), s.chip.reqUp (.pp k) = true → off.toNat % 4 = 0 → (s.chip.dies.get (d.val + 1)).resends = 3 →
    s.chip.dieAccess (dieWindow + 0x20000 * d.val + off.toNat) = true → ∃ t, Machine.exec (.serviceFlitFail d (.pp k) off write) s = .next t ∧
    Recorded s.chip t.chip ACC.ACCST_FAILF ACC.ACCCNT_FAILCNT ∧ t.chip.get ACC.ACCST_LASTOFS = dieWindow + 0x20000 * d.val + off.toNat ∧
    Effect s t (fun c => { c with dies := c.dies.upd (d.val + 1) fun h => { h with resends := 0 } }) [ACC.ACCST_FAILF, ACC.ACCCNT_FAILCNT, ACC.ACCST_LASTOFS] [] [⟨0x4011, d.val + 1, 0⟩]
      (if write then [] else [.data (.pp k) (dieWindow + 0x20000 * d.val + off.toNat) 0xffffffff false])) ∧
  (∀ (s : State) (d : DieId), s.chip.dieOn (d.val + 1) = true → s.chip.dieRuns (d.val + 1) = true → ∃ t, Machine.exec (.dieKeepAliveTimeout d) s = .next t ∧
    t.chip.get (LINK.LINKSTAT_WDOG (d.val + 1)) = 1 ∧ (t.chip.dies.get (d.val + 1)).silenced = true ∧
    (∀ p : PhaseId, p.val / 32 = d.val → t.chip.get (PWM.OUT_LEVEL p.val) = 2) ∧ t.chip.faultQ = s.chip.faultQ ∧ t.chip.outbox = s.chip.outbox ∧
    Keeps s t (fun o => o == LINK.LINKSTAT (d.val + 1) || (decide (dieBase (d.val + 1) ≤ o) && decide (o < dieBase (d.val + 1) + 0x800)))) ∧
  (∀ (s : State) (d : DieId), s.chip.dieOn (d.val + 1) = true → (s.chip.dies.get (d.val + 1)).training = true → ∃ t, Machine.exec (.dieLinkUp d) s = .next t ∧
    t.chip.get (LINK.LINKSTAT_UP (d.val + 1)) = 1 ∧ (t.chip.dies.get (d.val + 1)).training = false ∧ (t.chip.dies.get (d.val + 1)).keepAlive = s.chip.now ∧
    t.chip.power = s.chip.power ∧ t.chip.time = s.chip.time ∧ t.nvm = s.nvm ∧ t.pending = s.pending)

/-- POL_SLEEP_REQUEST, POL_SLEEP_ENTRY and POL_WAKE (R34, R404). Which source wakes a sleeping POL is the model's reading (log entry 21); that a write carries the configuration fields as they are is its convention (log entry 12). -/
def Obligations.ProcessorsSleepAndWake : Prop :=
  (∀ (s : State) (req : Requester), s.chip.reaches req PWR.DOMCTL = true → ∃ t, Machine.exec (.polSleepRequest req) s = .next t ∧
    t.chip.get PWR.DOMCTL_POLSLP = 1 ∧ Effect s t id [PWR.DOMCTL_POLSLP] [] [] []) ∧
  (∀ s : State, s.chip.get PWR.DOMCTL_POLSLP = 1 → s.chip.domOn .pol = true → (s.chip.evh.winners.all fun w => w.isNone) = true → s.chip.get FW.STAT_START = 0 →
    ∃ t, Machine.exec .polSleepEntry s = .next t ∧ t.chip.domOn .pol = false ∧ t.chip.polAsleep = true ∧ (∀ k : ProcId, t.chip.get (PP.STAT_ASLEEP k.val) = 1) ∧
      t.chip.faultQ = s.chip.faultQ ∧ t.chip.outbox = s.chip.outbox ∧ Keeps s t (fun o => o == PWR.DOMSTAT || (decide (0x28000 ≤ o) && decide (o < 0x2e000)))) ∧
  (∀ (s : State) (i : Nat), s.chip.coreRuns = true → s.chip.evh.wake = some i → s.chip.polAsleep = true →
    ∃ t, Machine.exec .polWake s = .next t ∧ t.chip.domOn .pol = true ∧ t.chip.get PWR.DOMCTL_POLSLP = 0 ∧ t.chip.get EVH.WAKEST_VALID = 1 ∧
      (∀ k : ProcId, t.chip.get (PP.STAT_ASLEEP k.val) = t.chip.get (PP.CTRL_PARK k.val)) ∧ t.chip.evh.wake = none ∧
      t.chip.faultQ = s.chip.faultQ ∧ t.chip.outbox = s.chip.outbox ∧ Keeps s t (fun o => o == PWR.DOMSTAT || o == PWR.DOMCTL || span 0x28000 0x2e000 o || span 0x38028 0x38038 o))

/-- SPEED_MEASURE, TB0_LOSS, TB1_LOSS, TB_RETURN, TB1_RELOCK, TB_LOCK_LOSS and SNAPSHOT_LOW_READ (R41 to R44, R510). That TB_LOCK_LOSS sets HOLDOVER is the model's reading (log entry 31). -/
def Obligations.TimeBasesAreWatched : Prop :=
  (∀ (s : State) (idx : BitVec 8), s.chip.coreRuns = true → s.chip.get TIME.SPEED_LOWLIM ≤ idx.toNat → idx.toNat ≤ s.chip.get TIME.SPEED_LOWLIM + 8 →
    ∃ t, Machine.exec (.speedMeasure idx) s = .next t ∧ t.chip.get TIME.SPEED_SPDIDX = idx.toNat ∧ Effect s t id [TIME.SPEED_SPDIDX] [] [] []) ∧
  (∀ (s : State) (idx : BitVec 8), s.chip.coreRuns = true → s.chip.get TIME.SPEED_LOWLIM + 8 < idx.toNat →
    ∃ t, Machine.exec (.speedMeasure idx) s = .next t ∧ t.chip.get TIME.SPEED_SPDIDX = idx.toNat ∧
      Effect s t (fun c => { c with time := { c.time with slowArmed := true } }) [TIME.SPEED_SPDIDX] [] [] []) ∧
  (∀ (s : State) (idx : BitVec 8), s.chip.coreRuns = true → idx.toNat < s.chip.get TIME.SPEED_LOWLIM →
    ∃ t, Machine.exec (.speedMeasure idx) s = .next t ∧ t.chip.get TIME.SPEED_SPDIDX = idx.toNat ∧
      Effect s t (fun c => { c with time := { c.time with slowArmed := false } }) [TIME.SPEED_SPDIDX] [] (if s.chip.time.slowArmed then [⟨0x2001, 0, 0⟩] else []) []) ∧
  (∀ s : State, s.chip.domOn .aon = true → s.chip.get TIME.TBSTAT_TB0OK = 1 → ∃ t, Machine.exec .tb0Loss s = .next t ∧ t.chip.get TIME.TBSTAT_TB0OK = 0 ∧
    Recorded s.chip t.chip TIME.TBSTAT_TB0LF TIME.TBSTAT_TB0LCNT ∧
    Effect s t (fun c => { c with time := { c.time with source := if s.chip.get TIME.TBSTAT_TB1OK = 1 then c.time.source else .osc } })
      [TIME.TBSTAT_TB0OK, TIME.TBSTAT_TB0LF, TIME.TBSTAT_TB0LCNT] [0xb] [⟨0x2002, 0, 0⟩] []) ∧
  (∀ s : State, s.chip.domOn .aon = true → s.chip.get TIME.TBSTAT_TB1OK = 1 → ∃ t, Machine.exec .tb1Loss s = .next t ∧ t.chip.get TIME.TBSTAT_TB1OK = 0 ∧
    t.chip.get TIME.TBSTAT_HOLDOVER = 1 ∧ t.chip.get TIME.TBSTAT_TB2LK = 0 ∧ t.chip.get TIME.TBSTAT_TB3LK = 0 ∧ t.chip.get TIME.TBSTAT_TB7LK = 0 ∧
    Recorded s.chip t.chip TIME.TBSTAT_TB1LF TIME.TBSTAT_TB1LCNT ∧
    Effect s t (fun c => { c with time := { c.time with source := if s.chip.get TIME.TBSTAT_TB0OK = 1 then .tb0 else .osc, tb1Back := none } })
      [TIME.TBSTAT_TB1OK, TIME.TBSTAT_TB1LF, TIME.TBSTAT_TB1LCNT, TIME.TBSTAT_HOLDOVER, TIME.TBSTAT_TB2LK, TIME.TBSTAT_TB3LK, TIME.TBSTAT_TB7LK] [0xb] [⟨0x4003, 0, 0⟩] []) ∧
  (∀ s : State, s.chip.domOn .aon = true → s.chip.get TIME.TBSTAT_TB1OK = 0 → ∃ t, Machine.exec (.tbReturn true) s = .next t ∧ t.chip.get TIME.TBSTAT_TB1OK = 1 ∧
    Effect s t (fun c => { c with time := { c.time with source := .tb1, tb1Back := some c.now, frac := 0 } }) [TIME.TBSTAT_TB1OK] [] [] []) ∧
  (∀ s : State, s.chip.domOn .aon = true → s.chip.get TIME.TBSTAT_TB0OK = 0 → ∃ t, Machine.exec (.tbReturn false) s = .next t ∧ t.chip.get TIME.TBSTAT_TB0OK = 1 ∧
    Effect s t (fun c => { c with time := { c.time with source := if c.time.source = .osc then .tb0 else c.time.source } }) [TIME.TBSTAT_TB0OK] [] [] []) ∧
  (∀ (s : State) (a : Nat), s.chip.domOn .aon = true → s.chip.time.tb1Back = some a → s.chip.get TIME.TBSTAT_TB1OK = 1 → a + 1000 ≤ s.chip.now →
    ∃ t, Machine.exec .tb1Relock s = .next t ∧ t.chip.get TIME.TBSTAT_HOLDOVER = 0 ∧ t.chip.get TIME.TBSTAT_TB2LK = 1 ∧ t.chip.get TIME.TBSTAT_TB3LK = 1 ∧
      t.chip.get TIME.TBSTAT_TB7LK = 1 ∧ Effect s t (fun c => { c with time := { c.time with tb1Back := none } })
        [TIME.TBSTAT_HOLDOVER, TIME.TBSTAT_TB2LK, TIME.TBSTAT_TB3LK, TIME.TBSTAT_TB7LK] [] [] []) ∧
  (∀ (s : State) (tb : Fin 3) (f : Fld), s.chip.domOn .aon = true → f = [TIME.TBSTAT_TB2LK, TIME.TBSTAT_TB3LK, TIME.TBSTAT_TB7LK].getD tb.val f → s.chip.get f = 1 →
    ∃ t, Machine.exec (.tbLockLoss tb) s = .next t ∧ t.chip.get f = 0 ∧ t.chip.get TIME.TBSTAT_HOLDOVER = 1 ∧
      Effect s t (fun c => { c with time := { c.time with tb1Back := if s.chip.get TIME.TBSTAT_TB1OK = 1 then some c.now else none } }) [f, TIME.TBSTAT_HOLDOVER] [] [] []) ∧
  (∀ (s : State) (req : Requester) (w : Fin 7), s.chip.reqUp req = true → s.chip.offAt (snapPairs.getD w.val (0, [])).1 = false →
    ∃ t, Machine.exec (.snapshotLowRead req w) s = .next t ∧
      (∀ h ∈ (snapPairs.getD w.val (0, [])).2, t.chip.snap.get (64 * reqIdx req + snapWords.idxOf h) = s.chip.shown h) ∧
      (∀ k, k / 64 ≠ reqIdx req → t.chip.snap.get k = s.chip.snap.get k) ∧
      Effect s t (fun c => { c with snap := t.chip.snap }) [] [] [] [.data req (snapPairs.getD w.val (0, [])).1 (s.chip.readable (snapPairs.getD w.val (0, [])).1) true])

/-- SUPPLIES_GOOD (R31, R459, R464). The registers that AON keeps stay. -/
def Obligations.SuppliesGoodBeginsAColdStart : Prop :=
  (∀ (s : State) (nvmOk idOk : Bool) (n : Fin 257), s.chip.power.aon = true → s.chip.power.vaux = true → s.chip.power.supplies = false → s.chip.get PWR.DOMSTAT_HOLDUP = 0 → s.chip.get THMA.SDSTAT_STATE = 0 →
    ∃ t, Machine.exec (.suppliesGood ⟨false, nvmOk, idOk, n⟩) s = .next t ∧ t.chip.power.supplies = true ∧ t.chip.domOn .core = true ∧ t.chip.domOn .pol = true ∧ t.chip.domOn .host = true ∧ t.chip.domOn .nvm = true ∧ t.chip.domOn .hka = true ∧
      t.chip.get PWR.DOMSTAT_PX = 0 ∧ t.chip.get ACC.ACCST_LOCKED = 1 ∧ t.chip.fw.released = false ∧ t.chip.get FW.STAT_HOLD = 1 ∧ t.chip.get FW.STAT_HOLDRSN = 2 ∧ t.chip.get SEC.STAT_IDOK = 0 ∧ t.chip.boot = bootTake s.nvm s.chip.boot ∧
      t.chip.faultQ = [⟨0x2702, 0, 0⟩] ∧ t.chip.time = s.chip.time ∧ t.chip.outbox = s.chip.outbox ∧ t.chip.reg FWA.FAIL = s.chip.reg FWA.FAIL ∧ t.nvm = s.nvm ∧ t.pending = s.pending ∧ (∀ o, onDies o = true → t.chip.reg o = resetWord o)) ∧
  (∀ (s : State) (nvmOk idOk : Bool) (n : Fin 257), (nvmOk = false ∨ bootWhole s.nvm = false) → s.chip.power.aon = true → s.chip.power.vaux = true → s.chip.power.supplies = false → s.chip.get PWR.DOMSTAT_HOLDUP = 0 → s.chip.get THMA.SDSTAT_STATE = 0 →
    ∃ t, Machine.exec (.suppliesGood ⟨true, nvmOk, idOk, n⟩) s = .next t ∧ t.chip.power.supplies = true ∧ t.chip.domOn .core = true ∧ t.chip.fw.released = false ∧ t.chip.get FW.STAT_HOLD = 1 ∧ t.chip.get FW.STAT_HOLDRSN = 5 ∧
      t.chip.boot = bootTake s.nvm s.chip.boot ∧ t.chip.faultQ = [⟨0x2702, 0, 0⟩] ∧ t.nvm = s.nvm ∧ t.pending = s.pending) ∧
  (∀ (s : State) (n : Fin 257), bootWhole s.nvm = true → s.chip.power.aon = true → s.chip.power.vaux = true → s.chip.power.supplies = false → s.chip.get PWR.DOMSTAT_HOLDUP = 0 → s.chip.get THMA.SDSTAT_STATE = 0 →
    ∃ t, Machine.exec (.suppliesGood ⟨true, true, false, n⟩) s = .next t ∧ t.chip.power.supplies = true ∧ t.chip.domOn .core = true ∧ t.chip.fw.released = false ∧ t.chip.get FW.STAT_HOLD = 1 ∧ t.chip.get FW.STAT_HOLDRSN = 3 ∧ t.chip.get SEC.STAT_IDOK = 0 ∧
      t.chip.boot = { bootTake s.nvm s.chip.boot with cscnt := ((bootTake s.nvm s.chip.boot).cscnt + 1) % 2 ^ 32, holdup := false } ∧ t.chip.get SEC.CSCNT_COUNT = ((bootTake s.nvm s.chip.boot).cscnt + 1) % 2 ^ 32 ∧
      t.chip.store.jobs = (if (bootMend s.nvm).isEmpty then [] else [⟨.boot, .boot, bootMend s.nvm, s.chip.now⟩]) ++ [⟨.boot, .boot, bootLines 2 (((bootTake s.nvm s.chip.boot).cscnt + 1) % 2 ^ 32), s.chip.now⟩] ∧
      t.chip.faultQ = (if holdupBroken s.nvm (bootTake s.nvm s.chip.boot).cscnt s.chip.boot.holdup then [⟨0x2208, 0, 0⟩, ⟨0x2702, 0, 0⟩] else [⟨0x2702, 0, 0⟩]) ∧ t.nvm = s.nvm ∧ t.pending = s.pending) ∧
  (∀ (s : State) (n : Fin 257), bootWhole s.nvm = true → s.chip.power.aon = true → s.chip.power.vaux = true → s.chip.power.supplies = false → s.chip.get PWR.DOMSTAT_HOLDUP = 0 → s.chip.get THMA.SDSTAT_STATE = 0 → s.chip.get FWA.FAIL_FAILA = 3 → s.chip.get FWA.FAIL_FAILB = 3 →
    ∃ t, Machine.exec (.suppliesGood ⟨true, true, true, n⟩) s = .next t ∧ t.chip.fw.released = false ∧ t.chip.get FW.STAT_HOLD = 1 ∧ t.chip.get FW.STAT_HOLDRSN = 1 ∧ t.chip.get SEC.STAT_IDOK = 1 ∧ t.chip.get FWA.FAIL_FAILA = 3 ∧ t.chip.get FWA.FAIL_FAILB = 3 ∧
      t.nvm = s.nvm ∧ t.pending = s.pending) ∧
  (∀ (s : State) (cold : ColdIn), s.chip.power.aon = true → s.chip.power.vaux = true → s.chip.power.supplies = false → s.chip.get PWR.DOMSTAT_HOLDUP = 0 → s.chip.get THMA.SDSTAT_STATE = 0 →
    ∃ t, Machine.exec (.suppliesGood cold) s = .next t ∧ t.pending = s.pending ∧
      (t.chip.fw.released = true → t.chip.fw.bootAt = some s.chip.now ∧ t.chip.get FW.CTRL_BOOTOK = 0 ∧ t.chip.get FW.STAT_RUNSLOT < 2) ∧
      (t.chip.fw.released = false → t.chip.get FW.STAT_HOLD = 1 ∧ t.chip.faultQ.getLast? = some ⟨0x2702, 0, 0⟩)) ∧
  (∀ (s : State) (cold : ColdIn), s.chip.get PWR.DOMSTAT_HOLDUP = 1 → ∃ t, Machine.exec (.suppliesGood cold) s = .next t ∧ t = s)

/-- ERROR_CODE_ARRIVE and RUN_AHEAD_COMPLETE (R62, R70, R71). The duty fed back is the 20-bit word that is sent, as the log entries on the control law say. -/
def Obligations.LoopSamplesFollowTheControlLaw : Prop :=
  (∀ (s : State) (n : LoopId) (code : Int), s.chip.coreRuns = true → (s.chip.loops.get n.val).code = some code → s.chip.loopState n.val ∈ [1, 2, 3] →
    s.chip.get (LOOP.STATUS_TRSTATE n.val) = 0 → s.chip.get (PHSL.STATUS_PROC n.val) ≠ 3 → ((s.chip.loops.get n.val).law (s.chip.loopState n.val) 0 code).tr = 0 →
    ∃ t, Machine.exec (.errorCodeArrive n) s = .next t ∧
      (t.chip.loops.get n.val).integ = ((s.chip.loops.get n.val).law (s.chip.loopState n.val) 0 code).integ ∧
      (t.chip.loops.get n.val).duty = ((s.chip.loops.get n.val).law (s.chip.loopState n.val) 0 code).duty ∧
      (t.chip.loops.get n.val).y1 = ((s.chip.loops.get n.val).law (s.chip.loopState n.val) 0 code).y ∧
      (t.chip.loops.get n.val).y2 = (s.chip.loops.get n.val).y1 ∧ (t.chip.loops.get n.val).y3 = (s.chip.loops.get n.val).y2 ∧
      (t.chip.loops.get n.val).e1 = ((s.chip.loops.get n.val).law (s.chip.loopState n.val) 0 code).ef ∧ (t.chip.loops.get n.val).e2 = (s.chip.loops.get n.val).e1 ∧
      (t.chip.loops.get n.val).code = (s.chip.loops.get n.val).next ∧ (t.chip.loops.get n.val).next = none ∧ (∀ m, m ≠ n.val → t.chip.loops.get m = s.chip.loops.get m) ∧
      t.chip.get (LOOP.STATUS_TRSTATE n.val) = 0 ∧ t.chip.get (LOOP.OVR_CONSEC n.val) = 0 ∧
      t.chip.get (LOOP.SAMPLES_COUNT n.val) = (s.chip.get (LOOP.SAMPLES_COUNT n.val) + 1) % 2 ^ 32 ∧
      t.chip.get (LOOP.DUTYMON_DUTY n.val) = ((s.chip.loops.get n.val).law (s.chip.loopState n.val) 0 code).duty ∧
      t.chip.get (LOOP.DUTYMON_TAG n.val) = ((s.chip.loops.get n.val).law (s.chip.loopState n.val) 0 code).tag ∧
      (∀ d ∈ s.chip.loopDies n.val, t.chip.lanes.get (32 * d + n.val) = s.chip.lanes.get (32 * d + n.val) ++
        [.duty ⟨((s.chip.loops.get n.val).law (s.chip.loopState n.val) 0 code).duty, ((s.chip.loops.get n.val).law (s.chip.loopState n.val) 0 code).tag, wordField (s.chip.loops.get n.val).run.ctrl 0 1 == 0⟩]) ∧
      t.chip.faultQ = s.chip.faultQ ∧ Keeps s t (fun o => span (0x10000 + 0x100 * n.val) (0x10100 + 0x100 * n.val) o || span (0x14000 + 0x100 * n.val) (0x14100 + 0x100 * n.val) o || o == CMPL.EVT n.val || span 0x21000 0x21400 o || hostSide o)) ∧
  (∀ (s : State) (n : LoopId), s.chip.coreRuns = true → s.chip.loopState n.val ≠ 0 → (s.chip.loops.get n.val).ahead = none → (s.chip.loops.get n.val).ff = .idle →
    ∃ t, Machine.exec (.runAheadComplete n) s = .next t ∧
      (t.chip.loops.get n.val).ahead = some ((s.chip.loops.get n.val).integ * 2 ^ 22 + (s.chip.loops.get n.val).run.set.tail (s.chip.loops.get n.val), (s.chip.loops.get n.val).run.loadLine) ∧
      Effect s t (fun c => c.engUpd n.val fun h => { h with ahead := (t.chip.loops.get n.val).ahead }) [] [] [] [])

/-- R62 on the linear path: `y` and `i` are the filter's and the integrator's accumulators in units of 2^-60, `u` the output in units of 2^-30; each is rounded only into its own destination (R61). -/
def Obligations.ControlLawOfALinearSample : Prop :=
  (∀ (h : LoopHw) (st : Nat) (code y i u : Int), h.run.transient st 0 (h.trBlock && !decide (((satS 16 code).natAbs : Int) ≤ h.run.linband)) (satS 16 code) = 0 → h.trExit = false → h.noSink = false →
    wordField h.run.ctrl 6 1 = 0 → h.ff = .idle →
    y = satS 80 ((h.run.set.b0 * satS 16 code + h.run.set.b1 * h.e1 + h.run.set.b2 * h.e2) * 2 ^ (37 - h.run.set.bsh) - (h.run.set.a1 * h.y1 + h.run.set.a2 * h.y2 + h.run.set.a3 * h.y3) * 2 ^ 9) →
    i = satS 80 (h.integ * 2 ^ 22 + h.run.set.ki * satS 16 code * 2 ^ (37 - h.run.set.ish)) →
    u = satS 32 (rne (satS 80 (min (max i (h.run.set.imin * 2 ^ 45)) (h.run.set.imax * 2 ^ 45) + y)) (2 ^ 30)) →
    (h.law st 0 code).eeff = satS 16 code ∧ (h.law st 0 code).tag = 0 ∧ (h.law st 0 code).y = satS 32 (rne y (2 ^ 30)) ∧
    ((h.run.limits h.duty).ceil ≤ u → (h.law st 0 code).duty = dutyWord (h.run.limits h.duty).ceil ∧ (0 < satS 16 code → (h.law st 0 code).integ = h.integ)) ∧
    (u < (h.run.limits h.duty).ceil → u ≤ (h.run.limits h.duty).floor →
      (h.law st 0 code).duty = dutyWord (h.run.limits h.duty).floor ∧ (satS 16 code < 0 → (h.law st 0 code).integ = h.integ)) ∧
    (u < (h.run.limits h.duty).ceil → (h.run.limits h.duty).floor < u →
      (h.law st 0 code).duty = dutyWord u ∧ (h.law st 0 code).integ = min (max (satS 40 (rne i (2 ^ 22))) (h.run.set.imin * 2 ^ 23)) (h.run.set.imax * 2 ^ 23)))

/-- The limits of R64 and R65 on every sample, and the clamps of R61. A duty in units of 2^-20 is compared with a ceiling in units of 2^-30 after its rounding; d_prev is the 20-bit word sent. -/
def Obligations.DutyAndIntegratorKeepTheirLimits : Prop :=
  (∀ (h : LoopHw) (st tr0 : Nat) (code : Int), h.run.set.imin ≤ h.run.set.imax →
    (h.law st tr0 code).duty ≤ 0xfffff ∧ (h.law st tr0 code).duty ≤ dutyWord (h.run.limits h.duty).hwcl ∧
    ((h.law st tr0 code).tr = 0 → (h.law st tr0 code).duty ≤ dutyWord (h.run.limits h.duty).ceil ∧ dutyWord (h.run.limits h.duty).floor ≤ (h.law st tr0 code).duty) ∧
    ((h.run.ilim : Int) < h.run.isum → h.duty ≤ 0xfffff → (h.law st tr0 code).duty ≤ h.duty) ∧
    ((h.law st tr0 code).integ = h.integ ∨ (h.run.set.lo ≤ (h.law st tr0 code).integ ∧ (h.law st tr0 code).integ ≤ h.run.set.hi)))

/-- SAMPLE_INSTANT, SAMPLE_OVERRUN, OVERRUN_LIMIT, TRANSIENT_TIMEOUT, CURRENT_LIMIT_PERSISTENCE and FEED_FORWARD_EXPIRE (R59, R65, R68, R69, R79 to R82). -/
def Obligations.LoopTargetsMoveAndSamplesOverrun : Prop :=
  (∀ (s : State) (n : LoopId) (vdiff : Int), s.chip.coreRuns = true → s.chip.loopState n.val = 2 → (s.chip.loops.get n.val).stopReq = false →
    (s.chip.loops.get n.val).code = none → (s.chip.loops.get n.val).next = none →
    s.chip.get (LOOP.TARGET_VTGT n.val) ≤ s.chip.get (AVSL.VLIM_VMAX n.val) → ∃ t, Machine.exec (.sampleInstant n vdiff) s = .next t ∧
      (t.chip.loops.get n.val).next = none ∧ (t.chip.loops.get n.val).code = some (satS 12 (rne (4 * (s.chip.get (LOOP.TARGET_VTGT n.val) : Int) - vdiff + s.chip.getS (EADC.CFG_OFSADJ n.val)) 4)) ∧
      (s.chip.get (LOOP.TARGET_VTGT n.val) ≤ s.chip.get (AVSL.SETPT_SETPT n.val) →
        s.chip.get (LOOP.TARGET_VTGT n.val) ≤ t.chip.get (LOOP.TARGET_VTGT n.val) ∧ t.chip.get (LOOP.TARGET_VTGT n.val) ≤ s.chip.get (AVSL.SETPT_SETPT n.val)) ∧
      (s.chip.get (AVSL.SETPT_SETPT n.val) ≤ s.chip.get (LOOP.TARGET_VTGT n.val) →
        t.chip.get (LOOP.TARGET_VTGT n.val) ≤ s.chip.get (LOOP.TARGET_VTGT n.val) ∧ s.chip.get (AVSL.SETPT_SETPT n.val) ≤ t.chip.get (LOOP.TARGET_VTGT n.val)) ∧
      65536 * ((t.chip.get (LOOP.TARGET_VTGT n.val) : Int) - s.chip.get (LOOP.TARGET_VTGT n.val)).natAbs ≤ (s.chip.loops.get n.val).frac +
        min (s.chip.get (AVSL.SLEW_SLEWCMD n.val)) (min (s.chip.get (AVSL.SLEW_SLEWMAX n.val)) 50000) * s.chip.get (LOOP.RATE_SPER n.val) * 65536 / 50000 ∧
      t.chip.loopState n.val = 2 ∧ t.chip.faultQ = s.chip.faultQ ∧ t.chip.outbox = s.chip.outbox ∧
      Keeps s t (fun o => o == LOOP.TARGET n.val || o == CMPL.EVT n.val || span 0x1c000 0x1c400 o || span 0x21000 0x21400 o)) ∧
  (∀ (s : State) (n : LoopId) (vdiff k : Int), s.chip.coreRuns = true → s.chip.loopState n.val = 2 → (s.chip.loops.get n.val).stopReq = false →
    (s.chip.loops.get n.val).code = some k → (s.chip.loops.get n.val).next = none → wordField (s.chip.loops.get n.val).run.ctrl 0 1 = 1 → ∃ t, Machine.exec (.sampleInstant n vdiff) s = .next t ∧
      (t.chip.loops.get n.val).code = some k ∧ (t.chip.loops.get n.val).next = some (satS 12 (rne (4 * (s.chip.get (LOOP.TARGET_VTGT n.val) : Int) - vdiff + s.chip.getS (EADC.CFG_OFSADJ n.val)) 4)) ∧
      t.chip.get (LOOP.OVR_OVRCNT n.val) = s.chip.get (LOOP.OVR_OVRCNT n.val)) ∧
  (∀ (s : State) (n : LoopId) (vdiff : Int), s.chip.coreRuns = true → s.chip.loopState n.val = 1 → (s.chip.loops.get n.val).stopReq = false →
    s.chip.get (LOOP.TARGET_VTGT n.val) = s.chip.get (AVSL.SETPT_SETPT n.val) → ∃ t, Machine.exec (.sampleInstant n vdiff) s = .next t ∧
      t.chip.loopState n.val = 2 ∧ t.chip.get (LOOP.TARGET_VTGT n.val) = s.chip.get (LOOP.TARGET_VTGT n.val) ∧ (t.chip.loops.get n.val).maskAt = some s.chip.now) ∧
  (∀ (s : State) (n : LoopId) (vdiff : Int), s.chip.coreRuns = true → s.chip.loopState n.val = 3 → (s.chip.loops.get n.val).stopReq = false →
    s.chip.get (LOOP.TARGET_VTGT n.val) ≤ wordField (s.chip.loops.get n.val).run.soft 0 14 → ∃ t, Machine.exec (.sampleInstant n vdiff) s = .next t ∧
      t.chip.loopState n.val = 0 ∧ (t.chip.loops.get n.val).integ = 0 ∧ (t.chip.loops.get n.val).duty = 0 ∧
      (∀ d : DieId, s.chip.dieOn (d.val + 1) = true → s.chip.loopPhasesOn (d.val + 1) n.val ≠ [] → (t.chip.lanes.get (32 * (d.val + 1) + n.val)).getLast? = some .stop)) ∧
  (∀ (s : State) (n : LoopId) (k : Int), s.chip.coreRuns = true → s.chip.loopState n.val ≠ 0 → (s.chip.loops.get n.val).code = some k → s.chip.get (LOOP.OVR_CONSEC n.val) < 3 → ∃ t, Machine.exec (.sampleOverrun n) s = .next t ∧
      Recorded s.chip t.chip (LOOP.OVR_OVRF n.val) (LOOP.OVR_OVRCNT n.val) ∧ t.chip.get (LOOP.OVR_CONSEC n.val) = (s.chip.get (LOOP.OVR_CONSEC n.val) + 1) % 3 ∧
      (t.chip.loops.get n.val).ovrDue = (s.chip.loops.get n.val).ovrDue + (s.chip.get (LOOP.OVR_CONSEC n.val) + 1) / 3 ∧
      (t.chip.loops.get n.val).code = (s.chip.loops.get n.val).next ∧ (t.chip.loops.get n.val).next = none ∧ (t.chip.loops.get n.val).integ = (s.chip.loops.get n.val).integ ∧ (t.chip.loops.get n.val).duty = (s.chip.loops.get n.val).duty ∧
      (t.chip.loops.get n.val).e1 = (s.chip.loops.get n.val).e1 ∧ (t.chip.loops.get n.val).y1 = (s.chip.loops.get n.val).y1 ∧ t.chip.lanes = s.chip.lanes ∧
      (t.chip.loops.get n.val).run.mayGuess = false ∧ t.chip.faultQ = s.chip.faultQ ∧ t.chip.outbox = s.chip.outbox ∧
      Keeps s t (fun o => o == LOOP.OVR n.val || o == LOOP.EVT n.val || o == LOOP.STALE n.val || o == LOOP.TARGET n.val || span (0x14000 + 0x100 * n.val) (0x14100 + 0x100 * n.val) o || span 0x21000 0x21400 o)) ∧
  (∀ (s : State) (n : LoopId), s.chip.coreRuns = true → 0 < (s.chip.loops.get n.val).ovrDue → ∃ t, Machine.exec (.overrunLimit n) s = .next t ∧
      Effect s t (fun c => c.engUpd n.val fun h => { h with ovrDue := h.ovrDue - 1 }) [] [] [⟨0x4123, n.val, s.chip.reg (LOOP.ERRMON n.val)⟩] []) ∧
  (∀ (s : State) (n : LoopId), s.chip.coreRuns = true → s.chip.get (LOOP.STATUS_TRSTATE n.val) ≠ 0 → orOne (wordField (s.chip.loops.get n.val).run.trband 16 10) ≤ (s.chip.loops.get n.val).trn →
    s.chip.get (PHSL.STATUS_PROC n.val) ≠ 3 → ∃ t, Machine.exec (.transientTimeout n) s = .next t ∧ Recorded s.chip t.chip (LOOP.EVT_TRTOF n.val) (LOOP.EVTCNT_TRTOCNT n.val) ∧
      t.chip.get (LOOP.STATUS_TRSTATE n.val) = 0 ∧ (t.chip.loops.get n.val).trBlock = true ∧ (t.chip.loops.get n.val).trExit = true ∧ (t.chip.loops.get n.val).trn = 0 ∧
      t.chip.faultQ = s.chip.faultQ ∧ t.chip.outbox = s.chip.outbox ∧ Keeps s t (fun o => span (0x10000 + 0x100 * n.val) (0x10100 + 0x100 * n.val) o || span 0x21000 0x21400 o)) ∧
  (∀ (s : State) (n : LoopId), s.chip.coreRuns = true → 0 < (s.chip.loops.get n.val).ilimDue → ∃ t, Machine.exec (.currentLimitPersistence n) s = .next t ∧
      Effect s t (fun c => c.engUpd n.val fun h => { h with ilimDue := h.ilimDue - 1 }) [] [] [⟨0x4122, n.val, s.chip.reg (LOOP.ERRMON n.val)⟩] []) ∧
  (∀ (s : State) (n : LoopId) (step base : Int) (l hid due : Nat), s.chip.coreRuns = true → (s.chip.loops.get n.val).ff = .armed step base l hid due → due ≤ 4 * s.chip.now → ∃ t, Machine.exec (.feedForwardExpire n) s = .next t ∧
      t.chip.get (LOOP.STALE_FFXCNT n.val) = counted s.chip (LOOP.STALE_FFXCNT n.val) ∧
      Effect s t (fun c => c.engUpd n.val fun h => { h with ff := .idle }) [LOOP.STALE_FFXCNT n.val] [] [] [])

/-- LOOP_START, LOOP_STOP, CURRENT_SUM_LAUNCH, CURRENT_SUM_ARRIVE and FIXED_CLASS_RELEASE (R22, R76, R81, R82, R215). -/
def Obligations.LoopsStartAndStop : Prop :=
  (∀ (s : State) (n : LoopId) (l : List (Nat × LoopCmd)), s.chip.coreRuns = true → s.chip.loopState n.val = 0 → s.chip.loopCmds = (n.val, .start) :: l →
    ∃ t, Machine.exec (.loopStart n) s = .next t ∧ t.chip.loopState n.val = 1 ∧ t.chip.get (LOOP.TARGET_VTGT n.val) = 0 ∧
      t.chip.get (AVSL.SETPT_SETPT n.val) = s.chip.get (AVSL.CTRL_VBOOT n.val) ∧ t.chip.get (AVSL.SLEW_SLEWCMD n.val) = min (s.chip.get (AVSL.SLEW_SLEWMAX n.val)) 50000 ∧
      (t.chip.loops.get n.val).integ = 0 ∧ (t.chip.loops.get n.val).duty = 0 ∧ (t.chip.loops.get n.val).frac = 0 ∧ (t.chip.loops.get n.val).active = (s.chip.loops.get n.val).active ∧
      (t.chip.loopPh.get n.val).act = s.chip.available n.val ∧ t.chip.get (PHSL.BASE_B n.val) = 0 ∧
      (∀ d ∈ s.chip.loopDies n.val, t.chip.lanes.get (32 * d + n.val) = s.chip.lanes.get (32 * d + n.val) ++ [.start (((s.chip.available n.val).filter fun p => p / 32 + 1 == d).map fun p =>
        (p, ilvPos (s.chip.genPeriod ((s.chip.available n.val).headD 0)) (s.chip.available n.val).length (idxOf (s.chip.available n.val) p) % orOne (s.chip.genPeriod ((s.chip.available n.val).headD 0))))]) ∧
      t.nvm = s.nvm ∧ t.pending = s.pending) ∧
  (∀ (s : State) (n : LoopId) (cmd : LoopCmd) (l : List (Nat × LoopCmd)), s.chip.coreRuns = true → s.chip.loopState n.val ≠ 0 → s.chip.loopCmds = (n.val, cmd) :: l → cmd ≠ .start →
    (cmd = .stop → wordField (s.chip.loops.get n.val).run.ctrl 5 1 = 1) → ∃ t, Machine.exec (.loopStop n) s = .next t ∧ t.chip.loopState n.val = 0 ∧
      (t.chip.loops.get n.val).integ = 0 ∧ (t.chip.loops.get n.val).duty = 0 ∧ (t.chip.loops.get n.val).code = none ∧ t.chip.get (LOOP.STATUS_TRSTATE n.val) = 0 ∧
      t.chip.get (PHSL.STATUS_PROC n.val) = 0 ∧ (∀ d : DieId, s.chip.dieOn (d.val + 1) = true → s.chip.loopPhasesOn (d.val + 1) n.val ≠ [] →
        t.chip.lanes.get (32 * (d.val + 1) + n.val) = s.chip.lanes.get (32 * (d.val + 1) + n.val) ++ [.stop]) ∧
      t.nvm = s.nvm ∧ t.pending = s.pending) ∧
  (∀ (s : State) (n : LoopId) (l : List (Nat × LoopCmd)), s.chip.coreRuns = true → s.chip.loopState n.val = 2 → s.chip.loopCmds = (n.val, .stop) :: l →
    wordField (s.chip.loops.get n.val).run.ctrl 5 1 = 0 → (s.chip.tunes.get n.val).phase = .idle → ∃ t, Machine.exec (.loopStop n) s = .next t ∧
      t.chip.loops = s.chip.loops.upd n.val (fun h => { h with stopReq := true }) ∧ t.chip.loopCmds = l ∧ t.chip.gens = s.chip.gens ∧
      t.chip.faultQ = s.chip.faultQ ∧ t.chip.outbox = s.chip.outbox ∧ Keeps s t (fun o => span 0x21000 0x21400 o)) ∧
  (∀ (s : State) (d : DieId) (n : LoopId), s.chip.coreRuns = true → s.chip.dieOn (d.val + 1) = true → s.chip.loopState n.val ≠ 0 → ∃ t, Machine.exec (.currentSumLaunch d n) s = .next t ∧
      t.chip.get (IADCP.SUM_SUM (d.val + 1) n.val) = bitsOf 18 (satS 18 (((s.chip.loopPhasesOn (d.val + 1) n.val).filter fun p => s.chip.get (PHS.STATE_ROLE p) ∈ [2, 3, 4] ∧ (s.chip.phases.get p).fresh = true).map fun p => (s.chip.phases.get p).latest).sum) ∧
      Effect s t (fun c => { c with sumLanes := c.sumLanes.upd (32 * (d.val + 1) + n.val) (· ++
        [satS 18 (((s.chip.loopPhasesOn (d.val + 1) n.val).filter fun p => s.chip.get (PHS.STATE_ROLE p) ∈ [2, 3, 4] ∧ (s.chip.phases.get p).fresh = true).map fun p => (s.chip.phases.get p).latest).sum]) })
        [IADCP.SUM_SUM (d.val + 1) n.val] [] [] []) ∧
  (∀ (s : State) (d : DieId) (n : LoopId) (v : Int) (rest : List Int), s.chip.coreRuns = true → s.chip.loopState n.val = 0 → s.chip.sumLanes.get (32 * (d.val + 1) + n.val) = v :: rest → s.chip.sumNext (d.val + 1) n.val = some n.val → ∃ t, Machine.exec (.currentSumArrive d n) s = .next t ∧
      Effect s t (fun c => { c with sumLanes := c.sumLanes.set (32 * (d.val + 1) + n.val) rest, laneTurn := c.laneTurn.set (64 + 8 * (d.val + 1) + n.val % 8) ((n.val / 8 + 1) % 4) }) [] [] [] []) ∧
  (∀ (s : State) (d : DieId) (n : LoopId) (v : Int) (rest : List Int), s.chip.coreRuns = true → s.chip.loopState n.val ≠ 0 → s.chip.sumLanes.get (32 * (d.val + 1) + n.val) = v :: rest → s.chip.sumNext (d.val + 1) n.val = some n.val → ∃ t, Machine.exec (.currentSumArrive d n) s = .next t ∧
      t.chip.sumLanes.get (32 * (d.val + 1) + n.val) = rest ∧ t.chip.sums.get (32 * (d.val + 1) + n.val) = v ∧ t.chip.renewed.get (32 * (d.val + 1) + n.val) = true ∧
      (∀ k, k ≠ 32 * (d.val + 1) + n.val → t.chip.sums.get k = s.chip.sums.get k) ∧ t.chip.faultQ = s.chip.faultQ ∧ t.chip.outbox = s.chip.outbox ∧ Keeps s t (fun o => span 0x21000 0x21400 o)) ∧
  (∀ (s : State) (n : LoopId) (settled : BitVec 224), s.chip.coreRuns = true → ∃ t, Machine.exec (.fixedClassRelease ⟨n, settled⟩) s = .next t ∧ (∀ d : DieId, t.chip.holds.get (32 * (d.val + 1) + n.val) = none) ∧
      t.chip.loops = s.chip.loops ∧ t.nvm = s.nvm ∧ t.pending = s.pending) ∧
  (∀ (s : State) (d : DieId) (n : LoopId) (p : PhaseId) (w : LaneWord) (settled : BitVec 224), s.chip.coreRuns = true → s.chip.holds.get (32 * (d.val + 1) + n.val) = some w → w.tag ∈ [0, 2, 3] →
    (∀ e : DieId, e ≠ d → s.chip.holds.get (32 * (e.val + 1) + n.val) = none) → p.val / 32 = d.val → s.chip.owner p.val = some n.val → s.chip.get (PWM.CTRL_EN p.val) = 1 →
    ∃ t, Machine.exec (.fixedClassRelease ⟨n, settled⟩) s = .next t ∧ t.chip.get (PWM.SHDW_TAG p.val) = w.tag ∧
      t.chip.get (PWM.SHDW_D p.val) = (min (max (rne ((w.duty * s.chip.genPeriod p.val : Nat) : Int) (2 ^ 20) + s.chip.getS (PHS.TRIM_TRIM p.val)) 0) (s.chip.genPeriod p.val : Nat)).toNat)

/-- COEF_SWAP_REQUEST and COEF_SWAP_APPLY (R103 to R105). That a request carries the configuration fields as they are is the model's convention (log entry 12). -/
def Obligations.CoefficientSetsSwap : Prop :=
  (∀ (s : State) (req : Requester) (n : LoopId) (set : Fin 4), s.chip.reaches req (COEF.SEL n.val) = true → bitAt (s.chip.get (COEF.SETVAL_VALID n.val)) set.val = false →
    ∃ t, Machine.exec (.coefSwapRequest req n set true) s = .next t ∧ t.chip.get (COEF.SEL_REQSET n.val) = set.val ∧ t.chip.get (COEF.SEL_SWREF n.val) = 1 ∧
      Recorded s.chip t.chip (COEF.SEL_SWREFF n.val) (COEF.SWCNT_SWRCNT n.val) ∧
      Effect s t id [COEF.SEL_REQSET n.val, COEF.SEL_SWREF n.val, COEF.SEL_SWREFF n.val, COEF.SWCNT_SWRCNT n.val] [0x120 + n.val] [] []) ∧
  (∀ (s : State) (req : Requester) (n : LoopId) (set : Fin 4), s.chip.reaches req (COEF.SEL n.val) = true → bitAt (s.chip.get (COEF.SETVAL_VALID n.val)) set.val = true → s.chip.loopState n.val = 4 →
    ∃ t, Machine.exec (.coefSwapRequest req n set true) s = .next t ∧ t.chip.get (COEF.SEL_SWREF n.val) = 2 ∧
      Recorded s.chip t.chip (COEF.SEL_SWREFF n.val) (COEF.SWCNT_SWRCNT n.val) ∧
      Effect s t id [COEF.SEL_REQSET n.val, COEF.SEL_SWREF n.val, COEF.SEL_SWREFF n.val, COEF.SWCNT_SWRCNT n.val] [0x120 + n.val] [] []) ∧
  (∀ (s : State) (req : Requester) (n : LoopId) (set : Fin 4), s.chip.reaches req (COEF.SEL n.val) = true → bitAt (s.chip.get (COEF.SETVAL_VALID n.val)) set.val = true → s.chip.loopState n.val ≠ 4 →
    (s.chip.tunes.get n.val).phase = .idle → (s.chip.loops.get n.val).swaps ≠ [] →
    ∃ t, Machine.exec (.coefSwapRequest req n set true) s = .next t ∧ t.chip.get (COEF.SEL_SWREF n.val) = 3 ∧
      Recorded s.chip t.chip (COEF.SEL_SWREFF n.val) (COEF.SWCNT_SWRCNT n.val) ∧
      Effect s t id [COEF.SEL_REQSET n.val, COEF.SEL_SWREF n.val, COEF.SEL_SWREFF n.val, COEF.SWCNT_SWRCNT n.val] [0x120 + n.val] [] []) ∧
  (∀ (s : State) (req : Requester) (n : LoopId) (set : Fin 4), s.chip.reaches req (COEF.SEL n.val) = true → bitAt (s.chip.get (COEF.SETVAL_VALID n.val)) set.val = true →
    s.chip.loopState n.val ∉ [0, 4] → (s.chip.tunes.get n.val).phase = .idle → (s.chip.loops.get n.val).swaps = [] →
    ∃ t, Machine.exec (.coefSwapRequest req n set true) s = .next t ∧ t.chip.get (COEF.SEL_REQSET n.val) = set.val ∧ t.chip.get (COEF.SEL_PEND n.val) = 1 ∧
      Effect s t (fun c => c.engUpd n.val fun h => { h with swaps := [.request set.val] }) [COEF.SEL_REQSET n.val, COEF.SEL_PEND n.val] [] [] []) ∧
  (∀ (s : State) (req : Requester) (n : LoopId) (set : Fin 4), s.chip.reaches req (COEF.SEL n.val) = true → bitAt (s.chip.get (COEF.SETVAL_VALID n.val)) set.val = true →
    s.chip.loopState n.val = 0 → (s.chip.tunes.get n.val).phase = .idle → (s.chip.loops.get n.val).swaps = [] → s.chip.flt.inj = none →
    ∃ t, Machine.exec (.coefSwapRequest req n set true) s = .next t ∧ t.chip.get (LOOP.STATUS_ACTSET n.val) = set.val ∧ Recorded s.chip t.chip (COEF.SEL_SWAPF n.val) (COEF.SWCNT_SWPCNT n.val) ∧
      Effect s t (fun c => c.engUpd n.val fun h => { h with active := s.chip.coefs.get (4 * n.val + set.val), noSpec := true })
        [COEF.SEL_REQSET n.val, COEF.SEL_SWAPF n.val, COEF.SWCNT_SWPCNT n.val, LOOP.STATUS_ACTSET n.val] [0x120 + n.val] [] []) ∧
  (∀ (s : State) (n : LoopId) (set : Fin 4) (b : Chip), b = s.chip.coefBoundary n.val → s.chip.domOn .core = true → (s.chip.loops.get n.val).code = none → s.chip.loopState n.val ∈ [1, 2, 3] → (s.chip.loops.get n.val).swaps = [.request set.val] →
    bitAt (b.get (COEF.SETVAL_VALID n.val)) set.val = true → s.chip.flt.inj = none → ∃ t, Machine.exec (.coefSwapApply n true) s = .next t ∧
      t.chip.get (LOOP.STATUS_ACTSET n.val) = set.val ∧ t.chip.get (COEF.SEL_PEND n.val) = 0 ∧ Recorded s.chip t.chip (COEF.SEL_SWAPF n.val) (COEF.SWCNT_SWPCNT n.val) ∧
      (t.chip.loops.get n.val).active = b.coefs.get (4 * n.val + set.val) ∧ (t.chip.loops.get n.val).run.set = b.coefs.get (4 * n.val + set.val) ∧
      (t.chip.loops.get n.val).run.mayGuess = false ∧ (t.chip.loops.get n.val).swaps = [] ∧
      ((s.chip.loops.get n.val).integ = (s.chip.loops.get n.val).active.hi → (t.chip.loops.get n.val).integ = (b.coefs.get (4 * n.val + set.val)).hi) ∧
      ((s.chip.loops.get n.val).integ ≠ (s.chip.loops.get n.val).active.hi → (s.chip.loops.get n.val).integ = (s.chip.loops.get n.val).active.lo →
        (t.chip.loops.get n.val).integ = (b.coefs.get (4 * n.val + set.val)).lo) ∧
      ((s.chip.loops.get n.val).integ ≠ (s.chip.loops.get n.val).active.hi → (s.chip.loops.get n.val).integ ≠ (s.chip.loops.get n.val).active.lo →
        (t.chip.loops.get n.val).integ = (b.coefs.get (4 * n.val + set.val)).clip (satS 40 (rne (satS 80 ((s.chip.loops.get n.val).integ * 2 ^ 22
          + (s.chip.loops.get n.val).active.tail (s.chip.loops.get n.val) - (b.coefs.get (4 * n.val + set.val)).tail (s.chip.loops.get n.val))) (2 ^ 22)))) ∧
      t.chip.faultQ = s.chip.faultQ ∧ t.chip.outbox = s.chip.outbox ∧
      Keeps s t (fun o => span (0x10000 + 0x100 * n.val) (0x10100 + 0x100 * n.val) o || span (0x14000 + 0x100 * n.val) (0x14100 + 0x100 * n.val) o))

/-- AUTOTUNE_START, AUTOTUNE_ABORT, TUNE_LEAVE_TIMEOUT, TUNE_ENTER, TUNE_MAXS_EXPIRE, TUNE_EXIT, and ERROR_CODE_ARRIVE in TUNE (R107 to R112). That the entry into TUNE ends a transient is the model's reading (log entry 27). -/
def Obligations.AutoTuneRuns : Prop :=
  (∀ (s : State) (req : Requester) (n : LoopId), s.chip.reaches req (COEF.TUNECTL n.val) = true → s.chip.loopState n.val ≠ 2 → ∃ t, Machine.exec (.autotuneStart req n) s = .next t ∧
    t.chip.get (COEF.TUNESTAT_RESULT n.val) = 5 ∧ t.chip.get (COEF.TUNESTAT_CAUSE n.val) = 1 ∧ Recorded s.chip t.chip (COEF.TUNEEVT_ABRTF n.val) (COEF.TUNEEVT_ABRTCNT n.val) ∧
    Effect s t id [COEF.TUNESTAT_RESULT n.val, COEF.TUNESTAT_CAUSE n.val, COEF.TUNEEVT_ABRTF n.val, COEF.TUNEEVT_ABRTCNT n.val] [0x120 + n.val] [] []) ∧
  (∀ (s : State) (req : Requester) (n : LoopId), s.chip.reaches req (COEF.TUNECTL n.val) = true → s.chip.loopState n.val = 2 → s.chip.get (LOOP.STATUS_TRSTATE n.val) = 0 →
    (s.chip.loops.get n.val).ff = .idle → s.chip.get (COEF.TUNECFG_HREL n.val) ≠ 0 → s.chip.get (COEF.TUNECFG_HREL n.val) ≤ s.chip.get (COEF.TUNELIM_HMAX n.val) →
    s.chip.get (COEF.TUNECYC_NMEAS n.val) ≠ 0 → s.chip.get (COEF.TUNECYC_MAXS n.val) ≠ 0 → (s.chip.tunes.get n.val).phase = .idle → (s.chip.loops.get n.val).swaps = [] →
    ∃ t, Machine.exec (.autotuneStart req n) s = .next t ∧ t.chip.get (COEF.TUNESTAT_RESULT n.val) = 1 ∧ t.chip.get (COEF.TUNESTAT_CAUSE n.val) = 0 ∧
      t.chip.get (COEF.TUNESTAT_CYCLES n.val) = 0 ∧ t.chip.get (COEF.TUNESTAT_SAMPLES n.val) = 0 ∧ (t.chip.tunes.get n.val).phase = .waiting ∧ (t.chip.tunes.get n.val).since = s.chip.now ∧
      (∀ m, m ≠ n.val → t.chip.tunes.get m = s.chip.tunes.get m) ∧
      t.chip.asks = s.chip.asks ++ [⟨.tune n.val, s.chip.get (COEF.TUNELEAVE_PEAKW n.val), (s.chip.get (COEF.TUNECYC_MAXS n.val) * s.chip.get (LOOP.RATE_SPER n.val) * 5 + 999) / 1000 + 20, s.chip.get BUD.PRIO_TUNE⟩] ∧
      t.chip.faultQ = s.chip.faultQ ∧ t.chip.outbox = s.chip.outbox ∧ Keeps s t (fun o => span (0x14000 + 0x100 * n.val) (0x14100 + 0x100 * n.val) o)) ∧
  (∀ (s : State) (req : Requester) (n : LoopId), s.chip.reaches req (COEF.TUNECTL n.val) = true → (s.chip.tunes.get n.val).phase = .waiting → ∃ t, Machine.exec (.autotuneAbort req n) s = .next t ∧
    t.chip.get (COEF.TUNESTAT_RESULT n.val) = 4 ∧ (t.chip.tunes.get n.val).phase = .idle ∧ (∀ q ∈ t.chip.asks, q.who ≠ .tune n.val) ∧
    Recorded s.chip t.chip (COEF.TUNEEVT_ABRTF n.val) (COEF.TUNEEVT_ABRTCNT n.val) ∧
    t.chip.faultQ = s.chip.faultQ ∧ t.chip.outbox = s.chip.outbox ∧ Keeps s t (fun o => span (0x14000 + 0x100 * n.val) (0x14100 + 0x100 * n.val) o)) ∧
  (∀ (s : State) (req : Requester) (n : LoopId), s.chip.reaches req (COEF.TUNECTL n.val) = true → (s.chip.tunes.get n.val).phase = .running → ∃ t, Machine.exec (.autotuneAbort req n) s = .next t ∧
    t.chip.get (COEF.TUNESTAT_RESULT n.val) = 4 ∧ (t.chip.tunes.get n.val).phase = .ending ∧ Recorded s.chip t.chip (COEF.TUNEEVT_ABRTF n.val) (COEF.TUNEEVT_ABRTCNT n.val) ∧
    t.chip.faultQ = s.chip.faultQ ∧ t.chip.outbox = s.chip.outbox ∧ Keeps s t (fun o => span (0x14000 + 0x100 * n.val) (0x14100 + 0x100 * n.val) o)) ∧
  (∀ (s : State) (n : LoopId), s.chip.coreRuns = true → (s.chip.tunes.get n.val).phase = .waiting → (s.chip.tunes.get n.val).since + (s.chip.tunes.get n.val).wait ≤ s.chip.now →
    ∃ t, Machine.exec (.tuneLeaveTimeout n) s = .next t ∧ t.chip.get (COEF.TUNESTAT_RESULT n.val) = 4 ∧ t.chip.get (COEF.TUNESTAT_CAUSE n.val) = 5 ∧ (t.chip.tunes.get n.val).phase = .idle ∧
      (∀ q ∈ t.chip.asks, q.who ≠ .tune n.val) ∧ Recorded s.chip t.chip (COEF.TUNEEVT_ABRTF n.val) (COEF.TUNEEVT_ABRTCNT n.val) ∧
      t.chip.faultQ = s.chip.faultQ ∧ t.chip.outbox = s.chip.outbox ∧ Keeps s t (fun o => span (0x14000 + 0x100 * n.val) (0x14100 + 0x100 * n.val) o)) ∧
  (∀ (s : State) (n : LoopId), s.chip.coreRuns = true → (s.chip.tunes.get n.val).phase = .granted → s.chip.loopState n.val = 2 → ∃ t, Machine.exec (.tuneEnter n) s = .next t ∧
    t.chip.loopState n.val = 4 ∧ t.chip.get (COEF.TUNESTAT_RESULT n.val) = 2 ∧ t.chip.get (LOOP.STATUS_TRSTATE n.val) = 0 ∧ (t.chip.tunes.get n.val).phase = .running ∧
    (t.chip.tunes.get n.val).d0 = (s.chip.loops.get n.val).duty ∧ (t.chip.tunes.get n.val).high = none ∧ (t.chip.loops.get n.val).integ = (s.chip.loops.get n.val).integ ∧ t.nvm = s.nvm ∧ t.pending = s.pending) ∧
  (∀ (s : State) (n : LoopId) (code e : Int) (hi lo : Nat), s.chip.coreRuns = true → s.chip.loopState n.val = 4 → (s.chip.tunes.get n.val).phase = .running → (s.chip.loops.get n.val).code = some code →
    e = satS 16 (code - (s.chip.loops.get n.val).run.loadLine) →
    hi = dutyWord (min (((s.chip.tunes.get n.val).d0 * 2 ^ 10 + (s.chip.tunes.get n.val).hrel * 2 ^ 14 : Nat) : Int) ((s.chip.loops.get n.val).run.limits (s.chip.loops.get n.val).duty).ceil) →
    lo = dutyWord (max (((s.chip.tunes.get n.val).d0 * 2 ^ 10 : Nat) - ((s.chip.tunes.get n.val).hrel * 2 ^ 14 : Nat) : Int) ((s.chip.loops.get n.val).run.limits (s.chip.loops.get n.val).duty).floor) →
    ∃ t, Machine.exec (.errorCodeArrive n) s = .next t ∧
      ((s.chip.tunes.get n.val).high = none → (t.chip.loops.get n.val).duty = if 0 ≤ e then hi else lo) ∧
      ((s.chip.tunes.get n.val).high ≠ none → ((s.chip.tunes.get n.val).hyst : Int) < e → (t.chip.loops.get n.val).duty = hi) ∧
      ((s.chip.tunes.get n.val).high ≠ none → e < -((s.chip.tunes.get n.val).hyst : Int) → (t.chip.loops.get n.val).duty = lo) ∧
      (∀ b : Bool, (s.chip.tunes.get n.val).high = some b → -((s.chip.tunes.get n.val).hyst : Int) ≤ e → e ≤ (s.chip.tunes.get n.val).hyst → (t.chip.loops.get n.val).duty = if b then hi else lo) ∧
      t.chip.get (COEF.TUNESTAT_SAMPLES n.val) = counted s.chip (COEF.TUNESTAT_SAMPLES n.val) ∧ (t.chip.loops.get n.val).integ = (s.chip.loops.get n.val).integ ∧
      (t.chip.loops.get n.val).code = none ∧ t.nvm = s.nvm ∧ t.pending = s.pending) ∧
  (∀ (s : State) (n : LoopId), s.chip.coreRuns = true → (s.chip.tunes.get n.val).phase = .running → (s.chip.tunes.get n.val).maxs ≤ s.chip.get (COEF.TUNESTAT_SAMPLES n.val) →
    ∃ t, Machine.exec (.tuneMaxsExpire n) s = .next t ∧ t.chip.get (COEF.TUNESTAT_RESULT n.val) = 4 ∧ t.chip.get (COEF.TUNESTAT_CAUSE n.val) = 0xb ∧ (t.chip.tunes.get n.val).phase = .ending ∧
      Recorded s.chip t.chip (COEF.TUNEEVT_ABRTF n.val) (COEF.TUNEEVT_ABRTCNT n.val) ∧ t.chip.faultQ = s.chip.faultQ ∧ t.chip.outbox = s.chip.outbox ∧
      Keeps s t (fun o => span (0x14000 + 0x100 * n.val) (0x14100 + 0x100 * n.val) o || span 0x21000 0x21400 o)) ∧
  (∀ (s : State) (n : LoopId), s.chip.coreRuns = true → (s.chip.tunes.get n.val).phase = .ending → s.chip.loopState n.val = 4 → (s.chip.loops.get n.val).swaps = [] →
    ∃ t, Machine.exec (.tuneExit n) s = .next t ∧ t.chip.loopState n.val = 2 ∧ (t.chip.tunes.get n.val).phase = .idle ∧
      (t.chip.loops.get n.val).integ = (s.chip.loops.get n.val).active.clip ((s.chip.tunes.get n.val).d0 * 2 ^ 18 : Nat) ∧
      (t.chip.loops.get n.val).e1 = 0 ∧ (t.chip.loops.get n.val).e2 = 0 ∧ (t.chip.loops.get n.val).y1 = 0 ∧ (t.chip.loops.get n.val).y2 = 0 ∧ (t.chip.loops.get n.val).y3 = 0 ∧
      (∀ v, (s.chip.loops.get n.val).heldSet = some v → t.chip.get (AVSL.SETPT_SETPT n.val) = v % 2 ^ 14) ∧ t.nvm = s.nvm ∧ t.pending = s.pending)

/-- LOOP_COMPARATOR_ACTIVE, LOOP_COMPARATOR_INACTIVE and UV_MASK_END (R242 to R245); voltages in 62.5 µV, a quarter of the thresholds' 0.25 mV. -/
def Obligations.LoopComparatorsProtect : Prop :=
  (∀ (s : State) (n : LoopId) (v : Int), s.chip.coreRuns = true → s.chip.loopState n.val ∈ [2, 4] → s.chip.get (LOOP.TARGET_RAMPING n.val) = 0 → (s.chip.loops.get n.val).vhiAt = none →
    s.chip.get (CMPL.EVT_OVACT n.val) = 0 → s.chip.get (CMPL.CFG_OVEN n.val) = 1 → (s.chip.tunes.get n.val).phase = .idle →
    4 * (min (s.chip.get (CMPL.ABS_OVABS n.val)) (s.chip.get (LOOP.TARGET_VTGT n.val) + 4 * s.chip.get (CMPL.REL_OVREL n.val)) : Nat) < v →
    ∃ t, Machine.exec (.loopComparatorActive n true v) s = .next t ∧ t.chip.get (CMPL.EVT_OVACT n.val) = 1 ∧ Recorded s.chip t.chip (CMPL.EVT_OVF n.val) (CMPL.EVTCNT_OVCNT n.val) ∧
      Effect s t (fun c => c.pmbLatch (2 ^ n.val) 0 7) [CMPL.EVT_OVACT n.val, CMPL.EVT_OVF n.val, CMPL.EVTCNT_OVCNT n.val, PMB.STAT_ALERT] [0x180 + n.val]
        [⟨0x6120, n.val, s.chip.reg (LOOP.ERRMON n.val)⟩] []) ∧
  (∀ (s : State) (n : LoopId) (v : Int), s.chip.coreRuns = true → s.chip.loopState n.val ∈ [0, 1] → s.chip.get (CMPL.EVT_OVACT n.val) = 0 → s.chip.get (CMPL.CFG_OVEN n.val) = 0 →
    (s.chip.tunes.get n.val).phase = .idle → ((4 * s.chip.get (CMPL.ABS_OVABS n.val) : Nat) : Int) < v →
    ∃ t, Machine.exec (.loopComparatorActive n true v) s = .next t ∧ t.chip.get (CMPL.EVT_OVACT n.val) = 1 ∧ Effect s t id [CMPL.EVT_OVACT n.val] [] [] []) ∧
  (∀ (s : State) (n : LoopId) (v : Int), s.chip.domOn .core = true → s.chip.get (CMPL.EVT_OVACT n.val) = 1 → ∃ t, Machine.exec (.loopComparatorActive n true v) s = .next t ∧ t = s) ∧
  (∀ (s : State) (n : LoopId) (v : Int), s.chip.coreRuns = true → s.chip.loopState n.val ∈ [2, 4] → s.chip.get (LOOP.TARGET_RAMPING n.val) = 0 → (s.chip.loops.get n.val).maskAt = none →
    s.chip.get (CMPL.EVT_UVACT n.val) = 0 → s.chip.get (CMPL.CFG_UVEN n.val) = 1 → (s.chip.tunes.get n.val).phase = .idle →
    v < (4 * (s.chip.get (LOOP.TARGET_VTGT n.val) - 4 * s.chip.get (CMPL.REL_UVREL n.val)) : Nat) →
    ∃ t, Machine.exec (.loopComparatorActive n false v) s = .next t ∧ t.chip.get (CMPL.EVT_UVACT n.val) = 1 ∧ Recorded s.chip t.chip (CMPL.EVT_UVF n.val) (CMPL.EVTCNT_UVCNT n.val) ∧
      Effect s t (fun c => c.pmbLatch (2 ^ n.val) 0 4) [CMPL.EVT_UVACT n.val, CMPL.EVT_UVF n.val, CMPL.EVTCNT_UVCNT n.val, PMB.STAT_ALERT] [0x180 + n.val]
        [⟨0x4121, n.val, s.chip.reg (LOOP.ERRMON n.val)⟩] []) ∧
  (∀ (s : State) (n : LoopId) (v : Int), s.chip.domOn .core = true → (s.chip.loopState n.val ∉ [2, 4] ∨ s.chip.get (LOOP.TARGET_RAMPING n.val) = 1 ∨ (s.chip.loops.get n.val).maskAt.isSome = true) →
    ∃ t, Machine.exec (.loopComparatorActive n false v) s = .next t ∧ t = s) ∧
  (∀ (s : State) (n : LoopId) (a : Nat), s.chip.coreRuns = true → (s.chip.loops.get n.val).maskAt = some a → (s.chip.loops.get n.val).vhiAt = some a → a + s.chip.get (CMPL.CFG_RBLK n.val) ≤ s.chip.now →
    ∃ t, Machine.exec (.uvMaskEnd n) s = .next t ∧ (t.chip.loops.get n.val).maskAt = none ∧ Effect s t (fun c => c.engUpd n.val fun h => { h with maskAt := none, vhiAt := none }) [] [] [] []) ∧
  (∀ (s : State) (n : LoopId) (a : Nat), s.chip.domOn .core = true → (s.chip.loops.get n.val).maskAt = some a → s.chip.now < a + s.chip.get (CMPL.CFG_RBLK n.val) →
    ∃ t, Machine.exec (.uvMaskEnd n) s = .next t ∧ (t.chip.loops.get n.val).maskAt = some a ∧ t.chip.regs = s.chip.regs) ∧
  (∀ (s : State) (n : LoopId), s.chip.coreRuns = true → ∃ t, Machine.exec (.loopComparatorInactive n true) s = .next t ∧ t.chip.get (CMPL.EVT_OVACT n.val) = 0 ∧ Effect s t id [CMPL.EVT_OVACT n.val] [] [] []) ∧
  (∀ (s : State) (n : LoopId), s.chip.coreRuns = true → ∃ t, Machine.exec (.loopComparatorInactive n false) s = .next t ∧ t.chip.get (CMPL.EVT_UVACT n.val) = 0 ∧ Effect s t id [CMPL.EVT_UVACT n.val] [] [] [])

/-- WINDOW_TICK and WINDOW_CONFIRM_REQUEST (R247 to R249, R254, R539). Which of a confirmation and a tick at one count comes first is the model's reading (log entry 175). -/
def Obligations.WindowMonitorsJudgeTheirRails : Prop :=
  (∀ (s : State) (r : RailId) (uv : Int), s.chip.domOn .aon = true → s.chip.get (WMON.CFG_EN r.val) = 1 → s.chip.gridAt (gridRail r.val) (s.chip.wmTickInt r.val) = true → s.chip.grid.get (gridConf r.val) ≠ s.chip.now + 1 → ((s.chip.get (WMON.THR_WHI r.val) * 1000 : Nat) : Int) < uv →
    ∃ t, Machine.exec (.windowTick r uv) s = .next t ∧ t.chip.get (WMON.STAT_STATE r.val) = 1 ∧ t.chip.get (WMON.STAT_CONFD r.val) = 0 ∧ t.chip.undet.get r.val = 0 ∧
      (s.chip.get (WMON.STAT_STATE r.val) ≠ 1 → Recorded s.chip t.chip (WMON.EVT_OVERF r.val) (WMON.EVTCNT_OVERCNT r.val)) ∧
      (s.chip.get (WMON.STAT_STATE r.val) = 1 → t.chip.get (WMON.EVTCNT_OVERCNT r.val) = s.chip.get (WMON.EVTCNT_OVERCNT r.val)) ∧
      Keeps s t (fun o => span (0x1000 + 0x20 * r.val) (0x1020 + 0x20 * r.val) o || decide (0x10000 ≤ o))) ∧
  (∀ (s : State) (r : RailId) (uv : Int), s.chip.domOn .aon = true → s.chip.get (WMON.CFG_EN r.val) = 1 → s.chip.gridAt (gridRail r.val) (s.chip.wmTickInt r.val) = true → s.chip.grid.get (gridConf r.val) ≠ s.chip.now + 1 → uv ≤ (s.chip.get (WMON.THR_WHI r.val) * 1000 : Nat) → uv < (s.chip.get (WMON.THR_WLO r.val) * 1000 : Nat) →
    ∃ t, Machine.exec (.windowTick r uv) s = .next t ∧ t.chip.get (WMON.STAT_STATE r.val) = 2 ∧ t.chip.get (WMON.STAT_CONFD r.val) = 0 ∧ t.chip.undet.get r.val = 0 ∧
      (s.chip.get (WMON.STAT_STATE r.val) ≠ 2 → Recorded s.chip t.chip (WMON.EVT_UNDERF r.val) (WMON.EVTCNT_UNDERCNT r.val)) ∧
      Keeps s t (fun o => span (0x1000 + 0x20 * r.val) (0x1020 + 0x20 * r.val) o || decide (0x10000 ≤ o))) ∧
  (∀ (s : State) (r : RailId) (uv : Int), s.chip.domOn .aon = true → s.chip.get (WMON.CFG_EN r.val) = 1 → s.chip.gridAt (gridRail r.val) (s.chip.wmTickInt r.val) = true → s.chip.grid.get (gridConf r.val) ≠ s.chip.now + 1 →
    ((s.chip.get (WMON.THR_WLO r.val) + s.chip.get (WMON.CFG_WHYS r.val) : Nat) : Int) * 1000 < uv →
    uv < ((s.chip.get (WMON.THR_WHI r.val) : Int) - s.chip.get (WMON.CFG_WHYS r.val)) * 1000 →
    ∃ t, Machine.exec (.windowTick r uv) s = .next t ∧ t.chip.get (WMON.STAT_STATE r.val) = 0 ∧ t.chip.get (WMON.STAT_CONFD r.val) = 0 ∧ t.chip.undet.get r.val = 0 ∧
      t.chip.reg (WMON.EVT r.val) = s.chip.reg (WMON.EVT r.val) ∧ t.chip.reg (WMON.EVTCNT r.val) = s.chip.reg (WMON.EVTCNT r.val) ∧
      Keeps s t (fun o => span (0x1000 + 0x20 * r.val) (0x1020 + 0x20 * r.val) o || decide (0x10000 ≤ o))) ∧
  (∀ (s : State) (r : RailId) (uv : Int), s.chip.domOn .aon = true → s.chip.get (WMON.CFG_EN r.val) = 1 → s.chip.gridAt (gridRail r.val) (s.chip.wmTickInt r.val) = true → s.chip.grid.get (gridConf r.val) ≠ s.chip.now + 1 →
    uv ≤ (s.chip.get (WMON.THR_WHI r.val) * 1000 : Nat) → ((s.chip.get (WMON.THR_WLO r.val) * 1000 : Nat) : Int) ≤ uv →
    (uv ≤ ((s.chip.get (WMON.THR_WLO r.val) + s.chip.get (WMON.CFG_WHYS r.val) : Nat) : Int) * 1000 ∨ ((s.chip.get (WMON.THR_WHI r.val) : Int) - s.chip.get (WMON.CFG_WHYS r.val)) * 1000 ≤ uv) →
    ∃ t, Machine.exec (.windowTick r uv) s = .next t ∧ t.chip.reg (WMON.STAT r.val) = s.chip.reg (WMON.STAT r.val) ∧
      t.chip.undet.get r.val = (if s.chip.get (WMON.STAT_STATE r.val) = 3 then s.chip.undet.get r.val + 1 else 0) ∧ Keeps s t (fun o => decide (0x10000 ≤ o))) ∧
  (∀ (s : State) (r : RailId) (uv : Int), s.chip.gridAt (gridRail r.val) (s.chip.wmTickInt r.val) = false → ∃ t, Machine.exec (.windowTick r uv) s = .next t ∧
      t.chip.undet = s.chip.undet ∧ Keeps s t (fun o => decide (0x10000 ≤ o))) ∧
  (∀ (s : State) (r : RailId) (uv : Int), s.chip.domOn .aon = true → s.chip.get (WMON.CFG_EN r.val) = 1 → s.chip.gridAt (gridRail r.val) (s.chip.wmTickInt r.val) = true →
    s.chip.grid.get (gridConf r.val) = s.chip.now + 1 → ∃ t, Machine.exec (.windowTick r uv) s = .next t ∧
      t.chip.undet.get r.val = (if s.chip.get (WMON.STAT_STATE r.val) = 3 then s.chip.undet.get r.val + 1 else 0) ∧ Keeps s t (fun o => decide (0x10000 ≤ o))) ∧
  (∀ (s : State) (r : RailId) (uv : Int), s.chip.get (WMON.CFG_EN r.val) = 0 → s.chip.domOn .core = false ∨ s.chip.get (SEQR.STAT_STATE r.val) = 0 → ∃ t, Machine.exec (.windowTick r uv) s = .next t ∧
      Effect s t id [SEQR.STAT_RAWGOOD r.val] [] [] []) ∧
  (∀ (s : State) (r : RailId), s.chip.get (WMON.CFG_EN r.val) = 1 → s.chip.get (WMON.CFG_CONFEN r.val) = 1 → s.chip.get (WMON.STAT_STATE r.val) = 3 → s.chip.get (WMON.STAT_CONFPEND r.val) = 0 →
    2 ^ s.chip.get (WMON.CFG_CONFDLY r.val) ≤ s.chip.undet.get r.val → s.chip.domOn .hka = true → ∃ t, Machine.exec (.windowConfirmRequest r) s = .next t ∧
      t.chip.get (WMON.STAT_CONFPEND r.val) = 1 ∧ t.chip.get (WMON.STAT_STATE r.val) = 3 ∧ t.chip.undet.get r.val = 0 ∧ t.chip.faultQ = s.chip.faultQ ∧ t.chip.outbox = s.chip.outbox ∧
      Keeps s t (fun o => o == WMON.STAT r.val || span 0x1d000 0x1d800 o))

/-- DUTY_WORD_ARRIVE, DISCARD_LIMIT, CMPB_WRITE and PWM_RELOAD (R25, R27, R49, R76, R123 to R131). -/
def Obligations.DutyWordsReachTheGenerators : Prop :=
  (∀ (s : State) (d : DieId) (n : LoopId) (w : LaneWord) (rest : List CtlWord) (settled : BitVec 224), s.chip.dieOn (d.val + 1) = true → s.chip.lanes.get (32 * (d.val + 1) + n.val) = .duty w :: rest → s.chip.laneNext (d.val + 1) n.val = some n.val →
    ∃ t, Machine.exec (.dutyWordArrive d n ⟨false, settled⟩) s = .next t ∧ Recorded s.chip t.chip (LINK.LINKSTAT_ERRF (d.val + 1)) (LINK.LINKSTAT_CWERR (d.val + 1)) ∧
      Effect s t (fun c => { c with lanes := c.lanes.set (32 * (d.val + 1) + n.val) rest, laneTurn := c.laneTurn.set (8 * (d.val + 1) + n.val % 8) ((n.val / 8 + 1) % 4), discards := c.discards.upd (32 * (d.val + 1) + n.val) fun k => min 3 (k + 1) })
        [LINK.LINKSTAT_ERRF (d.val + 1), LINK.LINKSTAT_CWERR (d.val + 1)] [0x19 + d.val] [] []) ∧
  (∀ (s : State) (d : DieId) (n : LoopId) (w : LaneWord) (rest : List CtlWord) (settled : BitVec 224), s.chip.dieOn (d.val + 1) = true → s.chip.lanes.get (32 * (d.val + 1) + n.val) = .duty w :: rest → s.chip.laneNext (d.val + 1) n.val = some n.val → w.fixed = true →
    ∃ t, Machine.exec (.dutyWordArrive d n ⟨true, settled⟩) s = .next t ∧
      Effect s t (fun c => { c with lanes := c.lanes.set (32 * (d.val + 1) + n.val) rest, laneTurn := c.laneTurn.set (8 * (d.val + 1) + n.val % 8) ((n.val / 8 + 1) % 4), discards := c.discards.set (32 * (d.val + 1) + n.val) 0, holds := c.holds.set (32 * (d.val + 1) + n.val) (some w) }) [] [] [] []) ∧
  (∀ (s : State) (d : DieId) (n : LoopId) (p : PhaseId) (w : LaneWord) (rest : List CtlWord) (settled : BitVec 224), s.chip.dieOn (d.val + 1) = true → s.chip.lanes.get (32 * (d.val + 1) + n.val) = .duty w :: rest → s.chip.laneNext (d.val + 1) n.val = some n.val → w.fixed = false →
    w.tag ∈ [0, 2, 3] → p.val / 32 = d.val → s.chip.owner p.val = some n.val → s.chip.get (PWM.CTRL_EN p.val) = 1 → ∃ t, Machine.exec (.dutyWordArrive d n ⟨true, settled⟩) s = .next t ∧
      t.chip.lanes.get (32 * (d.val + 1) + n.val) = rest ∧ t.chip.get (PWM.SHDW_TAG p.val) = w.tag ∧
      t.chip.get (PWM.SHDW_D p.val) = (min (max (rne ((w.duty * s.chip.genPeriod p.val : Nat) : Int) (2 ^ 20) + s.chip.getS (PHS.TRIM_TRIM p.val)) 0) (s.chip.genPeriod p.val : Nat)).toNat ∧
      t.chip.faultQ = s.chip.faultQ ∧ t.chip.outbox = s.chip.outbox ∧ Keeps s t (fun o => onDies o && decide (o % 0x40 = 0x10))) ∧
  (∀ (s : State) (d : DieId) (n : LoopId) (good : Bool) (settled : BitVec 224), s.chip.laneNext (d.val + 1) n.val ≠ some n.val → ∃ t, Machine.exec (.dutyWordArrive d n ⟨good, settled⟩) s = .next t ∧ t = s) ∧
  (∀ (s : State) (d : DieId) (n : LoopId), 3 ≤ s.chip.discards.get (32 * (d.val + 1) + n.val) → ∃ t, Machine.exec (.discardLimit d n) s = .next t ∧
      Effect s t (fun c => { c with discards := c.discards.set (32 * (d.val + 1) + n.val) 0 }) [] [] [⟨0x4010, d.val + 1, 0⟩] []) ∧
  (∀ (s : State) (req : Requester) (p : PhaseId) (value : Word), s.chip.reaches req (PWM.CMPB p.val) = true → s.chip.get (PWM.CTRL_MOD p.val) = 3 → ∃ t, Machine.exec (.cmpbWrite req p value) s = .next t ∧
      (t.chip.gens.get p.val).cmpPair = some ((s.chip.gens.get p.val).cmpA, wordField value 0 22) ∧
      Effect s t (fun c => c.genUpd p.val fun g => { g with cmpPair := some (g.cmpA, wordField value 0 22) }) [] [] [] []) ∧
  (∀ (s : State) (p : PhaseId) (cmp cmp2 : Bool), s.chip.genRuns p.val = true → s.chip.single p.val = true → (s.chip.gens.get p.val).shedOff = false → (s.chip.gens.get p.val).go = true →
    s.chip.get (PWM.CTRL_MOD p.val) ≠ 3 → s.chip.get (PWM.SHDW_D p.val) ≤ s.chip.genPeriod p.val → ∃ t, Machine.exec (.pwmReload p cmp cmp2) s = .next t ∧
      t.chip.get (PWM.DUTY_D p.val) = s.chip.get (PWM.SHDW_D p.val) ∧ t.chip.get (PWM.DUTY_TAG p.val) = s.chip.get (PWM.SHDW_TAG p.val) ∧
      (s.chip.get (PWM.CTRL_MOD p.val) = 0 → (t.chip.gens.get p.val).on = 0 ∧ (t.chip.gens.get p.val).off = s.chip.get (PWM.SHDW_D p.val)) ∧
      (s.chip.get (PWM.CTRL_MOD p.val) = 1 → (t.chip.gens.get p.val).on = s.chip.genPeriod p.val - s.chip.get (PWM.SHDW_D p.val) ∧ (t.chip.gens.get p.val).off = s.chip.genPeriod p.val) ∧
      (s.chip.get (PWM.CTRL_MOD p.val) = 2 → (t.chip.gens.get p.val).on = s.chip.genPeriod p.val / 2 - s.chip.get (PWM.SHDW_D p.val) / 2 ∧
        (t.chip.gens.get p.val).off = s.chip.genPeriod p.val / 2 - s.chip.get (PWM.SHDW_D p.val) / 2 + s.chip.get (PWM.SHDW_D p.val)) ∧
      (t.chip.gens.get p.val).run = true ∧ (t.chip.gens.get p.val).fired = 0 ∧ t.chip.get (CMP.PKSTAT_THR p.val) = s.chip.get (CMP.PKCFG_START p.val) ∧
      t.chip.faultQ = s.chip.faultQ ∧ t.chip.outbox = s.chip.outbox ∧ Keeps s t (fun o => phaseRegs p.val o || (s.chip.owner p.val).any fun n => o == PHSL.STATUS n)) ∧
  (∀ (s : State) (p : PhaseId) (cmp cmp2 : Bool) (a b : Nat), s.chip.genRuns p.val = true → s.chip.single p.val = true → (s.chip.gens.get p.val).shedOff = false → s.chip.get (PWM.CTRL_MOD p.val) = 3 →
    (s.chip.gens.get p.val).cmpPair = some (a, b) → a < 2 ^ 22 → b < 2 ^ 22 → ∃ t, Machine.exec (.pwmReload p cmp cmp2) s = .next t ∧
      t.chip.get (PWM.CMPA_ON p.val) = a ∧ t.chip.get (PWM.CMPB_OFF p.val) = b ∧ (t.chip.gens.get p.val).on = a ∧ (t.chip.gens.get p.val).off = b ∧ (t.chip.gens.get p.val).cmpPair = none ∧
      t.chip.get (PWM.DUTY_TAG p.val) = (if s.chip.get (PWM.CTRL_ENSNK p.val) = 1 then 0 else 3) ∧ Keeps s t (fun o => phaseRegs p.val o || (s.chip.owner p.val).any fun n => o == PHSL.STATUS n))

/-- PWM_EDGE, BOOTSTRAP_REFRESH and TRIGGER_FIRE (R127, R128, R133, R134, R212). -/
def Obligations.OutputsFollowTheirWindow : Prop :=
  (∀ (s : State) (p : PhaseId), s.chip.genRuns p.val = true → s.chip.genHeld p.val = false → s.chip.single p.val = true → s.chip.untripped p.val = true → (s.chip.gens.get p.val).stage = .pre →
    (s.chip.gens.get p.val).on ≠ 0 → (s.chip.gens.get p.val).on < (s.chip.gens.get p.val).off → ∃ t, Machine.exec (.pwmEdge p .on) s = .next t ∧ t.chip.get (PWM.OUT_LEVEL p.val) = 2 ∧
      Effect s t (fun c => c.genUpd p.val fun g => { g with stage := .rise }) [PWM.OUT_LEVEL p.val, PWM.TRIPST_TRIPPED p.val] [] [] []) ∧
  (∀ (s : State) (p : PhaseId), s.chip.genRuns p.val = true → s.chip.genHeld p.val = false → s.chip.single p.val = true → s.chip.untripped p.val = true → (s.chip.gens.get p.val).stage = .rise →
    (s.chip.gens.get p.val).on + s.chip.get (PWM.DEADT_DTR p.val) < (s.chip.gens.get p.val).off → ∃ t, Machine.exec (.pwmEdge p .onDtr) s = .next t ∧ t.chip.get (PWM.OUT_LEVEL p.val) = 1 ∧
      Effect s t (fun c => c.genUpd p.val fun g => { g with stage := .high }) [PWM.OUT_LEVEL p.val, PWM.TRIPST_TRIPPED p.val] [] [] []) ∧
  (∀ (s : State) (p : PhaseId), s.chip.genRuns p.val = true → s.chip.genHeld p.val = false → s.chip.single p.val = true → s.chip.untripped p.val = true → (s.chip.gens.get p.val).stage = .rise →
    (s.chip.gens.get p.val).off ≤ (s.chip.gens.get p.val).on + s.chip.get (PWM.DEADT_DTR p.val) → ∃ t, Machine.exec (.pwmEdge p .onDtr) s = .next t ∧ t.chip.get (PWM.OUT_LEVEL p.val) = 2) ∧
  (∀ (s : State) (p : PhaseId), s.chip.genRuns p.val = true → s.chip.genHeld p.val = false → s.chip.single p.val = true → s.chip.untripped p.val = true → (s.chip.gens.get p.val).stage = .high →
    (s.chip.gens.get p.val).off < s.chip.genPeriod p.val → (s.chip.gens.get p.val).shedOff = false → ∃ t, Machine.exec (.pwmEdge p .off) s = .next t ∧ t.chip.get (PWM.OUT_LEVEL p.val) = 2 ∧
      bitAt (t.chip.get (PWM.TRIPST_ACT p.val)) 2 = false ∧ t.chip.get (CMP.PKSTAT_THR p.val) = s.chip.get (CMP.PKCFG_START p.val) ∧
      Effect s t (fun c => c.genUpd p.val fun g => { g with stage := .fall }) [PWM.OUT_LEVEL p.val, PWM.TRIPST_TRIPPED p.val, PWM.TRIPST_ACT p.val, CMP.PKSTAT_THR p.val] [] [] []) ∧
  (∀ (s : State) (p : PhaseId), s.chip.genRuns p.val = true → s.chip.genHeld p.val = false → s.chip.single p.val = true → s.chip.untripped p.val = true → (s.chip.gens.get p.val).stage = .fall →
    ∃ t, Machine.exec (.pwmEdge p .offDtf) s = .next t ∧
      t.chip.get (PWM.OUT_LEVEL p.val) = (if (s.chip.gens.get p.val).noSink = true ∨ (s.chip.gens.get p.val).soft = true then 2 else 0) ∧
      Effect s t (fun c => c.genUpd p.val fun g => { g with stage := .post, tdead := false }) [PWM.OUT_LEVEL p.val, PWM.TRIPST_TRIPPED p.val] [] [] []) ∧
  (∀ (s : State) (p : PhaseId), s.chip.genRuns p.val = true → s.chip.genHeld p.val = false → s.chip.single p.val = true → s.chip.untripped p.val = true → (s.chip.gens.get p.val).refDue = true →
    (s.chip.gens.get p.val).stage = .high → ∃ t, Machine.exec (.bootstrapRefresh p false) s = .next t ∧ t.chip.get (PWM.OUT_LEVEL p.val) = 2 ∧
      Effect s t (fun c => c.genUpd p.val fun g => { g with stage := .refHz }) [PWM.OUT_LEVEL p.val, PWM.TRIPST_TRIPPED p.val] [] [] []) ∧
  (∀ (s : State) (p : PhaseId), s.chip.genRuns p.val = true → s.chip.genHeld p.val = false → s.chip.single p.val = true → s.chip.untripped p.val = true → (s.chip.gens.get p.val).refDue = true →
    ∃ t, Machine.exec (.bootstrapRefresh p true) s = .next t ∧ t.chip.get (PWM.OUT_LEVEL p.val) = 0 ∧ t.chip.get (PWM.EVCNT_BOOTCNT p.val) = counted s.chip (PWM.EVCNT_BOOTCNT p.val) ∧
      Effect s t (fun c => c.genUpd p.val fun g => { g with stage := .refLow, boot := 0, refDue := false }) [PWM.OUT_LEVEL p.val, PWM.TRIPST_TRIPPED p.val, PWM.EVCNT_BOOTCNT p.val] [] [] []) ∧
  (∀ (s : State) (p : PhaseId) (k : Fin 2), s.chip.trigMay p.val k.val = true → ∃ t, Machine.exec (.triggerFire p k false) s = .next t ∧
      Effect s t (fun c => { c with gens := c.gens.upd p.val fun g => { g with fired := setBitAt g.fired k.val true, carried := setBitAt g.carried k.val false }, phases := c.phases.upd p.val fun h => { h with convs := h.convs ++ [(k.val, false)] } }) [] [] [] []) ∧
  (∀ (s : State) (p : PhaseId) (k : Fin 2), s.chip.trigMay p.val k.val = true → (s.chip.phases.get p.val).iadcWait = none → ∃ t, Machine.exec (.triggerFire p k true) s = .next t ∧
      Effect s t (fun c => { c with gens := c.gens.upd p.val fun g => { g with fired := setBitAt g.fired k.val true, carried := setBitAt g.carried k.val false }, phases := c.phases.upd p.val fun h => { h with iadcWait := some k.val } }) [] [] [] []) ∧
  (∀ (s : State) (p : PhaseId) (k : Fin 2) (j : Nat), s.chip.trigMay p.val k.val = true → (s.chip.phases.get p.val).iadcWait = some j → ∃ t, Machine.exec (.triggerFire p k true) s = .next t ∧
      Recorded s.chip t.chip (IADC.EVT_COLF p.val) (IADC.EVTCNT_COLCNT p.val) ∧
      Effect s t (fun c => { c with gens := c.gens.upd p.val fun g => { g with fired := setBitAt g.fired k.val true, carried := setBitAt g.carried k.val false } })
        [IADC.EVT_COLF p.val, IADC.EVTCNT_COLCNT p.val] [0x420 + 0x80 * (p.val / 32) + p.val % 32] [] [])

/-- TRIP_PIN_CHANGE, PEAK_CURRENT_TRIP and TRIP_CLEAR (R137 to R141, R240). -/
def Obligations.TripsStopTheOutput : Prop :=
  (∀ (s : State) (d : DieId) (pin : Fin 8) (p : PhaseId), s.chip.dieOn (d.val + 1) = true → p.val / 32 = d.val → s.chip.single p.val = true → bitAt (s.chip.get (PWM.TRIPEN_PINEN p.val)) pin.val = true →
    wordField (s.chip.reg (PWMP.TPIN (d.val + 1))) (4 * pin.val + 3) 1 = 1 → s.chip.get (PWM.TRIPST_LAT p.val) = 0 → ∃ t, Machine.exec (.tripPinChange d pin true) s = .next t ∧
      bitAt (t.chip.get (PWMP.TPSTAT_LVL (d.val + 1))) pin.val = true ∧ bitAt (t.chip.get (PWM.TRIPST_LAT p.val)) (3 + pin.val) = true ∧
      t.chip.get (PWM.TRIPST_TRIPF p.val) = 1 ∧ t.chip.get (PWM.TRIPST_TRIPPED p.val) = 1 ∧ (s.chip.get (PWM.TRIPEN_TSTATE p.val) = 0 → t.chip.get (PWM.OUT_LEVEL p.val) = 2) ∧
      t.chip.faultQ = s.chip.faultQ ∧ t.chip.outbox = s.chip.outbox ∧ Keeps s t (fun o => span (0x100000 + 0x20000 * d.val) (0x100808 + 0x20000 * d.val) o)) ∧
  (∀ (s : State) (d : DieId) (pin : Fin 8) (p : PhaseId), s.chip.dieOn (d.val + 1) = true → p.val / 32 = d.val → s.chip.single p.val = true → s.chip.get (PWM.TRIPST_LAT p.val) = 0 →
    s.chip.domOn .core = true → (s.chip.dies.get (d.val + 1)).tripWire = false → s.chip.get (PWM.TRIPEN_WMEN p.val) = 0 → s.chip.get (PWM.TRIPEN_PKEN p.val) = 0 → s.chip.get (PWM.TRIPEN_PINEN p.val) = 2 ^ pin.val →
    ∃ t, Machine.exec (.tripPinChange d pin false) s = .next t ∧ bitAt (t.chip.get (PWMP.TPSTAT_LVL (d.val + 1))) pin.val = false ∧ t.chip.get (PWM.TRIPST_LAT p.val) = 0 ∧
      Keeps s t (fun o => span (0x100000 + 0x20000 * d.val) (0x100808 + 0x20000 * d.val) o)) ∧
  (∀ (s : State) (p : PhaseId) (ticks : Fin 4096), s.chip.dieOn (p.val / 32 + 1) = true → s.chip.single p.val = true → s.chip.genShort p.val = false → (s.chip.gens.get p.val).beganHigh = false →
    s.chip.tOn p.val + 64 * ticks.val < (s.chip.gens.get p.val).off → min 200 (s.chip.get (CMP.PKCFG_BLANK p.val)) ≤ ticks.val → ∃ t, Machine.exec (.peakCurrentTrip p ticks true) s = .next t ∧
      t.chip.get (CMP.PKSTAT_CMPOUT p.val) = 1 ∧ t.chip.get (CMP.PKSTAT_THR p.val) = s.chip.get (CMP.PKCFG_START p.val) - ticks.val * s.chip.get (CMP.PKCFG_SLOPE p.val) / 256 ∧
      bitAt (t.chip.get (PWM.TRIPST_ACT p.val)) 2 = true ∧
      (s.chip.get (PWM.TRIPEN_PKEN p.val) = 1 → s.chip.get (PWM.TRIPEN_PKMODE p.val) = 0 → (t.chip.gens.get p.val).cycPk = true) ∧
      (s.chip.get (PWM.TRIPEN_PKEN p.val) = 1 → s.chip.get (PWM.TRIPEN_PKMODE p.val) = 1 → bitAt (t.chip.get (PWM.TRIPST_LAT p.val)) 2 = true) ∧
      t.chip.faultQ = s.chip.faultQ ∧ t.chip.outbox = s.chip.outbox ∧ Keeps s t (phaseRegs p.val)) ∧
  (∀ (s : State) (p : PhaseId) (ticks : Fin 4096), s.chip.dieOn (p.val / 32 + 1) = true → s.chip.single p.val = true → ∃ t, Machine.exec (.peakCurrentTrip p ticks false) s = .next t ∧
      t.chip.get (CMP.PKSTAT_CMPOUT p.val) = 0 ∧ bitAt (t.chip.get (PWM.TRIPST_ACT p.val)) 2 = false ∧ t.chip.faultQ = s.chip.faultQ ∧ t.chip.outbox = s.chip.outbox ∧ Keeps s t (phaseRegs p.val)) ∧
  (∀ (s : State) (p : PhaseId) (ticks : Fin 4096) (out : Bool), s.chip.dieOn (p.val / 32 + 1) = true → s.chip.single p.val = true → (s.chip.gens.get p.val).beganHigh = false →
    ticks.val < min 200 (s.chip.get (CMP.PKCFG_BLANK p.val)) → ∃ t, Machine.exec (.peakCurrentTrip p ticks out) s = .next t ∧
      t.chip.get (CMP.PKSTAT_CMPOUT p.val) = out.toNat ∧ bitAt (t.chip.get (PWM.TRIPST_ACT p.val)) 2 = false ∧ Keeps s t (phaseRegs p.val)) ∧
  (∀ (s : State) (req : Requester) (p : PhaseId), s.chip.reaches req (PWM.TRIPST p.val) = true → s.chip.get (PWM.TRIPST_LAT p.val) &&& s.chip.get (PWM.TRIPST_ACT p.val) ≠ 0 →
    ∃ t, Machine.exec (.tripClear req p) s = .next t ∧ Recorded s.chip t.chip (PWM.TRIPST_RCLRF p.val) (PWM.TRIPCNT_RCLRCNT p.val) ∧
      Effect s t id [PWM.TRIPST_RCLRF p.val, PWM.TRIPCNT_RCLRCNT p.val] [0x400 + 0x80 * (p.val / 32) + p.val % 32] [] []) ∧
  (∀ (s : State) (req : Requester) (p : PhaseId), s.chip.reaches req (PWM.TRIPST p.val) = true → s.chip.single p.val = true → s.chip.get (PWM.TRIPST_LAT p.val) ≠ 0 →
    s.chip.get (PWM.TRIPST_LAT p.val) &&& s.chip.get (PWM.TRIPST_ACT p.val) = 0 → ∃ t, Machine.exec (.tripClear req p) s = .next t ∧ t.chip.get (PWM.TRIPST_LAT p.val) = 0 ∧
      (t.chip.gens.get p.val).resume.isSome = true ∧ t.chip.get (PWM.TRIPST_TRIPPED p.val) = 1 ∧ Effect s t (fun c => { c with gens := t.chip.gens }) [PWM.TRIPST_LAT p.val, PWM.OUT_LEVEL p.val, PWM.TRIPST_TRIPPED p.val] [] [] [])

/-- BALANCE_UPDATE, MEAN_ARRIVE, SHED_DWELL_EXPIRE, PHASE_IDLE_REPORT and INTERLEAVE_COMMAND (R25, R155 to R162, R539). That an instant may fall at any time while the counter does not run from TB1 is the model's choice (log entry 152). -/
def Obligations.PhasesBalanceAddAndShed : Prop :=
  (∀ (s : State) (n : LoopId), s.chip.coreRuns = true → s.chip.gridOrTb3 (gridBal n.val) (orOne (s.chip.get (PHSL.TIMING_BALINT n.val))) = true → (s.chip.loopPh.get n.val).act ≠ [] → s.chip.loopState n.val ≠ 2 → ∃ t, Machine.exec (.balanceUpdate n) s = .next t ∧
      (∀ d ∈ s.chip.loopDies n.val, (∃ p ∈ (s.chip.loopPh.get n.val).act, p / 32 + 1 = d) → t.chip.means.get (32 * d + n.val) = some (satS 18 (rne (s.chip.loopSum n.val) (s.chip.loopPh.get n.val).act.length))) ∧
      (∀ x, (s.chip.loopPh.get n.val).tableNext = some x → (t.chip.loopPh.get n.val).table = x) ∧ (t.chip.loopPh.get n.val).tableNext = none ∧
      (t.chip.loopPh.get n.val).act = (s.chip.loopPh.get n.val).act ∧ t.chip.faultQ = s.chip.faultQ ∧ t.chip.outbox = s.chip.outbox ∧
      Keeps s t (fun o => span (0x18000 + 0x40 * n.val) (0x18040 + 0x40 * n.val) o || span 0x21000 0x21400 o)) ∧
  (∀ (s : State) (n : LoopId), s.chip.gridOrTb3 (gridBal n.val) (orOne (s.chip.get (PHSL.TIMING_BALINT n.val))) = false → ∃ t, Machine.exec (.balanceUpdate n) s = .next t ∧
      t.chip.means = s.chip.means ∧ t.chip.loopPh = s.chip.loopPh ∧ t.chip.lanes = s.chip.lanes ∧ Keeps s t (fun o => span 0x21000 0x21400 o)) ∧
  (∀ (s : State) (n : LoopId) (p : Nat), s.chip.coreRuns = true → s.chip.gridOrTb3 (gridBal n.val) (orOne (s.chip.get (PHSL.TIMING_BALINT n.val))) = true → (s.chip.loopPh.get n.val).act ≠ [] → s.chip.loopState n.val = 2 → s.chip.get (PHSL.STATUS_PROC n.val) = 0 →
    s.chip.get (PHSL.CTRL_AUTO n.val) = 1 → s.chip.nextPhase n.val = some p → (((s.chip.loopPh.get n.val).act.length * s.chip.get (PHSL.THRESH_PADD n.val) : Nat) : Int) ≤ s.chip.loopSum n.val →
    ∃ t, Machine.exec (.balanceUpdate n) s = .next t ∧ t.chip.get (PHSL.STATUS_PROC n.val) = 1 ∧ (t.chip.loopPh.get n.val).procPhase = some p ∧
      p ∈ (t.chip.loopPh.get n.val).act ∧ (t.chip.loopPh.get n.val).act.length = (s.chip.loopPh.get n.val).act.length + 1 ∧
      (∀ d ∈ s.chip.loopDies n.val, (t.chip.lanes.get (32 * d + n.val)).length = (s.chip.lanes.get (32 * d + n.val)).length + 1) ∧ t.chip.faultQ = s.chip.faultQ ∧
      Keeps s t (fun o => span (0x18000 + 0x40 * n.val) (0x18040 + 0x40 * n.val) o || span 0x21000 0x21400 o)) ∧
  (∀ (s : State) (d : DieId) (n : LoopId) (p : PhaseId) (m : Int), s.chip.dieOn (d.val + 1) = true → s.chip.means.get (32 * (d.val + 1) + n.val) = some m → p.val / 32 = d.val → s.chip.owner p.val = some n.val →
    s.chip.get (PHS.STATE_ROLE p.val) = 3 → s.chip.balFrozen n.val p.val = false → ∃ t, Machine.exec (.meanArrive d n) s = .next t ∧
      t.chip.means.get (32 * (d.val + 1) + n.val) = none ∧ t.chip.get (PHSP.MEAN_MEAN (d.val + 1) n.val) = bitsOf 18 m ∧
      t.chip.getS (PHS.IAVG_IAVG p.val) = satS (PHS.IAVG_IAVG p.val).width (rne (s.chip.phases.get p.val).sampleSum (s.chip.phases.get p.val).samples) ∧
      (t.chip.phases.get p.val).acc = min (max ((s.chip.phases.get p.val).acc + rne ((s.chip.get (PHS.BAL_KB p.val) : Int) * (m - t.chip.getS (PHS.IAVG_IAVG p.val))) 16)
        (-(s.chip.get (PHS.BAL_TRMAX p.val) * 256 : Nat))) (s.chip.get (PHS.BAL_TRMAX p.val) * 256 : Nat) ∧
      t.chip.getS (PHS.TRIM_TRIM p.val) = rne (t.chip.phases.get p.val).acc 256 ∧ t.chip.get (PHS.STATE_FROZEN p.val) = 0 ∧ (t.chip.phases.get p.val).samples = 0) ∧
  (∀ (s : State) (d : DieId) (n : LoopId) (p : PhaseId) (m : Int), s.chip.dieOn (d.val + 1) = true → s.chip.means.get (32 * (d.val + 1) + n.val) = some m → p.val / 32 = d.val → s.chip.owner p.val = some n.val →
    s.chip.get (PHS.STATE_ROLE p.val) = 3 → s.chip.loopState n.val ≠ 2 ∨ s.chip.get (PHSL.CTRL_BALEN n.val) = 0 ∨ s.chip.get (PWM.TRIPST_TRIPPED p.val) = 1 → ∃ t, Machine.exec (.meanArrive d n) s = .next t ∧
      t.chip.get (PHS.STATE_FROZEN p.val) = 1 ∧ (t.chip.phases.get p.val).acc = (s.chip.phases.get p.val).acc ∧ t.chip.get (PHS.TRIM_TRIM p.val) = s.chip.get (PHS.TRIM_TRIM p.val)) ∧
  (∀ (s : State) (n : LoopId) (p x : Nat), s.chip.coreRuns = true → s.chip.loopState n.val = 2 → s.chip.get (PHSL.STATUS_PROC n.val) = 0 → s.chip.get (PHSL.CTRL_AUTO n.val) = 1 → s.chip.shedCond n.val = true →
    (s.chip.loopPh.get n.val).act.getLast? = some p → (s.chip.loopPh.get n.val).shedSince = some x → x + s.chip.get (PHSL.TIMING_PDWELL n.val) ≤ s.chip.now → ∃ t, Machine.exec (.shedDwellExpire n) s = .next t ∧
      t.chip.get (PHS.STATE_ROLE p) = 4 ∧ t.chip.get (PHSL.STATUS_PROC n.val) = 2 ∧ (t.chip.loopPh.get n.val).procPhase = some p ∧ (t.chip.loopPh.get n.val).shedSince = none ∧
      (t.chip.phases.get p).ramp = max 4 (s.chip.get (PHSL.TIMING_RAMPN n.val)) ∧ (t.chip.loopPh.get n.val).act = (s.chip.loopPh.get n.val).act ∧
      Effect s t (fun c => { c with phases := t.chip.phases, loopPh := t.chip.loopPh }) [PHS.STATE_ROLE p, PHSL.STATUS_PROC n.val] [] [] []) ∧
  (∀ (s : State) (p : PhaseId) (n : Nat), s.chip.coreRuns = true → s.chip.owner p.val = some n → s.chip.get (PHS.STATE_ROLE p.val) = 4 → (s.chip.gens.get p.val).go = false → ∃ t, Machine.exec (.phaseIdleReport p) s = .next t ∧
      Recorded s.chip t.chip (PHSL.EVT_SHEDF n) (PHSL.EVTCNT_SHEDCNT n) ∧ t.chip.get (PHSL.STATUS_PROC n) = 0 ∧ (t.chip.loopPh.get n).act = (s.chip.loopPh.get n).act.erase p.val ∧
      (t.chip.loopPh.get n).procPhase = none ∧ t.chip.faultQ = s.chip.faultQ ∧ t.chip.outbox = s.chip.outbox ∧ Keeps s t (fun o => span (0x18000 + 0x40 * n) (0x18040 + 0x40 * n) o || span 0x21000 0x21400 o)) ∧
  (∀ (s : State) (d : DieId) (n : LoopId) (p : PhaseId) (pos : Nat), s.chip.coreRuns = true → s.chip.dieOn (d.val + 1) = true → pos < 2 ^ 22 → (s.chip.phases.get p.val).lost = false → s.chip.lanes.get (32 * (d.val + 1) + n.val) = [.ilv ⟨[(p.val, pos)], [], [], false⟩] → s.chip.laneNext (d.val + 1) n.val = some n.val →
    ∃ t, Machine.exec (.interleaveCommand d n true) s = .next t ∧ t.chip.lanes.get (32 * (d.val + 1) + n.val) = [] ∧ t.chip.get (PHS.OTGT_OTGT p.val) = pos ∧ t.chip.discards.get (32 * (d.val + 1) + n.val) = 0 ∧
      t.chip.get (PWM.PHOFS_OFS p.val) = s.chip.get (PWM.PHOFS_OFS p.val) ∧ t.chip.get (PHS.STATE_ROLE p.val) = s.chip.get (PHS.STATE_ROLE p.val) ∧ t.chip.faultQ = s.chip.faultQ ∧
      Keeps s t (fun o => phaseRegs p.val o || span (0x18000 + 0x40 * n.val) (0x18040 + 0x40 * n.val) o || span 0x21000 0x21400 o)) ∧
  (∀ (s : State) (d : DieId) (n : LoopId) (p : PhaseId) (pos : Nat), s.chip.coreRuns = true → s.chip.dieOn (d.val + 1) = true → pos < 2 ^ 22 → (s.chip.phases.get p.val).lost = false → s.chip.lanes.get (32 * (d.val + 1) + n.val) = [.ilv ⟨[(p.val, pos)], [p.val], [], false⟩] → s.chip.laneNext (d.val + 1) n.val = some n.val →
    ∃ t, Machine.exec (.interleaveCommand d n true) s = .next t ∧ t.chip.lanes.get (32 * (d.val + 1) + n.val) = [] ∧ t.chip.get (PHS.OTGT_OTGT p.val) = pos ∧ t.chip.get (PWM.PHOFS_OFS p.val) = pos ∧
      t.chip.get (PHS.STATE_ROLE p.val) = 2 ∧ t.chip.get (PHS.TRIM_TRIM p.val) = 0 ∧ (t.chip.gens.get p.val).go = true ∧ (t.chip.gens.get p.val).soft = true ∧ t.chip.faultQ = s.chip.faultQ ∧
      Keeps s t (fun o => phaseRegs p.val o || span (0x18000 + 0x40 * n.val) (0x18040 + 0x40 * n.val) o || span 0x21000 0x21400 o)) ∧
  (∀ (s : State) (d : DieId) (n : LoopId) (p : PhaseId) (pos : Nat), s.chip.coreRuns = true → s.chip.dieOn (d.val + 1) = true → pos < 2 ^ 22 → (s.chip.phases.get p.val).lost = false → s.chip.lanes.get (32 * (d.val + 1) + n.val) = [.start [(p.val, pos)]] → s.chip.laneNext (d.val + 1) n.val = some n.val →
    ∃ t, Machine.exec (.interleaveCommand d n true) s = .next t ∧ t.chip.lanes.get (32 * (d.val + 1) + n.val) = [] ∧ t.chip.get (PHS.OTGT_OTGT p.val) = pos ∧ t.chip.get (PWM.PHOFS_OFS p.val) = pos ∧
      t.chip.get (PHS.STATE_ROLE p.val) = 3 ∧ t.chip.get (PHS.TRIM_TRIM p.val) = 0 ∧ (t.chip.gens.get p.val).go = true ∧ (t.chip.gens.get p.val).soft = false ∧ t.chip.faultQ = s.chip.faultQ ∧
      Keeps s t (fun o => phaseRegs p.val o || span (0x18000 + 0x40 * n.val) (0x18040 + 0x40 * n.val) o || span 0x21000 0x21400 o)) ∧
  (∀ (s : State) (d : DieId) (n : LoopId) (p : PhaseId) (rest : List CtlWord), s.chip.coreRuns = true → s.chip.dieOn (d.val + 1) = true → p.val / 32 = d.val → s.chip.owner p.val = some n.val → s.chip.lanes.get (32 * (d.val + 1) + n.val) = .stop :: rest → s.chip.laneNext (d.val + 1) n.val = some n.val →
    ∃ t, Machine.exec (.interleaveCommand d n true) s = .next t ∧ t.chip.lanes.get (32 * (d.val + 1) + n.val) = rest ∧ (t.chip.gens.get p.val).go = false ∧ (t.chip.gens.get p.val).run = false ∧
      t.chip.get (PHS.STATE_ROLE p.val) = (if (s.chip.phases.get p.val).lost = true then 5 else 1) ∧ t.chip.get (PHS.TRIM_TRIM p.val) = 0 ∧ t.chip.faultQ = s.chip.faultQ) ∧
  (∀ (s : State) (d : DieId) (n : LoopId) (cmd : IlvCmd) (rest : List CtlWord), s.chip.coreRuns = true → s.chip.dieOn (d.val + 1) = true → (∀ l : Fin 8, ∀ x ∈ (s.chip.hintHw.get l.val).hints, x.phase = .holding → x.readyIn ≠ 0xffff) → s.chip.lanes.get (32 * (d.val + 1) + n.val) = .ilv cmd :: rest → s.chip.laneNext (d.val + 1) n.val = some n.val →
    ∃ t, Machine.exec (.interleaveCommand d n false) s = .next t ∧ Recorded s.chip t.chip (LINK.LINKSTAT_ERRF (d.val + 1)) (LINK.LINKSTAT_CWERR (d.val + 1)) ∧
      Effect s t (fun c => { c with lanes := c.lanes.set (32 * (d.val + 1) + n.val) rest, laneTurn := c.laneTurn.set (8 * (d.val + 1) + n.val % 8) ((n.val / 8 + 1) % 4), discards := c.discards.upd (32 * (d.val + 1) + n.val) fun k => min 3 (k + 1) })
        [LINK.LINKSTAT_ERRF (d.val + 1), LINK.LINKSTAT_CWERR (d.val + 1)] [0x19 + d.val] [] [])

/-- SEG_TABLE_SUBMIT, SEGMENT_DECREASE_DWELL, WEAR_ROTATION, SEGMENT_RETIRE and HEALTH_MAP_FLUSH (R165 to R172). Where the rotation instants of a phase fall is the model's choice (log entry 171). -/
def Obligations.SegmentsFollowTheirTable : Prop :=
  (∀ (s : State) (req : Requester) (n : LoopId), s.chip.reaches req (SEGL.CTRL n.val) = true → s.chip.get (SEGL.BP_ITH n.val 0) = 0 →
    (∀ k ∈ List.range 7, s.chip.get (SEGL.BP_ITH n.val k) < s.chip.get (SEGL.BP_ITH n.val (k + 1)) ∧ s.chip.get (SEGL.BP_HSF n.val k) ≤ s.chip.get (SEGL.BP_HSF n.val (k + 1)) ∧
      s.chip.get (SEGL.BP_LSF n.val k) ≤ s.chip.get (SEGL.BP_LSF n.val (k + 1))) →
    (∀ k ∈ List.range 8, s.chip.get (SEGL.USEMIN_FMIN n.val) ≤ s.chip.get (SEGL.BP_HSF n.val k) ∧ s.chip.get (SEGL.BP_HSF n.val k) ≤ 256 ∧
      s.chip.get (SEGL.USEMIN_FMIN n.val) ≤ s.chip.get (SEGL.BP_LSF n.val k) ∧ s.chip.get (SEGL.BP_LSF n.val k) ≤ 256) →
    ∃ t, Machine.exec (.segTableSubmit req n) s = .next t ∧
      (t.chip.loopPh.get n.val).tableNext = some ((List.range 8).map fun k => (s.chip.get (SEGL.BP_ITH n.val k), s.chip.get (SEGL.BP_HSF n.val k), s.chip.get (SEGL.BP_LSF n.val k))) ∧
      Effect s t (fun c => c.lpUpd n.val fun h => { h with tableNext := (t.chip.loopPh.get n.val).tableNext }) [] [] [] []) ∧
  (∀ (s : State) (req : Requester) (n : LoopId), s.chip.reaches req (SEGL.CTRL n.val) = true →
    (s.chip.get (SEGL.BP_ITH n.val 0) ≠ 0 ∨ ∃ k ∈ List.range 7, s.chip.get (SEGL.BP_ITH n.val (k + 1)) ≤ s.chip.get (SEGL.BP_ITH n.val k) ∨
      s.chip.get (SEGL.BP_HSF n.val (k + 1)) < s.chip.get (SEGL.BP_HSF n.val k) ∨ s.chip.get (SEGL.BP_LSF n.val (k + 1)) < s.chip.get (SEGL.BP_LSF n.val k)) →
    ∃ t, Machine.exec (.segTableSubmit req n) s = .next t ∧ Recorded s.chip t.chip (SEGL.CTRL_TBLERRF n.val) (SEGL.CTRL_TBLERRCNT n.val) ∧
      Effect s t id [SEGL.CTRL_TBLERRF n.val, SEGL.CTRL_TBLERRCNT n.val] [0x160 + n.val] [] []) ∧
  (∀ (s : State) (p : PhaseId) (n x : Nat), s.chip.owner p.val = some n → (s.chip.phases.get p.val).lowSince = some x → s.chip.get (PHSL.STATUS_PROC n) = 0 → s.chip.get (PHS.STATE_ROLE p.val) = 3 → x + orOne (s.chip.get (SEGL.ROT_SDWELL n)) ≤ s.chip.now → ∃ t, Machine.exec (.segmentDecreaseDwell p) s = .next t ∧
      (t.chip.switches.get (2 * p.val)).wantC = (s.chip.segWanted n p.val 0 (s.chip.get (SEG.STAT_REGION p.val))).1 ∧
      (t.chip.switches.get (2 * p.val + 1)).wantC = (s.chip.segWanted n p.val 1 (s.chip.get (SEG.STAT_REGION p.val))).1 ∧ (t.chip.phases.get p.val).lowSince = none ∧
      (s.chip.get (SEGL.CTRL_SEGAUTO n) = 0 → (t.chip.switches.get (2 * p.val)).wantC = s.chip.segUsable p.val 0) ∧
      Effect s t (fun c => { c with switches := t.chip.switches, phases := t.chip.phases, stbLanes := t.chip.stbLanes }) [] [] [] []) ∧
  (∀ (s : State) (p : PhaseId) (n : Nat) (low : Bool), s.chip.owner p.val = some n → s.chip.get (PHS.STATE_ROLE p.val) ∈ [2, 3, 4] → s.chip.stagePresent p.val = true → s.chip.get (PHSL.STATUS_PROC n) ≠ 3 →
    s.chip.get (SEGL.ROT_ROTINT n) ≠ 0 → (s.chip.switches.get (2 * p.val + low.toNat)).wantC < s.chip.segUsable p.val low.toNat → s.chip.segInst p.val low.toNat ≠ 0 →
    s.chip.segCode p.val low.toNat (((s.chip.switches.get (2 * p.val + low.toNat)).wantW + orOne (s.chip.get (SEGL.CFG_ROTSTEP n))) % s.chip.segInst p.val low.toNat) ≠ 3 →
    s.chip.rotSlot n p.val (s.chip.switches.get (2 * p.val + low.toNat)).rotLast < s.chip.rotSlot n p.val s.chip.now →
    ∃ t, Machine.exec (.wearRotation p low) s = .next t ∧ wordField (t.chip.shown (SEG.STAT p.val)) 3 1 = 1 ∧
      (t.chip.switches.get (2 * p.val + low.toNat)).wantW = ((s.chip.switches.get (2 * p.val + low.toNat)).wantW + orOne (s.chip.get (SEGL.CFG_ROTSTEP n))) % s.chip.segInst p.val low.toNat ∧
      Effect s t (fun c => { c with switches := t.chip.switches, phases := t.chip.phases, stbLanes := t.chip.stbLanes }) [] [] [] []) ∧
  (∀ (s : State) (req : Requester) (p : PhaseId) (low : Bool) (first : Fin 16384) (num : Fin 32768), s.chip.reaches req (SEG.RETIRE p.val) = true → ∃ t, Machine.exec (.segmentRetire req p low first num) s = .next t ∧
      (∀ g, g < 16384 → t.chip.segCode p.val low.toNat g = if first.val ≤ g ∧ g < first.val + num.val then 3 else s.chip.segCode p.val low.toNat g) ∧
      (∀ g, g < 16384 → t.chip.segCode p.val (1 - low.toNat) g = s.chip.segCode p.val (1 - low.toNat) g) ∧
      t.chip.get (SEG.RETIRE_FIRST p.val) = first.val ∧ t.chip.get (SEG.RETIRE_NUM p.val) = num.val ∧ t.nvm = s.nvm ∧ t.pending = s.pending) ∧
  (∀ (s : State) (tile : Fin 7168), s.chip.coreRuns = true → (s.chip.dirtyTiles.get tile.val).isSome = true → (∀ j ∈ s.chip.store.jobs, j.kind ≠ .map tile.val) → ∃ t, Machine.exec (.healthMapFlush tile) s = .next t ∧
      t.chip.store.jobs = s.chip.store.jobs ++ [⟨.map, .map tile.val, mapLines tile.val ((List.range 256).map fun b => s.chip.mapBytes.get (256 * tile.val + b)), s.chip.now⟩] ∧
      t.chip.dirtyTiles = s.chip.dirtyTiles ∧ Keeps s t (fun _ => false))

/-- STAGE_FRAME_SEND, STAGE_ANSWER_TIMEOUT, STAGE_MISS_LIMIT and ENUMERATION_RESET_WAIT (R184 to R190, R198). -/
def Obligations.StageFramesAreSentAndRepeated : Prop :=
  (∀ (s : State) (d : DieId) (lane : Fin 4) (q : LaneHw) (a : Fin 8) (poll : Bool) (rest : List StbJob) (ok : BitVec 16), s.chip.dieOn (d.val + 1) = true → s.chip.get (STB.LANE_BUSY (d.val + 1) lane.val) = 0 →
    s.chip.stbLanes.get (4 * (d.val + 1) + lane.val) = q → q.cur = none → q.again = [] → q.segQ = [] → q.relay = none → q.alertQ = .stat a.val poll :: rest → ∃ t, Machine.exec (.stageFrameSend d lane ok) s = .next t ∧
      t.chip.get (STB.LANE_BUSY (d.val + 1) lane.val) = 1 ∧ bitAt (t.chip.stbLanes.get (4 * (d.val + 1) + lane.val)).seq a.val = !(bitAt q.seq a.val) ∧
      Effect s t (fun c => { c with stbLanes := c.stbLanes.set (4 * (d.val + 1) + lane.val) { q with cur := some (.stat a.val poll, (!(bitAt q.seq a.val)).toNat, 0), curPl := [0], alertQ := rest, last := 2, seq := setBitAt q.seq a.val (!(bitAt q.seq a.val)) } })
        [STB.LANE_BUSY (d.val + 1) lane.val] [] [] [.stage (d.val + 1) lane.val (stageFrame a.val 0 (!(bitAt q.seq a.val)).toNat [0])]) ∧
  (∀ (s : State) (d : DieId) (lane : Fin 4) (q : LaneHw) (a : Fin 8) (poll : Bool) (seq tries : Nat) (pl : List Byte) (ok : BitVec 16), s.chip.dieOn (d.val + 1) = true → s.chip.get (STB.LANE_BUSY (d.val + 1) lane.val) = 0 →
    s.chip.stbLanes.get (4 * (d.val + 1) + lane.val) = q → q.again = [⟨2, .stat a.val poll, seq, tries, pl⟩] → q.segQ = [] → q.relay = none → ∃ t, Machine.exec (.stageFrameSend d lane ok) s = .next t ∧
      t.chip.get (STB.LANE_BUSY (d.val + 1) lane.val) = 1 ∧
      Effect s t (fun c => { c with stbLanes := c.stbLanes.set (4 * (d.val + 1) + lane.val) { q with cur := some (.stat a.val poll, seq, tries), curPl := pl, again := [], last := 2 } })
        [STB.LANE_BUSY (d.val + 1) lane.val] [] [] [.stage (d.val + 1) lane.val (stageFrame a.val 0 seq pl)]) ∧
  (∀ (s : State) (d : DieId) (lane : Fin 4) (a : Fin 8) (rest : List StbJob) (ok : BitVec 16), s.chip.dieOn (d.val + 1) = true → s.chip.get (STB.LANE_BUSY (d.val + 1) lane.val) = 0 →
    (s.chip.stbLanes.get (4 * (d.val + 1) + lane.val)).cur = none → (s.chip.stbLanes.get (4 * (d.val + 1) + lane.val)).again = [] → (s.chip.stbLanes.get (4 * (d.val + 1) + lane.val)).relay = none → (s.chip.stbLanes.get (4 * (d.val + 1) + lane.val)).alertQ = [] →
    (s.chip.stbLanes.get (4 * (d.val + 1) + lane.val)).segQ = .reset a.val :: rest → ∃ t, Machine.exec (.stageFrameSend d lane ok) s = .next t ∧
      t.chip.get (STB.LANE_BUSY (d.val + 1) lane.val) = 0 ∧ t.chip.get (STB.STG_STATE (d.val + 1) (8 * lane.val + a.val)) = 1 ∧ t.chip.get (STB.STG_MISS (d.val + 1) (8 * lane.val + a.val)) = 0 ∧
      (t.chip.stbLanes.get (4 * (d.val + 1) + lane.val)).cur = none ∧ (t.chip.stbLanes.get (4 * (d.val + 1) + lane.val)).waitEnum = (s.chip.stbLanes.get (4 * (d.val + 1) + lane.val)).waitEnum.filter (·.1 ≠ a.val) ++ [(a.val, s.chip.now)] ∧ (t.chip.stbLanes.get (4 * (d.val + 1) + lane.val)).segQ = rest ∧
      t.chip.outbox = s.chip.outbox ++ [.stage (d.val + 1) lane.val (stageFrame a.val 0xf (!(bitAt (s.chip.stbLanes.get (4 * (d.val + 1) + lane.val)).seq a.val)).toNat [])] ∧ bitAt (t.chip.stbLanes.get (4 * (d.val + 1) + lane.val)).seq a.val = !(bitAt (s.chip.stbLanes.get (4 * (d.val + 1) + lane.val)).seq a.val) ∧ t.chip.faultQ = s.chip.faultQ ∧
      Keeps s t (fun o => o == STB.STG (d.val + 1) (8 * lane.val + a.val) || o == SEG.INST (32 * d.val + 8 * lane.val + a.val))) ∧
  (∀ (s : State) (d : DieId) (lane : Fin 4) (a : Fin 8) (poll : Bool) (seq tries : Nat), s.chip.dieOn (d.val + 1) = true → s.chip.get (STB.LANE_BUSY (d.val + 1) lane.val) = 1 → tries < 2 →
    (s.chip.stbLanes.get (4 * (d.val + 1) + lane.val)).cur = some (.stat a.val poll, seq, tries) → s.chip.get (STB.STG_STATE (d.val + 1) (8 * lane.val + a.val)) = 2 → ∃ t, Machine.exec (.stageAnswerTimeout d lane) s = .next t ∧
      t.chip.get (STB.LANE_BUSY (d.val + 1) lane.val) = 0 ∧ Recorded s.chip t.chip (STB.EVT_NOAF (d.val + 1)) (STB.LANE_NOACNT (d.val + 1) lane.val) ∧
      t.chip.get (STB.STG_MISS (d.val + 1) (8 * lane.val + a.val)) = counted s.chip (STB.STG_MISS (d.val + 1) (8 * lane.val + a.val)) ∧
      Effect s t (fun c => c.laneUpd (4 * (d.val + 1) + lane.val) fun q => { q with cur := none, again := q.again ++ [⟨q.last, .stat a.val poll, seq, tries + 1, q.curPl⟩] })
        [STB.LANE_BUSY (d.val + 1) lane.val, STB.EVT_NOAF (d.val + 1), STB.LANE_NOACNT (d.val + 1) lane.val, STB.STG_MISS (d.val + 1) (8 * lane.val + a.val)] [] [] []) ∧
  (∀ (s : State) (d : DieId) (lane : Fin 4) (a : Fin 8) (seq : Nat), s.chip.dieOn (d.val + 1) = true → s.chip.get (STB.LANE_BUSY (d.val + 1) lane.val) = 1 →
    (s.chip.stbLanes.get (4 * (d.val + 1) + lane.val)).cur = some (.fltr a.val, seq, 2) → ∃ t, Machine.exec (.stageAnswerTimeout d lane) s = .next t ∧
      t.chip.get (STB.LANE_BUSY (d.val + 1) lane.val) = 0 ∧ (t.chip.stbLanes.get (4 * (d.val + 1) + lane.val)).cur = none ∧ Recorded s.chip t.chip (STB.EVT_NOAF (d.val + 1)) (STB.LANE_NOACNT (d.val + 1) lane.val)) ∧
  (∀ (s : State) (p : PhaseId), s.chip.dieOn (p.val / 32 + 1) = true → s.chip.get (STB.STG_STATE (p.val / 32 + 1) (p.val % 32)) = 2 →
    orOne (s.chip.get (STB.CFG_MISSLIM (p.val / 32 + 1))) ≤ s.chip.get (STB.STG_MISS (p.val / 32 + 1) (p.val % 32)) → ∃ t, Machine.exec (.stageMissLimit p) s = .next t ∧
      t.chip.get (STB.STG_STATE (p.val / 32 + 1) (p.val % 32)) = 3 ∧ t.chip.get (STB.STG_REASON (p.val / 32 + 1) (p.val % 32)) = 2 ∧
      Recorded s.chip t.chip (STB.EVT_ABSF (p.val / 32 + 1)) (STB.EVTCNT_ABSCNT (p.val / 32 + 1)) ∧ (∀ j ∈ (t.chip.stbLanes.get (laneOf p.val)).segQ, j.addr ≠ p.val % 8) ∧
      (s.chip.get (PHS.ASSIGN_OWN p.val) = 0 → t.chip.faultQ = s.chip.faultQ) ∧
      (s.chip.get (PHS.ASSIGN_OWN p.val) = 1 → (s.chip.phases.get p.val).lost = false → (t.chip.phases.get p.val).lost = true ∧ ⟨0x2124, p.val, 1⟩ ∈ t.chip.faultQ) ∧ t.nvm = s.nvm ∧ t.pending = s.pending) ∧
  (∀ (s : State) (d : DieId) (lane : Fin 4), ∃ t, Machine.exec (.enumerationResetWait d lane) s = .next t ∧
      Effect s t (fun c => c.laneUpd (4 * (d.val + 1) + lane.val) fun q => { q with segQ := q.segQ ++ (q.waitEnum.filter fun x => x.2 + 100 ≤ s.chip.now).map (.ident ·.1), waitEnum := q.waitEnum.filter fun x => s.chip.now < x.2 + 100 }) [] [] [] [])

/-- STAGE_IDENT_ANSWER, STAGE_MAPW_ACK, STAGE_CNTW_ACK, STAGE_STAT_ANSWER, STAGE_FLTR_ANSWER and STAGE_RELAY_ANSWER (R186 to R199). -/
def Obligations.StageAnswersAreChecked : Prop :=
  (∀ (s : State) (d : DieId) (lane : Fin 4) (x : Fin 8) (seq : Bool) (tries : Nat) (a : StageAnswer), s.chip.dieOn (d.val + 1) = true → s.chip.get (STB.LANE_BUSY (d.val + 1) lane.val) = 1 →
    (s.chip.stbLanes.get (4 * (d.val + 1) + lane.val)).cur = some (.ident x.val, seq.toNat, tries) → a.addr.val = x.val → a.op.val = 1 → a.dir = true → a.seq = seq → a.payload.length = 16 →
    stageCrc (stageBytes a.addr.val a.op.val 1 seq.toNat a.payload) = a.crc → fieldLE a.payload 5 1 = 1 → 1 ≤ fieldLE a.payload 6 2 → fieldLE a.payload 6 2 ≤ 16384 → 1 ≤ fieldLE a.payload 8 2 → fieldLE a.payload 8 2 ≤ 16384 →
    bitAt (fieldLE a.payload 10 1) 2 = false → ∃ t, Machine.exec (.stageIdentAnswer d lane a) s = .next t ∧ t.chip.get (STB.LANE_BUSY (d.val + 1) lane.val) = 0 ∧
      t.chip.get (STB.STG_MISS (d.val + 1) (8 * lane.val + x.val)) = 0 ∧ (t.chip.phases.get (32 * d.val + 8 * lane.val + x.val)).hsn = fieldLE a.payload 6 2 ∧
      (t.chip.phases.get (32 * d.val + 8 * lane.val + x.val)).lsn = fieldLE a.payload 8 2 ∧ (t.chip.phases.get (32 * d.val + 8 * lane.val + x.val)).mapping = true ∧
      (t.chip.stbLanes.get (4 * (d.val + 1) + lane.val)).segQ.getLast? = some (.cntw x.val true true) ∧ (t.chip.stbLanes.get (4 * (d.val + 1) + lane.val)).cur = none ∧
      t.chip.faultQ = s.chip.faultQ ∧ t.chip.outbox = s.chip.outbox ∧ Keeps s t (fun o => o == STB.LANE (d.val + 1) lane.val || o == STB.STG (d.val + 1) (8 * lane.val + x.val))) ∧
  (∀ (s : State) (d : DieId) (lane : Fin 4) (x : Fin 8) (sw ck : Nat) (fill : Option (Nat × Nat)) (seq : Bool) (tries : Nat) (a : StageAnswer), s.chip.dieOn (d.val + 1) = true → s.chip.get (STB.LANE_BUSY (d.val + 1) lane.val) = 1 →
    (s.chip.stbLanes.get (4 * (d.val + 1) + lane.val)).cur = some (.mapw x.val sw ck fill, seq.toNat, tries) → a.addr.val = x.val → a.op.val = 2 → a.dir = true → a.seq = seq → a.payload.length = 2 →
    stageCrc (stageBytes a.addr.val a.op.val 1 seq.toNat a.payload) = a.crc → fieldLE a.payload 0 1 = 0 → ∃ t, Machine.exec (.stageMapwAck d lane a) s = .next t ∧
      t.chip.get (STB.LANE_BUSY (d.val + 1) lane.val) = 0 ∧ t.chip.get (STB.STG_MISS (d.val + 1) (8 * lane.val + x.val)) = 0 ∧
      Effect s t (fun c => c.laneUpd (4 * (d.val + 1) + lane.val) fun q => { q with cur := none }) [STB.LANE_BUSY (d.val + 1) lane.val, STB.STG_MISS (d.val + 1) (8 * lane.val + x.val)] [] [] []) ∧
  (∀ (s : State) (d : DieId) (lane : Fin 4) (x : Fin 8) (sw ck : Nat) (fill : Option (Nat × Nat)) (seq : Bool) (a : StageAnswer), s.chip.dieOn (d.val + 1) = true → s.chip.get (STB.LANE_BUSY (d.val + 1) lane.val) = 1 →
    (s.chip.stbLanes.get (4 * (d.val + 1) + lane.val)).cur = some (.mapw x.val sw ck fill, seq.toNat, 1) → s.chip.get (STB.STG_STATE (d.val + 1) (8 * lane.val + x.val)) ≠ 2 →
    stageCrc (stageBytes a.addr.val a.op.val a.dir.toNat a.seq.toNat a.payload) ≠ a.crc → ∃ t, Machine.exec (.stageMapwAck d lane a) s = .next t ∧
      t.chip.get (STB.LANE_BUSY (d.val + 1) lane.val) = 0 ∧ Recorded s.chip t.chip (STB.EVT_CRCF (d.val + 1)) (STB.LANE_CRCCNT (d.val + 1) lane.val) ∧
      Effect s t (fun c => c.laneUpd (4 * (d.val + 1) + lane.val) fun q => { q with cur := none, again := q.again ++ [⟨q.last, .mapw x.val sw ck fill, seq.toNat, 2, q.curPl⟩] })
        [STB.LANE_BUSY (d.val + 1) lane.val, STB.EVT_CRCF (d.val + 1), STB.LANE_CRCCNT (d.val + 1) lane.val] [] [] []) ∧
  (∀ (s : State) (d : DieId) (lane : Fin 4) (x : Fin 8) (hs ls : Bool) (seq : Bool) (tries : Nat) (a : StageAnswer) (cw : Nat × Nat × Nat), s.chip.dieOn (d.val + 1) = true → s.chip.get (STB.LANE_BUSY (d.val + 1) lane.val) = 1 →
    (s.chip.stbLanes.get (4 * (d.val + 1) + lane.val)).cur = some (.cntw x.val hs ls, seq.toNat, tries) → a.addr.val = x.val → a.op.val = 3 → a.dir = true → a.seq = seq → a.payload.length = 2 →
    stageCrc (stageBytes a.addr.val a.op.val 1 seq.toNat a.payload) = a.crc → fieldLE a.payload 0 1 = 0 → bitAt (fieldLE a.payload 1 1) 0 = true → (s.chip.phases.get (32 * d.val + 8 * lane.val + x.val)).mapping = false →
    (s.chip.switches.get (2 * (32 * d.val + 8 * lane.val + x.val))).sent = some cw → cw.1 < 2 ^ 15 → cw.2.1 < 2 ^ 15 → ∃ t, Machine.exec (.stageCntwAck d lane a) s = .next t ∧ t.chip.get (STB.LANE_BUSY (d.val + 1) lane.val) = 0 ∧
      t.chip.get (SEG.ACT_HS (32 * d.val + 8 * lane.val + x.val)) = cw.1 ∧ t.chip.get (SEG.WIN_HS (32 * d.val + 8 * lane.val + x.val)) = cw.2.1 ∧
      (t.chip.switches.get (2 * (32 * d.val + 8 * lane.val + x.val))).sent = none ∧ t.chip.faultQ = s.chip.faultQ ∧ t.chip.outbox = s.chip.outbox ∧
      Keeps s t (fun o => o == STB.LANE (d.val + 1) lane.val || o == STB.STG (d.val + 1) (8 * lane.val + x.val) || phaseRegs (32 * d.val + 8 * lane.val + x.val) o || span 0x21000 0x21400 o)) ∧
  (∀ (s : State) (d : DieId) (lane : Fin 4) (x : Fin 8) (poll seq : Bool) (tries : Nat) (a : StageAnswer), s.chip.dieOn (d.val + 1) = true → s.chip.get (STB.LANE_BUSY (d.val + 1) lane.val) = 1 →
    (s.chip.stbLanes.get (4 * (d.val + 1) + lane.val)).cur = some (.stat x.val poll, seq.toNat, tries) → a.addr.val = x.val → a.op.val = 0 → a.dir = true → a.seq = seq → a.payload.length = 8 →
    stageCrc (stageBytes a.addr.val a.op.val 1 seq.toNat a.payload) = a.crc → bitAt (fieldLE a.payload 0 1) 3 = false → fieldLE a.payload 1 1 % 32 = s.chip.get (STB.STG_SFLT (d.val + 1) (8 * lane.val + x.val)) →
    ∃ t, Machine.exec (.stageStatAnswer d lane a) s = .next t ∧ t.chip.get (STB.LANE_BUSY (d.val + 1) lane.val) = 0 ∧ t.chip.get (STB.STG_MISS (d.val + 1) (8 * lane.val + x.val)) = 0 ∧
      t.chip.getS (STB.STG_TEMP (d.val + 1) (8 * lane.val + x.val)) = satS 12 (signedOf 16 (fieldLE a.payload 4 2)) ∧
      t.chip.get (STB.STG_SFLT (d.val + 1) (8 * lane.val + x.val)) = s.chip.get (STB.STG_SFLT (d.val + 1) (8 * lane.val + x.val)) ∧ t.chip.faultQ = s.chip.faultQ ∧ t.chip.outbox = s.chip.outbox ∧ t.nvm = s.nvm ∧ t.pending = s.pending) ∧
  (∀ (s : State) (d : DieId) (lane : Fin 4) (x : Fin 8) (seq : Bool) (tries : Nat) (a : StageAnswer), s.chip.dieOn (d.val + 1) = true → s.chip.get (STB.LANE_BUSY (d.val + 1) lane.val) = 1 →
    (s.chip.stbLanes.get (4 * (d.val + 1) + lane.val)).cur = some (.fltr x.val, seq.toNat, tries) → a.addr.val = x.val → a.op.val = 4 → a.dir = true → a.seq = seq → a.payload.length = 18 →
    stageCrc (stageBytes a.addr.val a.op.val 1 seq.toNat a.payload) = a.crc → fieldLE a.payload 0 1 = 0 → s.chip.get (STB.LANE_ALERT (d.val + 1) lane.val) = 0 → ∃ t, Machine.exec (.stageFltrAnswer d lane a) s = .next t ∧
      t.chip.get (STB.LANE_BUSY (d.val + 1) lane.val) = 0 ∧ t.chip.get (STB.STG_MISS (d.val + 1) (8 * lane.val + x.val)) = 0 ∧
      Effect s t (fun c => c.laneUpd (4 * (d.val + 1) + lane.val) fun q => { q with cur := none, pops := q.pops.set x.val 0 }) [STB.LANE_BUSY (d.val + 1) lane.val, STB.STG_MISS (d.val + 1) (8 * lane.val + x.val)] [] [] []) ∧
  (∀ (s : State) (d : DieId) (lane : Fin 4) (x : Fin 8) (op : Nat) (pl : List Byte) (seq : Bool) (tries : Nat) (a : StageAnswer), s.chip.dieOn (d.val + 1) = true → s.chip.get (STB.LANE_BUSY (d.val + 1) lane.val) = 1 →
    (s.chip.stbLanes.get (4 * (d.val + 1) + lane.val)).cur = some (.relay x.val op pl, seq.toNat, tries) → a.addr.val = x.val → a.op.val = op → a.dir = true → a.seq = seq → a.payload.length ≤ 36 →
    stageCrc (stageBytes a.addr.val a.op.val 1 seq.toNat a.payload) = a.crc → ∃ t, Machine.exec (.stageRelayAnswer d lane a) s = .next t ∧
      t.chip.get (STB.LANE_BUSY (d.val + 1) lane.val) = 0 ∧ t.chip.get (STB.RLYCTL_STATUS (d.val + 1)) = 2 ∧ Recorded s.chip t.chip (STB.RLYCTL_DONEF (d.val + 1)) (STB.RLYCTL_RLYCNT (d.val + 1)) ∧
      t.chip.get (STB.RLYRSPH_RSPOP (d.val + 1)) = op ∧ t.chip.get (STB.RLYRSPH_RSPLEN (d.val + 1)) = a.payload.length ∧
      (∀ k ∈ List.range 9, t.chip.reg (STB.RLYRSP (d.val + 1) k) = BitVec.ofNat 32 (fieldLE a.payload (4 * k) 4)) ∧ t.chip.faultQ = s.chip.faultQ ∧ t.chip.outbox = s.chip.outbox ∧
      Keeps s t (fun o => span (0x103000 + 0x20000 * d.val) (0x103164 + 0x20000 * d.val) o))

/-- STAGE_ALERT, STAGE_POLL, ALERT_STUCK, ALERT_LINE_RELEASE and RELAY_SEND (R196, R199, R205). -/
def Obligations.StageAlertsPollsAndRelays : Prop :=
  (∀ (s : State) (d : DieId) (lane : Fin 4), s.chip.dieOn (d.val + 1) = true → s.chip.get (STB.LANE_ALERT (d.val + 1) lane.val) = 0 → ∃ t, Machine.exec (.stageAlert d lane) s = .next t ∧
      t.chip.get (STB.LANE_ALERT (d.val + 1) lane.val) = 1 ∧ (t.chip.stbLanes.get (4 * (d.val + 1) + lane.val)).quiet = 0 ∧
      ((∃ a ∈ List.range 8, s.chip.get (STB.STG_STATE (d.val + 1) (8 * lane.val + a)) = 2) → s.chip.get (STB.LANE_ALIGN (d.val + 1) lane.val) = 0 →
        (t.chip.stbLanes.get (4 * (d.val + 1) + lane.val)).alertQ ≠ [] ∨ (t.chip.stbLanes.get (4 * (d.val + 1) + lane.val)).again ≠ [] ∨ (t.chip.stbLanes.get (4 * (d.val + 1) + lane.val)).cur ≠ none) ∧
      Effect s t (fun c => { c with stbLanes := t.chip.stbLanes }) [STB.LANE_ALERT (d.val + 1) lane.val] [] [] []) ∧
  (∀ (s : State) (p : PhaseId), s.chip.dieOn (p.val / 32 + 1) = true → s.chip.get (STB.STG_STATE (p.val / 32 + 1) (p.val % 32)) = 2 →
    s.chip.pollDue.get p.val + 10 * orOne (s.chip.get (STB.CFG_POLLINT (p.val / 32 + 1))) ≤ s.chip.now → ∃ t, Machine.exec (.stagePoll p) s = .next t ∧
      (t.chip.stbLanes.get (laneOf p.val)).alertQ = (s.chip.stbLanes.get (laneOf p.val)).alertQ ++ [.stat (p.val % 8) true] ∧ t.chip.pollDue.get p.val = s.chip.now ∧
      Effect s t (fun c => { c with pollDue := c.pollDue.set p.val c.now, stbLanes := t.chip.stbLanes }) [] [] [] []) ∧
  (∀ (s : State) (d : DieId) (lane : Fin 4), s.chip.dieOn (d.val + 1) = true → s.chip.get (STB.LANE_ALERT (d.val + 1) lane.val) = 1 → s.chip.get (STB.LANE_ALIGN (d.val + 1) lane.val) = 0 →
    s.chip.lanePresent (d.val + 1) lane.val ≠ [] → orOne (s.chip.get (STB.CFG_ALSTUCK (d.val + 1))) * (s.chip.lanePresent (d.val + 1) lane.val).length ≤ (s.chip.stbLanes.get (4 * (d.val + 1) + lane.val)).quiet →
    ∃ t, Machine.exec (.alertStuck d lane) s = .next t ∧ t.chip.get (STB.LANE_ALIGN (d.val + 1) lane.val) = 1 ∧ Recorded s.chip t.chip (STB.EVT_STUCKF (d.val + 1)) (STB.EVTCNT_STUCKCNT (d.val + 1)) ∧
      Effect s t (fun c => { c with stbLanes := t.chip.stbLanes }) [STB.LANE_ALIGN (d.val + 1) lane.val, STB.EVT_STUCKF (d.val + 1), STB.EVTCNT_STUCKCNT (d.val + 1)] [0x440 + 0x80 * d.val] [⟨0x2141, 4 * d.val + lane.val, 0⟩] []) ∧
  (∀ (s : State) (d : DieId) (lane : Fin 4), ∃ t, Machine.exec (.alertLineRelease d lane) s = .next t ∧ t.chip.get (STB.LANE_ALERT (d.val + 1) lane.val) = 0 ∧ t.chip.get (STB.LANE_ALIGN (d.val + 1) lane.val) = 0 ∧
      Effect s t (fun c => { c with stbLanes := t.chip.stbLanes }) [STB.LANE_ALERT (d.val + 1) lane.val, STB.LANE_ALIGN (d.val + 1) lane.val] [] [] []) ∧
  (∀ (s : State) (req : Requester) (d : DieId) (op : Fin 16) (len : Fin 64) (lane : Fin 4) (addr : Fin 16), s.chip.reaches req (STB.RLYCTL (d.val + 1)) = true → s.chip.get (STB.RLYCTL_STATUS (d.val + 1)) ≠ 1 →
    op.val ∈ [1, 6, 8, 9, 10, 11, 12, 13] → addr.val < 8 → s.chip.get (STB.STG_STATE (d.val + 1) (8 * lane.val + addr.val)) = 2 → ∃ t, Machine.exec (.relaySend req d op len lane addr) s = .next t ∧
      t.chip.get (STB.RLYCTL_STATUS (d.val + 1)) = 1 ∧ (t.chip.stbLanes.get (4 * (d.val + 1) + lane.val)).relay =
        some (.relay addr.val op.val (((List.range 9).flatMap fun k => bytesLE 4 (s.chip.reg (STB.RLYREQ (d.val + 1) k)).toNat).take len.val)) ∧
      Effect s t (fun c => { c with stbLanes := t.chip.stbLanes }) [STB.RLYCTL_OP (d.val + 1), STB.RLYCTL_LEN (d.val + 1), STB.RLYCTL_LANE (d.val + 1), STB.RLYCTL_ADDR (d.val + 1), STB.RLYCTL_STATUS (d.val + 1)] [] [] []) ∧
  (∀ (s : State) (req : Requester) (d : DieId) (op : Fin 16) (len : Fin 64) (lane : Fin 4) (addr : Fin 16), s.chip.reaches req (STB.RLYCTL (d.val + 1)) = true → s.chip.get (STB.RLYCTL_STATUS (d.val + 1)) ≠ 1 →
    op.val ∈ [2, 3, 4, 5, 7, 14, 15] → ∃ t, Machine.exec (.relaySend req d op len lane addr) s = .next t ∧ t.chip.get (STB.RLYCTL_STATUS (d.val + 1)) = 4 ∧
      Effect s t id [STB.RLYCTL_OP (d.val + 1), STB.RLYCTL_LEN (d.val + 1), STB.RLYCTL_LANE (d.val + 1), STB.RLYCTL_ADDR (d.val + 1), STB.RLYCTL_STATUS (d.val + 1)] [] [] []) ∧
  (∀ (s : State) (req : Requester) (d : DieId) (op : Fin 16) (len : Fin 64) (lane : Fin 4) (addr : Fin 16), s.chip.reaches req (STB.RLYCTL (d.val + 1)) = true → s.chip.get (STB.RLYCTL_STATUS (d.val + 1)) ≠ 1 →
    op.val ∈ [0, 1, 6, 8, 9, 10, 11, 12, 13] → 8 ≤ addr.val ∨ s.chip.get (STB.STG_STATE (d.val + 1) (8 * lane.val + addr.val)) ≠ 2 → ∃ t, Machine.exec (.relaySend req d op len lane addr) s = .next t ∧ t.chip.get (STB.RLYCTL_STATUS (d.val + 1)) = 5 ∧
      Effect s t id [STB.RLYCTL_OP (d.val + 1), STB.RLYCTL_LEN (d.val + 1), STB.RLYCTL_LANE (d.val + 1), STB.RLYCTL_ADDR (d.val + 1), STB.RLYCTL_STATUS (d.val + 1)] [] [] []) ∧
  (∀ (s : State) (req : Requester) (d : DieId) (op : Fin 16) (len : Fin 64) (lane : Fin 4) (addr : Fin 16), s.chip.reaches req (STB.RLYCTL (d.val + 1)) = true → s.chip.get (STB.RLYCTL_STATUS (d.val + 1)) = 1 →
    ∃ t, Machine.exec (.relaySend req d op len lane addr) s = .next t ∧ t.chip.get (STB.RLYCTL_STATUS (d.val + 1)) = 1 ∧
      Effect s t id [STB.RLYCTL_OP (d.val + 1), STB.RLYCTL_LEN (d.val + 1), STB.RLYCTL_LANE (d.val + 1), STB.RLYCTL_ADDR (d.val + 1)] [] [] [])

/-- IADC_RESULT and IADC_DELAYED_START (R210 to R215). -/
def Obligations.PhaseCurrentsAreConverted : Prop :=
  (∀ (s : State) (p : PhaseId) (nanovolts : Int) (k : Fin 2) (dly : Bool) (rest : List (Nat × Bool)), s.chip.dieOn (p.val / 32 + 1) = true → (s.chip.phases.get p.val).convs = (k.val, dly) :: rest →
    ∃ t, Machine.exec (.iadcResult p nanovolts) s = .next t ∧
      (k = 0 → t.chip.get (IADC.RES0_CODE p.val) = (min (max (nanovolts / 1171875) 0) 1023).toNat ∧ t.chip.get (IADC.RES0_DLY p.val) = dly.toNat ∧
        t.chip.getS (IADC.RES0_AMPS p.val) = satS 14 (rne (((t.chip.get (IADC.RES0_CODE p.val) : Int) - s.chip.get (IADC.CFG_ZERO p.val)) * s.chip.get (IADC.CFG_GAIN p.val)) 256) ∧
        (t.chip.get (IADC.RES0_SAT p.val) = 1 ↔ t.chip.get (IADC.RES0_CODE p.val) ∈ [0, 1023]) ∧ t.chip.reg (IADC.RES1 p.val) = s.chip.reg (IADC.RES1 p.val)) ∧
      (k = 1 → t.chip.get (IADC.RES1_CODE p.val) = (min (max (nanovolts / 1171875) 0) 1023).toNat ∧ t.chip.get (IADC.RES1_DLY p.val) = dly.toNat ∧
        t.chip.getS (IADC.RES1_AMPS p.val) = satS 14 (rne (((t.chip.get (IADC.RES1_CODE p.val) : Int) - s.chip.get (IADC.CFG_ZERO p.val)) * s.chip.get (IADC.CFG_GAIN p.val)) 256) ∧
        (t.chip.get (IADC.RES1_SAT p.val) = 1 ↔ t.chip.get (IADC.RES1_CODE p.val) ∈ [0, 1023]) ∧ t.chip.reg (IADC.RES0 p.val) = s.chip.reg (IADC.RES0 p.val)) ∧
      t.chip.get (IADC.CONV_COUNT p.val) = (s.chip.get (IADC.CONV_COUNT p.val) + 1) % 2 ^ 32 ∧ (t.chip.phases.get p.val).convs = rest ∧
      (s.chip.get (PHS.BAL_TSEL p.val) = k.val → (t.chip.phases.get p.val).samples = (s.chip.phases.get p.val).samples + 1) ∧
      (s.chip.get (PHS.BAL_TSEL p.val) ≠ k.val → (t.chip.phases.get p.val).samples = (s.chip.phases.get p.val).samples ∧ (t.chip.phases.get p.val).sampleSum = (s.chip.phases.get p.val).sampleSum) ∧
      (s.chip.get (IADC.CFG_SUMSEL p.val) = k.val → (t.chip.phases.get p.val).fresh = true) ∧ t.chip.faultQ = s.chip.faultQ ∧
      Keeps s t (fun o => phaseRegs p.val o || hostSide o)) ∧
  (∀ (s : State) (p : PhaseId) (k : Nat), (s.chip.phases.get p.val).iadcWait = some k → ∃ t, Machine.exec (.iadcDelayedStart p) s = .next t ∧
      Recorded s.chip t.chip (IADC.EVT_DLYF p.val) (IADC.EVTCNT_DLYCNT p.val) ∧
      Effect s t (fun c => c.phUpd p.val fun h => { h with iadcWait := none, convs := h.convs ++ [(k, true)] }) [IADC.EVT_DLYF p.val, IADC.EVTCNT_DLYCNT p.val] [0x420 + 0x80 * (p.val / 32) + p.val % 32] [] [])

/-- SQ_ENTRY_COMPLETE, SQ_PASS_START, SQ_START, SQ_STOP, SQ_INJECT_REQUEST and SQ_INJECTION_COMPLETE (R216 to R224). -/
def Obligations.ConverterSequencesRun : Prop :=
  (∀ (s : State) (x : SqId) (nv : Int) (exc : Nat) (e : Fin 16) (att : Nat) (v y : Int), s.chip.sqOn x.val = true → (s.chip.sqs.get x.val).run = .entry e.val → (s.chip.sqs.get x.val).pass = true → (s.chip.sqs.get x.val).stopped = false →
    (s.chip.sqs.get x.val).calPhase = 0 → (s.chip.sqs.get x.val).injs = [] → e.val < s.chip.get (SQ.CTRL_LASTE x.val) → s.chip.get (SQ.CTRL_MODE x.val) ≠ 0 → wordField (s.chip.sqs.get x.val).inUse.cfg 0 1 = 0 →
    inputAtt x.val (wordField (s.chip.sqs.get x.val).inUse.cfg 24 7) = some att → v = rne (nv * 2 ^ wordField (s.chip.sqs.get x.val).inUse.cfg 20 3 * 2 ^ 23) (att * 1250000000) → -0x800000 ≤ v → v ≤ 0x7fffff →
    y = rne ((v - (s.chip.sqs.get x.val).inUse.ofs) * (s.chip.sqs.get x.val).inUse.gain) (2 ^ 22) → -0x800000 ≤ y → y ≤ 0x7fffff → ∃ t, Machine.exec (.sqEntryComplete x (.input nv exc)) s = .next t ∧
      signedOf 24 (t.chip.get (SQ.RES_RESULT x.val e.val)) = y ∧
      t.chip.get (SQ.RES_SEQ x.val e.val) = s.chip.get (SQ.STAT_SEQCNT x.val) ∧ (t.chip.sqs.get x.val).run = .entry (e.val + 1) ∧ t.chip.get (SQ.STAT_CUR x.val) = e.val + 1 ∧ t.chip.get (SQ.STAT_ACT x.val) = 1 ∧
      t.chip.faultQ = s.chip.faultQ ∧ t.chip.outbox = s.chip.outbox ∧ Keeps s t (fun o => o == SQ.RES x.val e.val || o == SQ.STAT x.val)) ∧
  (∀ (s : State) (x : SqId) (pos : Bool) (e : Fin 16), s.chip.sqOn x.val = true → (s.chip.sqs.get x.val).run = .entry e.val → (s.chip.sqs.get x.val).pass = true → (s.chip.sqs.get x.val).stopped = false →
    (s.chip.sqs.get x.val).nextTile = none → (s.chip.sqs.get x.val).injs = [] → s.chip.get (SQ.CTRL_LASTE x.val) = e.val → s.chip.get (SQ.CTRL_MODE x.val) = 1 → wordField (s.chip.sqs.get x.val).inUse.cfg 0 1 = 0 → (s.chip.sqs.get x.val).calPhase = 0 →
    ∃ t, Machine.exec (.sqEntryComplete x (.overload pos)) s = .next t ∧ t.chip.get (SQ.RES_RESULT x.val e.val) = (if pos then 0x7fffff else 0x800000) ∧ bitAt (t.chip.get (SQ.OVR_OVR x.val)) e.val = true ∧
      t.chip.get ⟨SQ.OVRC x.val (e.val / 4), 8 * (e.val % 4), 8⟩ = counted s.chip ⟨SQ.OVRC x.val (e.val / 4), 8 * (e.val % 4), 8⟩ ∧
      t.chip.get (SQ.STAT_SEQCNT x.val) = (s.chip.get (SQ.STAT_SEQCNT x.val) + 1) % 256 ∧ t.chip.get (SQ.EVT_SEQF x.val) = 1 ∧ ((s.chip.sqs.get x.val).startHeld = false → (t.chip.sqs.get x.val).run = .idle ∧ t.chip.get (SQ.STAT_ACT x.val) = 0) ∧
      t.chip.faultQ = s.chip.faultQ ∧ t.chip.outbox = s.chip.outbox ∧ Keeps s t (fun o => sqRegs x.val o)) ∧
  (∀ (s : State) (x : SqId), s.chip.sqOn x.val = true → s.chip.get (SQ.CTRL_MODE x.val) = 2 → (s.chip.sqs.get x.val).stopped = false → (s.chip.sqs.get x.val).pass = false → (s.chip.sqs.get x.val).run = .idle → (s.chip.sqs.get x.val).calPhase = 0 →
    (s.chip.sqs.get x.val).injs = [] → s.chip.get (SQ.CTRL_REPINT x.val) ≠ 0 → (s.chip.sqs.get x.val).passAt + s.chip.get (SQ.CTRL_REPINT x.val) ≤ s.chip.now → ∃ t, Machine.exec (.sqPassStart x) s = .next t ∧
      (t.chip.sqs.get x.val).run = .entry 0 ∧ (t.chip.sqs.get x.val).pass = true ∧ (t.chip.sqs.get x.val).passAt = s.chip.now ∧ t.chip.get (SQ.STAT_ACT x.val) = 1 ∧ t.chip.get (SQ.STAT_CUR x.val) = 0 ∧
      Effect s t (fun c => { c with sqs := t.chip.sqs }) [SQ.STAT_ACT x.val, SQ.STAT_CUR x.val] [] [] []) ∧
  (∀ (s : State) (x : SqId), s.chip.sqOn x.val = true → s.chip.get (SQ.CTRL_MODE x.val) = 2 → (s.chip.sqs.get x.val).stopped = false → (s.chip.sqs.get x.val).pass = true → (s.chip.sqs.get x.val).slipped = false →
    s.chip.get (SQ.CTRL_REPINT x.val) ≠ 0 → (s.chip.sqs.get x.val).passAt + s.chip.get (SQ.CTRL_REPINT x.val) ≤ s.chip.now → ∃ t, Machine.exec (.sqPassStart x) s = .next t ∧
      Recorded s.chip t.chip (SQ.EVT_SLIPF x.val) (SQ.EVTCNT_SLIPCNT x.val) ∧
      Effect s t (fun c => c.sqUpd x.val fun h => { h with passAt := s.chip.now, slipped := true }) [SQ.EVT_SLIPF x.val, SQ.EVTCNT_SLIPCNT x.val] [srcSq x.val] [] []) ∧
  (∀ (s : State) (req : Requester) (x : SqId), s.chip.reaches req (SQ.CTRL x.val) = true → s.chip.get (SQ.CTRL_MODE x.val) ∈ [1, 2] → (s.chip.sqs.get x.val).stopped = true → (s.chip.sqs.get x.val).run = .idle →
    (s.chip.sqs.get x.val).calPhase = 0 → (s.chip.sqs.get x.val).injs = [] → ∃ t, Machine.exec (.sqStart req x) s = .next t ∧
      (t.chip.sqs.get x.val).run = .entry 0 ∧ (t.chip.sqs.get x.val).pass = true ∧ (t.chip.sqs.get x.val).stopped = false ∧ t.chip.get (SQ.STAT_ACT x.val) = 1 ∧ t.chip.get (SQ.STAT_CUR x.val) = 0 ∧
      Effect s t (fun c => { c with sqs := t.chip.sqs }) [SQ.STAT_ACT x.val, SQ.STAT_CUR x.val] [] [] []) ∧
  (∀ (s : State) (req : Requester) (x : SqId), s.chip.reaches req (SQ.CTRL x.val) = true → ∃ t, Machine.exec (.sqStop req x) s = .next t ∧
      (t.chip.sqs.get x.val).stopped = true ∧ (t.chip.sqs.get x.val).run = (s.chip.sqs.get x.val).run ∧ (t.chip.sqs.get x.val).startHeld = false ∧ Effect s t (fun c => { c with sqs := t.chip.sqs }) [] [] [] []) ∧
  (∀ (s : State) (req : Requester) (x : SqId) (entry : Fin 16) (pre : Bool) (k : Fin 4), s.chip.reaches req (SQ.INJREQ x.val) = true → s.chip.sqSlot x.val = some k.val → ∃ t, Machine.exec (.sqInjectRequest req x entry pre) s = .next t ∧
      t.chip.get (SQ.INJST_LAST x.val) = k.val ∧ bitAt (t.chip.get (SQ.INJST_PEND x.val)) k.val = true ∧ t.chip.reg (SQ.INJRES x.val k.val) = 0 ∧
      (t.chip.sqs.get x.val).injs = (s.chip.sqs.get x.val).injs ++ [⟨k, entry.val, false, none⟩] ∧ t.chip.faultQ = s.chip.faultQ ∧ t.chip.outbox = s.chip.outbox ∧ Keeps s t (fun o => sqRegs x.val o)) ∧
  (∀ (s : State) (req : Requester) (x : SqId) (entry : Fin 16) (pre : Bool), s.chip.reaches req (SQ.INJREQ x.val) = true → (∀ k ∈ List.range 4, ∃ i ∈ (s.chip.sqs.get x.val).injs, i.slot.val = k) →
    ∃ t, Machine.exec (.sqInjectRequest req x entry pre) s = .next t ∧ Recorded s.chip t.chip (SQ.EVT_INJREFF x.val) (SQ.EVTCNT_INJRCNT x.val) ∧
      Effect s t id [SQ.INJREQ_PRE x.val, SQ.INJREQ_ENTRY x.val, SQ.EVT_INJREFF x.val, SQ.EVTCNT_INJRCNT x.val] [srcSq x.val] [] []) ∧
  (∀ (s : State) (x : SqId) (pos : Bool) (k : Fin 4) (e : Fin 16) (rest : List SqInj), s.chip.sqOn x.val = true → (s.chip.sqs.get x.val).run = .inject k.val → (s.chip.sqs.get x.val).injs = ⟨k, e.val, false, none⟩ :: rest →
    (∀ i ∈ rest, i.slot ≠ k) → (s.chip.sqs.get x.val).hwWait = [] → ∃ t, Machine.exec (.sqInjectionComplete x (.overload pos)) s = .next t ∧
      t.chip.get (SQ.INJRES_RESULT x.val k.val) = (if pos then 0x7fffff else 0x800000) ∧ t.chip.get (SQ.INJRES_VALID x.val k.val) = 1 ∧ t.chip.get (SQ.INJRES_OVR x.val k.val) = 1 ∧ t.chip.get (SQ.INJRES_ENTRY x.val k.val) = e.val ∧
      bitAt (t.chip.get (SQ.INJST_PEND x.val)) k.val = false ∧ Recorded s.chip t.chip (SQ.EVT_INJF x.val) (SQ.EVTCNT_INJCNT x.val) ∧ (t.chip.sqs.get x.val).injs = rest ∧
      t.chip.faultQ = s.chip.faultQ ∧ t.chip.outbox = s.chip.outbox ∧ Keeps s t (fun o => sqRegs x.val o))

/-- SQ_CALIBRATE_STEP, SQ_CALIBRATE_ABORT, SQ_CALIBRATION_STEP_DONE and SQ_CALHOLD_EXPIRE (R225 to R227). The rounding of the average is the model's choice (log entry 174). -/
def Obligations.ConvertersCalibrate : Prop :=
  (∀ (s : State) (req : Requester) (x : SqId) (step : Fin 4) (entry : Fin 16) (ref : BitVec 24), s.chip.reaches req (SQ.CALCTL x.val) = true →
    (s.chip.get (SQ.CTRL_LASTE x.val) < entry.val ∨ step.val ∈ [2, 3] ∨ (step = 0 ∧ (s.chip.sqs.get x.val).calPhase ≠ 0) ∨ (step = 1 ∧ (s.chip.sqs.get x.val).calPhase ≠ 3)) →
    ∃ t, Machine.exec (.sqCalibrateStep req x step entry ref) s = .next t ∧ t.chip.get (SQ.CALST_STATUS x.val) = 6 ∧ Recorded s.chip t.chip (SQ.EVT_CALF x.val) (SQ.EVTCNT_CALCNT x.val) ∧
      Effect s t id [SQ.CALCTL_STEP x.val, SQ.CALCTL_ENTRY x.val, SQ.CALCTL_REF x.val, SQ.CALST_STATUS x.val, SQ.EVT_CALF x.val, SQ.EVTCNT_CALCNT x.val] [srcSq x.val] [] []) ∧
  (∀ (s : State) (req : Requester) (x : SqId) (entry : Fin 16) (ref : BitVec 24), s.chip.reaches req (SQ.CALCTL x.val) = true → entry.val ≤ s.chip.get (SQ.CTRL_LASTE x.val) → (s.chip.sqs.get x.val).calPhase = 0 →
    (s.chip.sqs.get x.val).run = .idle → (s.chip.sqs.get x.val).injs = [] → ∃ t, Machine.exec (.sqCalibrateStep req x 0 entry ref) s = .next t ∧ t.chip.get (SQ.CALST_STATUS x.val) = 2 ∧ t.chip.get (SQ.STAT_ACT x.val) = 3 ∧
      (t.chip.sqs.get x.val).run = .cal 0 ∧ (t.chip.sqs.get x.val).calEntry = entry.val ∧ (t.chip.sqs.get x.val).calAt = s.chip.now ∧
      Effect s t (fun c => { c with sqs := t.chip.sqs }) [SQ.CALCTL_STEP x.val, SQ.CALCTL_ENTRY x.val, SQ.CALCTL_REF x.val, SQ.CALST_STATUS x.val, SQ.STAT_ACT x.val] [] [] []) ∧
  (∀ (s : State) (x : SqId) (c : List Conversion) (v : Int), s.chip.sqOn x.val = true → (s.chip.sqs.get x.val).run = .cal 0 → c.length = 2 ^ (s.chip.sqs.get x.val).calAvg → (s.chip.sqs.get x.val).inUse.average x.val c = some v →
    ∃ t, Machine.exec (.sqCalibrationStepDone x c) s = .next t ∧
      t.chip.get (SQ.CALST_STATUS x.val) = 3 ∧ t.chip.get (SQ.CALST_RAW x.val) = bitsOf 24 v ∧ (t.chip.sqs.get x.val).calZero = v ∧ (t.chip.sqs.get x.val).calPhase = 3 ∧ (t.chip.sqs.get x.val).run = .idle ∧
      Effect s t (fun c => { c with sqs := t.chip.sqs }) [SQ.CALST_STATUS x.val, SQ.CALST_RAW x.val, SQ.STAT_ACT x.val] [] [] []) ∧
  (∀ (s : State) (x : SqId) (c : List Conversion) (v g : Int), s.chip.sqOn x.val = true → (s.chip.sqs.get x.val).run = .cal 1 → c.length = 2 ^ (s.chip.sqs.get x.val).calAvg → (s.chip.sqs.get x.val).inUse.average x.val c = some v →
    (s.chip.sqs.get x.val).calEntry < 16 → (s.chip.sqs.get x.val).calZero ≠ v → -0x800000 ≤ (s.chip.sqs.get x.val).calZero → (s.chip.sqs.get x.val).calZero ≤ 0x7fffff →
    g = rne (s.chip.getS (SQ.CALCTL_REF x.val) * 2 ^ 22 * (v - (s.chip.sqs.get x.val).calZero).sign) (v - (s.chip.sqs.get x.val).calZero).natAbs → 0x200000 ≤ g → g ≤ 0x800000 →
    ∃ t, Machine.exec (.sqCalibrationStepDone x c) s = .next t ∧ t.chip.get (SQ.CALST_STATUS x.val) = 5 ∧ t.chip.get (SQ.CALST_RAW x.val) = bitsOf 24 v ∧
      t.chip.getS (SQ.ENT_CALOFS_CALOFS x.val (s.chip.sqs.get x.val).calEntry) = (s.chip.sqs.get x.val).calZero ∧
      (t.chip.get (SQ.ENT_CALGAIN_CALGAIN x.val (s.chip.sqs.get x.val).calEntry) : Int) = g ∧
      Recorded s.chip t.chip (SQ.EVT_CALF x.val) (SQ.EVTCNT_CALCNT x.val) ∧ (t.chip.sqs.get x.val).calPhase = 0 ∧ t.chip.faultQ = s.chip.faultQ ∧ Keeps s t (fun o => sqRegs x.val o)) ∧
  (∀ (s : State) (x : SqId) (c : List Conversion) (step : Nat), s.chip.sqOn x.val = true → (s.chip.sqs.get x.val).run = .cal step → c.length = 2 ^ (s.chip.sqs.get x.val).calAvg → (∃ k ∈ c, k ∈ [.overload true, .overload false]) →
    ∃ t, Machine.exec (.sqCalibrationStepDone x c) s = .next t ∧ t.chip.get (SQ.CALST_STATUS x.val) = 9 ∧
      Recorded s.chip t.chip (SQ.EVT_CALF x.val) (SQ.EVTCNT_CALCNT x.val) ∧ (t.chip.sqs.get x.val).calPhase = 0 ∧ Keeps s t (fun o => o == SQ.CALST x.val || o == SQ.EVT x.val || o == SQ.EVTCNT x.val || o == SQ.STAT x.val)) ∧
  (∀ (s : State) (x : SqId) (c : List Conversion), c.length ≠ 2 ^ (s.chip.sqs.get x.val).calAvg → ∃ t, Machine.exec (.sqCalibrationStepDone x c) s = .next t ∧ t = s) ∧
  (∀ (s : State) (req : Requester) (x : SqId), s.chip.reaches req (SQ.CALCTL x.val) = true → (s.chip.sqs.get x.val).calPhase ≠ 0 → ∃ t, Machine.exec (.sqCalibrateAbort req x) s = .next t ∧ t.chip.get (SQ.CALST_STATUS x.val) = 7 ∧
      Recorded s.chip t.chip (SQ.EVT_CALF x.val) (SQ.EVTCNT_CALCNT x.val) ∧ (t.chip.sqs.get x.val).calPhase = 0 ∧ Keeps s t (fun o => o == SQ.CALST x.val || o == SQ.EVT x.val || o == SQ.EVTCNT x.val || o == SQ.STAT x.val)) ∧
  (∀ (s : State) (x : SqId), (s.chip.sqs.get x.val).calPhase ≠ 0 → (s.chip.sqs.get x.val).calAt + 1000 * (s.chip.sqs.get x.val).calHold ≤ s.chip.now → ∃ t, Machine.exec (.sqCalholdExpire x) s = .next t ∧ t.chip.get (SQ.CALST_STATUS x.val) = 0xa ∧
      Recorded s.chip t.chip (SQ.EVT_CALF x.val) (SQ.EVTCNT_CALCNT x.val) ∧ (t.chip.sqs.get x.val).calPhase = 0 ∧ Keeps s t (fun o => o == SQ.CALST x.val || o == SQ.EVT x.val || o == SQ.EVTCNT x.val || o == SQ.STAT x.val))

/-- HINT_RECEIVE, CANCEL_RECEIVE, HINT_DEFER_TIMEOUT, HINT_HOLD_END, HINT_FRAME_RETRY and LHALERT_PULSE_END (R273 to R283). -/
def Obligations.HintsAreJudgedAndEnd : Prop :=
  (∀ (s : State) (l : Fin 8) (clean : Bool) (crc : BitVec 8) (w0 w1 : BitVec 16), s.chip.coreRuns = true → clean = false ∨ crc ≠ hintCrc [w0, w1] ∨ w0.toNat / 4096 ≠ 1 ∨ w0.toNat % 4 ≠ 0 →
    ∃ t, Machine.exec (.hintReceive l clean crc w0 w1) s = .next t ∧
      Recorded s.chip t.chip (HINT.EVT_FRMF l.val) (HINT.EVTCNT2_FRMCNT l.val) ∧ t.chip.faultQ = s.chip.faultQ ∧ t.chip.outbox = s.chip.outbox ∧ Keeps s t (fun o => span 0x21000 0x21400 o)) ∧
  (∀ (s : State) (l : Fin 8) (w0 w1 : BitVec 16), s.chip.coreRuns = true → w0.toNat / 4096 = 1 → w0.toNat % 4 = 0 → s.chip.get (HINT.CFG_EN l.val) = 0 → (∀ x ∈ (s.chip.hintHw.get l.val).hints, x.phase = .holding → x.readyIn ≠ 0xffff) → ∃ t, Machine.exec (.hintReceive l true (hintCrc [w0, w1]) w0 w1) s = .next t ∧
      Recorded s.chip t.chip (HINT.EVT_REFF l.val) (HINT.EVTCNT_REFCNT l.val) ∧ t.chip.get (HINT.LAST_CODE l.val) = 6 ∧ t.chip.get (HINT.LAST_KIND l.val) = 2 ∧ t.chip.get (HINT.LAST_HID l.val) = w0.toNat / 64 % 64 ∧
      t.chip.get (HINT.LAST_LEAD l.val) = w1.toNat % 256 ∧ t.chip.getS (HINT.LAST_STEP l.val) = signedOf 8 (w1.toNat / 256) ∧ (t.chip.hintHw.get l.val).hints = (s.chip.hintHw.get l.val).hints ∧
      (t.chip.hintHw.get l.val).pulse = some s.chip.now ∧ t.chip.get (HINT.STAT_LHAL l.val) = 1 ∧ t.chip.faultQ = s.chip.faultQ ∧ t.chip.outbox = s.chip.outbox ∧ Keeps s t (fun o => span 0x21000 0x21400 o)) ∧
  (∀ (s : State) (l : Fin 8) (w0 w1 : BitVec 16), s.chip.coreRuns = true → w0.toNat / 4096 = 1 → w0.toNat % 4 = 0 → (w0.toNat / 4 % 16 = 0 ∨ ∃ k : Fin 4, bitAt (w0.toNat / 4 % 16) k.val = true ∧ s.chip.hintLoop l.val k.val = none) → s.chip.get (HINT.CFG_EN l.val) = 1 → ∃ t, Machine.exec (.hintReceive l true (hintCrc [w0, w1]) w0 w1) s = .next t ∧
      Recorded s.chip t.chip (HINT.EVT_REFF l.val) (HINT.EVTCNT_REFCNT l.val) ∧ t.chip.get (HINT.LAST_CODE l.val) = 1 ∧ t.chip.faultQ = s.chip.faultQ ∧
      t.chip.outbox = s.chip.outbox ++ [.hint l.val (hintFrame 0xa (w0.toNat / 64 % 64) 1)] ∧ Keeps s t (fun o => span 0x21000 0x21400 o)) ∧
  (∀ (s : State) (l : Fin 8) (w0 w1 : BitVec 16) (n : Nat), s.chip.coreRuns = true → w0.toNat / 4096 = 1 → w0.toNat % 64 = 4 → s.chip.get (HINT.CFG_EN l.val) = 1 → s.chip.hintLoop l.val 0 = some n → s.chip.loopState n = 2 → (s.chip.tunes.get n).phase = .idle → s.chip.get FLT.STAT_SAFE = 0 →
    signedOf 8 (w1.toNat / 256) ≤ 0 → (s.chip.hintHw.get l.val).hints = [] → ∃ t, Machine.exec (.hintReceive l true (hintCrc [w0, w1]) w0 w1) s = .next t ∧
      Recorded s.chip t.chip (HINT.EVT_GRNTF l.val) (HINT.EVTCNT_GRNTCNT l.val) ∧ t.chip.get (HINT.LAST_KIND l.val) = 1 ∧ t.chip.get (HINT.LAST_HID l.val) = w0.toNat / 64 % 64 ∧ t.chip.get (HINT.STAT_QLEN l.val) = 0 ∧
      (t.chip.hintHw.get l.val).hints.map (fun x => (x.hid, x.phase, x.grantAt)) = [(w0.toNat / 64 % 64, .holding, s.chip.now)] ∧ t.chip.faultQ = s.chip.faultQ ∧ t.chip.asks = s.chip.asks ∧
      t.chip.outbox = s.chip.outbox ++ [.hint l.val (hintFrame 0x8 (w0.toNat / 64 % 64) 0)] ∧ Keeps s t (fun o => span 0x21000 0x21400 o || span 0x10000 0x16000 o || o == PHSL.STATUS n)) ∧
  (∀ (s : State) (l : Fin 8) (w0 w1 : BitVec 16) (n pk : Nat), s.chip.coreRuns = true → w0.toNat / 4096 = 1 → w0.toNat % 64 = 4 → s.chip.get (HINT.CFG_EN l.val) = 1 → s.chip.hintLoop l.val 0 = some n → s.chip.loopState n = 2 →
    0 < signedOf 8 (w1.toNat / 256) → s.chip.loopSum n + signedOf 8 (w1.toNat / 256) * 128 ≤ s.chip.get (AVSL.ILIM_ILIM n) → (s.chip.hintHw.get l.val).hints = [] → (s.chip.tunes.get n).phase = .idle → s.chip.get FLT.STAT_SAFE = 0 →
    pk = (8 * (w1.toNat / 256) * s.chip.get (LOOP.TARGET_VTGT n) * max 256 (s.chip.get (HINT.CFG_KPW l.val)) + 4000 * 256 - 1) / (4000 * 256) → ∃ t, Machine.exec (.hintReceive l true (hintCrc [w0, w1]) w0 w1) s = .next t ∧
      t.chip.asks = s.chip.asks ++ [⟨.hint l.val (w0.toNat / 64 % 64), pk, orOne ((w1.toNat % 256 + 3) / 4 + s.chip.get (HINT.TIMING_GHOLD l.val)), s.chip.get (HINT.CFG_PRIO l.val)⟩] ∧
      (t.chip.hintHw.get l.val).hints.map (fun x => (x.hid, x.phase)) = [(w0.toNat / 64 % 64, .asked)] ∧ t.chip.get (HINT.STAT_QLEN l.val) = 1 ∧ t.chip.faultQ = s.chip.faultQ ∧ t.chip.outbox = s.chip.outbox ∧ Keeps s t (fun o => span 0x21000 0x21400 o)) ∧
  (∀ (s : State) (l : Fin 8) (w0 w1 : BitVec 16) (n : Nat), s.chip.coreRuns = true → w0.toNat / 4096 = 1 → w0.toNat % 64 = 4 → s.chip.get (HINT.CFG_EN l.val) = 1 → s.chip.hintLoop l.val 0 = some n → s.chip.loopState n = 4 →
    (s.chip.tunes.get n).phase = .running → (signedOf 8 (w1.toNat / 256) ≤ 0 ∨ s.chip.loopSum n + signedOf 8 (w1.toNat / 256) * 128 ≤ s.chip.get (AVSL.ILIM_ILIM n)) → (s.chip.hintHw.get l.val).hints = [] →
    ∃ t, Machine.exec (.hintReceive l true (hintCrc [w0, w1]) w0 w1) s = .next t ∧ Recorded s.chip t.chip (HINT.EVT_DEFF l.val) (HINT.EVTCNT_DEFCNT l.val) ∧ Recorded s.chip t.chip (COEF.TUNEEVT_ABRTF n) (COEF.TUNEEVT_ABRTCNT n) ∧
      t.chip.get (COEF.TUNESTAT_RESULT n) = 4 ∧ t.chip.get (COEF.TUNESTAT_CAUSE n) = 9 ∧ (t.chip.tunes.get n).phase = .ending ∧ (t.chip.hintHw.get l.val).hints.map (fun x => (x.hid, x.phase, x.deferred)) = [(w0.toNat / 64 % 64, .tuning, some 3)] ∧
      t.chip.get (HINT.STAT_QLEN l.val) = 1 ∧ t.chip.get (HINT.STAT_DEF l.val) = 1 ∧ t.chip.get (HINT.STAT_LHAL l.val) = 1 ∧ t.chip.asks = s.chip.asks ∧ t.chip.faultQ = s.chip.faultQ ∧
      t.chip.outbox = s.chip.outbox ++ [.hint l.val (hintFrame 0x9 (w0.toNat / 64 % 64) 3)] ∧ Keeps s t (fun o => span 0x21000 0x21400 o || span 0x14000 0x16000 o)) ∧
  (∀ (s : State) (k : Nat) (l : Fin 8) (a : Ask) (x : Hint), s.chip.coreRuns = true → s.chip.asks[k]? = some a → a.who = .hint l.val x.hid → a.who ∉ s.chip.drops → s.chip.inputOn = true → s.chip.tooBig a.peak = false →
    s.chip.fits a.peak = false → s.chip.bud.queue = [] → (s.chip.hintHw.get l.val).hints = [x] → x.phase = .asked → x.deferred = none → s.chip.get (HINT.CFG_EN l.val) = 1 → ∃ t, Machine.exec (.leaveRequest k) s = .next t ∧ t.chip.asks = s.chip.asks.eraseIdx k ∧
      t.chip.bud.queue = [⟨a, s.chip.bud.stamp, s.chip.onTime, false⟩] ∧ (t.chip.hintHw.get l.val).hints = [{ x with deferred := some 1 }] ∧ Recorded s.chip t.chip (HINT.EVT_DEFF l.val) (HINT.EVTCNT_DEFCNT l.val) ∧
      t.chip.get (HINT.STAT_LHAL l.val) = 1 ∧ t.chip.faultQ = s.chip.faultQ ∧ t.chip.outbox = s.chip.outbox ++ [.hint l.val (hintFrame 0x9 x.hid 1)] ∧ Keeps s t (fun o => span 0x21000 0x21400 o || span 0x23000 0x23200 o)) ∧
  (∀ (s : State) (tileOk : Bool) (w : BudReq) (l : Fin 8) (x : Hint), s.chip.coreRuns = true → s.chip.grantable = some w → w.ask.who = .hint l.val x.hid → (s.chip.hintHw.get l.val).hints = [x] → x.phase = .asked → 0 < x.step → s.chip.get FLT.STAT_SAFE = 0 →
    s.chip.get (HINT.CFG_EN l.val) = 1 → (∀ l : Fin 8, (s.chip.hintHw.get l.val).ready = none) → ∃ t, Machine.exec (.budgetGrant tileOk) s = .next t ∧ t.chip.bud.held = s.chip.bud.held ++ [⟨.hint l.val x.hid, w.ask.peak, s.chip.now + w.ask.dur⟩] ∧
      Recorded s.chip t.chip BUD.EVT_GRNTF BUD.EVTCNT_GRNTCNT ∧ Recorded s.chip t.chip (HINT.EVT_GRNTF l.val) (HINT.EVTCNT_GRNTCNT l.val) ∧ t.chip.get (HINT.LAST_KIND l.val) = 1 ∧ t.chip.get (HINT.LAST_HID l.val) = x.hid % 64 ∧
      (t.chip.hintHw.get l.val).hints.map (fun y => (y.hid, y.phase, y.deferred, y.grantAt)) = [(x.hid, .holding, none, s.chip.now)] ∧ (∀ kn ∈ s.chip.hintLoops l.val x.mask, (t.chip.loopPh.get kn.2).floorN = (t.chip.floorsOf kn.2).1 ∧ (t.chip.loopPh.get kn.2).floorReg = (t.chip.floorsOf kn.2).2) ∧
      .hint l.val (hintFrame 0x8 x.hid 0) ∈ t.chip.outbox ∧ t.chip.faultQ = s.chip.faultQ) ∧
  (∀ (s : State) (l : Fin 8) (w0 : BitVec 16), s.chip.coreRuns = true → w0.toNat / 4096 = 2 → w0.toNat % 64 = 0 → s.chip.get (HINT.CFG_EN l.val) = 1 → (∀ x ∈ (s.chip.hintHw.get l.val).hints, x.hid ≠ w0.toNat / 64 % 64) →
    ∃ t, Machine.exec (.cancelReceive l true (hintCrc [w0]) w0) s = .next t ∧ Effect s t (fun c => c.hlUpd l.val fun h => { h with tx := ((0xb, w0.toNat / 64 % 64, 1, 0) :: h.tx).take 8 }) [] [] [] [.hint l.val (hintFrame 0xb (w0.toNat / 64 % 64) 1)]) ∧
  (∀ (s : State) (l : Fin 8) (w0 : BitVec 16) (x : Hint), s.chip.coreRuns = true → w0.toNat / 4096 = 2 → w0.toNat % 64 = 0 → s.chip.get (HINT.CFG_EN l.val) = 1 → (s.chip.hintHw.get l.val).hints = [x] → x.hid = w0.toNat / 64 % 64 → x.phase = .holding →
    ∃ t, Machine.exec (.cancelReceive l true (hintCrc [w0]) w0) s = .next t ∧ (t.chip.hintHw.get l.val).hints = [] ∧ t.chip.get (HINT.LAST_KIND l.val) = 3 ∧ t.chip.get (HINT.LAST_HID l.val) = x.hid ∧ t.chip.get (HINT.STAT_QLEN l.val) = 0 ∧
      t.chip.outbox = s.chip.outbox ++ [.hint l.val (hintFrame 0xb x.hid 0)] ∧ t.chip.faultQ = s.chip.faultQ ∧ Keeps s t (fun o => span 0x21000 0x21400 o || (List.range 32).any (fun n => o == PHSL.STATUS n))) ∧
  (∀ (s : State) (l : Fin 8) (clean : Bool) (crc : BitVec 8) (w0 : BitVec 16), s.chip.coreRuns = true → clean = false ∨ crc ≠ hintCrc [w0] ∨ w0.toNat / 4096 ≠ 2 ∨ w0.toNat % 64 ≠ 0 →
    ∃ t, Machine.exec (.cancelReceive l clean crc w0) s = .next t ∧
      Recorded s.chip t.chip (HINT.EVT_FRMF l.val) (HINT.EVTCNT2_FRMCNT l.val) ∧ Effect s t id [HINT.EVT_FRMF l.val, HINT.EVTCNT2_FRMCNT l.val] [0xc8 + l.val] [] []) ∧
  (∀ (s : State) (l : Fin 8) (hid : Fin 64) (x : Hint), (s.chip.hintHw.get l.val).hints = [x] → x.hid = hid.val → s.chip.coreRuns = true → x.phase ≠ .holding → x.at' + x.deft ≤ s.chip.now → s.chip.get (HINT.CFG_EN l.val) = 1 → ∃ t, Machine.exec (.hintDeferTimeout l hid) s = .next t ∧
      (t.chip.hintHw.get l.val).hints = [] ∧ Recorded s.chip t.chip (HINT.EVT_REFF l.val) (HINT.EVTCNT_REFCNT l.val) ∧ t.chip.get (HINT.LAST_CODE l.val) = 7 ∧ t.chip.outbox = s.chip.outbox ++ [.hint l.val (hintFrame 0xa hid.val 7)] ∧
      (x.phase = .asked → ∀ q ∈ t.chip.asks, q.who ≠ .hint l.val hid.val) ∧ t.chip.faultQ = s.chip.faultQ ∧ Keeps s t (fun o => span 0x21000 0x21400 o)) ∧
  (∀ (s : State) (l : Fin 8) (hid : Fin 64) (x : Hint), (s.chip.hintHw.get l.val).hints = [x] → x.hid = hid.val → s.chip.coreRuns = true → x.phase = .holding → 4 * x.grantAt + x.lead + 4 * x.hold ≤ 4 * s.chip.now → ∃ t, Machine.exec (.hintHoldEnd l hid) s = .next t ∧
      (t.chip.hintHw.get l.val).hints = [] ∧ t.chip.get (HINT.STAT_QLEN l.val) = 0 ∧ (x.step ≤ 0 → t.chip.dones = s.chip.dones) ∧
      (0 < x.step → .hint l.val hid.val ∉ s.chip.dones → s.chip.bud.held.any (fun h => h.who == .hint l.val hid.val) = true → t.chip.dones = s.chip.dones ++ [.hint l.val hid.val]) ∧
      ((∀ j : Fin 8, j ≠ l → (s.chip.hintHw.get j.val).hints = []) → ∀ kn ∈ s.chip.hintLoops l.val x.mask, t.chip.get (PHSL.STATUS_FLOOR kn.2) = 0) ∧
      t.chip.faultQ = s.chip.faultQ ∧ t.chip.outbox = s.chip.outbox ∧ Keeps s t (fun o => o == HINT.STAT l.val || (List.range 32).any (fun n => o == PHSL.STATUS n))) ∧
  (∀ (s : State) (l k : Fin 8) (kind hid arg n : Nat), s.chip.coreRuns = true → (s.chip.hintHw.get l.val).tx[k.val]? = some (kind, hid, arg, n) → n < 2 → ∃ t, Machine.exec (.hintFrameRetry l k) s = .next t ∧ Recorded s.chip t.chip (HINT.EVT_COLLF l.val) (HINT.EVTCNT2_COLLCNT l.val) ∧
      Effect s t (fun c => c.hlUpd l.val fun h => { h with tx := h.tx.set k.val (kind, hid, arg, n + 1) }) [HINT.EVT_COLLF l.val, HINT.EVTCNT2_COLLCNT l.val] [0xc8 + l.val] [] [.hint l.val (hintFrame kind hid arg)]) ∧
  (∀ (s : State) (l k : Fin 8) (kind hid arg n : Nat), s.chip.coreRuns = true → (s.chip.hintHw.get l.val).tx[k.val]? = some (kind, hid, arg, n) → 2 ≤ n → ∃ t, Machine.exec (.hintFrameRetry l k) s = .next t ∧ Recorded s.chip t.chip (HINT.EVT_COLLF l.val) (HINT.EVTCNT2_COLLCNT l.val) ∧
      Effect s t (fun c => c.hlUpd l.val fun h => { h with tx := h.tx.eraseIdx k.val }) [HINT.EVT_COLLF l.val, HINT.EVTCNT2_COLLCNT l.val] [0xc8 + l.val] [⟨0x2150, l.val, 0⟩] []) ∧
  (∀ (s : State) (l : Fin 8) (a : Nat), s.chip.coreRuns = true → (s.chip.hintHw.get l.val).pulse = some a → a + 1 ≤ s.chip.now → (s.chip.hintHw.get l.val).hints = [] → ∃ t, Machine.exec (.lhalertPulseEnd l) s = .next t ∧ t.chip.get (HINT.STAT_LHAL l.val) = 0 ∧
      Effect s t (fun c => c.hlUpd l.val fun h => { h with pulse := none }) [HINT.STAT_QLEN l.val, HINT.STAT_DEF l.val, HINT.STAT_LHAL l.val] [] [] [])

/-- The write commands of R267 and AVS_FRAME_TIMEOUT (R262 to R270). The order of the checks is the model's reading (log entry 29). -/
def Obligations.AvsWritesCommandTheirLoop : Prop :=
  (∀ (s : State) (k : Fin 8) (sel : Fin 16) (n : Nat) (mv : BitVec 16), s.chip.coreRuns = true → s.chip.get (AVSP.CFG_EN k.val) = 1 → s.chip.avsLoop k.val sel.val = some n →
    ((s.chip.avsHw.get k.val).holdV[sel.val]?).join = none → ((s.chip.avsHw.get k.val).holdS[sel.val]?).join = none → (s.chip.avsHw.get k.val).holdR[sel.val]? ≠ some true → (s.chip.avsHw.get k.val).holdE[sel.val]? ≠ some true → s.chip.get (AVSL.CTRL_OWNER n) = 1 → s.chip.loopState n = 2 →
    s.chip.get (AVSL.VLIM_VMIN n) ≤ 4 * mv.toNat → 4 * mv.toNat ≤ s.chip.get (AVSL.VLIM_VMAX n) → ∃ t, Machine.exec (.avsTargetVoltageWrite k sel false mv true) s = .next t ∧
      t.chip.get (AVSL.SETPT_SETPT n) = 4 * mv.toNat ∧ t.chip.get (LOOP.TARGET_VTGT n) = s.chip.get (LOOP.TARGET_VTGT n) ∧
      t.chip.get (AVSP.FRAMES_COUNT k.val) = (s.chip.get (AVSP.FRAMES_COUNT k.val) + 1) % 2 ^ (AVSP.FRAMES_COUNT k.val).width ∧
      t.chip.outbox = s.chip.outbox ++ [.avs k.val 0 0 (s.chip.get (LOOP.TARGET_VTGT n) == 4 * mv.toNat) (s.chip.avsHw.get k.val).alert true] ∧ t.chip.faultQ = s.chip.faultQ ∧
      Keeps s t (fun o => o == AVSL.SETPT n || o == AVSP.FRAMES k.val || o == LOOP.TARGET n || o == CMPL.EVT n)) ∧
  (∀ (s : State) (k : Fin 8) (sel : Fin 16) (n : Nat) (mv : BitVec 16), s.chip.coreRuns = true → s.chip.get (AVSP.CFG_EN k.val) = 1 → s.chip.avsLoop k.val sel.val = some n →
    ((s.chip.avsHw.get k.val).holdV[sel.val]?).join = none → ((s.chip.avsHw.get k.val).holdS[sel.val]?).join = none → (s.chip.avsHw.get k.val).holdR[sel.val]? ≠ some true → (s.chip.avsHw.get k.val).holdE[sel.val]? ≠ some true → s.chip.get (AVSL.CTRL_OWNER n) ≠ 1 →
    ∃ t, Machine.exec (.avsTargetVoltageWrite k sel false mv true) s = .next t ∧ t.chip.get (AVSL.SETPT_SETPT n) = s.chip.get (AVSL.SETPT_SETPT n) ∧ t.chip.get (AVSL.REF_LASTREF n) = 1 ∧
      Recorded s.chip t.chip (AVSL.REF_REFF n) (AVSL.REF_REFCNT n) ∧ (t.chip.avsHw.get k.val).alert = true ∧
      t.chip.outbox = s.chip.outbox ++ [.avs k.val 1 0 (s.chip.get (LOOP.TARGET_VTGT n) == s.chip.get (AVSL.SETPT_SETPT n)) true false] ∧ t.chip.faultQ = s.chip.faultQ ∧
      Keeps s t (fun o => o == AVSL.SETPT n || o == AVSP.FRAMES k.val || o == AVSL.REF n)) ∧
  (∀ (s : State) (k : Fin 8) (sel : Fin 16) (n : Nat) (mv : BitVec 16), s.chip.coreRuns = true → s.chip.get (AVSP.CFG_EN k.val) = 1 → s.chip.avsLoop k.val sel.val = some n →
    (s.chip.avsHw.get k.val).holdV.length = 4 → mv.toNat < 4096 → ∃ t, Machine.exec (.avsTargetVoltageWrite k sel true mv true) s = .next t ∧
      t.chip.get (AVSL.SETPT_HELD n) = 1 ∧ t.chip.get (AVSL.SETPT_HOLDV n) = 4 * mv.toNat ∧ t.chip.get (AVSL.SETPT_SETPT n) = s.chip.get (AVSL.SETPT_SETPT n) ∧
      (t.chip.avsHw.get k.val).holdV[sel.val]? = some (some (4 * mv.toNat)) ∧
      Effect s t (fun c => { c with avsHw := t.chip.avsHw }) [AVSL.SETPT_HELD n, AVSL.SETPT_HOLDV n, AVSP.FRAMES_COUNT k.val] [] []
        [.avs k.val 0 0 (s.chip.get (LOOP.TARGET_VTGT n) == s.chip.get (AVSL.SETPT_SETPT n)) (s.chip.avsHw.get k.val).alert (s.chip.get (AVSL.CTRL_OWNER n) == 1)]) ∧
  (∀ (s : State) (k : Fin 8) (sel : Fin 16) (n : Nat) (rate : BitVec 16), s.chip.coreRuns = true → s.chip.get (AVSP.CFG_EN k.val) = 1 → s.chip.avsLoop k.val sel.val = some n →
    ((s.chip.avsHw.get k.val).holdV[sel.val]?).join = none → ((s.chip.avsHw.get k.val).holdS[sel.val]?).join = none → (s.chip.avsHw.get k.val).holdR[sel.val]? ≠ some true → (s.chip.avsHw.get k.val).holdE[sel.val]? ≠ some true → s.chip.get (AVSL.CTRL_OWNER n) = 1 → s.chip.loopState n ∈ [2, 4] →
    1000 * max rate.toNat 1 ≤ min (s.chip.get (AVSL.SLEW_SLEWMAX n)) 50000 → ∃ t, Machine.exec (.avsTransitionRateWrite k sel false rate true) s = .next t ∧
      t.chip.get (AVSL.SLEW_SLEWCMD n) = 1000 * max rate.toNat 1 ∧
      Effect s t (fun c => { c with avsHw := t.chip.avsHw }) [AVSL.SLEW_SLEWCMD n, AVSL.SETPT_HELD n, AVSL.SETPT_HOLDV n, AVSP.FRAMES_COUNT k.val] [] []
        [.avs k.val 0 0 (s.chip.get (LOOP.TARGET_VTGT n) == s.chip.get (AVSL.SETPT_SETPT n)) (s.chip.avsHw.get k.val).alert true]) ∧
  (∀ (s : State) (k : Fin 8) (sel : Fin 16) (n : Nat) (rate : BitVec 16), s.chip.coreRuns = true → s.chip.get (AVSP.CFG_EN k.val) = 1 → s.chip.avsLoop k.val sel.val = some n →
    ((s.chip.avsHw.get k.val).holdV[sel.val]?).join = none → ((s.chip.avsHw.get k.val).holdS[sel.val]?).join = none → (s.chip.avsHw.get k.val).holdR[sel.val]? ≠ some true → (s.chip.avsHw.get k.val).holdE[sel.val]? ≠ some true → s.chip.get (AVSL.CTRL_OWNER n) = 1 → s.chip.loopState n ∈ [2, 4] →
    min (s.chip.get (AVSL.SLEW_SLEWMAX n)) 50000 < 1000 * max rate.toNat 1 → ∃ t, Machine.exec (.avsTransitionRateWrite k sel false rate true) s = .next t ∧
      t.chip.get (AVSL.SLEW_SLEWCMD n) = min (s.chip.get (AVSL.SLEW_SLEWMAX n)) 50000 ∧ Recorded s.chip t.chip (AVSL.REF_CLIPF n) (AVSL.REF_CLIPCNT n) ∧ (t.chip.avsHw.get k.val).alert = true) ∧
  (∀ (s : State) (k : Fin 8) (sel : Fin 16) (n : Nat), s.chip.coreRuns = true → s.chip.get (AVSP.CFG_EN k.val) = 1 → s.chip.avsLoop k.val sel.val = some n →
    ((s.chip.avsHw.get k.val).holdV[sel.val]?).join = none → ((s.chip.avsHw.get k.val).holdS[sel.val]?).join = none → (s.chip.avsHw.get k.val).holdR[sel.val]? ≠ some true → (s.chip.avsHw.get k.val).holdE[sel.val]? ≠ some true → s.chip.get (AVSL.CTRL_OWNER n) = 1 → s.chip.loopState n = 2 →
    s.chip.get (AVSL.VLIM_VMIN n) ≤ s.chip.get (AVSL.CTRL_VBOOT n) → s.chip.get (AVSL.CTRL_VBOOT n) ≤ s.chip.get (AVSL.VLIM_VMAX n) → ∃ t, Machine.exec (.avsResetVoltage k sel false true) s = .next t ∧
      t.chip.get (AVSL.SETPT_SETPT n) = s.chip.get (AVSL.CTRL_VBOOT n) ∧ t.chip.get (LOOP.TARGET_VTGT n) = s.chip.get (LOOP.TARGET_VTGT n) ∧
      t.chip.outbox = s.chip.outbox ++ [.avs k.val 0 0 (s.chip.get (LOOP.TARGET_VTGT n) == s.chip.get (AVSL.CTRL_VBOOT n)) (s.chip.avsHw.get k.val).alert true] ∧ t.chip.faultQ = s.chip.faultQ ∧
      Keeps s t (fun o => o == AVSL.SETPT n || o == AVSP.FRAMES k.val || o == LOOP.TARGET n || o == CMPL.EVT n)) ∧
  (∀ (s : State) (k : Fin 8) (sel : Fin 16) (n : Nat), s.chip.coreRuns = true → s.chip.get (AVSP.CFG_EN k.val) = 1 → s.chip.avsLoop k.val sel.val = some n →
    ((s.chip.avsHw.get k.val).holdV[sel.val]?).join = none → ((s.chip.avsHw.get k.val).holdS[sel.val]?).join = none → (s.chip.avsHw.get k.val).holdR[sel.val]? ≠ some true → (s.chip.avsHw.get k.val).holdE[sel.val]? ≠ some true → ∃ t, Machine.exec (.avsStatusWrite k sel false false true) s = .next t ∧
      (t.chip.avsHw.get k.val).alert = false ∧ Effect s t (fun c => c.avsUpd k.val fun a => { a with alert := false }) [AVSL.SETPT_HELD n, AVSL.SETPT_HOLDV n, AVSP.FRAMES_COUNT k.val] [] []
        [.avs k.val 0 0 (s.chip.get (LOOP.TARGET_VTGT n) == s.chip.get (AVSL.SETPT_SETPT n)) false (s.chip.get (AVSL.CTRL_OWNER n) == 1)]) ∧
  (∀ (s : State) (k : Fin 8) (sel : Fin 16) (n : Nat), s.chip.coreRuns = true → s.chip.get (AVSP.CFG_EN k.val) = 1 → s.chip.avsLoop k.val sel.val = some n → sel.val ≠ 0xf → ∃ t, Machine.exec (.avsResetVoltage k sel true true) s = .next t ∧
      Effect s t (fun c => c.avsUpd k.val fun a => { a with holdR := a.holdR.set sel.val true }) [AVSP.FRAMES_COUNT k.val] [] []
        [.avs k.val 0 0 (s.chip.get (LOOP.TARGET_VTGT n) == s.chip.get (AVSL.SETPT_SETPT n)) (s.chip.avsHw.get k.val).alert (s.chip.get (AVSL.CTRL_OWNER n) == 1)]) ∧
  (∀ (s : State) (k : Fin 8) (sel : Fin 16) (n : Nat), s.chip.coreRuns = true → s.chip.get (AVSP.CFG_EN k.val) = 1 → s.chip.avsLoop k.val sel.val = some n → sel.val ≠ 0xf → ∃ t, Machine.exec (.avsStatusWrite k sel false true true) s = .next t ∧
      Effect s t (fun c => c.avsUpd k.val fun a => { a with holdE := a.holdE.set sel.val true }) [AVSP.FRAMES_COUNT k.val] [] []
        [.avs k.val 0 0 (s.chip.get (LOOP.TARGET_VTGT n) == s.chip.get (AVSL.SETPT_SETPT n)) (s.chip.avsHw.get k.val).alert (s.chip.get (AVSL.CTRL_OWNER n) == 1)]) ∧
  (∀ (s : State) (k : Fin 8) (sel : Fin 16) (n : Nat) (hold : Bool), s.chip.coreRuns = true → s.chip.get (AVSP.CFG_EN k.val) = 1 → sel.val ≠ 0xf → s.chip.avsLoop k.val sel.val = some n → ∃ t, Machine.exec (.avsStatusWrite k sel true hold true) s = .next t ∧ Recorded s.chip t.chip (AVSP.EVT_UNSF k.val) (AVSP.EVTCNT_UNSCNT k.val) ∧
      Effect s t (fun c => c.avsUpd k.val fun a => { a with alert := true }) [AVSP.EVT_UNSF k.val, AVSP.EVTCNT_UNSCNT k.val, AVSP.FRAMES_COUNT k.val] [0xc0 + k.val] [] [.avs k.val 3 0 (s.chip.get (LOOP.TARGET_VTGT n) == s.chip.get (AVSL.SETPT_SETPT n)) true (s.chip.get (AVSL.CTRL_OWNER n) == 1)]) ∧
  (∀ (s : State) (k : Fin 8) (sel : Fin 16) (hold : Bool), s.chip.coreRuns = true → s.chip.get (AVSP.CFG_EN k.val) = 1 → sel.val ≠ 0xf → s.chip.avsLoop k.val sel.val = none → ∃ t, Machine.exec (.avsStatusWrite k sel true hold true) s = .next t ∧ Recorded s.chip t.chip (AVSP.EVT_UNSF k.val) (AVSP.EVTCNT_UNSCNT k.val) ∧
      Effect s t (fun c => c.avsUpd k.val fun a => { a with alert := true }) [AVSP.EVT_UNSF k.val, AVSP.EVTCNT_UNSCNT k.val, AVSP.FRAMES_COUNT k.val] [0xc0 + k.val] [] [.avs k.val 3 0 false true false]) ∧
  (∀ (s : State) (k : Fin 8) (hold : Bool), s.chip.coreRuns = true → s.chip.get (AVSP.CFG_EN k.val) = 1 → ∃ t, Machine.exec (.avsStatusWrite k 0xf true hold true) s = .next t ∧ Recorded s.chip t.chip (AVSP.EVT_UNSF k.val) (AVSP.EVTCNT_UNSCNT k.val) ∧
      Effect s t (fun c => c.avsUpd k.val fun a => { a with alert := true }) [AVSP.EVT_UNSF k.val, AVSP.EVTCNT_UNSCNT k.val, AVSP.FRAMES_COUNT k.val] [0xc0 + k.val] [] [.avs k.val 3 0 (((List.range 4).filterMap fun j => s.chip.avsLoop k.val j).all (fun n => s.chip.get (LOOP.TARGET_VTGT n) == s.chip.get (AVSL.SETPT_SETPT n)) && !((List.range 4).filterMap fun j => s.chip.avsLoop k.val j).isEmpty) true (((List.range 4).filterMap fun j => s.chip.avsLoop k.val j).all (fun n => s.chip.get (AVSL.CTRL_OWNER n) == 1) && !((List.range 4).filterMap fun j => s.chip.avsLoop k.val j).isEmpty)]) ∧
  (∀ (s : State) (k : Fin 8) (mv : BitVec 16), s.chip.coreRuns = true → s.chip.get (AVSP.CFG_EN k.val) = 1 → (∀ j < 4, ((s.chip.avsHw.get k.val).holdV[j]?).join = none ∧ ((s.chip.avsHw.get k.val).holdS[j]?).join = none ∧ (s.chip.avsHw.get k.val).holdR[j]? ≠ some true ∧ (s.chip.avsHw.get k.val).holdE[j]? ≠ some true) → ((List.range 4).filterMap fun j => s.chip.avsLoop k.val j) ≠ [] →
    (∀ n ∈ ((List.range 4).filterMap fun j => s.chip.avsLoop k.val j), s.chip.get (AVSL.CTRL_OWNER n) = 1 ∧ s.chip.loopState n = 2 ∧ s.chip.get (AVSL.VLIM_VMIN n) ≤ 4 * mv.toNat ∧ 4 * mv.toNat ≤ s.chip.get (AVSL.VLIM_VMAX n)) →
    ∃ t, Machine.exec (.avsTargetVoltageWrite k 0xf false mv true) s = .next t ∧ (∀ n ∈ ((List.range 4).filterMap fun j => s.chip.avsLoop k.val j), t.chip.get (AVSL.SETPT_SETPT n) = 4 * mv.toNat ∧ t.chip.get (LOOP.TARGET_VTGT n) = s.chip.get (LOOP.TARGET_VTGT n)) ∧
      t.chip.outbox = s.chip.outbox ++ [.avs k.val 0 0 (((List.range 4).filterMap fun j => s.chip.avsLoop k.val j).all fun n => s.chip.get (LOOP.TARGET_VTGT n) == 4 * mv.toNat) (s.chip.avsHw.get k.val).alert true] ∧ t.chip.faultQ = s.chip.faultQ ∧
      Keeps s t (fun o => o == AVSP.FRAMES k.val || ((List.range 4).filterMap fun j => s.chip.avsLoop k.val j).any fun n => o == AVSL.SETPT n || o == LOOP.TARGET n || o == CMPL.EVT n)) ∧
  (∀ (s : State) (k : Fin 8) (mv : BitVec 16), s.chip.coreRuns = true → s.chip.get (AVSP.CFG_EN k.val) = 1 → (s.chip.avsHw.get k.val).holdV.length = 4 →
    ∃ t, Machine.exec (.avsTargetVoltageWrite k 0xf true mv true) s = .next t ∧ (∀ j < 4, s.chip.avsLoop k.val j ≠ none → (t.chip.avsHw.get k.val).holdV[j]? = some (some (4 * mv.toNat))) ∧
      (∀ n ∈ ((List.range 4).filterMap fun j => s.chip.avsLoop k.val j), t.chip.get (AVSL.SETPT_HELD n) = 1 ∧ t.chip.get (AVSL.SETPT_SETPT n) = s.chip.get (AVSL.SETPT_SETPT n)) ∧ t.chip.faultQ = s.chip.faultQ ∧
      t.chip.outbox = s.chip.outbox ++ [.avs k.val 0 0 (((List.range 4).filterMap fun j => s.chip.avsLoop k.val j).all (fun n => s.chip.get (LOOP.TARGET_VTGT n) == s.chip.get (AVSL.SETPT_SETPT n)) && !((List.range 4).filterMap fun j => s.chip.avsLoop k.val j).isEmpty) (s.chip.avsHw.get k.val).alert (((List.range 4).filterMap fun j => s.chip.avsLoop k.val j).all (fun n => s.chip.get (AVSL.CTRL_OWNER n) == 1) && !((List.range 4).filterMap fun j => s.chip.avsLoop k.val j).isEmpty)] ∧ Keeps s t (fun o => o == AVSP.FRAMES k.val || ((List.range 4).filterMap fun j => s.chip.avsLoop k.val j).any fun n => o == AVSL.SETPT n)) ∧
  (∀ (s : State) (k : Fin 8) (sel : Fin 16) (n : Nat) (rate : BitVec 16), s.chip.coreRuns = true → s.chip.get (AVSP.CFG_EN k.val) = 1 → sel.val ≠ 0xf → s.chip.avsLoop k.val sel.val = some n → ∃ t, Machine.exec (.avsTransitionRateWrite k sel true rate true) s = .next t ∧
      Effect s t (fun c => c.avsUpd k.val fun a => { a with holdS := a.holdS.set sel.val (some (1000 * rate.toNat)) }) [AVSP.FRAMES_COUNT k.val] [] [] [.avs k.val 0 0 (s.chip.get (LOOP.TARGET_VTGT n) == s.chip.get (AVSL.SETPT_SETPT n)) (s.chip.avsHw.get k.val).alert (s.chip.get (AVSL.CTRL_OWNER n) == 1)]) ∧
  (∀ (s : State) (k : Fin 8) (sel : Fin 16) (n v : Nat) (rate : BitVec 16), s.chip.coreRuns = true → s.chip.get (AVSP.CFG_EN k.val) = 1 → sel.val ≠ 0xf → s.chip.avsLoop k.val sel.val = some n → (s.chip.avsHw.get k.val).holdV[sel.val]? = some (some v) →
    ((s.chip.avsHw.get k.val).holdS[sel.val]?).join = none → (s.chip.avsHw.get k.val).holdR[sel.val]? ≠ some true → (s.chip.avsHw.get k.val).holdE[sel.val]? ≠ some true → s.chip.get (AVSL.CTRL_OWNER n) = 1 → s.chip.loopState n = 2 → v < 2 ^ 14 →
    s.chip.get (AVSL.VLIM_VMIN n) ≤ v → v ≤ s.chip.get (AVSL.VLIM_VMAX n) → 1000 * max rate.toNat 1 ≤ min (s.chip.get (AVSL.SLEW_SLEWMAX n)) 50000 → ∃ t, Machine.exec (.avsTransitionRateWrite k sel false rate true) s = .next t ∧
      t.chip.get (AVSL.SETPT_SETPT n) = v ∧ t.chip.get (AVSL.SLEW_SLEWCMD n) = 1000 * max rate.toNat 1 ∧ t.chip.get (AVSL.SETPT_HELD n) = 0 ∧ t.chip.get (AVSL.SETPT_HOLDV n) = 0 ∧ (t.chip.avsHw.get k.val).holdV[sel.val]? = some none ∧
      t.chip.outbox = s.chip.outbox ++ [.avs k.val 0 0 (s.chip.get (LOOP.TARGET_VTGT n) == v) (s.chip.avsHw.get k.val).alert true] ∧ t.chip.faultQ = s.chip.faultQ ∧
      Keeps s t (fun o => o == AVSL.SETPT n || o == AVSL.SLEW n || o == AVSP.FRAMES k.val || o == LOOP.TARGET n || o == CMPL.EVT n)) ∧
  (∀ (s : State) (k : Fin 8) (sel : Fin 16) (hold : Bool) (mv : BitVec 16), s.chip.coreRuns = true → s.chip.get (AVSP.CFG_EN k.val) = 1 → ∃ t, Machine.exec (.avsTargetVoltageWrite k sel hold mv false) s = .next t ∧
      Recorded s.chip t.chip (AVSP.EVT_CRCF k.val) (AVSP.EVTCNT_CRCCNT k.val) ∧
      Effect s t (fun c => c.avsUpd k.val fun a => { a with alert := true }) [AVSP.EVT_CRCF k.val, AVSP.EVTCNT_CRCCNT k.val, AVSP.FRAMES_COUNT k.val] [0xc0 + k.val] [] [.avs k.val 2 0 false true false]) ∧
  (∀ (s : State) (k : Fin 8) (sel : Fin 16), s.chip.coreRuns = true → s.chip.get (AVSP.CFG_EN k.val) = 1 → sel.val ≠ 0xf → s.chip.avsLoop k.val sel.val = none → ∃ t, Machine.exec (.avsResetVoltage k sel false true) s = .next t ∧
      Recorded s.chip t.chip (AVSP.EVT_UNMF k.val) (AVSP.EVTCNT_UNMCNT k.val) ∧
      Effect s t (fun c => c.avsUpd k.val fun a => { a with alert := true }) [AVSP.EVT_UNMF k.val, AVSP.EVTCNT_UNMCNT k.val, AVSP.FRAMES_COUNT k.val] [0xc0 + k.val] [] [.avs k.val 3 0 false true false]) ∧
  (∀ (s : State) (k : Fin 8), s.chip.coreRuns = true → s.chip.get (AVSP.CFG_EN k.val) = 1 → ∃ t, Machine.exec (.avsFrameTimeout k) s = .next t ∧
      Recorded s.chip t.chip (AVSP.EVT_FTOF k.val) (AVSP.EVTCNT_FTOCNT k.val) ∧ Effect s t id [AVSP.EVT_FTOF k.val, AVSP.EVTCNT_FTOCNT k.val] [0xc0 + k.val] [] []) ∧
  (∀ (s : State) (k : Fin 8) (sel : Fin 16) (mv : BitVec 16), s.chip.get (AVSP.CFG_EN k.val) = 0 → ∃ t, Machine.exec (.avsTargetVoltageWrite k sel false mv true) s = .next t ∧ t = s)

/-- The read commands of R267. The bits of the status word are the model's presumption (log entry 30); the rounding of an inexact current or temperature, and the temperature without an active phase, are free values (log entry 7). -/
def Obligations.AvsReadsAnswerTheirLoop : Prop :=
  (∀ (s : State) (k : Fin 8) (sel : Fin 16) (n : Nat), s.chip.coreRuns = true → s.chip.get (AVSP.CFG_EN k.val) = 1 → sel.val ≠ 0xf → s.chip.avsLoop k.val sel.val = some n → ∃ t, Machine.exec (.avsTargetVoltageRead k sel true) s = .next t ∧
      Effect s t id [AVSP.FRAMES_COUNT k.val] [] [] [.avs k.val 0 (s.chip.get (LOOP.TARGET_VTGT n) / 4) (s.chip.get (LOOP.TARGET_VTGT n) == s.chip.get (AVSL.SETPT_SETPT n)) (s.chip.avsHw.get k.val).alert (s.chip.get (AVSL.CTRL_OWNER n) == 1)]) ∧
  (∀ (s : State) (k : Fin 8) (sel : Fin 16) (n : Nat), s.chip.coreRuns = true → s.chip.get (AVSP.CFG_EN k.val) = 1 → sel.val ≠ 0xf → s.chip.avsLoop k.val sel.val = some n → ∃ t, Machine.exec (.avsTransitionRateRead k sel true) s = .next t ∧
      Effect s t id [AVSP.FRAMES_COUNT k.val] [] [] [.avs k.val 0 (s.chip.get (AVSL.SLEW_SLEWCMD n) / 1000) (s.chip.get (LOOP.TARGET_VTGT n) == s.chip.get (AVSL.SETPT_SETPT n)) (s.chip.avsHw.get k.val).alert (s.chip.get (AVSL.CTRL_OWNER n) == 1)]) ∧
  (∀ (s : State) (k : Fin 8) (sel : Fin 16) (n : Nat), s.chip.coreRuns = true → s.chip.get (AVSP.CFG_EN k.val) = 1 → sel.val ≠ 0xf → s.chip.avsLoop k.val sel.val = some n → s.chip.loopSum n ≤ 10000 → ∃ t, Machine.exec (.avsCurrentRead k sel true) s = .next t ∧
      (∃ v ∈ [(max (s.chip.loopSum n) 0 * 25 / 4).toNat, (max (s.chip.loopSum n) 0 * 25 / 4).toNat + 1], (4 ∣ s.chip.loopSum n * 25 → v = (max (s.chip.loopSum n) 0 * 25 / 4).toNat) ∧
        Effect s t (fun c => { c with freeCtr := t.chip.freeCtr }) [AVSP.FRAMES_COUNT k.val] [] [] [.avs k.val 0 v (s.chip.get (LOOP.TARGET_VTGT n) == s.chip.get (AVSL.SETPT_SETPT n)) (s.chip.avsHw.get k.val).alert (s.chip.get (AVSL.CTRL_OWNER n) == 1)])) ∧
  (∀ (s : State) (k : Fin 8) (sel : Fin 16) (n : Nat) (m : Int), s.chip.coreRuns = true → s.chip.get (AVSP.CFG_EN k.val) = 1 → sel.val ≠ 0xf → s.chip.avsLoop k.val sel.val = some n →
    (∃ p ∈ (s.chip.loopPh.get n).act, s.chip.getS (STB.STG_TEMP (p / 32 + 1) (p % 32)) = m) → (∀ p ∈ (s.chip.loopPh.get n).act, s.chip.getS (STB.STG_TEMP (p / 32 + 1) (p % 32)) ≤ m) → ∃ t, Machine.exec (.avsTemperatureRead k sel true) s = .next t ∧
      (∃ v ∈ [m * 10 / 8, m * 10 / 8 + 1], (4 ∣ m * 5 → v = m * 10 / 8) ∧
        Effect s t (fun c => { c with freeCtr := t.chip.freeCtr }) [AVSP.FRAMES_COUNT k.val] [] [] [.avs k.val 0 (bitsOf 16 v) (s.chip.get (LOOP.TARGET_VTGT n) == s.chip.get (AVSL.SETPT_SETPT n)) (s.chip.avsHw.get k.val).alert (s.chip.get (AVSL.CTRL_OWNER n) == 1)])) ∧
  (∀ (s : State) (k : Fin 8) (sel : Fin 16) (n : Nat), s.chip.coreRuns = true → s.chip.get (AVSP.CFG_EN k.val) = 1 → sel.val ≠ 0xf → s.chip.avsLoop k.val sel.val = some n → ∃ t, Machine.exec (.avsStatusRead k sel true) s = .next t ∧
      Effect s t id [AVSP.FRAMES_COUNT k.val] [] [] [.avs k.val 0 ((s.chip.get (LOOP.TARGET_VTGT n) == s.chip.get (AVSL.SETPT_SETPT n)).toNat * 2 ^ 15 + (s.chip.avsHw.get k.val).alert.toNat * 2 ^ 14 + (s.chip.get (AVSL.CTRL_OWNER n) == 1).toNat * 2 ^ 13)
        (s.chip.get (LOOP.TARGET_VTGT n) == s.chip.get (AVSL.SETPT_SETPT n)) (s.chip.avsHw.get k.val).alert (s.chip.get (AVSL.CTRL_OWNER n) == 1)]) ∧
  (∀ (s : State) (k : Fin 8) (sel : Fin 16) (n : Nat), s.chip.coreRuns = true → s.chip.get (AVSP.CFG_EN k.val) = 1 → sel.val ≠ 0xf → s.chip.avsLoop k.val sel.val = some n → ∃ t, Machine.exec (.avsVersionRead k sel false true) s = .next t ∧
      Effect s t id [AVSP.FRAMES_COUNT k.val] [] [] [.avs k.val 0 Config.avsVersion.val (s.chip.get (LOOP.TARGET_VTGT n) == s.chip.get (AVSL.SETPT_SETPT n)) (s.chip.avsHw.get k.val).alert (s.chip.get (AVSL.CTRL_OWNER n) == 1)]) ∧
  (∀ (s : State) (k : Fin 8) (sel : Fin 16) (n : Nat), s.chip.coreRuns = true → s.chip.get (AVSP.CFG_EN k.val) = 1 → sel.val ≠ 0xf → s.chip.avsLoop k.val sel.val = some n → ∃ t, Machine.exec (.avsVersionRead k sel true true) s = .next t ∧ Recorded s.chip t.chip (AVSP.EVT_UNSF k.val) (AVSP.EVTCNT_UNSCNT k.val) ∧
      Effect s t (fun c => c.avsUpd k.val fun a => { a with alert := true }) [AVSP.EVT_UNSF k.val, AVSP.EVTCNT_UNSCNT k.val, AVSP.FRAMES_COUNT k.val] [0xc0 + k.val] [] [.avs k.val 3 0 (s.chip.get (LOOP.TARGET_VTGT n) == s.chip.get (AVSL.SETPT_SETPT n)) true (s.chip.get (AVSL.CTRL_OWNER n) == 1)]) ∧
  (∀ (s : State) (k : Fin 8) (sel : Fin 16), s.chip.coreRuns = true → s.chip.get (AVSP.CFG_EN k.val) = 1 → sel.val ≠ 0xf → s.chip.avsLoop k.val sel.val = none → ∃ t, Machine.exec (.avsVersionRead k sel true true) s = .next t ∧ Recorded s.chip t.chip (AVSP.EVT_UNSF k.val) (AVSP.EVTCNT_UNSCNT k.val) ∧
      Effect s t (fun c => c.avsUpd k.val fun a => { a with alert := true }) [AVSP.EVT_UNSF k.val, AVSP.EVTCNT_UNSCNT k.val, AVSP.FRAMES_COUNT k.val] [0xc0 + k.val] [] [.avs k.val 3 0 false true false]) ∧
  (∀ (s : State) (k : Fin 8), s.chip.coreRuns = true → s.chip.get (AVSP.CFG_EN k.val) = 1 → ∃ t, Machine.exec (.avsVersionRead k 0xf true true) s = .next t ∧ Recorded s.chip t.chip (AVSP.EVT_UNSF k.val) (AVSP.EVTCNT_UNSCNT k.val) ∧
      Effect s t (fun c => c.avsUpd k.val fun a => { a with alert := true }) [AVSP.EVT_UNSF k.val, AVSP.EVTCNT_UNSCNT k.val, AVSP.FRAMES_COUNT k.val] [0xc0 + k.val] [] [.avs k.val 3 0 (((List.range 4).filterMap fun j => s.chip.avsLoop k.val j).all (fun n => s.chip.get (LOOP.TARGET_VTGT n) == s.chip.get (AVSL.SETPT_SETPT n)) && !((List.range 4).filterMap fun j => s.chip.avsLoop k.val j).isEmpty) true (((List.range 4).filterMap fun j => s.chip.avsLoop k.val j).all (fun n => s.chip.get (AVSL.CTRL_OWNER n) == 1) && !((List.range 4).filterMap fun j => s.chip.avsLoop k.val j).isEmpty)]) ∧
  (∀ (s : State) (k : Fin 8), s.chip.coreRuns = true → s.chip.get (AVSP.CFG_EN k.val) = 1 → ∃ t, Machine.exec (.avsStatusRead k 0xf true) s = .next t ∧ Recorded s.chip t.chip (AVSP.EVT_UNSF k.val) (AVSP.EVTCNT_UNSCNT k.val) ∧
      Effect s t (fun c => c.avsUpd k.val fun a => { a with alert := true }) [AVSP.EVT_UNSF k.val, AVSP.EVTCNT_UNSCNT k.val, AVSP.FRAMES_COUNT k.val] [0xc0 + k.val] [] [.avs k.val 3 0 (((List.range 4).filterMap fun j => s.chip.avsLoop k.val j).all (fun n => s.chip.get (LOOP.TARGET_VTGT n) == s.chip.get (AVSL.SETPT_SETPT n)) && !((List.range 4).filterMap fun j => s.chip.avsLoop k.val j).isEmpty) true (((List.range 4).filterMap fun j => s.chip.avsLoop k.val j).all (fun n => s.chip.get (AVSL.CTRL_OWNER n) == 1) && !((List.range 4).filterMap fun j => s.chip.avsLoop k.val j).isEmpty)]) ∧
  (∀ (s : State) (k : Fin 8), s.chip.coreRuns = true → s.chip.get (AVSP.CFG_EN k.val) = 1 → ∃ t, Machine.exec (.avsCurrentRead k 0xf true) s = .next t ∧ Recorded s.chip t.chip (AVSP.EVT_UNSF k.val) (AVSP.EVTCNT_UNSCNT k.val) ∧
      Effect s t (fun c => c.avsUpd k.val fun a => { a with alert := true }) [AVSP.EVT_UNSF k.val, AVSP.EVTCNT_UNSCNT k.val, AVSP.FRAMES_COUNT k.val] [0xc0 + k.val] [] [.avs k.val 3 0 (((List.range 4).filterMap fun j => s.chip.avsLoop k.val j).all (fun n => s.chip.get (LOOP.TARGET_VTGT n) == s.chip.get (AVSL.SETPT_SETPT n)) && !((List.range 4).filterMap fun j => s.chip.avsLoop k.val j).isEmpty) true (((List.range 4).filterMap fun j => s.chip.avsLoop k.val j).all (fun n => s.chip.get (AVSL.CTRL_OWNER n) == 1) && !((List.range 4).filterMap fun j => s.chip.avsLoop k.val j).isEmpty)]) ∧
  (∀ (s : State) (k : Fin 8), s.chip.coreRuns = true → s.chip.get (AVSP.CFG_EN k.val) = 1 → ∃ t, Machine.exec (.avsTemperatureRead k 0xf true) s = .next t ∧ Recorded s.chip t.chip (AVSP.EVT_UNSF k.val) (AVSP.EVTCNT_UNSCNT k.val) ∧
      Effect s t (fun c => c.avsUpd k.val fun a => { a with alert := true }) [AVSP.EVT_UNSF k.val, AVSP.EVTCNT_UNSCNT k.val, AVSP.FRAMES_COUNT k.val] [0xc0 + k.val] [] [.avs k.val 3 0 (((List.range 4).filterMap fun j => s.chip.avsLoop k.val j).all (fun n => s.chip.get (LOOP.TARGET_VTGT n) == s.chip.get (AVSL.SETPT_SETPT n)) && !((List.range 4).filterMap fun j => s.chip.avsLoop k.val j).isEmpty) true (((List.range 4).filterMap fun j => s.chip.avsLoop k.val j).all (fun n => s.chip.get (AVSL.CTRL_OWNER n) == 1) && !((List.range 4).filterMap fun j => s.chip.avsLoop k.val j).isEmpty)]) ∧
  (∀ (s : State) (k : Fin 8), s.chip.coreRuns = true → s.chip.get (AVSP.CFG_EN k.val) = 1 → ∃ t, Machine.exec (.avsTargetVoltageRead k 0xf true) s = .next t ∧ Recorded s.chip t.chip (AVSP.EVT_UNSF k.val) (AVSP.EVTCNT_UNSCNT k.val) ∧
      Effect s t (fun c => c.avsUpd k.val fun a => { a with alert := true }) [AVSP.EVT_UNSF k.val, AVSP.EVTCNT_UNSCNT k.val, AVSP.FRAMES_COUNT k.val] [0xc0 + k.val] [] [.avs k.val 3 0 (((List.range 4).filterMap fun j => s.chip.avsLoop k.val j).all (fun n => s.chip.get (LOOP.TARGET_VTGT n) == s.chip.get (AVSL.SETPT_SETPT n)) && !((List.range 4).filterMap fun j => s.chip.avsLoop k.val j).isEmpty) true (((List.range 4).filterMap fun j => s.chip.avsLoop k.val j).all (fun n => s.chip.get (AVSL.CTRL_OWNER n) == 1) && !((List.range 4).filterMap fun j => s.chip.avsLoop k.val j).isEmpty)]) ∧
  (∀ (s : State) (k : Fin 8), s.chip.coreRuns = true → s.chip.get (AVSP.CFG_EN k.val) = 1 → ∃ t, Machine.exec (.avsTransitionRateRead k 0xf true) s = .next t ∧ Recorded s.chip t.chip (AVSP.EVT_UNSF k.val) (AVSP.EVTCNT_UNSCNT k.val) ∧
      Effect s t (fun c => c.avsUpd k.val fun a => { a with alert := true }) [AVSP.EVT_UNSF k.val, AVSP.EVTCNT_UNSCNT k.val, AVSP.FRAMES_COUNT k.val] [0xc0 + k.val] [] [.avs k.val 3 0 (((List.range 4).filterMap fun j => s.chip.avsLoop k.val j).all (fun n => s.chip.get (LOOP.TARGET_VTGT n) == s.chip.get (AVSL.SETPT_SETPT n)) && !((List.range 4).filterMap fun j => s.chip.avsLoop k.val j).isEmpty) true (((List.range 4).filterMap fun j => s.chip.avsLoop k.val j).all (fun n => s.chip.get (AVSL.CTRL_OWNER n) == 1) && !((List.range 4).filterMap fun j => s.chip.avsLoop k.val j).isEmpty)]) ∧
  (∀ (s : State) (k : Fin 8), s.chip.coreRuns = true → s.chip.get (AVSP.CFG_EN k.val) = 1 → ∃ t, Machine.exec (.avsVersionRead k 0xf false true) s = .next t ∧ Recorded s.chip t.chip (AVSP.EVT_UNSF k.val) (AVSP.EVTCNT_UNSCNT k.val) ∧
      Effect s t (fun c => c.avsUpd k.val fun a => { a with alert := true }) [AVSP.EVT_UNSF k.val, AVSP.EVTCNT_UNSCNT k.val, AVSP.FRAMES_COUNT k.val] [0xc0 + k.val] [] [.avs k.val 3 0 (((List.range 4).filterMap fun j => s.chip.avsLoop k.val j).all (fun n => s.chip.get (LOOP.TARGET_VTGT n) == s.chip.get (AVSL.SETPT_SETPT n)) && !((List.range 4).filterMap fun j => s.chip.avsLoop k.val j).isEmpty) true (((List.range 4).filterMap fun j => s.chip.avsLoop k.val j).all (fun n => s.chip.get (AVSL.CTRL_OWNER n) == 1) && !((List.range 4).filterMap fun j => s.chip.avsLoop k.val j).isEmpty)])

/-- INPUT_SAMPLE's count and SHORTED_FET (R304). -/
def Obligations.AShortedFetIsCaught : Prop :=
  (∀ (s : State) (vins hsout : Nat) (shunt : Int), s.chip.domOn .hka = true → s.chip.power.isolated = false → s.chip.gridOrTb3 gridInput 1 = true → s.chip.get HSW.CTRL_EN = 1 → s.chip.get HSW.STAT_STATE ≠ 2 → s.chip.get HSW.STAT_STATE ≠ 3 →
    ∃ t, Machine.exec (.inputSample vins hsout shunt) s = .next t ∧
      ((s.chip.hsw.lowAt = none ∨ ∀ a ∈ s.chip.hsw.lowAt, a + 1000 ≤ s.chip.now) → t.chip.hsw.shN = (if ((62500 * s.chip.get HSW.FAST_ISHORT : Nat) : Int) < (t.chip.hsw.hist.headD ⟨0, 0, 0⟩).iin then min (s.chip.hsw.shN + 1) 65536 else 0)) ∧
      (∀ a ∈ s.chip.hsw.lowAt, s.chip.now < a + 1000 → t.chip.hsw.shN = s.chip.hsw.shN)) ∧
  (∀ (s : State), s.chip.domOn .hka = true → s.chip.get HSW.CTRL_EN = 1 → s.chip.get HSW.STAT_STATE ≠ 2 → s.chip.get HSW.STAT_STATE ≠ 3 → s.chip.get HSW.STAT_STATE ≠ 6 → 100 ≤ s.chip.hsw.shN →
    ∃ t, Machine.exec .shortedFet s = .next t ∧ t.chip.get HSW.STAT_STATE = 6 ∧ t.chip.get HSW.STAT_CAUSE = 8 ∧ t.chip.get HSW.EVT_SHORTF = 1 ∧
      Effect s t id [HSW.STAT_STATE, HSW.STAT_CAUSE, HSW.EVT_SHORTF] [8] [⟨0x8207, 0, s.chip.reg HSW.VI⟩] []) ∧
  (∀ (s : State), (s.chip.hsw.shN < 100 ∨ s.chip.get HSW.CTRL_EN = 0 ∨ s.chip.get HSW.STAT_STATE = 2 ∨ s.chip.get HSW.STAT_STATE = 3) → ∃ t, Machine.exec .shortedFet s = .next t ∧ t = s)

/-- INPUT_SAMPLE (R294, R297, R299, R302, R315). The rounding of a quotient is the model's open value (log entry 7), so the statement holds for either neighbour. -/
def Obligations.InputSamplesAreCounted : Prop :=
  (∀ (s : State) (vins hsout : Nat) (shunt : Int), s.chip.domOn .hka = true → s.chip.power.isolated = false → s.chip.gridOrTb3 gridInput 1 = true → s.chip.get HSW.SCALE_RSH ≠ 0 →
    ∃ t, Machine.exec (.inputSample vins hsout shunt) s = .next t ∧
      t.chip.hsw.hist = (t.chip.hsw.hist.headD ⟨0, 0, 0⟩ :: s.chip.hsw.hist).take 255 ∧
      (256 * (t.chip.hsw.hist.headD ⟨0, 0, 0⟩).vin < vins * s.chip.get HSW.SCALE_DIVV + 256 ∧ vins * s.chip.get HSW.SCALE_DIVV < 256 * (t.chip.hsw.hist.headD ⟨0, 0, 0⟩).vin + 256) ∧
      (256 * (t.chip.hsw.hist.headD ⟨0, 0, 0⟩).vout < hsout * s.chip.get HSW.SCALE_DIVV + 256 ∧ hsout * s.chip.get HSW.SCALE_DIVV < 256 * (t.chip.hsw.hist.headD ⟨0, 0, 0⟩).vout + 256) ∧
      ((s.chip.get HSW.SCALE_RSH : Int) * (t.chip.hsw.hist.headD ⟨0, 0, 0⟩).iin < shunt * 1000 + s.chip.get HSW.SCALE_RSH ∧ shunt * 1000 < (s.chip.get HSW.SCALE_RSH : Int) * (t.chip.hsw.hist.headD ⟨0, 0, 0⟩).iin + s.chip.get HSW.SCALE_RSH) ∧
      t.chip.hsw.energy = s.chip.hsw.energy + ((t.chip.hsw.hist.headD ⟨0, 0, 0⟩).vin : Int) * (t.chip.hsw.hist.headD ⟨0, 0, 0⟩).iin ∧
      (s.chip.hsw.hist = [] → (t.chip.hsw.hist.headD ⟨0, 0, 0⟩).vin < 655350000 → 10000 * t.chip.get HSW.VI_VIN < (t.chip.hsw.hist.headD ⟨0, 0, 0⟩).vin + 10000 ∧ (t.chip.hsw.hist.headD ⟨0, 0, 0⟩).vin < 10000 * t.chip.get HSW.VI_VIN + 10000) ∧
      t.chip.hsw.uvN = consec s.chip.hsw.uvN (decide ((t.chip.hsw.hist.headD ⟨0, 0, 0⟩).vin < 10000 * s.chip.get HSW.VWIN_UVTH)) ∧
      t.chip.hsw.ovN = consec s.chip.hsw.ovN (decide (10000 * s.chip.get HSW.VWIN_OVTH < (t.chip.hsw.hist.headD ⟨0, 0, 0⟩).vin)) ∧
      t.chip.hsw.cbN = (if (s.chip.get HSW.STAT_STATE = 2 ∨ s.chip.get HSW.STAT_STATE = 3) ∧ s.chip.get HSW.CTRL_EN = 1 then consec s.chip.hsw.cbN (decide (((62500 * s.chip.get HSW.CB_ICB : Nat) : Int) < (t.chip.hsw.hist.headD ⟨0, 0, 0⟩).iin)) else 0) ∧
      t.chip.hsw.qualAt = (if t.chip.hsw.uvN = 0 ∧ t.chip.hsw.ovN = 0 then s.chip.hsw.qualAt else s.chip.now) ∧
      (s.chip.get HSW.STAT_GATE = 0 → t.chip.hsw.soa = s.chip.hsw.soa) ∧
      (s.chip.get HSW.STAT_GATE = 1 → t.chip.hsw.soa = max 0 (s.chip.hsw.soa + (max 0 (((t.chip.hsw.hist.headD ⟨0, 0, 0⟩).vin : Int) - (t.chip.hsw.hist.headD ⟨0, 0, 0⟩).vout) * max 0 (t.chip.hsw.hist.headD ⟨0, 0, 0⟩).iin - (s.chip.get HSW.SOA_SOAP * 10 ^ 12 : Nat)))) ∧
      t.chip.faultQ = s.chip.faultQ ∧ t.chip.get HSW.STAT_STATE = s.chip.get HSW.STAT_STATE ∧ Keeps s t (fun o => span 0x22000 0x23200 o || hostSide o))

/-- HSW_QUALIFIED, HSW_INPUT_GOOD, RETRY_DELAY_EXPIRE and TRIES_RESET (R296 to R303). -/
def Obligations.TheInputQualifiesAndComesOn : Prop :=
  (∀ (s : State), s.chip.get HSW.STAT_STATE = 1 → s.chip.get HSW.CTRL_EN = 1 → s.chip.hsw.qualAt + 1000 * orOne (s.chip.get HSW.QUAL_QUALT) ≤ s.chip.now → ∃ t, Machine.exec .hswQualified s = .next t ∧
      t.chip.get HSW.STAT_STATE = 2 ∧ t.chip.get HSW.STAT_GATE = 1 ∧
      Effect s t (fun c => c.hswUpd fun h => { h with inAt := s.chip.now, full := false, goodAt := none, soa := 0, cbN := 0 }) [HSW.STAT_STATE, HSW.STAT_GATE] [] [] []) ∧
  (∀ (s : State), (s.chip.get HSW.STAT_STATE = 1 → s.chip.now < s.chip.hsw.qualAt + 1000 * orOne (s.chip.get HSW.QUAL_QUALT)) → (s.chip.get HSW.STAT_STATE = 3 → s.chip.fw.diesStep = true ∧ s.chip.fw.autoDone = true) → ∃ t, Machine.exec .hswQualified s = .next t ∧ t = s) ∧
  (∀ (s : State), s.chip.get HSW.STAT_STATE = 1 → s.chip.get HSW.CTRL_EN = 0 → s.chip.hsw.qualAt + 1000 * orOne (s.chip.get HSW.QUAL_QUALT) ≤ s.chip.now → s.chip.hsw.requal = false → s.chip.fw.diesStep = true → s.chip.fw.autoDone = true → s.chip.bud.queue = [] →
    ∃ t, Machine.exec .hswQualified s = .next t ∧ t.chip.get HSW.STAT_STATE = 3 ∧ t.chip.get SEQ.GSTAT_INGOOD = 1 ∧ t.chip.get BUD.STAT_INHIBIT = 0 ∧ t.chip.hsw.onAt = s.chip.now ∧ t.chip.hsw.uvN = 0 ∧ t.chip.hsw.ovN = 0 ∧
      t.chip.bud.onSince = some s.chip.now ∧ t.chip.bud.held = s.chip.bud.held ∧ t.chip.faultQ = s.chip.faultQ ∧ t.chip.outbox = s.chip.outbox ∧ Keeps s t (fun o => o == HSW.STAT || o == SEQ.GSTAT || span 0x23000 0x23200 o)) ∧
  (∀ (s : State) (a : Nat) (w : BudReq), s.chip.get HSW.STAT_STATE = 2 → s.chip.hsw.goodAt = some a → a + 1000 ≤ s.chip.now → s.chip.hsw.requal = false → s.chip.fw.diesStep = true → s.chip.fw.autoDone = true → s.chip.bud.queue = [w] → w.untested = true → s.chip.tooBig w.ask.peak = false →
    ∃ t, Machine.exec .hswInputGood s = .next t ∧ t.chip.get HSW.STAT_STATE = 3 ∧ t.chip.get SEQ.GSTAT_INGOOD = 1 ∧ t.chip.get BUD.STAT_INHIBIT = 0 ∧ t.chip.hsw.onAt = s.chip.now ∧ t.chip.hsw.uvN = 0 ∧ t.chip.hsw.ovN = 0 ∧
      t.chip.bud.onSince = some s.chip.now ∧ t.chip.bud.queue = [{ w with untested := false }] ∧ t.chip.faultQ = s.chip.faultQ ∧ t.chip.outbox = s.chip.outbox ∧ Keeps s t (fun o => o == HSW.STAT || o == SEQ.GSTAT || span 0x23000 0x23200 o)) ∧
  (∀ (s : State), s.chip.get HSW.STAT_STATE = 4 → s.chip.get SEQ.GSTAT_ALLOFF = 1 → (∀ a ∈ s.chip.hsw.tripAt, a + 1000 * s.chip.get HSW.RETRY_TRETRY ≤ s.chip.now) → ∃ t, Machine.exec .retryDelayExpire s = .next t ∧
      t.chip.get HSW.STAT_STATE = 1 ∧ Effect s t (fun c => c.hswUpd fun h => { h with qualAt := s.chip.now }) [HSW.STAT_STATE] [] [] []) ∧
  (∀ (s : State), (s.chip.get HSW.STAT_STATE ≠ 4 ∨ s.chip.get SEQ.GSTAT_ALLOFF = 0 ∨ ∃ a ∈ s.chip.hsw.tripAt, s.chip.now < a + 1000 * s.chip.get HSW.RETRY_TRETRY) → ∃ t, Machine.exec .retryDelayExpire s = .next t ∧ t = s) ∧
  (∀ (s : State), s.chip.get HSW.STAT_STATE = 3 → s.chip.hsw.onAt + 1000000 ≤ s.chip.now → ∃ t, Machine.exec .triesReset s = .next t ∧ t.chip.get HSW.STAT_TRIES = 0 ∧ Effect s t id [HSW.STAT_TRIES] [] [] []) ∧
  (∀ (s : State), (s.chip.get HSW.STAT_STATE ≠ 3 ∨ s.chip.now < s.chip.hsw.onAt + 1000000) → ∃ t, Machine.exec .triesReset s = .next t ∧ t = s)

/-- FAST_BREAKER, SLOW_BREAKER, FET_SOA_TRIP, INRUSH_TIMEOUT and INPUT_LOSS (R298 to R303, R335, R527); that a loss with every rail off ends WAIT at once is log entry 146. -/
def Obligations.TripsAndLossesDropTheInput : Prop :=
  (∀ (s : State) (amps16 : Nat), s.chip.mayTrip = true → s.chip.get HSW.FAST_IFAST < amps16 → ∃ t, Machine.exec (.fastBreaker amps16) s = .next t ∧
      Recorded s.chip t.chip HSW.EVT_FASTF HSW.EVTCNT_FASTCNT ∧ t.chip.get HSW.STAT_GATE = 0 ∧ t.chip.hsw.pull = .fast ∧ t.chip.get HSW.SOAACC_ACC = 0 ∧ t.chip.hsw.soa = 0 ∧ t.chip.get HSW.STAT_CAUSE = 1 ∧ t.chip.get HSW.STAT_TRIES = counted s.chip HSW.STAT_TRIES ∧
      t.chip.hsw.tripAt = some s.chip.now ∧ t.chip.get SEQ.GSTAT_INGOOD = 0 ∧ t.chip.get BUD.STAT_INHIBIT = 1 ∧
      t.chip.get HSW.STAT_STATE = (if s.chip.get HSW.RETRY_RETRYN ≤ counted s.chip HSW.STAT_TRIES then 5 else if t.chip.get SEQ.GSTAT_ALLOFF = 1 ∧ s.chip.get HSW.RETRY_TRETRY = 0 then 1 else 4) ∧
      t.chip.faultQ = s.chip.faultQ ++ ⟨0x2202, 0, s.chip.reg HSW.VI⟩ :: (if s.chip.get HSW.RETRY_RETRYN ≤ counted s.chip HSW.STAT_TRIES then [⟨0x6206, 0, s.chip.reg HSW.VI⟩] else []) ∧
      (s.chip.get HSW.STAT_STATE = 3 → t.chip.bud.held = [] ∧ t.chip.dones = [] ∧ ∀ r : RailId, (s.chip.railState r.val = 3 ∨ s.chip.railState r.val = 4) → (s.chip.rails.get r.val).ordered = false →
        (t.chip.rails.get r.val).ordered = true ∧ (t.chip.rails.get r.val).latch = false ∧ (t.chip.rails.get r.val).cause = 0xa) ∧
      Keeps s t (fun o => span 0x1000 0x1800 o || span 0x22000 0x23200 o || span 0x24000 0x25300 o || hostSide o || onDies o)) ∧
  (∀ (s : State), s.chip.mayTrip = true → orOne (s.chip.get HSW.CB_TCB) ≤ s.chip.hsw.cbN → ∃ t, Machine.exec .slowBreaker s = .next t ∧
      Recorded s.chip t.chip HSW.EVT_CBF HSW.EVTCNT_CBCNT ∧ t.chip.get HSW.STAT_GATE = 0 ∧ t.chip.get HSW.STAT_CAUSE = 2 ∧ t.chip.get HSW.STAT_TRIES = counted s.chip HSW.STAT_TRIES ∧ t.chip.hsw.tripAt = some s.chip.now ∧
      t.chip.get HSW.STAT_STATE = (if s.chip.get HSW.RETRY_RETRYN ≤ counted s.chip HSW.STAT_TRIES then 5 else if t.chip.get SEQ.GSTAT_ALLOFF = 1 ∧ s.chip.get HSW.RETRY_TRETRY = 0 then 1 else 4) ∧
      t.chip.faultQ = s.chip.faultQ ++ ⟨0x2203, 0, s.chip.reg HSW.VI⟩ :: (if s.chip.get HSW.RETRY_RETRYN ≤ counted s.chip HSW.STAT_TRIES then [⟨0x6206, 0, s.chip.reg HSW.VI⟩] else []) ∧
      Keeps s t (fun o => span 0x1000 0x1800 o || span 0x22000 0x23200 o || span 0x24000 0x25300 o || hostSide o || onDies o)) ∧
  (∀ (s : State), s.chip.mayTrip = true → ((orOne (s.chip.get HSW.SOA_SOAE) * 10 ^ 15 : Nat) : Int) ≤ s.chip.hsw.soa → ∃ t, Machine.exec .fetSoaTrip s = .next t ∧
      Recorded s.chip t.chip HSW.EVT_SOAF HSW.EVTCNT_SOACNT ∧ t.chip.get HSW.STAT_GATE = 0 ∧ t.chip.get HSW.STAT_CAUSE = 3 ∧ t.chip.get HSW.STAT_TRIES = counted s.chip HSW.STAT_TRIES ∧ t.chip.hsw.tripAt = some s.chip.now ∧
      t.chip.get HSW.STAT_STATE = (if s.chip.get HSW.RETRY_RETRYN ≤ counted s.chip HSW.STAT_TRIES then 5 else if t.chip.get SEQ.GSTAT_ALLOFF = 1 ∧ s.chip.get HSW.RETRY_TRETRY = 0 then 1 else 4) ∧
      t.chip.faultQ = s.chip.faultQ ++ ⟨0x2204, 0, s.chip.reg HSW.VI⟩ :: (if s.chip.get HSW.RETRY_RETRYN ≤ counted s.chip HSW.STAT_TRIES then [⟨0x6206, 0, s.chip.reg HSW.VI⟩] else []) ∧
      Keeps s t (fun o => span 0x1000 0x1800 o || span 0x22000 0x23200 o || span 0x24000 0x25300 o || hostSide o || onDies o)) ∧
  (∀ (s : State), s.chip.get HSW.CTRL_EN = 1 → s.chip.get HSW.STAT_STATE = 2 → s.chip.hsw.inAt + 1000 * s.chip.get HSW.INR_TINR ≤ s.chip.now → ∃ t, Machine.exec .inrushTimeout s = .next t ∧
      Recorded s.chip t.chip HSW.EVT_INRTOF HSW.EVTCNT_INRTOCNT ∧ t.chip.get HSW.STAT_GATE = 0 ∧ t.chip.hsw.pull = .normal ∧ t.chip.get HSW.STAT_CAUSE = 4 ∧ t.chip.get HSW.STAT_TRIES = counted s.chip HSW.STAT_TRIES ∧ t.chip.hsw.tripAt = some s.chip.now ∧
      t.chip.get HSW.STAT_STATE = (if s.chip.get HSW.RETRY_RETRYN ≤ counted s.chip HSW.STAT_TRIES then 5 else if t.chip.get SEQ.GSTAT_ALLOFF = 1 ∧ s.chip.get HSW.RETRY_TRETRY = 0 then 1 else 4) ∧
      t.chip.faultQ = s.chip.faultQ ++ ⟨0x2205, 0, s.chip.reg HSW.VI⟩ :: (if s.chip.get HSW.RETRY_RETRYN ≤ counted s.chip HSW.STAT_TRIES then [⟨0x6206, 0, s.chip.reg HSW.VI⟩] else []) ∧
      t.chip.rails = s.chip.rails ∧ t.chip.bud = s.chip.bud ∧ Keeps s t (fun o => span 0x22000 0x23200 o || o == SEQ.GSTAT || hostSide o)) ∧
  (∀ (s : State), s.chip.get HSW.STAT_STATE = 3 → (orOne (s.chip.get HSW.QUAL_UVT) ≤ s.chip.hsw.uvN ∨ orOne (s.chip.get HSW.QUAL_UVT) ≤ s.chip.hsw.ovN) → s.chip.hsw.tripAt = none → ∃ t, Machine.exec .inputLoss s = .next t ∧
      Recorded s.chip t.chip HSW.EVT_LOSSF HSW.EVTCNT_LOSSCNT ∧ t.chip.get HSW.STAT_GATE = 0 ∧ t.chip.get HSW.STAT_TRIES = s.chip.get HSW.STAT_TRIES ∧
      t.chip.get HSW.STAT_CAUSE = (if orOne (s.chip.get HSW.QUAL_UVT) ≤ s.chip.hsw.ovN then 6 else 5) ∧
      t.chip.faultQ = s.chip.faultQ ++ [⟨if orOne (s.chip.get HSW.QUAL_UVT) ≤ s.chip.hsw.ovN then 0x2201 else 0x2200, 0, s.chip.reg HSW.VI⟩] ∧
      t.chip.get HSW.STAT_STATE = (if t.chip.get SEQ.GSTAT_ALLOFF = 1 then 1 else 4) ∧ t.chip.get SEQ.GSTAT_INGOOD = 0 ∧ t.chip.hsw.requal = true ∧ t.chip.bud.held = [] ∧ t.chip.bud.last = none ∧ t.chip.dones = [] ∧
      (∀ r : RailId, (s.chip.railState r.val = 3 ∨ s.chip.railState r.val = 4) → (s.chip.rails.get r.val).ordered = false →
        (t.chip.rails.get r.val).ordered = true ∧ (t.chip.rails.get r.val).latch = false ∧ (t.chip.rails.get r.val).cause = 0xa) ∧
      (∀ r : RailId, (s.chip.railState r.val = 0 ∨ s.chip.railState r.val = 1 ∨ s.chip.railState r.val = 2) → t.chip.railState r.val = 0) ∧
      Keeps s t (fun o => span 0x1000 0x1800 o || span 0x22000 0x23200 o || span 0x24000 0x25300 o || hostSide o || onDies o))

/-- LEAVE_REQUEST, BUDGET_GRANT, LEAVE_WITHDRAW, BUDGET_WAIT_LIMIT, LEAVE_DONE and LEAVE_EXPIRE (R305 to R313). -/
def Obligations.LeaveIsAskedGrantedAndEnded : Prop :=
  (∀ (s : State) (k : Nat) (a : Ask), s.chip.coreRuns = true → s.chip.asks[k]? = some a → a.who ∉ s.chip.drops → (s.chip.inputOn && s.chip.tooBig a.peak) = false → (a.who = .nvm ∨ (∃ r : RailId, a.who = .rail r.val) ∨ (∃ d : DieId, a.who = .die (d.val + 1)) ∨ ∃ n : LoopId, a.who = .tune n.val) →
    ∃ t, Machine.exec (.leaveRequest k) s = .next t ∧ t.chip.asks = s.chip.asks.eraseIdx k ∧ t.chip.bud.queue = s.chip.bud.queue ++ [⟨a, s.chip.bud.stamp, s.chip.onTime, !s.chip.inputOn⟩] ∧ t.chip.bud.held = s.chip.bud.held ∧
      t.chip.get BUD.STAT_QLEN = (s.chip.bud.queue.length + 1) % 2 ^ BUD.STAT_QLEN.width ∧ t.chip.faultQ = s.chip.faultQ ∧ t.chip.outbox = s.chip.outbox ∧ Keeps s t (fun o => span 0x23000 0x23200 o)) ∧
  (∀ (s : State) (k n pk dur prio : Nat), s.chip.coreRuns = true → s.chip.asks[k]? = some ⟨.die n, pk, dur, prio⟩ → .die n ∉ s.chip.drops → s.chip.inputOn = true → s.chip.tooBig pk = true → s.chip.fw.dieSeq ≠ some n →
    ∃ t, Machine.exec (.leaveRequest k) s = .next t ∧ t.chip.bud = s.chip.bud ∧ t.chip.get BUD.LAST_REASON = 1 ∧ t.chip.get BUD.LAST_REQ = (0x40 + n) % 2 ^ BUD.LAST_REQ.width ∧ Recorded s.chip t.chip BUD.EVT_REFF BUD.EVTCNT_REFCNT ∧ (t.chip.dies.get n).asked = false ∧
      Effect s t (fun c => { c with asks := c.asks.eraseIdx k, dies := c.dies.upd n fun h => { h with asked := false } }) [BUD.LAST_REQ, BUD.LAST_REASON, BUD.EVT_REFF, BUD.EVTCNT_REFCNT] [9] [⟨0x4013, n, 0⟩] []) ∧
  (∀ (s : State) (k n m pk dur prio : Nat), s.chip.coreRuns = true → s.chip.asks[k]? = some ⟨.die n, pk, dur, prio⟩ → .die n ∉ s.chip.drops → s.chip.inputOn = true → s.chip.tooBig pk = true → s.chip.fw.dieSeq = some n → n < m → m ≤ 7 →
    bitAt (s.chip.get TOP.DIECFG_PXUSE) (m - 1) = true → s.chip.dieOn m = false → (s.chip.dies.get m).asked = false → (∀ j < m, n < j → bitAt (s.chip.get TOP.DIECFG_PXUSE) (j - 1) = false ∨ s.chip.dieOn j = true) →
    ∃ t, Machine.exec (.leaveRequest k) s = .next t ∧ t.chip.bud = s.chip.bud ∧ t.chip.get BUD.LAST_REASON = 1 ∧ (t.chip.dies.get n).asked = false ∧ (t.chip.dies.get m).asked = true ∧ t.chip.fw.dieSeq = some m ∧
      t.chip.asks = s.chip.asks.eraseIdx k ++ [⟨.die m, s.chip.get BUD.DIECFG_PEAKW, orOne (s.chip.get BUD.DIECFG_DUR), s.chip.get BUD.PRIO_DIE⟩] ∧ t.chip.faultQ = s.chip.faultQ ++ [⟨0x4013, n, 0⟩] ∧ t.chip.outbox = s.chip.outbox) ∧
  (∀ (s : State) (tileOk : Bool) (w : BudReq), s.chip.coreRuns = true → s.chip.grantable = some w → w.ask.who = .nvm → s.chip.store.leave = .asked → (∀ l : Fin 8, (s.chip.hintHw.get l.val).ready = none) →
    ∃ t, Machine.exec (.budgetGrant tileOk) s = .next t ∧ t.chip.bud.held = s.chip.bud.held ++ [⟨.nvm, w.ask.peak, s.chip.now + w.ask.dur⟩] ∧ t.chip.bud.last = some (w.ask.peak, s.chip.now) ∧ t.chip.bud.queue = s.chip.bud.queue.filter (fun q => q.ask.who != .nvm) ∧
      t.chip.get BUD.WMAX_WMAX = min (max (s.chip.get BUD.WMAX_WMAX) (s.chip.onTime - w.onAt)) (2 ^ 32 - 1) ∧ Recorded s.chip t.chip BUD.EVT_GRNTF BUD.EVTCNT_GRNTCNT ∧ t.chip.store.leave = .held ∧ t.chip.get NVM.STAT_LEAVE = 1 ∧ t.chip.faultQ = s.chip.faultQ ∧ t.chip.outbox = s.chip.outbox ∧
      Keeps s t (fun o => span 0x23000 0x23200 o || o == NVM.STAT)) ∧
  (∀ (s : State) (r : RailId) (w : BudReq), s.chip.coreRuns = true → s.chip.grantable = some w → w.ask.who = .rail r.val → s.chip.railState r.val = 2 → (s.chip.rails.get r.val).asked = true → s.chip.flt.inj = none → (∀ l : Fin 8, (s.chip.hintHw.get l.val).ready = none) →
    ∃ t, Machine.exec (.budgetGrant true) s = .next t ∧ t.chip.bud.held = s.chip.bud.held ++ [⟨.rail r.val, w.ask.peak, s.chip.now + w.ask.dur⟩] ∧ t.chip.bud.last = some (w.ask.peak, s.chip.now) ∧ Recorded s.chip t.chip BUD.EVT_GRNTF BUD.EVTCNT_GRNTCNT ∧
      t.chip.railState r.val = 3 ∧ (t.chip.rails.get r.val).asked = false ∧ (t.chip.rails.get r.val).leave = true ∧ (t.chip.rails.get r.val).dwell = s.chip.get (SEQR.TIMING_DWELL r.val) ∧ (t.chip.rails.get r.val).chatlim = s.chip.get (SEQR.CFG_CHATLIM r.val) ∧
      (r.val < 32 → t.chip.loopCmds = s.chip.loopCmds ++ [(r.val, .start)]) ∧ (32 ≤ r.val → t.chip.loopCmds = s.chip.loopCmds ∧ t.chip.get (SEQR.STAT_XEN r.val) = 1) ∧
      t.chip.faultQ = s.chip.faultQ ∧ Keeps s t (fun o => span 0x23000 0x25300 o || hostSide o)) ∧
  (∀ (s : State) (d : DieId) (w : BudReq) (tileOk : Bool), s.chip.coreRuns = true → s.chip.grantable = some w → w.ask.who = .die (d.val + 1) → s.chip.dieOn (d.val + 1) = false → (s.chip.dies.get (d.val + 1)).asked = true → (∀ l : Fin 8, (s.chip.hintHw.get l.val).ready = none) →
    ∃ t, Machine.exec (.budgetGrant tileOk) s = .next t ∧ t.chip.bud.held = s.chip.bud.held ++ [⟨.die (d.val + 1), w.ask.peak, s.chip.now + w.ask.dur⟩] ∧ Recorded s.chip t.chip BUD.EVT_GRNTF BUD.EVTCNT_GRNTCNT ∧
      t.chip.dieOn (d.val + 1) = true ∧ (t.chip.dies.get (d.val + 1)).training = true ∧ (t.chip.dies.get (d.val + 1)).asked = false ∧ t.chip.get (LINK.LINKSTAT_WDOG (d.val + 1)) = 0 ∧ (∀ k : DieId, k ≠ d → t.chip.dieOn (k.val + 1) = s.chip.dieOn (k.val + 1)) ∧ t.chip.faultQ = s.chip.faultQ) ∧
  (∀ (s : State) (k : Nat) (a : Asker), s.chip.coreRuns = true → s.chip.drops[k]? = some a → ∃ t, Machine.exec (.leaveWithdraw k) s = .next t ∧ t.chip.drops = s.chip.drops.eraseIdx k ∧ t.chip.bud.queue = s.chip.bud.queue.filter (fun q => q.ask.who != a) ∧
      t.chip.bud.held = s.chip.bud.held ∧ t.chip.get BUD.STAT_QLEN = (s.chip.bud.queue.filter (fun q => q.ask.who != a)).length % 2 ^ BUD.STAT_QLEN.width ∧ t.chip.faultQ = s.chip.faultQ ∧ t.chip.outbox = s.chip.outbox ∧ Keeps s t (fun o => span 0x23000 0x23200 o)) ∧
  (∀ (s : State) (k : Nat) (w : BudReq), s.chip.coreRuns = true → s.chip.bud.queue[k]? = some w → w.ask.who = .nvm → s.chip.inputOn = true → w.onAt + 1000 * orOne (s.chip.get BUD.WAIT_MAXWAIT) ≤ s.chip.onTime → ∃ t, Machine.exec (.budgetWaitLimit k) s = .next t ∧
      t.chip.bud.queue = s.chip.bud.queue.filter (fun q => q.ask.who != .nvm) ∧ t.chip.get BUD.LAST_REASON = 2 ∧ t.chip.get BUD.LAST_REQ = 0x70 ∧ Recorded s.chip t.chip BUD.EVT_REFF BUD.EVTCNT_REFCNT ∧ t.chip.store.leave = .refused ∧ t.chip.store.jobs = s.chip.store.jobs ∧
      t.chip.faultQ = s.chip.faultQ ∧ t.chip.outbox = s.chip.outbox ∧ Keeps s t (fun o => span 0x23000 0x23200 o)) ∧
  (∀ (s : State) (k : Nat) (a : Asker), s.chip.coreRuns = true → s.chip.dones[k]? = some a → ∃ t, Machine.exec (.leaveDone k) s = .next t ∧ t.chip.dones = s.chip.dones.eraseIdx k ∧ t.chip.bud.held = endLeave a s.chip.bud.held ∧ t.chip.bud.queue = s.chip.bud.queue ∧
      t.chip.get BUD.STAT_NHELD = (endLeave a s.chip.bud.held).length % 2 ^ BUD.STAT_NHELD.width ∧ t.chip.get BUD.EVT_OVERF = s.chip.get BUD.EVT_OVERF ∧ t.chip.faultQ = s.chip.faultQ ∧ t.chip.outbox = s.chip.outbox ∧ Keeps s t (fun o => span 0x23000 0x23200 o)) ∧
  (∀ (s : State) (k : Nat) (h : Leave), s.chip.coreRuns = true → s.chip.bud.held[k]? = some h → h.until' ≤ s.chip.now → h.who ∉ s.chip.dones → ∃ t, Machine.exec (.leaveExpire k) s = .next t ∧ t.chip.bud.held = s.chip.bud.held.eraseIdx k ∧ t.chip.dones = s.chip.dones ∧
      Recorded s.chip t.chip BUD.EVT_OVERF BUD.EVTCNT_OVERCNT ∧ t.chip.faultQ = s.chip.faultQ ∧ t.chip.outbox = s.chip.outbox ∧ Keeps s t (fun o => span 0x23000 0x23200 o)) ∧
  (∀ (s : State) (k : Nat) (h : Leave), s.chip.coreRuns = true → s.chip.bud.held[k]? = some h → h.until' ≤ s.chip.now → h.who ∈ s.chip.dones → ∃ t, Machine.exec (.leaveExpire k) s = .next t ∧ t.chip.bud.held = s.chip.bud.held.eraseIdx k ∧ t.chip.dones = s.chip.dones.erase h.who ∧
      t.chip.get BUD.EVT_OVERF = s.chip.get BUD.EVT_OVERF ∧ t.chip.get BUD.EVTCNT_OVERCNT = s.chip.get BUD.EVTCNT_OVERCNT ∧ t.chip.faultQ = s.chip.faultQ ∧ t.chip.outbox = s.chip.outbox ∧ Keeps s t (fun o => span 0x23000 0x23200 o))

/-- DOMAIN_STOP and the end of its stop steps (R334). A START that waits for DOWN in a domain that is not stopping, which no run reaches, is left out. -/
def Obligations.AStopFromSoftwareLatchesNothing : Prop :=
  (∀ (s : State) (req : Requester) (d : DomainId), s.chip.reaches req (SEQD.CTRL d.val) = true → (∀ k : DomainId, s.chip.get (SEQD.STAT_PENDST k.val) = 0) →
    ∃ t, Machine.exec (.domainStop req d) s = .next t ∧
      (∀ r : RailId, s.chip.get (SEQR.CFG_DOMAIN r.val) = d.val → (s.chip.railState r.val = 3 ∨ s.chip.railState r.val = 4) → (s.chip.rails.get r.val).ordered = false →
        (t.chip.rails.get r.val).ordered = true ∧ (t.chip.rails.get r.val).latch = false ∧ (t.chip.rails.get r.val).cause = 0xb ∧ t.chip.railState r.val = s.chip.railState r.val) ∧
      (∀ r : RailId, s.chip.get (SEQR.CFG_DOMAIN r.val) = d.val → (s.chip.railState r.val = 0 ∨ s.chip.railState r.val = 1 ∨ s.chip.railState r.val = 2) → t.chip.railState r.val = 0 ∧ t.chip.get (SEQR.STAT_CAUSE r.val) = 0xb) ∧
      (∀ r : RailId, (s.chip.railState r.val = 5 ∨ (s.chip.rails.get r.val).ordered = true) → s.chip.railState r.val = 3 ∨ s.chip.railState r.val = 4 ∨ s.chip.railState r.val = 5 → t.chip.rails.get r.val = s.chip.rails.get r.val) ∧
      (∀ r : RailId, t.chip.railState r.val = 6 → s.chip.railState r.val = 6) ∧ t.chip.reg SEQ.FFCTL = s.chip.reg SEQ.FFCTL ∧ t.chip.faultQ = s.chip.faultQ ∧ t.chip.store.logBuf = s.chip.store.logBuf ∧
      Keeps s t (fun o => span 0x24000 0x25300 o || hostSide o || onDies o)) ∧
  (∀ (s : State) (r : RailId) (cold : ColdIn), s.chip.coreRuns = true → s.chip.railState r.val = 5 → s.chip.railIsOff r.val = true → (s.chip.rails.get r.val).latch = false → (s.chip.rails.get r.val).cause = 0xb →
    (∀ k : DomainId, s.chip.get (SEQD.STAT_PENDST k.val) = 0) → s.chip.get HSW.STAT_STATE ≠ 4 → s.chip.flt.stop3 = none → s.chip.flt.stopS = none → s.chip.flt.coldHeld = false →
    ∃ t, Machine.exec (.stopStepEnd r cold) s = .next t ∧ t.chip.railState r.val = 0 ∧ t.chip.get (SEQR.STAT_CAUSE r.val) = 0xb ∧ t.chip.faultQ = s.chip.faultQ ∧ t.chip.reg SEQ.FFCTL = s.chip.reg SEQ.FFCTL)

/-- DOMAIN_START, RAIL_RELEASE, RAIL_DWELL_COMPLETE and XPG_CHANGE (R322 to R327, R340). -/
def Obligations.RailsStartAndQualify : Prop :=
  (∀ (s : State) (req : Requester) (d : DomainId), s.chip.reaches req (SEQD.CTRL d.val) = true → s.chip.mayStart = true → s.chip.get (SEQD.STAT_STATE d.val) ≠ 3 → s.chip.get (SEQD.STAT_STATE d.val) ≠ 4 → (∀ k : DomainId, s.chip.get (SEQD.STAT_PENDST k.val) = 0) →
    ∃ t, Machine.exec (.domainStart req d) s = .next t ∧
      (∀ r : RailId, s.chip.get (SEQR.CFG_DOMAIN r.val) = d.val → s.chip.railState r.val = 0 → t.chip.railState r.val = 1 ∧ t.chip.get (SEQR.STAT_CAUSE r.val) = 0 ∧
        (t.chip.rails.get r.val).metAt = (if ((s.chip.railDeps r.val).all fun q => s.chip.railState q == 4) then some s.chip.now else none)) ∧
      (∀ r : RailId, s.chip.railState r.val ≠ 0 ∨ s.chip.get (SEQR.CFG_DOMAIN r.val) ≠ d.val → t.chip.railState r.val = s.chip.railState r.val) ∧
      ((∃ r ∈ s.chip.domRails d.val, s.chip.railState r = 0) → (s.chip.doms.get d.val).ownLatch = false → (∀ r ∈ s.chip.domRails d.val, (s.chip.rails.get r).ordered = false ∧ s.chip.railState r ≠ 5) → t.chip.get (SEQD.STAT_STATE d.val) = 1) ∧
      t.chip.faultQ = s.chip.faultQ ∧ t.chip.asks = s.chip.asks ∧ Keeps s t (fun o => span 0x24000 0x25300 o || hostSide o)) ∧
  (∀ (s : State) (req : Requester) (d : DomainId), s.chip.reaches req (SEQD.CTRL d.val) = true → (s.chip.mayStart = false ∨ s.chip.get (SEQD.STAT_STATE d.val) = 4) →
    ∃ t, Machine.exec (.domainStart req d) s = .next t ∧ Recorded s.chip t.chip (SEQD.EVT_REFF d.val) (SEQD.EVTCNT_REFCNT d.val) ∧ Effect s t id [SEQD.EVT_REFF d.val, SEQD.EVTCNT_REFCNT d.val] [0x10 + d.val] [] []) ∧
  (∀ (s : State) (req : Requester) (d : DomainId), s.chip.reaches req (SEQD.CTRL d.val) = true → s.chip.mayStart = true → s.chip.get (SEQD.STAT_STATE d.val) = 3 →
    ∃ t, Machine.exec (.domainStart req d) s = .next t ∧ t.chip.get (SEQD.STAT_PENDST d.val) = 1 ∧ Effect s t id [SEQD.STAT_PENDST d.val] [] [] []) ∧
  (∀ (s : State) (r : RailId) (a : Nat), s.chip.coreRuns = true → s.chip.railState r.val = 1 → (s.chip.rails.get r.val).metAt = some a → a + 10 * s.chip.get (SEQR.TIMING_DELAY r.val) ≤ s.chip.now → (s.chip.rails.get r.val).asked = false →
    (32 ≤ r.val ∨ (s.chip.loopDies r.val).all s.chip.linkUp = true) → (∀ k : DomainId, s.chip.get (SEQD.STAT_PENDST k.val) = 0) →
    ∃ t, Machine.exec (.railRelease r) s = .next t ∧ t.chip.railState r.val = 2 ∧ t.chip.get (SEQR.STAT_CHAT r.val) = 0 ∧ (t.chip.rails.get r.val).relAt = s.chip.now ∧ (t.chip.rails.get r.val).qualto = s.chip.get (SEQR.LIMITS_QUALTO r.val) ∧ (t.chip.rails.get r.val).failed = false ∧ (t.chip.rails.get r.val).asked = true ∧
      t.chip.asks = s.chip.asks ++ [⟨.rail r.val, s.chip.get (BUD.RAIL_PEAKW r.val), 10 * orOne (s.chip.get (BUD.RAIL_DUR r.val)), if r.val < 32 then s.chip.get BUD.PRIO_START else s.chip.get BUD.PRIO_XEN⟩] ∧
      (∀ q : RailId, q ≠ r → t.chip.railState q.val = s.chip.railState q.val) ∧ t.chip.faultQ = s.chip.faultQ ∧ Keeps s t (fun o => span 0x24000 0x25300 o || hostSide o)) ∧
  (∀ (s : State) (r : RailId), (s.chip.railState r.val ≠ 1 ∨ (s.chip.rails.get r.val).metAt = none ∨ s.chip.now < ((s.chip.rails.get r.val).metAt.getD 0) + 10 * s.chip.get (SEQR.TIMING_DELAY r.val)) →
    ∃ t, Machine.exec (.railRelease r) s = .next t ∧ t = s) ∧
  (∀ (s : State) (r : RailId) (a : Nat), s.chip.coreRuns = true → s.chip.railState r.val = 3 → (s.chip.rails.get r.val).failed = false → s.chip.rawGood r.val = true → (s.chip.rails.get r.val).goodAt = some a →
    a + clampN 1 10000 (s.chip.rails.get r.val).dwell ≤ s.chip.now → s.chip.get (SEQR.STAT_CHAT r.val) ≤ (s.chip.rails.get r.val).chatlim → (∀ k : DomainId, s.chip.get (SEQD.STAT_PENDST k.val) = 0) →
    ∃ t, Machine.exec (.railDwellComplete r) s = .next t ∧ t.chip.railState r.val = 4 ∧ Recorded s.chip t.chip (SEQR.EVT_QUALF r.val) (SEQR.EVTCNT_QUALCNT r.val) ∧ (t.chip.rails.get r.val).leave = false ∧ t.chip.bud = s.chip.bud ∧
      (∀ q : RailId, q ≠ r → t.chip.railState q.val = s.chip.railState q.val) ∧ t.chip.faultQ = s.chip.faultQ ∧ Keeps s t (fun o => span 0x24000 0x25300 o || hostSide o || onDies o)) ∧
  (∀ (s : State) (r : RailId), s.chip.coreRuns = true → s.chip.railState r.val = 3 → (s.chip.rails.get r.val).failed = false → s.chip.rawGood r.val = false → s.chip.get (SEQR.STAT_RAWGOOD r.val) = 1 → s.chip.dwellOver r.val = true → counted s.chip (SEQR.STAT_CHAT r.val) ≤ (s.chip.rails.get r.val).chatlim →
    ∃ t, Machine.exec (.railDwellComplete r) s = .next t ∧ t.chip.get (SEQR.STAT_RAWGOOD r.val) = 0 ∧ t.chip.get (SEQR.STAT_CHAT r.val) = counted s.chip (SEQR.STAT_CHAT r.val) ∧
      Effect s t (fun c => c.railUpd r.val fun h => { h with goodAt := none }) [SEQR.STAT_RAWGOOD r.val, SEQR.STAT_CHAT r.val] [] [] []) ∧
  (∀ (s : State) (r : RailId), s.chip.coreRuns = true → s.chip.railState r.val = 3 → (s.chip.rails.get r.val).ordered = false → (s.chip.rails.get r.val).failed = false → s.chip.rawGood r.val = false → s.chip.get (SEQR.STAT_RAWGOOD r.val) = 1 → s.chip.dwellOver r.val = true → (s.chip.rails.get r.val).chatlim < counted s.chip (SEQR.STAT_CHAT r.val) → s.chip.get SEQ.GSTAT_INSHUT = 0 → (∀ k : DomainId, s.chip.get (SEQD.STAT_PENDST k.val) = 0) →
    ∃ t, Machine.exec (.railDwellComplete r) s = .next t ∧
      Recorded s.chip t.chip (SEQR.EVT_FAILF r.val) (SEQR.EVTCNT_FAILCNT r.val) ∧ t.chip.get (SEQR.STAT_CAUSE r.val) = 1 ∧ (t.chip.rails.get r.val).ordered = true ∧ (t.chip.rails.get r.val).latch = true ∧ (t.chip.rails.get r.val).cause = 1) ∧
  (∀ (s : State) (r : RailId) (high : Bool), s.chip.coreRuns = true → 32 ≤ r.val → s.chip.railState r.val = 3 → s.chip.get (SEQR.CFG_PGSRC r.val) = 2 → high ≠ s.chip.bit (SEQR.CFG_XPGPOL r.val) → (s.chip.rails.get r.val).goodAt = none →
    ∃ t, Machine.exec (.xpgChange r high) s = .next t ∧ t.chip.get (SEQR.STAT_RAWGOOD r.val) = 1 ∧ Effect s t (fun c => c.railUpd r.val fun h => { h with xpg := high, goodAt := some s.chip.now }) [SEQR.STAT_RAWGOOD r.val] [] [] []) ∧
  (∀ (s : State) (r : RailId) (high : Bool), s.chip.coreRuns = true → 32 ≤ r.val → s.chip.railState r.val = 3 → s.chip.get (SEQR.CFG_PGSRC r.val) = 2 → high = s.chip.bit (SEQR.CFG_XPGPOL r.val) → s.chip.get (SEQR.STAT_RAWGOOD r.val) = 1 →
    ∃ t, Machine.exec (.xpgChange r high) s = .next t ∧ t.chip.get (SEQR.STAT_RAWGOOD r.val) = 0 ∧ t.chip.get (SEQR.STAT_CHAT r.val) = counted s.chip (SEQR.STAT_CHAT r.val) ∧
      Effect s t (fun c => c.railUpd r.val fun h => { h with xpg := high, goodAt := none }) [SEQR.STAT_RAWGOOD r.val, SEQR.STAT_CHAT r.val] [] [] [])

/-- QUALIFICATION_TIMEOUT, RAIL_CHATTER_LIMIT, XPG_CHANGE, DOMAIN_CLR and FIRST_FAILURE_ARM (R327 to R337). -/
def Obligations.RailsFailAndLatch : Prop :=
  (∀ (s : State) (r : RailId), s.chip.coreRuns = true → s.chip.railState r.val = 2 → (s.chip.rails.get r.val).ordered = false → (s.chip.rails.get r.val).failed = false → s.chip.get SEQ.GSTAT_INSHUT = 0 → (s.chip.rails.get r.val).relAt + 100 * orOne (s.chip.rails.get r.val).qualto ≤ s.chip.now → (∀ k : DomainId, s.chip.get (SEQD.STAT_PENDST k.val) = 0) →
    ∃ t, Machine.exec (.qualificationTimeout r) s = .next t ∧ Recorded s.chip t.chip (SEQR.EVT_FAILF r.val) (SEQR.EVTCNT_FAILCNT r.val) ∧ t.chip.railState r.val = 6 ∧ t.chip.get (SEQR.STAT_CAUSE r.val) = 2 ∧
      t.chip.faultQ = s.chip.faultQ ++ [⟨if s.chip.bit (SEQD.CFG_FCLS (s.chip.get (SEQR.CFG_DOMAIN r.val))) then 0x4300 else 0x2300, r.val, BitVec.ofNat 32 (2 * 2 ^ 16 + s.chip.get (SEQR.CFG_DOMAIN r.val))⟩] ∧
      (s.chip.get SEQ.FFCTL_VALID = 0 → t.chip.get SEQ.FFCTL_VALID = 1 ∧ t.chip.get SEQ.FFCTL_RAIL = r.val ∧ t.chip.get SEQ.FFCTL_CAUSE = 2 ∧ t.chip.get SEQ.FFCTL_DOMAIN = s.chip.get (SEQR.CFG_DOMAIN r.val) ∧ t.chip.get SEQ.FFTIME_LO_FFTL = s.chip.now % 2 ^ 32) ∧
      (s.chip.get SEQ.FFCTL_VALID = 1 → t.chip.reg SEQ.FFCTL = s.chip.reg SEQ.FFCTL ∧ t.chip.store = s.chip.store) ∧ (∀ q ∈ t.chip.asks, q.who ≠ .rail r.val ∨ (s.chip.rails.get r.val).asked = false) ∧
      Keeps s t (fun o => span 0x24000 0x25300 o || hostSide o || onDies o || span 0x26000 0x26290 o || span 0x3b000 0x3c000 o)) ∧
  (∀ (s : State) (r : RailId), s.chip.coreRuns = true → s.chip.railState r.val = 3 → (s.chip.rails.get r.val).ordered = true → (s.chip.rails.get r.val).failed = false → s.chip.get SEQ.GSTAT_INSHUT = 0 → (s.chip.rails.get r.val).chatlim < s.chip.get (SEQR.STAT_CHAT r.val) →
    ∃ t, Machine.exec (.railChatterLimit r) s = .next t ∧ Recorded s.chip t.chip (SEQR.EVT_FAILF r.val) (SEQR.EVTCNT_FAILCNT r.val) ∧ t.chip.get (SEQR.STAT_CAUSE r.val) = s.chip.get (SEQR.STAT_CAUSE r.val) ∧ t.chip.doms = s.chip.doms ∧
      (t.chip.rails.get r.val) = { s.chip.rails.get r.val with failed := true } ∧ (∀ q : RailId, t.chip.railState q.val = s.chip.railState q.val ∧ (q ≠ r → t.chip.rails.get q.val = s.chip.rails.get q.val)) ∧
      t.chip.faultQ = s.chip.faultQ ++ [⟨if s.chip.bit (SEQD.CFG_FCLS (s.chip.get (SEQR.CFG_DOMAIN r.val))) then 0x4300 else 0x2300, r.val, BitVec.ofNat 32 (1 * 2 ^ 16 + s.chip.get (SEQR.CFG_DOMAIN r.val))⟩]) ∧
  (∀ (s : State) (r : RailId), s.chip.coreRuns = true → s.chip.railState r.val = 3 → (s.chip.rails.get r.val).ordered = false → (s.chip.rails.get r.val).failed = false → s.chip.get SEQ.GSTAT_INSHUT = 0 → (s.chip.rails.get r.val).chatlim < s.chip.get (SEQR.STAT_CHAT r.val) → (∀ k : DomainId, s.chip.get (SEQD.STAT_PENDST k.val) = 0) →
    ∃ t, Machine.exec (.railChatterLimit r) s = .next t ∧ Recorded s.chip t.chip (SEQR.EVT_FAILF r.val) (SEQR.EVTCNT_FAILCNT r.val) ∧ t.chip.railState r.val = 3 ∧ t.chip.get (SEQR.STAT_CAUSE r.val) = 1 ∧
      (t.chip.rails.get r.val).ordered = true ∧ (t.chip.rails.get r.val).latch = true ∧ (t.chip.rails.get r.val).cause = 1 ∧
      t.chip.faultQ = s.chip.faultQ ++ [⟨if s.chip.bit (SEQD.CFG_FCLS (s.chip.get (SEQR.CFG_DOMAIN r.val))) then 0x4300 else 0x2300, r.val, BitVec.ofNat 32 (1 * 2 ^ 16 + s.chip.get (SEQR.CFG_DOMAIN r.val))⟩] ∧
      (s.chip.get (SEQD.CFG_ACTION (s.chip.get (SEQR.CFG_DOMAIN r.val))) = 0 → (t.chip.doms.get (s.chip.get (SEQR.CFG_DOMAIN r.val))).ownLatch = true ∧ t.chip.get (SEQD.STAT_STATE (s.chip.get (SEQR.CFG_DOMAIN r.val))) = 4 ∧ t.chip.get (SEQD.STAT_LRAIL (s.chip.get (SEQR.CFG_DOMAIN r.val))) = r.val ∧
        ∀ q : RailId, q ≠ r → s.chip.get (SEQR.CFG_DOMAIN q.val) = s.chip.get (SEQR.CFG_DOMAIN r.val) → (s.chip.railState q.val = 3 ∨ s.chip.railState q.val = 4) → (s.chip.rails.get q.val).ordered = false →
          (t.chip.rails.get q.val).ordered = true ∧ (t.chip.rails.get q.val).latch = true ∧ (t.chip.rails.get q.val).cause = 9) ∧
      Keeps s t (fun o => span 0x24000 0x25300 o || hostSide o || onDies o || span 0x26000 0x26290 o || span 0x3b000 0x3c000 o)) ∧
  (∀ (s : State) (r : RailId) (high : Bool), s.chip.coreRuns = true → 32 ≤ r.val → s.chip.railState r.val = 4 → (s.chip.rails.get r.val).ordered = false → (s.chip.rails.get r.val).failed = false → s.chip.get SEQ.GSTAT_INSHUT = 0 → s.chip.get (SEQR.CFG_PGSRC r.val) = 2 → high = s.chip.bit (SEQR.CFG_XPGPOL r.val) → (∀ k : DomainId, s.chip.get (SEQD.STAT_PENDST k.val) = 0) →
    ∃ t, Machine.exec (.xpgChange r high) s = .next t ∧ Recorded s.chip t.chip (SEQR.EVT_FAILF r.val) (SEQR.EVTCNT_FAILCNT r.val) ∧ t.chip.railState r.val = 4 ∧ t.chip.get (SEQR.STAT_CAUSE r.val) = 5 ∧ t.chip.get (SEQR.STAT_RAWGOOD r.val) = 0 ∧
      (t.chip.rails.get r.val).ordered = true ∧ (t.chip.rails.get r.val).latch = true ∧ (t.chip.rails.get r.val).cause = 5 ∧
      t.chip.faultQ = s.chip.faultQ ++ [⟨if s.chip.bit (SEQD.CFG_FCLS (s.chip.get (SEQR.CFG_DOMAIN r.val))) then 0x4300 else 0x2300, r.val, BitVec.ofNat 32 (5 * 2 ^ 16 + s.chip.get (SEQR.CFG_DOMAIN r.val))⟩] ∧
      Keeps s t (fun o => span 0x24000 0x25300 o || hostSide o || onDies o || span 0x26000 0x26290 o || span 0x3b000 0x3c000 o)) ∧
  (∀ (s : State) (req : Requester) (d : DomainId), s.chip.reaches req (SEQD.CTRL d.val) = true → s.chip.seq.safeStop = false → (∀ r ∈ s.chip.domRails d.val, (s.chip.rails.get r).ordered = false ∧ s.chip.railState r ≠ 5) → (∀ k : DomainId, s.chip.get (SEQD.STAT_PENDST k.val) = 0) →
    ∃ t, Machine.exec (.domainClr req d) s = .next t ∧ (t.chip.doms.get d.val).ownLatch = false ∧ t.chip.get (SEQD.STAT_LVALID d.val) = 0 ∧
      (∀ r : RailId, s.chip.get (SEQR.CFG_DOMAIN r.val) = d.val → s.chip.railState r.val = 6 → t.chip.railState r.val = 0 ∧ t.chip.get (SEQR.STAT_CAUSE r.val) = s.chip.get (SEQR.STAT_CAUSE r.val)) ∧
      (∀ r : RailId, s.chip.railState r.val ≠ 6 ∨ s.chip.get (SEQR.CFG_DOMAIN r.val) ≠ d.val → t.chip.railState r.val = s.chip.railState r.val) ∧
      t.chip.faultQ = s.chip.faultQ ∧ Keeps s t (fun o => span 0x24000 0x25300 o || hostSide o)) ∧
  (∀ (s : State) (req : Requester) (d : DomainId), s.chip.reaches req (SEQD.CTRL d.val) = true → (s.chip.seq.safeStop = true ∨ ∃ r ∈ s.chip.domRails d.val, (s.chip.rails.get r).ordered = true ∨ s.chip.railState r = 5) →
    ∃ t, Machine.exec (.domainClr req d) s = .next t ∧ Recorded s.chip t.chip (SEQD.EVT_REFF d.val) (SEQD.EVTCNT_REFCNT d.val) ∧ Effect s t id [SEQD.EVT_REFF d.val, SEQD.EVTCNT_REFCNT d.val] [0x10 + d.val] [] []) ∧
  (∀ (s : State) (req : Requester), s.chip.reaches req SEQ.FFCTL = true → ∃ t, Machine.exec (.firstFailureArm req) s = .next t ∧ t.chip.get SEQ.FFCTL_VALID = 0 ∧ Effect s t id [SEQ.FFCTL_VALID] [] [] [])

/-- STOP_STEP_BEGIN, STOP_STEP_END and STOP_STEP_TIMEOUT (R329, R330). -/
def Obligations.StopStepsFollowTheOrder : Prop :=
  (∀ (s : State) (r : RailId), s.chip.coreRuns = true → s.chip.stopMayBegin r.val = true → s.chip.flt.inj = none → (∀ k : DomainId, s.chip.get (SEQD.STAT_PENDST k.val) = 0) →
    ∃ t, Machine.exec (.stopStepBegin r true) s = .next t ∧ t.chip.railState r.val = 5 ∧ (t.chip.rails.get r.val).ordered = false ∧ (t.chip.rails.get r.val).stepAt = s.chip.now ∧ (t.chip.rails.get r.val).stopto = s.chip.get (SEQR.LIMITS_STOPTO r.val) ∧ (t.chip.rails.get r.val).latch = (s.chip.rails.get r.val).latch ∧ (t.chip.rails.get r.val).cause = (s.chip.rails.get r.val).cause ∧
      (t.chip.rails.get r.val).leave = false ∧ (r.val < 32 → t.chip.loopCmds = s.chip.loopCmds ++ [(r.val, .stop)]) ∧ (32 ≤ r.val → t.chip.loopCmds = s.chip.loopCmds ∧ t.chip.get (SEQR.STAT_XEN r.val) = 0) ∧
      (∀ q : RailId, q ≠ r → t.chip.railState q.val = s.chip.railState q.val) ∧ t.chip.faultQ = s.chip.faultQ ∧ Keeps s t (fun o => span 0x24000 0x25300 o || hostSide o || onDies o)) ∧
  (∀ (s : State) (r : RailId) (tileOk : Bool), s.chip.stopMayBegin r.val = false → ∃ t, Machine.exec (.stopStepBegin r tileOk) s = .next t ∧ t = s) ∧
  (∀ (s : State) (r : RailId) (cold : ColdIn), s.chip.coreRuns = true → s.chip.railState r.val = 5 → s.chip.railIsOff r.val = true →
    (∀ k : DomainId, s.chip.get (SEQD.STAT_PENDST k.val) = 0) → s.chip.get HSW.STAT_STATE ≠ 4 → s.chip.flt.stop3 = none → s.chip.flt.stopS = none → s.chip.flt.coldHeld = false →
    ∃ t, Machine.exec (.stopStepEnd r cold) s = .next t ∧ t.chip.railState r.val = (if (s.chip.rails.get r.val).latch then 6 else 0) ∧ t.chip.get (SEQR.STAT_CAUSE r.val) = (s.chip.rails.get r.val).cause % 16 ∧ (t.chip.rails.get r.val).endAt = some s.chip.now ∧
      ((s.chip.rails.get r.val).latch = true → Recorded s.chip t.chip (SEQD.EVT_LATF (s.chip.get (SEQR.CFG_DOMAIN r.val))) (SEQD.EVTCNT_LATCNT (s.chip.get (SEQR.CFG_DOMAIN r.val)))) ∧
      (∀ q : RailId, q ≠ r → t.chip.railState q.val = s.chip.railState q.val) ∧ t.chip.faultQ = s.chip.faultQ ∧ Keeps s t (fun o => span 0x24000 0x25300 o || hostSide o || onDies o)) ∧
  (∀ (s : State) (r : RailId) (cold : ColdIn), s.chip.coreRuns = true → r.val < 32 → s.chip.railState r.val = 5 → s.chip.railIsOff r.val = false → (s.chip.rails.get r.val).late = false → (s.chip.rails.get r.val).stepAt + 100 * orOne (s.chip.rails.get r.val).stopto ≤ s.chip.now →
    s.chip.get HSW.STAT_STATE ≠ 4 → s.chip.flt.stop3 = none → s.chip.flt.stopS = none → s.chip.flt.coldHeld = false →
    ∃ t, Machine.exec (.stopStepTimeout r cold) s = .next t ∧ Recorded s.chip t.chip (SEQR.EVT_STOPTOF r.val) (SEQR.EVTCNT_STOPTOCNT r.val) ∧
      Effect s t (fun c => (c.railUpd r.val fun h => { h with late := true }).loopCmd r.val .halt) [SEQR.EVT_STOPTOF r.val, SEQR.EVTCNT_STOPTOCNT r.val] [0x40 + r.val] [] []) ∧
  (∀ (s : State) (r : RailId) (cold : ColdIn), s.chip.coreRuns = true → 32 ≤ r.val → s.chip.railState r.val = 5 → s.chip.railIsOff r.val = false → (s.chip.rails.get r.val).late = false → (s.chip.rails.get r.val).stepAt + 100 * orOne (s.chip.rails.get r.val).stopto ≤ s.chip.now →
    (∀ k : DomainId, s.chip.get (SEQD.STAT_PENDST k.val) = 0) → s.chip.get HSW.STAT_STATE ≠ 4 → s.chip.flt.stop3 = none → s.chip.flt.stopS = none → s.chip.flt.coldHeld = false →
    ∃ t, Machine.exec (.stopStepTimeout r cold) s = .next t ∧ Recorded s.chip t.chip (SEQR.EVT_STOPTOF r.val) (SEQR.EVTCNT_STOPTOCNT r.val) ∧ t.chip.railState r.val = (if (s.chip.rails.get r.val).latch then 6 else 0) ∧
      t.chip.get (SEQR.STAT_CAUSE r.val) = (s.chip.rails.get r.val).cause % 16 ∧ t.chip.faultQ = s.chip.faultQ ∧ Keeps s t (fun o => span 0x24000 0x25300 o || hostSide o || onDies o))

/-- FAULT_POST into a full table (R346). Entries are told apart by the order in which they were taken. -/
def Obligations.AFullFaultTableDropsNoF2 : Prop :=
  (∀ (s : State) (k : Nat) (m : FaultMsg), s.chip.domOn .core = true → s.chip.faultQ[k]? = some m → s.chip.postMay k = true → codeCls m.code = 1 → s.chip.get FLT.STAT_GUARD = 0 → (∀ i : Fin 64, s.chip.get (FLT.ENT0_STATE i.val) ≠ 0) →
    (∀ i : Fin 64, s.chip.get (FLT.ENT0_CODE i.val) = m.code → s.chip.get (FLT.ENT0_INST i.val) ≠ m.inst) → s.chip.store.logBuf.length < 256 →
    ∃ t, Machine.exec (.faultPost k) s = .next t ∧ (∀ i : Fin 64, t.chip.reg (FLT.ENT0 i.val) = s.chip.reg (FLT.ENT0 i.val) ∧ t.chip.reg (FLT.ENT1 i.val) = s.chip.reg (FLT.ENT1 i.val)) ∧ t.chip.ents = s.chip.ents ∧
      Recorded s.chip t.chip FLT.EVT_OVFF FLT.EVTCNT2_OVFCNT ∧ Recorded s.chip t.chip FLT.EVT_RAISEF FLT.EVTCNT_RAISECNT ∧ t.chip.bells.get 0 = min (s.chip.bells.get 0 + 1) 255 ∧ t.chip.bells.get 3 = min (s.chip.bells.get 3 + 1) 255 ∧
      (t.chip.store.logBuf.map fun r => (r.code, r.inst, r.detail, r.time)) = (s.chip.store.logBuf.map fun r => (r.code, r.inst, r.detail, r.time)) ++ [(m.code, m.inst, m.detail, s.chip.now)] ∧
      t.chip.rails = s.chip.rails ∧ t.chip.faultQ = s.chip.faultQ.eraseIdx k ∧ Keeps s t (fun o => span 0x1800 0x1820 o || span 0x25000 0x25100 o || span 0x26000 0x26290 o || hostSide o)) ∧
  (∀ (s : State) (k : Nat) (m : FaultMsg) (j : Fin 64), s.chip.domOn .core = true → s.chip.faultQ[k]? = some m → s.chip.postMay k = true → codeCls m.code = 2 → m.inst < 256 → s.chip.get FLT.STAT_GUARD = 0 → (∀ i : Fin 64, s.chip.get (FLT.ENT0_STATE i.val) ≠ 0) →
    (∀ i : Fin 64, s.chip.get (FLT.ENT0_CODE i.val) = m.code → s.chip.get (FLT.ENT0_INST i.val) ≠ m.inst) → codeCls (s.chip.get (FLT.ENT0_CODE j.val)) = 1 →
    (∀ i : Fin 64, i ≠ j → codeCls (s.chip.get (FLT.ENT0_CODE i.val)) = 1 → (s.chip.ents.get j.val).stamp < (s.chip.ents.get i.val).stamp) → s.chip.store.logBuf.length < 256 →
    ∃ t, Machine.exec (.faultPost k) s = .next t ∧ (∀ i : Fin 64, i ≠ j → t.chip.reg (FLT.ENT0 i.val) = s.chip.reg (FLT.ENT0 i.val) ∧ t.chip.reg (FLT.ENT1 i.val) = s.chip.reg (FLT.ENT1 i.val)) ∧
      t.chip.get (FLT.ENT0_CODE j.val) = m.code ∧ t.chip.get (FLT.ENT0_INST j.val) = m.inst ∧ t.chip.get (FLT.ENT0_STATE j.val) = 1 ∧ t.chip.get (FLT.ENT0_OCC j.val) = 1 ∧
      Recorded s.chip t.chip FLT.EVT_OVFF FLT.EVTCNT2_OVFCNT ∧ t.chip.bells.get 3 = min (s.chip.bells.get 3 + 1) 255 ∧
      (t.chip.store.logBuf.map fun r => (r.code, r.inst)) = (s.chip.store.logBuf.map fun r => (r.code, r.inst)) ++ [(m.code, m.inst)] ∧
      t.chip.rails = s.chip.rails ∧ t.chip.faultQ = s.chip.faultQ.eraseIdx k ∧ Keeps s t (fun o => span 0x1800 0x1820 o || span 0x25000 0x25300 o || span 0x26000 0x26290 o || hostSide o)) ∧
  (∀ (s : State) (k : Nat) (m : FaultMsg), s.chip.domOn .core = true → s.chip.faultQ[k]? = some m → s.chip.postMay k = true → codeCls m.code = 2 → m.inst < 256 → s.chip.get FLT.STAT_GUARD = 0 → (∀ i : Fin 64, s.chip.get (FLT.ENT0_STATE i.val) ≠ 0 ∧ 2 ≤ codeCls (s.chip.get (FLT.ENT0_CODE i.val))) →
    (∀ i : Fin 64, s.chip.get (FLT.ENT0_CODE i.val) = m.code → s.chip.get (FLT.ENT0_INST i.val) ≠ m.inst) → s.chip.get PWR.DOMSTAT_HOLDUP = 0 → s.chip.get FLT.STAT_SAFE = 0 → s.chip.flt.stop3 = none →
    ∃ t, Machine.exec (.faultPost k) s = .next t ∧ (∀ i : Fin 64, t.chip.reg (FLT.ENT0 i.val) = s.chip.reg (FLT.ENT0 i.val)) ∧ Recorded s.chip t.chip FLT.EVT_ESCF FLT.EVTCNT_ESCCNT ∧
      (s.chip.get FLT.LATCH3_CODE = 0 → t.chip.get FLT.LATCH3_CODE = codeWith m.code 3 ∧ t.chip.get FLT.LATCH3_INST = m.inst) ∧ (t.chip.flt.stop3.map fun x => x.since) = some s.chip.now ∧ t.chip.seq.safeStop = true ∧
      (∀ r : RailId, (s.chip.railState r.val = 3 ∨ s.chip.railState r.val = 4) → (s.chip.rails.get r.val).ordered = false → (t.chip.rails.get r.val).ordered = true ∧ (t.chip.rails.get r.val).latch = true ∧ (t.chip.rails.get r.val).cause = 0xc) ∧
      t.chip.faultQ = s.chip.faultQ.eraseIdx k)

/-- FAULT_POST and COLLECTOR_COMPARE (R344 to R363). -/
def Obligations.FaultsAreHeldByClass : Prop :=
  (∀ (s : State) (k : Nat) (m : FaultMsg), s.chip.domOn .core = true → s.chip.faultQ[k]? = some m → s.chip.postMay k = true → m.code < 0x2000 → (s.chip.store.f0Slot ≠ s.chip.now / 1000 ∨ s.chip.store.f0Count < 16) → s.chip.store.logBuf.length < 256 →
    ∃ t, Machine.exec (.faultPost k) s = .next t ∧ Recorded s.chip t.chip FLT.EVT_RAISEF FLT.EVTCNT_RAISECNT ∧
      (t.chip.store.logBuf.map fun r => (r.type, r.code, r.inst, r.detail, r.time)) = (s.chip.store.logBuf.map fun r => (r.type, r.code, r.inst, r.detail, r.time)) ++ [(1, m.code, m.inst, m.detail, s.chip.now)] ∧
      t.chip.faultQ = s.chip.faultQ.eraseIdx k ∧ Keeps s t (fun o => o == FLT.EVT || o == FLT.EVTCNT || span 0x26000 0x26290 o || hostSide o)) ∧
  (∀ (s : State) (k : Nat) (m : FaultMsg), s.chip.domOn .core = true → s.chip.faultQ[k]? = some m → s.chip.postMay k = true → m.code < 0x2000 → s.chip.store.f0Slot = s.chip.now / 1000 → 16 ≤ s.chip.store.f0Count →
    ∃ t, Machine.exec (.faultPost k) s = .next t ∧ Recorded s.chip t.chip FLT.EVT_RAISEF FLT.EVTCNT_RAISECNT ∧ t.chip.get FLT.EVTCNT2_F0DROP = counted s.chip FLT.EVTCNT2_F0DROP ∧ t.chip.store = s.chip.store ∧
      t.chip.faultQ = s.chip.faultQ.eraseIdx k ∧ t.chip.outbox = s.chip.outbox ∧ Keeps s t (fun o => o == FLT.EVT || o == FLT.EVTCNT || o == FLT.EVTCNT2)) ∧
  (∀ (s : State) (k : Nat) (m : FaultMsg) (i : Fin 64), s.chip.domOn .core = true → s.chip.faultQ[k]? = some m → s.chip.postMay k = true → (codeCls m.code = 1 ∨ codeCls m.code = 2) → m.inst < 256 → s.chip.get FLT.STAT_GUARD = 0 →
    s.chip.get (FLT.ENT0_STATE i.val) = 0 → (∀ j : Fin 64, j < i → s.chip.get (FLT.ENT0_STATE j.val) ≠ 0) → (∀ j : Fin 64, s.chip.get (FLT.ENT0_STATE j.val) ≠ 0 → s.chip.get (FLT.ENT0_CODE j.val) = m.code → s.chip.get (FLT.ENT0_INST j.val) ≠ m.inst) →
    ∃ t, Machine.exec (.faultPost k) s = .next t ∧ Recorded s.chip t.chip FLT.EVT_RAISEF FLT.EVTCNT_RAISECNT ∧ t.chip.get (FLT.ENT0_CODE i.val) = m.code ∧ t.chip.get (FLT.ENT0_INST i.val) = m.inst ∧ t.chip.get (FLT.ENT0_OCC i.val) = 1 ∧ t.chip.get (FLT.ENT0_STATE i.val) = 1 ∧ t.chip.get (FLT.ENT0_ESC i.val) = 0 ∧
      t.chip.get (FLT.ENT1_TIME i.val) = s.chip.now % 2 ^ 32 ∧ (codeCls m.code = 1 → (t.chip.ents.get i.val).timer = none) ∧ (codeCls m.code = 2 → s.chip.get PWR.DOMSTAT_HOLDUP = 0 → (t.chip.ents.get i.val).timer = some s.chip.now) ∧
      (∀ j : Fin 64, j ≠ i → t.chip.reg (FLT.ENT0 j.val) = s.chip.reg (FLT.ENT0 j.val) ∧ t.chip.reg (FLT.ENT1 j.val) = s.chip.reg (FLT.ENT1 j.val)) ∧ t.chip.rails = s.chip.rails ∧ t.chip.reg FLT.LATCH3 = s.chip.reg FLT.LATCH3 ∧
      t.chip.faultQ = s.chip.faultQ.eraseIdx k ∧ Keeps s t (fun o => span 0x1800 0x1820 o || span 0x25000 0x25300 o || span 0x26000 0x26290 o || hostSide o)) ∧
  (∀ (s : State) (k : Nat) (m : FaultMsg) (i : Fin 64), s.chip.domOn .core = true → s.chip.faultQ[k]? = some m → s.chip.postMay k = true → (codeCls m.code = 1 ∨ codeCls m.code = 2) → s.chip.get FLT.STAT_GUARD = 0 →
    s.chip.get (FLT.ENT0_STATE i.val) ≠ 0 → s.chip.get (FLT.ENT0_CODE i.val) = m.code → s.chip.get (FLT.ENT0_INST i.val) = m.inst → (∀ j : Fin 64, j < i → s.chip.get (FLT.ENT0_CODE j.val) = m.code → s.chip.get (FLT.ENT0_INST j.val) ≠ m.inst) →
    ∃ t, Machine.exec (.faultPost k) s = .next t ∧ Recorded s.chip t.chip FLT.EVT_RAISEF FLT.EVTCNT_RAISECNT ∧ t.chip.get (FLT.ENT0_OCC i.val) = counted s.chip (FLT.ENT0_OCC i.val) ∧ t.chip.ents = s.chip.ents ∧ t.chip.store = s.chip.store ∧ t.chip.outbox = s.chip.outbox ∧
      t.chip.faultQ = s.chip.faultQ.eraseIdx k ∧ Keeps s t (fun o => o == FLTA.PIN || o == FLT.STAT || o == FLT.EVT || o == FLT.EVTCNT || o == FLT.ENT0 i.val || span 0x32000 0x34000 o)) ∧
  (∀ (s : State) (k : Nat) (m : FaultMsg), s.chip.domOn .core = true → s.chip.faultQ[k]? = some m → s.chip.postMay k = true → codeCls m.code = 3 → m.code ≠ 0x6012 → m.inst < 256 → s.chip.get FLT.STAT_GUARD = 0 → s.chip.get FLT.LATCH3_CODE = 0 → s.chip.get PWR.DOMSTAT_HOLDUP = 0 → s.chip.get FLT.STAT_SAFE = 0 → s.chip.flt.stop3 = none →
    ∃ t, Machine.exec (.faultPost k) s = .next t ∧ t.chip.get FLT.LATCH3_CODE = m.code ∧ t.chip.get FLT.LATCH3_INST = m.inst ∧ t.chip.get FLT.F3TIME_LO_F3TL = s.chip.now % 2 ^ 32 ∧ t.chip.get FLT.STAT_F3L = 1 ∧ (t.chip.flt.stop3.map fun x => x.since) = some s.chip.now ∧ t.chip.seq.safeStop = true ∧
      (m.code = 0x6120 → t.chip.loopCmds = s.chip.loopCmds ++ [(m.inst, .trip)]) ∧
      (∀ r : RailId, (s.chip.railState r.val = 3 ∨ s.chip.railState r.val = 4) → (s.chip.rails.get r.val).ordered = false → (t.chip.rails.get r.val).ordered = true ∧ (t.chip.rails.get r.val).latch = true ∧ (t.chip.rails.get r.val).cause = 0xc) ∧
      (∀ r : RailId, (s.chip.railState r.val = 0 ∨ s.chip.railState r.val = 1 ∨ s.chip.railState r.val = 2) → t.chip.railState r.val = 6 ∧ t.chip.get (SEQR.STAT_CAUSE r.val) = 0xc) ∧ t.chip.faultQ = s.chip.faultQ.eraseIdx k) ∧
  (∀ (s : State) (k : Nat) (m : FaultMsg), s.chip.domOn .core = true → s.chip.faultQ[k]? = some m → s.chip.postMay k = true → codeCls m.code = 4 → m.inst < 256 → s.chip.get FLTA.F4_CODE = 0 → s.chip.get PWR.DOMSTAT_HOLDUP = 0 → s.chip.get FLT.STAT_SAFE = 0 →
    ∃ t, Machine.exec (.faultPost k) s = .next t ∧ t.chip.get FLTA.F4_CODE = m.code ∧ t.chip.get FLTA.F4_INST = m.inst ∧ t.chip.get FLT.STAT_SAFE = 1 ∧ t.chip.get FLTA.PIN_LEVEL = 1 ∧ (t.chip.flt.stopS.map fun x => x.since) = some s.chip.now ∧ t.chip.seq.safeStop = true ∧
      (∀ r : RailId, (s.chip.railState r.val = 3 ∨ s.chip.railState r.val = 4) → (s.chip.rails.get r.val).ordered = false → (t.chip.rails.get r.val).ordered = true ∧ (t.chip.rails.get r.val).latch = true ∧ (t.chip.rails.get r.val).cause = 0xc) ∧ t.chip.faultQ = s.chip.faultQ.eraseIdx k) ∧
  (∀ (s : State) (k : Nat) (m : FaultMsg) (i : Fin 64), s.chip.domOn .core = true → s.chip.faultQ[k]? = some m → s.chip.postMay k = true → codeCls m.code = 1 → m.inst < 256 → s.chip.get FLT.STAT_GUARD = 1 → s.chip.unacked 1 = true → s.chip.get (FLT.ENT0_STATE i.val) = 0 → (∀ j : Fin 64, j < i → s.chip.get (FLT.ENT0_STATE j.val) ≠ 0) →
    ∃ t, Machine.exec (.faultPost k) s = .next t ∧ t.chip.get (FLT.ENT0_CODE i.val) = m.code + 0x2000 ∧ t.chip.get (FLT.ENT0_INST i.val) = m.inst ∧ t.chip.get (FLT.ENT0_ESC i.val) = 1 ∧ t.chip.get (FLT.ENT0_STATE i.val) = 1 ∧
      (s.chip.get PWR.DOMSTAT_HOLDUP = 0 → (t.chip.ents.get i.val).timer = some s.chip.now) ∧ (∀ j : Fin 64, j ≠ i → t.chip.reg (FLT.ENT0 j.val) = s.chip.reg (FLT.ENT0 j.val)) ∧ t.chip.faultQ = s.chip.faultQ.eraseIdx k ∧
      Keeps s t (fun o => span 0x1800 0x1820 o || span 0x25000 0x25300 o || span 0x26000 0x26290 o || hostSide o)) ∧
  (∀ (s : State), s.chip.domOn .core = true → s.chip.flt.inj = none → s.chip.get FLTA.F4_CODE = 0 → s.chip.get PWR.DOMSTAT_HOLDUP = 0 → s.chip.get FLT.STAT_SAFE = 0 →
    ∃ t, Machine.exec (.collectorCompare true) s = .next t ∧ t.chip.get FLTA.F4_CODE = 0x8600 ∧ t.chip.get FLT.STAT_SAFE = 1 ∧ t.chip.seq.safeStop = true ∧ t.chip.faultQ = s.chip.faultQ ∧
      (∀ r : RailId, (s.chip.railState r.val = 3 ∨ s.chip.railState r.val = 4) → (s.chip.rails.get r.val).ordered = false → (t.chip.rails.get r.val).ordered = true ∧ (t.chip.rails.get r.val).latch = true ∧ (t.chip.rails.get r.val).cause = 0xc)) ∧
  (∀ (s : State) (a : Nat), s.chip.domOn .core = true → s.chip.flt.inj = some (10, true, a) → ∃ t, Machine.exec (.collectorCompare false) s = .next t ∧ t.chip.get FLT.INJ_RESULT = 2 ∧ t.chip.get FLT.INJ_ARMED = 0 ∧ t.chip.flt.inj = none ∧ t.chip.get FLT.STAT_SAFE = s.chip.get FLT.STAT_SAFE ∧
      t.chip.faultQ = s.chip.faultQ ++ [⟨0x0602, 10, 0⟩] ∧ t.chip.outbox = s.chip.outbox ∧ Keeps s t (fun o => span 0x25000 0x25040 o))

/-- FAULT_ACKNOWLEDGE, FAULT_CLEAR, FAULT_ACK_AND_CLEAR, ESCALATION_EXPIRE and SAFETO_EXPIRE (R349 to R354). -/
def Obligations.FaultsAreAcknowledgedAndCleared : Prop :=
  (∀ (s : State) (req : Requester) (slot : Fin 64) (code : BitVec 16), s.chip.reaches req FLT.ACK = true → s.chip.get (FLT.ENT0_STATE slot.val) ≠ 0 → s.chip.get (FLT.ENT0_CODE slot.val) = code.toNat → codeCls code.toNat < 3 →
    ∃ t, Machine.exec (.faultAcknowledge req slot code) s = .next t ∧ t.chip.get (FLT.ENT0_STATE slot.val) = 2 ∧ (t.chip.ents.get slot.val).timer = none ∧ t.chip.get FLT.ACKST_RES = 1 ∧ t.chip.get FLT.ACKST_SLOT = slot.val ∧ t.chip.get FLT.ACKST_CODE = code.toNat ∧
      t.chip.get (FLT.ENT0_CODE slot.val) = s.chip.get (FLT.ENT0_CODE slot.val) ∧ t.chip.faultQ = s.chip.faultQ ∧ t.chip.outbox = s.chip.outbox ∧ Keeps s t (fun o => o == FLTA.PIN || o == FLT.STAT || o == FLT.ACK || o == FLT.ACKST || o == FLT.ENT0 slot.val || span 0x32000 0x34000 o)) ∧
  (∀ (s : State) (req : Requester) (slot : Fin 64) (code : BitVec 16), s.chip.reaches req FLT.ACK = true → (s.chip.get (FLT.ENT0_STATE slot.val) = 0 ∨ s.chip.get (FLT.ENT0_CODE slot.val) ≠ code.toNat) →
    ∃ t, Machine.exec (.faultAcknowledge req slot code) s = .next t ∧ t.chip.get FLT.ACKST_RES = 2 ∧ Recorded s.chip t.chip FLT.EVT_REFF FLT.EVTCNT_REFCNT ∧ t.chip.ents = s.chip.ents ∧ (∀ i : Fin 64, t.chip.reg (FLT.ENT0 i.val) = s.chip.reg (FLT.ENT0 i.val)) ∧ t.chip.faultQ = s.chip.faultQ) ∧
  (∀ (s : State) (req : Requester) (slot : Fin 64) (code : BitVec 16), s.chip.reaches req FLT.ACK = true → s.chip.get (FLT.ENT0_STATE slot.val) ≠ 0 → s.chip.get (FLT.ENT0_CODE slot.val) = code.toNat → (codeCls code.toNat < 2 ∨ codeCls code.toNat = 2 ∧ s.chip.get (FLT.ENT0_STATE slot.val) = 2) →
    s.chip.faultCond code.toNat (s.chip.get (FLT.ENT0_INST slot.val)) = false → ∃ t, Machine.exec (.faultClear req slot code) s = .next t ∧ t.chip.reg (FLT.ENT0 slot.val) = 0 ∧ t.chip.reg (FLT.ENT1 slot.val) = 0 ∧ t.chip.get FLT.ACKST_RES = 1 ∧ (t.chip.ents.get slot.val).timer = none ∧
      t.chip.faultQ = s.chip.faultQ ∧ t.chip.outbox = s.chip.outbox ∧ Keeps s t (fun o => o == FLTA.PIN || o == FLT.STAT || o == FLT.ACK || o == FLT.ACKST || o == FLT.ENT0 slot.val || o == FLT.ENT1 slot.val || span 0x32000 0x34000 o)) ∧
  (∀ (s : State) (req : Requester) (slot : Fin 64) (code : BitVec 16), s.chip.reaches req FLT.ACK = true → s.chip.get (FLT.ENT0_STATE slot.val) = 1 → s.chip.get (FLT.ENT0_CODE slot.val) = code.toNat → codeCls code.toNat = 2 →
    ∃ t, Machine.exec (.faultClear req slot code) s = .next t ∧ t.chip.get FLT.ACKST_RES = 4 ∧ Recorded s.chip t.chip FLT.EVT_REFF FLT.EVTCNT_REFCNT ∧ t.chip.ents = s.chip.ents ∧ (∀ i : Fin 64, t.chip.reg (FLT.ENT0 i.val) = s.chip.reg (FLT.ENT0 i.val)) ∧ t.chip.faultQ = s.chip.faultQ) ∧
  (∀ (s : State) (req : Requester) (slot : Fin 64) (code : BitVec 16), s.chip.reaches req FLT.ACK = true → s.chip.get (FLT.ENT0_STATE slot.val) ≠ 0 → s.chip.get (FLT.ENT0_CODE slot.val) = code.toNat → codeCls code.toNat < 3 → s.chip.faultCond code.toNat (s.chip.get (FLT.ENT0_INST slot.val)) = false →
    ∃ t, Machine.exec (.faultAckAndClear req slot code) s = .next t ∧ t.chip.reg (FLT.ENT0 slot.val) = 0 ∧ t.chip.reg (FLT.ENT1 slot.val) = 0 ∧ t.chip.get FLT.ACKST_RES = 1 ∧ (t.chip.ents.get slot.val).timer = none ∧ t.chip.faultQ = s.chip.faultQ ∧ t.chip.outbox = s.chip.outbox ∧
      Keeps s t (fun o => o == FLTA.PIN || o == FLT.STAT || o == FLT.ACK || o == FLT.ACKST || o == FLT.ENT0 slot.val || o == FLT.ENT1 slot.val || span 0x32000 0x34000 o)) ∧
  (∀ (s : State) (req : Requester) (slot : Fin 64) (code : BitVec 16), s.chip.reaches req FLT.ACK = true → s.chip.get (FLT.ENT0_STATE slot.val) ≠ 0 → s.chip.get (FLT.ENT0_CODE slot.val) = code.toNat → codeCls code.toNat < 3 → s.chip.faultCond code.toNat (s.chip.get (FLT.ENT0_INST slot.val)) = true →
    ∃ t, Machine.exec (.faultAckAndClear req slot code) s = .next t ∧ t.chip.get (FLT.ENT0_STATE slot.val) = 2 ∧ t.chip.get (FLT.ENT0_CODE slot.val) = code.toNat ∧ (t.chip.ents.get slot.val).timer = none ∧ t.chip.get FLT.ACKST_RES = 3 ∧ Recorded s.chip t.chip FLT.EVT_REFF FLT.EVTCNT_REFCNT ∧ t.chip.faultQ = s.chip.faultQ) ∧
  (∀ (s : State) (i : Fin 64) (a : Nat), s.chip.domOn .core = true → (s.chip.ents.get i.val).timer = some a → a + 10 * clampN 1 10000 (s.chip.get FLT.CFG_ESCT) ≤ s.chip.now → s.chip.get PWR.DOMSTAT_HOLDUP = 0 → s.chip.get FLT.STAT_SAFE = 0 → s.chip.flt.stop3 = none →
    ∃ t, Machine.exec (.escalationExpire i) s = .next t ∧ t.chip.get (FLT.ENT0_CODE i.val) = codeWith (s.chip.get (FLT.ENT0_CODE i.val)) 3 ∧ t.chip.get (FLT.ENT0_ESC i.val) = 1 ∧ (t.chip.ents.get i.val).timer = none ∧ Recorded s.chip t.chip FLT.EVT_ESCF FLT.EVTCNT_ESCCNT ∧
      (s.chip.get FLT.LATCH3_CODE = 0 → t.chip.get FLT.LATCH3_CODE = codeWith (s.chip.get (FLT.ENT0_CODE i.val)) 3 ∧ t.chip.get FLT.LATCH3_INST = s.chip.get (FLT.ENT0_INST i.val)) ∧ (t.chip.flt.stop3.map fun x => x.since) = some s.chip.now ∧ t.chip.faultQ = s.chip.faultQ ∧
      (∀ r : RailId, (s.chip.railState r.val = 3 ∨ s.chip.railState r.val = 4) → (s.chip.rails.get r.val).ordered = false → (t.chip.rails.get r.val).ordered = true ∧ (t.chip.rails.get r.val).latch = true ∧ (t.chip.rails.get r.val).cause = 0xc)) ∧
  (∀ (s : State) (a : Nat) (cold : ColdIn), s.chip.domOn .core = true → s.chip.flt.stop3 = some ⟨a, false⟩ → a + 1000 * orOne (s.chip.get FLT.CFG_SAFETO) ≤ s.chip.now → s.chip.get PWR.DOMSTAT_HOLDUP = 0 → s.chip.flt.coldHeld = false →
    ∃ t, Machine.exec (.safetoExpire cold) s = .next t ∧ t.chip.flt.stop3 = some ⟨a, true⟩ ∧ (∀ r : RailId, 32 ≤ r.val → t.chip.get (SEQR.STAT_XEN r.val) = 0) ∧ (∀ d : DieId, t.chip.dieOn (d.val + 1) = false ∧ (s.chip.dieOn (d.val + 1) = true → (t.chip.dies.get (d.val + 1)).tripWire = true)) ∧
      (s.chip.get FLT.CFG_F3GATE = 1 → s.chip.get HSW.STAT_STATE ≠ 6 → t.chip.get HSW.STAT_STATE = 5 ∧ t.chip.get HSW.STAT_CAUSE = 7 ∧ t.chip.get HSW.STAT_GATE = 0) ∧ t.nvm = s.nvm ∧ t.pending = s.pending)

/-- FAULT_INJECT, INJECTION_NOT_EXERCISED, SOFTWARE_RAISE, GUARD_END, GUARD_TEST and COLD_START_REQUEST (R356 to R362). -/
def Obligations.InjectionsGuardsAndColdStartRequests : Prop :=
  (∀ (s : State) (req : Requester) (tgt : Fin 16), s.chip.reaches req FLT.INJ = true → tgt.val ≤ 10 → s.chip.flt.inj = none → ∃ t, Machine.exec (.faultInject req tgt) s = .next t ∧ t.chip.get FLT.INJ_RESULT = 1 ∧ t.chip.get FLT.INJ_ARMED = 1 ∧
      (t.chip.flt.inj.map fun x => (x.1, x.2.2)) = some (tgt.val, s.chip.now) ∧ 3 ∈ t.chip.flt.windows ∧ t.chip.get FLT.EVT_INJF = s.chip.get FLT.EVT_INJF ∧ t.chip.faultQ = s.chip.faultQ ∧ t.chip.outbox = s.chip.outbox ∧ Keeps s t (fun o => o == FLT.INJ || o == FLT.STAT)) ∧
  (∀ (s : State) (req : Requester) (tgt : Fin 16), s.chip.reaches req FLT.INJ = true → (10 < tgt.val ∨ s.chip.flt.inj ≠ none) → ∃ t, Machine.exec (.faultInject req tgt) s = .next t ∧ t.chip.get FLT.INJ_RESULT = 5 ∧ t.chip.get FLT.INJ_ARMED = s.chip.get FLT.INJ_ARMED ∧
      Recorded s.chip t.chip FLT.EVT_INJF FLT.EVTCNT2_INJCNT ∧ t.chip.flt = s.chip.flt ∧ t.chip.faultQ = s.chip.faultQ ∧ t.chip.outbox = s.chip.outbox ∧ Keeps s t (fun o => o == FLT.INJ || o == FLT.EVT || o == FLT.EVTCNT2)) ∧
  (∀ (s : State) (tgt : Nat) (b : Bool) (a : Nat), s.chip.coreRuns = true → s.chip.flt.inj = some (tgt, b, a) → a + 10000 ≤ s.chip.now → ∃ t, Machine.exec .injectionNotExercised s = .next t ∧ t.chip.get FLT.INJ_RESULT = 4 ∧ t.chip.get FLT.INJ_ARMED = 0 ∧ t.chip.flt.inj = none ∧
      Recorded s.chip t.chip FLT.EVT_INJF FLT.EVTCNT2_INJCNT ∧ t.chip.faultQ = s.chip.faultQ ∧ t.chip.outbox = s.chip.outbox ∧ Keeps s t (fun o => o == FLT.INJ || o == FLT.EVT || o == FLT.EVTCNT2 || o == FLT.STAT)) ∧
  (∀ (s : State) (req : Requester) (cls : Fin 4) (inst num : BitVec 8), s.chip.reaches req FLT.SWRAISE = true → cls.val < 3 → ∃ t, Machine.exec (.softwareRaise req cls inst num) s = .next t ∧
      t.chip.faultQ = s.chip.faultQ ++ [⟨cls.val * 0x2000 + 0x1f00 + num.toNat, inst.toNat, 0⟩] ∧ t.chip.bells = s.chip.bells ∧ t.chip.outbox = s.chip.outbox ∧ t.chip.inner = s.chip.inner ∧ Keeps s t (fun o => o == FLT.SWRAISE)) ∧
  (∀ (s : State) (req : Requester) (inst num : BitVec 8), s.chip.reaches req FLT.SWRAISE = true → ∃ t, Machine.exec (.softwareRaise req 3 inst num) s = .next t ∧ t.chip.faultQ = s.chip.faultQ ∧ t.chip.inner = s.chip.inner ∧ Keeps s t (fun o => o == FLT.SWRAISE)) ∧
  (∀ (s : State) (req : Requester) (test : Bool), s.chip.reaches req FLT.GUARD = true → ∃ t, Machine.exec (.guardEnd req test) s = .next t ∧ 1 ∉ t.chip.flt.windows ∧ 2 ∉ t.chip.flt.windows ∧ (4 ∈ t.chip.flt.windows ↔ 4 ∈ s.chip.flt.windows) ∧
      t.chip.get FLT.GUARD_TEST = test.toNat ∧ (3 ∈ t.chip.flt.windows ↔ test = true ∨ s.chip.flt.inj ≠ none) ∧ t.chip.faultQ = s.chip.faultQ ∧ t.chip.outbox = s.chip.outbox ∧ Keeps s t (fun o => o == FLT.GUARD || o == FLT.STAT)) ∧
  (∀ (s : State) (req : Requester) (test : Bool), s.chip.reaches req FLT.GUARD = true → ∃ t, Machine.exec (.guardTest req test) s = .next t ∧ t.chip.get FLT.GUARD_TEST = test.toNat ∧ (3 ∈ t.chip.flt.windows ↔ test = true ∨ s.chip.flt.inj ≠ none) ∧
      (∀ w : Nat, w ≠ 3 → (w ∈ t.chip.flt.windows ↔ w ∈ s.chip.flt.windows)) ∧ t.chip.faultQ = s.chip.faultQ ∧ t.chip.outbox = s.chip.outbox ∧ Keeps s t (fun o => o == FLT.GUARD || o == FLT.STAT)) ∧
  (∀ (s : State) (req : Requester) (key : BitVec 16) (cold : ColdIn), s.chip.reaches req FLT.CSREQ = true → key ≠ 0xc5a7 → s.chip.flt.coldHeld = false → ∃ t, Machine.exec (.coldStartRequest req key cold) s = .next t ∧ t.chip.inner = s.chip.inner ∧ t.chip.faultQ = s.chip.faultQ ∧
      t.chip.outbox = s.chip.outbox ∧ Keeps s t (fun o => o == FLT.CSREQ)) ∧
  (∀ (s : State) (req : Requester) (cold : ColdIn), s.chip.reaches req FLT.CSREQ = true → s.chip.stopRunning = true → ∃ t, Machine.exec (.coldStartRequest req 0xc5a7 cold) s = .next t ∧ t.chip.flt = { s.chip.flt with coldHeld := true } ∧ t.chip.faultQ = s.chip.faultQ ∧
      t.chip.outbox = s.chip.outbox ∧ t.chip.rails = s.chip.rails ∧ Keeps s t (fun o => o == FLT.CSREQ)) ∧
  (∀ (s : State) (req : Requester) (nvmOk idOk : Bool) (n : Fin 257), s.chip.reaches req FLT.CSREQ = true → s.chip.stopRunning = false → s.chip.coldMay = true → ∃ t, Machine.exec (.coldStartRequest req 0xc5a7 ⟨false, nvmOk, idOk, n⟩) s = .next t ∧ t.chip.get FW.STAT_HOLD = 1 ∧ t.chip.get FW.STAT_HOLDRSN = 2 ∧
      t.chip.fw.released = false ∧ t.chip.get ACC.ACCST_LOCKED = 1 ∧ t.chip.get PWR.DOMSTAT_PX = 0 ∧ t.chip.domOn .core = true ∧ t.chip.flt.coldHeld = false ∧ t.chip.faultQ = [⟨0x2702, 0, 0⟩] ∧ t.chip.reg FLTA.F4 = s.chip.reg FLTA.F4)

/-- SENSOR_READING, CROSS_CHECK_ROUND, THERMAL_SHUTDOWN and COOLING_RESTART (R373 to R387). Temperatures are in eighths of a degree. What the cross-check rounds are counted from is the model's choice (log entry 181). -/
def Obligations.SensorsWindowAndShutdown : Prop :=
  (∀ (s : State) (i : Fin 36) (temp : BitVec 12), s.chip.domOn .core = true → s.chip.power.aon = true → s.chip.get PWR.DOMSTAT_HOLDUP = 0 → s.chip.get THMA.SDSTAT_STATE = 0 → (8 ≤ i.val → s.chip.sensUp i.val = true) → (∀ j : Fin 36, s.chip.get (THM.SENS_BRK j.val) = 0) →
    ∃ t, Machine.exec (.sensorReading i temp) s = .next t ∧ t.chip.get (THM.SENS_TEMP i.val) = temp.toNat ∧ t.chip.get (THM.SENS_USED i.val) = temp.toNat ∧ t.chip.get (THM.SENS_VALID i.val) = 1 ∧
      (∀ j : Fin 36, j ≠ i → t.chip.get (THM.SENS_TEMP j.val) = s.chip.get (THM.SENS_TEMP j.val) ∧ t.chip.get (THM.SENS_USED j.val) = s.chip.get (THM.SENS_USED j.val) ∧ t.chip.get (THM.SENS_VALID j.val) = s.chip.get (THM.SENS_VALID j.val)) ∧
      (bitAt s.chip.therm.warm i.val = false → s.chip.getS THM.WARN_DIEWARN ≤ signedOf 12 temp.toNat → Recorded s.chip t.chip THM.EVT_DIEWF THM.EVTCNT_DIEWCNT ∧ bitAt t.chip.therm.warm i.val = true) ∧
      ((∃ j : Fin 8, t.chip.get (THM.SENS_VALID j.val) = 1) → (∀ j : Fin 8, t.chip.get (THM.SENS_VALID j.val) = 1 → t.chip.getS (THM.SENS_USED j.val) ≤ t.chip.getS THM.STAT_HUBTJ) ∧
        (∃ j : Fin 8, t.chip.get (THM.SENS_VALID j.val) = 1 ∧ t.chip.getS (THM.SENS_USED j.val) = t.chip.getS THM.STAT_HUBTJ) ∧
        (s.chip.get THM.STAT_WINOPEN = 1 → (t.chip.get THM.STAT_WINOPEN = 1 ↔ 0 ≤ t.chip.getS THM.STAT_HUBTJ ∧ t.chip.getS THM.STAT_HUBTJ ≤ 840)) ∧
        (s.chip.get THM.STAT_WINOPEN = 0 → (t.chip.get THM.STAT_WINOPEN = 1 ↔ 24 ≤ t.chip.getS THM.STAT_HUBTJ ∧ t.chip.getS THM.STAT_HUBTJ ≤ 816))) ∧
      t.chip.faultQ = s.chip.faultQ ∧ t.chip.outbox = s.chip.outbox ∧ Keeps s t (fun o => span 0x26000 0x26290 o || span 0x32000 0x34000 o || o == TILE.CMTST)) ∧
  (∀ (s : State) (i : Fin 8) (temp : BitVec 12), s.chip.power.aon = true → s.chip.get THMA.SDSTAT_STATE = 1 → s.chip.get TILE.CMTST_STATUS = 0 → s.chip.therm.hub.length = 8 →
    (∀ j : Fin 8, bitAt (s.chip.get THMA.SDMASK_MASK) j.val = true ∨ signedOf 12 (if j = i then temp.toNat else s.chip.therm.hub.getD j.val 0) < 960) → ∃ t, Machine.exec (.sensorReading (i.castLE (by decide)) temp) s = .next t ∧
      t.chip.get THMA.SDSTAT_STATE = 2 ∧ Effect s t (fun c => c.thermUpd fun h => { h with hub := h.hub.set i.val temp.toNat, coolAt := s.chip.now }) [THMA.SDSTAT_STATE] [] [] []) ∧
  (∀ (s : State) (i : Fin 8) (temp : BitVec 12), s.chip.power.aon = true → s.chip.get THMA.SDSTAT_STATE ≠ 0 → s.chip.get TILE.CMTST_STATUS = 0 → s.chip.therm.hub.length = 8 → bitAt (s.chip.get THMA.SDMASK_MASK) i.val = false → 960 ≤ signedOf 12 temp.toNat →
    ∃ t, Machine.exec (.sensorReading (i.castLE (by decide)) temp) s = .next t ∧ t.chip.get THMA.SDSTAT_STATE = 1 ∧ Effect s t (fun c => c.thermUpd fun h => { h with hub := h.hub.set i.val temp.toNat }) [THMA.SDSTAT_STATE] [] [] []) ∧
  (∀ (s : State) (i : Fin 36), s.chip.domOn .core = true → s.chip.get PWR.DOMSTAT_HOLDUP = 0 → s.chip.get THM.CFG_XCHK = 1 → s.chip.therm.roundAt + 1000 * orOne (s.chip.get THM.CFG_XINT) ≤ s.chip.now → s.chip.sensWorst = some i.val → 2 * ((dieSens (sensDie i.val)).filter s.chip.sensBroken).length < (dieSens (sensDie i.val)).length →
    ∃ t, Machine.exec .crossCheckRound s = .next t ∧ t.chip.get (THM.SENS_BRK i.val) = 1 ∧ Recorded s.chip t.chip THM.EVT_BRKF THM.EVTCNT_BRKCNT ∧ (t.chip.faultQ.map fun m => (m.code, m.inst)) = (s.chip.faultQ.map fun m => (m.code, m.inst)) ++ [(0x2400, i.val)] ∧
      t.chip.therm.roundAt = s.chip.now ∧ (i.val < 8 → bitAt (t.chip.get THMA.SDMASK_MASK) i.val = true) ∧ (∀ j : Fin 36, j ≠ i → t.chip.reg (THM.SENS j.val) = s.chip.reg (THM.SENS j.val)) ∧ t.chip.outbox = s.chip.outbox ∧
      Keeps s t (fun o => span 0x26000 0x26290 o || o == THMA.SDMASK || (onDies o && o == THMD.DSTAT (sensDie i.val)))) ∧
  (∀ (s : State), s.chip.get THM.CFG_XCHK = 0 ∨ s.chip.sensWorst = none ∨ s.chip.now < s.chip.therm.roundAt + 1000 * orOne (s.chip.get THM.CFG_XINT) → ∃ t, Machine.exec .crossCheckRound s = .next t ∧
      Effect s t (fun c => { c with therm := { c.therm with roundAt := t.chip.therm.roundAt } }) [] [] [] []) ∧
  (∀ (s : State) (i : Fin 36), s.chip.domOn .core = true → s.chip.get PWR.DOMSTAT_HOLDUP = 0 → s.chip.get THM.CFG_XCHK = 1 → s.chip.therm.roundAt + 1000 * orOne (s.chip.get THM.CFG_XINT) ≤ s.chip.now → s.chip.sensWorst = some i.val → (dieSens (sensDie i.val)).length ≤ 2 * ((dieSens (sensDie i.val)).filter s.chip.sensBroken).length →
    ∃ t, Machine.exec .crossCheckRound s = .next t ∧ t.chip.get THM.EVTCNT_BRKCNT = counted s.chip THM.EVTCNT_BRKCNT ∧
      Effect s t (fun c => { c with therm := { c.therm with roundAt := s.chip.now } }) [THM.EVTCNT_BRKCNT] [] [] []) ∧
  (∀ (s : State) (i : Fin 36), s.chip.power.aon = true → s.chip.get THMA.SDSTAT_STATE = 0 → s.chip.get PWR.DOMSTAT_HOLDUP = 0 → s.chip.sensTrips i.val = true → s.chip.get FLTA.F4_CODE = 0 →
    ∃ t, Machine.exec (.thermalShutdown i) s = .next t ∧ t.chip.get THMA.SDSTAT_STATE = 1 ∧ t.chip.get THMA.SDSTAT_INST = i.val ∧ t.chip.get THMA.SDSTAT_SDTOT = counted s.chip THMA.SDSTAT_SDTOT ∧ t.chip.get THMA.SDTIME_LO_SDTL = s.chip.now % 2 ^ 32 ∧ t.chip.therm.times = (s.chip.now :: s.chip.therm.times).take 3 ∧
      t.chip.get THMA.SDSTAT_N24 = (((s.chip.now :: s.chip.therm.times).take 3).filter fun a => decide (s.chip.now ≤ a + 86400000000)).length ∧ (t.chip.get THMA.SDSTAT_N24 = 3 → t.chip.get FLTA.F4_CODE = 0x8402) ∧ (t.chip.get THMA.SDSTAT_N24 ≠ 3 → t.chip.get FLTA.F4_CODE = 0) ∧
      (∀ d ∈ [Dom.core, Dom.pol, Dom.host, Dom.nvm, Dom.hka], t.chip.domOn d = false) ∧ t.chip.get PWR.DOMSTAT_PX = 0 ∧ t.chip.get FLTA.PIN_LEVEL = 1 ∧ t.chip.faultQ = [] ∧ t.chip.outbox = s.chip.outbox ∧ t.chip.time = s.chip.time ∧ t.chip.boot = s.chip.boot ∧ t.nvm = s.nvm ∧ t.pending = s.pending) ∧
  (∀ (s : State) (i : Fin 36), (s.chip.get THMA.SDSTAT_STATE ≠ 0 ∨ s.chip.sensTrips i.val = false) → ∃ t, Machine.exec (.thermalShutdown i) s = .next t ∧ t = s) ∧
  (∀ (s : State) (nvmOk idOk : Bool) (n : Fin 257), s.chip.coolDone = true → s.chip.power.supplies = true → ∃ t, Machine.exec (.coolingRestart ⟨false, nvmOk, idOk, n⟩) s = .next t ∧ t.chip.get THMA.SDSTAT_STATE = 0 ∧ t.chip.domOn .core = true ∧ t.chip.get FW.STAT_HOLD = 1 ∧ t.chip.get FW.STAT_HOLDRSN = 2 ∧
      t.chip.faultQ = [⟨0x2401, s.chip.get THMA.SDSTAT_INST, BitVec.ofNat 32 (s.chip.get THMA.BUFLOST_LOST)⟩, ⟨0x2702, 0, 0⟩] ∧ t.nvm = s.nvm ∧ t.pending = s.pending) ∧
  (∀ (s : State) (cold : ColdIn), s.chip.coolDone = false → ∃ t, Machine.exec (.coolingRestart cold) s = .next t ∧ t = s)

/-- DOORBELL, SOFTWARE_DOORBELL, GROUP_TIMER_EXPIRE, SOURCE_CFG_WRITE, CLAIM, END_OF_INTERRUPT and PROCESSOR_CTRL_WRITE (R389 to R402). -/
def Obligations.EventsArePendedClaimedAndEnded : Prop :=
  (∀ (s : State) (src : SourceId), s.chip.coreRuns = true → s.chip.bells.get src.val ≠ 0 → s.chip.bellFirst src.val = true → s.chip.bellTurn = some (bellPort src.val) → ∃ t, Machine.exec (.doorbell src) s = .next t ∧
    t.chip.bells.get src.val = 0 ∧ (∀ j, j ≠ src.val → t.chip.bells.get j = s.chip.bells.get j) ∧
    t.chip.get (SRC.STATE_CNT src.val) = min (s.chip.get (SRC.STATE_CNT src.val) + s.chip.bells.get src.val) 255 ∧
    t.chip.get EVH.EVTCNT_SATCNT = (if 255 < s.chip.get (SRC.STATE_CNT src.val) + s.chip.bells.get src.val then counted s.chip EVH.EVTCNT_SATCNT else s.chip.get EVH.EVTCNT_SATCNT) ∧
    (s.chip.get (SRC.CFG_GV src.val) = 0 → s.chip.get (SRC.STATE_INSRV src.val) = 0 → (t.chip.srcs.get src.val).ready = true ∧ t.chip.get (SRC.STATE_PEND src.val) = 1) ∧
    (s.chip.get (SRC.CFG_GV src.val) = 1 → s.chip.get (SRC.STATE_INSRV src.val) = 0 → (t.chip.srcs.get src.val).ready = true ∨ (t.chip.srcs.get src.val).unreleased = true) ∧
    t.chip.faultQ = s.chip.faultQ ∧ t.chip.outbox = s.chip.outbox ∧ Keeps s t (fun o => decide (0x28000 ≤ o) && decide (o < 0x2e000))) ∧
  (∀ (s : State) (req : Requester) (src : SourceId), s.chip.reaches req EVH.DOORBELL = true → 0x7c0 ≤ src.val → ∃ t, Machine.exec (.softwareDoorbell req src) s = .next t ∧
    t.chip.get (SRC.STATE_CNT src.val) = min (s.chip.get (SRC.STATE_CNT src.val) + 1) 255 ∧
    (s.chip.get (SRC.CFG_GV src.val) = 0 → s.chip.get (SRC.STATE_INSRV src.val) = 0 → (t.chip.srcs.get src.val).ready = true ∧ t.chip.get (SRC.STATE_PEND src.val) = 1) ∧
    t.chip.faultQ = s.chip.faultQ ∧ t.chip.outbox = s.chip.outbox ∧ Keeps s t (fun o => decide (0x28000 ≤ o) && decide (o < 0x2e000))) ∧
  (∀ (s : State) (req : Requester) (src : SourceId), s.chip.reaches req EVH.DOORBELL = true → src.val < 0x7c0 → ∃ t, Machine.exec (.softwareDoorbell req src) s = .next t ∧
    Recorded s.chip t.chip EVH.EVT_DBREFF EVH.EVTCNT_DBREFCNT ∧ Effect s t id [EVH.EVT_DBREFF, EVH.EVTCNT_DBREFCNT] [] [] []) ∧
  (∀ (s : State) (g : Fin 64), s.chip.coreRuns = true → s.chip.get (GRP.STATE_ARMED g.val) = 1 →
    s.chip.groupStart.get g.val + orOne (s.chip.get (GRP.CFG_TIME g.val)) ≤ s.chip.now → ∃ t, Machine.exec (.groupTimerExpire g) s = .next t ∧
    t.chip.get (GRP.STATE_ACC g.val) = 0 ∧ t.chip.get (GRP.STATE_ARMED g.val) = 0 ∧
    (∀ src : SourceId, src.val ∈ s.chip.unreleasedOf g.val → (t.chip.srcs.get src.val).unreleased = false ∧
      (s.chip.get (SRC.STATE_INSRV src.val) = 0 → (t.chip.srcs.get src.val).ready = true) ∧ (s.chip.get (SRC.STATE_INSRV src.val) = 1 → (t.chip.srcs.get src.val).released = true)) ∧
    t.chip.faultQ = s.chip.faultQ ∧ t.chip.outbox = s.chip.outbox ∧ Keeps s t (fun o => decide (0x28000 ≤ o) && decide (o < 0x2e000))) ∧
  (∀ (s : State) (req : Requester) (src : SourceId) (value : Word), s.chip.reaches req (SRC.CFG src.val) = true → ∃ t, Machine.exec (.sourceCfgWrite req src value) s = .next t ∧
    t.chip.reg (SRC.CFG src.val) = value &&& ~~~0x0001fff0#32 ∧
    (s.chip.get (SRC.CFG_GV src.val) = 1 → value.getLsbD 23 = false → (t.chip.srcs.get src.val).unreleased = false) ∧
    t.chip.faultQ = s.chip.faultQ ∧ t.chip.outbox = s.chip.outbox ∧ Keeps s t (fun o => decide (0x28000 ≤ o) && decide (o < 0x2e000))) ∧
  (∀ (s : State) (req : Requester) (k : ProcId) (i : SourceId), s.chip.reqUp req = true → s.chip.offAt (PP.CLAIM k.val) = false → s.chip.polAsleep = false →
    s.chip.evh.winners.getD k.val none = some i.val → s.chip.get (PP.STAT_DEPTH k.val) < 16 → ∃ t, Machine.exec (.claim req k) s = .next t ∧
    t.chip.outbox = s.chip.outbox ++ [.data req (PP.CLAIM k.val) (s.chip.reg (PP.WIN k.val)) true] ∧
    t.chip.get (SRC.STATE_CNT i.val) = 0 ∧ t.chip.get (SRC.STATE_INSRV i.val) = 1 ∧ t.chip.get (PP.STAT_DEPTH k.val) = s.chip.get (PP.STAT_DEPTH k.val) + 1 ∧
    t.chip.get (PP.STK_SRC k.val (s.chip.get (PP.STAT_DEPTH k.val))) = i.val ∧ t.chip.get (PP.STK_VALID k.val (s.chip.get (PP.STAT_DEPTH k.val))) = 1 ∧
    t.chip.get (PP.STAT_RUNPRI k.val) = s.chip.get (PP.WIN_PRI k.val) ∧ t.chip.get (PP.STAT_FASTBK k.val) = s.chip.get (PP.WIN_CLS k.val) ∧
    t.chip.get (PP.ACKCNT_COUNT k.val) = (s.chip.get (PP.ACKCNT_COUNT k.val) + 1) % 2 ^ 32 ∧
    t.chip.faultQ = s.chip.faultQ ∧ Keeps s t (fun o => decide (0x28000 ≤ o) && decide (o < 0x2e000))) ∧
  (∀ (s : State) (req : Requester) (k : ProcId), s.chip.reqUp req = true → s.chip.offAt (PP.CLAIM k.val) = false → s.chip.polAsleep = false →
    s.chip.evh.winners.getD k.val none = none → ∃ t, Machine.exec (.claim req k) s = .next t ∧
    Recorded s.chip t.chip (PP.EVT_EMPF k.val) (PP.EVTCNT_EMPCNT k.val) ∧ Effect s t id [PP.EVT_EMPF k.val, PP.EVTCNT_EMPCNT k.val] [] [] [.data req (PP.CLAIM k.val) 0 true]) ∧
  (∀ (s : State) (req : Requester) (k : ProcId) (src : SourceId), s.chip.reaches req (PP.EOI k.val) = true → s.chip.polAsleep = false →
    1 ≤ s.chip.get (PP.STAT_DEPTH k.val) → s.chip.get (PP.STAT_DEPTH k.val) ≤ 16 → s.chip.get (PP.STK_SRC k.val (s.chip.get (PP.STAT_DEPTH k.val) - 1)) = src.val →
    ∃ t, Machine.exec (.endOfInterrupt req k src) s = .next t ∧ t.chip.get (PP.STAT_DEPTH k.val) = s.chip.get (PP.STAT_DEPTH k.val) - 1 ∧
      t.chip.reg (PP.STK k.val (s.chip.get (PP.STAT_DEPTH k.val) - 1)) = 0 ∧ t.chip.get (SRC.STATE_INSRV src.val) = 0 ∧
      (s.chip.get (PP.STAT_DEPTH k.val) = 1 → t.chip.get (PP.STAT_RUNPRI k.val) = 64) ∧
      (2 ≤ s.chip.get (PP.STAT_DEPTH k.val) → t.chip.get (PP.STAT_RUNPRI k.val) = s.chip.get (PP.STK_PRI k.val (s.chip.get (PP.STAT_DEPTH k.val) - 2))) ∧
      (s.chip.get (SRC.STATE_CNT src.val) ≠ 0 → s.chip.get (SRC.CFG_GV src.val) = 0 → (t.chip.srcs.get src.val).ready = true) ∧
      t.chip.faultQ = s.chip.faultQ ∧ t.chip.outbox = s.chip.outbox ∧ Keeps s t (fun o => decide (0x28000 ≤ o) && decide (o < 0x2e000))) ∧
  (∀ (s : State) (req : Requester) (k : ProcId) (src : SourceId), s.chip.reaches req (PP.EOI k.val) = true → s.chip.polAsleep = false →
    1 ≤ s.chip.get (PP.STAT_DEPTH k.val) → s.chip.get (PP.STK_SRC k.val (s.chip.get (PP.STAT_DEPTH k.val) - 1)) ≠ src.val →
    ∃ t, Machine.exec (.endOfInterrupt req k src) s = .next t ∧ Recorded s.chip t.chip (PP.EVT_ORDF k.val) (PP.EVTCNT_ORDCNT k.val) ∧
      Effect s t id [PP.EVT_ORDF k.val, PP.EVTCNT_ORDCNT k.val] []
        [⟨0x2021, k.val, BitVec.ofNat 32 (s.chip.get (PP.STK_SRC k.val (s.chip.get (PP.STAT_DEPTH k.val) - 1)) * 2 ^ 16 + src.val)⟩] []) ∧
  (∀ (s : State) (req : Requester) (k : ProcId) (src : SourceId), s.chip.reaches req (PP.EOI k.val) = true → s.chip.polAsleep = false → s.chip.get (PP.STAT_DEPTH k.val) = 0 →
    ∃ t, Machine.exec (.endOfInterrupt req k src) s = .next t ∧ Recorded s.chip t.chip (PP.EVT_ORDF k.val) (PP.EVTCNT_ORDCNT k.val) ∧
      Effect s t id [PP.EVT_ORDF k.val, PP.EVTCNT_ORDCNT k.val] [] [⟨0x2021, k.val, BitVec.ofNat 32 (0x7ff * 2 ^ 16 + src.val)⟩] []) ∧
  (∀ (s : State) (req : Requester) (k : ProcId) (value : Word), s.chip.reaches req (PP.CTRL k.val) = true → ∃ t, Machine.exec (.processorCtrlWrite req k value) s = .next t ∧
    t.chip.get (PP.CTRL_PMR k.val) = wordField value 1 7 ∧ (value.getLsbD 0 = false → t.chip.get (PP.CTRL_PARK k.val) = 0) ∧
    (value.getLsbD 0 = true → (∀ src : SourceId, (s.chip.srcs.get src.val).ready = false) → t.chip.get (PP.CTRL_PARK k.val) = 1) ∧
    t.chip.faultQ = s.chip.faultQ ∧ t.chip.outbox = s.chip.outbox ∧ Keeps s t (fun o => decide (0x28000 ≤ o) && decide (o < 0x2e000)))

/-- PCIE_LINK_UP, PCIE_LINK_DOWN, FUNCTION_LEVEL_RESET, POWER_STATE_CHANGE, MSIX_UNMASK and RING_CFG_WRITE (R414 to R448). -/
def Obligations.TheFunctionFollowsItsLink : Prop :=
  (∀ (s : State) (gen : Fin 4) (two : Bool), s.chip.domOn .host = true → s.chip.get HIF.STAT_LINKUP = 0 → ∃ t, Machine.exec (.pcieLinkUp gen two) s = .next t ∧ t.chip.get HIF.STAT_LINKUP = 1 ∧ t.chip.get HIF.STAT_SPEED = gen.val + 1 ∧
      t.chip.get HIF.STAT_WIDTH = (if two then 2 else 1) ∧ t.chip.get HIF.STAT_LSTATE = 0 ∧ t.chip.get TIME.TBSTAT_TB4OK = 1 ∧ Effect s t id [HIF.STAT_LINKUP, HIF.STAT_SPEED, HIF.STAT_WIDTH, HIF.STAT_LSTATE, TIME.TBSTAT_TB4OK] [] [] []) ∧
  (∀ (s : State) (tb4 : Bool), s.chip.domOn .host = true → s.chip.get HIF.STAT_LINKUP = 1 → ∃ t, Machine.exec (.pcieLinkDown tb4) s = .next t ∧ t.chip.get TIME.TBSTAT_TB4OK = tb4.toNat ∧ Recorded s.chip t.chip HIF.EVT_LINKDF HIF.EVTCNT_LINKDCNT ∧ t.chip.get HIF.STAT_LINKUP = 0 ∧ t.chip.get HIF.STAT_LSTATE = 3 ∧ t.chip.get HIF.CTRL_EN = 0 ∧
      (∀ r : Fin 22, r.val ≠ 17 → t.chip.get (RING.CFG_EN r.val) = 0 ∧ t.chip.get (RING.STAT_STATE r.val) = 0 ∧ (t.chip.rings.get r.val).busy = (s.chip.rings.get r.val).busy.map fun b => { b with dead := true }) ∧
      t.chip.hif.held = [] ∧ t.chip.hif.pollBusy = false ∧ t.chip.hif.evSeq = s.chip.hif.evSeq ∧ t.chip.faultQ = s.chip.faultQ ∧ t.chip.hif.telQ = [] ∧ t.chip.outbox = s.chip.outbox ∧ Keeps s t (fun o => span 0x30000 0x312c0 o || o == TIME.TBSTAT || s.chip.hif.telQ.any (fun e => o == RING.CNT e.ring))) ∧
  (∀ (s : State), s.chip.domOn .host = true → s.chip.get HIF.STAT_LINKUP = 1 → s.chip.hif.held = [] → ∃ t, Machine.exec .functionLevelReset s = .next t ∧ t.chip.get HIF.EVT_FLRF = 1 ∧ t.chip.get HIF.LOST_FLRCNT = counted s.chip HIF.LOST_FLRCNT ∧ t.chip.get HIF.LOST_CPLLOST = s.chip.get HIF.LOST_CPLLOST ∧
      t.chip.get HIF.STAT_LINKUP = 1 ∧ t.chip.get HIF.STAT_SPEED = s.chip.get HIF.STAT_SPEED ∧ t.chip.get HIF.STAT_DSTATE = 0 ∧ t.chip.get HIF.STAT_PAUSED = 0 ∧ t.chip.hif = { evSeq := s.chip.hif.evSeq, subsystem := s.chip.hif.subsystem } ∧
      (∀ o : Nat, inFunction o = true → o ≠ HIF.STAT → o ≠ HIF.LOST → o ≠ HIF.EVT → t.chip.reg o = resetWord o) ∧ t.chip.faultQ = s.chip.faultQ ∧ t.chip.outbox = s.chip.outbox ∧ Keeps s t (fun o => inFunction o || s.chip.hif.telQ.any (fun e => o == RING.CNT e.ring))) ∧
  (∀ (s : State) (link : Fin 3) (pme bm ms : Bool) (fm : Bool), s.chip.domOn .host = true → s.chip.get HIF.STAT_LINKUP = 1 → ∃ t, Machine.exec (.powerStateChange true link pme bm ⟨ms, fm⟩) s = .next t ∧ t.chip.get HIF.STAT_DSTATE = 3 ∧ t.chip.get HIF.STAT_PAUSED = 1 ∧ t.chip.get HIF.STAT_LSTATE = link.val ∧
      t.chip.hif.funcMask = fm ∧ t.chip.hif.telQ = [] ∧ (s.chip.hif.telQ = [] → Effect s t (fun c => { c with hif := { c.hif with pmeEn := pme, busMaster := bm, msixEn := ms, funcMask := fm, pollBusy := false, kickAgain := false } }) [HIF.STAT_DSTATE, HIF.STAT_PAUSED, HIF.STAT_LSTATE] [] [] [])) ∧
  (∀ (s : State) (link : Fin 3) (pme bm ms : Bool) (fm : Bool), s.chip.domOn .host = true → s.chip.get HIF.STAT_LINKUP = 1 → s.chip.hif.held = [] → s.chip.reg (PBA.BITS 0) = 0 → ∃ t, Machine.exec (.powerStateChange false link pme bm ⟨ms, fm⟩) s = .next t ∧ t.chip.get HIF.STAT_DSTATE = 0 ∧ t.chip.get HIF.STAT_PAUSED = 0 ∧
      t.chip.get HIF.STAT_LSTATE = link.val ∧ Effect s t (fun c => { c with hif := { c.hif with pmeEn := pme, busMaster := bm, msixEn := ms, funcMask := fm, held := [], heldEvents := 0 } }) [HIF.STAT_DSTATE, HIF.STAT_PAUSED, HIF.STAT_LSTATE] [] [] []) ∧
  (∀ (s : State) (r : Fin 8) (bytes : List Byte) (fm : Bool), s.chip.domOn .host = true → s.chip.get HIF.STAT_LINKUP = 1 → s.chip.get HIF.CTRL_EN = 1 → s.chip.hif.held = [⟨8 + r.val, bytes, false⟩] → s.chip.get (RING.STAT_STATE (8 + r.val)) = 1 → s.chip.reg (PBA.BITS 0) = 0 →
    ∃ t, Machine.exec (.powerStateChange false 0 true true ⟨true, fm⟩) s = .next t ∧ t.chip.hif.held = [] ∧ t.chip.get HIF.STAT_PAUSED = 0 ∧ t.chip.get (RING.DIDX_DIDX (8 + r.val)) = (s.chip.get (RING.DIDX_DIDX (8 + r.val)) + 1) % 2 ^ 32 ∧ t.chip.outbox.length = s.chip.outbox.length + 2 ∧
      t.chip.outbox.getLast? = some (.writeback (8 + r.val) (s.chip.backAddr (8 + r.val)) ((s.chip.get (RING.DIDX_DIDX (8 + r.val)) + 1) % 2 ^ 32))) ∧
  (∀ (s : State) (v : Fin 32), s.chip.domOn .host = true → s.chip.get HIF.STAT_LINKUP = 1 → s.chip.get HIF.STAT_DSTATE = 0 → s.chip.hif.funcMask = false → s.chip.get (PBA.BITS_PEND 0) = 2 ^ v.val → ∃ t, Machine.exec (.msixUnmask (some v) true true) s = .next t ∧
      t.chip.get (MSIX.VCTRL_MASK v.val) = 0 ∧ t.chip.get (PBA.BITS_PEND 0) = 0 ∧ Effect s t (fun c => { c with hif := { c.hif with msixEn := true, busMaster := true } }) [MSIX.VCTRL_MASK v.val, PBA.BITS_PEND 0, HIF.STAT_LSTATE] [] [] [.msix v.val] ∧ t.chip.get HIF.STAT_LSTATE = (if s.chip.get HIF.STAT_LSTATE = 1 then 0 else s.chip.get HIF.STAT_LSTATE)) ∧
  (∀ (s : State) (bm : Bool), s.chip.domOn .host = true → ∃ t, Machine.exec (.msixUnmask none false bm) s = .next t ∧ Effect s t (fun c => { c with hif := { c.hif with msixEn := false, busMaster := bm, funcMask := false } }) [] [] [] []) ∧
  (∀ (s : State) (req : Requester) (r : Fin 22) (value : Word), s.chip.reaches req (RING.CFG r.val) = true → r.val ≠ 17 → s.chip.get (RING.CFG_EN r.val) = 0 → value.getLsbD 31 = true → 6 ≤ value.toNat / 2 ^ 24 % 32 → value.toNat / 2 ^ 24 % 32 ≤ 16 →
    ∃ t, Machine.exec (.ringCfgWrite req r value) s = .next t ∧ t.chip.get (RING.CFG_EN r.val) = 1 ∧ t.chip.get (RING.CFG_LOG2N r.val) = value.toNat / 2 ^ 24 % 32 ∧ (8 ≤ r.val → t.chip.get (RING.CFG_VEC r.val) = value.toNat / 2 ^ 16 % 32) ∧ (r.val < 8 → t.chip.get (RING.CFG_CPLSEL r.val) = value.toNat / 2 ^ 12 % 8) ∧
      t.chip.get (RING.STAT_STATE r.val) = 1 ∧ t.chip.get (RING.DIDX_DIDX r.val) = 0 ∧ t.chip.get (RING.HIDX_HIDX r.val) = 0 ∧ (t.chip.rings.get r.val).unsig = 0 ∧ t.chip.faultQ = s.chip.faultQ ∧ t.chip.outbox = s.chip.outbox ∧
      Keeps s t (fun o => span (0x31000 + 0x20 * r.val) (0x31020 + 0x20 * r.val) o)) ∧
  (∀ (s : State) (req : Requester) (r : Fin 22) (value : Word), s.chip.reaches req (RING.CFG r.val) = true → r.val ≠ 17 → s.chip.get (RING.CFG_EN r.val) = 1 → value.getLsbD 31 = false →
    ∃ t, Machine.exec (.ringCfgWrite req r value) s = .next t ∧ t.chip.get (RING.CFG_EN r.val) = 0 ∧ t.chip.get (RING.CFG_LOG2N r.val) = s.chip.get (RING.CFG_LOG2N r.val) ∧
      t.chip.get (RING.STAT_STATE r.val) = (if r.val < 8 ∧ (s.chip.rings.get r.val).busy ≠ none then 2 else 0) ∧ t.chip.inner = s.chip.inner ∧ t.chip.faultQ = s.chip.faultQ ∧ t.chip.outbox = s.chip.outbox ∧ Keeps s t (fun o => o == RING.CFG r.val || o == RING.STAT r.val))

/-- HOST_POLL, KICK, DMA_READ_ERROR, COMPLETION_MODERATION_EXPIRE and TELEMETRY_FLUSH (R419 to R433, R539). Which of a kicked and a periodic poll a HOST_POLL ends is the model's choice (log entry 178), as is the step that writes the telemetry queue and the room it is counted by (log entries 182 and 201). -/
def Obligations.RingsArePolledSignalledAndFlushed : Prop :=
  (∀ (s : State) (bells : List Word), s.chip.hostLive = true → s.chip.mayPoll = true → (∀ r : Fin 22, r.val ≠ 17 → s.chip.get (RING.STAT_STATE r.val) = 1 →
      (if r.val < 8 then (bellWord bells r.val + 2 ^ 32 - s.chip.get (RING.DIDX_DIDX r.val)) % 2 ^ 32 else (s.chip.get (RING.DIDX_DIDX r.val) + 2 ^ 32 - bellWord bells r.val) % 2 ^ 32) ≤ 2 ^ s.chip.get (RING.CFG_LOG2N r.val)) →
    ∃ t, Machine.exec (.hostPoll bells true) s = .next t ∧ (∀ r : Fin 22, r.val ≠ 17 → t.chip.get (RING.STAT_STATE r.val) = s.chip.get (RING.STAT_STATE r.val) ∧
        t.chip.get (RING.HIDX_HIDX r.val) = (if s.chip.get (RING.STAT_STATE r.val) = 1 then bellWord bells r.val else s.chip.get (RING.HIDX_HIDX r.val))) ∧
      t.chip.hif = (if s.chip.hif.pollBusy then { s.chip.hif with pollBusy := s.chip.hif.kickAgain, kickAgain := false } else s.chip.hif) ∧ t.chip.faultQ = s.chip.faultQ ∧ t.chip.outbox = s.chip.outbox ++ [.hostRead ((s.chip.reg HIF.DBBASE_LO).toNat + 2 ^ 32 * (s.chip.reg HIF.DBBASE_HI).toNat) 128] ∧ Keeps s t (fun o => span 0x31000 0x312c0 o)) ∧
  (∀ (s : State) (bells : List Word) (r : Fin 22), s.chip.hostLive = true → s.chip.mayPoll = true → 18 ≤ r.val → (∀ q : Fin 22, q.val ≠ 17 → (s.chip.get (RING.STAT_STATE q.val) = 1 ↔ q = r)) → 2 ^ s.chip.get (RING.CFG_LOG2N r.val) < (s.chip.get (RING.DIDX_DIDX r.val) + 2 ^ 32 - bellWord bells r.val) % 2 ^ 32 →
    ∃ t, Machine.exec (.hostPoll bells true) s = .next t ∧ t.chip.get (RING.STAT_STATE r.val) = 3 ∧ Recorded s.chip t.chip HIF.EVT_RINGERRF HIF.EVTCNT_RINGERRCNT ∧ t.chip.faultQ = s.chip.faultQ ∧ t.chip.outbox = s.chip.outbox ++ [.hostRead ((s.chip.reg HIF.DBBASE_LO).toNat + 2 ^ 32 * (s.chip.reg HIF.DBBASE_HI).toNat) 128] ∧
      Keeps s t (fun o => o == HIF.EVT || o == HIF.EVTCNT || span 0x31000 0x312c0 o)) ∧
  (∀ (s : State) (bells : List Word), s.chip.hostLive = true → s.chip.mayPoll = true → ∃ t, Machine.exec (.hostPoll bells false) s = .next t ∧ Recorded s.chip t.chip HIF.EVT_DMAERRF HIF.EVTCNT_DMAERRCNT ∧
      Effect s t (fun c => if c.hif.pollBusy then { c with hif := { c.hif with pollBusy := c.hif.kickAgain, kickAgain := false } } else c.gridMark gridPoll) [HIF.EVT_DMAERRF, HIF.EVTCNT_DMAERRCNT] [0xe0] [] [.hostRead ((s.chip.reg HIF.DBBASE_LO).toNat + 2 ^ 32 * (s.chip.reg HIF.DBBASE_HI).toNat) 128]) ∧
  (∀ (s : State) (bells : List Word) (ok : Bool), s.chip.mayPoll = false → ∃ t, Machine.exec (.hostPoll bells ok) s = .next t ∧ t = s) ∧
  (∀ (s : State) (req : Requester), s.chip.reaches req HIF.KICK = true → ∃ t, Machine.exec (.kick req) s = .next t ∧
      Effect s t (fun c => { c with hif := { c.hif with pollBusy := true, kickAgain := c.hif.kickAgain || c.hif.pollBusy } }) [] [] [] []) ∧
  (∀ (s : State) (r : Fin 8), s.chip.hostLive = true → s.chip.get (RING.STAT_STATE r.val) = 1 → s.chip.get (RING.STAT_STATE 16) ≠ 1 → ∃ t, Machine.exec (.dmaReadError r) s = .next t ∧ t.chip.get (RING.STAT_STATE r.val) = 3 ∧
      Recorded s.chip t.chip HIF.EVT_RINGERRF HIF.EVTCNT_RINGERRCNT ∧ Recorded s.chip t.chip HIF.EVT_DMAERRF HIF.EVTCNT_DMAERRCNT ∧ (t.chip.rings.get r.val).busy = (s.chip.rings.get r.val).busy ∧ t.chip.faultQ = s.chip.faultQ ∧ t.chip.outbox = s.chip.outbox ∧
      Keeps s t (fun o => o == HIF.EVT || o == HIF.EVTCNT || o == RING.STAT r.val || o == RING.CNT 16)) ∧
  (∀ (s : State) (r : Fin 22), s.chip.domOn .host = true → (s.chip.rings.get r.val).unsig ≠ 0 → (s.chip.rings.get r.val).first + orOne (s.chip.get (RING.MOD_MODTIME r.val)) ≤ s.chip.now → s.chip.get HIF.STAT_LINKUP = 1 → s.chip.get HIF.STAT_DSTATE = 0 → s.chip.hif.msixEn = true → s.chip.hif.busMaster = true →
    s.chip.hif.funcMask = false → s.chip.get (MSIX.VCTRL_MASK (s.chip.get (RING.CFG_VEC r.val))) = 0 → ∃ t, Machine.exec (.completionModerationExpire r) s = .next t ∧
      Effect s t (fun c => c.ringUpd r.val fun h => { h with unsig := 0 }) [HIF.STAT_LSTATE] [] [] [.msix (s.chip.get (RING.CFG_VEC r.val))] ∧ t.chip.get HIF.STAT_LSTATE = (if s.chip.get HIF.STAT_LSTATE = 1 then 0 else s.chip.get HIF.STAT_LSTATE)) ∧
  (∀ (s : State) (kind : Fin 5) (inst : Fin 256) (trig : Fin 2) (h : TelHw) (strm : Fin 4), s.chip.tels.get (1024 * kind.val + 2 * inst.val + trig.val) = h → h.words ≠ [] → h.strm = strm.val → h.start + orOne (s.chip.get (RING.MOD_TFLUSH (18 + strm.val))) ≤ s.chip.now →
    s.chip.ringRuns (18 + strm.val) = true → s.chip.inD0 = true → s.chip.ringFull (18 + strm.val) = false → s.chip.hif.telQ.length < 64 → s.chip.telRoom = true → ∃ t, Machine.exec (.telemetryFlush kind inst trig) s = .next t ∧
      (t.chip.tels.get (1024 * kind.val + 2 * inst.val + trig.val)).words = [] ∧ (t.chip.streams.get strm.val).seq = ((s.chip.streams.get strm.val).seq + 1) % 2 ^ 16 ∧ (t.chip.rings.get (18 + strm.val)).loss = false ∧
      t.chip.hif.telQ = s.chip.hif.telQ ++ [⟨18 + strm.val, bytesLE 1 kind.val ++ bytesLE 1 h.words.length ++ bytesLE 2 (s.chip.streams.get strm.val).seq ++ bytesLE 1 inst.val ++ bytesLE 1 h.dec ++
          [0, if (s.chip.rings.get (18 + strm.val)).loss then 1 else 0] ++ bytesLE 8 h.start ++ padTo 48 (h.words.flatMap fun w => bytesLE 4 w.toNat), false⟩] ∧
      t.chip.faultQ = s.chip.faultQ ∧ t.chip.outbox = s.chip.outbox ∧ Keeps s t (fun o => o == RING.STAT (18 + strm.val))) ∧
  (∀ (s : State) (strm : Fin 4) (bytes : List Byte), s.pending = [] → s.chip.power.aon = true → s.chip.hif.telQ = [⟨18 + strm.val, bytes, false⟩] → bytes.length = 64 → (bytes.getD 7 0).toNat < 2 → s.chip.ringRuns (18 + strm.val) = true → s.chip.inD0 = true →
    (s.chip.rings.get (18 + strm.val)).unsig + 1 < orOne (s.chip.get (RING.MOD_MODCNT (18 + strm.val))) → ∃ t, step s = .next t ∧ t.chip.hif.telQ = [] ∧ t.chip.get (RING.DIDX_DIDX (18 + strm.val)) = (s.chip.get (RING.DIDX_DIDX (18 + strm.val)) + 1) % 2 ^ 32 ∧
      t.chip.outbox = s.chip.outbox ++ [.entry (18 + strm.val) (s.chip.get (RING.DIDX_DIDX (18 + strm.val))) (s.chip.entryAddr (18 + strm.val) (s.chip.get (RING.DIDX_DIDX (18 + strm.val))))
          (bytes.set 7 (BitVec.ofNat 8 ((bytes.getD 7 0).toNat + 128 * (1 - s.chip.get (RING.DIDX_DIDX (18 + strm.val)) / 2 ^ s.chip.get (RING.CFG_LOG2N (18 + strm.val)) % 2)))),
        .writeback (18 + strm.val) (s.chip.backAddr (18 + strm.val)) ((s.chip.get (RING.DIDX_DIDX (18 + strm.val)) + 1) % 2 ^ 32)] ∧
      t.chip.faultQ = s.chip.faultQ ∧ Keeps s t (fun o => span (0x31000 + 0x20 * (18 + strm.val)) (0x31020 + 0x20 * (18 + strm.val)) o)) ∧
  (∀ (s : State) (kind : Fin 5) (inst : Fin 256) (trig : Fin 2) (strm : Fin 4), (s.chip.tels.get (1024 * kind.val + 2 * inst.val + trig.val)).words ≠ [] → (s.chip.tels.get (1024 * kind.val + 2 * inst.val + trig.val)).strm = strm.val →
    (s.chip.tels.get (1024 * kind.val + 2 * inst.val + trig.val)).start + orOne (s.chip.get (RING.MOD_TFLUSH (18 + strm.val))) ≤ s.chip.now → (s.chip.ringRuns (18 + strm.val) = false ∨ s.chip.ringFull (18 + strm.val) = true ∨ 64 ≤ s.chip.hif.telQ.length ∨ s.chip.telRoom = false) →
    ∃ t, Machine.exec (.telemetryFlush kind inst trig) s = .next t ∧ (t.chip.tels.get (1024 * kind.val + 2 * inst.val + trig.val)).words = [] ∧ (t.chip.rings.get (18 + strm.val)).loss = true ∧ t.chip.get (RING.CNT_CNT (18 + strm.val)) = counted s.chip (RING.CNT_CNT (18 + strm.val)) ∧
      t.chip.hif.telQ = s.chip.hif.telQ ∧ t.chip.faultQ = s.chip.faultQ ∧ t.chip.outbox = s.chip.outbox ∧ Keeps s t (fun o => o == RING.CNT (18 + strm.val)))

/-- NOP, REG_READ, REG_WRITE, SET_VOUT, SET_SLEW, FAULT_ACK, DOMAIN, LOG_READ and MAP_READ (R421 to R425, R464, R495). What SETPT and SLEW hold after a refusal is what they held before (R264). -/
def Obligations.RingCommandsReadWriteAndCommand : Prop :=
  (∀ (s : State) (c : Cmd), s.chip.serves c = true → c.target = 0 → cmdClean c [] = true → ∃ t, Machine.exec (.nop ⟨c, 0⟩) s = .next t ∧ Answers s t c 0x00 0 0 [] id (fun _ => false)) ∧
  (∀ (s : State) (c : Cmd) (op : Byte), s.chip.serves c = true → listedOpcode op.toNat = false → ∃ t, Machine.exec (.nop ⟨c, op⟩) s = .next t ∧ Answers s t c op.toNat 1 0 [] id (fun _ => false)) ∧
  (∀ (s : State) (c : Cmd), s.chip.serves c = true → (c.target ≠ 0 ∨ cmdClean c [] = false) → ∃ t, Machine.exec (.nop ⟨c, 0⟩) s = .next t ∧ Answers s t c 0x00 2 0 [] id (fun _ => false)) ∧
  (∀ (s : State) (c : Cmd), s.chip.serves c = true → (32 ≤ c.target.toNat ∨ cmdClean c [(8, 2)] = false) → ∃ t, Machine.exec (.setVout c) s = .next t ∧ Answers s t c 0x10 2 0 [] id (fun _ => false)) ∧
  (∀ (s : State) (c : Cmd), s.chip.cmdTurn ≠ some c.ring.val → ∃ t, Machine.exec (.nop ⟨c, 0⟩) s = .next t ∧ t = s) ∧
  (∀ (s : State) (c : Cmd) (k : Fin 8), s.chip.cmdTurn = some c.ring.val → c.flags.getLsbD 1 = true → (s.chip.rings.get k.val).busy.isSome = true → ∃ t, Machine.exec (.nop ⟨c, 0⟩) s = .next t ∧
      Effect s t (fun x => { x with hif := { x.hif with visit := c.ring.val, fetched := 16 } }) [] [] [] []) ∧
  (∀ (s : State) (c : Cmd), s.chip.cmdReady c.ring.val false = true → c.flags = 1 → c.target = 0 → cmdClean c [] = true → s.chip.get (RING.STAT_STATE c.ring.val) = 1 → ∃ t, Machine.exec (.nop ⟨c, 0⟩) s = .next t ∧
      t.chip.outbox = s.chip.outbox ++ s.chip.fetchOut c.ring.val ∧ (t.chip.rings.get c.ring.val).busy = none ∧
      (t.chip.rings.get (8 + s.chip.get (RING.CFG_CPLSEL c.ring.val))).reserved = (s.chip.rings.get (8 + s.chip.get (RING.CFG_CPLSEL c.ring.val))).reserved ∧ Keeps s t (fun o => s.chip.ringsOf c o)) ∧
  (∀ (s : State) (c : Cmd), s.chip.serves c = true → s.chip.reqUp .ring = true → 1 ≤ c.target.toNat → c.target.toNat ≤ 12 → cmdClean c [(8, 4 * c.target.toNat)] = true →
    (∀ i ∈ List.range c.target.toNat, let o := cmdArg c (8 + 4 * i) 4; offsetOk o = true ∧ inMailbox o = false ∧ s.chip.offAt o = false ∧ span 0x31000 0x312c0 o = false ∧ o ∉ snapWords ∧ (∀ x ∈ snapPairs, x.1 ≠ o) ∧ inPP o = false ∧ o ≠ NVM.RDDATA) →
    ∃ t, Machine.exec (.regRead c none) s = .next t ∧ Answers s t c 0x01 0 0 ((List.range c.target.toNat).flatMap fun i => let o := cmdArg c (8 + 4 * i) 4; bytesLE 4 (if (regAt o).isSome then (s.chip.readable o).toNat else 0)) id (fun _ => false)) ∧
  (∀ (s : State) (c : Cmd) (fail : DieFail), s.chip.serves c = true → 1 ≤ c.target.toNat → c.target.toNat ≤ 12 → cmdClean c [(8, 4 * c.target.toNat)] = true → offsetOk (cmdArg c 8 4) = false →
    ∃ t, Machine.exec (.regRead c fail) s = .next t ∧ (cmdArg c 8 4 < 0x200000 → Recorded s.chip t.chip ACC.ACCST_RSVF ACC.ACCCNT_RSVCNT ∧ t.chip.get ACC.ACCST_LASTOFS = cmdArg c 8 4) ∧
      Answers s t c 0x01 4 0 [] id (fun o => decide (cmdArg c 8 4 < 0x200000) && (o == ACC.ACCST || o == ACC.ACCCNT))) ∧
  (∀ (s : State) (c : Cmd), s.chip.serves c = true → 1 ≤ c.target.toNat → c.target.toNat ≤ 12 → cmdClean c [(8, 4 * c.target.toNat)] = true → dieWindow ≤ cmdArg c 8 4 → offsetOk (cmdArg c 8 4) = true → (regAt (cmdArg c 8 4)).isSome = true → s.chip.offAt (cmdArg c 8 4) = false →
    ∃ t, Machine.exec (.regRead c (some 0)) s = .next t ∧ Completes s.chip t.chip c 0x01 9 0 [] ∧ Recorded s.chip t.chip ACC.ACCST_FAILF ACC.ACCCNT_FAILCNT ∧ t.chip.get ACC.ACCST_LASTOFS = cmdArg c 8 4 % 2 ^ ACC.ACCST_LASTOFS.width ∧
      t.chip.faultQ = s.chip.faultQ ++ [⟨0x4011, (cmdArg c 8 4 - dieWindow) / 0x20000 + 1, 0⟩] ∧
      Keeps s t (fun o => s.chip.ringsOf c o || o == ACC.ACCST || o == ACC.ACCCNT || o == LINK.LINKSTAT ((cmdArg c 8 4 - dieWindow) / 0x20000 + 1))) ∧
  (∀ (s : State) (c : Cmd) (cold : ColdIn), s.chip.serves c = true → s.chip.reqUp .ring = true → s.chip.flt.coldHeld = false → c.target = 1 → cmdClean c [(8, 8)] = true → s.chip.get ACC.ACCST_LOCKED = 0 → fieldsOnly (cmdArg c 8 4) = true → (regAt (cmdArg c 8 4)).isSome = true → s.chip.offAt (cmdArg c 8 4) = false →
    offsetOk (cmdArg c 8 4) = true → (cntClears (cmdArg c 8 4)).isNone = true → accMask (cmdArg c 8 4) (· == .w1c) = 0 → ∃ t, Machine.exec (.regWrite c none cold) s = .next t ∧
      t.chip.reg (cmdArg c 8 4) = ((s.chip.reg (cmdArg c 8 4) &&& ~~~(pairMask (cmdArg c 8 4))) ||| (BitVec.ofNat 32 (cmdArg c 12 4) &&& pairMask (cmdArg c 8 4))) ∧ Answers s t c 0x02 0 0 [] id (fun o => o == cmdArg c 8 4)) ∧
  (∀ (s : State) (c : Cmd) (cold : ColdIn) (fail : DieFail), s.chip.serves c = true → s.chip.flt.coldHeld = false → 1 ≤ c.target.toNat → c.target.toNat ≤ 6 → cmdClean c [(8, 8 * c.target.toNat)] = true → offsetOk (cmdArg c 8 4) = false →
    ∃ t, Machine.exec (.regWrite c fail cold) s = .next t ∧ (cmdArg c 8 4 < 0x200000 → Recorded s.chip t.chip ACC.ACCST_RSVF ACC.ACCCNT_RSVCNT ∧ t.chip.get ACC.ACCST_LASTOFS = cmdArg c 8 4) ∧
      Answers s t c 0x02 4 0 [] id (fun o => decide (cmdArg c 8 4 < 0x200000) && (o == ACC.ACCST || o == ACC.ACCCNT))) ∧
  (∀ (s : State) (c : Cmd), s.chip.serves c = true → c.target.toNat < 32 → cmdClean c [(8, 2)] = true → s.chip.inHold = false → s.chip.inSafe = false → s.chip.get (AVSL.CTRL_OWNER c.target.toNat) = 0 → s.chip.loopState c.target.toNat = 2 →
    s.chip.get (AVSL.VLIM_VMIN c.target.toNat) ≤ cmdArg c 8 2 → cmdArg c 8 2 ≤ s.chip.get (AVSL.VLIM_VMAX c.target.toNat) → ∃ t, Machine.exec (.setVout c) s = .next t ∧ t.chip.get (AVSL.SETPT_SETPT c.target.toNat) = cmdArg c 8 2 ∧
      Completes s.chip t.chip c 0x10 0 0 (bytesLE 4 (t.chip.reg (AVSL.SETPT c.target.toNat)).toNat) ∧ t.chip.get (LOOP.TARGET_VTGT c.target.toNat) = s.chip.get (LOOP.TARGET_VTGT c.target.toNat) ∧ t.chip.faultQ = s.chip.faultQ ∧ t.chip.outbox.length = s.chip.outbox.length + 4 ∧
      Keeps s t (fun o => s.chip.ringsOf c o || o == AVSL.SETPT c.target.toNat || o == CMPL.EVT c.target.toNat || span (0x10000 + 0x100 * c.target.toNat) (0x10100 + 0x100 * c.target.toNat) o)) ∧
  (∀ (s : State) (c : Cmd), s.chip.serves c = true → c.target.toNat < 32 → cmdClean c [(8, 2)] = true → s.chip.inHold = false → s.chip.inSafe = false → s.chip.get (AVSL.CTRL_OWNER c.target.toNat) = 0 → s.chip.loopState c.target.toNat = 4 →
    s.chip.get (AVSL.VLIM_VMIN c.target.toNat) ≤ cmdArg c 8 2 → cmdArg c 8 2 ≤ s.chip.get (AVSL.VLIM_VMAX c.target.toNat) → ∃ t, Machine.exec (.setVout c) s = .next t ∧
      Answers s t c 0x10 0 0 (bytesLE 4 (s.chip.reg (AVSL.SETPT c.target.toNat)).toNat) (fun u => u.engUpd c.target.toNat fun h => { h with heldSet := some (cmdArg c 8 2) }) (fun _ => false)) ∧
  (∀ (s : State) (c : Cmd) (why : Fin 5), s.chip.serves c = true → c.target.toNat < 32 → cmdClean c [(8, 2)] = true → s.chip.inHold = false → s.chip.inSafe = false → (why = 1 ↔ s.chip.get (AVSL.CTRL_OWNER c.target.toNat) ≠ 0) →
    (why = 4 → s.chip.loopState c.target.toNat ≠ 2 ∧ s.chip.loopState c.target.toNat ≠ 4) → (why = 2 ∨ why = 3 → s.chip.loopState c.target.toNat = 2 ∨ s.chip.loopState c.target.toNat = 4) → (why = 2 → cmdArg c 8 2 < s.chip.get (AVSL.VLIM_VMIN c.target.toNat)) →
    (why = 3 → s.chip.get (AVSL.VLIM_VMAX c.target.toNat) < cmdArg c 8 2 ∧ s.chip.get (AVSL.VLIM_VMIN c.target.toNat) ≤ cmdArg c 8 2) → why ≠ 0 →
    ∃ t, Machine.exec (.setVout c) s = .next t ∧ Completes s.chip t.chip c 0x10 3 why.val (bytesLE 4 (s.chip.reg (AVSL.SETPT c.target.toNat)).toNat) ∧ t.chip.reg (AVSL.SETPT c.target.toNat) = s.chip.reg (AVSL.SETPT c.target.toNat) ∧ t.chip.loops.get c.target.toNat = s.chip.loops.get c.target.toNat ∧
      Recorded s.chip t.chip (AVSL.REF_REFF c.target.toNat) (AVSL.REF_REFCNT c.target.toNat) ∧ t.chip.get (AVSL.REF_LASTREF c.target.toNat) = why.val ∧ t.chip.faultQ = s.chip.faultQ ∧ Keeps s t (fun o => s.chip.ringsOf c o || o == AVSL.REF c.target.toNat || hostSide o)) ∧
  (∀ (s : State) (c : Cmd), s.chip.serves c = true → c.target.toNat < 32 → cmdClean c [(8, 2)] = true → (s.chip.inHold = true ∨ s.chip.inSafe = true) → (∃ t, Machine.exec (.setVout c) s = .next t ∧ Answers s t c 0x10 7 0 [] id (fun _ => false)) ∧ ∃ t, Machine.exec (.setSlew c) s = .next t ∧ Answers s t c 0x11 7 0 [] id (fun _ => false)) ∧
  (∀ (s : State) (c : Cmd), s.chip.serves c = true → c.target.toNat < 32 → cmdClean c [(8, 4)] = true → s.chip.inHold = false → s.chip.inSafe = false → s.chip.get (AVSL.CTRL_OWNER c.target.toNat) = 0 → (s.chip.loopState c.target.toNat = 2 ∨ s.chip.loopState c.target.toNat = 4) →
    max 1 (cmdArg c 8 4) ≤ s.chip.slewMax c.target.toNat → ∃ t, Machine.exec (.setSlew c) s = .next t ∧ t.chip.get (AVSL.SLEW_SLEWCMD c.target.toNat) = max 1 (cmdArg c 8 4) ∧
      Answers s t c 0x11 0 0 (bytesLE 4 (t.chip.reg (AVSL.SLEW c.target.toNat)).toNat) id (fun o => o == AVSL.SLEW c.target.toNat)) ∧
  (∀ (s : State) (c : Cmd), s.chip.serves c = true → c.target.toNat < 32 → cmdClean c [(8, 4)] = true → s.chip.inHold = false → s.chip.inSafe = false → s.chip.get (AVSL.CTRL_OWNER c.target.toNat) = 0 → (s.chip.loopState c.target.toNat = 2 ∨ s.chip.loopState c.target.toNat = 4) →
    s.chip.slewMax c.target.toNat < cmdArg c 8 4 → ∃ t, Machine.exec (.setSlew c) s = .next t ∧ t.chip.get (AVSL.SLEW_SLEWCMD c.target.toNat) = s.chip.slewMax c.target.toNat ∧ Recorded s.chip t.chip (AVSL.REF_CLIPF c.target.toNat) (AVSL.REF_CLIPCNT c.target.toNat) ∧
      Answers s t c 0x11 0 0 (bytesLE 4 (t.chip.reg (AVSL.SLEW c.target.toNat)).toNat) id (fun o => o == AVSL.SLEW c.target.toNat || o == AVSL.REF c.target.toNat)) ∧
  (∀ (s : State) (c : Cmd), s.chip.serves c = true → c.target = 0 → cmdClean c [(8, 4)] = true → cmdArg c 8 4 / 2 ^ 30 % 4 ≠ 0 → s.chip.get (FLT.ENT0_STATE (cmdArg c 8 4 / 2 ^ 16 % 64)) = 0 → ∃ t, Machine.exec (.faultAck c) s = .next t ∧ t.chip.get FLT.ACKST_RES = 2 ∧
      t.chip.get FLT.ACKST_SLOT = cmdArg c 8 4 / 2 ^ 16 % 64 ∧ t.chip.get FLT.ACKST_CODE = cmdArg c 8 4 % 2 ^ 16 ∧ Recorded s.chip t.chip FLT.EVT_REFF FLT.EVTCNT_REFCNT ∧ Completes s.chip t.chip c 0x12 0 0 (bytesLE 4 (t.chip.reg FLT.ACKST).toNat) ∧ t.chip.ents = s.chip.ents ∧ t.chip.faultQ = s.chip.faultQ) ∧
  (∀ (s : State) (c : Cmd), s.chip.serves c = true → c.target = 0 → cmdClean c [(8, 4)] = true → cmdArg c 8 4 / 2 ^ 30 % 4 = 1 → s.chip.get (FLT.ENT0_STATE (cmdArg c 8 4 / 2 ^ 16 % 64)) ≠ 0 → s.chip.get (FLT.ENT0_CODE (cmdArg c 8 4 / 2 ^ 16 % 64)) = cmdArg c 8 4 % 2 ^ 16 →
    codeCls (cmdArg c 8 4 % 2 ^ 16) < 3 → ∃ t, Machine.exec (.faultAck c) s = .next t ∧ t.chip.get FLT.ACKST_RES = 1 ∧ t.chip.get (FLT.ENT0_STATE (cmdArg c 8 4 / 2 ^ 16 % 64)) = 2 ∧ (t.chip.ents.get (cmdArg c 8 4 / 2 ^ 16 % 64)).timer = none ∧
      Completes s.chip t.chip c 0x12 0 0 (bytesLE 4 (t.chip.reg FLT.ACKST).toNat) ∧ t.chip.faultQ = s.chip.faultQ) ∧
  (∀ (s : State) (c : Cmd), s.chip.serves c = true → c.target.toNat < 4 → cmdClean c [(8, 1)] = true → cmdArg c 8 1 = 1 → s.chip.inHold = false → s.chip.inSafe = false → (s.chip.mayStart = false ∨ s.chip.get (SEQD.STAT_STATE c.target.toNat) = 4) → ∃ t, Machine.exec (.domain c) s = .next t ∧
      Recorded s.chip t.chip (SEQD.EVT_REFF c.target.toNat) (SEQD.EVTCNT_REFCNT c.target.toNat) ∧ Answers s t c 0x13 3 1 (bytesLE 4 (s.chip.reg (SEQD.STAT c.target.toNat)).toNat) id (fun o => o == SEQD.EVT c.target.toNat || o == SEQD.EVTCNT c.target.toNat)) ∧
  (∀ (s : State) (c : Cmd), s.chip.serves c = true → c.target.toNat < 4 → cmdClean c [(8, 1)] = true → cmdArg c 8 1 = 1 → s.chip.inHold = false → s.chip.inSafe = false → s.chip.mayStart = true → s.chip.get (SEQD.STAT_STATE c.target.toNat) = 3 → ∃ t, Machine.exec (.domain c) s = .next t ∧
      t.chip.get (SEQD.STAT_PENDST c.target.toNat) = 1 ∧ Answers s t c 0x13 0 0 (bytesLE 4 (t.chip.reg (SEQD.STAT c.target.toNat)).toNat) id (fun o => o == SEQD.STAT c.target.toNat)) ∧
  (∀ (s : State) (c : Cmd), s.chip.serves c = true → c.target.toNat < 4 → cmdClean c [(8, 1)] = true → cmdArg c 8 1 = 1 → s.chip.inHold = false → s.chip.inSafe = false → s.chip.mayStart = true → s.chip.get (SEQD.STAT_STATE c.target.toNat) ≠ 3 → s.chip.get (SEQD.STAT_STATE c.target.toNat) ≠ 4 →
    (∀ k : DomainId, s.chip.get (SEQD.STAT_PENDST k.val) = 0) → ∃ t, Machine.exec (.domain c) s = .next t ∧ Completes s.chip t.chip c 0x13 0 0 (bytesLE 4 (t.chip.reg (SEQD.STAT c.target.toNat)).toNat) ∧
      (∀ r : RailId, t.chip.railState r.val = if s.chip.railState r.val = 0 ∧ s.chip.get (SEQR.CFG_DOMAIN r.val) = c.target.toNat then 1 else s.chip.railState r.val) ∧ t.chip.faultQ = s.chip.faultQ) ∧
  (∀ (s : State) (c : Cmd), s.chip.serves c = true → c.target.toNat < 4 → cmdClean c [(8, 1)] = true → (cmdArg c 8 1 = 1 ∨ cmdArg c 8 1 = 2 ∨ cmdArg c 8 1 = 4) → (s.chip.inHold = true ∨ cmdArg c 8 1 = 1 ∧ s.chip.inSafe = true) → ∃ t, Machine.exec (.domain c) s = .next t ∧ Answers s t c 0x13 7 0 [] id (fun _ => false)) ∧
  (∀ (s : State) (c : Cmd), s.chip.serves c = true → 1 ≤ c.target.toNat → c.target.toNat ≤ 4096 → cmdClean c [(8, 4), (16, 8)] = true → logNewest s.nvm = none → ∃ t, Machine.exec (.logRead c) s = .next t ∧
      Answers s t c 0x20 0 0 (bytesLE 4 0 ++ bytesLE 4 0 ++ bytesLE 4 (cmdArg c 8 4) ++ bytesLE 4 (s.chip.get NVM.LOGOLD_SEQ)) id (fun _ => false)) ∧
  (∀ (s : State) (c : Cmd), s.chip.serves c = true → c.target.toNat < 224 → cmdClean c [(8, 2), (16, 8)] = true → 1 ≤ cmdArg c 9 1 → cmdArg c 8 1 + cmdArg c 9 1 ≤ 32 → ∃ t, Machine.exec (.mapRead c) s = .next t ∧ Completes s.chip t.chip c 0x21 0 0 (bytesLE 4 (cmdArg c 9 1)) ∧
      t.chip.outbox = s.chip.outbox ++ s.chip.fetchOut c.ring.val ++ [.hostWrite (cmdArg c 16 8) ((List.range (cmdArg c 9 1)).flatMap fun i => s.chip.mapTile s.nvm (32 * c.target.toNat + cmdArg c 8 1 + i))] ++ s.chip.answer c 0x21 0 0 (bytesLE 4 (cmdArg c 9 1)) ∧ t.chip.faultQ = s.chip.faultQ ∧ Keeps s t (fun o => s.chip.ringsOf c o)) ∧
  (∀ (s : State) (c : Cmd), s.chip.serves c = true → (224 ≤ c.target.toNat ∨ 32 < cmdArg c 8 1 + cmdArg c 9 1 ∨ cmdArg c 9 1 = 0) → ∃ t, Machine.exec (.mapRead c) s = .next t ∧ Answers s t c 0x21 2 0 [] id (fun _ => false))

/-- TILE_STAGE, COMMIT, COMMIT_DISCARD, IMAGE_STAGE, IMAGE_ACTIVATE, KEY_ENROL, WARM_START, POLICY_COMMAND and POLICY_TIMEOUT. WARM_START completes as it is accepted (a reading of R458 and R465 in the assumption log). -/
def Obligations.RingCommandsStageCommitAndStart : Prop :=
  (∀ (s : State) (c : Cmd) (l : List Byte), s.chip.serves c = true → cmdClean c [(16, 8)] = true → c.target.toNat / 2 ^ 20 = 0 → c.target.toNat / 2 ^ 13 % 8 = 0 → s.chip.stageRefusal (c.target.toNat / 2 ^ 16) (c.target.toNat % 2 ^ 13) (padTo 256 l) (BitVec.ofNat 32 (fieldLE l 256 4)) = none →
    ∃ t, Machine.exec (.tileStage c (some l)) s = .next t ∧ t.chip.get TILE.STGST_STATUS = 1 ∧ t.chip.get TILE.STGST_REASON = 0 ∧ t.chip.store.jobs = s.chip.store.jobs ++ [⟨.tile, .stage (c.target.toNat / 2 ^ 16) (c.target.toNat % 2 ^ 13) (s.chip.stagePlace (c.target.toNat / 2 ^ 16) (c.target.toNat % 2 ^ 13)) (some c.ring.val),
        lines (stageAddr (c.target.toNat / 2 ^ 16) (s.chip.stagePlace (c.target.toNat / 2 ^ 16) (c.target.toNat % 2 ^ 13))) (frameBytes (padTo 256 l) (BitVec.ofNat 32 (fieldLE l 256 4)) (s.chip.epoch + 1)), s.chip.now⟩] ∧
      ((t.chip.rings.get c.ring.val).busy.map fun b => (b.opcode, b.tag)) = some (0x22, c.tag.toNat) ∧ t.chip.outbox = s.chip.outbox ++ s.chip.fetchOut c.ring.val ∧ t.chip.store.committed = s.chip.store.committed ∧ t.chip.faultQ = s.chip.faultQ ∧
      Keeps s t (fun o => s.chip.ringsOf c o || o == TILE.STGST || span 0x23000 0x23200 o)) ∧
  (∀ (s : State) (c : Cmd) (l : List Byte) (r : Nat), s.chip.serves c = true → cmdClean c [(16, 8)] = true → c.target.toNat / 2 ^ 20 = 0 → c.target.toNat / 2 ^ 13 % 8 = 0 → s.chip.stageRefusal (c.target.toNat / 2 ^ 16) (c.target.toNat % 2 ^ 13) (padTo 256 l) (BitVec.ofNat 32 (fieldLE l 256 4)) = some r →
    ∃ t, Machine.exec (.tileStage c (some l)) s = .next t ∧ t.chip.get TILE.STGST_STATUS = 3 ∧ t.chip.get TILE.STGST_REASON = r ∧ Answers s t c 0x22 3 r [] id (fun o => o == TILE.STGST)) ∧
  (∀ (s : State) (c : Cmd), s.chip.serves c = true → cmdClean c [(16, 8)] = true → c.target.toNat / 2 ^ 20 = 0 → c.target.toNat / 2 ^ 13 % 8 = 0 → ∃ t, Machine.exec (.tileStage c none) s = .next t ∧ Completes s.chip t.chip c 0x22 5 0 [] ∧ t.chip.get (RING.STAT_STATE c.ring.val) = 3 ∧
      Recorded s.chip t.chip HIF.EVT_RINGERRF HIF.EVTCNT_RINGERRCNT ∧ Recorded s.chip t.chip HIF.EVT_DMAERRF HIF.EVTCNT_DMAERRCNT ∧ t.chip.store = s.chip.store ∧ t.chip.boot = s.chip.boot ∧ t.chip.faultQ = s.chip.faultQ ∧
      Keeps s t (fun o => s.chip.ringsOf c o || o == HIF.EVT || o == HIF.EVTCNT || o == HIF.STAT || o == PBA.BITS 0 || span 0x31200 0x31220 o)) ∧
  (∀ (s : State) (c : Cmd), s.chip.serves c = true → cmdClean c [(8, 8), (16, 8)] = true → c.target.toNat < 2 → s.chip.slotBusy c.target.toNat = false → cmdArg c 12 4 % 4 = 0 → 1 ≤ cmdArg c 12 4 → cmdArg c 12 4 ≤ 65536 → cmdArg c 8 4 + cmdArg c 12 4 ≤ 0x200000 →
    ∃ t, Machine.exec (.imageStage c none) s = .next t ∧ Completes s.chip t.chip c 0x24 5 0 [] ∧ t.chip.get (RING.STAT_STATE c.ring.val) = 3 ∧
      Recorded s.chip t.chip HIF.EVT_RINGERRF HIF.EVTCNT_RINGERRCNT ∧ Recorded s.chip t.chip HIF.EVT_DMAERRF HIF.EVTCNT_DMAERRCNT ∧ t.chip.store = s.chip.store ∧ t.chip.boot = s.chip.boot ∧ t.chip.faultQ = s.chip.faultQ ∧
      Keeps s t (fun o => s.chip.ringsOf c o || o == HIF.EVT || o == HIF.EVTCNT || o == HIF.STAT || o == PBA.BITS 0 || span 0x31200 0x31220 o)) ∧
  (∀ (s : State) (c : Cmd), s.chip.serves c = true → cmdClean c [(16, 8)] = true → c.target = 0 → ∃ t, Machine.exec (.keyEnrol c none) s = .next t ∧ Completes s.chip t.chip c 0x26 5 0 [] ∧ t.chip.get (RING.STAT_STATE c.ring.val) = 3 ∧
      Recorded s.chip t.chip HIF.EVT_RINGERRF HIF.EVTCNT_RINGERRCNT ∧ Recorded s.chip t.chip HIF.EVT_DMAERRF HIF.EVTCNT_DMAERRCNT ∧ t.chip.store = s.chip.store ∧ t.chip.boot = s.chip.boot ∧ t.chip.faultQ = s.chip.faultQ ∧
      Keeps s t (fun o => s.chip.ringsOf c o || o == HIF.EVT || o == HIF.EVTCNT || o == HIF.STAT || o == PBA.BITS 0 || span 0x31200 0x31220 o)) ∧
  (∀ (s : State) (c : Cmd), s.chip.serves c = true → cmdClean c [(8, 1)] = true → c.target = 0 → cmdArg c 8 1 = 1 → (s.chip.stageBusy = true ∨ s.chip.store.staged = []) → ∃ t, Machine.exec (.commit c) s = .next t ∧
      t.chip.get TILE.CMTST_STATUS = 5 ∧ t.chip.get TILE.CMTST_REASON = (if s.chip.stageBusy then 0x16 else 0x20) ∧ t.chip.get TILE.CMTST_POS = 0x1ff ∧ Recorded s.chip t.chip TILE.EVT_CREFF TILE.EVTCNT_CREFCNT ∧
      Answers s t c 0x23 3 (if s.chip.stageBusy then 0x16 else 0x20) [] id (fun o => o == TILE.CMTST || o == TILE.EVT || o == TILE.EVTCNT)) ∧
  (∀ (s : State) (c : Cmd) (pos r : Nat), s.chip.serves c = true → cmdClean c [(8, 1)] = true → c.target = 0 → cmdArg c 8 1 = 1 → s.chip.stageBusy = false → s.chip.store.staged ≠ [] → s.chip.commitFailure s.nvm = some (pos, r) → r < 256 → pos < 512 → ∃ t, Machine.exec (.commit c) s = .next t ∧
      t.chip.get TILE.CMTST_STATUS = 5 ∧ t.chip.get TILE.CMTST_REASON = r ∧ t.chip.get TILE.CMTST_POS = pos ∧ Recorded s.chip t.chip TILE.EVT_CREFF TILE.EVTCNT_CREFCNT ∧ Answers s t c 0x23 3 r [] id (fun o => o == TILE.CMTST || o == TILE.EVT || o == TILE.EVTCNT)) ∧
  (∀ (s : State) (c : Cmd), s.chip.serves c = true → cmdClean c [(8, 1)] = true → c.target = 0 → cmdArg c 8 1 = 1 → s.chip.stageBusy = false → s.chip.store.staged ≠ [] → s.chip.commitFailure s.nvm = none → ∃ t, Machine.exec (.commit c) s = .next t ∧
      t.chip.get TILE.CMTST_STATUS = (if s.chip.bit THM.STAT_WINOPEN then 3 else 2) ∧ t.chip.get TILE.CMTST_REASON = 0 ∧ t.chip.store.staged = s.chip.store.staged ∧ t.chip.store.committed = s.chip.store.committed ∧ t.chip.epoch = s.chip.epoch ∧
      (t.chip.store.commit.map fun r => (r.ring, r.tiles, r.digest)) = some (some c.ring.val, stagedConfig s.chip s.nvm, cfgDigest (stagedConfig s.chip s.nvm)) ∧ ((t.chip.store.jobs.drop s.chip.store.jobs.length).map fun j => (j.writer, j.kind)) = [(.tile, .record)] ∧
      ((t.chip.rings.get c.ring.val).busy.map fun b => (b.opcode, b.tag)) = some (0x23, c.tag.toNat) ∧ t.chip.outbox = s.chip.outbox ++ s.chip.fetchOut c.ring.val ∧ t.chip.faultQ = s.chip.faultQ ∧
      Keeps s t (fun o => s.chip.ringsOf c o || o == TILE.CMTST || span 0x23000 0x23200 o)) ∧
  (∀ (s : State) (c : Cmd), s.chip.serves c = true → cmdClean c [(8, 1)] = true → c.target = 0 → cmdArg c 8 1 = 2 → s.chip.stageBusy = false → ∃ t, Machine.exec (.commitDiscard c) s = .next t ∧ t.chip.get TILE.STGST_NSM = 0 ∧ t.chip.get TILE.STGST_NSTG = 0 ∧
      Answers s t c 0x23 0 0 [] (fun u => u.storeUpd fun h => { h with staged := [] }) (fun o => o == TILE.STGST)) ∧
  (∀ (s : State) (c : Cmd) (l : List Byte), s.chip.serves c = true → cmdClean c [(8, 8), (16, 8)] = true → c.target.toNat < 2 → s.chip.slotBusy c.target.toNat = false → cmdArg c 12 4 % 4 = 0 → 1 ≤ cmdArg c 12 4 → cmdArg c 12 4 ≤ 65536 → cmdArg c 8 4 + cmdArg c 12 4 ≤ 0x200000 →
    ∃ t, Machine.exec (.imageStage c (some l)) s = .next t ∧ t.chip.get (FW.SLOT0_VALID c.target.toNat) = 0 ∧ t.chip.store.jobs = s.chip.store.jobs ++ [⟨.image, .image c.ring.val c.target.toNat, lines (slotBase c.target.toNat + cmdArg c 8 4) (padTo (cmdArg c 12 4) l), s.chip.now⟩] ∧
      ((t.chip.rings.get c.ring.val).busy.map fun b => (b.opcode, b.tag)) = some (0x24, c.tag.toNat) ∧ t.chip.outbox = s.chip.outbox ++ s.chip.fetchOut c.ring.val ∧ t.chip.faultQ = s.chip.faultQ ∧
      Keeps s t (fun o => s.chip.ringsOf c o || o == (FW.SLOT0_VALID c.target.toNat).off || span 0x23000 0x23200 o)) ∧
  (∀ (s : State) (c : Cmd) (l : Option (List Byte)), s.chip.serves c = true → cmdClean c [(8, 8), (16, 8)] = true → c.target.toNat < 2 → s.chip.slotBusy c.target.toNat = true → cmdArg c 12 4 % 4 = 0 → 1 ≤ cmdArg c 12 4 → cmdArg c 12 4 ≤ 65536 → cmdArg c 8 4 + cmdArg c 12 4 ≤ 0x200000 →
    ∃ t, Machine.exec (.imageStage c l) s = .next t ∧ Answers s t c 0x24 3 1 [] id (fun _ => false)) ∧
  (∀ (s : State) (c : Cmd), s.chip.serves c = true → cmdClean c [(8, 1)] = true → c.target.toNat < 2 → (cmdArg c 8 1 = 0 ∨ cmdArg c 8 1 = 2) → s.chip.inHold = false → s.chip.authRes s.nvm c.target.toNat = 0 → ∃ t, Machine.exec (.imageActivate c) s = .next t ∧
      t.chip.boot = { s.chip.boot with bootsel := c.target.toNat, raise := setBitAt s.chip.boot.raise c.target.toNat (cmdArg c 8 1 == 2) } ∧ t.chip.get FW.STAT_BOOTSEL = c.target.toNat ∧ t.chip.get (FW.SLOT0_VALID c.target.toNat) = 1 ∧ t.chip.get (FW.SLOT0_AUTHRES c.target.toNat) = 0 ∧
      t.chip.get (FW.SLOT1_SVN c.target.toNat) = fieldLE (slotHeader s.nvm c.target.toNat) 0x10 4 ∧ t.chip.store = (if t.chip.boot.word 0 = s.chip.boot.word 0 then s.chip.store else { s.chip.store with jobs := s.chip.store.jobs ++ [⟨.boot, .boot, bootLines 0 (t.chip.boot.word 0), s.chip.now⟩] }) ∧
      Answers s t c 0x25 0 0 [0] (fun u => { u with boot := t.chip.boot, store := t.chip.store }) (fun o => span 0x38000 0x39100 o)) ∧
  (∀ (s : State) (c : Cmd), s.chip.serves c = true → cmdClean c [(8, 1)] = true → c.target.toNat < 2 → (cmdArg c 8 1 = 0 ∨ cmdArg c 8 1 = 2) → s.chip.authRes s.nvm c.target.toNat ≠ 0 → ∃ t, Machine.exec (.imageActivate c) s = .next t ∧ t.chip.boot = s.chip.boot ∧ t.chip.get (FW.SLOT0_VALID c.target.toNat) = 0 ∧
      t.chip.get (FW.SLOT0_AUTHRES c.target.toNat) = s.chip.authRes s.nvm c.target.toNat ∧ Recorded s.chip t.chip SEC.EVT_AUTHFF SEC.EVTCNT_AUTHFCNT ∧ Completes s.chip t.chip c 0x25 3 2 [BitVec.ofNat 8 (s.chip.authRes s.nvm c.target.toNat)] ∧
      t.chip.faultQ = s.chip.faultQ ++ [⟨0x2700, c.target.toNat, BitVec.ofNat 32 (s.chip.authRes s.nvm c.target.toNat)⟩] ∧ Keeps s t (fun o => s.chip.ringsOf c o || span 0x38000 0x39100 o)) ∧
  (∀ (s : State) (c : Cmd) (l : List Byte), s.chip.serves c = true → cmdClean c [(16, 8)] = true → c.target = 0 → s.chip.boot.owner = none → l.length = 256 → fieldLE l 96 1 < 2 → fieldLE l 97 63 = 0 → ecdsaOk (l.take 96) (sha384 (l.take 160 ++ s.chip.uidBytes)) ((l.drop 160).take 96) = true →
    ∃ t, Machine.exec (.keyEnrol c (some l)) s = .next t ∧ t.chip.boot = { s.chip.boot with owner := some (l.take 96), ownerOnly := fieldLE l 96 1 == 1 } ∧ t.chip.get SEC.STAT_OWNER = 1 ∧ t.chip.get SEC.STAT_OWNERONLY = fieldLE l 96 1 ∧ t.chip.get SEC.EVT_ENRF = 1 ∧
      (∀ i : Fin 12, t.chip.reg (SEC.ODIG i.val) = BitVec.ofNat 32 (fieldLE (sha384 (l.take 96)) (4 * i.val) 4)) ∧ t.chip.store = { s.chip.store with jobs := s.chip.store.jobs ++ [⟨.boot, .boot, ownerLines t.chip.boot, s.chip.now⟩] } ∧
      Answers s t c 0x26 0 0 [] (fun u => { u with boot := t.chip.boot, store := t.chip.store }) (fun o => o == FW.STAT || span 0x39000 0x39100 o)) ∧
  (∀ (s : State) (c : Cmd) (l : List Byte), s.chip.serves c = true → cmdClean c [(16, 8)] = true → c.target = 0 → s.chip.boot.owner ≠ none → ∃ t, Machine.exec (.keyEnrol c (some l)) s = .next t ∧ Recorded s.chip t.chip SEC.EVT_ENRREFF SEC.EVTCNT_ENRREFCNT ∧
      Answers s t c 0x26 3 3 [] id (fun o => o == SEC.EVT || o == SEC.EVTCNT)) ∧
  (∀ (s : State) (c : Cmd) (l : List Byte), s.chip.serves c = true → cmdClean c [(16, 8)] = true → c.target = 0 → s.chip.boot.owner = none → s.chip.enrolOk (padTo 256 l) = false → ∃ t, Machine.exec (.keyEnrol c (some l)) s = .next t ∧ Recorded s.chip t.chip SEC.EVT_ENRREFF SEC.EVTCNT_ENRREFCNT ∧
      Answers s t c 0x26 3 4 [] id (fun o => o == SEC.EVT || o == SEC.EVTCNT)) ∧
  (∀ (s : State) (c : Cmd), s.chip.serves c = true → cmdClean c [(8, 1)] = true → c.target = 0 → cmdArg c 8 1 = 0xa5 → s.chip.warmRefusal = none → s.chip.boot.bootsel < 2 → s.chip.authRes s.nvm s.chip.boot.bootsel = 0 → ∃ t, Machine.exec (.warmStart c) s = .next t ∧
      t.chip.get FW.STAT_START = 2 ∧ t.chip.fw.released = true ∧ t.chip.fw.bootAt = some s.chip.now ∧ t.chip.get FW.CTRL_BOOTOK = 0 ∧ t.chip.fw.image = slotHeader s.nvm s.chip.boot.bootsel ++ nvmBytes s.nvm (slotBase s.chip.boot.bootsel + 512) (fieldLE (slotHeader s.nvm s.chip.boot.bootsel) 0x14 4) ∧
      t.chip.fw.prevSlot = s.chip.get FW.STAT_RUNSLOT ∧ 2 ∈ t.chip.flt.windows ∧ t.chip.boot = s.chip.boot ∧ (∀ j : Fin 32, t.chip.mbState j.val = 0 ∨ s.chip.mbState j.val = 0) ∧ (∀ k : Fin 4, t.chip.get (PP.STAT_DEPTH k.val) = 0) ∧ s.chip.answer c 0x27 0 0 [] <:+: t.chip.outbox ∧ t.chip.faultQ = s.chip.faultQ ∧
      Keeps s t (fun o => o == PWR.DOMSTAT || o == FLT.STAT || o == FLT.GUARD || span 0x28000 0x30000 o || span 0x31000 0x312c0 o || o == HIF.LOST || o == HIF.STAT || o == PBA.BITS 0 || span 0x38000 0x39100 o)) ∧
  (∀ (s : State) (c : Cmd), s.chip.serves c = true → cmdClean c [(8, 1)] = true → c.target = 0 → cmdArg c 8 1 = 0xa5 → s.chip.warmRefusal = none → s.chip.boot.bootsel = s.chip.get FW.STAT_RUNSLOT → s.chip.authRes s.nvm s.chip.boot.bootsel ≠ 0 → ∃ t, Machine.exec (.warmStart c) s = .next t ∧
      t.chip.get FW.STAT_START = 3 ∧ t.chip.fw.released = false ∧ Recorded s.chip t.chip FW.EVT_WFAILF FW.EVTCNT_WFAILCNT ∧ t.chip.get FW.STAT_RUNSLOT = s.chip.get FW.STAT_RUNSLOT ∧ s.chip.answer c 0x27 0 0 [] <:+: t.chip.outbox) ∧
  (∀ (s : State) (c : Cmd) (st d : Nat), s.chip.serves c = true → cmdClean c [(8, 1)] = true → c.target = 0 → cmdArg c 8 1 = 0xa5 → s.chip.warmRefusal = some (st, d) → ∃ t, Machine.exec (.warmStart c) s = .next t ∧ Answers s t c 0x27 st d [] id (fun _ => false)) ∧
  (∀ (s : State) (c : Cmd) (op : Fin 128) (j : Fin 32), s.chip.serves c = true → s.chip.inHold = false → (s.chip.domOn .pol = true ∨ s.chip.polAsleep = true) → s.chip.mbWaiting = none → s.chip.mbState j.val = 0 → (∀ i : Fin 32, i.val < j.val → s.chip.mbState i.val ≠ 0) → ∃ t, Machine.exec (.policyCommand c op) s = .next t ∧
      t.chip.mbState j.val = 1 ∧ (∀ i : Fin 64, t.chip.mbox.get (128 * j.val + i.val) = (cmdBytes c (0x80 + op.val)).getD i.val 0) ∧ (t.chip.mail.get j.val).ring = some c.ring.val ∧ ((t.chip.rings.get c.ring.val).busy.map fun b => (b.opcode, b.tag, b.slot, b.since)) = some (0x80 + op.val, c.tag.toNat, some j.val, s.chip.now) ∧
      t.chip.bells.get 0xe1 = min (s.chip.bells.get 0xe1 + 1) 255 ∧ t.chip.outbox = s.chip.outbox ++ s.chip.fetchOut c.ring.val ∧ t.chip.faultQ = s.chip.faultQ ∧ Keeps s t (fun o => s.chip.ringsOf c o || o == (mbFld false j.val).off)) ∧
  (∀ (s : State) (c : Cmd) (op : Fin 128), s.chip.serves c = true → s.chip.inHold = false → (∀ i : Fin 32, s.chip.mbState i.val ≠ 0) → ∃ t, Machine.exec (.policyCommand c op) s = .next t ∧ t.chip.mbox = s.chip.mbox ∧ t.chip.mail = s.chip.mail ∧ t.chip.bells = s.chip.bells ∧
      ((t.chip.rings.get c.ring.val).busy.map fun b => (b.opcode, b.slot)) = some (0x80 + op.val, none) ∧ t.chip.outbox = s.chip.outbox ++ s.chip.fetchOut c.ring.val ∧ t.chip.faultQ = s.chip.faultQ ∧ Keeps s t (fun o => s.chip.ringsOf c o)) ∧
  (∀ (s : State) (c : Cmd) (op : Fin 128), s.chip.serves c = true → s.chip.inHold = true → ∃ t, Machine.exec (.policyCommand c op) s = .next t ∧ Answers s t c (0x80 + op.val) 7 0 [] id (fun _ => false)) ∧
  (∀ (s : State) (r : Fin 8) (b : HostCmd) (j : Fin 32), (s.chip.rings.get r.val).busy = some b → b.slot = some j.val → b.irq = false → b.dead = false → 0x80 ≤ b.opcode → b.since + 1000 * orOne (s.chip.get HIF.POLL_PTO) ≤ s.chip.now → s.chip.mbState j.val = 1 → s.chip.mbWaiting = none → s.chip.inD0 = true → s.chip.ringRuns (8 + b.cpl.val) = true →
    (s.chip.rings.get (8 + b.cpl.val)).loss = false → (s.chip.rings.get (8 + b.cpl.val)).unsig + 1 < orOne (s.chip.get (RING.MOD_MODCNT (8 + b.cpl.val))) → ∃ t, Machine.exec (.policyTimeout r) s = .next t ∧ t.chip.mbState j.val = 0 ∧ (t.chip.mail.get j.val).ring = none ∧ (t.chip.rings.get r.val).busy = none ∧ t.chip.mbox = s.chip.mbox ∧
      t.chip.outbox = s.chip.outbox ++ [.entry (8 + b.cpl.val) (s.chip.get (RING.DIDX_DIDX (8 + b.cpl.val))) (s.chip.entryAddr (8 + b.cpl.val) (s.chip.get (RING.DIDX_DIDX (8 + b.cpl.val)))) (bytesLE 1 b.opcode ++ [8] ++ bytesLE 2 b.tag ++ bytesLE 1 r.val ++ [0, 0] ++ [BitVec.ofNat 8 (128 * (1 - s.chip.get (RING.DIDX_DIDX (8 + b.cpl.val)) / 2 ^ s.chip.get (RING.CFG_LOG2N (8 + b.cpl.val)) % 2))] ++ bytesLE 8 s.chip.now ++ List.replicate 48 0),
        .writeback (8 + b.cpl.val) (s.chip.backAddr (8 + b.cpl.val)) ((s.chip.get (RING.DIDX_DIDX (8 + b.cpl.val)) + 1) % 2 ^ 32)] ∧ t.chip.faultQ = s.chip.faultQ ∧ Keeps s t (fun o => span 0x31000 0x312c0 o || o == (mbFld false j.val).off || o == (mbFld true j.val).off))

/-- The PMBus reads (R435 to R440). A LINEAR11 word's exponent and rounding are free values (log entry 7). The last clause is what an alert response answers (R435). -/
def Obligations.PMBusReadsShowTheDevice : Prop :=
  (∀ (s : State) (pec : Pec), s.chip.reqUp .pmbus = true → (∃ t, Machine.exec (.page none pec) s = .next t ∧ Effect s t id [] [] [] [.pmbus (some (bytesLE 1 (s.chip.get PMB.STAT_PAGE)))]) ∧
    (∃ t, Machine.exec (.writeProtect none pec) s = .next t ∧ Effect s t id [] [] [] [.pmbus (some (bytesLE 1 (s.chip.get PMB.STAT_WP)))]) ∧ (∃ t, Machine.exec (.capability false pec) s = .next t ∧ Effect s t id [] [] [] [.pmbus (some [0xd0])]) ∧
    (∃ t, Machine.exec (.pmbusRevision false pec) s = .next t ∧ Effect s t id [] [] [] [.pmbus (some [0x33])]) ∧ (∃ t, Machine.exec (.mfrId false pec) s = .next t ∧ Effect s t id [] [] [] [.pmbus (some [7, 0x49, 0x4b, 0x49, 0x4d, 0x55, 0x4e, 0x44])]) ∧
    (∃ t, Machine.exec (.mfrModel false pec) s = .next t ∧ Effect s t id [] [] [] [.pmbus (some [6, 0x43, 0x58, 0x38, 0x32, 0x32, 0x34])]) ∧
    (∃ t, Machine.exec (.mfrRevision false pec) s = .next t ∧ Effect s t id [] [] [] [.pmbus (some (3 :: [TOP.REVISION_HUB_REV, TOP.REVISION_PX_REV, TOP.REVISION_ROM_REV].flatMap fun f => bytesLE 1 (s.chip.get f)))]) ∧
    (∃ t, Machine.exec (.mfrSerial false pec) s = .next t ∧ Effect s t id [] [] [] [.pmbus (some (16 :: [TOP.UID0, TOP.UID1, TOP.UID2, TOP.UID3].flatMap fun o => bytesLE 4 (s.chip.reg o).toNat))]) ∧
    (∃ t, Machine.exec (.mfrRegAddr none pec) s = .next t ∧ Effect s t id [] [] [] [.pmbus (some (4 :: bytesLE 4 s.chip.pmb.regAddr))]) ∧
    (∃ t, Machine.exec (.mfrFaultSummary false pec) s = .next t ∧ Effect s t id [] [] [] [.pmbus (some (8 :: (bytesLE 4 (s.chip.reg FLT.STAT).toNat ++ bytesLE 4 (s.chip.reg FLT.LATCH3).toNat)))]) ∧
    (∃ t, Machine.exec (.mfrEpoch false pec) s = .next t ∧ Effect s t id [] [] [] [.pmbus (some (8 :: bytesLE 8 s.chip.epoch))]) ∧
    ∃ t, Machine.exec (.mfrSeqState false pec) s = .next t ∧ Effect s t id [] [] [] [.pmbus (some (4 :: [0, 1, 2, 3].flatMap fun d => bytesLE 1 (s.chip.get (SEQD.STAT_STATE d))))]) ∧
  (∀ (s : State) (n : LoopId) (pec : Pec), s.chip.reqUp .pmbus = true → s.chip.get PMB.STAT_PAGE = n.val → (∃ t, Machine.exec (.voutMode false pec) s = .next t ∧ Effect s t id [] [] [] [.pmbus (some [0x40])]) ∧
    (∃ t, Machine.exec .voutCommandRead s = .next t ∧ Effect s t id [] [] [] [.pmbus (some (bytesLE 2 (s.chip.get (AVSL.SETPT_SETPT n.val))))]) ∧ (∃ t, Machine.exec (.voutMax false pec) s = .next t ∧ Effect s t id [] [] [] [.pmbus (some (bytesLE 2 (s.chip.get (AVSL.VLIM_VMAX n.val))))]) ∧
    (∃ t, Machine.exec (.voutMin false pec) s = .next t ∧ Effect s t id [] [] [] [.pmbus (some (bytesLE 2 (s.chip.get (AVSL.VLIM_VMIN n.val))))]) ∧
    (∃ t, Machine.exec .voutTransitionRateRead s = .next t ∧ LinReplies s t (s.chip.get (AVSL.SLEW_SLEWCMD n.val)) 1000) ∧ (∃ t, Machine.exec (.ioutOcFaultLimit false pec) s = .next t ∧ LinReplies s t (s.chip.get (AVSL.ILIM_ILIM n.val)) 16) ∧
    ∃ t, Machine.exec (.readIout false pec) s = .next t ∧ LinReplies s t (s.chip.getS (LOOP.ISUM_ISUM n.val)) 16) ∧
  (∀ (s : State) (n : LoopId) (pec : Pec), s.chip.reqUp .pmbus = true → s.chip.get PMB.STAT_PAGE = n.val → ((s.chip.senseRes.get n.val).1 = 0 ∨ (s.chip.senseRes.get n.val).1 + 10000 ≤ s.chip.now) →
    (∃ t, Machine.exec (.readVout false pec) s = .next t ∧ Effect s t id [] [] [] [.pmbus (some (bytesLE 2 (bitsOf 16 (satS 16 ((s.chip.get (LOOP.TARGET_VTGT n.val) : Int) - s.chip.getS (LOOP.ERRMON_ECODE n.val))))))]) ∧
    ∃ t, Machine.exec (.readPout false pec) s = .next t ∧ LinReplies s t (((s.chip.get (LOOP.TARGET_VTGT n.val) : Int) - s.chip.getS (LOOP.ERRMON_ECODE n.val)) * s.chip.getS (LOOP.ISUM_ISUM n.val)) 64000) ∧
  (∀ (s : State) (r : RailId) (pec : Pec), s.chip.reqUp .pmbus = true → s.chip.get PMB.STAT_PAGE = r.val → 32 ≤ r.val → ((s.chip.senseRes.get r.val).1 = 0 ∨ (s.chip.senseRes.get r.val).1 + 10000 ≤ s.chip.now) → ∃ t, Machine.exec (.readVout false pec) s = .next t ∧ Effect s t id [] [] [] [.pmbus (some [0, 0])]) ∧
  (∀ (s : State) (r : RailId) (pec : Pec) (v : Int), s.chip.reqUp .pmbus = true → s.chip.get PMB.STAT_PAGE = r.val → (s.chip.senseRes.get r.val).1 ≠ 0 → s.chip.now < (s.chip.senseRes.get r.val).1 + 10000 → -32768 ≤ v → v < 32767 →
    v * (2 ^ (s.chip.senseRes.get r.val).2.2 * 2 ^ 23 : Nat) ≤ signedOf 24 (s.chip.senseRes.get r.val).2.1 * 20000 → signedOf 24 (s.chip.senseRes.get r.val).2.1 * 20000 < (v + 1) * (2 ^ (s.chip.senseRes.get r.val).2.2 * 2 ^ 23 : Nat) →
    ∃ t, Machine.exec (.readVout false pec) s = .next t ∧ (t.chip.outbox = s.chip.outbox ++ [.pmbus (some (bytesLE 2 (bitsOf 16 v)))] ∨ t.chip.outbox = s.chip.outbox ++ [.pmbus (some (bytesLE 2 (bitsOf 16 (v + 1))))]) ∧ t.chip.pmb = s.chip.pmb ∧ t.chip.faultQ = s.chip.faultQ ∧ Keeps s t (fun _ => false)) ∧
  (∀ (s : State) (pec : Pec), s.chip.reqUp .pmbus = true → s.chip.get PMB.STAT_PAGE = 0x40 → (∃ t, Machine.exec (.readVin false pec) s = .next t ∧ LinReplies s t (s.chip.get HSW.VI_VIN) 100) ∧ (∃ t, Machine.exec (.readIin false pec) s = .next t ∧ LinReplies s t (s.chip.getS HSW.VI_IIN) 100) ∧
    (∃ t, Machine.exec (.readPin false pec) s = .next t ∧ LinReplies s t (s.chip.get HSW.PV_PIN) 4) ∧ ∃ t, Machine.exec (.readTemperature1 false pec) s = .next t ∧ LinReplies s t (s.chip.getS THM.STAT_HUBTJ) 8) ∧
  (∀ (s : State) (n : LoopId) (pec : Pec) (v : Int), s.chip.reqUp .pmbus = true → s.chip.get PMB.STAT_PAGE = n.val → s.chip.hotStage n.val = some v → ∃ t, Machine.exec (.readTemperature1 false pec) s = .next t ∧ LinReplies s t v 8) ∧
  (∀ (s : State) (r : RailId) (pec : Pec), s.chip.reqUp .pmbus = true → s.chip.get PMB.STAT_PAGE = r.val → (∃ t, Machine.exec (.operation none pec) s = .next t ∧ Effect s t id [] [] [] [.pmbus (some [if s.chip.railState r.val = 4 then 0x80 else 0])]) ∧
    ∃ t, Machine.exec (.coefficients false pec) s = .next t ∧ Effect s t id [] [] [] [.pmbus (some [5, 0xa0, 0x0f, 0, 0, 0])]) ∧
  (∀ (s : State) (q : Fin 65), s.chip.reqUp .pmbus = true → s.chip.get PMB.STAT_PAGE = q.val → (∃ t, Machine.exec (.statusRead ⟨2, none⟩) s = .next t ∧ Effect s t id [] [] [] [.pmbus (some (bytesLE 1 (s.chip.pmbByte q.val 0)))]) ∧ (∃ t, Machine.exec (.statusRead ⟨3, none⟩) s = .next t ∧ Effect s t id [] [] [] [.pmbus (some (bytesLE 1 (s.chip.pmbByte q.val 1)))]) ∧
    (∃ t, Machine.exec (.statusRead ⟨4, none⟩) s = .next t ∧ Effect s t id [] [] [] [.pmbus (some (bytesLE 1 (s.chip.pmbByte q.val 2)))]) ∧ (∃ t, Machine.exec (.statusRead ⟨5, none⟩) s = .next t ∧ Effect s t id [] [] [] [.pmbus (some (bytesLE 1 (s.chip.pmbByte q.val 3)))]) ∧
    (∃ t, Machine.exec (.statusRead ⟨6, none⟩) s = .next t ∧ Effect s t id [] [] [] [.pmbus (some (bytesLE 1 (s.chip.pmbByte q.val 4)))]) ∧ (∃ t, Machine.exec (.statusRead ⟨8, none⟩) s = .next t ∧ Effect s t id [] [] [] [.pmbus (some (bytesLE 1 (s.chip.pmbByte q.val 5)))]) ∧
    (∃ t, Machine.exec (.statusRead ⟨1, none⟩) s = .next t ∧ Effect s t id [] [] [] [.pmbus (some (bytesLE 2 (s.chip.pmbWord q.val)))]) ∧ ∃ t, Machine.exec (.statusRead ⟨0, none⟩) s = .next t ∧ Effect s t id [] [] [] [.pmbus (some (bytesLE 1 (s.chip.pmbWord q.val)))]) ∧
  (∀ (s : State) (q : Fin 65) (code : Fin 9) (other : Option Byte), s.chip.reqUp .pmbus = true → s.chip.get PMB.STAT_PAGE = q.val → (code = 7 ∨ other.isSome = true) → ∃ t, Machine.exec (.statusRead ⟨code, other⟩) s = .next t ∧ Latches s.chip t.chip (fun p => p == q.val) 4 7 ∧ Recorded s.chip t.chip PMB.EVT_CMLF PMB.EVTCNT_CMLCNT ∧
    t.chip.outbox = s.chip.outbox ++ [.pmbus none] ∧ Keeps s t (fun o => o == PMB.STAT || o == PMB.EVT || o == PMB.EVTCNT)) ∧
  (∀ (s : State) (pec : Pec), s.chip.reqUp .pmbus = true → 0x40 ≤ s.chip.get PMB.STAT_PAGE → (∃ t, Machine.exec (.readIout false pec) s = .next t ∧ Latches s.chip t.chip s.chip.pageIn 4 7 ∧ Recorded s.chip t.chip PMB.EVT_CMLF PMB.EVTCNT_CMLCNT ∧ t.chip.outbox = s.chip.outbox ++ [.pmbus none]) ∧
    ∃ t, Machine.exec (.operation none pec) s = .next t ∧ Latches s.chip t.chip s.chip.pageIn 4 7 ∧ Recorded s.chip t.chip PMB.EVT_CMLF PMB.EVTCNT_CMLCNT ∧ t.chip.outbox = s.chip.outbox ++ [.pmbus none] ∧ Keeps s t (fun o => o == PMB.STAT || o == PMB.EVT || o == PMB.EVTCNT)) ∧
  (∀ (s : State) (dieOk : Bool), s.chip.reqUp .pmbus = true → (dieOk = true ∨ s.chip.dieAccess s.chip.pmb.regAddr = false) → s.chip.pmb.regAddr % 4 = 0 → inMailbox s.chip.pmb.regAddr = false → s.chip.offAt s.chip.pmb.regAddr = false → s.chip.pmb.regAddr ∉ snapWords → (∀ x ∈ snapPairs, x.1 ≠ s.chip.pmb.regAddr) →
    inPP s.chip.pmb.regAddr = false → s.chip.pmb.regAddr ≠ NVM.RDDATA → ∃ t, Machine.exec (.mfrRegDataRead dieOk) s = .next t ∧ Effect s t (fun c => { c with pmb := { c.pmb with regAddr := (c.pmb.regAddr + 4) % 2 ^ 32 } }) [] [] []
      [.pmbus (some (4 :: bytesLE 4 (if (regAt s.chip.pmb.regAddr).isSome then (s.chip.readable s.chip.pmb.regAddr).toNat else 0)))]) ∧
  (∀ (s : State), s.chip.reqUp .pmbus = true → s.chip.dieAccess s.chip.pmb.regAddr = true → s.chip.pmb.regAddr % 4 = 0 → ∃ t, Machine.exec (.mfrRegDataRead false) s = .next t ∧ Latches s.chip t.chip s.chip.pageIn 4 1 ∧ Recorded s.chip t.chip ACC.ACCST_FAILF ACC.ACCCNT_FAILCNT ∧
    t.chip.pmb.regAddr = (s.chip.pmb.regAddr + 4) % 2 ^ 32 ∧ t.chip.outbox = s.chip.outbox ++ [.pmbus (some [4, 0xff, 0xff, 0xff, 0xff])] ∧ t.chip.faultQ = s.chip.faultQ ++ [⟨0x4011, (s.chip.pmb.regAddr - dieWindow) / 0x20000 + 1, 0⟩]) ∧
  (∀ (s : State), s.chip.reqUp .pmbus = true → ∃ t, Machine.exec .alertResponse s = .next t ∧ Effect s t id [] [] [] [.pmbus (if s.chip.get PMB.STAT_ALERT = 1 then some (bytesLE 1 (2 * s.chip.get PMB.CFG_ADDR)) else none)])

/-- The PMBus writes (R435 to R440, R450). -/
def Obligations.PMBusWritesAreCheckedAndCarriedOut : Prop :=
  (∀ (s : State) (v : Byte), s.chip.reqUp .pmbus = true → (s.chip.get PMB.STAT_PAGE ≤ 0x40 ∨ s.chip.get PMB.STAT_PAGE = 0xff) → ∃ t, Machine.exec (.page (some v) .bad) s = .next t ∧ Latches s.chip t.chip s.chip.pageIn 4 5 ∧ Recorded s.chip t.chip PMB.EVT_PECF PMB.EVTCNT_PECCNT ∧ t.chip.get PMB.STAT_PAGE = s.chip.get PMB.STAT_PAGE ∧
      t.chip.outbox = s.chip.outbox ++ [.pmbus none] ∧ t.chip.faultQ = s.chip.faultQ ∧ Keeps s t (fun o => o == PMB.STAT || o == PMB.EVT || o == PMB.EVTCNT)) ∧
  (∀ (s : State) (v : Byte), s.chip.get PMB.CFG_PECREQ = 1 → ∃ t, Machine.exec (.page (some v) .none) s = .next t ∧ t = s) ∧
  (∀ (s : State) (n : Fin 65) (v : BitVec 16), s.chip.reqUp .pmbus = true → s.chip.get PMB.STAT_PAGE = n.val → (s.chip.get PMB.STAT_WP = 0x80 ∨ s.chip.get PMB.STAT_WP = 0x40) → ∃ t, Machine.exec (.voutCommandWrite v .good) s = .next t ∧ Latches s.chip t.chip (fun q => q == n.val) 4 6 ∧
      Recorded s.chip t.chip PMB.EVT_REFF PMB.EVTCNT_REFCNT ∧ t.chip.get PMB.LASTREF_CMD = 0x21 ∧ t.chip.get PMB.LASTREF_PAGE = n.val ∧ t.chip.get PMB.LASTREF_REASON = 8 ∧ t.chip.outbox = s.chip.outbox ++ [.pmbus none] ∧ Keeps s t (fun o => span 0x32000 0x32100 o)) ∧
  (∀ (s : State) (v : Byte), s.chip.reqUp .pmbus = true → s.chip.get PMB.STAT_WP ≠ 0x80 → (s.chip.get PMB.STAT_WP = 0 ∨ s.chip.get PMB.STAT_WP = 0x20 ∨ s.chip.get PMB.STAT_WP = 0x40) → (v.toNat ≤ 0x40 ∨ v.toNat = 0xff) → ∃ t, Machine.exec (.page (some v) .good) s = .next t ∧ t.chip.get PMB.STAT_PAGE = v.toNat ∧
      Effect s t id [PMB.STAT_PAGE] [] [] [.pmbus (some [])]) ∧
  (∀ (s : State) (v : Byte), s.chip.reqUp .pmbus = true → (s.chip.get PMB.STAT_PAGE ≤ 0x40 ∨ s.chip.get PMB.STAT_PAGE = 0xff) → (s.chip.get PMB.STAT_WP = 0 ∨ s.chip.get PMB.STAT_WP = 0x20) → 0x40 < v.toNat → v.toNat ≠ 0xff → ∃ t, Machine.exec (.page (some v) .good) s = .next t ∧ t.chip.get PMB.STAT_PAGE = s.chip.get PMB.STAT_PAGE ∧
      Latches s.chip t.chip s.chip.pageIn 4 6 ∧ Recorded s.chip t.chip PMB.EVT_CMLF PMB.EVTCNT_CMLCNT ∧ Recorded s.chip t.chip PMB.EVT_REFF PMB.EVTCNT_REFCNT ∧ t.chip.get PMB.LASTREF_CMD = 0 ∧ t.chip.get PMB.LASTREF_REASON = 0 ∧ Keeps s t (fun o => span 0x32000 0x32100 o)) ∧
  (∀ (s : State) (v : Byte), s.chip.reqUp .pmbus = true → (v = 0x80 ∨ v = 0x40 ∨ v = 0x20 ∨ v = 0) → ∃ t, Machine.exec (.writeProtect (some v) .good) s = .next t ∧ t.chip.get PMB.STAT_WP = v.toNat ∧ Effect s t id [PMB.STAT_WP] [] [] [.pmbus (some [])]) ∧
  (∀ (s : State) (p : RailId) (v : Byte), s.chip.reqUp .pmbus = true → s.chip.get PMB.STAT_PAGE = p.val → (∃ t, Machine.exec (.operation (some v) .good) s = .next t ∧ Latches s.chip t.chip (fun q => q == p.val) 4 6 ∧ Recorded s.chip t.chip PMB.EVT_CMLF PMB.EVTCNT_CMLCNT ∧ t.chip.outbox = s.chip.outbox ++ [.pmbus none] ∧
      Keeps s t (fun o => o == PMB.STAT || o == PMB.EVT || o == PMB.EVTCNT)) ∧ ∃ t, Machine.exec (.readVout true .good) s = .next t ∧ Latches s.chip t.chip (fun q => q == p.val) 4 6 ∧ Recorded s.chip t.chip PMB.EVT_CMLF PMB.EVTCNT_CMLCNT ∧ t.chip.outbox = s.chip.outbox ++ [.pmbus none]) ∧
  (∀ (s : State) (q : Fin 65), s.chip.reqUp .pmbus = true → s.chip.get PMB.STAT_PAGE = q.val → s.chip.get PMB.STAT_WP = 0 → s.chip.faultLow = false → ∃ t, Machine.exec (.clearFaults .good) s = .next t ∧ (∀ j : Fin 6, t.chip.pmbByte q.val j.val = 0) ∧
      (∀ p : Fin 65, p ≠ q → ∀ j : Fin 6, t.chip.pmbByte p.val j.val = s.chip.pmbByte p.val j.val) ∧ t.chip.outbox = s.chip.outbox ++ [.pmbus (some [])] ∧ t.chip.faultQ = s.chip.faultQ ∧ Keeps s t (fun o => o == PMB.STAT)) ∧
  (∀ (s : State) (q : Fin 65) (code : Fin 9) (v : Byte) (j : Nat), s.chip.reqUp .pmbus = true → s.chip.get PMB.STAT_PAGE = q.val → s.chip.get PMB.STAT_WP = 0 → s.chip.faultLow = false → statusByte code.val = some j → ∃ t, Machine.exec (.statusWriteClear ⟨code, none⟩ v .good) s = .next t ∧
      t.chip.pmbByte q.val j = (BitVec.ofNat 8 (s.chip.pmbByte q.val j) &&& ~~~v).toNat ∧ (∀ p : Fin 65, ∀ i : Fin 6, p ≠ q ∨ i.val ≠ j → t.chip.pmbByte p.val i.val = s.chip.pmbByte p.val i.val) ∧ t.chip.outbox = s.chip.outbox ++ [.pmbus (some [])] ∧ Keeps s t (fun o => o == PMB.STAT)) ∧
  (∀ (s : State) (q : Fin 65) (code : Fin 9) (v : Byte) (other : Option Byte), s.chip.reqUp .pmbus = true → s.chip.get PMB.STAT_PAGE = q.val → (code = 7 ∨ other.isSome = true) → ∃ t, Machine.exec (.statusWriteClear ⟨code, other⟩ v .good) s = .next t ∧
      Latches s.chip t.chip (fun p => p == q.val) 4 7 ∧ Recorded s.chip t.chip PMB.EVT_CMLF PMB.EVTCNT_CMLCNT ∧ t.chip.outbox = s.chip.outbox ++ [.pmbus none] ∧ Keeps s t (fun o => o == PMB.STAT || o == PMB.EVT || o == PMB.EVTCNT)) ∧
  (∀ (s : State) (n : LoopId) (v : BitVec 16), s.chip.reqUp .pmbus = true → s.chip.get PMB.STAT_PAGE = n.val → (s.chip.get PMB.STAT_WP = 0 ∨ s.chip.get PMB.STAT_WP = 0x20) → s.chip.get (AVSL.CTRL_OWNER n.val) = 2 → s.chip.loopState n.val = 2 → s.chip.get (AVSL.VLIM_VMIN n.val) ≤ v.toNat → v.toNat ≤ s.chip.get (AVSL.VLIM_VMAX n.val) →
    ∃ t, Machine.exec (.voutCommandWrite v .good) s = .next t ∧ t.chip.get (AVSL.SETPT_SETPT n.val) = v.toNat ∧ t.chip.get (LOOP.TARGET_VTGT n.val) = s.chip.get (LOOP.TARGET_VTGT n.val) ∧ t.chip.pmb = s.chip.pmb ∧ t.chip.outbox = s.chip.outbox ++ [.pmbus (some [])] ∧ t.chip.faultQ = s.chip.faultQ ∧
      Keeps s t (fun o => o == AVSL.SETPT n.val || o == CMPL.EVT n.val || span (0x10000 + 0x100 * n.val) (0x10100 + 0x100 * n.val) o)) ∧
  (∀ (s : State) (n : LoopId) (v : BitVec 16), s.chip.reqUp .pmbus = true → s.chip.get PMB.STAT_PAGE = n.val → (s.chip.get PMB.STAT_WP = 0 ∨ s.chip.get PMB.STAT_WP = 0x20) → s.chip.get (AVSL.CTRL_OWNER n.val) ≠ 2 →
    ∃ t, Machine.exec (.voutCommandWrite v .good) s = .next t ∧ t.chip.reg (AVSL.SETPT n.val) = s.chip.reg (AVSL.SETPT n.val) ∧ t.chip.loops.get n.val = s.chip.loops.get n.val ∧ Recorded s.chip t.chip (AVSL.REF_REFF n.val) (AVSL.REF_REFCNT n.val) ∧ t.chip.get (AVSL.REF_LASTREF n.val) = 1 ∧
      Recorded s.chip t.chip PMB.EVT_REFF PMB.EVTCNT_REFCNT ∧ t.chip.get PMB.LASTREF_CMD = 0x21 ∧ t.chip.get PMB.LASTREF_PAGE = n.val ∧ t.chip.get PMB.LASTREF_REASON = 1 ∧ Latches s.chip t.chip (fun q => q == n.val) 5 0 ∧ t.chip.faultQ = s.chip.faultQ ∧ Keeps s t (fun o => o == AVSL.REF n.val || span 0x32000 0x32100 o)) ∧
  (∀ (s : State) (q : Fin 65) (v : BitVec 16), s.chip.reqUp .pmbus = true → s.chip.get PMB.STAT_PAGE = q.val → 32 ≤ q.val → s.chip.get PMB.STAT_WP = 0 → ∃ t, Machine.exec (.voutCommandWrite v .good) s = .next t ∧ Latches s.chip t.chip (fun p => p == q.val) 4 7 ∧ Recorded s.chip t.chip PMB.EVT_CMLF PMB.EVTCNT_CMLCNT ∧
      Keeps s t (fun o => o == PMB.STAT || o == PMB.EVT || o == PMB.EVTCNT)) ∧
  (∀ (s : State) (n : LoopId) (v : BitVec 16), s.chip.reqUp .pmbus = true → s.chip.get PMB.STAT_PAGE = n.val → (s.chip.get PMB.STAT_WP = 0 ∨ s.chip.get PMB.STAT_WP = 0x20) → s.chip.get (AVSL.CTRL_OWNER n.val) = 2 → (s.chip.loopState n.val = 2 ∨ s.chip.loopState n.val = 4) → v.toNat < 1024 →
    max 1 (1000 * v.toNat) ≤ s.chip.slewMax n.val → ∃ t, Machine.exec (.voutTransitionRateWrite v .good) s = .next t ∧ t.chip.get (AVSL.SLEW_SLEWCMD n.val) = max 1 (1000 * v.toNat) ∧ Effect s t id [AVSL.SLEW_SLEWCMD n.val] [] [] [.pmbus (some [])]) ∧
  (∀ (s : State) (v : Word), s.chip.reqUp .pmbus = true → s.chip.get PMB.STAT_WP = 0 → v.toNat % 4 = 0 → ∃ t, Machine.exec (.mfrRegAddr (some v) .good) s = .next t ∧ Effect s t (fun c => { c with pmb := { c.pmb with regAddr := v.toNat } }) [] [] [] [.pmbus (some [])]) ∧
  (∀ (s : State) (v : Word), s.chip.reqUp .pmbus = true → s.chip.get PMB.STAT_PAGE ≤ 0x40 → s.chip.get PMB.STAT_WP = 0 → v.toNat % 4 ≠ 0 → ∃ t, Machine.exec (.mfrRegAddr (some v) .good) s = .next t ∧ t.chip.pmb.regAddr = s.chip.pmb.regAddr ∧ Latches s.chip t.chip s.chip.pageIn 4 6 ∧ Recorded s.chip t.chip PMB.EVT_CMLF PMB.EVTCNT_CMLCNT ∧ Recorded s.chip t.chip PMB.EVT_REFF PMB.EVTCNT_REFCNT) ∧
  (∀ (s : State) (v : Word) (dieOk : Bool) (cold : ColdIn), s.chip.reqUp .pmbus = true → s.chip.flt.coldHeld = false → s.chip.get PMB.STAT_WP = 0 → s.chip.get PMB.CFG_REGWEN = 1 → s.chip.get ACC.ACCST_LOCKED = 0 → fieldsOnly s.chip.pmb.regAddr = true → (regAt s.chip.pmb.regAddr).isSome = true → s.chip.offAt s.chip.pmb.regAddr = false →
    s.chip.pmb.regAddr % 4 = 0 → (cntClears s.chip.pmb.regAddr).isNone = true → accMask s.chip.pmb.regAddr (· == .w1c) = 0 → ∃ t, Machine.exec (.mfrRegDataWrite v dieOk .good cold) s = .next t ∧
      t.chip.reg s.chip.pmb.regAddr = ((s.chip.reg s.chip.pmb.regAddr &&& ~~~(pairMask s.chip.pmb.regAddr)) ||| (v &&& pairMask s.chip.pmb.regAddr)) ∧ t.chip.inner = { s.chip.inner with pmb := { s.chip.pmb with regAddr := (s.chip.pmb.regAddr + 4) % 2 ^ 32 } } ∧
      t.chip.outbox = s.chip.outbox ++ [.pmbus (some [])] ∧ t.chip.faultQ = s.chip.faultQ ∧ Keeps s t (fun o => o == s.chip.pmb.regAddr)) ∧
  (∀ (s : State) (v : Word) (dieOk : Bool) (cold : ColdIn), s.chip.reqUp .pmbus = true → s.chip.flt.coldHeld = false → s.chip.get PMB.STAT_WP = 0 → s.chip.get PMB.CFG_REGWEN = 0 → ∃ t, Machine.exec (.mfrRegDataWrite v dieOk .good cold) s = .next t ∧ Recorded s.chip t.chip PMB.EVT_REFF PMB.EVTCNT_REFCNT ∧ t.chip.get PMB.LASTREF_CMD = 0xd1 ∧
      t.chip.get PMB.LASTREF_REASON = 8 ∧ t.chip.pmb = s.chip.pmb ∧ t.chip.outbox = s.chip.outbox ++ [.pmbus none] ∧ Keeps s t (fun o => span 0x32000 0x32100 o)) ∧
  (∀ (s : State) (v : Word), s.chip.reqUp .pmbus = true → s.chip.get PMB.STAT_WP = 0 → v.toNat / 2 ^ 30 = 1 → s.chip.get (FLT.ENT0_STATE (v.toNat / 2 ^ 16 % 64)) ≠ 0 → s.chip.get (FLT.ENT0_CODE (v.toNat / 2 ^ 16 % 64)) = v.toNat % 2 ^ 16 → codeCls (v.toNat % 2 ^ 16) < 3 →
    ∃ t, Machine.exec (.mfrFaultAck v .good) s = .next t ∧ t.chip.get FLT.ACKST_RES = 1 ∧ t.chip.get (FLT.ENT0_STATE (v.toNat / 2 ^ 16 % 64)) = 2 ∧ (t.chip.ents.get (v.toNat / 2 ^ 16 % 64)).timer = none ∧ t.chip.get (FLT.ENT0_CODE (v.toNat / 2 ^ 16 % 64)) = v.toNat % 2 ^ 16 ∧ t.chip.faultQ = s.chip.faultQ ∧ t.chip.outbox = s.chip.outbox ++ [.pmbus (some [])]) ∧
  (∀ (s : State) (v : Byte), s.chip.reqUp .pmbus = true → s.chip.get PMB.STAT_WP = 0 → v.toNat / 4 = 1 → s.chip.mayStart = true → s.chip.get (SEQD.STAT_STATE (v.toNat % 4)) = 3 → ∃ t, Machine.exec (.mfrDomain v .good) s = .next t ∧ t.chip.get (SEQD.STAT_PENDST (v.toNat % 4)) = 1 ∧
      Effect s t id [SEQD.STAT_PENDST (v.toNat % 4)] [] [] [.pmbus (some [])]) ∧
  (∀ (s : State) (v : Byte), s.chip.reqUp .pmbus = true → s.chip.get PMB.STAT_WP = 0 → v.toNat / 4 = 1 → s.chip.mayStart = true → s.chip.get (SEQD.STAT_STATE (v.toNat % 4)) ≠ 3 → s.chip.get (SEQD.STAT_STATE (v.toNat % 4)) ≠ 4 → (∀ k : DomainId, s.chip.get (SEQD.STAT_PENDST k.val) = 0) → ∃ t, Machine.exec (.mfrDomain v .good) s = .next t ∧
      (∀ r : RailId, t.chip.railState r.val = if s.chip.railState r.val = 0 ∧ s.chip.get (SEQR.CFG_DOMAIN r.val) = v.toNat % 4 then 1 else s.chip.railState r.val) ∧ t.chip.outbox = s.chip.outbox ++ [.pmbus (some [])] ∧ t.chip.faultQ = s.chip.faultQ ∧ Keeps s t (fun o => span 0x24000 0x25300 o || hostSide o)) ∧
  (∀ (s : State), s.chip.reqUp .pmbus = true → ∃ t, Machine.exec .smbusTimeout s = .next t ∧ Recorded s.chip t.chip PMB.EVT_TOF PMB.EVTCNT_TOCNT ∧ Effect s t id [PMB.EVT_TOF, PMB.EVTCNT_TOCNT] [0xe2] [] [])

/-- MCTP_PACKET, the five control commands and MCTP_REG_READ (R441, R442). The packet and message formats are those of DSP0236, which R441 names (PRESUMED in the assumption log). -/
def Obligations.MctpMessagesAreReassembledAndAnswered : Prop :=
  (∀ (s : State) (b : Fin 2) (src dest : Byte) (seq : Fin 4) (tag : Fin 16) (pl : List Byte), s.chip.mctpUp = true → s.chip.get HIF.STAT_LINKUP = 1 → (dest.toNat = s.chip.get PMB.STAT_EID ∨ dest = 0 ∨ dest = 0xff) → pl.length ≤ 64 → s.chip.mctp.parts = [] →
    (⟨b.val, src.toNat, tag.val, pl⟩ : MctpMsg).kind ≠ none → ∃ t, Machine.exec (.mctpPacket b src dest true true seq tag pl) s = .next t ∧ Effect s t (fun c => { c with mctp := { c.mctp with inbox := c.mctp.inbox ++ [⟨b.val, src.toNat, tag.val, pl⟩] } }) [] [] [] []) ∧
  (∀ (s : State) (b : Fin 2) (src : Byte) (seq : Fin 4) (tag : Fin 16) (pl : List Byte), s.chip.mctpUp = true → s.chip.get HIF.STAT_LINKUP = 1 → pl.length ≤ 64 → (∀ p ∈ s.chip.mctp.parts, p.binding ≠ b.val ∨ p.src ≠ src.toNat ∨ p.tag ≠ tag.val) → s.chip.mctp.parts.length < 4 →
    ∃ t, Machine.exec (.mctpPacket b src 0 true false seq tag pl) s = .next t ∧ Effect s t (fun c => { c with mctp := { c.mctp with parts := c.mctp.parts ++ [⟨b.val, src.toNat, tag.val, (seq.val + 1) % 4, pl⟩] } }) [] [] [] []) ∧
  (∀ (s : State) (p : MctpPart) (pl : List Byte), s.chip.mctpUp = true → s.chip.get HIF.STAT_LINKUP = 1 → s.chip.mctp.parts = [p] → p.binding < 2 → p.src < 256 → p.tag < 16 → p.seq < 4 → pl.length ≤ 64 → (p.body ++ pl).length ≤ 4096 → (⟨p.binding, p.src, p.tag, p.body ++ pl⟩ : MctpMsg).kind ≠ none →
    ∃ t, Machine.exec (.mctpPacket (Fin.ofNat 2 p.binding) (BitVec.ofNat 8 p.src) 0xff false true (Fin.ofNat 4 p.seq) (Fin.ofNat 16 p.tag) pl) s = .next t ∧ Effect s t (fun c => { c with mctp := { c.mctp with parts := [], inbox := c.mctp.inbox ++ [⟨p.binding, p.src, p.tag, p.body ++ pl⟩] } }) [] [] [] []) ∧
  (∀ (s : State) (p : MctpPart) (pl : List Byte) (seq : Fin 4) (eom : Bool), s.chip.mctpUp = true → s.chip.get HIF.STAT_LINKUP = 1 → s.chip.mctp.parts = [p] → p.binding < 2 → p.src < 256 → p.tag < 16 → pl.length ≤ 64 → (p.seq ≠ seq.val ∨ 4096 < (p.body ++ pl).length) →
    ∃ t, Machine.exec (.mctpPacket (Fin.ofNat 2 p.binding) (BitVec.ofNat 8 p.src) 0xff false eom seq (Fin.ofNat 16 p.tag) pl) s = .next t ∧ Recorded s.chip t.chip PMB.EVT_MDROPF PMB.EVTCNT2_MDROPCNT ∧
      Effect s t (fun c => { c with mctp := { c.mctp with parts := [] } }) [PMB.EVT_MDROPF, PMB.EVTCNT2_MDROPCNT] [0xe2] [] []) ∧
  (∀ (s : State) (b : Fin 2) (src : Byte) (seq : Fin 4) (tag : Fin 16) (pl : List Byte), s.chip.mctpUp = true → s.chip.get HIF.STAT_LINKUP = 1 → pl.length ≤ 64 → (∀ p ∈ s.chip.mctp.parts, p.binding ≠ b.val ∨ p.src ≠ src.toNat ∨ p.tag ≠ tag.val) → s.chip.mctp.parts.length = 4 →
    ∃ t, Machine.exec (.mctpPacket b src 0 true false seq tag pl) s = .next t ∧ Recorded s.chip t.chip PMB.EVT_MDROPF PMB.EVTCNT2_MDROPCNT ∧ Effect s t id [PMB.EVT_MDROPF, PMB.EVTCNT2_MDROPCNT] [0xe2] [] []) ∧
  (∀ (s : State) (b : Fin 2) (src dest : Byte) (som eom : Bool) (seq : Fin 4) (tag : Fin 16) (pl : List Byte), (s.chip.mctpUp = false ∨ dest.toNat ≠ s.chip.get PMB.STAT_EID ∧ dest ≠ 0 ∧ dest ≠ 0xff) → ∃ t, Machine.exec (.mctpPacket b src dest som eom seq tag pl) s = .next t ∧ t = s) ∧
  (∀ (s : State) (b : Fin 2) (src : Byte) (seq : Fin 4) (tag : Fin 16) (x cmd : Byte), s.chip.mctpUp = true → s.chip.get HIF.STAT_LINKUP = 1 → s.chip.mctp.parts = [] → 128 ≤ x.toNat → (cmd = 0 ∨ 5 < cmd.toNat) →
    ∃ t, Machine.exec (.mctpPacket b src 0 true true seq tag [0, x, cmd]) s = .next t ∧ Effect s t id [] [] [] [.mctp b.val src.toNat 0 [x &&& 31, cmd, 5]]) ∧
  (∀ (s : State) (k : Nat) (q : MctpMsg), s.chip.mctpUp = true → s.chip.mctp.inbox[k]? = some q → q.kind = some 1 → q.body.length = 5 → s.chip.get PMB.CFG_SEID = 0 → q.at 3 % 4 < 2 → 1 ≤ q.at 4 → q.at 4 < 0xff → ∃ t, Machine.exec (.setEndpointId k) s = .next t ∧ t.chip.get PMB.STAT_EID = q.at 4 ∧
      Effect s t (fun c => { c with mctp := { c.mctp with inbox := c.mctp.inbox.eraseIdx k } }) [PMB.STAT_EID] [] [] [.mctp q.binding q.src 0 (bytesLE 1 (q.at 1 % 32) ++ [1, 0, 0] ++ bytesLE 1 (q.at 4) ++ [0])]) ∧
  (∀ (s : State) (k : Nat) (q : MctpMsg), s.chip.mctpUp = true → s.chip.mctp.inbox[k]? = some q → q.kind = some 1 → q.body.length = 5 → s.chip.get PMB.CFG_SEID ≠ 0 → ∃ t, Machine.exec (.setEndpointId k) s = .next t ∧
      Effect s t (fun c => { c with mctp := { c.mctp with inbox := c.mctp.inbox.eraseIdx k } }) [] [] [] [.mctp q.binding q.src 0 (bytesLE 1 (q.at 1 % 32) ++ [1, Config.opRejected])]) ∧
  (∀ (s : State) (k : Nat) (q : MctpMsg), s.chip.mctpUp = true → s.chip.mctp.inbox[k]? = some q → q.kind = some 2 → q.body.length = 3 → ∃ t, Machine.exec (.getEndpointId k) s = .next t ∧ Effect s t (fun c => { c with mctp := { c.mctp with inbox := c.mctp.inbox.eraseIdx k } }) [] [] []
      [.mctp q.binding q.src 0 (bytesLE 1 (q.at 1 % 32) ++ [2, 0] ++ bytesLE 1 (s.chip.get PMB.STAT_EID) ++ [if s.chip.get PMB.CFG_SEID = 0 then 0 else 2, 0])]) ∧
  (∀ (s : State) (k : Nat) (q : MctpMsg), s.chip.mctpUp = true → s.chip.mctp.inbox[k]? = some q → q.kind = some 3 → q.body.length = 3 → ∃ t, Machine.exec (.getEndpointUuid k) s = .next t ∧ Effect s t (fun c => { c with mctp := { c.mctp with inbox := c.mctp.inbox.eraseIdx k } }) [] [] []
      [.mctp q.binding q.src 0 (bytesLE 1 (q.at 1 % 32) ++ [3, 0] ++ (List.finRange 16).map Config.uuid)]) ∧
  (∀ (s : State) (k : Nat) (q : MctpMsg), s.chip.mctpUp = true → s.chip.mctp.inbox[k]? = some q → q.kind = some 4 → q.body.length = 4 → ∃ t, Machine.exec (.getMctpVersionSupport k) s = .next t ∧ Effect s t (fun c => { c with mctp := { c.mctp with inbox := c.mctp.inbox.eraseIdx k } }) [] [] []
      [.mctp q.binding q.src 0 (bytesLE 1 (q.at 1 % 32) ++ [4] ++ (if q.at 3 = 0xff ∨ q.at 3 = 0 ∨ q.at 3 = 5 ∨ q.at 3 = 0x7e then [0, 1] ++ bytesLE 4 (Config.mctpVersion (Fin.ofNat 256 (q.at 3))).toNat else [0x80]))]) ∧
  (∀ (s : State) (k : Nat) (q : MctpMsg), s.chip.mctpUp = true → s.chip.mctp.inbox[k]? = some q → q.kind = some 5 → q.body.length = 3 → ∃ t, Machine.exec (.getMessageTypeSupport k) s = .next t ∧ Effect s t (fun c => { c with mctp := { c.mctp with inbox := c.mctp.inbox.eraseIdx k } }) [] [] []
      [.mctp q.binding q.src 0 (bytesLE 1 (q.at 1 % 32) ++ [5, 0, 2, 5, 0x7e])]) ∧
  (∀ (s : State) (k : Nat) (q : MctpMsg), s.chip.mctpUp = true → s.chip.mctp.inbox[k]? = some q → q.kind = some 5 → q.body.length ≠ 3 → ∃ t, Machine.exec (.getMessageTypeSupport k) s = .next t ∧ Effect s t (fun c => { c with mctp := { c.mctp with inbox := c.mctp.inbox.eraseIdx k } }) [] [] []
      [.mctp q.binding q.src 0 (bytesLE 1 (q.at 1 % 32) ++ [5, 3])]) ∧
  (∀ (s : State) (k : Nat) (q : MctpMsg) (n : Nat), s.chip.mctpUp = true → s.chip.mctp.inbox[k]? = some q → q.kind = some 0x100 → q.body.length = 4 + 4 * n → 1 ≤ n → n ≤ 32 →
    (∀ i ∈ List.range n, let o := fieldLE (q.body.drop 4) (4 * i) 4; offsetOk o = true ∧ inMailbox o = false ∧ s.chip.offAt o = false ∧ o ∉ snapWords ∧ (∀ x ∈ snapPairs, x.1 ≠ o) ∧ inPP o = false ∧ o ≠ NVM.RDDATA) →
    ∃ t, Machine.exec (.mctpRegRead k none) s = .next t ∧ Effect s t (fun c => { c with mctp := { c.mctp with inbox := c.mctp.inbox.eraseIdx k } }) [] [] []
      [.mctp q.binding q.src 0x7e ([0x1e, 0x3c, 1, 0] ++ (List.range n).flatMap fun i => let o := fieldLE (q.body.drop 4) (4 * i) 4; bytesLE 4 (if (regAt o).isSome then (s.chip.readable o).toNat else 0))]) ∧
  (∀ (s : State) (k : Nat) (q : MctpMsg) (fail : Option (Fin 32)) (code : Fin 3), s.chip.mctpUp = true → s.chip.mctp.inbox[k]? = some q → q.kind = some 0x100 → (code = 1 ∧ q.body.length % 4 = 0 ∧ 8 ≤ q.body.length ∧ q.body.length ≤ 132 ∧ offsetOk (fieldLE (q.body.drop 4) 0 4) = false ∨ code = 2 ∧ (q.body.length % 4 ≠ 0 ∨ q.body.length = 4 ∨ 132 < q.body.length)) →
    ∃ t, Machine.exec (.mctpRegRead k fail) s = .next t ∧ (code = 1 → fieldLE (q.body.drop 4) 0 4 < 0x200000 → Recorded s.chip t.chip ACC.ACCST_RSVF ACC.ACCCNT_RSVCNT ∧ t.chip.get ACC.ACCST_LASTOFS = fieldLE (q.body.drop 4) 0 4) ∧
      Effect s t (fun c => { c with mctp := { c.mctp with inbox := c.mctp.inbox.eraseIdx k } }) (if code = 1 ∧ fieldLE (q.body.drop 4) 0 4 < 0x200000 then [ACC.ACCST_RSVF, ACC.ACCST_LASTOFS, ACC.ACCCNT_RSVCNT] else []) [] [] [.mctp q.binding q.src 0x7e [0x1e, 0x3c, 1, BitVec.ofNat 8 code.val]]) ∧
  (∀ (s : State) (k : Nat), s.chip.mctp.inbox.length ≤ k → (∃ t, Machine.exec (.getEndpointId k) s = .next t ∧ t = s) ∧ ∃ t, Machine.exec (.mctpRegRead k none) s = .next t ∧ t = s)

/-- GET_VERSION to CHUNK_GET and SPDM_SIGNATURE_DONE (R443, R444, R461, R470). The message formats are those of DSP0274, which R443 names (PRESUMED in the assumption log); nonces and signatures are free values. -/
def Obligations.SpdmAnswersItsRequests : Prop :=
  (∀ (s : State) (k : Nat) (q : MctpMsg), s.chip.mctpUp = true → s.chip.mctp.inbox[k]? = some q → q.kind = some 0x284 → q.at 1 = 0x10 → ∃ t, Machine.exec (.getVersion k) s = .next t ∧ t.chip.spdm q = { stage := 1, vca := q.spdm ++ [0x10, 0x04, 0, 0, 0, 1, 0, 0x12], handle := (s.chip.spdm q).handle } ∧
      Effect s t (fun c => { c with mctp := { c.mctp with inbox := c.mctp.inbox.eraseIdx k, spdm := c.mctp.spdm.set q.binding (t.chip.spdm q) } }) [] [] [] [.mctp q.binding q.src 5 [0x10, 0x04, 0, 0, 0, 1, 0, 0x12]]) ∧
  (∀ (s : State) (k : Nat) (q : MctpMsg), s.chip.mctpUp = true → s.chip.mctp.inbox[k]? = some q → q.kind = some 0x284 → q.at 1 ≠ 0x10 → ∃ t, Machine.exec (.getVersion k) s = .next t ∧ Effect s t (fun c => { c with mctp := { c.mctp with inbox := c.mctp.inbox.eraseIdx k } }) [] [] [] [.mctp q.binding q.src 5 [0x12, 0x7f, 0x41, 0]]) ∧
  (∀ (s : State) (k : Nat) (q : MctpMsg), s.chip.mctpUp = true → s.chip.mctp.inbox[k]? = some q → q.kind = some 0x2e1 → q.at 1 = 0x12 → (s.chip.spdm q).stage = 1 → 20 ≤ q.spdm.length → 42 ≤ fieldLE q.spdm 12 4 → fieldLE q.spdm 12 4 ≤ fieldLE q.spdm 16 4 → ∃ t, Machine.exec (.getCapabilities k) s = .next t ∧
      t.chip.spdm q = { s.chip.spdm q with stage := 2, large := none, meas := [], chunks := bitAt (fieldLE q.spdm 8 4) 17, size := min (fieldLE q.spdm 12 4) 4096, vca := (s.chip.spdm q).vca ++ q.spdm ++ ([0x12, 0x61, 0, 0, 0, 16, 0, 0, 0x36, 0, 2, 0] ++ bytesLE 4 4096 ++ bytesLE 4 16384) } ∧
      Effect s t (fun c => { c with mctp := { c.mctp with inbox := c.mctp.inbox.eraseIdx k, spdm := c.mctp.spdm.set q.binding (t.chip.spdm q) } }) [] [] [] [.mctp q.binding q.src 5 ([0x12, 0x61, 0, 0, 0, 16, 0, 0, 0x36, 0, 2, 0] ++ bytesLE 4 4096 ++ bytesLE 4 16384)]) ∧
  (∀ (s : State) (k : Nat) (q : MctpMsg), s.chip.mctpUp = true → s.chip.mctp.inbox[k]? = some q → q.kind = some 0x2e1 → q.at 1 = 0x12 → (s.chip.spdm q).stage ≠ 1 → ∃ t, Machine.exec (.getCapabilities k) s = .next t ∧ t.chip.spdm q = { s.chip.spdm q with large := none, meas := [] } ∧
      Effect s t (fun c => { c with mctp := { c.mctp with inbox := c.mctp.inbox.eraseIdx k, spdm := c.mctp.spdm.set q.binding (t.chip.spdm q) } }) [] [] [] [.mctp q.binding q.src 5 [0x12, 0x7f, 4, 0]]) ∧
  (∀ (s : State) (k : Nat) (q : MctpMsg), s.chip.mctpUp = true → s.chip.mctp.inbox[k]? = some q → q.kind = some 0x2e3 → q.at 1 = 0x12 → (s.chip.spdm q).stage = 2 → 32 ≤ q.spdm.length → bitAt (fieldLE q.spdm 6 1) 0 = true → bitAt (fieldLE q.spdm 8 4) 7 = true → bitAt (fieldLE q.spdm 12 4) 1 = true → ∃ t, Machine.exec (.negotiateAlgorithms k) s = .next t ∧
      t.chip.spdm q = { s.chip.spdm q with stage := 3, large := none, meas := [], vca := (s.chip.spdm q).vca ++ q.spdm ++ ([0x12, 0x63, 0, 0, 36, 0, 1, 0, 4, 0, 0, 0, 0x80, 0, 0, 0, 2, 0, 0, 0] ++ List.replicate 16 0) } ∧
      Effect s t (fun c => { c with mctp := { c.mctp with inbox := c.mctp.inbox.eraseIdx k, spdm := c.mctp.spdm.set q.binding (t.chip.spdm q) } }) [] [] [] [.mctp q.binding q.src 5 ([0x12, 0x63, 0, 0, 36, 0, 1, 0, 4, 0, 0, 0, 0x80, 0, 0, 0, 2, 0, 0, 0] ++ List.replicate 16 0)]) ∧
  (∀ (s : State) (k : Nat) (q : MctpMsg), s.chip.mctpUp = true → s.chip.mctp.inbox[k]? = some q → q.kind = some 0x281 → q.at 1 = 0x12 → (s.chip.spdm q).stage = 3 → 52 ≤ (s.chip.spdm q).size → ∃ t, Machine.exec (.getDigests k) s = .next t ∧
      t.chip.spdm q = { s.chip.spdm q with large := none, meas := [], cert := (s.chip.spdm q).cert ++ q.spdm ++ ([0x12, 0x01, 0, 1] ++ sha384 (certChain)) } ∧
      Effect s t (fun c => { c with mctp := { c.mctp with inbox := c.mctp.inbox.eraseIdx k, spdm := c.mctp.spdm.set q.binding (t.chip.spdm q) } }) [] [] [] [.mctp q.binding q.src 5 ([0x12, 0x01, 0, 1] ++ sha384 (certChain))]) ∧
  (∀ (s : State) (k : Nat) (q : MctpMsg), s.chip.mctpUp = true → s.chip.mctp.inbox[k]? = some q → q.kind = some 0x282 → q.at 1 = 0x12 → (s.chip.spdm q).stage = 3 → (s.chip.spdm q).chunks = false → 42 ≤ (s.chip.spdm q).size → 8 ≤ q.spdm.length → q.at 3 % 16 = 0 → ∃ t, Machine.exec (.getCertificate k) s = .next t ∧
      t.chip.mctp.inbox = s.chip.mctp.inbox.eraseIdx k ∧ t.chip.mctp.signing = s.chip.mctp.signing ∧ t.chip.outbox.length = s.chip.outbox.length + 1 ∧ t.chip.faultQ = s.chip.faultQ ∧ Keeps s t (fun _ => false) ∧
      (certChain.length ≤ fieldLE q.spdm 4 2 → t.chip.outbox = s.chip.outbox ++ [.mctp q.binding q.src 5 [0x12, 0x7f, 1, 0]]) ∧
      (fieldLE q.spdm 4 2 < certChain.length → t.chip.outbox = s.chip.outbox ++ [.mctp q.binding q.src 5 ([0x12, 0x02, 0, 0] ++ bytesLE 2 (min (min (fieldLE q.spdm 6 2) (certChain.length - fieldLE q.spdm 4 2)) ((s.chip.spdm q).size - 8)) ++
          bytesLE 2 (certChain.length - fieldLE q.spdm 4 2 - min (min (fieldLE q.spdm 6 2) (certChain.length - fieldLE q.spdm 4 2)) ((s.chip.spdm q).size - 8)) ++
          (certChain.drop (fieldLE q.spdm 4 2)).take (min (min (fieldLE q.spdm 6 2) (certChain.length - fieldLE q.spdm 4 2)) ((s.chip.spdm q).size - 8)))])) ∧
  (∀ (s : State) (k : Nat) (q : MctpMsg), s.chip.mctpUp = true → s.chip.mctp.inbox[k]? = some q → q.kind = some 0x283 → q.at 1 = 0x12 → (s.chip.spdm q).stage = 3 → 36 ≤ q.spdm.length → q.at 3 = 0 → q.at 4 = 0 → ∃ t, Machine.exec (.challenge k) s = .next t ∧ t.chip.outbox = s.chip.outbox ∧ t.chip.mctp.inbox = s.chip.mctp.inbox.eraseIdx k ∧
      t.chip.mctp.signing.length = s.chip.mctp.signing.length + 1 ∧ t.chip.mctp.signing.take s.chip.mctp.signing.length = s.chip.mctp.signing ∧ (∀ j ∈ t.chip.mctp.signing.drop s.chip.mctp.signing.length, j.binding = q.binding ∧ j.src = q.src ∧ j.tag = q.tag ∧ j.body.length = 86 ∧
        j.body.take 52 = [0x12, 0x03, 0, 1] ++ sha384 certChain ∧ j.body.drop 84 = [0, 0] ∧ j.transcript = (s.chip.spdm q).vca ++ (s.chip.spdm q).cert ++ q.spdm ++ j.body) ∧ t.chip.spdm q = { s.chip.spdm q with large := none, meas := [], cert := [] } ∧ t.chip.faultQ = s.chip.faultQ ∧ Keeps s t (fun _ => false)) ∧
  (∀ (s : State) (k : Nat) (q : MctpMsg), s.chip.mctpUp = true → s.chip.mctp.inbox[k]? = some q → q.kind = some 0x2e0 → q.at 1 = 0x12 → (s.chip.spdm q).stage = 3 → 100 ≤ (s.chip.spdm q).size → q.at 3 % 2 = 0 → q.at 4 = 6 → ∃ t, Machine.exec (.getMeasurements k) s = .next t ∧ t.chip.mctp.inbox = s.chip.mctp.inbox.eraseIdx k ∧ t.chip.mctp.signing = s.chip.mctp.signing ∧
      t.chip.outbox.length = s.chip.outbox.length + 1 ∧ (∃ r ∈ ((t.chip.outbox.drop s.chip.outbox.length).filterMap fun x => match x with | .mctp b e y l => if b = q.binding ∧ e = q.src ∧ y = 5 then some l else none | _ => none), r.length = 57 ∧ r.take 23 = [0x12, 0x60, 0, 0, 1, 15, 0, 0, 6, 1, 11, 0, 0x83, 8, 0] ++ bytesLE 8 s.chip.epoch ∧ r.drop 55 = [0, 0] ∧
        t.chip.spdm q = { s.chip.spdm q with large := none, meas := (s.chip.spdm q).meas ++ q.spdm ++ r }) ∧ t.chip.faultQ = s.chip.faultQ ∧ Keeps s t (fun _ => false)) ∧
  (∀ (s : State) (k : Nat) (q : MctpMsg), s.chip.mctpUp = true → s.chip.mctp.inbox[k]? = some q → q.kind = some 0x2e0 → q.at 1 = 0x12 → (s.chip.spdm q).stage = 3 → q.at 3 % 2 = 1 → q.at 4 = 0 → 37 ≤ q.spdm.length → q.at 37 % 16 = 0 → ∃ t, Machine.exec (.getMeasurements k) s = .next t ∧ t.chip.outbox = s.chip.outbox ∧ t.chip.mctp.inbox = s.chip.mctp.inbox.eraseIdx k ∧
      t.chip.mctp.signing.length = s.chip.mctp.signing.length + 1 ∧ t.chip.mctp.signing.take s.chip.mctp.signing.length = s.chip.mctp.signing ∧ (∀ j ∈ t.chip.mctp.signing.drop s.chip.mctp.signing.length, j.binding = q.binding ∧ j.src = q.src ∧ j.tag = q.tag ∧ j.body.length = 42 ∧
        j.body.take 8 = [0x12, 0x60, if s.chip.fw.released then 9 else 7, 0, 0, 0, 0, 0] ∧ j.transcript = (s.chip.spdm q).vca ++ (s.chip.spdm q).meas ++ q.spdm ++ j.body) ∧ t.chip.spdm q = { s.chip.spdm q with large := none, meas := [] } ∧ t.chip.faultQ = s.chip.faultQ ∧ Keeps s t (fun _ => false)) ∧
  (∀ (s : State) (j : SignJob) (l : List SignJob), s.chip.mctpUp = true → s.chip.mctp.signing = j :: l → j.body.length + 96 ≤ (s.chip.mctp.spdm.get j.binding).size → ∃ t, Machine.exec .spdmSignatureDone s = .next t ∧
      Effect s t (fun c => { c with freeCtr := t.chip.freeCtr, mctp := { c.mctp with signing := l } }) [] [] [] [.mctp j.binding j.src 5 (j.body ++ (List.range 96).map (Config.deviceSign s.chip.freeCtr j.transcript))]) ∧
  (∀ (s : State), s.chip.mctp.signing = [] → ∃ t, Machine.exec .spdmSignatureDone s = .next t ∧ t = s) ∧
  (∀ (s : State) (k : Nat) (q : MctpMsg) (r : List Byte), s.chip.mctpUp = true → s.chip.mctp.inbox[k]? = some q → q.kind = some 0x286 → q.at 1 = 0x12 → (s.chip.spdm q).stage = 3 → 6 ≤ q.spdm.length → (s.chip.spdm q).large = some r → q.at 4 = (s.chip.spdm q).handle → fieldLE q.spdm 4 2 = (s.chip.spdm q).chunk → (s.chip.spdm q).chunk ≠ 0 →
    (s.chip.spdm q).sent < r.length → r.length ≤ (s.chip.spdm q).sent + ((s.chip.spdm q).size - 12) → ∃ t, Machine.exec (.chunkGet k) s = .next t ∧ t.chip.spdm q = { s.chip.spdm q with sent := r.length, chunk := (s.chip.spdm q).chunk + 1, large := none } ∧
      Effect s t (fun c => { c with mctp := { c.mctp with inbox := c.mctp.inbox.eraseIdx k, spdm := c.mctp.spdm.set q.binding (t.chip.spdm q) } }) [] [] []
        [.mctp q.binding q.src 5 ([0x12, 0x06, 1] ++ bytesLE 1 (s.chip.spdm q).handle ++ bytesLE 2 (s.chip.spdm q).chunk ++ [0, 0] ++ bytesLE 4 (r.length - (s.chip.spdm q).sent) ++ r.drop (s.chip.spdm q).sent)]) ∧
  (∀ (s : State) (k : Nat) (q : MctpMsg) (r : List Byte), s.chip.mctpUp = true → s.chip.mctp.inbox[k]? = some q → q.kind = some 0x286 → q.at 1 = 0x12 → (s.chip.spdm q).stage = 3 → 6 ≤ q.spdm.length → (s.chip.spdm q).large = some r → q.at 4 = (s.chip.spdm q).handle → fieldLE q.spdm 4 2 = 0 → (s.chip.spdm q).chunk = 0 → (s.chip.spdm q).sent = 0 →
    42 ≤ (s.chip.spdm q).size → (s.chip.spdm q).size - 16 < r.length → ∃ t, Machine.exec (.chunkGet k) s = .next t ∧ t.chip.spdm q = { s.chip.spdm q with sent := (s.chip.spdm q).size - 16, chunk := 1 } ∧
      Effect s t (fun c => { c with mctp := { c.mctp with inbox := c.mctp.inbox.eraseIdx k, spdm := c.mctp.spdm.set q.binding (t.chip.spdm q) } }) [] [] []
        [.mctp q.binding q.src 5 ([0x12, 0x06, 0] ++ bytesLE 1 (s.chip.spdm q).handle ++ [0, 0, 0, 0] ++ bytesLE 4 ((s.chip.spdm q).size - 16) ++ bytesLE 4 r.length ++ r.take ((s.chip.spdm q).size - 16))])

/-- MBTAKE, MBDONE, BOOTOK, FW_WARM_REQUEST and BOOT_TIMEOUT (R454 to R466). -/
def Obligations.FirmwareServesTheMailboxAndStarts : Prop :=
  (∀ (s : State) (p : Fin 4) (j : Fin 32), s.chip.reaches (.pp p) FW.MBTAKE = true → s.chip.mbState j.val = 1 → ∃ t, Machine.exec (.mbtake (.pp p) j) s = .next t ∧ t.chip.mbState j.val = 2 ∧ t.chip.mbOwner j.val = p.val ∧ Effect s t id [mbFld false j.val, mbFld true j.val] [] [] []) ∧
  (∀ (s : State) (p : Fin 4) (j : Fin 32), s.chip.reaches (.pp p) FW.MBTAKE = true → s.chip.mbState j.val ≠ 1 → ∃ t, Machine.exec (.mbtake (.pp p) j) s = .next t ∧ Recorded s.chip t.chip FW.EVT_MBVIOF FW.EVTCNT_MBVIOCNT ∧
      Effect s t id [FW.EVT_MBVIOF, FW.EVTCNT_MBVIOCNT] [0x1e0] [⟨0x4020, p.val, 0⟩] []) ∧
  (∀ (s : State) (req : Requester) (j : Fin 32) (posts : List FwPost), s.chip.reaches req FW.MBTAKE = true → (∀ p : Fin 4, req ≠ .pp p) → (∃ t, Machine.exec (.mbtake req j) s = .next t ∧ t = s) ∧ ∃ t, Machine.exec (.mbdone req ⟨j, posts⟩) s = .next t ∧ t = s) ∧
  (∀ (s : State) (p : Fin 4) (j : Fin 32) (r : Fin 8) (b : HostCmd), s.chip.reaches (.pp p) FW.MBDONE = true → s.chip.mbState j.val = 2 → s.chip.mbOwner j.val = p.val → (s.chip.mail.get j.val).ring = some r.val → (s.chip.rings.get r.val).busy = some b → b.irq = false → b.nocpl = false → b.dead = false → b.slot ≠ none →
    s.chip.mbWaiting = none → s.chip.inD0 = true → s.chip.ringRuns (8 + b.cpl.val) = true → (s.chip.rings.get (8 + b.cpl.val)).loss = false → (s.chip.rings.get (8 + b.cpl.val)).unsig + 1 < orOne (s.chip.get (RING.MOD_MODCNT (8 + b.cpl.val))) → ∃ t, Machine.exec (.mbdone (.pp p) ⟨j, []⟩) s = .next t ∧
      t.chip.mbState j.val = 0 ∧ (t.chip.mail.get j.val).ring = none ∧ (t.chip.rings.get r.val).busy = none ∧ t.chip.outbox = s.chip.outbox ++ [.entry (8 + b.cpl.val) (s.chip.get (RING.DIDX_DIDX (8 + b.cpl.val))) (s.chip.entryAddr (8 + b.cpl.val) (s.chip.get (RING.DIDX_DIDX (8 + b.cpl.val)))) (bytesLE 1 b.opcode ++
          [if s.chip.mbox.get (128 * j.val + 65) = 0 ∨ s.chip.mbox.get (128 * j.val + 65) = 2 ∨ s.chip.mbox.get (128 * j.val + 65) = 3 then s.chip.mbox.get (128 * j.val + 65) else 2] ++ bytesLE 2 b.tag ++ bytesLE 1 r.val ++ [0, s.chip.mbox.get (128 * j.val + 70)] ++
          [BitVec.ofNat 8 (128 * (1 - s.chip.get (RING.DIDX_DIDX (8 + b.cpl.val)) / 2 ^ s.chip.get (RING.CFG_LOG2N (8 + b.cpl.val)) % 2))] ++ bytesLE 8 s.chip.now ++ (List.range 48).map fun i => s.chip.mbox.get (128 * j.val + 80 + i)),
        .writeback (8 + b.cpl.val) (s.chip.backAddr (8 + b.cpl.val)) ((s.chip.get (RING.DIDX_DIDX (8 + b.cpl.val)) + 1) % 2 ^ 32)] ∧ t.chip.faultQ = s.chip.faultQ ∧ Keeps s t (fun o => span 0x31000 0x312c0 o || o == (mbFld false j.val).off || o == (mbFld true j.val).off)) ∧
  (∀ (s : State) (p : Fin 4) (j : Fin 32), s.chip.reaches (.pp p) FW.MBDONE = true → s.chip.mbState j.val = 2 → s.chip.mbOwner j.val ≠ p.val → (s.chip.mail.get j.val).late ≠ some p.val → (s.chip.mail.get j.val).timedOut = false → ∃ t, Machine.exec (.mbdone (.pp p) ⟨j, []⟩) s = .next t ∧ Recorded s.chip t.chip FW.EVT_MBVIOF FW.EVTCNT_MBVIOCNT ∧
      Effect s t id [FW.EVT_MBVIOF, FW.EVTCNT_MBVIOCNT] [0x1e0] [⟨0x4020, p.val, 0⟩] []) ∧
  (∀ (s : State) (p : Fin 4) (j : Fin 32), s.chip.reaches (.pp p) FW.MBDONE = true → s.chip.mbState j.val ≠ 2 → (s.chip.mail.get j.val).late = some p.val → ∃ t, Machine.exec (.mbdone (.pp p) ⟨j, []⟩) s = .next t ∧ Recorded s.chip t.chip FW.EVT_LATEF FW.EVTCNT_LATECNT ∧
      Effect s t (fun c => { c with mail := c.mail.set j.val { c.mail.get j.val with late := none } }) [FW.EVT_LATEF, FW.EVTCNT_LATECNT] [0x1e0] [] []) ∧
  (∀ (s : State) (p : Fin 4) (j : Fin 32), s.chip.reaches (.pp p) FW.MBDONE = true → s.chip.mbState j.val ≠ 2 → (s.chip.mail.get j.val).timedOut = true → (s.chip.mail.get j.val).late = none → ∃ t, Machine.exec (.mbdone (.pp p) ⟨j, []⟩) s = .next t ∧ Recorded s.chip t.chip FW.EVT_LATEF FW.EVTCNT_LATECNT ∧
      Effect s t (fun c => { c with mail := c.mail.set j.val (c.mail.get j.val) }) [FW.EVT_LATEF, FW.EVTCNT_LATECNT] [0x1e0] [] []) ∧
  (∀ (s : State) (p : Fin 4) (j : Fin 32) (type : Fin 16) (inst : Byte) (body : List Byte) (i : Nat), s.chip.reaches (.pp p) FW.MBDONE = true → s.chip.ppRuns p.val = true → s.chip.mbState j.val = 0 → (s.chip.mail.get j.val).late = none → (s.chip.mail.get j.val).timedOut = false → body.length ≤ 48 →
    s.chip.domOn .host = true → s.chip.ringRuns evtRing = true → s.chip.inD0 = true → s.chip.ringFull evtRing = false → (s.chip.rings.get evtRing).loss = false → (s.chip.rings.get evtRing).unsig + 1 < orOne (s.chip.get (RING.MOD_MODCNT evtRing)) → s.chip.get (RING.DIDX_DIDX evtRing) = i →
    ∃ t, Machine.exec (.mbdone (.pp p) ⟨j, [.event type inst body]⟩) s = .next t ∧ t.chip.hif.evSeq = (s.chip.hif.evSeq + 1) % 2 ^ 16 ∧ t.chip.get (RING.DIDX_DIDX evtRing) = (i + 1) % 2 ^ 32 ∧
      t.chip.outbox = s.chip.outbox ++ [.entry evtRing i (s.chip.entryAddr evtRing i) (bytesLE 1 (0x10 + type.val) ++ [0] ++ bytesLE 2 s.chip.hif.evSeq ++ [inst, 0, 0, BitVec.ofNat 8 (128 * (1 - i / 2 ^ s.chip.get (RING.CFG_LOG2N evtRing) % 2))] ++ bytesLE 8 s.chip.now ++ padTo 48 body),
        .writeback evtRing (s.chip.backAddr evtRing) ((i + 1) % 2 ^ 32)] ∧ t.chip.faultQ = s.chip.faultQ ∧ Keeps s t (fun o => span 0x31200 0x31220 o)) ∧
  (∀ (s : State) (p : Fin 4) (j : Fin 32) (strm : Fin 4) (kind : Fin 16) (inst dec : Byte) (start : Nat) (words : List Word), s.chip.reaches (.pp p) FW.MBDONE = true → s.chip.ppRuns p.val = true → s.chip.mbState j.val = 0 → (s.chip.mail.get j.val).late = none → (s.chip.mail.get j.val).timedOut = false →
    s.chip.domOn .host = true → s.chip.ringRuns (telRing strm.val) = true → s.chip.inD0 = true → s.chip.ringFull (telRing strm.val) = false → (s.chip.rings.get (telRing strm.val)).loss = false → s.chip.hif.telQ.length < 64 → s.chip.telRoom = true →
    ∃ t, Machine.exec (.mbdone (.pp p) ⟨j, [.record strm kind inst dec start words]⟩) s = .next t ∧ (t.chip.streams.get strm.val).seq = ((s.chip.streams.get strm.val).seq + 1) % 2 ^ 16 ∧
      t.chip.hif.telQ = s.chip.hif.telQ ++ [⟨telRing strm.val, bytesLE 1 (0x10 + kind.val) ++ bytesLE 1 words.length ++ bytesLE 2 (s.chip.streams.get strm.val).seq ++ [inst, dec, 0, 0] ++ bytesLE 8 start ++ padTo 48 (words.flatMap fun w => bytesLE 4 w.toNat), false⟩] ∧
      t.chip.faultQ = s.chip.faultQ ∧ t.chip.outbox = s.chip.outbox ∧ Keeps s t (fun o => o == RING.STAT (telRing strm.val))) ∧
  (∀ (s : State) (p : Fin 4), s.chip.reaches (.pp p) FW.CTRL = true → s.chip.fw.bootAt ≠ none → s.chip.get FW.STAT_START = 2 → s.chip.boot.bootsel < 2 → bitAt s.chip.boot.raise s.chip.boot.bootsel = false → s.chip.fw.warmRing = none → ∃ t, Machine.exec (.bootok (.pp p)) s = .next t ∧ t.chip.get FW.STAT_START = 0 ∧
      t.chip.get FW.STAT_RUNSLOT = s.chip.boot.bootsel ∧ t.chip.get FW.STAT_FALLBK = 0 ∧ t.chip.get FW.CTRL_BOOTOK = 1 ∧ t.chip.fw = { s.chip.fw with bootAt := none } ∧ Recorded s.chip t.chip FW.EVT_WARMF FW.EVTCNT_WARMCNT ∧ t.chip.boot = s.chip.boot ∧ t.chip.faultQ = s.chip.faultQ ∧
      Keeps s t (fun o => span 0x38000 0x38100 o || hostSide o || span 0x31000 0x31400 o)) ∧
  (∀ (s : State) (p : Fin 4), s.chip.reaches (.pp p) FW.CTRL = true → s.chip.fw.bootAt ≠ none → s.chip.get FW.STAT_START = 2 → s.chip.boot.bootsel < 2 → bitAt s.chip.boot.raise s.chip.boot.bootsel = true → s.chip.fw.warmRing = none → ∃ t, Machine.exec (.bootok (.pp p)) s = .next t ∧
      t.chip.boot = { s.chip.boot with minsvn := max s.chip.boot.minsvn (fieldLE s.chip.fw.image 0x10 4), raise := setBitAt s.chip.boot.raise s.chip.boot.bootsel false } ∧ t.chip.get FW.STAT_RUNSLOT = s.chip.boot.bootsel ∧ t.chip.faultQ = s.chip.faultQ) ∧
  (∀ (s : State) (p : Fin 4), s.chip.reaches (.pp p) FW.CTRL = true → s.chip.fw.bootAt ≠ none → s.chip.get FW.STAT_START = 1 → s.chip.f4Held = false → bitAt s.chip.boot.raise (s.chip.get FW.STAT_RUNSLOT) = false → ∃ t, Machine.exec (.bootok (.pp p)) s = .next t ∧ t.chip.get FW.STAT_START = 0 ∧ t.chip.get FW.CTRL_BOOTOK = 1 ∧
      t.chip.get (failFld (s.chip.get FW.STAT_RUNSLOT)) = 0 ∧ t.chip.get FW.STAT_RUNSLOT = s.chip.get FW.STAT_RUNSLOT ∧ t.chip.fw.bootAt = none ∧ t.chip.boot = s.chip.boot) ∧
  (∀ (s : State) (p : Fin 4), s.chip.reaches (.pp p) FW.CTRL = true → s.chip.fw.bootAt = none → ∃ t, Machine.exec (.bootok (.pp p)) s = .next t ∧ t = s) ∧
  (∀ (s : State) (req : Requester), s.chip.reaches req FW.CTRL = true → (∀ p : Fin 4, req ≠ .pp p) → ∃ t, Machine.exec (.bootok req) s = .next t ∧ t = s) ∧
  (∀ (s : State) (req : Requester) (key : BitVec 16), s.chip.reaches req FW.CTRL = true → (key ≠ 0x57a2 ∨ s.chip.warmRefusal ≠ none) → ∃ t, Machine.exec (.fwWarmRequest req key) s = .next t ∧ t = s) ∧
  (∀ (s : State) (req : Requester), s.chip.reaches req FW.CTRL = true → s.chip.warmRefusal = none → s.chip.boot.bootsel < 2 → s.chip.authRes s.nvm s.chip.boot.bootsel = 0 → ∃ t, Machine.exec (.fwWarmRequest req 0x57a2) s = .next t ∧ t.chip.get FW.STAT_START = 2 ∧ t.chip.fw.released = true ∧ t.chip.fw.bootAt = some s.chip.now ∧
      t.chip.get FW.CTRL_BOOTOK = 0 ∧ t.chip.fw.image = slotHeader s.nvm s.chip.boot.bootsel ++ nvmBytes s.nvm (slotBase s.chip.boot.bootsel + 512) (fieldLE (slotHeader s.nvm s.chip.boot.bootsel) 0x14 4) ∧ 2 ∈ t.chip.flt.windows ∧ t.chip.boot = s.chip.boot ∧
      (∀ j : Fin 32, t.chip.mbState j.val = 0 ∨ s.chip.mbState j.val = 0) ∧ t.chip.faultQ = s.chip.faultQ ∧ Keeps s t (fun o => o == PWR.DOMSTAT || o == FLT.STAT || span 0x28000 0x30000 o || span 0x31000 0x312c0 o || o == HIF.LOST || span 0x38000 0x39100 o)) ∧
  (∀ (s : State) (cold : ColdIn) (a : Nat), s.chip.domOn .core = true → s.chip.inHoldup = false → s.chip.fw.bootAt = some a → a + 1000 * orOne (s.chip.get FW.BOOTTO_BOOTTO) ≤ s.chip.now → s.chip.get FW.STAT_START = 2 → s.chip.fw.prevSlot = s.chip.boot.bootsel → s.chip.fw.warmRing = none →
    ∃ t, Machine.exec (.bootTimeout cold) s = .next t ∧ t.chip.get FW.STAT_START = 3 ∧ Recorded s.chip t.chip FW.EVT_WFAILF FW.EVTCNT_WFAILCNT ∧ Effect s t (fun c => { c with fw := { c.fw with released := false, bootAt := none } }) [FW.STAT_START, FW.EVT_WFAILF, FW.EVTCNT_WFAILCNT] [0x1e0] [] []) ∧
  (∀ (s : State) (a : Nat) (nvmOk idOk : Bool) (n : Fin 257), s.chip.domOn .core = true → s.chip.inHoldup = false → s.chip.fw.bootAt = some a → a + 1000 * orOne (s.chip.get FW.BOOTTO_BOOTTO) ≤ s.chip.now → s.chip.get FW.STAT_START = 1 → s.chip.get THMA.SDSTAT_STATE = 0 → ∃ t, Machine.exec (.bootTimeout ⟨false, nvmOk, idOk, n⟩) s = .next t ∧
      t.chip.get (failFld (s.chip.get FW.STAT_RUNSLOT)) = min 3 (s.chip.get (failFld (s.chip.get FW.STAT_RUNSLOT)) + 1) ∧ t.chip.get FW.STAT_HOLD = 1 ∧ t.chip.get FW.STAT_HOLDRSN = 2 ∧ t.chip.faultQ = [⟨0x2701, s.chip.get FW.STAT_RUNSLOT, 0xf⟩, ⟨0x2702, 0, 0⟩] ∧ t.chip.fw.released = false ∧ t.nvm = s.nvm ∧ t.pending = s.pending) ∧
  (∀ (s : State) (cold : ColdIn), (s.chip.fw.bootAt = none ∨ s.chip.now < s.chip.fw.bootAt.getD 0 + 1000 * orOne (s.chip.get FW.BOOTTO_BOOTTO)) → ∃ t, Machine.exec (.bootTimeout cold) s = .next t ∧ t = s)

/-- STGCTL_GO, CMTCTL_GO, CMTCTL_DISCARD, NVM_LINE_WRITE and SCRUB_CHECK (R484 to R498). What a line that did not read back holds is a free value. -/
def Obligations.TilesAreStagedWrittenAndScrubbed : Prop :=
  (∀ (s : State) (req : Requester) (kind : Fin 16) (index : Fin 8192), s.chip.reaches req TILE.STGCTL = true → s.chip.stageRefusal kind.val index.val s.chip.sbuf (s.chip.reg TILE.SCHK) = none → ∃ t, Machine.exec (.stgctlGo req kind index) s = .next t ∧ t.chip.get TILE.STGST_STATUS = 1 ∧ t.chip.get TILE.STGST_REASON = 0 ∧
      t.chip.store.jobs = s.chip.store.jobs ++ [⟨.tile, .stage kind.val index.val (s.chip.stagePlace kind.val index.val) none, lines (stageAddr kind.val (s.chip.stagePlace kind.val index.val)) (frameBytes s.chip.sbuf (s.chip.reg TILE.SCHK) (s.chip.epoch + 1)), s.chip.now⟩] ∧
      t.chip.store.staged = (s.chip.store.staged.filter fun x => !(x.kind == kind.val && x.index == index.val)) ∧ t.chip.store.committed = s.chip.store.committed ∧ t.chip.faultQ = s.chip.faultQ ∧ t.chip.outbox = s.chip.outbox ∧ Keeps s t (fun o => o == TILE.STGST || o == TILE.STGCTL || span 0x23000 0x23200 o)) ∧
  (∀ (s : State) (req : Requester) (kind : Fin 16) (index : Fin 8192) (r : Nat), s.chip.reaches req TILE.STGCTL = true → s.chip.stageRefusal kind.val index.val s.chip.sbuf (s.chip.reg TILE.SCHK) = some r → ∃ t, Machine.exec (.stgctlGo req kind index) s = .next t ∧ t.chip.get TILE.STGST_STATUS = 3 ∧ t.chip.get TILE.STGST_REASON = r ∧
      t.chip.inner = s.chip.inner ∧ t.chip.faultQ = s.chip.faultQ ∧ t.chip.outbox = s.chip.outbox ∧ Keeps s t (fun o => o == TILE.STGST || o == TILE.STGCTL)) ∧
  (∀ (s : State) (req : Requester), s.chip.reaches req TILE.CMTCTL = true → (s.chip.stageBusy = true ∨ s.chip.store.staged = []) → ∃ t, Machine.exec (.cmtctlGo req) s = .next t ∧ t.chip.get TILE.CMTST_STATUS = 5 ∧ t.chip.get TILE.CMTST_REASON = (if s.chip.stageBusy then 0x16 else 0x20) ∧ t.chip.get TILE.CMTST_POS = 0x1ff ∧
      Recorded s.chip t.chip TILE.EVT_CREFF TILE.EVTCNT_CREFCNT ∧ Effect s t id [TILE.CMTST_STATUS, TILE.CMTST_REASON, TILE.CMTST_POS, TILE.EVT_CREFF, TILE.EVTCNT_CREFCNT] [0x1e8] [] []) ∧
  (∀ (s : State) (req : Requester), s.chip.reaches req TILE.CMTCTL = true → s.chip.stageBusy = false → s.chip.store.staged ≠ [] → s.chip.commitFailure s.nvm = none → ∃ t, Machine.exec (.cmtctlGo req) s = .next t ∧ t.chip.get TILE.CMTST_STATUS = (if s.chip.bit THM.STAT_WINOPEN then 3 else 2) ∧ t.chip.get TILE.CMTST_REASON = 0 ∧
      t.chip.store.staged = s.chip.store.staged ∧ t.chip.store.committed = s.chip.store.committed ∧ t.chip.epoch = s.chip.epoch ∧ (t.chip.store.commit.map fun r => (r.ring, r.tiles, r.digest)) = some (none, stagedConfig s.chip s.nvm, cfgDigest (stagedConfig s.chip s.nvm)) ∧
      ((t.chip.store.jobs.drop s.chip.store.jobs.length).map fun j => (j.writer, j.kind)) = [(.tile, .record)] ∧ t.chip.faultQ = s.chip.faultQ ∧ t.chip.outbox = s.chip.outbox ∧ Keeps s t (fun o => o == TILE.CMTST || span 0x23000 0x23200 o)) ∧
  (∀ (s : State) (req : Requester), s.chip.reaches req TILE.CMTCTL = true → s.chip.stageBusy = false → ∃ t, Machine.exec (.cmtctlDiscard req) s = .next t ∧ t.chip.get TILE.STGST_NSM = 0 ∧ t.chip.get TILE.STGST_NSTG = 0 ∧
      Effect s t (fun c => c.storeUpd fun h => { h with staged := [] }) [TILE.STGST_NSM, TILE.STGST_NSTG] [] [] []) ∧
  (∀ (s : State) (w : Writer) (l : NvmLine) (j : NvmJob) (ok : BitVec 128), s.chip.nvmReady = true → s.chip.rateOk = true → s.chip.nextWriter = some w → w ≠ .log → s.chip.jobOf w = some j → j.lines.head? = some l → 2 ≤ j.lines.length → ∃ t, Machine.exec (.nvmLineWrite ⟨true, ok⟩) s = .next t ∧
      (∀ a ∈ List.range 64, nvmByte t.nvm (l.addr + a) = if a < l.data.length then l.data.getD a 0 else nvmByte s.nvm (l.addr + a)) ∧ (∀ a : Nat, (a < l.addr ∨ l.addr + l.data.length ≤ a) → nvmByte t.nvm a = nvmByte s.nvm a) ∧ t.pending = s.pending ∧
      t.chip.get NVM.WRCNT_COUNT = (s.chip.get NVM.WRCNT_COUNT + 1) % 2 ^ 32 ∧ (t.chip.jobOf w).map (·.lines) = some j.lines.tail ∧ t.chip.store.tries = 0 ∧ t.chip.store.lineAt = some s.chip.now ∧ t.chip.store.staged = s.chip.store.staged ∧ t.chip.store.logBuf = s.chip.store.logBuf ∧ t.chip.faultQ = s.chip.faultQ ∧ t.chip.outbox = s.chip.outbox ∧
      (∀ o, o ≠ NVM.WRCNT → o ≠ TILE.CMTST → t.chip.reg o = s.chip.reg o)) ∧
  (∀ (s : State) (w : Writer) (l : NvmLine) (ok : BitVec 128), s.chip.nvmReady = true → s.chip.rateOk = true → s.chip.nextWriter = some w → s.chip.frontLine w = some l → s.chip.store.tries < 3 → ∃ t, Machine.exec (.nvmLineWrite ⟨false, ok⟩) s = .next t ∧
      (∀ a : Nat, (a < l.addr ∨ l.addr + l.data.length ≤ a) → nvmByte t.nvm a = nvmByte s.nvm a) ∧ t.pending = s.pending ∧ t.chip.store = { s.chip.store with tries := s.chip.store.tries + 1, trying := some w, lineAt := some s.chip.now } ∧ t.chip.faultQ = s.chip.faultQ ∧ t.chip.outbox = s.chip.outbox ∧ (∀ o, t.chip.reg o = s.chip.reg o)) ∧
  (∀ (s : State) (ok : BitVec 128), s.chip.nvmReady = true → s.chip.rateOk = true → s.chip.nextWriter = some .log → s.chip.store.logBuf ≠ [] → s.chip.store.tries = 3 → ∃ t, Machine.exec (.nvmLineWrite ⟨false, ok⟩) s = .next t ∧ Recorded s.chip t.chip NVM.EVT_VERFF NVM.EVTCNT_VERFCNT ∧ t.chip.store.logFailed = true ∧ t.chip.store.logBuf = s.chip.store.logBuf.map LogRec.buffered ∧
      t.chip.store.tries = 0 ∧ t.chip.faultQ = s.chip.faultQ ++ [⟨0x2502, 0, 0⟩, ⟨0x2503, 0, 0⟩] ∧ (∀ o, o ≠ NVM.EVT → o ≠ NVM.EVTCNT → t.chip.reg o = s.chip.reg o)) ∧
  (∀ (s : State) (good : Bool) (ok : BitVec 128), (s.chip.nvmReady = false ∨ s.chip.rateOk = false ∨ s.chip.nextWriter = none) → ∃ t, Machine.exec (.nvmLineWrite ⟨good, ok⟩) s = .next t ∧ t = s) ∧
  (∀ (s : State) (nvmOk : Bool), s.chip.domOn .core = true → s.chip.domOn .nvm = true → s.chip.inHoldup = false → s.chip.flt.inj = none → s.chip.store.scrubPos = 14679 → s.chip.dieOn 7 = true → ∃ t, Machine.exec (.scrubCheck nvmOk true) s = .next t ∧ Effect s t (fun c => { c with store := { c.store with scrubPos := 14680 } }) [] [] [] []) ∧
  (∀ (s : State) (nvmOk : Bool), s.chip.domOn .core = true → s.chip.domOn .nvm = true → s.chip.inHoldup = false → s.chip.flt.inj = none → 7513 ≤ s.chip.store.scrubPos → s.chip.scrubFrom s.chip.store.scrubPos = some 14680 → ∃ t, Machine.exec (.scrubCheck nvmOk true) s = .next t ∧ Recorded s.chip t.chip NVM.EVT_SCRPF NVM.EVTCNT_SCRPCNT ∧
      Effect s t (fun c => { c with store := { c.store with scrubPos := 0 } }) [NVM.EVT_SCRPF, NVM.EVTCNT_SCRPCNT] [0x1e9] [] []) ∧
  (∀ (s : State) (nvmOk copyOk : Bool), s.chip.domOn .core = true → s.chip.domOn .nvm = true → s.chip.inHoldup = false → 7513 ≤ s.chip.store.scrubPos → s.chip.scrubFrom s.chip.store.scrubPos = none → ∃ t, Machine.exec (.scrubCheck nvmOk copyOk) s = .next t ∧ Recorded s.chip t.chip NVM.EVT_SCRPF NVM.EVTCNT_SCRPCNT ∧
      Effect s t (fun c => { c with store := { c.store with scrubPos := 0 } }) [NVM.EVT_SCRPF, NVM.EVTCNT_SCRPCNT] [0x1e9] [] []) ∧
  (∀ (s : State), s.chip.domOn .core = true → s.chip.domOn .nvm = true → s.chip.inHoldup = false → s.chip.flt.inj = none → s.chip.store.scrubPos = 7376 → s.chip.scrubs (.map 7167) = true → s.chip.dieOn 7 = true → ∃ t, Machine.exec (.scrubCheck false false) s = .next t ∧ Recorded s.chip t.chip TILE.EVT_SCRMF TILE.EVTCNT_SCRMCNT ∧
      Effect s t (fun c => { c with store := { c.store with scrubPos := 7377 } }) [TILE.EVT_SCRMF, TILE.EVTCNT_SCRMCNT] [0x1e8] [⟨0x2501, 6, BitVec.ofNat 32 (7167 * 2 ^ 16 + 4)⟩, ⟨0x4500, 6, BitVec.ofNat 32 (7167 * 2 ^ 16 + 4)⟩] [])

/-- REGISTER_WRITE, W1C_CLEAR, COUNTER_CLEAR and NVM_RDDATA_READ (R13, R85, R415, R501, R505 to R509). -/
def Obligations.RegistersAreWrittenByTheirCodes : Prop :=
  (∀ (s : State) (req : Requester) (off : BitVec 21) (value : Word) (cold : ColdIn), s.chip.reaches req off.toNat = true → s.chip.flt.coldHeld = false → s.chip.get ACC.ACCST_LOCKED = 0 → fieldsOnly off.toNat = true → (regAt off.toNat).isSome = true → off.toNat % 4 = 0 → (cntClears off.toNat).isNone = true →
    ∃ t, Machine.exec (.registerWrite req off value cold) s = .next t ∧ t.chip.reg off.toNat = (((s.chip.reg off.toNat &&& ~~~(pairMask off.toNat)) ||| (value &&& pairMask off.toNat)) &&& ~~~(accMask off.toNat (· == .w1c) &&& value)) ∧
      t.chip.inner = s.chip.inner ∧ t.chip.faultQ = s.chip.faultQ ∧ t.chip.outbox = s.chip.outbox ∧ Keeps s t (fun o => o == off.toNat)) ∧
  (∀ (s : State) (req : Requester) (off : BitVec 21) (value : Word) (cold : ColdIn), s.chip.reaches req off.toNat = true → s.chip.flt.coldHeld = false → s.chip.get ACC.ACCST_LOCKED = 1 → fieldsOnly off.toNat = true → (regAt off.toNat).isSome = true → off.toNat % 4 = 0 → (cntClears off.toNat).isNone = true →
    (s.chip.reg off.toNat ^^^ value) &&& lockMask off.toNat ≠ 0 → ∃ t, Machine.exec (.registerWrite req off value cold) s = .next t ∧ t.chip.reg off.toNat = (((s.chip.reg off.toNat &&& ~~~(accMask off.toNat (· == .rw))) ||| (value &&& accMask off.toNat (· == .rw))) &&& ~~~(accMask off.toNat (· == .w1c) &&& value)) ∧ Recorded s.chip t.chip ACC.ACCST_LOCKF ACC.ACCCNT_LOCKCNT ∧
      t.chip.get ACC.ACCST_LASTOFS = off.toNat ∧ t.chip.inner = s.chip.inner ∧ t.chip.faultQ = s.chip.faultQ ∧ t.chip.outbox = s.chip.outbox ∧ Keeps s t (fun o => o == off.toNat || o == ACC.ACCST || o == ACC.ACCCNT)) ∧
  (∀ (s : State) (req : Requester) (off : BitVec 21) (value : Word) (cold : ColdIn), s.chip.reaches req off.toNat = true → s.chip.flt.coldHeld = false → s.chip.get ACC.ACCST_LOCKED = 1 → fieldsOnly off.toNat = true → (regAt off.toNat).isSome = true → off.toNat % 4 = 0 → (cntClears off.toNat).isNone = true →
    (s.chip.reg off.toNat ^^^ value) &&& lockMask off.toNat = 0 → ∃ t, Machine.exec (.registerWrite req off value cold) s = .next t ∧ t.chip.reg off.toNat = (((s.chip.reg off.toNat &&& ~~~(accMask off.toNat (· == .rw))) ||| (value &&& accMask off.toNat (· == .rw))) &&& ~~~(accMask off.toNat (· == .w1c) &&& value)) ∧
      t.chip.inner = s.chip.inner ∧ t.chip.faultQ = s.chip.faultQ ∧ t.chip.outbox = s.chip.outbox ∧ Keeps s t (fun o => o == off.toNat)) ∧
  (∀ (s : State) (req : Requester) (off : BitVec 21) (value : Word) (cold : ColdIn), s.chip.reqUp req = true → s.chip.mayWrite req = true → (req ≠ .pcie ∨ s.chip.get HIF.CTRL_EN = 0) → s.chip.flt.coldHeld = false → s.chip.offAt off.toNat = true → off.toNat % 4 = 0 → inMsix off.toNat = false → inMailbox off.toNat = false →
    ∃ t, Machine.exec (.registerWrite req off value cold) s = .next t ∧ Recorded s.chip t.chip ACC.ACCST_OFFF ACC.ACCCNT_OFFCNT ∧ t.chip.get ACC.ACCST_LASTOFS = off.toNat ∧ Effect s t id [ACC.ACCST_OFFF, ACC.ACCCNT_OFFCNT, ACC.ACCST_LASTOFS] [] [] []) ∧
  (∀ (s : State) (req : Requester) (off : BitVec 21) (value : Word) (cold : ColdIn), s.chip.reqUp req = true → s.chip.mayWrite req = true → (req ≠ .pcie ∨ s.chip.get HIF.CTRL_EN = 0) → s.chip.flt.coldHeld = false → (off.toNat % 4 ≠ 0 ∨ regAt off.toNat = none ∧ inMsix off.toNat = false ∧ inMailbox off.toNat = false) →
    ∃ t, Machine.exec (.registerWrite req off value cold) s = .next t ∧ Recorded s.chip t.chip ACC.ACCST_RSVF ACC.ACCCNT_RSVCNT ∧ t.chip.get ACC.ACCST_LASTOFS = off.toNat ∧ Effect s t id [ACC.ACCST_RSVF, ACC.ACCCNT_RSVCNT, ACC.ACCST_LASTOFS] [] [] []) ∧
  (∀ (s : State) (off : BitVec 21) (value : Word) (cold : ColdIn), s.chip.reqUp .pcie = true → s.chip.get HIF.CTRL_EN = 1 → mmioFree off.toNat = false → s.chip.flt.coldHeld = false → ∃ t, Machine.exec (.registerWrite .pcie off value cold) s = .next t ∧ Recorded s.chip t.chip HIF.EVT_MMIOREFF HIF.EVTCNT_MMIOREFCNT ∧
      Effect s t id [HIF.EVT_MMIOREFF, HIF.EVTCNT_MMIOREFCNT] [0xe0] [] []) ∧
  (∀ (s : State) (req : Requester) (off : BitVec 21) (value : Word) (cold : ColdIn), s.chip.mayWrite req = false → s.chip.flt.coldHeld = false → ∃ t, Machine.exec (.registerWrite req off value cold) s = .next t ∧ t = s) ∧
  (∀ (s : State) (req : Requester) (off : BitVec 21) (value : Word), s.chip.reaches req off.toNat = true → (regAt off.toNat).isSome = true → off.toNat % 4 = 0 → accMask off.toNat (· == .w1c) ≠ 0 → value &&& ~~~(accMask off.toNat (· == .w1c) ||| pairMask off.toNat) = 0 → (value ^^^ s.chip.reg off.toNat) &&& pairMask off.toNat = 0 →
    ∃ t, Machine.exec (.w1cClear req off value) s = .next t ∧ t.chip.reg off.toNat = s.chip.reg off.toNat &&& ~~~(value &&& accMask off.toNat (· == .w1c)) ∧
      t.chip.inner = s.chip.inner ∧ t.chip.faultQ = s.chip.faultQ ∧ t.chip.outbox = s.chip.outbox ∧ Keeps s t (fun o => o == off.toNat)) ∧
  (∀ (s : State) (req : Requester) (off : BitVec 21) (b : Nat) (cs : List Fld), s.chip.reaches req off.toNat = true → (inPP off.toNat && s.chip.polAsleep) = false → (regAt off.toNat).isSome = true → off.toNat % 4 = 0 → cntClears off.toNat = some (b, cs) →
    ∃ t, Machine.exec (.counterClear req off ((s.chip.reg off.toNat &&& pairMask off.toNat) ||| fieldMask b 1)) s = .next t ∧ (∀ f ∈ cs, t.chip.get f = 0) ∧
      Effect s t id cs [] [] []) ∧
  (∀ (s : State) (req : Requester), s.chip.reqUp req = true → s.chip.domOn .nvm = true → ∃ t, Machine.exec (.nvmRddataRead req) s = .next t ∧ t.chip.get NVM.RDADDR_ADDR = (s.chip.get NVM.RDADDR_ADDR + 1) % 2 ^ NVM.RDADDR_ADDR.width ∧
      Effect s t id [NVM.RDADDR_ADDR] [] [] [.data req NVM.RDDATA (nvmWord s.nvm (4 * s.chip.get NVM.RDADDR_ADDR)) true])
end

