-- ==== Sys2Proof/Laws/State.lean ====
section
/-! SUPPORT. What each update of the state leaves alone: one lemma for each field. -/

namespace Sys2Proof.Machine

-- setReg
@[simp] theorem setReg_time (c : Chip) (o : Nat) (w : Word) : (c.setReg o w).time = c.time := rfl
@[simp] theorem setReg_power (c : Chip) (o : Nat) (w : Word) : (c.setReg o w).power = c.power := rfl
@[simp] theorem setReg_dies (c : Chip) (o : Nat) (w : Word) : (c.setReg o w).dies = c.dies := rfl
@[simp] theorem setReg_discards (c : Chip) (o : Nat) (w : Word) : (c.setReg o w).discards = c.discards := rfl
@[simp] theorem setReg_grid (c : Chip) (o : Nat) (w : Word) : (c.setReg o w).grid = c.grid := rfl
@[simp] theorem setReg_laneTurn (c : Chip) (o : Nat) (w : Word) : (c.setReg o w).laneTurn = c.laneTurn := rfl
@[simp] theorem setReg_snap (c : Chip) (o : Nat) (w : Word) : (c.setReg o w).snap = c.snap := rfl
@[simp] theorem setReg_bellOrder (c : Chip) (o : Nat) (w : Word) : (c.setReg o w).bellOrder = c.bellOrder := rfl
@[simp] theorem setReg_faultQ (c : Chip) (o : Nat) (w : Word) : (c.setReg o w).faultQ = c.faultQ := rfl
@[simp] theorem setReg_bells (c : Chip) (o : Nat) (w : Word) : (c.setReg o w).bells = c.bells := rfl
@[simp] theorem setReg_outbox (c : Chip) (o : Nat) (w : Word) : (c.setReg o w).outbox = c.outbox := rfl
@[simp] theorem setReg_freeCtr (c : Chip) (o : Nat) (w : Word) : (c.setReg o w).freeCtr = c.freeCtr := rfl
@[simp] theorem setReg_loops (c : Chip) (o : Nat) (w : Word) : (c.setReg o w).loops = c.loops := rfl
@[simp] theorem setReg_tunes (c : Chip) (o : Nat) (w : Word) : (c.setReg o w).tunes = c.tunes := rfl
@[simp] theorem setReg_shadows (c : Chip) (o : Nat) (w : Word) : (c.setReg o w).shadows = c.shadows := rfl
@[simp] theorem setReg_coefs (c : Chip) (o : Nat) (w : Word) : (c.setReg o w).coefs = c.coefs := rfl
@[simp] theorem setReg_loopCmds (c : Chip) (o : Nat) (w : Word) : (c.setReg o w).loopCmds = c.loopCmds := rfl
@[simp] theorem setReg_gens (c : Chip) (o : Nat) (w : Word) : (c.setReg o w).gens = c.gens := rfl
@[simp] theorem setReg_holds (c : Chip) (o : Nat) (w : Word) : (c.setReg o w).holds = c.holds := rfl
@[simp] theorem setReg_lastTag (c : Chip) (o : Nat) (w : Word) : (c.setReg o w).lastTag = c.lastTag := rfl
@[simp] theorem setReg_phases (c : Chip) (o : Nat) (w : Word) : (c.setReg o w).phases = c.phases := rfl
@[simp] theorem setReg_switches (c : Chip) (o : Nat) (w : Word) : (c.setReg o w).switches = c.switches := rfl
@[simp] theorem setReg_loopPh (c : Chip) (o : Nat) (w : Word) : (c.setReg o w).loopPh = c.loopPh := rfl
@[simp] theorem setReg_lanes (c : Chip) (o : Nat) (w : Word) : (c.setReg o w).lanes = c.lanes := rfl
@[simp] theorem setReg_means (c : Chip) (o : Nat) (w : Word) : (c.setReg o w).means = c.means := rfl
@[simp] theorem setReg_mapBytes (c : Chip) (o : Nat) (w : Word) : (c.setReg o w).mapBytes = c.mapBytes := rfl
@[simp] theorem setReg_dirtyTiles (c : Chip) (o : Nat) (w : Word) : (c.setReg o w).dirtyTiles = c.dirtyTiles := rfl
@[simp] theorem setReg_stbLanes (c : Chip) (o : Nat) (w : Word) : (c.setReg o w).stbLanes = c.stbLanes := rfl
@[simp] theorem setReg_badTiles (c : Chip) (o : Nat) (w : Word) : (c.setReg o w).badTiles = c.badTiles := rfl
@[simp] theorem setReg_stgWarm (c : Chip) (o : Nat) (w : Word) : (c.setReg o w).stgWarm = c.stgWarm := rfl
@[simp] theorem setReg_pollDue (c : Chip) (o : Nat) (w : Word) : (c.setReg o w).pollDue = c.pollDue := rfl
@[simp] theorem setReg_sumLanes (c : Chip) (o : Nat) (w : Word) : (c.setReg o w).sumLanes = c.sumLanes := rfl
@[simp] theorem setReg_sums (c : Chip) (o : Nat) (w : Word) : (c.setReg o w).sums = c.sums := rfl
@[simp] theorem setReg_renewed (c : Chip) (o : Nat) (w : Word) : (c.setReg o w).renewed = c.renewed := rfl
@[simp] theorem setReg_sqs (c : Chip) (o : Nat) (w : Word) : (c.setReg o w).sqs = c.sqs := rfl
@[simp] theorem setReg_senseRes (c : Chip) (o : Nat) (w : Word) : (c.setReg o w).senseRes = c.senseRes := rfl
@[simp] theorem setReg_satRuns (c : Chip) (o : Nat) (w : Word) : (c.setReg o w).satRuns = c.satRuns := rfl
@[simp] theorem setReg_hintHw (c : Chip) (o : Nat) (w : Word) : (c.setReg o w).hintHw = c.hintHw := rfl
@[simp] theorem setReg_avsHw (c : Chip) (o : Nat) (w : Word) : (c.setReg o w).avsHw = c.avsHw := rfl
@[simp] theorem setReg_bud (c : Chip) (o : Nat) (w : Word) : (c.setReg o w).bud = c.bud := rfl
@[simp] theorem setReg_hsw (c : Chip) (o : Nat) (w : Word) : (c.setReg o w).hsw = c.hsw := rfl
@[simp] theorem setReg_asks (c : Chip) (o : Nat) (w : Word) : (c.setReg o w).asks = c.asks := rfl
@[simp] theorem setReg_drops (c : Chip) (o : Nat) (w : Word) : (c.setReg o w).drops = c.drops := rfl
@[simp] theorem setReg_dones (c : Chip) (o : Nat) (w : Word) : (c.setReg o w).dones = c.dones := rfl
@[simp] theorem setReg_rails (c : Chip) (o : Nat) (w : Word) : (c.setReg o w).rails = c.rails := rfl
@[simp] theorem setReg_doms (c : Chip) (o : Nat) (w : Word) : (c.setReg o w).doms = c.doms := rfl
@[simp] theorem setReg_seq (c : Chip) (o : Nat) (w : Word) : (c.setReg o w).seq = c.seq := rfl
@[simp] theorem setReg_undet (c : Chip) (o : Nat) (w : Word) : (c.setReg o w).undet = c.undet := rfl
@[simp] theorem setReg_ents (c : Chip) (o : Nat) (w : Word) : (c.setReg o w).ents = c.ents := rfl
@[simp] theorem setReg_flt (c : Chip) (o : Nat) (w : Word) : (c.setReg o w).flt = c.flt := rfl
@[simp] theorem setReg_therm (c : Chip) (o : Nat) (w : Word) : (c.setReg o w).therm = c.therm := rfl
@[simp] theorem setReg_srcs (c : Chip) (o : Nat) (w : Word) : (c.setReg o w).srcs = c.srcs := rfl
@[simp] theorem setReg_groupStart (c : Chip) (o : Nat) (w : Word) : (c.setReg o w).groupStart = c.groupStart := rfl
@[simp] theorem setReg_evh (c : Chip) (o : Nat) (w : Word) : (c.setReg o w).evh = c.evh := rfl
@[simp] theorem setReg_rings (c : Chip) (o : Nat) (w : Word) : (c.setReg o w).rings = c.rings := rfl
@[simp] theorem setReg_hif (c : Chip) (o : Nat) (w : Word) : (c.setReg o w).hif = c.hif := rfl
@[simp] theorem setReg_tels (c : Chip) (o : Nat) (w : Word) : (c.setReg o w).tels = c.tels := rfl
@[simp] theorem setReg_streams (c : Chip) (o : Nat) (w : Word) : (c.setReg o w).streams = c.streams := rfl
@[simp] theorem setReg_pmb (c : Chip) (o : Nat) (w : Word) : (c.setReg o w).pmb = c.pmb := rfl
@[simp] theorem setReg_mctp (c : Chip) (o : Nat) (w : Word) : (c.setReg o w).mctp = c.mctp := rfl
@[simp] theorem setReg_fw (c : Chip) (o : Nat) (w : Word) : (c.setReg o w).fw = c.fw := rfl
@[simp] theorem setReg_mail (c : Chip) (o : Nat) (w : Word) : (c.setReg o w).mail = c.mail := rfl
@[simp] theorem setReg_mbox (c : Chip) (o : Nat) (w : Word) : (c.setReg o w).mbox = c.mbox := rfl
@[simp] theorem setReg_store (c : Chip) (o : Nat) (w : Word) : (c.setReg o w).store = c.store := rfl
@[simp] theorem setReg_boot (c : Chip) (o : Nat) (w : Word) : (c.setReg o w).boot = c.boot := rfl

-- put
@[simp] theorem put_time (c : Chip) (f : Fld) (v : Nat) : (c.put f v).time = c.time := rfl
@[simp] theorem put_power (c : Chip) (f : Fld) (v : Nat) : (c.put f v).power = c.power := rfl
@[simp] theorem put_dies (c : Chip) (f : Fld) (v : Nat) : (c.put f v).dies = c.dies := rfl
@[simp] theorem put_discards (c : Chip) (f : Fld) (v : Nat) : (c.put f v).discards = c.discards := rfl
@[simp] theorem put_grid (c : Chip) (f : Fld) (v : Nat) : (c.put f v).grid = c.grid := rfl
@[simp] theorem put_laneTurn (c : Chip) (f : Fld) (v : Nat) : (c.put f v).laneTurn = c.laneTurn := rfl
@[simp] theorem put_snap (c : Chip) (f : Fld) (v : Nat) : (c.put f v).snap = c.snap := rfl
@[simp] theorem put_bellOrder (c : Chip) (f : Fld) (v : Nat) : (c.put f v).bellOrder = c.bellOrder := rfl
@[simp] theorem put_faultQ (c : Chip) (f : Fld) (v : Nat) : (c.put f v).faultQ = c.faultQ := rfl
@[simp] theorem put_bells (c : Chip) (f : Fld) (v : Nat) : (c.put f v).bells = c.bells := rfl
@[simp] theorem put_outbox (c : Chip) (f : Fld) (v : Nat) : (c.put f v).outbox = c.outbox := rfl
@[simp] theorem put_freeCtr (c : Chip) (f : Fld) (v : Nat) : (c.put f v).freeCtr = c.freeCtr := rfl
@[simp] theorem put_loops (c : Chip) (f : Fld) (v : Nat) : (c.put f v).loops = c.loops := rfl
@[simp] theorem put_tunes (c : Chip) (f : Fld) (v : Nat) : (c.put f v).tunes = c.tunes := rfl
@[simp] theorem put_shadows (c : Chip) (f : Fld) (v : Nat) : (c.put f v).shadows = c.shadows := rfl
@[simp] theorem put_coefs (c : Chip) (f : Fld) (v : Nat) : (c.put f v).coefs = c.coefs := rfl
@[simp] theorem put_loopCmds (c : Chip) (f : Fld) (v : Nat) : (c.put f v).loopCmds = c.loopCmds := rfl
@[simp] theorem put_gens (c : Chip) (f : Fld) (v : Nat) : (c.put f v).gens = c.gens := rfl
@[simp] theorem put_holds (c : Chip) (f : Fld) (v : Nat) : (c.put f v).holds = c.holds := rfl
@[simp] theorem put_lastTag (c : Chip) (f : Fld) (v : Nat) : (c.put f v).lastTag = c.lastTag := rfl
@[simp] theorem put_phases (c : Chip) (f : Fld) (v : Nat) : (c.put f v).phases = c.phases := rfl
@[simp] theorem put_switches (c : Chip) (f : Fld) (v : Nat) : (c.put f v).switches = c.switches := rfl
@[simp] theorem put_loopPh (c : Chip) (f : Fld) (v : Nat) : (c.put f v).loopPh = c.loopPh := rfl
@[simp] theorem put_lanes (c : Chip) (f : Fld) (v : Nat) : (c.put f v).lanes = c.lanes := rfl
@[simp] theorem put_means (c : Chip) (f : Fld) (v : Nat) : (c.put f v).means = c.means := rfl
@[simp] theorem put_mapBytes (c : Chip) (f : Fld) (v : Nat) : (c.put f v).mapBytes = c.mapBytes := rfl
@[simp] theorem put_dirtyTiles (c : Chip) (f : Fld) (v : Nat) : (c.put f v).dirtyTiles = c.dirtyTiles := rfl
@[simp] theorem put_stbLanes (c : Chip) (f : Fld) (v : Nat) : (c.put f v).stbLanes = c.stbLanes := rfl
@[simp] theorem put_badTiles (c : Chip) (f : Fld) (v : Nat) : (c.put f v).badTiles = c.badTiles := rfl
@[simp] theorem put_stgWarm (c : Chip) (f : Fld) (v : Nat) : (c.put f v).stgWarm = c.stgWarm := rfl
@[simp] theorem put_pollDue (c : Chip) (f : Fld) (v : Nat) : (c.put f v).pollDue = c.pollDue := rfl
@[simp] theorem put_sumLanes (c : Chip) (f : Fld) (v : Nat) : (c.put f v).sumLanes = c.sumLanes := rfl
@[simp] theorem put_sums (c : Chip) (f : Fld) (v : Nat) : (c.put f v).sums = c.sums := rfl
@[simp] theorem put_renewed (c : Chip) (f : Fld) (v : Nat) : (c.put f v).renewed = c.renewed := rfl
@[simp] theorem put_sqs (c : Chip) (f : Fld) (v : Nat) : (c.put f v).sqs = c.sqs := rfl
@[simp] theorem put_senseRes (c : Chip) (f : Fld) (v : Nat) : (c.put f v).senseRes = c.senseRes := rfl
@[simp] theorem put_satRuns (c : Chip) (f : Fld) (v : Nat) : (c.put f v).satRuns = c.satRuns := rfl
@[simp] theorem put_hintHw (c : Chip) (f : Fld) (v : Nat) : (c.put f v).hintHw = c.hintHw := rfl
@[simp] theorem put_avsHw (c : Chip) (f : Fld) (v : Nat) : (c.put f v).avsHw = c.avsHw := rfl
@[simp] theorem put_bud (c : Chip) (f : Fld) (v : Nat) : (c.put f v).bud = c.bud := rfl
@[simp] theorem put_hsw (c : Chip) (f : Fld) (v : Nat) : (c.put f v).hsw = c.hsw := rfl
@[simp] theorem put_asks (c : Chip) (f : Fld) (v : Nat) : (c.put f v).asks = c.asks := rfl
@[simp] theorem put_drops (c : Chip) (f : Fld) (v : Nat) : (c.put f v).drops = c.drops := rfl
@[simp] theorem put_dones (c : Chip) (f : Fld) (v : Nat) : (c.put f v).dones = c.dones := rfl
@[simp] theorem put_rails (c : Chip) (f : Fld) (v : Nat) : (c.put f v).rails = c.rails := rfl
@[simp] theorem put_doms (c : Chip) (f : Fld) (v : Nat) : (c.put f v).doms = c.doms := rfl
@[simp] theorem put_seq (c : Chip) (f : Fld) (v : Nat) : (c.put f v).seq = c.seq := rfl
@[simp] theorem put_undet (c : Chip) (f : Fld) (v : Nat) : (c.put f v).undet = c.undet := rfl
@[simp] theorem put_ents (c : Chip) (f : Fld) (v : Nat) : (c.put f v).ents = c.ents := rfl
@[simp] theorem put_flt (c : Chip) (f : Fld) (v : Nat) : (c.put f v).flt = c.flt := rfl
@[simp] theorem put_therm (c : Chip) (f : Fld) (v : Nat) : (c.put f v).therm = c.therm := rfl
@[simp] theorem put_srcs (c : Chip) (f : Fld) (v : Nat) : (c.put f v).srcs = c.srcs := rfl
@[simp] theorem put_groupStart (c : Chip) (f : Fld) (v : Nat) : (c.put f v).groupStart = c.groupStart := rfl
@[simp] theorem put_evh (c : Chip) (f : Fld) (v : Nat) : (c.put f v).evh = c.evh := rfl
@[simp] theorem put_rings (c : Chip) (f : Fld) (v : Nat) : (c.put f v).rings = c.rings := rfl
@[simp] theorem put_hif (c : Chip) (f : Fld) (v : Nat) : (c.put f v).hif = c.hif := rfl
@[simp] theorem put_tels (c : Chip) (f : Fld) (v : Nat) : (c.put f v).tels = c.tels := rfl
@[simp] theorem put_streams (c : Chip) (f : Fld) (v : Nat) : (c.put f v).streams = c.streams := rfl
@[simp] theorem put_pmb (c : Chip) (f : Fld) (v : Nat) : (c.put f v).pmb = c.pmb := rfl
@[simp] theorem put_mctp (c : Chip) (f : Fld) (v : Nat) : (c.put f v).mctp = c.mctp := rfl
@[simp] theorem put_fw (c : Chip) (f : Fld) (v : Nat) : (c.put f v).fw = c.fw := rfl
@[simp] theorem put_mail (c : Chip) (f : Fld) (v : Nat) : (c.put f v).mail = c.mail := rfl
@[simp] theorem put_mbox (c : Chip) (f : Fld) (v : Nat) : (c.put f v).mbox = c.mbox := rfl
@[simp] theorem put_store (c : Chip) (f : Fld) (v : Nat) : (c.put f v).store = c.store := rfl
@[simp] theorem put_boot (c : Chip) (f : Fld) (v : Nat) : (c.put f v).boot = c.boot := rfl

-- bell
@[simp] theorem bell_regs (c : Chip) (i : Nat) : (c.bell i).regs = c.regs := rfl
@[simp] theorem bell_time (c : Chip) (i : Nat) : (c.bell i).time = c.time := rfl
@[simp] theorem bell_power (c : Chip) (i : Nat) : (c.bell i).power = c.power := rfl
@[simp] theorem bell_dies (c : Chip) (i : Nat) : (c.bell i).dies = c.dies := rfl
@[simp] theorem bell_discards (c : Chip) (i : Nat) : (c.bell i).discards = c.discards := rfl
@[simp] theorem bell_grid (c : Chip) (i : Nat) : (c.bell i).grid = c.grid := rfl
@[simp] theorem bell_laneTurn (c : Chip) (i : Nat) : (c.bell i).laneTurn = c.laneTurn := rfl
@[simp] theorem bell_snap (c : Chip) (i : Nat) : (c.bell i).snap = c.snap := rfl
@[simp] theorem bell_faultQ (c : Chip) (i : Nat) : (c.bell i).faultQ = c.faultQ := rfl
@[simp] theorem bell_outbox (c : Chip) (i : Nat) : (c.bell i).outbox = c.outbox := rfl
@[simp] theorem bell_freeCtr (c : Chip) (i : Nat) : (c.bell i).freeCtr = c.freeCtr := rfl
@[simp] theorem bell_loops (c : Chip) (i : Nat) : (c.bell i).loops = c.loops := rfl
@[simp] theorem bell_tunes (c : Chip) (i : Nat) : (c.bell i).tunes = c.tunes := rfl
@[simp] theorem bell_shadows (c : Chip) (i : Nat) : (c.bell i).shadows = c.shadows := rfl
@[simp] theorem bell_coefs (c : Chip) (i : Nat) : (c.bell i).coefs = c.coefs := rfl
@[simp] theorem bell_loopCmds (c : Chip) (i : Nat) : (c.bell i).loopCmds = c.loopCmds := rfl
@[simp] theorem bell_gens (c : Chip) (i : Nat) : (c.bell i).gens = c.gens := rfl
@[simp] theorem bell_holds (c : Chip) (i : Nat) : (c.bell i).holds = c.holds := rfl
@[simp] theorem bell_lastTag (c : Chip) (i : Nat) : (c.bell i).lastTag = c.lastTag := rfl
@[simp] theorem bell_phases (c : Chip) (i : Nat) : (c.bell i).phases = c.phases := rfl
@[simp] theorem bell_switches (c : Chip) (i : Nat) : (c.bell i).switches = c.switches := rfl
@[simp] theorem bell_loopPh (c : Chip) (i : Nat) : (c.bell i).loopPh = c.loopPh := rfl
@[simp] theorem bell_lanes (c : Chip) (i : Nat) : (c.bell i).lanes = c.lanes := rfl
@[simp] theorem bell_means (c : Chip) (i : Nat) : (c.bell i).means = c.means := rfl
@[simp] theorem bell_mapBytes (c : Chip) (i : Nat) : (c.bell i).mapBytes = c.mapBytes := rfl
@[simp] theorem bell_dirtyTiles (c : Chip) (i : Nat) : (c.bell i).dirtyTiles = c.dirtyTiles := rfl
@[simp] theorem bell_stbLanes (c : Chip) (i : Nat) : (c.bell i).stbLanes = c.stbLanes := rfl
@[simp] theorem bell_badTiles (c : Chip) (i : Nat) : (c.bell i).badTiles = c.badTiles := rfl
@[simp] theorem bell_stgWarm (c : Chip) (i : Nat) : (c.bell i).stgWarm = c.stgWarm := rfl
@[simp] theorem bell_pollDue (c : Chip) (i : Nat) : (c.bell i).pollDue = c.pollDue := rfl
@[simp] theorem bell_sumLanes (c : Chip) (i : Nat) : (c.bell i).sumLanes = c.sumLanes := rfl
@[simp] theorem bell_sums (c : Chip) (i : Nat) : (c.bell i).sums = c.sums := rfl
@[simp] theorem bell_renewed (c : Chip) (i : Nat) : (c.bell i).renewed = c.renewed := rfl
@[simp] theorem bell_sqs (c : Chip) (i : Nat) : (c.bell i).sqs = c.sqs := rfl
@[simp] theorem bell_senseRes (c : Chip) (i : Nat) : (c.bell i).senseRes = c.senseRes := rfl
@[simp] theorem bell_satRuns (c : Chip) (i : Nat) : (c.bell i).satRuns = c.satRuns := rfl
@[simp] theorem bell_hintHw (c : Chip) (i : Nat) : (c.bell i).hintHw = c.hintHw := rfl
@[simp] theorem bell_avsHw (c : Chip) (i : Nat) : (c.bell i).avsHw = c.avsHw := rfl
@[simp] theorem bell_bud (c : Chip) (i : Nat) : (c.bell i).bud = c.bud := rfl
@[simp] theorem bell_hsw (c : Chip) (i : Nat) : (c.bell i).hsw = c.hsw := rfl
@[simp] theorem bell_asks (c : Chip) (i : Nat) : (c.bell i).asks = c.asks := rfl
@[simp] theorem bell_drops (c : Chip) (i : Nat) : (c.bell i).drops = c.drops := rfl
@[simp] theorem bell_dones (c : Chip) (i : Nat) : (c.bell i).dones = c.dones := rfl
@[simp] theorem bell_rails (c : Chip) (i : Nat) : (c.bell i).rails = c.rails := rfl
@[simp] theorem bell_doms (c : Chip) (i : Nat) : (c.bell i).doms = c.doms := rfl
@[simp] theorem bell_seq (c : Chip) (i : Nat) : (c.bell i).seq = c.seq := rfl
@[simp] theorem bell_undet (c : Chip) (i : Nat) : (c.bell i).undet = c.undet := rfl
@[simp] theorem bell_ents (c : Chip) (i : Nat) : (c.bell i).ents = c.ents := rfl
@[simp] theorem bell_flt (c : Chip) (i : Nat) : (c.bell i).flt = c.flt := rfl
@[simp] theorem bell_therm (c : Chip) (i : Nat) : (c.bell i).therm = c.therm := rfl
@[simp] theorem bell_srcs (c : Chip) (i : Nat) : (c.bell i).srcs = c.srcs := rfl
@[simp] theorem bell_groupStart (c : Chip) (i : Nat) : (c.bell i).groupStart = c.groupStart := rfl
@[simp] theorem bell_evh (c : Chip) (i : Nat) : (c.bell i).evh = c.evh := rfl
@[simp] theorem bell_rings (c : Chip) (i : Nat) : (c.bell i).rings = c.rings := rfl
@[simp] theorem bell_hif (c : Chip) (i : Nat) : (c.bell i).hif = c.hif := rfl
@[simp] theorem bell_tels (c : Chip) (i : Nat) : (c.bell i).tels = c.tels := rfl
@[simp] theorem bell_streams (c : Chip) (i : Nat) : (c.bell i).streams = c.streams := rfl
@[simp] theorem bell_pmb (c : Chip) (i : Nat) : (c.bell i).pmb = c.pmb := rfl
@[simp] theorem bell_mctp (c : Chip) (i : Nat) : (c.bell i).mctp = c.mctp := rfl
@[simp] theorem bell_fw (c : Chip) (i : Nat) : (c.bell i).fw = c.fw := rfl
@[simp] theorem bell_mail (c : Chip) (i : Nat) : (c.bell i).mail = c.mail := rfl
@[simp] theorem bell_mbox (c : Chip) (i : Nat) : (c.bell i).mbox = c.mbox := rfl
@[simp] theorem bell_store (c : Chip) (i : Nat) : (c.bell i).store = c.store := rfl
@[simp] theorem bell_boot (c : Chip) (i : Nat) : (c.bell i).boot = c.boot := rfl

-- raise
@[simp] theorem raise_regs (c : Chip) (m : FaultMsg) : (c.raise m).regs = c.regs := rfl
@[simp] theorem raise_time (c : Chip) (m : FaultMsg) : (c.raise m).time = c.time := rfl
@[simp] theorem raise_power (c : Chip) (m : FaultMsg) : (c.raise m).power = c.power := rfl
@[simp] theorem raise_dies (c : Chip) (m : FaultMsg) : (c.raise m).dies = c.dies := rfl
@[simp] theorem raise_discards (c : Chip) (m : FaultMsg) : (c.raise m).discards = c.discards := rfl
@[simp] theorem raise_grid (c : Chip) (m : FaultMsg) : (c.raise m).grid = c.grid := rfl
@[simp] theorem raise_laneTurn (c : Chip) (m : FaultMsg) : (c.raise m).laneTurn = c.laneTurn := rfl
@[simp] theorem raise_snap (c : Chip) (m : FaultMsg) : (c.raise m).snap = c.snap := rfl
@[simp] theorem raise_bellOrder (c : Chip) (m : FaultMsg) : (c.raise m).bellOrder = c.bellOrder := rfl
@[simp] theorem raise_bells (c : Chip) (m : FaultMsg) : (c.raise m).bells = c.bells := rfl
@[simp] theorem raise_outbox (c : Chip) (m : FaultMsg) : (c.raise m).outbox = c.outbox := rfl
@[simp] theorem raise_freeCtr (c : Chip) (m : FaultMsg) : (c.raise m).freeCtr = c.freeCtr := rfl
@[simp] theorem raise_loops (c : Chip) (m : FaultMsg) : (c.raise m).loops = c.loops := rfl
@[simp] theorem raise_tunes (c : Chip) (m : FaultMsg) : (c.raise m).tunes = c.tunes := rfl
@[simp] theorem raise_shadows (c : Chip) (m : FaultMsg) : (c.raise m).shadows = c.shadows := rfl
@[simp] theorem raise_coefs (c : Chip) (m : FaultMsg) : (c.raise m).coefs = c.coefs := rfl
@[simp] theorem raise_loopCmds (c : Chip) (m : FaultMsg) : (c.raise m).loopCmds = c.loopCmds := rfl
@[simp] theorem raise_gens (c : Chip) (m : FaultMsg) : (c.raise m).gens = c.gens := rfl
@[simp] theorem raise_holds (c : Chip) (m : FaultMsg) : (c.raise m).holds = c.holds := rfl
@[simp] theorem raise_lastTag (c : Chip) (m : FaultMsg) : (c.raise m).lastTag = c.lastTag := rfl
@[simp] theorem raise_phases (c : Chip) (m : FaultMsg) : (c.raise m).phases = c.phases := rfl
@[simp] theorem raise_switches (c : Chip) (m : FaultMsg) : (c.raise m).switches = c.switches := rfl
@[simp] theorem raise_loopPh (c : Chip) (m : FaultMsg) : (c.raise m).loopPh = c.loopPh := rfl
@[simp] theorem raise_lanes (c : Chip) (m : FaultMsg) : (c.raise m).lanes = c.lanes := rfl
@[simp] theorem raise_means (c : Chip) (m : FaultMsg) : (c.raise m).means = c.means := rfl
@[simp] theorem raise_mapBytes (c : Chip) (m : FaultMsg) : (c.raise m).mapBytes = c.mapBytes := rfl
@[simp] theorem raise_dirtyTiles (c : Chip) (m : FaultMsg) : (c.raise m).dirtyTiles = c.dirtyTiles := rfl
@[simp] theorem raise_stbLanes (c : Chip) (m : FaultMsg) : (c.raise m).stbLanes = c.stbLanes := rfl
@[simp] theorem raise_badTiles (c : Chip) (m : FaultMsg) : (c.raise m).badTiles = c.badTiles := rfl
@[simp] theorem raise_stgWarm (c : Chip) (m : FaultMsg) : (c.raise m).stgWarm = c.stgWarm := rfl
@[simp] theorem raise_pollDue (c : Chip) (m : FaultMsg) : (c.raise m).pollDue = c.pollDue := rfl
@[simp] theorem raise_sumLanes (c : Chip) (m : FaultMsg) : (c.raise m).sumLanes = c.sumLanes := rfl
@[simp] theorem raise_sums (c : Chip) (m : FaultMsg) : (c.raise m).sums = c.sums := rfl
@[simp] theorem raise_renewed (c : Chip) (m : FaultMsg) : (c.raise m).renewed = c.renewed := rfl
@[simp] theorem raise_sqs (c : Chip) (m : FaultMsg) : (c.raise m).sqs = c.sqs := rfl
@[simp] theorem raise_senseRes (c : Chip) (m : FaultMsg) : (c.raise m).senseRes = c.senseRes := rfl
@[simp] theorem raise_satRuns (c : Chip) (m : FaultMsg) : (c.raise m).satRuns = c.satRuns := rfl
@[simp] theorem raise_hintHw (c : Chip) (m : FaultMsg) : (c.raise m).hintHw = c.hintHw := rfl
@[simp] theorem raise_avsHw (c : Chip) (m : FaultMsg) : (c.raise m).avsHw = c.avsHw := rfl
@[simp] theorem raise_bud (c : Chip) (m : FaultMsg) : (c.raise m).bud = c.bud := rfl
@[simp] theorem raise_hsw (c : Chip) (m : FaultMsg) : (c.raise m).hsw = c.hsw := rfl
@[simp] theorem raise_asks (c : Chip) (m : FaultMsg) : (c.raise m).asks = c.asks := rfl
@[simp] theorem raise_drops (c : Chip) (m : FaultMsg) : (c.raise m).drops = c.drops := rfl
@[simp] theorem raise_dones (c : Chip) (m : FaultMsg) : (c.raise m).dones = c.dones := rfl
@[simp] theorem raise_rails (c : Chip) (m : FaultMsg) : (c.raise m).rails = c.rails := rfl
@[simp] theorem raise_doms (c : Chip) (m : FaultMsg) : (c.raise m).doms = c.doms := rfl
@[simp] theorem raise_seq (c : Chip) (m : FaultMsg) : (c.raise m).seq = c.seq := rfl
@[simp] theorem raise_undet (c : Chip) (m : FaultMsg) : (c.raise m).undet = c.undet := rfl
@[simp] theorem raise_ents (c : Chip) (m : FaultMsg) : (c.raise m).ents = c.ents := rfl
@[simp] theorem raise_flt (c : Chip) (m : FaultMsg) : (c.raise m).flt = c.flt := rfl
@[simp] theorem raise_therm (c : Chip) (m : FaultMsg) : (c.raise m).therm = c.therm := rfl
@[simp] theorem raise_srcs (c : Chip) (m : FaultMsg) : (c.raise m).srcs = c.srcs := rfl
@[simp] theorem raise_groupStart (c : Chip) (m : FaultMsg) : (c.raise m).groupStart = c.groupStart := rfl
@[simp] theorem raise_evh (c : Chip) (m : FaultMsg) : (c.raise m).evh = c.evh := rfl
@[simp] theorem raise_rings (c : Chip) (m : FaultMsg) : (c.raise m).rings = c.rings := rfl
@[simp] theorem raise_hif (c : Chip) (m : FaultMsg) : (c.raise m).hif = c.hif := rfl
@[simp] theorem raise_tels (c : Chip) (m : FaultMsg) : (c.raise m).tels = c.tels := rfl
@[simp] theorem raise_streams (c : Chip) (m : FaultMsg) : (c.raise m).streams = c.streams := rfl
@[simp] theorem raise_pmb (c : Chip) (m : FaultMsg) : (c.raise m).pmb = c.pmb := rfl
@[simp] theorem raise_mctp (c : Chip) (m : FaultMsg) : (c.raise m).mctp = c.mctp := rfl
@[simp] theorem raise_fw (c : Chip) (m : FaultMsg) : (c.raise m).fw = c.fw := rfl
@[simp] theorem raise_mail (c : Chip) (m : FaultMsg) : (c.raise m).mail = c.mail := rfl
@[simp] theorem raise_mbox (c : Chip) (m : FaultMsg) : (c.raise m).mbox = c.mbox := rfl
@[simp] theorem raise_store (c : Chip) (m : FaultMsg) : (c.raise m).store = c.store := rfl
@[simp] theorem raise_boot (c : Chip) (m : FaultMsg) : (c.raise m).boot = c.boot := rfl

-- out
@[simp] theorem out_regs (c : Chip) (o : Output) : (c.out o).regs = c.regs := rfl
@[simp] theorem out_time (c : Chip) (o : Output) : (c.out o).time = c.time := rfl
@[simp] theorem out_power (c : Chip) (o : Output) : (c.out o).power = c.power := rfl
@[simp] theorem out_dies (c : Chip) (o : Output) : (c.out o).dies = c.dies := rfl
@[simp] theorem out_discards (c : Chip) (o : Output) : (c.out o).discards = c.discards := rfl
@[simp] theorem out_grid (c : Chip) (o : Output) : (c.out o).grid = c.grid := rfl
@[simp] theorem out_laneTurn (c : Chip) (o : Output) : (c.out o).laneTurn = c.laneTurn := rfl
@[simp] theorem out_snap (c : Chip) (o : Output) : (c.out o).snap = c.snap := rfl
@[simp] theorem out_bellOrder (c : Chip) (o : Output) : (c.out o).bellOrder = c.bellOrder := rfl
@[simp] theorem out_faultQ (c : Chip) (o : Output) : (c.out o).faultQ = c.faultQ := rfl
@[simp] theorem out_bells (c : Chip) (o : Output) : (c.out o).bells = c.bells := rfl
@[simp] theorem out_freeCtr (c : Chip) (o : Output) : (c.out o).freeCtr = c.freeCtr := rfl
@[simp] theorem out_loops (c : Chip) (o : Output) : (c.out o).loops = c.loops := rfl
@[simp] theorem out_tunes (c : Chip) (o : Output) : (c.out o).tunes = c.tunes := rfl
@[simp] theorem out_shadows (c : Chip) (o : Output) : (c.out o).shadows = c.shadows := rfl
@[simp] theorem out_coefs (c : Chip) (o : Output) : (c.out o).coefs = c.coefs := rfl
@[simp] theorem out_loopCmds (c : Chip) (o : Output) : (c.out o).loopCmds = c.loopCmds := rfl
@[simp] theorem out_gens (c : Chip) (o : Output) : (c.out o).gens = c.gens := rfl
@[simp] theorem out_holds (c : Chip) (o : Output) : (c.out o).holds = c.holds := rfl
@[simp] theorem out_lastTag (c : Chip) (o : Output) : (c.out o).lastTag = c.lastTag := rfl
@[simp] theorem out_phases (c : Chip) (o : Output) : (c.out o).phases = c.phases := rfl
@[simp] theorem out_switches (c : Chip) (o : Output) : (c.out o).switches = c.switches := rfl
@[simp] theorem out_loopPh (c : Chip) (o : Output) : (c.out o).loopPh = c.loopPh := rfl
@[simp] theorem out_lanes (c : Chip) (o : Output) : (c.out o).lanes = c.lanes := rfl
@[simp] theorem out_means (c : Chip) (o : Output) : (c.out o).means = c.means := rfl
@[simp] theorem out_mapBytes (c : Chip) (o : Output) : (c.out o).mapBytes = c.mapBytes := rfl
@[simp] theorem out_dirtyTiles (c : Chip) (o : Output) : (c.out o).dirtyTiles = c.dirtyTiles := rfl
@[simp] theorem out_stbLanes (c : Chip) (o : Output) : (c.out o).stbLanes = c.stbLanes := rfl
@[simp] theorem out_badTiles (c : Chip) (o : Output) : (c.out o).badTiles = c.badTiles := rfl
@[simp] theorem out_stgWarm (c : Chip) (o : Output) : (c.out o).stgWarm = c.stgWarm := rfl
@[simp] theorem out_pollDue (c : Chip) (o : Output) : (c.out o).pollDue = c.pollDue := rfl
@[simp] theorem out_sumLanes (c : Chip) (o : Output) : (c.out o).sumLanes = c.sumLanes := rfl
@[simp] theorem out_sums (c : Chip) (o : Output) : (c.out o).sums = c.sums := rfl
@[simp] theorem out_renewed (c : Chip) (o : Output) : (c.out o).renewed = c.renewed := rfl
@[simp] theorem out_sqs (c : Chip) (o : Output) : (c.out o).sqs = c.sqs := rfl
@[simp] theorem out_senseRes (c : Chip) (o : Output) : (c.out o).senseRes = c.senseRes := rfl
@[simp] theorem out_satRuns (c : Chip) (o : Output) : (c.out o).satRuns = c.satRuns := rfl
@[simp] theorem out_hintHw (c : Chip) (o : Output) : (c.out o).hintHw = c.hintHw := rfl
@[simp] theorem out_avsHw (c : Chip) (o : Output) : (c.out o).avsHw = c.avsHw := rfl
@[simp] theorem out_bud (c : Chip) (o : Output) : (c.out o).bud = c.bud := rfl
@[simp] theorem out_hsw (c : Chip) (o : Output) : (c.out o).hsw = c.hsw := rfl
@[simp] theorem out_asks (c : Chip) (o : Output) : (c.out o).asks = c.asks := rfl
@[simp] theorem out_drops (c : Chip) (o : Output) : (c.out o).drops = c.drops := rfl
@[simp] theorem out_dones (c : Chip) (o : Output) : (c.out o).dones = c.dones := rfl
@[simp] theorem out_rails (c : Chip) (o : Output) : (c.out o).rails = c.rails := rfl
@[simp] theorem out_doms (c : Chip) (o : Output) : (c.out o).doms = c.doms := rfl
@[simp] theorem out_seq (c : Chip) (o : Output) : (c.out o).seq = c.seq := rfl
@[simp] theorem out_undet (c : Chip) (o : Output) : (c.out o).undet = c.undet := rfl
@[simp] theorem out_ents (c : Chip) (o : Output) : (c.out o).ents = c.ents := rfl
@[simp] theorem out_flt (c : Chip) (o : Output) : (c.out o).flt = c.flt := rfl
@[simp] theorem out_therm (c : Chip) (o : Output) : (c.out o).therm = c.therm := rfl
@[simp] theorem out_srcs (c : Chip) (o : Output) : (c.out o).srcs = c.srcs := rfl
@[simp] theorem out_groupStart (c : Chip) (o : Output) : (c.out o).groupStart = c.groupStart := rfl
@[simp] theorem out_evh (c : Chip) (o : Output) : (c.out o).evh = c.evh := rfl
@[simp] theorem out_rings (c : Chip) (o : Output) : (c.out o).rings = c.rings := rfl
@[simp] theorem out_hif (c : Chip) (o : Output) : (c.out o).hif = c.hif := rfl
@[simp] theorem out_tels (c : Chip) (o : Output) : (c.out o).tels = c.tels := rfl
@[simp] theorem out_streams (c : Chip) (o : Output) : (c.out o).streams = c.streams := rfl
@[simp] theorem out_pmb (c : Chip) (o : Output) : (c.out o).pmb = c.pmb := rfl
@[simp] theorem out_mctp (c : Chip) (o : Output) : (c.out o).mctp = c.mctp := rfl
@[simp] theorem out_fw (c : Chip) (o : Output) : (c.out o).fw = c.fw := rfl
@[simp] theorem out_mail (c : Chip) (o : Output) : (c.out o).mail = c.mail := rfl
@[simp] theorem out_mbox (c : Chip) (o : Output) : (c.out o).mbox = c.mbox := rfl
@[simp] theorem out_store (c : Chip) (o : Output) : (c.out o).store = c.store := rfl
@[simp] theorem out_boot (c : Chip) (o : Output) : (c.out o).boot = c.boot := rfl

-- freeNext
@[simp] theorem freeNext_regs (c : Chip) : (c.freeNext).regs = c.regs := rfl
@[simp] theorem freeNext_time (c : Chip) : (c.freeNext).time = c.time := rfl
@[simp] theorem freeNext_power (c : Chip) : (c.freeNext).power = c.power := rfl
@[simp] theorem freeNext_dies (c : Chip) : (c.freeNext).dies = c.dies := rfl
@[simp] theorem freeNext_discards (c : Chip) : (c.freeNext).discards = c.discards := rfl
@[simp] theorem freeNext_grid (c : Chip) : (c.freeNext).grid = c.grid := rfl
@[simp] theorem freeNext_laneTurn (c : Chip) : (c.freeNext).laneTurn = c.laneTurn := rfl
@[simp] theorem freeNext_snap (c : Chip) : (c.freeNext).snap = c.snap := rfl
@[simp] theorem freeNext_bellOrder (c : Chip) : (c.freeNext).bellOrder = c.bellOrder := rfl
@[simp] theorem freeNext_faultQ (c : Chip) : (c.freeNext).faultQ = c.faultQ := rfl
@[simp] theorem freeNext_bells (c : Chip) : (c.freeNext).bells = c.bells := rfl
@[simp] theorem freeNext_outbox (c : Chip) : (c.freeNext).outbox = c.outbox := rfl
@[simp] theorem freeNext_loops (c : Chip) : (c.freeNext).loops = c.loops := rfl
@[simp] theorem freeNext_tunes (c : Chip) : (c.freeNext).tunes = c.tunes := rfl
@[simp] theorem freeNext_shadows (c : Chip) : (c.freeNext).shadows = c.shadows := rfl
@[simp] theorem freeNext_coefs (c : Chip) : (c.freeNext).coefs = c.coefs := rfl
@[simp] theorem freeNext_loopCmds (c : Chip) : (c.freeNext).loopCmds = c.loopCmds := rfl
@[simp] theorem freeNext_gens (c : Chip) : (c.freeNext).gens = c.gens := rfl
@[simp] theorem freeNext_holds (c : Chip) : (c.freeNext).holds = c.holds := rfl
@[simp] theorem freeNext_lastTag (c : Chip) : (c.freeNext).lastTag = c.lastTag := rfl
@[simp] theorem freeNext_phases (c : Chip) : (c.freeNext).phases = c.phases := rfl
@[simp] theorem freeNext_switches (c : Chip) : (c.freeNext).switches = c.switches := rfl
@[simp] theorem freeNext_loopPh (c : Chip) : (c.freeNext).loopPh = c.loopPh := rfl
@[simp] theorem freeNext_lanes (c : Chip) : (c.freeNext).lanes = c.lanes := rfl
@[simp] theorem freeNext_means (c : Chip) : (c.freeNext).means = c.means := rfl
@[simp] theorem freeNext_mapBytes (c : Chip) : (c.freeNext).mapBytes = c.mapBytes := rfl
@[simp] theorem freeNext_dirtyTiles (c : Chip) : (c.freeNext).dirtyTiles = c.dirtyTiles := rfl
@[simp] theorem freeNext_stbLanes (c : Chip) : (c.freeNext).stbLanes = c.stbLanes := rfl
@[simp] theorem freeNext_badTiles (c : Chip) : (c.freeNext).badTiles = c.badTiles := rfl
@[simp] theorem freeNext_stgWarm (c : Chip) : (c.freeNext).stgWarm = c.stgWarm := rfl
@[simp] theorem freeNext_pollDue (c : Chip) : (c.freeNext).pollDue = c.pollDue := rfl
@[simp] theorem freeNext_sumLanes (c : Chip) : (c.freeNext).sumLanes = c.sumLanes := rfl
@[simp] theorem freeNext_sums (c : Chip) : (c.freeNext).sums = c.sums := rfl
@[simp] theorem freeNext_renewed (c : Chip) : (c.freeNext).renewed = c.renewed := rfl
@[simp] theorem freeNext_sqs (c : Chip) : (c.freeNext).sqs = c.sqs := rfl
@[simp] theorem freeNext_senseRes (c : Chip) : (c.freeNext).senseRes = c.senseRes := rfl
@[simp] theorem freeNext_satRuns (c : Chip) : (c.freeNext).satRuns = c.satRuns := rfl
@[simp] theorem freeNext_hintHw (c : Chip) : (c.freeNext).hintHw = c.hintHw := rfl
@[simp] theorem freeNext_avsHw (c : Chip) : (c.freeNext).avsHw = c.avsHw := rfl
@[simp] theorem freeNext_bud (c : Chip) : (c.freeNext).bud = c.bud := rfl
@[simp] theorem freeNext_hsw (c : Chip) : (c.freeNext).hsw = c.hsw := rfl
@[simp] theorem freeNext_asks (c : Chip) : (c.freeNext).asks = c.asks := rfl
@[simp] theorem freeNext_drops (c : Chip) : (c.freeNext).drops = c.drops := rfl
@[simp] theorem freeNext_dones (c : Chip) : (c.freeNext).dones = c.dones := rfl
@[simp] theorem freeNext_rails (c : Chip) : (c.freeNext).rails = c.rails := rfl
@[simp] theorem freeNext_doms (c : Chip) : (c.freeNext).doms = c.doms := rfl
@[simp] theorem freeNext_seq (c : Chip) : (c.freeNext).seq = c.seq := rfl
@[simp] theorem freeNext_undet (c : Chip) : (c.freeNext).undet = c.undet := rfl
@[simp] theorem freeNext_ents (c : Chip) : (c.freeNext).ents = c.ents := rfl
@[simp] theorem freeNext_flt (c : Chip) : (c.freeNext).flt = c.flt := rfl
@[simp] theorem freeNext_therm (c : Chip) : (c.freeNext).therm = c.therm := rfl
@[simp] theorem freeNext_srcs (c : Chip) : (c.freeNext).srcs = c.srcs := rfl
@[simp] theorem freeNext_groupStart (c : Chip) : (c.freeNext).groupStart = c.groupStart := rfl
@[simp] theorem freeNext_evh (c : Chip) : (c.freeNext).evh = c.evh := rfl
@[simp] theorem freeNext_rings (c : Chip) : (c.freeNext).rings = c.rings := rfl
@[simp] theorem freeNext_hif (c : Chip) : (c.freeNext).hif = c.hif := rfl
@[simp] theorem freeNext_tels (c : Chip) : (c.freeNext).tels = c.tels := rfl
@[simp] theorem freeNext_streams (c : Chip) : (c.freeNext).streams = c.streams := rfl
@[simp] theorem freeNext_pmb (c : Chip) : (c.freeNext).pmb = c.pmb := rfl
@[simp] theorem freeNext_mctp (c : Chip) : (c.freeNext).mctp = c.mctp := rfl
@[simp] theorem freeNext_fw (c : Chip) : (c.freeNext).fw = c.fw := rfl
@[simp] theorem freeNext_mail (c : Chip) : (c.freeNext).mail = c.mail := rfl
@[simp] theorem freeNext_mbox (c : Chip) : (c.freeNext).mbox = c.mbox := rfl
@[simp] theorem freeNext_store (c : Chip) : (c.freeNext).store = c.store := rfl
@[simp] theorem freeNext_boot (c : Chip) : (c.freeNext).boot = c.boot := rfl

@[simp] theorem raise_faultQ (c : Chip) (m : FaultMsg) : (c.raise m).faultQ = c.faultQ ++ [m] := rfl
@[simp] theorem out_outbox (c : Chip) (o : Output) : (c.out o).outbox = c.outbox ++ [o] := rfl
@[simp] theorem freeNext_freeCtr (c : Chip) : c.freeNext.freeCtr = c.freeCtr + 1 := rfl
@[simp] theorem get_bell (c : Chip) (i : Nat) (f : Fld) : (c.bell i).get f = c.get f := rfl
@[simp] theorem get_raise (c : Chip) (m : FaultMsg) (f : Fld) : (c.raise m).get f = c.get f := rfl
@[simp] theorem get_out (c : Chip) (o : Output) (f : Fld) : (c.out o).get f = c.get f := rfl
@[simp] theorem get_freeNext (c : Chip) (f : Fld) : c.freeNext.get f = c.get f := rfl
@[simp] theorem reg_bell (c : Chip) (i o : Nat) : (c.bell i).reg o = c.reg o := rfl
@[simp] theorem reg_raise (c : Chip) (m : FaultMsg) (o : Nat) : (c.raise m).reg o = c.reg o := rfl
@[simp] theorem reg_out (c : Chip) (o : Output) (p : Nat) : (c.out o).reg p = c.reg p := rfl
@[simp] theorem reg_freeNext (c : Chip) (o : Nat) : c.freeNext.reg o = c.reg o := rfl

end Sys2Proof.Machine
end

