-- ==== Sys2Proof/Laws/Table.lean ====
section
/-! SUPPORT. What sparse storage reads after it is written. -/

namespace Sys2Proof.Machine

theorem cellsGet_below {α : Type} (d : Nat → α) (l : List (Nat × α)) (k : Nat) (h : ∀ e ∈ l, k < e.1) : cellsGet d l k = d k := by
  cases l with
  | nil => rfl
  | cons a t =>
    obtain ⟨j, w⟩ := a
    have hj : k < j := h (j, w) List.mem_cons_self
    simp only [cellsGet]
    rw [if_neg (by omega), if_pos hj]

theorem cellsGet_set_same {α : Type} [DecidableEq α] (d : Nat → α) (l : List (Nat × α)) (k : Nat) (v : α) (h : CellsWf d l) :
    cellsGet d (cellsSet d l k v) k = v := by
  induction l with
  | nil => unfold cellsSet; split <;> simp_all [cellsGet]
  | cons a t ih =>
    obtain ⟨j, w⟩ := a
    have hs := List.pairwise_cons.1 h.1
    have ht : CellsWf d t := ⟨hs.2, fun e he => h.2 e (List.mem_cons_of_mem _ he)⟩
    unfold cellsSet
    split
    · next hjk =>
      subst hjk
      split
      · next hv => rw [cellsGet_below d t j fun e he => hs.1 e he, hv]
      · simp [cellsGet]
    · next hjk =>
      split
      · next hlt =>
        split
        · next hv => simp only [cellsGet]; rw [if_neg hjk, if_pos hlt, hv]
        · simp [cellsGet]
      · next hge =>
        simp only [cellsGet]
        rw [if_neg hjk, if_neg hge, ih ht]

theorem cellsGet_set_other {α : Type} [DecidableEq α] (d : Nat → α) (l : List (Nat × α)) (k j : Nat) (v : α) (h : CellsWf d l) (hjk : j ≠ k) :
    cellsGet d (cellsSet d l k v) j = cellsGet d l j := by
  induction l with
  | nil =>
    unfold cellsSet
    split
    · rfl
    · simp only [cellsGet]; rw [if_neg (Ne.symm hjk)]; split <;> rfl
  | cons a t ih =>
    obtain ⟨i, w⟩ := a
    have hs := List.pairwise_cons.1 h.1
    have ht : CellsWf d t := ⟨hs.2, fun e he => h.2 e (List.mem_cons_of_mem _ he)⟩
    unfold cellsSet
    split
    · next hik =>
      subst hik
      split
      · by_cases hji : j < i
        · rw [cellsGet_below d t j fun e he => lt_trans hji (hs.1 e he)]
          simp only [cellsGet]; rw [if_neg (Ne.symm hjk), if_pos hji]
        · simp only [cellsGet]; rw [if_neg (Ne.symm hjk), if_neg hji]
      · simp only [cellsGet]; rw [if_neg (Ne.symm hjk), if_neg (Ne.symm hjk)]
    · next hik =>
      split
      · next hlt =>
        split
        · rfl
        · rw [cellsGet, if_neg (Ne.symm hjk)]
          split
          · next hjk' => exact (cellsGet_below d _ j (by intro e he; rcases List.mem_cons.1 he with h | h <;> [(subst h; simp only; omega); exact lt_trans (by omega) (hs.1 e h)])).symm
          · rfl
      · next hge =>
        simp only [cellsGet]
        by_cases hij : i = j
        · rw [if_pos hij, if_pos hij]
        · rw [if_neg hij, if_neg hij]
          split
          · rfl
          · exact ih ht

/-- Two canonical lists that read alike are the same list. -/
theorem cells_ext {α : Type} (d : Nat → α) (l m : List (Nat × α)) (hl : CellsWf d l) (hm : CellsWf d m)
    (h : ∀ k, cellsGet d l k = cellsGet d m k) : l = m := by
  induction l generalizing m with
  | nil =>
    cases m with
    | nil => rfl
    | cons b m =>
      obtain ⟨j, w⟩ := b
      have hw : w = d j := by have := (h j).symm; simpa [cellsGet] using this
      exact absurd hw (hm.2 (j, w) List.mem_cons_self)
  | cons a l ih =>
    obtain ⟨i, v⟩ := a
    have hls := List.pairwise_cons.1 hl.1
    cases m with
    | nil =>
      have hv : v = d i := by have := h i; simpa [cellsGet] using this
      exact absurd hv (hl.2 (i, v) List.mem_cons_self)
    | cons b m =>
      obtain ⟨j, w⟩ := b
      have hms := List.pairwise_cons.1 hm.1
      have hij : i = j := by
        rcases lt_trichotomy i j with hlt | heq | hgt
        · have hi := h i
          rw [cellsGet_below d ((j, w) :: m) i (by intro e he; rcases List.mem_cons.1 he with h' | h' <;> [(subst h'; exact hlt); exact lt_trans hlt (hms.1 e h')])] at hi
          simp only [cellsGet, if_true] at hi
          exact absurd hi (hl.2 (i, v) List.mem_cons_self)
        · exact heq
        · have hj := h j
          rw [cellsGet_below d ((i, v) :: l) j (by intro e he; rcases List.mem_cons.1 he with h' | h' <;> [(subst h'; exact hgt); exact lt_trans hgt (hls.1 e h')])] at hj
          simp only [cellsGet, if_true] at hj
          exact absurd hj.symm (hm.2 (j, w) List.mem_cons_self)
      subst hij
      have hv := h i
      simp only [cellsGet, if_true] at hv
      subst hv
      have hl' : CellsWf d l := ⟨hls.2, fun e he => hl.2 e (List.mem_cons_of_mem _ he)⟩
      have hm' : CellsWf d m := ⟨hms.2, fun e he => hm.2 e (List.mem_cons_of_mem _ he)⟩
      have hrest : l = m := ih m hl' hm' fun k => by
        by_cases hk : k ≤ i
        · rw [cellsGet_below d l k fun e he => lt_of_le_of_lt hk (hls.1 e he), cellsGet_below d m k fun e he => lt_of_le_of_lt hk (hms.1 e he)]
        · have := h k
          simp only [cellsGet] at this
          rwa [if_neg (by omega), if_neg (by omega), if_neg (by omega), if_neg (by omega)] at this
      rw [hrest]

theorem Tbl.ext_get {α : Type} {d : Nat → α} (t u : Tbl α d) (h : ∀ k, t.get k = u.get k) : t = u := by
  obtain ⟨l, hl⟩ := t
  obtain ⟨m, hm⟩ := u
  have : l = m := cells_ext d l m hl hm h
  subst this
  rfl

@[simp] theorem Tbl.get_set_same {α : Type} [DecidableEq α] {d : Nat → α} (t : Tbl α d) (k : Nat) (v : α) : (t.set k v).get k = v :=
  cellsGet_set_same d _ k v t.wf

theorem Tbl.get_set_other {α : Type} [DecidableEq α] {d : Nat → α} (t : Tbl α d) (k j : Nat) (v : α) (h : j ≠ k) : (t.set k v).get j = t.get j :=
  cellsGet_set_other d _ k j v t.wf h

theorem Tbl.get_set {α : Type} [DecidableEq α] {d : Nat → α} (t : Tbl α d) (k j : Nat) (v : α) : (t.set k v).get j = if j = k then v else t.get j := by
  split
  · next h => subst h; exact t.get_set_same j v
  · next h => exact t.get_set_other k j v h

/-- Writing what is there changes nothing. -/
@[simp] theorem Tbl.set_get {α : Type} [DecidableEq α] {d : Nat → α} (t : Tbl α d) (k : Nat) : t.set k (t.get k) = t :=
  Tbl.ext_get _ _ fun j => by rw [Tbl.get_set]; split <;> simp_all

@[simp] theorem Tbl.get_upd_same {α : Type} [DecidableEq α] {d : Nat → α} (t : Tbl α d) (k : Nat) (f : α → α) : (t.upd k f).get k = f (t.get k) :=
  t.get_set_same k _

theorem Tbl.get_upd_other {α : Type} [DecidableEq α] {d : Nat → α} (t : Tbl α d) (k j : Nat) (f : α → α) (h : j ≠ k) : (t.upd k f).get j = t.get j :=
  t.get_set_other k j _ h

theorem Tbl.get_upd {α : Type} [DecidableEq α] {d : Nat → α} (t : Tbl α d) (k j : Nat) (f : α → α) :
    (t.upd k f).get j = if j = k then f (t.get k) else t.get j := t.get_set k j _

@[simp] theorem Tbl.get_empty {α : Type} {d : Nat → α} (k : Nat) : (Tbl.empty : Tbl α d).get k = d k := rfl

end Sys2Proof.Machine
end

