-- ==== Sys2Proof/Laws/Register.lean ====
section
/-! SUPPORT. What a register and its fields read after a write of a field, an event or a fault message. -/

namespace Sys2Proof.Machine

theorem fieldMask_getLsbD (lo width i : Nat) (hi : i < 32) :
    (fieldMask lo width).getLsbD i = (decide (lo ≤ i) && decide (i < lo + width)) := by
  simp only [fieldMask, BitVec.getLsbD_ofNat, hi, decide_true, Bool.true_and, Nat.testBit_mul_two_pow, Nat.testBit_two_pow_sub_one]
  by_cases h : lo ≤ i <;> simp [h]
  omega

theorem wordPut_getLsbD (w : Word) (lo width v i : Nat) (hi : i < 32) :
    (wordPut w lo width v).getLsbD i = if lo ≤ i ∧ i < lo + width then v.testBit (i - lo) else w.getLsbD i := by
  simp only [wordPut, BitVec.getLsbD_or, BitVec.getLsbD_and, BitVec.getLsbD_not, hi, decide_true, Bool.true_and,
    fieldMask_getLsbD lo width i hi, BitVec.getLsbD_ofNat, Nat.testBit_mul_two_pow, Nat.testBit_mod_two_pow]
  by_cases h1 : lo ≤ i <;> by_cases h2 : i < lo + width <;> simp [h1, h2]
  · intro h; omega
  · intro h; omega

theorem wordField_testBit (w : Word) (lo width i : Nat) :
    (wordField w lo width).testBit i = (decide (i < width) && w.getLsbD (i + lo)) := by
  simp [wordField, Nat.testBit_mod_two_pow, Nat.testBit_div_two_pow, BitVec.getLsbD]

/-- A field reads what was put into it, its low bits. -/
theorem wordField_put_same (w : Word) (lo width v : Nat) (h : lo + width ≤ 32) : wordField (wordPut w lo width v) lo width = v % 2 ^ width := by
  apply Nat.eq_of_testBit_eq
  intro i
  rw [wordField_testBit, Nat.testBit_mod_two_pow]
  by_cases hi : i < width
  · rw [wordPut_getLsbD _ _ _ _ _ (by omega), if_pos (by omega)]; simp [hi]
  · simp [hi]

/-- A field that shares no bit with the one written reads as before. -/
theorem wordField_put_apart (w : Word) (lo width v lo' width' : Nat) (hw : lo' + width' ≤ 32) (h : lo + width ≤ lo' ∨ lo' + width' ≤ lo) :
    wordField (wordPut w lo width v) lo' width' = wordField w lo' width' := by
  apply Nat.eq_of_testBit_eq
  intro i
  rw [wordField_testBit, wordField_testBit]
  by_cases hi : i < width'
  · rw [wordPut_getLsbD _ _ _ _ _ (by omega), if_neg (by omega)]
  · simp [hi]

/-- Putting a field's own value back changes nothing. -/
theorem wordPut_field_same (w : Word) (lo width : Nat) : wordPut w lo width (wordField w lo width) = w := by
  apply BitVec.eq_of_getLsbD_eq
  intro i hi
  rw [wordPut_getLsbD _ _ _ _ _ hi]
  split
  · next h => rw [wordField_testBit]; simp [show i - lo < width by omega, show i - lo + lo = i by omega]
  · rfl

@[simp] theorem reg_setReg_same (s : Chip) (o : Nat) (w : Word) : (s.setReg o w).reg o = w := Tbl.get_set_same _ _ _

theorem reg_setReg_other (s : Chip) (o p : Nat) (w : Word) (h : p ≠ o) : (s.setReg o w).reg p = s.reg p := Tbl.get_set_other _ _ _ _ h

theorem reg_setReg (s : Chip) (o p : Nat) (w : Word) : (s.setReg o w).reg p = if p = o then w else s.reg p := Tbl.get_set _ _ _ _

@[simp] theorem setReg_same (s : Chip) (o : Nat) : s.setReg o (s.reg o) = s := by
  simp [Chip.setReg, Chip.reg]

theorem reg_put_other (s : Chip) (f : Fld) (v o : Nat) (h : o ≠ f.off) : (s.put f v).reg o = s.reg o := reg_setReg_other _ _ _ _ h

theorem get_put_same (s : Chip) (f : Fld) (v : Nat) (h : f.fits = true) : (s.put f v).get f = v % 2 ^ f.width := by
  simp only [Chip.get, Chip.put, reg_setReg_same]
  exact wordField_put_same _ _ _ _ (by simpa [Fld.fits] using h)

theorem get_put_apart (s : Chip) (f g : Fld) (v : Nat) (hg : g.fits = true) (h : g.apart f = true) : (s.put f v).get g = s.get g := by
  simp only [Chip.get, Chip.put, reg_setReg]
  split
  · next he =>
    rw [← he]
    refine wordField_put_apart _ _ _ _ _ _ (by simpa [Fld.fits] using hg) ?_
    simp [Fld.apart, he] at h
    omega
  · rfl

theorem put_get_same (s : Chip) (f : Fld) : s.put f (s.get f) = s := by
  simp [Chip.put, Chip.get, wordPut_field_same]

theorem SameBut.refl (s : Chip) (l : List Fld) : SameBut s s l := fun _ _ _ => rfl

theorem SameBut.trans {s t u : Chip} {l m : List Fld} (h : SameBut s t l) (k : SameBut t u m) : SameBut s u (l ++ m) := fun g hg ha => by
  rw [k g hg fun f hf => ha f (List.mem_append_right _ hf), h g hg fun f hf => ha f (List.mem_append_left _ hf)]

theorem SameBut.put {s t : Chip} {l : List Fld} (h : SameBut s t l) (f : Fld) (v : Nat) (hf : f ∈ l) : SameBut s (t.put f v) l := fun g hg ha => by
  rw [get_put_apart _ _ _ _ hg (ha f hf), h g hg ha]

/-- Fields read registers only. -/
theorem get_congr {s t : Chip} (h : t.regs = s.regs) (f : Fld) : t.get f = s.get f := by simp [Chip.get, Chip.reg, h]

theorem SameBut.congr {s t u : Chip} {l : List Fld} (h : SameBut s t l) (k : u.regs = t.regs) : SameBut s u l := fun g hg ha => by
  rw [get_congr k, h g hg ha]

end Sys2Proof.Machine
end

