-- ==== Sys2Proof/Laws/Effect.lean ====
section
/-! SUPPORT. How the named operations build up an effect: each operation, once. -/

namespace Sys2Proof.Machine

theorem Effect.start (s : State) : Effect s s id [] [] [] [] := ⟨rfl, rfl, rfl, SameBut.refl _ _, by simp, rfl, by simp, by simp⟩

variable {s t : State} {h : Chip → Chip} {fields : List Fld} {srcs : List Nat} {msgs : List FaultMsg} {outs : List Output}

theorem Effect.widen (e : Effect s t h fields srcs msgs outs) (more : List Fld) (hm : ∀ f ∈ fields, f ∈ more) : Effect s t h more srcs msgs outs :=
  ⟨e.nvm, e.pending, e.inner, fun g hg ha => e.fields g hg fun f hf => ha f (hm f hf), e.bells, e.order, e.faults, e.outputs⟩

@[simp] theorem put_inner (c : Chip) (f : Fld) (v : Nat) : (c.put f v).inner = c.inner := rfl
@[simp] theorem setReg_inner (c : Chip) (o : Nat) (w : Word) : (c.setReg o w).inner = c.inner := rfl
@[simp] theorem bell_inner (c : Chip) (i : Nat) : (c.bell i).inner = c.inner := rfl
@[simp] theorem raise_inner (c : Chip) (m : FaultMsg) : (c.raise m).inner = c.inner := rfl
@[simp] theorem out_inner (c : Chip) (o : Output) : (c.out o).inner = c.inner := rfl

theorem Effect.put (e : Effect s t h fields srcs msgs outs) (f : Fld) (v : Nat) :
    Effect s { t with chip := t.chip.put f v } h (fields ++ [f]) srcs msgs outs :=
  ⟨e.nvm, e.pending, e.inner, (e.widen _ (by simp_all)).fields.put f v (by simp), e.bells, e.order, e.faults, e.outputs⟩

theorem Effect.bell (e : Effect s t h fields srcs msgs outs) (i : Nat) :
    Effect s { t with chip := t.chip.bell i } h fields (srcs ++ [i]) msgs outs :=
  ⟨e.nvm, e.pending, e.inner, e.fields, fun j => by
    have hj := e.bells j
    have hi := e.bells i
    simp only [Chip.bell, Tbl.get_set, List.mem_append, List.mem_singleton, List.count_append, List.count_singleton]
    by_cases hji : j = i
    · subst hji
      simp only [if_true, or_true, beq_self_eq_true]
      by_cases hm : j ∈ srcs
      · rw [hi, if_pos hm]; omega
      · rw [hi, if_neg hm, List.count_eq_zero_of_not_mem hm]
    · have : (i == j) = false := by simp [Ne.symm hji]
      simp [hji, this, hj], by simp [e.order, Chip.bell], e.faults, e.outputs⟩

theorem Effect.raise (e : Effect s t h fields srcs msgs outs) (m : FaultMsg) :
    Effect s { t with chip := t.chip.raise m } h fields srcs (msgs ++ [m]) outs :=
  ⟨e.nvm, e.pending, e.inner, e.fields, e.bells, e.order, by simp [e.faults], e.outputs⟩

theorem Effect.out (e : Effect s t h fields srcs msgs outs) (o : Output) :
    Effect s { t with chip := t.chip.out o } h fields srcs msgs (outs ++ [o]) :=
  ⟨e.nvm, e.pending, e.inner, e.fields, e.bells, e.order, e.faults, by simp [e.outputs]⟩

theorem Effect.event (e : Effect s t h fields srcs msgs outs) (flag cnt : Fld) (i : Nat) :
    Effect s { t with chip := t.chip.event flag cnt i } h (fields ++ [flag] ++ [cnt]) (srcs ++ [i]) msgs outs :=
  ((e.put flag 1).put cnt (min ((t.chip.put flag 1).get cnt + 1) (2 ^ cnt.width - 1))).bell i

/-- An inner part changes, and nothing else. -/
theorem Effect.innerStep (e : Effect s t h fields srcs msgs outs) (k : Chip → Chip)
    (h1 : (k t.chip).regs = t.chip.regs) (h2 : (k t.chip).bells = t.chip.bells) (h6 : (k t.chip).bellOrder = t.chip.bellOrder) (h3 : (k t.chip).faultQ = t.chip.faultQ)
    (h4 : (k t.chip).outbox = t.chip.outbox) (h5 : (k t.chip).inner = (k (h s.chip)).inner) :
    Effect s { t with chip := k t.chip } (fun c => k (h c)) fields srcs msgs outs :=
  ⟨e.nvm, e.pending, h5, e.fields.congr h1, by simpa [h2] using e.bells, by simpa [h6] using e.order, by simp [h3, e.faults], by simp [h4, e.outputs]⟩

/-- A flag and a counter apart from it record an event. -/
theorem recorded_event (c : Chip) (flag cnt : Fld) (i : Nat) (hf : flag.fits = true) (hc : cnt.fits = true) (ha : flag.apart cnt = true)
    (hb : cnt.apart flag = true) (hw : flag.width = 1) : Recorded c (c.event flag cnt i) flag cnt := by
  constructor
  · simp only [Chip.event, Chip.flag, Chip.inc, Chip.add, get_bell]
    rw [get_put_apart _ _ _ _ hf ha, get_put_same _ _ _ hf, hw]; rfl
  · simp only [Chip.event, Chip.flag, Chip.inc, Chip.add, get_bell, counted]
    rw [get_put_same _ _ _ hc, get_put_apart _ _ _ _ hc hb]
    apply Nat.mod_eq_of_lt
    have : 0 < 2 ^ cnt.width := Nat.two_pow_pos _
    omega

end Sys2Proof.Machine
end

