-- ==== Sys2Proof/Laws/Access.lean ====
section
/-! SUPPORT. What a register write does: where it gets to its register, and where it carries the present values of the register's configuration fields. -/

namespace Sys2Proof.Machine

/-- A write that gets to a register of the map is a write of that register. -/
theorem busWrite_reaches (s : Chip) (m : List Host.Cell) (req : Requester) (o : Nat) (w : Word) (b : Bool) (h : s.reaches req o = true)
    (ha : o % 4 = 0) (hm : inMailbox o = false) (hx : inMsix o = false) (hr : (regAt o).isSome = true) :
    s.busWrite m req o w b = s.regWrite m req o w b := by
  simp only [Chip.reaches, Bool.and_eq_true, Bool.not_eq_true'] at h
  obtain ⟨⟨⟨h1, h2⟩, h3⟩, h4⟩ := h
  unfold Chip.busWrite
  have hn : (regAt o).isNone = false := by cases hq : regAt o <;> simp_all
  rw [if_neg (by simp [h1, h2]), if_neg (by simp [h3]), if_neg (by simp [ha]), if_neg (by simp [hm]), if_neg (by simp [hx]), if_neg (by simp [hn]),
    if_neg (by simp [h4])]

/-- A register outside the blocks whose write is an operation of its own. -/
def plainReg (o : Nat) : Bool :=
  (!decide (dieWindow ≤ o) || !(decide ((o - dieWindow) % 0x20000 < 0x800) && ((o - dieWindow) % 0x20000 % 0x40 == 0x08 || (o - dieWindow) % 0x20000 % 0x40 == 0x14
      || (o - dieWindow) % 0x20000 % 0x40 == 0x18)))
    && (decide (dieWindow ≤ o) || !((decide (0x2a000 ≤ o) && decide (o < 0x2e000) && o % 8 == 0) || (decide (0x28100 ≤ o) && decide (o < 0x28300) && (o - 0x28100) % 0x80 == 0)
      || (decide (0x31000 ≤ o) && decide (o < 0x312c0) && (o - 0x31000) % 0x20 == 8) || (decide (0x1000 ≤ o) && decide (o < 0x1800))))

/-- Writing a plain register's own word moves nothing. -/
theorem regPut_same (s : Chip) (o : Nat) (h : plainReg o = true) : s.regPut o (s.reg o) = s := by
  simp only [plainReg, Bool.and_eq_true, Bool.or_eq_true, Bool.not_eq_true', decide_eq_false_iff_not, decide_eq_true_eq, Bool.and_eq_false_iff,
    Bool.or_eq_false_iff, beq_eq_false_iff_ne] at h
  unfold Chip.regPut
  split
  · rw [if_neg (by simp; omega), if_neg (by simp; omega), if_neg (by simp; omega), if_pos rfl]
  · rw [if_neg (by simp; omega), if_neg (by simp; omega)]
    split
    · rfl
    · rw [if_neg (by simp; omega), if_neg (by simp; omega), if_pos rfl]

/-- What is needed of a command register and a word: configuration fields as they are, no flag cleared, no counter cleared. -/
structure Carries (s : Chip) (o : Nat) (w : Word) : Prop where
  aligned : o % 4 = 0
  known : (regAt o).isSome = true
  box : inMailbox o = false
  msix : inMsix o = false
  plain : plainReg o = true
  rw' : accMask o (· == .rw) &&& ~~~(pairMask o) = 0
  lock : lockMask o &&& ~~~(pairMask o) = 0
  fields : w &&& pairMask o = s.reg o &&& pairMask o
  flags : accMask o (· == .w1c) &&& w = 0
  counter : ∀ b fs, cntClears o = some (b, fs) → bitAt w.toNat b = false

theorem and_take (m w v p : Word) (hm : m &&& ~~~p = 0) (h : w &&& p = v &&& p) : w &&& m = v &&& m := by
  apply BitVec.eq_of_getLsbD_eq
  intro i hi
  have a := congrArg (fun x : Word => x.getLsbD i) hm
  have b := congrArg (fun x : Word => x.getLsbD i) h
  simp [hi] at a b ⊢
  cases hp : m.getLsbD i <;> simp_all

theorem xor_take (m w v p : Word) (hm : m &&& ~~~p = 0) (h : w &&& p = v &&& p) : (v ^^^ w) &&& m = 0 := by
  apply BitVec.eq_of_getLsbD_eq
  intro i hi
  have a := congrArg (fun x : Word => x.getLsbD i) (and_take m w v p hm h)
  simp [hi] at a ⊢
  cases hp : m.getLsbD i <;> simp_all

theorem mask_split (w v m p : Word) (hm : m &&& ~~~p = 0) (h : w &&& p = v &&& p) : v &&& ~~~m ||| w &&& m = v := by
  rw [and_take m w v p hm h]
  apply BitVec.eq_of_getLsbD_eq
  intro i hi
  simp only [BitVec.getLsbD_or, BitVec.getLsbD_and, BitVec.getLsbD_not, hi, decide_true, Bool.true_and]
  by_cases hp : m.getLsbD i = true <;> simp_all [BitVec.getLsbD_eq_getElem]

/-- A write that carries a register's configuration fields does what its command bits say, and nothing else. -/
theorem busWrite_carries (s : Chip) (m : List Host.Cell) (req : Requester) (o : Nat) (w : Word) (b : Bool) (h : s.reaches req o = true) (c : Carries s o w) :
    s.busWrite m req o w b = s.regOps m req o w b := by
  rw [busWrite_reaches s m req o w b h c.aligned c.box c.msix c.known]
  unfold Chip.regWrite
  have hw : s.fieldWrite o w = s := by
    unfold Chip.fieldWrite
    have hk : (s.reg o ^^^ w) &&& lockMask o = 0 := xor_take _ _ _ _ c.lock c.fields
    have hm : s.writeMask o &&& ~~~(pairMask o) = 0 := by
      unfold Chip.writeMask; split
      · exact c.rw'
      · simp
    have hr : s.reg o &&& ~~~(s.writeMask o) ||| w &&& s.writeMask o = s.reg o := mask_split _ _ _ _ hm c.fields
    simp only [hk, bne_self_eq_false, Bool.and_false, Bool.false_eq_true, if_false, hr, regPut_same s o c.plain, ite_self, c.flags, if_true]
  rw [hw]
  have hc : s.cntClear o w = s := by
    unfold Chip.cntClear
    split
    · next b' fs he => rw [c.counter b' fs he]; simp
    · rfl
  rw [hc]

end Sys2Proof.Machine
end

