-- ==== Sys2Proof/Laws/Memory.lean ====
section
/-! SUPPORT. What the non-volatile memory reads after a write, and that every write keeps its canonical form. -/

namespace Sys2Proof.Machine

theorem nvmWrite_wf (l : List Byte) (m : List Host.Cell) (a : Nat) (h : Memory.wf m) : Memory.wf (nvmWrite m a l) := by
  induction l generalizing m a with
  | nil => exact h
  | cons b l ih => exact ih _ _ (cellsSet_wf _ _ _ _ h)

/-- Outside the bytes written, the memory reads as before. -/
theorem nvmByte_write_other (l : List Byte) (m : List Host.Cell) (a b : Nat) (h : Memory.wf m) (ho : b < a ∨ a + l.length ≤ b) :
    nvmByte (nvmWrite m a l) b = nvmByte m b := by
  induction l generalizing m a with
  | nil => rfl
  | cons c l ih =>
    have hb : b ≠ a := by simp at ho; omega
    rw [nvmWrite, ih _ _ (cellsSet_wf _ _ _ _ h) (by simp at ho; omega)]
    exact cellsGet_set_other _ _ _ _ _ h hb

/-- The bytes written read as written. -/
theorem nvmByte_write_same (l : List Byte) (m : List Host.Cell) (a i : Nat) (h : Memory.wf m) (hi : i < l.length) :
    nvmByte (nvmWrite m a l) (a + i) = l[i] := by
  induction l generalizing m a i with
  | nil => simp at hi
  | cons c l ih =>
    cases i with
    | zero =>
      rw [nvmWrite, nvmByte_write_other _ _ _ _ (cellsSet_wf _ _ _ _ h) (by omega)]
      exact cellsGet_set_same _ _ _ _ h
    | succ i =>
      have := ih (cellsSet blankByte m a c) (a + 1) i (cellsSet_wf _ _ _ _ h) (by simpa using hi)
      rw [nvmWrite, show a + (i + 1) = a + 1 + i by omega, this]
      rfl

theorem nvmWrites_wf {α : Type} (l : List α) (f : α → Nat) (g : α → List Byte) (m : List Host.Cell) (h : Memory.wf m) :
    Memory.wf (l.foldl (fun m x => nvmWrite m (f x) (g x)) m) := by
  induction l generalizing m with
  | nil => exact h
  | cons x l ih => exact ih _ (nvmWrite_wf _ _ _ h)

theorem linesWritten_wf (m : List Host.Cell) (l : List NvmLine) (h : Memory.wf m) : Memory.wf (linesWritten m l) := nvmWrites_wf _ _ _ _ h

end Sys2Proof.Machine
end

