-- ==== Sys2Proof/Laws/PerInstr.lean ====
section
/-! SUPPORT. Every command of the table can be given: some choice of its operands is well-formed. One lemma for each constructor. -/

namespace Sys2Proof.Laws

/-- Some well-formed command has the constructor of `i`. -/
def Givable.Statement (i : Instr) : Prop := ∃ j : Instr, j.wf = true ∧ j.ctorIdx = i.ctorIdx

/-- A descriptor that is filled. -/
def blankCmd : Cmd := ⟨0, 0, 0, 0, List.replicate 56 0⟩

end Sys2Proof.Laws

namespace Sys2Proof.Laws.Givable

theorem vaux33Rise : Statement (.vaux33Rise) := ⟨_, rfl, rfl⟩
theorem suppliesGood (cold : ColdIn) : Statement (.suppliesGood cold) := ⟨_, rfl, rfl⟩
theorem coreSupplyLoss : Statement (.coreSupplyLoss) := ⟨_, rfl, rfl⟩
theorem holdupEntry : Statement (.holdupEntry) := ⟨_, rfl, rfl⟩
theorem holdupEnd : Statement (.holdupEnd) := ⟨_, rfl, rfl⟩
theorem aonPowerOff : Statement (.aonPowerOff) := ⟨_, rfl, rfl⟩
theorem dieLinkUp (d : DieId) : Statement (.dieLinkUp d) := ⟨_, rfl, rfl⟩
theorem linkTrainingFail (d : DieId) : Statement (.linkTrainingFail d) := ⟨_, rfl, rfl⟩
theorem polSleepRequest (req : Requester) : Statement (.polSleepRequest req) := ⟨_, rfl, rfl⟩
theorem polSleepEntry : Statement (.polSleepEntry) := ⟨_, rfl, rfl⟩
theorem polWake : Statement (.polWake) := ⟨_, rfl, rfl⟩
theorem keepAliveSend (d : DieId) : Statement (.keepAliveSend d) := ⟨_, rfl, rfl⟩
theorem dieKeepAliveTimeout (d : DieId) : Statement (.dieKeepAliveTimeout d) := ⟨_, rfl, rfl⟩
theorem linkLoss (d : DieId) : Statement (.linkLoss d) := ⟨_, rfl, rfl⟩
theorem dutyWordArrive (d : DieId) (n : LoopId) (rx : DutyRx) : Statement (.dutyWordArrive d n rx) := ⟨_, rfl, rfl⟩
theorem discardLimit (d : DieId) (n : LoopId) : Statement (.discardLimit d n) := ⟨_, rfl, rfl⟩
theorem serviceFlitReceive (d : DieId) (good : Bool) : Statement (.serviceFlitReceive d good) := ⟨_, rfl, rfl⟩
theorem serviceFlitFail (d : DieId) (req : Requester) (off : BitVec 17) (write : Bool) : Statement (.serviceFlitFail d req off write) := ⟨.serviceFlitFail d req 0 write, rfl, rfl⟩
theorem speedMeasure (idx : BitVec 8) : Statement (.speedMeasure idx) := ⟨_, rfl, rfl⟩
theorem tb0Loss : Statement (.tb0Loss) := ⟨_, rfl, rfl⟩
theorem tb1Loss : Statement (.tb1Loss) := ⟨_, rfl, rfl⟩
theorem tbReturn (one : Bool) : Statement (.tbReturn one) := ⟨_, rfl, rfl⟩
theorem tb1Relock : Statement (.tb1Relock) := ⟨_, rfl, rfl⟩
theorem snapshotLowRead (req : Requester) (w : Fin 7) : Statement (.snapshotLowRead req w) := ⟨_, rfl, rfl⟩
theorem sampleInstant (n : LoopId) (vdiff : Int) : Statement (.sampleInstant n vdiff) := ⟨_, rfl, rfl⟩
theorem errorCodeArrive (n : LoopId) : Statement (.errorCodeArrive n) := ⟨_, rfl, rfl⟩
theorem runAheadComplete (n : LoopId) : Statement (.runAheadComplete n) := ⟨_, rfl, rfl⟩
theorem sampleOverrun (n : LoopId) : Statement (.sampleOverrun n) := ⟨_, rfl, rfl⟩
theorem overrunLimit (n : LoopId) : Statement (.overrunLimit n) := ⟨_, rfl, rfl⟩
theorem fixedClassRelease (r : ClassRelease) : Statement (.fixedClassRelease r) := ⟨_, rfl, rfl⟩
theorem currentSumLaunch (d : DieId) (n : LoopId) : Statement (.currentSumLaunch d n) := ⟨_, rfl, rfl⟩
theorem currentSumArrive (d : DieId) (n : LoopId) : Statement (.currentSumArrive d n) := ⟨_, rfl, rfl⟩
theorem loopStart (n : LoopId) : Statement (.loopStart n) := ⟨_, rfl, rfl⟩
theorem loopStop (n : LoopId) : Statement (.loopStop n) := ⟨_, rfl, rfl⟩
theorem transientTimeout (n : LoopId) : Statement (.transientTimeout n) := ⟨_, rfl, rfl⟩
theorem currentLimitPersistence (n : LoopId) : Statement (.currentLimitPersistence n) := ⟨_, rfl, rfl⟩
theorem feedForwardExpire (n : LoopId) : Statement (.feedForwardExpire n) := ⟨_, rfl, rfl⟩
theorem coefSwapRequest (req : Requester) (n : LoopId) (set : Fin 4) (tileOk : Bool) : Statement (.coefSwapRequest req n set tileOk) := ⟨_, rfl, rfl⟩
theorem coefSwapApply (n : LoopId) (tileOk : Bool) : Statement (.coefSwapApply n tileOk) := ⟨_, rfl, rfl⟩
theorem autotuneStart (req : Requester) (n : LoopId) : Statement (.autotuneStart req n) := ⟨_, rfl, rfl⟩
theorem autotuneAbort (req : Requester) (n : LoopId) : Statement (.autotuneAbort req n) := ⟨_, rfl, rfl⟩
theorem tuneLeaveTimeout (n : LoopId) : Statement (.tuneLeaveTimeout n) := ⟨_, rfl, rfl⟩
theorem tuneEnter (n : LoopId) : Statement (.tuneEnter n) := ⟨_, rfl, rfl⟩
theorem tuneMaxsExpire (n : LoopId) : Statement (.tuneMaxsExpire n) := ⟨_, rfl, rfl⟩
theorem tuneExit (n : LoopId) : Statement (.tuneExit n) := ⟨_, rfl, rfl⟩
theorem pwmReload (p : PhaseId) (cmp : Bool) (cmp2 : Bool) : Statement (.pwmReload p cmp cmp2) := ⟨_, rfl, rfl⟩
theorem bootstrapRefresh (p : PhaseId) (low : Bool) : Statement (.bootstrapRefresh p low) := ⟨_, rfl, rfl⟩
theorem triggerFire (p : PhaseId) (t : Fin 2) (soon : Bool) : Statement (.triggerFire p t soon) := ⟨_, rfl, rfl⟩
theorem cmpbWrite (req : Requester) (p : PhaseId) (value : Word) : Statement (.cmpbWrite req p value) := ⟨_, rfl, rfl⟩
theorem tripPinChange (d : DieId) (pin : Fin 8) (active : Bool) : Statement (.tripPinChange d pin active) := ⟨_, rfl, rfl⟩
theorem peakCurrentTrip (p : PhaseId) (ticks : Fin 4096) (out : Bool) : Statement (.peakCurrentTrip p ticks out) := ⟨_, rfl, rfl⟩
theorem tripClear (req : Requester) (p : PhaseId) : Statement (.tripClear req p) := ⟨_, rfl, rfl⟩
theorem balanceUpdate (n : LoopId) : Statement (.balanceUpdate n) := ⟨_, rfl, rfl⟩
theorem meanArrive (d : DieId) (n : LoopId) : Statement (.meanArrive d n) := ⟨_, rfl, rfl⟩
theorem shedDwellExpire (n : LoopId) : Statement (.shedDwellExpire n) := ⟨_, rfl, rfl⟩
theorem phaseIdleReport (p : PhaseId) : Statement (.phaseIdleReport p) := ⟨_, rfl, rfl⟩
theorem interleaveCommand (d : DieId) (n : LoopId) (good : Bool) : Statement (.interleaveCommand d n good) := ⟨_, rfl, rfl⟩
theorem segTableSubmit (req : Requester) (n : LoopId) : Statement (.segTableSubmit req n) := ⟨_, rfl, rfl⟩
theorem segmentDecreaseDwell (p : PhaseId) : Statement (.segmentDecreaseDwell p) := ⟨_, rfl, rfl⟩
theorem wearRotation (p : PhaseId) (low : Bool) : Statement (.wearRotation p low) := ⟨_, rfl, rfl⟩
theorem segmentRetire (req : Requester) (p : PhaseId) (low : Bool) (first : Fin 16384) (num : Fin 32768) : Statement (.segmentRetire req p low first num) := ⟨_, rfl, rfl⟩
theorem healthMapFlush (tile : Fin 7168) : Statement (.healthMapFlush tile) := ⟨_, rfl, rfl⟩
theorem stageFrameSend (d : DieId) (lane : Fin 4) (tileOk : BitVec 16) : Statement (.stageFrameSend d lane tileOk) := ⟨_, rfl, rfl⟩
theorem stageAnswerTimeout (d : DieId) (lane : Fin 4) : Statement (.stageAnswerTimeout d lane) := ⟨_, rfl, rfl⟩
theorem stageMissLimit (p : PhaseId) : Statement (.stageMissLimit p) := ⟨_, rfl, rfl⟩
theorem enumerationResetWait (d : DieId) (lane : Fin 4) : Statement (.enumerationResetWait d lane) := ⟨_, rfl, rfl⟩
theorem stageIdentAnswer (d : DieId) (lane : Fin 4) (a : StageAnswer) : Statement (.stageIdentAnswer d lane a) := ⟨.stageIdentAnswer d lane ⟨0, 0, false, false, [], 0⟩, rfl, rfl⟩
theorem stageMapwAck (d : DieId) (lane : Fin 4) (a : StageAnswer) : Statement (.stageMapwAck d lane a) := ⟨.stageMapwAck d lane ⟨0, 0, false, false, [], 0⟩, rfl, rfl⟩
theorem stageCntwAck (d : DieId) (lane : Fin 4) (a : StageAnswer) : Statement (.stageCntwAck d lane a) := ⟨.stageCntwAck d lane ⟨0, 0, false, false, [], 0⟩, rfl, rfl⟩
theorem stageStatAnswer (d : DieId) (lane : Fin 4) (a : StageAnswer) : Statement (.stageStatAnswer d lane a) := ⟨.stageStatAnswer d lane ⟨0, 0, false, false, [], 0⟩, rfl, rfl⟩
theorem stageFltrAnswer (d : DieId) (lane : Fin 4) (a : StageAnswer) : Statement (.stageFltrAnswer d lane a) := ⟨.stageFltrAnswer d lane ⟨0, 0, false, false, [], 0⟩, rfl, rfl⟩
theorem stageRelayAnswer (d : DieId) (lane : Fin 4) (a : StageAnswer) : Statement (.stageRelayAnswer d lane a) := ⟨.stageRelayAnswer d lane ⟨0, 0, false, false, [], 0⟩, rfl, rfl⟩
theorem stageAlert (d : DieId) (lane : Fin 4) : Statement (.stageAlert d lane) := ⟨_, rfl, rfl⟩
theorem stagePoll (p : PhaseId) : Statement (.stagePoll p) := ⟨_, rfl, rfl⟩
theorem alertStuck (d : DieId) (lane : Fin 4) : Statement (.alertStuck d lane) := ⟨_, rfl, rfl⟩
theorem relaySend (req : Requester) (d : DieId) (op : Fin 16) (len : Fin 64) (lane : Fin 4) (addr : Fin 16) : Statement (.relaySend req d op len lane addr) := ⟨_, rfl, rfl⟩
theorem iadcResult (p : PhaseId) (nanovolts : Int) : Statement (.iadcResult p nanovolts) := ⟨_, rfl, rfl⟩
theorem iadcDelayedStart (p : PhaseId) : Statement (.iadcDelayedStart p) := ⟨_, rfl, rfl⟩
theorem sqEntryComplete (x : SqId) (c : Conversion) : Statement (.sqEntryComplete x c) := ⟨_, rfl, rfl⟩
theorem sqPassStart (x : SqId) : Statement (.sqPassStart x) := ⟨_, rfl, rfl⟩
theorem sqStart (req : Requester) (x : SqId) : Statement (.sqStart req x) := ⟨_, rfl, rfl⟩
theorem sqStop (req : Requester) (x : SqId) : Statement (.sqStop req x) := ⟨_, rfl, rfl⟩
theorem sqInjectRequest (req : Requester) (x : SqId) (entry : Fin 16) (pre : Bool) : Statement (.sqInjectRequest req x entry pre) := ⟨_, rfl, rfl⟩
theorem sqInjectionComplete (x : SqId) (c : Conversion) : Statement (.sqInjectionComplete x c) := ⟨_, rfl, rfl⟩
theorem sqCalibrateStep (req : Requester) (x : SqId) (step : Fin 4) (entry : Fin 16) (ref : BitVec 24) : Statement (.sqCalibrateStep req x step entry ref) := ⟨_, rfl, rfl⟩
theorem sqCalibrateAbort (req : Requester) (x : SqId) : Statement (.sqCalibrateAbort req x) := ⟨_, rfl, rfl⟩
theorem sqCalibrationStepDone (x : SqId) (c : List Conversion) : Statement (.sqCalibrationStepDone x c) := ⟨_, rfl, rfl⟩
theorem sqCalholdExpire (x : SqId) : Statement (.sqCalholdExpire x) := ⟨_, rfl, rfl⟩
theorem loopComparatorActive (n : LoopId) (ov : Bool) (v : Int) : Statement (.loopComparatorActive n ov v) := ⟨_, rfl, rfl⟩
theorem uvMaskEnd (n : LoopId) : Statement (.uvMaskEnd n) := ⟨_, rfl, rfl⟩
theorem windowTick (r : RailId) (microvolts : Int) : Statement (.windowTick r microvolts) := ⟨_, rfl, rfl⟩
theorem windowConfirmRequest (r : RailId) : Statement (.windowConfirmRequest r) := ⟨_, rfl, rfl⟩
theorem avsTargetVoltageWrite (k : Fin 8) (sel : Fin 16) (hold : Bool) (mv : BitVec 16) (crcOk : Bool) : Statement (.avsTargetVoltageWrite k sel hold mv crcOk) := ⟨_, rfl, rfl⟩
theorem avsTargetVoltageRead (k : Fin 8) (sel : Fin 16) (crcOk : Bool) : Statement (.avsTargetVoltageRead k sel crcOk) := ⟨_, rfl, rfl⟩
theorem avsTransitionRateWrite (k : Fin 8) (sel : Fin 16) (hold : Bool) (rate : BitVec 16) (crcOk : Bool) : Statement (.avsTransitionRateWrite k sel hold rate crcOk) := ⟨_, rfl, rfl⟩
theorem avsTransitionRateRead (k : Fin 8) (sel : Fin 16) (crcOk : Bool) : Statement (.avsTransitionRateRead k sel crcOk) := ⟨_, rfl, rfl⟩
theorem avsCurrentRead (k : Fin 8) (sel : Fin 16) (crcOk : Bool) : Statement (.avsCurrentRead k sel crcOk) := ⟨_, rfl, rfl⟩
theorem avsTemperatureRead (k : Fin 8) (sel : Fin 16) (crcOk : Bool) : Statement (.avsTemperatureRead k sel crcOk) := ⟨_, rfl, rfl⟩
theorem avsResetVoltage (k : Fin 8) (sel : Fin 16) (hold : Bool) (crcOk : Bool) : Statement (.avsResetVoltage k sel hold crcOk) := ⟨_, rfl, rfl⟩
theorem avsStatusWrite (k : Fin 8) (sel : Fin 16) (other : Bool) (hold : Bool) (crcOk : Bool) : Statement (.avsStatusWrite k sel other hold crcOk) := ⟨_, rfl, rfl⟩
theorem avsStatusRead (k : Fin 8) (sel : Fin 16) (crcOk : Bool) : Statement (.avsStatusRead k sel crcOk) := ⟨_, rfl, rfl⟩
theorem avsVersionRead (k : Fin 8) (sel : Fin 16) (other : Bool) (crcOk : Bool) : Statement (.avsVersionRead k sel other crcOk) := ⟨_, rfl, rfl⟩
theorem avsFrameTimeout (k : Fin 8) : Statement (.avsFrameTimeout k) := ⟨_, rfl, rfl⟩
theorem hintReceive (l : Fin 8) (clean : Bool) (crc : BitVec 8) (w0 : BitVec 16) (w1 : BitVec 16) : Statement (.hintReceive l clean crc w0 w1) := ⟨_, rfl, rfl⟩
theorem cancelReceive (l : Fin 8) (clean : Bool) (crc : BitVec 8) (w0 : BitVec 16) : Statement (.cancelReceive l clean crc w0) := ⟨_, rfl, rfl⟩
theorem hintDeferTimeout (l : Fin 8) (hid : Fin 64) : Statement (.hintDeferTimeout l hid) := ⟨_, rfl, rfl⟩
theorem hintHoldEnd (l : Fin 8) (hid : Fin 64) : Statement (.hintHoldEnd l hid) := ⟨_, rfl, rfl⟩
theorem hintFrameRetry (l : Fin 8) (k : Fin 8) : Statement (.hintFrameRetry l k) := ⟨_, rfl, rfl⟩
theorem lhalertPulseEnd (l : Fin 8) : Statement (.lhalertPulseEnd l) := ⟨_, rfl, rfl⟩
theorem inputSample (vins : Nat) (hsout : Nat) (shunt : Int) : Statement (.inputSample vins hsout shunt) := ⟨_, rfl, rfl⟩
theorem hswQualified : Statement (.hswQualified) := ⟨_, rfl, rfl⟩
theorem hswInputGood : Statement (.hswInputGood) := ⟨_, rfl, rfl⟩
theorem inrushTimeout : Statement (.inrushTimeout) := ⟨_, rfl, rfl⟩
theorem inputLoss : Statement (.inputLoss) := ⟨_, rfl, rfl⟩
theorem fastBreaker (amps16 : Nat) : Statement (.fastBreaker amps16) := ⟨_, rfl, rfl⟩
theorem slowBreaker : Statement (.slowBreaker) := ⟨_, rfl, rfl⟩
theorem fetSoaTrip : Statement (.fetSoaTrip) := ⟨_, rfl, rfl⟩
theorem shortedFet : Statement (.shortedFet) := ⟨_, rfl, rfl⟩
theorem retryDelayExpire : Statement (.retryDelayExpire) := ⟨_, rfl, rfl⟩
theorem triesReset : Statement (.triesReset) := ⟨_, rfl, rfl⟩
theorem leaveRequest (k : Nat) : Statement (.leaveRequest k) := ⟨_, rfl, rfl⟩
theorem budgetGrant (tileOk : Bool) : Statement (.budgetGrant tileOk) := ⟨_, rfl, rfl⟩
theorem leaveWithdraw (k : Nat) : Statement (.leaveWithdraw k) := ⟨_, rfl, rfl⟩
theorem budgetWaitLimit (k : Nat) : Statement (.budgetWaitLimit k) := ⟨_, rfl, rfl⟩
theorem leaveDone (k : Nat) : Statement (.leaveDone k) := ⟨_, rfl, rfl⟩
theorem leaveExpire (k : Nat) : Statement (.leaveExpire k) := ⟨_, rfl, rfl⟩
theorem domainStart (req : Requester) (d : DomainId) : Statement (.domainStart req d) := ⟨_, rfl, rfl⟩
theorem domainStop (req : Requester) (d : DomainId) : Statement (.domainStop req d) := ⟨_, rfl, rfl⟩
theorem domainClr (req : Requester) (d : DomainId) : Statement (.domainClr req d) := ⟨_, rfl, rfl⟩
theorem railRelease (r : RailId) : Statement (.railRelease r) := ⟨_, rfl, rfl⟩
theorem railDwellComplete (r : RailId) : Statement (.railDwellComplete r) := ⟨_, rfl, rfl⟩
theorem qualificationTimeout (r : RailId) : Statement (.qualificationTimeout r) := ⟨_, rfl, rfl⟩
theorem railChatterLimit (r : RailId) : Statement (.railChatterLimit r) := ⟨_, rfl, rfl⟩
theorem xpgChange (r : RailId) (high : Bool) : Statement (.xpgChange r high) := ⟨_, rfl, rfl⟩
theorem stopStepBegin (r : RailId) (tileOk : Bool) : Statement (.stopStepBegin r tileOk) := ⟨_, rfl, rfl⟩
theorem stopStepEnd (r : RailId) (cold : ColdIn) : Statement (.stopStepEnd r cold) := ⟨_, rfl, rfl⟩
theorem stopStepTimeout (r : RailId) (cold : ColdIn) : Statement (.stopStepTimeout r cold) := ⟨_, rfl, rfl⟩
theorem firstFailureArm (req : Requester) : Statement (.firstFailureArm req) := ⟨_, rfl, rfl⟩
theorem faultPost (k : Nat) : Statement (.faultPost k) := ⟨_, rfl, rfl⟩
theorem safetoExpire (cold : ColdIn) : Statement (.safetoExpire cold) := ⟨_, rfl, rfl⟩
theorem escalationExpire (i : Fin 64) : Statement (.escalationExpire i) := ⟨_, rfl, rfl⟩
theorem faultAcknowledge (req : Requester) (slot : Fin 64) (code : BitVec 16) : Statement (.faultAcknowledge req slot code) := ⟨_, rfl, rfl⟩
theorem faultClear (req : Requester) (slot : Fin 64) (code : BitVec 16) : Statement (.faultClear req slot code) := ⟨_, rfl, rfl⟩
theorem faultAckAndClear (req : Requester) (slot : Fin 64) (code : BitVec 16) : Statement (.faultAckAndClear req slot code) := ⟨_, rfl, rfl⟩
theorem collectorCompare (mismatch : Bool) : Statement (.collectorCompare mismatch) := ⟨_, rfl, rfl⟩
theorem faultInject (req : Requester) (tgt : Fin 16) : Statement (.faultInject req tgt) := ⟨_, rfl, rfl⟩
theorem injectionNotExercised : Statement (.injectionNotExercised) := ⟨_, rfl, rfl⟩
theorem softwareRaise (req : Requester) (cls : Fin 4) (inst : BitVec 8) (num : BitVec 8) : Statement (.softwareRaise req cls inst num) := ⟨_, rfl, rfl⟩
theorem coldStartRequest (req : Requester) (key : BitVec 16) (cold : ColdIn) : Statement (.coldStartRequest req key cold) := ⟨_, rfl, rfl⟩
theorem guardEnd (req : Requester) (test : Bool) : Statement (.guardEnd req test) := ⟨_, rfl, rfl⟩
theorem guardTest (req : Requester) (test : Bool) : Statement (.guardTest req test) := ⟨_, rfl, rfl⟩
theorem sensorReading (i : Fin 36) (temp : BitVec 12) : Statement (.sensorReading i temp) := ⟨_, rfl, rfl⟩
theorem crossCheckRound : Statement (.crossCheckRound) := ⟨_, rfl, rfl⟩
theorem thermalShutdown (i : Fin 36) : Statement (.thermalShutdown i) := ⟨_, rfl, rfl⟩
theorem coolingRestart (cold : ColdIn) : Statement (.coolingRestart cold) := ⟨_, rfl, rfl⟩
theorem doorbell (src : SourceId) : Statement (.doorbell src) := ⟨_, rfl, rfl⟩
theorem softwareDoorbell (req : Requester) (src : SourceId) : Statement (.softwareDoorbell req src) := ⟨_, rfl, rfl⟩
theorem groupTimerExpire (g : Fin 64) : Statement (.groupTimerExpire g) := ⟨_, rfl, rfl⟩
theorem sourceCfgWrite (req : Requester) (src : SourceId) (value : Word) : Statement (.sourceCfgWrite req src value) := ⟨_, rfl, rfl⟩
theorem claim (req : Requester) (k : ProcId) : Statement (.claim req k) := ⟨_, rfl, rfl⟩
theorem endOfInterrupt (req : Requester) (k : ProcId) (src : SourceId) : Statement (.endOfInterrupt req k src) := ⟨_, rfl, rfl⟩
theorem processorCtrlWrite (req : Requester) (k : ProcId) (value : Word) : Statement (.processorCtrlWrite req k value) := ⟨_, rfl, rfl⟩
theorem pcieLinkDown (tb4 : Bool) : Statement (.pcieLinkDown tb4) := ⟨_, rfl, rfl⟩
theorem functionLevelReset : Statement (.functionLevelReset) := ⟨_, rfl, rfl⟩
theorem powerStateChange (d3 : Bool) (link : Fin 3) (pme : Bool) (busMaster : Bool) (msix : MsixCtl) : Statement (.powerStateChange d3 link pme busMaster msix) := ⟨_, rfl, rfl⟩
theorem msixUnmask (vec : Option (Fin 32)) (msix : Bool) (busMaster : Bool) : Statement (.msixUnmask vec msix busMaster) := ⟨_, rfl, rfl⟩
theorem ringCfgWrite (req : Requester) (ring : Fin 22) (value : Word) : Statement (.ringCfgWrite req ring value) := ⟨.ringCfgWrite req 0 value, rfl, rfl⟩
theorem hostPoll (bells : List Word) (ok : Bool) : Statement (.hostPoll bells ok) := ⟨.hostPoll (List.replicate 21 0) ok, rfl, rfl⟩
theorem kick (req : Requester) : Statement (.kick req) := ⟨_, rfl, rfl⟩
theorem dmaReadError (ring : Fin 8) : Statement (.dmaReadError ring) := ⟨_, rfl, rfl⟩
theorem nop (c : NopCmd) : Statement (.nop c) := ⟨.nop ⟨blankCmd, 0⟩, rfl, rfl⟩
theorem regRead (c : Cmd) (fail : DieFail) : Statement (.regRead c fail) := ⟨.regRead blankCmd fail, rfl, rfl⟩
theorem regWrite (c : Cmd) (fail : DieFail) (cold : ColdIn) : Statement (.regWrite c fail cold) := ⟨.regWrite blankCmd fail cold, rfl, rfl⟩
theorem setVout (c : Cmd) : Statement (.setVout c) := ⟨.setVout blankCmd, rfl, rfl⟩
theorem setSlew (c : Cmd) : Statement (.setSlew c) := ⟨.setSlew blankCmd, rfl, rfl⟩
theorem faultAck (c : Cmd) : Statement (.faultAck c) := ⟨.faultAck blankCmd, rfl, rfl⟩
theorem domain (c : Cmd) : Statement (.domain c) := ⟨.domain blankCmd, rfl, rfl⟩
theorem logRead (c : Cmd) : Statement (.logRead c) := ⟨.logRead blankCmd, rfl, rfl⟩
theorem mapRead (c : Cmd) : Statement (.mapRead c) := ⟨.mapRead blankCmd, rfl, rfl⟩
theorem tileStage (c : Cmd) (host : Option (List Byte)) : Statement (.tileStage c host) := ⟨.tileStage blankCmd none, rfl, rfl⟩
theorem commit (c : Cmd) : Statement (.commit c) := ⟨.commit blankCmd, rfl, rfl⟩
theorem commitDiscard (c : Cmd) : Statement (.commitDiscard c) := ⟨.commitDiscard blankCmd, rfl, rfl⟩
theorem imageStage (c : Cmd) (host : Option (List Byte)) : Statement (.imageStage c host) := ⟨.imageStage blankCmd none, rfl, rfl⟩
theorem imageActivate (c : Cmd) : Statement (.imageActivate c) := ⟨.imageActivate blankCmd, rfl, rfl⟩
theorem keyEnrol (c : Cmd) (host : Option (List Byte)) : Statement (.keyEnrol c host) := ⟨.keyEnrol blankCmd none, rfl, rfl⟩
theorem warmStart (c : Cmd) : Statement (.warmStart c) := ⟨.warmStart blankCmd, rfl, rfl⟩
theorem policyCommand (c : Cmd) (opcode : Fin 128) : Statement (.policyCommand c opcode) := ⟨.policyCommand blankCmd opcode, rfl, rfl⟩
theorem policyTimeout (ring : Fin 8) : Statement (.policyTimeout ring) := ⟨_, rfl, rfl⟩
theorem completionModerationExpire (ring : Fin 22) : Statement (.completionModerationExpire ring) := ⟨.completionModerationExpire 8, rfl, rfl⟩
theorem telemetryFlush (kind : Fin 5) (inst : Fin 256) (trig : Fin 2) : Statement (.telemetryFlush kind inst trig) := ⟨_, rfl, rfl⟩
theorem page (write : Option Byte) (pec : Pec) : Statement (.page write pec) := ⟨_, rfl, rfl⟩
theorem operation (write : Option Byte) (pec : Pec) : Statement (.operation write pec) := ⟨_, rfl, rfl⟩
theorem clearFaults (pec : Pec) : Statement (.clearFaults pec) := ⟨_, rfl, rfl⟩
theorem writeProtect (write : Option Byte) (pec : Pec) : Statement (.writeProtect write pec) := ⟨_, rfl, rfl⟩
theorem capability (write : Bool) (pec : Pec) : Statement (.capability write pec) := ⟨_, rfl, rfl⟩
theorem voutMode (write : Bool) (pec : Pec) : Statement (.voutMode write pec) := ⟨_, rfl, rfl⟩
theorem voutCommandWrite (value : BitVec 16) (pec : Pec) : Statement (.voutCommandWrite value pec) := ⟨_, rfl, rfl⟩
theorem voutCommandRead : Statement (.voutCommandRead) := ⟨_, rfl, rfl⟩
theorem voutMax (write : Bool) (pec : Pec) : Statement (.voutMax write pec) := ⟨_, rfl, rfl⟩
theorem voutMin (write : Bool) (pec : Pec) : Statement (.voutMin write pec) := ⟨_, rfl, rfl⟩
theorem voutTransitionRateWrite (value : BitVec 16) (pec : Pec) : Statement (.voutTransitionRateWrite value pec) := ⟨_, rfl, rfl⟩
theorem voutTransitionRateRead : Statement (.voutTransitionRateRead) := ⟨_, rfl, rfl⟩
theorem coefficients (write : Bool) (pec : Pec) : Statement (.coefficients write pec) := ⟨_, rfl, rfl⟩
theorem ioutOcFaultLimit (write : Bool) (pec : Pec) : Statement (.ioutOcFaultLimit write pec) := ⟨_, rfl, rfl⟩
theorem statusRead (code : PmbCode) : Statement (.statusRead code) := ⟨.statusRead ⟨0, none⟩, rfl, rfl⟩
theorem statusWriteClear (code : PmbCode) (value : Byte) (pec : Pec) : Statement (.statusWriteClear code value pec) := ⟨.statusWriteClear ⟨0, none⟩ value pec, rfl, rfl⟩
theorem readVin (write : Bool) (pec : Pec) : Statement (.readVin write pec) := ⟨_, rfl, rfl⟩
theorem readIin (write : Bool) (pec : Pec) : Statement (.readIin write pec) := ⟨_, rfl, rfl⟩
theorem readPin (write : Bool) (pec : Pec) : Statement (.readPin write pec) := ⟨_, rfl, rfl⟩
theorem readVout (write : Bool) (pec : Pec) : Statement (.readVout write pec) := ⟨_, rfl, rfl⟩
theorem readIout (write : Bool) (pec : Pec) : Statement (.readIout write pec) := ⟨_, rfl, rfl⟩
theorem readPout (write : Bool) (pec : Pec) : Statement (.readPout write pec) := ⟨_, rfl, rfl⟩
theorem readTemperature1 (write : Bool) (pec : Pec) : Statement (.readTemperature1 write pec) := ⟨_, rfl, rfl⟩
theorem pmbusRevision (write : Bool) (pec : Pec) : Statement (.pmbusRevision write pec) := ⟨_, rfl, rfl⟩
theorem mfrId (write : Bool) (pec : Pec) : Statement (.mfrId write pec) := ⟨_, rfl, rfl⟩
theorem mfrModel (write : Bool) (pec : Pec) : Statement (.mfrModel write pec) := ⟨_, rfl, rfl⟩
theorem mfrRevision (write : Bool) (pec : Pec) : Statement (.mfrRevision write pec) := ⟨_, rfl, rfl⟩
theorem mfrSerial (write : Bool) (pec : Pec) : Statement (.mfrSerial write pec) := ⟨_, rfl, rfl⟩
theorem mfrRegAddr (write : Option Word) (pec : Pec) : Statement (.mfrRegAddr write pec) := ⟨_, rfl, rfl⟩
theorem mfrRegDataRead (dieOk : Bool) : Statement (.mfrRegDataRead dieOk) := ⟨_, rfl, rfl⟩
theorem mfrRegDataWrite (value : Word) (dieOk : Bool) (pec : Pec) (cold : ColdIn) : Statement (.mfrRegDataWrite value dieOk pec cold) := ⟨_, rfl, rfl⟩
theorem mfrFaultSummary (write : Bool) (pec : Pec) : Statement (.mfrFaultSummary write pec) := ⟨_, rfl, rfl⟩
theorem mfrFaultAck (value : Word) (pec : Pec) : Statement (.mfrFaultAck value pec) := ⟨_, rfl, rfl⟩
theorem mfrDomain (value : Byte) (pec : Pec) : Statement (.mfrDomain value pec) := ⟨_, rfl, rfl⟩
theorem mfrEpoch (write : Bool) (pec : Pec) : Statement (.mfrEpoch write pec) := ⟨_, rfl, rfl⟩
theorem mfrSeqState (write : Bool) (pec : Pec) : Statement (.mfrSeqState write pec) := ⟨_, rfl, rfl⟩
theorem smbusTimeout : Statement (.smbusTimeout) := ⟨_, rfl, rfl⟩
theorem alertResponse : Statement (.alertResponse) := ⟨_, rfl, rfl⟩
theorem mctpPacket (binding : Fin 2) (src : Byte) (dest : Byte) (som : Bool) (eom : Bool) (seq : Fin 4) (tag : Fin 16) (payload : List Byte) : Statement (.mctpPacket binding src dest som eom seq tag payload) := ⟨.mctpPacket binding src dest som eom seq tag [0], rfl, rfl⟩
theorem setEndpointId (k : Nat) : Statement (.setEndpointId k) := ⟨_, rfl, rfl⟩
theorem getEndpointId (k : Nat) : Statement (.getEndpointId k) := ⟨_, rfl, rfl⟩
theorem getEndpointUuid (k : Nat) : Statement (.getEndpointUuid k) := ⟨_, rfl, rfl⟩
theorem getMctpVersionSupport (k : Nat) : Statement (.getMctpVersionSupport k) := ⟨_, rfl, rfl⟩
theorem getMessageTypeSupport (k : Nat) : Statement (.getMessageTypeSupport k) := ⟨_, rfl, rfl⟩
theorem mctpRegRead (k : Nat) (fail : Option (Fin 32)) : Statement (.mctpRegRead k fail) := ⟨_, rfl, rfl⟩
theorem getVersion (k : Nat) : Statement (.getVersion k) := ⟨_, rfl, rfl⟩
theorem getCapabilities (k : Nat) : Statement (.getCapabilities k) := ⟨_, rfl, rfl⟩
theorem negotiateAlgorithms (k : Nat) : Statement (.negotiateAlgorithms k) := ⟨_, rfl, rfl⟩
theorem getDigests (k : Nat) : Statement (.getDigests k) := ⟨_, rfl, rfl⟩
theorem getCertificate (k : Nat) : Statement (.getCertificate k) := ⟨_, rfl, rfl⟩
theorem challenge (k : Nat) : Statement (.challenge k) := ⟨_, rfl, rfl⟩
theorem getMeasurements (k : Nat) : Statement (.getMeasurements k) := ⟨_, rfl, rfl⟩
theorem chunkGet (k : Nat) : Statement (.chunkGet k) := ⟨_, rfl, rfl⟩
theorem spdmSignatureDone : Statement (.spdmSignatureDone) := ⟨_, rfl, rfl⟩
theorem mbtake (req : Requester) (slot : Fin 32) : Statement (.mbtake req slot) := ⟨_, rfl, rfl⟩
theorem mbdone (req : Requester) (d : MbDone) : Statement (.mbdone req d) := ⟨.mbdone req ⟨0, []⟩, rfl, rfl⟩
theorem bootok (req : Requester) : Statement (.bootok req) := ⟨_, rfl, rfl⟩
theorem fwWarmRequest (req : Requester) (key : BitVec 16) : Statement (.fwWarmRequest req key) := ⟨_, rfl, rfl⟩
theorem bootTimeout (cold : ColdIn) : Statement (.bootTimeout cold) := ⟨_, rfl, rfl⟩
theorem stgctlGo (req : Requester) (kind : Fin 16) (index : Fin 8192) : Statement (.stgctlGo req kind index) := ⟨_, rfl, rfl⟩
theorem cmtctlGo (req : Requester) : Statement (.cmtctlGo req) := ⟨_, rfl, rfl⟩
theorem cmtctlDiscard (req : Requester) : Statement (.cmtctlDiscard req) := ⟨_, rfl, rfl⟩
theorem nvmLineWrite (b : LineBack) : Statement (.nvmLineWrite b) := ⟨_, rfl, rfl⟩
theorem scrubCheck (nvmOk : Bool) (copyOk : Bool) : Statement (.scrubCheck nvmOk copyOk) := ⟨_, rfl, rfl⟩
theorem nvmRddataRead (req : Requester) : Statement (.nvmRddataRead req) := ⟨_, rfl, rfl⟩
theorem registerWrite (req : Requester) (off : BitVec 21) (value : Word) (cold : ColdIn) : Statement (.registerWrite req off value cold) := ⟨.registerWrite req 0 value cold, rfl, rfl⟩
theorem w1cClear (req : Requester) (off : BitVec 21) (value : Word) : Statement (.w1cClear req off value) := ⟨.w1cClear req 0x40 0xf, rfl, rfl⟩
theorem counterClear (req : Requester) (off : BitVec 21) (value : Word) : Statement (.counterClear req off value) := ⟨.counterClear req 0x44 1, rfl, rfl⟩
theorem pcieLinkUp (gen : Fin 4) (two : Bool) : Statement (.pcieLinkUp gen two) := ⟨_, rfl, rfl⟩
theorem pwmEdge (p : PhaseId) (edge : PwmEdge) : Statement (.pwmEdge p edge) := ⟨_, rfl, rfl⟩
theorem alertLineRelease (d : DieId) (lane : Fin 4) : Statement (.alertLineRelease d lane) := ⟨_, rfl, rfl⟩
theorem tbLockLoss (tb : Fin 3) : Statement (.tbLockLoss tb) := ⟨_, rfl, rfl⟩
theorem loopComparatorInactive (n : LoopId) (ov : Bool) : Statement (.loopComparatorInactive n ov) := ⟨_, rfl, rfl⟩

end Sys2Proof.Laws.Givable
end

