-- ==== Sys2Proof/Tests/Slice0.lean ====
section
/-! SUPPORT. Ill-formed commands refused, worked values of the spec, and for every statement with hypotheses states and operands that meet them together. -/

namespace Sys2Proof.Machine

/-! ## A configured management interface -/

/-- An entry of a table put in without a look at what an unlisted key reads as. -/
def rawCells {α : Type} : List (Nat × α) → Nat → α → List (Nat × α)
  | [], k, v => [(k, v)]
  | (j, w) :: t, k, v => if j = k then (k, v) :: t else if k < j then (k, v) :: (j, w) :: t else (j, w) :: rawCells t k v

theorem rawCells_eq {α : Type} [DecidableEq α] (d : Nat → α) (l : List (Nat × α)) (k : Nat) (v : α) (h : v ≠ d k) : cellsSet d l k v = rawCells l k v := by
  induction l with
  | nil => simp [cellsSet, rawCells, h]
  | cons e t ih =>
    obtain ⟨j, w⟩ := e
    simp only [cellsSet, rawCells, if_neg h, ih]

/-- What PMB.CFG holds after reset, by the address strap. -/
def strapped (x : Fin 8) : Word :=
  resetFields [⟨24, 7, .ro, 0x40 + x.val⟩, ⟨19, 1, .rwl, 1⟩, ⟨18, 1, .rwl, 0⟩, ⟨17, 1, .rwl, 0⟩, ⟨16, 1, .rwl, 1⟩, ⟨8, 8, .rwl, 0⟩]

theorem strapped_address : ∀ x : Fin 8, (strapped x).getLsbD 30 = true := by decide

theorem cfg_reset_ne (w : Word) (h : w.getLsbD 30 = false) : w ≠ resetWord PMB.CFG := by
  have h1 : resetWord PMB.CFG = strapped Config.pmbStrap := rfl
  rintro rfl
  rw [h1, strapped_address] at h
  cases h

/-- The chip with a word in PMB.CFG, which the kernel can read back though the reset value is opaque. -/
def Chip.rawCfg (s : Chip) (w : Word) (h : w.getLsbD 30 = false) : Chip :=
  { s with regs := ⟨rawCells s.regs.entries PMB.CFG w, rawCells_eq resetWord _ _ _ (cfg_reset_ne w h) ▸ cellsSet_wf _ _ _ _ s.regs.wf⟩ }

end Sys2Proof.Machine

namespace Sys2Proof.Tests

set_option Elab.async false
set_option maxRecDepth 100000
set_option linter.unusedVariables false

open Sys2Proof Sys2Proof.Machine

/-- The device as reset leaves it. -/
def base : Chip := {}

/-- A device whose domains are all on, with its host link up in D0, LOCKED as given by the chip. -/
def up (c : Chip) : Chip :=
  ({ (((((c.domsPut true).put PWR.DOMSTAT_PX 127).put PWR.DOMSTAT_HOLDUP 0).put HIF.STAT_LINKUP 1).put HIF.STAT_DSTATE 0).put HIF.CTRL_EN 0 with
    power := ⟨true, true, true, false, none⟩, fw := { c.fw with released := true } }.put PMB.STAT_WP 0)

/-- The device with command ring 3 and completion ring 5 running and a command waiting. -/
def ringUp (c : Chip) : Chip :=
  { ((((((((((((up c).put HIF.CTRL_EN 1).put (RING.STAT_STATE 3) 1).put (RING.CFG_CPLSEL 3) 5).put (RING.STAT_STATE 13) 1).put (RING.CFG_LOG2N 13) 6).put (RING.HIDX_HIDX 3) 1).put
    (RING.DIDX_DIDX 3) 0).put (RING.HIDX_HIDX 13) 0).put (RING.DIDX_DIDX 13) 0).put (RING.MOD_MODCNT 13) 255).put FW.STAT_HOLD 0).put FLT.STAT_SAFE 0 with rings := (c.rings.set 3 {}).set 13 {} }

/-- An owner key (the curve's base point: private key 1), and a signature by it. -/
def testKey : List Byte := (bytesLE 48 g384x).reverse ++ (bytesLE 48 g384y).reverse
def testSign (d : List Byte) : List Byte := (bytesLE 48 g384x).reverse ++ (bytesLE 48 ((natBE d + g384x) % n384)).reverse

/-- A signed image of four bytes, and a memory with it in slot 1. -/
def testHead : List Byte :=
  bytesLE 4 0x3159444e ++ [1, 0, 1, 0] ++ List.replicate 8 0 ++ bytesLE 4 5 ++ bytesLE 4 4 ++ List.replicate 40 0 ++ sha384 [1, 2, 3, 4] ++ sha384 testKey
def testImage : List Byte := testHead ++ testSign (sha384 testHead) ++ List.replicate 256 0 ++ [1, 2, 3, 4]
def testNvm : List Host.Cell := nvmWrite [] (slotBase 1) testImage
def owned (c : Chip) : Chip := { c with boot := { c.boot with owner := some testKey, minsvn := 5 } }


def hv (s : State) : State := { s with chip := s.chip.put PWR.DOMSTAT_HOLDUP 1 }

/-- A command of ring 3 whose ARGS begin as given. -/
def testCmd (args : List Byte) : Cmd := ⟨3, 0, 0x1234, 0, args ++ List.replicate (56 - args.length) 0⟩

/-! ## Commands that cannot be given -/

theorem wf_refuses_short_args : (Instr.nop ⟨⟨0, 0, 0, 0, [0]⟩, 0⟩).wf = false := by decide
theorem wf_refuses_unaligned_flit : (Instr.serviceFlitFail 0 .tap 2 true).wf = false := by decide
theorem wf_refuses_long_answer : (Instr.stageStatAnswer 0 0 ⟨0, 0, true, false, List.replicate 64 0, 0⟩).wf = false := by decide
theorem wf_refuses_ring_17 : (Instr.ringCfgWrite .tap 17 0).wf = false := by decide
theorem wf_refuses_moderation_of_ring_17 : (Instr.completionModerationExpire 17).wf = false := by decide
theorem wf_refuses_moderation_of_a_command_ring : (Instr.completionModerationExpire 7).wf = false := by decide
theorem wf_refuses_poll_of_20_rings : (Instr.hostPoll (List.replicate 20 0) true).wf = false := by decide
theorem wf_refuses_short_tile : (Instr.tileStage (testCmd []) (some (List.replicate 259 0))).wf = false := by decide +kernel
theorem wf_refuses_image_of_another_length : (Instr.imageStage (testCmd []) (some [0])).wf = false := by decide
theorem wf_refuses_short_enrolment : (Instr.keyEnrol (testCmd []) (some (List.replicate 255 0))).wf = false := by decide +kernel
theorem wf_refuses_empty_packet : (Instr.mctpPacket 0 8 9 true true 0 0 []).wf = false := by decide
theorem wf_refuses_listed_opcode_in_nop : (Instr.nop ⟨(testCmd []), 0x01⟩).wf = false := by decide +kernel
theorem wf_refuses_listed_pmbus_code : (Instr.statusRead ⟨0, (some 0x03)⟩).wf = false := by decide
theorem wf_refuses_clear_of_other_register : (Instr.w1cClear .tap 0x4 1).wf = false := by decide +kernel
theorem wf_refuses_count_clear_of_other_register : (Instr.counterClear .tap 0x4 1).wf = false := by decide +kernel

/-! ## Worked values of the spec -/

/-- "123456789", whose check values R186 and R478 give. -/
def digits : List Byte := [0x31, 0x32, 0x33, 0x34, 0x35, 0x36, 0x37, 0x38, 0x39]

theorem test_tile_check_word : crc32c digits = 0xE3069283 := by decide +kernel
theorem test_stage_check_word : stageCrc digits = 0x29B1 := by decide +kernel

/-- The answer of a command as a chip. -/
def after (o : Host.Outcome State Fault Refusal) : Chip :=
  match o with
  | .next t => t.chip
  | _ => {}

/-- Phase 5 of the reference card: 0.4195 V is code 357, which scales to 0x17B (the example under R211). -/
def card5 : State :=
  { chip := { (((up base).put (IADC.CFG_ZERO 5) 256).put (IADC.CFG_GAIN 5) 960) with phases := base.phases.set 5 { convs := [(0, false)] } } }

theorem test_phase_5_result :
    (after (Machine.exec (.iadcResult 5 419500000) card5)).get (IADC.RES0_CODE 5) = 357 ∧
      (after (Machine.exec (.iadcResult 5 419500000) card5)).get (IADC.RES0_AMPS 5) = 0x17B := by decide +kernel

/-- The code's low end: 0 at −60 A (the example under R211). -/
theorem test_phase_5_low_end : (after (Machine.exec (.iadcResult 5 0) card5)).getS (IADC.RES0_AMPS 5) = -960 := by decide +kernel

/-- A bell of a source whose messages have not been delivered merges: a second one is counted, nothing else is lost (R391). -/
theorem test_bells_merge : ((((up base).bell 7).bell 7).bells.get 7) = 2 := by decide +kernel

/-- The first tick of TB0 takes 30 µs and keeps 33,920 parts of 65,536 (R43). -/
theorem test_idle_tick : (({ chip := up base } : State).idle).chip.time.now = 30 ∧ (({ chip := up base } : State).idle).chip.time.frac = 33920 := by decide +kernel

/-! ## States that meet the statements' hypotheses -/

theorem witness_IdleStepCountsTime :
    ∃ s : State, s.pending = [] ∧ s.chip.power.aon = true ∧ s.chip.time.frac < 65536 ∧ s.chip.time.now < 2 ^ 64 :=
  ⟨({ chip := up base } : State), by decide +kernel⟩

theorem witness_ResetGivesEveryFieldItsResetValue :
    ∃ (o : Nat) (d : Dom) (r : RegRow) (f : FieldRow), regAt o = some (d, r) ∧ f ∈ r.fields := by
  refine ⟨0, (regAt 0).get (by decide +kernel) |>.1, (regAt 0).get (by decide +kernel) |>.2, ((regAt 0).get (by decide +kernel)).2.fields.head (by decide +kernel), ?_, ?_⟩
  · simp
  · exact List.head_mem _

theorem witness_EveryStepKeepsTheMemoryCanonical : ∃ s : State, s.Sound := ⟨{ chip := up base }, by decide +kernel⟩

theorem witness_OtherCommandsLeaveTheMemory : ∃ c : Instr, mayWriteNvm c = false := ⟨.hswQualified, by decide⟩

/-! ## The test image is authentic -/

theorem nvmBytes_write (l : List Byte) (m : List Host.Cell) (a k n : Nat) (h : Memory.wf m) (hk : k + n ≤ l.length) :
    nvmBytes (nvmWrite m a l) (a + k) n = (l.drop k).take n := by
  apply List.ext_getElem
  · simp [nvmBytes]; omega
  · intro i h1 h2
    have hi : k + i < l.length := by simp [nvmBytes] at h1; omega
    simp [nvmBytes, Nat.add_assoc, nvmByte_write_same l m a (k + i) h hi]

theorem testHead_ok : imageHeadOk (testImage.take 512) = true := by decide +kernel

theorem testHead_signature :
    ecdsaOk testKey (sha384 ((testImage.take 512).take 0xa0)) (((testImage.take 512).drop 0xa0).take 96) = true := by decide +kernel

/-- The memory with the signed image of an enrolled owner authenticates: every check of R457 passes. -/
theorem test_image_authentic (s : Chip) (ho : s.boot.owner = some testKey) (hv : s.boot.minsvn ≤ 5) : s.authRes testNvm 1 = 0 := by
  have h : slotHeader testNvm 1 = testImage.take 512 := nvmBytes_write testImage [] (slotBase 1) 0 512 (by decide) (by decide +kernel)
  have hl : fieldLE (testImage.take 512) 0x14 4 = 4 := by decide +kernel
  have hb : nvmBytes testNvm (slotBase 1 + 512) 4 = [1, 2, 3, 4] :=
    (nvmBytes_write testImage [] (slotBase 1) 512 4 (by decide) (by decide +kernel)).trans (by decide +kernel)
  have hs : ((testImage.take 512).drop 0x40).take 48 = sha384 [1, 2, 3, 4] := by decide +kernel
  have hk : s.signerKey (testImage.take 512) = some testKey := by
    have h1 : fieldLE (testImage.take 512) 6 2 ≠ 0 := by decide +kernel
    have h2 : (((testImage.take 512).drop 0x70).take 48 == sha384 testKey) = true := by decide +kernel
    simp only [Chip.signerKey, if_neg h1, ho, Option.bind_some, h2, if_true]
  have hv5 : ¬ fieldLE (testImage.take 512) 0x10 4 < s.boot.minsvn := by
    have h3 : fieldLE (testImage.take 512) 0x10 4 = 5 := by decide +kernel
    omega
  unfold Chip.authRes
  simp only [h, testHead_ok, hl, hb, hs, hk, testHead_signature, if_neg hv5, Bool.not_true, bne_self_eq_false, Bool.false_eq_true, if_false]

/-! ## A device number that an enrolment names -/

theorem get_setReg_far (s : Chip) (o : Nat) (w : Word) (f : Fld) (h : f.off ≠ o) : (s.setReg o w).get f = s.get f := by
  simp only [Chip.get, reg_setReg_other _ _ _ _ h]

theorem serves_setReg (s : Chip) (c : Cmd) (o : Nat) (w : Word) (h : o < 0x20) : (s.setReg o w).serves c = s.serves c := by
  have g : ∀ f : Fld, 0x20 ≤ f.off → (s.setReg o w).get f = s.get f := fun f hf => get_setReg_far s o w f (by omega)
  have g1 : ∀ r, (s.setReg o w).get (RING.CFG_CPLSEL r) = s.get (RING.CFG_CPLSEL r) := fun r => g _ (by simp only [RING.CFG_CPLSEL, RING.CFG]; omega)
  have g2 : ∀ r, (s.setReg o w).get (RING.CFG_LOG2N r) = s.get (RING.CFG_LOG2N r) := fun r => g _ (by simp only [RING.CFG_LOG2N, RING.CFG]; omega)
  have g3 : ∀ r, (s.setReg o w).get (RING.STAT_STATE r) = s.get (RING.STAT_STATE r) := fun r => g _ (by simp only [RING.STAT_STATE, RING.STAT]; omega)
  have g4 : ∀ r, (s.setReg o w).get (RING.HIDX_HIDX r) = s.get (RING.HIDX_HIDX r) := fun r => g _ (by simp only [RING.HIDX_HIDX, RING.HIDX]; omega)
  have g5 : ∀ r, (s.setReg o w).get (RING.DIDX_DIDX r) = s.get (RING.DIDX_DIDX r) := fun r => g _ (by simp only [RING.DIDX_DIDX, RING.DIDX]; omega)
  have g6 : ∀ r, (s.setReg o w).get (RING.MOD_MODCNT r) = s.get (RING.MOD_MODCNT r) := fun r => g _ (by simp only [RING.MOD_MODCNT, RING.MOD]; omega)
  have g7 : (s.setReg o w).get HIF.STAT_LINKUP = s.get HIF.STAT_LINKUP := g _ (by decide)
  have g8 : (s.setReg o w).get HIF.STAT_DSTATE = s.get HIF.STAT_DSTATE := g _ (by decide)
  have g9 : (s.setReg o w).get HIF.CTRL_EN = s.get HIF.CTRL_EN := g _ (by decide)
  have ga : (s.setReg o w).get PWR.DOMSTAT_HOST = s.get PWR.DOMSTAT_HOST := g _ (by decide)
  have hr : (s.setReg o w).rings = s.rings := rfl
  have gb : ∀ r, (s.setReg o w).get (RING.CFG_FBURST r) = s.get (RING.CFG_FBURST r) := fun r => g _ (by simp only [RING.CFG_FBURST, RING.CFG]; omega)
  have hh : (s.setReg o w).hif = s.hif := rfl
  have hw : (s.setReg o w).cmdWork = s.cmdWork := by
    funext k
    simp only [Chip.cmdWork, Chip.ringRuns, Chip.ringFull, Chip.ringUsed, Chip.inD0, Chip.bit, Chip.domOn, g1, g2, g3, g4, g5, g7, g8, g9, ga, hr]
    rfl
  have ht : (s.setReg o w).cmdTurn = s.cmdTurn := by simp only [Chip.cmdTurn, hw, hh, gb]
  simp only [Chip.serves, Chip.cmdReady, ht, g1, g6, hr]

/-- The device with zeros in its device number. -/
def plainUid (c : Chip) : Chip := (((c.setReg TOP.UID0 0).setReg TOP.UID1 0).setReg TOP.UID2 0).setReg TOP.UID3 0

theorem plainUid_bytes (c : Chip) : (plainUid c).uidBytes = List.replicate 16 0 := by
  have h0 : (plainUid c).reg TOP.UID0 = 0 := by
    rw [plainUid, reg_setReg_other _ _ _ _ (by decide), reg_setReg_other _ _ _ _ (by decide), reg_setReg_other _ _ _ _ (by decide), reg_setReg_same]
  have h1 : (plainUid c).reg TOP.UID1 = 0 := by
    rw [plainUid, reg_setReg_other _ _ _ _ (by decide), reg_setReg_other _ _ _ _ (by decide), reg_setReg_same]
  have h2 : (plainUid c).reg TOP.UID2 = 0 := by rw [plainUid, reg_setReg_other _ _ _ _ (by decide), reg_setReg_same]
  have h3 : (plainUid c).reg TOP.UID3 = 0 := by rw [plainUid, reg_setReg_same]
  simp only [Chip.uidBytes, List.flatMap_cons, List.flatMap_nil, h0, h1, h2, h3]
  decide

/-- An enrolment block of the test key for the device number 0. -/
def testEnrol : List Byte := testKey ++ List.replicate 64 0 ++ testSign (sha384 (testKey ++ List.replicate 64 0 ++ List.replicate 16 0))

theorem witness_enrolment :
    ∃ (s : State) (c : Cmd) (l : List Byte), s.chip.serves c = true ∧ cmdClean c [(16, 8)] = true ∧ c.target = 0 ∧ s.chip.boot.owner = none ∧ l.length = 256 ∧
      fieldLE l 96 1 < 2 ∧ fieldLE l 97 63 = 0 ∧ ecdsaOk (l.take 96) (sha384 (l.take 160 ++ s.chip.uidBytes)) ((l.drop 160).take 96) = true := by
  refine ⟨{ chip := plainUid { ringUp base with boot := { base.boot with owner := none } } }, testCmd [], testEnrol, ?_, by decide +kernel, by decide, rfl, by decide +kernel,
    by decide +kernel, by decide +kernel, ?_⟩
  · simp only [plainUid]
    rw [serves_setReg _ _ _ _ (by decide), serves_setReg _ _ _ _ (by decide), serves_setReg _ _ _ _ (by decide), serves_setReg _ _ _ _ (by decide)]
    decide +kernel
  · rw [plainUid_bytes]
    decide +kernel

theorem witness_SuppliesSwitchTheDomains :
    (∃ (s : State), s.chip.power.aon = false) ∧
    (∃ (s : State), s.chip.power.aon = true) ∧
    (∃ (s : State), s.chip.power.aon = true ∧ s.chip.power.vaux = false) ∧
    (∃ (s : State), s.chip.power.aon = true ∧ s.chip.power.vaux = true ∧ s.chip.power.supplies = true ∧ s.chip.inHoldup = false ∧ s.chip.domOn .core = true) ∧
    (∃ (s : State), s.chip.power.aon = true ∧ s.chip.power.vaux = true ∧ s.chip.inHoldup = false) ∧
    (∃ (s : State), s.chip.inHoldup = true) :=
  ⟨⟨({ chip := ({ base with power := { base.power with aon := false } } : Chip) } : State), by decide +kernel⟩,
    ⟨({ chip := ({ base with power := { base.power with vaux := false } } : Chip) } : State), by decide +kernel⟩,
    ⟨({ chip := ({ base with power := { base.power with vaux := false } } : Chip) } : State), by decide +kernel⟩,
    ⟨({ chip := (({ base with power := { base.power with supplies := true } }.put PWR.DOMSTAT_CORE 1).put PWR.DOMSTAT_HOLDUP 0 : Chip) } : State), by decide +kernel⟩,
    ⟨({ chip := ((base.put PWR.DOMSTAT_HOLDUP 0).put PWR.DOMSTAT_CORE 1 : Chip) } : State), by decide +kernel⟩,
    ⟨({ chip := ((base.put PWR.DOMSTAT_HOLDUP 1).put PWR.DOMSTAT_CORE 1 : Chip) } : State), by decide +kernel⟩⟩

theorem witness_DieLinksReportAndFail :
    (∃ (s : State) (d : DieId), s.chip.dieOn (d.val + 1) = true) ∧
    (∃ (s : State) (d : DieId), s.chip.dieOn (d.val + 1) = true) ∧
    (∃ (s : State) (d : DieId), s.chip.dieOn (d.val + 1) = true ∧ (s.chip.dies.get (d.val + 1)).training = true) ∧
    (∃ (s : State) (d : DieId), s.chip.dieOn (d.val + 1) = true) ∧
    (∃ (s : State) (d : DieId), s.chip.dieOn (d.val + 1) = true ∧ (s.chip.dies.get (d.val + 1)).resends < 3) ∧
    (∃ (s : State) (d : DieId), s.chip.dieOn (d.val + 1) = true ∧ (s.chip.dies.get (d.val + 1)).resends = 3) ∧
    (∃ (s : State) (d : DieId) (k : Fin 4) (off : BitVec 17) (write : Bool), s.chip.reqUp (.pp k) = true ∧ off.toNat % 4 = 0 ∧ (s.chip.dies.get (d.val + 1)).resends = 3 ∧ s.chip.dieAccess (dieWindow + 0x20000 * d.val + off.toNat) = true) ∧
    (∃ (s : State) (d : DieId), s.chip.dieOn (d.val + 1) = true ∧ s.chip.dieRuns (d.val + 1) = true) ∧
    (∃ (s : State) (d : DieId), s.chip.dieOn (d.val + 1) = true ∧ (s.chip.dies.get (d.val + 1)).training = true) :=
  ⟨⟨({ chip := (up base : Chip) } : State), (0 : DieId), by decide +kernel⟩,
    ⟨({ chip := (up base : Chip) } : State), (6 : DieId), by decide +kernel⟩,
    ⟨({ chip := ({ up base with dies := base.dies.upd 3 fun h => { h with training := true } } : Chip) } : State), (2 : DieId), by decide +kernel⟩,
    ⟨({ chip := ({ up base with dies := base.dies.upd 7 fun h => { h with resends := 3 } } : Chip) } : State), (6 : DieId), by decide +kernel⟩,
    ⟨({ chip := ({ up base with dies := base.dies.upd 7 fun h => { h with resends := 2 } } : Chip) } : State), (6 : DieId), by decide +kernel⟩,
    ⟨({ chip := ({ up base with dies := base.dies.upd 7 fun h => { h with resends := 3 } } : Chip) } : State), (6 : DieId), by decide +kernel⟩,
    ⟨({ chip := ({ up base with dies := base.dies.upd 7 fun h => { h with resends := 3 } } : Chip) } : State), (6 : DieId), (0 : Fin 4), (0x800 : BitVec 17), (true : Bool), by decide +kernel⟩,
    ⟨({ chip := ({ up base with gens := base.gens.upd 223 fun h => { h with go := true } } : Chip) } : State), (6 : DieId), by decide +kernel⟩,
    ⟨({ chip := ({ up base with dies := base.dies.upd 7 fun h => { h with training := true } } : Chip) } : State), (6 : DieId), by decide +kernel⟩⟩

theorem witness_ProcessorsSleepAndWake :
    (∃ (s : State) (req : Requester), s.chip.reaches req PWR.DOMCTL = true) ∧
    (∃ (s : State), s.chip.get PWR.DOMCTL_POLSLP = 1 ∧ s.chip.domOn .pol = true ∧ (s.chip.evh.winners.all fun w => w.isNone) = true ∧ s.chip.get FW.STAT_START = 0) ∧
    (∃ (s : State) (i : Nat), s.chip.coreRuns = true ∧ s.chip.evh.wake = some i ∧ s.chip.polAsleep = true) :=
  ⟨⟨({ chip := (up base : Chip) } : State), (.pp 0 : Requester), by decide +kernel⟩,
    ⟨({ chip := (((up base).put PWR.DOMCTL_POLSLP 1).put FW.STAT_START 0 : Chip) } : State), by decide +kernel⟩,
    ⟨({ chip := ({ ((up base).put PWR.DOMCTL_POLSLP 1).put PWR.DOMSTAT_POL 0 with evh := { base.evh with wake := some 0x7ff } } : Chip) } : State), (0x7ff : Nat), by decide +kernel⟩⟩

theorem witness_TimeBasesAreWatched :
    (∃ (s : State) (idx : BitVec 8), s.chip.coreRuns = true ∧ s.chip.get TIME.SPEED_LOWLIM ≤ idx.toNat ∧ idx.toNat ≤ s.chip.get TIME.SPEED_LOWLIM + 8) ∧
    (∃ (s : State) (idx : BitVec 8), s.chip.coreRuns = true ∧ s.chip.get TIME.SPEED_LOWLIM + 8 < idx.toNat) ∧
    (∃ (s : State) (idx : BitVec 8), s.chip.coreRuns = true ∧ idx.toNat < s.chip.get TIME.SPEED_LOWLIM) ∧
    (∃ (s : State), s.chip.domOn .aon = true ∧ s.chip.get TIME.TBSTAT_TB0OK = 1) ∧
    (∃ (s : State), s.chip.domOn .aon = true ∧ s.chip.get TIME.TBSTAT_TB1OK = 1) ∧
    (∃ (s : State), s.chip.domOn .aon = true ∧ s.chip.get TIME.TBSTAT_TB1OK = 0) ∧
    (∃ (s : State), s.chip.domOn .aon = true ∧ s.chip.get TIME.TBSTAT_TB0OK = 0) ∧
    (∃ (s : State) (a : Nat), s.chip.domOn .aon = true ∧ s.chip.time.tb1Back = some a ∧ s.chip.get TIME.TBSTAT_TB1OK = 1 ∧ a + 1000 ≤ s.chip.now) ∧
    (∃ (s : State) (tb : Fin 3) (f : Fld), s.chip.domOn .aon = true ∧ f = [TIME.TBSTAT_TB2LK, TIME.TBSTAT_TB3LK, TIME.TBSTAT_TB7LK].getD tb.val f ∧ s.chip.get f = 1) ∧
    (∃ (s : State) (req : Requester) (w : Fin 7), s.chip.reqUp req = true ∧ s.chip.offAt (snapPairs.getD w.val (0, [])).1 = false) :=
  ⟨⟨({ chip := ((up base).put TIME.SPEED_LOWLIM 0x60 : Chip) } : State), (0x68 : BitVec 8), by decide +kernel⟩,
    ⟨({ chip := (up base : Chip) } : State), (255 : BitVec 8), by decide +kernel⟩,
    ⟨({ chip := ({ up base with time := { base.time with slowArmed := true } } : Chip) } : State), (0 : BitVec 8), by decide +kernel⟩,
    ⟨({ chip := ((up base).put TIME.TBSTAT_TB0OK 1 : Chip) } : State), by decide +kernel⟩,
    ⟨({ chip := ((up base).put TIME.TBSTAT_TB1OK 1 : Chip) } : State), by decide +kernel⟩,
    ⟨({ chip := ((up base).put TIME.TBSTAT_TB1OK 0 : Chip) } : State), by decide +kernel⟩,
    ⟨({ chip := ((up base).put TIME.TBSTAT_TB0OK 0 : Chip) } : State), by decide +kernel⟩,
    ⟨({ chip := ({ (up base).put TIME.TBSTAT_TB1OK 1 with time := { base.time with now := 5000, tb1Back := some 4000 } } : Chip) } : State), (4000 : Nat), by decide +kernel⟩,
    ⟨({ chip := ((up base).put TIME.TBSTAT_TB3LK 1 : Chip) } : State), (1 : Fin 3), (TIME.TBSTAT_TB3LK : Fld), by decide +kernel⟩,
    ⟨({ chip := (up base : Chip) } : State), (.pcie : Requester), (0 : Fin 7), by decide +kernel⟩⟩

theorem witness_SuppliesGoodBeginsAColdStart :
    (∃ (s : State) (nvmOk : Bool) (idOk : Bool) (n : Fin 257), s.chip.power.aon = true ∧ s.chip.power.vaux = true ∧ s.chip.power.supplies = false ∧ s.chip.get PWR.DOMSTAT_HOLDUP = 0 ∧ s.chip.get THMA.SDSTAT_STATE = 0) ∧
    (∃ (s : State) (nvmOk : Bool) (idOk : Bool) (n : Fin 257), (nvmOk = false ∨ bootWhole s.nvm = false) ∧ s.chip.power.aon = true ∧ s.chip.power.vaux = true ∧ s.chip.power.supplies = false ∧ s.chip.get PWR.DOMSTAT_HOLDUP = 0 ∧ s.chip.get THMA.SDSTAT_STATE = 0) ∧
    (∃ (s : State) (n : Fin 257), bootWhole s.nvm = true ∧ s.chip.power.aon = true ∧ s.chip.power.vaux = true ∧ s.chip.power.supplies = false ∧ s.chip.get PWR.DOMSTAT_HOLDUP = 0 ∧ s.chip.get THMA.SDSTAT_STATE = 0) ∧
    (∃ (s : State) (n : Fin 257), bootWhole s.nvm = true ∧ s.chip.power.aon = true ∧ s.chip.power.vaux = true ∧ s.chip.power.supplies = false ∧ s.chip.get PWR.DOMSTAT_HOLDUP = 0 ∧ s.chip.get THMA.SDSTAT_STATE = 0 ∧ s.chip.get FWA.FAIL_FAILA = 3 ∧ s.chip.get FWA.FAIL_FAILB = 3) ∧
    (∃ (s : State) (cold : ColdIn), s.chip.power.aon = true ∧ s.chip.power.vaux = true ∧ s.chip.power.supplies = false ∧ s.chip.get PWR.DOMSTAT_HOLDUP = 0 ∧ s.chip.get THMA.SDSTAT_STATE = 0) ∧
    (∃ (s : State) (cold : ColdIn), s.chip.get PWR.DOMSTAT_HOLDUP = 1) :=
  ⟨⟨({ chip := ({ base with power := ⟨true, true, false, false, none⟩ } |>.put THMA.SDSTAT_STATE 0 |>.put PWR.DOMSTAT_HOLDUP 0 : Chip) } : State), (true : Bool), (false : Bool), (256 : Fin 257), by decide +kernel⟩,
    ⟨({ chip := ({ base with power := ⟨true, true, false, false, none⟩ } |>.put THMA.SDSTAT_STATE 0 |>.put PWR.DOMSTAT_HOLDUP 0 : Chip) } : State), (false : Bool), (true : Bool), (256 : Fin 257), by decide +kernel⟩,
    ⟨({ chip := ({ base with power := ⟨true, true, false, false, none⟩ } |>.put THMA.SDSTAT_STATE 0 |>.put PWR.DOMSTAT_HOLDUP 0 : Chip) } : State), (256 : Fin 257), by decide +kernel⟩,
    ⟨({ chip := ({ base with power := ⟨true, true, false, false, none⟩ } |>.put THMA.SDSTAT_STATE 0 |>.put PWR.DOMSTAT_HOLDUP 0 |>.put FWA.FAIL_FAILA 3 |>.put FWA.FAIL_FAILB 3 : Chip) } : State), (256 : Fin 257), by decide +kernel⟩,
    ⟨({ chip := ({ base with power := ⟨true, true, false, false, none⟩ } |>.put THMA.SDSTAT_STATE 0 |>.put PWR.DOMSTAT_HOLDUP 0 : Chip) } : State), (⟨true, true, true, 256⟩ : ColdIn), by decide +kernel⟩,
    ⟨({ chip := ({ base with power := ⟨true, true, false, false, none⟩ } |>.put PWR.DOMSTAT_HOLDUP 1 : Chip) } : State), (⟨true, true, true, 256⟩ : ColdIn), by decide +kernel⟩⟩

theorem witness_LoopSamplesFollowTheControlLaw :
    (∃ (s : State) (n : LoopId) (code : Int), s.chip.coreRuns = true ∧ (s.chip.loops.get n.val).code = some code ∧ s.chip.loopState n.val ∈ [1, 2, 3] ∧ s.chip.get (LOOP.STATUS_TRSTATE n.val) = 0 ∧ s.chip.get (PHSL.STATUS_PROC n.val) ≠ 3 ∧ ((s.chip.loops.get n.val).law (s.chip.loopState n.val) 0 code).tr = 0) ∧
    (∃ (s : State) (n : LoopId), s.chip.coreRuns = true ∧ s.chip.loopState n.val ≠ 0 ∧ (s.chip.loops.get n.val).ahead = none ∧ (s.chip.loops.get n.val).ff = .idle) :=
  ⟨⟨({ chip := ({ ((up base).put (LOOP.STATUS_STATE 5) 2).put (LOOP.STATUS_TRSTATE 5) 0 |>.put (PHSL.STATUS_PROC 5) 0 with loops := Tbl.empty.set 5 { code := some (-7), integ := 3 * 2 ^ 34, active := { imin := -32768, imax := 32767, ki := 99, b0 := 1000 } } } : Chip) } : State), (5 : LoopId), (-7 : Int), by decide +kernel⟩,
    ⟨({ chip := ({ (up base).put (LOOP.STATUS_STATE 5) 2 with loops := Tbl.empty.set 5 { integ := -9, e1 := 3, y2 := -8, run := { ctrl := 0x40, lline := 0x1234, isum := -17, set := { b1 := 7, a2 := -9, bsh := 5 } } } } : Chip) } : State), (5 : LoopId), by decide +kernel⟩⟩

theorem witness_ControlLawOfALinearSample :
    (∃ (h : LoopHw) (st : Nat) (code : Int) (y : Int) (i : Int) (u : Int), h.run.transient st 0 (h.trBlock && !decide (((satS 16 code).natAbs : Int) ≤ h.run.linband)) (satS 16 code) = 0 ∧ h.trExit = false ∧ h.noSink = false ∧ wordField h.run.ctrl 6 1 = 0 ∧ h.ff = .idle ∧ y = satS 80 ((h.run.set.b0 * satS 16 code + h.run.set.b1 * h.e1 + h.run.set.b2 * h.e2) * 2 ^ (37 - h.run.set.bsh) - (h.run.set.a1 * h.y1 + h.run.set.a2 * h.y2 + h.run.set.a3 * h.y3) * 2 ^ 9) ∧ i = satS 80 (h.integ * 2 ^ 22 + h.run.set.ki * satS 16 code * 2 ^ (37 - h.run.set.ish)) ∧ u = satS 32 (rne (satS 80 (min (max i (h.run.set.imin * 2 ^ 45)) (h.run.set.imax * 2 ^ 45) + y)) (2 ^ 30))) :=
  ⟨({ integ := 5, e1 := 2, e2 := -3, y1 := 9, run := { dclamp := 0xf0000100, dlimhw := 0xff000000, set := { imin := -3, imax := 32767, ki := 99, b0 := 100000, a1 := 5, bsh := 3, ish := 2 } } } : LoopHw), (2 : Nat), (33 : Int), (satS 80 ((100000 * 33) * 2 ^ 34 - 45 * 2 ^ 9) : Int), (satS 80 (5 * 2 ^ 22 + 99 * 33 * 2 ^ 35) : Int), (satS 32 (rne (satS 80 (min (max (satS 80 (5 * 2 ^ 22 + 99 * 33 * 2 ^ 35)) (-3 * 2 ^ 45)) (32767 * 2 ^ 45) + satS 80 ((100000 * 33) * 2 ^ 34 - 45 * 2 ^ 9))) (2 ^ 30)) : Int), by decide +kernel⟩

theorem witness_DutyAndIntegratorKeepTheirLimits :
    (∃ (h : LoopHw) (st : Nat) (tr0 : Nat) (code : Int), h.run.set.imin ≤ h.run.set.imax) :=
  ⟨({ duty := 77, trExit := true, integ := -5, e1 := 2, e2 := -3, y1 := 9, run := { ctrl := 0x100, ilim := 3, isum := 4, clim := 9, dclamp := 0xf0000100, dlimhw := 0xff000000, trduty := 0xfff0123, set := { imin := -3, imax := 32767, ki := 99, b0 := 100000, a1 := 5, bsh := 3, ish := 2 } } } : LoopHw), (2 : Nat), (1 : Nat), (33 : Int), by decide +kernel⟩

theorem witness_LoopTargetsMoveAndSamplesOverrun :
    (∃ (s : State) (n : LoopId) (vdiff : Int), s.chip.coreRuns = true ∧ s.chip.loopState n.val = 2 ∧ (s.chip.loops.get n.val).stopReq = false ∧ (s.chip.loops.get n.val).code = none ∧ (s.chip.loops.get n.val).next = none ∧ s.chip.get (LOOP.TARGET_VTGT n.val) ≤ s.chip.get (AVSL.VLIM_VMAX n.val)) ∧
    (∃ (s : State) (n : LoopId) (vdiff : Int) (k : Int), s.chip.coreRuns = true ∧ s.chip.loopState n.val = 2 ∧ (s.chip.loops.get n.val).stopReq = false ∧ (s.chip.loops.get n.val).code = some k ∧ (s.chip.loops.get n.val).next = none ∧ wordField (s.chip.loops.get n.val).run.ctrl 0 1 = 1) ∧
    (∃ (s : State) (n : LoopId) (vdiff : Int), s.chip.coreRuns = true ∧ s.chip.loopState n.val = 1 ∧ (s.chip.loops.get n.val).stopReq = false ∧ s.chip.get (LOOP.TARGET_VTGT n.val) = s.chip.get (AVSL.SETPT_SETPT n.val)) ∧
    (∃ (s : State) (n : LoopId) (vdiff : Int), s.chip.coreRuns = true ∧ s.chip.loopState n.val = 3 ∧ (s.chip.loops.get n.val).stopReq = false ∧ s.chip.get (LOOP.TARGET_VTGT n.val) ≤ wordField (s.chip.loops.get n.val).run.soft 0 14) ∧
    (∃ (s : State) (n : LoopId) (k : Int), s.chip.coreRuns = true ∧ s.chip.loopState n.val ≠ 0 ∧ (s.chip.loops.get n.val).code = some k ∧ s.chip.get (LOOP.OVR_CONSEC n.val) < 3) ∧
    (∃ (s : State) (n : LoopId), s.chip.coreRuns = true ∧ 0 < (s.chip.loops.get n.val).ovrDue) ∧
    (∃ (s : State) (n : LoopId), s.chip.coreRuns = true ∧ s.chip.get (LOOP.STATUS_TRSTATE n.val) ≠ 0 ∧ orOne (wordField (s.chip.loops.get n.val).run.trband 16 10) ≤ (s.chip.loops.get n.val).trn ∧ s.chip.get (PHSL.STATUS_PROC n.val) ≠ 3) ∧
    (∃ (s : State) (n : LoopId), s.chip.coreRuns = true ∧ 0 < (s.chip.loops.get n.val).ilimDue) ∧
    (∃ (s : State) (n : LoopId) (step : Int) (base : Int) (l : Nat) (hid : Nat) (due : Nat), s.chip.coreRuns = true ∧ (s.chip.loops.get n.val).ff = .armed step base l hid due ∧ due ≤ 4 * s.chip.now) :=
  ⟨⟨({ chip := ({ (up base).put (LOOP.STATUS_STATE 5) 2 |>.put (LOOP.TARGET_VTGT 5) 1000 |>.put (AVSL.SETPT_SETPT 5) 1100 |>.put (AVSL.VLIM_VMAX 5) 1200 |>.put (AVSL.SLEW_SLEWMAX 5) 5000 |>.put (AVSL.SLEW_SLEWCMD 5) 50000 |>.put (LOOP.RATE_SPER 5) 100 with loops := Tbl.empty.set 5 { frac := 3 } } : Chip) } : State), (5 : LoopId), (4017 : Int), by decide +kernel⟩,
    ⟨({ chip := ({ (up base).put (LOOP.STATUS_STATE 5) 2 |>.put (LOOP.TARGET_VTGT 5) 1000 |>.put (AVSL.SETPT_SETPT 5) 1000 |>.put (AVSL.VLIM_VMAX 5) 1200 with loops := Tbl.empty.set 5 { code := some (-3), run := { ctrl := 1 } } } : Chip) } : State), (5 : LoopId), (4017 : Int), (-3 : Int), by decide +kernel⟩,
    ⟨({ chip := ((up base).put (LOOP.STATUS_STATE 7) 1 |>.put (LOOP.TARGET_VTGT 7) 1000 |>.put (AVSL.SETPT_SETPT 7) 1000 : Chip) } : State), (7 : LoopId), (4000 : Int), by decide +kernel⟩,
    ⟨({ chip := ({ (up base).put (LOOP.STATUS_STATE 7) 3 |>.put (LOOP.TARGET_VTGT 7) 10 with loops := base.loops.set 7 { integ := 9, duty := 8, run := { soft := 11 } } } : Chip) } : State), (7 : LoopId), (4000 : Int), by decide +kernel⟩,
    ⟨({ chip := ({ (up base).put (LOOP.STATUS_STATE 7) 2 |>.put (LOOP.OVR_CONSEC 7) 2 with loops := base.loops.set 7 { integ := 4, code := some 5, next := some 6 } } : Chip) } : State), (7 : LoopId), (5 : Int), by decide +kernel⟩,
    ⟨({ chip := ({ up base with loops := base.loops.set 31 { ovrDue := 2 } } : Chip) } : State), (31 : LoopId), by decide +kernel⟩,
    ⟨({ chip := ({ (up base).put (LOOP.STATUS_TRSTATE 7) 2 |>.put (PHSL.STATUS_PROC 7) 0 with loops := base.loops.set 7 { trn := 5, run := { trband := 0x50000 } } } : Chip) } : State), (7 : LoopId), by decide +kernel⟩,
    ⟨({ chip := ({ up base with loops := base.loops.set 7 { ilimDue := 1 } } : Chip) } : State), (7 : LoopId), by decide +kernel⟩,
    ⟨({ chip := ({ up base with loops := base.loops.set 7 { ff := .armed 5 0 7 63 400 }, time := { base.time with now := 100 } } : Chip) } : State), (7 : LoopId), (5 : Int), (0 : Int), (7 : Nat), (63 : Nat), (400 : Nat), by decide +kernel⟩⟩

theorem witness_LoopsStartAndStop :
    (∃ (s : State) (n : LoopId) (l : List (Nat × LoopCmd)), s.chip.coreRuns = true ∧ s.chip.loopState n.val = 0 ∧ s.chip.loopCmds = (n.val, .start) :: l) ∧
    (∃ (s : State) (n : LoopId) (cmd : LoopCmd) (l : List (Nat × LoopCmd)), s.chip.coreRuns = true ∧ s.chip.loopState n.val ≠ 0 ∧ s.chip.loopCmds = (n.val, cmd) :: l ∧ cmd ≠ .start ∧ (cmd = .stop → s.chip.get (LOOP.CTRL_STOPM n.val) = 1)) ∧
    (∃ (s : State) (n : LoopId) (l : List (Nat × LoopCmd)), s.chip.coreRuns = true ∧ s.chip.loopState n.val = 2 ∧ s.chip.loopCmds = (n.val, .stop) :: l ∧ s.chip.get (LOOP.CTRL_STOPM n.val) = 0 ∧ (s.chip.tunes.get n.val).phase = .idle) ∧
    (∃ (s : State) (d : DieId) (n : LoopId), s.chip.coreRuns = true ∧ s.chip.dieOn (d.val + 1) = true ∧ s.chip.loopState n.val ≠ 0) ∧
    (∃ (s : State) (d : DieId) (n : LoopId) (v : Int) (rest : List Int), s.chip.coreRuns = true ∧ s.chip.sumLanes.get (32 * (d.val + 1) + n.val) = v :: rest ∧ s.chip.sumNext (d.val + 1) n.val = some n.val) ∧
    (∃ (s : State) (n : LoopId) (settled : BitVec 224), s.chip.coreRuns = true) ∧
    (∃ (s : State) (d : DieId) (n : LoopId) (p : PhaseId) (w : LaneWord) (settled : BitVec 224), s.chip.coreRuns = true ∧ s.chip.holds.get (32 * (d.val + 1) + n.val) = some w ∧ w.tag ∈ [0, 2, 3] ∧ (∀ e : DieId, e ≠ d → s.chip.holds.get (32 * (e.val + 1) + n.val) = none) ∧ p.val / 32 = d.val ∧ s.chip.owner p.val = some n.val ∧ s.chip.get (PWM.CTRL_EN p.val) = 1) :=
  ⟨⟨({ chip := ({ (up base).put (LOOP.STATUS_STATE 9) 0 |>.put (SEQR.STAT_STATE 9) 2 with loopCmds := [(9, .start), (3, .stop)] } : Chip) } : State), (9 : LoopId), ([(3, .stop)] : List (Nat × LoopCmd)), by decide +kernel⟩,
    ⟨({ chip := ({ (up base).put (LOOP.STATUS_STATE 9) 2 |>.put (LOOP.CTRL_STOPM 9) 1 |>.put (SEQR.STAT_STATE 9) 2 with loopCmds := [(9, .stop), (3, .stop)] } : Chip) } : State), (9 : LoopId), (.stop : LoopCmd), ([(3, .stop)] : List (Nat × LoopCmd)), by decide +kernel⟩,
    ⟨({ chip := ({ (up base).put (LOOP.STATUS_STATE 9) 2 |>.put (LOOP.CTRL_STOPM 9) 0 with loopCmds := [(9, .stop), (3, .stop)], loops := base.loops.set 9 { integ := 7, duty := 5 } } : Chip) } : State), (9 : LoopId), ([(3, .stop)] : List (Nat × LoopCmd)), by decide +kernel⟩,
    ⟨({ chip := ({ (up base).put (LOOP.STATUS_STATE 9) 2 |>.put (PHS.ASSIGN_OWN 223) 1 |>.put (PHS.ASSIGN_LOOP 223) 9 |>.put (PHS.STATE_ROLE 223) 3 with phases := base.phases.set 223 { fresh := true, latest := -77 } } : Chip) } : State), (6 : DieId), (9 : LoopId), by decide +kernel⟩,
    ⟨({ chip := ({ up base with sumLanes := Tbl.empty.set (32 * 7 + 31) [5, 6] } : Chip) } : State), (6 : DieId), (31 : LoopId), (5 : Int), ([6] : List Int), by decide +kernel⟩,
    ⟨({ chip := ({ up base with holds := (base.holds.set (32 * 7 + 31) (some ⟨0x80000, 0, true⟩)).set (32 + 31) none } : Chip) } : State), (31 : LoopId), (0 : BitVec 224), by decide +kernel⟩,
    ⟨({ chip := ({ (((up base).put (PHS.ASSIGN_OWN 223) 1 |>.put (PHS.ASSIGN_LOOP 223) 31).put (PWM.CTRL_EN 223) 1 |>.put (PHS.TRIM_TRIM 223) 8191) with holds := (Tbl.empty.set (32 * 7 + 31) (some ⟨0x80000, 0, true⟩)) } : Chip) } : State), (6 : DieId), (31 : LoopId), (223 : PhaseId), (⟨0x80000, 0, true⟩ : LaneWord), (0 : BitVec 224), by decide +kernel⟩⟩

theorem witness_CoefficientSetsSwap :
    (∃ (s : State) (req : Requester) (n : LoopId) (set : Fin 4), s.chip.reaches req (COEF.SEL n.val) = true ∧ bitAt (s.chip.get (COEF.SETVAL_VALID n.val)) set.val = false) ∧
    (∃ (s : State) (req : Requester) (n : LoopId) (set : Fin 4), s.chip.reaches req (COEF.SEL n.val) = true ∧ bitAt (s.chip.get (COEF.SETVAL_VALID n.val)) set.val = true ∧ s.chip.loopState n.val = 4) ∧
    (∃ (s : State) (req : Requester) (n : LoopId) (set : Fin 4), s.chip.reaches req (COEF.SEL n.val) = true ∧ bitAt (s.chip.get (COEF.SETVAL_VALID n.val)) set.val = true ∧ s.chip.loopState n.val ≠ 4 ∧ (s.chip.tunes.get n.val).phase = .idle ∧ (s.chip.loops.get n.val).swaps ≠ []) ∧
    (∃ (s : State) (req : Requester) (n : LoopId) (set : Fin 4), s.chip.reaches req (COEF.SEL n.val) = true ∧ bitAt (s.chip.get (COEF.SETVAL_VALID n.val)) set.val = true ∧ s.chip.loopState n.val ∉ [0, 4] ∧ (s.chip.tunes.get n.val).phase = .idle ∧ (s.chip.loops.get n.val).swaps = []) ∧
    (∃ (s : State) (req : Requester) (n : LoopId) (set : Fin 4), s.chip.reaches req (COEF.SEL n.val) = true ∧ bitAt (s.chip.get (COEF.SETVAL_VALID n.val)) set.val = true ∧ s.chip.loopState n.val = 0 ∧ (s.chip.tunes.get n.val).phase = .idle ∧ (s.chip.loops.get n.val).swaps = [] ∧ s.chip.flt.inj = none) ∧
    (∃ (s : State) (n : LoopId) (set : Fin 4) (b : Chip), b = s.chip.coefBoundary n.val ∧ s.chip.domOn .core = true ∧ (s.chip.loops.get n.val).code = none ∧ s.chip.loopState n.val ∈ [1, 2, 3] ∧ (s.chip.loops.get n.val).swaps = [.request set.val] ∧ bitAt (b.get (COEF.SETVAL_VALID n.val)) set.val = true ∧ s.chip.flt.inj = none) :=
  ⟨⟨({ chip := ({ (up base).put (COEF.SETVAL_VALID 31) 7 with flt := { base.flt with inj := none } } : Chip) } : State), (.pcie : Requester), (31 : LoopId), (3 : Fin 4), by decide +kernel⟩,
    ⟨({ chip := ((up base).put (COEF.SETVAL_VALID 0) 15 |>.put (LOOP.STATUS_STATE 0) 4 : Chip) } : State), (.pp 1 : Requester), (0 : LoopId), (1 : Fin 4), by decide +kernel⟩,
    ⟨({ chip := ({ (up base).put (COEF.SETVAL_VALID 0) 15 |>.put (LOOP.STATUS_STATE 0) 2 with loops := base.loops.set 0 { swaps := [.contents 2 {} 0] } } : Chip) } : State), (.pp 2 : Requester), (0 : LoopId), (1 : Fin 4), by decide +kernel⟩,
    ⟨({ chip := ({ (up base).put (COEF.SETVAL_VALID 0) 15 |>.put (LOOP.STATUS_STATE 0) 3 with loops := base.loops.set 0 { swaps := [] } } : Chip) } : State), (.ring : Requester), (0 : LoopId), (1 : Fin 4), by decide +kernel⟩,
    ⟨({ chip := ({ (up base).put (COEF.SETVAL_VALID 0) 15 |>.put (LOOP.STATUS_STATE 0) 0 with loops := base.loops.set 0 { swaps := [] }, coefs := base.coefs.set 3 { ki := 7 }, flt := { base.flt with inj := none } } : Chip) } : State), (.ring : Requester), (0 : LoopId), (3 : Fin 4), by decide +kernel⟩,
    ⟨({ chip := ({ (up base).put (COEF.SETVAL_VALID 7) 15 |>.put (LOOP.STATUS_STATE 7) 2 with loops := base.loops.set 7 { swaps := [.request 2], code := none, integ := 2^33, e1 := 5, active := { imin := -32768, imax := 32767, b1 := 1000 } }, coefs := base.coefs.set 30 { ki := 7, b1 := -99, imin := -30000, imax := 30000 }, flt := { base.flt with inj := none } } : Chip) } : State), (7 : LoopId), (2 : Fin 4), (({ (up base).put (COEF.SETVAL_VALID 7) 15 |>.put (LOOP.STATUS_STATE 7) 2 with loops := base.loops.set 7 { swaps := [.request 2], code := none, integ := 2^33, e1 := 5, active := { imin := -32768, imax := 32767, b1 := 1000 } }, coefs := base.coefs.set 30 { ki := 7, b1 := -99, imin := -30000, imax := 30000 }, flt := { base.flt with inj := none } }).coefBoundary 7 : Chip), by decide +kernel⟩⟩

theorem witness_AutoTuneRuns :
    (∃ (s : State) (req : Requester) (n : LoopId), s.chip.reaches req (COEF.TUNECTL n.val) = true ∧ s.chip.loopState n.val ≠ 2) ∧
    (∃ (s : State) (req : Requester) (n : LoopId), s.chip.reaches req (COEF.TUNECTL n.val) = true ∧ s.chip.loopState n.val = 2 ∧ s.chip.get (LOOP.STATUS_TRSTATE n.val) = 0 ∧ (s.chip.loops.get n.val).ff = .idle ∧ s.chip.get (COEF.TUNECFG_HREL n.val) ≠ 0 ∧ s.chip.get (COEF.TUNECFG_HREL n.val) ≤ s.chip.get (COEF.TUNELIM_HMAX n.val) ∧ s.chip.get (COEF.TUNECYC_NMEAS n.val) ≠ 0 ∧ s.chip.get (COEF.TUNECYC_MAXS n.val) ≠ 0 ∧ (s.chip.tunes.get n.val).phase = .idle ∧ (s.chip.loops.get n.val).swaps = []) ∧
    (∃ (s : State) (req : Requester) (n : LoopId), s.chip.reaches req (COEF.TUNECTL n.val) = true ∧ (s.chip.tunes.get n.val).phase = .waiting) ∧
    (∃ (s : State) (req : Requester) (n : LoopId), s.chip.reaches req (COEF.TUNECTL n.val) = true ∧ (s.chip.tunes.get n.val).phase = .running) ∧
    (∃ (s : State) (n : LoopId), s.chip.coreRuns = true ∧ (s.chip.tunes.get n.val).phase = .waiting ∧ (s.chip.tunes.get n.val).since + (s.chip.tunes.get n.val).wait ≤ s.chip.now) ∧
    (∃ (s : State) (n : LoopId), s.chip.coreRuns = true ∧ (s.chip.tunes.get n.val).phase = .granted ∧ s.chip.loopState n.val = 2) ∧
    (∃ (s : State) (n : LoopId) (code : Int) (e : Int) (hi : Nat) (lo : Nat), s.chip.coreRuns = true ∧ s.chip.loopState n.val = 4 ∧ (s.chip.tunes.get n.val).phase = .running ∧ (s.chip.loops.get n.val).code = some code ∧ e = satS 16 (code - (s.chip.loops.get n.val).run.loadLine) ∧ hi = dutyWord (min (((s.chip.tunes.get n.val).d0 * 2 ^ 10 + (s.chip.tunes.get n.val).hrel * 2 ^ 14 : Nat) : Int) ((s.chip.loops.get n.val).run.limits (s.chip.loops.get n.val).duty).ceil) ∧ lo = dutyWord (max (((s.chip.tunes.get n.val).d0 * 2 ^ 10 : Nat) - ((s.chip.tunes.get n.val).hrel * 2 ^ 14 : Nat) : Int) ((s.chip.loops.get n.val).run.limits (s.chip.loops.get n.val).duty).floor)) ∧
    (∃ (s : State) (n : LoopId), s.chip.coreRuns = true ∧ (s.chip.tunes.get n.val).phase = .running ∧ (s.chip.tunes.get n.val).maxs ≤ s.chip.get (COEF.TUNESTAT_SAMPLES n.val)) ∧
    (∃ (s : State) (n : LoopId), s.chip.coreRuns = true ∧ (s.chip.tunes.get n.val).phase = .ending ∧ s.chip.loopState n.val = 4 ∧ (s.chip.loops.get n.val).swaps = []) :=
  ⟨⟨({ chip := ((up base).put (LOOP.STATUS_STATE 31) 1 : Chip) } : State), (.pcie : Requester), (31 : LoopId), by decide +kernel⟩,
    ⟨({ chip := ({ (up base).put (LOOP.STATUS_STATE 6) 2 |>.put (LOOP.STATUS_TRSTATE 6) 0 |>.put (COEF.TUNECFG_HREL 6) 5 |>.put (COEF.TUNELIM_HMAX 6) 5 |>.put (COEF.TUNECYC_NMEAS 6) 1 |>.put (COEF.TUNECYC_MAXS 6) 1023 |>.put (LOOP.RATE_SPER 6) 200 with loops := base.loops.set 6 { swaps := [] }, tunes := base.tunes.set 6 {} } : Chip) } : State), (.pp 0 : Requester), (6 : LoopId), by decide +kernel⟩,
    ⟨({ chip := ({ up base with tunes := base.tunes.set 6 { phase := .waiting }, asks := [] } : Chip) } : State), (.pp 0 : Requester), (6 : LoopId), by decide +kernel⟩,
    ⟨({ chip := ({ up base with tunes := base.tunes.set 6 { phase := .running } } : Chip) } : State), (.pp 0 : Requester), (6 : LoopId), by decide +kernel⟩,
    ⟨({ chip := ({ up base with tunes := base.tunes.set 6 { phase := .waiting, since := 5, wait := 10 }, time := { base.time with now := 15 }, asks := [⟨.tune 6, 1, 1, 1⟩] } : Chip) } : State), (6 : LoopId), by decide +kernel⟩,
    ⟨({ chip := ({ (up base).put (LOOP.STATUS_STATE 6) 2 with tunes := base.tunes.set 6 { phase := .granted }, loops := base.loops.set 6 { duty := 77, integ := 4 } } : Chip) } : State), (6 : LoopId), by decide +kernel⟩,
    ⟨({ chip := ({ (up base).put (LOOP.STATUS_STATE 6) 4 |>.put (COEF.TUNESTAT_SAMPLES 6) 3 with tunes := base.tunes.set 6 { phase := .running, d0 := 4000, hrel := 200, hyst := 5 }, loops := base.loops.set 6 { duty := 77, integ := 4, code := some 33, run := { dclamp := 0xf0000100, dlimhw := 0xff000000 } } } : Chip) } : State), (6 : LoopId), (33 : Int), (33 : Int), (7200 : Nat), (4096 : Nat), by decide +kernel⟩,
    ⟨({ chip := ({ (up base).put (LOOP.STATUS_STATE 6) 4 |>.put (COEF.TUNESTAT_SAMPLES 6) 3 with tunes := base.tunes.set 6 { phase := .running, maxs := 3 } } : Chip) } : State), (6 : LoopId), by decide +kernel⟩,
    ⟨({ chip := ({ (up base).put (LOOP.STATUS_STATE 6) 4 with tunes := base.tunes.set 6 { phase := .ending, d0 := 0x12345 }, loops := base.loops.set 6 { e1 := 5, y2 := 7, active := { imin := -3, imax := 32767 }, heldSet := some 77 } } : Chip) } : State), (6 : LoopId), by decide +kernel⟩⟩

theorem witness_LoopComparatorsProtect :
    (∃ (s : State) (n : LoopId) (v : Int), s.chip.coreRuns = true ∧ s.chip.loopState n.val ∈ [2, 4] ∧ s.chip.get (LOOP.TARGET_RAMPING n.val) = 0 ∧ (s.chip.loops.get n.val).vhiAt = none ∧ s.chip.get (CMPL.EVT_OVACT n.val) = 0 ∧ s.chip.get (CMPL.CFG_OVEN n.val) = 1 ∧ (s.chip.tunes.get n.val).phase = .idle ∧ 4 * (min (s.chip.get (CMPL.ABS_OVABS n.val)) (s.chip.get (LOOP.TARGET_VTGT n.val) + 4 * s.chip.get (CMPL.REL_OVREL n.val)) : Nat) < v) ∧
    (∃ (s : State) (n : LoopId) (v : Int), s.chip.coreRuns = true ∧ s.chip.loopState n.val ∈ [0, 1] ∧ s.chip.get (CMPL.EVT_OVACT n.val) = 0 ∧ s.chip.get (CMPL.CFG_OVEN n.val) = 0 ∧ (s.chip.tunes.get n.val).phase = .idle ∧ ((4 * s.chip.get (CMPL.ABS_OVABS n.val) : Nat) : Int) < v) ∧
    (∃ (s : State) (n : LoopId) (v : Int), s.chip.domOn .core = true ∧ s.chip.get (CMPL.EVT_OVACT n.val) = 1) ∧
    (∃ (s : State) (n : LoopId) (v : Int), s.chip.coreRuns = true ∧ s.chip.loopState n.val ∈ [2, 4] ∧ s.chip.get (LOOP.TARGET_RAMPING n.val) = 0 ∧ (s.chip.loops.get n.val).maskAt = none ∧ s.chip.get (CMPL.EVT_UVACT n.val) = 0 ∧ s.chip.get (CMPL.CFG_UVEN n.val) = 1 ∧ (s.chip.tunes.get n.val).phase = .idle ∧ v < (4 * (s.chip.get (LOOP.TARGET_VTGT n.val) - 4 * s.chip.get (CMPL.REL_UVREL n.val)) : Nat)) ∧
    (∃ (s : State) (n : LoopId) (v : Int), s.chip.domOn .core = true ∧ (s.chip.loopState n.val ∉ [2, 4] ∨ s.chip.get (LOOP.TARGET_RAMPING n.val) = 1 ∨ (s.chip.loops.get n.val).maskAt.isSome = true)) ∧
    (∃ (s : State) (n : LoopId) (a : Nat), s.chip.coreRuns = true ∧ (s.chip.loops.get n.val).maskAt = some a ∧ (s.chip.loops.get n.val).vhiAt = some a ∧ a + s.chip.get (CMPL.CFG_RBLK n.val) ≤ s.chip.now) ∧
    (∃ (s : State) (n : LoopId) (a : Nat), s.chip.domOn .core = true ∧ (s.chip.loops.get n.val).maskAt = some a ∧ s.chip.now < a + s.chip.get (CMPL.CFG_RBLK n.val)) ∧
    (∃ (s : State) (n : LoopId), s.chip.coreRuns = true) ∧
    (∃ (s : State) (n : LoopId), s.chip.coreRuns = true) :=
  ⟨⟨({ chip := ({ (up base).put (LOOP.STATUS_STATE 31) 2 |>.put (LOOP.TARGET_RAMPING 31) 0 |>.put (CMPL.EVT_OVACT 31) 0 |>.put (CMPL.CFG_OVEN 31) 1 |>.put (CMPL.ABS_OVABS 31) 1000 |>.put (LOOP.TARGET_VTGT 31) 900 |>.put (CMPL.REL_OVREL 31) 10 with loops := base.loops.set 31 {} } : Chip) } : State), (31 : LoopId), (3761 : Int), by decide +kernel⟩,
    ⟨({ chip := ({ (up base).put (LOOP.STATUS_STATE 0) 0 |>.put (LOOP.TARGET_RAMPING 0) 0 |>.put (CMPL.EVT_OVACT 0) 0 |>.put (CMPL.CFG_OVEN 0) 0 |>.put (CMPL.ABS_OVABS 0) 1000 with loops := base.loops.set 0 {} } : Chip) } : State), (0 : LoopId), (4001 : Int), by decide +kernel⟩,
    ⟨({ chip := ((up base).put (CMPL.EVT_OVACT 5) 1 : Chip) } : State), (5 : LoopId), (999999 : Int), by decide +kernel⟩,
    ⟨({ chip := ({ (up base).put (LOOP.STATUS_STATE 31) 2 |>.put (LOOP.TARGET_RAMPING 31) 0 |>.put (CMPL.EVT_UVACT 31) 0 |>.put (CMPL.CFG_UVEN 31) 1 |>.put (LOOP.TARGET_VTGT 31) 900 |>.put (CMPL.REL_UVREL 31) 10 with loops := base.loops.set 31 {} } : Chip) } : State), (31 : LoopId), (3439 : Int), by decide +kernel⟩,
    ⟨({ chip := ((up base).put (LOOP.STATUS_STATE 5) 1 : Chip) } : State), (5 : LoopId), (0 : Int), by decide +kernel⟩,
    ⟨({ chip := ({ (up base).put (CMPL.CFG_RBLK 5) 3 with loops := base.loops.set 5 { maskAt := some 100, vhiAt := some 100 }, time := { base.time with now := 103 } } : Chip) } : State), (5 : LoopId), (100 : Nat), by decide +kernel⟩,
    ⟨({ chip := ({ (up base).put (CMPL.CFG_RBLK 5) 3 with loops := base.loops.set 5 { maskAt := some 100 }, time := { base.time with now := 102 } } : Chip) } : State), (5 : LoopId), (100 : Nat), by decide +kernel⟩,
    ⟨({ chip := ((up base).put (CMPL.EVT_OVACT 5) 1 : Chip) } : State), (5 : LoopId), by decide +kernel⟩,
    ⟨({ chip := ((up base).put (CMPL.EVT_UVACT 31) 1 : Chip) } : State), (31 : LoopId), by decide +kernel⟩⟩

theorem witness_WindowMonitorsJudgeTheirRails :
    (∃ (s : State) (r : RailId) (uv : Int), s.chip.domOn .aon = true ∧ s.chip.get (WMON.CFG_EN r.val) = 1 ∧ s.chip.gridAt (gridRail r.val) (s.chip.wmTickInt r.val) = true ∧ s.chip.grid.get (gridConf r.val) ≠ s.chip.now + 1 ∧ ((s.chip.get (WMON.THR_WHI r.val) * 1000 : Nat) : Int) < uv) ∧
    (∃ (s : State) (r : RailId) (uv : Int), s.chip.domOn .aon = true ∧ s.chip.get (WMON.CFG_EN r.val) = 1 ∧ s.chip.gridAt (gridRail r.val) (s.chip.wmTickInt r.val) = true ∧ s.chip.grid.get (gridConf r.val) ≠ s.chip.now + 1 ∧ uv ≤ (s.chip.get (WMON.THR_WHI r.val) * 1000 : Nat) ∧ uv < (s.chip.get (WMON.THR_WLO r.val) * 1000 : Nat)) ∧
    (∃ (s : State) (r : RailId) (uv : Int), s.chip.domOn .aon = true ∧ s.chip.get (WMON.CFG_EN r.val) = 1 ∧ s.chip.gridAt (gridRail r.val) (s.chip.wmTickInt r.val) = true ∧ s.chip.grid.get (gridConf r.val) ≠ s.chip.now + 1 ∧ ((s.chip.get (WMON.THR_WLO r.val) + s.chip.get (WMON.CFG_WHYS r.val) : Nat) : Int) * 1000 < uv ∧ uv < ((s.chip.get (WMON.THR_WHI r.val) : Int) - s.chip.get (WMON.CFG_WHYS r.val)) * 1000) ∧
    (∃ (s : State) (r : RailId) (uv : Int), s.chip.domOn .aon = true ∧ s.chip.get (WMON.CFG_EN r.val) = 1 ∧ s.chip.gridAt (gridRail r.val) (s.chip.wmTickInt r.val) = true ∧ s.chip.grid.get (gridConf r.val) ≠ s.chip.now + 1 ∧ uv ≤ (s.chip.get (WMON.THR_WHI r.val) * 1000 : Nat) ∧ ((s.chip.get (WMON.THR_WLO r.val) * 1000 : Nat) : Int) ≤ uv ∧ (uv ≤ ((s.chip.get (WMON.THR_WLO r.val) + s.chip.get (WMON.CFG_WHYS r.val) : Nat) : Int) * 1000 ∨ ((s.chip.get (WMON.THR_WHI r.val) : Int) - s.chip.get (WMON.CFG_WHYS r.val)) * 1000 ≤ uv)) ∧
    (∃ (s : State) (r : RailId) (uv : Int), s.chip.gridAt (gridRail r.val) (s.chip.wmTickInt r.val) = false) ∧
    (∃ (s : State) (r : RailId) (uv : Int), s.chip.domOn .aon = true ∧ s.chip.get (WMON.CFG_EN r.val) = 1 ∧ s.chip.gridAt (gridRail r.val) (s.chip.wmTickInt r.val) = true ∧ s.chip.grid.get (gridConf r.val) = s.chip.now + 1) ∧
    (∃ (s : State) (r : RailId) (uv : Int), s.chip.get (WMON.CFG_EN r.val) = 0 ∧ s.chip.domOn .core = false ∨ s.chip.get (SEQR.STAT_STATE r.val) = 0) ∧
    (∃ (s : State) (r : RailId), s.chip.get (WMON.CFG_EN r.val) = 1 ∧ s.chip.get (WMON.CFG_CONFEN r.val) = 1 ∧ s.chip.get (WMON.STAT_STATE r.val) = 3 ∧ s.chip.get (WMON.STAT_CONFPEND r.val) = 0 ∧ 2 ^ s.chip.get (WMON.CFG_CONFDLY r.val) ≤ s.chip.undet.get r.val ∧ s.chip.domOn .hka = true) :=
  ⟨⟨({ chip := ({ (up base).put (WMON.CFG_EN 63) 1 |>.put (WMON.CFG_TICK 63) 1000 |>.put (WMON.THR_WHI 63) 1000 |>.put (WMON.STAT_STATE 63) 0 |>.put (SEQR.STAT_STATE 63) 4 with time := { base.time with now := 5000, prev := 4999 }, grid := .empty, undet := base.undet } : Chip) } : State), (63 : RailId), (1000001 : Int), by decide +kernel⟩,
    ⟨({ chip := ({ (up base).put (WMON.CFG_EN 0) 1 |>.put (WMON.CFG_TICK 0) 0 |>.put (WMON.THR_WHI 0) 1000 |>.put (WMON.THR_WLO 0) 900 |>.put (WMON.STAT_STATE 0) 0 |>.put (SEQR.STAT_STATE 0) 4 with time := { base.time with now := 5000, prev := 4999 }, grid := .empty, undet := base.undet } : Chip) } : State), (0 : RailId), (899999 : Int), by decide +kernel⟩,
    ⟨({ chip := ({ (up base).put (WMON.CFG_EN 5) 1 |>.put (WMON.CFG_TICK 5) 2 |>.put (WMON.THR_WHI 5) 1000 |>.put (WMON.THR_WLO 5) 900 |>.put (WMON.CFG_WHYS 5) 10 |>.put (WMON.STAT_STATE 5) 3 with time := { base.time with now := 5000, prev := 4999 }, grid := .empty, undet := base.undet } : Chip) } : State), (5 : RailId), (910001 : Int), by decide +kernel⟩,
    ⟨({ chip := ({ (up base).put (WMON.CFG_EN 5) 1 |>.put (WMON.CFG_TICK 5) 2 |>.put (WMON.THR_WHI 5) 1000 |>.put (WMON.THR_WLO 5) 900 |>.put (WMON.CFG_WHYS 5) 10 |>.put (WMON.STAT_STATE 5) 3 with time := { base.time with now := 5000, prev := 4999 }, grid := .empty, undet := base.undet } : Chip) } : State), (5 : RailId), (910000 : Int), by decide +kernel⟩,
    ⟨({ chip := ({ (up base).put (WMON.CFG_EN 5) 1 |>.put (WMON.CFG_TICK 5) 2 with time := { base.time with now := 5001, prev := 5000 }, grid := .empty } : Chip) } : State), (5 : RailId), (910000 : Int), by decide +kernel⟩,
    ⟨({ chip := ({ (up base).put (WMON.CFG_EN 5) 1 |>.put (WMON.CFG_TICK 5) 2 |>.put (WMON.STAT_STATE 5) 2 with time := { base.time with now := 5000, prev := 4999 }, grid := Tbl.set .empty (gridConf 5) 5001 } : Chip) } : State), (5 : RailId), (910000 : Int), by decide +kernel⟩,
    ⟨({ chip := ((up base).put (WMON.CFG_EN 5) 0 |>.put (SEQR.STAT_STATE 5) 0 : Chip) } : State), (5 : RailId), (910000 : Int), by decide +kernel⟩,
    ⟨({ chip := ({ (up base).put (WMON.CFG_EN 5) 1 |>.put (WMON.CFG_CONFEN 5) 1 |>.put (WMON.STAT_STATE 5) 3 |>.put (WMON.STAT_CONFPEND 5) 0 |>.put (WMON.CFG_CONFDLY 5) 3 with undet := base.undet.set 5 8 } : Chip) } : State), (5 : RailId), by decide +kernel⟩⟩

theorem witness_DutyWordsReachTheGenerators :
    (∃ (s : State) (d : DieId) (n : LoopId) (w : LaneWord) (rest : List CtlWord) (settled : BitVec 224), s.chip.dieOn (d.val + 1) = true ∧ s.chip.lanes.get (32 * (d.val + 1) + n.val) = .duty w :: rest ∧ s.chip.laneNext (d.val + 1) n.val = some n.val) ∧
    (∃ (s : State) (d : DieId) (n : LoopId) (w : LaneWord) (rest : List CtlWord) (settled : BitVec 224), s.chip.dieOn (d.val + 1) = true ∧ s.chip.lanes.get (32 * (d.val + 1) + n.val) = .duty w :: rest ∧ s.chip.laneNext (d.val + 1) n.val = some n.val ∧ w.fixed = true) ∧
    (∃ (s : State) (d : DieId) (n : LoopId) (p : PhaseId) (w : LaneWord) (rest : List CtlWord) (settled : BitVec 224), s.chip.dieOn (d.val + 1) = true ∧ s.chip.lanes.get (32 * (d.val + 1) + n.val) = .duty w :: rest ∧ s.chip.laneNext (d.val + 1) n.val = some n.val ∧ w.fixed = false ∧ w.tag ∈ [0, 2, 3] ∧ p.val / 32 = d.val ∧ s.chip.owner p.val = some n.val ∧ s.chip.get (PWM.CTRL_EN p.val) = 1) ∧
    (∃ (s : State) (d : DieId) (n : LoopId) (good : Bool) (settled : BitVec 224), s.chip.laneNext (d.val + 1) n.val ≠ some n.val) ∧
    (∃ (s : State) (d : DieId) (n : LoopId), 3 ≤ s.chip.discards.get (32 * (d.val + 1) + n.val)) ∧
    (∃ (s : State) (req : Requester) (p : PhaseId) (value : Word), s.chip.reaches req (PWM.CMPB p.val) = true ∧ s.chip.get (PWM.CTRL_MOD p.val) = 3) ∧
    (∃ (s : State) (p : PhaseId) (cmp : Bool) (cmp2 : Bool), s.chip.genRuns p.val = true ∧ s.chip.single p.val = true ∧ (s.chip.gens.get p.val).shedOff = false ∧ (s.chip.gens.get p.val).go = true ∧ s.chip.get (PWM.CTRL_MOD p.val) ≠ 3 ∧ s.chip.get (PWM.SHDW_D p.val) ≤ s.chip.genPeriod p.val) ∧
    (∃ (s : State) (p : PhaseId) (cmp : Bool) (cmp2 : Bool) (a : Nat) (b : Nat), s.chip.genRuns p.val = true ∧ s.chip.single p.val = true ∧ (s.chip.gens.get p.val).shedOff = false ∧ s.chip.get (PWM.CTRL_MOD p.val) = 3 ∧ (s.chip.gens.get p.val).cmpPair = some (a, b) ∧ a < 2 ^ 22 ∧ b < 2 ^ 22) :=
  ⟨⟨({ chip := ({ (up base) with lanes := base.lanes.set 255 [.duty ⟨5, 2, true⟩, .duty ⟨6, 0, false⟩], laneTurn := base.laneTurn.set 63 3, discards := base.discards.set 255 3 } : Chip) } : State), (6 : DieId), (31 : LoopId), (⟨5, 2, true⟩ : LaneWord), ([.duty ⟨6, 0, false⟩] : List CtlWord), (0 : BitVec 224), by decide +kernel⟩,
    ⟨({ chip := ({ up base with lanes := base.lanes.set 255 [.duty ⟨5, 2, true⟩, .duty ⟨6, 0, false⟩], laneTurn := base.laneTurn.set 63 3, discards := base.discards.set 255 3 } : Chip) } : State), (6 : DieId), (31 : LoopId), (⟨5, 2, true⟩ : LaneWord), ([.duty ⟨6, 0, false⟩] : List CtlWord), (0 : BitVec 224), by decide +kernel⟩,
    ⟨({ chip := ({ (((up base).put (PHS.ASSIGN_OWN 223) 1 |>.put (PHS.ASSIGN_LOOP 223) 31).put (PWM.CTRL_EN 223) 1 |>.put (PHS.TRIM_TRIM 223) 8191) with lanes := base.lanes.set 255 [.duty ⟨5, 2, false⟩, .duty ⟨6, 0, false⟩], laneTurn := base.laneTurn.set 63 3 } : Chip) } : State), (6 : DieId), (31 : LoopId), (223 : PhaseId), (⟨5, 2, false⟩ : LaneWord), ([.duty ⟨6, 0, false⟩] : List CtlWord), (0 : BitVec 224), by decide +kernel⟩,
    ⟨({ chip := ({ up base with lanes := (base.lanes.set 255 [.duty ⟨5, 2, false⟩]).set 231 [.duty ⟨6, 0, false⟩], laneTurn := base.laneTurn.set 63 0 } : Chip) } : State), (6 : DieId), (31 : LoopId), (true : Bool), (0 : BitVec 224), by decide +kernel⟩,
    ⟨({ chip := ({ up base with discards := base.discards.set 32 3 } : Chip) } : State), (0 : DieId), (0 : LoopId), by decide +kernel⟩,
    ⟨({ chip := ({ (up base).put (PWM.CTRL_MOD 5) 3 with gens := base.gens.set 5 { cmpA := 77 } } : Chip) } : State), (.pcie : Requester), (5 : PhaseId), (0xffffffff : Word), by decide +kernel⟩,
    ⟨({ chip := ({ (up base).put (PWM.CTRL_MOD 223) 2 |>.put (PWM.CTRL_EN 223) 1 |>.put (PWM.CTRL_PAIR 222) 0 |>.put (PWM.PERIOD_PER 223) 100 |>.put (PWM.SHDW_D 223) 777 |>.put (PWM.SHDW_TAG 223) 2 with gens := base.gens.set 223 { go := true, stage := .post, fired := 3 } } : Chip) } : State), (223 : PhaseId), (false : Bool), (true : Bool), by decide +kernel⟩,
    ⟨({ chip := ({ (up base).put (PWM.CTRL_MOD 2) 3 |>.put (PWM.CTRL_EN 2) 1 |>.put (PWM.CTRL_PAIR 2) 0 |>.put (PWM.PERIOD_PER 2) 100 |>.put (PWM.CTRL_ENSNK 2) 0 with gens := base.gens.set 2 { go := true, stage := .post, cmpPair := some (9, 99) } } : Chip) } : State), (2 : PhaseId), (true : Bool), (false : Bool), (9 : Nat), (99 : Nat), by decide +kernel⟩⟩

theorem witness_OutputsFollowTheirWindow :
    (∃ (s : State) (p : PhaseId), s.chip.genRuns p.val = true ∧ s.chip.genHeld p.val = false ∧ s.chip.single p.val = true ∧ s.chip.untripped p.val = true ∧ (s.chip.gens.get p.val).stage = .pre ∧ (s.chip.gens.get p.val).on ≠ 0 ∧ (s.chip.gens.get p.val).on < (s.chip.gens.get p.val).off) ∧
    (∃ (s : State) (p : PhaseId), s.chip.genRuns p.val = true ∧ s.chip.genHeld p.val = false ∧ s.chip.single p.val = true ∧ s.chip.untripped p.val = true ∧ (s.chip.gens.get p.val).stage = .rise ∧ (s.chip.gens.get p.val).on + s.chip.get (PWM.DEADT_DTR p.val) < (s.chip.gens.get p.val).off) ∧
    (∃ (s : State) (p : PhaseId), s.chip.genRuns p.val = true ∧ s.chip.genHeld p.val = false ∧ s.chip.single p.val = true ∧ s.chip.untripped p.val = true ∧ (s.chip.gens.get p.val).stage = .rise ∧ (s.chip.gens.get p.val).off ≤ (s.chip.gens.get p.val).on + s.chip.get (PWM.DEADT_DTR p.val)) ∧
    (∃ (s : State) (p : PhaseId), s.chip.genRuns p.val = true ∧ s.chip.genHeld p.val = false ∧ s.chip.single p.val = true ∧ s.chip.untripped p.val = true ∧ (s.chip.gens.get p.val).stage = .high ∧ (s.chip.gens.get p.val).off < s.chip.genPeriod p.val ∧ (s.chip.gens.get p.val).shedOff = false) ∧
    (∃ (s : State) (p : PhaseId), s.chip.genRuns p.val = true ∧ s.chip.genHeld p.val = false ∧ s.chip.single p.val = true ∧ s.chip.untripped p.val = true ∧ (s.chip.gens.get p.val).stage = .fall) ∧
    (∃ (s : State) (p : PhaseId), s.chip.genRuns p.val = true ∧ s.chip.genHeld p.val = false ∧ s.chip.single p.val = true ∧ s.chip.untripped p.val = true ∧ (s.chip.gens.get p.val).refDue = true ∧ (s.chip.gens.get p.val).stage = .high) ∧
    (∃ (s : State) (p : PhaseId), s.chip.genRuns p.val = true ∧ s.chip.genHeld p.val = false ∧ s.chip.single p.val = true ∧ s.chip.untripped p.val = true ∧ (s.chip.gens.get p.val).refDue = true) ∧
    (∃ (s : State) (p : PhaseId) (k : Fin 2), s.chip.trigMay p.val k.val = true) ∧
    (∃ (s : State) (p : PhaseId) (k : Fin 2), s.chip.trigMay p.val k.val = true ∧ (s.chip.phases.get p.val).iadcWait = none) ∧
    (∃ (s : State) (p : PhaseId) (k : Fin 2) (j : Nat), s.chip.trigMay p.val k.val = true ∧ (s.chip.phases.get p.val).iadcWait = some j) :=
  ⟨⟨({ chip := ({ (up base).put (PWM.CTRL_EN 2) 1 |>.put (PWM.CTRL_PAIR 2) 0 |>.put (PWM.TRIPST_LAT 2) 0 with gens := base.gens.set 2 { run := true, stage := .pre, on := 9, off := 99 } } : Chip) } : State), (2 : PhaseId), by decide +kernel⟩,
    ⟨({ chip := ({ (up base).put (PWM.CTRL_EN 2) 1 |>.put (PWM.CTRL_PAIR 2) 0 |>.put (PWM.TRIPST_LAT 2) 0 |>.put (PWM.DEADT_DTR 2) 89 with gens := base.gens.set 2 { run := true, stage := .rise, on := 9, off := 99 } } : Chip) } : State), (2 : PhaseId), by decide +kernel⟩,
    ⟨({ chip := ({ (up base).put (PWM.CTRL_EN 2) 1 |>.put (PWM.CTRL_PAIR 2) 0 |>.put (PWM.TRIPST_LAT 2) 0 |>.put (PWM.DEADT_DTR 2) 90 with gens := base.gens.set 2 { run := true, stage := .rise, on := 9, off := 99 } } : Chip) } : State), (2 : PhaseId), by decide +kernel⟩,
    ⟨({ chip := ({ (up base).put (PWM.CTRL_EN 2) 1 |>.put (PWM.CTRL_PAIR 2) 0 |>.put (PWM.TRIPST_LAT 2) 0 |>.put (PWM.PERIOD_PER 2) 100 with gens := base.gens.set 2 { run := true, stage := .high, on := 9, off := 6399 } } : Chip) } : State), (2 : PhaseId), by decide +kernel⟩,
    ⟨({ chip := ({ (up base).put (PWM.CTRL_EN 2) 1 |>.put (PWM.CTRL_PAIR 2) 0 |>.put (PWM.TRIPST_LAT 2) 0 |>.put (PWM.PERIOD_PER 2) 100 with gens := base.gens.set 2 { run := true, stage := .fall, noSink := true, tdead := true } } : Chip) } : State), (2 : PhaseId), by decide +kernel⟩,
    ⟨({ chip := ({ (up base).put (PWM.CTRL_EN 2) 1 |>.put (PWM.CTRL_PAIR 2) 0 |>.put (PWM.TRIPST_LAT 2) 0 with gens := base.gens.set 2 { run := true, stage := .high, refDue := true } } : Chip) } : State), (2 : PhaseId), by decide +kernel⟩,
    ⟨({ chip := ({ (up base).put (PWM.CTRL_EN 2) 1 |>.put (PWM.CTRL_PAIR 2) 0 |>.put (PWM.TRIPST_LAT 2) 0 with gens := base.gens.set 2 { run := true, stage := .refHz, refDue := true, noSink := true } } : Chip) } : State), (2 : PhaseId), by decide +kernel⟩,
    ⟨({ chip := ({ (up base).put (PWM.CTRL_EN 2) 1 |>.put (PWM.CTRL_PAIR 2) 0 |>.put (PWM.TRIG1_EN 2) 1 |>.setReg (PWM.TRIG1 2) 0x80000005 with gens := base.gens.set 2 { fired := 1 } } : Chip) } : State), (2 : PhaseId), (1 : Fin 2), by decide +kernel⟩,
    ⟨({ chip := ({ (up base).put (PWM.CTRL_EN 2) 1 |>.put (PWM.CTRL_PAIR 2) 0 |>.setReg (PWM.TRIG0 2) 0x80000005 with gens := base.gens.set 2 { fired := 2 } } : Chip) } : State), (2 : PhaseId), (0 : Fin 2), by decide +kernel⟩,
    ⟨({ chip := ({ (up base).put (PWM.CTRL_EN 2) 1 |>.put (PWM.CTRL_PAIR 2) 0 |>.setReg (PWM.TRIG0 2) 0x80000005 with gens := base.gens.set 2 { fired := 2 }, phases := base.phases.set 2 { iadcWait := some 1 } } : Chip) } : State), (2 : PhaseId), (0 : Fin 2), (1 : Nat), by decide +kernel⟩⟩

theorem witness_TripsStopTheOutput :
    (∃ (s : State) (d : DieId) (pin : Fin 8) (p : PhaseId), s.chip.dieOn (d.val + 1) = true ∧ p.val / 32 = d.val ∧ s.chip.single p.val = true ∧ bitAt (s.chip.get (PWM.TRIPEN_PINEN p.val)) pin.val = true ∧ wordField (s.chip.reg (PWMP.TPIN (d.val + 1))) (4 * pin.val + 3) 1 = 1 ∧ s.chip.get (PWM.TRIPST_LAT p.val) = 0) ∧
    (∃ (s : State) (d : DieId) (pin : Fin 8) (p : PhaseId), s.chip.dieOn (d.val + 1) = true ∧ p.val / 32 = d.val ∧ s.chip.single p.val = true ∧ s.chip.get (PWM.TRIPST_LAT p.val) = 0 ∧ s.chip.domOn .core = true ∧ (s.chip.dies.get (d.val + 1)).tripWire = false ∧ s.chip.get (PWM.TRIPEN_WMEN p.val) = 0 ∧ s.chip.get (PWM.TRIPEN_PKEN p.val) = 0 ∧ s.chip.get (PWM.TRIPEN_PINEN p.val) = 2 ^ pin.val) ∧
    (∃ (s : State) (p : PhaseId) (ticks : Fin 4096), s.chip.dieOn (p.val / 32 + 1) = true ∧ s.chip.single p.val = true ∧ s.chip.genShort p.val = false ∧ (s.chip.gens.get p.val).beganHigh = false ∧ s.chip.tOn p.val + 64 * ticks.val < (s.chip.gens.get p.val).off ∧ min 200 (s.chip.get (CMP.PKCFG_BLANK p.val)) ≤ ticks.val) ∧
    (∃ (s : State) (p : PhaseId) (ticks : Fin 4096), s.chip.dieOn (p.val / 32 + 1) = true ∧ s.chip.single p.val = true) ∧
    (∃ (s : State) (p : PhaseId) (ticks : Fin 4096) (out : Bool), s.chip.dieOn (p.val / 32 + 1) = true ∧ s.chip.single p.val = true ∧ (s.chip.gens.get p.val).beganHigh = false ∧ ticks.val < min 200 (s.chip.get (CMP.PKCFG_BLANK p.val))) ∧
    (∃ (s : State) (req : Requester) (p : PhaseId), s.chip.reaches req (PWM.TRIPST p.val) = true ∧ s.chip.get (PWM.TRIPST_LAT p.val) &&& s.chip.get (PWM.TRIPST_ACT p.val) ≠ 0) ∧
    (∃ (s : State) (req : Requester) (p : PhaseId), s.chip.reaches req (PWM.TRIPST p.val) = true ∧ s.chip.single p.val = true ∧ s.chip.get (PWM.TRIPST_LAT p.val) ≠ 0 ∧ s.chip.get (PWM.TRIPST_LAT p.val) &&& s.chip.get (PWM.TRIPST_ACT p.val) = 0) :=
  ⟨⟨({ chip := ({ (up base).put (PWM.CTRL_PAIR 222) 0 |>.put (PWM.TRIPEN_PINEN 223) 0x80 |>.put (PWM.TRIPEN_TSTATE 223) 0 |>.put (PWM.TRIPST_LAT 223) 0 |>.setReg (PWMP.TPIN 7) 0x80000000 with dies := base.dies.set 7 {} } : Chip) } : State), (6 : DieId), (7 : Fin 8), (223 : PhaseId), by decide +kernel⟩,
    ⟨({ chip := ({ (up base).put (PWM.CTRL_PAIR 222) 0 |>.put (PWM.TRIPEN_WMEN 223) 0 |>.put (PWM.TRIPEN_PKEN 223) 0 |>.put (PWM.TRIPEN_PINEN 223) 0x80 |>.put (PWM.TRIPST_LAT 223) 0 with dies := base.dies.set 7 { pins := 0xff } } : Chip) } : State), (6 : DieId), (7 : Fin 8), (223 : PhaseId), by decide +kernel⟩,
    ⟨({ chip := ({ (up base).put (PWM.CTRL_PAIR 2) 0 |>.put (PWM.TRIPEN_PKEN 2) 1 |>.put (PWM.TRIPEN_PKMODE 2) 0 |>.put (CMP.PKCFG_BLANK 2) 250 |>.put (PWM.DEADT_DTR 2) 0 |>.put (CMP.PKCFG_START 2) 900 |>.put (CMP.PKCFG_SLOPE 2) 300 with gens := base.gens.set 2 { run := true, stage := .high, on := 9, off := 99999 } } : Chip) } : State), (2 : PhaseId), (200 : Fin 4096), by decide +kernel⟩,
    ⟨({ chip := ({ (up base).put (PWM.CTRL_PAIR 2) 0 |>.put (CMP.PKSTAT_CMPOUT 2) 1 |>.put (PWM.TRIPST_ACT 2) 0x7ff with gens := base.gens.set 2 { run := true, stage := .high, on := 9, off := 99999 } } : Chip) } : State), (2 : PhaseId), (250 : Fin 4096), by decide +kernel⟩,
    ⟨({ chip := ({ (up base).put (PWM.CTRL_PAIR 2) 0 |>.put (CMP.PKCFG_BLANK 2) 201 |>.put (PWM.TRIPST_LAT 2) 0 |>.put (PWM.TRIPEN_PKEN 2) 1 with gens := base.gens.set 2 { run := true, stage := .high, on := 9, off := 99999 } } : Chip) } : State), (2 : PhaseId), (199 : Fin 4096), (true : Bool), by decide +kernel⟩,
    ⟨({ chip := ((up base).put (PWM.TRIPST_LAT 223) 0x400 |>.put (PWM.TRIPST_ACT 223) 0x7ff : Chip) } : State), (.pcie : Requester), (223 : PhaseId), by decide +kernel⟩,
    ⟨({ chip := ((up base).put (PWM.CTRL_PAIR 222) 0 |>.put (PWM.TRIPST_LAT 223) 0x400 |>.put (PWM.TRIPST_ACT 223) 0x3ff : Chip) } : State), (.pp 3 : Requester), (223 : PhaseId), by decide +kernel⟩⟩

theorem witness_PhasesBalanceAddAndShed :
    (∃ (s : State) (n : LoopId), s.chip.coreRuns = true ∧ s.chip.gridOrTb3 (gridBal n.val) (orOne (s.chip.get (PHSL.TIMING_BALINT n.val))) = true ∧ (s.chip.loopPh.get n.val).act ≠ [] ∧ s.chip.loopState n.val ≠ 2) ∧
    (∃ (s : State) (n : LoopId), s.chip.gridOrTb3 (gridBal n.val) (orOne (s.chip.get (PHSL.TIMING_BALINT n.val))) = false) ∧
    (∃ (s : State) (n : LoopId) (p : Nat), s.chip.coreRuns = true ∧ s.chip.gridOrTb3 (gridBal n.val) (orOne (s.chip.get (PHSL.TIMING_BALINT n.val))) = true ∧ (s.chip.loopPh.get n.val).act ≠ [] ∧ s.chip.loopState n.val = 2 ∧ s.chip.get (PHSL.STATUS_PROC n.val) = 0 ∧ s.chip.get (PHSL.CTRL_AUTO n.val) = 1 ∧ s.chip.nextPhase n.val = some p ∧ (((s.chip.loopPh.get n.val).act.length * s.chip.get (PHSL.THRESH_PADD n.val) : Nat) : Int) ≤ s.chip.loopSum n.val) ∧
    (∃ (s : State) (d : DieId) (n : LoopId) (p : PhaseId) (m : Int), s.chip.dieOn (d.val + 1) = true ∧ s.chip.means.get (32 * (d.val + 1) + n.val) = some m ∧ p.val / 32 = d.val ∧ s.chip.owner p.val = some n.val ∧ s.chip.get (PHS.STATE_ROLE p.val) = 3 ∧ s.chip.balFrozen n.val p.val = false) ∧
    (∃ (s : State) (d : DieId) (n : LoopId) (p : PhaseId) (m : Int), s.chip.dieOn (d.val + 1) = true ∧ s.chip.means.get (32 * (d.val + 1) + n.val) = some m ∧ p.val / 32 = d.val ∧ s.chip.owner p.val = some n.val ∧ s.chip.get (PHS.STATE_ROLE p.val) = 3 ∧ s.chip.loopState n.val ≠ 2 ∨ s.chip.get (PHSL.CTRL_BALEN n.val) = 0 ∨ s.chip.get (PWM.TRIPST_TRIPPED p.val) = 1) ∧
    (∃ (s : State) (n : LoopId) (p : Nat) (x : Nat), s.chip.coreRuns = true ∧ s.chip.loopState n.val = 2 ∧ s.chip.get (PHSL.STATUS_PROC n.val) = 0 ∧ s.chip.get (PHSL.CTRL_AUTO n.val) = 1 ∧ s.chip.shedCond n.val = true ∧ (s.chip.loopPh.get n.val).act.getLast? = some p ∧ (s.chip.loopPh.get n.val).shedSince = some x ∧ x + s.chip.get (PHSL.TIMING_PDWELL n.val) ≤ s.chip.now) ∧
    (∃ (s : State) (p : PhaseId) (n : Nat), s.chip.coreRuns = true ∧ s.chip.owner p.val = some n ∧ s.chip.get (PHS.STATE_ROLE p.val) = 4 ∧ (s.chip.gens.get p.val).go = false) ∧
    (∃ (s : State) (d : DieId) (n : LoopId) (p : PhaseId) (pos : Nat), s.chip.coreRuns = true ∧ s.chip.dieOn (d.val + 1) = true ∧ pos < 2 ^ 22 ∧ (s.chip.phases.get p.val).lost = false ∧ s.chip.lanes.get (32 * (d.val + 1) + n.val) = [.ilv ⟨[(p.val, pos)], [], [], false⟩] ∧ s.chip.laneNext (d.val + 1) n.val = some n.val) ∧
    (∃ (s : State) (d : DieId) (n : LoopId) (p : PhaseId) (pos : Nat), s.chip.coreRuns = true ∧ s.chip.dieOn (d.val + 1) = true ∧ pos < 2 ^ 22 ∧ (s.chip.phases.get p.val).lost = false ∧ s.chip.lanes.get (32 * (d.val + 1) + n.val) = [.ilv ⟨[(p.val, pos)], [p.val], [], false⟩] ∧ s.chip.laneNext (d.val + 1) n.val = some n.val) ∧
    (∃ (s : State) (d : DieId) (n : LoopId) (cmd : IlvCmd) (rest : List CtlWord), s.chip.coreRuns = true ∧ s.chip.dieOn (d.val + 1) = true ∧ (∀ l, (s.chip.hintHw.get l).ready = none) ∧ s.chip.lanes.get (32 * (d.val + 1) + n.val) = .ilv cmd :: rest ∧ s.chip.laneNext (d.val + 1) n.val = some n.val) :=
  ⟨⟨({ chip := ({ (up base).put (LOOP.STATUS_STATE 31) 1 |>.put (PHSL.TIMING_BALINT 31) 8 |>.put (PHS.ASSIGN_OWN 223) 1 |>.put (PHS.ASSIGN_LOOP 223) 31 |>.put (LINK.LINKSTAT_UP 7) 1 with loopPh := base.loopPh.set 31 { act := [223], tableNext := some [(0, 9, 9)] }, sums := base.sums.set 255 77, time := { base.time with now := 8000, prev := 7999, source := .tb1 }, grid := Tbl.empty } : Chip) } : State), (31 : LoopId), by decide +kernel⟩,
    ⟨({ chip := ({ (up base).put (PHSL.TIMING_BALINT 31) 8 with loopPh := base.loopPh.set 31 { act := [223] }, time := { base.time with now := 8001, prev := 8000, source := .tb1 }, grid := Tbl.empty } : Chip) } : State), (31 : LoopId), by decide +kernel⟩,
    ⟨({ chip := ({ (up base).put (LOOP.STATUS_STATE 31) 2 |>.put (PHS.ASSIGN_OWN 223) 1 |>.put (PHS.ASSIGN_LOOP 223) 31 |>.put (PHS.ASSIGN_OWN 222) 1 |>.put (PHS.ASSIGN_LOOP 222) 31 |>.put (LINK.LINKSTAT_UP 7) 1 |>.put (STB.STG_STATE 7 31) 2 |>.put (STB.STG_STATE 7 30) 2 |>.put (PHSL.STATUS_PROC 31) 0 |>.put (PHSL.CTRL_AUTO 31) 1 |>.put (PHSL.TIMING_BALINT 31) 0 |>.put (PHSL.THRESH_PADD 31) 100 |>.put (PHS.ASSIGN_OWN 221) 0 with loopPh := base.loopPh.set 31 { act := [222] }, sums := base.sums.set 255 100, phases := Tbl.empty, time := { base.time with now := 8000, prev := 7999, source := .tb1 }, grid := Tbl.empty } : Chip) } : State), (31 : LoopId), ((({ chip := { (up base).put (LOOP.STATUS_STATE 31) 2 |>.put (PHS.ASSIGN_OWN 223) 1 |>.put (PHS.ASSIGN_LOOP 223) 31 |>.put (PHS.ASSIGN_OWN 222) 1 |>.put (PHS.ASSIGN_LOOP 222) 31 |>.put (LINK.LINKSTAT_UP 7) 1 |>.put (STB.STG_STATE 7 31) 2 |>.put (STB.STG_STATE 7 30) 2 with loopPh := base.loopPh.set 31 { act := [222] } } } : State).chip.nextPhase 31).getD 0 : Nat), by decide +kernel⟩,
    ⟨({ chip := ({ (up base).put (LOOP.STATUS_STATE 31) 2 |>.put (PHS.ASSIGN_OWN 223) 1 |>.put (PHS.ASSIGN_LOOP 223) 31 |>.put (PHS.STATE_ROLE 223) 3 |>.put (PHSL.CTRL_BALEN 31) 1 |>.put (PWM.TRIPST_TRIPPED 223) 0 |>.put (PHS.BAL_TRMAX 223) 5 |>.put (PHS.BAL_KB 223) 500 with means := base.means.set 255 (some (-77)), phases := base.phases.set 223 { samples := 3, sampleSum := 1000, acc := 40 }, lastTag := base.lastTag.set 255 0 } : Chip) } : State), (6 : DieId), (31 : LoopId), (223 : PhaseId), (-77 : Int), by decide +kernel⟩,
    ⟨({ chip := ({ (up base).put (LOOP.STATUS_STATE 31) 1 |>.put (PHS.ASSIGN_OWN 223) 1 |>.put (PHS.ASSIGN_LOOP 223) 31 |>.put (PHS.STATE_ROLE 223) 3 with means := base.means.set 255 (some (-77)), phases := base.phases.set 223 { samples := 3, sampleSum := 1000, acc := 40 } } : Chip) } : State), (6 : DieId), (31 : LoopId), (223 : PhaseId), (-77 : Int), by decide +kernel⟩,
    ⟨({ chip := ({ (up base).put (LOOP.STATUS_STATE 31) 2 |>.put (PHSL.STATUS_PROC 31) 0 |>.put (PHSL.CTRL_AUTO 31) 1 |>.put (PHSL.CTRL_NMIN 31) 1 |>.put (PHSL.THRESH_PADD 31) 100 |>.put (PHSL.THRESH_PSHED 31) 90 |>.put (SEG.STAT_REGION 5) 0 |>.put (SEG.STAT_REGION 6) 0 |>.put (PHSL.TIMING_PDWELL 31) 10 with loopPh := base.loopPh.set 31 { act := [5, 6], shedSince := some 90 }, sums := base.sums.set 255 (-5), time := { base.time with now := 100 } } : Chip) } : State), (31 : LoopId), (6 : Nat), (90 : Nat), by decide +kernel⟩,
    ⟨({ chip := ({ (up base).put (PHS.ASSIGN_OWN 223) 1 |>.put (PHS.ASSIGN_LOOP 223) 31 |>.put (PHS.STATE_ROLE 223) 4 |>.put (PHSL.STATUS_PROC 31) 2 with loopPh := base.loopPh.set 31 { act := [222, 223], procPhase := some 223 }, gens := base.gens.set 223 {} } : Chip) } : State), (223 : PhaseId), (31 : Nat), by decide +kernel⟩,
    ⟨({ chip := ({ up base with laneTurn := base.laneTurn.set 63 3, phases := base.phases.set 223 {}, lanes := base.lanes.set 255 [.ilv ⟨[(223, 4000000)], [], [], false⟩] } : Chip) } : State), (6 : DieId), (31 : LoopId), (223 : PhaseId), (4000000 : Nat), by decide +kernel⟩,
    ⟨({ chip := ({ up base with laneTurn := base.laneTurn.set 63 3, phases := base.phases.set 223 {}, lanes := base.lanes.set 255 [.ilv ⟨[(223, 4000000)], [223], [], false⟩] } : Chip) } : State), (6 : DieId), (31 : LoopId), (223 : PhaseId), (4000000 : Nat), by decide +kernel⟩,
    ⟨({ chip := ({ up base with laneTurn := base.laneTurn.set 63 3, phases := base.phases.set 223 {}, lanes := base.lanes.set 255 [.ilv ⟨[(223, 4000000)], [223], [], false⟩], discards := base.discards.set 255 2, hintHw := Tbl.empty } : Chip) } : State), (6 : DieId), (31 : LoopId), (⟨[(223, 4000000)], [223], [], false⟩ : IlvCmd), ([] : List CtlWord), by decide +kernel, by decide +kernel, fun _ => rfl, by decide +kernel, by decide +kernel⟩⟩

theorem witness_SegmentsFollowTheirTable :
    (∃ (s : State) (req : Requester) (n : LoopId), s.chip.reaches req (SEGL.CTRL n.val) = true ∧ s.chip.get (SEGL.BP_ITH n.val 0) = 0 ∧ (∀ k ∈ List.range 7, s.chip.get (SEGL.BP_ITH n.val k) < s.chip.get (SEGL.BP_ITH n.val (k + 1)) ∧ s.chip.get (SEGL.BP_HSF n.val k) ≤ s.chip.get (SEGL.BP_HSF n.val (k + 1)) ∧ s.chip.get (SEGL.BP_LSF n.val k) ≤ s.chip.get (SEGL.BP_LSF n.val (k + 1))) ∧ (∀ k ∈ List.range 8, s.chip.get (SEGL.USEMIN_FMIN n.val) ≤ s.chip.get (SEGL.BP_HSF n.val k) ∧ s.chip.get (SEGL.BP_HSF n.val k) ≤ 256 ∧ s.chip.get (SEGL.USEMIN_FMIN n.val) ≤ s.chip.get (SEGL.BP_LSF n.val k) ∧ s.chip.get (SEGL.BP_LSF n.val k) ≤ 256)) ∧
    (∃ (s : State) (req : Requester) (n : LoopId), s.chip.reaches req (SEGL.CTRL n.val) = true ∧ (s.chip.get (SEGL.BP_ITH n.val 0) ≠ 0 ∨ ∃ k ∈ List.range 7, s.chip.get (SEGL.BP_ITH n.val (k + 1)) ≤ s.chip.get (SEGL.BP_ITH n.val k) ∨ s.chip.get (SEGL.BP_HSF n.val (k + 1)) < s.chip.get (SEGL.BP_HSF n.val k) ∨ s.chip.get (SEGL.BP_LSF n.val (k + 1)) < s.chip.get (SEGL.BP_LSF n.val k))) ∧
    (∃ (s : State) (p : PhaseId) (n : Nat) (x : Nat), s.chip.owner p.val = some n ∧ (s.chip.phases.get p.val).lowSince = some x ∧ s.chip.get (PHSL.STATUS_PROC n) = 0 ∧ s.chip.get (PHS.STATE_ROLE p.val) = 3 ∧ x + orOne (s.chip.get (SEGL.ROT_SDWELL n)) ≤ s.chip.now) ∧
    (∃ (s : State) (p : PhaseId) (n : Nat) (low : Bool), s.chip.owner p.val = some n ∧ s.chip.get (PHS.STATE_ROLE p.val) ∈ [2, 3, 4] ∧ s.chip.stagePresent p.val = true ∧ s.chip.get (PHSL.STATUS_PROC n) ≠ 3 ∧ s.chip.get (SEGL.ROT_ROTINT n) ≠ 0 ∧ (s.chip.switches.get (2 * p.val + low.toNat)).wantC < s.chip.segUsable p.val low.toNat ∧ s.chip.segInst p.val low.toNat ≠ 0 ∧ s.chip.segCode p.val low.toNat (((s.chip.switches.get (2 * p.val + low.toNat)).wantW + orOne (s.chip.get (SEGL.CFG_ROTSTEP n))) % s.chip.segInst p.val low.toNat) ≠ 3 ∧ s.chip.rotSlot n p.val (s.chip.switches.get (2 * p.val + low.toNat)).rotLast < s.chip.rotSlot n p.val s.chip.now) ∧
    (∃ (s : State) (req : Requester) (p : PhaseId) (low : Bool) (first : Fin 16384) (num : Fin 32768), s.chip.reaches req (SEG.RETIRE p.val) = true) ∧
    (∃ (s : State) (tile : Fin 7168), s.chip.coreRuns = true ∧ (s.chip.dirtyTiles.get tile.val).isSome = true ∧ (∀ j ∈ s.chip.store.jobs, j.kind ≠ .map tile.val)) :=
  ⟨⟨({ chip := ([0, 1, 2, 3, 4, 5, 6, 7].foldl (fun (u : Chip) k => ((u.put (SEGL.BP_ITH 31 k) (9 * k)).put (SEGL.BP_HSF 31 k) (249 + k)).put (SEGL.BP_LSF 31 k) 256) ((up base).put (SEGL.USEMIN_FMIN 31) 249) : Chip) } : State), (.pcie : Requester), (31 : LoopId), by decide +kernel⟩,
    ⟨({ chip := ((up base).put (SEGL.BP_ITH 31 4) 5 |>.put (SEGL.BP_ITH 31 3) 5 : Chip) } : State), (.pp 0 : Requester), (31 : LoopId), by decide +kernel⟩,
    ⟨({ chip := ({ (up base).put (PHS.ASSIGN_OWN 223) 1 |>.put (PHS.ASSIGN_LOOP 223) 31 |>.put (SEGL.CTRL_SEGAUTO 31) 0 |>.put (PHSL.STATUS_PROC 31) 0 |>.put (PHS.STATE_ROLE 223) 3 with phases := base.phases.set 223 { lowSince := some 100, hsn := 300, lsn := 20 }, time := { base.time with now := 70000 } } : Chip) } : State), (223 : PhaseId), (31 : Nat), (100 : Nat), by decide +kernel⟩,
    ⟨({ chip := ({ (up base).put (PHS.ASSIGN_OWN 223) 1 |>.put (PHS.ASSIGN_LOOP 223) 31 |>.put (PHS.STATE_ROLE 223) 3 |>.put (STB.STG_STATE 7 31) 2 |>.put (PHSL.STATUS_PROC 31) 0 |>.put (SEGL.ROT_ROTINT 31) 1 |>.put (SEGL.CFG_ROTSTEP 31) 5 with phases := base.phases.set 223 { hsn := 30, lsn := 20 }, switches := base.switches.set 447 { wantW := 18, wantC := 7, rotLast := 0 }, badTiles := [], time := { base.time with now := 5000 } } : Chip) } : State), (223 : PhaseId), (31 : Nat), (true : Bool), by decide +kernel⟩,
    ⟨({ chip := ({ up base with phases := base.phases.set 223 { hsn := 30, lsn := 20 } } : Chip) } : State), (.pcie : Requester), (223 : PhaseId), (true : Bool), (7 : Fin 16384), (3 : Fin 32768), by decide +kernel⟩,
    ⟨({ chip := ({ up base with dirtyTiles := base.dirtyTiles.set 7167 (some ⟨5, false⟩), store := { base.store with jobs := [] } } : Chip) } : State), (7167 : Fin 7168), by decide +kernel⟩⟩

theorem witness_StageFramesAreSentAndRepeated :
    (∃ (s : State) (d : DieId) (lane : Fin 4) (q : LaneHw) (a : Fin 8) (poll : Bool) (rest : List StbJob) (ok : BitVec 16), s.chip.dieOn (d.val + 1) = true ∧ s.chip.get (STB.LANE_BUSY (d.val + 1) lane.val) = 0 ∧ s.chip.stbLanes.get (4 * (d.val + 1) + lane.val) = q ∧ q.cur = none ∧ q.again = [] ∧ q.segQ = [] ∧ q.relay = none ∧ q.alertQ = .stat a.val poll :: rest) ∧
    (∃ (s : State) (d : DieId) (lane : Fin 4) (q : LaneHw) (a : Fin 8) (poll : Bool) (seq : Nat) (tries : Nat) (pl : List Byte) (ok : BitVec 16), s.chip.dieOn (d.val + 1) = true ∧ s.chip.get (STB.LANE_BUSY (d.val + 1) lane.val) = 0 ∧ s.chip.stbLanes.get (4 * (d.val + 1) + lane.val) = q ∧ q.again = [⟨2, .stat a.val poll, seq, tries, pl⟩] ∧ q.segQ = [] ∧ q.relay = none) ∧
    (∃ (s : State) (d : DieId) (lane : Fin 4) (a : Fin 8) (rest : List StbJob) (ok : BitVec 16), s.chip.dieOn (d.val + 1) = true ∧ s.chip.get (STB.LANE_BUSY (d.val + 1) lane.val) = 0 ∧ (s.chip.stbLanes.get (4 * (d.val + 1) + lane.val)).cur = none ∧ (s.chip.stbLanes.get (4 * (d.val + 1) + lane.val)).again = [] ∧ (s.chip.stbLanes.get (4 * (d.val + 1) + lane.val)).relay = none ∧ (s.chip.stbLanes.get (4 * (d.val + 1) + lane.val)).alertQ = [] ∧ (s.chip.stbLanes.get (4 * (d.val + 1) + lane.val)).segQ = .reset a.val :: rest) ∧
    (∃ (s : State) (d : DieId) (lane : Fin 4) (a : Fin 8) (poll : Bool) (seq : Nat) (tries : Nat), s.chip.dieOn (d.val + 1) = true ∧ s.chip.get (STB.LANE_BUSY (d.val + 1) lane.val) = 1 ∧ tries < 2 ∧ (s.chip.stbLanes.get (4 * (d.val + 1) + lane.val)).cur = some (.stat a.val poll, seq, tries) ∧ s.chip.get (STB.STG_STATE (d.val + 1) (8 * lane.val + a.val)) = 2) ∧
    (∃ (s : State) (d : DieId) (lane : Fin 4) (a : Fin 8) (seq : Nat), s.chip.dieOn (d.val + 1) = true ∧ s.chip.get (STB.LANE_BUSY (d.val + 1) lane.val) = 1 ∧ (s.chip.stbLanes.get (4 * (d.val + 1) + lane.val)).cur = some (.fltr a.val, seq, 2)) ∧
    (∃ (s : State) (p : PhaseId), s.chip.dieOn (p.val / 32 + 1) = true ∧ s.chip.get (STB.STG_STATE (p.val / 32 + 1) (p.val % 32)) = 2 ∧ orOne (s.chip.get (STB.CFG_MISSLIM (p.val / 32 + 1))) ≤ s.chip.get (STB.STG_MISS (p.val / 32 + 1) (p.val % 32))) :=
  ⟨⟨({ chip := ({ (up base).put (STB.LANE_BUSY 7 3) 0 with stbLanes := base.stbLanes.set 31 { alertQ := [.stat 5 true, .stat 6 true], seq := 32 } } : Chip) } : State), (6 : DieId), (3 : Fin 4), ({ alertQ := [.stat 5 true, .stat 6 true], seq := 32 } : LaneHw), (5 : Fin 8), (true : Bool), ([.stat 6 true] : List StbJob), (0 : BitVec 16), by decide +kernel⟩,
    ⟨({ chip := ({ (up base).put (STB.LANE_BUSY 7 3) 0 with stbLanes := base.stbLanes.set 31 { again := [⟨2, .stat 5 true, 1, 2, [0]⟩], alertQ := [.stat 6 true], seq := 32 } } : Chip) } : State), (6 : DieId), (3 : Fin 4), ({ again := [⟨2, .stat 5 true, 1, 2, [0]⟩], alertQ := [.stat 6 true], seq := 32 } : LaneHw), (5 : Fin 8), (true : Bool), (1 : Nat), (2 : Nat), ([0] : List Byte), (0 : BitVec 16), by decide +kernel⟩,
    ⟨({ chip := ({ (up base).put (STB.LANE_BUSY 7 3) 0 with stbLanes := base.stbLanes.set 31 { segQ := [.reset 5, .reset 6], waitEnum := [(4, 7), (5, 8)], seq := 32 } } : Chip) } : State), (6 : DieId), (3 : Fin 4), (5 : Fin 8), ([.reset 6] : List StbJob), (0 : BitVec 16), by decide +kernel⟩,
    ⟨({ chip := ({ (up base).put (STB.LANE_BUSY 7 3) 1 |>.put (STB.STG_STATE 7 29) 2 with stbLanes := base.stbLanes.set 31 { cur := some (.stat 5 true, 1, 1) } } : Chip) } : State), (6 : DieId), (3 : Fin 4), (5 : Fin 8), (true : Bool), (1 : Nat), (1 : Nat), by decide +kernel⟩,
    ⟨({ chip := ({ (up base).put (STB.LANE_BUSY 7 3) 1 |>.put (STB.STG_STATE 7 29) 3 with stbLanes := base.stbLanes.set 31 { cur := some (.fltr 5, 1, 2) } } : Chip) } : State), (6 : DieId), (3 : Fin 4), (5 : Fin 8), (1 : Nat), by decide +kernel⟩,
    ⟨({ chip := ({ (up base).put (STB.CFG_MISSLIM 7) 4 |>.put (STB.STG_STATE 7 29) 2 |>.put (STB.STG_MISS 7 29) 4 |>.put (PHS.ASSIGN_OWN 221) 0 with stbLanes := base.stbLanes.set 31 { segQ := [.mapw 5 0 0 none, .ident 6] } } : Chip) } : State), (221 : PhaseId), by decide +kernel⟩⟩

theorem witness_StageAnswersAreChecked :
    (∃ (s : State) (d : DieId) (lane : Fin 4) (x : Fin 8) (seq : Bool) (tries : Nat) (a : StageAnswer), s.chip.dieOn (d.val + 1) = true ∧ s.chip.get (STB.LANE_BUSY (d.val + 1) lane.val) = 1 ∧ (s.chip.stbLanes.get (4 * (d.val + 1) + lane.val)).cur = some (.ident x.val, seq.toNat, tries) ∧ a.addr.val = x.val ∧ a.op.val = 1 ∧ a.dir = true ∧ a.seq = seq ∧ a.payload.length = 16 ∧ stageCrc (stageBytes a.addr.val a.op.val 1 seq.toNat a.payload) = a.crc ∧ fieldLE a.payload 5 1 = 1 ∧ 1 ≤ fieldLE a.payload 6 2 ∧ fieldLE a.payload 6 2 ≤ 16384 ∧ 1 ≤ fieldLE a.payload 8 2 ∧ fieldLE a.payload 8 2 ≤ 16384 ∧ bitAt (fieldLE a.payload 10 1) 2 = false) ∧
    (∃ (s : State) (d : DieId) (lane : Fin 4) (x : Fin 8) (sw : Nat) (ck : Nat) (fill : Option (Nat × Nat)) (seq : Bool) (tries : Nat) (a : StageAnswer), s.chip.dieOn (d.val + 1) = true ∧ s.chip.get (STB.LANE_BUSY (d.val + 1) lane.val) = 1 ∧ (s.chip.stbLanes.get (4 * (d.val + 1) + lane.val)).cur = some (.mapw x.val sw ck fill, seq.toNat, tries) ∧ a.addr.val = x.val ∧ a.op.val = 2 ∧ a.dir = true ∧ a.seq = seq ∧ a.payload.length = 2 ∧ stageCrc (stageBytes a.addr.val a.op.val 1 seq.toNat a.payload) = a.crc ∧ fieldLE a.payload 0 1 = 0) ∧
    (∃ (s : State) (d : DieId) (lane : Fin 4) (x : Fin 8) (sw : Nat) (ck : Nat) (fill : Option (Nat × Nat)) (seq : Bool) (a : StageAnswer), s.chip.dieOn (d.val + 1) = true ∧ s.chip.get (STB.LANE_BUSY (d.val + 1) lane.val) = 1 ∧ (s.chip.stbLanes.get (4 * (d.val + 1) + lane.val)).cur = some (.mapw x.val sw ck fill, seq.toNat, 1) ∧ s.chip.get (STB.STG_STATE (d.val + 1) (8 * lane.val + x.val)) ≠ 2 ∧ stageCrc (stageBytes a.addr.val a.op.val a.dir.toNat a.seq.toNat a.payload) ≠ a.crc) ∧
    (∃ (s : State) (d : DieId) (lane : Fin 4) (x : Fin 8) (hs : Bool) (ls : Bool) (seq : Bool) (tries : Nat) (a : StageAnswer) (cw : Nat × Nat × Nat), s.chip.dieOn (d.val + 1) = true ∧ s.chip.get (STB.LANE_BUSY (d.val + 1) lane.val) = 1 ∧ (s.chip.stbLanes.get (4 * (d.val + 1) + lane.val)).cur = some (.cntw x.val hs ls, seq.toNat, tries) ∧ a.addr.val = x.val ∧ a.op.val = 3 ∧ a.dir = true ∧ a.seq = seq ∧ a.payload.length = 2 ∧ stageCrc (stageBytes a.addr.val a.op.val 1 seq.toNat a.payload) = a.crc ∧ fieldLE a.payload 0 1 = 0 ∧ bitAt (fieldLE a.payload 1 1) 0 = true ∧ (s.chip.phases.get (32 * d.val + 8 * lane.val + x.val)).mapping = false ∧ (s.chip.switches.get (2 * (32 * d.val + 8 * lane.val + x.val))).sent = some cw ∧ cw.1 < 2 ^ 15 ∧ cw.2.1 < 2 ^ 15) ∧
    (∃ (s : State) (d : DieId) (lane : Fin 4) (x : Fin 8) (poll : Bool) (seq : Bool) (tries : Nat) (a : StageAnswer), s.chip.dieOn (d.val + 1) = true ∧ s.chip.get (STB.LANE_BUSY (d.val + 1) lane.val) = 1 ∧ (s.chip.stbLanes.get (4 * (d.val + 1) + lane.val)).cur = some (.stat x.val poll, seq.toNat, tries) ∧ a.addr.val = x.val ∧ a.op.val = 0 ∧ a.dir = true ∧ a.seq = seq ∧ a.payload.length = 8 ∧ stageCrc (stageBytes a.addr.val a.op.val 1 seq.toNat a.payload) = a.crc ∧ bitAt (fieldLE a.payload 0 1) 3 = false ∧ fieldLE a.payload 1 1 % 32 = s.chip.get (STB.STG_SFLT (d.val + 1) (8 * lane.val + x.val))) ∧
    (∃ (s : State) (d : DieId) (lane : Fin 4) (x : Fin 8) (seq : Bool) (tries : Nat) (a : StageAnswer), s.chip.dieOn (d.val + 1) = true ∧ s.chip.get (STB.LANE_BUSY (d.val + 1) lane.val) = 1 ∧ (s.chip.stbLanes.get (4 * (d.val + 1) + lane.val)).cur = some (.fltr x.val, seq.toNat, tries) ∧ a.addr.val = x.val ∧ a.op.val = 4 ∧ a.dir = true ∧ a.seq = seq ∧ a.payload.length = 18 ∧ stageCrc (stageBytes a.addr.val a.op.val 1 seq.toNat a.payload) = a.crc ∧ fieldLE a.payload 0 1 = 0 ∧ s.chip.get (STB.LANE_ALERT (d.val + 1) lane.val) = 0) ∧
    (∃ (s : State) (d : DieId) (lane : Fin 4) (x : Fin 8) (op : Nat) (pl : List Byte) (seq : Bool) (tries : Nat) (a : StageAnswer), s.chip.dieOn (d.val + 1) = true ∧ s.chip.get (STB.LANE_BUSY (d.val + 1) lane.val) = 1 ∧ (s.chip.stbLanes.get (4 * (d.val + 1) + lane.val)).cur = some (.relay x.val op pl, seq.toNat, tries) ∧ a.addr.val = x.val ∧ a.op.val = op ∧ a.dir = true ∧ a.seq = seq ∧ a.payload.length ≤ 36 ∧ stageCrc (stageBytes a.addr.val a.op.val 1 seq.toNat a.payload) = a.crc) :=
  ⟨⟨({ chip := ({ (up base).put (STB.LANE_BUSY 7 3) 1 with stbLanes := base.stbLanes.set 31 { cur := some (.ident 5, 1, 1) } } : Chip) } : State), (6 : DieId), (3 : Fin 4), (5 : Fin 8), (true : Bool), (1 : Nat), (⟨5, 1, true, true, [0,0,0,0,0,1,44,1,20,0,0,0,0,0,0,0], stageCrc (stageBytes 5 1 1 1 [0,0,0,0,0,1,44,1,20,0,0,0,0,0,0,0])⟩ : StageAnswer), by decide +kernel⟩,
    ⟨({ chip := ({ (up base).put (STB.LANE_BUSY 7 3) 1 with stbLanes := base.stbLanes.set 31 { cur := some (.mapw 5 0 0 none, 1, 1) } } : Chip) } : State), (6 : DieId), (3 : Fin 4), (5 : Fin 8), (0 : Nat), (0 : Nat), (none : Option (Nat × Nat)), (true : Bool), (1 : Nat), (⟨5, 2, true, true, [0,0], stageCrc (stageBytes 5 2 1 1 [0,0])⟩ : StageAnswer), by decide +kernel⟩,
    ⟨({ chip := ({ (up base).put (STB.LANE_BUSY 7 3) 1 |>.put (STB.STG_STATE 7 29) 3 with stbLanes := base.stbLanes.set 31 { cur := some (.mapw 5 0 0 none, 1, 1) } } : Chip) } : State), (6 : DieId), (3 : Fin 4), (5 : Fin 8), (0 : Nat), (0 : Nat), (none : Option (Nat × Nat)), (true : Bool), (⟨5, 2, true, true, [0,0], stageCrc (stageBytes 5 2 1 1 [0,0]) + 1⟩ : StageAnswer), by decide +kernel⟩,
    ⟨({ chip := ({ (up base).put (STB.LANE_BUSY 7 3) 1 with stbLanes := base.stbLanes.set 31 { cur := some (.cntw 5 true false, 1, 1) }, phases := base.phases.set 221 { mapping := false, inflight := true }, switches := base.switches.set 442 { sent := some (7, 8, 9) } } : Chip) } : State), (6 : DieId), (3 : Fin 4), (5 : Fin 8), (true : Bool), (false : Bool), (true : Bool), (1 : Nat), (⟨5, 3, true, true, [0,1], stageCrc (stageBytes 5 3 1 1 [0,1])⟩ : StageAnswer), ((7, 8, 9) : Nat × Nat × Nat), by decide +kernel⟩,
    ⟨({ chip := ({ (up base).put (STB.LANE_BUSY 7 3) 1 |>.put (STB.STG_SFLT 7 29) 4 |>.put (STB.LANE_ALERT 7 3) 0 with stbLanes := base.stbLanes.set 31 { cur := some (.stat 5 true, 1, 1) } } : Chip) } : State), (6 : DieId), (3 : Fin 4), (5 : Fin 8), (true : Bool), (true : Bool), (1 : Nat), (⟨5, 0, true, true, [0,4,1,2,0x90,1,0,0], stageCrc (stageBytes 5 0 1 1 [0,4,1,2,0x90,1,0,0])⟩ : StageAnswer), by decide +kernel⟩,
    ⟨({ chip := ({ (up base).put (STB.LANE_BUSY 7 3) 1 |>.put (STB.LANE_ALERT 7 3) 0 with stbLanes := base.stbLanes.set 31 { cur := some (.fltr 5, 1, 1), pops := [1,2,3,4,5,6,7,8] } } : Chip) } : State), (6 : DieId), (3 : Fin 4), (5 : Fin 8), (true : Bool), (1 : Nat), (⟨5, 4, true, true, [0,0,0,0,0,0,0,0,0,0,0,0,0,0,0,0,0,0], stageCrc (stageBytes 5 4 1 1 [0,0,0,0,0,0,0,0,0,0,0,0,0,0,0,0,0,0])⟩ : StageAnswer), by decide +kernel⟩,
    ⟨({ chip := ({ (up base).put (STB.LANE_BUSY 7 3) 1 with stbLanes := base.stbLanes.set 31 { cur := some (.relay 5 9 [1], 1, 1) } } : Chip) } : State), (6 : DieId), (3 : Fin 4), (5 : Fin 8), (9 : Nat), ([1] : List Byte), (true : Bool), (1 : Nat), (⟨5, 9, true, true, [1,2,3,4,5], stageCrc (stageBytes 5 9 1 1 [1,2,3,4,5])⟩ : StageAnswer), by decide +kernel⟩⟩

theorem witness_StageAlertsPollsAndRelays :
    (∃ (s : State) (d : DieId) (lane : Fin 4), s.chip.dieOn (d.val + 1) = true ∧ s.chip.get (STB.LANE_ALERT (d.val + 1) lane.val) = 0) ∧
    (∃ (s : State) (p : PhaseId), s.chip.dieOn (p.val / 32 + 1) = true ∧ s.chip.get (STB.STG_STATE (p.val / 32 + 1) (p.val % 32)) = 2 ∧ s.chip.pollDue.get p.val + 10 * orOne (s.chip.get (STB.CFG_POLLINT (p.val / 32 + 1))) ≤ s.chip.now) ∧
    (∃ (s : State) (d : DieId) (lane : Fin 4), s.chip.dieOn (d.val + 1) = true ∧ s.chip.get (STB.LANE_ALERT (d.val + 1) lane.val) = 1 ∧ s.chip.get (STB.LANE_ALIGN (d.val + 1) lane.val) = 0 ∧ s.chip.lanePresent (d.val + 1) lane.val ≠ [] ∧ orOne (s.chip.get (STB.CFG_ALSTUCK (d.val + 1))) * (s.chip.lanePresent (d.val + 1) lane.val).length ≤ (s.chip.stbLanes.get (4 * (d.val + 1) + lane.val)).quiet) ∧
    (∃ (s : State) (req : Requester) (d : DieId) (op : Fin 16) (len : Fin 64) (lane : Fin 4) (addr : Fin 16), s.chip.reaches req (STB.RLYCTL (d.val + 1)) = true ∧ s.chip.get (STB.RLYCTL_STATUS (d.val + 1)) ≠ 1 ∧ op.val ∈ [1, 6, 8, 9, 10, 11, 12, 13] ∧ addr.val < 8 ∧ s.chip.get (STB.STG_STATE (d.val + 1) (8 * lane.val + addr.val)) = 2) ∧
    (∃ (s : State) (req : Requester) (d : DieId) (op : Fin 16) (len : Fin 64) (lane : Fin 4) (addr : Fin 16), s.chip.reaches req (STB.RLYCTL (d.val + 1)) = true ∧ s.chip.get (STB.RLYCTL_STATUS (d.val + 1)) ≠ 1 ∧ op.val ∈ [2, 3, 4, 5, 7, 14, 15]) ∧
    (∃ (s : State) (req : Requester) (d : DieId) (op : Fin 16) (len : Fin 64) (lane : Fin 4) (addr : Fin 16), s.chip.reaches req (STB.RLYCTL (d.val + 1)) = true ∧ s.chip.get (STB.RLYCTL_STATUS (d.val + 1)) ≠ 1 ∧ op.val ∈ [0, 1, 6, 8, 9, 10, 11, 12, 13] ∧ 8 ≤ addr.val ∨ s.chip.get (STB.STG_STATE (d.val + 1) (8 * lane.val + addr.val)) ≠ 2) ∧
    (∃ (s : State) (req : Requester) (d : DieId) (op : Fin 16) (len : Fin 64) (lane : Fin 4) (addr : Fin 16), s.chip.reaches req (STB.RLYCTL (d.val + 1)) = true ∧ s.chip.get (STB.RLYCTL_STATUS (d.val + 1)) = 1) :=
  ⟨⟨({ chip := ((up base).put (STB.LANE_ALERT 7 3) 0 |>.put (STB.LANE_ALIGN 7 3) 0 |>.put (STB.STG_STATE 7 29) 2 : Chip) } : State), (6 : DieId), (3 : Fin 4), by decide +kernel⟩,
    ⟨({ chip := ({ (up base).put (STB.CFG_POLLINT 7) 10 |>.put (STB.STG_STATE 7 29) 2 with pollDue := base.pollDue.set 221 100, time := { base.time with now := 200 } } : Chip) } : State), (221 : PhaseId), by decide +kernel⟩,
    ⟨({ chip := ({ (up base).put (STB.CFG_ALSTUCK 7) 2 |>.put (STB.LANE_ALERT 7 3) 1 |>.put (STB.LANE_ALIGN 7 3) 0 |>.put (STB.STG_STATE 7 29) 2 with stbLanes := base.stbLanes.set 31 { quiet := 16, alertQ := [.stat 5 false, .stat 5 true] } } : Chip) } : State), (6 : DieId), (3 : Fin 4), by decide +kernel⟩,
    ⟨({ chip := ((up base).put (STB.RLYCTL_STATUS 7) 2 |>.put (STB.STG_STATE 7 29) 2 : Chip) } : State), (.pcie : Requester), (6 : DieId), (9 : Fin 16), (36 : Fin 64), (3 : Fin 4), (5 : Fin 16), by decide +kernel⟩,
    ⟨({ chip := ((up base).put (STB.RLYCTL_STATUS 7) 2 |>.put (STB.STG_STATE 7 29) 2 : Chip) } : State), (.pp 1 : Requester), (6 : DieId), (3 : Fin 16), (36 : Fin 64), (3 : Fin 4), (5 : Fin 16), by decide +kernel⟩,
    ⟨({ chip := ((up base).put (STB.RLYCTL_STATUS 7) 2 |>.put (STB.STG_STATE 7 29) 3 : Chip) } : State), (.pp 1 : Requester), (6 : DieId), (0 : Fin 16), (36 : Fin 64), (3 : Fin 4), (5 : Fin 16), by decide +kernel⟩,
    ⟨({ chip := ((up base).put (STB.RLYCTL_STATUS 7) 1 : Chip) } : State), (.pcie : Requester), (6 : DieId), (0 : Fin 16), (36 : Fin 64), (3 : Fin 4), (5 : Fin 16), by decide +kernel⟩⟩

theorem witness_PhaseCurrentsAreConverted :
    (∃ (s : State) (p : PhaseId) (nanovolts : Int) (k : Fin 2) (dly : Bool) (rest : List (Nat × Bool)), s.chip.dieOn (p.val / 32 + 1) = true ∧ (s.chip.phases.get p.val).convs = (k.val, dly) :: rest) ∧
    (∃ (s : State) (p : PhaseId) (k : Nat), (s.chip.phases.get p.val).iadcWait = some k) :=
  ⟨⟨({ chip := ({ up base with phases := base.phases.set 223 { convs := [(1, true), (0, false)], sampleSum := 5, samples := 1 } } : Chip) } : State), (223 : PhaseId), (600000000 : Int), (1 : Fin 2), (true : Bool), ([(0, false)] : List (Nat × Bool)), by decide +kernel⟩,
    ⟨({ chip := ({ up base with phases := base.phases.set 223 { iadcWait := some 1 } } : Chip) } : State), (223 : PhaseId), (1 : Nat), by decide +kernel⟩⟩

theorem witness_ConverterSequencesRun :
    (∃ (s : State) (x : SqId) (nv : Int) (exc : Nat) (e : Fin 16) (att : Nat) (v : Int) (y : Int), s.chip.sqOn x.val = true ∧ (s.chip.sqs.get x.val).run = .entry e.val ∧ (s.chip.sqs.get x.val).pass = true ∧ (s.chip.sqs.get x.val).stopped = false ∧ (s.chip.sqs.get x.val).calPhase = 0 ∧ (s.chip.sqs.get x.val).injs = [] ∧ e.val < s.chip.get (SQ.CTRL_LASTE x.val) ∧ s.chip.get (SQ.CTRL_MODE x.val) ≠ 0 ∧ wordField (s.chip.sqs.get x.val).inUse.cfg 0 1 = 0 ∧ inputAtt x.val (wordField (s.chip.sqs.get x.val).inUse.cfg 24 7) = some att ∧ v = rne (nv * 2 ^ wordField (s.chip.sqs.get x.val).inUse.cfg 20 3 * 2 ^ 23) (att * 1250000000) ∧ -0x800000 ≤ v ∧ v ≤ 0x7fffff ∧ y = rne ((v - (s.chip.sqs.get x.val).inUse.ofs) * (s.chip.sqs.get x.val).inUse.gain) (2 ^ 22) ∧ -0x800000 ≤ y ∧ y ≤ 0x7fffff) ∧
    (∃ (s : State) (x : SqId) (pos : Bool) (e : Fin 16), s.chip.sqOn x.val = true ∧ (s.chip.sqs.get x.val).run = .entry e.val ∧ (s.chip.sqs.get x.val).pass = true ∧ (s.chip.sqs.get x.val).stopped = false ∧ (s.chip.sqs.get x.val).nextTile = none ∧ (s.chip.sqs.get x.val).injs = [] ∧ s.chip.get (SQ.CTRL_LASTE x.val) = e.val ∧ s.chip.get (SQ.CTRL_MODE x.val) = 1 ∧ wordField (s.chip.sqs.get x.val).inUse.cfg 0 1 = 0 ∧ (s.chip.sqs.get x.val).calPhase = 0) ∧
    (∃ (s : State) (x : SqId), s.chip.sqOn x.val = true ∧ s.chip.get (SQ.CTRL_MODE x.val) = 2 ∧ (s.chip.sqs.get x.val).stopped = false ∧ (s.chip.sqs.get x.val).pass = false ∧ (s.chip.sqs.get x.val).run = .idle ∧ (s.chip.sqs.get x.val).calPhase = 0 ∧ (s.chip.sqs.get x.val).injs = [] ∧ s.chip.get (SQ.CTRL_REPINT x.val) ≠ 0 ∧ (s.chip.sqs.get x.val).passAt + s.chip.get (SQ.CTRL_REPINT x.val) ≤ s.chip.now) ∧
    (∃ (s : State) (x : SqId), s.chip.sqOn x.val = true ∧ s.chip.get (SQ.CTRL_MODE x.val) = 2 ∧ (s.chip.sqs.get x.val).stopped = false ∧ (s.chip.sqs.get x.val).pass = true ∧ (s.chip.sqs.get x.val).slipped = false ∧ s.chip.get (SQ.CTRL_REPINT x.val) ≠ 0 ∧ (s.chip.sqs.get x.val).passAt + s.chip.get (SQ.CTRL_REPINT x.val) ≤ s.chip.now) ∧
    (∃ (s : State) (req : Requester) (x : SqId), s.chip.reaches req (SQ.CTRL x.val) = true ∧ s.chip.get (SQ.CTRL_MODE x.val) ∈ [1, 2] ∧ (s.chip.sqs.get x.val).stopped = true ∧ (s.chip.sqs.get x.val).run = .idle ∧ (s.chip.sqs.get x.val).calPhase = 0 ∧ (s.chip.sqs.get x.val).injs = []) ∧
    (∃ (s : State) (req : Requester) (x : SqId), s.chip.reaches req (SQ.CTRL x.val) = true) ∧
    (∃ (s : State) (req : Requester) (x : SqId) (entry : Fin 16) (pre : Bool) (k : Fin 4), s.chip.reaches req (SQ.INJREQ x.val) = true ∧ s.chip.sqSlot x.val = some k.val) ∧
    (∃ (s : State) (req : Requester) (x : SqId) (entry : Fin 16) (pre : Bool), s.chip.reaches req (SQ.INJREQ x.val) = true ∧ (∀ k ∈ List.range 4, ∃ i ∈ (s.chip.sqs.get x.val).injs, i.slot.val = k)) ∧
    (∃ (s : State) (x : SqId) (pos : Bool) (k : Fin 4) (e : Fin 16) (rest : List SqInj), s.chip.sqOn x.val = true ∧ (s.chip.sqs.get x.val).run = .inject k.val ∧ (s.chip.sqs.get x.val).injs = ⟨k, e.val, false, none⟩ :: rest ∧ (∀ i ∈ rest, i.slot ≠ k) ∧ (s.chip.sqs.get x.val).hwWait = []) :=
  ⟨⟨({ chip := ({ (up base).put (SQ.CTRL_MODE 8) 2 |>.put (SQ.CTRL_LASTE 8) 3 with sqs := base.sqs.set 8 { run := .entry 1, pass := true, stopped := false, inUse := ⟨0x29300000, 5, 0x400001⟩ } } : Chip) } : State), (8 : SqId), (-123456789 : Int), (7 : Nat), (1 : Fin 16), (2 : Nat), (rne (-123456789 * 2 ^ 3 * 2 ^ 23) (2 * 1250000000) : Int), (rne ((rne (-123456789 * 2 ^ 3 * 2 ^ 23) (2 * 1250000000) - 5) * 0x400001) (2 ^ 22) : Int), by decide +kernel⟩,
    ⟨({ chip := ({ (up base).put (SQ.CTRL_MODE 0) 1 |>.put (SQ.CTRL_LASTE 0) 15 with sqs := base.sqs.set 0 { run := .entry 15, pass := true, stopped := false } } : Chip) } : State), (0 : SqId), (true : Bool), (15 : Fin 16), by decide +kernel⟩,
    ⟨({ chip := ({ (up base).put (SQ.CTRL_MODE 8) 2 |>.put (SQ.CTRL_REPINT 8) 5 with sqs := base.sqs.set 8 { passAt := 100, stopped := false }, time := { base.time with now := 105 } } : Chip) } : State), (8 : SqId), by decide +kernel⟩,
    ⟨({ chip := ({ (up base).put (SQ.CTRL_MODE 8) 2 |>.put (SQ.CTRL_REPINT 8) 5 with sqs := base.sqs.set 8 { passAt := 100, stopped := false, pass := true, run := .entry 5 }, time := { base.time with now := 105 } } : Chip) } : State), (8 : SqId), by decide +kernel⟩,
    ⟨({ chip := ({ (up base).put (SQ.CTRL_MODE 8) 1 with sqs := base.sqs.set 8 {} } : Chip) } : State), (.pcie : Requester), (8 : SqId), by decide +kernel⟩,
    ⟨({ chip := ({ up base with sqs := base.sqs.set 0 { run := .entry 3, pass := true, stopped := false } } : Chip) } : State), (.pcie : Requester), (0 : SqId), by decide +kernel⟩,
    ⟨({ chip := ({ (up base).put (SQ.INJST_LAST 8) 2 |>.put (SQ.INJST_PEND 8) 8 with sqs := base.sqs.set 8 { fresh := false, injs := [⟨3, 1, false, none⟩] } } : Chip) } : State), (.pcie : Requester), (8 : SqId), (15 : Fin 16), (false : Bool), (0 : Fin 4), by decide +kernel⟩,
    ⟨({ chip := ({ up base with sqs := base.sqs.set 8 { injs := [⟨3, 1, false, none⟩, ⟨0, 1, false, none⟩, ⟨1, 1, false, none⟩, ⟨2, 1, false, none⟩] } } : Chip) } : State), (.pcie : Requester), (8 : SqId), (15 : Fin 16), (true : Bool), by decide +kernel⟩,
    ⟨({ chip := ({ (up base).put (SQ.INJST_PEND 8) 8 with sqs := base.sqs.set 8 { run := .inject 3, injs := [⟨3, 15, false, none⟩, ⟨0, 1, false, none⟩] } } : Chip) } : State), (8 : SqId), (false : Bool), (3 : Fin 4), (15 : Fin 16), ([⟨0, 1, false, none⟩] : List SqInj), by decide +kernel⟩⟩

theorem witness_ConvertersCalibrate :
    (∃ (s : State) (req : Requester) (x : SqId) (step : Fin 4) (entry : Fin 16) (ref : BitVec 24), s.chip.reaches req (SQ.CALCTL x.val) = true ∧ (s.chip.get (SQ.CTRL_LASTE x.val) < entry.val ∨ step.val ∈ [2, 3] ∨ (step = 0 ∧ (s.chip.sqs.get x.val).calPhase ≠ 0) ∨ (step = 1 ∧ (s.chip.sqs.get x.val).calPhase ≠ 3))) ∧
    (∃ (s : State) (req : Requester) (x : SqId) (entry : Fin 16) (ref : BitVec 24), s.chip.reaches req (SQ.CALCTL x.val) = true ∧ entry.val ≤ s.chip.get (SQ.CTRL_LASTE x.val) ∧ (s.chip.sqs.get x.val).calPhase = 0 ∧ (s.chip.sqs.get x.val).run = .idle ∧ (s.chip.sqs.get x.val).injs = []) ∧
    (∃ (s : State) (x : SqId) (c : List Conversion) (v : Int), s.chip.sqOn x.val = true ∧ (s.chip.sqs.get x.val).run = .cal 0 ∧ c.length = 2 ^ (s.chip.sqs.get x.val).calAvg ∧ (s.chip.sqs.get x.val).inUse.average x.val c = some v) ∧
    (∃ (s : State) (x : SqId) (c : List Conversion) (v : Int) (g : Int), s.chip.sqOn x.val = true ∧ (s.chip.sqs.get x.val).run = .cal 1 ∧ c.length = 2 ^ (s.chip.sqs.get x.val).calAvg ∧ (s.chip.sqs.get x.val).inUse.average x.val c = some v ∧ (s.chip.sqs.get x.val).calEntry < 16 ∧ (s.chip.sqs.get x.val).calZero ≠ v ∧ -0x800000 ≤ (s.chip.sqs.get x.val).calZero ∧ (s.chip.sqs.get x.val).calZero ≤ 0x7fffff ∧ g = rne (s.chip.getS (SQ.CALCTL_REF x.val) * 2 ^ 22 * (v - (s.chip.sqs.get x.val).calZero).sign) (v - (s.chip.sqs.get x.val).calZero).natAbs ∧ 0x200000 ≤ g ∧ g ≤ 0x800000) ∧
    (∃ (s : State) (x : SqId) (c : List Conversion) (step : Nat), s.chip.sqOn x.val = true ∧ (s.chip.sqs.get x.val).run = .cal step ∧ c.length = 2 ^ (s.chip.sqs.get x.val).calAvg ∧ (∃ k ∈ c, k ∈ [.overload true, .overload false])) ∧
    (∃ (s : State) (x : SqId) (c : List Conversion), c.length ≠ 2 ^ (s.chip.sqs.get x.val).calAvg) ∧
    (∃ (s : State) (req : Requester) (x : SqId), s.chip.reaches req (SQ.CALCTL x.val) = true ∧ (s.chip.sqs.get x.val).calPhase ≠ 0) ∧
    (∃ (s : State) (x : SqId), (s.chip.sqs.get x.val).calPhase ≠ 0 ∧ (s.chip.sqs.get x.val).calAt + 1000 * (s.chip.sqs.get x.val).calHold ≤ s.chip.now) :=
  ⟨⟨({ chip := ((up base).put (SQ.CTRL_LASTE 8) 3 : Chip) } : State), (.pcie : Requester), (8 : SqId), (0 : Fin 4), (4 : Fin 16), (0x123456 : BitVec 24), by decide +kernel⟩,
    ⟨({ chip := ({ (up base).put (SQ.CTRL_LASTE 0) 3 with sqs := base.sqs.set 0 {} } : Chip) } : State), (.pcie : Requester), (0 : SqId), (3 : Fin 16), (0x123456 : BitVec 24), by decide +kernel⟩,
    ⟨({ chip := ({ up base with sqs := base.sqs.set 0 { run := .cal 0, calPhase := 2, calEntry := 3, calAvg := 1, inUse := ⟨0x4c000000, 0, 0x400000⟩ } } : Chip) } : State), (0 : SqId), ([.input (-300) 1, .input (-400) 1] : List Conversion), (-1 : Int), by decide +kernel⟩,
    ⟨({ chip := ({ (up base).put (SQ.CALCTL_REF 8) 0x200000 with sqs := base.sqs.set 8 { run := .cal 1, calPhase := 4, calEntry := 15, calZero := -5, inUse := ⟨0x20000000, 0, 0x400000⟩ } } : Chip) } : State), (8 : SqId), ([.input 312500000 1] : List Conversion), (0x200000 : Int), (rne (0x200000 * 2 ^ 22) (0x200000 + 5) : Int), by decide +kernel⟩,
    ⟨({ chip := ({ up base with sqs := base.sqs.set 8 { run := .cal 1, calPhase := 4, calEntry := 15, calZero := -5, calAvg := 1 } } : Chip) } : State), (8 : SqId), ([.input 0 1, .overload true] : List Conversion), (1 : Nat), by decide +kernel⟩,
    ⟨({ chip := ({ up base with sqs := base.sqs.set 8 { run := .cal 1, calPhase := 4, calEntry := 15, calZero := -5, calAvg := 6 } } : Chip) } : State), (8 : SqId), ([.input 0 1, .overload true] : List Conversion), by decide +kernel⟩,
    ⟨({ chip := ({ up base with sqs := base.sqs.set 8 { run := .cal 1, calPhase := 4, calEntry := 15, calZero := -5 } } : Chip) } : State), (.pcie : Requester), (8 : SqId), by decide +kernel⟩,
    ⟨({ chip := ({ up base with sqs := base.sqs.set 8 { run := .idle, calPhase := 3, calEntry := 15, calAt := 5, calHold := 2 }, time := { base.time with now := 2005 } } : Chip) } : State), (8 : SqId), by decide +kernel⟩⟩

theorem witness_HintsAreJudgedAndEnd :
    (∃ (s : State) (l : Fin 8) (clean : Bool) (crc : BitVec 8) (w0 : BitVec 16) (w1 : BitVec 16), s.chip.coreRuns = true ∧ clean = false ∨ crc ≠ hintCrc [w0, w1] ∨ w0.toNat / 4096 ≠ 1 ∨ w0.toNat % 4 ≠ 0) ∧
    (∃ (s : State) (l : Fin 8) (w0 : BitVec 16) (w1 : BitVec 16), s.chip.coreRuns = true ∧ w0.toNat / 4096 = 1 ∧ w0.toNat % 4 = 0 ∧ s.chip.get (HINT.CFG_EN l.val) = 0) ∧
    (∃ (s : State) (l : Fin 8) (w0 : BitVec 16) (w1 : BitVec 16), s.chip.coreRuns = true ∧ w0.toNat / 4096 = 1 ∧ w0.toNat % 4 = 0 ∧ (w0.toNat / 4 % 16 = 0 ∨ ∃ k : Fin 4, bitAt (w0.toNat / 4 % 16) k.val = true ∧ s.chip.hintLoop l.val k.val = none) ∧ s.chip.get (HINT.CFG_EN l.val) = 1) ∧
    (∃ (s : State) (l : Fin 8) (w0 : BitVec 16) (w1 : BitVec 16) (n : Nat), s.chip.coreRuns = true ∧ w0.toNat / 4096 = 1 ∧ w0.toNat % 64 = 4 ∧ s.chip.get (HINT.CFG_EN l.val) = 1 ∧ s.chip.hintLoop l.val 0 = some n ∧ s.chip.loopState n = 2 ∧ (s.chip.tunes.get n).phase = .idle ∧ s.chip.get FLT.STAT_SAFE = 0 ∧ signedOf 8 (w1.toNat / 256) ≤ 0 ∧ (s.chip.hintHw.get l.val).hints = []) ∧
    (∃ (s : State) (l : Fin 8) (w0 : BitVec 16) (w1 : BitVec 16) (n : Nat) (pk : Nat), s.chip.coreRuns = true ∧ w0.toNat / 4096 = 1 ∧ w0.toNat % 64 = 4 ∧ s.chip.get (HINT.CFG_EN l.val) = 1 ∧ s.chip.hintLoop l.val 0 = some n ∧ s.chip.loopState n = 2 ∧ 0 < signedOf 8 (w1.toNat / 256) ∧ s.chip.loopSum n + signedOf 8 (w1.toNat / 256) * 128 ≤ s.chip.get (AVSL.ILIM_ILIM n) ∧ (s.chip.hintHw.get l.val).hints = [] ∧ (s.chip.tunes.get n).phase = .idle ∧ s.chip.get FLT.STAT_SAFE = 0 ∧ pk = (8 * (w1.toNat / 256) * s.chip.get (LOOP.TARGET_VTGT n) * max 256 (s.chip.get (HINT.CFG_KPW l.val)) + 4000 * 256 - 1) / (4000 * 256)) ∧
    (∃ (s : State) (l : Fin 8) (w0 : BitVec 16) (w1 : BitVec 16) (n : Nat), s.chip.coreRuns = true ∧ w0.toNat / 4096 = 1 ∧ w0.toNat % 64 = 4 ∧ s.chip.get (HINT.CFG_EN l.val) = 1 ∧ s.chip.hintLoop l.val 0 = some n ∧ s.chip.loopState n = 4 ∧ (s.chip.tunes.get n).phase = .running ∧ (signedOf 8 (w1.toNat / 256) ≤ 0 ∨ s.chip.loopSum n + signedOf 8 (w1.toNat / 256) * 128 ≤ s.chip.get (AVSL.ILIM_ILIM n)) ∧ (s.chip.hintHw.get l.val).hints = []) ∧
    (∃ (s : State) (k : Nat) (l : Fin 8) (a : Ask) (x : Hint), s.chip.coreRuns = true ∧ s.chip.asks[k]? = some a ∧ a.who = .hint l.val x.hid ∧ a.who ∉ s.chip.drops ∧ s.chip.inputOn = true ∧ s.chip.tooBig a.peak = false ∧ s.chip.fits a.peak = false ∧ s.chip.bud.queue = [] ∧ (s.chip.hintHw.get l.val).hints = [x] ∧ x.phase = .asked ∧ x.deferred = none ∧ s.chip.get (HINT.CFG_EN l.val) = 1) ∧
    (∃ (s : State) (tileOk : Bool) (w : BudReq) (l : Fin 8) (x : Hint), s.chip.coreRuns = true ∧ s.chip.grantable = some w ∧ w.ask.who = .hint l.val x.hid ∧ (s.chip.hintHw.get l.val).hints = [x] ∧ x.phase = .asked ∧ 0 < x.step ∧ s.chip.get FLT.STAT_SAFE = 0 ∧ s.chip.get (HINT.CFG_EN l.val) = 1 ∧ (∀ l : Fin 8, (s.chip.hintHw.get l.val).ready = none)) ∧
    (∃ (s : State) (l : Fin 8) (w0 : BitVec 16), s.chip.coreRuns = true ∧ w0.toNat / 4096 = 2 ∧ w0.toNat % 64 = 0 ∧ s.chip.get (HINT.CFG_EN l.val) = 1 ∧ (∀ x ∈ (s.chip.hintHw.get l.val).hints, x.hid ≠ w0.toNat / 64 % 64)) ∧
    (∃ (s : State) (l : Fin 8) (w0 : BitVec 16) (x : Hint), s.chip.coreRuns = true ∧ w0.toNat / 4096 = 2 ∧ w0.toNat % 64 = 0 ∧ s.chip.get (HINT.CFG_EN l.val) = 1 ∧ (s.chip.hintHw.get l.val).hints = [x] ∧ x.hid = w0.toNat / 64 % 64 ∧ x.phase = .holding) ∧
    (∃ (s : State) (l : Fin 8) (clean : Bool) (crc : BitVec 8) (w0 : BitVec 16), s.chip.coreRuns = true ∧ clean = false ∨ crc ≠ hintCrc [w0] ∨ w0.toNat / 4096 ≠ 2 ∨ w0.toNat % 64 ≠ 0) ∧
    (∃ (s : State) (l : Fin 8) (hid : Fin 64) (x : Hint), (s.chip.hintHw.get l.val).hints = [x] ∧ x.hid = hid.val ∧ s.chip.coreRuns = true ∧ x.phase ≠ .holding ∧ x.at' + x.deft ≤ s.chip.now ∧ s.chip.get (HINT.CFG_EN l.val) = 1) ∧
    (∃ (s : State) (l : Fin 8) (hid : Fin 64) (x : Hint), (s.chip.hintHw.get l.val).hints = [x] ∧ x.hid = hid.val ∧ s.chip.coreRuns = true ∧ x.phase = .holding ∧ 4 * x.grantAt + x.lead + 4 * x.hold ≤ 4 * s.chip.now) ∧
    (∃ (s : State) (l : Fin 8) (k : Fin 8) (kind : Nat) (hid : Nat) (arg : Nat) (n : Nat), s.chip.coreRuns = true ∧ (s.chip.hintHw.get l.val).tx[k.val]? = some (kind, hid, arg, n) ∧ n < 2) ∧
    (∃ (s : State) (l : Fin 8) (k : Fin 8) (kind : Nat) (hid : Nat) (arg : Nat) (n : Nat), s.chip.coreRuns = true ∧ (s.chip.hintHw.get l.val).tx[k.val]? = some (kind, hid, arg, n) ∧ 2 ≤ n) ∧
    (∃ (s : State) (l : Fin 8) (a : Nat), s.chip.coreRuns = true ∧ (s.chip.hintHw.get l.val).pulse = some a ∧ a + 1 ≤ s.chip.now ∧ (s.chip.hintHw.get l.val).hints = []) :=
  ⟨⟨({ chip := (up base : Chip) } : State), (7 : Fin 8), (true : Bool), (hintCrc [0x1fc4, 0] + 1 : BitVec 8), (0x1fc4 : BitVec 16), (0 : BitVec 16), by decide +kernel⟩,
    ⟨({ chip := ((up base).put (HINT.CFG_EN 7) 0 : Chip) } : State), (7 : Fin 8), (0x1fc4 : BitVec 16), (0x8105 : BitVec 16), by decide +kernel⟩,
    ⟨({ chip := ((up base).put (HINT.CFG_EN 7) 1 : Chip) } : State), (7 : Fin 8), (0x1fc0 : BitVec 16), (0x8105 : BitVec 16), by decide +kernel⟩,
    ⟨({ chip := ({ (up base).put (HINT.CFG_EN 7) 1 |>.setReg (HINT.MAP 7) 0x3f |>.put (LOOP.STATUS_STATE 31) 2 |>.put FLT.STAT_SAFE 0 with tunes := Tbl.empty, hintHw := base.hintHw.set 7 {} } : Chip) } : State), (7 : Fin 8), (0x1fc4 : BitVec 16), (0x8105 : BitVec 16), (31 : Nat), by decide +kernel⟩,
    ⟨({ chip := ({ (up base).put (HINT.CFG_EN 7) 1 |>.setReg (HINT.MAP 7) 0x3f |>.put (LOOP.STATUS_STATE 31) 2 |>.put (AVSL.ILIM_ILIM 31) 32000 |>.put (LOOP.TARGET_VTGT 31) 4000 |>.put (HINT.CFG_KPW 7) 256 |>.put FLT.STAT_SAFE 0 with hintHw := base.hintHw.set 7 {}, sums := Tbl.empty, tunes := Tbl.empty } : Chip) } : State), (7 : Fin 8), (0x1fc4 : BitVec 16), (0x0505 : BitVec 16), (31 : Nat), (40 : Nat), by decide +kernel⟩,
    ⟨({ chip := ({ (up base).put (HINT.CFG_EN 7) 1 |>.setReg (HINT.MAP 7) 0x3f |>.put (LOOP.STATUS_STATE 31) 4 with hintHw := base.hintHw.set 7 {}, tunes := base.tunes.set 31 { phase := .running } } : Chip) } : State), (7 : Fin 8), (0x1fc4 : BitVec 16), (0x8105 : BitVec 16), (31 : Nat), by decide +kernel⟩,
    ⟨({ chip := ({ (up base).put (HINT.CFG_EN 7) 1 |>.put HSW.STAT_STATE 3 |>.put BUD.CFG_PBUD 100 with asks := [⟨.tune 3, 1, 1, 1⟩, ⟨.hint 7 63, 100, 6, 7⟩], drops := [], bud := { base.bud with queue := [], held := [⟨.nvm, 1, 900⟩] }, hsw := { base.hsw with hist := [] }, hintHw := base.hintHw.set 7 { hints := [{ hid := 63, mask := 1, step := 5, lead := 9, phase := .asked }] } } : Chip) } : State), (1 : Nat), (7 : Fin 8), (⟨.hint 7 63, 100, 6, 7⟩ : Ask), ({ hid := 63, mask := 1, step := 5, lead := 9, phase := .asked } : Hint), by decide +kernel⟩,
    ⟨({ chip := ({ (up base).put (HINT.CFG_EN 7) 1 |>.put HSW.STAT_STATE 3 |>.put BUD.CFG_PBUD 100 |>.setReg (HINT.MAP 7) 0x3f with bud := { base.bud with queue := [⟨⟨.hint 7 63, 100, 6, 7⟩, 1, 0, false⟩], held := [], last := none, onSince := some 0, onAcc := 0 }, hsw := { base.hsw with hist := [] }, hintHw := Tbl.empty.set 7 { hints := [{ hid := 63, mask := 1, step := 5, lead := 9, phase := .asked, deferred := some 1 }] }, time := { base.time with now := 50 } } |>.put FLT.STAT_SAFE 0 : Chip) } : State), (true : Bool), (⟨⟨.hint 7 63, 100, 6, 7⟩, 1, 0, false⟩ : BudReq), (7 : Fin 8), ({ hid := 63, mask := 1, step := 5, lead := 9, phase := .asked, deferred := some 1 } : Hint), by decide +kernel⟩,
    ⟨({ chip := ({ (up base).put (HINT.CFG_EN 7) 1 with hintHw := base.hintHw.set 7 {} } : Chip) } : State), (7 : Fin 8), (0x2fc0 : BitVec 16), by decide +kernel⟩,
    ⟨({ chip := ({ (up base).put (HINT.CFG_EN 7) 1 |>.setReg (HINT.MAP 7) 0x3f with hintHw := base.hintHw.set 7 { hints := [{ hid := 63, mask := 1, step := 5, lead := 9, phase := .holding }] } } : Chip) } : State), (7 : Fin 8), (0x2fc0 : BitVec 16), ({ hid := 63, mask := 1, step := 5, lead := 9, phase := .holding } : Hint), by decide +kernel⟩,
    ⟨({ chip := (up base : Chip) } : State), (7 : Fin 8), (true : Bool), (hintCrc [0x2fc0] + 1 : BitVec 8), (0x2fc0 : BitVec 16), by decide +kernel⟩,
    ⟨({ chip := ({ (up base).put (HINT.CFG_EN 7) 1 with hintHw := base.hintHw.set 7 { hints := [{ hid := 63, mask := 1, step := 5, lead := 9, phase := .asked, at' := 90, deft := 10 }] }, time := { base.time with now := 100 } } : Chip) } : State), (7 : Fin 8), (63 : Fin 64), ({ hid := 63, mask := 1, step := 5, lead := 9, phase := .asked, at' := 90, deft := 10 } : Hint), by decide +kernel⟩,
    ⟨({ chip := ({ up base with hintHw := base.hintHw.set 7 { hints := [{ hid := 63, mask := 1, step := -5, lead := 9, phase := .holding, grantAt := 90, hold := 8 }] }, time := { base.time with now := 101 } } : Chip) } : State), (7 : Fin 8), (63 : Fin 64), ({ hid := 63, mask := 1, step := -5, lead := 9, phase := .holding, grantAt := 90, hold := 8 } : Hint), by decide +kernel⟩,
    ⟨({ chip := ({ up base with hintHw := base.hintHw.set 7 { tx := [(9, 5, 1, 2), (8, 63, 0, 1)] } } : Chip) } : State), (7 : Fin 8), (1 : Fin 8), (8 : Nat), (63 : Nat), (0 : Nat), (1 : Nat), by decide +kernel⟩,
    ⟨({ chip := ({ up base with hintHw := base.hintHw.set 7 { tx := [(9, 5, 1, 2), (8, 63, 0, 1)] } } : Chip) } : State), (7 : Fin 8), (0 : Fin 8), (9 : Nat), (5 : Nat), (1 : Nat), (2 : Nat), by decide +kernel⟩,
    ⟨({ chip := ({ up base with hintHw := base.hintHw.set 7 { pulse := some 99 }, time := { base.time with now := 100 } } : Chip) } : State), (7 : Fin 8), (99 : Nat), by decide +kernel⟩⟩

theorem witness_AvsWritesCommandTheirLoop :
    (∃ (s : State) (k : Fin 8) (sel : Fin 16) (n : Nat) (mv : BitVec 16), s.chip.coreRuns = true ∧ s.chip.get (AVSP.CFG_EN k.val) = 1 ∧ s.chip.avsLoop k.val sel.val = some n ∧ ((s.chip.avsHw.get k.val).holdV[sel.val]?).join = none ∧ ((s.chip.avsHw.get k.val).holdS[sel.val]?).join = none ∧ (s.chip.avsHw.get k.val).holdR[sel.val]? ≠ some true ∧ (s.chip.avsHw.get k.val).holdE[sel.val]? ≠ some true ∧ s.chip.get (AVSL.CTRL_OWNER n) = 1 ∧ s.chip.loopState n = 2 ∧ s.chip.get (AVSL.VLIM_VMIN n) ≤ 4 * mv.toNat ∧ 4 * mv.toNat ≤ s.chip.get (AVSL.VLIM_VMAX n)) ∧
    (∃ (s : State) (k : Fin 8) (sel : Fin 16) (n : Nat) (mv : BitVec 16), s.chip.coreRuns = true ∧ s.chip.get (AVSP.CFG_EN k.val) = 1 ∧ s.chip.avsLoop k.val sel.val = some n ∧ ((s.chip.avsHw.get k.val).holdV[sel.val]?).join = none ∧ ((s.chip.avsHw.get k.val).holdS[sel.val]?).join = none ∧ (s.chip.avsHw.get k.val).holdR[sel.val]? ≠ some true ∧ (s.chip.avsHw.get k.val).holdE[sel.val]? ≠ some true ∧ s.chip.get (AVSL.CTRL_OWNER n) ≠ 1) ∧
    (∃ (s : State) (k : Fin 8) (sel : Fin 16) (n : Nat) (mv : BitVec 16), s.chip.coreRuns = true ∧ s.chip.get (AVSP.CFG_EN k.val) = 1 ∧ s.chip.avsLoop k.val sel.val = some n ∧ (s.chip.avsHw.get k.val).holdV.length = 4 ∧ mv.toNat < 4096) ∧
    (∃ (s : State) (k : Fin 8) (sel : Fin 16) (n : Nat) (rate : BitVec 16), s.chip.coreRuns = true ∧ s.chip.get (AVSP.CFG_EN k.val) = 1 ∧ s.chip.avsLoop k.val sel.val = some n ∧ ((s.chip.avsHw.get k.val).holdV[sel.val]?).join = none ∧ ((s.chip.avsHw.get k.val).holdS[sel.val]?).join = none ∧ (s.chip.avsHw.get k.val).holdR[sel.val]? ≠ some true ∧ (s.chip.avsHw.get k.val).holdE[sel.val]? ≠ some true ∧ s.chip.get (AVSL.CTRL_OWNER n) = 1 ∧ s.chip.loopState n ∈ [2, 4] ∧ 1000 * max rate.toNat 1 ≤ min (s.chip.get (AVSL.SLEW_SLEWMAX n)) 50000) ∧
    (∃ (s : State) (k : Fin 8) (sel : Fin 16) (n : Nat) (rate : BitVec 16), s.chip.coreRuns = true ∧ s.chip.get (AVSP.CFG_EN k.val) = 1 ∧ s.chip.avsLoop k.val sel.val = some n ∧ ((s.chip.avsHw.get k.val).holdV[sel.val]?).join = none ∧ ((s.chip.avsHw.get k.val).holdS[sel.val]?).join = none ∧ (s.chip.avsHw.get k.val).holdR[sel.val]? ≠ some true ∧ (s.chip.avsHw.get k.val).holdE[sel.val]? ≠ some true ∧ s.chip.get (AVSL.CTRL_OWNER n) = 1 ∧ s.chip.loopState n ∈ [2, 4] ∧ min (s.chip.get (AVSL.SLEW_SLEWMAX n)) 50000 < 1000 * max rate.toNat 1) ∧
    (∃ (s : State) (k : Fin 8) (sel : Fin 16) (n : Nat), s.chip.coreRuns = true ∧ s.chip.get (AVSP.CFG_EN k.val) = 1 ∧ s.chip.avsLoop k.val sel.val = some n ∧ ((s.chip.avsHw.get k.val).holdV[sel.val]?).join = none ∧ ((s.chip.avsHw.get k.val).holdS[sel.val]?).join = none ∧ (s.chip.avsHw.get k.val).holdR[sel.val]? ≠ some true ∧ (s.chip.avsHw.get k.val).holdE[sel.val]? ≠ some true ∧ s.chip.get (AVSL.CTRL_OWNER n) = 1 ∧ s.chip.loopState n = 2 ∧ s.chip.get (AVSL.VLIM_VMIN n) ≤ s.chip.get (AVSL.CTRL_VBOOT n) ∧ s.chip.get (AVSL.CTRL_VBOOT n) ≤ s.chip.get (AVSL.VLIM_VMAX n)) ∧
    (∃ (s : State) (k : Fin 8) (sel : Fin 16) (n : Nat), s.chip.coreRuns = true ∧ s.chip.get (AVSP.CFG_EN k.val) = 1 ∧ s.chip.avsLoop k.val sel.val = some n ∧ ((s.chip.avsHw.get k.val).holdV[sel.val]?).join = none ∧ ((s.chip.avsHw.get k.val).holdS[sel.val]?).join = none ∧ (s.chip.avsHw.get k.val).holdR[sel.val]? ≠ some true ∧ (s.chip.avsHw.get k.val).holdE[sel.val]? ≠ some true) ∧
    (∃ (s : State) (k : Fin 8) (sel : Fin 16) (n : Nat), s.chip.coreRuns = true ∧ s.chip.get (AVSP.CFG_EN k.val) = 1 ∧ s.chip.avsLoop k.val sel.val = some n ∧ sel.val ≠ 0xf) ∧
    (∃ (s : State) (k : Fin 8) (sel : Fin 16) (n : Nat), s.chip.coreRuns = true ∧ s.chip.get (AVSP.CFG_EN k.val) = 1 ∧ s.chip.avsLoop k.val sel.val = some n ∧ sel.val ≠ 0xf) ∧
    (∃ (s : State) (k : Fin 8) (sel : Fin 16) (n : Nat) (hold : Bool), s.chip.coreRuns = true ∧ s.chip.get (AVSP.CFG_EN k.val) = 1 ∧ sel.val ≠ 0xf ∧ s.chip.avsLoop k.val sel.val = some n) ∧
    (∃ (s : State) (k : Fin 8) (sel : Fin 16) (hold : Bool), s.chip.coreRuns = true ∧ s.chip.get (AVSP.CFG_EN k.val) = 1 ∧ sel.val ≠ 0xf ∧ s.chip.avsLoop k.val sel.val = none) ∧
    (∃ (s : State) (k : Fin 8) (hold : Bool), s.chip.coreRuns = true ∧ s.chip.get (AVSP.CFG_EN k.val) = 1) ∧
    (∃ (s : State) (k : Fin 8) (mv : BitVec 16), s.chip.coreRuns = true ∧ s.chip.get (AVSP.CFG_EN k.val) = 1 ∧ (∀ j < 4, ((s.chip.avsHw.get k.val).holdV[j]?).join = none ∧ ((s.chip.avsHw.get k.val).holdS[j]?).join = none ∧ (s.chip.avsHw.get k.val).holdR[j]? ≠ some true ∧ (s.chip.avsHw.get k.val).holdE[j]? ≠ some true) ∧ ((List.range 4).filterMap fun j => s.chip.avsLoop k.val j) ≠ [] ∧ (∀ n ∈ ((List.range 4).filterMap fun j => s.chip.avsLoop k.val j), s.chip.get (AVSL.CTRL_OWNER n) = 1 ∧ s.chip.loopState n = 2 ∧ s.chip.get (AVSL.VLIM_VMIN n) ≤ 4 * mv.toNat ∧ 4 * mv.toNat ≤ s.chip.get (AVSL.VLIM_VMAX n))) ∧
    (∃ (s : State) (k : Fin 8) (mv : BitVec 16), s.chip.coreRuns = true ∧ s.chip.get (AVSP.CFG_EN k.val) = 1 ∧ (s.chip.avsHw.get k.val).holdV.length = 4) ∧
    (∃ (s : State) (k : Fin 8) (sel : Fin 16) (n : Nat) (rate : BitVec 16), s.chip.coreRuns = true ∧ s.chip.get (AVSP.CFG_EN k.val) = 1 ∧ sel.val ≠ 0xf ∧ s.chip.avsLoop k.val sel.val = some n) ∧
    (∃ (s : State) (k : Fin 8) (sel : Fin 16) (n : Nat) (v : Nat) (rate : BitVec 16), s.chip.coreRuns = true ∧ s.chip.get (AVSP.CFG_EN k.val) = 1 ∧ sel.val ≠ 0xf ∧ s.chip.avsLoop k.val sel.val = some n ∧ (s.chip.avsHw.get k.val).holdV[sel.val]? = some (some v) ∧ ((s.chip.avsHw.get k.val).holdS[sel.val]?).join = none ∧ (s.chip.avsHw.get k.val).holdR[sel.val]? ≠ some true ∧ (s.chip.avsHw.get k.val).holdE[sel.val]? ≠ some true ∧ s.chip.get (AVSL.CTRL_OWNER n) = 1 ∧ s.chip.loopState n = 2 ∧ v < 2 ^ 14 ∧ s.chip.get (AVSL.VLIM_VMIN n) ≤ v ∧ v ≤ s.chip.get (AVSL.VLIM_VMAX n) ∧ 1000 * max rate.toNat 1 ≤ min (s.chip.get (AVSL.SLEW_SLEWMAX n)) 50000) ∧
    (∃ (s : State) (k : Fin 8) (sel : Fin 16) (hold : Bool) (mv : BitVec 16), s.chip.coreRuns = true ∧ s.chip.get (AVSP.CFG_EN k.val) = 1) ∧
    (∃ (s : State) (k : Fin 8) (sel : Fin 16), s.chip.coreRuns = true ∧ s.chip.get (AVSP.CFG_EN k.val) = 1 ∧ sel.val ≠ 0xf ∧ s.chip.avsLoop k.val sel.val = none) ∧
    (∃ (s : State) (k : Fin 8), s.chip.coreRuns = true ∧ s.chip.get (AVSP.CFG_EN k.val) = 1) ∧
    (∃ (s : State) (k : Fin 8) (sel : Fin 16) (mv : BitVec 16), s.chip.get (AVSP.CFG_EN k.val) = 0) :=
  ⟨⟨({ chip := ({ (up base).put (AVSP.CFG_EN 7) 1 |>.setReg (AVSP.CFG 7) (0x00ffffff) |>.put (AVSP.CFG_EN 7) 1 |>.put (AVSL.CTRL_OWNER 31) 1 |>.put (LOOP.STATUS_STATE 31) 2 |>.put (AVSL.VLIM_VMIN 31) 400 |>.put (AVSL.VLIM_VMAX 31) 4000 with avsHw := base.avsHw.set 7 {} } : Chip) } : State), (7 : Fin 8), (3 : Fin 16), (31 : Nat), (1000 : BitVec 16), by decide +kernel⟩,
    ⟨({ chip := ({ (up base).put (AVSP.CFG_EN 7) 1 |>.setReg (AVSP.CFG 7) (0x00ffffff) |>.put (AVSP.CFG_EN 7) 1 |>.put (AVSL.CTRL_OWNER 31) 2 with avsHw := base.avsHw.set 7 {} } : Chip) } : State), (7 : Fin 8), (3 : Fin 16), (31 : Nat), (1000 : BitVec 16), by decide +kernel⟩,
    ⟨({ chip := ({ (up base).put (AVSP.CFG_EN 7) 1 |>.setReg (AVSP.CFG 7) (0x00ffffff) |>.put (AVSP.CFG_EN 7) 1 with avsHw := base.avsHw.set 7 {} } : Chip) } : State), (7 : Fin 8), (3 : Fin 16), (31 : Nat), (4095 : BitVec 16), by decide +kernel⟩,
    ⟨({ chip := ({ (up base).put (AVSP.CFG_EN 7) 1 |>.setReg (AVSP.CFG 7) (0x00ffffff) |>.put (AVSP.CFG_EN 7) 1 |>.put (AVSL.CTRL_OWNER 31) 1 |>.put (LOOP.STATUS_STATE 31) 4 |>.put (AVSL.SLEW_SLEWMAX 31) 9000 with avsHw := base.avsHw.set 7 {} } : Chip) } : State), (7 : Fin 8), (3 : Fin 16), (31 : Nat), (5 : BitVec 16), by decide +kernel⟩,
    ⟨({ chip := ({ (up base).put (AVSP.CFG_EN 7) 1 |>.setReg (AVSP.CFG 7) (0x00ffffff) |>.put (AVSP.CFG_EN 7) 1 |>.put (AVSL.CTRL_OWNER 31) 1 |>.put (LOOP.STATUS_STATE 31) 2 |>.put (AVSL.SLEW_SLEWMAX 31) 9000 with avsHw := base.avsHw.set 7 {} } : Chip) } : State), (7 : Fin 8), (3 : Fin 16), (31 : Nat), (10 : BitVec 16), by decide +kernel⟩,
    ⟨({ chip := ({ (up base).put (AVSP.CFG_EN 7) 1 |>.setReg (AVSP.CFG 7) (0x00ffffff) |>.put (AVSP.CFG_EN 7) 1 |>.put (AVSL.CTRL_OWNER 31) 1 |>.put (LOOP.STATUS_STATE 31) 2 |>.put (AVSL.VLIM_VMIN 31) 400 |>.put (AVSL.VLIM_VMAX 31) 4000 |>.put (AVSL.CTRL_VBOOT 31) 400 with avsHw := base.avsHw.set 7 {} } : Chip) } : State), (7 : Fin 8), (3 : Fin 16), (31 : Nat), by decide +kernel⟩,
    ⟨({ chip := ({ (up base).put (AVSP.CFG_EN 7) 1 |>.setReg (AVSP.CFG 7) (0x00ffffff) |>.put (AVSP.CFG_EN 7) 1 with avsHw := base.avsHw.set 7 { alert := true } } : Chip) } : State), (7 : Fin 8), (3 : Fin 16), (31 : Nat), by decide +kernel⟩,
    ⟨({ chip := ({ (up base).put (AVSP.CFG_EN 7) 1 |>.setReg (AVSP.CFG 7) (0x00ffffff) |>.put (AVSP.CFG_EN 7) 1 with avsHw := base.avsHw.set 7 {} } : Chip) } : State), (7 : Fin 8), (3 : Fin 16), (31 : Nat), by decide +kernel⟩,
    ⟨({ chip := ({ (up base).put (AVSP.CFG_EN 7) 1 |>.setReg (AVSP.CFG 7) (0x00ffffff) |>.put (AVSP.CFG_EN 7) 1 with avsHw := base.avsHw.set 7 {} } : Chip) } : State), (7 : Fin 8), (3 : Fin 16), (31 : Nat), by decide +kernel⟩,
    ⟨({ chip := ((up base).put (AVSP.CFG_EN 7) 1 |>.setReg (AVSP.CFG 7) (0x00ffffff) |>.put (AVSP.CFG_EN 7) 1 : Chip) } : State), (7 : Fin 8), (3 : Fin 16), (31 : Nat), (true : Bool), by decide +kernel⟩,
    ⟨({ chip := ((up base).put (AVSP.CFG_EN 7) 1 |>.setReg (AVSP.CFG 7) (0x00ffffff) |>.put (AVSP.CFG_EN 7) 1 : Chip) } : State), (7 : Fin 8), (9 : Fin 16), (true : Bool), by decide +kernel⟩,
    ⟨({ chip := ((up base).put (AVSP.CFG_EN 7) 1 |>.setReg (AVSP.CFG 7) (0x00ffffff) |>.put (AVSP.CFG_EN 7) 1 : Chip) } : State), (7 : Fin 8), (true : Bool), by decide +kernel⟩,
    ⟨({ chip := ({ (up base).setReg (AVSP.CFG 7) (0x00820820 + 2) |>.put (AVSP.CFG_EN 7) 1 |>.put (AVSL.CTRL_OWNER 2) 1 |>.put (LOOP.STATUS_STATE 2) 2 |>.put (AVSL.VLIM_VMIN 2) 400 |>.put (AVSL.VLIM_VMAX 2) 4000 |>.put (AVSL.CTRL_OWNER 0) 1 |>.put (LOOP.STATUS_STATE 0) 2 |>.put (AVSL.VLIM_VMIN 0) 400 |>.put (AVSL.VLIM_VMAX 0) 4000 with avsHw := base.avsHw.set 7 {} } : Chip) } : State), (7 : Fin 8), (1000 : BitVec 16), by decide +kernel⟩,
    ⟨({ chip := ({ (up base).put (AVSP.CFG_EN 7) 1 |>.setReg (AVSP.CFG 7) (0x00ffffff) |>.put (AVSP.CFG_EN 7) 1 with avsHw := base.avsHw.set 7 {} } : Chip) } : State), (7 : Fin 8), (1000 : BitVec 16), by decide +kernel⟩,
    ⟨({ chip := ({ (up base).put (AVSP.CFG_EN 7) 1 |>.setReg (AVSP.CFG 7) (0x00ffffff) |>.put (AVSP.CFG_EN 7) 1 with avsHw := base.avsHw.set 7 {} } : Chip) } : State), (7 : Fin 8), (3 : Fin 16), (31 : Nat), (9 : BitVec 16), by decide +kernel⟩,
    ⟨({ chip := ({ (up base).put (AVSP.CFG_EN 7) 1 |>.setReg (AVSP.CFG 7) (0x00ffffff) |>.put (AVSP.CFG_EN 7) 1 |>.put (AVSL.CTRL_OWNER 31) 1 |>.put (LOOP.STATUS_STATE 31) 2 |>.put (AVSL.VLIM_VMIN 31) 400 |>.put (AVSL.VLIM_VMAX 31) 4000 |>.put (AVSL.SLEW_SLEWMAX 31) 9000 with avsHw := base.avsHw.set 7 { holdV := [none, none, none, some 1000] } } : Chip) } : State), (7 : Fin 8), (3 : Fin 16), (31 : Nat), (1000 : Nat), (5 : BitVec 16), by decide +kernel⟩,
    ⟨({ chip := ((up base).put (AVSP.CFG_EN 7) 1 : Chip) } : State), (7 : Fin 8), (3 : Fin 16), (false : Bool), (5 : BitVec 16), by decide +kernel⟩,
    ⟨({ chip := ((up base).setReg (AVSP.CFG 7) (0x00ffffff) |>.put (AVSP.CFG_EN 7) 1 : Chip) } : State), (7 : Fin 8), (4 : Fin 16), by decide +kernel⟩,
    ⟨({ chip := ((up base).put (AVSP.CFG_EN 0) 1 : Chip) } : State), (0 : Fin 8), by decide +kernel⟩,
    ⟨({ chip := ((up base).put (AVSP.CFG_EN 0) 0 : Chip) } : State), (0 : Fin 8), (0 : Fin 16), (9 : BitVec 16), by decide +kernel⟩⟩

theorem witness_AvsReadsAnswerTheirLoop :
    (∃ (s : State) (k : Fin 8) (sel : Fin 16) (n : Nat), s.chip.coreRuns = true ∧ s.chip.get (AVSP.CFG_EN k.val) = 1 ∧ sel.val ≠ 0xf ∧ s.chip.avsLoop k.val sel.val = some n) ∧
    (∃ (s : State) (k : Fin 8) (sel : Fin 16) (n : Nat), s.chip.coreRuns = true ∧ s.chip.get (AVSP.CFG_EN k.val) = 1 ∧ sel.val ≠ 0xf ∧ s.chip.avsLoop k.val sel.val = some n) ∧
    (∃ (s : State) (k : Fin 8) (sel : Fin 16) (n : Nat), s.chip.coreRuns = true ∧ s.chip.get (AVSP.CFG_EN k.val) = 1 ∧ sel.val ≠ 0xf ∧ s.chip.avsLoop k.val sel.val = some n ∧ s.chip.loopSum n ≤ 10000) ∧
    (∃ (s : State) (k : Fin 8) (sel : Fin 16) (n : Nat) (m : Int), s.chip.coreRuns = true ∧ s.chip.get (AVSP.CFG_EN k.val) = 1 ∧ sel.val ≠ 0xf ∧ s.chip.avsLoop k.val sel.val = some n ∧ (∃ p ∈ (s.chip.loopPh.get n).act, s.chip.getS (STB.STG_TEMP (p / 32 + 1) (p % 32)) = m) ∧ (∀ p ∈ (s.chip.loopPh.get n).act, s.chip.getS (STB.STG_TEMP (p / 32 + 1) (p % 32)) ≤ m)) ∧
    (∃ (s : State) (k : Fin 8) (sel : Fin 16) (n : Nat), s.chip.coreRuns = true ∧ s.chip.get (AVSP.CFG_EN k.val) = 1 ∧ sel.val ≠ 0xf ∧ s.chip.avsLoop k.val sel.val = some n) ∧
    (∃ (s : State) (k : Fin 8) (sel : Fin 16) (n : Nat), s.chip.coreRuns = true ∧ s.chip.get (AVSP.CFG_EN k.val) = 1 ∧ sel.val ≠ 0xf ∧ s.chip.avsLoop k.val sel.val = some n) ∧
    (∃ (s : State) (k : Fin 8) (sel : Fin 16) (n : Nat), s.chip.coreRuns = true ∧ s.chip.get (AVSP.CFG_EN k.val) = 1 ∧ sel.val ≠ 0xf ∧ s.chip.avsLoop k.val sel.val = some n) ∧
    (∃ (s : State) (k : Fin 8) (sel : Fin 16), s.chip.coreRuns = true ∧ s.chip.get (AVSP.CFG_EN k.val) = 1 ∧ sel.val ≠ 0xf ∧ s.chip.avsLoop k.val sel.val = none) ∧
    (∃ (s : State) (k : Fin 8), s.chip.coreRuns = true ∧ s.chip.get (AVSP.CFG_EN k.val) = 1) ∧
    (∃ (s : State) (k : Fin 8), s.chip.coreRuns = true ∧ s.chip.get (AVSP.CFG_EN k.val) = 1) ∧
    (∃ (s : State) (k : Fin 8), s.chip.coreRuns = true ∧ s.chip.get (AVSP.CFG_EN k.val) = 1) ∧
    (∃ (s : State) (k : Fin 8), s.chip.coreRuns = true ∧ s.chip.get (AVSP.CFG_EN k.val) = 1) ∧
    (∃ (s : State) (k : Fin 8), s.chip.coreRuns = true ∧ s.chip.get (AVSP.CFG_EN k.val) = 1) ∧
    (∃ (s : State) (k : Fin 8), s.chip.coreRuns = true ∧ s.chip.get (AVSP.CFG_EN k.val) = 1) ∧
    (∃ (s : State) (k : Fin 8), s.chip.coreRuns = true ∧ s.chip.get (AVSP.CFG_EN k.val) = 1) :=
  ⟨⟨({ chip := ((up base).setReg (AVSP.CFG 7) (0x00ffffff) |>.put (AVSP.CFG_EN 7) 1 |>.put (LOOP.TARGET_VTGT 31) 4003 : Chip) } : State), (7 : Fin 8), (3 : Fin 16), (31 : Nat), by decide +kernel⟩,
    ⟨({ chip := ((up base).setReg (AVSP.CFG 7) (0x00ffffff) |>.put (AVSP.CFG_EN 7) 1 |>.put (AVSL.SLEW_SLEWCMD 31) 4999 : Chip) } : State), (7 : Fin 8), (3 : Fin 16), (31 : Nat), by decide +kernel⟩,
    ⟨({ chip := ({ (up base).setReg (AVSP.CFG 7) (0x00ffffff) |>.put (AVSP.CFG_EN 7) 1 with sums := Tbl.empty.set 255 83 } : Chip) } : State), (7 : Fin 8), (3 : Fin 16), (31 : Nat), by decide +kernel⟩,
    ⟨({ chip := ({ (up base).setReg (AVSP.CFG 7) (0x00ffffff) |>.put (AVSP.CFG_EN 7) 1 |>.put (STB.STG_TEMP 7 31) 0xfff |>.put (STB.STG_TEMP 7 30) 0xff0 with loopPh := base.loopPh.set 31 { act := [222, 223] } } : Chip) } : State), (7 : Fin 8), (3 : Fin 16), (31 : Nat), (-1 : Int), by decide +kernel⟩,
    ⟨({ chip := ((up base).setReg (AVSP.CFG 7) (0x00ffffff) |>.put (AVSP.CFG_EN 7) 1 : Chip) } : State), (7 : Fin 8), (3 : Fin 16), (31 : Nat), by decide +kernel⟩,
    ⟨({ chip := ((up base).setReg (AVSP.CFG 7) (0x00ffffff) |>.put (AVSP.CFG_EN 7) 1 : Chip) } : State), (7 : Fin 8), (3 : Fin 16), (31 : Nat), by decide +kernel⟩,
    ⟨({ chip := ((up base).put (AVSP.CFG_EN 7) 1 |>.setReg (AVSP.CFG 7) (0x00ffffff) |>.put (AVSP.CFG_EN 7) 1 : Chip) } : State), (7 : Fin 8), (3 : Fin 16), (31 : Nat), by decide +kernel⟩,
    ⟨({ chip := ((up base).put (AVSP.CFG_EN 7) 1 |>.setReg (AVSP.CFG 7) (0x00ffffff) |>.put (AVSP.CFG_EN 7) 1 : Chip) } : State), (7 : Fin 8), (9 : Fin 16), by decide +kernel⟩,
    ⟨({ chip := ((up base).put (AVSP.CFG_EN 7) 1 |>.setReg (AVSP.CFG 7) (0x00ffffff) |>.put (AVSP.CFG_EN 7) 1 : Chip) } : State), (7 : Fin 8), by decide +kernel⟩,
    ⟨({ chip := ((up base).put (AVSP.CFG_EN 7) 1 |>.setReg (AVSP.CFG 7) (0x00ffffff) |>.put (AVSP.CFG_EN 7) 1 : Chip) } : State), (7 : Fin 8), by decide +kernel⟩,
    ⟨({ chip := ((up base).put (AVSP.CFG_EN 7) 1 |>.setReg (AVSP.CFG 7) (0x00ffffff) |>.put (AVSP.CFG_EN 7) 1 : Chip) } : State), (7 : Fin 8), by decide +kernel⟩,
    ⟨({ chip := ((up base).put (AVSP.CFG_EN 7) 1 |>.setReg (AVSP.CFG 7) (0x00ffffff) |>.put (AVSP.CFG_EN 7) 1 : Chip) } : State), (7 : Fin 8), by decide +kernel⟩,
    ⟨({ chip := ((up base).put (AVSP.CFG_EN 7) 1 |>.setReg (AVSP.CFG 7) (0x00ffffff) |>.put (AVSP.CFG_EN 7) 1 : Chip) } : State), (7 : Fin 8), by decide +kernel⟩,
    ⟨({ chip := ((up base).put (AVSP.CFG_EN 7) 1 |>.setReg (AVSP.CFG 7) (0x00ffffff) |>.put (AVSP.CFG_EN 7) 1 : Chip) } : State), (7 : Fin 8), by decide +kernel⟩,
    ⟨({ chip := ((up base).put (AVSP.CFG_EN 7) 1 |>.setReg (AVSP.CFG 7) (0x00ffffff) |>.put (AVSP.CFG_EN 7) 1 : Chip) } : State), (7 : Fin 8), by decide +kernel⟩⟩

theorem witness_AShortedFetIsCaught :
    (∃ (s : State) (vins : Nat) (hsout : Nat) (shunt : Int), s.chip.domOn .hka = true ∧ s.chip.power.isolated = false ∧ s.chip.gridOrTb3 gridInput 1 = true ∧ s.chip.get HSW.CTRL_EN = 1 ∧ s.chip.get HSW.STAT_STATE ≠ 2 ∧ s.chip.get HSW.STAT_STATE ≠ 3) ∧
    (∃ (s : State), s.chip.domOn .hka = true ∧ s.chip.get HSW.CTRL_EN = 1 ∧ s.chip.get HSW.STAT_STATE ≠ 2 ∧ s.chip.get HSW.STAT_STATE ≠ 3 ∧ s.chip.get HSW.STAT_STATE ≠ 6 ∧ 100 ≤ s.chip.hsw.shN) ∧
    (∃ (s : State), (s.chip.hsw.shN < 100 ∨ s.chip.get HSW.CTRL_EN = 0 ∨ s.chip.get HSW.STAT_STATE = 2 ∨ s.chip.get HSW.STAT_STATE = 3)) :=
  ⟨⟨({ chip := (((up base).put HSW.CTRL_EN 1).put HSW.STAT_STATE 4 |>.put HSW.SCALE_RSH 100 : Chip) } : State), (1000 : Nat), (1000 : Nat), (5000 : Int), by decide +kernel⟩,
    ⟨({ chip := ({ (up base).put HSW.CTRL_EN 1 |>.put HSW.STAT_STATE 4 with hsw := { base.hsw with shN := 100 } } : Chip) } : State), by decide +kernel⟩,
    ⟨({ chip := ({ (up base).put HSW.CTRL_EN 1 |>.put HSW.STAT_STATE 4 with hsw := { base.hsw with shN := 99 } } : Chip) } : State), by decide +kernel⟩⟩

theorem witness_InputSamplesAreCounted :
    (∃ (s : State) (vins : Nat) (hsout : Nat) (shunt : Int), s.chip.domOn .hka = true ∧ s.chip.power.isolated = false ∧ s.chip.gridOrTb3 gridInput 1 = true ∧ s.chip.get HSW.SCALE_RSH ≠ 0) :=
  ⟨({ chip := ({ ((up base).put HSW.CTRL_EN 1).put HSW.STAT_STATE 3 |>.put HSW.STAT_GATE 1 |>.put HSW.SCALE_RSH 3 |>.put HSW.SCALE_DIVV 777 with hsw := { base.hsw with hist := [], soa := 5 } } : Chip) } : State), (1234567 : Nat), (1000 : Nat), (-5000 : Int), by decide +kernel⟩

theorem witness_TheInputQualifiesAndComesOn :
    (∃ (s : State), s.chip.get HSW.STAT_STATE = 1 ∧ s.chip.get HSW.CTRL_EN = 1 ∧ s.chip.hsw.qualAt + 1000 * orOne (s.chip.get HSW.QUAL_QUALT) ≤ s.chip.now) ∧
    (∃ (s : State), (s.chip.get HSW.STAT_STATE = 1 → s.chip.now < s.chip.hsw.qualAt + 1000 * orOne (s.chip.get HSW.QUAL_QUALT)) ∧ (s.chip.get HSW.STAT_STATE = 3 → s.chip.fw.diesStep = true ∧ s.chip.fw.autoDone = true)) ∧
    (∃ (s : State), s.chip.get HSW.STAT_STATE = 1 ∧ s.chip.get HSW.CTRL_EN = 0 ∧ s.chip.hsw.qualAt + 1000 * orOne (s.chip.get HSW.QUAL_QUALT) ≤ s.chip.now ∧ s.chip.hsw.requal = false ∧ s.chip.fw.diesStep = true ∧ s.chip.fw.autoDone = true ∧ s.chip.bud.queue = []) ∧
    (∃ (s : State) (a : Nat) (w : BudReq), s.chip.get HSW.STAT_STATE = 2 ∧ s.chip.hsw.goodAt = some a ∧ a + 1000 ≤ s.chip.now ∧ s.chip.hsw.requal = false ∧ s.chip.fw.diesStep = true ∧ s.chip.fw.autoDone = true ∧ s.chip.bud.queue = [w] ∧ w.untested = true ∧ s.chip.tooBig w.ask.peak = false) ∧
    (∃ (s : State), s.chip.get HSW.STAT_STATE = 4 ∧ s.chip.get SEQ.GSTAT_ALLOFF = 1 ∧ (∀ a ∈ s.chip.hsw.tripAt, a + 1000 * s.chip.get HSW.RETRY_TRETRY ≤ s.chip.now)) ∧
    (∃ (s : State), (s.chip.get HSW.STAT_STATE ≠ 4 ∨ s.chip.get SEQ.GSTAT_ALLOFF = 0 ∨ ∃ a ∈ s.chip.hsw.tripAt, s.chip.now < a + 1000 * s.chip.get HSW.RETRY_TRETRY)) ∧
    (∃ (s : State), s.chip.get HSW.STAT_STATE = 3 ∧ s.chip.hsw.onAt + 1000000 ≤ s.chip.now) ∧
    (∃ (s : State), (s.chip.get HSW.STAT_STATE ≠ 3 ∨ s.chip.now < s.chip.hsw.onAt + 1000000)) :=
  ⟨⟨({ chip := ({ (up base).put HSW.CTRL_EN 1 |>.put HSW.STAT_STATE 1 with hsw := { base.hsw with qualAt := 0 }, time := { base.time with now := 200000000 } } : Chip) } : State), by decide +kernel⟩,
    ⟨({ chip := ({ (up base).put HSW.CTRL_EN 1 |>.put HSW.STAT_STATE 1 with hsw := { base.hsw with qualAt := 5 }, time := { base.time with now := 5 } } : Chip) } : State), by decide +kernel⟩,
    ⟨({ chip := ({ (up base).put HSW.CTRL_EN 0 |>.put HSW.STAT_STATE 1 with hsw := { base.hsw with qualAt := 0, requal := false }, time := { base.time with now := 200000000 }, fw := { base.fw with diesStep := true, autoDone := true }, bud := { base.bud with queue := [] } } : Chip) } : State), by decide +kernel⟩,
    ⟨({ chip := ({ (up base).put HSW.STAT_STATE 2 with hsw := { base.hsw with goodAt := some 0, requal := false }, time := { base.time with now := 1000 }, fw := { base.fw with diesStep := true, autoDone := true }, bud := { base.bud with queue := [⟨⟨.nvm, 5, 6, 7⟩, 1, 0, true⟩] } } |>.put BUD.CFG_PBUD 100 |>.put BUD.CFG_IBUD 2400 : Chip) } : State), (0 : Nat), (⟨⟨.nvm, 5, 6, 7⟩, 1, 0, true⟩ : BudReq), by decide +kernel⟩,
    ⟨({ chip := ({ (up base).put HSW.STAT_STATE 4 |>.put SEQ.GSTAT_ALLOFF 1 |>.put HSW.RETRY_TRETRY 3 with hsw := { base.hsw with tripAt := some 9 }, time := { base.time with now := 3009 } } : Chip) } : State), by decide +kernel⟩,
    ⟨({ chip := ({ (up base).put HSW.STAT_STATE 4 |>.put SEQ.GSTAT_ALLOFF 0 with hsw := { base.hsw with tripAt := none } } : Chip) } : State), by decide +kernel⟩,
    ⟨({ chip := ({ (up base).put HSW.STAT_STATE 3 |>.put HSW.STAT_TRIES 5 with hsw := { base.hsw with onAt := 9 }, time := { base.time with now := 1000009 } } : Chip) } : State), by decide +kernel⟩,
    ⟨({ chip := ({ (up base).put HSW.STAT_STATE 3 |>.put HSW.STAT_TRIES 5 with hsw := { base.hsw with onAt := 9 }, time := { base.time with now := 1000008 } } : Chip) } : State), by decide +kernel⟩⟩

theorem witness_TripsAndLossesDropTheInput :
    (∃ (s : State) (amps16 : Nat), s.chip.mayTrip = true ∧ s.chip.get HSW.FAST_IFAST < amps16) ∧
    (∃ (s : State), s.chip.mayTrip = true ∧ orOne (s.chip.get HSW.CB_TCB) ≤ s.chip.hsw.cbN) ∧
    (∃ (s : State), s.chip.mayTrip = true ∧ ((orOne (s.chip.get HSW.SOA_SOAE) * 10 ^ 15 : Nat) : Int) ≤ s.chip.hsw.soa) ∧
    (∃ (s : State), s.chip.get HSW.CTRL_EN = 1 ∧ s.chip.get HSW.STAT_STATE = 2 ∧ s.chip.hsw.inAt + 1000 * s.chip.get HSW.INR_TINR ≤ s.chip.now) ∧
    (∃ (s : State), s.chip.get HSW.STAT_STATE = 3 ∧ (orOne (s.chip.get HSW.QUAL_UVT) ≤ s.chip.hsw.uvN ∨ orOne (s.chip.get HSW.QUAL_UVT) ≤ s.chip.hsw.ovN) ∧ s.chip.hsw.tripAt = none) :=
  ⟨⟨({ chip := ((up base).put HSW.CTRL_EN 1 |>.put HSW.STAT_STATE 2 |>.put HSW.STAT_GATE 1 |>.put HSW.FAST_IFAST 100 |>.put HSW.RETRY_RETRYN 5 |>.put HSW.STAT_TRIES 1 |>.put HSW.RETRY_TRETRY 1 : Chip) } : State), (101 : Nat), by decide +kernel⟩,
    ⟨({ chip := ({ (up base).put HSW.CTRL_EN 1 |>.put HSW.STAT_STATE 2 |>.put HSW.STAT_GATE 1 |>.put HSW.CB_TCB 3 |>.put HSW.RETRY_RETRYN 5 |>.put HSW.STAT_TRIES 3 |>.put HSW.RETRY_TRETRY 1 with hsw := { base.hsw with cbN := 3 } } : Chip) } : State), by decide +kernel⟩,
    ⟨({ chip := ({ (up base).put HSW.CTRL_EN 1 |>.put HSW.STAT_STATE 2 |>.put HSW.STAT_GATE 1 |>.put HSW.SOA_SOAE 0 |>.put HSW.RETRY_RETRYN 0 |>.put HSW.RETRY_TRETRY 1 with hsw := { base.hsw with soa := 1000000000000000 } } : Chip) } : State), by decide +kernel⟩,
    ⟨({ chip := ({ (up base).put HSW.CTRL_EN 1 |>.put HSW.STAT_STATE 2 |>.put HSW.STAT_GATE 1 |>.put HSW.INR_TINR 4 |>.put HSW.RETRY_RETRYN 7 |>.put HSW.STAT_TRIES 0 |>.put HSW.RETRY_TRETRY 1 with hsw := { base.hsw with inAt := 1 }, time := { base.time with now := 4001 } } : Chip) } : State), by decide +kernel⟩,
    ⟨({ chip := ({ (up base).put HSW.CTRL_EN 1 |>.put HSW.STAT_STATE 3 |>.put HSW.STAT_GATE 1 |>.put HSW.QUAL_UVT 4 |>.put (SEQR.STAT_STATE 0) 3 with hsw := { base.hsw with uvN := 0, ovN := 4, tripAt := none } } : Chip) } : State), by decide +kernel⟩⟩

theorem witness_LeaveIsAskedGrantedAndEnded :
    (∃ (s : State) (k : Nat) (a : Ask), s.chip.coreRuns = true ∧ s.chip.asks[k]? = some a ∧ a.who ∉ s.chip.drops ∧ (s.chip.inputOn && s.chip.tooBig a.peak) = false ∧ (a.who = .nvm ∨ (∃ r : RailId, a.who = .rail r.val) ∨ (∃ d : DieId, a.who = .die (d.val + 1)) ∨ ∃ n : LoopId, a.who = .tune n.val)) ∧
    (∃ (s : State) (k : Nat) (n : Nat) (pk : Nat) (dur : Nat) (prio : Nat), s.chip.coreRuns = true ∧ s.chip.asks[k]? = some ⟨.die n, pk, dur, prio⟩ ∧ .die n ∉ s.chip.drops ∧ s.chip.inputOn = true ∧ s.chip.tooBig pk = true ∧ s.chip.fw.dieSeq ≠ some n) ∧
    (∃ (s : State) (k : Nat) (n : Nat) (m : Nat) (pk : Nat) (dur : Nat) (prio : Nat), s.chip.coreRuns = true ∧ s.chip.asks[k]? = some ⟨.die n, pk, dur, prio⟩ ∧ .die n ∉ s.chip.drops ∧ s.chip.inputOn = true ∧ s.chip.tooBig pk = true ∧ s.chip.fw.dieSeq = some n ∧ n < m ∧ m ≤ 7 ∧ bitAt (s.chip.get TOP.DIECFG_PXUSE) (m - 1) = true ∧ s.chip.dieOn m = false ∧ (s.chip.dies.get m).asked = false ∧ (∀ j < m, n < j → bitAt (s.chip.get TOP.DIECFG_PXUSE) (j - 1) = false ∨ s.chip.dieOn j = true)) ∧
    (∃ (s : State) (tileOk : Bool) (w : BudReq), s.chip.coreRuns = true ∧ s.chip.grantable = some w ∧ w.ask.who = .nvm ∧ s.chip.store.leave = .asked ∧ (∀ l : Fin 8, (s.chip.hintHw.get l.val).ready = none)) ∧
    (∃ (s : State) (r : RailId) (w : BudReq), s.chip.coreRuns = true ∧ s.chip.grantable = some w ∧ w.ask.who = .rail r.val ∧ s.chip.railState r.val = 2 ∧ (s.chip.rails.get r.val).asked = true ∧ s.chip.flt.inj = none ∧ (∀ l : Fin 8, (s.chip.hintHw.get l.val).ready = none)) ∧
    (∃ (s : State) (d : DieId) (w : BudReq) (tileOk : Bool), s.chip.coreRuns = true ∧ s.chip.grantable = some w ∧ w.ask.who = .die (d.val + 1) ∧ s.chip.dieOn (d.val + 1) = false ∧ (s.chip.dies.get (d.val + 1)).asked = true ∧ (∀ l : Fin 8, (s.chip.hintHw.get l.val).ready = none)) ∧
    (∃ (s : State) (k : Nat) (a : Asker), s.chip.coreRuns = true ∧ s.chip.drops[k]? = some a) ∧
    (∃ (s : State) (k : Nat) (w : BudReq), s.chip.coreRuns = true ∧ s.chip.bud.queue[k]? = some w ∧ w.ask.who = .nvm ∧ s.chip.inputOn = true ∧ w.onAt + 1000 * orOne (s.chip.get BUD.WAIT_MAXWAIT) ≤ s.chip.onTime) ∧
    (∃ (s : State) (k : Nat) (a : Asker), s.chip.coreRuns = true ∧ s.chip.dones[k]? = some a) ∧
    (∃ (s : State) (k : Nat) (h : Leave), s.chip.coreRuns = true ∧ s.chip.bud.held[k]? = some h ∧ h.until' ≤ s.chip.now ∧ h.who ∉ s.chip.dones) ∧
    (∃ (s : State) (k : Nat) (h : Leave), s.chip.coreRuns = true ∧ s.chip.bud.held[k]? = some h ∧ h.until' ≤ s.chip.now ∧ h.who ∈ s.chip.dones) :=
  ⟨⟨({ chip := ({ (up base).put HSW.STAT_STATE 3 |>.put BUD.CFG_PBUD 100 |>.put BUD.CFG_IBUD 2400 with asks := [⟨.tune 3, 1, 1, 1⟩, ⟨.nvm, 100, 6, 7⟩], drops := [], hsw := { base.hsw with hist := [] } } : Chip) } : State), (1 : Nat), (⟨.nvm, 100, 6, 7⟩ : Ask), by decide +kernel⟩,
    ⟨({ chip := ({ (up base).put HSW.STAT_STATE 3 |>.put BUD.CFG_PBUD 99 with asks := [⟨.die 7, 100, 6, 7⟩], drops := [], fw := { base.fw with dieSeq := none }, hsw := { base.hsw with hist := [] } } : Chip) } : State), (0 : Nat), (7 : Nat), (100 : Nat), (6 : Nat), (7 : Nat), by decide +kernel⟩,
    ⟨({ chip := ({ ((up base).put HSW.STAT_STATE 3 |>.put BUD.CFG_PBUD 99 |>.put TOP.DIECFG_PXUSE 127 |>.put PWR.DOMSTAT_PX 63) with asks := [⟨.die 6, 100, 6, 7⟩], drops := [], fw := { base.fw with dieSeq := some 6 }, dies := base.dies.upd 7 (fun h => { h with asked := false }), hsw := { base.hsw with hist := [] } } : Chip) } : State), (0 : Nat), (6 : Nat), (7 : Nat), (100 : Nat), (6 : Nat), (7 : Nat), by decide +kernel⟩,
    ⟨({ chip := ({ (up base).put HSW.STAT_STATE 3 |>.put BUD.CFG_PBUD 100 with bud := { base.bud with queue := [⟨⟨.nvm, 100, 6, 7⟩, 1, 0, false⟩], held := [], last := none, onSince := some 0, onAcc := 0 }, hsw := { base.hsw with hist := [] }, store := { base.store with leave := .asked }, time := { base.time with now := 50 } } |>.put FLT.STAT_SAFE 0 : Chip) } : State), (true : Bool), (⟨⟨.nvm, 100, 6, 7⟩, 1, 0, false⟩ : BudReq), by decide +kernel⟩,
    ⟨({ chip := ({ (up base).put HSW.STAT_STATE 3 |>.put BUD.CFG_PBUD 100 |>.put (SEQR.STAT_STATE 31) 2 with bud := { base.bud with queue := [⟨⟨.rail 31, 100, 6, 7⟩, 1, 0, false⟩], held := [], last := none, onSince := some 0, onAcc := 0 }, hsw := { base.hsw with hist := [] }, flt := { base.flt with inj := none }, rails := base.rails.upd 31 (fun h => { h with asked := true }), time := { base.time with now := 50 } } |>.put FLT.STAT_SAFE 0 : Chip) } : State), (31 : RailId), (⟨⟨.rail 31, 100, 6, 7⟩, 1, 0, false⟩ : BudReq), by decide +kernel⟩,
    ⟨({ chip := ({ (up base).put HSW.STAT_STATE 3 |>.put BUD.CFG_PBUD 100 |>.put PWR.DOMSTAT_PX 63 with bud := { base.bud with queue := [⟨⟨.die 7, 100, 6, 7⟩, 1, 0, false⟩], held := [], last := none, onSince := some 0, onAcc := 0 }, hsw := { base.hsw with hist := [] }, dies := base.dies.upd 7 (fun h => { h with asked := true }), time := { base.time with now := 50 } } |>.put FLT.STAT_SAFE 0 : Chip) } : State), (6 : DieId), (⟨⟨.die 7, 100, 6, 7⟩, 1, 0, false⟩ : BudReq), (false : Bool), by decide +kernel⟩,
    ⟨({ chip := ({ (up base) with drops := [.tune 3, .nvm], bud := { base.bud with queue := [⟨⟨.nvm, 100, 6, 7⟩, 1, 0, false⟩, ⟨⟨.tune 3, 100, 6, 7⟩, 2, 0, false⟩] } } : Chip) } : State), (1 : Nat), (.nvm : Asker), by decide +kernel⟩,
    ⟨({ chip := ({ (up base).put HSW.STAT_STATE 3 |>.put BUD.WAIT_MAXWAIT 2 with bud := { base.bud with queue := [⟨⟨.nvm, 100, 6, 7⟩, 1, 10, false⟩], onSince := some 0, onAcc := 0 }, time := { base.time with now := 2010 } } : Chip) } : State), (0 : Nat), (⟨⟨.nvm, 100, 6, 7⟩, 1, 10, false⟩ : BudReq), by decide +kernel⟩,
    ⟨({ chip := ({ (up base) with dones := [.tune 3, .nvm], bud := { base.bud with held := [⟨.tune 3, 5, 6⟩, ⟨.nvm, 100, 6⟩, ⟨.nvm, 100, 7⟩] } } : Chip) } : State), (1 : Nat), (.nvm : Asker), by decide +kernel⟩,
    ⟨({ chip := ({ (up base) with dones := [], bud := { base.bud with held := [⟨.tune 3, 5, 6⟩, ⟨.nvm, 100, 7⟩] }, time := { base.time with now := 7 } } : Chip) } : State), (1 : Nat), (⟨.nvm, 100, 7⟩ : Leave), by decide +kernel⟩,
    ⟨({ chip := ({ (up base) with dones := [.nvm], bud := { base.bud with held := [⟨.tune 3, 5, 6⟩, ⟨.nvm, 100, 7⟩] }, time := { base.time with now := 7 } } : Chip) } : State), (1 : Nat), (⟨.nvm, 100, 7⟩ : Leave), by decide +kernel⟩⟩

theorem witness_AStopFromSoftwareLatchesNothing :
    (∃ (s : State) (req : Requester) (d : DomainId), s.chip.reaches req (SEQD.CTRL d.val) = true ∧ (∀ k : DomainId, s.chip.get (SEQD.STAT_PENDST k.val) = 0)) ∧
    (∃ (s : State) (r : RailId) (cold : ColdIn), s.chip.coreRuns = true ∧ s.chip.railState r.val = 5 ∧ s.chip.railIsOff r.val = true ∧ (s.chip.rails.get r.val).latch = false ∧ (s.chip.rails.get r.val).cause = 0xb ∧ (∀ k : DomainId, s.chip.get (SEQD.STAT_PENDST k.val) = 0) ∧ s.chip.get HSW.STAT_STATE ≠ 4 ∧ s.chip.flt.stop3 = none ∧ s.chip.flt.stopS = none ∧ s.chip.flt.coldHeld = false) :=
  ⟨⟨({ chip := ((up base).put (SEQR.STAT_STATE 63) 4 |>.put (SEQR.CFG_DOMAIN 63) 3 |>.put (SEQD.STAT_PENDST 0) 0 |>.put (SEQD.STAT_PENDST 1) 0 |>.put (SEQD.STAT_PENDST 2) 0 |>.put (SEQD.STAT_PENDST 3) 0 : Chip) } : State), (.pcie : Requester), (3 : DomainId), by decide +kernel⟩,
    ⟨({ chip := ({ (up base).put (SEQR.STAT_STATE 63) 5 |>.put HSW.STAT_STATE 3 |>.put (WMON.STAT_STATE 63) 2 |>.put (SEQR.CFG_PGSRC 63) 1 |>.put (SEQD.STAT_PENDST 0) 0 |>.put (SEQD.STAT_PENDST 1) 0 |>.put (SEQD.STAT_PENDST 2) 0 |>.put (SEQD.STAT_PENDST 3) 0 with rails := base.rails.upd 63 fun h => { h with latch := false, cause := 0xb }, flt := { base.flt with stop3 := none, stopS := none, coldHeld := false } } : Chip) } : State), (63 : RailId), (⟨true, true, true, 256⟩ : ColdIn), by decide +kernel⟩⟩

theorem witness_RailsStartAndQualify :
    (∃ (s : State) (req : Requester) (d : DomainId), s.chip.reaches req (SEQD.CTRL d.val) = true ∧ s.chip.mayStart = true ∧ s.chip.get (SEQD.STAT_STATE d.val) ≠ 3 ∧ s.chip.get (SEQD.STAT_STATE d.val) ≠ 4 ∧ (∀ k : DomainId, s.chip.get (SEQD.STAT_PENDST k.val) = 0)) ∧
    (∃ (s : State) (req : Requester) (d : DomainId), s.chip.reaches req (SEQD.CTRL d.val) = true ∧ (s.chip.mayStart = false ∨ s.chip.get (SEQD.STAT_STATE d.val) = 4)) ∧
    (∃ (s : State) (req : Requester) (d : DomainId), s.chip.reaches req (SEQD.CTRL d.val) = true ∧ s.chip.mayStart = true ∧ s.chip.get (SEQD.STAT_STATE d.val) = 3) ∧
    (∃ (s : State) (r : RailId) (a : Nat), s.chip.coreRuns = true ∧ s.chip.railState r.val = 1 ∧ (s.chip.rails.get r.val).metAt = some a ∧ a + 10 * s.chip.get (SEQR.TIMING_DELAY r.val) ≤ s.chip.now ∧ (s.chip.rails.get r.val).asked = false ∧ (32 ≤ r.val ∨ (s.chip.loopDies r.val).all s.chip.linkUp = true) ∧ (∀ k : DomainId, s.chip.get (SEQD.STAT_PENDST k.val) = 0)) ∧
    (∃ (s : State) (r : RailId), (s.chip.railState r.val ≠ 1 ∨ (s.chip.rails.get r.val).metAt = none ∨ s.chip.now < ((s.chip.rails.get r.val).metAt.getD 0) + 10 * s.chip.get (SEQR.TIMING_DELAY r.val))) ∧
    (∃ (s : State) (r : RailId) (a : Nat), s.chip.coreRuns = true ∧ s.chip.railState r.val = 3 ∧ (s.chip.rails.get r.val).failed = false ∧ s.chip.rawGood r.val = true ∧ (s.chip.rails.get r.val).goodAt = some a ∧ a + clampN 1 10000 (s.chip.rails.get r.val).dwell ≤ s.chip.now ∧ s.chip.get (SEQR.STAT_CHAT r.val) ≤ (s.chip.rails.get r.val).chatlim ∧ (∀ k : DomainId, s.chip.get (SEQD.STAT_PENDST k.val) = 0)) ∧
    (∃ (s : State) (r : RailId), s.chip.coreRuns = true ∧ s.chip.railState r.val = 3 ∧ (s.chip.rails.get r.val).failed = false ∧ s.chip.rawGood r.val = false ∧ s.chip.get (SEQR.STAT_RAWGOOD r.val) = 1 ∧ s.chip.dwellOver r.val = true ∧ counted s.chip (SEQR.STAT_CHAT r.val) ≤ (s.chip.rails.get r.val).chatlim) ∧
    (∃ (s : State) (r : RailId), s.chip.coreRuns = true ∧ s.chip.railState r.val = 3 ∧ (s.chip.rails.get r.val).ordered = false ∧ (s.chip.rails.get r.val).failed = false ∧ s.chip.rawGood r.val = false ∧ s.chip.get (SEQR.STAT_RAWGOOD r.val) = 1 ∧ s.chip.dwellOver r.val = true ∧ (s.chip.rails.get r.val).chatlim < counted s.chip (SEQR.STAT_CHAT r.val) ∧ s.chip.get SEQ.GSTAT_INSHUT = 0 ∧ (∀ k : DomainId, s.chip.get (SEQD.STAT_PENDST k.val) = 0)) ∧
    (∃ (s : State) (r : RailId) (high : Bool), s.chip.coreRuns = true ∧ 32 ≤ r.val ∧ s.chip.railState r.val = 3 ∧ s.chip.get (SEQR.CFG_PGSRC r.val) = 2 ∧ high ≠ s.chip.bit (SEQR.CFG_XPGPOL r.val) ∧ (s.chip.rails.get r.val).goodAt = none) ∧
    (∃ (s : State) (r : RailId) (high : Bool), s.chip.coreRuns = true ∧ 32 ≤ r.val ∧ s.chip.railState r.val = 3 ∧ s.chip.get (SEQR.CFG_PGSRC r.val) = 2 ∧ high = s.chip.bit (SEQR.CFG_XPGPOL r.val) ∧ s.chip.get (SEQR.STAT_RAWGOOD r.val) = 1) :=
  ⟨⟨({ chip := ((up base).put HSW.STAT_STATE 3 |>.put FLT.STAT_SAFE 0 |>.put (SEQR.STAT_STATE 63) 0 |>.put (SEQR.CFG_DOMAIN 63) 3 |>.put (SEQD.STAT_STATE 3) 0 |>.put (SEQD.STAT_PENDST 0) 0 |>.put (SEQD.STAT_PENDST 1) 0 |>.put (SEQD.STAT_PENDST 2) 0 |>.put (SEQD.STAT_PENDST 3) 0 : Chip) } : State), (.pp 3 : Requester), (3 : DomainId), by decide +kernel⟩,
    ⟨({ chip := ((up base).put HSW.STAT_STATE 4 : Chip) } : State), (.ring : Requester), (0 : DomainId), by decide +kernel⟩,
    ⟨({ chip := ((up base).put HSW.STAT_STATE 3 |>.put FLT.STAT_SAFE 0 |>.put (SEQD.STAT_STATE 1) 3 : Chip) } : State), (.pp 0 : Requester), (1 : DomainId), by decide +kernel⟩,
    ⟨({ chip := ({ (up base).put (SEQR.STAT_STATE 63) 1 |>.put (SEQR.TIMING_DELAY 63) 3 |>.put (SEQD.STAT_PENDST 0) 0 |>.put (SEQD.STAT_PENDST 1) 0 |>.put (SEQD.STAT_PENDST 2) 0 |>.put (SEQD.STAT_PENDST 3) 0 with rails := base.rails.upd 63 (fun h => { h with metAt := some 70, asked := false }), time := { base.time with now := 100 } } : Chip) } : State), (63 : RailId), (70 : Nat), by decide +kernel⟩,
    ⟨({ chip := ({ (up base).put (SEQR.STAT_STATE 63) 1 |>.put (SEQR.TIMING_DELAY 63) 3 with rails := base.rails.upd 63 (fun h => { h with metAt := some 71, asked := false }), time := { base.time with now := 100 } } : Chip) } : State), (63 : RailId), by decide +kernel⟩,
    ⟨({ chip := ({ (up base).put (SEQR.STAT_STATE 63) 3 |>.put (SEQR.CFG_CHATLIM 63) 2 |>.put (SEQR.STAT_CHAT 63) 2 |>.put (SEQR.TIMING_DWELL 63) 0 |>.put (SEQR.CFG_PGSRC 63) 2 |>.put (SEQR.CFG_XPGPOL 63) 0 |>.put (SEQD.STAT_PENDST 0) 0 |>.put (SEQD.STAT_PENDST 1) 0 |>.put (SEQD.STAT_PENDST 2) 0 |>.put (SEQD.STAT_PENDST 3) 0 with rails := base.rails.upd 63 (fun h => { h with goodAt := some 99, dwell := 0, chatlim := 2, failed := false, ordered := true, xpg := true, leave := true }), time := { base.time with now := 100 } } : Chip) } : State), (63 : RailId), (99 : Nat), by decide +kernel⟩,
    ⟨({ chip := ({ (up base).put (SEQR.STAT_STATE 63) 3 |>.put (SEQR.CFG_PGSRC 63) 2 |>.put (SEQR.CFG_XPGPOL 63) 1 |>.put (SEQR.STAT_RAWGOOD 63) 1 |>.put (SEQR.CFG_CHATLIM 63) 15 |>.put (SEQR.STAT_CHAT 63) 14 with rails := base.rails.upd 63 (fun h => { h with goodAt := some 99, dwell := 10000, chatlim := 15, failed := false, ordered := false, xpg := true, leave := true }), time := { base.time with now := 100000 } } : Chip) } : State), (63 : RailId), by decide +kernel⟩,
    ⟨({ chip := ({ (up base).put (SEQR.STAT_STATE 63) 3 |>.put (SEQR.CFG_PGSRC 63) 2 |>.put (SEQR.CFG_XPGPOL 63) 1 |>.put (SEQR.STAT_RAWGOOD 63) 1 |>.put (SEQR.CFG_CHATLIM 63) 2 |>.put (SEQR.STAT_CHAT 63) 2 |>.put SEQ.GSTAT_INSHUT 0 |>.put SEQ.FFCTL_VALID 1 |>.put (SEQD.STAT_PENDST 0) 0 |>.put (SEQD.STAT_PENDST 1) 0 |>.put (SEQD.STAT_PENDST 2) 0 |>.put (SEQD.STAT_PENDST 3) 0 with rails := base.rails.upd 63 (fun h => { h with goodAt := some 99, dwell := 10000, chatlim := 2, failed := false, ordered := false, xpg := true, leave := true }), time := { base.time with now := 100000 } } : Chip) } : State), (63 : RailId), by decide +kernel⟩,
    ⟨({ chip := ({ (up base).put (SEQR.STAT_STATE 32) 3 |>.put (SEQR.CFG_PGSRC 32) 2 |>.put (SEQR.CFG_XPGPOL 32) 1 with rails := base.rails.upd 32 (fun h => { h with goodAt := none, ordered := false }) } : Chip) } : State), (32 : RailId), (false : Bool), by decide +kernel⟩,
    ⟨({ chip := ({ (up base).put (SEQR.STAT_STATE 32) 3 |>.put (SEQR.CFG_PGSRC 32) 2 |>.put (SEQR.CFG_XPGPOL 32) 1 |>.put (SEQR.STAT_RAWGOOD 32) 1 with rails := base.rails.upd 32 (fun h => { h with goodAt := some 5, ordered := false }) } : Chip) } : State), (32 : RailId), (true : Bool), by decide +kernel⟩⟩

theorem witness_RailsFailAndLatch :
    (∃ (s : State) (r : RailId), s.chip.coreRuns = true ∧ s.chip.railState r.val = 2 ∧ (s.chip.rails.get r.val).ordered = false ∧ (s.chip.rails.get r.val).failed = false ∧ s.chip.get SEQ.GSTAT_INSHUT = 0 ∧ (s.chip.rails.get r.val).relAt + 100 * orOne (s.chip.rails.get r.val).qualto ≤ s.chip.now ∧ (∀ k : DomainId, s.chip.get (SEQD.STAT_PENDST k.val) = 0)) ∧
    (∃ (s : State) (r : RailId), s.chip.coreRuns = true ∧ s.chip.railState r.val = 3 ∧ (s.chip.rails.get r.val).ordered = true ∧ (s.chip.rails.get r.val).failed = false ∧ s.chip.get SEQ.GSTAT_INSHUT = 0 ∧ (s.chip.rails.get r.val).chatlim < s.chip.get (SEQR.STAT_CHAT r.val)) ∧
    (∃ (s : State) (r : RailId), s.chip.coreRuns = true ∧ s.chip.railState r.val = 3 ∧ (s.chip.rails.get r.val).ordered = false ∧ (s.chip.rails.get r.val).failed = false ∧ s.chip.get SEQ.GSTAT_INSHUT = 0 ∧ (s.chip.rails.get r.val).chatlim < s.chip.get (SEQR.STAT_CHAT r.val) ∧ (∀ k : DomainId, s.chip.get (SEQD.STAT_PENDST k.val) = 0)) ∧
    (∃ (s : State) (r : RailId) (high : Bool), s.chip.coreRuns = true ∧ 32 ≤ r.val ∧ s.chip.railState r.val = 4 ∧ (s.chip.rails.get r.val).ordered = false ∧ (s.chip.rails.get r.val).failed = false ∧ s.chip.get SEQ.GSTAT_INSHUT = 0 ∧ s.chip.get (SEQR.CFG_PGSRC r.val) = 2 ∧ high = s.chip.bit (SEQR.CFG_XPGPOL r.val) ∧ (∀ k : DomainId, s.chip.get (SEQD.STAT_PENDST k.val) = 0)) ∧
    (∃ (s : State) (req : Requester) (d : DomainId), s.chip.reaches req (SEQD.CTRL d.val) = true ∧ s.chip.seq.safeStop = false ∧ (∀ r ∈ s.chip.domRails d.val, (s.chip.rails.get r).ordered = false ∧ s.chip.railState r ≠ 5) ∧ (∀ k : DomainId, s.chip.get (SEQD.STAT_PENDST k.val) = 0)) ∧
    (∃ (s : State) (req : Requester) (d : DomainId), s.chip.reaches req (SEQD.CTRL d.val) = true ∧ (s.chip.seq.safeStop = true ∨ ∃ r ∈ s.chip.domRails d.val, (s.chip.rails.get r).ordered = true ∨ s.chip.railState r = 5)) ∧
    (∃ (s : State) (req : Requester), s.chip.reaches req SEQ.FFCTL = true) :=
  ⟨⟨({ chip := ({ (up base).put (SEQR.STAT_STATE 63) 2 |>.put (SEQR.LIMITS_QUALTO 63) 0 |>.put SEQ.GSTAT_INSHUT 0 |>.put SEQ.FFCTL_VALID 0 |>.put (SEQD.STAT_PENDST 0) 0 |>.put (SEQD.STAT_PENDST 1) 0 |>.put (SEQD.STAT_PENDST 2) 0 |>.put (SEQD.STAT_PENDST 3) 0 with rails := base.rails.upd 63 (fun h => { h with relAt := 0, ordered := false, failed := false, qualto := 1 }), time := { base.time with now := 100 } } : Chip) } : State), (63 : RailId), by decide +kernel⟩,
    ⟨({ chip := ({ (up base).put (SEQR.STAT_STATE 63) 3 |>.put (SEQR.CFG_CHATLIM 63) 0 |>.put (SEQR.STAT_CHAT 63) 1 |>.put SEQ.GSTAT_INSHUT 0 |>.put SEQ.FFCTL_VALID 1 |>.put (SEQD.STAT_PENDST 0) 0 |>.put (SEQD.STAT_PENDST 1) 0 |>.put (SEQD.STAT_PENDST 2) 0 |>.put (SEQD.STAT_PENDST 3) 0 with rails := base.rails.upd 63 (fun h => { h with ordered := true, failed := false, chatlim := 0 }) } : Chip) } : State), (63 : RailId), by decide +kernel⟩,
    ⟨({ chip := ({ (up base).put (SEQR.STAT_STATE 63) 3 |>.put (SEQR.CFG_CHATLIM 63) 0 |>.put (SEQR.STAT_CHAT 63) 1 |>.put SEQ.GSTAT_INSHUT 0 |>.put SEQ.FFCTL_VALID 1 |>.put (SEQD.STAT_PENDST 0) 0 |>.put (SEQD.STAT_PENDST 1) 0 |>.put (SEQD.STAT_PENDST 2) 0 |>.put (SEQD.STAT_PENDST 3) 0 with rails := base.rails.upd 63 (fun h => { h with ordered := false, failed := false, chatlim := 0 }) } : Chip) } : State), (63 : RailId), by decide +kernel⟩,
    ⟨({ chip := ({ (up base).put (SEQR.STAT_STATE 63) 4 |>.put (SEQR.CFG_PGSRC 63) 2 |>.put (SEQR.CFG_XPGPOL 63) 1 |>.put SEQ.GSTAT_INSHUT 0 |>.put SEQ.FFCTL_VALID 0 |>.put (SEQD.STAT_PENDST 0) 0 |>.put (SEQD.STAT_PENDST 1) 0 |>.put (SEQD.STAT_PENDST 2) 0 |>.put (SEQD.STAT_PENDST 3) 0 with rails := base.rails.upd 63 (fun h => { h with ordered := false, failed := false, chatlim := 0 }) } : Chip) } : State), (63 : RailId), (true : Bool), by decide +kernel⟩,
    ⟨({ chip := ({ (up base).put (SEQR.STAT_STATE 63) 6 |>.put (SEQR.CFG_DOMAIN 63) 3 |>.put (SEQD.STAT_PENDST 0) 0 |>.put (SEQD.STAT_PENDST 1) 0 |>.put (SEQD.STAT_PENDST 2) 0 |>.put (SEQD.STAT_PENDST 3) 0 with rails := Tbl.empty, seq := ⟨false⟩, doms := Tbl.empty.set 3 { ownLatch := true } } : Chip) } : State), (.pp 0 : Requester), (3 : DomainId), by decide +kernel⟩,
    ⟨({ chip := ({ (up base).put (SEQR.STAT_STATE 63) 5 |>.put (SEQR.CFG_DOMAIN 63) 3 with seq := ⟨false⟩ } : Chip) } : State), (.pp 0 : Requester), (3 : DomainId), by decide +kernel⟩,
    ⟨({ chip := ((up base).put SEQ.FFCTL_VALID 1 : Chip) } : State), (.pp 0 : Requester), by decide +kernel⟩⟩

theorem witness_StopStepsFollowTheOrder :
    (∃ (s : State) (r : RailId), s.chip.coreRuns = true ∧ s.chip.stopMayBegin r.val = true ∧ s.chip.flt.inj = none ∧ (∀ k : DomainId, s.chip.get (SEQD.STAT_PENDST k.val) = 0)) ∧
    (∃ (s : State) (r : RailId) (tileOk : Bool), s.chip.stopMayBegin r.val = false) ∧
    (∃ (s : State) (r : RailId) (cold : ColdIn), s.chip.coreRuns = true ∧ s.chip.railState r.val = 5 ∧ s.chip.railIsOff r.val = true ∧ (∀ k : DomainId, s.chip.get (SEQD.STAT_PENDST k.val) = 0) ∧ s.chip.get HSW.STAT_STATE ≠ 4 ∧ s.chip.flt.stop3 = none ∧ s.chip.flt.stopS = none ∧ s.chip.flt.coldHeld = false) ∧
    (∃ (s : State) (r : RailId) (cold : ColdIn), s.chip.coreRuns = true ∧ r.val < 32 ∧ s.chip.railState r.val = 5 ∧ s.chip.railIsOff r.val = false ∧ (s.chip.rails.get r.val).late = false ∧ (s.chip.rails.get r.val).stepAt + 100 * orOne (s.chip.rails.get r.val).stopto ≤ s.chip.now ∧ s.chip.get HSW.STAT_STATE ≠ 4 ∧ s.chip.flt.stop3 = none ∧ s.chip.flt.stopS = none ∧ s.chip.flt.coldHeld = false) ∧
    (∃ (s : State) (r : RailId) (cold : ColdIn), s.chip.coreRuns = true ∧ 32 ≤ r.val ∧ s.chip.railState r.val = 5 ∧ s.chip.railIsOff r.val = false ∧ (s.chip.rails.get r.val).late = false ∧ (s.chip.rails.get r.val).stepAt + 100 * orOne (s.chip.rails.get r.val).stopto ≤ s.chip.now ∧ (∀ k : DomainId, s.chip.get (SEQD.STAT_PENDST k.val) = 0) ∧ s.chip.get HSW.STAT_STATE ≠ 4 ∧ s.chip.flt.stop3 = none ∧ s.chip.flt.stopS = none ∧ s.chip.flt.coldHeld = false) :=
  ⟨⟨({ chip := ({ (up base).put (SEQR.STAT_STATE 31) 4 |>.put (SEQD.STAT_PENDST 0) 0 |>.put (SEQD.STAT_PENDST 1) 0 |>.put (SEQD.STAT_PENDST 2) 0 |>.put (SEQD.STAT_PENDST 3) 0 with flt := { base.flt with inj := none }, rails := Tbl.empty.set 31 { ordered := true, latch := true, cause := 9, leave := true } } : Chip) } : State), (31 : RailId), by decide +kernel⟩,
    ⟨({ chip := ({ (up base).put (SEQR.STAT_STATE 63) 4 with rails := Tbl.empty.set 63 { ordered := false } } : Chip) } : State), (63 : RailId), (true : Bool), by decide +kernel⟩,
    ⟨({ chip := ({ (up base).put (SEQR.STAT_STATE 31) 5 |>.put (LOOP.STATUS_STATE 31) 0 |>.put HSW.STAT_STATE 3 |>.put (SEQD.STAT_PENDST 0) 0 |>.put (SEQD.STAT_PENDST 1) 0 |>.put (SEQD.STAT_PENDST 2) 0 |>.put (SEQD.STAT_PENDST 3) 0 with rails := Tbl.empty.set 31 { latch := true, cause := 9 }, loopCmds := [], flt := { base.flt with stop3 := none, stopS := none, coldHeld := false } } : Chip) } : State), (31 : RailId), (⟨true, true, true, 256⟩ : ColdIn), by decide +kernel⟩,
    ⟨({ chip := ({ (up base).put (SEQR.STAT_STATE 31) 5 |>.put (LOOP.STATUS_STATE 31) 2 |>.put (SEQR.LIMITS_STOPTO 31) 2 |>.put HSW.STAT_STATE 3 with rails := Tbl.empty.set 31 { stepAt := 1 }, time := { base.time with now := 201 }, flt := { base.flt with stop3 := none, stopS := none, coldHeld := false } } : Chip) } : State), (31 : RailId), (⟨true, true, true, 256⟩ : ColdIn), by decide +kernel⟩,
    ⟨({ chip := ({ (up base).put (SEQR.STAT_STATE 63) 5 |>.put (SEQR.CFG_PGSRC 63) 1 |>.put (WMON.STAT_STATE 63) 0 |>.put (SEQR.LIMITS_STOPTO 63) 2 |>.put HSW.STAT_STATE 3 |>.put (SEQD.STAT_PENDST 0) 0 |>.put (SEQD.STAT_PENDST 1) 0 |>.put (SEQD.STAT_PENDST 2) 0 |>.put (SEQD.STAT_PENDST 3) 0 with rails := Tbl.empty.set 63 { stepAt := 1 }, time := { base.time with now := 201 }, flt := { base.flt with stop3 := none, stopS := none, coldHeld := false } } : Chip) } : State), (63 : RailId), (⟨true, true, true, 256⟩ : ColdIn), by decide +kernel⟩⟩

theorem witness_AFullFaultTableDropsNoF2 :
    (∃ (s : State) (k : Nat) (m : FaultMsg), s.chip.domOn .core = true ∧ s.chip.faultQ[k]? = some m ∧ s.chip.postMay k = true ∧ codeCls m.code = 1 ∧ s.chip.get FLT.STAT_GUARD = 0 ∧ (∀ i : Fin 64, s.chip.get (FLT.ENT0_STATE i.val) ≠ 0) ∧ (∀ i : Fin 64, s.chip.get (FLT.ENT0_CODE i.val) = m.code → s.chip.get (FLT.ENT0_INST i.val) ≠ m.inst) ∧ s.chip.store.logBuf.length < 256) ∧
    (∃ (s : State) (k : Nat) (m : FaultMsg) (j : Fin 64), s.chip.domOn .core = true ∧ s.chip.faultQ[k]? = some m ∧ s.chip.postMay k = true ∧ codeCls m.code = 2 ∧ m.inst < 256 ∧ s.chip.get FLT.STAT_GUARD = 0 ∧ (∀ i : Fin 64, s.chip.get (FLT.ENT0_STATE i.val) ≠ 0) ∧ (∀ i : Fin 64, s.chip.get (FLT.ENT0_CODE i.val) = m.code → s.chip.get (FLT.ENT0_INST i.val) ≠ m.inst) ∧ codeCls (s.chip.get (FLT.ENT0_CODE j.val)) = 1 ∧ (∀ i : Fin 64, i ≠ j → codeCls (s.chip.get (FLT.ENT0_CODE i.val)) = 1 → (s.chip.ents.get j.val).stamp < (s.chip.ents.get i.val).stamp) ∧ s.chip.store.logBuf.length < 256) ∧
    (∃ (s : State) (k : Nat) (m : FaultMsg), s.chip.domOn .core = true ∧ s.chip.faultQ[k]? = some m ∧ s.chip.postMay k = true ∧ codeCls m.code = 2 ∧ m.inst < 256 ∧ s.chip.get FLT.STAT_GUARD = 0 ∧ (∀ i : Fin 64, s.chip.get (FLT.ENT0_STATE i.val) ≠ 0 ∧ 2 ≤ codeCls (s.chip.get (FLT.ENT0_CODE i.val))) ∧ (∀ i : Fin 64, s.chip.get (FLT.ENT0_CODE i.val) = m.code → s.chip.get (FLT.ENT0_INST i.val) ≠ m.inst) ∧ s.chip.get PWR.DOMSTAT_HOLDUP = 0 ∧ s.chip.get FLT.STAT_SAFE = 0 ∧ s.chip.flt.stop3 = none) :=
  ⟨⟨({ chip := ({ (List.range 64).foldl (fun x i => (x.put (FLT.ENT0_STATE i) 1).put (FLT.ENT0_CODE i) 0x4001) ((up base).put FLT.STAT_GUARD 0) with faultQ := [⟨0x2001, 7, 9⟩], store := { base.store with logBuf := [] } } : Chip) } : State), (0 : Nat), (⟨0x2001, 7, 9⟩ : FaultMsg), by decide +kernel⟩,
    ⟨({ chip := ({ ((List.range 64).foldl (fun x i => (x.put (FLT.ENT0_STATE i) 1).put (FLT.ENT0_CODE i) 0x4001) ((up base).put FLT.STAT_GUARD 0)).put (FLT.ENT0_CODE 63) 0x2001 |>.put (FLT.ENT0_CODE 5) 0x2007 with faultQ := [⟨0x4009, 7, 9⟩], store := { base.store with logBuf := [] }, ents := (Tbl.empty.set 5 { stamp := 2 }).set 63 { stamp := 1 } } : Chip) } : State), (0 : Nat), (⟨0x4009, 7, 9⟩ : FaultMsg), (63 : Fin 64), by decide +kernel⟩,
    ⟨({ chip := ({ ((List.range 64).foldl (fun x i => (x.put (FLT.ENT0_STATE i) 1).put (FLT.ENT0_CODE i) 0x4001) ((up base).put FLT.STAT_GUARD 0)).put FLT.STAT_SAFE 0 |>.put FLT.LATCH3_CODE 0 with faultQ := [⟨0x4009, 7, 9⟩], flt := { base.flt with stop3 := none } } : Chip) } : State), (0 : Nat), (⟨0x4009, 7, 9⟩ : FaultMsg), by decide +kernel⟩⟩

theorem witness_FaultsAreHeldByClass :
    (∃ (s : State) (k : Nat) (m : FaultMsg), s.chip.domOn .core = true ∧ s.chip.faultQ[k]? = some m ∧ s.chip.postMay k = true ∧ m.code < 0x2000 ∧ (s.chip.store.f0Slot ≠ s.chip.now / 1000 ∨ s.chip.store.f0Count < 16) ∧ s.chip.store.logBuf.length < 256) ∧
    (∃ (s : State) (k : Nat) (m : FaultMsg), s.chip.domOn .core = true ∧ s.chip.faultQ[k]? = some m ∧ s.chip.postMay k = true ∧ m.code < 0x2000 ∧ s.chip.store.f0Slot = s.chip.now / 1000 ∧ 16 ≤ s.chip.store.f0Count) ∧
    (∃ (s : State) (k : Nat) (m : FaultMsg) (i : Fin 64), s.chip.domOn .core = true ∧ s.chip.faultQ[k]? = some m ∧ s.chip.postMay k = true ∧ (codeCls m.code = 1 ∨ codeCls m.code = 2) ∧ m.inst < 256 ∧ s.chip.get FLT.STAT_GUARD = 0 ∧ s.chip.get (FLT.ENT0_STATE i.val) = 0 ∧ (∀ j : Fin 64, j < i → s.chip.get (FLT.ENT0_STATE j.val) ≠ 0) ∧ (∀ j : Fin 64, s.chip.get (FLT.ENT0_STATE j.val) ≠ 0 → s.chip.get (FLT.ENT0_CODE j.val) = m.code → s.chip.get (FLT.ENT0_INST j.val) ≠ m.inst)) ∧
    (∃ (s : State) (k : Nat) (m : FaultMsg) (i : Fin 64), s.chip.domOn .core = true ∧ s.chip.faultQ[k]? = some m ∧ s.chip.postMay k = true ∧ (codeCls m.code = 1 ∨ codeCls m.code = 2) ∧ s.chip.get FLT.STAT_GUARD = 0 ∧ s.chip.get (FLT.ENT0_STATE i.val) ≠ 0 ∧ s.chip.get (FLT.ENT0_CODE i.val) = m.code ∧ s.chip.get (FLT.ENT0_INST i.val) = m.inst ∧ (∀ j : Fin 64, j < i → s.chip.get (FLT.ENT0_CODE j.val) = m.code → s.chip.get (FLT.ENT0_INST j.val) ≠ m.inst)) ∧
    (∃ (s : State) (k : Nat) (m : FaultMsg), s.chip.domOn .core = true ∧ s.chip.faultQ[k]? = some m ∧ s.chip.postMay k = true ∧ codeCls m.code = 3 ∧ m.code ≠ 0x6012 ∧ m.inst < 256 ∧ s.chip.get FLT.STAT_GUARD = 0 ∧ s.chip.get FLT.LATCH3_CODE = 0 ∧ s.chip.get PWR.DOMSTAT_HOLDUP = 0 ∧ s.chip.get FLT.STAT_SAFE = 0 ∧ s.chip.flt.stop3 = none) ∧
    (∃ (s : State) (k : Nat) (m : FaultMsg), s.chip.domOn .core = true ∧ s.chip.faultQ[k]? = some m ∧ s.chip.postMay k = true ∧ codeCls m.code = 4 ∧ m.inst < 256 ∧ s.chip.get FLTA.F4_CODE = 0 ∧ s.chip.get PWR.DOMSTAT_HOLDUP = 0 ∧ s.chip.get FLT.STAT_SAFE = 0) ∧
    (∃ (s : State) (k : Nat) (m : FaultMsg) (i : Fin 64), s.chip.domOn .core = true ∧ s.chip.faultQ[k]? = some m ∧ s.chip.postMay k = true ∧ codeCls m.code = 1 ∧ m.inst < 256 ∧ s.chip.get FLT.STAT_GUARD = 1 ∧ s.chip.unacked 1 = true ∧ s.chip.get (FLT.ENT0_STATE i.val) = 0 ∧ (∀ j : Fin 64, j < i → s.chip.get (FLT.ENT0_STATE j.val) ≠ 0)) ∧
    (∃ (s : State), s.chip.domOn .core = true ∧ s.chip.flt.inj = none ∧ s.chip.get FLTA.F4_CODE = 0 ∧ s.chip.get PWR.DOMSTAT_HOLDUP = 0 ∧ s.chip.get FLT.STAT_SAFE = 0) ∧
    (∃ (s : State) (a : Nat), s.chip.domOn .core = true ∧ s.chip.flt.inj = some (10, true, a)) :=
  ⟨⟨({ chip := ({ (up base) with faultQ := [⟨0x2001, 7, 9⟩, ⟨0x0130, 200, 9⟩], store := { base.store with logBuf := [], f0Slot := 0, f0Count := 16 }, time := { base.time with now := 1000 } } : Chip) } : State), (1 : Nat), (⟨0x0130, 200, 9⟩ : FaultMsg), by decide +kernel⟩,
    ⟨({ chip := ({ (up base) with faultQ := [⟨0x0130, 200, 9⟩], store := { base.store with f0Slot := 1, f0Count := 16 }, time := { base.time with now := 1999 } } : Chip) } : State), (0 : Nat), (⟨0x0130, 200, 9⟩ : FaultMsg), by decide +kernel⟩,
    ⟨({ chip := ({ (List.range 64).foldl (fun x i => (x.put (FLT.ENT0_STATE i) (if i = 63 then 0 else 2)).put (FLT.ENT0_CODE i) 0x4001) ((up base).put FLT.STAT_GUARD 0) with faultQ := [⟨0x4002, 255, 9⟩] } : Chip) } : State), (0 : Nat), (⟨0x4002, 255, 9⟩ : FaultMsg), (63 : Fin 64), by decide +kernel⟩,
    ⟨({ chip := ({ ((up base).put FLT.STAT_GUARD 0).put (FLT.ENT0_STATE 63) 2 |>.put (FLT.ENT0_CODE 63) 0x4002 |>.put (FLT.ENT0_INST 63) 255 |>.put (FLT.ENT0_OCC 63) 15 with faultQ := [⟨0x4002, 255, 9⟩] } |> fun x => (List.range 63).foldl (fun x i => x.put (FLT.ENT0_CODE i) 0x4001) x : Chip) } : State), (0 : Nat), (⟨0x4002, 255, 9⟩ : FaultMsg), (63 : Fin 64), by decide +kernel⟩,
    ⟨({ chip := ({ ((up base).put FLT.STAT_GUARD 0).put FLT.STAT_SAFE 0 |>.put FLT.LATCH3_CODE 0 |>.put (SEQR.STAT_STATE 63) 4 with faultQ := [⟨0x6120, 31, 9⟩], flt := { base.flt with stop3 := none }, loopCmds := [] } : Chip) } : State), (0 : Nat), (⟨0x6120, 31, 9⟩ : FaultMsg), by decide +kernel⟩,
    ⟨({ chip := ({ ((up base).put FLT.STAT_SAFE 0).put FLTA.F4_CODE 0 |>.put (SEQR.STAT_STATE 63) 4 with faultQ := [⟨0x8207, 0, 9⟩], flt := { base.flt with stopS := none } } : Chip) } : State), (0 : Nat), (⟨0x8207, 0, 9⟩ : FaultMsg), by decide +kernel⟩,
    ⟨({ chip := ({ ((up base).put FLT.STAT_GUARD 1).put (FLT.ENT0_STATE 1) 1 |>.put (FLT.ENT0_CODE 1) 0x2001 |>.put (FLT.ENT0_STATE 0) 0 with faultQ := [⟨0x2001, 7, 9⟩] } : Chip) } : State), (0 : Nat), (⟨0x2001, 7, 9⟩ : FaultMsg), (0 : Fin 64), by decide +kernel⟩,
    ⟨({ chip := ({ ((up base).put FLT.STAT_SAFE 0).put FLTA.F4_CODE 0 |>.put (SEQR.STAT_STATE 63) 4 with flt := { base.flt with stopS := none, inj := none } } : Chip) } : State), by decide +kernel⟩,
    ⟨({ chip := ({ (up base) with flt := { base.flt with inj := some (10, true, 5) } } : Chip) } : State), (5 : Nat), by decide +kernel⟩⟩

theorem witness_FaultsAreAcknowledgedAndCleared :
    (∃ (s : State) (req : Requester) (slot : Fin 64) (code : BitVec 16), s.chip.reaches req FLT.ACK = true ∧ s.chip.get (FLT.ENT0_STATE slot.val) ≠ 0 ∧ s.chip.get (FLT.ENT0_CODE slot.val) = code.toNat ∧ codeCls code.toNat < 3) ∧
    (∃ (s : State) (req : Requester) (slot : Fin 64) (code : BitVec 16), s.chip.reaches req FLT.ACK = true ∧ (s.chip.get (FLT.ENT0_STATE slot.val) = 0 ∨ s.chip.get (FLT.ENT0_CODE slot.val) ≠ code.toNat)) ∧
    (∃ (s : State) (req : Requester) (slot : Fin 64) (code : BitVec 16), s.chip.reaches req FLT.ACK = true ∧ s.chip.get (FLT.ENT0_STATE slot.val) ≠ 0 ∧ s.chip.get (FLT.ENT0_CODE slot.val) = code.toNat ∧ (codeCls code.toNat < 2 ∨ codeCls code.toNat = 2 ∧ s.chip.get (FLT.ENT0_STATE slot.val) = 2) ∧ s.chip.faultCond code.toNat (s.chip.get (FLT.ENT0_INST slot.val)) = false) ∧
    (∃ (s : State) (req : Requester) (slot : Fin 64) (code : BitVec 16), s.chip.reaches req FLT.ACK = true ∧ s.chip.get (FLT.ENT0_STATE slot.val) = 1 ∧ s.chip.get (FLT.ENT0_CODE slot.val) = code.toNat ∧ codeCls code.toNat = 2) ∧
    (∃ (s : State) (req : Requester) (slot : Fin 64) (code : BitVec 16), s.chip.reaches req FLT.ACK = true ∧ s.chip.get (FLT.ENT0_STATE slot.val) ≠ 0 ∧ s.chip.get (FLT.ENT0_CODE slot.val) = code.toNat ∧ codeCls code.toNat < 3 ∧ s.chip.faultCond code.toNat (s.chip.get (FLT.ENT0_INST slot.val)) = false) ∧
    (∃ (s : State) (req : Requester) (slot : Fin 64) (code : BitVec 16), s.chip.reaches req FLT.ACK = true ∧ s.chip.get (FLT.ENT0_STATE slot.val) ≠ 0 ∧ s.chip.get (FLT.ENT0_CODE slot.val) = code.toNat ∧ codeCls code.toNat < 3 ∧ s.chip.faultCond code.toNat (s.chip.get (FLT.ENT0_INST slot.val)) = true) ∧
    (∃ (s : State) (i : Fin 64) (a : Nat), s.chip.domOn .core = true ∧ (s.chip.ents.get i.val).timer = some a ∧ a + 10 * clampN 1 10000 (s.chip.get FLT.CFG_ESCT) ≤ s.chip.now ∧ s.chip.get PWR.DOMSTAT_HOLDUP = 0 ∧ s.chip.get FLT.STAT_SAFE = 0 ∧ s.chip.flt.stop3 = none) ∧
    (∃ (s : State) (a : Nat) (cold : ColdIn), s.chip.domOn .core = true ∧ s.chip.flt.stop3 = some ⟨a, false⟩ ∧ a + 1000 * orOne (s.chip.get FLT.CFG_SAFETO) ≤ s.chip.now ∧ s.chip.get PWR.DOMSTAT_HOLDUP = 0 ∧ s.chip.flt.coldHeld = false) :=
  ⟨⟨({ chip := ({ (up base).put (FLT.ENT0_STATE 63) 1 |>.put (FLT.ENT0_CODE 63) 0x4001 with ents := base.ents.set 63 { timer := some 5 } } : Chip) } : State), (.pcie : Requester), (63 : Fin 64), (0x4001 : BitVec 16), by decide +kernel⟩,
    ⟨({ chip := ((up base).put (FLT.ENT0_STATE 63) 1 |>.put (FLT.ENT0_CODE 63) 0x4001 : Chip) } : State), (.pcie : Requester), (63 : Fin 64), (0x4002 : BitVec 16), by decide +kernel⟩,
    ⟨({ chip := ({ (up base).put (FLT.ENT0_STATE 63) 2 |>.put (FLT.ENT0_CODE 63) 0x4001 with ents := base.ents.set 63 { timer := some 5 } } : Chip) } : State), (.pcie : Requester), (63 : Fin 64), (0x4001 : BitVec 16), by decide +kernel⟩,
    ⟨({ chip := ({ (up base).put (FLT.ENT0_STATE 63) 1 |>.put (FLT.ENT0_CODE 63) 0x4001 with ents := base.ents.set 63 { timer := some 5 } } : Chip) } : State), (.ring : Requester), (63 : Fin 64), (0x4001 : BitVec 16), by decide +kernel⟩,
    ⟨({ chip := ({ (up base).put (FLT.ENT0_STATE 63) 1 |>.put (FLT.ENT0_CODE 63) 0x4001 with ents := base.ents.set 63 { timer := some 5 } } : Chip) } : State), (.pp 0 : Requester), (63 : Fin 64), (0x4001 : BitVec 16), by decide +kernel⟩,
    ⟨({ chip := ({ (up base).put (FLT.ENT0_STATE 63) 1 |>.put (FLT.ENT0_CODE 63) 0x4003 |>.put TIME.TBSTAT_HOLDOVER 1 with ents := base.ents.set 63 { timer := some 5 } } : Chip) } : State), (.pp 0 : Requester), (63 : Fin 64), (0x4003 : BitVec 16), by decide +kernel⟩,
    ⟨({ chip := ({ (up base).put (FLT.ENT0_STATE 63) 1 |>.put (FLT.ENT0_CODE 63) 0x4003 |>.put FLT.STAT_SAFE 0 |>.put FLT.CFG_ESCT 0 |>.put FLT.LATCH3_CODE 0 with ents := base.ents.set 63 { timer := some 5 }, time := { base.time with now := 15 }, flt := { base.flt with stop3 := none } } : Chip) } : State), (63 : Fin 64), (5 : Nat), by decide +kernel⟩,
    ⟨({ chip := ({ (up base).put FLT.CFG_SAFETO 2 |>.put (SEQR.STAT_XEN 63) 1 with time := { base.time with now := 2015 }, flt := { base.flt with stop3 := some ⟨15, false⟩, coldHeld := false } } : Chip) } : State), (15 : Nat), (⟨true, true, true, 256⟩ : ColdIn), by decide +kernel⟩⟩

theorem witness_InjectionsGuardsAndColdStartRequests :
    (∃ (s : State) (req : Requester) (tgt : Fin 16), s.chip.reaches req FLT.INJ = true ∧ tgt.val ≤ 10 ∧ s.chip.flt.inj = none) ∧
    (∃ (s : State) (req : Requester) (tgt : Fin 16), s.chip.reaches req FLT.INJ = true ∧ (10 < tgt.val ∨ s.chip.flt.inj ≠ none)) ∧
    (∃ (s : State) (tgt : Nat) (b : Bool) (a : Nat), s.chip.coreRuns = true ∧ s.chip.flt.inj = some (tgt, b, a) ∧ a + 10000 ≤ s.chip.now) ∧
    (∃ (s : State) (req : Requester) (cls : Fin 4) (inst : BitVec 8) (num : BitVec 8), s.chip.reaches req FLT.SWRAISE = true ∧ cls.val < 3) ∧
    (∃ (s : State) (req : Requester) (inst : BitVec 8) (num : BitVec 8), s.chip.reaches req FLT.SWRAISE = true) ∧
    (∃ (s : State) (req : Requester) (test : Bool), s.chip.reaches req FLT.GUARD = true) ∧
    (∃ (s : State) (req : Requester) (test : Bool), s.chip.reaches req FLT.GUARD = true) ∧
    (∃ (s : State) (req : Requester) (key : BitVec 16) (cold : ColdIn), s.chip.reaches req FLT.CSREQ = true ∧ key ≠ 0xc5a7 ∧ s.chip.flt.coldHeld = false) ∧
    (∃ (s : State) (req : Requester) (cold : ColdIn), s.chip.reaches req FLT.CSREQ = true ∧ s.chip.stopRunning = true) ∧
    (∃ (s : State) (req : Requester) (nvmOk : Bool) (idOk : Bool) (n : Fin 257), s.chip.reaches req FLT.CSREQ = true ∧ s.chip.stopRunning = false ∧ s.chip.coldMay = true) :=
  ⟨⟨({ chip := ({ (up base) with flt := { base.flt with inj := none } } : Chip) } : State), (.pcie : Requester), (10 : Fin 16), by decide +kernel⟩,
    ⟨({ chip := ((up base) : Chip) } : State), (.pcie : Requester), (11 : Fin 16), by decide +kernel⟩,
    ⟨({ chip := ({ (up base) with flt := { base.flt with inj := some (1, true, 5) }, time := { base.time with now := 10005 } } : Chip) } : State), (1 : Nat), (true : Bool), (5 : Nat), by decide +kernel⟩,
    ⟨({ chip := (up base : Chip) } : State), (.ring : Requester), (2 : Fin 4), (255 : BitVec 8), (255 : BitVec 8), by decide +kernel⟩,
    ⟨({ chip := (up base : Chip) } : State), (.ring : Requester), (255 : BitVec 8), (255 : BitVec 8), by decide +kernel⟩,
    ⟨({ chip := ({ (up base) with flt := { base.flt with windows := [2, 4, 1] } } : Chip) } : State), (.pp 0 : Requester), (true : Bool), by decide +kernel⟩,
    ⟨({ chip := ({ (up base) with flt := { base.flt with windows := [2, 4, 1] } } : Chip) } : State), (.pp 0 : Requester), (true : Bool), by decide +kernel⟩,
    ⟨({ chip := ({ (up base) with flt := { base.flt with coldHeld := false } } : Chip) } : State), (.pp 0 : Requester), (0x1234 : BitVec 16), (⟨true, true, true, 256⟩ : ColdIn), by decide +kernel⟩,
    ⟨({ chip := ({ (up base) with flt := { base.flt with coldHeld := false, stop3 := some ⟨5, false⟩ } } : Chip) } : State), (.pp 0 : Requester), (⟨true, true, true, 256⟩ : ColdIn), by decide +kernel⟩,
    ⟨({ chip := ({ (up base).put THMA.SDSTAT_STATE 0 with flt := { base.flt with stop3 := none, stopS := some ⟨5, true⟩ } } : Chip) } : State), (.pp 0 : Requester), (true : Bool), (true : Bool), (256 : Fin 257), by decide +kernel⟩⟩

theorem witness_SensorsWindowAndShutdown :
    (∃ (s : State) (i : Fin 36) (temp : BitVec 12), s.chip.domOn .core = true ∧ s.chip.power.aon = true ∧ s.chip.get PWR.DOMSTAT_HOLDUP = 0 ∧ s.chip.get THMA.SDSTAT_STATE = 0 ∧ (8 ≤ i.val → s.chip.sensUp i.val = true) ∧ (∀ j : Fin 36, s.chip.get (THM.SENS_BRK j.val) = 0)) ∧
    (∃ (s : State) (i : Fin 8) (temp : BitVec 12), s.chip.power.aon = true ∧ s.chip.get THMA.SDSTAT_STATE = 1 ∧ s.chip.get TILE.CMTST_STATUS = 0 ∧ s.chip.therm.hub.length = 8 ∧ (∀ j : Fin 8, bitAt (s.chip.get THMA.SDMASK_MASK) j.val = true ∨ signedOf 12 (if j = i then temp.toNat else s.chip.therm.hub.getD j.val 0) < 960)) ∧
    (∃ (s : State) (i : Fin 8) (temp : BitVec 12), s.chip.power.aon = true ∧ s.chip.get THMA.SDSTAT_STATE ≠ 0 ∧ s.chip.get TILE.CMTST_STATUS = 0 ∧ s.chip.therm.hub.length = 8 ∧ bitAt (s.chip.get THMA.SDMASK_MASK) i.val = false ∧ 960 ≤ signedOf 12 temp.toNat) ∧
    (∃ (s : State) (i : Fin 36), s.chip.domOn .core = true ∧ s.chip.get PWR.DOMSTAT_HOLDUP = 0 ∧ s.chip.get THM.CFG_XCHK = 1 ∧ s.chip.therm.roundAt + 1000 * orOne (s.chip.get THM.CFG_XINT) ≤ s.chip.now ∧ s.chip.sensWorst = some i.val ∧ 2 * ((dieSens (sensDie i.val)).filter s.chip.sensBroken).length < (dieSens (sensDie i.val)).length) ∧
    (∃ (s : State), s.chip.get THM.CFG_XCHK = 0 ∨ s.chip.sensWorst = none ∨ s.chip.now < s.chip.therm.roundAt + 1000 * orOne (s.chip.get THM.CFG_XINT)) ∧
    (∃ (s : State) (i : Fin 36), s.chip.domOn .core = true ∧ s.chip.get PWR.DOMSTAT_HOLDUP = 0 ∧ s.chip.get THM.CFG_XCHK = 1 ∧ s.chip.therm.roundAt + 1000 * orOne (s.chip.get THM.CFG_XINT) ≤ s.chip.now ∧ s.chip.sensWorst = some i.val ∧ (dieSens (sensDie i.val)).length ≤ 2 * ((dieSens (sensDie i.val)).filter s.chip.sensBroken).length) ∧
    (∃ (s : State) (i : Fin 36), s.chip.power.aon = true ∧ s.chip.get THMA.SDSTAT_STATE = 0 ∧ s.chip.get PWR.DOMSTAT_HOLDUP = 0 ∧ s.chip.sensTrips i.val = true ∧ s.chip.get FLTA.F4_CODE = 0) ∧
    (∃ (s : State) (i : Fin 36), (s.chip.get THMA.SDSTAT_STATE ≠ 0 ∨ s.chip.sensTrips i.val = false)) ∧
    (∃ (s : State) (nvmOk : Bool) (idOk : Bool) (n : Fin 257), s.chip.coolDone = true ∧ s.chip.power.supplies = true) ∧
    (∃ (s : State) (cold : ColdIn), s.chip.coolDone = false) :=
  ⟨⟨({ chip := ({ (List.range 36).foldl (fun x j => x.put (THM.SENS_BRK j) 0) ((up base).put THMA.SDSTAT_STATE 0 |>.put THM.STAT_WINOPEN 1) with therm := { base.therm with hub := [0,0,0,0,0,0,0,0] } } : Chip) } : State), (7 : Fin 36), (841 : BitVec 12), by decide +kernel⟩,
    ⟨({ chip := ({ (up base).put THMA.SDSTAT_STATE 1 |>.put THMA.SDMASK_MASK 1 with therm := { base.therm with hub := [1000,0,0,0,0,0,0,960] }, power := ⟨true, true, true, false, none⟩ } |>.put TILE.CMTST_STATUS 0 : Chip) } : State), (7 : Fin 8), (959 : BitVec 12), by decide +kernel⟩,
    ⟨({ chip := ({ (up base).put THMA.SDSTAT_STATE 2 |>.put THMA.SDMASK_MASK 1 with therm := { base.therm with hub := [1000,0,0,0,0,0,0,959] }, power := ⟨true, true, true, false, none⟩ } |>.put TILE.CMTST_STATUS 0 : Chip) } : State), (7 : Fin 8), (960 : BitVec 12), by decide +kernel⟩,
    ⟨({ chip := ({ ([5, 6].foldl (fun x j => (x.put (THM.SENS_VALID j) 1).put (THM.SENS_USED j) 200) ((List.range 36).foldl (fun x j => ((x.put (THM.SENS_BRK j) 0).put (THM.SENS_VALID j) 0).setReg (THM.NBR j) 0x8685) (up base)) |>.put (THM.SENS_VALID 7) 1 |>.put (THM.SENS_TEMP 7) 800 |>.put THM.CFG_XCHK 1 |>.put THM.CFG_XINT 100 |>.put THM.CFG_XTHR 40) with time := { base.time with now := 100005 }, therm := { base.therm with roundAt := 5 } } : Chip) } : State), (7 : Fin 36), by decide +kernel⟩,
    ⟨({ chip := ((up base).put THM.CFG_XCHK 0 : Chip) } : State), by decide +kernel⟩,
    ⟨({ chip := ({ ([5, 6].foldl (fun x j => (x.put (THM.SENS_VALID j) 1).put (THM.SENS_USED j) 200) ((List.range 36).foldl (fun x j => ((x.put (THM.SENS_BRK j) 0).put (THM.SENS_VALID j) 0).setReg (THM.NBR j) 0x8685) (up base)) |>.put (THM.SENS_VALID 7) 1 |>.put (THM.SENS_TEMP 7) 800 |>.put THM.CFG_XCHK 1 |>.put THM.CFG_XINT 100 |>.put THM.CFG_XTHR 40 |>.put (THM.SENS_BRK 0) 1 |>.put (THM.SENS_BRK 1) 1 |>.put (THM.SENS_BRK 2) 1 |>.put (THM.SENS_BRK 3) 1) with time := { base.time with now := 100005 }, therm := { base.therm with roundAt := 5 } } : Chip) } : State), (7 : Fin 36), by decide +kernel⟩,
    ⟨({ chip := ({ (up base).put THMA.SDSTAT_STATE 0 |>.put (THM.SENS_BRK 7) 0 |>.put THMA.SDMASK_MASK 0 |>.put FLTA.F4_CODE 0 with power := ⟨true, true, true, false, none⟩, time := { base.time with now := 86400000001 }, therm := { base.therm with times := [5, 1, 0] } } : Chip) } : State), (7 : Fin 36), by decide +kernel⟩,
    ⟨({ chip := ((up base).put THMA.SDSTAT_STATE 1 : Chip) } : State), (7 : Fin 36), by decide +kernel⟩,
    ⟨({ chip := ({ (up base).put THMA.SDSTAT_STATE 2 |>.put THMA.SDMASK_MASK 0 |>.put THMA.SDSTAT_INST 35 with power := ⟨true, true, true, false, none⟩, time := { base.time with now := 100005 }, therm := { base.therm with hub := [0,0,0,0,0,0,0,0], coolAt := 5 } } : Chip) } : State), (true : Bool), (true : Bool), (0 : Fin 257), by decide +kernel⟩,
    ⟨({ chip := ((up base).put THMA.SDSTAT_STATE 1 : Chip) } : State), (⟨true, true, true, 256⟩ : ColdIn), by decide +kernel⟩⟩

theorem witness_EventsArePendedClaimedAndEnded :
    (∃ (s : State) (src : SourceId), s.chip.coreRuns = true ∧ s.chip.bells.get src.val ≠ 0 ∧ s.chip.bellFirst src.val = true ∧ s.chip.bellTurn = some (bellPort src.val)) ∧
    (∃ (s : State) (req : Requester) (src : SourceId), s.chip.reaches req EVH.DOORBELL = true ∧ 0x7c0 ≤ src.val) ∧
    (∃ (s : State) (req : Requester) (src : SourceId), s.chip.reaches req EVH.DOORBELL = true ∧ src.val < 0x7c0) ∧
    (∃ (s : State) (g : Fin 64), s.chip.coreRuns = true ∧ s.chip.get (GRP.STATE_ARMED g.val) = 1 ∧ s.chip.groupStart.get g.val + orOne (s.chip.get (GRP.CFG_TIME g.val)) ≤ s.chip.now) ∧
    (∃ (s : State) (req : Requester) (src : SourceId) (value : Word), s.chip.reaches req (SRC.CFG src.val) = true) ∧
    (∃ (s : State) (req : Requester) (k : ProcId) (i : SourceId), s.chip.reqUp req = true ∧ s.chip.offAt (PP.CLAIM k.val) = false ∧ s.chip.polAsleep = false ∧ s.chip.evh.winners.getD k.val none = some i.val ∧ s.chip.get (PP.STAT_DEPTH k.val) < 16) ∧
    (∃ (s : State) (req : Requester) (k : ProcId), s.chip.reqUp req = true ∧ s.chip.offAt (PP.CLAIM k.val) = false ∧ s.chip.polAsleep = false ∧ s.chip.evh.winners.getD k.val none = none) ∧
    (∃ (s : State) (req : Requester) (k : ProcId) (src : SourceId), s.chip.reaches req (PP.EOI k.val) = true ∧ s.chip.polAsleep = false ∧ 1 ≤ s.chip.get (PP.STAT_DEPTH k.val) ∧ s.chip.get (PP.STAT_DEPTH k.val) ≤ 16 ∧ s.chip.get (PP.STK_SRC k.val (s.chip.get (PP.STAT_DEPTH k.val) - 1)) = src.val) ∧
    (∃ (s : State) (req : Requester) (k : ProcId) (src : SourceId), s.chip.reaches req (PP.EOI k.val) = true ∧ s.chip.polAsleep = false ∧ 1 ≤ s.chip.get (PP.STAT_DEPTH k.val) ∧ s.chip.get (PP.STK_SRC k.val (s.chip.get (PP.STAT_DEPTH k.val) - 1)) ≠ src.val) ∧
    (∃ (s : State) (req : Requester) (k : ProcId) (src : SourceId), s.chip.reaches req (PP.EOI k.val) = true ∧ s.chip.polAsleep = false ∧ s.chip.get (PP.STAT_DEPTH k.val) = 0) ∧
    (∃ (s : State) (req : Requester) (k : ProcId) (value : Word), s.chip.reaches req (PP.CTRL k.val) = true) :=
  ⟨⟨({ chip := ({ ((up base).put (SRC.CFG_GV 2047) 0).put (SRC.STATE_INSRV 2047) 0 with bells := base.bells.set 2047 3, bellOrder := [2047] } : Chip) } : State), (2047 : SourceId), by decide +kernel⟩,
    ⟨({ chip := (((up base).put (SRC.CFG_GV 0x7c0) 0).put (SRC.STATE_INSRV 0x7c0) 0 : Chip) } : State), (.pp 0 : Requester), (0x7c0 : SourceId), by decide +kernel⟩,
    ⟨({ chip := (up base : Chip) } : State), (.pcie : Requester), (0x7bf : SourceId), by decide +kernel⟩,
    ⟨({ chip := ({ (((((up base).put (GRP.STATE_ARMED 63) 1).put (SRC.CFG_GV 9) 1).put (SRC.CFG_GRP 9) 63).put (GRP.CFG_TIME 63) 7) with srcs := base.srcs.set 9 { unreleased := true }, groupStart := base.groupStart.set 63 100, time := { base.time with now := 107 } } : Chip) } : State), (63 : Fin 64), by decide +kernel⟩,
    ⟨({ chip := (up base : Chip) } : State), (.pp 3 : Requester), (2047 : SourceId), (0xffffffff : Word), by decide +kernel⟩,
    ⟨({ chip := ({ (up base).put (PP.STAT_DEPTH 3) 15 with evh := { base.evh with winners := [none, none, none, some 2047] } } : Chip) } : State), (.pp 3 : Requester), (3 : ProcId), (2047 : SourceId), by decide +kernel⟩,
    ⟨({ chip := (up base : Chip) } : State), (.pp 2 : Requester), (2 : ProcId), by decide +kernel⟩,
    ⟨({ chip := (((up base).put (PP.STAT_DEPTH 0) 1).put (PP.STK_SRC 0 0) 2047 : Chip) } : State), (.pp 0 : Requester), (0 : ProcId), (2047 : SourceId), by decide +kernel⟩,
    ⟨({ chip := (((up base).put (PP.STAT_DEPTH 1) 2).put (PP.STK_SRC 1 1) 5 : Chip) } : State), (.pp 1 : Requester), (1 : ProcId), (6 : SourceId), by decide +kernel⟩,
    ⟨({ chip := ((up base).put (PP.STAT_DEPTH 1) 0 : Chip) } : State), (.pp 1 : Requester), (1 : ProcId), (6 : SourceId), by decide +kernel⟩,
    ⟨({ chip := (up base : Chip) } : State), (.pp 0 : Requester), (3 : ProcId), (0xffffffff : Word), by decide +kernel⟩⟩

theorem witness_TheFunctionFollowsItsLink :
    (∃ (s : State) (gen : Fin 4) (two : Bool), s.chip.domOn .host = true ∧ s.chip.get HIF.STAT_LINKUP = 0) ∧
    (∃ (s : State) (tb4 : Bool), s.chip.domOn .host = true ∧ s.chip.get HIF.STAT_LINKUP = 1) ∧
    (∃ (s : State), s.chip.domOn .host = true ∧ s.chip.get HIF.STAT_LINKUP = 1 ∧ s.chip.hif.held = []) ∧
    (∃ (s : State) (link : Fin 3) (pme : Bool) (bm : Bool) (ms : Bool) (fm : Bool), s.chip.domOn .host = true ∧ s.chip.get HIF.STAT_LINKUP = 1) ∧
    (∃ (s : State) (link : Fin 3) (pme : Bool) (bm : Bool) (ms : Bool) (fm : Bool), s.chip.domOn .host = true ∧ s.chip.get HIF.STAT_LINKUP = 1 ∧ s.chip.hif.held = [] ∧ s.chip.reg (PBA.BITS 0) = 0) ∧
    (∃ (s : State) (r : Fin 8) (bytes : List Byte) (fm : Bool), s.chip.domOn .host = true ∧ s.chip.get HIF.STAT_LINKUP = 1 ∧ s.chip.get HIF.CTRL_EN = 1 ∧ s.chip.hif.held = [⟨8 + r.val, bytes, false⟩] ∧ s.chip.get (RING.STAT_STATE (8 + r.val)) = 1 ∧ s.chip.reg (PBA.BITS 0) = 0) ∧
    (∃ (s : State) (v : Fin 32), s.chip.domOn .host = true ∧ s.chip.get HIF.STAT_LINKUP = 1 ∧ s.chip.get HIF.STAT_DSTATE = 0 ∧ s.chip.hif.funcMask = false ∧ s.chip.get (PBA.BITS_PEND 0) = 2 ^ v.val) ∧
    (∃ (s : State) (bm : Bool), s.chip.domOn .host = true) ∧
    (∃ (s : State) (req : Requester) (r : Fin 22) (value : Word), s.chip.reaches req (RING.CFG r.val) = true ∧ r.val ≠ 17 ∧ s.chip.get (RING.CFG_EN r.val) = 0 ∧ value.getLsbD 31 = true ∧ 6 ≤ value.toNat / 2 ^ 24 % 32 ∧ value.toNat / 2 ^ 24 % 32 ≤ 16) ∧
    (∃ (s : State) (req : Requester) (r : Fin 22) (value : Word), s.chip.reaches req (RING.CFG r.val) = true ∧ r.val ≠ 17 ∧ s.chip.get (RING.CFG_EN r.val) = 1 ∧ value.getLsbD 31 = false) :=
  ⟨⟨({ chip := ((up base).put HIF.STAT_LINKUP 0 : Chip) } : State), (3 : Fin 4), (true : Bool), by decide +kernel⟩,
    ⟨({ chip := ({ (ringUp base) with rings := base.rings.set 3 { busy := some { opcode := 1, tag := 2, nocpl := false, irq := true, cpl := 5 } } } : Chip) } : State), (false : Bool), by decide +kernel⟩,
    ⟨({ chip := ({ (ringUp base) with hif := { base.hif with evSeq := 77, held := [] } } : Chip) } : State), by decide +kernel⟩,
    ⟨({ chip := ({ (ringUp base) with hif := { base.hif with pollBusy := true, telQ := [] } } : Chip) } : State), (2 : Fin 3), (true : Bool), (false : Bool), (true : Bool), (true : Bool), by decide +kernel⟩,
    ⟨({ chip := ({ (ringUp base).setReg (PBA.BITS 0) 0 with hif := { base.hif with held := [] } } : Chip) } : State), (0 : Fin 3), (true : Bool), (true : Bool), (true : Bool), (true : Bool), by decide +kernel⟩,
    ⟨({ chip := ({ (ringUp base).setReg (PBA.BITS 0) 0 |>.put HIF.STAT_DSTATE 3 with hif := { base.hif with held := [⟨13, [1, 2, 3], false⟩] } } : Chip) } : State), (5 : Fin 8), ([1, 2, 3] : List Byte), (true : Bool), by decide +kernel⟩,
    ⟨({ chip := ({ (ringUp base).setReg (PBA.BITS 0) (0x80000000) with hif := { base.hif with funcMask := false } } : Chip) } : State), (31 : Fin 32), by decide +kernel⟩,
    ⟨({ chip := ((ringUp base).setReg (PBA.BITS 0) 5 : Chip) } : State), (true : Bool), by decide +kernel⟩,
    ⟨({ chip := ((ringUp base).put HIF.CTRL_EN 0 |>.put (RING.CFG_EN 21) 0 : Chip) } : State), (.pcie : Requester), (21 : Fin 22), (0x90000000 : Word), by decide +kernel⟩,
    ⟨({ chip := ((ringUp base).put HIF.CTRL_EN 0 |>.put (RING.CFG_EN 21) 1 : Chip) } : State), (.pcie : Requester), (21 : Fin 22), (0x70000000 : Word), by decide +kernel⟩⟩

theorem witness_RingsArePolledSignalledAndFlushed :
    (∃ (s : State) (bells : List Word), s.chip.hostLive = true ∧ s.chip.mayPoll = true ∧ (∀ r : Fin 22, r.val ≠ 17 → s.chip.get (RING.STAT_STATE r.val) = 1 → (if r.val < 8 then (bellWord bells r.val + 2 ^ 32 - s.chip.get (RING.DIDX_DIDX r.val)) % 2 ^ 32 else (s.chip.get (RING.DIDX_DIDX r.val) + 2 ^ 32 - bellWord bells r.val) % 2 ^ 32) ≤ 2 ^ s.chip.get (RING.CFG_LOG2N r.val))) ∧
    (∃ (s : State) (bells : List Word) (r : Fin 22), s.chip.hostLive = true ∧ s.chip.mayPoll = true ∧ 18 ≤ r.val ∧ (∀ q : Fin 22, q.val ≠ 17 → (s.chip.get (RING.STAT_STATE q.val) = 1 ↔ q = r)) ∧ 2 ^ s.chip.get (RING.CFG_LOG2N r.val) < (s.chip.get (RING.DIDX_DIDX r.val) + 2 ^ 32 - bellWord bells r.val) % 2 ^ 32) ∧
    (∃ (s : State) (bells : List Word), s.chip.hostLive = true ∧ s.chip.mayPoll = true) ∧
    (∃ (s : State) (bells : List Word) (ok : Bool), s.chip.mayPoll = false) ∧
    (∃ (s : State) (req : Requester), s.chip.reaches req HIF.KICK = true) ∧
    (∃ (s : State) (r : Fin 8), s.chip.hostLive = true ∧ s.chip.get (RING.STAT_STATE r.val) = 1 ∧ s.chip.get (RING.STAT_STATE 16) ≠ 1) ∧
    (∃ (s : State) (r : Fin 22), s.chip.domOn .host = true ∧ (s.chip.rings.get r.val).unsig ≠ 0 ∧ (s.chip.rings.get r.val).first + orOne (s.chip.get (RING.MOD_MODTIME r.val)) ≤ s.chip.now ∧ s.chip.get HIF.STAT_LINKUP = 1 ∧ s.chip.get HIF.STAT_DSTATE = 0 ∧ s.chip.hif.msixEn = true ∧ s.chip.hif.busMaster = true ∧ s.chip.hif.funcMask = false ∧ s.chip.get (MSIX.VCTRL_MASK (s.chip.get (RING.CFG_VEC r.val))) = 0) ∧
    (∃ (s : State) (kind : Fin 5) (inst : Fin 256) (trig : Fin 2) (h : TelHw) (strm : Fin 4), s.chip.tels.get (1024 * kind.val + 2 * inst.val + trig.val) = h ∧ h.words ≠ [] ∧ h.strm = strm.val ∧ h.start + orOne (s.chip.get (RING.MOD_TFLUSH (18 + strm.val))) ≤ s.chip.now ∧ s.chip.ringRuns (18 + strm.val) = true ∧ s.chip.inD0 = true ∧ s.chip.ringFull (18 + strm.val) = false ∧ s.chip.hif.telQ.length < 64 ∧ s.chip.telRoom = true) ∧
    (∃ (s : State) (strm : Fin 4) (bytes : List Byte), s.pending = [] ∧ s.chip.power.aon = true ∧ s.chip.hif.telQ = [⟨18 + strm.val, bytes, false⟩] ∧ bytes.length = 64 ∧ (bytes.getD 7 0).toNat < 2 ∧ s.chip.ringRuns (18 + strm.val) = true ∧ s.chip.inD0 = true ∧ (s.chip.rings.get (18 + strm.val)).unsig + 1 < orOne (s.chip.get (RING.MOD_MODCNT (18 + strm.val)))) ∧
    (∃ (s : State) (kind : Fin 5) (inst : Fin 256) (trig : Fin 2) (strm : Fin 4), (s.chip.tels.get (1024 * kind.val + 2 * inst.val + trig.val)).words ≠ [] ∧ (s.chip.tels.get (1024 * kind.val + 2 * inst.val + trig.val)).strm = strm.val ∧ (s.chip.tels.get (1024 * kind.val + 2 * inst.val + trig.val)).start + orOne (s.chip.get (RING.MOD_TFLUSH (18 + strm.val))) ≤ s.chip.now ∧ (s.chip.ringRuns (18 + strm.val) = false ∨ s.chip.ringFull (18 + strm.val) = true ∨ 64 ≤ s.chip.hif.telQ.length ∨ s.chip.telRoom = false)) :=
  ⟨⟨({ chip := ({ (List.range 22).foldl (fun x r => (x.put (RING.STAT_STATE r) 1).put (RING.CFG_LOG2N r) 6 |>.put (RING.DIDX_DIDX r) 0) ((ringUp base).put HIF.POLL_PINT 100) with hif := { base.hif with pollBusy := false }, time := { base.time with now := 500, prev := 499 }, grid := Tbl.empty } : Chip) } : State), (List.replicate 21 0 : List Word), by decide +kernel⟩,
    ⟨({ chip := ({ (List.range 22).foldl (fun x r => (x.put (RING.STAT_STATE r) (if r = 21 then 1 else 0)).put (RING.CFG_LOG2N r) 6 |>.put (RING.DIDX_DIDX r) 64) (ringUp base) with hif := { base.hif with pollBusy := true } } : Chip) } : State), (List.replicate 21 0xffffffff : List Word), (21 : Fin 22), by decide +kernel⟩,
    ⟨({ chip := ({ (ringUp base) with hif := { base.hif with pollBusy := true } } : Chip) } : State), ([] : List Word), by decide +kernel⟩,
    ⟨({ chip := ({ (ringUp base).put HIF.POLL_PINT 100 with hif := { base.hif with pollBusy := false }, time := { base.time with now := 501, prev := 500 } } : Chip) } : State), ([] : List Word), (true : Bool), by decide +kernel⟩,
    ⟨({ chip := ({ (up base) with hif := { base.hif with pollBusy := false } } : Chip) } : State), (.pcie : Requester), by decide +kernel⟩,
    ⟨({ chip := ((ringUp base).put (RING.STAT_STATE 16) 0 : Chip) } : State), (3 : Fin 8), by decide +kernel⟩,
    ⟨({ chip := ({ (ringUp base).put (RING.CFG_VEC 21) 31 |>.put (MSIX.VCTRL_MASK 31) 0 |>.put (RING.MOD_MODTIME 21) 0 with rings := base.rings.set 21 { unsig := 5, first := 99 }, hif := { base.hif with msixEn := true, busMaster := true, funcMask := false }, time := { base.time with now := 100 } } : Chip) } : State), (21 : Fin 22), by decide +kernel⟩,
    ⟨({ chip := ({ (ringUp base).put (RING.STAT_STATE 21) 1 |>.put (RING.CFG_LOG2N 21) 6 |>.put (RING.DIDX_DIDX 21) 64 |>.put (RING.HIDX_HIDX 21) 64 |>.put (RING.MOD_TFLUSH 21) 0 with tels := Tbl.empty.set 4096 { words := [5, 6], start := 9, strm := 3, dec := 2 }, rings := base.rings.set 21 { loss := true }, hif := { base.hif with telQ := [⟨18, [], false⟩], telAt := 0 }, time := { base.time with now := 100 } } : Chip) } : State), (4 : Fin 5), (0 : Fin 256), (0 : Fin 2), ({ words := [5, 6], start := 9, strm := 3, dec := 2 } : TelHw), (3 : Fin 4), by decide +kernel⟩,
    ⟨({ chip := ({ (ringUp base).put (RING.STAT_STATE 21) 1 |>.put (RING.CFG_LOG2N 21) 6 |>.put (RING.DIDX_DIDX 21) 64 |>.put (RING.HIDX_HIDX 21) 64 |>.put (RING.MOD_MODCNT 21) 255 with rings := base.rings.set 21 { reserved := 1 }, hif := { base.hif with telQ := [⟨21, [4, 2, 7, 0, 0, 2, 0, 1] ++ List.replicate 56 9, false⟩] } } : Chip) } : State), (3 : Fin 4), ([4, 2, 7, 0, 0, 2, 0, 1] ++ List.replicate 56 9 : List Byte), by decide +kernel⟩,
    ⟨({ chip := ({ (ringUp base).put (RING.STAT_STATE 21) 0 |>.put (RING.MOD_TFLUSH 21) 0 with tels := Tbl.empty.set 4096 { words := [5, 6], start := 9, strm := 3 }, time := { base.time with now := 100 } } : Chip) } : State), (4 : Fin 5), (0 : Fin 256), (0 : Fin 2), (3 : Fin 4), by decide +kernel⟩⟩

theorem witness_RingCommandsReadWriteAndCommand :
    (∃ (s : State) (c : Cmd), s.chip.serves c = true ∧ c.target = 0 ∧ cmdClean c [] = true) ∧
    (∃ (s : State) (c : Cmd) (op : Byte), s.chip.serves c = true ∧ listedOpcode op.toNat = false) ∧
    (∃ (s : State) (c : Cmd), s.chip.serves c = true ∧ (c.target ≠ 0 ∨ cmdClean c [] = false)) ∧
    (∃ (s : State) (c : Cmd), s.chip.serves c = true ∧ (32 ≤ c.target.toNat ∨ cmdClean c [(8, 2)] = false)) ∧
    (∃ (s : State) (c : Cmd), s.chip.cmdTurn ≠ some c.ring.val) ∧
    (∃ (s : State) (c : Cmd) (k : Fin 8), s.chip.cmdTurn = some c.ring.val ∧ c.flags.getLsbD 1 = true ∧ (s.chip.rings.get k.val).busy.isSome = true) ∧
    (∃ (s : State) (c : Cmd), s.chip.cmdReady c.ring.val false = true ∧ c.flags = 1 ∧ c.target = 0 ∧ cmdClean c [] = true ∧ s.chip.get (RING.STAT_STATE c.ring.val) = 1) ∧
    (∃ (s : State) (c : Cmd), s.chip.serves c = true ∧ s.chip.reqUp .ring = true ∧ 1 ≤ c.target.toNat ∧ c.target.toNat ≤ 12 ∧ cmdClean c [(8, 4 * c.target.toNat)] = true ∧ (∀ i ∈ List.range c.target.toNat, let o := cmdArg c (8 + 4 * i) 4; offsetOk o = true ∧ inMailbox o = false ∧ s.chip.offAt o = false ∧ span 0x31000 0x312c0 o = false ∧ o ∉ snapWords ∧ (∀ x ∈ snapPairs, x.1 ≠ o) ∧ inPP o = false ∧ o ≠ NVM.RDDATA)) ∧
    (∃ (s : State) (c : Cmd) (fail : DieFail), s.chip.serves c = true ∧ 1 ≤ c.target.toNat ∧ c.target.toNat ≤ 12 ∧ cmdClean c [(8, 4 * c.target.toNat)] = true ∧ offsetOk (cmdArg c 8 4) = false) ∧
    (∃ (s : State) (c : Cmd), s.chip.serves c = true ∧ 1 ≤ c.target.toNat ∧ c.target.toNat ≤ 12 ∧ cmdClean c [(8, 4 * c.target.toNat)] = true ∧ dieWindow ≤ cmdArg c 8 4 ∧ offsetOk (cmdArg c 8 4) = true ∧ (regAt (cmdArg c 8 4)).isSome = true ∧ s.chip.offAt (cmdArg c 8 4) = false) ∧
    (∃ (s : State) (c : Cmd) (cold : ColdIn), s.chip.serves c = true ∧ s.chip.reqUp .ring = true ∧ s.chip.flt.coldHeld = false ∧ c.target = 1 ∧ cmdClean c [(8, 8)] = true ∧ s.chip.get ACC.ACCST_LOCKED = 0 ∧ fieldsOnly (cmdArg c 8 4) = true ∧ (regAt (cmdArg c 8 4)).isSome = true ∧ s.chip.offAt (cmdArg c 8 4) = false ∧ offsetOk (cmdArg c 8 4) = true ∧ (cntClears (cmdArg c 8 4)).isNone = true ∧ accMask (cmdArg c 8 4) (· == .w1c) = 0) ∧
    (∃ (s : State) (c : Cmd) (cold : ColdIn) (fail : DieFail), s.chip.serves c = true ∧ s.chip.flt.coldHeld = false ∧ 1 ≤ c.target.toNat ∧ c.target.toNat ≤ 6 ∧ cmdClean c [(8, 8 * c.target.toNat)] = true ∧ offsetOk (cmdArg c 8 4) = false) ∧
    (∃ (s : State) (c : Cmd), s.chip.serves c = true ∧ c.target.toNat < 32 ∧ cmdClean c [(8, 2)] = true ∧ s.chip.inHold = false ∧ s.chip.inSafe = false ∧ s.chip.get (AVSL.CTRL_OWNER c.target.toNat) = 0 ∧ s.chip.loopState c.target.toNat = 2 ∧ s.chip.get (AVSL.VLIM_VMIN c.target.toNat) ≤ cmdArg c 8 2 ∧ cmdArg c 8 2 ≤ s.chip.get (AVSL.VLIM_VMAX c.target.toNat)) ∧
    (∃ (s : State) (c : Cmd), s.chip.serves c = true ∧ c.target.toNat < 32 ∧ cmdClean c [(8, 2)] = true ∧ s.chip.inHold = false ∧ s.chip.inSafe = false ∧ s.chip.get (AVSL.CTRL_OWNER c.target.toNat) = 0 ∧ s.chip.loopState c.target.toNat = 4 ∧ s.chip.get (AVSL.VLIM_VMIN c.target.toNat) ≤ cmdArg c 8 2 ∧ cmdArg c 8 2 ≤ s.chip.get (AVSL.VLIM_VMAX c.target.toNat)) ∧
    (∃ (s : State) (c : Cmd) (why : Fin 5), s.chip.serves c = true ∧ c.target.toNat < 32 ∧ cmdClean c [(8, 2)] = true ∧ s.chip.inHold = false ∧ s.chip.inSafe = false ∧ (why = 1 ↔ s.chip.get (AVSL.CTRL_OWNER c.target.toNat) ≠ 0) ∧ (why = 4 → s.chip.loopState c.target.toNat ≠ 2 ∧ s.chip.loopState c.target.toNat ≠ 4) ∧ (why = 2 ∨ why = 3 → s.chip.loopState c.target.toNat = 2 ∨ s.chip.loopState c.target.toNat = 4) ∧ (why = 2 → cmdArg c 8 2 < s.chip.get (AVSL.VLIM_VMIN c.target.toNat)) ∧ (why = 3 → s.chip.get (AVSL.VLIM_VMAX c.target.toNat) < cmdArg c 8 2 ∧ s.chip.get (AVSL.VLIM_VMIN c.target.toNat) ≤ cmdArg c 8 2) ∧ why ≠ 0) ∧
    (∃ (s : State) (c : Cmd), s.chip.serves c = true ∧ c.target.toNat < 32 ∧ cmdClean c [(8, 2)] = true ∧ (s.chip.inHold = true ∨ s.chip.inSafe = true)) ∧
    (∃ (s : State) (c : Cmd), s.chip.serves c = true ∧ c.target.toNat < 32 ∧ cmdClean c [(8, 4)] = true ∧ s.chip.inHold = false ∧ s.chip.inSafe = false ∧ s.chip.get (AVSL.CTRL_OWNER c.target.toNat) = 0 ∧ (s.chip.loopState c.target.toNat = 2 ∨ s.chip.loopState c.target.toNat = 4) ∧ max 1 (cmdArg c 8 4) ≤ s.chip.slewMax c.target.toNat) ∧
    (∃ (s : State) (c : Cmd), s.chip.serves c = true ∧ c.target.toNat < 32 ∧ cmdClean c [(8, 4)] = true ∧ s.chip.inHold = false ∧ s.chip.inSafe = false ∧ s.chip.get (AVSL.CTRL_OWNER c.target.toNat) = 0 ∧ (s.chip.loopState c.target.toNat = 2 ∨ s.chip.loopState c.target.toNat = 4) ∧ s.chip.slewMax c.target.toNat < cmdArg c 8 4) ∧
    (∃ (s : State) (c : Cmd), s.chip.serves c = true ∧ c.target = 0 ∧ cmdClean c [(8, 4)] = true ∧ cmdArg c 8 4 / 2 ^ 30 % 4 ≠ 0 ∧ s.chip.get (FLT.ENT0_STATE (cmdArg c 8 4 / 2 ^ 16 % 64)) = 0) ∧
    (∃ (s : State) (c : Cmd), s.chip.serves c = true ∧ c.target = 0 ∧ cmdClean c [(8, 4)] = true ∧ cmdArg c 8 4 / 2 ^ 30 % 4 = 1 ∧ s.chip.get (FLT.ENT0_STATE (cmdArg c 8 4 / 2 ^ 16 % 64)) ≠ 0 ∧ s.chip.get (FLT.ENT0_CODE (cmdArg c 8 4 / 2 ^ 16 % 64)) = cmdArg c 8 4 % 2 ^ 16 ∧ codeCls (cmdArg c 8 4 % 2 ^ 16) < 3) ∧
    (∃ (s : State) (c : Cmd), s.chip.serves c = true ∧ c.target.toNat < 4 ∧ cmdClean c [(8, 1)] = true ∧ cmdArg c 8 1 = 1 ∧ s.chip.inHold = false ∧ s.chip.inSafe = false ∧ (s.chip.mayStart = false ∨ s.chip.get (SEQD.STAT_STATE c.target.toNat) = 4)) ∧
    (∃ (s : State) (c : Cmd), s.chip.serves c = true ∧ c.target.toNat < 4 ∧ cmdClean c [(8, 1)] = true ∧ cmdArg c 8 1 = 1 ∧ s.chip.inHold = false ∧ s.chip.inSafe = false ∧ s.chip.mayStart = true ∧ s.chip.get (SEQD.STAT_STATE c.target.toNat) = 3) ∧
    (∃ (s : State) (c : Cmd), s.chip.serves c = true ∧ c.target.toNat < 4 ∧ cmdClean c [(8, 1)] = true ∧ cmdArg c 8 1 = 1 ∧ s.chip.inHold = false ∧ s.chip.inSafe = false ∧ s.chip.mayStart = true ∧ s.chip.get (SEQD.STAT_STATE c.target.toNat) ≠ 3 ∧ s.chip.get (SEQD.STAT_STATE c.target.toNat) ≠ 4 ∧ (∀ k : DomainId, s.chip.get (SEQD.STAT_PENDST k.val) = 0)) ∧
    (∃ (s : State) (c : Cmd), s.chip.serves c = true ∧ c.target.toNat < 4 ∧ cmdClean c [(8, 1)] = true ∧ (cmdArg c 8 1 = 1 ∨ cmdArg c 8 1 = 2 ∨ cmdArg c 8 1 = 4) ∧ (s.chip.inHold = true ∨ cmdArg c 8 1 = 1 ∧ s.chip.inSafe = true)) ∧
    (∃ (s : State) (c : Cmd), s.chip.serves c = true ∧ 1 ≤ c.target.toNat ∧ c.target.toNat ≤ 4096 ∧ cmdClean c [(8, 4), (16, 8)] = true ∧ logNewest s.nvm = none) ∧
    (∃ (s : State) (c : Cmd), s.chip.serves c = true ∧ c.target.toNat < 224 ∧ cmdClean c [(8, 2), (16, 8)] = true ∧ 1 ≤ cmdArg c 9 1 ∧ cmdArg c 8 1 + cmdArg c 9 1 ≤ 32) ∧
    (∃ (s : State) (c : Cmd), s.chip.serves c = true ∧ (224 ≤ c.target.toNat ∨ 32 < cmdArg c 8 1 + cmdArg c 9 1 ∨ cmdArg c 9 1 = 0)) :=
  ⟨⟨({ chip := (ringUp base : Chip) } : State), (⟨3, 0, 0x1234, 0, []⟩ : Cmd), by decide +kernel⟩,
    ⟨({ chip := (ringUp base : Chip) } : State), (⟨3, 0, 0x1234, 77, List.replicate 56 9⟩ : Cmd), (0x7f : Byte), by decide +kernel⟩,
    ⟨({ chip := (ringUp base : Chip) } : State), (⟨3, 0, 0x1234, 7, []⟩ : Cmd), by decide +kernel⟩,
    ⟨({ chip := (ringUp base : Chip) } : State), (⟨3, 0, 0x1234, 32, []⟩ : Cmd), by decide +kernel⟩,
    ⟨({ chip := ((ringUp base).put (RING.STAT_STATE 3) 0 : Chip) } : State), (⟨3, 0, 0x1234, 0, []⟩ : Cmd), by decide +kernel⟩,
    ⟨({ chip := ({ (ringUp base) with rings := base.rings.set 0 { busy := some { opcode := 1, tag := 2, nocpl := false, irq := true, cpl := 5 } } } : Chip) } : State), (⟨3, 2, 0x1234, 0, []⟩ : Cmd), (0 : Fin 8), by decide +kernel⟩,
    ⟨({ chip := (ringUp base : Chip) } : State), (⟨3, 1, 0x1234, 0, []⟩ : Cmd), by decide +kernel⟩,
    ⟨({ chip := (ringUp base : Chip) } : State), (⟨3, 0, 0x1234, 2, bytesLE 4 0x25000 ++ bytesLE 4 0x1ffffc⟩ : Cmd), by decide +kernel⟩,
    ⟨({ chip := (ringUp base : Chip) } : State), (⟨3, 0, 0x1234, 1, bytesLE 4 0x25002⟩ : Cmd), (none : DieFail), by decide +kernel⟩,
    ⟨({ chip := (ringUp base : Chip) } : State), (⟨3, 0, 0x1234, 12, (List.replicate 12 (bytesLE 4 0x100000)).flatten⟩ : Cmd), by decide +kernel⟩,
    ⟨({ chip := ({ (ringUp base).put ACC.ACCST_LOCKED 0 with flt := { base.flt with coldHeld := false } } : Chip) } : State), (⟨3, 0, 0x1234, 1, bytesLE 4 0x26000 ++ bytesLE 4 0x12345678⟩ : Cmd), (⟨true, true, true, 256⟩ : ColdIn), by decide +kernel⟩,
    ⟨({ chip := ({ ringUp base with flt := { base.flt with coldHeld := false } } : Chip) } : State), (⟨3, 0, 0x1234, 6, bytesLE 4 0xfffffffc ++ List.replicate 44 9⟩ : Cmd), (⟨true, true, true, 256⟩ : ColdIn), (some 0 : DieFail), by decide +kernel⟩,
    ⟨({ chip := ((ringUp base).put (AVSL.CTRL_OWNER 31) 0 |>.put (LOOP.STATUS_STATE 31) 2 |>.put (AVSL.VLIM_VMIN 31) 0x2433 |>.put (AVSL.VLIM_VMAX 31) 0x2433 : Chip) } : State), (⟨3, 0, 0x1234, 31, bytesLE 2 0x2433⟩ : Cmd), by decide +kernel⟩,
    ⟨({ chip := ((ringUp base).put (AVSL.CTRL_OWNER 31) 0 |>.put (LOOP.STATUS_STATE 31) 4 |>.put (AVSL.VLIM_VMIN 31) 0x2433 |>.put (AVSL.VLIM_VMAX 31) 0x2433 : Chip) } : State), (⟨3, 0, 0x1234, 31, bytesLE 2 0x2433⟩ : Cmd), by decide +kernel⟩,
    ⟨({ chip := ((ringUp base).put (AVSL.CTRL_OWNER 31) 2 |>.put (LOOP.STATUS_STATE 31) 2 : Chip) } : State), (⟨3, 0, 0x1234, 31, bytesLE 2 0x2433⟩ : Cmd), (1 : Fin 5), by decide +kernel⟩,
    ⟨({ chip := ((ringUp base).put FW.STAT_HOLD 1 : Chip) } : State), (⟨3, 0, 0x1234, 31, bytesLE 2 0x2433⟩ : Cmd), by decide +kernel⟩,
    ⟨({ chip := ((ringUp base).put (AVSL.CTRL_OWNER 31) 0 |>.put (LOOP.STATUS_STATE 31) 2 |>.put (AVSL.CTRL_OWNER 31) 0 : Chip) } : State), (⟨3, 0, 0x1234, 31, bytesLE 4 0⟩ : Cmd), by decide +kernel⟩,
    ⟨({ chip := ((ringUp base).put (AVSL.CTRL_OWNER 31) 0 |>.put (LOOP.STATUS_STATE 31) 2 : Chip) } : State), (⟨3, 0, 0x1234, 31, bytesLE 4 0xffffffff⟩ : Cmd), by decide +kernel⟩,
    ⟨({ chip := ((ringUp base).put (FLT.ENT0_STATE 63) 0 : Chip) } : State), (⟨3, 0, 0x1234, 0, bytesLE 4 (0x40000000 + 63 * 65536 + 0x4001)⟩ : Cmd), by decide +kernel⟩,
    ⟨({ chip := ((ringUp base).put (FLT.ENT0_STATE 63) 1 |>.put (FLT.ENT0_CODE 63) 0x4001 : Chip) } : State), (⟨3, 0, 0x1234, 0, bytesLE 4 (0x40000000 + 63 * 65536 + 0x4001)⟩ : Cmd), by decide +kernel⟩,
    ⟨({ chip := ((ringUp base).put HSW.STAT_STATE 4 : Chip) } : State), (⟨3, 0, 0x1234, 0, [1]⟩ : Cmd), by decide +kernel⟩,
    ⟨({ chip := ((ringUp base).put HSW.STAT_STATE 3 |>.put (SEQD.STAT_STATE 3) 3 : Chip) } : State), (⟨3, 0, 0x1234, 3, [1]⟩ : Cmd), by decide +kernel⟩,
    ⟨({ chip := ((ringUp base).put HSW.STAT_STATE 3 |>.put FLT.STAT_SAFE 0 |>.put (SEQR.STAT_STATE 63) 0 |>.put (SEQR.CFG_DOMAIN 63) 3 |>.put (SEQD.STAT_STATE 3) 0 |>.put (SEQD.STAT_PENDST 0) 0 |>.put (SEQD.STAT_PENDST 1) 0 |>.put (SEQD.STAT_PENDST 2) 0 |>.put (SEQD.STAT_PENDST 3) 0 : Chip) } : State), (⟨3, 0, 0x1234, 3, [1]⟩ : Cmd), by decide +kernel⟩,
    ⟨({ chip := ((ringUp base).put FW.STAT_HOLD 1 : Chip) } : State), (⟨3, 0, 0x1234, 2, [4]⟩ : Cmd), by decide +kernel⟩,
    ⟨({ chip := (ringUp base : Chip) } : State), (⟨3, 0, 0x1234, 4096, bytesLE 4 0x77 ++ bytesLE 4 0 ++ bytesLE 8 0x1122334455⟩ : Cmd), by decide +kernel⟩,
    ⟨({ chip := (ringUp base : Chip) } : State), (⟨3, 0, 0x1234, 223, [31, 1, 0, 0, 0, 0, 0, 0] ++ bytesLE 8 0x1122334455⟩ : Cmd), by decide +kernel⟩,
    ⟨({ chip := (ringUp base : Chip) } : State), (⟨3, 0, 0x1234, 223, [31, 2, 0, 0, 0, 0, 0, 0] ++ bytesLE 8 0x1122334455⟩ : Cmd), by decide +kernel⟩⟩

theorem witness_RingCommandsStageCommitAndStart :
    (∃ (s : State) (c : Cmd) (l : List Byte), s.chip.serves c = true ∧ cmdClean c [(16, 8)] = true ∧ c.target.toNat / 2 ^ 20 = 0 ∧ c.target.toNat / 2 ^ 13 % 8 = 0 ∧ s.chip.stageRefusal (c.target.toNat / 2 ^ 16) (c.target.toNat % 2 ^ 13) (padTo 256 l) (BitVec.ofNat 32 (fieldLE l 256 4)) = none) ∧
    (∃ (s : State) (c : Cmd) (l : List Byte) (r : Nat), s.chip.serves c = true ∧ cmdClean c [(16, 8)] = true ∧ c.target.toNat / 2 ^ 20 = 0 ∧ c.target.toNat / 2 ^ 13 % 8 = 0 ∧ s.chip.stageRefusal (c.target.toNat / 2 ^ 16) (c.target.toNat % 2 ^ 13) (padTo 256 l) (BitVec.ofNat 32 (fieldLE l 256 4)) = some r) ∧
    (∃ (s : State) (c : Cmd), s.chip.serves c = true ∧ cmdClean c [(16, 8)] = true ∧ c.target.toNat / 2 ^ 20 = 0 ∧ c.target.toNat / 2 ^ 13 % 8 = 0) ∧
    (∃ (s : State) (c : Cmd), s.chip.serves c = true ∧ cmdClean c [(8, 8), (16, 8)] = true ∧ c.target.toNat < 2 ∧ s.chip.slotBusy c.target.toNat = false ∧ cmdArg c 12 4 % 4 = 0 ∧ 1 ≤ cmdArg c 12 4 ∧ cmdArg c 12 4 ≤ 65536 ∧ cmdArg c 8 4 + cmdArg c 12 4 ≤ 0x200000) ∧
    (∃ (s : State) (c : Cmd), s.chip.serves c = true ∧ cmdClean c [(16, 8)] = true ∧ c.target = 0) ∧
    (∃ (s : State) (c : Cmd), s.chip.serves c = true ∧ cmdClean c [(8, 1)] = true ∧ c.target = 0 ∧ cmdArg c 8 1 = 1 ∧ (s.chip.stageBusy = true ∨ s.chip.store.staged = [])) ∧
    (∃ (s : State) (c : Cmd) (pos : Nat) (r : Nat), s.chip.serves c = true ∧ cmdClean c [(8, 1)] = true ∧ c.target = 0 ∧ cmdArg c 8 1 = 1 ∧ s.chip.stageBusy = false ∧ s.chip.store.staged ≠ [] ∧ s.chip.commitFailure s.nvm = some (pos, r) ∧ r < 256 ∧ pos < 512) ∧
    (∃ (s : State) (c : Cmd), s.chip.serves c = true ∧ cmdClean c [(8, 1)] = true ∧ c.target = 0 ∧ cmdArg c 8 1 = 1 ∧ s.chip.stageBusy = false ∧ s.chip.store.staged ≠ [] ∧ s.chip.commitFailure s.nvm = none) ∧
    (∃ (s : State) (c : Cmd), s.chip.serves c = true ∧ cmdClean c [(8, 1)] = true ∧ c.target = 0 ∧ cmdArg c 8 1 = 2 ∧ s.chip.stageBusy = false) ∧
    (∃ (s : State) (c : Cmd) (l : List Byte), s.chip.serves c = true ∧ cmdClean c [(8, 8), (16, 8)] = true ∧ c.target.toNat < 2 ∧ s.chip.slotBusy c.target.toNat = false ∧ cmdArg c 12 4 % 4 = 0 ∧ 1 ≤ cmdArg c 12 4 ∧ cmdArg c 12 4 ≤ 65536 ∧ cmdArg c 8 4 + cmdArg c 12 4 ≤ 0x200000) ∧
    (∃ (s : State) (c : Cmd) (l : Option (List Byte)), s.chip.serves c = true ∧ cmdClean c [(8, 8), (16, 8)] = true ∧ c.target.toNat < 2 ∧ s.chip.slotBusy c.target.toNat = true ∧ cmdArg c 12 4 % 4 = 0 ∧ 1 ≤ cmdArg c 12 4 ∧ cmdArg c 12 4 ≤ 65536 ∧ cmdArg c 8 4 + cmdArg c 12 4 ≤ 0x200000) ∧
    (∃ (s : State) (c : Cmd), s.chip.serves c = true ∧ cmdClean c [(8, 1)] = true ∧ c.target.toNat < 2 ∧ (cmdArg c 8 1 = 0 ∨ cmdArg c 8 1 = 2) ∧ s.chip.inHold = false ∧ s.chip.authRes s.nvm c.target.toNat = 0) ∧
    (∃ (s : State) (c : Cmd), s.chip.serves c = true ∧ cmdClean c [(8, 1)] = true ∧ c.target.toNat < 2 ∧ (cmdArg c 8 1 = 0 ∨ cmdArg c 8 1 = 2) ∧ s.chip.authRes s.nvm c.target.toNat ≠ 0) ∧
    (∃ (s : State) (c : Cmd) (l : List Byte), s.chip.serves c = true ∧ cmdClean c [(16, 8)] = true ∧ c.target = 0 ∧ s.chip.boot.owner ≠ none) ∧
    (∃ (s : State) (c : Cmd) (l : List Byte), s.chip.serves c = true ∧ cmdClean c [(16, 8)] = true ∧ c.target = 0 ∧ s.chip.boot.owner = none ∧ s.chip.enrolOk (padTo 256 l) = false) ∧
    (∃ (s : State) (c : Cmd), s.chip.serves c = true ∧ cmdClean c [(8, 1)] = true ∧ c.target = 0 ∧ cmdArg c 8 1 = 0xa5 ∧ s.chip.warmRefusal = none ∧ s.chip.boot.bootsel < 2 ∧ s.chip.authRes s.nvm s.chip.boot.bootsel = 0) ∧
    (∃ (s : State) (c : Cmd), s.chip.serves c = true ∧ cmdClean c [(8, 1)] = true ∧ c.target = 0 ∧ cmdArg c 8 1 = 0xa5 ∧ s.chip.warmRefusal = none ∧ s.chip.boot.bootsel = s.chip.get FW.STAT_RUNSLOT ∧ s.chip.authRes s.nvm s.chip.boot.bootsel ≠ 0) ∧
    (∃ (s : State) (c : Cmd) (st : Nat) (d : Nat), s.chip.serves c = true ∧ cmdClean c [(8, 1)] = true ∧ c.target = 0 ∧ cmdArg c 8 1 = 0xa5 ∧ s.chip.warmRefusal = some (st, d)) ∧
    (∃ (s : State) (c : Cmd) (op : Fin 128) (j : Fin 32), s.chip.serves c = true ∧ s.chip.inHold = false ∧ s.chip.mbWaiting = none ∧ s.chip.mbState j.val = 0 ∧ (∀ i : Fin 32, i.val < j.val → s.chip.mbState i.val ≠ 0)) ∧
    (∃ (s : State) (c : Cmd) (op : Fin 128), s.chip.serves c = true ∧ s.chip.inHold = false ∧ (∀ i : Fin 32, s.chip.mbState i.val ≠ 0)) ∧
    (∃ (s : State) (c : Cmd) (op : Fin 128), s.chip.serves c = true ∧ s.chip.inHold = true) ∧
    (∃ (s : State) (r : Fin 8) (b : HostCmd) (j : Fin 32), (s.chip.rings.get r.val).busy = some b ∧ b.slot = some j.val ∧ b.irq = false ∧ b.dead = false ∧ 0x80 ≤ b.opcode ∧ b.since + 1000 * orOne (s.chip.get HIF.POLL_PTO) ≤ s.chip.now ∧ s.chip.mbState j.val = 1 ∧ s.chip.mbWaiting = none ∧ s.chip.inD0 = true ∧ s.chip.ringRuns (8 + b.cpl.val) = true ∧ (s.chip.rings.get (8 + b.cpl.val)).loss = false ∧ (s.chip.rings.get (8 + b.cpl.val)).unsig + 1 < orOne (s.chip.get (RING.MOD_MODCNT (8 + b.cpl.val)))) :=
  ⟨⟨({ chip := ({ ringUp base with store := { base.store with commit := none, jobs := [], staged := [] } } : Chip) } : State), (⟨3, 0, 0x1234, 0x60000 + 7167, List.replicate 16 0⟩ : Cmd), (List.replicate 256 7 ++ bytesLE 4 (crc32c (List.replicate 256 7)).toNat : List Byte), by decide +kernel⟩,
    ⟨({ chip := ({ ringUp base with store := { base.store with commit := none, jobs := [], staged := [] } } : Chip) } : State), (⟨3, 0, 0x1234, 0x60000 + 7168, List.replicate 16 0⟩ : Cmd), (List.replicate 256 7 ++ bytesLE 4 (crc32c (List.replicate 256 7)).toNat : List Byte), (0x11 : Nat), by decide +kernel⟩,
    ⟨({ chip := (ringUp base : Chip) } : State), (⟨3, 0, 0x1234, 0x60000, List.replicate 16 0⟩ : Cmd), by decide +kernel⟩,
    ⟨({ chip := (ringUp base : Chip) } : State), (⟨3, 0, 0x1234, 1, bytesLE 4 0x1ffffc ++ bytesLE 4 4⟩ : Cmd), by decide +kernel⟩,
    ⟨({ chip := ((ringUp base).put (RING.STAT_STATE 16) 1 |>.put (RING.CFG_LOG2N 16) 6 : Chip) } : State), (⟨3, 0, 0x1234, 0, List.replicate 16 0⟩ : Cmd), by decide +kernel⟩,
    ⟨({ chip := ({ ringUp base with store := { base.store with commit := none, jobs := [], staged := [] } } : Chip) } : State), (⟨3, 0, 0x1234, 0, [1]⟩ : Cmd), by decide +kernel⟩,
    ⟨({ chip := ({ ringUp base with store := { base.store with commit := none, jobs := [], committed := [], staged := [⟨6, 7167, 63⟩] } } : Chip) } : State), (⟨3, 0, 0x1234, 0, [1]⟩ : Cmd), (0x100 + 63 : Nat), (0x21 : Nat), by decide +kernel⟩,
    ⟨({ chip := { ringUp base with store := { base.store with commit := none, jobs := [], committed := [], staged := [⟨6, 7167, 63⟩] } }, nvm := nvmWrite [] (smFrame 63 + 256) (bytesLE 4 (crc32c (List.replicate 256 0)).toNat) } : State), (⟨3, 0, 0x1234, 0, [1]⟩ : Cmd), by decide +kernel⟩,
    ⟨({ chip := ({ ringUp base with store := { base.store with commit := none, jobs := [], staged := [⟨6, 7167, 63⟩, ⟨2, 3, 4⟩] } } : Chip) } : State), (⟨3, 0, 0x1234, 0, [2]⟩ : Cmd), by decide +kernel⟩,
    ⟨({ chip := ((ringUp base).put FW.STAT_HOLD 0 |>.put FW.STAT_START 0 |>.put FW.STAT_RUNSLOT 0 : Chip) } : State), (⟨3, 0, 0x1234, 1, bytesLE 4 0x1ffffc ++ bytesLE 4 4 ++ bytesLE 8 0x1122334455⟩ : Cmd), ([1, 2, 3, 4] : List Byte), by decide +kernel⟩,
    ⟨({ chip := ((ringUp base).put FW.STAT_HOLD 0 |>.put FW.STAT_START 0 |>.put FW.STAT_RUNSLOT 1 : Chip) } : State), (⟨3, 0, 0x1234, 1, bytesLE 4 0x1ffffc ++ bytesLE 4 4 ++ bytesLE 8 0x1122334455⟩ : Cmd), (none : Option (List Byte)), by decide +kernel⟩,
    ⟨({ chip := owned ((ringUp base).put FW.STAT_HOLD 0), nvm := testNvm } : State), (⟨3, 0, 0x1234, 1, [2]⟩ : Cmd), by decide +kernel, by decide +kernel, by decide +kernel, by decide +kernel, by decide +kernel, test_image_authentic _ rfl (by decide +kernel)⟩,
    ⟨({ chip := (ringUp base).put FW.STAT_HOLD 1, nvm := [] } : State), (⟨3, 0, 0x1234, 1, [2]⟩ : Cmd), by decide +kernel⟩,
    ⟨({ chip := ({ ringUp base with boot := { base.boot with owner := some [] } } : Chip) } : State), (⟨3, 0, 0x1234, 0, List.replicate 16 0⟩ : Cmd), ([] : List Byte), by decide +kernel⟩,
    ⟨({ chip := ({ ringUp base with boot := { base.boot with owner := none } } : Chip) } : State), (⟨3, 0, 0x1234, 0, List.replicate 16 0⟩ : Cmd), ([1, 2, 3] : List Byte), by decide +kernel⟩,
    ⟨({ chip := { owned ((ringUp base).put FW.STAT_HOLD 0 |>.put FLT.STAT_SAFE 0 |>.put FW.STAT_START 0) with boot := { owner := some testKey, bootsel := 1 } }, nvm := testNvm } : State), (⟨3, 0, 0x1234, 0, [0xa5]⟩ : Cmd), by decide +kernel, by decide +kernel, by decide +kernel, by decide +kernel, by decide +kernel, by decide +kernel, test_image_authentic _ rfl (by decide +kernel)⟩,
    ⟨({ chip := { ringUp base with boot := {} } |>.put FW.STAT_HOLD 0 |>.put FLT.STAT_SAFE 0 |>.put FW.STAT_START 0 |>.put FW.STAT_RUNSLOT 0, nvm := [] } : State), (⟨3, 0, 0x1234, 0, [0xa5]⟩ : Cmd), by decide +kernel⟩,
    ⟨({ chip := ((ringUp base).put FW.STAT_HOLD 1 : Chip) } : State), (⟨3, 0, 0x1234, 0, [0xa5]⟩ : Cmd), (7 : Nat), (0 : Nat), by decide +kernel⟩,
    ⟨({ chip := ({ (List.range 32).foldl (fun u j => u.put (mbFld false j) (if j < 31 then 1 else 0)) (ringUp base) with rings := Tbl.empty } : Chip) } : State), (⟨3, 0, 0x1234, 77, [1, 2, 3]⟩ : Cmd), (127 : Fin 128), (31 : Fin 32), by decide +kernel⟩,
    ⟨({ chip := ({ (List.range 32).foldl (fun u j => u.put (mbFld false j) 2) (ringUp base) with rings := Tbl.empty } : Chip) } : State), (⟨3, 0, 0x1234, 77, [1, 2, 3]⟩ : Cmd), (0 : Fin 128), by decide +kernel⟩,
    ⟨({ chip := ((ringUp base).put FW.STAT_HOLD 1 : Chip) } : State), (⟨3, 0, 0x1234, 77, [1, 2, 3]⟩ : Cmd), (0 : Fin 128), by decide +kernel⟩,
    ⟨({ chip := ({ (ringUp base).put (mbFld false 31) 1 |>.put (mbFld true 31) 0 |>.put HIF.POLL_PTO 0 with time := { base.time with now := 1500 }, rings := Tbl.empty.set 3 { busy := some { opcode := 0xff, tag := 0x1234, nocpl := true, irq := false, cpl := 5, desc := [1], since := 500, slot := some 31 } } |>.set 13 { reserved := 1 } } : Chip) } : State), (3 : Fin 8), ({ opcode := 0xff, tag := 0x1234, nocpl := true, irq := false, cpl := 5, desc := [1], since := 500, slot := some 31 } : HostCmd), (31 : Fin 32), by decide +kernel⟩⟩

theorem witness_PMBusReadsShowTheDevice :
    (∃ (s : State) (pec : Pec), s.chip.reqUp .pmbus = true) ∧
    (∃ (s : State) (n : LoopId) (pec : Pec), s.chip.reqUp .pmbus = true ∧ s.chip.get PMB.STAT_PAGE = n.val) ∧
    (∃ (s : State) (n : LoopId) (pec : Pec), s.chip.reqUp .pmbus = true ∧ s.chip.get PMB.STAT_PAGE = n.val ∧ ((s.chip.senseRes.get n.val).1 = 0 ∨ (s.chip.senseRes.get n.val).1 + 10000 ≤ s.chip.now)) ∧
    (∃ (s : State) (r : RailId) (pec : Pec), s.chip.reqUp .pmbus = true ∧ s.chip.get PMB.STAT_PAGE = r.val ∧ 32 ≤ r.val ∧ ((s.chip.senseRes.get r.val).1 = 0 ∨ (s.chip.senseRes.get r.val).1 + 10000 ≤ s.chip.now)) ∧
    (∃ (s : State) (r : RailId) (pec : Pec) (v : Int), s.chip.reqUp .pmbus = true ∧ s.chip.get PMB.STAT_PAGE = r.val ∧ (s.chip.senseRes.get r.val).1 ≠ 0 ∧ s.chip.now < (s.chip.senseRes.get r.val).1 + 10000 ∧ -32768 ≤ v ∧ v < 32767 ∧ v * (2 ^ (s.chip.senseRes.get r.val).2.2 * 2 ^ 23 : Nat) ≤ signedOf 24 (s.chip.senseRes.get r.val).2.1 * 20000 ∧ signedOf 24 (s.chip.senseRes.get r.val).2.1 * 20000 < (v + 1) * (2 ^ (s.chip.senseRes.get r.val).2.2 * 2 ^ 23 : Nat)) ∧
    (∃ (s : State) (pec : Pec), s.chip.reqUp .pmbus = true ∧ s.chip.get PMB.STAT_PAGE = 0x40) ∧
    (∃ (s : State) (n : LoopId) (pec : Pec) (v : Int), s.chip.reqUp .pmbus = true ∧ s.chip.get PMB.STAT_PAGE = n.val ∧ s.chip.hotStage n.val = some v) ∧
    (∃ (s : State) (r : RailId) (pec : Pec), s.chip.reqUp .pmbus = true ∧ s.chip.get PMB.STAT_PAGE = r.val) ∧
    (∃ (s : State) (q : Fin 65), s.chip.reqUp .pmbus = true ∧ s.chip.get PMB.STAT_PAGE = q.val) ∧
    (∃ (s : State) (q : Fin 65) (code : Fin 9) (other : Option Byte), s.chip.reqUp .pmbus = true ∧ s.chip.get PMB.STAT_PAGE = q.val ∧ (code = 7 ∨ other.isSome = true)) ∧
    (∃ (s : State) (pec : Pec), s.chip.reqUp .pmbus = true ∧ 0x40 ≤ s.chip.get PMB.STAT_PAGE) ∧
    (∃ (s : State) (dieOk : Bool), s.chip.reqUp .pmbus = true ∧ (dieOk = true ∨ s.chip.dieAccess s.chip.pmb.regAddr = false) ∧ s.chip.pmb.regAddr % 4 = 0 ∧ inMailbox s.chip.pmb.regAddr = false ∧ s.chip.offAt s.chip.pmb.regAddr = false ∧ s.chip.pmb.regAddr ∉ snapWords ∧ (∀ x ∈ snapPairs, x.1 ≠ s.chip.pmb.regAddr) ∧ inPP s.chip.pmb.regAddr = false ∧ s.chip.pmb.regAddr ≠ NVM.RDDATA) ∧
    (∃ (s : State), s.chip.reqUp .pmbus = true ∧ s.chip.dieAccess s.chip.pmb.regAddr = true ∧ s.chip.pmb.regAddr % 4 = 0) ∧
    (∃ (s : State), s.chip.reqUp .pmbus = true) :=
  ⟨⟨({ chip := ((up base).put PMB.STAT_PAGE 0xff : Chip) } : State), (.none : Pec), by decide +kernel⟩,
    ⟨({ chip := ((up base).put PMB.STAT_PAGE 31 : Chip) } : State), (31 : LoopId), (.none : Pec), by decide +kernel⟩,
    ⟨({ chip := ({ (up base).put PMB.STAT_PAGE 31 with senseRes := base.senseRes.set 31 (0, 0, 0) } : Chip) } : State), (31 : LoopId), (.none : Pec), by decide +kernel⟩,
    ⟨({ chip := ({ (up base).put PMB.STAT_PAGE 63 with senseRes := base.senseRes.set 63 (0, 0, 0) } : Chip) } : State), (63 : RailId), (.none : Pec), by decide +kernel⟩,
    ⟨({ chip := ({ (up base).put PMB.STAT_PAGE 63 with senseRes := base.senseRes.set 63 (99, 0x7fffff, 1), time := { base.time with now := 10098 } } : Chip) } : State), (63 : RailId), (.none : Pec), (9999 : Int), by decide +kernel⟩,
    ⟨({ chip := ((up base).put PMB.STAT_PAGE 0x40 : Chip) } : State), (.bad : Pec), by decide +kernel⟩,
    ⟨({ chip := ({ (up base).put PMB.STAT_PAGE 31 |>.put (STB.STG_TEMP 7 31) 2047 |>.put (STB.STG_TEMP 1 0) 5 with loopPh := base.loopPh.upd 31 (fun h => { h with act := [0, 223] }) } : Chip) } : State), (31 : LoopId), (.none : Pec), (2047 : Int), by decide +kernel⟩,
    ⟨({ chip := ((up base).put PMB.STAT_PAGE 63 |>.put (SEQR.STAT_STATE 63) 4 : Chip) } : State), (63 : RailId), (.none : Pec), by decide +kernel⟩,
    ⟨({ chip := ((up base).put PMB.STAT_PAGE 0x40 : Chip) } : State), (64 : Fin 65), by decide +kernel⟩,
    ⟨({ chip := ((up base).put PMB.STAT_PAGE 0x40 : Chip) } : State), (64 : Fin 65), (7 : Fin 9), (none : Option Byte), by decide +kernel⟩,
    ⟨({ chip := ((up base).put PMB.STAT_PAGE 0x40 : Chip) } : State), (.good : Pec), by decide +kernel⟩,
    ⟨({ chip := ({ up base with pmb := { base.pmb with regAddr := 0x26000 } } : Chip) } : State), (true : Bool), by decide +kernel⟩,
    ⟨({ chip := ({ up base with pmb := { base.pmb with regAddr := 0x100000 } } : Chip) } : State), by decide +kernel⟩,
    ⟨({ chip := ((up base).put PMB.STAT_ALERT 1 : Chip) } : State), by decide +kernel⟩⟩

theorem witness_PMBusWritesAreCheckedAndCarriedOut :
    (∃ (s : State) (v : Byte), s.chip.reqUp .pmbus = true ∧ (s.chip.get PMB.STAT_PAGE ≤ 0x40 ∨ s.chip.get PMB.STAT_PAGE = 0xff)) ∧
    (∃ (s : State) (v : Byte), s.chip.get PMB.CFG_PECREQ = 1) ∧
    (∃ (s : State) (n : Fin 65) (v : BitVec 16), s.chip.reqUp .pmbus = true ∧ s.chip.get PMB.STAT_PAGE = n.val ∧ (s.chip.get PMB.STAT_WP = 0x80 ∨ s.chip.get PMB.STAT_WP = 0x40)) ∧
    (∃ (s : State) (v : Byte), s.chip.reqUp .pmbus = true ∧ s.chip.get PMB.STAT_WP ≠ 0x80 ∧ (s.chip.get PMB.STAT_WP = 0 ∨ s.chip.get PMB.STAT_WP = 0x20 ∨ s.chip.get PMB.STAT_WP = 0x40) ∧ (v.toNat ≤ 0x40 ∨ v.toNat = 0xff)) ∧
    (∃ (s : State) (v : Byte), s.chip.reqUp .pmbus = true ∧ (s.chip.get PMB.STAT_PAGE ≤ 0x40 ∨ s.chip.get PMB.STAT_PAGE = 0xff) ∧ (s.chip.get PMB.STAT_WP = 0 ∨ s.chip.get PMB.STAT_WP = 0x20) ∧ 0x40 < v.toNat ∧ v.toNat ≠ 0xff) ∧
    (∃ (s : State) (v : Byte), s.chip.reqUp .pmbus = true ∧ (v = 0x80 ∨ v = 0x40 ∨ v = 0x20 ∨ v = 0)) ∧
    (∃ (s : State) (p : RailId) (v : Byte), s.chip.reqUp .pmbus = true ∧ s.chip.get PMB.STAT_PAGE = p.val) ∧
    (∃ (s : State) (q : Fin 65), s.chip.reqUp .pmbus = true ∧ s.chip.get PMB.STAT_PAGE = q.val ∧ s.chip.get PMB.STAT_WP = 0 ∧ s.chip.faultLow = false) ∧
    (∃ (s : State) (q : Fin 65) (code : Fin 9) (v : Byte) (j : Nat), s.chip.reqUp .pmbus = true ∧ s.chip.get PMB.STAT_PAGE = q.val ∧ s.chip.get PMB.STAT_WP = 0 ∧ s.chip.faultLow = false ∧ statusByte code.val = some j) ∧
    (∃ (s : State) (q : Fin 65) (code : Fin 9) (v : Byte) (other : Option Byte), s.chip.reqUp .pmbus = true ∧ s.chip.get PMB.STAT_PAGE = q.val ∧ (code = 7 ∨ other.isSome = true)) ∧
    (∃ (s : State) (n : LoopId) (v : BitVec 16), s.chip.reqUp .pmbus = true ∧ s.chip.get PMB.STAT_PAGE = n.val ∧ (s.chip.get PMB.STAT_WP = 0 ∨ s.chip.get PMB.STAT_WP = 0x20) ∧ s.chip.get (AVSL.CTRL_OWNER n.val) = 2 ∧ s.chip.loopState n.val = 2 ∧ s.chip.get (AVSL.VLIM_VMIN n.val) ≤ v.toNat ∧ v.toNat ≤ s.chip.get (AVSL.VLIM_VMAX n.val)) ∧
    (∃ (s : State) (n : LoopId) (v : BitVec 16), s.chip.reqUp .pmbus = true ∧ s.chip.get PMB.STAT_PAGE = n.val ∧ (s.chip.get PMB.STAT_WP = 0 ∨ s.chip.get PMB.STAT_WP = 0x20) ∧ s.chip.get (AVSL.CTRL_OWNER n.val) ≠ 2) ∧
    (∃ (s : State) (q : Fin 65) (v : BitVec 16), s.chip.reqUp .pmbus = true ∧ s.chip.get PMB.STAT_PAGE = q.val ∧ 32 ≤ q.val ∧ s.chip.get PMB.STAT_WP = 0) ∧
    (∃ (s : State) (n : LoopId) (v : BitVec 16), s.chip.reqUp .pmbus = true ∧ s.chip.get PMB.STAT_PAGE = n.val ∧ (s.chip.get PMB.STAT_WP = 0 ∨ s.chip.get PMB.STAT_WP = 0x20) ∧ s.chip.get (AVSL.CTRL_OWNER n.val) = 2 ∧ (s.chip.loopState n.val = 2 ∨ s.chip.loopState n.val = 4) ∧ v.toNat < 1024 ∧ max 1 (1000 * v.toNat) ≤ s.chip.slewMax n.val) ∧
    (∃ (s : State) (v : Word), s.chip.reqUp .pmbus = true ∧ s.chip.get PMB.STAT_WP = 0 ∧ v.toNat % 4 = 0) ∧
    (∃ (s : State) (v : Word), s.chip.reqUp .pmbus = true ∧ s.chip.get PMB.STAT_PAGE ≤ 0x40 ∧ s.chip.get PMB.STAT_WP = 0 ∧ v.toNat % 4 ≠ 0) ∧
    (∃ (s : State) (v : Word) (dieOk : Bool) (cold : ColdIn), s.chip.reqUp .pmbus = true ∧ s.chip.flt.coldHeld = false ∧ s.chip.get PMB.STAT_WP = 0 ∧ s.chip.get PMB.CFG_REGWEN = 1 ∧ s.chip.get ACC.ACCST_LOCKED = 0 ∧ fieldsOnly s.chip.pmb.regAddr = true ∧ (regAt s.chip.pmb.regAddr).isSome = true ∧ s.chip.offAt s.chip.pmb.regAddr = false ∧ s.chip.pmb.regAddr % 4 = 0 ∧ (cntClears s.chip.pmb.regAddr).isNone = true ∧ accMask s.chip.pmb.regAddr (· == .w1c) = 0) ∧
    (∃ (s : State) (v : Word) (dieOk : Bool) (cold : ColdIn), s.chip.reqUp .pmbus = true ∧ s.chip.flt.coldHeld = false ∧ s.chip.get PMB.STAT_WP = 0 ∧ s.chip.get PMB.CFG_REGWEN = 0) ∧
    (∃ (s : State) (v : Word), s.chip.reqUp .pmbus = true ∧ s.chip.get PMB.STAT_WP = 0 ∧ v.toNat / 2 ^ 30 = 1 ∧ s.chip.get (FLT.ENT0_STATE (v.toNat / 2 ^ 16 % 64)) ≠ 0 ∧ s.chip.get (FLT.ENT0_CODE (v.toNat / 2 ^ 16 % 64)) = v.toNat % 2 ^ 16 ∧ codeCls (v.toNat % 2 ^ 16) < 3) ∧
    (∃ (s : State) (v : Byte), s.chip.reqUp .pmbus = true ∧ s.chip.get PMB.STAT_WP = 0 ∧ v.toNat / 4 = 1 ∧ s.chip.mayStart = true ∧ s.chip.get (SEQD.STAT_STATE (v.toNat % 4)) = 3) ∧
    (∃ (s : State) (v : Byte), s.chip.reqUp .pmbus = true ∧ s.chip.get PMB.STAT_WP = 0 ∧ v.toNat / 4 = 1 ∧ s.chip.mayStart = true ∧ s.chip.get (SEQD.STAT_STATE (v.toNat % 4)) ≠ 3 ∧ s.chip.get (SEQD.STAT_STATE (v.toNat % 4)) ≠ 4 ∧ (∀ k : DomainId, s.chip.get (SEQD.STAT_PENDST k.val) = 0)) ∧
    (∃ (s : State), s.chip.reqUp .pmbus = true) :=
  ⟨⟨({ chip := ((up base).put PMB.STAT_PAGE 0x40 : Chip) } : State), (3 : Byte), by decide +kernel⟩,
    ⟨({ chip := ((up base).rawCfg 0x20000 rfl : Chip) } : State), (3 : Byte), by decide +kernel⟩,
    ⟨({ chip := ((up base).put PMB.STAT_WP 0x80 |>.put PMB.STAT_PAGE 31 : Chip) } : State), (31 : Fin 65), (3 : BitVec 16), by decide +kernel⟩,
    ⟨({ chip := ((up base).put PMB.STAT_WP 0x40 : Chip) } : State), (0x40 : Byte), by decide +kernel⟩,
    ⟨({ chip := ((up base).put PMB.STAT_WP 0x20 |>.put PMB.STAT_PAGE 0xff : Chip) } : State), (0x41 : Byte), by decide +kernel⟩,
    ⟨({ chip := ((up base).put PMB.STAT_WP 0x80 : Chip) } : State), (0x20 : Byte), by decide +kernel⟩,
    ⟨({ chip := ((up base).put PMB.STAT_WP 0 |>.put PMB.STAT_PAGE 63 : Chip) } : State), (63 : RailId), (0x80 : Byte), by decide +kernel⟩,
    ⟨({ chip := ({ ((List.range 64).foldl (fun u i => u.put (FLT.ENT0_STATE i) 0) (up base)).put FLTA.F4_CODE 0 |>.put FLT.LATCH3_CODE 0 |>.put THMA.SDSTAT_STATE 0 |>.put FLT.STAT_SAFE 0 |>.put FW.STAT_HOLD 0 |>.put PMB.STAT_PAGE 0x40 with flt := { base.flt with unloaded := false } } : Chip) } : State), (0x40 : Fin 65), by decide +kernel⟩,
    ⟨({ chip := ({ ((List.range 64).foldl (fun u i => u.put (FLT.ENT0_STATE i) 0) (up base)).put FLTA.F4_CODE 0 |>.put FLT.LATCH3_CODE 0 |>.put THMA.SDSTAT_STATE 0 |>.put FLT.STAT_SAFE 0 |>.put FW.STAT_HOLD 0 |>.put PMB.STAT_PAGE 0x40 with flt := { base.flt with unloaded := false }, pmb := { base.pmb with status := Tbl.empty.set 17 (2 ^ 64) |>.set 23 (2 ^ 64 + 1) } } : Chip) } : State), (0x40 : Fin 65), (4 : Fin 9), (0x80 : Byte), (2 : Nat), by decide +kernel⟩,
    ⟨({ chip := ((up base).put PMB.STAT_PAGE 3 : Chip) } : State), (3 : Fin 65), (2 : Fin 9), (0xff : Byte), (some 0xfe : Option Byte), by decide +kernel⟩,
    ⟨({ chip := ((up base).put PMB.STAT_PAGE 31 |>.put PMB.STAT_WP 0x20 |>.put (AVSL.CTRL_OWNER 31) 2 |>.put (LOOP.STATUS_STATE 31) 2 |>.put (AVSL.VLIM_VMIN 31) 0x2433 |>.put (AVSL.VLIM_VMAX 31) 0x2433 : Chip) } : State), (31 : LoopId), (0x2433 : BitVec 16), by decide +kernel⟩,
    ⟨({ chip := ((up base).put PMB.STAT_PAGE 31 |>.put PMB.STAT_WP 0x20 |>.put (AVSL.CTRL_OWNER 31) 0 : Chip) } : State), (31 : LoopId), (0x2433 : BitVec 16), by decide +kernel⟩,
    ⟨({ chip := ((up base).put PMB.STAT_PAGE 0x40 |>.put PMB.STAT_WP 0 : Chip) } : State), (64 : Fin 65), (0x2433 : BitVec 16), by decide +kernel⟩,
    ⟨({ chip := ((up base).put PMB.STAT_PAGE 31 |>.put PMB.STAT_WP 0x20 |>.put (AVSL.CTRL_OWNER 31) 2 |>.put (LOOP.STATUS_STATE 31) 2 : Chip) } : State), (31 : LoopId), (0 : BitVec 16), by decide +kernel⟩,
    ⟨({ chip := ((up base).put PMB.STAT_WP 0 : Chip) } : State), (0xfffffffc : Word), by decide +kernel⟩,
    ⟨({ chip := ((up base).put PMB.STAT_WP 0 |>.put PMB.STAT_PAGE 5 : Chip) } : State), (2 : Word), by decide +kernel⟩,
    ⟨({ chip := ({ (up base).put PMB.STAT_WP 0 |>.rawCfg 0x40000 rfl |>.put ACC.ACCST_LOCKED 0 with pmb := { base.pmb with regAddr := 0x26000 }, flt := { base.flt with coldHeld := false } } : Chip) } : State), (0x12345678 : Word), (true : Bool), (⟨true, true, true, 256⟩ : ColdIn), by decide +kernel⟩,
    ⟨({ chip := ({ (up base).put PMB.STAT_WP 0 |>.rawCfg 0x0 rfl with flt := { base.flt with coldHeld := false } } : Chip) } : State), (0x12345678 : Word), (true : Bool), (⟨true, true, true, 256⟩ : ColdIn), by decide +kernel⟩,
    ⟨({ chip := ((up base).put PMB.STAT_WP 0 |>.put (FLT.ENT0_STATE 63) 1 |>.put (FLT.ENT0_CODE 63) 0x4001 : Chip) } : State), (0x40000000 + 63 * 65536 + 0x4001 : Word), by decide +kernel⟩,
    ⟨({ chip := ((up base).put PMB.STAT_WP 0 |>.put HSW.STAT_STATE 3 |>.put FLT.STAT_SAFE 0 |>.put (SEQD.STAT_STATE 3) 3 : Chip) } : State), (7 : Byte), by decide +kernel⟩,
    ⟨({ chip := ((up base).put PMB.STAT_WP 0 |>.put HSW.STAT_STATE 3 |>.put FLT.STAT_SAFE 0 |>.put (SEQR.STAT_STATE 63) 0 |>.put (SEQR.CFG_DOMAIN 63) 3 |>.put (SEQD.STAT_STATE 3) 0 |>.put (SEQD.STAT_PENDST 0) 0 |>.put (SEQD.STAT_PENDST 1) 0 |>.put (SEQD.STAT_PENDST 2) 0 |>.put (SEQD.STAT_PENDST 3) 0 : Chip) } : State), (7 : Byte), by decide +kernel⟩,
    ⟨({ chip := (up base : Chip) } : State), by decide +kernel⟩⟩

theorem witness_MctpMessagesAreReassembledAndAnswered :
    (∃ (s : State) (b : Fin 2) (src : Byte) (dest : Byte) (seq : Fin 4) (tag : Fin 16) (pl : List Byte), s.chip.mctpUp = true ∧ s.chip.get HIF.STAT_LINKUP = 1 ∧ (dest.toNat = s.chip.get PMB.STAT_EID ∨ dest = 0 ∨ dest = 0xff) ∧ pl.length ≤ 64 ∧ s.chip.mctp.parts = [] ∧ (⟨b.val, src.toNat, tag.val, pl⟩ : MctpMsg).kind ≠ none) ∧
    (∃ (s : State) (b : Fin 2) (src : Byte) (seq : Fin 4) (tag : Fin 16) (pl : List Byte), s.chip.mctpUp = true ∧ s.chip.get HIF.STAT_LINKUP = 1 ∧ pl.length ≤ 64 ∧ (∀ p ∈ s.chip.mctp.parts, p.binding ≠ b.val ∨ p.src ≠ src.toNat ∨ p.tag ≠ tag.val) ∧ s.chip.mctp.parts.length < 4) ∧
    (∃ (s : State) (p : MctpPart) (pl : List Byte), s.chip.mctpUp = true ∧ s.chip.get HIF.STAT_LINKUP = 1 ∧ s.chip.mctp.parts = [p] ∧ p.binding < 2 ∧ p.src < 256 ∧ p.tag < 16 ∧ p.seq < 4 ∧ pl.length ≤ 64 ∧ (p.body ++ pl).length ≤ 4096 ∧ (⟨p.binding, p.src, p.tag, p.body ++ pl⟩ : MctpMsg).kind ≠ none) ∧
    (∃ (s : State) (p : MctpPart) (pl : List Byte) (seq : Fin 4) (eom : Bool), s.chip.mctpUp = true ∧ s.chip.get HIF.STAT_LINKUP = 1 ∧ s.chip.mctp.parts = [p] ∧ p.binding < 2 ∧ p.src < 256 ∧ p.tag < 16 ∧ pl.length ≤ 64 ∧ (p.seq ≠ seq.val ∨ 4096 < (p.body ++ pl).length)) ∧
    (∃ (s : State) (b : Fin 2) (src : Byte) (seq : Fin 4) (tag : Fin 16) (pl : List Byte), s.chip.mctpUp = true ∧ s.chip.get HIF.STAT_LINKUP = 1 ∧ pl.length ≤ 64 ∧ (∀ p ∈ s.chip.mctp.parts, p.binding ≠ b.val ∨ p.src ≠ src.toNat ∨ p.tag ≠ tag.val) ∧ s.chip.mctp.parts.length = 4) ∧
    (∃ (s : State) (b : Fin 2) (src : Byte) (dest : Byte) (som : Bool) (eom : Bool) (seq : Fin 4) (tag : Fin 16) (pl : List Byte), (s.chip.mctpUp = false ∨ dest.toNat ≠ s.chip.get PMB.STAT_EID ∧ dest ≠ 0 ∧ dest ≠ 0xff)) ∧
    (∃ (s : State) (b : Fin 2) (src : Byte) (seq : Fin 4) (tag : Fin 16) (x : Byte) (cmd : Byte), s.chip.mctpUp = true ∧ s.chip.get HIF.STAT_LINKUP = 1 ∧ s.chip.mctp.parts = [] ∧ 128 ≤ x.toNat ∧ (cmd = 0 ∨ 5 < cmd.toNat)) ∧
    (∃ (s : State) (k : Nat) (q : MctpMsg), s.chip.mctpUp = true ∧ s.chip.mctp.inbox[k]? = some q ∧ q.kind = some 1 ∧ q.body.length = 5 ∧ s.chip.get PMB.CFG_SEID = 0 ∧ q.at 3 % 4 < 2 ∧ 1 ≤ q.at 4 ∧ q.at 4 < 0xff) ∧
    (∃ (s : State) (k : Nat) (q : MctpMsg), s.chip.mctpUp = true ∧ s.chip.mctp.inbox[k]? = some q ∧ q.kind = some 1 ∧ q.body.length = 5 ∧ s.chip.get PMB.CFG_SEID ≠ 0) ∧
    (∃ (s : State) (k : Nat) (q : MctpMsg), s.chip.mctpUp = true ∧ s.chip.mctp.inbox[k]? = some q ∧ q.kind = some 2 ∧ q.body.length = 3) ∧
    (∃ (s : State) (k : Nat) (q : MctpMsg), s.chip.mctpUp = true ∧ s.chip.mctp.inbox[k]? = some q ∧ q.kind = some 3 ∧ q.body.length = 3) ∧
    (∃ (s : State) (k : Nat) (q : MctpMsg), s.chip.mctpUp = true ∧ s.chip.mctp.inbox[k]? = some q ∧ q.kind = some 4 ∧ q.body.length = 4) ∧
    (∃ (s : State) (k : Nat) (q : MctpMsg), s.chip.mctpUp = true ∧ s.chip.mctp.inbox[k]? = some q ∧ q.kind = some 5 ∧ q.body.length = 3) ∧
    (∃ (s : State) (k : Nat) (q : MctpMsg), s.chip.mctpUp = true ∧ s.chip.mctp.inbox[k]? = some q ∧ q.kind = some 5 ∧ q.body.length ≠ 3) ∧
    (∃ (s : State) (k : Nat) (q : MctpMsg) (n : Nat), s.chip.mctpUp = true ∧ s.chip.mctp.inbox[k]? = some q ∧ q.kind = some 0x100 ∧ q.body.length = 4 + 4 * n ∧ 1 ≤ n ∧ n ≤ 32 ∧ (∀ i ∈ List.range n, let o := fieldLE (q.body.drop 4) (4 * i) 4; offsetOk o = true ∧ inMailbox o = false ∧ s.chip.offAt o = false ∧ o ∉ snapWords ∧ (∀ x ∈ snapPairs, x.1 ≠ o) ∧ inPP o = false ∧ o ≠ NVM.RDDATA)) ∧
    (∃ (s : State) (k : Nat) (q : MctpMsg) (fail : Option (Fin 32)) (code : Fin 3), s.chip.mctpUp = true ∧ s.chip.mctp.inbox[k]? = some q ∧ q.kind = some 0x100 ∧ (code = 1 ∧ q.body.length % 4 = 0 ∧ 8 ≤ q.body.length ∧ q.body.length ≤ 132 ∧ offsetOk (fieldLE (q.body.drop 4) 0 4) = false ∨ code = 2 ∧ (q.body.length % 4 ≠ 0 ∨ q.body.length = 4 ∨ 132 < q.body.length))) ∧
    (∃ (s : State) (k : Nat), s.chip.mctp.inbox.length ≤ k) :=
  ⟨⟨({ chip := ({ (up base).rawCfg 0x10000 rfl |>.put PMB.STAT_EID 9 with mctp := { inbox := [⟨1, 5, 4, [0, 0x80, 3]⟩] } } : Chip) } : State), (0 : Fin 2), (8 : Byte), (9 : Byte), (2 : Fin 4), (15 : Fin 16), ([0, 0x85, 2] : List Byte), by decide +kernel⟩,
    ⟨({ chip := ({ (up base).rawCfg 0x10000 rfl |>.put PMB.STAT_EID 9 with mctp := { parts := [⟨1, 5, 4, 0, []⟩, ⟨0, 8, 14, 0, []⟩, ⟨0, 7, 15, 0, []⟩] } } : Chip) } : State), (0 : Fin 2), (8 : Byte), (3 : Fin 4), (15 : Fin 16), (List.replicate 64 1 : List Byte), by decide +kernel⟩,
    ⟨({ chip := ({ (up base).rawCfg 0x10000 rfl |>.put PMB.STAT_EID 9 with mctp := { parts := [⟨0, 8, 15, 0, [0, 0x85]⟩] } } : Chip) } : State), (⟨0, 8, 15, 0, [0, 0x85]⟩ : MctpPart), ([2] : List Byte), by decide +kernel⟩,
    ⟨({ chip := ({ (up base).rawCfg 0x10000 rfl |>.put PMB.STAT_EID 9 with mctp := { parts := [⟨0, 8, 15, 0, [0, 0x85]⟩] } } : Chip) } : State), (⟨0, 8, 15, 0, [0, 0x85]⟩ : MctpPart), ([2] : List Byte), (1 : Fin 4), (true : Bool), by decide +kernel⟩,
    ⟨({ chip := ({ (up base).rawCfg 0x10000 rfl |>.put PMB.STAT_EID 9 with mctp := { parts := [⟨1, 5, 4, 0, []⟩, ⟨0, 8, 14, 0, []⟩, ⟨0, 7, 15, 0, []⟩, ⟨1, 8, 15, 0, []⟩] } } : Chip) } : State), (0 : Fin 2), (8 : Byte), (3 : Fin 4), (15 : Fin 16), (List.replicate 64 1 : List Byte), by decide +kernel⟩,
    ⟨({ chip := ((up base).rawCfg 0x10000 rfl |>.put PMB.STAT_EID 9 : Chip) } : State), (0 : Fin 2), (8 : Byte), (10 : Byte), (true : Bool), (true : Bool), (3 : Fin 4), (15 : Fin 16), ([0, 0x85, 2] : List Byte), by decide +kernel⟩,
    ⟨({ chip := ({ (up base).rawCfg 0x10000 rfl |>.put PMB.STAT_EID 9 with mctp := {} } : Chip) } : State), (0 : Fin 2), (8 : Byte), (2 : Fin 4), (15 : Fin 16), (0x85 : Byte), (6 : Byte), by decide +kernel⟩,
    ⟨({ chip := ({ (up base).rawCfg 0x10000 rfl with mctp := { inbox := [⟨1, 5, 4, []⟩, ⟨0, 8, 14, [0, 0x85, 1, 0, 0xfe]⟩] } } : Chip) } : State), (1 : Nat), (⟨0, 8, 14, [0, 0x85, 1, 0, 0xfe]⟩ : MctpMsg), by decide +kernel⟩,
    ⟨({ chip := ({ (up base).rawCfg 0x10700 rfl with mctp := { inbox := [⟨0, 8, 14, [0, 0x85, 1, 0, 0xfe]⟩] } } : Chip) } : State), (0 : Nat), (⟨0, 8, 14, [0, 0x85, 1, 0, 0xfe]⟩ : MctpMsg), by decide +kernel⟩,
    ⟨({ chip := ({ (up base).rawCfg 0x10700 rfl |>.put PMB.STAT_EID 7 with mctp := { inbox := [⟨0, 8, 14, [0, 0x85, 2]⟩] } } : Chip) } : State), (0 : Nat), (⟨0, 8, 14, [0, 0x85, 2]⟩ : MctpMsg), by decide +kernel⟩,
    ⟨({ chip := ({ (up base).rawCfg 0x10000 rfl with mctp := { inbox := [⟨0, 8, 14, [0, 0x85, 3]⟩] } } : Chip) } : State), (0 : Nat), (⟨0, 8, 14, [0, 0x85, 3]⟩ : MctpMsg), by decide +kernel⟩,
    ⟨({ chip := ({ (up base).rawCfg 0x10000 rfl with mctp := { inbox := [⟨0, 8, 14, [0, 0x85, 4, 0xff]⟩] } } : Chip) } : State), (0 : Nat), (⟨0, 8, 14, [0, 0x85, 4, 0xff]⟩ : MctpMsg), by decide +kernel⟩,
    ⟨({ chip := ({ (up base).rawCfg 0x10000 rfl with mctp := { inbox := [⟨0, 8, 14, [0, 0x85, 5]⟩] } } : Chip) } : State), (0 : Nat), (⟨0, 8, 14, [0, 0x85, 5]⟩ : MctpMsg), by decide +kernel⟩,
    ⟨({ chip := ({ (up base).rawCfg 0x10000 rfl with mctp := { inbox := [⟨0, 8, 14, [0, 0x85, 5, 9]⟩] } } : Chip) } : State), (0 : Nat), (⟨0, 8, 14, [0, 0x85, 5, 9]⟩ : MctpMsg), by decide +kernel⟩,
    ⟨({ chip := ({ (up base).rawCfg 0x10000 rfl with mctp := { inbox := [⟨0, 8, 14, [0x7e, 0x1e, 0x3c, 1] ++ bytesLE 4 0x25000 ++ bytesLE 4 0x1ffffc⟩] } } : Chip) } : State), (0 : Nat), (⟨0, 8, 14, [0x7e, 0x1e, 0x3c, 1] ++ bytesLE 4 0x25000 ++ bytesLE 4 0x1ffffc⟩ : MctpMsg), (2 : Nat), by decide +kernel⟩,
    ⟨({ chip := ({ (up base).rawCfg 0x10000 rfl with mctp := { inbox := [⟨0, 8, 14, [0x7e, 0x1e, 0x3c, 1] ++ bytesLE 4 0x26002⟩] } } : Chip) } : State), (0 : Nat), (⟨0, 8, 14, [0x7e, 0x1e, 0x3c, 1] ++ bytesLE 4 0x26002⟩ : MctpMsg), (none : Option (Fin 32)), (1 : Fin 3), by decide +kernel⟩,
    ⟨({ chip := ({ (up base) with mctp := {} } : Chip) } : State), (0 : Nat), by decide +kernel⟩⟩

theorem witness_SpdmAnswersItsRequests :
    (∃ (s : State) (k : Nat) (q : MctpMsg), s.chip.mctpUp = true ∧ s.chip.mctp.inbox[k]? = some q ∧ q.kind = some 0x284 ∧ q.at 1 = 0x10) ∧
    (∃ (s : State) (k : Nat) (q : MctpMsg), s.chip.mctpUp = true ∧ s.chip.mctp.inbox[k]? = some q ∧ q.kind = some 0x284 ∧ q.at 1 ≠ 0x10) ∧
    (∃ (s : State) (k : Nat) (q : MctpMsg), s.chip.mctpUp = true ∧ s.chip.mctp.inbox[k]? = some q ∧ q.kind = some 0x2e1 ∧ q.at 1 = 0x12 ∧ (s.chip.spdm q).stage = 1 ∧ 20 ≤ q.spdm.length ∧ 42 ≤ fieldLE q.spdm 12 4 ∧ fieldLE q.spdm 12 4 ≤ fieldLE q.spdm 16 4) ∧
    (∃ (s : State) (k : Nat) (q : MctpMsg), s.chip.mctpUp = true ∧ s.chip.mctp.inbox[k]? = some q ∧ q.kind = some 0x2e1 ∧ q.at 1 = 0x12 ∧ (s.chip.spdm q).stage ≠ 1) ∧
    (∃ (s : State) (k : Nat) (q : MctpMsg), s.chip.mctpUp = true ∧ s.chip.mctp.inbox[k]? = some q ∧ q.kind = some 0x2e3 ∧ q.at 1 = 0x12 ∧ (s.chip.spdm q).stage = 2 ∧ 32 ≤ q.spdm.length ∧ bitAt (fieldLE q.spdm 6 1) 0 = true ∧ bitAt (fieldLE q.spdm 8 4) 7 = true ∧ bitAt (fieldLE q.spdm 12 4) 1 = true) ∧
    (∃ (s : State) (k : Nat) (q : MctpMsg), s.chip.mctpUp = true ∧ s.chip.mctp.inbox[k]? = some q ∧ q.kind = some 0x281 ∧ q.at 1 = 0x12 ∧ (s.chip.spdm q).stage = 3 ∧ 52 ≤ (s.chip.spdm q).size) ∧
    (∃ (s : State) (k : Nat) (q : MctpMsg), s.chip.mctpUp = true ∧ s.chip.mctp.inbox[k]? = some q ∧ q.kind = some 0x282 ∧ q.at 1 = 0x12 ∧ (s.chip.spdm q).stage = 3 ∧ (s.chip.spdm q).chunks = false ∧ 42 ≤ (s.chip.spdm q).size ∧ 8 ≤ q.spdm.length ∧ q.at 3 % 16 = 0) ∧
    (∃ (s : State) (k : Nat) (q : MctpMsg), s.chip.mctpUp = true ∧ s.chip.mctp.inbox[k]? = some q ∧ q.kind = some 0x283 ∧ q.at 1 = 0x12 ∧ (s.chip.spdm q).stage = 3 ∧ 36 ≤ q.spdm.length ∧ q.at 3 = 0 ∧ q.at 4 = 0) ∧
    (∃ (s : State) (k : Nat) (q : MctpMsg), s.chip.mctpUp = true ∧ s.chip.mctp.inbox[k]? = some q ∧ q.kind = some 0x2e0 ∧ q.at 1 = 0x12 ∧ (s.chip.spdm q).stage = 3 ∧ 100 ≤ (s.chip.spdm q).size ∧ q.at 3 % 2 = 0 ∧ q.at 4 = 6) ∧
    (∃ (s : State) (k : Nat) (q : MctpMsg), s.chip.mctpUp = true ∧ s.chip.mctp.inbox[k]? = some q ∧ q.kind = some 0x2e0 ∧ q.at 1 = 0x12 ∧ (s.chip.spdm q).stage = 3 ∧ q.at 3 % 2 = 1 ∧ q.at 4 = 0 ∧ 37 ≤ q.spdm.length ∧ q.at 37 % 16 = 0) ∧
    (∃ (s : State) (j : SignJob) (l : List SignJob), s.chip.mctpUp = true ∧ s.chip.mctp.signing = j :: l ∧ j.body.length + 96 ≤ (s.chip.mctp.spdm.get j.binding).size) ∧
    (∃ (s : State), s.chip.mctp.signing = []) ∧
    (∃ (s : State) (k : Nat) (q : MctpMsg) (r : List Byte), s.chip.mctpUp = true ∧ s.chip.mctp.inbox[k]? = some q ∧ q.kind = some 0x286 ∧ q.at 1 = 0x12 ∧ (s.chip.spdm q).stage = 3 ∧ 6 ≤ q.spdm.length ∧ (s.chip.spdm q).large = some r ∧ q.at 4 = (s.chip.spdm q).handle ∧ fieldLE q.spdm 4 2 = (s.chip.spdm q).chunk ∧ (s.chip.spdm q).chunk ≠ 0 ∧ (s.chip.spdm q).sent < r.length ∧ r.length ≤ (s.chip.spdm q).sent + ((s.chip.spdm q).size - 12)) ∧
    (∃ (s : State) (k : Nat) (q : MctpMsg) (r : List Byte), s.chip.mctpUp = true ∧ s.chip.mctp.inbox[k]? = some q ∧ q.kind = some 0x286 ∧ q.at 1 = 0x12 ∧ (s.chip.spdm q).stage = 3 ∧ 6 ≤ q.spdm.length ∧ (s.chip.spdm q).large = some r ∧ q.at 4 = (s.chip.spdm q).handle ∧ fieldLE q.spdm 4 2 = 0 ∧ (s.chip.spdm q).chunk = 0 ∧ (s.chip.spdm q).sent = 0 ∧ 42 ≤ (s.chip.spdm q).size ∧ (s.chip.spdm q).size - 16 < r.length) :=
  ⟨⟨({ chip := ({ (up base).rawCfg 0x10000 rfl with mctp := { base.mctp with inbox := [⟨1, 8, 14, [5, 0x10, 0x84, 0, 0]⟩] } } : Chip) } : State), (0 : Nat), (⟨1, 8, 14, [5, 0x10, 0x84, 0, 0]⟩ : MctpMsg), by decide +kernel⟩,
    ⟨({ chip := ({ (up base).rawCfg 0x10000 rfl with mctp := { base.mctp with inbox := [⟨1, 8, 14, [5, 0x12, 0x84, 0, 0]⟩] } } : Chip) } : State), (0 : Nat), (⟨1, 8, 14, [5, 0x12, 0x84, 0, 0]⟩ : MctpMsg), by decide +kernel⟩,
    ⟨({ chip := ({ (up base).rawCfg 0x10000 rfl with mctp := { base.mctp with inbox := [⟨1, 8, 14, [5, 0x12, 0xe1, 0, 0, 0, 0, 0, 0] ++ bytesLE 4 0x20000 ++ bytesLE 4 4097 ++ bytesLE 4 4097⟩], spdm := base.mctp.spdm.set 1 { stage := 1, vca := [7] } } } : Chip) } : State), (0 : Nat), (⟨1, 8, 14, [5, 0x12, 0xe1, 0, 0, 0, 0, 0, 0] ++ bytesLE 4 0x20000 ++ bytesLE 4 4097 ++ bytesLE 4 4097⟩ : MctpMsg), by decide +kernel⟩,
    ⟨({ chip := ({ (up base).rawCfg 0x10000 rfl with mctp := { base.mctp with inbox := [⟨1, 8, 14, [5, 0x12, 0xe1, 0, 0]⟩], spdm := base.mctp.spdm.set 1 { stage := 2, vca := [7] } } } : Chip) } : State), (0 : Nat), (⟨1, 8, 14, [5, 0x12, 0xe1, 0, 0]⟩ : MctpMsg), by decide +kernel⟩,
    ⟨({ chip := ({ (up base).rawCfg 0x10000 rfl with mctp := { base.mctp with inbox := [⟨1, 8, 14, [5, 0x12, 0xe3, 0, 0, 32, 0, 1, 0] ++ bytesLE 4 0x80 ++ bytesLE 4 2 ++ List.replicate 16 0⟩], spdm := base.mctp.spdm.set 1 { stage := 2, vca := [7] } } } : Chip) } : State), (0 : Nat), (⟨1, 8, 14, [5, 0x12, 0xe3, 0, 0, 32, 0, 1, 0] ++ bytesLE 4 0x80 ++ bytesLE 4 2 ++ List.replicate 16 0⟩ : MctpMsg), by decide +kernel⟩,
    ⟨({ chip := ({ (up base).rawCfg 0x10000 rfl with mctp := { base.mctp with inbox := [⟨0, 8, 14, [5, 0x12, 0x81, 0, 0]⟩], spdm := base.mctp.spdm.set 0 { stage := 3, size := 52 } } } : Chip) } : State), (0 : Nat), (⟨0, 8, 14, [5, 0x12, 0x81, 0, 0]⟩ : MctpMsg), by decide +kernel⟩,
    ⟨({ chip := ({ (up base).rawCfg 0x10000 rfl with mctp := { base.mctp with inbox := [⟨0, 8, 14, [5, 0x12, 0x82, 0, 0, 0, 0, 0xff, 0xff]⟩], spdm := base.mctp.spdm.set 0 { stage := 3, size := 42 } } } : Chip) } : State), (0 : Nat), (⟨0, 8, 14, [5, 0x12, 0x82, 0, 0, 0, 0, 0xff, 0xff]⟩ : MctpMsg), by decide +kernel⟩,
    ⟨({ chip := ({ (up base).rawCfg 0x10000 rfl with mctp := { base.mctp with inbox := [⟨0, 8, 14, [5, 0x12, 0x83, 0, 0] ++ List.replicate 32 9⟩], spdm := base.mctp.spdm.set 0 { stage := 3, vca := [1], cert := [2] } } } : Chip) } : State), (0 : Nat), (⟨0, 8, 14, [5, 0x12, 0x83, 0, 0] ++ List.replicate 32 9⟩ : MctpMsg), by decide +kernel⟩,
    ⟨({ chip := ({ (up base).rawCfg 0x10000 rfl with mctp := { base.mctp with inbox := [⟨0, 8, 14, [5, 0x12, 0xe0, 0, 6]⟩], spdm := base.mctp.spdm.set 0 { stage := 3, size := 100 } } } : Chip) } : State), (0 : Nat), (⟨0, 8, 14, [5, 0x12, 0xe0, 0, 6]⟩ : MctpMsg), by decide +kernel⟩,
    ⟨({ chip := ({ (up base).rawCfg 0x10000 rfl with mctp := { base.mctp with inbox := [⟨0, 8, 14, [5, 0x12, 0xe0, 1, 0] ++ List.replicate 33 0⟩], spdm := base.mctp.spdm.set 0 { stage := 3, size := 100, vca := [1], meas := [2] } } } : Chip) } : State), (0 : Nat), (⟨0, 8, 14, [5, 0x12, 0xe0, 1, 0] ++ List.replicate 33 0⟩ : MctpMsg), by decide +kernel⟩,
    ⟨({ chip := ({ (up base).rawCfg 0x10000 rfl with mctp := { base.mctp with signing := [⟨1, 8, 14, [1, 2], [3]⟩, ⟨0, 8, 14, [], []⟩], spdm := base.mctp.spdm.set 1 { stage := 3, size := 98 } } } : Chip) } : State), (⟨1, 8, 14, [1, 2], [3]⟩ : SignJob), ([⟨0, 8, 14, [], []⟩] : List SignJob), by decide +kernel⟩,
    ⟨({ chip := ({ (up base).rawCfg 0x10000 rfl with mctp := { base.mctp with signing := [] } } : Chip) } : State), by decide +kernel⟩,
    ⟨({ chip := ({ (up base).rawCfg 0x10000 rfl with mctp := { base.mctp with inbox := [⟨0, 8, 14, [5, 0x12, 0x86, 0, 255, 1, 0]⟩], spdm := base.mctp.spdm.set 0 { stage := 3, size := 42, handle := 255, chunk := 1, sent := 26, large := some (List.replicate 56 7) } } } : Chip) } : State), (0 : Nat), (⟨0, 8, 14, [5, 0x12, 0x86, 0, 255, 1, 0]⟩ : MctpMsg), (List.replicate 56 7 : List Byte), by decide +kernel⟩,
    ⟨({ chip := ({ (up base).rawCfg 0x10000 rfl with mctp := { base.mctp with inbox := [⟨0, 8, 14, [5, 0x12, 0x86, 0, 255, 0, 0]⟩], spdm := base.mctp.spdm.set 0 { stage := 3, size := 42, handle := 255, chunk := 0, sent := 0, large := some (List.replicate 56 7) } } } : Chip) } : State), (0 : Nat), (⟨0, 8, 14, [5, 0x12, 0x86, 0, 255, 0, 0]⟩ : MctpMsg), (List.replicate 56 7 : List Byte), by decide +kernel⟩⟩

theorem witness_FirmwareServesTheMailboxAndStarts :
    (∃ (s : State) (p : Fin 4) (j : Fin 32), s.chip.reaches (.pp p) FW.MBTAKE = true ∧ s.chip.mbState j.val = 1) ∧
    (∃ (s : State) (p : Fin 4) (j : Fin 32), s.chip.reaches (.pp p) FW.MBTAKE = true ∧ s.chip.mbState j.val ≠ 1) ∧
    (∃ (s : State) (req : Requester) (j : Fin 32) (posts : List FwPost), s.chip.reaches req FW.MBTAKE = true ∧ (∀ p : Fin 4, req ≠ .pp p)) ∧
    (∃ (s : State) (p : Fin 4) (j : Fin 32) (r : Fin 8) (b : HostCmd), s.chip.reaches (.pp p) FW.MBDONE = true ∧ s.chip.mbState j.val = 2 ∧ s.chip.mbOwner j.val = p.val ∧ (s.chip.mail.get j.val).ring = some r.val ∧ (s.chip.rings.get r.val).busy = some b ∧ b.irq = false ∧ b.nocpl = false ∧ b.dead = false ∧ b.slot ≠ none ∧ s.chip.mbWaiting = none ∧ s.chip.inD0 = true ∧ s.chip.ringRuns (8 + b.cpl.val) = true ∧ (s.chip.rings.get (8 + b.cpl.val)).loss = false ∧ (s.chip.rings.get (8 + b.cpl.val)).unsig + 1 < orOne (s.chip.get (RING.MOD_MODCNT (8 + b.cpl.val)))) ∧
    (∃ (s : State) (p : Fin 4) (j : Fin 32), s.chip.reaches (.pp p) FW.MBDONE = true ∧ s.chip.mbState j.val = 2 ∧ s.chip.mbOwner j.val ≠ p.val ∧ (s.chip.mail.get j.val).late ≠ some p.val ∧ (s.chip.mail.get j.val).timedOut = false) ∧
    (∃ (s : State) (p : Fin 4) (j : Fin 32), s.chip.reaches (.pp p) FW.MBDONE = true ∧ s.chip.mbState j.val ≠ 2 ∧ (s.chip.mail.get j.val).late = some p.val) ∧
    (∃ (s : State) (p : Fin 4) (j : Fin 32), s.chip.reaches (.pp p) FW.MBDONE = true ∧ s.chip.mbState j.val ≠ 2 ∧ (s.chip.mail.get j.val).timedOut = true ∧ (s.chip.mail.get j.val).late = none) ∧
    (∃ (s : State) (p : Fin 4) (j : Fin 32) (type : Fin 16) (inst : Byte) (body : List Byte) (i : Nat), s.chip.reaches (.pp p) FW.MBDONE = true ∧ s.chip.ppRuns p.val = true ∧ s.chip.mbState j.val = 0 ∧ (s.chip.mail.get j.val).late = none ∧ (s.chip.mail.get j.val).timedOut = false ∧ body.length ≤ 48 ∧ s.chip.domOn .host = true ∧ s.chip.ringRuns evtRing = true ∧ s.chip.inD0 = true ∧ s.chip.ringFull evtRing = false ∧ (s.chip.rings.get evtRing).loss = false ∧ (s.chip.rings.get evtRing).unsig + 1 < orOne (s.chip.get (RING.MOD_MODCNT evtRing)) ∧ s.chip.get (RING.DIDX_DIDX evtRing) = i) ∧
    (∃ (s : State) (p : Fin 4) (j : Fin 32) (strm : Fin 4) (kind : Fin 16) (inst : Byte) (dec : Byte) (start : Nat) (words : List Word), s.chip.reaches (.pp p) FW.MBDONE = true ∧ s.chip.ppRuns p.val = true ∧ s.chip.mbState j.val = 0 ∧ (s.chip.mail.get j.val).late = none ∧ (s.chip.mail.get j.val).timedOut = false ∧ s.chip.domOn .host = true ∧ s.chip.ringRuns (telRing strm.val) = true ∧ s.chip.inD0 = true ∧ s.chip.ringFull (telRing strm.val) = false ∧ (s.chip.rings.get (telRing strm.val)).loss = false ∧ s.chip.hif.telQ.length < 64 ∧ s.chip.telRoom = true) ∧
    (∃ (s : State) (p : Fin 4), s.chip.reaches (.pp p) FW.CTRL = true ∧ s.chip.fw.bootAt ≠ none ∧ s.chip.get FW.STAT_START = 2 ∧ s.chip.boot.bootsel < 2 ∧ bitAt s.chip.boot.raise s.chip.boot.bootsel = false ∧ s.chip.fw.warmRing = none) ∧
    (∃ (s : State) (p : Fin 4), s.chip.reaches (.pp p) FW.CTRL = true ∧ s.chip.fw.bootAt ≠ none ∧ s.chip.get FW.STAT_START = 2 ∧ s.chip.boot.bootsel < 2 ∧ bitAt s.chip.boot.raise s.chip.boot.bootsel = true ∧ s.chip.fw.warmRing = none) ∧
    (∃ (s : State) (p : Fin 4), s.chip.reaches (.pp p) FW.CTRL = true ∧ s.chip.fw.bootAt ≠ none ∧ s.chip.get FW.STAT_START = 1 ∧ s.chip.f4Held = false ∧ bitAt s.chip.boot.raise (s.chip.get FW.STAT_RUNSLOT) = false) ∧
    (∃ (s : State) (p : Fin 4), s.chip.reaches (.pp p) FW.CTRL = true ∧ s.chip.fw.bootAt = none) ∧
    (∃ (s : State) (req : Requester), s.chip.reaches req FW.CTRL = true ∧ (∀ p : Fin 4, req ≠ .pp p)) ∧
    (∃ (s : State) (req : Requester) (key : BitVec 16), s.chip.reaches req FW.CTRL = true ∧ (key ≠ 0x57a2 ∨ s.chip.warmRefusal ≠ none)) ∧
    (∃ (s : State) (req : Requester), s.chip.reaches req FW.CTRL = true ∧ s.chip.warmRefusal = none ∧ s.chip.boot.bootsel < 2 ∧ s.chip.authRes s.nvm s.chip.boot.bootsel = 0) ∧
    (∃ (s : State) (cold : ColdIn) (a : Nat), s.chip.domOn .core = true ∧ s.chip.inHoldup = false ∧ s.chip.fw.bootAt = some a ∧ a + 1000 * orOne (s.chip.get FW.BOOTTO_BOOTTO) ≤ s.chip.now ∧ s.chip.get FW.STAT_START = 2 ∧ s.chip.fw.prevSlot = s.chip.boot.bootsel ∧ s.chip.fw.warmRing = none) ∧
    (∃ (s : State) (a : Nat) (nvmOk : Bool) (idOk : Bool) (n : Fin 257), s.chip.domOn .core = true ∧ s.chip.inHoldup = false ∧ s.chip.fw.bootAt = some a ∧ a + 1000 * orOne (s.chip.get FW.BOOTTO_BOOTTO) ≤ s.chip.now ∧ s.chip.get FW.STAT_START = 1 ∧ s.chip.get THMA.SDSTAT_STATE = 0) ∧
    (∃ (s : State) (cold : ColdIn), (s.chip.fw.bootAt = none ∨ s.chip.now < s.chip.fw.bootAt.getD 0 + 1000 * orOne (s.chip.get FW.BOOTTO_BOOTTO))) :=
  ⟨⟨({ chip := ((up base).put (mbFld false 31) 1 : Chip) } : State), (3 : Fin 4), (31 : Fin 32), by decide +kernel⟩,
    ⟨({ chip := ((up base).put (mbFld false 0) 2 : Chip) } : State), (3 : Fin 4), (0 : Fin 32), by decide +kernel⟩,
    ⟨({ chip := ((up base).put (mbFld false 0) 1 |>.put HIF.CTRL_EN 0 : Chip) } : State), (.pcie : Requester), (0 : Fin 32), ([] : List FwPost), by decide +kernel⟩,
    ⟨({ chip := ({ ringUp base |>.put (mbFld false 31) 2 |>.put (mbFld true 31) 3 with rings := Tbl.empty.set 3 { busy := some { opcode := 0xff, tag := 0x1234, nocpl := false, irq := false, cpl := 5, desc := [1], slot := some 31 } } |>.set 13 { reserved := 1 }, mail := base.mail.set 31 ⟨some 3, none, false⟩, mbox := Tbl.empty.set (128 * 31 + 65) 3 |>.set (128 * 31 + 70) 0x55 |>.set (128 * 31 + 80) 1 } : Chip) } : State), (3 : Fin 4), (31 : Fin 32), (3 : Fin 8), ({ opcode := 0xff, tag := 0x1234, nocpl := false, irq := false, cpl := 5, desc := [1], slot := some 31 } : HostCmd), by decide +kernel⟩,
    ⟨({ chip := ({ up base |>.put (mbFld false 0) 2 |>.put (mbFld true 0) 1 with mail := base.mail.set 0 ⟨none, none, false⟩ } : Chip) } : State), (3 : Fin 4), (0 : Fin 32), by decide +kernel⟩,
    ⟨({ chip := ({ up base |>.put (mbFld false 0) 0 with mail := base.mail.set 0 ⟨none, some 3, false⟩ } : Chip) } : State), (3 : Fin 4), (0 : Fin 32), by decide +kernel⟩,
    ⟨({ chip := ({ up base |>.put (mbFld false 0) 1 with mail := base.mail.set 0 ⟨some 3, none, true⟩ } : Chip) } : State), (3 : Fin 4), (0 : Fin 32), by decide +kernel⟩,
    ⟨({ chip := ({ ringUp base |>.put (mbFld false 0) 0 |>.put (RING.STAT_STATE 16) 1 |>.put (RING.CFG_LOG2N 16) 4 |>.put (RING.DIDX_DIDX 16) 17 |>.put (RING.HIDX_HIDX 16) 5 |>.put (RING.MOD_MODCNT 16) 100 with rings := Tbl.empty.set 16 {}, mail := base.mail.set 0 ⟨none, none, false⟩, fw := { base.fw with released := true } } : Chip) } : State), (3 : Fin 4), (0 : Fin 32), (15 : Fin 16), (0x77 : Byte), ([1, 2, 3] : List Byte), (17 : Nat), by decide +kernel⟩,
    ⟨({ chip := ({ ringUp base |>.put (mbFld false 0) 0 |>.put (RING.STAT_STATE 21) 1 |>.put (RING.CFG_LOG2N 21) 4 |>.put (RING.DIDX_DIDX 21) 17 |>.put (RING.HIDX_HIDX 21) 5 with rings := Tbl.empty.set 21 {}, mail := base.mail.set 0 ⟨none, none, false⟩, fw := { base.fw with released := true }, hif := { base.hif with telQ := [], telAt := 0, telSent := 0 }, time := { base.time with now := 9 } } : Chip) } : State), (3 : Fin 4), (0 : Fin 32), (3 : Fin 4), (15 : Fin 16), (0x77 : Byte), (9 : Byte), (1234567 : Nat), ([1, 2, 3] : List Word), by decide +kernel⟩,
    ⟨({ chip := ({ up base |>.put FW.STAT_START 2 with fw := { base.fw with released := true, bootAt := some 5, warmRing := none }, boot := { bootsel := 1, raise := 0 } } : Chip) } : State), (2 : Fin 4), by decide +kernel⟩,
    ⟨({ chip := ({ up base |>.put FW.STAT_START 2 with fw := { base.fw with released := true, bootAt := some 5, warmRing := none, image := List.replicate 16 0 ++ bytesLE 4 9 }, boot := { bootsel := 1, raise := 2, minsvn := 8 } } : Chip) } : State), (2 : Fin 4), by decide +kernel⟩,
    ⟨({ chip := ({ up base |>.put FW.STAT_START 1 |>.put FW.STAT_RUNSLOT 1 |>.put FWA.FAIL_FAILB 2 |>.put FLTA.F4_CODE 0 with fw := { base.fw with released := true, bootAt := some 5 }, boot := { raise := 0 } } : Chip) } : State), (0 : Fin 4), by decide +kernel⟩,
    ⟨({ chip := ({ up base with fw := { base.fw with released := true, bootAt := none } } : Chip) } : State), (0 : Fin 4), by decide +kernel⟩,
    ⟨({ chip := ({ up base with fw := { base.fw with released := true, bootAt := some 5 } } : Chip) } : State), (.ring : Requester), by decide +kernel⟩,
    ⟨({ chip := (up base : Chip) } : State), (.pp 0 : Requester), (0x57a3 : BitVec 16), by decide +kernel⟩,
    ⟨({ chip := { up base |>.put FW.STAT_HOLD 0 |>.put FLT.STAT_SAFE 0 |>.put FW.STAT_START 0 with boot := { owner := some testKey, bootsel := 1 } }, nvm := testNvm } : State), (.pp 1 : Requester), by decide +kernel, by decide +kernel, by decide +kernel, test_image_authentic _ rfl (by decide +kernel)⟩,
    ⟨({ chip := ({ up base |>.put FW.STAT_START 2 |>.put FW.BOOTTO_BOOTTO 0 with fw := { base.fw with released := true, bootAt := some 5, warmRing := none, prevSlot := 1 }, boot := { base.boot with bootsel := 1 }, time := { base.time with now := 1005 } } : Chip) } : State), (⟨true, true, true, 256⟩ : ColdIn), (5 : Nat), by decide +kernel⟩,
    ⟨({ chip := ({ up base |>.put FW.STAT_START 1 |>.put FW.STAT_RUNSLOT 1 |>.put FWA.FAIL_FAILB 3 |>.put FW.BOOTTO_BOOTTO 0 with fw := { base.fw with released := true, bootAt := some 5 }, time := { base.time with now := 1005 } } : Chip) } : State), (5 : Nat), (true : Bool), (true : Bool), (0 : Fin 257), by decide +kernel⟩,
    ⟨({ chip := ({ up base |>.put FW.BOOTTO_BOOTTO 0 with fw := { base.fw with released := true, bootAt := some 5 }, time := { base.time with now := 1004 } } : Chip) } : State), (⟨true, true, true, 256⟩ : ColdIn), by decide +kernel⟩⟩

theorem witness_TilesAreStagedWrittenAndScrubbed :
    (∃ (s : State) (req : Requester) (kind : Fin 16) (index : Fin 8192), s.chip.reaches req TILE.STGCTL = true ∧ s.chip.stageRefusal kind.val index.val s.chip.sbuf (s.chip.reg TILE.SCHK) = none) ∧
    (∃ (s : State) (req : Requester) (kind : Fin 16) (index : Fin 8192) (r : Nat), s.chip.reaches req TILE.STGCTL = true ∧ s.chip.stageRefusal kind.val index.val s.chip.sbuf (s.chip.reg TILE.SCHK) = some r) ∧
    (∃ (s : State) (req : Requester), s.chip.reaches req TILE.CMTCTL = true ∧ (s.chip.stageBusy = true ∨ s.chip.store.staged = [])) ∧
    (∃ (s : State) (req : Requester), s.chip.reaches req TILE.CMTCTL = true ∧ s.chip.stageBusy = false ∧ s.chip.store.staged ≠ [] ∧ s.chip.commitFailure s.nvm = none) ∧
    (∃ (s : State) (req : Requester), s.chip.reaches req TILE.CMTCTL = true ∧ s.chip.stageBusy = false) ∧
    (∃ (s : State) (w : Writer) (l : NvmLine) (j : NvmJob) (ok : BitVec 128), s.chip.nvmReady = true ∧ s.chip.rateOk = true ∧ s.chip.nextWriter = some w ∧ w ≠ .log ∧ s.chip.jobOf w = some j ∧ j.lines.head? = some l ∧ 2 ≤ j.lines.length) ∧
    (∃ (s : State) (w : Writer) (l : NvmLine) (ok : BitVec 128), s.chip.nvmReady = true ∧ s.chip.rateOk = true ∧ s.chip.nextWriter = some w ∧ s.chip.frontLine w = some l ∧ s.chip.store.tries < 3) ∧
    (∃ (s : State) (ok : BitVec 128), s.chip.nvmReady = true ∧ s.chip.rateOk = true ∧ s.chip.nextWriter = some .log ∧ s.chip.store.logBuf ≠ [] ∧ s.chip.store.tries = 3) ∧
    (∃ (s : State) (good : Bool) (ok : BitVec 128), (s.chip.nvmReady = false ∨ s.chip.rateOk = false ∨ s.chip.nextWriter = none)) ∧
    (∃ (s : State) (nvmOk : Bool), s.chip.domOn .core = true ∧ s.chip.domOn .nvm = true ∧ s.chip.inHoldup = false ∧ s.chip.flt.inj = none ∧ s.chip.store.scrubPos = 14679 ∧ s.chip.dieOn 7 = true) ∧
    (∃ (s : State) (nvmOk : Bool), s.chip.domOn .core = true ∧ s.chip.domOn .nvm = true ∧ s.chip.inHoldup = false ∧ s.chip.flt.inj = none ∧ 7513 ≤ s.chip.store.scrubPos ∧ s.chip.scrubFrom s.chip.store.scrubPos = some 14680) ∧
    (∃ (s : State) (nvmOk : Bool) (copyOk : Bool), s.chip.domOn .core = true ∧ s.chip.domOn .nvm = true ∧ s.chip.inHoldup = false ∧ 7513 ≤ s.chip.store.scrubPos ∧ s.chip.scrubFrom s.chip.store.scrubPos = none) ∧
    (∃ (s : State), s.chip.domOn .core = true ∧ s.chip.domOn .nvm = true ∧ s.chip.inHoldup = false ∧ s.chip.flt.inj = none ∧ s.chip.store.scrubPos = 7376 ∧ s.chip.scrubs (.map 7167) = true ∧ s.chip.dieOn 7 = true) :=
  ⟨⟨({ chip := ({ up base |>.setReg TILE.SCHK (crc32c ((up base).sbuf)) with store := { base.store with commit := none, jobs := [], staged := [⟨6, 7167, 5⟩] } } : Chip) } : State), (.pp 0 : Requester), (6 : Fin 16), (7167 : Fin 8192), by decide +kernel⟩,
    ⟨({ chip := ({ up base |>.setReg TILE.SCHK (crc32c ((up base).sbuf)) with store := { base.store with commit := none, jobs := [], staged := [] } } : Chip) } : State), (.pp 0 : Requester), (5 : Fin 16), (0 : Fin 8192), (0x11 : Nat), by decide +kernel⟩,
    ⟨({ chip := ({ up base with store := { base.store with commit := none, jobs := [], staged := [] } } : Chip) } : State), (.pp 0 : Requester), by decide +kernel⟩,
    ⟨({ chip := { up base with store := { base.store with commit := none, jobs := [], committed := [], staged := [⟨6, 7167, 63⟩] } }, nvm := nvmWrite [] (smFrame 63 + 256) (bytesLE 4 (crc32c (List.replicate 256 0)).toNat) } : State), (.pp 0 : Requester), by decide +kernel⟩,
    ⟨({ chip := ({ up base with store := { base.store with commit := none, jobs := [], staged := [⟨6, 7167, 63⟩, ⟨2, 3, 4⟩] } } : Chip) } : State), (.pp 3 : Requester), by decide +kernel⟩,
    ⟨({ chip := ({ up base |>.put THM.STAT_WINOPEN 1 with store := { base.store with tries := 0, trying := none, lineAt := none, leave := .none, logBuf := [], jobs := [⟨.image, .image 3 1, [⟨slotBase 1, [1, 2, 3, 4]⟩, ⟨slotBase 1 + 64, [5]⟩], 0⟩] } } : Chip) } : State), (.image : Writer), (⟨slotBase 1, [1, 2, 3, 4]⟩ : NvmLine), (⟨.image, .image 3 1, [⟨slotBase 1, [1, 2, 3, 4]⟩, ⟨slotBase 1 + 64, [5]⟩], 0⟩ : NvmJob), (0 : BitVec 128), by decide +kernel⟩,
    ⟨({ chip := ({ up base |>.put THM.STAT_WINOPEN 1 with store := { base.store with tries := 2, trying := some .image, lineAt := none, leave := .none, logBuf := [], jobs := [⟨.image, .image 3 1, [⟨slotBase 1, [1, 2, 3, 4]⟩, ⟨slotBase 1 + 64, [5]⟩], 0⟩] } } : Chip) } : State), (.image : Writer), (⟨slotBase 1, [1, 2, 3, 4]⟩ : NvmLine), (0 : BitVec 128), by decide +kernel⟩,
    ⟨({ chip := ({ up base |>.put THM.STAT_WINOPEN 1 with store := { base.store with tries := 3, trying := some .log, lineAt := none, leave := .none, logFailed := false, logBuf := [{ type := 1 }], jobs := [] } } : Chip) } : State), (0 : BitVec 128), by decide +kernel⟩,
    ⟨({ chip := ({ up base |>.put THM.STAT_WINOPEN 0 with store := { base.store with jobs := [] } } : Chip) } : State), (true : Bool), (0 : BitVec 128), by decide +kernel⟩,
    ⟨({ chip := ({ up base with store := { base.store with scrubPos := 14679 }, flt := { base.flt with inj := none } } : Chip) } : State), (false : Bool), by decide +kernel⟩,
    ⟨({ chip := ({ up base with store := { base.store with scrubPos := 14680 }, flt := { base.flt with inj := none } } : Chip) } : State), (false : Bool), by decide +kernel⟩,
    ⟨({ chip := ({ up base |>.put PWR.DOMSTAT_PX 0 with store := { base.store with scrubPos := 14680 } } : Chip) } : State), (false : Bool), (false : Bool), by decide +kernel⟩,
    ⟨({ chip := ({ up base with store := { base.store with scrubPos := 7376, jobs := [] }, dirtyTiles := base.dirtyTiles.set 7167 none, flt := { base.flt with inj := none } } : Chip) } : State), by decide +kernel⟩⟩

theorem witness_RegistersAreWrittenByTheirCodes :
    (∃ (s : State) (req : Requester) (off : BitVec 21) (value : Word) (cold : ColdIn), s.chip.reaches req off.toNat = true ∧ s.chip.flt.coldHeld = false ∧ s.chip.get ACC.ACCST_LOCKED = 0 ∧ fieldsOnly off.toNat = true ∧ (regAt off.toNat).isSome = true ∧ off.toNat % 4 = 0 ∧ (cntClears off.toNat).isNone = true) ∧
    (∃ (s : State) (req : Requester) (off : BitVec 21) (value : Word) (cold : ColdIn), s.chip.reaches req off.toNat = true ∧ s.chip.flt.coldHeld = false ∧ s.chip.get ACC.ACCST_LOCKED = 1 ∧ fieldsOnly off.toNat = true ∧ (regAt off.toNat).isSome = true ∧ off.toNat % 4 = 0 ∧ (cntClears off.toNat).isNone = true ∧ (s.chip.reg off.toNat ^^^ value) &&& lockMask off.toNat ≠ 0) ∧
    (∃ (s : State) (req : Requester) (off : BitVec 21) (value : Word) (cold : ColdIn), s.chip.reaches req off.toNat = true ∧ s.chip.flt.coldHeld = false ∧ s.chip.get ACC.ACCST_LOCKED = 1 ∧ fieldsOnly off.toNat = true ∧ (regAt off.toNat).isSome = true ∧ off.toNat % 4 = 0 ∧ (cntClears off.toNat).isNone = true ∧ (s.chip.reg off.toNat ^^^ value) &&& lockMask off.toNat = 0) ∧
    (∃ (s : State) (req : Requester) (off : BitVec 21) (value : Word) (cold : ColdIn), s.chip.reqUp req = true ∧ s.chip.mayWrite req = true ∧ (req ≠ .pcie ∨ s.chip.get HIF.CTRL_EN = 0) ∧ s.chip.flt.coldHeld = false ∧ s.chip.offAt off.toNat = true ∧ off.toNat % 4 = 0 ∧ inMsix off.toNat = false ∧ inMailbox off.toNat = false) ∧
    (∃ (s : State) (req : Requester) (off : BitVec 21) (value : Word) (cold : ColdIn), s.chip.reqUp req = true ∧ s.chip.mayWrite req = true ∧ (req ≠ .pcie ∨ s.chip.get HIF.CTRL_EN = 0) ∧ s.chip.flt.coldHeld = false ∧ (off.toNat % 4 ≠ 0 ∨ regAt off.toNat = none ∧ inMsix off.toNat = false ∧ inMailbox off.toNat = false)) ∧
    (∃ (s : State) (off : BitVec 21) (value : Word) (cold : ColdIn), s.chip.reqUp .pcie = true ∧ s.chip.get HIF.CTRL_EN = 1 ∧ mmioFree off.toNat = false ∧ s.chip.flt.coldHeld = false) ∧
    (∃ (s : State) (req : Requester) (off : BitVec 21) (value : Word) (cold : ColdIn), s.chip.mayWrite req = false ∧ s.chip.flt.coldHeld = false) ∧
    (∃ (s : State) (req : Requester) (off : BitVec 21) (value : Word), s.chip.reaches req off.toNat = true ∧ (regAt off.toNat).isSome = true ∧ off.toNat % 4 = 0 ∧ accMask off.toNat (· == .w1c) ≠ 0 ∧ value &&& ~~~(accMask off.toNat (· == .w1c) ||| pairMask off.toNat) = 0 ∧ (value ^^^ s.chip.reg off.toNat) &&& pairMask off.toNat = 0) ∧
    (∃ (s : State) (req : Requester) (off : BitVec 21) (b : Nat) (cs : List Fld), s.chip.reaches req off.toNat = true ∧ (inPP off.toNat && s.chip.polAsleep) = false ∧ (regAt off.toNat).isSome = true ∧ off.toNat % 4 = 0 ∧ cntClears off.toNat = some (b, cs)) ∧
    (∃ (s : State) (req : Requester), s.chip.reqUp req = true ∧ s.chip.domOn .nvm = true) :=
  ⟨⟨({ chip := ({ up base |>.put ACC.ACCST_LOCKED 0 with flt := { base.flt with coldHeld := false } } : Chip) } : State), (.pp 3 : Requester), (0x26000 : BitVec 21), (0x12345678 : Word), (⟨true, true, true, 256⟩ : ColdIn), by decide +kernel⟩,
    ⟨({ chip := ({ up base |>.put ACC.ACCST_LOCKED 1 with flt := { base.flt with coldHeld := false } } : Chip) } : State), (.ring : Requester), (0x26000 : BitVec 21), (0xffffffff : Word), (⟨true, true, true, 256⟩ : ColdIn), by decide +kernel⟩,
    ⟨({ chip := ({ up base |>.put ACC.ACCST_LOCKED 1 with flt := { base.flt with coldHeld := false } } : Chip) } : State), (.pp 3 : Requester), (BitVec.ofNat 21 THM.WARN : BitVec 21), (0x01230045 : Word), (⟨true, true, true, 256⟩ : ColdIn), by decide +kernel⟩,
    ⟨({ chip := ({ up base |>.put PWR.DOMSTAT_PX 0 with flt := { base.flt with coldHeld := false } } : Chip) } : State), (.ring : Requester), (0x100000 : BitVec 21), (0xffffffff : Word), (⟨true, true, true, 256⟩ : ColdIn), by decide +kernel⟩,
    ⟨({ chip := ({ up base with flt := { base.flt with coldHeld := false } } : Chip) } : State), (.ring : Requester), (0x26002 : BitVec 21), (0xffffffff : Word), (⟨true, true, true, 256⟩ : ColdIn), by decide +kernel⟩,
    ⟨({ chip := ({ up base |>.put HIF.CTRL_EN 1 with flt := { base.flt with coldHeld := false } } : Chip) } : State), (0x26000 : BitVec 21), (0xffffffff : Word), (⟨true, true, true, 256⟩ : ColdIn), by decide +kernel⟩,
    ⟨({ chip := ({ up base with flt := { base.flt with coldHeld := false } } : Chip) } : State), (.tap : Requester), (0x26000 : BitVec 21), (5 : Word), (⟨true, true, true, 256⟩ : ColdIn), by decide +kernel⟩,
    ⟨({ chip := ((up base).put PWR.DOMSTAT_PX 127 : Chip) } : State), (.ring : Requester), (BitVec.ofNat 21 (CMPL.EVT 31) : BitVec 21), (2 : Word), by decide +kernel⟩,
    ⟨({ chip := ((up base).put PWR.DOMSTAT_PX 127 : Chip) } : State), (.ring : Requester), (BitVec.ofNat 21 (CMPL.EVT 31) : BitVec 21), (4 : Nat), (((cntClears (BitVec.ofNat 21 (CMPL.EVT 31)).toNat).getD (0, [])).2 : List Fld), by decide +kernel⟩,
    ⟨({ chip := (up base).put NVM.RDADDR_ADDR (2 ^ NVM.RDADDR_ADDR.width - 1), nvm := [(64, 1), (67, 2)] } : State), (.tap : Requester), by decide +kernel⟩⟩

end Sys2Proof.Tests
end

namespace Sys2Proof.Machine

/-! Every register reads its reset values: a word built from fields that share no bit gives each field back (R15). -/

/-- A field lies in its 32-bit word. -/
def FieldRow.inWord (f : FieldRow) : Prop := f.lo + f.width ≤ 32

/-- Two field rows share no bit. -/
def FieldRow.apart (f g : FieldRow) : Prop := f.lo + f.width ≤ g.lo ∨ g.lo + g.width ≤ f.lo

theorem wordField_or (v w : Word) (lo width : Nat) :
    wordField (v ||| w) lo width = wordField v lo width ||| wordField w lo width := by
  apply Nat.eq_of_testBit_eq
  intro i
  simp only [wordField_testBit, Nat.testBit_or, BitVec.getLsbD_or, Bool.and_or_distrib_left]

/-- A value placed at a field reads there as itself. -/
theorem wordField_placed_same (f : FieldRow) (hw : f.inWord) (hr : f.reset < 2 ^ f.width) :
    wordField (BitVec.ofNat 32 (f.reset * 2 ^ f.lo)) f.lo f.width = f.reset := by
  unfold FieldRow.inWord at hw
  apply Nat.eq_of_testBit_eq
  intro i
  rw [wordField_testBit, BitVec.getLsbD_ofNat, Nat.testBit_mul_two_pow]
  by_cases hi : i < f.width
  · simp [hi, show i + f.lo < 32 by omega]
  · have hout : f.reset.testBit i = false :=
      Nat.testBit_lt_two_pow (lt_of_lt_of_le hr (Nat.pow_le_pow_right (by decide) (Nat.le_of_not_lt hi)))
    simp [hi, hout]

/-- A value placed at one field leaves the bits of a field apart from it clear. -/
theorem wordField_placed_apart (f g : FieldRow) (ha : f.apart g) (hr : g.reset < 2 ^ g.width) :
    wordField (BitVec.ofNat 32 (g.reset * 2 ^ g.lo)) f.lo f.width = 0 := by
  unfold FieldRow.apart at ha
  apply Nat.eq_of_testBit_eq
  intro i
  rw [wordField_testBit, BitVec.getLsbD_ofNat, Nat.testBit_mul_two_pow, Nat.zero_testBit]
  by_cases hi : i < f.width ∧ g.lo ≤ i + f.lo
  · have hout : g.reset.testBit (i + f.lo - g.lo) = false :=
      Nat.testBit_lt_two_pow (lt_of_lt_of_le hr (Nat.pow_le_pow_right (by decide) (by omega)))
    simp [hout]
  · by_cases hg : g.lo ≤ i + f.lo <;> simp_all

theorem wordField_resetFields_apart (f : FieldRow) (gs : List FieldRow) (ha : ∀ g ∈ gs, f.apart g) (hr : ∀ g ∈ gs, g.reset < 2 ^ g.width) :
    wordField (resetFields gs) f.lo f.width = 0 := by
  induction gs with
  | nil => simp [resetFields, wordField]
  | cons g gs ih =>
    obtain ⟨hag, hags⟩ := List.forall_mem_cons.1 ha
    obtain ⟨hrg, hrgs⟩ := List.forall_mem_cons.1 hr
    rw [resetFields, wordField_or, wordField_placed_apart f g hag hrg, ih hags hrgs]
    rfl

/-- Among fields that share no bit, each reads its own reset value from the word built of them all. -/
theorem wordField_resetFields (fs : List FieldRow) (hd : fs.Pairwise FieldRow.apart) (hw : ∀ f ∈ fs, f.inWord)
    (hr : ∀ f ∈ fs, f.reset < 2 ^ f.width) : ∀ f ∈ fs, wordField (resetFields fs) f.lo f.width = f.reset := by
  induction fs with
  | nil => simp
  | cons g gs ih =>
    obtain ⟨hdg, hdgs⟩ := List.pairwise_cons.1 hd
    obtain ⟨hwg, hwgs⟩ := List.forall_mem_cons.1 hw
    obtain ⟨hrg, hrgs⟩ := List.forall_mem_cons.1 hr
    intro f hf
    rw [resetFields, wordField_or]
    rcases List.mem_cons.1 hf with rfl | hf
    · rw [wordField_placed_same f hwg hrg, wordField_resetFields_apart f gs hdg hrgs, Nat.or_zero]
    · rw [wordField_placed_apart f g (Or.symm (hdg f hf)) hrg, ih hdgs hwgs hrgs f hf, Nat.zero_or]

/-- The blocks of the whole register map. -/
def mapBlocks : List BlockRow := hubBlocks0 ++ hubBlocks1 ++ dieBlocks

theorem findReg_mem (rel : Nat) (rs : List RegRow) (r : RegRow) (h : findReg rel rs = some r) : r ∈ rs := by
  induction rs with
  | nil => cases h
  | cons q rs ih =>
    rw [findReg] at h
    split at h
    · cases h; exact List.mem_cons_self
    · exact List.mem_cons_of_mem _ (ih h)

theorem findBlock_mem (o : Nat) (bs : List BlockRow) (d : Dom) (r : RegRow) (h : findBlock o bs = some (d, r)) :
    ∃ b ∈ bs, r ∈ b.regs := by
  induction bs with
  | nil => cases h
  | cons b bs ih =>
    have later : findBlock o bs = some (d, r) → ∃ c ∈ b :: bs, r ∈ c.regs := fun h =>
      let ⟨c, hc, hr⟩ := ih h
      ⟨c, List.mem_cons_of_mem _ hc, hr⟩
    rw [findBlock] at h
    split at h
    · split at h
      · next q hq =>
        cases h
        exact ⟨b, List.mem_cons_self, findReg_mem _ _ _ hq⟩
      · exact later h
    · exact later h

/-- Every register of the map is a row of one of its blocks. -/
theorem regAt_mem (o : Nat) (d : Dom) (r : RegRow) (h : regAt o = some (d, r)) : ∃ b ∈ mapBlocks, r ∈ b.regs := by
  have widen : ∀ bs, bs ⊆ mapBlocks → (∃ b ∈ bs, r ∈ b.regs) → ∃ b ∈ mapBlocks, r ∈ b.regs := fun bs hsub ⟨b, hb, hr⟩ => ⟨b, hsub hb, hr⟩
  unfold regAt at h
  split at h
  · split at h
    · exact widen hubBlocks0 (by simp [mapBlocks]) (findBlock_mem _ _ _ _ h)
    · exact widen hubBlocks1 (by simp [mapBlocks]) (findBlock_mem _ _ _ _ h)
  · split at h
    · obtain ⟨⟨e, q⟩, hq, he⟩ := Option.map_eq_some_iff.1 h
      cases he
      exact widen dieBlocks (by simp [mapBlocks]) (findBlock_mem _ _ _ _ hq)
    · cases h

/-- The tables place every field within its word, apart from the other fields of its register. -/
theorem mapBlocks_laidOut : ∀ b ∈ mapBlocks, ∀ r ∈ b.regs, (∀ f ∈ r.fields, f.inWord) ∧ r.fields.Pairwise FieldRow.apart := by
  unfold FieldRow.inWord FieldRow.apart
  decide

/-- Every reset value of a block fits its field. -/
def BlockRow.resetsFit (b : BlockRow) : Prop := ∀ r ∈ b.regs, ∀ f ∈ r.fields, f.reset < 2 ^ f.width

/-- The words of the device number come from the device, not from the table, and fit because they are words (R7). -/
theorem hubBlocks0_resetsFit : ∀ b ∈ hubBlocks0, b.resetsFit := by
  have uid : ∀ i, (Config.uid i).toNat < 4294967296 := fun i => (Config.uid i).isLt
  have top : BlockRow.resetsFit ⟨0x0, 0x1c, 1, false, .aon, regsOfTOP⟩ := by simp [BlockRow.resetsFit, regsOfTOP, uid]
  have others : ∀ b ∈ hubBlocks0.tail, b.resetsFit := by
    unfold BlockRow.resetsFit
    decide
  exact List.forall_mem_cons.2 ⟨top, others⟩

/-- The strap chooses one of the eight PMBus addresses from 0x40 on, all of 7 bits (R450). -/
theorem hubBlocks1_resetsFit : ∀ b ∈ hubBlocks1, b.resetsFit := by
  have strap : 64 + Config.pmbStrap.val < 128 := by omega
  have pmb : BlockRow.resetsFit ⟨0x32000, 0x18, 1, false, .host, regsOfPMB⟩ := by simp [BlockRow.resetsFit, regsOfPMB, strap]
  have others : (∀ b ∈ hubBlocks1.take 17, b.resetsFit) ∧ ∀ b ∈ hubBlocks1.drop 18, b.resetsFit := by
    unfold BlockRow.resetsFit
    decide
  have split : hubBlocks1 = hubBlocks1.take 17 ++ ⟨0x32000, 0x18, 1, false, .host, regsOfPMB⟩ :: hubBlocks1.drop 18 := rfl
  rw [split]
  exact List.forall_mem_append.2 ⟨others.1, List.forall_mem_cons.2 ⟨pmb, others.2⟩⟩

theorem dieBlocks_resetsFit : ∀ b ∈ dieBlocks, b.resetsFit := by
  unfold BlockRow.resetsFit
  decide

theorem mapBlocks_resetsFit : ∀ b ∈ mapBlocks, b.resetsFit :=
  List.forall_mem_append.2 ⟨List.forall_mem_append.2 ⟨hubBlocks0_resetsFit, hubBlocks1_resetsFit⟩, dieBlocks_resetsFit⟩

theorem reset_reg (o : Nat) : State.reset.chip.reg o = resetWord o := rfl

/-- In the reset state every field of a register of the map reads the value of its row (R15). -/
theorem reset_get (o : Nat) (d : Dom) (r : RegRow) (f : FieldRow) (h : regAt o = some (d, r)) (hf : f ∈ r.fields) :
    State.reset.chip.get ⟨o, f.lo, f.width⟩ = f.reset := by
  obtain ⟨b, hb, hr⟩ := regAt_mem o d r h
  obtain ⟨hw, hd⟩ := mapBlocks_laidOut b hb r hr
  have word : State.reset.chip.reg o = resetFields r.fields := by rw [reset_reg, resetWord, h]
  rw [Chip.get, word]
  exact wordField_resetFields r.fields hd hw (mapBlocks_resetsFit b hb r hr) f hf

/-- Settles O3: a register's reset word is built from its row, and the rows' fields share no bit. -/
theorem resetGivesEveryFieldItsResetValue : Obligations.ResetGivesEveryFieldItsResetValue := by
  unfold Obligations.ResetGivesEveryFieldItsResetValue
  exact ⟨reset_get, rfl, rfl, rfl, rfl, fun _ => rfl⟩

end Sys2Proof.Machine

namespace Sys2Proof.Machine

/-! CTRL of the hot-swap input is a register of `fieldsOnly`, and the gate follows its EN (R296, R300; log entry 157): a write of EN changes STAT too. -/

/-- Holding the gate low shows in STAT (R302, R527). -/
theorem gateLow_gate (c : Chip) (fast : Bool) : (c.gateLow fast).get HSW.STAT_GATE = 0 := by
  unfold Chip.gateLow
  rw [get_put_apart _ _ _ _ rfl rfl, get_put_same _ _ _ rfl]
  rfl

@[simp] theorem gateLow_flt (c : Chip) (fast : Bool) : (c.gateLow fast).flt = c.flt := by
  unfold Chip.gateLow
  dsimp only
  split <;> rfl

theorem hswEnable_of_disabled (c : Chip) (hen : c.get HSW.CTRL_EN = 0) (hgate : c.get HSW.STAT_GATE = 1) : c.hswEnable = c.gateLow false := by
  simp [Chip.hswEnable, Chip.bit, hen, hgate]

/-- A new word of CTRL is taken, and the gate follows it. -/
theorem regPut_hswCtrl (c : Chip) (w : Word) (hw : w ≠ c.reg HSW.CTRL) : c.regPut HSW.CTRL w = (c.setReg HSW.CTRL w).hswEnable := by
  have hw' : w ≠ c.reg 0x22000 := hw
  simp [Chip.regPut, Chip.hubTouched, hw', HSW.CTRL, dieWindow, HIF.CTRL]

/-- With LOCKED 0, a write of 0 to CTRL with EN 1 holds the gate low. -/
theorem fieldWrite_hswCtrl_zero (c : Chip) (hlock : c.get ACC.ACCST_LOCKED = 0) (hctrl : c.reg HSW.CTRL = 1) :
    c.fieldWrite HSW.CTRL 0 = (c.setReg HSW.CTRL 0).hswEnable := by
  have hmask : c.writeMask HSW.CTRL = 1 := by
    simp only [Chip.writeMask, Chip.bit, hlock]
    decide
  have hput : c.regPut HSW.CTRL 0 = (c.setReg HSW.CTRL 0).hswEnable := regPut_hswCtrl c 0 (by rw [hctrl]; decide)
  simpa [Chip.fieldWrite, hmask, Chip.bit, hlock, hctrl] using hput

/-- That write moves nothing else on its way: CTRL has no counter to clear and no operation of its own. -/
theorem busWrite_hswCtrl_zero (c : Chip) (m : List Host.Cell) (req : Requester) (tileOk : Bool) (hreach : c.reaches req HSW.CTRL = true)
    (hlock : c.get ACC.ACCST_LOCKED = 0) (hctrl : c.reg HSW.CTRL = 1) (hgate : c.get HSW.STAT_GATE = 1) :
    c.busWrite m req HSW.CTRL 0 tileOk = (c.setReg HSW.CTRL 0).gateLow false := by
  have hoff : (c.setReg HSW.CTRL 0).get HSW.CTRL_EN = 0 := by
    rw [Chip.get, show HSW.CTRL_EN.off = HSW.CTRL from rfl, reg_setReg_same]
    rfl
  have hon : (c.setReg HSW.CTRL 0).get HSW.STAT_GATE = 1 := by
    rw [← hgate, Chip.get, Chip.get, reg_setReg_other _ _ _ _ (by decide)]
  calc c.busWrite m req HSW.CTRL 0 tileOk
      = c.regWrite m req HSW.CTRL 0 tileOk := busWrite_reaches c m req _ _ _ hreach rfl rfl rfl rfl
    _ = c.fieldWrite HSW.CTRL 0 := rfl
    _ = (c.setReg HSW.CTRL 0).hswEnable := fieldWrite_hswCtrl_zero c hlock hctrl
    _ = (c.setReg HSW.CTRL 0).gateLow false := hswEnable_of_disabled _ hoff hon

/-- A state with no cold start requested stays as it is. -/
theorem coldIfDue_of_not_held (s : State) (cold : ColdIn) (h : s.chip.flt.coldHeld = false) : s.coldIfDue cold = s := by
  simp [State.coldIfDue, Chip.coldDue, h]

/-- A REGISTER_WRITE of 0 to CTRL switches a conducting input off: GATE reads 0 after it. -/
theorem registerWrite_hswCtrl_zero (s t : State) (req : Requester) (cold : ColdIn) (hreach : s.chip.reaches req HSW.CTRL = true)
    (hheld : s.chip.flt.coldHeld = false) (hlock : s.chip.get ACC.ACCST_LOCKED = 0) (hctrl : s.chip.reg HSW.CTRL = 1) (hgate : s.chip.get HSW.STAT_GATE = 1)
    (ht : Machine.exec (.registerWrite req (BitVec.ofNat 21 HSW.CTRL) 0 cold) s = .next t) : t.chip.get HSW.STAT_GATE = 0 := by
  have hrun : Machine.exec (.registerWrite req (BitVec.ofNat 21 HSW.CTRL) 0 cold) s
      = .next ({ s with chip := s.chip.busWrite s.nvm req HSW.CTRL 0 true }.coldIfDue cold) := rfl
  rw [hrun, busWrite_hswCtrl_zero _ _ _ _ hreach hlock hctrl hgate, coldIfDue_of_not_held _ _ (by simpa using hheld)] at ht
  cases ht
  exact gateLow_gate _ _

/-- The input is in ON with EN 1 and its gate driven, CORE, HOST and HKA are on, and LOCKED is 0. -/
def inputConducts : State :=
  { chip := { (((((State.reset.chip.put PWR.DOMSTAT_CORE 1).put PWR.DOMSTAT_HOST 1).put PWR.DOMSTAT_HKA 1).put ACC.ACCST_LOCKED 0).put HSW.CTRL_EN 1).put HSW.STAT_STATE 3
      |>.put HSW.STAT_GATE 1 with power := ⟨true, true, true, false, none⟩ } }

/-- Refutes O60: its first clause lets a write to any register of `fieldsOnly` change that register alone, whatever the state of the input, but a ring command that
clears EN of HSW.CTRL while the input conducts holds the gate low, and GATE of HSW.STAT goes to 0. -/
theorem not_registersAreWrittenByTheirCodes : ¬ Obligations.RegistersAreWrittenByTheirCodes := by
  unfold Obligations.RegistersAreWrittenByTheirCodes
  rintro ⟨unlocked, -⟩
  have hreach : inputConducts.chip.reaches .ring HSW.CTRL = true := by decide +kernel
  have hlock : inputConducts.chip.get ACC.ACCST_LOCKED = 0 := by decide +kernel
  have hctrl : inputConducts.chip.reg HSW.CTRL = 1 := by decide +kernel
  have hgate : inputConducts.chip.get HSW.STAT_GATE = 1 := by decide +kernel
  obtain ⟨t, ht, -, -, -, -, keeps⟩ := unlocked inputConducts .ring (BitVec.ofNat 21 HSW.CTRL) 0 ⟨true, true, true, 256⟩ hreach rfl hlock rfl rfl rfl rfl
  have hlow : t.chip.get HSW.STAT_GATE = 0 := registerWrite_hswCtrl_zero _ _ _ _ hreach rfl hlock hctrl hgate ht
  have hsame : t.chip.reg HSW.STAT = inputConducts.chip.reg HSW.STAT := keeps.regs HSW.STAT rfl
  rw [Chip.get, show HSW.STAT_GATE.off = HSW.STAT from rfl, hsame] at hlow
  exact absurd (hgate.symm.trans hlow) (by decide)

end Sys2Proof.Machine

namespace Sys2Proof.Machine

/-- Settles O4: the reset memory lists nothing, and the idle step that follows lists nothing either. -/
theorem resetIsSound : Obligations.ResetIsSound := by
  unfold Obligations.ResetIsSound
  have blank : Memory.wf [] := ⟨List.Pairwise.nil, by simp⟩
  exact ⟨blank, blank, State.reset.idle, rfl, blank⟩

/-- Hold-up with CORE and the memory on and its window open, where the log writer has still to write the closing record. -/
def closingWaits : State :=
  { chip := { ((((State.reset.chip.put PWR.DOMSTAT_HOLDUP 1).put PWR.DOMSTAT_CORE 1).put PWR.DOMSTAT_NVM 1).put THM.STAT_WINOPEN 1) with
      store := { State.reset.chip.store with closing := true } } }

/-- Hold-up goes on while the log writer's list is not finished (R518). -/
theorem holdupEnd_of_not_done (c : Chip) (h : c.holdDone = false) : c.holdupEnd = c := by
  simp [Chip.holdupEnd, h]

/-- Refutes O7: its last clause ends hold-up at every HOLDUP_END, but the command waits for the log writer: while the closing record is still to be written it changes nothing. -/
theorem not_suppliesSwitchTheDomains : ¬ Obligations.SuppliesSwitchTheDomains := by
  unfold Obligations.SuppliesSwitchTheDomains
  rintro ⟨-, -, -, -, -, ends⟩
  have hin : closingWaits.chip.inHoldup = true := by decide +kernel
  have hdone : closingWaits.chip.holdDone = false := by decide +kernel
  have hrun : Machine.exec .holdupEnd closingWaits = .next { closingWaits with chip := closingWaits.chip.holdupEnd } := rfl
  obtain ⟨t, ht, hout, -⟩ := ends closingWaits hin
  rw [hrun, holdupEnd_of_not_done _ hdone] at ht
  cases ht
  exact absurd (hin.symm.trans hout) (by decide)

/-- Phase 1 is held by loop 0, its role is shedding and its generator stands still, but loop 0 has no shed in progress. -/
def strayShed : State :=
  { chip := ((State.reset.chip.put PWR.DOMSTAT_CORE 1).put (PHS.ASSIGN_OWN 1) 1).put (PHS.STATE_ROLE 1) 4 }

/-- A phase that its loop is not shedding reports nothing (R162). -/
theorem idleReport_of_not_proc (c : Chip) (p n : Nat) (hown : c.owner p = some n) (hproc : (c.loopPh.get n).procPhase ≠ some p) :
    c.idleReport p = c := by
  simp [Chip.idleReport, hown, hproc]

/-- Refutes O24: its seventh clause records a shed at every idle report of a phase in role 4, but one that its loop's shed did not name is not reported. -/
theorem not_phasesBalanceAddAndShed : ¬ Obligations.PhasesBalanceAddAndShed := by
  unfold Obligations.PhasesBalanceAddAndShed
  rintro ⟨-, -, -, -, -, -, reports, -⟩
  have hcore : strayShed.chip.coreRuns = true := by decide +kernel
  have hown : strayShed.chip.owner 1 = some 0 := by decide +kernel
  have hrole : strayShed.chip.get (PHS.STATE_ROLE 1) = 4 := by decide +kernel
  have hsame : strayShed.chip.hintReady.get (PHSL.EVT_SHEDF 0) = 0 := by decide +kernel
  obtain ⟨t, ht, hrec, -⟩ := reports strayShed 1 0 hcore hown hrole rfl
  have hidle : strayShed.chip.idleReport 1 = strayShed.chip := idleReport_of_not_proc _ _ _ hown (by decide +kernel)
  have hrun : Machine.exec (.phaseIdleReport 1) strayShed
      = .next { strayShed with chip := if strayShed.chip.coreRuns then (strayShed.chip.idleReport 1).hintReady else strayShed.chip } := rfl
  rw [hrun, if_pos hcore, hidle] at ht
  have hzero : t.chip.get (PHSL.EVT_SHEDF 0) = 0 := by
    rw [← Host.Outcome.next.inj ht]
    exact hsame
  obtain ⟨hflag, -⟩ := hrec
  exact absurd (hflag.symm.trans hzero) (by decide)

end Sys2Proof.Machine

namespace Sys2Proof.Machine

/-! Which registers an operation can change: one relation, and one rule for each way in which a meaning builds its next state. -/

/-- Fields of different registers share no bit. -/
theorem Fld.apart_of_off_ne (f g : Fld) (h : f.off ≠ g.off) : f.apart g = true := by simp [Fld.apart, h]

theorem span_of_le_lt {a b o : Nat} (h : a ≤ o ∧ o < b) : span a b o = true := by simp [span, h]

/-- `t` holds in every register that `T` does not name what `s` holds there. -/
structure Chip.OnlyIn (T : Nat → Bool) (s t : Chip) : Prop where
  same : ∀ o, T o = false → t.regs.get o = s.regs.get o

namespace Chip.OnlyIn

variable {T : Nat → Bool} {s t u : Chip}

theorem refl (T : Nat → Bool) (s : Chip) : OnlyIn T s s := ⟨fun _ _ => rfl⟩

theorem trans (h : OnlyIn T s t) (k : OnlyIn T t u) : OnlyIn T s u := ⟨fun o ho => (k.same o ho).trans (h.same o ho)⟩

/-- Storage beside the registers does not count, after a change. -/
theorem upd (h : OnlyIn T s t) (k : u.regs = t.regs) : OnlyIn T s u := ⟨fun o ho => by rw [k, h.same o ho]⟩

/-- Storage beside the registers does not count, before a change. -/
theorem updFirst (h : OnlyIn T t u) (k : t.regs = s.regs) : OnlyIn T s u := ⟨fun o ho => by rw [h.same o ho, k]⟩

theorem setReg (h : OnlyIn T s t) (o : Nat) (w : Word) (ho : T o = true) : OnlyIn T s (t.setReg o w) where
  same p hp := by
    have hne : p ≠ o := by rintro rfl; simp_all
    exact (reg_setReg_other t o p w hne).trans (h.same p hp)

theorem put (h : OnlyIn T s t) (f : Fld) (v : Nat) (hf : T f.off = true) : OnlyIn T s (t.put f v) := h.setReg _ _ hf

/-- A field of a register that stays reads the same. -/
theorem get (h : OnlyIn T s t) (f : Fld) (hf : T f.off = false) : t.get f = s.get f := congrArg (fun w => wordField w f.lo f.width) (h.same f.off hf)

theorem mono {U : Nat → Bool} (h : OnlyIn T s t) (hTU : ∀ o, T o = true → U o = true) : OnlyIn U s t :=
  ⟨fun o ho => h.same o (by_contra fun hT => by simp [hTU o (by simpa using hT)] at ho)⟩

theorem either {b : Prop} [Decidable b] (h : OnlyIn T s t) (k : OnlyIn T s u) : OnlyIn T s (if b then t else u) := by
  split
  · exact h
  · exact k

theorem forEach {l : List Nat} {f : Nat → Chip → Chip} (h : OnlyIn T s t) (hf : ∀ i ∈ l, ∀ c, OnlyIn T c (f i c)) :
    OnlyIn T s (t.forEach l f) := by
  induction l generalizing t with
  | nil => exact h
  | cons i l ih => exact ih (h.trans (hf i List.mem_cons_self t)) fun j hj => hf j (List.mem_cons_of_mem _ hj)

end Chip.OnlyIn

end Sys2Proof.Machine

namespace Sys2Proof.Machine
open Chip.OnlyIn

/-! What a cold start that fails its self-test does to the registers: beside the reset of the switched domains it writes registers of the hub alone. -/

/-- The registers of the hub lie below those of the phase dies (R504). -/
def onHub (o : Nat) : Bool := decide (o < 0x100000)

theorem onHub_of_lt {o : Nat} (h : o < 0x100000) : onHub o = true := decide_eq_true h

theorem linkWake_onHub (c : Chip) : c.OnlyIn onHub c.linkWake := by
  unfold Chip.linkWake
  exact either (put (refl _ _) _ _ rfl) (refl _ _)

theorem signalVec_onHub (c : Chip) (v : Nat) : c.OnlyIn onHub (c.signalVec v) := by
  have pend := put (refl onHub c) (PBA.BITS_PEND 0) (setBitAt (c.get (PBA.BITS_PEND 0)) v true) rfl
  unfold Chip.signalVec
  refine either (refl _ _) (either (either ((linkWake_onHub c).upd rfl) pend) (either (either (pend.upd rfl) ?_) pend))
  exact (pend.trans (linkWake_onHub _)).upd rfl

theorem ringCount_onHub (c : Chip) (r : Nat) (irq : Bool) : c.OnlyIn onHub (c.ringCount r irq) := by
  unfold Chip.ringCount Chip.ringSignal
  exact either ((signalVec_onHub _ _).updFirst rfl) ((refl _ c).upd rfl)

theorem eventStore_onHub (c : Chip) (bytes : List Byte) : c.OnlyIn onHub (c.ringStore evtRing bytes) := by
  have index : c.OnlyIn onHub (c.incWrap (RING.DIDX_DIDX evtRing)) := put (refl onHub c) (RING.DIDX_DIDX evtRing) _ rfl
  unfold Chip.ringStore
  refine put ?_ (RING.STAT_FULL evtRing) _ rfl
  exact upd index rfl

theorem eventDrop_onHub (c : Chip) : c.OnlyIn onHub (c.ringDrop evtRing) :=
  upd (put (refl onHub c) (RING.CNT_CNT evtRing) _ rfl) rfl

theorem hostEvent_onHub (c : Chip) (type inst : Nat) (body : List Byte) : c.OnlyIn onHub (c.hostEvent type inst body) := by
  have drop : ∀ t : Chip, t.regs = c.regs → c.OnlyIn onHub (t.ringDrop evtRing) := fun t ht => (eventDrop_onHub t).updFirst ht
  unfold Chip.hostEvent
  refine either (refl _ _) (either (drop _ rfl) (either (either ((refl _ c).upd rfl) (drop _ rfl)) (either (drop _ rfl) ?_)))
  exact updFirst ((eventStore_onHub _ _).trans (ringCount_onHub _ _ _)) rfl

theorem guardShow_onHub (c : Chip) : c.OnlyIn onHub c.guardShow := by
  unfold Chip.guardShow
  exact put (put (refl onHub c) FLT.STAT_GREASON _ rfl) FLT.STAT_GUARD _ rfl

theorem pmbLatch_onHub (c : Chip) (pages j b : Nat) : c.OnlyIn onHub (c.pmbLatch pages j b) := by
  unfold Chip.pmbLatch
  refine either ?_ (refl _ _)
  refine put ?_ PMB.STAT_ALERT _ rfl
  exact (refl _ c).upd rfl

theorem fltShow_onHub (c : Chip) : c.OnlyIn onHub c.fltShow := by
  have pin : c.OnlyIn onHub (c.putB FLTA.PIN_LEVEL c.faultLow) := put (refl _ _) _ _ rfl
  have latch := either (b := c.faultLow = true) (pin.trans (pmbLatch_onHub _ pmbEvery 5 1)) pin
  unfold Chip.fltShow
  exact either latch (put (put (put (put latch FLT.STAT_NHELD _ rfl) FLT.STAT_MAXCLS _ rfl) FLT.STAT_F3L _ rfl) FLT.STAT_F4L _ rfl)

theorem bootShow_onHub (c : Chip) : c.OnlyIn onHub c.bootShow := by
  have flags : c.OnlyIn onHub ((((((c.put FW.STAT_BOOTSEL c.boot.bootsel).put SEC.MINSVN_MINSVN c.boot.minsvn).put SEC.CSCNT_COUNT c.boot.cscnt).putB
      SEC.STAT_OWNER c.boot.owner.isSome).putB SEC.STAT_OWNERONLY c.boot.ownerOnly)) :=
    put (put (put (put (put (refl _ _) _ _ rfl) _ _ rfl) _ _ rfl) _ _ rfl) _ _ rfl
  unfold Chip.bootShow
  refine flags.forEach fun i hi u => setReg (refl _ _) _ _ ?_
  rw [List.mem_range] at hi
  refine onHub_of_lt ?_
  simp only [SEC.ODIG]
  omega

theorem tableShow_onHub (c : Chip) : c.OnlyIn onHub c.tableShow := by
  unfold Chip.tableShow
  refine forEach (forEach (refl _ _) fun j hj u => setReg (refl _ _) _ _ ?_) fun i hi u => setReg (refl _ _) _ _ ?_
  · rw [List.mem_range] at hj
    refine onHub_of_lt ?_
    simp only [TILE.PRES]
    omega
  · rw [List.mem_range] at hi
    refine onHub_of_lt ?_
    simp only [TILE.TABLE]
    omega

theorem epochShow_onHub (c : Chip) (epoch : Nat) (digest : List Byte) : c.OnlyIn onHub (c.epochShow epoch digest) := by
  have words : c.OnlyIn onHub ((c.put SEC.EPOCH_LO_EPL epoch).put SEC.EPOCH_HI_EPH (epoch / 2 ^ 32)) := put (put (refl _ _) _ _ rfl) _ _ rfl
  unfold Chip.epochShow
  refine words.forEach fun i hi u => setReg (refl _ _) _ _ ?_
  rw [List.mem_range] at hi
  refine onHub_of_lt ?_
  simp only [SEC.CDIG]
  omega

theorem cfgOpen_onHub (c : Chip) (m : List Host.Cell) : c.OnlyIn onHub (c.cfgOpen m) := by
  unfold Chip.cfgOpen
  split
  · exact (tableShow_onHub c).trans (epochShow_onHub _ _ _)
  · exact updFirst ((tableShow_onHub _).trans (epochShow_onHub _ _ _)) rfl

theorem bellTimes_onHub (c : Chip) (src n : Nat) : c.OnlyIn onHub (c.bellTimes src n) := by
  unfold Chip.bellTimes
  exact either (refl _ _) ((refl _ c).upd rfl)

theorem logOpen_onHub (c : Chip) (m : List Host.Cell) : c.OnlyIn onHub (c.logOpen m) := by
  have places (h : StoreHw) (seq old : Nat) : c.OnlyIn onHub (({ c with store := h }.put NVM.LOGHEAD_SEQ seq).put NVM.LOGOLD_SEQ old) := by
    refine put (put ?_ _ _ rfl) _ _ rfl
    exact (refl _ c).upd rfl
  unfold Chip.logOpen
  refine either (places _ _ _) ?_
  refine Chip.OnlyIn.trans ?_ (bellTimes_onHub _ _ _)
  exact put (put (places _ _ _) NVM.EVT_TORNF _ rfl) NVM.EVTCNT_TORNCNT _ rfl

theorem awakeRefresh_onHub (c : Chip) : c.OnlyIn onHub c.awakeRefresh := by
  unfold Chip.awakeRefresh
  refine forEach (refl _ _) fun k hk u => put (put (refl _ _) (PP.STAT_ASLEEP k) _ ?_) _ _ rfl
  rw [List.mem_range] at hk
  refine onHub_of_lt ?_
  simp only [PP.STAT_ASLEEP, PP.STAT]
  omega

theorem domsPut_onHub (c : Chip) (on : Bool) : c.OnlyIn onHub (c.domsPut on) := by
  unfold Chip.domsPut
  exact put (put (put (put (put (refl _ _) _ _ rfl) _ _ rfl) _ _ rfl) _ _ rfl) _ _ rfl

theorem diesIsolate_onHub (c : Chip) : c.OnlyIn onHub c.diesIsolate := by
  unfold Chip.diesIsolate
  refine forEach (put (put (refl _ _) _ _ rfl) _ _ rfl) fun n hn u => put (refl _ _) (LINK.LINKSTAT_UP n) _ ?_
  simp only [allDies, List.mem_cons, List.not_mem_nil, or_false] at hn
  refine onHub_of_lt ?_
  simp only [LINK.LINKSTAT_UP, LINK.LINKSTAT]
  omega

theorem confLost_onHub (c : Chip) : c.OnlyIn onHub c.confLost := by
  unfold Chip.confLost
  refine forEach (refl _ _) fun r hr u => upd (put (refl _ u) (WMON.STAT_CONFPEND r) 0 ?_) rfl
  have hr : r < 64 := List.mem_range.1 (List.mem_of_mem_filter hr)
  refine onHub_of_lt ?_
  simp only [WMON.STAT_CONFPEND, WMON.STAT]
  omega

theorem switchedOff_onHub (c : Chip) : c.aonOnly.OnlyIn onHub c.switchedOff := by
  have isolated : c.aonOnly.OnlyIn onHub (c.aonOnly.domsPut false).diesIsolate := (domsPut_onHub _ _).trans (diesIsolate_onHub _)
  unfold Chip.switchedOff
  refine Chip.OnlyIn.trans (Chip.OnlyIn.trans ?_ (confLost_onHub _)) (fltShow_onHub _)
  exact either (put (put isolated _ _ rfl) _ _ rfl) isolated

theorem switchedOn_onHub (c : Chip) : c.aonOnly.OnlyIn onHub c.switchedOn := by
  unfold Chip.switchedOn
  have up : c.switchedOff.OnlyIn onHub ((c.switchedOff.put PWR.DOMSTAT_HOLDUP 0).domsPut true) := (put (refl _ _) _ _ rfl).trans (domsPut_onHub _ _)
  exact (switchedOff_onHub c).trans (up.trans (fltShow_onHub _))

/-- A cold start's chip with the switched domains reset and the device locked (R459). -/
def Chip.coldLocked (c : Chip) (msgs : List FaultMsg) : Chip :=
  (((({ c.switchedOn with faultQ := msgs }.put THMA.SDMASK_MASK 0).put THMA.SDSTAT_STATE 0).put PWR.DOMCTL_POLSLP 0).put ACC.ACCST_LOCKED 1).guardShow

/-- That chip with what the memory tells of boot control, the configuration and the log, and the host's entry posted. -/
def Chip.coldTold (c : Chip) (m : List Host.Cell) (msgs : List FaultMsg) : Chip :=
  let t := c.coldLocked msgs
  let t := (({ t with boot := bootTake m t.boot }.bootShow.cfgOpen m).logOpen m).awakeRefresh
  t.hostEvent 4 1 (bytesLE 4 (t.reg TOP.REVISION).toNat ++ bytesLE 8 t.epoch)

theorem coldBegin_eq (c : Chip) (m : List Host.Cell) (msgs : List FaultMsg) :
    c.coldBegin m msgs = (if (c.get THMA.SDSTAT_STATE != 0) = true
      then ((c.coldTold m msgs).raise ⟨0x2401, (c.coldTold m msgs).get THMA.SDSTAT_INST, BitVec.ofNat 32 ((c.coldTold m msgs).get THMA.BUFLOST_LOST)⟩).pmbLatch pmbEvery 3 7
      else c.coldTold m msgs).fltShow := rfl

theorem coldLocked_onHub (c : Chip) (msgs : List FaultMsg) : c.switchedOn.OnlyIn onHub (c.coldLocked msgs) := by
  unfold Chip.coldLocked
  refine Chip.OnlyIn.trans (put (put (put (put ?_ _ _ rfl) _ _ rfl) _ _ rfl) _ _ rfl) (guardShow_onHub _)
  exact (refl _ c.switchedOn).upd rfl

theorem coldTold_onHub (c : Chip) (m : List Host.Cell) (msgs : List FaultMsg) : c.switchedOn.OnlyIn onHub (c.coldTold m msgs) := by
  have shown : c.switchedOn.OnlyIn onHub { c.coldLocked msgs with boot := bootTake m (c.coldLocked msgs).boot }.bootShow := by
    refine Chip.OnlyIn.trans ?_ (bootShow_onHub _)
    exact (coldLocked_onHub c msgs).upd rfl
  have loaded := ((shown.trans (cfgOpen_onHub _ m)).trans (logOpen_onHub _ m)).trans (awakeRefresh_onHub _)
  unfold Chip.coldTold
  exact loaded.trans (hostEvent_onHub _ _ _ _)

/-- Once the switched domains are reset, a cold start writes registers of the hub alone before it decides (R459). -/
theorem coldBegin_onHub (c : Chip) (m : List Host.Cell) (msgs : List FaultMsg) : c.switchedOn.OnlyIn onHub (c.coldBegin m msgs) := by
  have told := coldTold_onHub c m msgs
  have shut (f : FaultMsg) : c.switchedOn.OnlyIn onHub (((c.coldTold m msgs).raise f).pmbLatch pmbEvery 3 7) :=
    (told.upd (raise_regs _ f)).trans (pmbLatch_onHub _ _ _ _)
  rw [coldBegin_eq]
  exact (either (shut _) told).trans (fltShow_onHub _)

theorem hold_onHub (c : Chip) (reason : Nat) : c.OnlyIn onHub (c.hold reason) := by
  have held : c.OnlyIn onHub ((c.put FW.STAT_HOLD 1).put FW.STAT_HOLDRSN reason) := put (put (refl _ _) _ _ rfl) _ _ rfl
  have closed : c.OnlyIn onHub (((c.put FW.STAT_HOLD 1).put FW.STAT_HOLDRSN reason).guardClose 1) := held.trans ((guardShow_onHub _).updFirst rfl)
  unfold Chip.hold
  refine Chip.OnlyIn.trans ?_ (fltShow_onHub _)
  exact closed.upd (raise_regs _ _)

/-- A cold start that fails its self-test ends in maintenance hold with reason 2 (R459). -/
theorem coldStart_of_selfTest_failed (s : State) (cold : ColdIn) (msgs : List FaultMsg) (h : cold.selfTest = false) :
    s.coldStart cold msgs = { s with chip := (s.chip.coldBegin s.nvm msgs).hold 2 } := by
  simp [State.coldStart, State.coldGo, h]

/-- The chip once VCORE and VANA18 are good. -/
def Chip.supplied (c : Chip) : Chip := { c with power := { c.power with supplies := true } }

/-- Good supplies outside hold-up and a thermal shutdown begin a cold start. -/
theorem suppliesGood_eq_coldStart (s : State) (cold : ColdIn) (haon : s.chip.power.aon = true) (hvaux : s.chip.power.vaux = true) (hsup : s.chip.power.supplies = false)
    (hhold : s.chip.inHoldup = false) (hshut : s.chip.get THMA.SDSTAT_STATE = 0) : s.suppliesGood cold = State.coldStart { s with chip := s.chip.supplied } cold [] := by
  have hmay : s.chip.supplied.coldMay = true := by
    have hin : s.chip.supplied.inHoldup = false := hhold
    have hsd : s.chip.supplied.get THMA.SDSTAT_STATE = 0 := hshut
    have hpow : s.chip.supplied.power = { s.chip.power with supplies := true } := rfl
    simp [Chip.coldMay, hin, hsd, hpow, haon, hvaux]
  have hcond : (s.chip.power.aon && s.chip.power.vaux && !s.chip.inHoldup && !s.chip.power.supplies) = true := by simp [haon, hvaux, hsup, hhold]
  unfold State.suppliesGood
  exact (if_pos hcond).trans (if_pos hmay)

/-- A word at an offset of the dies' windows where the map has no register; the device's supplies are about to be good. -/
def oddWord : State :=
  { chip := { (State.reset.chip.setReg 0x100001 1) with power := ⟨true, true, false, false, none⟩ } }

/-- Refutes O11: its first clause gives every offset of the dies' windows its reset word, but one at which no register lies (0x100001) keeps the word it held. -/
theorem not_suppliesGoodBeginsAColdStart : ¬ Obligations.SuppliesGoodBeginsAColdStart := by
  unfold Obligations.SuppliesGoodBeginsAColdStart
  rintro ⟨selfTest, -⟩
  have hhold : oddWord.chip.get PWR.DOMSTAT_HOLDUP = 0 := by decide +kernel
  have hin : oddWord.chip.inHoldup = false := by decide +kernel
  have hshut : oddWord.chip.get THMA.SDSTAT_STATE = 0 := by decide +kernel
  obtain ⟨t, ht, -, -, -, -, -, -, -, -, -, -, -, -, -, -, -, -, -, -, -, dies⟩ := selfTest oddWord true true 0 rfl rfl rfl hhold hshut
  have hrun : Machine.exec (.suppliesGood ⟨false, true, true, 0⟩) oddWord = .next (oddWord.suppliesGood ⟨false, true, true, 0⟩) := rfl
  rw [hrun, suppliesGood_eq_coldStart _ _ rfl rfl rfl hin hshut, coldStart_of_selfTest_failed _ _ _ rfl] at ht
  have hword : t.chip.reg 0x100001 = 1 := by
    have kept := (switchedOn_onHub oddWord.chip.supplied).trans ((coldBegin_onHub _ oddWord.nvm []).trans (hold_onHub _ 2))
    have held : oddWord.chip.supplied.aonOnly.reg 0x100001 = 1 := by decide +kernel
    rw [← Host.Outcome.next.inj ht]
    exact (kept.same 0x100001 rfl).trans held
  rw [dies 0x100001 rfl] at hword
  exact absurd hword (by decide +kernel)

end Sys2Proof.Machine

namespace Sys2Proof.Machine

open Chip.OnlyIn (upd put refl)

/-! POL's sleep: its request is a write of a command register, and its entry and wake are routing evaluations of the event hub (R34, R397, R404). -/

/-- DOMCTL has no configuration field: a request carries its command bit alone. -/
theorem pairMask_domctl : pairMask PWR.DOMCTL = 0 := by decide +kernel

theorem domctl_carries (c : Chip) : Carries c PWR.DOMCTL 1 where
  aligned := rfl
  known := by decide +kernel
  box := rfl
  msix := rfl
  plain := by decide
  rw' := by decide +kernel
  lock := by decide +kernel
  fields := by rw [pairMask_domctl]; simp
  flags := by decide +kernel
  counter b fs h := by simp [show cntClears PWR.DOMCTL = none by decide +kernel] at h

theorem fldSet_carry_domctl (c : Chip) : fldSet (c.carry PWR.DOMCTL) PWR.DOMCTL_POLSLP 1 = 1 := by
  have : c.carry PWR.DOMCTL = 0 := by simp [Chip.carry, pairMask_domctl]
  rw [this]
  decide

/-- A request that reaches DOMCTL sets POLSLP (R34, R37). -/
theorem exec_polSleepRequest (s : State) (req : Requester) (h : s.chip.reaches req PWR.DOMCTL = true) :
    Machine.exec (.polSleepRequest req) s = .next { s with chip := s.chip.put PWR.DOMCTL_POLSLP 1 } := by
  have hrun : Machine.exec (.polSleepRequest req) s
      = .next { s with chip := s.chip.busWrite s.nvm req PWR.DOMCTL (fldSet (s.chip.carry PWR.DOMCTL) PWR.DOMCTL_POLSLP 1) true } := rfl
  rw [hrun, fldSet_carry_domctl, busWrite_carries _ _ _ _ _ _ h (domctl_carries _)]
  rfl

/-- The registers of the event hub's routing: sources, processors and WAKEST (R412). -/
def hubRegs (o : Nat) : Bool := span 0x28000 0x2e000 o

/-- What showing the processors' sleep leaves as it is, beside registers outside the hub: each processor's CTRL, whether a wake is recorded, and what waits outside. -/
structure Chip.Shows (s t : Chip) : Prop where
  regs : s.OnlyIn hubRegs t
  ctrl : ∀ k, k < 4 → t.reg (PP.CTRL k) = s.reg (PP.CTRL k)
  valid : t.get EVH.WAKEST_VALID = s.get EVH.WAKEST_VALID
  wake : t.evh.wake = s.evh.wake
  faults : t.faultQ = s.faultQ
  outs : t.outbox = s.outbox

/-- A step of the routing leaves each processor's ASLEEP too. -/
structure Chip.Routes (s t : Chip) : Prop extends Chip.Shows s t where
  asleep : ∀ k, k < 4 → t.get (PP.STAT_ASLEEP k) = s.get (PP.STAT_ASLEEP k)

/-- A field of the hub apart from what a refresh leaves. -/
structure Fld.Shown (f : Fld) : Prop where
  regs : hubRegs f.off = true
  ctrl : ∀ k, k < 4 → PP.CTRL k ≠ f.off
  valid : EVH.WAKEST_VALID.apart f = true

/-- A field of the hub apart from what the routing leaves. -/
structure Fld.Routed (f : Fld) : Prop extends Fld.Shown f where
  asleep : ∀ k, k < 4 → (PP.STAT_ASLEEP k).apart f = true

theorem Chip.Shows.refl (s : Chip) : Shows s s := ⟨.refl _ _, fun _ _ => rfl, rfl, rfl, rfl, rfl⟩

theorem Chip.Shows.trans {s t u : Chip} (h : Shows s t) (k : Shows t u) : Shows s u :=
  ⟨h.regs.trans k.regs, fun i hi => (k.ctrl i hi).trans (h.ctrl i hi), k.valid.trans h.valid, k.wake.trans h.wake, k.faults.trans h.faults, k.outs.trans h.outs⟩

theorem Chip.Shows.put {s t : Chip} (h : Shows s t) (f : Fld) (v : Nat) (hf : f.Shown) : Shows s (t.put f v) where
  regs := h.regs.put f v hf.regs
  ctrl i hi := (reg_put_other t f v _ (hf.ctrl i hi)).trans (h.ctrl i hi)
  valid := (get_put_apart t f _ v rfl hf.valid).trans h.valid
  wake := h.wake
  faults := h.faults
  outs := h.outs

namespace Chip.Routes

variable {s t u : Chip}

theorem refl (s : Chip) : Routes s s := ⟨.refl s, fun _ _ => rfl⟩

theorem trans (h : Routes s t) (k : Routes t u) : Routes s u := ⟨h.toShows.trans k.toShows, fun i hi => (k.asleep i hi).trans (h.asleep i hi)⟩

theorem put (h : Routes s t) (f : Fld) (v : Nat) (hf : f.Routed) : Routes s (t.put f v) :=
  ⟨h.toShows.put f v hf.toShown, fun i hi => (get_put_apart t f _ v rfl (hf.asleep i hi)).trans (h.asleep i hi)⟩

end Chip.Routes

/-- The registers of the sources lie behind those of the processors and WAKEST. -/
theorem routed_source (i lo width : Nat) (hi : i < 2048) : Fld.Routed ⟨SRC.STATE i, lo, width⟩ := by
  have hoff : SRC.STATE i = 0x2a004 + 8 * i := rfl
  refine ⟨⟨?_, fun k hk => ?_, Fld.apart_of_off_ne _ _ ?_⟩, fun k hk => Fld.apart_of_off_ne _ _ ?_⟩
  · refine span_of_le_lt ?_; simp only [hoff]; omega
  · simp only [PP.CTRL, hoff]; omega
  · simp only [EVH.WAKEST_VALID, EVH.WAKEST, hoff]; omega
  · simp only [PP.STAT_ASLEEP, PP.STAT, hoff]; omega

/-- REQ and REQCLS lie above ASLEEP in a processor's STAT. -/
theorem routed_request (k lo : Nat) (hk : k < 4) (hlo : 29 ≤ lo) : Fld.Routed ⟨PP.STAT k, lo, 1⟩ := by
  have hoff : PP.STAT k = 0x28104 + 0x80 * k := rfl
  refine ⟨⟨?_, fun j hj => ?_, Fld.apart_of_off_ne _ _ ?_⟩, fun j hj => ?_⟩
  · refine span_of_le_lt ?_; simp only [hoff]; omega
  · simp only [PP.CTRL, hoff]; omega
  · simp only [EVH.WAKEST_VALID, EVH.WAKEST, hoff]; omega
  · have : decide ((PP.STAT_ASLEEP j).lo + (PP.STAT_ASLEEP j).width ≤ lo) = true := decide_eq_true hlo
    simp [Fld.apart, this]

theorem routed_win (k : Nat) (hk : k < 4) : Fld.Routed ⟨PP.WIN k, 0, 32⟩ := by
  have hoff : PP.WIN k = 0x28108 + 0x80 * k := rfl
  refine ⟨⟨?_, fun j hj => ?_, Fld.apart_of_off_ne _ _ ?_⟩, fun j hj => Fld.apart_of_off_ne _ _ ?_⟩
  · refine span_of_le_lt ?_; simp only [hoff]; omega
  · simp only [PP.CTRL, hoff]; omega
  · simp only [EVH.WAKEST_VALID, EVH.WAKEST, hoff]; omega
  · simp only [PP.STAT_ASLEEP, PP.STAT, hoff]; omega

theorem routed_wakeProc : Fld.Routed EVH.WAKEST_PP := by
  refine ⟨⟨rfl, fun j hj => ?_, rfl⟩, fun j hj => Fld.apart_of_off_ne _ _ ?_⟩
  · simp only [PP.CTRL, EVH.WAKEST_PP, EVH.WAKEST]; omega
  · simp only [PP.STAT_ASLEEP, PP.STAT, EVH.WAKEST_PP, EVH.WAKEST]; omega

namespace Chip.Routes

variable {s t u : Chip}

/-- A processor's winner word is written as a whole. -/
theorem setWin (h : Routes s t) (k : Nat) (w : Word) (hk : k < 4) : Routes s (t.setReg (PP.WIN k) w) := by
  have hwin := routed_win k hk
  have hfield (f : Fld) (hf : f.off ≠ PP.WIN k) : (t.setReg (PP.WIN k) w).get f = t.get f := by rw [Chip.get, Chip.get, reg_setReg_other _ _ _ _ hf]
  refine ⟨⟨h.regs.setReg _ _ hwin.regs, fun i hi => ?_, ?_, h.wake, h.faults, h.outs⟩, fun i hi => ?_⟩
  · exact (reg_setReg_other _ _ _ _ (hwin.ctrl i hi)).trans (h.ctrl i hi)
  · refine (hfield _ ?_).trans h.valid
    simp only [EVH.WAKEST_VALID, EVH.WAKEST, PP.WIN]; omega
  · refine (hfield _ ?_).trans (h.asleep i hi)
    simp only [PP.STAT_ASLEEP, PP.STAT, PP.WIN]; omega

/-- The order of routing, and which route a tie or a wake chose, lie beside the rest. -/
theorem upd (h : Routes s t) (k : u.regs = t.regs) (kw : u.evh.wake = t.evh.wake) (kf : u.faultQ = t.faultQ) (ko : u.outbox = t.outbox) : Routes s u where
  regs := h.regs.upd k
  ctrl i hi := by rw [← h.ctrl i hi, Chip.reg, Chip.reg, k]
  asleep i hi := (get_congr k _).trans (h.asleep i hi)
  valid := (get_congr k _).trans h.valid
  wake := kw.trans h.wake
  faults := kf.trans h.faults
  outs := ko.trans h.outs

theorem either {b : Prop} [Decidable b] (h : Routes s t) (k : Routes s u) : Routes s (if b then t else u) := by
  split
  · exact h
  · exact k

theorem forEach {l : List Nat} {f : Nat → Chip → Chip} (h : Routes s t) (hf : ∀ i ∈ l, ∀ c, Routes c (f i c)) : Routes s (t.forEach l f) := by
  induction l generalizing t with
  | nil => exact h
  | cons i l ih => exact ih (h.trans (hf i List.mem_cons_self t)) fun j hj => hf j (List.mem_cons_of_mem _ hj)

end Chip.Routes

theorem winClear_routes (c : Chip) (k : Nat) (hk : k < 4) : c.Routes (c.winClear k) := by
  unfold Chip.winClear
  refine .setWin (.put (.put ?_ (PP.STAT_REQ k) 0 (routed_request k 31 hk (by decide))) (PP.STAT_REQCLS k) 0 (routed_request k 30 hk (by decide))) k 0 hk
  split
  · split
    · next hi => exact .put (.refl c) _ _ (routed_source _ 4 1 hi)
    · exact .refl c
  · exact .refl c

theorem winSet_routes (c : Chip) (i k : Nat) (tie : Bool) (hi : i < 2048) (hk : k < 4) : c.Routes (c.winSet i k tie) := by
  have source : c.Routes ((c.put (SRC.STATE_ROUTED i) 1).put (SRC.STATE_PP i) k) := .put (.put (.refl c) _ _ (routed_source i 4 1 hi)) _ _ (routed_source i 2 2 hi)
  have request : c.Routes (((((c.put (SRC.STATE_ROUTED i) 1).put (SRC.STATE_PP i) k).put (PP.STAT_REQ k) 1).put (PP.STAT_REQCLS k) (c.get (SRC.CFG_CLS i)))) :=
    .put (.put source _ _ (routed_request k 31 hk (by decide))) _ _ (routed_request k 30 hk (by decide))
  unfold Chip.winSet
  refine .either (.upd (.put ?_ _ _ routed_wakeProc) rfl rfl rfl rfl) ?_
  all_goals exact .upd (request.setWin k _ hk) rfl rfl rfl rfl

theorem pickProc_lt (c : Chip) (cand : List Nat) (k : Nat) (tie : Bool) (h : c.pickProc cand = some (k, tie)) : k < 4 := by
  unfold Chip.pickProc at h
  dsimp only at h
  split at h
  · next j hj =>
    obtain ⟨rfl, -⟩ := Prod.mk.inj (Option.some.inj h)
    obtain ⟨i, -, rfl⟩ := List.mem_map.1 (List.mem_of_find?_eq_some hj)
    omega
  · cases h

/-- A pass routes sources of its list to the four processors. -/
theorem mem_routePass (c : Chip) (ctl : List (Option Word)) (l free : List Nat) : ∀ r ∈ c.routePass ctl l free, r.1 ∈ l ∧ r.2.1 < 4 := by
  induction l generalizing free with
  | nil => simp [Chip.routePass]
  | cons i l ih =>
    have later (free : List Nat) : ∀ r ∈ c.routePass ctl l free, r.1 ∈ i :: l ∧ r.2.1 < 4 := fun r hr =>
      ⟨List.mem_cons_of_mem _ (ih free r hr).1, (ih free r hr).2⟩
    intro r hr
    rw [Chip.routePass] at hr
    split at hr
    · next k tie hpick =>
      rcases List.mem_cons.1 hr with rfl | hr
      · exact ⟨List.mem_cons_self, pickProc_lt _ _ _ _ hpick⟩
      · exact later _ r hr
    · exact later _ r hr

theorem mem_srcInsert (c : Chip) (a : Nat) (l : List Nat) : ∀ i ∈ c.srcInsert a l, i = a ∨ i ∈ l := by
  induction l with
  | nil => simp [Chip.srcInsert]
  | cons b l ih =>
    intro i hi
    rw [Chip.srcInsert] at hi
    split at hi
    · simpa using hi
    · rcases List.mem_cons.1 hi with rfl | hi
      · simp
      · rcases ih i hi with h | h <;> simp [h]

/-- Only the hub's 2,048 sources are routed. -/
theorem routables_lt (c : Chip) : ∀ i ∈ c.routables, i < 2048 := by
  have insert (l m : List Nat) (hl : ∀ i ∈ l, i < 2048) (hm : ∀ i ∈ m, i < 2048) : ∀ i ∈ l.foldl (fun l a => c.srcInsert a l) m, i < 2048 := by
    induction l generalizing m with
    | nil => exact hm
    | cons a l ih =>
      obtain ⟨ha, hl⟩ := List.forall_mem_cons.1 hl
      refine ih _ hl fun i hi => ?_
      rcases mem_srcInsert c a m i hi with rfl | hi
      · exact ha
      · exact hm i hi
  refine insert _ _ (fun i hi => ?_) (by simp)
  have := (List.mem_filter.1 hi).2
  simp only [Chip.srcRoutable, Bool.and_eq_true, decide_eq_true_eq] at this
  exact this.1.1.1.1

theorem routeOnce_routes (c : Chip) : c.Routes c.routeOnce := by
  have place (l : List (Nat × Nat × Bool)) (t : Chip) (h : c.Routes t) (hl : ∀ r ∈ l, r.1 < 2048 ∧ r.2.1 < 4) :
      c.Routes (l.foldl (fun u r => u.winSet r.1 r.2.1 r.2.2) t) := by
    induction l generalizing t with
    | nil => exact h
    | cons r l ih =>
      obtain ⟨⟨hi, hk⟩, hl⟩ := List.forall_mem_cons.1 hl
      exact ih _ (h.trans (winSet_routes t _ _ _ hi hk)) hl
  have cleared : c.Routes (c.forEach (List.range 4) fun k u => u.winClear k) :=
    .forEach (.refl c) fun k hk u => winClear_routes u k (List.mem_range.1 hk)
  unfold Chip.routeOnce
  refine place _ _ (.upd cleared rfl rfl rfl rfl) fun r hr => ?_
  obtain ⟨hi, hk⟩ := mem_routePass _ _ _ _ r hr
  exact ⟨routables_lt _ _ hi, hk⟩

/-- ASLEEP of each processor shows POL and its PARK (R403). -/
def Chip.AwakeShown (c : Chip) : Prop := ∀ k, k < 4 → c.get (PP.STAT_ASLEEP k) = (!ppAwake c.ppCtls k).toNat

theorem ppCtls_congr {s t : Chip} (hpol : t.domOn .pol = s.domOn .pol) (hctrl : ∀ k, k < 4 → t.reg (PP.CTRL k) = s.reg (PP.CTRL k)) : t.ppCtls = s.ppCtls := by
  unfold Chip.ppCtls
  refine List.map_congr_left fun k hk => ?_
  rw [hpol, hctrl k (List.mem_range.1 hk)]

/-- POL's power shows in a register outside the hub. -/
theorem domOn_pol_congr {s t : Chip} (h : s.OnlyIn hubRegs t) : t.domOn .pol = s.domOn .pol := by
  simp only [Chip.domOn, Chip.bit, Chip.get]
  rw [show t.reg PWR.DOMSTAT_POL.off = s.reg PWR.DOMSTAT_POL.off from h.same PWR.DOMSTAT rfl]

theorem AwakeShown.of_routes {s t : Chip} (h : s.Routes t) (hs : s.AwakeShown) : t.AwakeShown := fun k hk => by
  rw [h.asleep k hk, hs k hk, ppCtls_congr (domOn_pol_congr h.regs) h.ctrl]

/-- One processor's turn in the refresh. -/
def Chip.awakeShow (c : Chip) (k : Nat) : Chip :=
  (c.putB (PP.STAT_ASLEEP k) (!ppAwake c.ppCtls k)).put EVH.STAT_AWAKE (setBitAt (c.get EVH.STAT_AWAKE) k (ppAwake c.ppCtls k))

theorem awakeRefresh_eq (c : Chip) : c.awakeRefresh = c.forEach (List.range 4) fun k t => t.awakeShow k := by
  unfold Chip.awakeRefresh Chip.awakeShow
  rfl

theorem awakeShow_shows (c : Chip) (k : Nat) (hk : k < 4) : c.Shows (c.awakeShow k) := by
  have hasleep : (PP.STAT_ASLEEP k).Shown := by
    refine ⟨?_, fun j hj => ?_, Fld.apart_of_off_ne _ _ ?_⟩
    · refine span_of_le_lt ?_; simp only [PP.STAT_ASLEEP, PP.STAT]; omega
    · simp only [PP.CTRL, PP.STAT_ASLEEP, PP.STAT]; omega
    · simp only [EVH.WAKEST_VALID, EVH.WAKEST, PP.STAT_ASLEEP, PP.STAT]; omega
  have hawake : EVH.STAT_AWAKE.Shown := by
    refine ⟨rfl, fun j hj => ?_, rfl⟩
    simp only [PP.CTRL, EVH.STAT_AWAKE, EVH.STAT]; omega
  exact ((Chip.Shows.refl c).put _ _ hasleep).put _ _ hawake

theorem awakeShow_asleep (c : Chip) (k j : Nat) (hj : j < 4) :
    (c.awakeShow k).get (PP.STAT_ASLEEP j) = if j = k then (!ppAwake c.ppCtls k).toNat else c.get (PP.STAT_ASLEEP j) := by
  have hother : (PP.STAT_ASLEEP j).apart EVH.STAT_AWAKE = true := Fld.apart_of_off_ne _ _ (by simp only [PP.STAT_ASLEEP, PP.STAT, EVH.STAT_AWAKE, EVH.STAT]; omega)
  unfold Chip.awakeShow Chip.putB
  rw [get_put_apart _ _ _ _ rfl hother]
  split
  · next h =>
    subst h
    rw [get_put_same _ _ _ rfl]
    cases ppAwake c.ppCtls j <;> rfl
  · next h => exact get_put_apart _ _ _ _ rfl (Fld.apart_of_off_ne _ _ (by simp only [PP.STAT_ASLEEP, PP.STAT]; omega))

/-- The refresh shows each of the four processors, and leaves the rest. -/
theorem awakeRefresh_shown (c : Chip) : c.Shows c.awakeRefresh ∧ c.awakeRefresh.AwakeShown := by
  have steps (l : List Nat) (t : Chip) (h : c.Shows t) (hl : ∀ k ∈ l, k < 4) :
      c.Shows (t.forEach l fun k u => u.awakeShow k) ∧ ∀ k, k < 4 → (k ∈ l ∨ t.get (PP.STAT_ASLEEP k) = (!ppAwake c.ppCtls k).toNat) →
        (t.forEach l fun k u => u.awakeShow k).get (PP.STAT_ASLEEP k) = (!ppAwake c.ppCtls k).toNat := by
    induction l generalizing t with
    | nil => exact ⟨h, fun k _ hk => hk.resolve_left List.not_mem_nil⟩
    | cons j l ih =>
      obtain ⟨hj, hl⟩ := List.forall_mem_cons.1 hl
      obtain ⟨hs, ha⟩ := ih (t.awakeShow j) (h.trans (awakeShow_shows t j hj)) hl
      refine ⟨hs, fun k hk hor => ha k hk ?_⟩
      rw [awakeShow_asleep t j k hk, ppCtls_congr (domOn_pol_congr h.regs) h.ctrl]
      by_cases hkj : k = j
      · simp [hkj]
      · rcases hor with hmem | hold
        · exact .inl ((List.mem_cons.1 hmem).resolve_left hkj)
        · simp [hkj, hold]
  obtain ⟨hs, ha⟩ := steps (List.range 4) c (.refl c) fun k hk => List.mem_range.1 hk
  rw [awakeRefresh_eq]
  refine ⟨hs, fun k hk => ?_⟩
  rw [ppCtls_congr (domOn_pol_congr hs.regs) hs.ctrl]
  exact ha k hk (.inl (List.mem_range.2 hk))

/-- What a routing evaluation does to POL's sleep: nothing outside the hub; ASLEEP goes on to show PARK, and a recorded wake stays recorded. -/
structure Chip.Evaluated (s t : Chip) : Prop where
  regs : s.OnlyIn hubRegs t
  faults : t.faultQ = s.faultQ
  outs : t.outbox = s.outbox
  shown : s.AwakeShown → t.AwakeShown
  valid : s.get EVH.WAKEST_VALID = 1 → t.get EVH.WAKEST_VALID = 1
  wake : s.domOn .pol = true → t.evh.wake = s.evh.wake

theorem Chip.Routes.evaluated {s t : Chip} (h : s.Routes t) : s.Evaluated t :=
  ⟨h.regs, h.faults, h.outs, AwakeShown.of_routes h, fun hv => h.valid.trans hv, fun _ => h.wake⟩

theorem Chip.Evaluated.trans {s t u : Chip} (h : Evaluated s t) (k : Evaluated t u) : Evaluated s u :=
  ⟨h.regs.trans k.regs, k.faults.trans h.faults, k.outs.trans h.outs, fun hs => k.shown (h.shown hs), fun hv => k.valid (h.valid hv),
    fun hp => (k.wake ((domOn_pol_congr h.regs).trans hp)).trans (h.wake hp)⟩

/-- A wake is recorded in WAKEST alone (R404). -/
theorem wakeRecord_onlyIn (c : Chip) (i : Nat) (pol : Bool) : c.OnlyIn (· == EVH.WAKEST) (c.wakeRecord i pol) := by
  unfold Chip.wakeRecord
  exact upd (put (put (put (put (refl _ c) EVH.WAKEST_VALID 1 rfl) EVH.WAKEST_POLW pol.toNat rfl) EVH.WAKEST_PP 0 rfl) EVH.WAKEST_SRC i rfl) rfl

theorem wakeRecord_valid (c : Chip) (i : Nat) (pol : Bool) : (c.wakeRecord i pol).get EVH.WAKEST_VALID = 1 := by
  have hregs : (c.wakeRecord i pol).regs = ((((c.put EVH.WAKEST_VALID 1).putB EVH.WAKEST_POLW pol).put EVH.WAKEST_PP 0).put EVH.WAKEST_SRC i).regs := by
    unfold Chip.wakeRecord
    rfl
  rw [get_congr hregs]
  calc _ = _ := get_put_apart _ EVH.WAKEST_SRC EVH.WAKEST_VALID i rfl rfl
    _ = _ := get_put_apart _ EVH.WAKEST_PP EVH.WAKEST_VALID 0 rfl rfl
    _ = _ := get_put_apart _ EVH.WAKEST_POLW EVH.WAKEST_VALID pol.toNat rfl rfl
    _ = 1 := get_put_same c EVH.WAKEST_VALID 1 rfl

@[simp] theorem wakeRecord_wake (c : Chip) (i : Nat) (pol : Bool) : (c.wakeRecord i pol).evh.wake = c.evh.wake := by
  unfold Chip.wakeRecord
  rfl

@[simp] theorem wakeRecord_faultQ (c : Chip) (i : Nat) (pol : Bool) : (c.wakeRecord i pol).faultQ = c.faultQ := by
  unfold Chip.wakeRecord
  rfl

@[simp] theorem wakeRecord_outbox (c : Chip) (i : Nat) (pol : Bool) : (c.wakeRecord i pol).outbox = c.outbox := by
  unfold Chip.wakeRecord
  rfl

/-- A step that shows the processors' sleep anew and then records a wake. -/
theorem wake_evaluated (c t : Chip) (i : Nat) (pol : Bool) (hregs : c.OnlyIn hubRegs t) (hf : t.faultQ = c.faultQ) (ho : t.outbox = c.outbox) (hw : t.evh.wake = c.evh.wake) :
    c.Evaluated (t.awakeRefresh.wakeRecord i pol) ∧ (t.awakeRefresh.wakeRecord i pol).AwakeShown ∧ (t.awakeRefresh.wakeRecord i pol).get EVH.WAKEST_VALID = 1 := by
  obtain ⟨hs, hshown⟩ := awakeRefresh_shown t
  have hrec := wakeRecord_onlyIn t.awakeRefresh i pol
  have hreg (o : Nat) (hne : o ≠ EVH.WAKEST) : (t.awakeRefresh.wakeRecord i pol).reg o = t.awakeRefresh.reg o := hrec.same o (by simpa using hne)
  have hhub : t.awakeRefresh.OnlyIn hubRegs (t.awakeRefresh.wakeRecord i pol) := hrec.mono fun o h => by rw [beq_iff_eq.1 h]; rfl
  have hstill : (t.awakeRefresh.wakeRecord i pol).AwakeShown := fun k hk => by
    have hctrl : ∀ j, j < 4 → (t.awakeRefresh.wakeRecord i pol).reg (PP.CTRL j) = t.awakeRefresh.reg (PP.CTRL j) := fun j hj =>
      hreg _ (by simp only [PP.CTRL, EVH.WAKEST]; omega)
    rw [Chip.get, hreg _ (by simp only [PP.STAT_ASLEEP, PP.STAT, EVH.WAKEST]; omega), ppCtls_congr (domOn_pol_congr hhub) hctrl]
    exact hshown k hk
  refine ⟨⟨hregs.trans (hs.regs.trans hhub), ?_, ?_, fun _ => hstill, fun _ => wakeRecord_valid _ _ _, fun _ => ?_⟩, hstill, wakeRecord_valid _ _ _⟩
  · rw [wakeRecord_faultQ, hs.faults, hf]
  · rw [wakeRecord_outbox, hs.outs, ho]
  · rw [wakeRecord_wake, hs.wake, hw]

theorem lowestProc_lt (tgt : Nat) : lowestProc tgt < 4 := by
  unfold lowestProc
  cases h : (List.range 4).find? fun k => bitAt tgt k with
  | none => decide
  | some k => exact List.mem_range.1 (List.mem_of_find?_eq_some h)

/-- A parked processor is unparked for a source and its wake recorded (R404). -/
theorem unpark_evaluated (c : Chip) (k i : Nat) (hk : k < 4) : c.Evaluated ((((c.put (PP.CTRL_PARK k) 0).wakeLine k true).awakeRefresh).wakeRecord i false) := by
  have hregs : c.OnlyIn hubRegs ((c.put (PP.CTRL_PARK k) 0).wakeLine k true) := by
    refine upd (put (refl _ c) (PP.CTRL_PARK k) 0 (span_of_le_lt ?_)) rfl
    simp only [PP.CTRL_PARK, PP.CTRL]
    omega
  exact (wake_evaluated c _ i false hregs rfl rfl rfl).1

/-- While POL is off, the evaluation may note a source that is to wake it. -/
theorem Chip.Evaluated.asleep {s t : Chip} (h : Evaluated s t) (hpol : s.domOn .pol ≠ true) (e : EvhHw) : Evaluated s { t with evh := e } where
  regs := h.regs.upd rfl
  faults := h.faults
  outs := h.outs
  shown := h.shown
  valid := h.valid
  wake hon := absurd hon hpol

theorem routeN_evaluated (n : Nat) (c : Chip) : c.Evaluated (Chip.routeN n c) := by
  induction n generalizing c with
  | zero => exact (routeOnce_routes c).evaluated
  | succ n ih =>
    have once := (routeOnce_routes c).evaluated
    rw [Chip.routeN]
    split
    · next hasleep =>
      have hpol : c.domOn .pol ≠ true := fun hon => by
        simp [Chip.polAsleep, (domOn_pol_congr once.regs).trans hon] at hasleep
      exact (once.asleep hpol _)
    · split
      · exact once
      · split
        · exact (once.trans (unpark_evaluated _ _ _ (lowestProc_lt _))).trans (ih _)
        · exact once

theorem evaluate_evaluated (c : Chip) : c.Evaluated c.evaluate := routeN_evaluated 4 c

/-! The mailbox after a wake (R426, R454). -/

/-- MBSTAT and MBOWN. -/
def mailRegs (o : Nat) : Bool := span 0x38028 0x38038 o

/-- Posting writes the state of a mailbox slot alone; what it stores and rings lies beside the registers. -/
structure Chip.Posts (s t : Chip) : Prop where
  regs : s.OnlyIn mailRegs t
  evh : t.evh = s.evh
  faults : t.faultQ = s.faultQ
  outs : t.outbox = s.outbox

theorem mbPost_posts (c : Chip) : c.Posts c.mbPost := by
  unfold Chip.mbPost
  split
  · next k d j _ hj =>
    have hj32 : j < 32 := List.mem_range.1 (List.mem_of_find?_eq_some hj)
    refine ⟨upd (put ?_ (mbFld false j) 1 ?_) rfl, rfl, rfl, rfl⟩
    · exact (refl _ c).upd rfl
    · refine span_of_le_lt ?_
      simp only [mbFld, Bool.false_eq_true, if_false, FW.MBSTAT0]
      omega
  · exact ⟨refl _ _, rfl, rfl, rfl⟩

theorem mbFill_posts (c : Chip) : c.Posts c.mbFill := by
  have fill (l : List Nat) (t : Chip) (h : c.Posts t) : c.Posts (t.forEach l fun _ u => u.mbPost) := by
    induction l generalizing t with
    | nil => exact h
    | cons i l ih =>
      have next := mbPost_posts t
      exact ih _ ⟨h.regs.trans next.regs, next.evh.trans h.evh, next.faults.trans h.faults, next.outs.trans h.outs⟩
  exact fill cmdRings c ⟨refl _ _, rfl, rfl, rfl⟩

theorem ppCtls_getD (c : Chip) (k : Nat) (hk : k < 4) : c.ppCtls.getD k none = if c.domOn .pol then some (c.reg (PP.CTRL k)) else none := by
  have hrange : (List.range 4)[k]? = some k := List.getElem?_range hk
  rw [Chip.ppCtls, List.getD_eq_getElem?_getD, List.getElem?_map, hrange]
  rfl

/-- With POL off no processor is awake. -/
theorem ppAwake_of_off (c : Chip) (h : c.domOn .pol = false) (k : Nat) (hk : k < 4) : ppAwake c.ppCtls k = false := by
  rw [ppAwake, ppCtls_getD c k hk, h]
  rfl

/-- With POL on a processor is awake unless it is parked. -/
theorem ppAwake_of_on (c : Chip) (h : c.domOn .pol = true) (k : Nat) (hk : k < 4) : (!ppAwake c.ppCtls k).toNat = c.get (PP.CTRL_PARK k) := by
  have hawake : ppAwake c.ppCtls k = !bitAt (c.reg (PP.CTRL k)).toNat 0 := by
    rw [ppAwake, ppCtls_getD c k hk, h]
    rfl
  have hpark : c.get (PP.CTRL_PARK k) = (c.reg (PP.CTRL k)).toNat / 2 ^ 0 % 2 := rfl
  rw [hawake, hpark, Bool.not_not, bitAt]
  rcases Nat.mod_two_eq_zero_or_one ((c.reg (PP.CTRL k)).toNat / 2 ^ 0) with h0 | h1
  · rw [h0]; rfl
  · rw [h1]; rfl

/-- A refresh and the evaluation that follows it. -/
theorem refresh_evaluate (c : Chip) : c.Evaluated c.awakeRefresh.evaluate ∧ c.awakeRefresh.evaluate.AwakeShown := by
  obtain ⟨hs, hshown⟩ := awakeRefresh_shown c
  have he := evaluate_evaluated c.awakeRefresh
  exact ⟨Chip.Evaluated.trans ⟨hs.regs, hs.faults, hs.outs, fun _ => hshown, fun hv => hs.valid.trans hv, fun _ => hs.wake⟩ he, he.shown hshown⟩

/-- DOMSTAT and the registers of the hub. -/
def sleepRegs (o : Nat) : Bool := o == PWR.DOMSTAT || hubRegs o

theorem hub_sleepRegs {s t : Chip} (h : s.OnlyIn hubRegs t) : s.OnlyIn sleepRegs t := h.mono fun o ho => by simp [sleepRegs, ho]

theorem domOn_pol_put (c : Chip) (v : Nat) : (c.put PWR.DOMSTAT_POL v).domOn .pol = (v % 2 != 0) := by
  rw [Chip.domOn, Chip.bit, get_put_same _ _ _ rfl]
  rfl

/-- POL's entry into sleep, as its guard lets it (R34, R405). -/
theorem sleepEntry_spec (c : Chip) (hreq : c.get PWR.DOMCTL_POLSLP = 1) (hon : c.domOn .pol = true) (hwin : (c.evh.winners.all fun w => w.isNone) = true)
    (hstart : c.get FW.STAT_START = 0) :
    c.sleepEntry.domOn .pol = false ∧ c.sleepEntry.polAsleep = true ∧ (∀ k, k < 4 → c.sleepEntry.get (PP.STAT_ASLEEP k) = 1) ∧ c.sleepEntry.faultQ = c.faultQ ∧
      c.sleepEntry.outbox = c.outbox ∧ c.OnlyIn sleepRegs c.sleepEntry := by
  have hguard : (c.bit PWR.DOMCTL_POLSLP && c.domOn .pol && c.evh.winners.all (·.isNone) && c.get FW.STAT_START == 0) = true := by
    simp only [Chip.bit, hreq, hon, hwin, hstart]
    rfl
  have hentry : c.sleepEntry = (({ c with evh := { c.evh with slept := (List.range 4).map fun k => c.reg (PP.CTRL k) } } : Chip).put PWR.DOMSTAT_POL 0).awakeRefresh.evaluate := by
    unfold Chip.sleepEntry
    exact if_pos hguard
  have hoff : c.OnlyIn sleepRegs (({ c with evh := { c.evh with slept := (List.range 4).map fun k => c.reg (PP.CTRL k) } } : Chip).put PWR.DOMSTAT_POL 0) := by
    refine put ?_ _ _ rfl
    exact (refl _ c).upd rfl
  obtain ⟨he, hshown⟩ := refresh_evaluate (({ c with evh := { c.evh with slept := (List.range 4).map fun k => c.reg (PP.CTRL k) } } : Chip).put PWR.DOMSTAT_POL 0)
  have hdown := (domOn_pol_congr he.regs).trans (domOn_pol_put _ 0)
  have hregs := hoff.trans (hub_sleepRegs he.regs)
  rw [hentry]
  refine ⟨hdown, ?_, fun k hk => ?_, he.faults, he.outs, hregs⟩
  · have hslp := (hregs.get PWR.DOMCTL_POLSLP rfl).trans hreq
    simp [Chip.polAsleep, Chip.bit, hslp, hdown]
  · rw [hshown k hk, ppAwake_of_off _ hdown k hk]
    rfl

/-- A sleeping POL with its power on and its request cleared, as it begins to wake. -/
def Chip.polUp (c : Chip) : Chip :=
  let t := (c.put PWR.DOMSTAT_POL 1).put PWR.DOMCTL_POLSLP 0
  { t with evh := { t.evh with wake := none }, fw := { t.fw with entry := fieldLE t.fw.image 0x20 4 } }

theorem polWake_eq (c : Chip) (i : Nat) (hcore : c.coreRuns = true) (hwake : c.evh.wake = some i) (hasleep : c.polAsleep = true) :
    c.polWake = (c.polUp.wakeRecord i true).awakeRefresh.evaluate := by
  have hguard : (c.polAsleep && c.coreRuns) = true := by rw [hasleep, hcore]; rfl
  unfold Chip.polWake
  rw [hwake]
  exact if_pos hguard

theorem polUp_regs (c : Chip) : c.polUp.regs = ((c.put PWR.DOMSTAT_POL 1).put PWR.DOMCTL_POLSLP 0).regs := by
  unfold Chip.polUp
  rfl

/-- The wake of a sleeping POL (R34, R404). -/
theorem polWake_spec (c : Chip) (i : Nat) (hcore : c.coreRuns = true) (hwake : c.evh.wake = some i) (hasleep : c.polAsleep = true) :
    c.polWake.domOn .pol = true ∧ c.polWake.get PWR.DOMCTL_POLSLP = 0 ∧ c.polWake.get EVH.WAKEST_VALID = 1 ∧
      (∀ k, k < 4 → c.polWake.get (PP.STAT_ASLEEP k) = c.polWake.get (PP.CTRL_PARK k)) ∧ c.polWake.evh.wake = none ∧ c.polWake.faultQ = c.faultQ ∧ c.polWake.outbox = c.outbox ∧
      c.OnlyIn (fun o => o == PWR.DOMCTL || sleepRegs o) c.polWake := by
  obtain ⟨he, hshown⟩ := refresh_evaluate (c.polUp.wakeRecord i true)
  have hrec : c.polUp.OnlyIn hubRegs (c.polUp.wakeRecord i true) := (wakeRecord_onlyIn _ _ _).mono fun o h => by rw [beq_iff_eq.1 h]; rfl
  have hhub := hrec.trans he.regs
  have hup : c.OnlyIn (fun o => o == PWR.DOMCTL || sleepRegs o) c.polUp := upd (put (put (refl _ c) PWR.DOMSTAT_POL 1 rfl) PWR.DOMCTL_POLSLP 0 rfl) (polUp_regs c)
  have hpol : c.polUp.domOn .pol = true := by
    rw [Chip.domOn, Chip.bit, get_congr (polUp_regs c), get_put_apart _ _ _ _ rfl rfl, get_put_same _ _ _ rfl]
    rfl
  have hslp : c.polUp.get PWR.DOMCTL_POLSLP = 0 := by rw [get_congr (polUp_regs c), get_put_same _ _ _ rfl]; rfl
  have hon := (domOn_pol_congr hhub).trans hpol
  rw [polWake_eq c i hcore hwake hasleep]
  refine ⟨hon, (hhub.get _ rfl).trans hslp, he.valid (wakeRecord_valid _ _ _), fun k hk => ?_, ?_, ?_, ?_, hup.trans (hhub.mono fun o ho => by simp [sleepRegs, ho])⟩
  · rw [hshown k hk, ppAwake_of_on _ hon k hk]
  · rw [he.wake ((domOn_pol_congr hrec).trans hpol), wakeRecord_wake]
    rfl
  · rw [he.faults, wakeRecord_faultQ]
    rfl
  · rw [he.outs, wakeRecord_outbox]
    rfl

/-- Settles O9: the request is a write of DOMCTL; entry and wake switch POL and end in a routing evaluation, which stays within the event hub and keeps ASLEEP the picture of POL and PARK. -/
theorem processorsSleepAndWake : Obligations.ProcessorsSleepAndWake := by
  unfold Obligations.ProcessorsSleepAndWake
  refine ⟨fun s req hreach => ?_, fun s hreq hon hwin hstart => ?_, fun s i hcore hwake hasleep => ?_⟩
  · refine ⟨_, exec_polSleepRequest s req hreach, ?_, (Effect.start s).put PWR.DOMCTL_POLSLP 1⟩
    exact get_put_same s.chip PWR.DOMCTL_POLSLP 1 rfl
  · obtain ⟨hoff, hslept, hshown, hfaults, houts, hregs⟩ := sleepEntry_spec s.chip hreq hon hwin hstart
    exact ⟨{ s with chip := s.chip.sleepEntry }, rfl, hoff, hslept, fun k => hshown k.val k.isLt, hfaults, houts, rfl, rfl, hregs.same⟩
  · obtain ⟨hon, hreq, hvalid, hshown, hdone, hfaults, houts, hregs⟩ := polWake_spec s.chip i hcore hwake hasleep
    have hpost := mbFill_posts s.chip.polWake
    have hget (f : Fld) (hf : f.off < 0x38028) : s.chip.polWake.mbFill.get f = s.chip.polWake.get f :=
      hpost.regs.get f (by simp only [mailRegs, span, Bool.and_eq_false_iff, decide_eq_false_iff_not]; omega)
    have hpol : s.chip.polWake.mbFill.domOn .pol = s.chip.polWake.domOn .pol := by
      rw [Chip.domOn, Chip.domOn, Chip.bit, Chip.bit, hget PWR.DOMSTAT_POL (by decide)]
    have hrun : Machine.exec .polWake s = .next { s with chip := s.chip.polWake.mbFill } := rfl
    refine ⟨_, hrun, ?_, ?_, ?_, fun k => ?_, ?_, ?_, ?_, rfl, rfl, fun o ho => ?_⟩ <;> dsimp only
    · exact hpol.trans hon
    · exact (hget PWR.DOMCTL_POLSLP (by decide)).trans hreq
    · exact (hget EVH.WAKEST_VALID (by decide)).trans hvalid
    · have hk := k.isLt
      refine (hget _ ?_).trans ((hshown k.val hk).trans (hget _ ?_).symm)
      · simp only [PP.STAT_ASLEEP, PP.STAT]; omega
      · simp only [PP.CTRL_PARK, PP.CTRL]; omega
    · rw [hpost.evh, hdone]
    · exact hpost.faults.trans hfaults
    · exact hpost.outs.trans houts
    · simp only [Bool.or_eq_false_iff] at ho
      obtain ⟨⟨⟨hstat, hctl⟩, hhub⟩, hmail⟩ := ho
      exact (hpost.regs.same o hmail).trans (hregs.same o (by simp only [sleepRegs, hstat, hctl, hubRegs, hhub, Bool.or_self]))

end Sys2Proof.Machine

namespace Sys2Proof.Machine

/-! The control lanes: a word whose turn it is leaves its lane (R25, R27). -/

/-- The chip once the oldest word of loop n to die d has left its lane. -/
def Chip.laneTaken (c : Chip) (d n : Nat) (rest : List CtlWord) : Chip :=
  { c with lanes := c.lanes.set (32 * d + n) rest, laneTurn := c.laneTurn.set (8 * d + n % 8) ((n / 8 + 1) % 4) }

theorem laneTake_of_turn (c : Chip) (d n : Nat) (w : CtlWord) (rest : List CtlWord) (hlane : c.lanes.get (32 * d + n) = w :: rest) (hturn : c.laneNext d n = some n) :
    c.laneTake d n = some (w, c.laneTaken d n rest) := by
  simp only [Chip.laneTake, hlane, hturn, if_pos]
  rfl

theorem laneTake_of_no_turn (c : Chip) (d n : Nat) (hturn : c.laneNext d n ≠ some n) : c.laneTake d n = none := by
  unfold Chip.laneTake
  split
  · rfl
  · exact if_neg hturn

theorem laneTaken_regs (c : Chip) (d n : Nat) (rest : List CtlWord) : (c.laneTaken d n rest).regs = c.regs := rfl

theorem dieOn_congr {s t : Chip} (h : t.regs = s.regs) (d : Nat) : t.dieOn d = s.dieOn d := by rw [Chip.dieOn, Chip.dieOn, get_congr h]

/-- A duty word whose turn it is and whose check is good ends the count of discards; the fixed class holds it, the event class passes it on (R27, R76, R123). -/
theorem dutyArrive_good (c : Chip) (d n : Nat) (w : LaneWord) (rest : List CtlWord) (settled : Nat) (hon : c.dieOn d = true) (hlane : c.lanes.get (32 * d + n) = .duty w :: rest)
    (hturn : c.laneNext d n = some n) :
    c.dutyArrive d n true settled =
      (let t : Chip := { c.laneTaken d n rest with discards := c.discards.set (32 * d + n) 0 }
       if w.fixed then { t with holds := t.holds.set (32 * d + n) (some w) } else t.wordToShadows d n w settled) := by
  have hon' : (c.laneTaken d n rest).dieOn d = true := (dieOn_congr (laneTaken_regs c d n rest) d).trans hon
  rw [Chip.dutyArrive, laneTake_of_turn c d n _ rest hlane hturn]
  simp only [hon', Bool.not_true, Bool.false_eq_true, if_false]
  rfl

/-- With a bad check it is discarded (R27). -/
theorem dutyArrive_bad (c : Chip) (d n : Nat) (w : LaneWord) (rest : List CtlWord) (settled : Nat) (hon : c.dieOn d = true) (hlane : c.lanes.get (32 * d + n) = .duty w :: rest)
    (hturn : c.laneNext d n = some n) : c.dutyArrive d n false settled = (c.laneTaken d n rest).wordDiscard d n := by
  have hon' : (c.laneTaken d n rest).dieOn d = true := (dieOn_congr (laneTaken_regs c d n rest) d).trans hon
  rw [Chip.dutyArrive, laneTake_of_turn c d n _ rest hlane hturn]
  simp [hon']

theorem dutyArrive_no_turn (c : Chip) (d n : Nat) (good : Bool) (settled : Nat) (hturn : c.laneNext d n ≠ some n) : c.dutyArrive d n good settled = c := by
  rw [Chip.dutyArrive, laneTake_of_no_turn c d n hturn]

theorem linkstat_errf_cwerr (d : Nat) : (LINK.LINKSTAT_ERRF d).apart (LINK.LINKSTAT_CWERR d) = true := by
  simp [Fld.apart, LINK.LINKSTAT_ERRF, LINK.LINKSTAT_CWERR]

theorem recorded_discard (c : Chip) (d n : Nat) (rest : List CtlWord) :
    Recorded c ((c.laneTaken d n rest).wordDiscard d n) (LINK.LINKSTAT_ERRF d) (LINK.LINKSTAT_CWERR d) := by
  have ha := linkstat_errf_cwerr d
  have hb : (LINK.LINKSTAT_CWERR d).apart (LINK.LINKSTAT_ERRF d) = true := by simp [Fld.apart, LINK.LINKSTAT_ERRF, LINK.LINKSTAT_CWERR]
  have hregs : ((c.laneTaken d n rest).wordDiscard d n).regs = ((c.laneTaken d n rest).event (LINK.LINKSTAT_ERRF d) (LINK.LINKSTAT_CWERR d) (0x18 + d)).regs := by
    unfold Chip.wordDiscard
    rfl
  obtain ⟨hflag, hcnt⟩ := recorded_event (c.laneTaken d n rest) (LINK.LINKSTAT_ERRF d) (LINK.LINKSTAT_CWERR d) (0x18 + d) rfl rfl ha hb rfl
  have hsame : counted (c.laneTaken d n rest) (LINK.LINKSTAT_CWERR d) = counted c (LINK.LINKSTAT_CWERR d) := by
    rw [counted, counted, get_congr (laneTaken_regs c d n rest)]
  exact ⟨(get_congr hregs _).trans hflag, (get_congr hregs _).trans (hcnt.trans hsame)⟩

theorem effect_discard (s : State) (d n : Nat) (rest : List CtlWord) :
    Effect s { s with chip := (s.chip.laneTaken d n rest).wordDiscard d n }
      (fun c => { c with lanes := c.lanes.set (32 * d + n) rest, laneTurn := c.laneTurn.set (8 * d + n % 8) ((n / 8 + 1) % 4), discards := c.discards.upd (32 * d + n) fun k => min 3 (k + 1) })
      [LINK.LINKSTAT_ERRF d, LINK.LINKSTAT_CWERR d] [0x18 + d] [] [] :=
  (((Effect.start s).innerStep (fun c => c.laneTaken d n rest) rfl rfl rfl rfl rfl rfl).event (LINK.LINKSTAT_ERRF d) (LINK.LINKSTAT_CWERR d) (0x18 + d)).innerStep
    (fun c => { c with discards := c.discards.upd (32 * d + n) fun k => min 3 (k + 1) }) rfl rfl rfl rfl rfl rfl

end Sys2Proof.Machine

namespace Sys2Proof.Machine

open Chip.OnlyIn (upd put refl)

/-! A duty word at the shadows of a loop's phases (R123). -/

/-- The duty that a word leaves in a shadow: clip(rnd(f P) + trim, 0, P) (R123). -/
def Chip.shadowDuty (c : Chip) (p : Nat) (w : LaneWord) : Nat :=
  (min (max (rne ((w.duty * c.genPeriod p : Nat) : Int) (2 ^ 20) + c.getS (PHS.TRIM_TRIM p)) 0) (c.genPeriod p : Nat)).toNat

/-- The clip keeps the duty within the period, which 22 bits hold. -/
theorem shadowDuty_lt (c : Chip) (p : Nat) (w : LaneWord) : c.shadowDuty p w < 2 ^ 22 := by
  have hper : c.genPeriod p ≤ 65535 * 64 := by
    have : c.get (PWM.PERIOD_PER p) < 2 ^ 16 := Nat.mod_lt _ (Nat.two_pow_pos 16)
    unfold Chip.genPeriod
    omega
  unfold Chip.shadowDuty
  omega

theorem shadowWrite_of_not_early (c : Chip) (p : Nat) (w : LaneWord) (settled : Bool) (htag : w.tag ≠ 1) :
    c.shadowWrite p w settled = if !c.bit (PWM.CTRL_EN p) then c else (c.put (PWM.SHDW_TAG p) w.tag).put (PWM.SHDW_D p) (c.shadowDuty p w) := by
  simp only [Chip.shadowWrite, htag, if_false]
  rfl

/-- The shadow registers of a list of phases. -/
def shadowRegs (l : List Nat) (o : Nat) : Bool := l.any fun p => o == PWM.SHDW p

theorem shadowRegs_of_mem {l : List Nat} {p : Nat} (h : p ∈ l) : shadowRegs l (PWM.SHDW p) = true := List.any_eq_true.2 ⟨p, h, by simp⟩

/-- A word written to some phases' shadows: their shadow registers alone change, and the rest of the chip stays. -/
structure Chip.Shadowed (l : List Nat) (s t : Chip) : Prop where
  regs : s.OnlyIn (shadowRegs l) t
  rest : ∃ r, t = { s with regs := r }

theorem Chip.Shadowed.refl (l : List Nat) (s : Chip) : Shadowed l s s := ⟨.refl _ _, s.regs, rfl⟩

theorem Chip.Shadowed.trans {l : List Nat} {s t u : Chip} (h : Shadowed l s t) (k : Shadowed l t u) : Shadowed l s u := by
  obtain ⟨r, rfl⟩ := h.rest
  obtain ⟨q, rfl⟩ := k.rest
  exact ⟨h.regs.trans k.regs, q, rfl⟩

theorem shadowWrite_shadowed (l : List Nat) (c : Chip) (p : Nat) (w : LaneWord) (settled : Bool) (hp : p ∈ l) (htag : w.tag ≠ 1) :
    Chip.Shadowed l c (c.shadowWrite p w settled) := by
  rw [shadowWrite_of_not_early c p w settled htag]
  split
  · exact .refl l c
  · exact ⟨put (put (refl _ c) (PWM.SHDW_TAG p) _ (shadowRegs_of_mem hp)) (PWM.SHDW_D p) _ (shadowRegs_of_mem hp), _, rfl⟩

/-- An enabled phase's shadow then holds the word's tag and its clipped duty. -/
theorem shadowWrite_fields (c : Chip) (p : Nat) (w : LaneWord) (settled : Bool) (hen : c.get (PWM.CTRL_EN p) = 1) (htag : w.tag ≠ 1) (hw : w.tag < 4) :
    (c.shadowWrite p w settled).get (PWM.SHDW_TAG p) = w.tag ∧ (c.shadowWrite p w settled).get (PWM.SHDW_D p) = c.shadowDuty p w := by
  have hbit : (!c.bit (PWM.CTRL_EN p)) = false := by simp [Chip.bit, hen]
  have hapart : (PWM.SHDW_TAG p).apart (PWM.SHDW_D p) = true := by simp [Fld.apart, PWM.SHDW_TAG, PWM.SHDW_D]
  rw [shadowWrite_of_not_early c p w settled htag, hbit, if_neg (by decide)]
  constructor
  · rw [get_put_apart _ _ _ _ rfl hapart, get_put_same _ _ _ rfl]
    exact Nat.mod_eq_of_lt hw
  · rw [get_put_same _ _ _ rfl]
    exact Nat.mod_eq_of_lt (shadowDuty_lt c p w)

/-- The settings of a phase, which no shadow holds. -/
theorem shadowRegs_settings (l : List Nat) (p : Nat) :
    shadowRegs l (PWM.CTRL p) = false ∧ shadowRegs l (PWM.PERIOD p) = false ∧ shadowRegs l (PHS.TRIM p) = false := by
  simp only [shadowRegs, List.any_eq_false, beq_iff_eq]
  refine ⟨fun q _ => ?_, fun q _ => ?_, fun q _ => ?_⟩
  all_goals simp only [PWM.CTRL, PWM.PERIOD, PHS.TRIM, PWM.SHDW, dieBase]; omega

/-- A phase's duty goes by its settings alone. -/
theorem shadowDuty_congr {l : List Nat} {s t : Chip} (h : s.OnlyIn (shadowRegs l) t) (p : Nat) (w : LaneWord) : t.shadowDuty p w = s.shadowDuty p w := by
  obtain ⟨-, hper, htrim⟩ := shadowRegs_settings l p
  have hp : t.genPeriod p = s.genPeriod p := by rw [Chip.genPeriod, Chip.genPeriod, h.get (PWM.PERIOD_PER p) hper]
  have ht : t.getS (PHS.TRIM_TRIM p) = s.getS (PHS.TRIM_TRIM p) := by rw [Chip.getS, Chip.getS, h.get (PHS.TRIM_TRIM p) htrim]
  rw [Chip.shadowDuty, Chip.shadowDuty, hp, ht]

/-- The word goes to each phase of the list; every enabled one ends with the word's tag and its own clipped duty. -/
theorem forEach_shadowWrite (c : Chip) (w : LaneWord) (g : Nat → Bool) (l : List Nat) (htag : w.tag ≠ 1) (hw : w.tag < 4) :
    Chip.Shadowed l c (c.forEach l fun p u => u.shadowWrite p w (g p)) ∧
      ∀ p ∈ l, c.get (PWM.CTRL_EN p) = 1 → (c.forEach l fun p u => u.shadowWrite p w (g p)).get (PWM.SHDW_TAG p) = w.tag ∧
        (c.forEach l fun p u => u.shadowWrite p w (g p)).get (PWM.SHDW_D p) = c.shadowDuty p w := by
  have steps (m : List Nat) (t : Chip) (hm : ∀ q ∈ m, q ∈ l) (ht : Chip.Shadowed l c t) :
      Chip.Shadowed l c (t.forEach m fun p u => u.shadowWrite p w (g p)) ∧
        ∀ p, c.get (PWM.CTRL_EN p) = 1 → (p ∈ m ∨ t.get (PWM.SHDW_TAG p) = w.tag ∧ t.get (PWM.SHDW_D p) = c.shadowDuty p w) →
          (t.forEach m fun p u => u.shadowWrite p w (g p)).get (PWM.SHDW_TAG p) = w.tag ∧ (t.forEach m fun p u => u.shadowWrite p w (g p)).get (PWM.SHDW_D p) = c.shadowDuty p w := by
    induction m generalizing t with
    | nil => exact ⟨ht, fun p _ hp => hp.resolve_left List.not_mem_nil⟩
    | cons q m ih =>
      obtain ⟨hq, hm⟩ := List.forall_mem_cons.1 hm
      have hstep := shadowWrite_shadowed l t q w (g q) hq htag
      obtain ⟨hs, hv⟩ := ih (t.shadowWrite q w (g q)) hm (ht.trans hstep)
      refine ⟨hs, fun p hen hp => hv p hen ?_⟩
      have hen' : t.get (PWM.CTRL_EN p) = 1 := (ht.regs.get _ (shadowRegs_settings l p).1).trans hen
      rcases eq_or_ne p q with rfl | hpq
      · refine .inr ?_
        rw [← shadowDuty_congr ht.regs]
        exact shadowWrite_fields t p w (g p) hen' htag hw
      · rcases hp with hmem | ⟨h1, h2⟩
        · exact .inl ((List.mem_cons.1 hmem).resolve_left hpq)
        · have hother := (shadowWrite_shadowed [q] t q w (g q) (by simp) htag).regs
          have hne : shadowRegs [q] (PWM.SHDW p) = false := by
            simp only [shadowRegs, List.any_cons, List.any_nil, Bool.or_false, beq_eq_false_iff_ne]
            simp only [PWM.SHDW, dieBase]
            omega
          exact .inr ⟨(hother.get _ hne).trans h1, (hother.get _ hne).trans h2⟩
  obtain ⟨hs, hv⟩ := steps l c (fun q hq => hq) (.refl l c)
  exact ⟨hs, fun p hp hen => hv p hen (.inl hp)⟩

theorem mem_loopPhasesOn (c : Chip) (d n p : Nat) : p ∈ c.loopPhasesOn (d + 1) n ↔ p / 32 = d ∧ c.owner p = some n := by
  have hdie : p ∈ diePhases (d + 1) ↔ p / 32 = d := by
    simp only [diePhases, List.mem_map, List.mem_range]
    constructor
    · rintro ⟨i, hi, rfl⟩
      omega
    · exact fun h => ⟨p % 32, Nat.mod_lt _ (by decide), by omega⟩
  simp [Chip.loopPhasesOn, List.mem_filter, hdie]

/-- A duty word of another tag than TRHI: the loop's shadows on the die alone change, and its last tag (R123, R132). -/
theorem wordToShadows_spec (c : Chip) (d n : Nat) (w : LaneWord) (settled : Nat) (htag : w.tag ≠ 1) (hw : w.tag < 4) :
    Chip.Shadowed (c.loopPhasesOn d n) { c with lastTag := c.lastTag.set (32 * d + n) w.tag } (c.wordToShadows d n w settled) ∧
      ∀ p ∈ c.loopPhasesOn d n, c.get (PWM.CTRL_EN p) = 1 →
        (c.wordToShadows d n w settled).get (PWM.SHDW_TAG p) = w.tag ∧ (c.wordToShadows d n w settled).get (PWM.SHDW_D p) = c.shadowDuty p w :=
  forEach_shadowWrite { c with lastTag := c.lastTag.set (32 * d + n) w.tag } w (bitAt settled) (c.loopPhasesOn d n) htag hw

/-- The shadow registers of the dies (R504). -/
theorem shadowRegs_onDies {l : List Nat} {o : Nat} (h : shadowRegs l o = true) : (onDies o && decide (o % 0x40 = 0x10)) = true := by
  obtain ⟨p, -, hp⟩ := List.any_eq_true.1 h
  rw [beq_iff_eq.1 hp]
  have hoff : PWM.SHDW p = 0x100000 + p / 32 * 0x20000 + 0x10 + 0x40 * (p % 32) := rfl
  have h1 : 0x100000 ≤ PWM.SHDW p := by omega
  have h2 : PWM.SHDW p % 0x40 = 0x10 := by omega
  rw [onDies, decide_eq_true h1, decide_eq_true h2]
  rfl

/-! A write of CMPB (R125). -/

/-- CMPB is a configuration register with the field OFF alone. -/
theorem cmpb_row : ∀ p : PhaseId, PWM.CMPB p.val % 4 = 0 ∧ inMailbox (PWM.CMPB p.val) = false ∧ inMsix (PWM.CMPB p.val) = false ∧ (regAt (PWM.CMPB p.val)).isSome = true ∧
    accMask (PWM.CMPB p.val) (· == .rw) = 0x3fffff ∧ pairMask (PWM.CMPB p.val) = 0x3fffff ∧ lockMask (PWM.CMPB p.val) = 0 ∧ accMask (PWM.CMPB p.val) (· == .w1c) = 0 ∧
    cntClears (PWM.CMPB p.val) = none := by decide +kernel

/-- CMPB's place in the windows of the dies. -/
theorem cmpb_place (p : PhaseId) : dieWindow ≤ PWM.CMPB p.val ∧ (PWM.CMPB p.val - dieWindow) % 0x20000 = 0x18 + 0x40 * (p.val % 32) ∧
    (PWM.CMPB p.val - dieWindow) / 0x20000 = p.val / 32 := by
  have hoff : PWM.CMPB p.val = 0x100000 + p.val / 32 * 0x20000 + 0x18 + 0x40 * (p.val % 32) := rfl
  have hwin : dieWindow = 0x100000 := rfl
  rw [hoff, hwin]
  omega

/-- CMPB is written by an operation of its own, which completes the shadow pair. -/
theorem regPut_cmpb (c : Chip) (p : PhaseId) (w : Word) : c.regPut (PWM.CMPB p.val) w = c.cmpbWrite p.val w := by
  obtain ⟨hwin, hrel, hdie⟩ := cmpb_place p
  have hphase : 32 * (p.val / 32) + (0x18 + 0x40 * (p.val % 32)) / 0x40 = p.val := by omega
  simp only [Chip.regPut, hwin, if_true, hrel, hdie, hphase, Bool.and_eq_true, decide_eq_true_eq]
  rw [if_neg (by omega), if_neg (by omega), if_pos (by omega)]

theorem writeMask_cmpb (c : Chip) (p : PhaseId) : c.writeMask (PWM.CMPB p.val) = 0x3fffff := by
  obtain ⟨-, -, -, -, hrw, hpair, -⟩ := cmpb_row p
  rw [Chip.writeMask, hrw, hpair, ite_self]

theorem fieldWrite_cmpb (c : Chip) (p : PhaseId) (w : Word) :
    c.fieldWrite (PWM.CMPB p.val) w = c.cmpbWrite p.val (c.reg (PWM.CMPB p.val) &&& ~~~0x3fffff ||| w &&& 0x3fffff) := by
  obtain ⟨-, -, -, -, -, -, hlock, hflags, -⟩ := cmpb_row p
  have hlocked : (c.reg (PWM.CMPB p.val) ^^^ w) &&& lockMask (PWM.CMPB p.val) = 0 := by rw [hlock]; exact BitVec.and_zero
  have hcleared : accMask (PWM.CMPB p.val) (· == .w1c) &&& w = 0 := by rw [hflags]; exact BitVec.zero_and
  simp only [Chip.fieldWrite, hlocked, hcleared, writeMask_cmpb, bne_self_eq_false, Bool.and_false, Bool.false_eq_true, if_false, if_true]
  rw [if_neg (by decide), regPut_cmpb]

theorem dieOps_cmpb (c : Chip) (p : PhaseId) (w : Word) : c.dieOps (PWM.CMPB p.val) w = c := by
  obtain ⟨-, hrel, -⟩ := cmpb_place p
  simp only [Chip.dieOps, hrel, Bool.and_eq_true, decide_eq_true_eq]
  rw [if_neg (by omega), if_neg (by omega), if_neg (by omega), if_neg (by omega)]

/-- The low 22 bits that the field takes are those of the written word. -/
theorem wordField_cmpb (v w : Word) : wordField (v &&& ~~~0x3fffff ||| w &&& 0x3fffff) 0 22 = wordField w 0 22 := by
  apply Nat.eq_of_testBit_eq
  intro i
  rw [wordField_testBit, wordField_testBit]
  by_cases hi : i < 22
  · have hmask : (0x3fffff : Word).getLsbD i = true := by interval_cases i <;> rfl
    rw [Nat.add_zero, BitVec.getLsbD_or, BitVec.getLsbD_and, BitVec.getLsbD_and, BitVec.getLsbD_not, hmask, Bool.not_true, Bool.and_false, Bool.and_false, Bool.false_or, Bool.and_true]
  · simp [hi]

theorem busWrite_cmpb (c : Chip) (m : List Host.Cell) (req : Requester) (p : PhaseId) (w : Word) (b : Bool) (h : c.reaches req (PWM.CMPB p.val) = true)
    (hmod : c.get (PWM.CTRL_MOD p.val) = 3) :
    c.busWrite m req (PWM.CMPB p.val) w b = c.genUpd p.val fun g => { g with cmpPair := some (g.cmpA, wordField w 0 22) } := by
  obtain ⟨halign, hbox, hmsix, hreg, -, -, -, -, hcnt⟩ := cmpb_row p
  obtain ⟨hwin, -, -⟩ := cmpb_place p
  rw [busWrite_reaches c m req _ w b h halign hbox hmsix hreg, Chip.regWrite, fieldWrite_cmpb, Chip.cntClear, hcnt]
  dsimp only
  rw [Chip.regOps, if_pos hwin, dieOps_cmpb, Chip.cmpbWrite, if_pos (by rw [hmod]; rfl), wordField_cmpb]

end Sys2Proof.Machine

namespace Sys2Proof.Machine

open Chip.OnlyIn (upd put refl either)

/-! A reload of a generator that is not one of a pair (R123 to R131): what the steps after the snapshot leave. -/

/-- What a reload's snapshot gives a generator, and what stays until the next: window, start, triggers fired and shadow pair. -/
def GenHw.taken (g : GenHw) : Nat × Nat × Bool × Nat × Option (Nat × Nat) := (g.on, g.off, g.run, g.fired, g.cmpPair)

/-- A step within the registers of `T` that leaves what the snapshot of generator p took, and everything waiting outside. -/
structure Chip.Leaves (T : Nat → Bool) (p : Nat) (s t : Chip) : Prop where
  regs : s.OnlyIn T t
  taken : (t.gens.get p).taken = (s.gens.get p).taken
  faults : t.faultQ = s.faultQ
  outs : t.outbox = s.outbox

namespace Chip.Leaves

variable {T : Nat → Bool} {p : Nat} {s t u : Chip}

theorem refl (T : Nat → Bool) (p : Nat) (s : Chip) : Leaves T p s s := ⟨.refl _ _, rfl, rfl, rfl⟩

theorem trans (h : Leaves T p s t) (k : Leaves T p t u) : Leaves T p s u :=
  ⟨h.regs.trans k.regs, k.taken.trans h.taken, k.faults.trans h.faults, k.outs.trans h.outs⟩

theorem mono {U : Nat → Bool} (h : Leaves T p s t) (hTU : ∀ o, T o = true → U o = true) : Leaves U p s t := ⟨h.regs.mono hTU, h.taken, h.faults, h.outs⟩

theorem put (h : Leaves T p s t) (f : Fld) (v : Nat) (hf : T f.off = true) : Leaves T p s (t.put f v) := ⟨h.regs.put f v hf, h.taken, h.faults, h.outs⟩

theorem bell (h : Leaves T p s t) (i : Nat) : Leaves T p s (t.bell i) := ⟨h.regs.upd rfl, h.taken, h.faults, h.outs⟩

/-- A generator's stage, dead times, trips and phase error are not of the snapshot. -/
theorem genUpd (h : Leaves T p s t) (k : Nat) (f : GenHw → GenHw) (hf : ∀ g, (f g).taken = g.taken) : Leaves T p s (t.genUpd k f) where
  regs := h.regs.upd rfl
  taken := by
    rw [← h.taken, Chip.genUpd, Tbl.get_upd]
    split
    · next hpk => rw [hpk, hf]
    · rfl
  faults := h.faults
  outs := h.outs

theorem either {b : Prop} [Decidable b] (h : Leaves T p s t) (k : Leaves T p s u) : Leaves T p s (if b then t else u) := by
  split
  · exact h
  · exact k

theorem forEach {l : List Nat} {f : Nat → Chip → Chip} (h : Leaves T p s t) (hf : ∀ i c, Leaves T p c (f i c)) : Leaves T p s (t.forEach l f) := by
  induction l generalizing t with
  | nil => exact h
  | cons i l ih => exact ih (h.trans (hf i t))

end Chip.Leaves

/-- The registers in which a generator's trips and its level show. -/
def tripRegs (p o : Nat) : Bool := o == PWM.TRIPST p || o == PWM.TRIPCNT p || o == PWM.OUT p

/-- No trip register is a control register. -/
theorem tripRegs_ctrl (p q : Nat) : tripRegs p (PWM.CTRL q) = false := by
  simp only [tripRegs, Bool.or_eq_false_iff, beq_eq_false_iff_ne]
  refine ⟨⟨?_, ?_⟩, ?_⟩
  all_goals simp only [PWM.CTRL, PWM.TRIPST, PWM.TRIPCNT, PWM.OUT, dieBase]; omega

/-- Whether a generator is one of a pair shows in the control registers. -/
theorem single_congr {T : Nat → Bool} {s t : Chip} (h : s.OnlyIn T t) (hT : ∀ q, T (PWM.CTRL q) = false) (p : Nat) : t.single p = s.single p := by
  have hpair (q : Nat) : t.bit (PWM.CTRL_PAIR q) = s.bit (PWM.CTRL_PAIR q) := by rw [Chip.bit, Chip.bit, h.get _ (hT q)]
  simp only [Chip.single, Chip.pairOdd, Chip.pairEven, hpair]

theorem not_pair_of_single {c : Chip} {p : Nat} (h : c.single p = true) : c.pairOdd p = false ∧ c.pairEven p = false := by
  simpa [Chip.single] using h

theorem genLead_of_single {c : Chip} {p : Nat} (h : c.single p = true) : c.genLead p = p := by
  simp [Chip.genLead, (not_pair_of_single h).1]

theorem genShow_leaves (c : Chip) (p : Nat) : Chip.Leaves (tripRegs p) p c (c.genShow p) := by
  unfold Chip.genShow
  refine .put (.put (.refl _ _ _) (PWM.OUT_LEVEL p) _ ?_) (PWM.TRIPST_TRIPPED p) _ ?_
  · simp [tripRegs, PWM.OUT_LEVEL]
  · simp [tripRegs, PWM.TRIPST_TRIPPED]

theorem genShowAll_of_single (c : Chip) (p : Nat) (h : c.single p = true) : c.genShowAll p = c.genShow p := by
  simp [Chip.genShowAll, genLead_of_single h, (not_pair_of_single h).2]

theorem tripLatch_leaves (c : Chip) (p : Nat) : Chip.Leaves (tripRegs p) p c (c.tripLatch p) := by
  have hst : tripRegs p (PWM.TRIPST p) = true := by simp [tripRegs]
  have hcnt : tripRegs p (PWM.TRIPCNT p) = true := by simp [tripRegs]
  have bells (n : Nat) (t : Chip) (ht : Chip.Leaves (tripRegs p) p c t) : Chip.Leaves (tripRegs p) p c ((List.range n).foldl (fun u _ => u.bell (srcPwm p)) t) := by
    induction n with
    | zero => exact ht
    | succ n ih =>
      rw [List.range_succ, List.foldl_append]
      exact ih.bell _
  unfold Chip.tripLatch
  refine .either (.refl _ _ _) (.genUpd (.forEach (bells _ _ ?_) fun k u => .genUpd (.refl _ _ _) _ _ fun _ => by rfl) _ _ fun _ => by rfl)
  exact .put (.put (.put (.refl _ _ _) (PWM.TRIPST_LAT p) _ hst) (PWM.TRIPST_TRIPF p) 1 hst) (PWM.TRIPCNT_LTCNT p) _ hcnt

theorem tripCycle_leaves (c : Chip) (p : Nat) : Chip.Leaves (tripRegs p) p c (c.tripCycle p) := by
  have hst : tripRegs p (PWM.TRIPST p) = true := by simp [tripRegs]
  have hcnt : tripRegs p (PWM.TRIPCNT p) = true := by simp [tripRegs]
  unfold Chip.tripCycle
  refine .either (.refl _ _ _) (.genUpd (.forEach (.genUpd (.either (.refl _ _ _) ?_) _ _ fun _ => by rfl) fun k u => .genUpd (.refl _ _ _) _ _ fun _ => by rfl) _ _ fun _ => by rfl)
  exact .bell (.put (.put (.refl _ _ _) (PWM.TRIPST_CBCF p) 1 hst) (PWM.TRIPCNT_CBCCNT p) _ hcnt) _

theorem tripEval_leaves (c : Chip) (p : Nat) (h : c.single p = true) : Chip.Leaves (tripRegs p) p c (c.tripEval p) := by
  have hst : tripRegs p (PWM.TRIPST p) = true := by simp [tripRegs]
  have trips : Chip.Leaves (tripRegs p) p c (((c.put (PWM.TRIPST_ACT p) (c.tripInputs p)).tripLatch p).tripCycle p) :=
    (Chip.Leaves.put (.refl _ _ c) (PWM.TRIPST_ACT p) _ hst).trans ((tripLatch_leaves _ p).trans (tripCycle_leaves _ p))
  unfold Chip.tripEval
  rw [genShowAll_of_single _ _ ((single_congr trips.regs (tripRegs_ctrl p) p).trans h)]
  exact trips.trans (genShow_leaves _ p)

end Sys2Proof.Machine

namespace Sys2Proof.Machine

open Chip.OnlyIn (upd put refl either)

theorem openPeriod_leaves (T : Nat → Bool) (c : Chip) (p : Nat) (last : GenStage) (wasHigh : Bool) : Chip.Leaves T p c (c.openPeriod p last wasHigh) := by
  unfold Chip.openPeriod
  exact .genUpd (.refl _ _ _) _ _ fun _ => by rfl

theorem tripReload_leaves (T : Nat → Bool) (c : Chip) (p : Nat) : Chip.Leaves T p c (c.tripReload p) := by
  unfold Chip.tripReload
  exact .genUpd (.refl _ _ _) _ _ fun _ => by rfl

theorem deadKeep_leaves (T : Nat → Bool) (c : Chip) (p : Nat) : Chip.Leaves T p c (c.deadKeep p) := by
  unfold Chip.deadKeep
  exact .genUpd (.refl _ _ _) _ _ fun _ => by rfl

/-- A comparator's state, and the input it gives a generator's trips. -/
def peakRegs (p o : Nat) : Bool := o == CMP.PKSTAT p || o == PWM.TRIPST p

theorem peakReload_leaves (c : Chip) (p : Nat) (cmp wasFull wasHigh : Bool) : Chip.Leaves (peakRegs p) p c (c.peakReload p cmp wasFull wasHigh) := by
  have hpk : peakRegs p (CMP.PKSTAT p) = true := by simp [peakRegs]
  have hst : peakRegs p (PWM.TRIPST p) = true := by simp [peakRegs]
  have hout : Chip.Leaves (peakRegs p) p c (c.putB (CMP.PKSTAT_CMPOUT p) cmp) := .put (.refl _ _ c) (CMP.PKSTAT_CMPOUT p) _ hpk
  unfold Chip.peakReload
  exact .put (.either hout (hout.put (CMP.PKSTAT_THR p) _ hpk)) (PWM.TRIPST_ACT p) _ hst

/-- The ramp of a generator that is not one of a pair starts again at the reload (R239). -/
theorem peakReload_thr (c : Chip) (p : Nat) (cmp wasFull wasHigh : Bool) (h : c.single p = true) :
    (c.peakReload p cmp wasFull wasHigh).get (CMP.PKSTAT_THR p) = c.get (CMP.PKCFG_START p) := by
  have hhead : c.genHead p = 0 := by simp [Chip.genHead, (not_pair_of_single h).1]
  have hwin : c.peakWindow p = p := by simp [Chip.peakWindow, genLead_of_single h]
  have hact : (CMP.PKSTAT_THR p).apart (PWM.TRIPST_ACT p) = true := by
    have : CMP.PKSTAT p ≠ PWM.TRIPST p := by simp only [CMP.PKSTAT, PWM.TRIPST, dieBase]; omega
    simp [Fld.apart, CMP.PKSTAT_THR, PWM.TRIPST_ACT, this]
  have hnot : (wasHigh && c.genHead p != 0) = false := by simp [hhead]
  have hlt : c.get (CMP.PKCFG_START p) < 2 ^ 10 := Nat.mod_lt _ (Nat.two_pow_pos 10)
  simp only [Chip.peakReload, hwin, hnot, Bool.false_eq_true, if_false]
  rw [get_put_apart _ _ _ _ rfl hact, get_put_same _ _ _ rfl]
  exact Nat.mod_eq_of_lt hlt

/-- A phase's place, and whether its loop's phases have reached theirs (R155, R176). -/
def moveRegs (own : Option Nat) (p o : Nat) : Bool := o == PWM.PHOFS p || o == PHS.STATE p || own.any fun n => o == PHSL.STATUS n

theorem alignStep_leaves (c : Chip) (p tag : Nat) : Chip.Leaves (moveRegs (c.owner p) p) p c (c.alignStep p tag) := by
  unfold Chip.alignStep
  split
  · exact .refl _ _ _
  · next n hn =>
    have hofs : moveRegs (c.owner p) p (PWM.PHOFS p) = true := by simp [moveRegs]
    have hst : moveRegs (c.owner p) p (PHS.STATE p) = true := by simp [moveRegs]
    have hmov : moveRegs (c.owner p) p (PHSL.STATUS n) = true := by simp [moveRegs, hn]
    refine .either (.refl _ _ _) (.put (.put (.put (.genUpd (.refl _ _ _) _ _ fun _ => by rfl) (PWM.PHOFS_OFS p) _ hofs) (PHS.STATE_OFFPOS p) _ hst) (PHSL.STATUS_MOVING n) _ hmov)

/-- The registers that a reload writes after its snapshot. -/
def tailRegs (own : Option Nat) (p o : Nat) : Bool := moveRegs own p o || peakRegs p o || tripRegs p o

/-- The register of a die's window with no part in a reload's last steps. -/
theorem tailRegs_eq_false (own : Option Nat) (p o : Nat) (hown : ∀ n, own = some n → n < 32) (ho : 0x100000 ≤ o)
    (hne : o ≠ PWM.PHOFS p ∧ o ≠ PHS.STATE p ∧ o ≠ CMP.PKSTAT p ∧ o ≠ PWM.TRIPST p ∧ o ≠ PWM.TRIPCNT p ∧ o ≠ PWM.OUT p) : tailRegs own p o = false := by
  have hmov : (own.any fun n => o == PHSL.STATUS n) = false := by
    cases own with
    | none => rfl
    | some n =>
      have hn := hown n rfl
      simp only [Option.any, PHSL.STATUS, beq_eq_false_iff_ne]
      omega
  simp [tailRegs, moveRegs, peakRegs, tripRegs, hmov, hne]

/-- The settings of a phase, and what its snapshot takes. -/
def keptRegs (p : Nat) : List Nat := [PWM.DUTY p, PWM.CMPA p, PWM.CMPB p, PHS.ASSIGN p, CMP.PKCFG p]

theorem tailRegs_kept (own : Option Nat) (p : Nat) (hown : ∀ n, own = some n → n < 32) : ∀ o ∈ keptRegs p, tailRegs own p o = false := by
  intro o ho
  simp only [keptRegs, List.mem_cons, List.not_mem_nil, or_false] at ho
  refine tailRegs_eq_false _ _ _ hown ?_ ?_
  all_goals
    simp only [PWM.DUTY, PWM.CMPA, PWM.CMPB, PHS.ASSIGN, CMP.PKCFG, PWM.PHOFS, PHS.STATE, CMP.PKSTAT, PWM.TRIPST, PWM.TRIPCNT, PWM.OUT, dieBase] at ho ⊢
    omega

theorem tailRegs_ctrl (own : Option Nat) (p q : Nat) (hown : ∀ n, own = some n → n < 32) : tailRegs own p (PWM.CTRL q) = false := by
  refine tailRegs_eq_false _ _ _ hown ?_ ?_
  all_goals
    simp only [PWM.CTRL, PWM.PHOFS, PHS.STATE, CMP.PKSTAT, PWM.TRIPST, PWM.TRIPCNT, PWM.OUT, dieBase]
    omega

theorem owner_lt (c : Chip) (p n : Nat) (h : c.owner p = some n) : n < 32 := by
  unfold Chip.owner at h
  split at h
  · rw [← Option.some.inj h]
    exact Nat.mod_lt _ (Nat.two_pow_pos 5)
  · cases h

theorem owner_congr {T : Nat → Bool} {s t : Chip} (h : s.OnlyIn T t) (p : Nat) (hT : T (PHS.ASSIGN p) = false) : t.owner p = s.owner p := by
  rw [Chip.owner, Chip.owner, Chip.bit, Chip.bit, h.get (PHS.ASSIGN_OWN p) hT, h.get (PHS.ASSIGN_LOOP p) hT]

/-- The steps of a reload after its snapshot, for a generator that is not one of a pair. -/
def Chip.reloadTail (c : Chip) (p : Nat) (last : GenStage) (cmp wasFull wasHigh : Bool) : Chip :=
  let t := (c.tripReload p).openPeriod p last wasHigh
  (((t.alignStep p (t.get (PWM.DUTY_TAG p))).peakReload p cmp wasFull wasHigh).tripEval p |>.deadKeep p).genShowAll p

theorem genReload_single (c : Chip) (p : Nat) (early cmp cmp2 : Bool) (h : c.single p = true) (hshed : (c.gens.get p).shedOff = false) :
    c.genReload p early cmp cmp2 =
      (((c.bootCount p (c.endsHigh p)).trigReload p p early).snapshot p).reloadTail p (c.gens.get p).stage cmp (c.genFull p) (c.endsHigh p) := by
  simp only [Chip.genReload, (not_pair_of_single h).2, hshed, Bool.false_and, Bool.false_eq_true, if_false]
  rfl

/-- They leave settings and snapshot, and the ramp starts again. -/
theorem reloadTail_leaves (c : Chip) (p : Nat) (last : GenStage) (cmp wasFull wasHigh : Bool) (h : c.single p = true) :
    Chip.Leaves (tailRegs (c.owner p) p) p c (c.reloadTail p last cmp wasFull wasHigh) ∧ (c.reloadTail p last cmp wasFull wasHigh).get (CMP.PKSTAT_THR p) = c.get (CMP.PKCFG_START p) := by
  have hown := owner_lt c p
  have hmove (o : Nat) (ho : moveRegs (c.owner p) p o = true) : tailRegs (c.owner p) p o = true := by simp [tailRegs, ho]
  have hpeak (o : Nat) (ho : peakRegs p o = true) : tailRegs (c.owner p) p o = true := by simp [tailRegs, ho]
  have htrip (o : Nat) (ho : tripRegs p o = true) : tailRegs (c.owner p) p o = true := by simp [tailRegs, ho]
  have hsingle {t : Chip} (ht : Chip.Leaves (tailRegs (c.owner p) p) p c t) : t.single p = true := (single_congr ht.regs (fun q => tailRegs_ctrl _ _ _ hown) p).trans h
  have opened := (tripReload_leaves (tailRegs (c.owner p) p) c p).trans (openPeriod_leaves _ _ p last wasHigh)
  have aligned (tag : Nat) : Chip.Leaves (tailRegs (c.owner p) p) p c (((c.tripReload p).openPeriod p last wasHigh).alignStep p tag) := by
    refine opened.trans ((alignStep_leaves _ p tag).mono ?_)
    rw [owner_congr opened.regs p (tailRegs_kept _ p hown _ (by simp [keptRegs]))]
    exact hmove
  unfold Chip.reloadTail
  dsimp only
  have hal := aligned (((c.tripReload p).openPeriod p last wasHigh).get (PWM.DUTY_TAG p))
  generalize ((c.tripReload p).openPeriod p last wasHigh).alignStep p (((c.tripReload p).openPeriod p last wasHigh).get (PWM.DUTY_TAG p)) = t at hal
  have hramp := hal.trans ((peakReload_leaves t p cmp wasFull wasHigh).mono hpeak)
  have hthr := peakReload_thr t p cmp wasFull wasHigh (hsingle hal)
  have trips := (tripEval_leaves _ p (hsingle hramp)).trans (deadKeep_leaves _ _ p)
  have shown := trips.trans (genShow_leaves _ p)
  rw [genShowAll_of_single _ _ (hsingle (hramp.trans (trips.mono htrip)))]
  refine ⟨hramp.trans (shown.mono htrip), ?_⟩
  have hpk : tripRegs p (CMP.PKSTAT p) = false := by
    simp only [tripRegs, Bool.or_eq_false_iff, beq_eq_false_iff_ne, CMP.PKSTAT, PWM.TRIPST, PWM.TRIPCNT, PWM.OUT, dieBase]
    omega
  rw [shown.regs.get _ hpk, hthr, hal.regs.get _ (tailRegs_kept _ p hown _ (by simp [keptRegs, CMP.PKCFG_START]))]

end Sys2Proof.Machine

namespace Sys2Proof.Machine

open Chip.OnlyIn (upd put refl either)

/-- A generator's counts for the period that a reload ends (R133, R134). -/
def Chip.reloadHead (c : Chip) (p : Nat) (endHigh early : Bool) : Chip := (c.bootCount p endHigh).trigReload p p early

theorem reloadHead_regs (c : Chip) (p : Nat) (endHigh early : Bool) : (c.reloadHead p endHigh early).regs = c.regs := rfl

theorem reloadHead_gen (c : Chip) (p : Nat) (endHigh early : Bool) :
    ((c.reloadHead p endHigh early).gens.get p).fired = 0 ∧ ((c.reloadHead p endHigh early).gens.get p).go = (c.gens.get p).go ∧
      ((c.reloadHead p endHigh early).gens.get p).cmpPair = (c.gens.get p).cmpPair := by
  simp [Chip.reloadHead, Chip.trigReload, Chip.bootCount, Chip.genUpd]

/-- The registers that a snapshot writes. -/
def snapRegs (p o : Nat) : Bool := o == PWM.DUTY p || o == PWM.CMPA p || o == PWM.CMPB p

/-- A window and the overrides become active. -/
def Chip.windowActive (c : Chip) (p : Nat) (w : Nat × Nat) : Chip :=
  c.genUpd p fun g =>
    { g with on := w.1, off := w.2, noSink := c.get (PWM.DUTY_TAG p) == 3, swap := c.bit (PWM.CTRL_SWAP p), inv := c.get (PWM.CTRL_INV p),
             run := g.go || (c.owner p).isNone }

theorem windowActive_regs (c : Chip) (p : Nat) (w : Nat × Nat) : (c.windowActive p w).regs = c.regs := by
  unfold Chip.windowActive Chip.genUpd
  rfl

theorem windowActive_faultQ (c : Chip) (p : Nat) (w : Nat × Nat) : (c.windowActive p w).faultQ = c.faultQ := by
  unfold Chip.windowActive Chip.genUpd
  rfl

theorem windowActive_outbox (c : Chip) (p : Nat) (w : Nat × Nat) : (c.windowActive p w).outbox = c.outbox := by
  unfold Chip.windowActive Chip.genUpd
  rfl

/-- The shadow's word becomes the active one. -/
def Chip.wordTaken (c : Chip) (p : Nat) : Chip := (c.put (PWM.DUTY_TAG p) (c.get (PWM.SHDW_TAG p))).put (PWM.DUTY_D p) (c.get (PWM.SHDW_D p))

/-- Outside direct mode the snapshot takes the word and shows the window that its duty places. -/
theorem snapshot_word (c : Chip) (p : Nat) (hmod : c.get (PWM.CTRL_MOD p) ≠ 3) :
    c.snapshot p = (((c.wordTaken p).put (PWM.CMPA_ON p) ((c.wordTaken p).placeWindow p ((c.wordTaken p).get (PWM.DUTY_D p))).1).put (PWM.CMPB_OFF p)
      ((c.wordTaken p).placeWindow p ((c.wordTaken p).get (PWM.DUTY_D p))).2).windowActive p ((c.wordTaken p).placeWindow p ((c.wordTaken p).get (PWM.DUTY_D p))) := by
  have hdirect : (c.get (PWM.CTRL_MOD p) == 3) = false := by simpa using hmod
  simp only [Chip.snapshot, hdirect, Bool.false_eq_true, if_false]
  rfl

/-- The completed shadow pair becomes the compare pair; the tag shows LIN or NOSINK (R125; log entry 191). -/
def Chip.pairTaken (c : Chip) (p a b : Nat) : Chip :=
  let t := ((c.put (PWM.CMPA_ON p) a).put (PWM.CMPB_OFF p) b).genUpd p fun g => { g with cmpPair := none }
  t.put (PWM.DUTY_TAG p) (if t.bit (PWM.CTRL_ENSNK p) then 0 else 3)

theorem pairTaken_regs (c : Chip) (p a b : Nat) :
    (c.pairTaken p a b).regs = (((c.put (PWM.CMPA_ON p) a).put (PWM.CMPB_OFF p) b).put (PWM.DUTY_TAG p)
      (if ((c.put (PWM.CMPA_ON p) a).put (PWM.CMPB_OFF p) b).bit (PWM.CTRL_ENSNK p) then 0 else 3)).regs := by
  unfold Chip.pairTaken Chip.genUpd
  rfl

theorem snapshot_direct (c : Chip) (p a b : Nat) (hmod : c.get (PWM.CTRL_MOD p) = 3) (hpair : (c.gens.get p).cmpPair = some (a, b)) :
    c.snapshot p = (c.pairTaken p a b).windowActive p ((c.pairTaken p a b).placeWindow p ((c.pairTaken p a b).get (PWM.DUTY_D p))) := by
  have hdirect : (c.get (PWM.CTRL_MOD p) == 3) = true := by simp [hmod]
  simp only [Chip.snapshot, hdirect, hpair, if_true]
  rfl

/-- A phase's settings lie outside what a snapshot writes. -/
theorem snapRegs_settings (p : Nat) : (∀ q, snapRegs p (PWM.CTRL q) = false) ∧ snapRegs p (PWM.PERIOD p) = false ∧ snapRegs p (PHS.ASSIGN p) = false ∧ snapRegs p (CMP.PKCFG p) = false := by
  simp only [snapRegs, Bool.or_eq_false_iff, beq_eq_false_iff_ne]
  refine ⟨fun q => ?_, ?_, ?_, ?_⟩
  all_goals
    simp only [PWM.CTRL, PWM.PERIOD, PHS.ASSIGN, CMP.PKCFG, PWM.DUTY, PWM.CMPA, PWM.CMPB, dieBase]
    omega

theorem wordTaken_onlyIn (c : Chip) (p : Nat) : c.OnlyIn (snapRegs p) (c.wordTaken p) := by
  have hduty : snapRegs p (PWM.DUTY p) = true := by simp [snapRegs]
  exact put (put (refl _ c) (PWM.DUTY_TAG p) _ hduty) (PWM.DUTY_D p) _ hduty

theorem pairTaken_onlyIn (c : Chip) (p a b : Nat) : c.OnlyIn (snapRegs p) (c.pairTaken p a b) := by
  have hduty : snapRegs p (PWM.DUTY p) = true := by simp [snapRegs]
  have ha : snapRegs p (PWM.CMPA p) = true := by simp [snapRegs]
  have hb : snapRegs p (PWM.CMPB p) = true := by simp [snapRegs]
  exact upd (put (put (put (refl _ c) (PWM.CMPA_ON p) a ha) (PWM.CMPB_OFF p) b hb) (PWM.DUTY_TAG p) _ hduty) (pairTaken_regs c p a b)

/-- Outside direct mode a window goes by mode and period alone (R124). -/
theorem placeWindow_congr {s t : Chip} {p : Nat} (h : s.OnlyIn (snapRegs p) t) (hmod : s.get (PWM.CTRL_MOD p) ≠ 3) (d : Nat) : t.placeWindow p d = s.placeWindow p d := by
  obtain ⟨hctrl, hperiod, -, -⟩ := snapRegs_settings p
  have hm := h.get (PWM.CTRL_MOD p) (hctrl p)
  have hp : t.genPeriod p = s.genPeriod p := by rw [Chip.genPeriod, Chip.genPeriod, h.get (PWM.PERIOD_PER p) hperiod]
  have hlt : s.get (PWM.CTRL_MOD p) < 4 := Nat.mod_lt _ (Nat.two_pow_pos 2)
  have hcases : s.get (PWM.CTRL_MOD p) = 0 ∨ s.get (PWM.CTRL_MOD p) = 1 ∨ s.get (PWM.CTRL_MOD p) = 2 := by omega
  simp only [Chip.placeWindow, hm, hp]
  rcases hcases with h0 | h0 | h0 <;> simp only [h0]

/-- What a snapshot does to its generator, whatever it takes. -/
theorem windowActive_gen (c : Chip) (p : Nat) (w : Nat × Nat) :
    ((c.windowActive p w).gens.get p).taken = (w.1, w.2, (c.gens.get p).go || (c.owner p).isNone, (c.gens.get p).fired, (c.gens.get p).cmpPair) := by
  simp [Chip.windowActive, Chip.genUpd, GenHw.taken]

/-- The snapshot of the shadow's word (R123, R131). -/
theorem snapshot_word_spec (c : Chip) (p : Nat) (hmod : c.get (PWM.CTRL_MOD p) ≠ 3) :
    c.OnlyIn (snapRegs p) (c.snapshot p) ∧ (c.snapshot p).faultQ = c.faultQ ∧ (c.snapshot p).outbox = c.outbox ∧
      (c.snapshot p).get (PWM.DUTY_D p) = c.get (PWM.SHDW_D p) ∧ (c.snapshot p).get (PWM.DUTY_TAG p) = c.get (PWM.SHDW_TAG p) ∧
      ((c.snapshot p).gens.get p).taken = ((c.placeWindow p (c.get (PWM.SHDW_D p))).1, (c.placeWindow p (c.get (PWM.SHDW_D p))).2, (c.gens.get p).go || (c.owner p).isNone,
        (c.gens.get p).fired, (c.gens.get p).cmpPair) := by
  have ha : snapRegs p (PWM.CMPA p) = true := by simp [snapRegs]
  have hb : snapRegs p (PWM.CMPB p) = true := by simp [snapRegs]
  have htd : (PWM.DUTY_TAG p).apart (PWM.DUTY_D p) = true := by simp [Fld.apart, PWM.DUTY_TAG, PWM.DUTY_D]
  have hne : PWM.DUTY p ≠ PWM.CMPA p ∧ PWM.DUTY p ≠ PWM.CMPB p := by simp only [PWM.DUTY, PWM.CMPA, PWM.CMPB, dieBase]; omega
  have hplaced (f : Fld) (hf : f.off = PWM.DUTY p) (u : Chip) (x y : Nat) : ((u.put (PWM.CMPA_ON p) x).put (PWM.CMPB_OFF p) y).get f = u.get f := by
    rw [Chip.get, Chip.get, hf, reg_put_other _ _ _ _ hne.2, reg_put_other _ _ _ _ hne.1]
  have htaken := wordTaken_onlyIn c p
  have hd : (c.wordTaken p).get (PWM.DUTY_D p) = c.get (PWM.SHDW_D p) := by
    rw [Chip.wordTaken, get_put_same _ _ _ rfl]
    exact Nat.mod_eq_of_lt (Nat.mod_lt _ (Nat.two_pow_pos 22))
  have htag : (c.wordTaken p).get (PWM.DUTY_TAG p) = c.get (PWM.SHDW_TAG p) := by
    rw [Chip.wordTaken, get_put_apart _ _ _ _ rfl htd, get_put_same _ _ _ rfl]
    exact Nat.mod_eq_of_lt (Nat.mod_lt _ (Nat.two_pow_pos 2))
  have hown := owner_congr htaken p (snapRegs_settings p).2.2.1
  rw [snapshot_word c p hmod, hd, placeWindow_congr htaken hmod]
  generalize c.placeWindow p (c.get (PWM.SHDW_D p)) = w
  have hset : (c.wordTaken p).OnlyIn (snapRegs p) (((c.wordTaken p).put (PWM.CMPA_ON p) w.1).put (PWM.CMPB_OFF p) w.2) := put (put (refl _ _) (PWM.CMPA_ON p) _ ha) (PWM.CMPB_OFF p) _ hb
  refine ⟨(htaken.trans hset).upd (windowActive_regs _ _ _), windowActive_faultQ _ _ _, windowActive_outbox _ _ _, ?_, ?_, ?_⟩
  · rw [get_congr (windowActive_regs _ _ _), hplaced _ rfl, hd]
  · rw [get_congr (windowActive_regs _ _ _), hplaced _ rfl, htag]
  · rw [windowActive_gen, owner_congr hset p (snapRegs_settings p).2.2.1, hown]
    rfl

/-- The snapshot of a completed pair in direct mode (R125; log entry 191). -/
theorem snapshot_direct_spec (c : Chip) (p a b : Nat) (hmod : c.get (PWM.CTRL_MOD p) = 3) (hpair : (c.gens.get p).cmpPair = some (a, b)) (ha : a < 2 ^ 22) (hb : b < 2 ^ 22) :
    c.OnlyIn (snapRegs p) (c.snapshot p) ∧ (c.snapshot p).get (PWM.CMPA_ON p) = a ∧ (c.snapshot p).get (PWM.CMPB_OFF p) = b ∧
      (c.snapshot p).get (PWM.DUTY_TAG p) = (if c.get (PWM.CTRL_ENSNK p) = 1 then 0 else 3) ∧
      ((c.snapshot p).gens.get p).taken = (a, b, (c.gens.get p).go || (c.owner p).isNone, (c.gens.get p).fired, none) := by
  have hctrl := (snapRegs_settings p).1 p
  have hne : PWM.CMPA p ≠ PWM.CMPB p ∧ PWM.CMPA p ≠ PWM.DUTY p ∧ PWM.CMPB p ≠ PWM.DUTY p := by simp only [PWM.DUTY, PWM.CMPA, PWM.CMPB, dieBase]; omega
  have htaken := pairTaken_onlyIn c p a b
  have hon : (c.pairTaken p a b).get (PWM.CMPA_ON p) = a := by
    rw [get_congr (pairTaken_regs c p a b), get_put_apart _ _ _ _ rfl (Fld.apart_of_off_ne _ _ hne.2.1), get_put_apart _ _ _ _ rfl (Fld.apart_of_off_ne _ _ hne.1), get_put_same _ _ _ rfl]
    exact Nat.mod_eq_of_lt ha
  have hoff : (c.pairTaken p a b).get (PWM.CMPB_OFF p) = b := by
    rw [get_congr (pairTaken_regs c p a b), get_put_apart _ _ _ _ rfl (Fld.apart_of_off_ne _ _ hne.2.2), get_put_same _ _ _ rfl]
    exact Nat.mod_eq_of_lt hb
  have htag : (c.pairTaken p a b).get (PWM.DUTY_TAG p) = (if c.get (PWM.CTRL_ENSNK p) = 1 then 0 else 3) := by
    have hset : c.OnlyIn (snapRegs p) ((c.put (PWM.CMPA_ON p) a).put (PWM.CMPB_OFF p) b) := put (put (refl _ c) (PWM.CMPA_ON p) a (by simp [snapRegs, PWM.CMPA_ON])) (PWM.CMPB_OFF p) b (by simp [snapRegs, PWM.CMPB_OFF])
    have hbit : c.get (PWM.CTRL_ENSNK p) = 0 ∨ c.get (PWM.CTRL_ENSNK p) = 1 := by
      have : c.get (PWM.CTRL_ENSNK p) < 2 ^ 1 := Nat.mod_lt _ (Nat.two_pow_pos 1)
      omega
    rw [get_congr (pairTaken_regs c p a b), get_put_same _ _ _ rfl, Chip.bit, hset.get (PWM.CTRL_ENSNK p) hctrl]
    rcases hbit with h0 | h1
    · rw [h0]; rfl
    · rw [h1]; rfl
  have hwin : (c.pairTaken p a b).placeWindow p ((c.pairTaken p a b).get (PWM.DUTY_D p)) = (a, b) := by
    have hm := (htaken.get (PWM.CTRL_MOD p) hctrl).trans hmod
    simp only [Chip.placeWindow, hm, hon, hoff]
  rw [snapshot_direct c p a b hmod hpair, hwin]
  refine ⟨htaken.upd (windowActive_regs _ _ _), ?_, ?_, ?_, ?_⟩
  · rw [get_congr (windowActive_regs _ _ _), hon]
  · rw [get_congr (windowActive_regs _ _ _), hoff]
  · rw [get_congr (windowActive_regs _ _ _), htag]
  · rw [windowActive_gen, owner_congr htaken p (snapRegs_settings p).2.2.1]
    simp [Chip.pairTaken, Chip.genUpd]

end Sys2Proof.Machine

namespace Sys2Proof.Machine

open Chip.OnlyIn (upd put refl either)

/-- The registers of a phase that a reload writes, with its loop's STATUS. -/
theorem reload_phaseRegs (own : Option Nat) (p o : Nat) (h : snapRegs p o = true ∨ tailRegs own p o = true) : (phaseRegs p o || own.any fun n => o == PHSL.STATUS n) = true := by
  have hphase (hp : o = PWM.DUTY p ∨ o = PWM.CMPA p ∨ o = PWM.CMPB p ∨ o = PWM.PHOFS p ∨ o = PHS.STATE p ∨ o = CMP.PKSTAT p ∨ o = PWM.TRIPST p ∨ o = PWM.TRIPCNT p ∨ o = PWM.OUT p) :
      phaseRegs p o = true := by
    simp only [PWM.DUTY, PWM.CMPA, PWM.CMPB, PWM.PHOFS, PHS.STATE, CMP.PKSTAT, PWM.TRIPST, PWM.TRIPCNT, PWM.OUT, dieBase] at hp
    simp only [phaseRegs, span, Bool.or_eq_true, Bool.and_eq_true, decide_eq_true_eq]
    omega
  simp only [snapRegs, tailRegs, moveRegs, peakRegs, tripRegs, Bool.or_eq_true, beq_iff_eq] at h
  rw [Bool.or_eq_true]
  tauto

/-- The generator's state as a reload's snapshot finds it. -/
def Chip.atSnapshot (c : Chip) (p : Nat) : Chip := c.reloadHead p (c.endsHigh p) false

/-- A reload of a generator that runs and is not one of a pair: what its snapshot takes stays (R123 to R131, R239). -/
theorem pwmReload_leaves (c : Chip) (p : Nat) (cmp cmp2 : Bool) (hruns : c.genRuns p = true) (h : c.single p = true) (hshed : (c.gens.get p).shedOff = false)
    (hsnap : (c.atSnapshot p).OnlyIn (snapRegs p) ((c.atSnapshot p).snapshot p)) :
    Chip.Leaves (tailRegs (c.owner p) p) p ((c.atSnapshot p).snapshot p) (c.pwmReload p cmp cmp2) ∧
      (c.pwmReload p cmp cmp2).get (CMP.PKSTAT_THR p) = c.get (CMP.PKCFG_START p) := by
  obtain ⟨hctrl, -, hassign, hpk⟩ := snapRegs_settings p
  have hhead : c.OnlyIn (snapRegs p) ((c.atSnapshot p).snapshot p) := hsnap.updFirst (reloadHead_regs _ _ _ _)
  have hsingle := (single_congr hhead hctrl p).trans h
  have hrun : c.pwmReload p cmp cmp2 = ((c.atSnapshot p).snapshot p).reloadTail p (c.gens.get p).stage cmp (c.genFull p) (c.endsHigh p) := by
    rw [Chip.pwmReload, if_pos hruns, genReload_single c p false cmp cmp2 h hshed]
    rfl
  obtain ⟨hleaves, hthr⟩ := reloadTail_leaves ((c.atSnapshot p).snapshot p) p (c.gens.get p).stage cmp (c.genFull p) (c.endsHigh p) hsingle
  rw [owner_congr hhead p hassign, hhead.get (CMP.PKCFG_START p) hpk, ← hrun] at *
  exact ⟨hleaves, hthr⟩

/-- The registers that a reload changes. -/
theorem pwmReload_onlyIn (c : Chip) (p : Nat) (cmp cmp2 : Bool) (hruns : c.genRuns p = true) (h : c.single p = true) (hshed : (c.gens.get p).shedOff = false)
    (hsnap : (c.atSnapshot p).OnlyIn (snapRegs p) ((c.atSnapshot p).snapshot p)) :
    c.OnlyIn (fun o => phaseRegs p o || (c.owner p).any fun n => o == PHSL.STATUS n) (c.pwmReload p cmp cmp2) := by
  have hhead : c.OnlyIn (snapRegs p) ((c.atSnapshot p).snapshot p) := hsnap.updFirst (reloadHead_regs _ _ _ _)
  have htail := (pwmReload_leaves c p cmp cmp2 hruns h hshed hsnap).1.regs
  exact (hhead.mono fun o ho => reload_phaseRegs _ p o (.inl ho)).trans (htail.mono fun o ho => reload_phaseRegs _ p o (.inr ho))

end Sys2Proof.Machine

namespace Sys2Proof.Machine

/-- A word of the event class at the shadows of a phase of its loop on the die (R123, R132). -/
theorem dutyArrive_event (s : State) (d : DieId) (n : LoopId) (p : PhaseId) (w : LaneWord) (rest : List CtlWord) (settled : Nat) (hon : s.chip.dieOn (d.val + 1) = true)
    (hlane : s.chip.lanes.get (32 * (d.val + 1) + n.val) = .duty w :: rest) (hturn : s.chip.laneNext (d.val + 1) n.val = some n.val) (hevent : w.fixed = false)
    (htag : w.tag ∈ [0, 2, 3]) (hdie : p.val / 32 = d.val) (hown : s.chip.owner p.val = some n.val) (hen : s.chip.get (PWM.CTRL_EN p.val) = 1) :
    let t := s.chip.dutyArrive (d.val + 1) n.val true settled
    t.lanes.get (32 * (d.val + 1) + n.val) = rest ∧ t.get (PWM.SHDW_TAG p.val) = w.tag ∧ t.get (PWM.SHDW_D p.val) = s.chip.shadowDuty p.val w ∧
      t.faultQ = s.chip.faultQ ∧ t.outbox = s.chip.outbox ∧ s.chip.OnlyIn (fun o => onDies o && decide (o % 0x40 = 0x10)) t := by
  have hcases : w.tag ≠ 1 ∧ w.tag < 4 := by
    simp only [List.mem_cons, List.not_mem_nil, or_false] at htag
    omega
  let u : Chip := { s.chip.laneTaken (d.val + 1) n.val rest with discards := s.chip.discards.set (32 * (d.val + 1) + n.val) 0 }
  have hu : u.regs = s.chip.regs := rfl
  have hsame : s.chip.OnlyIn (fun _ => false) u := (Chip.OnlyIn.refl _ _).upd hu
  have hmem : p.val ∈ u.loopPhasesOn (d.val + 1) n.val := (mem_loopPhasesOn u d n p).2 ⟨hdie, (owner_congr hsame p.val rfl).trans hown⟩
  obtain ⟨hshadow, hfields⟩ := wordToShadows_spec u (d.val + 1) n.val w settled hcases.1 hcases.2
  obtain ⟨htagged, hduty⟩ := hfields p.val hmem ((get_congr hu _).trans hen)
  have hd : u.shadowDuty p.val w = s.chip.shadowDuty p.val w := shadowDuty_congr (l := []) ((Chip.OnlyIn.refl _ _).upd hu) p.val w
  obtain ⟨r, hrest⟩ := hshadow.rest
  have hregs := hshadow.regs
  have hrun : s.chip.dutyArrive (d.val + 1) n.val true settled = u.wordToShadows (d.val + 1) n.val w settled := by
    rw [dutyArrive_good s.chip _ _ w rest settled hon hlane hturn]
    simp only [hevent, Bool.false_eq_true, if_false]
    rfl
  rw [hrun]
  dsimp only
  refine ⟨?_, htagged, hduty.trans hd, ?_, ?_, ?_⟩
  · rw [hrest]
    exact Tbl.get_set_same _ _ _
  · rw [hrest]
    rfl
  · rw [hrest]
    rfl
  · exact (hregs.mono fun o ho => shadowRegs_onDies ho).updFirst hu

/-- Three discards raise 0x4010 (R27). -/
theorem discardLimit_of_three (c : Chip) (d n : Nat) (h : 3 ≤ c.discards.get (32 * d + n)) :
    c.discardLimit d n = { c with discards := c.discards.set (32 * d + n) 0 }.raise ⟨0x4010, d, 0⟩ := if_pos h

/-- The reload of a started generator outside direct mode (R123, R124, R131). -/
theorem pwmReload_word (c : Chip) (p : Nat) (cmp cmp2 : Bool) (hruns : c.genRuns p = true) (h : c.single p = true) (hshed : (c.gens.get p).shedOff = false)
    (hmod : c.get (PWM.CTRL_MOD p) ≠ 3) :
    (c.pwmReload p cmp cmp2).get (PWM.DUTY_D p) = c.get (PWM.SHDW_D p) ∧ (c.pwmReload p cmp cmp2).get (PWM.DUTY_TAG p) = c.get (PWM.SHDW_TAG p) ∧
      ((c.pwmReload p cmp cmp2).gens.get p).taken = ((c.placeWindow p (c.get (PWM.SHDW_D p))).1, (c.placeWindow p (c.get (PWM.SHDW_D p))).2, (c.gens.get p).go || (c.owner p).isNone,
        0, (c.gens.get p).cmpPair) ∧
      (c.pwmReload p cmp cmp2).faultQ = c.faultQ ∧ (c.pwmReload p cmp cmp2).outbox = c.outbox ∧
      (c.pwmReload p cmp cmp2).get (CMP.PKSTAT_THR p) = c.get (CMP.PKCFG_START p) ∧
      c.OnlyIn (fun o => phaseRegs p o || (c.owner p).any fun n => o == PHSL.STATUS n) (c.pwmReload p cmp cmp2) := by
  have hu : (c.atSnapshot p).regs = c.regs := reloadHead_regs _ _ _ _
  obtain ⟨hfired, hgo, hpair⟩ := reloadHead_gen c p (c.endsHigh p) false
  obtain ⟨hsnap, hfaults, houts, hd, htag, htaken⟩ := snapshot_word_spec (c.atSnapshot p) p (by rwa [get_congr hu])
  obtain ⟨hleaves, hthr⟩ := pwmReload_leaves c p cmp cmp2 hruns h hshed hsnap
  have hkept := tailRegs_kept (c.owner p) p (owner_lt c p)
  have hduty : tailRegs (c.owner p) p (PWM.DUTY p) = false := hkept _ (by simp [keptRegs])
  have hsame : c.OnlyIn (snapRegs p) (c.atSnapshot p) := (Chip.OnlyIn.refl _ _).upd hu
  refine ⟨?_, ?_, ?_, hleaves.faults.trans hfaults, hleaves.outs.trans houts, hthr, pwmReload_onlyIn c p cmp cmp2 hruns h hshed hsnap⟩
  · rw [hleaves.regs.get (PWM.DUTY_D p) hduty, hd, get_congr hu]
  · rw [hleaves.regs.get (PWM.DUTY_TAG p) hduty, htag, get_congr hu]
  · rw [hleaves.taken, htaken, get_congr hu, placeWindow_congr hsame hmod, owner_congr hsame p (snapRegs_settings p).2.2.1]
    rw [Chip.atSnapshot, hfired, hgo, hpair]

/-- The reload of a generator in direct mode with a completed pair (R125; log entry 191). -/
theorem pwmReload_direct (c : Chip) (p : Nat) (cmp cmp2 : Bool) (a b : Nat) (hruns : c.genRuns p = true) (h : c.single p = true) (hshed : (c.gens.get p).shedOff = false)
    (hmod : c.get (PWM.CTRL_MOD p) = 3) (hpair : (c.gens.get p).cmpPair = some (a, b)) (ha : a < 2 ^ 22) (hb : b < 2 ^ 22) :
    (c.pwmReload p cmp cmp2).get (PWM.CMPA_ON p) = a ∧ (c.pwmReload p cmp cmp2).get (PWM.CMPB_OFF p) = b ∧
      ((c.pwmReload p cmp cmp2).gens.get p).taken = (a, b, (c.gens.get p).go || (c.owner p).isNone, 0, none) ∧
      (c.pwmReload p cmp cmp2).get (PWM.DUTY_TAG p) = (if c.get (PWM.CTRL_ENSNK p) = 1 then 0 else 3) ∧
      c.OnlyIn (fun o => phaseRegs p o || (c.owner p).any fun n => o == PHSL.STATUS n) (c.pwmReload p cmp cmp2) := by
  have hu : (c.atSnapshot p).regs = c.regs := reloadHead_regs _ _ _ _
  obtain ⟨hfired, hgo, hcmp⟩ := reloadHead_gen c p (c.endsHigh p) false
  obtain ⟨hsnap, hon, hoff, htag, htaken⟩ := snapshot_direct_spec (c.atSnapshot p) p a b (by rwa [get_congr hu]) (hcmp.trans hpair) ha hb
  obtain ⟨hleaves, -⟩ := pwmReload_leaves c p cmp cmp2 hruns h hshed hsnap
  have hkept := tailRegs_kept (c.owner p) p (owner_lt c p)
  have hsame : c.OnlyIn (snapRegs p) (c.atSnapshot p) := (Chip.OnlyIn.refl _ _).upd hu
  refine ⟨?_, ?_, ?_, ?_, pwmReload_onlyIn c p cmp cmp2 hruns h hshed hsnap⟩
  · rw [hleaves.regs.get (PWM.CMPA_ON p) (hkept _ (by simp [keptRegs, PWM.CMPA_ON])), hon]
  · rw [hleaves.regs.get (PWM.CMPB_OFF p) (hkept _ (by simp [keptRegs, PWM.CMPB_OFF])), hoff]
  · rw [hleaves.taken, htaken, owner_congr hsame p (snapRegs_settings p).2.2.1]
    rw [Chip.atSnapshot, hfired, hgo]
  · rw [hleaves.regs.get (PWM.DUTY_TAG p) (hkept _ (by simp [keptRegs, PWM.DUTY_TAG])), htag, get_congr hu]

/-- Where each mode but the direct one places the on-window (R124). -/
theorem placeWindow_modes (c : Chip) (p d : Nat) :
    (c.get (PWM.CTRL_MOD p) = 0 → c.placeWindow p d = (0, d)) ∧ (c.get (PWM.CTRL_MOD p) = 1 → c.placeWindow p d = (c.genPeriod p - d, c.genPeriod p)) ∧
      (c.get (PWM.CTRL_MOD p) = 2 → c.placeWindow p d = (c.genPeriod p / 2 - d / 2, c.genPeriod p / 2 - d / 2 + d)) := by
  refine ⟨fun h => ?_, fun h => ?_, fun h => ?_⟩ <;> simp only [Chip.placeWindow, h]

/-- Settles O21: a word leaves its lane only in its turn; its shadows take tag and clipped duty, and a reload is its snapshot followed by steps that leave what the snapshot took. -/
theorem dutyWordsReachTheGenerators : Obligations.DutyWordsReachTheGenerators := by
  unfold Obligations.DutyWordsReachTheGenerators
  refine ⟨fun s d n w rest settled hon hlane hturn => ?_, fun s d n w rest settled hon hlane hturn hfixed => ?_,
    fun s d n p w rest settled hon hlane hturn hevent htag hdie hown hen => ?_, fun s d n good settled hturn => ?_, fun s d n hthree => ?_,
    fun s req p value hreach hmod => ?_, fun s p cmp cmp2 hruns hsingle hshed hgo hmod hle => ?_, fun s p cmp cmp2 a b hruns hsingle hshed hmod hpair ha hb => ?_⟩
  · have hrun : Machine.exec (.dutyWordArrive d n ⟨false, settled⟩) s = .next { s with chip := s.chip.dutyArrive (d.val + 1) n.val false settled.toNat } := rfl
    have hsrc : 0x19 + d.val = 0x18 + (d.val + 1) := by omega
    rw [hrun, dutyArrive_bad s.chip _ _ w rest _ hon hlane hturn, hsrc]
    exact ⟨_, rfl, recorded_discard s.chip (d.val + 1) n.val rest, effect_discard s (d.val + 1) n.val rest⟩
  · have hrun : Machine.exec (.dutyWordArrive d n ⟨true, settled⟩) s = .next { s with chip := s.chip.dutyArrive (d.val + 1) n.val true settled.toNat } := rfl
    rw [hrun, dutyArrive_good s.chip _ _ w rest _ hon hlane hturn]
    simp only [hfixed, if_true]
    exact ⟨_, rfl, (Effect.start s).innerStep (fun c => { c.laneTaken (d.val + 1) n.val rest with
      discards := c.discards.set (32 * (d.val + 1) + n.val) 0, holds := c.holds.set (32 * (d.val + 1) + n.val) (some w) }) rfl rfl rfl rfl rfl rfl⟩
  · have hrun : Machine.exec (.dutyWordArrive d n ⟨true, settled⟩) s = .next { s with chip := s.chip.dutyArrive (d.val + 1) n.val true settled.toNat } := rfl
    obtain ⟨htook, htagged, hduty, hfaults, houts, hregs⟩ := dutyArrive_event s d n p w rest settled.toNat hon hlane hturn hevent htag hdie hown hen
    exact ⟨_, hrun, htook, htagged, hduty, hfaults, houts, rfl, rfl, hregs.same⟩
  · have hrun : Machine.exec (.dutyWordArrive d n ⟨good, settled⟩) s = .next { s with chip := s.chip.dutyArrive (d.val + 1) n.val good settled.toNat } := rfl
    rw [hrun, dutyArrive_no_turn s.chip _ _ _ _ hturn]
    exact ⟨_, rfl, rfl⟩
  · have hrun : Machine.exec (.discardLimit d n) s = .next { s with chip := s.chip.discardLimit (d.val + 1) n.val } := rfl
    rw [hrun, discardLimit_of_three s.chip _ _ hthree]
    exact ⟨_, rfl, ((Effect.start s).innerStep (fun c => { c with discards := c.discards.set (32 * (d.val + 1) + n.val) 0 }) rfl rfl rfl rfl rfl rfl).raise _⟩
  · have hrun : Machine.exec (.cmpbWrite req p value) s = .next { s with chip := s.chip.busWrite s.nvm req (PWM.CMPB p.val) value true } := rfl
    rw [hrun, busWrite_cmpb s.chip s.nvm req p value true hreach hmod]
    refine ⟨_, rfl, ?_, (Effect.start s).innerStep (fun c => c.genUpd p.val fun g => { g with cmpPair := some (g.cmpA, wordField value 0 22) }) rfl rfl rfl rfl rfl rfl⟩
    simp [Chip.genUpd]
  · have hrun : Machine.exec (.pwmReload p cmp cmp2) s = .next { s with chip := s.chip.pwmReload p.val cmp cmp2 } := rfl
    obtain ⟨hduty, htag, htaken, hfaults, houts, hthr, hregs⟩ := pwmReload_word s.chip p.val cmp cmp2 hruns hsingle hshed hmod
    obtain ⟨hmod0, hmod1, hmod2⟩ := placeWindow_modes s.chip p.val (s.chip.get (PWM.SHDW_D p.val))
    simp only [GenHw.taken, Prod.mk.injEq, hgo, Bool.true_or] at htaken
    obtain ⟨hon, hoff, hgoes, hfired, -⟩ := htaken
    refine ⟨_, hrun, hduty, htag, fun h0 => ?_, fun h1 => ?_, fun h2 => ?_, hgoes, hfired, hthr, hfaults, houts, rfl, rfl, hregs.same⟩
    · rw [hmod0 h0] at hon hoff
      exact ⟨hon, hoff⟩
    · rw [hmod1 h1] at hon hoff
      exact ⟨hon, hoff⟩
    · rw [hmod2 h2] at hon hoff
      exact ⟨hon, hoff⟩
  · have hrun : Machine.exec (.pwmReload p cmp cmp2) s = .next { s with chip := s.chip.pwmReload p.val cmp cmp2 } := rfl
    obtain ⟨ha', hb', htaken, htag, hregs⟩ := pwmReload_direct s.chip p.val cmp cmp2 a b hruns hsingle hshed hmod hpair ha hb
    simp only [GenHw.taken, Prod.mk.injEq] at htaken
    obtain ⟨hon, hoff, -, -, hnone⟩ := htaken
    exact ⟨_, hrun, ha', hb', hon, hoff, hnone, htag, rfl, rfl, hregs.same⟩

end Sys2Proof.Machine

namespace Sys2Proof.Machine

/-! What the end of a die's power-up leaves alone: supplies, clock, links, and the registers below 0x40, among them those of the links. Every operation that it runs through gets one rule, and the rules chain. -/

/-- The registers below 0x40, the supplies, the clock, and the training and last keep-alive of every die's link stay (R28, R33, R43, R54). -/
structure Chip.Calm (s t : Chip) : Prop where
  regs : ∀ o, o < 0x40 → t.regs.get o = s.regs.get o
  power : t.power = s.power
  time : t.time = s.time
  links : ∀ d, (t.dies.get d).training = (s.dies.get d).training ∧ (t.dies.get d).keepAlive = (s.dies.get d).keepAlive

namespace Chip.Calm

variable {s t u : Chip}

theorem refl (s : Chip) : Calm s s := ⟨fun _ _ => rfl, rfl, rfl, fun _ => ⟨rfl, rfl⟩⟩

theorem trans (h : Calm s t) (k : Calm t u) : Calm s u where
  regs o ho := (k.regs o ho).trans (h.regs o ho)
  power := k.power.trans h.power
  time := k.time.trans h.time
  links d := ⟨(k.links d).1.trans (h.links d).1, (k.links d).2.trans (h.links d).2⟩

theorem setReg (h : Calm s t) (o : Nat) (w : Word) (ho : 0x40 ≤ o) : Calm s (t.setReg o w) :=
  ⟨fun p hp => (reg_setReg_other t o p w (by omega)).trans (h.regs p hp), h.power, h.time, h.links⟩

theorem put (h : Calm s t) (f : Fld) (x : Nat) (hf : 0x40 ≤ f.off) : Calm s (t.put f x) := h.setReg _ _ hf

theorem putB (h : Calm s t) (f : Fld) (b : Bool) (hf : 0x40 ≤ f.off) : Calm s (t.putB f b) := h.put f _ hf

theorem add (h : Calm s t) (f : Fld) (n : Nat) (hf : 0x40 ≤ f.off) : Calm s (t.add f n) := h.put f _ hf

theorem bell (h : Calm s t) (i : Nat) : Calm s (t.bell i) := ⟨h.regs, h.power, h.time, h.links⟩

theorem raise (h : Calm s t) (m : FaultMsg) : Calm s (t.raise m) := ⟨h.regs, h.power, h.time, h.links⟩

theorem out (h : Calm s t) (o : Output) : Calm s (t.out o) := ⟨h.regs, h.power, h.time, h.links⟩

theorem event (h : Calm s t) (f g : Fld) (i : Nat) (hf : 0x40 ≤ f.off) (hg : 0x40 ≤ g.off) : Calm s (t.event f g i) := ((h.put f 1 hf).add g 1 hg).bell i

/-- The other parts of the chip do not count. -/
theorem upd (h : Calm s t) (hr : u.regs = t.regs) (hp : u.power = t.power) (ht : u.time = t.time) (hd : u.dies = t.dies) : Calm s u :=
  ⟨fun o ho => by rw [hr, h.regs o ho], hp.trans h.power, ht.trans h.time, fun d => by rw [hd]; exact h.links d⟩

/-- A change of a die's state beside its link. -/
theorem dieUpd (h : Calm s t) (n : Nat) (f : DieHw → DieHw) (hf : ∀ x, (f x).training = x.training ∧ (f x).keepAlive = x.keepAlive) :
    Calm s { t with dies := t.dies.upd n f } where
  regs := h.regs
  power := h.power
  time := h.time
  links d := by
    obtain ⟨htrain, halive⟩ := h.links d
    dsimp only
    rw [Tbl.get_upd]
    split
    · next hd => rw [← hd, (hf _).1, (hf _).2]; exact ⟨htrain, halive⟩
    · exact ⟨htrain, halive⟩

theorem either {b : Prop} [Decidable b] (h : Calm s t) (k : Calm s u) : Calm s (if b then t else u) := by
  split
  · exact h
  · exact k

theorem foldl {β : Type} {l : List β} {f : Chip → β → Chip} (h : Calm s t) (hf : ∀ x ∈ l, ∀ c, Calm c (f c x)) : Calm s (l.foldl f t) := by
  induction l generalizing t with
  | nil => exact h
  | cons x l ih => exact ih (h.trans (hf x List.mem_cons_self t)) fun y hy => hf y (List.mem_cons_of_mem _ hy)

theorem forEach {l : List Nat} {f : Nat → Chip → Chip} (h : Calm s t) (hf : ∀ i ∈ l, ∀ c, Calm c (f i c)) : Calm s (t.forEach l f) := h.foldl hf

/-- A field of a register below the bound reads the same. -/
theorem get (h : Calm s t) (f : Fld) (hf : f.off < 0x40) : t.get f = s.get f := congrArg (fun w => wordField w f.lo f.width) (h.regs f.off hf)

end Chip.Calm

end Sys2Proof.Machine

namespace Sys2Proof.Machine

/-! Generators and trips write registers of the dies' windows, generators and phases. -/

theorem die_above (d a b : Nat) : 0x40 ≤ dieBase d + a + b := by
  unfold dieBase
  omega

namespace Chip.Calm

variable {s t : Chip}

theorem genUpd (h : s.Calm t) (p : Nat) (f : GenHw → GenHw) : s.Calm (t.genUpd p f) := h.upd rfl rfl rfl rfl

theorem phUpd (h : s.Calm t) (p : Nat) (f : PhaseHw → PhaseHw) : s.Calm (t.phUpd p f) := h.upd rfl rfl rfl rfl

theorem genShow (h : s.Calm t) (p : Nat) : s.Calm (t.genShow p) := by
  unfold Chip.genShow
  exact (h.put _ _ (die_above _ _ _)).putB _ _ (die_above _ _ _)

theorem genShowAll (h : s.Calm t) (p : Nat) : s.Calm (t.genShowAll p) := by
  unfold Chip.genShowAll
  exact .either ((h.genShow _).genShow _) (h.genShow _)

theorem tripLatch (h : s.Calm t) (p : Nat) : s.Calm (t.tripLatch p) := by
  unfold Chip.tripLatch
  refine .either h (.genUpd (.forEach (.foldl ?_ fun _ _ u => .bell (.refl u) _) fun _ _ u => .genUpd (.refl u) _ _) _ _)
  exact ((h.put (PWM.TRIPST_LAT p) _ (die_above _ _ _)).put (PWM.TRIPST_TRIPF p) 1 (die_above _ _ _)).add _ _ (die_above _ _ _)

theorem tripCycle (h : s.Calm t) (p : Nat) : s.Calm (t.tripCycle p) := by
  unfold Chip.tripCycle
  refine .either h (.genUpd (.forEach (.genUpd (.either h ?_) _ _) fun _ _ u => .genUpd (.refl u) _ _) _ _)
  exact h.event _ _ _ (die_above _ _ _) (die_above _ _ _)

theorem tripEval (h : s.Calm t) (p : Nat) : s.Calm (t.tripEval p) := by
  unfold Chip.tripEval
  exact (((h.put (PWM.TRIPST_ACT p) _ (die_above _ _ _)).tripLatch p).tripCycle p).genShowAll p

theorem tripEvalDie (h : s.Calm t) (n : Nat) : s.Calm (t.tripEvalDie n) := h.forEach fun p _ u => .tripEval (.refl u) p

theorem setWmWire (h : s.Calm t) (n r : Nat) (on : Bool) : s.Calm (t.setWmWire n r on) := by
  have hwire : s.Calm { t with dies := t.dies.upd n fun d => { d with wmWire := setBitAt (t.dies.get n).wmWire r on } } := h.dieUpd n _ fun _ => ⟨rfl, rfl⟩
  unfold Chip.setWmWire
  exact .either h (.either (hwire.tripEvalDie n) hwire)

theorem wmWires (h : s.Calm t) (r : Nat) : s.Calm (t.wmWires r) := h.forEach fun d _ u => .setWmWire (.refl u) d r _

end Chip.Calm

end Sys2Proof.Machine

namespace Sys2Proof.Machine

/-! The sequencer's starts write the registers of rails, domains, guard windows and the event ring. -/

namespace Chip.Calm

variable {s t : Chip}

theorem railUpd (h : s.Calm t) (r : Nat) (f : RailHw → RailHw) : s.Calm (t.railUpd r f) := h.upd rfl rfl rfl rfl

theorem domUpd (h : s.Calm t) (d : Nat) (f : DomHw → DomHw) : s.Calm (t.domUpd d f) := h.upd rfl rfl rfl rfl

theorem withRings (h : s.Calm t) (r : Tbl RingHw fun _ => {}) : s.Calm { t with rings := r } := h.upd rfl rfl rfl rfl

theorem withHif (h : s.Calm t) (x : HifHw) : s.Calm { t with hif := x } := h.upd rfl rfl rfl rfl

theorem withFlt (h : s.Calm t) (x : FltHw) : s.Calm { t with flt := x } := h.upd rfl rfl rfl rfl

theorem linkWake (h : s.Calm t) : s.Calm t.linkWake := by
  unfold Chip.linkWake
  exact .either (h.put _ _ (by decide)) h

theorem signalVec (h : s.Calm t) (v : Nat) : s.Calm (t.signalVec v) := by
  have hpend : s.Calm (t.put (PBA.BITS_PEND 0) (setBitAt (t.get (PBA.BITS_PEND 0)) v true)) := h.put _ _ (by decide)
  unfold Chip.signalVec
  exact .either h (.either (.either (h.linkWake.out _) hpend) (.either (.either (hpend.out _) (hpend.linkWake.out _)) hpend))

theorem ringSignal (h : s.Calm t) (r : Nat) : s.Calm (t.ringSignal r) := (h.withRings _).signalVec _

theorem ringCount (h : s.Calm t) (r : Nat) (irq : Bool) : s.Calm (t.ringCount r irq) := by
  have hcount := h.withRings (t.rings.upd r fun h => { h with unsig := h.unsig + 1, first := (if h.unsig = 0 then t.now else h.first) })
  unfold Chip.ringCount
  exact .either (hcount.ringSignal r) hcount

theorem incWrap (h : s.Calm t) (f : Fld) (hf : 0x40 ≤ f.off) : s.Calm (t.incWrap f) := h.put f _ hf

theorem ringStore (h : s.Calm t) (r : Nat) (bytes : List Byte) : s.Calm (t.ringStore r bytes) := by
  have hring (a : Nat) (ha : 0x40 ≤ a) : 0x40 ≤ a + 0x20 * r := Nat.le_add_right_of_le ha
  have hwritten (e : Output) := (h.out e).incWrap (RING.DIDX_DIDX r) (hring _ (by decide))
  have hcounted (e : Output) (b : Prop) [Decidable b] :=
    Chip.Calm.either (b := b) ((hwritten e).incWrap (RING.CNT_CNT r) (hring _ (by decide))) (hwritten e)
  unfold Chip.ringStore Chip.fullShow
  exact (((hcounted _ _).out _).withRings _).putB _ _ (hring _ (by decide))

theorem ringPut (h : s.Calm t) (r : Nat) (bytes : List Byte) (irq : Bool) : s.Calm (t.ringPut r bytes irq) := (h.ringStore r bytes).ringCount r irq

theorem ringDrop (h : s.Calm t) (r : Nat) : s.Calm (t.ringDrop r) := (h.add (RING.CNT_CNT r) 1 (Nat.le_add_right_of_le (by decide))).withRings _

theorem hostEvent (h : s.Calm t) (type inst : Nat) (body : List Byte) : s.Calm (t.hostEvent type inst body) := by
  have hseq := h.withHif { t.hif with evSeq := (t.hif.evSeq + 1) % 2 ^ 16 }
  unfold Chip.hostEvent
  exact .either h (.either (hseq.ringDrop _) (.either (.either (hseq.withHif _) (hseq.ringDrop _)) (.either (hseq.ringDrop _) (hseq.ringPut _ _ _))))

theorem guardShow (h : s.Calm t) : s.Calm t.guardShow := by
  unfold Chip.guardShow
  exact (h.put FLT.STAT_GREASON _ (by decide)).putB FLT.STAT_GUARD _ (by decide)

theorem guardOpen (h : s.Calm t) (g : Nat) : s.Calm (t.guardOpen g) := by
  unfold Chip.guardOpen
  exact .either h (h.withFlt _).guardShow

theorem guardClose (h : s.Calm t) (g : Nat) : s.Calm (t.guardClose g) := (h.withFlt _).guardShow

theorem guardDomains (h : s.Calm t) : s.Calm t.guardDomains := by
  have hone (b : Prop) [Decidable b] : s.Calm (if b then t.guardClose 1 else t) := .either (h.guardClose 1) h
  unfold Chip.guardDomains
  exact .either (hone _) ((hone _).guardClose 4)

theorem metRefresh (h : s.Calm t) : s.Calm t.metRefresh := h.forEach fun r _ u => .railUpd (.refl u) r _

theorem domRefuse (h : s.Calm t) (d : Nat) : s.Calm (t.domRefuse d) := h.event _ _ _ (Nat.le_add_right_of_le (by decide)) (Nat.le_add_right_of_le (by decide))

theorem domStartNow (h : s.Calm t) (d : Nat) (requal : Bool) : s.Calm (t.domStartNow d requal) := by
  have hrails (l : List Nat) : s.Calm (t.forEach l fun r t => ((t.put (SEQR.STAT_STATE r) 1).put (SEQR.STAT_CAUSE r) 0).railUpd r fun h => { h with metAt := none }) :=
    h.forEach fun r _ u => .railUpd (.put (.put (.refl u) _ _ (Nat.le_add_right_of_le (by decide))) _ _ (Nat.le_add_right_of_le (by decide))) r _
  unfold Chip.domStartNow
  exact .either (hrails _).metRefresh (.metRefresh (.either (.guardOpen (.domUpd (hrails _) _ _) 4) (.domUpd (hrails _) _ _)))

theorem domShow (h : s.Calm t) (d : Nat) : s.Calm (t.domShow d) := by
  have hdom (a : Nat) (ha : 0x40 ≤ a) : 0x40 ≤ a + 0x20 * d := Nat.le_add_right_of_le ha
  have hcounts (k m : Nat) := (h.put (SEQD.STAT_NRAIL d) k (hdom _ (by decide))).put (SEQD.STAT_NGOOD d) m (hdom _ (by decide))
  have hstate (k m st : Nat) := (hcounts k m).put (SEQD.STAT_STATE d) st (hdom _ (by decide))
  unfold Chip.domShow
  refine .either (hcounts _ _) (.hostEvent (.either (.domUpd (.event (hstate _ _ _) _ _ _ (hdom _ (by decide)) (hdom _ (by decide))) _ _)
    (.either (.event (hstate _ _ _) _ _ _ (hdom _ (by decide)) (hdom _ (by decide))) (.either (.domUpd (hstate _ _ _) _ _) (hstate _ _ _)))) _ _ _)

theorem domPend (h : s.Calm t) (d : Nat) : s.Calm (t.domPend d) := by
  have hpend : s.Calm (t.put (SEQD.STAT_PENDST d) 0) := h.put _ _ (Nat.le_add_right_of_le (by decide))
  unfold Chip.domPend
  exact .either (.either ((hpend.domStartNow d false).domShow d) (hpend.domRefuse d)) h

theorem seqRefresh (h : s.Calm t) : s.Calm t.seqRefresh := by
  have hdoms : s.Calm ((t.metRefresh.forEach [0, 1, 2, 3] fun d u => u.domShow d).forEach [0, 1, 2, 3] fun d u => u.domPend d) :=
    (h.metRefresh.forEach fun d _ u => .domShow (.refl u) d).forEach fun d _ u => .domPend (.refl u) d
  have hshown (a b : Bool) := (hdoms.putB SEQ.GSTAT_ALLOFF a (by decide)).putB SEQ.GSTAT_INGOOD b (by decide)
  unfold Chip.seqRefresh
  exact .guardDomains (.either (.put (hshown _ _) SEQ.GSTAT_INSHUT 0 (by decide)) (hshown _ _))

theorem ask (h : s.Calm t) (a : Ask) : s.Calm (t.ask a) := h.upd rfl rfl rfl rfl

theorem askDone (h : s.Calm t) (a : Asker) : s.Calm (t.askDone a) := by
  have hdones (l : List Asker) : s.Calm { t with dones := l } := h.upd rfl rfl rfl rfl
  unfold Chip.askDone
  exact .either (hdones _) h

end Chip.Calm

end Sys2Proof.Machine

namespace Sys2Proof.Machine

/-! The phase manager, the health maps and a converter's sequence write the registers of loops, dies and converters. -/

theorem sqBase_above (x a : Nat) : 0x40 ≤ sqBase x + a := by
  unfold sqBase dieBase
  split <;> omega

namespace Chip.Calm

variable {s t u : Chip}

theorem lpUpd (h : s.Calm t) (n : Nat) (f : LoopPhHw → LoopPhHw) : s.Calm (t.lpUpd n f) := h.upd rfl rfl rfl rfl

theorem moveShow (h : s.Calm t) (n : Nat) : s.Calm (t.moveShow n) := h.putB _ _ (Nat.le_add_right_of_le (by decide))

theorem phStatus (h : s.Calm t) (n : Nat) : s.Calm (t.phStatus n) := by
  have hloop {a b : Nat} (ha : 0x40 ≤ a) : 0x40 ≤ a + b := Nat.le_add_right_of_le ha
  unfold Chip.phStatus
  exact ((((h.put _ _ (hloop (by decide))).put _ _ (hloop (by decide))).putB _ _ (hloop (by decide))).putB _ _ (hloop (by decide))).moveShow n

theorem genStop (h : s.Calm t) (p : Nat) : s.Calm (t.genStop p) := by
  have hshed : s.Calm { t.put (PHS.TRIM_TRIM p) 0 with phases := t.phases.upd p fun h => { h with acc := 0 } } :=
    (h.put (PHS.TRIM_TRIM p) 0 (die_above _ _ _)).phUpd p fun h => { h with acc := 0 }
  unfold Chip.genStop
  exact .genShowAll (.genUpd (.either hshed h) p _) p

theorem phaseIdle (h : s.Calm t) (p : Nat) : s.Calm (t.phaseIdle p) := by
  unfold Chip.phaseIdle
  exact .putB (.put (.phUpd (.put (h.genStop p) _ _ (die_above _ _ _)) p _) _ _ (die_above _ _ _)) _ _ (die_above _ _ _)

theorem procEnd (h : s.Calm t) (n : Nat) : s.Calm (t.procEnd n) := .lpUpd (h.put _ _ (Nat.le_add_right_of_le (by decide))) n _

theorem reinterleave (h : s.Calm t) (n : Nat) (new added removed : List Nat) (transient : Bool) : s.Calm (t.reinterleave n new added removed transient) := by
  have hlanes (u : Chip) (l : Tbl (List CtlWord) fun _ => []) : u.Calm { u with lanes := l } := .upd (.refl u) rfl rfl rfl rfl
  unfold Chip.reinterleave
  exact .phStatus (.forEach (.lpUpd (h.put _ _ (Nat.le_add_right_of_le (by decide))) n _) fun d _ u => hlanes u _) n

theorem phaseLost (h : s.Calm t) (p reason sflt : Nat) : s.Calm (t.phaseLost p reason sflt) := by
  have hloop {a b : Nat} (ha : 0x40 ≤ a) : 0x40 ≤ a + b := Nat.le_add_right_of_le ha
  unfold Chip.phaseLost
  split
  · exact h
  · next n _ =>
    have hlost := (h.phUpd p fun h => { h with lost := true }).phaseIdle p
    have hraised (m : FaultMsg) := (hlost.event (PHSL.EVT_LOSTF n) (PHSL.EVTCNT_LOSTCNT n) (0x140 + n) (hloop (by decide)) (hloop (by decide))).raise m
    have hended (b : Prop) [Decidable b] (m : FaultMsg) := Chip.Calm.either (b := b) ((hraised m).procEnd n) (hraised m)
    have hset (a b : Prop) [Decidable a] [Decidable b] (m : FaultMsg) (l : List Nat) := Chip.Calm.either (b := a) ((hended b m).reinterleave n l [] [] false) (hended b m)
    exact .either h (.phStatus (.either (.raise (.event (hset _ _ _ _) _ _ _ (hloop (by decide)) (hloop (by decide))) _) (hset _ _ _ _)) n)

theorem segUseRefresh (h : s.Calm t) (p : Nat) : s.Calm (t.segUseRefresh p) := by
  have hshown : s.Calm (t.segUseShow p) := by
    unfold Chip.segUseShow
    exact (h.put _ _ (die_above _ _ _)).put _ _ (die_above _ _ _)
  unfold Chip.segUseRefresh
  exact .either (hshown.phaseLost p 3 0) hshown

theorem roleShow (h : s.Calm t) (p : Nat) : s.Calm (t.roleShow p) := by
  have hrole (x : Nat) : s.Calm (t.put (PHS.STATE_ROLE p) x) := h.put _ x (die_above _ _ _)
  unfold Chip.roleShow
  exact .either (hrole 0) (.either (hrole 5) (.either (hrole 1) h))

/-! A register of a die takes a word. -/

theorem ofsReduce (h : s.Calm t) (p : Nat) : s.Calm (t.ofsReduce p) := by
  unfold Chip.ofsReduce
  exact .either h (h.put _ _ (die_above _ _ _))

theorem genTouched (h : s.Calm t) (p : Nat) : s.Calm (t.genTouched p) := by
  have hstop (b : Prop) [Decidable b] (f : GenHw → GenHw) := Chip.Calm.either (b := b) ((h.ofsReduce p).genUpd p f) (h.ofsReduce p)
  have hpk : 0x40 ≤ (CMP.PKSTAT_THR p).off := die_above _ _ _
  unfold Chip.genTouched
  exact .genShowAll (.tripEval (.either (hstop _ _) ((hstop _ _).put _ _ hpk)) p) p

theorem pinsReread (h : s.Calm t) (n : Nat) : s.Calm (t.pinsReread n) := by
  have hpin : 0x40 ≤ (PWMP.TPSTAT_LVL n).off := die_above n 0x804 0
  exact (h.put _ _ hpin).tripEvalDie n

theorem dieTouched (h : s.Calm t) (o : Nat) : s.Calm (t.dieTouched o) := by
  have hphases (b : Prop) [Decidable b] (p : Nat) := Chip.Calm.either (b := b) ((h.roleShow p).genTouched p) h
  unfold Chip.dieTouched
  refine .either (.either ((h.genTouched _).genTouched _) (h.genTouched _)) (.either (h.pinsReread _) (.either ?_ (.either (h.genTouched _) h)))
  exact .forEach (.forEach (hphases _ _) fun k _ u => .phStatus (.refl u) k) fun r _ u => .wmWires (.refl u) r

theorem phofsWrite (h : s.Calm t) (p : Nat) (w : Word) : s.Calm (t.phofsWrite p w) := by
  unfold Chip.phofsWrite
  exact .either h (h.put _ _ (die_above _ _ _))

theorem cmpaWrite (h : s.Calm t) (p : Nat) (w : Word) : s.Calm (t.cmpaWrite p w) := .either (h.genUpd p _) h

theorem cmpbWrite (h : s.Calm t) (p : Nat) (w : Word) : s.Calm (t.cmpbWrite p w) := .either (h.genUpd p _) h

theorem regPut_die (h : s.Calm t) (o : Nat) (w : Word) (ho : dieWindow ≤ o) : s.Calm (t.regPut o w) := by
  have hset : s.Calm (t.setReg o w) := h.setReg o w (Nat.le_trans (by decide) ho)
  simp only [Chip.regPut, ho, if_true]
  exact .either ((h.phofsWrite _ w).genShowAll _) (.either (h.cmpaWrite _ w) (.either (h.cmpbWrite _ w) (.either h (hset.dieTouched o))))

theorem pairApply_die (h : s.Calm t) (o : Nat) (w : Word) (ho : dieWindow ≤ o) : s.Calm (t.pairApply o w) := h.regPut_die o _ ho

/-! The die's health map and its converter's sequence. -/

theorem tileDirty (h : s.Calm t) (tile : Nat) (failed : Bool) : s.Calm (t.tileDirty tile failed) := by
  have hdirty (x : Tbl (Option DirtyTile) fun _ => none) : s.Calm { t with dirtyTiles := x } := h.upd rfl rfl rfl rfl
  have hmap (d : Nat) : 0x40 ≤ (SEGP.MAPST_DIRTY d).off := die_above d 0x2804 0
  unfold Chip.tileDirty
  dsimp only
  split
  · exact hdirty _
  · exact (hdirty _).put _ _ (hmap _)

theorem withMap (h : s.Calm t) (x : Tbl Byte fun _ => 0) : s.Calm { t with mapBytes := x } := h.upd rfl rfl rfl rfl

theorem replayOne (h : s.Calm t) (x : Nat × Nat × Nat × Nat) : s.Calm (t.replayOne x) := by
  unfold Chip.replayOne
  exact .either ((h.withMap _).tileDirty _ _) h

theorem mapLoad (h : s.Calm t) (m : List Host.Cell) (n : Nat) : s.Calm (t.mapLoad m n) := by
  unfold Chip.mapLoad
  exact .foldl ((h.withMap _).withMap _) fun x _ u => .replayOne (.refl u) x

theorem sqUpd (h : s.Calm t) (x : Nat) (f : SqHw → SqHw) : s.Calm (t.sqUpd x f) := h.upd rfl rfl rfl rfl

theorem sqRun (h : s.Calm t) (x e : Nat) (r : SqRun) : s.Calm (t.sqRun x e r) := h.sqUpd x _

theorem sqRunInj (h : s.Calm t) (x : Nat) (i : SqInj) : s.Calm (t.sqRunInj x i) := h.sqRun x _ _

theorem sqLoadCal (h : s.Calm t) (x : Nat) (pl : List Byte) : s.Calm (t.sqLoadCal x pl) := (h.put _ _ (sqBase_above x _)).put _ _ (sqBase_above x _)

theorem sqLoad (h : s.Calm t) (x : Nat) (pl : List Byte) : s.Calm (t.sqLoad x pl) := by
  have hent (a e : Nat) : 0x40 ≤ sqBase x + a + 16 * e := Nat.le_add_right_of_le (sqBase_above x a)
  unfold Chip.sqLoad
  refine .forEach (.put (.put (h.put _ _ (sqBase_above x _)) _ _ (sqBase_above x _)) _ _ (sqBase_above x _)) fun e _ u => ?_
  exact .put (.put (.setReg (.setReg (.refl u) _ _ (hent _ e)) _ _ (hent _ e)) _ _ (hent _ e)) _ _ (hent _ e)

theorem sqTake (h : s.Calm t) (x : Nat) (halted : Bool) : s.Calm (t.sqTake x halted) := by
  unfold Chip.sqTake
  split
  · exact h
  · exact (h.sqLoad x _).sqUpd x _

theorem sqNext (h : s.Calm t) (x : Nat) : s.Calm (t.sqNext x) := by
  have hreg (a : Nat) := sqBase_above x a
  unfold Chip.sqNext
  refine .either h (.put (.either ?_ ?_) _ _ (hreg _))
  · split
    · exact h.sqRunInj x _
    · exact .either (.sqRun (.sqUpd (h.put _ _ (hreg _)) x _) x _ _) (.either (h.sqRun x _ _) (.either (h.sqRun x _ _) h))
  · split
    · exact h.sqRunInj x _
    · exact .either (.sqRun (.put (h.sqUpd x _) _ _ (hreg _)) x _ _) (h.sqUpd x _)

theorem sqPowerUp (h : s.Calm t) (x : Nat) (pl : Option (List Byte)) : s.Calm (t.sqPowerUp x pl) := by
  have hnew (q : Tbl SqHw fun _ => {}) : s.Calm { t with sqs := q } := h.upd rfl rfl rfl rfl
  unfold Chip.sqPowerUp
  dsimp only
  split
  · exact hnew _
  · exact .sqNext (.sqTake (.sqUpd (.sqLoadCal (hnew _) x _) x _) x false) x

/-! The end of a die's power-up. -/

theorem railAsk (h : s.Calm t) (r : Nat) : s.Calm (t.railAsk r) := by
  unfold Chip.railAsk
  exact .either ((h.railUpd r _).ask _) h

theorem sensTell (h : s.Calm t) (n : Nat) : s.Calm (t.sensTell n) := by
  have hmask : 0x40 ≤ (THMD.DSTAT_MASK n).off := die_above n 0x7000 0
  exact h.put _ _ hmask

theorem laneUpd (h : s.Calm t) (k : Nat) (f : LaneHw → LaneHw) : s.Calm (t.laneUpd k f) := h.upd rfl rfl rfl rfl

theorem enumDie (h : s.Calm t) (d : Nat) : s.Calm (t.enumDie d) := h.forEach fun l _ u => .laneUpd (.putB (.refl u) _ false (die_above d 0x3010 (4 * l))) _ _

theorem withFw (h : s.Calm t) (x : FwHw) : s.Calm { t with fw := x } := h.upd rfl rfl rfl rfl

theorem dieAsk (h : s.Calm t) (n : Nat) : s.Calm (t.dieAsk n) := by
  have hasked : s.Calm { t with dies := t.dies.upd n fun h => { h with asked := true } } := h.dieUpd n _ fun _ => ⟨rfl, rfl⟩
  unfold Chip.dieAsk
  exact .either (hasked.ask _) h

theorem dieSeqAfter (h : s.Calm t) (n : Nat) : s.Calm (t.dieSeqAfter n) := by
  unfold Chip.dieSeqAfter
  split
  · exact (h.withFw _).dieAsk _
  · exact h.withFw _

theorem dieSeqDone (h : s.Calm t) (n : Nat) : s.Calm (t.dieSeqDone n) := .either (h.dieSeqAfter n) h

theorem domStart (h : s.Calm t) (d : Nat) (auto requal : Bool) : s.Calm (t.domStart d auto requal) := by
  unfold Chip.domStart
  exact .either (.either h (h.domRefuse d)) (.either (.either h (h.domRefuse d)) (.either (h.put _ _ (Nat.le_add_right_of_le (by decide))) (h.domStartNow d requal).seqRefresh))

theorem autoStarts (h : s.Calm t) (requal : Bool) : s.Calm (t.autoStarts requal) := h.forEach fun d _ u => .either (.domStart (.refl u) d true requal) (.refl u)

theorem coldStep9 (h : s.Calm t) : s.Calm t.coldStep9 := by
  have hstarted (x : FwHw) := (h.withFw x).autoStarts false
  unfold Chip.coldStep9
  exact .either (.either (hstarted _) ((hstarted _).guardClose 1)) h

end Chip.Calm

end Sys2Proof.Machine

namespace Sys2Proof.Machine

open Chip.OnlyIn (upd put refl)

/-! Phase-die links: training that fails, failed accesses, silence and the end of a power-up (R27, R28, R33, R54, R506). -/

/-- A report of an end of leave joins the reports. -/
theorem askDone_rest (c : Chip) (a : Asker) : ∃ l, c.askDone a = { c with dones := l } := by
  unfold Chip.askDone
  split
  · exact ⟨_, rfl⟩
  · exact ⟨c.dones, rfl⟩

theorem dieAsk_rest (c : Chip) (n : Nat) : ∃ x l, c.dieAsk n = { c with dies := x, asks := l } := by
  unfold Chip.dieAsk
  split
  · exact ⟨_, _, rfl⟩
  · exact ⟨c.dies, c.asks, rfl⟩

/-- The order of a cold start goes on with a die's request at most. -/
theorem dieSeqDone_rest (c : Chip) (n : Nat) : ∃ f x l, c.dieSeqDone n = { c with fw := f, dies := x, asks := l } := by
  unfold Chip.dieSeqDone Chip.dieSeqAfter
  split
  · split
    · next k _ =>
      obtain ⟨x, l, hask⟩ := dieAsk_rest { c with fw := { c.fw with dieSeq := some k } } k
      exact ⟨_, x, l, hask⟩
    · exact ⟨_, c.dies, c.asks, rfl⟩
  · exact ⟨c.fw, c.dies, c.asks, rfl⟩

theorem dieAsk_raise (c : Chip) (n : Nat) (m : FaultMsg) : (c.raise m).dieAsk n = (c.dieAsk n).raise m := by
  have hon : (c.raise m).dieOn n = c.dieOn n := dieOn_congr rfl n
  have hcond : (bitAt ((c.raise m).get TOP.DIECFG_PXUSE) (n - 1) && !(c.raise m).dieOn n && !((c.raise m).dies.get n).asked) =
      (bitAt (c.get TOP.DIECFG_PXUSE) (n - 1) && !c.dieOn n && !(c.dies.get n).asked) := by
    rw [hon]
    rfl
  unfold Chip.dieAsk
  rw [hcond]
  split <;> rfl

/-- A message waits beside that order. -/
theorem dieSeqDone_raise (c : Chip) (n : Nat) (m : FaultMsg) : (c.raise m).dieSeqDone n = (c.dieSeqDone n).raise m := by
  have hon (k : Nat) : (c.raise m).dieOn k = c.dieOn k := dieOn_congr rfl k
  have hafter : (c.raise m).dieSeqAfter n = (c.dieSeqAfter n).raise m := by
    simp only [Chip.dieSeqAfter, hon]
    have huse : (c.raise m).get TOP.DIECFG_PXUSE = c.get TOP.DIECFG_PXUSE := rfl
    rw [huse]
    split
    · exact dieAsk_raise { c with fw := { c.fw with dieSeq := some _ } } _ m
    · rfl
  simp only [Chip.dieSeqDone, hafter]
  exact (apply_ite (fun t => Chip.raise t m) (c.fw.dieSeq = some n) _ _).symm

/-- A link's training ends: its leave is given back and the next die of a cold start's order asks. -/
def Chip.trainingOver (c : Chip) (n : Nat) : Chip :=
  ({ c with dies := c.dies.upd n fun h => { h with training := false } }.askDone (.die n)).dieSeqDone n

theorem trainingOver_rest (c : Chip) (n : Nat) : ∃ f x l k, c.trainingOver n = { c with fw := f, dies := x, asks := l, dones := k } := by
  obtain ⟨k, hdone⟩ := askDone_rest { c with dies := c.dies.upd n fun h => { h with training := false } } (.die n)
  unfold Chip.trainingOver
  rw [hdone]
  obtain ⟨f, x, l, hseq⟩ := dieSeqDone_rest { { c with dies := c.dies.upd n fun h => { h with training := false } } with dones := k } n
  rw [hseq]
  exact ⟨f, x, l, k, rfl⟩

theorem trainingOver_training (c : Chip) (n : Nat) : ((c.trainingOver n).dies.get n).training = false := by
  have hcalm : Chip.Calm { c with dies := c.dies.upd n fun h => { h with training := false } } (c.trainingOver n) := .dieSeqDone (.askDone (.refl _) _) n
  rw [(hcalm.links n).1]
  simp

theorem trainingFail_eq (c : Chip) (n : Nat) (hon : c.dieOn n = true) (htrain : (c.dies.get n).training = true) :
    c.trainingFail n = (c.trainingOver n).raise ⟨0x6012, n, 1⟩ := by
  have hif : (c.dieOn n && (c.dies.get n).training) = true := by rw [hon, htrain]; rfl
  rw [Chip.trainingFail, if_pos hif, dieSeqDone_raise]
  rfl

theorem effect_trainingFail (s : State) (n : Nat) :
    Effect s { s with chip := (s.chip.trainingOver n).raise ⟨0x6012, n, 1⟩ } (fun c => c.trainingOver n) [] [] [⟨0x6012, n, 1⟩] [] := by
  obtain ⟨f, x, l, k, hover⟩ := trainingOver_rest s.chip n
  refine ((Effect.start s).innerStep (fun c => c.trainingOver n) ?_ ?_ ?_ ?_ ?_ rfl).raise _
  all_goals rw [hover]

/-! An access of a die fails (R27, R506). -/

theorem resendRest_of_three (c : Chip) (n : Nat) (h : (c.dies.get n).resends = 3) :
    c.resendRest n = { c with dies := c.dies.upd n fun h => { h with resends := 0 } } := by
  simp [Chip.resendRest, h, Chip.forEach]

/-- The die of an offset within its window. -/
theorem die_of_offset (d : DieId) (off : BitVec 17) : (dieWindow + 0x20000 * d.val + off.toNat - dieWindow) / 0x20000 = d.val := by
  have hoff : off.toNat < 2 ^ 17 := off.isLt
  omega

/-- A failed access: its resends are over, and its flag, count and offset are recorded. -/
def Chip.accessFailed (c : Chip) (n o : Nat) : Chip := { c with dies := c.dies.upd n fun h => { h with resends := 0 } }.accEvent ACC.ACCST_FAILF ACC.ACCCNT_FAILCNT o

theorem accFail_of_three (c : Chip) (d : DieId) (off : BitVec 17) (h : (c.dies.get (d.val + 1)).resends = 3) :
    c.accFail (dieWindow + 0x20000 * d.val + off.toNat) = (c.accessFailed (d.val + 1) (dieWindow + 0x20000 * d.val + off.toNat)).raise ⟨0x4011, d.val + 1, 0⟩ := by
  simp only [Chip.accFail, die_of_offset, resendRest_of_three c _ h]
  rfl

theorem flitFail_of_three (c : Chip) (d : DieId) (k : Fin 4) (off : BitVec 17) (write : Bool) (hup : c.reqUp (.pp k) = true) (halign : off.toNat % 4 = 0)
    (h : (c.dies.get (d.val + 1)).resends = 3) (hacc : c.dieAccess (dieWindow + 0x20000 * d.val + off.toNat) = true) :
    c.flitFail (.pp k) (dieWindow + 0x20000 * d.val + off.toNat) write =
      if write then c.accFail (dieWindow + 0x20000 * d.val + off.toNat)
      else (c.accFail (dieWindow + 0x20000 * d.val + off.toNat)).out (.data (.pp k) (dieWindow + 0x20000 * d.val + off.toNat) 0xffffffff false) := by
  have hwin : dieWindow = 0x100000 := rfl
  have hmod : (dieWindow + 0x20000 * d.val + off.toNat) % 4 = 0 := by omega
  simp [Chip.flitFail, hup, hmod, hacc, die_of_offset, h]

theorem accessFailed_fields (c : Chip) (n : Nat) (o : Nat) (ho : o < 2 ^ 21) :
    Recorded c (c.accessFailed n o) ACC.ACCST_FAILF ACC.ACCCNT_FAILCNT ∧ (c.accessFailed n o).get ACC.ACCST_LASTOFS = o := by
  refine ⟨⟨?_, ?_⟩, ?_⟩
  · rw [Chip.accessFailed, Chip.accEvent, get_put_apart _ _ _ _ rfl rfl, Chip.eventQuiet, Chip.inc, Chip.add, get_put_apart _ _ _ _ rfl rfl, Chip.flag, get_put_same _ _ _ rfl]
    rfl
  · rw [Chip.accessFailed, Chip.accEvent, get_put_apart _ _ _ _ rfl rfl, Chip.eventQuiet, Chip.inc, Chip.add, get_put_same _ _ _ rfl, Chip.flag, get_put_apart _ _ _ _ rfl rfl]
    exact Nat.mod_eq_of_lt (Nat.lt_of_le_of_lt (Nat.min_le_right _ _) (by decide))
  · rw [Chip.accessFailed, Chip.accEvent, get_put_same _ _ _ rfl]
    exact Nat.mod_eq_of_lt ho

theorem effect_accessFailed (s : State) (n o : Nat) (m : FaultMsg) :
    Effect s { s with chip := (s.chip.accessFailed n o).raise m } (fun c => { c with dies := c.dies.upd n fun h => { h with resends := 0 } })
      [ACC.ACCST_FAILF, ACC.ACCCNT_FAILCNT, ACC.ACCST_LASTOFS] [] [m] [] :=
  (((((Effect.start s).innerStep (fun c => { c with dies := c.dies.upd n fun h => { h with resends := 0 } }) rfl rfl rfl rfl rfl rfl).put ACC.ACCST_FAILF 1).put ACC.ACCCNT_FAILCNT _).put
    ACC.ACCST_LASTOFS o).raise m

end Sys2Proof.Machine

namespace Sys2Proof.Machine

open Chip.OnlyIn (upd put refl)

/-! A die that has heard nothing for 4 µs (R28). -/

theorem genShow_rest (c : Chip) (p : Nat) : ∃ r, c.genShow p = { c with regs := r } := by
  unfold Chip.genShow
  exact ⟨_, rfl⟩

/-- The outputs of a silenced die show high-impedance. -/
theorem genShow_silenced (c : Chip) (p : Nat) (h : (c.dies.get (dieOf p)).silenced = true) : (c.genShow p).get (PWM.OUT_LEVEL p) = 2 := by
  have hheld : c.genHeld p = true := by simp [Chip.genHeld, h]
  have hne : PWM.OUT p ≠ PWM.TRIPST p := by simp only [PWM.OUT, PWM.TRIPST, dieBase]; omega
  unfold Chip.genShow
  dsimp only
  rw [Chip.putB, get_put_apart _ _ _ _ rfl (Fld.apart_of_off_ne _ _ hne), get_put_same _ _ _ rfl, Chip.pinLevel, if_pos hheld]
  rfl

theorem genShow_other_level (c : Chip) (p q : Nat) (h : p ≠ q) : (c.genShow p).get (PWM.OUT_LEVEL q) = c.get (PWM.OUT_LEVEL q) := by
  refine (genShow_leaves c p).regs.get (PWM.OUT_LEVEL q) ?_
  simp only [tripRegs, Bool.or_eq_false_iff, beq_eq_false_iff_ne, PWM.OUT_LEVEL, PWM.OUT, PWM.TRIPST, PWM.TRIPCNT, dieBase]
  omega

/-- What shows of a list of phases of silenced dies: their levels, and nothing beyond their own registers. -/
theorem forEach_genShow_silenced (l : List Nat) (c : Chip) (h : ∀ p ∈ l, (c.dies.get (dieOf p)).silenced = true) :
    (∃ r, c.forEach l (fun p u => u.genShow p) = { c with regs := r }) ∧ c.OnlyIn (fun o => l.any fun p => tripRegs p o) (c.forEach l fun p u => u.genShow p) ∧
      ∀ p, p ∈ l ∨ c.get (PWM.OUT_LEVEL p) = 2 → (c.forEach l fun p u => u.genShow p).get (PWM.OUT_LEVEL p) = 2 := by
  induction l generalizing c with
  | nil => exact ⟨⟨c.regs, rfl⟩, refl _ c, fun p hp => hp.resolve_left List.not_mem_nil⟩
  | cons q l ih =>
    obtain ⟨r, hr⟩ := genShow_rest c q
    obtain ⟨hq, hl⟩ := List.forall_mem_cons.1 h
    obtain ⟨⟨r', hr'⟩, hregs, hlevels⟩ := ih (c.genShow q) fun p hp => by rw [hr]; exact hl p hp
    refine ⟨⟨r', ?_⟩, ?_, fun p hp => hlevels p ?_⟩
    · rw [hr] at hr'
      exact (congrArg (fun u => Chip.forEach u l fun p u => u.genShow p) hr).trans hr'
    · refine Chip.OnlyIn.trans ((genShow_leaves c q).regs.mono fun o ho => ?_) (hregs.mono fun o ho => ?_)
      · simp [ho]
      · simpa using .inr (List.any_eq_true.1 ho)
    · rcases eq_or_ne p q with rfl | hpq
      · exact .inr (genShow_silenced c p hq)
      · rcases hp with hmem | hlevel
        · exact .inl ((List.mem_cons.1 hmem).resolve_left hpq)
        · exact .inr ((genShow_other_level c q p hpq.symm).trans hlevel)

theorem dieOf_of_mem {n p : Nat} (h : p ∈ diePhases (n + 1)) : dieOf p = n + 1 := by
  obtain ⟨i, hi, rfl⟩ := List.mem_map.1 h
  have := List.mem_range.1 hi
  unfold dieOf
  omega

/-- A generator's trips and level lie in the first registers of its die's window. -/
theorem tripRegs_place {n p o : Nat} (hp : p ∈ diePhases (n + 1)) (h : tripRegs p o = true) : (decide (dieBase (n + 1) ≤ o) && decide (o < dieBase (n + 1) + 0x800)) = true := by
  have hdie := dieOf_of_mem hp
  unfold dieOf at hdie
  simp only [tripRegs, Bool.or_eq_true, beq_iff_eq, PWM.TRIPST, PWM.TRIPCNT, PWM.OUT, dieBase] at h
  rw [Bool.and_eq_true]
  constructor <;> exact decide_eq_true (by unfold dieBase; omega)

/-- The registers that a silent die changes: its link's, and its generators' levels and trips. -/
def silenceRegs (n o : Nat) : Bool := o == LINK.LINKSTAT n || (decide (dieBase n ≤ o) && decide (o < dieBase n + 0x800))

/-- The die's link shows the silence and its outputs are forced off. -/
def Chip.silence (c : Chip) (n : Nat) : Chip := { c with dies := c.dies.upd n fun h => { h with silenced := true } }.put (LINK.LINKSTAT_WDOG n) 1

theorem dieTimeout_eq (c : Chip) (n : Nat) (hon : c.dieOn n = true) (hruns : c.dieRuns n = true) :
    c.dieTimeout n = (c.silence n).forEach (diePhases n) fun p u => u.genShow p := by
  have hif : (c.dieOn n && c.dieRuns n) = true := by rw [hon, hruns]; rfl
  rw [Chip.dieTimeout, if_pos hif]
  rfl

theorem dieTimeout_spec (c : Chip) (d : DieId) (hon : c.dieOn (d.val + 1) = true) (hruns : c.dieRuns (d.val + 1) = true) :
    (c.dieTimeout (d.val + 1)).get (LINK.LINKSTAT_WDOG (d.val + 1)) = 1 ∧ ((c.dieTimeout (d.val + 1)).dies.get (d.val + 1)).silenced = true ∧
      (∀ p : PhaseId, p.val / 32 = d.val → (c.dieTimeout (d.val + 1)).get (PWM.OUT_LEVEL p.val) = 2) ∧
      (c.dieTimeout (d.val + 1)).faultQ = c.faultQ ∧ (c.dieTimeout (d.val + 1)).outbox = c.outbox ∧
      c.OnlyIn (silenceRegs (d.val + 1)) (c.dieTimeout (d.val + 1)) := by
  have hsilent : ((c.silence (d.val + 1)).dies.get (d.val + 1)).silenced = true := by simp [Chip.silence]
  obtain ⟨⟨r, hrest⟩, hregs, hlevels⟩ := forEach_genShow_silenced (diePhases (d.val + 1)) (c.silence (d.val + 1)) fun p hp => by rw [dieOf_of_mem hp]; exact hsilent
  rw [← dieTimeout_eq c _ hon hruns] at hrest hregs hlevels
  have hforced : c.OnlyIn (silenceRegs (d.val + 1)) { c with dies := c.dies.upd (d.val + 1) fun h => { h with silenced := true } } := (refl _ c).upd rfl
  have hstart : c.OnlyIn (silenceRegs (d.val + 1)) (c.silence (d.val + 1)) :=
    put hforced (LINK.LINKSTAT_WDOG (d.val + 1)) 1 (by simp [silenceRegs, LINK.LINKSTAT_WDOG])
  have hlink : ((diePhases (d.val + 1)).any fun p => tripRegs p (LINK.LINKSTAT (d.val + 1))) = false := by
    refine List.any_eq_false.2 fun p hp htrip => ?_
    have hplace := of_decide_eq_true (Bool.and_eq_true_iff.1 (tripRegs_place hp htrip)).1
    simp only [dieBase, LINK.LINKSTAT] at hplace
    omega
  refine ⟨?_, ?_, fun p hp => hlevels p.val (.inl ?_), ?_, ?_, hstart.trans (hregs.mono fun o ho => ?_)⟩
  · rw [hregs.get (LINK.LINKSTAT_WDOG (d.val + 1)) hlink, Chip.silence, get_put_same _ _ _ rfl]
    rfl
  · rw [hrest]
    exact hsilent
  · exact List.mem_map.2 ⟨p.val % 32, List.mem_range.2 (Nat.mod_lt _ (by decide)), by omega⟩
  · rw [hrest]
    rfl
  · rw [hrest]
    rfl
  · obtain ⟨p, hp, htrip⟩ := List.any_eq_true.1 ho
    rw [silenceRegs, tripRegs_place hp htrip, Bool.or_true]

/-! The end of a die's power-up (R33, R190, R228, R459). -/

theorem findBlock_dom (o : Nat) (bs : List BlockRow) (d : Dom) (r : RegRow) (h : findBlock o bs = some (d, r)) : ∃ b ∈ bs, b.dom = d := by
  induction bs with
  | nil => cases h
  | cons b bs ih =>
    have later (h : findBlock o bs = some (d, r)) : ∃ c ∈ b :: bs, c.dom = d :=
      let ⟨c, hc, hd⟩ := ih h
      ⟨c, List.mem_cons_of_mem _ hc, hd⟩
    rw [findBlock] at h
    split at h
    · split at h
      · cases h
        exact ⟨b, List.mem_cons_self, rfl⟩
      · exact later h
    · exact later h

/-- The hub's blocks are of the hub's domains. -/
theorem hubBlocks_not_die : ∀ b ∈ hubBlocks0 ++ hubBlocks1, ∀ d, b.dom ≠ .px d := by decide

/-- A die's registers lie in the windows of the dies. -/
theorem dieWindow_le_of_domAt {o : Nat} {d : Fin 7} (h : domAt o = some (.px d)) : dieWindow ≤ o := by
  by_contra hlow
  obtain ⟨⟨e, r⟩, hreg, he⟩ := Option.map_eq_some_iff.1 h
  dsimp only at he
  rw [regAt, if_pos (by omega)] at hreg
  have hhub : ∃ b ∈ hubBlocks0 ++ hubBlocks1, b.dom = e := by
    split at hreg
    · obtain ⟨b, hb, hd⟩ := findBlock_dom _ _ _ _ hreg
      exact ⟨b, List.mem_append_left _ hb, hd⟩
    · obtain ⟨b, hb, hd⟩ := findBlock_dom _ _ _ _ hreg
      exact ⟨b, List.mem_append_right _ hb, hd⟩
  obtain ⟨b, hb, hd⟩ := hhub
  exact hubBlocks_not_die b hb d (hd.trans he)

/-- The committed pairs of die n's registers. -/
def Chip.diePairs (c : Chip) (n : Nat) : List (Nat × Word) :=
  ((c.store.committed.filter fun t => decide (145 ≤ t.pos)).flatMap fun t => tilePairs t.payload).filter fun x => match domAt x.1 with | some (.px d) => d.val == n - 1 | _ => false

theorem diePairs_window (c : Chip) (n : Nat) (x : Nat × Word) (h : x ∈ c.diePairs n) : dieWindow ≤ x.1 := by
  have hdom := (List.mem_filter.1 h).2
  split at hdom
  · next d hd => exact dieWindow_le_of_domAt hd
  · cases hdom

/-- The die's link has trained. -/
def Chip.linkTrained (c : Chip) (n : Nat) : Chip := { c with dies := c.dies.upd n fun h => { h with training := false, keepAlive := c.now } }

/-- The hub writes the die's committed pairs, its health map and its converter's sequence. -/
def Chip.dieLoad (c : Chip) (m : List Host.Cell) (n : Nat) : Chip :=
  (((c.diePairs n).foldl (fun u x => u.pairApply x.1 x.2) (c.linkTrained n)).mapLoad m n).sqPowerUp (n + 1) ((cfgAt c.store.committed (137 + n)).map (·.payload))

/-- What follows the link that shows UP. -/
def Chip.dieReady (c : Chip) (n : Nat) : Chip :=
  let t := c.askDone (.die n)
  let t := t.forEach (List.range 32) fun k u => u.phStatus k
  let t := t.forEach (diePhases n) fun p u => (u.segUseRefresh p).genShow p
  let t := (t.forEach allRails fun r u => (u.railAsk r).wmWires r).sensTell n
  ((t.enumDie n).dieSeqDone n).coldStep9

theorem dieLinkUp_eq (c : Chip) (m : List Host.Cell) (n : Nat) (hon : c.dieOn n = true) (htrain : (c.dies.get n).training = true) :
    c.dieLinkUp m n = ((c.dieLoad m n).put (LINK.LINKSTAT_UP n) 1).dieReady n := by
  have hif : (c.dieOn n && (c.dies.get n).training) = true := by rw [hon, htrain]; rfl
  rw [Chip.dieLinkUp, if_pos hif]
  rfl

theorem dieLoad_calm (c : Chip) (m : List Host.Cell) (n : Nat) : (c.linkTrained n).Calm (c.dieLoad m n) := by
  unfold Chip.dieLoad
  refine .sqPowerUp (.mapLoad (.foldl (.refl _) fun x hx u => ?_) m n) _ _
  exact .pairApply_die (.refl u) _ _ (diePairs_window c n x hx)

theorem dieReady_calm (c : Chip) (n : Nat) : c.Calm (c.dieReady n) := by
  unfold Chip.dieReady
  refine .coldStep9 (.dieSeqDone (.enumDie (.sensTell (.forEach (.forEach (.forEach (.askDone (.refl c) _) ?_) ?_) ?_) n) n) n)
  · exact fun k _ u => .phStatus (.refl u) k
  · exact fun p _ u => .genShow (.segUseRefresh (.refl u) p) p
  · exact fun r _ u => .wmWires (.railAsk (.refl u) r) r

theorem dieLinkUp_spec (c : Chip) (m : List Host.Cell) (n : Nat) (hn : n < 8) (hon : c.dieOn n = true) (htrain : (c.dies.get n).training = true) :
    (c.dieLinkUp m n).get (LINK.LINKSTAT_UP n) = 1 ∧ ((c.dieLinkUp m n).dies.get n).training = false ∧ ((c.dieLinkUp m n).dies.get n).keepAlive = c.now ∧
      (c.dieLinkUp m n).power = c.power ∧ (c.dieLinkUp m n).time = c.time := by
  have hload := dieLoad_calm c m n
  have hready := dieReady_calm ((c.dieLoad m n).put (LINK.LINKSTAT_UP n) 1) n
  have hlow : LINK.LINKSTAT n < 0x40 := by simp only [LINK.LINKSTAT]; omega
  rw [dieLinkUp_eq c m n hon htrain]
  have htrained : (c.linkTrained n).dies.get n = { c.dies.get n with training := false, keepAlive := c.now } := by simp [Chip.linkTrained]
  refine ⟨?_, ?_, ?_, hready.power.trans hload.power, hready.time.trans hload.time⟩
  · rw [hready.get (LINK.LINKSTAT_UP n) hlow, get_put_same _ _ _ rfl]
    rfl
  · rw [(hready.links n).1, put_dies, (hload.links n).1, htrained]
  · rw [(hready.links n).2, put_dies, (hload.links n).2, htrained]

/-- A flit with a bad check is to be sent again. -/
def Chip.flitAgain (c : Chip) (n : Nat) : Chip := { c with dies := c.dies.upd n fun h => { h with resends := h.resends + 1 } }.event (LINK.LINKSTAT_ERRF n) (LINK.LINKSTAT_SFRETRY n) (0x18 + n)

theorem recorded_flitAgain (c : Chip) (n : Nat) : Recorded c (c.flitAgain n) (LINK.LINKSTAT_ERRF n) (LINK.LINKSTAT_SFRETRY n) := by
  have hab : (LINK.LINKSTAT_ERRF n).apart (LINK.LINKSTAT_SFRETRY n) = true := by simp [Fld.apart, LINK.LINKSTAT_ERRF, LINK.LINKSTAT_SFRETRY]
  have hba : (LINK.LINKSTAT_SFRETRY n).apart (LINK.LINKSTAT_ERRF n) = true := by simp [Fld.apart, LINK.LINKSTAT_ERRF, LINK.LINKSTAT_SFRETRY]
  obtain ⟨hflag, hcount⟩ := recorded_event { c with dies := c.dies.upd n fun h => { h with resends := h.resends + 1 } } _ _ (0x18 + n) rfl rfl hab hba rfl
  exact ⟨hflag, hcount.trans (congrArg (fun k => min (k + 1) (2 ^ (LINK.LINKSTAT_SFRETRY n).width - 1)) (get_congr rfl _))⟩

theorem effect_flitAgain (s : State) (n : Nat) : Effect s { s with chip := s.chip.flitAgain n } (fun c => { c with dies := c.dies.upd n fun h => { h with resends := h.resends + 1 } })
    [LINK.LINKSTAT_ERRF n, LINK.LINKSTAT_SFRETRY n] [0x18 + n] [] [] :=
  ((Effect.start s).innerStep (fun c => { c with dies := c.dies.upd n fun h => { h with resends := h.resends + 1 } }) rfl rfl rfl rfl rfl rfl).event _ _ _

/-- Settles O8: each report is one event of its die, and a power-up's end runs through operations that leave supplies, clock, links and the registers below 0x40. -/
theorem dieLinksReportAndFail : Obligations.DieLinksReportAndFail := by
  unfold Obligations.DieLinksReportAndFail
  refine ⟨fun s d hon => ?_, fun s d hon => ?_, fun s d hon htrain => ?_, fun s d hon => ?_, fun s d hon hfew => ?_, fun s d hon hthree => ?_,
    fun s d k off write hup halign hthree hacc => ?_, fun s d hon hruns => ?_, fun s d hon htrain => ?_⟩
  · have hrun : Machine.exec (.keepAliveSend d) s = .next { s with chip := s.chip.keepAliveSend (d.val + 1) } := rfl
    rw [hrun, Chip.keepAliveSend, if_pos hon]
    exact ⟨_, rfl, ((Effect.start s).innerStep (fun c => { c with dies := c.dies.upd (d.val + 1) fun h => { h with keepAlive := c.now } }) rfl rfl rfl rfl rfl rfl).out _⟩
  · have hrun : Machine.exec (.linkLoss d) s = .next { s with chip := s.chip.linkLoss (d.val + 1) } := rfl
    rw [hrun, Chip.linkLoss, if_pos hon]
    exact ⟨_, rfl, get_put_same s.chip (LINK.LINKSTAT_WDOG (d.val + 1)) 1 rfl, ((Effect.start s).put (LINK.LINKSTAT_WDOG (d.val + 1)) 1).raise _⟩
  · have hrun : Machine.exec (.linkTrainingFail d) s = .next { s with chip := s.chip.trainingFail (d.val + 1) } := rfl
    rw [hrun, trainingFail_eq s.chip _ hon htrain]
    exact ⟨_, rfl, trainingOver_training s.chip (d.val + 1), effect_trainingFail s (d.val + 1)⟩
  · have hrun : Machine.exec (.serviceFlitReceive d true) s = .next { s with chip := s.chip.flitReceive (d.val + 1) true } := rfl
    have hgood : s.chip.flitReceive (d.val + 1) true = { s.chip with dies := s.chip.dies.upd (d.val + 1) fun h => { h with resends := 0 } } := by simp [Chip.flitReceive, hon]
    rw [hrun, hgood]
    exact ⟨_, rfl, (Effect.start s).innerStep (fun c => { c with dies := c.dies.upd (d.val + 1) fun h => { h with resends := 0 } }) rfl rfl rfl rfl rfl rfl⟩
  · have hrun : Machine.exec (.serviceFlitReceive d false) s = .next { s with chip := s.chip.flitReceive (d.val + 1) false } := rfl
    have hbad : s.chip.flitReceive (d.val + 1) false = s.chip.flitAgain (d.val + 1) := by simp [Chip.flitReceive, Chip.flitAgain, hon, hfew]
    rw [hrun, hbad]
    exact ⟨_, rfl, recorded_flitAgain s.chip (d.val + 1), effect_flitAgain s (d.val + 1)⟩
  · have hrun : Machine.exec (.serviceFlitReceive d false) s = .next { s with chip := s.chip.flitReceive (d.val + 1) false } := rfl
    have hnone : s.chip.flitReceive (d.val + 1) false = s.chip := by simp [Chip.flitReceive, hon, hthree]
    rw [hrun, hnone]
    exact ⟨s, rfl, Effect.start s⟩
  · have hrun : Machine.exec (.serviceFlitFail d (.pp k) off write) s
        = .next { s with chip := s.chip.flitFail (.pp k) (dieWindow + 0x20000 * d.val + off.toNat) write } := rfl
    have hplace : dieWindow + 0x20000 * d.val + off.toNat < 2 ^ 21 := by
      have hoff : off.toNat < 2 ^ 17 := off.isLt
      have hd := d.isLt
      have hwin : dieWindow = 0x100000 := rfl
      omega
    obtain ⟨hrec, hlast⟩ := accessFailed_fields s.chip (d.val + 1) _ hplace
    have heffect := effect_accessFailed s (d.val + 1) (dieWindow + 0x20000 * d.val + off.toNat) ⟨0x4011, d.val + 1, 0⟩
    rw [hrun, flitFail_of_three s.chip d k off write hup halign hthree hacc, accFail_of_three s.chip d off hthree]
    cases write with
    | true => exact ⟨_, rfl, hrec, hlast, heffect⟩
    | false => exact ⟨_, rfl, hrec, hlast, heffect.out _⟩
  · have hrun : Machine.exec (.dieKeepAliveTimeout d) s = .next { s with chip := s.chip.dieTimeout (d.val + 1) } := rfl
    obtain ⟨hwdog, hsilent, hlevels, hfaults, houts, hregs⟩ := dieTimeout_spec s.chip d hon hruns
    exact ⟨_, hrun, hwdog, hsilent, hlevels, hfaults, houts, rfl, rfl, hregs.same⟩
  · have hrun : Machine.exec (.dieLinkUp d) s = .next { s with chip := s.chip.dieLinkUp s.nvm (d.val + 1) } := rfl
    obtain ⟨hup, htrained, halive, hpower, htime⟩ := dieLinkUp_spec s.chip s.nvm (d.val + 1) (by omega) hon htrain
    exact ⟨_, hrun, hup, htrained, halive, hpower, htime, rfl, rfl⟩

end Sys2Proof.Machine

namespace Sys2Proof.Machine

/-- Loop 0 is in RUN with a halt on its way, and a swap waits that names set 0x1002: its check word's place, past the four sets, is that of the loop's phase status. -/
def straySwap : State :=
  { chip := { ((State.reset.chip.put PWR.DOMSTAT_CORE 1).put (LOOP.STATUS_STATE 0) 2) with
      loopCmds := [(0, .halt)]
      loops := Tbl.empty.set 0 { swaps := [.contents 0x1002 {} 1] } } }

/-- The stop applies the waiting swap after the loop's procedures have ended, so that STATUS of the phase manager takes the check word. -/
theorem straySwap_proc : (straySwap.chip.loopHooks (straySwap.chip.stopArrive 0) 0).get (PHSL.STATUS_PROC 0) = 1 := by decide +kernel

theorem loopStop_result {s t : State} {n : LoopId} (hcore : s.chip.coreRuns = true) (ht : Machine.exec (.loopStop n) s = .next t) :
    t.chip = s.chip.loopHooks (s.chip.stopArrive n.val) n.val := by
  have hrun : Machine.exec (.loopStop n) s = .next { s with chip := if s.chip.coreRuns then s.chip.loopHooks (s.chip.stopArrive n.val) n.val else s.chip } := rfl
  rw [hrun, if_pos hcore] at ht
  rw [← Host.Outcome.next.inj ht]

/-- Refutes O16: its second clause ends the loop's procedures in every state, but a stop applies the waiting swaps last, and one that names a set beyond the four writes its check word over the loop's phase status. -/
theorem not_loopsStartAndStop : ¬ Obligations.LoopsStartAndStop := by
  unfold Obligations.LoopsStartAndStop
  rintro ⟨-, stops, -⟩
  have hcore : straySwap.chip.coreRuns = true := by decide +kernel
  have hstate : straySwap.chip.loopState 0 ≠ 0 := by decide +kernel
  obtain ⟨t, ht, -, -, -, -, -, hproc, -⟩ := stops straySwap 0 .halt [] hcore hstate rfl (by decide) (by decide)
  rw [loopStop_result hcore ht] at hproc
  exact absurd (hproc.symm.trans straySwap_proc) (by decide)

end Sys2Proof.Machine

namespace Sys2Proof.Machine

/-! The idle step: a tick of the time counter, then the ring engine, which leaves the counter alone (R43, R433; log entry 201). -/

theorem Chip.Calm.telWrite {s t : Chip} (h : s.Calm t) (e : HeldEntry) : s.Calm (t.telWrite e) := by
  unfold Chip.telWrite
  exact .withRings (.either (.ringPut (h.withRings _) _ _ _) (.ringDrop (h.withRings _) _)) _

theorem Chip.Calm.telDiscard {s t : Chip} (h : s.Calm t) : s.Calm t.telDiscard :=
  .foldl (h.withHif _) fun e _ u => .ringDrop (.withRings (.refl u) _) e.ring

theorem Chip.Calm.telDrain {s t : Chip} (h : s.Calm t) : s.Calm t.telDrain := by
  unfold Chip.telDrain
  exact .either h.telDiscard (.foldl (h.withHif _) fun e _ u => .telWrite (.refl u) e)

@[simp] theorem telDrain_time (c : Chip) : c.telDrain.time = c.time := (Chip.Calm.telDrain (.refl c)).time

/-- With no record waiting the ring engine does nothing. -/
theorem telDrain_of_empty (c : Chip) (h : c.hif.telQ = []) : c.telDrain = c := by
  have hsame : { c with hif := { c.hif with telQ := [] } } = c := by rw [← h]
  simp [Chip.telDrain, Chip.telDiscard, h, hsame]

/-- A tick moves the time counter alone. -/
theorem tick_eq (c : Chip) : c.tick = { c with time := c.tick.time } := by
  unfold Chip.tick
  split <;> rfl

theorem tick_time (c : Chip) : c.tick.time = { c.time with now := c.tick.time.now, frac := c.tick.time.frac, prev := c.time.now } := by
  unfold Chip.tick
  split <;> rfl

theorem tick_of_tb0 (c : Chip) (h : c.time.source = .tb0) :
    c.tick.time.now = (c.time.now + 30 + (c.time.frac + 33920) / 65536) % 2 ^ 64 ∧ c.tick.time.frac = (c.time.frac + 33920) % 65536 := by
  simp [Chip.tick, h]

theorem tick_of_not_tb0 (c : Chip) (h : c.time.source ≠ .tb0) : c.tick.time.now = (c.time.now + 1) % 2 ^ 64 ∧ c.tick.time.frac = c.time.frac := by
  cases hs : c.time.source with
  | tb0 => exact absurd hs h
  | tb1 => simp [Chip.tick, hs]
  | osc => simp [Chip.tick, hs]

theorem step_of_no_command (s : State) (hq : s.pending = []) : step s = .next s.idle := by rw [step, hq]

theorem idle_of_powered (s : State) (haon : s.chip.power.aon = true) : s.idle = { s with chip := s.chip.tick.telDrain } := if_pos haon

/-- Settles O2: the ring engine leaves the counter as the tick left it, and TB0's tick is one addition in units of 2^-16 µs. -/
theorem idleStepCountsTime : Obligations.IdleStepCountsTime := by
  unfold Obligations.IdleStepCountsTime
  intro s hq haon hfrac hnow
  refine ⟨_, (step_of_no_command s hq).trans (congrArg _ (idle_of_powered s haon)), ?_, fun hnone => ?_, fun htb0 => ?_, fun hother => ?_⟩
  · rw [telDrain_time, ← tick_time, ← tick_eq]
  · have hempty : s.chip.tick.hif.telQ = [] := by rw [tick_eq]; exact hnone
    rw [telDrain_of_empty _ hempty]
    exact tick_eq s.chip
  · obtain ⟨hcount, hrest⟩ := tick_of_tb0 s.chip htb0
    rw [telDrain_time, hcount, hrest]
    omega
  · rw [telDrain_time]
    exact tick_of_not_tb0 s.chip hother

end Sys2Proof.Machine

namespace Sys2Proof.Machine

/-! The time bases: what the watch of each records, and the snapshot of the counter (R41 to R44, R510). -/

theorem bit_eq_decide_one (c : Chip) (f : Fld) (h : f.width = 1) : c.bit f = decide (c.get f = 1) := by
  have hlt : c.get f < 2 := lt_of_lt_of_eq (Nat.mod_lt _ (Nat.two_pow_pos _)) (by rw [h]; rfl)
  rcases (by omega : c.get f = 0 ∨ c.get f = 1) with hf | hf <;> simp [Chip.bit, hf]

theorem Recorded.congr {s s' t t' : Chip} {flag cnt : Fld} (h : Recorded s t flag cnt) (hs : s'.get cnt = s.get cnt) (hflag : t'.get flag = t.get flag)
    (hcnt : t'.get cnt = t.get cnt) : Recorded s' t' flag cnt := by
  obtain ⟨hset, hcount⟩ := h
  exact ⟨hflag.trans hset, by rw [hcnt, hcount, counted, counted, hs]⟩

/-- A time base is lost: it reads not OK, and its flag and counter record it (R42, R44). -/
def Chip.tbLost (c : Chip) (ok flag cnt : Fld) : Chip := (c.put ok 0).event flag cnt 0xb

@[simp] theorem tbLost_time (c : Chip) (ok flag cnt : Fld) : (c.tbLost ok flag cnt).time = c.time := rfl

@[simp] theorem tbLocks_time (c : Chip) (on : Bool) : (c.tbLocks on).time = c.time := rfl

theorem tbLost_recorded (c : Chip) (ok flag cnt : Fld) (hflag : flag.fits = true) (hcnt : cnt.fits = true) (hfc : flag.apart cnt = true) (hcf : cnt.apart flag = true)
    (hco : cnt.apart ok = true) (hw : flag.width = 1) : Recorded c (c.tbLost ok flag cnt) flag cnt :=
  (recorded_event (c.put ok 0) flag cnt 0xb hflag hcnt hfc hcf hw).congr (get_put_apart _ _ _ _ hcnt hco).symm rfl rfl

theorem get_tbLost (c : Chip) (ok flag cnt g : Fld) (hg : g.fits = true) (hf : g.apart flag = true) (hc : g.apart cnt = true) :
    (c.tbLost ok flag cnt).get g = (c.put ok 0).get g := by
  rw [Chip.tbLost, Chip.event, get_bell, Chip.inc, Chip.add, get_put_apart _ _ _ _ hg hc, Chip.flag, get_put_apart _ _ _ _ hg hf]

theorem tbLost_ok (c : Chip) (ok flag cnt : Fld) (hok : ok.fits = true) (hf : ok.apart flag = true) (hc : ok.apart cnt = true) :
    (c.tbLost ok flag cnt).get ok = 0 := by
  rw [get_tbLost _ _ _ _ _ hok hf hc, get_put_same _ _ _ hok, Nat.zero_mod]

theorem get_tbLocks (c : Chip) (on : Bool) (g : Fld) (hg : g.fits = true)
    (ha : ∀ f ∈ [TIME.TBSTAT_TB2LK, TIME.TBSTAT_TB3LK, TIME.TBSTAT_TB7LK, TIME.TBSTAT_HOLDOVER], g.apart f = true) : (c.tbLocks on).get g = c.get g := by
  simp only [List.mem_cons, List.not_mem_nil, or_false, forall_eq_or_imp, forall_eq] at ha
  obtain ⟨h2, h3, h7, hh⟩ := ha
  simp only [Chip.tbLocks, Chip.putB]
  rw [get_put_apart _ _ _ _ hg hh, get_put_apart _ _ _ _ hg h7, get_put_apart _ _ _ _ hg h3, get_put_apart _ _ _ _ hg h2]

/-- The locks read as they are, and HOLDOVER the other way. -/
theorem tbLocks_fields (c : Chip) (on : Bool) : (c.tbLocks on).get TIME.TBSTAT_HOLDOVER = (!on).toNat ∧ (c.tbLocks on).get TIME.TBSTAT_TB2LK = on.toNat ∧
    (c.tbLocks on).get TIME.TBSTAT_TB3LK = on.toNat ∧ (c.tbLocks on).get TIME.TBSTAT_TB7LK = on.toNat := by
  have hbit : ∀ b : Bool, b.toNat % 2 ^ 1 = b.toNat := by decide
  simp only [Chip.tbLocks, Chip.putB]
  refine ⟨?_, ?_, ?_, ?_⟩
  · rw [get_put_same _ _ _ rfl]
    exact hbit _
  · rw [get_put_apart _ _ _ _ rfl rfl, get_put_apart _ _ _ _ rfl rfl, get_put_apart _ _ _ _ rfl rfl, get_put_same _ _ _ rfl]
    exact hbit _
  · rw [get_put_apart _ _ _ _ rfl rfl, get_put_apart _ _ _ _ rfl rfl, get_put_same _ _ _ rfl]
    exact hbit _
  · rw [get_put_apart _ _ _ _ rfl rfl, get_put_same _ _ _ rfl]
    exact hbit _

theorem Effect.tbLocks {s t : State} {h : Chip → Chip} {fields : List Fld} {srcs : List Nat} {msgs : List FaultMsg} {outs : List Output}
    (e : Effect s t h fields srcs msgs outs) (on : Bool) : Effect s { t with chip := t.chip.tbLocks on } h
      (fields ++ [TIME.TBSTAT_TB2LK] ++ [TIME.TBSTAT_TB3LK] ++ [TIME.TBSTAT_TB7LK] ++ [TIME.TBSTAT_HOLDOVER]) srcs msgs outs :=
  (((e.put _ _).put _ _).put _ _).put _ _

/-- The time counter and its timers take a state. -/
def Chip.withTime (c : Chip) (x : TimeHw) : Chip := { c with time := x }

@[simp] theorem get_withTime (c : Chip) (x : TimeHw) (f : Fld) : (c.withTime x).get f = c.get f := rfl

theorem withTime_self (c : Chip) : c.withTime c.time = c := rfl

theorem timeSource_eq (c : Chip) (x : TimeSource) : c.timeSource x = c.withTime { c.time with source := x } := rfl

theorem Effect.withTime {s t : State} {fields : List Fld} {srcs : List Nat} {msgs : List FaultMsg} {outs : List Output}
    (e : Effect s t id fields srcs msgs outs) (x : TimeHw) (h : Chip → Chip) (hx : h s.chip = s.chip.withTime x) :
    Effect s { t with chip := t.chip.withTime x } h fields srcs msgs outs where
  nvm := e.nvm
  pending := e.pending
  inner := by rw [hx]; exact congrArg (fun c => c.withTime x) e.inner
  fields := e.fields
  bells := e.bells
  order := e.order
  faults := e.faults
  outputs := e.outputs

theorem onAon_of_powered (s : State) (f : Chip → Chip) (h : s.chip.domOn .aon = true) : s.onAon f = .next { s with chip := f s.chip } := by
  rw [State.onAon, State.on, if_pos h]

/-! The speed monitor (R41). -/

theorem exec_speedMeasure (s : State) (idx : BitVec 8) (h : s.chip.coreRuns = true) :
    Machine.exec (.speedMeasure idx) s = .next { s with chip := s.chip.speedMeasure idx.toNat } := by
  have hrun : Machine.exec (.speedMeasure idx) s = .next { s with chip := if s.chip.coreRuns then s.chip.speedMeasure idx.toNat else s.chip } := rfl
  rw [hrun, if_pos h]

theorem speedMeasure_between (c : Chip) (i : Nat) (hlow : c.get TIME.SPEED_LOWLIM ≤ i) (hhigh : i ≤ c.get TIME.SPEED_LOWLIM + 8) :
    c.speedMeasure i = c.put TIME.SPEED_SPDIDX i := by
  have hslow : (decide (i < c.get TIME.SPEED_LOWLIM)) = false := by simpa using hlow
  simp [Chip.speedMeasure, hslow, not_lt.2 hhigh]

theorem speedMeasure_recovered (c : Chip) (i : Nat) (h : c.get TIME.SPEED_LOWLIM + 8 < i) :
    c.speedMeasure i = (c.put TIME.SPEED_SPDIDX i).withTime { c.time with slowArmed := true } := by
  simp only [Chip.speedMeasure, if_pos h]
  rfl

theorem speedMeasure_slow (c : Chip) (i : Nat) (h : i < c.get TIME.SPEED_LOWLIM) (harmed : c.time.slowArmed = true) :
    c.speedMeasure i = ((c.put TIME.SPEED_SPDIDX i).withTime { c.time with slowArmed := false }).raise ⟨0x2001, 0, 0⟩ := by
  have hno : ¬ c.get TIME.SPEED_LOWLIM + 8 < i := by omega
  simp only [Chip.speedMeasure, if_neg hno, h, put_time, harmed, decide_true]
  rfl

theorem speedMeasure_slow_again (c : Chip) (i : Nat) (h : i < c.get TIME.SPEED_LOWLIM) (harmed : c.time.slowArmed = false) :
    c.speedMeasure i = (c.put TIME.SPEED_SPDIDX i).withTime { c.time with slowArmed := false } := by
  have hno : ¬ c.get TIME.SPEED_LOWLIM + 8 < i := by omega
  have hsame : { c.time with slowArmed := false } = c.time := by rw [← harmed]
  rw [hsame]
  simp only [Chip.speedMeasure, if_neg hno, put_time, harmed, Bool.and_false]
  rfl

/-- An index is one byte, as its field is. -/
theorem get_put_speed (c : Chip) (idx : BitVec 8) : (c.put TIME.SPEED_SPDIDX idx.toNat).get TIME.SPEED_SPDIDX = idx.toNat := by
  rw [get_put_same _ _ _ rfl]
  exact Nat.mod_eq_of_lt idx.isLt

/-! Loss, return and relock (R42 to R44). -/

/-- The state after TB0's loss, beside the counter. -/
def Chip.tb0Gone (c : Chip) : Chip := (c.tbLost TIME.TBSTAT_TB0OK TIME.TBSTAT_TB0LF TIME.TBSTAT_TB0LCNT).raise ⟨0x2002, 0, 0⟩

theorem tb0Gone_time (c : Chip) : c.tb0Gone.time = c.time := by simp [Chip.tb0Gone]

/-- Where the counter runs from when TB0 is lost (R43). -/
theorem tb0Loss_eq (c : Chip) (hok : c.get TIME.TBSTAT_TB0OK = 1) :
    c.tb0Loss = c.tb0Gone.withTime { c.time with source := if c.get TIME.TBSTAT_TB1OK = 1 then c.time.source else .osc } := by
  have htb1 : c.tb0Gone.bit TIME.TBSTAT_TB1OK = decide (c.get TIME.TBSTAT_TB1OK = 1) := by
    rw [bit_eq_decide_one _ _ rfl, Chip.tb0Gone, get_raise, get_tbLost _ _ _ _ _ rfl rfl rfl, get_put_apart _ _ _ _ rfl rfl]
  have hbit : c.bit TIME.TBSTAT_TB0OK = true := by simp [Chip.bit, hok]
  have hloss : c.tb0Loss = if c.tb0Gone.bit TIME.TBSTAT_TB1OK then c.tb0Gone else c.tb0Gone.timeSource .osc := by
    rw [Chip.tb0Loss, hbit]
    rfl
  rw [hloss, htb1, ← tb0Gone_time]
  by_cases hother : c.get TIME.TBSTAT_TB1OK = 1
  · rw [if_pos (decide_eq_true hother), if_pos hother, withTime_self]
  · rw [if_neg (by simpa using hother), if_neg hother, timeSource_eq]

/-- The counter changes over, and no relock is timed. -/
theorem timeSource_noRelock (c : Chip) (x : TimeSource) :
    (c.timeSource x).withTime { (c.timeSource x).time with tb1Back := none } = c.withTime { c.time with source := x, tb1Back := none } := rfl

/-- The state after TB1's loss, beside the counter. -/
def Chip.tb1Gone (c : Chip) : Chip := ((c.tbLost TIME.TBSTAT_TB1OK TIME.TBSTAT_TB1LF TIME.TBSTAT_TB1LCNT).tbLocks false).raise ⟨0x4003, 0, 0⟩

theorem tb1Gone_time (c : Chip) : c.tb1Gone.time = c.time := by simp [Chip.tb1Gone]

/-- The locks that go with TB1 lie apart from its own flags. -/
theorem get_tb1Gone (c : Chip) (g : Fld) (hg : g.fits = true)
    (ha : ∀ f ∈ [TIME.TBSTAT_TB2LK, TIME.TBSTAT_TB3LK, TIME.TBSTAT_TB7LK, TIME.TBSTAT_HOLDOVER], g.apart f = true) :
    c.tb1Gone.get g = (c.tbLost TIME.TBSTAT_TB1OK TIME.TBSTAT_TB1LF TIME.TBSTAT_TB1LCNT).get g := by
  rw [Chip.tb1Gone, get_raise, get_tbLocks _ _ _ hg ha]

theorem tb1Gone_records (c : Chip) : c.tb1Gone.get TIME.TBSTAT_TB1OK = 0 ∧ Recorded c c.tb1Gone TIME.TBSTAT_TB1LF TIME.TBSTAT_TB1LCNT :=
  ⟨(get_tb1Gone c _ rfl (by decide)).trans (tbLost_ok _ _ _ _ rfl rfl rfl),
    (tbLost_recorded c _ _ _ rfl rfl rfl rfl rfl rfl).congr rfl (get_tb1Gone c _ rfl (by decide)) (get_tb1Gone c _ rfl (by decide))⟩

/-- Where the counter runs from when TB1 is lost (R43, R44). -/
theorem tb1Loss_eq (c : Chip) (hok : c.get TIME.TBSTAT_TB1OK = 1) :
    c.tb1Loss = c.tb1Gone.withTime { c.time with source := if c.get TIME.TBSTAT_TB0OK = 1 then .tb0 else .osc, tb1Back := none } := by
  have htb0 : c.tb1Gone.bit TIME.TBSTAT_TB0OK = decide (c.get TIME.TBSTAT_TB0OK = 1) := by
    rw [bit_eq_decide_one _ _ rfl, get_tb1Gone _ _ rfl (by decide), get_tbLost _ _ _ _ _ rfl rfl rfl, get_put_apart _ _ _ _ rfl rfl]
  have hbit : c.bit TIME.TBSTAT_TB1OK = true := by simp [Chip.bit, hok]
  have hloss : c.tb1Loss = (c.tb1Gone.timeSource (if c.tb1Gone.bit TIME.TBSTAT_TB0OK then .tb0 else .osc)).withTime
      { (c.tb1Gone.timeSource (if c.tb1Gone.bit TIME.TBSTAT_TB0OK then .tb0 else .osc)).time with tb1Back := none } := by
    rw [Chip.tb1Loss, hbit]
    rfl
  rw [hloss, timeSource_noRelock, tb1Gone_time, htb0]
  simp only [decide_eq_true_eq]

theorem tbReturn_tb1 (c : Chip) (hlost : c.get TIME.TBSTAT_TB1OK = 0) :
    c.tbReturn true = (c.put TIME.TBSTAT_TB1OK 1).withTime { c.time with source := .tb1, tb1Back := some c.now, frac := 0 } := by
  have hbit : c.bit TIME.TBSTAT_TB1OK = false := by simp [Chip.bit, hlost]
  rw [Chip.tbReturn, hbit]
  rfl

theorem tbReturn_tb0 (c : Chip) (hlost : c.get TIME.TBSTAT_TB0OK = 0) :
    c.tbReturn false = (c.put TIME.TBSTAT_TB0OK 1).withTime { c.time with source := if c.time.source = .osc then .tb0 else c.time.source } := by
  have hbit : c.bit TIME.TBSTAT_TB0OK = false := by simp [Chip.bit, hlost]
  rw [Chip.tbReturn, hbit]
  by_cases hosc : c.time.source = .osc
  · simp [hosc, Chip.timeSource, Chip.withTime]
  · simp only [put_time, hosc, if_false, Bool.false_eq_true]
    rfl

theorem tb1Relock_eq (c : Chip) (a : Nat) (hback : c.time.tb1Back = some a) (hok : c.get TIME.TBSTAT_TB1OK = 1) (hdue : a + 1000 ≤ c.now) :
    c.tb1Relock = (c.tbLocks true).withTime { c.time with tb1Back := none } := by
  simp only [Chip.tb1Relock, hback, Chip.bit, hok, hdue, decide_true]
  rfl

/-- The lock flag of TB2 (0), TB3 (1) or TB7 (2) (R42). -/
def lockFld (tb : Nat) : Fld := if tb = 0 then TIME.TBSTAT_TB2LK else if tb = 1 then TIME.TBSTAT_TB3LK else TIME.TBSTAT_TB7LK

theorem eq_lockFld : ∀ (tb : Fin 3) (f : Fld), f = [TIME.TBSTAT_TB2LK, TIME.TBSTAT_TB3LK, TIME.TBSTAT_TB7LK].getD tb.val f → f = lockFld tb.val
  | 0, _, h => h
  | 1, _, h => h
  | 2, _, h => h

theorem lockFld_flag : ∀ tb : Fin 3, (lockFld tb.val).fits = true ∧ (lockFld tb.val).apart TIME.TBSTAT_HOLDOVER = true ∧ TIME.TBSTAT_TB1OK.apart (lockFld tb.val) = true := by
  decide

theorem lockLoss_eq (c : Chip) (tb : Fin 3) (hlocked : c.get (lockFld tb.val) = 1) :
    c.lockLoss tb.val = ((c.put (lockFld tb.val) 0).put TIME.TBSTAT_HOLDOVER 1).withTime
      { c.time with tb1Back := if c.get TIME.TBSTAT_TB1OK = 1 then some c.now else none } := by
  obtain ⟨-, -, hok⟩ := lockFld_flag tb
  have hone : ((c.put (lockFld tb.val) 0).put TIME.TBSTAT_HOLDOVER 1).bit TIME.TBSTAT_TB1OK = decide (c.get TIME.TBSTAT_TB1OK = 1) := by
    rw [bit_eq_decide_one _ _ rfl, get_put_apart _ _ _ _ rfl rfl, get_put_apart _ _ _ _ rfl hok]
  have hbit : c.bit (lockFld tb.val) = true := by simp [Chip.bit, hlocked]
  rw [lockFld] at hone hbit
  simp only [Chip.lockLoss, hbit, Bool.not_true, Bool.false_eq_true, if_false, hone, decide_eq_true_eq]
  rfl

/-! The snapshot of a counter (R510). -/

theorem get_foldl_set_other {α β : Type} [DecidableEq α] {d : Nat → α} (key : β → Nat) (val : β → α) (l : List β) (t : Tbl α d) (k : Nat) (h : ∀ x ∈ l, k ≠ key x) :
    (l.foldl (fun t x => t.set (key x) (val x)) t).get k = t.get k := by
  induction l generalizing t with
  | nil => rfl
  | cons a l ih =>
    rw [List.foldl_cons, ih _ fun x hx => h x (List.mem_cons_of_mem _ hx), Tbl.get_set_other _ _ _ _ (h a List.mem_cons_self)]

theorem get_foldl_set_mem {α β : Type} [DecidableEq α] {d : Nat → α} (key : β → Nat) (val : β → α) (l : List β) (t : Tbl α d) (x : β) (hx : x ∈ l)
    (hkey : ∀ y ∈ l, key x = key y → x = y) : (l.foldl (fun t x => t.set (key x) (val x)) t).get (key x) = val x := by
  induction l generalizing t with
  | nil => cases hx
  | cons a l ih =>
    rw [List.foldl_cons]
    by_cases hin : x ∈ l
    · exact ih _ hin fun y hy => hkey y (List.mem_cons_of_mem _ hy)
    · have hxa : x = a := (List.mem_cons.1 hx).resolve_right hin
      rw [get_foldl_set_other _ _ _ _ _ fun y hy he => hin (hkey y (List.mem_cons_of_mem _ hy) he ▸ hy), hxa, Tbl.get_set_same]

/-- A requester's latches once a low word's read has latched the words of a list. -/
def Chip.latched (c : Chip) (req : Requester) (l : List Nat) : Tbl Word fun _ => 0 :=
  l.foldl (fun t h => t.set (64 * reqIdx req + snapWords.idxOf h) (c.shown h)) c.snap

theorem latched_other (c : Chip) (req : Requester) (l : List Nat) (k : Nat) (h : k / 64 ≠ reqIdx req) : (c.latched req l).get k = c.snap.get k := by
  refine get_foldl_set_other _ _ _ _ _ fun x _ hk => h ?_
  have hle : snapWords.idxOf x ≤ snapWords.length := List.idxOf_le_length
  have hlen : snapWords.length = 19 := rfl
  omega

theorem latched_mem (c : Chip) (req : Requester) (l : List Nat) (x : Nat) (hl : ∀ y ∈ l, y ∈ snapWords) (hx : x ∈ l) :
    (c.latched req l).get (64 * reqIdx req + snapWords.idxOf x) = c.shown x :=
  get_foldl_set_mem (fun h => 64 * reqIdx req + snapWords.idxOf h) c.shown l c.snap x hx fun _ _ he => (List.idxOf_inj (hl x hx)).1 (Nat.add_left_cancel he)

/-- A low word is a register of the map whose read latches its pair's words, and starts no other operation. -/
theorem snapPairs_low : ∀ p ∈ snapPairs, p.1 % 4 = 0 ∧ inMailbox p.1 = false ∧ (regAt p.1).isNone = false ∧ inPP p.1 = false ∧ p.1 ≠ NVM.RDDATA ∧
    snapPairs.find? (fun x => x.1 == p.1) = some p ∧ ∀ y ∈ p.2, y ∈ snapWords := by decide

theorem getD_mem_snapPairs : ∀ w : Fin 7, snapPairs.getD w.val (0, []) ∈ snapPairs := by decide

theorem busAnswer_low (c : Chip) (m : List Host.Cell) (req : Requester) (p : Nat × List Nat) (hp : p ∈ snapPairs) (hup : c.reqUp req = true) (hon : c.offAt p.1 = false) :
    c.busAnswer m req p.1 = { c with snap := c.latched req p.2 }.out (.data req p.1 (c.readable p.1) true) := by
  obtain ⟨halign, hbox, hknown, hpp, hrd, hfind, -⟩ := snapPairs_low p hp
  have hread : c.regRead m req p.1 = (c.readable p.1, { c with snap := c.latched req p.2 }) := by
    rw [Chip.regRead, hpp, Bool.false_and, if_neg Bool.false_ne_true, if_neg hrd, hfind]
    rfl
  have hbus : c.busRead m req p.1 = c.regRead m req p.1 := by simp [Chip.busRead, hup, halign, hbox, hknown, hon]
  rw [Chip.busAnswer, if_pos hup, hbus, hread]

/-- Settles O10: each event is a chain of named operations, in which the fields of TBSTAT lie apart, with one new state of the counter at its end. -/
theorem timeBasesAreWatched : Obligations.TimeBasesAreWatched := by
  unfold Obligations.TimeBasesAreWatched
  refine ⟨fun s idx hcore hlow hhigh => ?_, fun s idx hcore hhigh => ?_, fun s idx hcore hlow => ?_, fun s haon hok => ?_, fun s haon hok => ?_,
    fun s haon hlost => ?_, fun s haon hlost => ?_, fun s a haon hback hok hdue => ?_, fun s tb f haon hf hlocked => ?_, fun s req w hup hon => ?_⟩
  · rw [exec_speedMeasure s idx hcore, speedMeasure_between _ _ hlow hhigh]
    exact ⟨_, rfl, get_put_speed s.chip idx, (Effect.start s).put _ _⟩
  · rw [exec_speedMeasure s idx hcore, speedMeasure_recovered _ _ hhigh]
    exact ⟨_, rfl, get_put_speed s.chip idx, ((Effect.start s).put _ _).withTime _ _ rfl⟩
  · rw [exec_speedMeasure s idx hcore]
    cases harmed : s.chip.time.slowArmed with
    | true =>
      rw [speedMeasure_slow _ _ hlow harmed]
      exact ⟨_, rfl, get_put_speed s.chip idx, (((Effect.start s).put _ _).withTime _ _ rfl).raise _⟩
    | false =>
      rw [speedMeasure_slow_again _ _ hlow harmed]
      exact ⟨_, rfl, get_put_speed s.chip idx, ((Effect.start s).put _ _).withTime _ _ rfl⟩
  · have hrun : Machine.exec .tb0Loss s = .next { s with chip := s.chip.tb0Loss } := onAon_of_powered s Chip.tb0Loss haon
    rw [hrun, tb0Loss_eq _ hok]
    exact ⟨_, rfl, tbLost_ok s.chip _ _ _ rfl rfl rfl, tbLost_recorded s.chip _ _ _ rfl rfl rfl rfl rfl rfl,
      ((((Effect.start s).put _ _).event _ _ _).raise _).withTime _ _ rfl⟩
  · have hrun : Machine.exec .tb1Loss s = .next { s with chip := s.chip.tb1Loss } := onAon_of_powered s Chip.tb1Loss haon
    obtain ⟨hhold, htb2, htb3, htb7⟩ := tbLocks_fields (s.chip.tbLost TIME.TBSTAT_TB1OK TIME.TBSTAT_TB1LF TIME.TBSTAT_TB1LCNT) false
    obtain ⟨hlost, hrec⟩ := tb1Gone_records s.chip
    rw [hrun, tb1Loss_eq _ hok]
    exact ⟨_, rfl, hlost, hhold, htb2, htb3, htb7, hrec,
      ((((((Effect.start s).put _ _).event _ _ _).tbLocks false).raise _).withTime _ _ rfl).widen _ (by simp)⟩
  · have hrun : Machine.exec (.tbReturn true) s = .next { s with chip := s.chip.tbReturn true } := onAon_of_powered s (·.tbReturn true) haon
    rw [hrun, tbReturn_tb1 _ hlost]
    exact ⟨_, rfl, get_put_same s.chip TIME.TBSTAT_TB1OK 1 rfl, ((Effect.start s).put _ _).withTime _ _ rfl⟩
  · have hrun : Machine.exec (.tbReturn false) s = .next { s with chip := s.chip.tbReturn false } := onAon_of_powered s (·.tbReturn false) haon
    rw [hrun, tbReturn_tb0 _ hlost]
    exact ⟨_, rfl, get_put_same s.chip TIME.TBSTAT_TB0OK 1 rfl, ((Effect.start s).put _ _).withTime _ _ rfl⟩
  · have hrun : Machine.exec .tb1Relock s = .next { s with chip := s.chip.tb1Relock } := onAon_of_powered s Chip.tb1Relock haon
    obtain ⟨hhold, htb2, htb3, htb7⟩ := tbLocks_fields s.chip true
    rw [hrun, tb1Relock_eq _ a hback hok hdue]
    exact ⟨_, rfl, hhold, htb2, htb3, htb7, (((Effect.start s).tbLocks true).withTime _ _ rfl).widen _ (by simp)⟩
  · have hrun : Machine.exec (.tbLockLoss tb) s = .next { s with chip := s.chip.lockLoss tb.val } := onAon_of_powered s (·.lockLoss tb.val) haon
    have hfld := eq_lockFld tb f hf
    subst hfld
    obtain ⟨hfits, hapart, -⟩ := lockFld_flag tb
    have hzero : ((s.chip.put (lockFld tb.val) 0).put TIME.TBSTAT_HOLDOVER 1).get (lockFld tb.val) = 0 := by
      rw [get_put_apart _ _ _ _ hfits hapart, get_put_same _ _ _ hfits, Nat.zero_mod]
    rw [hrun, lockLoss_eq _ tb hlocked]
    exact ⟨_, rfl, hzero, get_put_same _ TIME.TBSTAT_HOLDOVER 1 rfl, (((Effect.start s).put _ _).put _ _).withTime _ _ rfl⟩
  · have hrun : Machine.exec (.snapshotLowRead req w) s = .next { s with chip := s.chip.busAnswer s.nvm req (snapPairs.getD w.val (0, [])).1 } := rfl
    have hpair := getD_mem_snapPairs w
    obtain ⟨-, -, -, -, -, -, hwords⟩ := snapPairs_low _ hpair
    rw [hrun, busAnswer_low _ _ _ _ hpair hup hon]
    exact ⟨_, rfl, fun x hx => latched_mem s.chip req _ x hwords hx, fun k hk => latched_other s.chip req _ k hk,
      ((Effect.start s).innerStep (fun c => { c with snap := s.chip.latched req (snapPairs.getD w.val (0, [])).2 }) rfl rfl rfl rfl rfl rfl).out _⟩

end Sys2Proof.Machine

namespace Sys2Proof.Machine

/-! The control law on its two paths, one equation for each (R61 to R68). -/

/-- The effective error of a code (R62, R63). -/
def LoopHw.effective (h : LoopHw) (code : Int) : Int := satS 16 (code - h.run.loadLine)

/-- The transient state that a code leads to (R67). -/
def LoopHw.transientOf (h : LoopHw) (st tr0 : Nat) (code : Int) : Nat :=
  h.run.transient st tr0 (h.trBlock && !decide (((h.effective code).natAbs : Int) ≤ h.run.linband)) (h.effective code)

/-- An exit sample that TREXM preloads (R68). -/
def LoopHw.preloads (h : LoopHw) (tr0 : Nat) : Bool := (tr0 ≠ 0 || h.trExit) && wordField h.run.ctrl 9 1 == 1

/-- The filter's accumulator on the linear path (R62). -/
def LoopHw.filterAcc (h : LoopHw) (e : Int) : Int := satS 80 (h.run.set.b0 * e * 2 ^ (37 - h.run.set.bsh) + h.run.set.tail h)

/-- The filter's part of the output, with the feed-forward (R62, R69). -/
def LoopHw.forwarded (h : LoopHw) (e : Int) : Int := h.filterAcc e + (h.run.forward h.ff).2 * 2 ^ 30

/-- The integrator's accumulator before its clip (R62, R68). -/
def LoopHw.integAcc (h : LoopHw) (pre : Bool) (e : Int) : Int :=
  satS 80 (if pre then (h.duty * 2 ^ 40 : Nat) - h.forwarded e else h.integ * 2 ^ 22 + h.run.set.ki * e * 2 ^ (37 - h.run.set.ish))

/-- The output before its limits (R62). -/
def LoopHw.output (h : LoopHw) (pre : Bool) (e : Int) : Int :=
  satS 32 (rne (satS 80 (min (max (h.integAcc pre e) (h.run.set.lo * 2 ^ 22)) (h.run.set.hi * 2 ^ 22) + h.forwarded e)) (2 ^ 30))

/-- An output reaches the ceiling (R64). -/
def Limits.atCeil (l : Limits) (u : Int) : Bool := decide (l.ceil ≤ u)

/-- An output below the ceiling falls to the floor (R64). -/
def Limits.atFloor (l : Limits) (u : Int) : Bool := !l.atCeil u && decide (u ≤ l.floor)

/-- The duty that the limits leave of an output: the ceiling goes before the floor (R64). -/
def Limits.limit (l : Limits) (u : Int) : Int := if l.atCeil u then l.ceil else if l.atFloor u then l.floor else u

/-- The limits hold the integrator: at the ceiling against a positive error, at the floor against a negative one (R66). -/
def Limits.holds (l : Limits) (u e : Int) : Bool := (l.atCeil u && decide (0 < e)) || (l.atFloor u && decide (e < 0))

/-- A sample of the transient path sends its fixed duty below the hardware ceiling and leaves the integrator (R67). -/
theorem law_transient (h : LoopHw) (st tr0 : Nat) (code : Int) (htr : h.transientOf st tr0 code ≠ 0) :
    (h.law st tr0 code).tr ≠ 0 ∧ (h.law st tr0 code).integ = h.integ ∧
      ∃ d, d ≤ (h.run.limits h.duty).hwcl ∧ (h.law st tr0 code).duty = dutyWord d := by
  have hlaw := (rfl : h.law st tr0 code = if h.transientOf st tr0 code ≠ 0 then _ else _).trans (if_pos htr)
  rw [hlaw]
  exact ⟨htr, rfl, _, min_le_right _ _, rfl⟩

/-- A sample of the linear path. -/
theorem law_linear (h : LoopHw) (st tr0 : Nat) (code : Int) (htr : h.transientOf st tr0 code = 0) :
    (h.law st tr0 code).eeff = h.effective code ∧ (h.law st tr0 code).y = satS 32 (rne (h.filterAcc (h.effective code)) (2 ^ 30)) ∧
      (h.law st tr0 code).duty = dutyWord ((h.run.limits h.duty).limit (h.output (h.preloads tr0) (h.effective code))) ∧
      (h.law st tr0 code).integ = (if ((h.run.limits h.duty).holds (h.output (h.preloads tr0) (h.effective code)) (h.effective code) && !h.preloads tr0) = true then h.integ
        else h.run.set.clip (satS 40 (rne (h.integAcc (h.preloads tr0) (h.effective code)) (2 ^ 22)))) ∧
      (h.noSink = false → (h.law st tr0 code).tag = 0) := by
  have hlaw := (rfl : h.law st tr0 code = if h.transientOf st tr0 code ≠ 0 then _ else _).trans (if_neg (not_not.2 htr))
  have htr' : h.run.transient st tr0 (h.trBlock && !decide (((satS 16 (code - h.run.loadLine)).natAbs : Int) ≤ h.run.linband)) (satS 16 (code - h.run.loadLine)) = 0 := htr
  simp only [htr', if_true, decide_true, Bool.and_true] at hlaw
  rw [hlaw]
  refine ⟨rfl, rfl, rfl, rfl, ?_⟩
  intro hns
  simp [hns]

/-- Rounding to nearest keeps order. -/
theorem rne_mono {a b : Int} (d : Nat) (hd : 0 < d) (hab : a ≤ b) : rne a d ≤ rne b d := by
  have hd' : (0 : Int) < d := by exact_mod_cast hd
  have ha := Int.mul_ediv_add_emod a d
  have hb := Int.mul_ediv_add_emod b d
  have hquot : a / d ≤ b / d := Int.ediv_le_ediv hd' hab
  unfold rne
  rcases hquot.lt_or_eq with hlt | heq
  · dsimp only
    split_ifs <;> omega
  · rw [heq] at ha ⊢
    dsimp only
    split_ifs <;> omega

/-- A whole number of units rounds to itself. -/
theorem rne_mul (n : Int) (d : Nat) (hd : 0 < d) : rne (n * d) d = n := by
  have hquot : n * d / d = n := Int.mul_ediv_cancel n (by exact_mod_cast hd.ne')
  simp [rne, hquot, hd]

theorem dutyWord_le (d : Int) : dutyWord d ≤ 0xfffff := min_le_right _ _

theorem dutyWord_mono {a b : Int} (h : a ≤ b) : dutyWord a ≤ dutyWord b :=
  min_le_min_right _ (Int.toNat_le_toNat (rne_mono _ (by decide) (max_le_max_right 0 h)))

/-- A 20-bit word in units of 2^-30 is sent as it is. -/
theorem dutyWord_word (n : Nat) (hn : n ≤ 0xfffff) : dutyWord ((n * 2 ^ 10 : Nat) : Int) = n := by
  have hmax : max ((n * 2 ^ 10 : Nat) : Int) 0 = (n : Int) * (2 ^ 10 : Nat) := by push_cast; omega
  rw [dutyWord, hmax, rne_mul _ _ (by decide), Int.toNat_natCast, min_eq_left hn]

/-- The linear ceiling lies below the hardware ceiling, and the floor below the ceiling (R64). -/
theorem limits_order (r : RunIn) (duty : Nat) : (r.limits duty).ceil ≤ (r.limits duty).hwcl ∧ (r.limits duty).floor ≤ (r.limits duty).ceil :=
  ⟨min_le_left _ _, min_le_right _ _⟩

/-- Past the current limit the hardware ceiling falls from the previous duty (R65). -/
theorem limits_past (r : RunIn) (duty : Nat) (hpast : (r.ilim : Int) < r.isum) : (r.limits duty).hwcl ≤ ((duty * 2 ^ 10 : Nat) : Int) := by
  have hfall : 0 ≤ ((wordField r.clim 0 16 : Nat) : Int) * (r.isum - r.ilim) := mul_nonneg (Int.natCast_nonneg _) (by omega)
  simp only [RunIn.limits, hpast, decide_true, if_true]
  exact (min_le_right _ _).trans (by omega)

theorem limit_of_atCeil (l : Limits) (u : Int) (h : l.ceil ≤ u) : l.limit u = l.ceil := by simp [Limits.limit, Limits.atCeil, h]

theorem limit_of_atFloor (l : Limits) (u : Int) (hc : u < l.ceil) (hf : u ≤ l.floor) : l.limit u = l.floor := by
  simp [Limits.limit, Limits.atFloor, Limits.atCeil, hc, hf]

theorem limit_between (l : Limits) (u : Int) (hc : u < l.ceil) (hf : l.floor < u) : l.limit u = u := by
  simp [Limits.limit, Limits.atFloor, Limits.atCeil, hc.not_ge, hf.not_ge]

/-- What the limits leave lies between them. -/
theorem limit_mem (l : Limits) (u : Int) (h : l.floor ≤ l.ceil) : l.floor ≤ l.limit u ∧ l.limit u ≤ l.ceil := by
  rcases le_or_gt l.ceil u with hc | hc
  · rw [limit_of_atCeil l u hc]
    exact ⟨h, le_rfl⟩
  · rcases le_or_gt u l.floor with hf | hf
    · rw [limit_of_atFloor l u hc hf]
      exact ⟨le_rfl, h⟩
    · rw [limit_between l u hc hf]
      exact ⟨hf.le, hc.le⟩

/-- The clamps of a set are in the order of its limits (R61). -/
theorem clip_mem (c : CoefSet) (i : Int) (h : c.imin ≤ c.imax) : c.lo ≤ c.clip i ∧ c.clip i ≤ c.hi := by
  have hle : c.lo ≤ c.hi := Int.mul_le_mul_of_nonneg_right h (by decide)
  exact ⟨le_min (le_max_right _ _) hle, min_le_right _ _⟩

/-- The duty of every sample is the word of some output at most the hardware ceiling, and on the linear path within the linear limits. -/
theorem law_duty (h : LoopHw) (st tr0 : Nat) (code : Int) :
    ∃ d, (h.law st tr0 code).duty = dutyWord d ∧ d ≤ (h.run.limits h.duty).hwcl ∧
      ((h.law st tr0 code).tr = 0 → (h.run.limits h.duty).floor ≤ d ∧ d ≤ (h.run.limits h.duty).ceil) := by
  obtain ⟨hceil, hfloor⟩ := limits_order h.run h.duty
  by_cases htr : h.transientOf st tr0 code = 0
  · obtain ⟨-, -, hduty, -⟩ := law_linear h st tr0 code htr
    have hmem := limit_mem (h.run.limits h.duty) (h.output (h.preloads tr0) (h.effective code)) hfloor
    exact ⟨_, hduty, hmem.2.trans hceil, fun _ => hmem⟩
  · obtain ⟨hne, -, d, hd, hduty⟩ := law_transient h st tr0 code htr
    exact ⟨d, hduty, hd, fun h0 => absurd h0 hne⟩

/-- The integrator after every sample is the previous one, or clipped. -/
theorem law_integ (h : LoopHw) (st tr0 : Nat) (code : Int) : (h.law st tr0 code).integ = h.integ ∨ ∃ i, (h.law st tr0 code).integ = h.run.set.clip i := by
  by_cases htr : h.transientOf st tr0 code = 0
  · obtain ⟨-, -, -, hinteg, -⟩ := law_linear h st tr0 code htr
    rw [hinteg]
    split
    · exact .inl rfl
    · exact .inr ⟨_, rfl⟩
  · obtain ⟨-, hinteg, -⟩ := law_transient h st tr0 code htr
    exact .inl hinteg

/-- Settles O14: the duty of either path is the word of an output below its ceiling, and the word of a duty keeps order. -/
theorem dutyAndIntegratorKeepTheirLimits : Obligations.DutyAndIntegratorKeepTheirLimits := by
  unfold Obligations.DutyAndIntegratorKeepTheirLimits
  intro h st tr0 code hclamps
  obtain ⟨d, hduty, hhw, hlin⟩ := law_duty h st tr0 code
  rw [hduty]
  refine ⟨dutyWord_le d, dutyWord_mono hhw, fun h0 => ?_, fun hpast hprev => ?_, ?_⟩
  · obtain ⟨hfloor, hceil⟩ := hlin h0
    exact ⟨dutyWord_mono hceil, dutyWord_mono hfloor⟩
  · calc dutyWord d ≤ dutyWord ((h.duty * 2 ^ 10 : Nat) : Int) := dutyWord_mono (hhw.trans (limits_past _ _ hpast))
      _ = h.duty := dutyWord_word _ hprev
  · rcases law_integ h st tr0 code with hsame | ⟨i, hclip⟩
    · exact .inl hsame
    · rw [hclip]
      exact .inr (clip_mem _ i hclamps)

/-- Without load line the effective error is the code (R63). -/
theorem effective_eq (h : LoopHw) (code : Int) (hll : wordField h.run.ctrl 6 1 = 0) : h.effective code = satS 16 code := by
  simp [LoopHw.effective, RunIn.loadLine, hll]

/-- Without feed-forward the filter alone joins the integrator (R62). -/
theorem forwarded_idle (h : LoopHw) (e : Int) (hff : h.ff = .idle) : h.forwarded e = h.filterAcc e := by
  simp [LoopHw.forwarded, RunIn.forward, hff]

/-- The filter's accumulator as R62 writes it. -/
theorem filterAcc_eq (h : LoopHw) (e : Int) :
    h.filterAcc e = satS 80 ((h.run.set.b0 * e + h.run.set.b1 * h.e1 + h.run.set.b2 * h.e2) * 2 ^ (37 - h.run.set.bsh)
      - (h.run.set.a1 * h.y1 + h.run.set.a2 * h.y2 + h.run.set.a3 * h.y3) * 2 ^ 9) := by
  rw [LoopHw.filterAcc, CoefSet.tail]
  congr 1
  ring

/-- The clamps in the units of the accumulators (R61). -/
theorem lo_scaled (c : CoefSet) : c.lo * 2 ^ 22 = c.imin * 2 ^ 45 := by rw [CoefSet.lo]; ring

theorem hi_scaled (c : CoefSet) : c.hi * 2 ^ 22 = c.imax * 2 ^ 45 := by rw [CoefSet.hi]; ring

/-- Settles O13: the linear path's equation, with the output at the ceiling, at the floor and between them. -/
theorem controlLawOfALinearSample : Obligations.ControlLawOfALinearSample := by
  unfold Obligations.ControlLawOfALinearSample
  intro h st code y i u htr hexit hns hll hff hy hi hu
  have heff := effective_eq h code hll
  have hpre : h.preloads 0 = false := by simp [LoopHw.preloads, hexit]
  have hfilter : h.filterAcc (satS 16 code) = y := (filterAcc_eq h _).trans hy.symm
  have hacc : h.integAcc false (satS 16 code) = i := hi.symm
  have hout : h.output false (satS 16 code) = u := by
    rw [LoopHw.output, hacc, forwarded_idle h _ hff, hfilter, lo_scaled, hi_scaled, hu]
  obtain ⟨heeff, hyout, hduty, hinteg, htag⟩ := law_linear h st 0 code (by rw [LoopHw.transientOf, heff]; exact htr)
  rw [heff] at heeff hyout hduty hinteg
  rw [hpre, hout] at hduty hinteg
  rw [hacc, Bool.not_false, Bool.and_true] at hinteg
  rw [hfilter] at hyout
  refine ⟨heeff, htag hns, hyout, fun hceil => ⟨?_, fun hpos => ?_⟩, fun hceil hfloor => ⟨?_, fun hneg => ?_⟩, fun hceil hfloor => ⟨?_, ?_⟩⟩
  · rw [hduty, limit_of_atCeil _ _ hceil]
  · rw [hinteg, if_pos]
    simp [Limits.holds, Limits.atCeil, hceil, hpos]
  · rw [hduty, limit_of_atFloor _ _ hceil hfloor]
  · rw [hinteg, if_pos]
    simp [Limits.holds, Limits.atFloor, Limits.atCeil, hceil, hfloor, hneg]
  · rw [hduty, limit_between _ _ hceil hfloor]
  · rw [hinteg, if_neg]
    · rfl
    · simp [Limits.holds, Limits.atFloor, Limits.atCeil, hceil, hfloor]

end Sys2Proof.Machine

namespace Sys2Proof.Machine

/-! Samples that a statement over every state does not foresee (R78, R79, R431). -/

/-- Where nothing of the loop has changed, its hooks look at READY alone (R279). -/
theorem loopHooks_self (c : Chip) (n : Nat) : c.loopHooks c n = c.hintReady := by
  have hstop : ((c.loopState n = 1 || c.loopState n = 2 || c.loopState n = 4) && (c.loopState n = 0 || c.loopState n = 3)) = false := by grind
  have hresume : (decide (c.loopState n = 4) && decide (c.loopState n = 2)) = false := by grind
  simp [Chip.loopHooks, hstop, hresume]

/-- In the immediate class sample k has its deadline with the code of sample k + 1: without that code there is no overrun (R78). -/
theorem overrun_of_no_next (c : Chip) (n : Nat) (hclass : wordField (c.loops.get n).run.ctrl 0 1 = 1) (hnext : (c.loops.get n).next = none) : c.overrun n = c := by
  simp [Chip.overrun, hclass, hnext]

/-- Loop 0 runs in the immediate class, with the code of one sample in progress and none behind it. -/
def loneSample : State :=
  { chip := { (State.reset.chip.put PWR.DOMSTAT_CORE 1).put (LOOP.STATUS_STATE 0) 2 with loops := Tbl.empty.set 0 { code := some 0, run := { ctrl := 1 } } } }

/-- Refutes O15: its fifth clause records an overrun at every SAMPLE_OVERRUN of a loop with a code in progress, but in the immediate class a sample has no deadline before the code of the next has come. -/
theorem not_loopTargetsMoveAndSamplesOverrun : ¬ Obligations.LoopTargetsMoveAndSamplesOverrun := by
  unfold Obligations.LoopTargetsMoveAndSamplesOverrun
  rintro ⟨-, -, -, -, overruns, -⟩
  have hcore : loneSample.chip.coreRuns = true := by decide +kernel
  have hstate : loneSample.chip.loopState 0 ≠ 0 := by decide +kernel
  have hcode : (loneSample.chip.loops.get 0).code = some 0 := by decide +kernel
  have hconsec : loneSample.chip.get (LOOP.OVR_CONSEC 0) < 3 := by decide +kernel
  have hclear : loneSample.chip.hintReady.get (LOOP.OVR_OVRF 0) = 0 := by decide +kernel
  have hnone : loneSample.chip.overrun 0 = loneSample.chip := overrun_of_no_next _ _ (by decide +kernel) (by decide +kernel)
  obtain ⟨t, ht, ⟨hflag, -⟩, -⟩ := overruns loneSample 0 0 hcore hstate hcode hconsec
  have hrun : Machine.exec (.sampleOverrun 0) loneSample
      = .next { loneSample with chip := if loneSample.chip.coreRuns then loneSample.chip.loopHooks (loneSample.chip.overrun 0) 0 else loneSample.chip } := rfl
  rw [hrun, if_pos hcore, hnone, loopHooks_self] at ht
  cases ht
  exact absurd (hflag.symm.trans hclear) (by decide)

/-- Loop 0 runs on the linear path with a code in progress and its telemetry streamed; HOST is off, and the record that it fills names a stream that does not exist. -/
def strayRecord : State :=
  { chip := { ((State.reset.chip.put PWR.DOMSTAT_CORE 1).put (LOOP.STATUS_STATE 0) 2).put (TELS.TLOOP_EN 0) 1 with
      loops := Tbl.empty.set 0 { code := some 0 }, tels := Tbl.empty.set (1024 * 2) { words := List.replicate 9 0, strm := 4096 } } }

/-- Refutes O12: its first clause keeps every register beyond the blocks of the loop and the host's, whatever the state, but the sample's telemetry completes a record and its drop is counted
in the register of the record's stream, which the state gives as any number: that of stream 4096 lies at 0x5125c. -/
theorem not_loopSamplesFollowTheControlLaw : ¬ Obligations.LoopSamplesFollowTheControlLaw := by
  unfold Obligations.LoopSamplesFollowTheControlLaw
  rintro ⟨samples, -⟩
  have hcore : strayRecord.chip.coreRuns = true := by decide +kernel
  have hcount : (strayRecord.chip.loopHooks (strayRecord.chip.errorArrive 0) 0).reg (RING.CNT (telRing 4096)) = 1 := by decide +kernel
  have hzero : strayRecord.chip.reg (RING.CNT (telRing 4096)) = 0 := by decide +kernel
  obtain ⟨t, ht, -, -, -, -, -, -, -, -, -, -, -, -, -, -, -, -, -, keeps⟩ :=
    samples strayRecord 0 0 hcore (by decide +kernel) (by decide +kernel) (by decide +kernel) (by decide +kernel) (by decide +kernel)
  have hrun : Machine.exec (.errorCodeArrive 0) strayRecord
      = .next { strayRecord with chip := if strayRecord.chip.coreRuns then strayRecord.chip.loopHooks (strayRecord.chip.errorArrive 0) 0 else strayRecord.chip } := rfl
  rw [hrun, if_pos hcore] at ht
  have hone : t.chip.reg (RING.CNT (telRing 4096)) = 1 := by
    rw [← Host.Outcome.next.inj ht]
    simpa only using hcount
  exact absurd (hone.symm.trans ((keeps.regs _ rfl).trans hzero)) (by decide)

end Sys2Proof.Machine

namespace Sys2Proof.Machine

/-! Swaps and auto-tune runs that meet hold-up or a waiting hint (R35, R103, R107, R111). -/

/-- Without CORE, and in hold-up, an event inside CORE does not occur (R30, R35). -/
theorem onCore_of_not_runs (s : State) (f : Chip → Chip) (h : s.chip.coreRuns = false) : s.onCore f = .next s := by
  simp [State.onCore, State.on, h]

/-- Loop 0 is in RUN with a request for its valid set 0 waiting, and hold-up has begun with CORE on. -/
def swapHeldUp : State :=
  { chip := { (((((State.reset.chip.put PWR.DOMSTAT_CORE 1).put PWR.DOMSTAT_HOLDUP 1).put (LOOP.STATUS_STATE 0) 2).put (COEF.SETVAL_VALID 0) 1).put (COEF.SEL_PEND 0) 1) with
      loops := Tbl.empty.set 0 { swaps := [.request 0] } } }

/-- Refutes O17: its last clause applies a waiting swap whenever CORE is on, but CORE stays on in hold-up, where no loop engine is active and the request goes on waiting. -/
theorem not_coefficientSetsSwap : ¬ Obligations.CoefficientSetsSwap := by
  unfold Obligations.CoefficientSetsSwap
  rintro ⟨-, -, -, -, -, applies⟩
  have hcore : swapHeldUp.chip.domOn .core = true := by decide +kernel
  have hruns : swapHeldUp.chip.coreRuns = false := by decide +kernel
  have hcode : (swapHeldUp.chip.loops.get 0).code = none := by decide +kernel
  have hstate : swapHeldUp.chip.loopState 0 ∈ [1, 2, 3] := by decide +kernel
  have hwaits : (swapHeldUp.chip.loops.get 0).swaps = [.request 0] := by decide +kernel
  have hvalid : bitAt ((swapHeldUp.chip.coefBoundary 0).get (COEF.SETVAL_VALID 0)) 0 = true := by decide +kernel
  have hrun : Machine.exec (.coefSwapApply 0 true) swapHeldUp = swapHeldUp.onCore fun u => u.swapApply 0 true := rfl
  obtain ⟨t, ht, -, -, -, -, -, -, htaken, -⟩ := applies swapHeldUp 0 0 _ rfl hcore hcode hstate hwaits hvalid rfl
  rw [hrun, onCore_of_not_runs _ _ hruns] at ht
  cases ht
  exact absurd (hwaits.symm.trans htaken) (by decide)

/-- TUNECTL has no configuration field, flag or counter: a request carries its command bit alone. -/
theorem tunectl_row : ∀ n : LoopId, COEF.TUNECTL n.val % 4 = 0 ∧ (regAt (COEF.TUNECTL n.val)).isSome = true ∧ inMailbox (COEF.TUNECTL n.val) = false ∧
    inMsix (COEF.TUNECTL n.val) = false ∧ plainReg (COEF.TUNECTL n.val) = true ∧ pairMask (COEF.TUNECTL n.val) = 0 ∧ accMask (COEF.TUNECTL n.val) (· == .rw) = 0 ∧
    lockMask (COEF.TUNECTL n.val) = 0 ∧ accMask (COEF.TUNECTL n.val) (· == .w1c) = 0 ∧ cntClears (COEF.TUNECTL n.val) = none := by decide +kernel

theorem tunectl_carries (c : Chip) (n : LoopId) (w : Word) : Carries c (COEF.TUNECTL n.val) w := by
  obtain ⟨haligned, hknown, hbox, hmsix, hplain, hpair, hrw, hlock, hflags, hcnt⟩ := tunectl_row n
  exact ⟨haligned, hknown, hbox, hmsix, hplain, by simp [hrw], by simp [hlock], by simp [hpair], by simp [hflags], fun b fs h => by simp [hcnt] at h⟩

theorem fldSet_carry_tuneStart (c : Chip) (n : LoopId) : fldSet (c.carry (COEF.TUNECTL n.val)) (COEF.TUNECTL_START n.val) 1 = 1 := by
  obtain ⟨-, -, -, -, -, hpair, -⟩ := tunectl_row n
  have hzero : c.carry (COEF.TUNECTL n.val) = 0 := by simp [Chip.carry, hpair]
  rw [hzero]
  exact (by decide : wordPut 0 0 1 1 = 1)

/-- START is an operation of its own: the run is judged, and then meets the hints that wait (R107, R111). -/
theorem regOps_tuneStart (c : Chip) (m : List Host.Cell) (req : Requester) (n : LoopId) (b : Bool) :
    c.regOps m req (COEF.TUNECTL n.val) 1 b = (c.tuneStart n.val).hintTune n.val := by
  have hoff : COEF.TUNECTL n.val = 0x1402c + 0x100 * n.val := rfl
  have hwin : dieWindow = 0x100000 := rfl
  have hloop : (COEF.TUNECTL n.val - 0x14000) / 0x100 = n.val := by omega
  have hsel : COEF.TUNECTL n.val ≠ COEF.SEL n.val := by simp only [COEF.TUNECTL, COEF.SEL]; omega
  have hdom : COEF.TUNECTL n.val ≠ PWR.DOMCTL := by simp only [COEF.TUNECTL, PWR.DOMCTL]; omega
  have hblock : (0x14000 ≤ COEF.TUNECTL n.val && COEF.TUNECTL n.val < 0x16000) = true := by simp; omega
  rw [Chip.regOps, if_neg (by omega), if_neg (by simp; omega)]
  unfold Chip.hubOps
  dsimp only
  rw [if_neg hdom, if_pos hblock, hloop, if_neg hsel, if_pos rfl, if_pos (by decide), if_neg (by decide)]

/-- A START that reaches TUNECTL. -/
theorem exec_autotuneStart (s : State) (req : Requester) (n : LoopId) (h : s.chip.reaches req (COEF.TUNECTL n.val) = true) :
    Machine.exec (.autotuneStart req n) s = .next { s with chip := (s.chip.tuneStart n.val).hintTune n.val } := by
  have hrun : Machine.exec (.autotuneStart req n) s
      = .next { s with chip := s.chip.busWrite s.nvm req (COEF.TUNECTL n.val) (fldSet (s.chip.carry (COEF.TUNECTL n.val)) (COEF.TUNECTL_START n.val) 1) true } := rfl
  rw [hrun, fldSet_carry_tuneStart, busWrite_carries _ _ _ _ _ _ h (tunectl_carries _ _ _), regOps_tuneStart]

/-- No aborted run goes on waiting for leave (R108, R111). -/
theorem tuneAbort_not_waiting (c : Chip) (n cause : Nat) : ((c.tuneAbort n cause).tunes.get n).phase ≠ .waiting := by
  unfold Chip.tuneAbort
  cases hphase : (c.tunes.get n).phase with
  | idle | ending => simp [hphase]
  | waiting | granted | running => simp [hphase, Chip.tuneUpd]

/-- A hint that waits on one of the links and names loop n (R111 cause 0x9). -/
def Chip.hintAwaits (c : Chip) (n : Nat) : Bool :=
  (List.range 8).any fun l => (c.hintHw.get l).hints.any fun x => x.phase != .holding && (c.hintLoops l x.mask).any fun kn => kn.2 == n

/-- A run accepted while such a hint waits is aborted with cause 0x9 (R111). -/
theorem hintTune_of_awaits (c : Chip) (n : Nat) (h : c.hintAwaits n = true) : c.hintTune n = c.tuneAbort n 9 := if_pos h

theorem hintTune_not_waiting (c : Chip) (n : Nat) (h : c.hintAwaits n = true) : ((c.hintTune n).tunes.get n).phase ≠ .waiting := by
  rw [hintTune_of_awaits c n h]
  exact tuneAbort_not_waiting c n 9

/-- Loop 0 is in RUN with legal settings for an auto-tune run and nothing running, and a hint that names it waits on link 0 for its leave. -/
def hintBeforeStart : State :=
  { chip := { ((((((((((State.reset.chip.put PWR.DOMSTAT_CORE 1).put PWR.DOMSTAT_HOST 1).put PWR.DOMSTAT_HKA 1).put (LOOP.STATUS_STATE 0) 2).put (COEF.TUNECFG_HREL 0) 5).put
      (COEF.TUNELIM_HMAX 0) 5).put (COEF.TUNECYC_NMEAS 0) 1).put (COEF.TUNECYC_MAXS 0) 100).put (LOOP.RATE_SPER 0) 200).put (HINT.MAP_SEL0 0) 32) with
      power := ⟨true, true, true, false, none⟩
      hintHw := Tbl.empty.set 0 { hints := [{ hid := 1, mask := 1, step := 1, lead := 0, phase := .asked }] } } }

/-- Refutes O18: its second clause leaves every legal run waiting for leave, but one accepted while a hint that names its loop waits is aborted at once with cause 0x9 (R111). -/
theorem not_autoTuneRuns : ¬ Obligations.AutoTuneRuns := by
  unfold Obligations.AutoTuneRuns
  rintro ⟨-, starts, -⟩
  have hreach : hintBeforeStart.chip.reaches .ring (COEF.TUNECTL 0) = true := by decide +kernel
  have hstate : hintBeforeStart.chip.loopState 0 = 2 := by decide +kernel
  have htr : hintBeforeStart.chip.get (LOOP.STATUS_TRSTATE 0) = 0 := by decide +kernel
  have hrel : hintBeforeStart.chip.get (COEF.TUNECFG_HREL 0) ≠ 0 := by decide +kernel
  have hmax : hintBeforeStart.chip.get (COEF.TUNECFG_HREL 0) ≤ hintBeforeStart.chip.get (COEF.TUNELIM_HMAX 0) := by decide +kernel
  have hmeas : hintBeforeStart.chip.get (COEF.TUNECYC_NMEAS 0) ≠ 0 := by decide +kernel
  have hmaxs : hintBeforeStart.chip.get (COEF.TUNECYC_MAXS 0) ≠ 0 := by decide +kernel
  have hawaits : (hintBeforeStart.chip.tuneStart 0).hintAwaits 0 = true := by decide +kernel
  obtain ⟨t, ht, -, -, -, -, hwaiting, -⟩ := starts hintBeforeStart .ring 0 hreach hstate htr rfl hrel hmax hmeas hmaxs rfl rfl
  rw [exec_autotuneStart hintBeforeStart .ring 0 hreach] at ht
  cases ht
  exact hintTune_not_waiting _ _ hawaits hwaiting

end Sys2Proof.Machine

namespace Sys2Proof.Machine

open Chip.OnlyIn (put refl)

/-! A generator that stands alone: the level at its pin while a cycle trip acts, and its PK input (R127, R137 to R140, R239, R240). -/

@[simp] theorem get_genUpd (c : Chip) (p : Nat) (f : GenHw → GenHw) (x : Fld) : (c.genUpd p f).get x = c.get x := rfl

/-- A comparator writes no control register. -/
theorem peakRegs_ctrl (p q : Nat) : peakRegs p (PWM.CTRL q) = false := by
  simp only [peakRegs, Bool.or_eq_false_iff, beq_eq_false_iff_ne, PWM.CTRL, CMP.PKSTAT, PWM.TRIPST, dieBase]
  omega

theorem peakWindow_of_single {c : Chip} {p : Nat} (h : c.single p = true) : c.peakWindow p = p := by
  simp [Chip.peakWindow, genLead_of_single h]

/-- No window of a generator that stands alone wraps past its period (R135). -/
theorem genHead_of_single {c : Chip} {p : Nat} (h : c.single p = true) : c.genHead p = 0 := by
  simp [Chip.genHead, (not_pair_of_single h).1]

/-! OFF, and the level that a cycle trip gives. -/

theorem edgeStage_off_of_high {c : Chip} {p : Nat} (h : c.single p = true) (hhigh : (c.gens.get p).stage = .high) (hfull : c.genFull p = false) :
    c.edgeStage p .off = some .fall := by
  simp [Chip.edgeStage, hhigh, hfull, genHead_of_single h]

/-- The window is past OFF, and the PK input quiet. -/
def Chip.pastOff (c : Chip) (p : Nat) : Chip := (c.genUpd p fun g => { g with stage := .fall, head := 0 }).peakQuiet p

theorem peakQuiet_onlyIn (c : Chip) (p : Nat) : c.OnlyIn (peakRegs p) (c.peakQuiet p) := by
  have hst : peakRegs p (PWM.TRIPST p) = true := by simp [peakRegs]
  have hpk : peakRegs p (CMP.PKSTAT p) = true := by simp [peakRegs]
  exact put (put (refl _ c) (PWM.TRIPST_ACT p) _ hst) (CMP.PKSTAT_THR p) _ hpk

theorem pastOff_single {c : Chip} {p : Nat} (h : c.single p = true) : (c.pastOff p).single p = true :=
  (single_congr ((peakQuiet_onlyIn _ p).updFirst rfl) (peakRegs_ctrl p) p).trans h

/-- OFF of an output whose window is high (R127, R240). -/
theorem pwmEdge_off_of_high {c : Chip} {p : Nat} (hon : c.dieOn (dieOf p) = true) (h : c.single p = true) (hhigh : (c.gens.get p).stage = .high)
    (hfull : c.genFull p = false) (hshed : (c.gens.get p).shedOff = false) : c.pwmEdge p .off = (c.pastOff p).genShow p := by
  have hboth : (c.genBoth p).filter (fun k => c.peakWindow k == p) = [p] := by
    simp [Chip.genBoth, genLead_of_single h, (not_pair_of_single h).2, peakWindow_of_single h]
  rw [← genShowAll_of_single _ _ (pastOff_single h), Chip.pwmEdge, if_neg (by simp [hon])]
  dsimp only
  rw [edgeStage_off_of_high h hhigh hfull, if_neg (by decide)]
  dsimp only
  rw [if_pos (by decide), if_neg (by simp [hshed]), hboth]
  rfl

/-- A cycle trip holds the pin at the off-level, by way of the dead time, whatever the window gives (R139). -/
theorem pinLevel_of_cycled {c : Chip} {p : Nat} (h : c.single p = true) (hheld : c.genHeld p = false) (hlat : c.get (PWM.TRIPST_LAT p) = 0)
    (hres : (c.gens.get p).resume = none) (hcyc : c.genCyc p = true) :
    c.pinLevel p = if (c.gens.get p).tdead then 2 else (c.gens.get p).lowLevel := by
  obtain ⟨hodd, heven⟩ := not_pair_of_single h
  have hlatched : c.genLatched p = 0 := by simp [Chip.genLatched, hodd, heven, hlat]
  simp [Chip.pinLevel, genLead_of_single h, hheld, hlatched, hres, heven, GenHw.cycled, hcyc]

theorem genShow_level (c : Chip) (p : Nat) : (c.genShow p).get (PWM.OUT_LEVEL p) = c.pinLevel p % 4 := by
  have hne : PWM.OUT p ≠ PWM.TRIPST p := by simp only [PWM.OUT, PWM.TRIPST, dieBase]; omega
  have hapart : (PWM.OUT_LEVEL p).apart (PWM.TRIPST_TRIPPED p) = true := Fld.apart_of_off_ne _ _ hne
  exact (get_put_apart _ _ _ _ rfl hapart).trans (get_put_same _ _ _ rfl)

/-- Generator 2 is high in its on-window, with its peak-current comparator enabled in cycle mode. -/
def conducting : State :=
  { chip := { ((((State.reset.chip.put PWR.DOMSTAT_CORE 1).put PWR.DOMSTAT_PX 127).put (PWM.CTRL_EN 2) 1).put (PWM.PERIOD_PER 2) 100).put (PWM.TRIPEN_PKEN 2) 1 with
      gens := Tbl.empty.set 2 { run := true, stage := .high, off := 3200 } } }

/-- 40 ticks after turn-on the comparator has ended the on-time, and the dead time of that trip is over: the output is low, and OFF is still to come. -/
def peakLimited : State := { chip := (conducting.chip.peakTrip 2 40 true).pwmEdge 2 .offDtf }

/-- Refutes O22: its fourth clause takes the output high-impedance at every OFF of an untripped generator, but `untripped` does not see a cycle trip of the generator's own peak-current comparator
(`cycPk`), and such a trip has taken the output low before OFF comes, where it stays (R139, R140). -/
theorem not_outputsFollowTheirWindow : ¬ Obligations.OutputsFollowTheirWindow := by
  unfold Obligations.OutputsFollowTheirWindow
  rintro ⟨-, -, -, atOff, -⟩
  have hruns : peakLimited.chip.genRuns 2 = true := by decide +kernel
  have hon : peakLimited.chip.dieOn (dieOf 2) = true := by decide +kernel
  have hheld : peakLimited.chip.genHeld 2 = false := by decide +kernel
  have hsingle : peakLimited.chip.single 2 = true := by decide +kernel
  have hfree : peakLimited.chip.untripped 2 = true := by decide +kernel
  have hhigh : (peakLimited.chip.gens.get 2).stage = .high := by decide +kernel
  have hwindow : (peakLimited.chip.gens.get 2).off < peakLimited.chip.genPeriod 2 := by decide +kernel
  have hfull : peakLimited.chip.genFull 2 = false := by decide +kernel
  have hshed : (peakLimited.chip.gens.get 2).shedOff = false := by decide +kernel
  have htrip : (peakLimited.chip.pastOff 2).genCyc 2 = true := by decide +kernel
  have hlow : (peakLimited.chip.pastOff 2).pinLevel 2 = 0 := by
    rw [pinLevel_of_cycled (pastOff_single hsingle) (by decide +kernel) (by decide +kernel) (by decide +kernel) htrip]
    decide +kernel
  obtain ⟨t, ht, hz, -⟩ := atOff peakLimited 2 hruns hheld hsingle hfree hhigh hwindow hshed
  have hrun : Machine.exec (.pwmEdge 2 .off) peakLimited = .next { peakLimited with chip := peakLimited.chip.pwmEdge 2 .off } := rfl
  rw [hrun, pwmEdge_off_of_high hon hsingle hhigh hfull hshed] at ht
  cases ht
  exact absurd ((genShow_level _ 2).symm.trans hz) (by rw [hlow]; decide)

/-! The trip inputs, as ACT shows them. -/

theorem get_forEach_genUpd (c : Chip) (l : List Nat) (f : Nat → GenHw → GenHw) (x : Fld) : (c.forEach l fun k u => u.genUpd k (f k)).get x = c.get x := by
  induction l generalizing c with
  | nil => rfl
  | cons k l ih => exact ih (c.genUpd k (f k))

theorem get_foldl_bell (c : Chip) (src : Nat) (l : List Nat) (x : Fld) : (l.foldl (fun u _ => u.bell src) c).get x = c.get x := by
  induction l generalizing c with
  | nil => rfl
  | cons k l ih => exact ih (c.bell src)

/-- The trip inputs share no bit with the latches, flags, counters and level of their generator. -/
theorem act_apart (p : Nat) : (PWM.TRIPST_ACT p).apart (PWM.TRIPST_LAT p) = true ∧ (PWM.TRIPST_ACT p).apart (PWM.TRIPST_TRIPF p) = true ∧
    (PWM.TRIPST_ACT p).apart (PWM.TRIPST_CBCF p) = true ∧ (PWM.TRIPST_ACT p).apart (PWM.TRIPST_TRIPPED p) = true ∧
    (PWM.TRIPST_ACT p).apart (PWM.TRIPCNT_LTCNT p) = true ∧ (PWM.TRIPST_ACT p).apart (PWM.TRIPCNT_CBCCNT p) = true ∧ (PWM.TRIPST_ACT p).apart (PWM.OUT_LEVEL p) = true := by
  have hcnt : PWM.TRIPST p ≠ PWM.TRIPCNT p := by simp only [PWM.TRIPST, PWM.TRIPCNT]; omega
  have hout : PWM.TRIPST p ≠ PWM.OUT p := by simp only [PWM.TRIPST, PWM.OUT]; omega
  refine ⟨?_, ?_, ?_, ?_, Fld.apart_of_off_ne _ _ hcnt, Fld.apart_of_off_ne _ _ hcnt, Fld.apart_of_off_ne _ _ hout⟩
  all_goals simp [Fld.apart, PWM.TRIPST_ACT, PWM.TRIPST_LAT, PWM.TRIPST_TRIPF, PWM.TRIPST_CBCF, PWM.TRIPST_TRIPPED]

theorem tripLatch_act (c : Chip) (p : Nat) : (c.tripLatch p).get (PWM.TRIPST_ACT p) = c.get (PWM.TRIPST_ACT p) := by
  obtain ⟨hlat, htripf, -, -, hcount, -, -⟩ := act_apart p
  unfold Chip.tripLatch
  dsimp only
  split
  · rfl
  · rw [get_genUpd, get_forEach_genUpd, get_foldl_bell, Chip.add, Chip.flag,
      get_put_apart _ _ _ _ rfl hcount, get_put_apart _ _ _ _ rfl htripf, get_put_apart _ _ _ _ rfl hlat]

theorem tripCycle_act (c : Chip) (p : Nat) : (c.tripCycle p).get (PWM.TRIPST_ACT p) = c.get (PWM.TRIPST_ACT p) := by
  obtain ⟨-, -, hcbcf, -, -, hcount, -⟩ := act_apart p
  unfold Chip.tripCycle
  dsimp only
  split
  · rfl
  · rw [get_genUpd, get_forEach_genUpd, get_genUpd]
    split
    · rfl
    · rw [Chip.event, get_bell, Chip.inc, Chip.add, Chip.flag, get_put_apart _ _ _ _ rfl hcount, get_put_apart _ _ _ _ rfl hcbcf]

theorem genShow_act (c : Chip) (p : Nat) : (c.genShow p).get (PWM.TRIPST_ACT p) = c.get (PWM.TRIPST_ACT p) := by
  obtain ⟨-, -, -, htripped, -, -, hout⟩ := act_apart p
  exact (get_put_apart _ _ _ _ rfl htripped).trans (get_put_apart _ _ _ _ rfl hout)

/-- ACT shows the inputs as they are taken, whatever trips they make. -/
theorem tripEval_act (c : Chip) (p : Nat) (h : c.single p = true) : (c.tripEval p).get (PWM.TRIPST_ACT p) = c.tripInputs p % 2 ^ 11 := by
  have hst : tripRegs p (PWM.TRIPST p) = true := by simp [tripRegs]
  have trips : Chip.Leaves (tripRegs p) p c (((c.put (PWM.TRIPST_ACT p) (c.tripInputs p)).tripLatch p).tripCycle p) :=
    (Chip.Leaves.put (.refl _ _ c) (PWM.TRIPST_ACT p) _ hst).trans ((tripLatch_leaves _ p).trans (tripCycle_leaves _ p))
  have hsingle := (single_congr trips.regs (tripRegs_ctrl p) p).trans h
  rw [Chip.tripEval, genShowAll_of_single _ _ hsingle, genShow_act, tripCycle_act, tripLatch_act, get_put_same _ _ _ rfl]
  rfl

theorem bitAt_setBitAt_same (m k : Nat) (b : Bool) : bitAt (setBitAt m k b) k = b := by
  unfold setBitAt
  split
  · assumption
  · next hne =>
    have hadd : (m + 2 ^ k) / 2 ^ k = m / 2 ^ k + 1 := Nat.add_div_right m (Nat.two_pow_pos k)
    have hsub : (m - 2 ^ k) / 2 ^ k = m / 2 ^ k - 1 := by simpa using Nat.sub_mul_div m (2 ^ k) 1
    cases b with
    | false =>
      simp only [bitAt, Bool.not_eq_false, beq_iff_eq] at hne
      simp only [bitAt, Bool.false_eq_true, if_false, hsub, beq_eq_false_iff_ne]
      omega
    | true =>
      simp only [bitAt, Bool.not_eq_true, beq_eq_false_iff_ne] at hne
      simp only [bitAt, if_true, hadd, beq_iff_eq]
      omega

theorem bitAt_mod_two_pow {k n : Nat} (m : Nat) (h : k < n) : bitAt (m % 2 ^ n) k = bitAt m k := by
  have hbit (x : Nat) : bitAt x k = x.testBit k := by rw [bitAt, Nat.testBit_eq_decide_div_mod_eq, beq_eq_decide]
  rw [hbit, hbit, Nat.testBit_mod_two_pow, decide_eq_true h, Bool.true_and]

/-- Bit 2 of the inputs is the PK input, as ACT has it (R149). -/
theorem tripInputs_pk (c : Chip) (p : Nat) : bitAt (c.tripInputs p) 2 = bitAt (c.get (PWM.TRIPST_ACT p)) 2 := by
  unfold Chip.tripInputs
  dsimp only
  generalize bitAt (c.get (PWM.TRIPST_ACT p)) 2 = pk
  have hflt := Bool.toNat_le ((c.dies.get (dieOf p)).tripWire || !c.domOn .core)
  have hwm := Bool.toNat_le ((c.dies.get (dieOf p)).wmWire != 0)
  cases pk with
  | false => simp only [bitAt, Bool.toNat_false, beq_eq_false_iff_ne]; omega
  | true => simp only [bitAt, Bool.toNat_true, beq_iff_eq]; omega

/-- The PK input is active when the comparator is high in its qualifying interval, and inactive else (R240). -/
theorem peakTrip_pk (c : Chip) (p k : Nat) (out : Bool) (hon : c.dieOn (dieOf p) = true) (h : c.single p = true) :
    bitAt ((c.peakTrip p k out).get (PWM.TRIPST_ACT p)) 2 = (out && c.peakQualifies p k) := by
  have hpk : peakRegs p (CMP.PKSTAT p) = true := by simp [peakRegs]
  have hst : peakRegs p (PWM.TRIPST p) = true := by simp [peakRegs]
  rw [Chip.peakTrip, if_neg (by simp [hon])]
  dsimp only
  rw [tripEval_act _ _ ?_, bitAt_mod_two_pow _ (by decide), tripInputs_pk, get_put_same _ _ _ rfl]
  · exact (bitAt_mod_two_pow (n := 11) _ (by decide)).trans (bitAt_setBitAt_same _ _ _)
  · exact (single_congr (put (put (put (refl _ c) (CMP.PKSTAT_CMPOUT p) _ hpk) (CMP.PKSTAT_THR p) _ hpk) (PWM.TRIPST_ACT p) _ hst) (peakRegs_ctrl p) p).trans h

/-- Before T_on there is no ramp, and no instant qualifies (R239, R240). -/
theorem peakQualifies_before_turnOn (c : Chip) (p k : Nat) (h : c.single p = true) (hpre : (c.gens.get p).stage = .pre) : c.peakQualifies p k = false := by
  simp [Chip.peakQualifies, peakWindow_of_single h, Chip.rampRuns, hpre]

/-- Generator 2 waits for its window, which begins 64 fine steps into the period; its comparator is not blanked. -/
def beforeTurnOn : State :=
  { chip := { (State.reset.chip.put PWR.DOMSTAT_PX 127).put (CMP.PKCFG_BLANK 2) 0 with gens := Tbl.empty.set 2 { stage := .pre, on := 64, off := 6400 } } }

/-- Refutes O23: its third clause makes the PK input active at any PEAK_CURRENT_TRIP whose tick lies before OFF and past blanking, and does not ask that the output has reached its on-window. Before
T_on the ramp has not begun, the comparator is outside its qualifying interval, and its input is inactive (R239, R240). -/
theorem not_tripsStopTheOutput : ¬ Obligations.TripsStopTheOutput := by
  unfold Obligations.TripsStopTheOutput
  rintro ⟨-, -, qualifies, -⟩
  have hon : beforeTurnOn.chip.dieOn (dieOf 2) = true := by decide +kernel
  have hsingle : beforeTurnOn.chip.single 2 = true := by decide +kernel
  have hshort : beforeTurnOn.chip.genShort 2 = false := by decide +kernel
  have hbegan : (beforeTurnOn.chip.gens.get 2).beganHigh = false := by decide +kernel
  have hpre : (beforeTurnOn.chip.gens.get 2).stage = .pre := by decide +kernel
  have hwindow : beforeTurnOn.chip.tOn 2 + 64 * 0 < (beforeTurnOn.chip.gens.get 2).off := by decide +kernel
  have hblank : min 200 (beforeTurnOn.chip.get (CMP.PKCFG_BLANK 2)) ≤ 0 := by decide +kernel
  have hinput : bitAt ((beforeTurnOn.chip.peakTrip 2 0 true).get (PWM.TRIPST_ACT 2)) 2 = false := by
    rw [peakTrip_pk _ _ _ _ hon hsingle, peakQualifies_before_turnOn _ _ _ hsingle hpre, Bool.and_false]
  obtain ⟨t, ht, -, -, hactive, -⟩ := qualifies beforeTurnOn 2 0 hon hsingle hshort hbegan hwindow hblank
  have hrun : Machine.exec (.peakCurrentTrip 2 0 true) beforeTurnOn = .next { beforeTurnOn with chip := beforeTurnOn.chip.peakTrip 2 0 true } := rfl
  rw [hrun] at ht
  cases ht
  exact absurd (hinput.symm.trans hactive) (by decide)

end Sys2Proof.Machine

namespace Sys2Proof.Machine

/-! A flush that takes the health-map writer past BURSTTH asks for leave, and a commit in progress then shows in CMTST that it waits for that leave (R489, R500). -/

theorem mapQueued_eq_false (c : Chip) (tile : Nat) (h : ∀ j ∈ c.store.jobs, j.kind ≠ .map tile) : c.mapQueued tile = false := by
  simpa [Chip.mapQueued] using h

/-- The chip once the flush of a tile stands last in the port's queue, before the port looks whether it needs leave. -/
def Chip.mapJobQueued (c : Chip) (tile : Nat) : Chip :=
  c.storeUpd fun h => { h with jobs := h.jobs ++ [⟨.map, .map tile, mapLines tile (c.tileBytes tile), c.now⟩] }

/-- A changed tile that is not queued yet joins the queue, and the port looks whether it needs leave (R172, R489). -/
theorem mapFlush_of_changed (c : Chip) (tile : Nat) (hcore : c.coreRuns = true) (hdirty : (c.dirtyTiles.get tile).isSome = true)
    (hnew : ∀ j ∈ c.store.jobs, j.kind ≠ .map tile) : c.mapFlush tile = (c.mapJobQueued tile).burst :=
  if_pos (by simp [hcore, hdirty, mapQueued_eq_false c tile hnew])

/-- While a burst waits for leave, a commit that was writing shows that it waits (R500). -/
theorem cmtWindow_of_asked (c : Chip) (hask : c.store.leave = .asked) (hwrites : c.get TILE.CMTST_STATUS = 3) : c.cmtWindow.get TILE.CMTST_STATUS = 2 := by
  rw [Chip.cmtWindow, if_pos (by simp [hwrites]), get_put_same _ _ _ rfl]
  simp [hask, TILE.CMTST_STATUS]

/-- Lines beyond BURSTTH × 64 ask for leave while the input is ON, and a commit that was writing waits for it (R489, R500). -/
theorem burst_of_due (c : Chip) (hleave : c.store.leave = .none) (hinput : c.inputOn = true) (hdue : c.burstDue = true) (hwrites : c.get TILE.CMTST_STATUS = 3) :
    c.burst.get TILE.CMTST_STATUS = 2 := by
  simp only [Chip.burst, hleave, hinput, hdue, Bool.and_self, if_true]
  exact cmtWindow_of_asked _ rfl hwrites

/-- A flush that takes the health-map writer past BURSTTH makes a commit that was writing wait for leave. -/
theorem healthMapFlush_of_due (s t : State) (tile : Fin 7168) (hcore : s.chip.coreRuns = true) (hdirty : (s.chip.dirtyTiles.get tile.val).isSome = true)
    (hnew : ∀ j ∈ s.chip.store.jobs, j.kind ≠ .map tile.val) (hleave : s.chip.store.leave = .none) (hinput : s.chip.inputOn = true)
    (hdue : (s.chip.mapJobQueued tile.val).burstDue = true) (hwrites : s.chip.get TILE.CMTST_STATUS = 3) (ht : Machine.exec (.healthMapFlush tile) s = .next t) :
    t.chip.get TILE.CMTST_STATUS = 2 := by
  have hrun : Machine.exec (.healthMapFlush tile) s = .next { s with chip := s.chip.mapFlush tile.val } := rfl
  rw [hrun, mapFlush_of_changed _ _ hcore hdirty hnew] at ht
  cases ht
  exact burst_of_due _ hleave hinput hdue hwrites

/-- A commit writes its record in the open window with the input ON, the flushes of 12 tiles wait behind it, 60 lines, and tile 12 has changed. -/
def commitWrites : State :=
  { chip := { (((((State.reset.chip.put PWR.DOMSTAT_CORE 1).put PWR.DOMSTAT_NVM 1).put THM.STAT_WINOPEN 1).put HSW.STAT_STATE 3).put NVM.CFG_BURSTTH 1).put TILE.CMTST_STATUS 3 with
      dirtyTiles := Tbl.empty.set 12 (some ⟨0, false⟩)
      store := { jobs := ⟨.tile, .record, lines journalBase [1], 0⟩ :: (List.range 12).map fun i => ⟨.map, .map i, mapLines i (List.replicate 256 0), 0⟩ } } }

/-- Refutes O25: its last clause keeps every register at a HEALTH_MAP_FLUSH, but a flush whose lines take the health-map writer past BURSTTH × 64 asks for leave, and STATUS of CMTST goes from 3 to 2
when a commit is being written. -/
theorem not_segmentsFollowTheirTable : ¬ Obligations.SegmentsFollowTheirTable := by
  unfold Obligations.SegmentsFollowTheirTable
  rintro ⟨-, -, -, -, -, flushes⟩
  have hcore : commitWrites.chip.coreRuns = true := by decide +kernel
  have hdirty : (commitWrites.chip.dirtyTiles.get 12).isSome = true := by decide +kernel
  have hnew : ∀ j ∈ commitWrites.chip.store.jobs, j.kind ≠ .map 12 := by decide +kernel
  have hwrites : commitWrites.chip.get TILE.CMTST_STATUS = 3 := by decide +kernel
  have hinput : commitWrites.chip.inputOn = true := by decide +kernel
  have hdue : (commitWrites.chip.mapJobQueued 12).burstDue = true := by decide +kernel
  obtain ⟨t, ht, -, -, keeps⟩ := flushes commitWrites 12 hcore hdirty hnew
  have hwaits : t.chip.get TILE.CMTST_STATUS = 2 := healthMapFlush_of_due commitWrites t 12 hcore hdirty hnew rfl hinput hdue hwrites ht
  rw [Chip.get, show TILE.CMTST_STATUS.off = TILE.CMTST from rfl, keeps.regs TILE.CMTST rfl] at hwaits
  exact absurd (hwrites.symm.trans hwaits) (by decide)

end Sys2Proof.Machine

namespace Sys2Proof.Machine

/-! The turns of a lane's clients: three after the one served last (R49, R188). -/

/-- A lane whose turns find no request leaves everything as it is. -/
theorem stageFrame_of_no_turn (c : Chip) (d l ok : Nat) (h : (c.stbLanes.get (4 * d + l)).pick = none) : c.stageFrame d l ok = c := by
  unfold Chip.stageFrame
  dsimp only
  rw [h]
  exact ite_self c

/-- Lane 0 of die 1 is free and holds a RESET of address 0 alone; the client served last has number 3. -/
def turnsPastManager : State :=
  { chip := { State.reset.chip.put PWR.DOMSTAT_PX 1 with stbLanes := Tbl.empty.set 4 { segQ := [.reset 0], last := 3 } } }

/-- Refutes O26: its third clause sends the RESET of every free lane that holds nothing else, whatever client was served last, but the turns are those of `last` + 1 and `last` + 2 modulo 3 and then
`last` itself. With 3 in `last`, a number that the field can hold and that no client has, they are the relay's, the alert service's and the alert service's again: the segment manager's turn does
not come and the RESET stays. (With 5 in `last` a repeat of the alert service has no turn either, against the second clause.) -/
theorem not_stageFramesAreSentAndRepeated : ¬ Obligations.StageFramesAreSentAndRepeated := by
  unfold Obligations.StageFramesAreSentAndRepeated
  rintro ⟨-, -, resets, -⟩
  have hlane : turnsPastManager.chip.stbLanes.get 4 = { segQ := [.reset 0], last := 3 } := by decide +kernel
  have hon : turnsPastManager.chip.dieOn 1 = true := by decide +kernel
  have hfree : turnsPastManager.chip.get (STB.LANE_BUSY 1 0) = 0 := by decide +kernel
  have hturns : (turnsPastManager.chip.stbLanes.get 4).pick = none := by rw [hlane]; rfl
  obtain ⟨t, ht, -, -, -, -, -, hsent, -⟩ :=
    resets turnsPastManager 0 0 0 [] 0 hon hfree (congrArg LaneHw.cur hlane) (congrArg LaneHw.again hlane) (congrArg LaneHw.relay hlane) (congrArg LaneHw.alertQ hlane)
      (congrArg LaneHw.segQ hlane)
  have hrun : Machine.exec (.stageFrameSend 0 0 0) turnsPastManager = .next { turnsPastManager with chip := turnsPastManager.chip.stageFrame 1 0 0 } := rfl
  rw [hrun, stageFrame_of_no_turn _ _ _ _ hturns] at ht
  cases ht
  have hwaits : (turnsPastManager.chip.stbLanes.get 4).segQ = [.reset 0] := congrArg LaneHw.segQ hlane
  exact absurd (hwaits.symm.trans hsent) (by decide)

end Sys2Proof.Machine

namespace Sys2Proof.Machine

/-! Alerts, polls and relayed frames of the stage bus (R196, R199, R205). -/

/-- Fields that do not overlap within a word are apart, whatever their registers. -/
theorem Fld.apart_of_bits (f g : Fld) (h : (decide (f.lo + f.width ≤ g.lo) || decide (g.lo + g.width ≤ f.lo)) = true) : f.apart g = true := by
  rw [Fld.apart, Bool.or_assoc, h, Bool.or_true]

theorem get_event_apart (c : Chip) (flag cnt g : Fld) (i : Nat) (hg : g.fits = true) (hflag : g.apart flag = true) (hcnt : g.apart cnt = true) :
    (c.event flag cnt i).get g = c.get g := by
  rw [Chip.event, get_bell, Chip.inc, Chip.add, get_put_apart _ _ _ _ hg hcnt, Chip.flag, get_put_apart _ _ _ _ hg hflag]

@[simp] theorem get_laneUpd (c : Chip) (k : Nat) (f : LaneHw → LaneHw) (x : Fld) : (c.laneUpd k f).get x = c.get x := rfl

@[simp] theorem laneUpd_lane (c : Chip) (k : Nat) (f : LaneHw → LaneHw) : (c.laneUpd k f).stbLanes.get k = f (c.stbLanes.get k) := Tbl.get_upd_same _ _ _

theorem Recorded.raise {s t : Chip} {flag cnt : Fld} (h : Recorded s t flag cnt) (m : FaultMsg) : Recorded s (t.raise m) flag cnt :=
  h.congr rfl (get_raise t m flag) (get_raise t m cnt)

theorem Recorded.laneUpd {s t : Chip} {flag cnt : Fld} (h : Recorded s t flag cnt) (k : Nat) (f : LaneHw → LaneHw) : Recorded s (t.laneUpd k f) flag cnt :=
  h.congr rfl (get_laneUpd t k f flag) (get_laneUpd t k f cnt)

theorem laneUpd_id (c : Chip) (k : Nat) : c.laneUpd k id = c := by
  rw [Chip.laneUpd, Tbl.upd, id, Tbl.set_get]

/-- A lane changes, and the effect leaves open how the lanes stand. -/
theorem Effect.laneUpd {s t : State} {h : Chip → Chip} {fields : List Fld} {srcs : List Nat} {msgs : List FaultMsg} {outs : List Output}
    (e : Effect s t h fields srcs msgs outs) (k : Nat) (f : LaneHw → LaneHw) :
    Effect s { t with chip := t.chip.laneUpd k f } (fun c => { h c with stbLanes := (t.chip.laneUpd k f).stbLanes }) fields srcs msgs outs :=
  e.innerStep (fun c => { c with stbLanes := (t.chip.laneUpd k f).stbLanes }) rfl rfl rfl rfl rfl
    (congrArg (fun c => { c with stbLanes := (t.chip.laneUpd k f).stbLanes }) e.inner)

/-- The stage at an address of a lane is present when its STATE says so (R203). -/
theorem stagePresent_stagePhase (c : Chip) (d : Nat) (l : Fin 4) (a : Nat) (ha : a < 8) :
    c.stagePresent (stagePhase (d + 1) l.val a) = (c.get (STB.STG_STATE (d + 1) (8 * l.val + a)) == 2) := by
  have hdie : dieOf (stagePhase (d + 1) l.val a) = d + 1 := by simp only [dieOf, stagePhase]; omega
  have hplace : stagePhase (d + 1) l.val a % 32 = 8 * l.val + a := by simp only [stagePhase]; omega
  rw [Chip.stagePresent, hdie, hplace]

/-! The alert line (R196). -/

/-- The alert service may queue a read on its lane, and changes nothing else. -/
theorem alertNext_eq (c : Chip) (d l : Nat) : ∃ f : LaneHw → LaneHw, c.alertNext d l = c.laneUpd (4 * d + l) f ∧ ∀ q, (f q).quiet = q.quiet := by
  unfold Chip.alertNext
  dsimp only
  split
  · exact ⟨id, (laneUpd_id _ _).symm, fun _ => rfl⟩
  · split
    · exact ⟨id, (laneUpd_id _ _).symm, fun _ => rfl⟩
    · exact ⟨_, rfl, fun _ => rfl⟩

/-- The order in which the alert service looks comes to every address. -/
theorem mem_alertOrder (rr a : Nat) (ha : a < 8) : a ∈ (List.range 8).map fun j => (rr + 1 + j) % 8 :=
  List.mem_map.2 ⟨(a + 8 - (rr + 1) % 8) % 8, List.mem_range.2 (Nat.mod_lt _ (by decide)), by omega⟩

/-- A request waits on the lane, waits for its repeat or is on its way. -/
def LaneHw.serving (q : LaneHw) : Prop := q.alertQ ≠ [] ∨ q.again ≠ [] ∨ q.cur ≠ none

/-- With its line low and not ignored, and a stage present, the alert service has a read on its way. -/
theorem alertNext_serving (c : Chip) (d l a : Nat) (halert : c.alerted d l = true) (ha : a < 8) (hpresent : c.stagePresent (stagePhase d l a) = true) :
    ((c.alertNext d l).stbLanes.get (4 * d + l)).serving := by
  unfold Chip.alertNext LaneHw.serving
  dsimp only
  split
  · next hown =>
    simp only [halert, Bool.not_true, Bool.false_or, Bool.or_eq_true] at hown
    rcases hown with (hqueue | hagain) | hcur
    · exact .inl fun h => by simp [h] at hqueue
    · exact .inr (.inl fun h => by simp [h] at hagain)
    · exact .inr (.inr fun h => by simp [h] at hcur)
  · split
    · next hnone => exact absurd hpresent (List.find?_eq_none.1 hnone a (mem_alertOrder _ a ha))
    · exact .inl (by simp)

/-- The alert line of a lane goes low: ALERT shows it, and a new round begins. -/
def Chip.alertLow (c : Chip) (d l : Nat) : Chip := (c.put (STB.LANE_ALERT d l) 1).laneUpd (4 * d + l) fun q => { q with quiet := 0 }

theorem stageAlert_eq (c : Chip) (d l : Nat) (hon : c.dieOn d = true) (hhigh : c.get (STB.LANE_ALERT d l) = 0) : c.stageAlert d l = (c.alertLow d l).alertNext d l :=
  if_neg (by simp [hon, Chip.bit, hhigh])

theorem alertLow_alert (c : Chip) (d l : Nat) : (c.alertLow d l).get (STB.LANE_ALERT d l) = 1 := get_put_same c (STB.LANE_ALERT d l) 1 rfl

theorem alertLow_alerted (c : Chip) (d l : Nat) (hheard : c.get (STB.LANE_ALIGN d l) = 0) : (c.alertLow d l).alerted d l = true := by
  have halign : (c.alertLow d l).get (STB.LANE_ALIGN d l) = 0 := (get_put_apart c _ _ 1 rfl (Fld.apart_of_bits _ _ rfl)).trans hheard
  simp [Chip.alerted, Chip.bit, alertLow_alert, halign]

/-- The line leaves the stages' own registers as they are. -/
theorem alertLow_present (c : Chip) (d : Nat) (l : Fin 4) (a : Nat) (ha : a < 8) (hstage : c.get (STB.STG_STATE (d + 1) (8 * l.val + a)) = 2) :
    (c.alertLow (d + 1) l.val).stagePresent (stagePhase (d + 1) l.val a) = true := by
  have hplace : STB.STG (d + 1) (8 * l.val + a) ≠ STB.LANE (d + 1) l.val := by simp only [STB.STG, STB.LANE]; omega
  have hstate : (c.alertLow (d + 1) l.val).get (STB.STG_STATE (d + 1) (8 * l.val + a)) = 2 :=
    (get_put_apart c _ _ 1 rfl (Fld.apart_of_off_ne _ _ hplace)).trans hstage
  rw [stagePresent_stagePhase _ _ _ _ ha, hstate]
  rfl

/-- The alert service drops its own status reads and begins a new round; the periodic ones stay (R196). -/
def LaneHw.alertEnded (q : LaneHw) : LaneHw := { q with quiet := 0, alertQ := q.alertQ.filter fun j => match j with | .stat _ false => false | _ => true }

theorem alertRelease_eq (c : Chip) (d l : Nat) : c.alertRelease d l = ((c.put (STB.LANE_ALERT d l) 0).put (STB.LANE_ALIGN d l) 0).laneUpd (4 * d + l) LaneHw.alertEnded := rfl

theorem alertRelease_fields (c : Chip) (d l : Nat) : (c.alertRelease d l).get (STB.LANE_ALERT d l) = 0 ∧ (c.alertRelease d l).get (STB.LANE_ALIGN d l) = 0 := by
  have hapart : (STB.LANE_ALERT d l).apart (STB.LANE_ALIGN d l) = true := Fld.apart_of_bits _ _ rfl
  rw [alertRelease_eq, get_laneUpd, get_laneUpd, get_put_apart _ _ _ _ rfl hapart, get_put_same _ _ _ rfl, get_put_same _ _ _ rfl, Nat.zero_mod, Nat.zero_mod]
  exact ⟨rfl, rfl⟩

/-- ALIGN shows that the line is ignored, and the event is recorded. -/
def Chip.stuckTold (c : Chip) (d l : Nat) : Chip := (c.put (STB.LANE_ALIGN d l) 1).event (STB.EVT_STUCKF d) (STB.EVTCNT_STUCKCNT d) (srcStb d)

/-- A line that no stage gives a reason for is ignored, which the collector is told. -/
def Chip.stuckIgnored (c : Chip) (d l : Nat) : Chip := ((c.stuckTold d l).raise ⟨0x2141, 4 * (d - 1) + l, 0⟩).laneUpd (4 * d + l) LaneHw.alertEnded

theorem alertStuck_eq (c : Chip) (d l : Nat) (hon : c.dieOn d = true) (hlow : c.get (STB.LANE_ALERT d l) = 1) (hheard : c.get (STB.LANE_ALIGN d l) = 0)
    (hstages : c.lanePresent d l ≠ []) (hrounds : orOne (c.get (STB.CFG_ALSTUCK d)) * (c.lanePresent d l).length ≤ (c.stbLanes.get (4 * d + l)).quiet) :
    c.alertStuck d l = c.stuckIgnored d l :=
  if_pos (by simp [hon, Chip.bit, hlow, hheard, hstages, hrounds])

/-- The register of a lane lies apart from the events of its die. -/
theorem laneReg_apart (d l : Nat) (hl : l < 4) : STB.LANE d l ≠ STB.EVT d ∧ STB.LANE d l ≠ STB.EVTCNT d := by
  simp only [STB.LANE, STB.EVT, STB.EVTCNT]
  omega

theorem stuckIgnored_align (c : Chip) (d l : Nat) (hl : l < 4) : (c.stuckIgnored d l).get (STB.LANE_ALIGN d l) = 1 := by
  obtain ⟨hevt, hcnt⟩ := laneReg_apart d l hl
  rw [Chip.stuckIgnored, get_laneUpd, get_raise, Chip.stuckTold, get_event_apart _ _ _ _ _ rfl (Fld.apart_of_off_ne _ _ hevt) (Fld.apart_of_off_ne _ _ hcnt), get_put_same _ _ _ rfl]
  rfl

theorem stuckIgnored_recorded (c : Chip) (d l : Nat) (hl : l < 4) : Recorded c (c.stuckIgnored d l) (STB.EVT_STUCKF d) (STB.EVTCNT_STUCKCNT d) := by
  obtain ⟨-, hcnt⟩ := laneReg_apart d l hl
  have hevents : STB.EVT d ≠ STB.EVTCNT d := by simp only [STB.EVT, STB.EVTCNT]; omega
  have hevent := recorded_event (c.put (STB.LANE_ALIGN d l) 1) (STB.EVT_STUCKF d) (STB.EVTCNT_STUCKCNT d) (srcStb d) rfl rfl (Fld.apart_of_off_ne _ _ hevents)
    (Fld.apart_of_off_ne _ _ hevents.symm) rfl
  have htold : Recorded c (c.stuckTold d l) (STB.EVT_STUCKF d) (STB.EVTCNT_STUCKCNT d) :=
    hevent.congr (get_put_apart _ _ _ _ rfl (Fld.apart_of_off_ne _ _ hcnt.symm)).symm rfl rfl
  exact (htold.raise _).laneUpd _ _

theorem effect_stuckIgnored (s : State) (d l : Nat) : Effect s { s with chip := s.chip.stuckIgnored (d + 1) l } (fun c => { c with stbLanes := (s.chip.stuckIgnored (d + 1) l).stbLanes })
    [STB.LANE_ALIGN (d + 1) l, STB.EVT_STUCKF (d + 1), STB.EVTCNT_STUCKCNT (d + 1)] [0x440 + 0x80 * d] [⟨0x2141, 4 * d + l, 0⟩] [] :=
  ((((Effect.start s).put _ _).event _ _ _).raise _).laneUpd _ _

theorem stagePoll_eq (c : Chip) (p : Nat) (hon : c.dieOn (dieOf p) = true) (hpresent : c.stagePresent p = true)
    (hdue : c.pollDue.get p + 10 * orOne (c.get (STB.CFG_POLLINT (dieOf p))) ≤ c.now) :
    c.stagePoll p = { c with pollDue := c.pollDue.set p c.now }.laneUpd (laneOf p) fun q => { q with alertQ := q.alertQ ++ [StbJob.stat (p % 8) true] } :=
  if_pos (by simp [hon, hpresent, hdue])

/-! A write of RLYCTL with GO (R199, R205). -/

/-- RLYCTL takes OP, LEN, LANE and ADDR, bits 8 to 23, locked or not; DONEF is its one flag, and CNTCLR clears its counter. -/
theorem rlyctl_row : ∀ d : DieId, STB.RLYCTL (d.val + 1) % 4 = 0 ∧ inMailbox (STB.RLYCTL (d.val + 1)) = false ∧ inMsix (STB.RLYCTL (d.val + 1)) = false ∧
    (regAt (STB.RLYCTL (d.val + 1))).isSome = true ∧ accMask (STB.RLYCTL (d.val + 1)) (· == .rw) = fieldMask 8 16 ∧ pairMask (STB.RLYCTL (d.val + 1)) = fieldMask 8 16 ∧
    lockMask (STB.RLYCTL (d.val + 1)) = 0 ∧ accMask (STB.RLYCTL (d.val + 1)) (· == .w1c) = fieldMask 2 1 ∧
    cntClears (STB.RLYCTL (d.val + 1)) = some (3, [STB.RLYCTL_RLYCNT (d.val + 1)]) := by decide +kernel

/-- RLYCTL's place in the windows of the dies. -/
theorem rlyctl_place (d : DieId) : dieWindow ≤ STB.RLYCTL (d.val + 1) ∧ (STB.RLYCTL (d.val + 1) - dieWindow) % 0x20000 = 0x3100 ∧
    (STB.RLYCTL (d.val + 1) - dieWindow) / 0x20000 = d.val := by
  have hoff : STB.RLYCTL (d.val + 1) = 0x100000 + d.val * 0x20000 + 0x3100 := rfl
  have hwin : dieWindow = 0x100000 := rfl
  omega

/-- The fields that a relay command carries to RLYCTL. -/
structure RelayArgs where
  op : Fin 16
  len : Fin 64
  lane : Fin 4
  addr : Fin 16

/-- A word with a command's fields in RLYCTL's places. -/
def RelayArgs.into (r : RelayArgs) (w : Word) : Word := wordPut (wordPut (wordPut (wordPut w 20 4 r.op.val) 14 6 r.len.val) 12 2 r.lane.val) 8 4 r.addr.val

/-- The four fields fill the bits that RLYCTL takes. -/
theorem RelayArgs.into_getLsbD (r : RelayArgs) (v w : Word) (i : Nat) (hi : 8 ≤ i ∧ i < 24) : (r.into v).getLsbD i = (r.into w).getLsbD i := by
  simp only [RelayArgs.into, wordPut_getLsbD _ _ _ _ i (by omega : i < 32)]
  split_ifs <;> [rfl; rfl; rfl; rfl; omega]

/-- Beside them the word is as it was. -/
theorem RelayArgs.into_getLsbD_apart (r : RelayArgs) (w : Word) (i : Nat) (h32 : i < 32) (hi : i < 8 ∨ 24 ≤ i) : (r.into w).getLsbD i = w.getLsbD i := by
  simp only [RelayArgs.into, wordPut_getLsbD _ _ _ _ i h32]
  rw [if_neg (by omega), if_neg (by omega), if_neg (by omega), if_neg (by omega)]

/-- What the command writes: the fields with GO, beside the present values of what RLYCTL takes. -/
def RelayArgs.written (r : RelayArgs) (c : Chip) (d : Nat) : Word := wordPut (r.into (c.carry (STB.RLYCTL d))) 0 1 1

/-- Below the fields, the word written has GO alone. -/
theorem written_low (r : RelayArgs) (c : Chip) (d : DieId) (i : Nat) (hi : i < 8) : (r.written c (d.val + 1)).getLsbD i = decide (i = 0) := by
  obtain ⟨-, -, -, -, -, hpair, -⟩ := rlyctl_row d
  rw [RelayArgs.written, wordPut_getLsbD _ _ _ _ _ (by omega)]
  split_ifs with hgo
  · have hzero : i = 0 := by omega
    subst hzero
    rfl
  · rw [r.into_getLsbD_apart _ _ (by omega) (.inl hi), Chip.carry, hpair, BitVec.getLsbD_and, fieldMask_getLsbD _ _ _ (by omega),
      decide_eq_false (by omega : ¬8 ≤ i), decide_eq_false (by omega : i ≠ 0), Bool.false_and, Bool.and_false]

/-- The device takes a relay command's fields. -/
def Chip.relayTaken (c : Chip) (d : Nat) (r : RelayArgs) : Chip :=
  (((c.put (STB.RLYCTL_OP d) r.op.val).put (STB.RLYCTL_LEN d) r.len.val).put (STB.RLYCTL_LANE d) r.lane.val).put (STB.RLYCTL_ADDR d) r.addr.val

theorem setReg_setReg (c : Chip) (o : Nat) (v w : Word) : (c.setReg o v).setReg o w = c.setReg o w := by
  have hset : (c.regs.set o v).set o w = c.regs.set o w := Tbl.ext_get _ _ fun k => by
    simp only [Tbl.get_set]
    split <;> rfl
  simp only [Chip.setReg, hset]

theorem relayTaken_eq (c : Chip) (d : Nat) (r : RelayArgs) : c.relayTaken d r = c.setReg (STB.RLYCTL d) (r.into (c.reg (STB.RLYCTL d))) := by
  simp only [Chip.relayTaken, Chip.put, STB.RLYCTL_OP, STB.RLYCTL_LEN, STB.RLYCTL_LANE, STB.RLYCTL_ADDR, reg_setReg_same, setReg_setReg]
  rfl

/-- RLYCTL keeps the bits it does not take, and takes the fields of the word written. -/
theorem into_reg (r : RelayArgs) (c : Chip) (d : Nat) :
    c.reg (STB.RLYCTL d) &&& ~~~fieldMask 8 16 ||| r.written c d &&& fieldMask 8 16 = r.into (c.reg (STB.RLYCTL d)) := by
  apply BitVec.eq_of_getLsbD_eq
  intro i hi
  rw [BitVec.getLsbD_or, BitVec.getLsbD_and, BitVec.getLsbD_and, BitVec.getLsbD_not, fieldMask_getLsbD _ _ _ hi]
  by_cases hin : 8 ≤ i ∧ i < 24
  · rw [r.into_getLsbD (c.reg (STB.RLYCTL d)) (c.carry (STB.RLYCTL d)) i hin, RelayArgs.written, wordPut_getLsbD _ _ _ _ _ hi, if_neg (by omega)]
    simp [hi, hin]
  · rw [r.into_getLsbD_apart _ _ hi (by omega)]
    have hout : (decide (8 ≤ i) && decide (i < 8 + 16)) = false := by simp; omega
    simp [hi, hout]

theorem regPut_rlyctl (c : Chip) (d : DieId) (w : Word) : c.regPut (STB.RLYCTL (d.val + 1)) w = c.setReg (STB.RLYCTL (d.val + 1)) w := by
  obtain ⟨hwin, hrel, -⟩ := rlyctl_place d
  simp only [Chip.regPut, Chip.dieTouched, hwin, if_true, hrel]
  by_cases hw : w = c.reg (STB.RLYCTL (d.val + 1))
  · subst hw
    simp
  · simp [hw]

theorem fieldWrite_rlyctl (c : Chip) (d : DieId) (r : RelayArgs) : c.fieldWrite (STB.RLYCTL (d.val + 1)) (r.written c (d.val + 1)) = c.relayTaken (d.val + 1) r := by
  obtain ⟨-, -, -, -, hrw, hpair, hlock, hflags, -⟩ := rlyctl_row d
  have hmask : c.writeMask (STB.RLYCTL (d.val + 1)) = fieldMask 8 16 := by rw [Chip.writeMask, hrw, hpair, ite_self]
  have hlocked : (c.reg (STB.RLYCTL (d.val + 1)) ^^^ r.written c (d.val + 1)) &&& lockMask (STB.RLYCTL (d.val + 1)) = 0 := by rw [hlock]; exact BitVec.and_zero
  have hcleared : accMask (STB.RLYCTL (d.val + 1)) (· == .w1c) &&& r.written c (d.val + 1) = 0 := by
    rw [hflags]
    apply BitVec.eq_of_getLsbD_eq
    intro i hi
    rw [BitVec.getLsbD_and, fieldMask_getLsbD _ _ _ hi]
    by_cases hbit : i = 2
    · rw [written_low r c d i (by omega)]
      simp [hbit]
    · have hout : (decide (2 ≤ i) && decide (i < 2 + 1)) = false := by simp; omega
      simp [hout]
  simp only [Chip.fieldWrite, hlocked, hcleared, hmask, bne_self_eq_false, Bool.and_false, Bool.false_eq_true, if_false, if_true]
  rw [if_neg (by decide), regPut_rlyctl, into_reg, relayTaken_eq]

/-- GO relays what the fields then say. -/
theorem busWrite_rlyctl (c : Chip) (m : List Host.Cell) (req : Requester) (d : DieId) (r : RelayArgs) (b : Bool) (h : c.reaches req (STB.RLYCTL (d.val + 1)) = true) :
    c.busWrite m req (STB.RLYCTL (d.val + 1)) (r.written c (d.val + 1)) b = (c.relayTaken (d.val + 1) r).relaySend (d.val + 1) := by
  obtain ⟨halign, hbox, hmsix, hknown, -, -, -, -, hcnt⟩ := rlyctl_row d
  obtain ⟨hwin, hrel, hdie⟩ := rlyctl_place d
  have hclear : bitAt (r.written c (d.val + 1)).toNat 3 = false := by
    have hbit := written_low r c d 3 (by decide)
    rwa [BitVec.getLsbD, Nat.testBit_eq_decide_div_mod_eq, ← beq_eq_decide] at hbit
  have hgo : (r.written c (d.val + 1)).getLsbD 0 = true := written_low r c d 0 (by decide)
  rw [busWrite_reaches _ _ _ _ _ _ h halign hbox hmsix hknown, Chip.regWrite, fieldWrite_rlyctl, Chip.cntClear, hcnt]
  dsimp only
  rw [hclear, Chip.regOps, if_pos hwin, Chip.dieOps]
  simp [hrel, hdie, hgo]

theorem exec_relaySend (s : State) (req : Requester) (d : DieId) (r : RelayArgs) (h : s.chip.reaches req (STB.RLYCTL (d.val + 1)) = true) :
    Machine.exec (.relaySend req d r.op r.len r.lane r.addr) s = .next { s with chip := (s.chip.relayTaken (d.val + 1) r).relaySend (d.val + 1) } := by
  have hrun : Machine.exec (.relaySend req d r.op r.len r.lane r.addr) s =
      .next { s with chip := s.chip.busWrite s.nvm req (STB.RLYCTL (d.val + 1)) (r.written s.chip (d.val + 1)) true } := rfl
  rw [hrun, busWrite_rlyctl _ _ _ _ _ _ h]

theorem Effect.relayTaken (s : State) (d : Nat) (r : RelayArgs) :
    Effect s { s with chip := s.chip.relayTaken d r } id [STB.RLYCTL_OP d, STB.RLYCTL_LEN d, STB.RLYCTL_LANE d, STB.RLYCTL_ADDR d] [] [] [] :=
  ((((Effect.start s).put _ _).put _ _).put _ _).put _ _

theorem relayTaken_onlyIn (c : Chip) (d : Nat) (r : RelayArgs) : c.OnlyIn (· == STB.RLYCTL d) (c.relayTaken d r) := by
  rw [relayTaken_eq]
  exact (Chip.OnlyIn.refl _ c).setReg _ _ (beq_self_eq_true _)

/-- The fields read as they were taken, and STATUS as before. -/
theorem relayTaken_fields (c : Chip) (d : Nat) (r : RelayArgs) : (c.relayTaken d r).get (STB.RLYCTL_OP d) = r.op.val ∧
    (c.relayTaken d r).get (STB.RLYCTL_LEN d) = r.len.val ∧ (c.relayTaken d r).get (STB.RLYCTL_LANE d) = r.lane.val ∧
    (c.relayTaken d r).get (STB.RLYCTL_ADDR d) = r.addr.val ∧ (c.relayTaken d r).get (STB.RLYCTL_STATUS d) = c.get (STB.RLYCTL_STATUS d) := by
  unfold Chip.relayTaken
  refine ⟨?_, ?_, ?_, ?_, ?_⟩
  · rw [get_put_apart _ _ _ _ rfl (Fld.apart_of_bits _ _ rfl), get_put_apart _ _ _ _ rfl (Fld.apart_of_bits _ _ rfl),
      get_put_apart _ _ _ _ rfl (Fld.apart_of_bits _ _ rfl), get_put_same _ _ _ rfl]
    exact Nat.mod_eq_of_lt r.op.isLt
  · rw [get_put_apart _ _ _ _ rfl (Fld.apart_of_bits _ _ rfl), get_put_apart _ _ _ _ rfl (Fld.apart_of_bits _ _ rfl), get_put_same _ _ _ rfl]
    exact Nat.mod_eq_of_lt r.len.isLt
  · rw [get_put_apart _ _ _ _ rfl (Fld.apart_of_bits _ _ rfl), get_put_same _ _ _ rfl]
    exact Nat.mod_eq_of_lt r.lane.isLt
  · rw [get_put_same _ _ _ rfl]
    exact Nat.mod_eq_of_lt r.addr.isLt
  · rw [get_put_apart _ _ _ _ rfl (Fld.apart_of_bits _ _ rfl), get_put_apart _ _ _ _ rfl (Fld.apart_of_bits _ _ rfl),
      get_put_apart _ _ _ _ rfl (Fld.apart_of_bits _ _ rfl), get_put_apart _ _ _ _ rfl (Fld.apart_of_bits _ _ rfl)]

/-- The stage that a relay command names is present. -/
def Chip.relayTo (c : Chip) (d : Nat) (r : RelayArgs) : Bool := decide (r.addr.val < 8) && c.get (STB.STG_STATE d (8 * r.lane.val + r.addr.val)) == 2

/-- The request that a relay command makes: its payload is RLYREQ cut to LEN (R199; log entry 198). -/
def RelayArgs.job (r : RelayArgs) (c : Chip) (d : Nat) : StbJob :=
  .relay r.addr.val r.op.val (((List.range 9).flatMap fun k => bytesLE 4 (c.reg (STB.RLYREQ d k)).toNat).take r.len.val)

theorem relaySend_busy (c : Chip) (d : Nat) (r : RelayArgs) (hbusy : c.get (STB.RLYCTL_STATUS d) = 1) : (c.relayTaken d r).relaySend d = c.relayTaken d r := by
  obtain ⟨-, -, -, -, hstatus⟩ := relayTaken_fields c d r
  exact if_pos (by rw [hstatus, hbusy]; rfl)

/-- An operation that is not relayed is refused with STATUS 4 (R199, R205; log entry 77). -/
theorem relaySend_refused (c : Chip) (d : Nat) (r : RelayArgs) (hfree : c.get (STB.RLYCTL_STATUS d) ≠ 1) (hop : relayable r.op.val = false) :
    (c.relayTaken d r).relaySend d = (c.relayTaken d r).put (STB.RLYCTL_STATUS d) 4 := by
  obtain ⟨hrop, -, -, -, hstatus⟩ := relayTaken_fields c d r
  rw [Chip.relaySend, if_neg (by simp [hstatus, hfree])]
  dsimp only
  rw [if_pos (by simp [hrop, hop])]

/-- A relay command that has been taken finds no stage exactly when none was present at its address. -/
theorem relayTaken_absent (c : Chip) (d : Nat) (r : RelayArgs) :
    (decide (7 < r.addr.val) || !(c.relayTaken (d + 1) r).stagePresent (stagePhase (d + 1) r.lane.val r.addr.val)) = !c.relayTo (d + 1) r := by
  by_cases haddr : r.addr.val < 8
  · have hplace : STB.STG (d + 1) (8 * r.lane.val + r.addr.val) ≠ STB.RLYCTL (d + 1) := by simp only [STB.STG, STB.RLYCTL]; omega
    have hstate := (relayTaken_onlyIn c (d + 1) r).get (STB.STG_STATE (d + 1) (8 * r.lane.val + r.addr.val)) (beq_eq_false_iff_ne.2 hplace)
    rw [Chip.relayTo, stagePresent_stagePhase _ _ _ _ haddr, hstate, decide_eq_true haddr, decide_eq_false (by omega), Bool.true_and, Bool.false_or]
  · rw [Chip.relayTo, decide_eq_false haddr, decide_eq_true (by omega), Bool.true_or, Bool.false_and, Bool.not_false]

/-- With no present stage at its address, a relayed frame is not sent, and STATUS is 5 (R199, R205; log entry 77). -/
theorem relaySend_absent (c : Chip) (d : Nat) (r : RelayArgs) (hfree : c.get (STB.RLYCTL_STATUS (d + 1)) ≠ 1) (hop : relayable r.op.val = true)
    (habsent : c.relayTo (d + 1) r = false) : (c.relayTaken (d + 1) r).relaySend (d + 1) = (c.relayTaken (d + 1) r).put (STB.RLYCTL_STATUS (d + 1)) 5 := by
  obtain ⟨hrop, -, hlane, haddr, hstatus⟩ := relayTaken_fields c (d + 1) r
  rw [Chip.relaySend, if_neg (by simp [hstatus, hfree])]
  dsimp only
  rw [hrop, hlane, haddr, if_neg (by simp [hop]), if_pos (by rw [relayTaken_absent, habsent]; rfl)]

/-- A relayed frame to a present stage waits for its lane (R199). -/
theorem relaySend_sent (c : Chip) (d : Nat) (r : RelayArgs) (hfree : c.get (STB.RLYCTL_STATUS (d + 1)) ≠ 1) (hop : relayable r.op.val = true) (hpoll : r.op.val ≠ 0)
    (hpresent : c.relayTo (d + 1) r = true) : (c.relayTaken (d + 1) r).relaySend (d + 1) =
      ((c.relayTaken (d + 1) r).put (STB.RLYCTL_STATUS (d + 1)) 1).laneUpd (4 * (d + 1) + r.lane.val) fun q => { q with relay := some (r.job c (d + 1)) } := by
  obtain ⟨hrop, hlen, hlane, haddr, hstatus⟩ := relayTaken_fields c (d + 1) r
  have hdata (k : Nat) : (c.relayTaken (d + 1) r).reg (STB.RLYREQ (d + 1) k) = c.reg (STB.RLYREQ (d + 1) k) :=
    (relayTaken_onlyIn c (d + 1) r).same _ (beq_eq_false_iff_ne.2 (by simp only [STB.RLYREQ, STB.RLYCTL]; omega))
  rw [Chip.relaySend, if_neg (by simp [hstatus, hfree])]
  dsimp only
  rw [hrop, hlane, haddr, hlen, if_neg (by simp [hop]), if_neg (by rw [relayTaken_absent, hpresent]; decide)]
  simp only [hdata]
  split
  · next hzero _ => exact absurd hzero hpoll
  · rfl

/-- The operations that R199 relays, and those that it refuses. -/
theorem relayable_of_mem (op : Nat) (h : op ∈ [0, 1, 6, 8, 9, 10, 11, 12, 13]) : relayable op = true :=
  (by decide : ∀ op ∈ [0, 1, 6, 8, 9, 10, 11, 12, 13], relayable op = true) op h

theorem not_relayable_of_mem (op : Nat) (h : op ∈ [2, 3, 4, 5, 7, 14, 15]) : relayable op = false :=
  (by decide : ∀ op ∈ [2, 3, 4, 5, 7, 14, 15], relayable op = false) op h

theorem get_put_status (c : Chip) (d v : Nat) (hv : v < 16) : (c.put (STB.RLYCTL_STATUS d) v).get (STB.RLYCTL_STATUS d) = v :=
  (get_put_same c _ _ rfl).trans (Nat.mod_eq_of_lt hv)

/-- Settles O28: each command is a few named operations on its registers and one update of its lane, and a relay command takes its four fields before STATUS answers it. -/
theorem stageAlertsPollsAndRelays : Obligations.StageAlertsPollsAndRelays := by
  unfold Obligations.StageAlertsPollsAndRelays
  refine ⟨fun s d lane hon hhigh => ?_, fun s p hon hpresent hdue => ?_, fun s d lane hon hlow hheard hstages hrounds => ?_, fun s d lane => ?_,
    fun s req d op len lane addr h hfree hop haddr hpresent => ?_, fun s req d op len lane addr h hfree hop => ?_,
    fun s req d op len lane addr h hfree hop habsent => ?_, fun s req d op len lane addr h hbusy => ?_⟩
  · have hrun : Machine.exec (.stageAlert d lane) s = .next { s with chip := s.chip.stageAlert (d.val + 1) lane.val } := rfl
    obtain ⟨f, hf, hquiet⟩ := alertNext_eq (s.chip.alertLow (d.val + 1) lane.val) (d.val + 1) lane.val
    rw [hrun, stageAlert_eq _ _ _ hon hhigh]
    refine ⟨_, rfl, ?_, ?_, ?_, ?_⟩
    · rw [hf]
      exact alertLow_alert s.chip _ _
    · rw [hf, laneUpd_lane, hquiet, Chip.alertLow, laneUpd_lane]
    · rintro ⟨a, ha, hstage⟩ hheard
      have haddr : a < 8 := List.mem_range.1 ha
      exact alertNext_serving _ _ _ a (alertLow_alerted _ _ _ hheard) haddr (alertLow_present _ _ _ _ haddr hstage)
    · rw [hf]
      exact (((Effect.start s).put _ _).laneUpd _ _).laneUpd _ _
  · have hrun : Machine.exec (.stagePoll p) s = .next { s with chip := s.chip.stagePoll p.val } := rfl
    rw [hrun, stagePoll_eq _ _ hon (beq_iff_eq.2 hpresent) hdue]
    exact ⟨_, rfl, by rw [laneUpd_lane], Tbl.get_set_same _ _ _,
      ((Effect.start s).innerStep (fun c => { c with pollDue := c.pollDue.set p.val c.now }) rfl rfl rfl rfl rfl rfl).laneUpd _ _⟩
  · have hrun : Machine.exec (.alertStuck d lane) s = .next { s with chip := s.chip.alertStuck (d.val + 1) lane.val } := rfl
    rw [hrun, alertStuck_eq _ _ _ hon hlow hheard hstages hrounds]
    exact ⟨_, rfl, stuckIgnored_align s.chip _ _ lane.isLt, stuckIgnored_recorded s.chip _ _ lane.isLt, effect_stuckIgnored s d.val lane.val⟩
  · have hrun : Machine.exec (.alertLineRelease d lane) s = .next { s with chip := s.chip.alertRelease (d.val + 1) lane.val } := rfl
    obtain ⟨halert, halign⟩ := alertRelease_fields s.chip (d.val + 1) lane.val
    exact ⟨_, hrun, halert, halign, (((Effect.start s).put _ _).put _ _).laneUpd _ _⟩
  · have hto : s.chip.relayTo (d.val + 1) ⟨op, len, lane, addr⟩ = true := by simp [Chip.relayTo, haddr, hpresent]
    have hpoll : op.val ≠ 0 := by rintro hzero; simp [hzero] at hop
    rw [exec_relaySend s req d ⟨op, len, lane, addr⟩ h, relaySend_sent _ _ _ hfree (relayable_of_mem _ (List.mem_cons_of_mem _ hop)) hpoll hto]
    exact ⟨_, rfl, by rw [get_laneUpd, get_put_status _ _ 1 (by decide)], by rw [laneUpd_lane]; rfl, ((Effect.relayTaken s _ _).put _ _).laneUpd _ _⟩
  · rw [exec_relaySend s req d ⟨op, len, lane, addr⟩ h, relaySend_refused _ _ _ hfree (not_relayable_of_mem _ hop)]
    exact ⟨_, rfl, get_put_status _ _ 4 (by decide), (Effect.relayTaken s _ _).put _ _⟩
  · have hto : s.chip.relayTo (d.val + 1) ⟨op, len, lane, addr⟩ = false := by
      rcases habsent with haddr | hstate
      · simp [Chip.relayTo, haddr]
      · simp [Chip.relayTo, hstate]
    rw [exec_relaySend s req d ⟨op, len, lane, addr⟩ h, relaySend_absent _ _ _ hfree (relayable_of_mem _ hop) hto]
    exact ⟨_, rfl, get_put_status _ _ 5 (by decide), (Effect.relayTaken s _ _).put _ _⟩
  · rw [exec_relaySend s req d ⟨op, len, lane, addr⟩ h, relaySend_busy _ _ _ hbusy]
    obtain ⟨-, -, -, -, hstatus⟩ := relayTaken_fields s.chip (d.val + 1) ⟨op, len, lane, addr⟩
    exact ⟨_, rfl, hstatus.trans hbusy, Effect.relayTaken s _ _⟩

end Sys2Proof.Machine

namespace Sys2Proof.Machine

/-! The registers of a sequenced converter, and how a write gets to them (R219, R503, R505). -/

theorem sqReg_ne (x : Nat) {a b : Nat} (h : a ≠ b) : sqBase x + a ≠ sqBase x + b := by omega

/-- Fields in different registers of a converter are apart. -/
theorem sqFld_apart (x : Nat) {a b : Nat} (lo width lo' width' : Nat) (h : a ≠ b) : Fld.apart ⟨sqBase x + a, lo, width⟩ ⟨sqBase x + b, lo', width'⟩ = true :=
  Fld.apart_of_off_ne _ _ (sqReg_ne x h)

theorem sqBase_hub {x : Nat} (h : x < 2) : sqBase x = 0x1d000 + 0x400 * x := if_pos h

theorem sqBase_die {x : Nat} (h : ¬x < 2) : sqBase x = 0x105000 + 0x20000 * (x - 2) := by
  have hwin : dieWindow = 0x100000 := rfl
  simp only [sqBase, if_neg h, dieBase]
  omega

/-- No view follows a register of a converter: a write of its fields sets the word alone. -/
theorem regPut_sq (c : Chip) (x : SqId) (rel : Nat) (hrel : rel < 0x1ac) (w : Word) : c.regPut (sqBase x.val + rel) w = c.setReg (sqBase x.val + rel) w := by
  have hwin : dieWindow = 0x100000 := rfl
  have hx := x.isLt
  have hsame : (if w = c.reg (sqBase x.val + rel) then c else c.setReg (sqBase x.val + rel) w) = c.setReg (sqBase x.val + rel) w := by
    split_ifs with hw
    · rw [hw, setReg_same]
    · rfl
  rw [← hsame]
  unfold Chip.regPut
  by_cases hhub : x.val < 2
  · have hbase := sqBase_hub hhub
    have hview (t : Chip) : t.hubTouched (sqBase x.val + rel) = t := by
      unfold Chip.hubTouched
      rw [if_neg (by simp; omega), if_neg (by simp; omega), if_neg (by simp; omega), if_neg (by simp; omega), if_neg (by simp; omega), if_neg (by simp only [HSW.CTRL]; omega),
        if_neg (by simp only [FLT.CFG]; omega), if_neg (by simp only [PMB.CFG]; omega)]
    have hctrl : sqBase x.val + rel ≠ HIF.CTRL := by simp only [HIF.CTRL]; omega
    rw [if_neg (by omega), if_neg (by simp; omega), if_neg (by simp; omega), if_neg (by simp; omega), if_neg (by simp; omega), if_neg (by simp; omega),
      if_neg hctrl, hview]
  · have hbase := sqBase_die hhub
    have hview (t : Chip) : t.dieTouched (sqBase x.val + rel) = t := by
      unfold Chip.dieTouched
      dsimp only
      rw [if_neg (by omega), if_neg (by omega), if_neg (by simp; omega), if_neg (by simp; omega)]
    rw [if_pos (by omega)]
    dsimp only
    rw [if_neg (by simp; omega), if_neg (by simp; omega), if_neg (by simp; omega), hview]

/-- What a write of a converter's register starts is the converter's own operation. -/
theorem regOps_sq (c : Chip) (m : List Host.Cell) (req : Requester) (x : SqId) (rel : Nat) (hrel : rel < 0x1ac) (w : Word) (b : Bool) :
    c.regOps m req (sqBase x.val + rel) w b = c.sqOps x.val rel w := by
  have hwin : dieWindow = 0x100000 := rfl
  have hx := x.isLt
  unfold Chip.regOps
  by_cases hhub : x.val < 2
  · have hbase := sqBase_hub hhub
    have hconv : (sqBase x.val + rel - 0x1d000) / 0x400 = x.val := by omega
    have hplace : (sqBase x.val + rel - 0x1d000) % 0x400 = rel := by omega
    rw [if_neg (by omega), if_pos (by simp; omega), hconv, hplace]
  · have hbase := sqBase_die hhub
    have hconv : (sqBase x.val + rel - dieWindow) / 0x20000 + 1 + 1 = x.val := by omega
    have hplace : (sqBase x.val + rel - dieWindow) % 0x20000 - 0x5000 = rel := by omega
    rw [if_pos (by omega)]
    unfold Chip.dieOps
    dsimp only
    rw [if_neg (by simp; omega), if_neg (by simp; omega), if_neg (by omega), if_pos (by simp; omega), hconv, hplace]

/-- CALCTL takes STEP, ENTRY and REF, bits 0 to 29, locked or not, and has no flag or counter. -/
theorem calctl_row : ∀ x : SqId, SQ.CALCTL x.val % 4 = 0 ∧ (regAt (SQ.CALCTL x.val)).isSome = true ∧ inMailbox (SQ.CALCTL x.val) = false ∧ inMsix (SQ.CALCTL x.val) = false ∧
    plainReg (SQ.CALCTL x.val) = true ∧ accMask (SQ.CALCTL x.val) (· == .rw) = fieldMask 0 30 ∧ pairMask (SQ.CALCTL x.val) = fieldMask 0 30 ∧
    lockMask (SQ.CALCTL x.val) = 0 ∧ accMask (SQ.CALCTL x.val) (· == .w1c) = 0 ∧ cntClears (SQ.CALCTL x.val) = none := by decide +kernel

/-- CTRL takes no field, and has no flag or counter: START and STOP alone. -/
theorem sqCtrl_row : ∀ x : SqId, SQ.CTRL x.val % 4 = 0 ∧ (regAt (SQ.CTRL x.val)).isSome = true ∧ inMailbox (SQ.CTRL x.val) = false ∧ inMsix (SQ.CTRL x.val) = false ∧
    plainReg (SQ.CTRL x.val) = true ∧ accMask (SQ.CTRL x.val) (· == .rw) = 0 ∧ pairMask (SQ.CTRL x.val) = 0 ∧
    lockMask (SQ.CTRL x.val) = 0 ∧ accMask (SQ.CTRL x.val) (· == .w1c) = 0 ∧ cntClears (SQ.CTRL x.val) = none := by decide +kernel

theorem sqCtrl_carries (c : Chip) (x : SqId) (w : Word) : Carries c (SQ.CTRL x.val) w := by
  obtain ⟨haligned, hknown, hbox, hmsix, hplain, hrw, hpair, hlock, hflags, hcnt⟩ := sqCtrl_row x
  exact ⟨haligned, hknown, hbox, hmsix, hplain, by simp [hrw], by simp [hlock], by simp [hpair], by simp [hflags], fun b fs h => by simp [hcnt] at h⟩

/-- A STOP that reaches CTRL. -/
theorem exec_sqStop (s : State) (req : Requester) (x : SqId) (h : s.chip.reaches req (SQ.CTRL x.val) = true) :
    Machine.exec (.sqStop req x) s = .next { s with chip := s.chip.sqStop x.val } := by
  have hrun : Machine.exec (.sqStop req x) s
      = .next { s with chip := s.chip.busWrite s.nvm req (SQ.CTRL x.val) (fldSet (s.chip.carry (SQ.CTRL x.val)) (SQ.CTRL_STOP x.val) 1) true } := rfl
  obtain ⟨-, -, -, -, -, -, hpair, -⟩ := sqCtrl_row x
  have hword : fldSet (s.chip.carry (SQ.CTRL x.val)) (SQ.CTRL_STOP x.val) 1 = 4 := by
    have hzero : s.chip.carry (SQ.CTRL x.val) = 0 := by simp [Chip.carry, hpair]
    rw [hzero]
    exact (by decide : wordPut 0 2 1 1 = 4)
  rw [hrun, hword, busWrite_carries _ _ _ _ _ _ h (sqCtrl_carries _ _ _)]
  exact congrArg (fun c => Host.Outcome.next { s with chip := c }) (regOps_sq s.chip s.nvm req x 0 (by decide) 4 true)

end Sys2Proof.Machine

namespace Sys2Proof.Machine

/-! A STOP between two entries, with a commit that waits for the pass to end (R222, R229). -/

/-- A converter-sequence tile of hub converter 0 (R230), without the zeros after it: `n` entries of input 0 in a mode, REPINT and CALHOLD 1000. -/
def hubSequence (mode n : Nat) : List Byte :=
  List.replicate 17 0 ++ [BitVec.ofNat 8 n, BitVec.ofNat 8 mode, 0, 0xe8, 0x03, 0xe8, 0x03] ++ List.replicate 8 0 ++
    (List.replicate n [0, 0, 0, 0, 0, 0, 4, 3, 0, 0, 0, 0, 0, 0x40]).flatten

/-- R230 allows the tiles of the counterexample: it needs no broken configuration. -/
theorem hubSequence_ok : convTileOk 0 (hubSequence 2 2) = true ∧ convTileOk 0 (hubSequence 1 1) = true := by decide +kernel

/-- Hub converter 0 came on with a continuous sequence of two entries; while entry 0 ran, a single sequence of one entry was committed and an injection asked for, which now runs. -/
def commitWaitsForPass : State :=
  { chip := (((((State.reset.chip.put PWR.DOMSTAT_CORE 1).put PWR.DOMSTAT_HOST 1).put PWR.DOMSTAT_HKA 1).sqPowerUp 0 (some (hubSequence 2 2))).sqCommit 0 (hubSequence 1 1)
      |>.sqInject 0 0 false).sqEntryDone 0 (.input 1000000 1) }

/-- Refutes O30: its sixth clause leaves every register alone, but a STOP while an injection runs between two entries ends the pass there and then, so that a commit which waited for the pass to
end is loaded into CTRL and the entries (R222, R229): MODE goes from continuous to single. -/
theorem not_converterSequencesRun : ¬ Obligations.ConverterSequencesRun := by
  unfold Obligations.ConverterSequencesRun
  rintro ⟨-, -, -, -, -, stops, -⟩
  have hreach : commitWaitsForPass.chip.reaches .ring (SQ.CTRL 0) = true := by decide +kernel
  have hbefore : commitWaitsForPass.chip.get (SQ.CTRL_MODE 0) = 2 := by decide +kernel
  have hafter : (commitWaitsForPass.chip.sqStop 0).get (SQ.CTRL_MODE 0) = 1 := by decide +kernel
  obtain ⟨t, ht, -, -, -, heffect⟩ := stops commitWaitsForPass .ring 0 hreach
  rw [exec_sqStop commitWaitsForPass .ring 0 hreach] at ht
  cases ht
  have hkept := heffect.fields (SQ.CTRL_MODE 0) rfl (by simp)
  exact absurd (hafter.symm.trans (hkept.trans hbefore)) (by decide)

end Sys2Proof.Machine

namespace Sys2Proof.Machine

/-! What the operations of a converter leave, and what an event leaves (R222 to R227). -/

@[simp] theorem get_sqUpd (c : Chip) (x : Nat) (f : SqHw → SqHw) (g : Fld) : (c.sqUpd x f).get g = c.get g := rfl

@[simp] theorem sqUpd_hw (c : Chip) (x : Nat) (f : SqHw → SqHw) : (c.sqUpd x f).sqs.get x = f (c.sqs.get x) := Tbl.get_upd_same _ _ _

theorem Chip.OnlyIn.sqUpd {T : Nat → Bool} {s t : Chip} (h : s.OnlyIn T t) (x : Nat) (f : SqHw → SqHw) : s.OnlyIn T (t.sqUpd x f) := h.upd rfl

theorem Chip.OnlyIn.event {T : Nat → Bool} {s t : Chip} (h : s.OnlyIn T t) (flag cnt : Fld) (i : Nat) (hflag : T flag.off = true) (hcnt : T cnt.off = true) :
    s.OnlyIn T (t.event flag cnt i) :=
  ((h.put flag 1 hflag).put cnt _ hcnt).upd rfl

theorem Recorded.sqUpd {s t : Chip} {flag cnt : Fld} (h : Recorded s t flag cnt) (x : Nat) (f : SqHw → SqHw) : Recorded s (t.sqUpd x f) flag cnt := h.congr rfl rfl rfl

/-- A converter's inner state changes, and the effect leaves open how the converters stand. -/
theorem Effect.sqUpd {s t : State} {h : Chip → Chip} {fields : List Fld} {srcs : List Nat} {msgs : List FaultMsg} {outs : List Output}
    (e : Effect s t h fields srcs msgs outs) (x : Nat) (f : SqHw → SqHw) :
    Effect s { t with chip := t.chip.sqUpd x f } (fun c => { h c with sqs := (t.chip.sqUpd x f).sqs }) fields srcs msgs outs :=
  e.innerStep (fun c => { c with sqs := (t.chip.sqUpd x f).sqs }) rfl rfl rfl rfl rfl (congrArg (fun c => { c with sqs := (t.chip.sqUpd x f).sqs }) e.inner)

/-! An entry boundary with no calibration (R222, R223). -/

/-- The converter goes on: of its registers STAT alone changes, its calibration stays, and no fault message is posted. -/
structure Chip.GoesOn (x : Nat) (s t : Chip) : Prop where
  regs : s.OnlyIn (· == SQ.STAT x) t
  phase : (t.sqs.get x).calPhase = (s.sqs.get x).calPhase
  faults : t.faultQ = s.faultQ

theorem Chip.GoesOn.refl (x : Nat) (s : Chip) : GoesOn x s s := ⟨.refl _ _, rfl, rfl⟩

theorem Chip.GoesOn.put {x : Nat} {s t : Chip} (h : GoesOn x s t) (f : Fld) (v : Nat) (hf : f.off = SQ.STAT x) : GoesOn x s (t.put f v) :=
  ⟨h.regs.put f v (beq_iff_eq.2 hf), h.phase, h.faults⟩

theorem Chip.GoesOn.sqUpd {x : Nat} {s t : Chip} (h : GoesOn x s t) (f : SqHw → SqHw) (hf : (f (t.sqs.get x)).calPhase = (t.sqs.get x).calPhase) : GoesOn x s (t.sqUpd x f) :=
  ⟨h.regs.sqUpd x f, by rw [sqUpd_hw, hf, h.phase], h.faults⟩

theorem sqPassNext_calPhase (c : Chip) (x : Nat) : (c.sqPassNext x).calPhase = (c.sqs.get x).calPhase := by
  unfold Chip.sqPassNext
  dsimp only
  split_ifs <;> rfl

theorem sqNext_goesOn (c : Chip) (x : Nat) (hphase : (c.sqs.get x).calPhase = 0) : c.GoesOn x (c.sqNext x) := by
  unfold Chip.sqNext
  dsimp only
  split
  · exact .refl x c
  · refine .put ?_ _ _ rfl
    rw [if_neg (not_not_intro hphase)]
    split
    · exact (Chip.GoesOn.refl x c).sqUpd _ rfl
    · have hpass := (Chip.GoesOn.refl x c).sqUpd (fun _ => c.sqPassNext x) (sqPassNext_calPhase c x)
      split
      · exact (hpass.put _ _ rfl).sqUpd _ rfl
      · exact hpass

/-! The end of a calibration (R227). -/

/-- CALST shows a status, and CALF with its counter and its source records it. -/
def Chip.calTold (c : Chip) (x status : Nat) : Chip := (c.put (SQ.CALST_STATUS x) status).event (SQ.EVT_CALF x) (SQ.EVTCNT_CALCNT x) (srcSq x)

/-- The registers that the end of a calibration may change: CALST, EVT, EVTCNT and STAT. -/
def calEndRegs (x o : Nat) : Bool := o == SQ.CALST x || o == SQ.EVT x || o == SQ.EVTCNT x || o == SQ.STAT x

theorem calTold_get (c : Chip) (x status : Nat) (g : Fld) (hg : g.fits = true) (hflag : g.apart (SQ.EVT_CALF x) = true) (hcnt : g.apart (SQ.EVTCNT_CALCNT x) = true) :
    (c.calTold x status).get g = (c.put (SQ.CALST_STATUS x) status).get g := get_event_apart _ _ _ _ _ hg hflag hcnt

theorem calTold_status (c : Chip) (x status : Nat) (hs : status < 16) : (c.calTold x status).get (SQ.CALST_STATUS x) = status := by
  rw [calTold_get c x status (SQ.CALST_STATUS x) rfl (sqFld_apart x _ _ _ _ (by decide)) (sqFld_apart x _ _ _ _ (by decide)), get_put_same _ _ _ rfl]
  exact Nat.mod_eq_of_lt hs

theorem calTold_raw (c : Chip) (x status : Nat) : (c.calTold x status).get (SQ.CALST_RAW x) = c.get (SQ.CALST_RAW x) := by
  rw [calTold_get c x status (SQ.CALST_RAW x) rfl (sqFld_apart x _ _ _ _ (by decide)) (sqFld_apart x _ _ _ _ (by decide)), get_put_apart _ _ _ _ rfl (Fld.apart_of_bits _ _ rfl)]

theorem calTold_recorded (c : Chip) (x status : Nat) : Recorded c (c.calTold x status) (SQ.EVT_CALF x) (SQ.EVTCNT_CALCNT x) :=
  (recorded_event (c.put (SQ.CALST_STATUS x) status) _ _ _ rfl rfl (sqFld_apart x _ _ _ _ (by decide)) (sqFld_apart x _ _ _ _ (by decide)) rfl).congr
    (get_put_apart _ _ _ _ rfl (sqFld_apart x _ _ _ _ (by decide))).symm rfl rfl

theorem calTold_onlyIn (c : Chip) (x status : Nat) : c.OnlyIn (calEndRegs x) (c.calTold x status) :=
  ((Chip.OnlyIn.refl _ c).put _ _ (by simp [calEndRegs, SQ.CALST_STATUS])).event _ _ _ (by simp [calEndRegs, SQ.EVT_CALF]) (by simp [calEndRegs, SQ.EVTCNT_CALCNT])

/-- A calibration of x has ended with a status. -/
structure Chip.CalEnded (x status : Nat) (s t : Chip) : Prop where
  status : t.get (SQ.CALST_STATUS x) = status
  raw : t.get (SQ.CALST_RAW x) = s.get (SQ.CALST_RAW x)
  recorded : Recorded s t (SQ.EVT_CALF x) (SQ.EVTCNT_CALCNT x)
  phase : (t.sqs.get x).calPhase = 0
  regs : s.OnlyIn (calEndRegs x) t
  faults : t.faultQ = s.faultQ

theorem calOver_ended (c : Chip) (x status : Nat) (hs : status < 16) : c.CalEnded x status (c.calOver x status) where
  status := (get_sqUpd _ x _ _).trans (calTold_status c x status hs)
  raw := (get_sqUpd _ x _ _).trans (calTold_raw c x status)
  recorded := (calTold_recorded c x status).sqUpd x _
  phase := by rw [Chip.calOver, sqUpd_hw]
  regs := (calTold_onlyIn c x status).sqUpd x _
  faults := rfl

/-- The converter goes on after its calibration, and STAT shows it. -/
theorem Chip.CalEnded.goesOn {x status : Nat} {s t u : Chip} (h : CalEnded x status s t) (k : GoesOn x t u) : CalEnded x status s u := by
  have hother (g : Fld) (hg : g.off ≠ SQ.STAT x) : u.get g = t.get g := k.regs.get g (beq_eq_false_iff_ne.2 hg)
  exact {
    status := (hother _ (sqReg_ne x (by decide))).trans h.status
    raw := (hother _ (sqReg_ne x (by decide))).trans h.raw
    recorded := h.recorded.congr rfl (hother _ (sqReg_ne x (by decide))) (hother _ (sqReg_ne x (by decide)))
    phase := k.phase.trans h.phase
    regs := h.regs.trans (k.regs.mono fun o ho => by simp [calEndRegs, beq_iff_eq.1 ho])
    faults := k.faults.trans h.faults }

theorem calEnd_ended (c : Chip) (x status : Nat) (hs : status < 16) : c.CalEnded x status (c.calEnd x status) :=
  have hover := calOver_ended c x status hs
  hover.goesOn (sqNext_goesOn _ x hover.phase)

/-! The write of CALCTL (R225, R227). -/

theorem sqOps_calctl (c : Chip) (x : Nat) (w : Word) :
    c.sqOps x 0x1a0 w = if wordField w 30 1 = 1 then c.calAbort x else if wordField w 31 1 = 1 then c.calStep x (wordField w 28 2) (wordField w 24 4) else c := rfl

/-- Neither command bit is among those that CALCTL takes. -/
theorem wordField_carry_calctl (c : Chip) (x : SqId) (lo : Nat) (hlo : 30 ≤ lo) (h32 : lo < 32) : wordField (c.carry (SQ.CALCTL x.val)) lo 1 = 0 := by
  obtain ⟨-, -, -, -, -, -, hpair, -⟩ := calctl_row x
  apply Nat.eq_of_testBit_eq
  intro i
  rw [wordField_testBit, Chip.carry, hpair, Nat.zero_testBit]
  by_cases hi : i < 1
  · rw [BitVec.getLsbD_and, fieldMask_getLsbD _ _ _ (by omega), decide_eq_false (by omega : ¬i + lo < 0 + 30), Bool.and_false, Bool.and_false, Bool.and_false]
  · rw [decide_eq_false hi, Bool.false_and]

/-- An ABORT carries CALCTL's fields as they are. -/
theorem calAbort_carries (c : Chip) (x : SqId) : Carries c (SQ.CALCTL x.val) (fldSet (c.carry (SQ.CALCTL x.val)) (SQ.CALCTL_ABORT x.val) 1) := by
  obtain ⟨haligned, hknown, hbox, hmsix, hplain, hrw, hpair, hlock, hflags, hcnt⟩ := calctl_row x
  refine ⟨haligned, hknown, hbox, hmsix, hplain, by simp [hrw, hpair], by simp [hlock], ?_, by simp [hflags], fun b fs h => by simp [hcnt] at h⟩
  rw [hpair]
  apply BitVec.eq_of_getLsbD_eq
  intro i hi
  rw [BitVec.getLsbD_and, BitVec.getLsbD_and, fieldMask_getLsbD _ _ _ hi, fldSet, wordPut_getLsbD _ _ _ _ _ hi, Chip.carry, hpair, BitVec.getLsbD_and, fieldMask_getLsbD _ _ _ hi]
  by_cases hin : i < 30
  · rw [if_neg (by simp only [SQ.CALCTL_ABORT]; omega)]
    simp [hin]
  · simp [hin]

/-- An ABORT that reaches CALCTL. -/
theorem exec_sqCalibrateAbort (s : State) (req : Requester) (x : SqId) (h : s.chip.reaches req (SQ.CALCTL x.val) = true) :
    Machine.exec (.sqCalibrateAbort req x) s = .next { s with chip := s.chip.calAbort x.val } := by
  have hrun : Machine.exec (.sqCalibrateAbort req x) s
      = .next { s with chip := s.chip.busWrite s.nvm req (SQ.CALCTL x.val) (fldSet (s.chip.carry (SQ.CALCTL x.val)) (SQ.CALCTL_ABORT x.val) 1) true } := rfl
  have habort : wordField (fldSet (s.chip.carry (SQ.CALCTL x.val)) (SQ.CALCTL_ABORT x.val) 1) 30 1 = 1 := wordField_put_same _ 30 1 1 (by decide)
  have hops := regOps_sq s.chip s.nvm req x 0x1a0 (by decide) (fldSet (s.chip.carry (SQ.CALCTL x.val)) (SQ.CALCTL_ABORT x.val) 1) true
  rw [sqOps_calctl, if_pos habort] at hops
  rw [hrun, busWrite_carries _ _ _ _ _ _ h (calAbort_carries _ _)]
  exact congrArg (fun c => Host.Outcome.next { s with chip := c }) hops

/-- The fields that a calibration step carries to CALCTL. -/
structure CalArgs where
  step : Fin 4
  entry : Fin 16
  ref : BitVec 24

/-- A word with a step's fields in CALCTL's places. -/
def CalArgs.into (a : CalArgs) (w : Word) : Word := wordPut (wordPut (wordPut w 28 2 a.step.val) 24 4 a.entry.val) 0 24 a.ref.toNat

/-- The three fields fill the bits that CALCTL takes. -/
theorem CalArgs.into_getLsbD (a : CalArgs) (v w : Word) (i : Nat) (hi : i < 30) : (a.into v).getLsbD i = (a.into w).getLsbD i := by
  simp only [CalArgs.into, wordPut_getLsbD _ _ _ _ i (by omega : i < 32)]
  split_ifs <;> [rfl; rfl; rfl; omega]

/-- Above them the word is as it was. -/
theorem CalArgs.into_getLsbD_apart (a : CalArgs) (w : Word) (i : Nat) (h32 : i < 32) (hi : 30 ≤ i) : (a.into w).getLsbD i = w.getLsbD i := by
  simp only [CalArgs.into, wordPut_getLsbD _ _ _ _ i h32]
  rw [if_neg (by omega), if_neg (by omega), if_neg (by omega)]

theorem CalArgs.into_step (a : CalArgs) (w : Word) : wordField (a.into w) 28 2 = a.step.val := by
  rw [CalArgs.into, wordField_put_apart _ _ _ _ _ _ (by decide) (.inl (by decide)), wordField_put_apart _ _ _ _ _ _ (by decide) (.inl (by decide)),
    wordField_put_same _ _ _ _ (by decide)]
  exact Nat.mod_eq_of_lt a.step.isLt

theorem CalArgs.into_entry (a : CalArgs) (w : Word) : wordField (a.into w) 24 4 = a.entry.val := by
  rw [CalArgs.into, wordField_put_apart _ _ _ _ _ _ (by decide) (.inl (by decide)), wordField_put_same _ _ _ _ (by decide)]
  exact Nat.mod_eq_of_lt a.entry.isLt

theorem CalArgs.into_above (a : CalArgs) (w : Word) (lo : Nat) (hlo : 30 ≤ lo) (h32 : lo < 32) : wordField (a.into w) lo 1 = wordField w lo 1 := by
  rw [CalArgs.into, wordField_put_apart _ _ _ _ _ _ (by omega) (by omega), wordField_put_apart _ _ _ _ _ _ (by omega) (by omega),
    wordField_put_apart _ _ _ _ _ _ (by omega) (by omega)]

/-- What the command writes: its fields with GO, beside no ABORT. -/
def CalArgs.written (a : CalArgs) (c : Chip) (x : Nat) : Word := a.into (wordPut (c.carry (SQ.CALCTL x)) 31 1 1)

theorem calWritten_commands (a : CalArgs) (c : Chip) (x : SqId) : wordField (a.written c x.val) 30 1 = 0 ∧ wordField (a.written c x.val) 31 1 = 1 := by
  rw [CalArgs.written, a.into_above _ 30 (by decide) (by decide), a.into_above _ 31 (by decide) (by decide), wordField_put_apart _ _ _ _ _ _ (by decide) (.inr (by decide)),
    wordField_put_same _ _ _ _ (by decide)]
  exact ⟨wordField_carry_calctl c x 30 (by decide) (by decide), rfl⟩

/-- The device takes a step's fields. -/
def Chip.calTaken (c : Chip) (x : Nat) (a : CalArgs) : Chip :=
  ((c.put (SQ.CALCTL_STEP x) a.step.val).put (SQ.CALCTL_ENTRY x) a.entry.val).put (SQ.CALCTL_REF x) a.ref.toNat

theorem calTaken_eq (c : Chip) (x : Nat) (a : CalArgs) : c.calTaken x a = c.setReg (SQ.CALCTL x) (a.into (c.reg (SQ.CALCTL x))) := by
  simp only [Chip.calTaken, Chip.put, SQ.CALCTL_STEP, SQ.CALCTL_ENTRY, SQ.CALCTL_REF, reg_setReg_same, setReg_setReg]
  rfl

/-- CALCTL keeps the two bits it does not take, and takes the fields of the word written. -/
theorem calInto_reg (a : CalArgs) (c : Chip) (x : Nat) :
    c.reg (SQ.CALCTL x) &&& ~~~fieldMask 0 30 ||| a.written c x &&& fieldMask 0 30 = a.into (c.reg (SQ.CALCTL x)) := by
  apply BitVec.eq_of_getLsbD_eq
  intro i hi
  rw [BitVec.getLsbD_or, BitVec.getLsbD_and, BitVec.getLsbD_and, BitVec.getLsbD_not, fieldMask_getLsbD _ _ _ hi]
  by_cases hin : i < 30
  · rw [CalArgs.written, a.into_getLsbD _ (c.reg (SQ.CALCTL x)) i hin]
    simp [hi, hin]
  · rw [a.into_getLsbD_apart _ _ hi (by omega)]
    simp [hi, hin]

theorem fieldWrite_calctl (c : Chip) (x : SqId) (a : CalArgs) : c.fieldWrite (SQ.CALCTL x.val) (a.written c x.val) = c.calTaken x.val a := by
  obtain ⟨-, -, -, -, -, hrw, hpair, hlock, hflags, -⟩ := calctl_row x
  have hmask : c.writeMask (SQ.CALCTL x.val) = fieldMask 0 30 := by rw [Chip.writeMask, hrw, hpair, ite_self]
  have hput : c.regPut (SQ.CALCTL x.val) (a.into (c.reg (SQ.CALCTL x.val))) = c.setReg (SQ.CALCTL x.val) (a.into (c.reg (SQ.CALCTL x.val))) := regPut_sq c x 0x1a0 (by decide) _
  have hlocked : (c.reg (SQ.CALCTL x.val) ^^^ a.written c x.val) &&& lockMask (SQ.CALCTL x.val) = 0 := by rw [hlock]; exact BitVec.and_zero
  have hcleared : accMask (SQ.CALCTL x.val) (· == .w1c) &&& a.written c x.val = 0 := by rw [hflags]; exact BitVec.zero_and
  simp only [Chip.fieldWrite, hlocked, hcleared, hmask, bne_self_eq_false, Bool.and_false, Bool.false_eq_true, if_false, if_true]
  rw [if_neg (by decide), calInto_reg, hput, calTaken_eq]

/-- A step that reaches CALCTL is judged with its fields in place. -/
theorem exec_sqCalibrateStep (s : State) (req : Requester) (x : SqId) (a : CalArgs) (h : s.chip.reaches req (SQ.CALCTL x.val) = true) :
    Machine.exec (.sqCalibrateStep req x a.step a.entry a.ref) s = .next { s with chip := (s.chip.calTaken x.val a).calStep x.val a.step.val a.entry.val } := by
  obtain ⟨haligned, hknown, hbox, hmsix, -, -, -, -, -, hcnt⟩ := calctl_row x
  obtain ⟨habort, hgo⟩ := calWritten_commands a s.chip x
  have hstep : wordField (a.written s.chip x.val) 28 2 = a.step.val := a.into_step _
  have hentry : wordField (a.written s.chip x.val) 24 4 = a.entry.val := a.into_entry _
  have hrun : Machine.exec (.sqCalibrateStep req x a.step a.entry a.ref) s =
      .next { s with chip := s.chip.busWrite s.nvm req (SQ.CALCTL x.val) (a.written s.chip x.val) true } := rfl
  have hops := regOps_sq (s.chip.calTaken x.val a) s.nvm req x 0x1a0 (by decide) (a.written s.chip x.val) true
  rw [sqOps_calctl, habort, if_neg (by decide), if_pos hgo, hstep, hentry] at hops
  rw [hrun, busWrite_reaches _ _ _ _ _ _ h haligned hbox hmsix hknown, Chip.regWrite, fieldWrite_calctl, Chip.cntClear, hcnt]
  exact congrArg (fun c => Host.Outcome.next { s with chip := c }) hops

theorem Effect.calTaken (s : State) (x : Nat) (a : CalArgs) :
    Effect s { s with chip := s.chip.calTaken x a } id [SQ.CALCTL_STEP x, SQ.CALCTL_ENTRY x, SQ.CALCTL_REF x] [] [] [] :=
  (((Effect.start s).put _ _).put _ _).put _ _

/-- CALCTL alone has changed, and no converter's inner state. -/
theorem calTaken_get (c : Chip) (x : Nat) (a : CalArgs) (g : Fld) (hg : g.off ≠ SQ.CALCTL x) : (c.calTaken x a).get g = c.get g := by
  rw [calTaken_eq]
  exact ((Chip.OnlyIn.refl (· == SQ.CALCTL x) c).setReg _ _ (beq_self_eq_true _)).get g (beq_eq_false_iff_ne.2 hg)

theorem calTaken_sqs (c : Chip) (x : Nat) (a : CalArgs) : (c.calTaken x a).sqs = c.sqs := rfl

/-! The steps of a calibration (R225 to R227). -/

/-- The steps that R225 and R227 refuse, with STATUS 6. -/
def Chip.calRefuses (c : Chip) (x step e : Nat) : Prop :=
  c.get (SQ.CTRL_LASTE x) < e ∨ step ∈ [2, 3] ∨ (step = 0 ∧ (c.sqs.get x).calPhase ≠ 0) ∨ (step = 1 ∧ (c.sqs.get x).calPhase ≠ 3)

theorem calStep_refused (c : Chip) (x step e : Nat) (h : c.calRefuses x step e) : c.calStep x step e = c.calTold x 6 := by
  unfold Chip.calStep
  dsimp only
  split
  · rfl
  · next hentry =>
    rcases h with hbeyond | hstep | ⟨rfl, hphase⟩ | ⟨rfl, hphase⟩
    · exact absurd hbeyond hentry
    · rcases List.mem_pair.1 hstep with rfl | rfl <;> rfl
    · exact if_pos hphase
    · exact if_neg (by simp [hphase])

/-- A zero request is accepted: STATUS 1, and what the calibration holds from then on (R226). -/
def Chip.calBegun (c : Chip) (x e : Nat) : Chip :=
  (c.put (SQ.CALST_STATUS x) 1).sqUpd x fun h =>
    { h with calPhase := 1, calEntry := e, calAt := c.now, calHold := orOne (c.get (SQ.CALCFG_CALHOLD x)), calAvg := min 6 (c.get (SQ.CALCFG_CALAVG x)),
             injs := h.injs.map fun i => { i with old := true } }

theorem calStep_zero (c : Chip) (x e : Nat) (hentry : e ≤ c.get (SQ.CTRL_LASTE x)) (hphase : (c.sqs.get x).calPhase = 0) : c.calStep x 0 e = (c.calBegun x e).sqNext x := by
  unfold Chip.calStep
  dsimp only
  rw [if_neg (by omega), if_neg (not_not_intro hphase)]
  rfl

/-- The zero step runs: STATUS 2 and STAT.ACT 3 (R226, R234). -/
def Chip.zeroRuns (c : Chip) (x : Nat) : Chip :=
  (((c.put (SQ.CALST_STATUS x) 2).sqUpd x fun h => { h with calPhase := 2 }).sqRun x (c.sqs.get x).calEntry (.cal 0)).put (SQ.STAT_ACT x) 3

/-- With nothing running and no injection, a calibration that has begun runs its zero step. -/
theorem sqNext_begun (c : Chip) (x : Nat) (hrun : (c.sqs.get x).run = .idle) (hinjs : (c.sqs.get x).injs = []) (hphase : (c.sqs.get x).calPhase = 1) : c.sqNext x = c.zeroRuns x := by
  unfold Chip.sqNext
  dsimp only
  rw [if_neg (not_not_intro hrun), if_pos (by omega), hinjs]
  dsimp only [List.find?_nil]
  rw [if_pos hphase, Chip.zeroRuns, Chip.sqRun, sqUpd_hw]
  rfl

/-- The zero step is done: its average is kept, and the converter waits for the full step (R226). -/
def Chip.zeroDone (c : Chip) (x : Nat) (v : Int) : Chip :=
  (((c.put (SQ.CALST_RAW x) (bitsOf 24 v)).put (SQ.CALST_STATUS x) 3).sqUpd x fun h => { h with calPhase := 3, calZero := v, run := .idle }).put (SQ.STAT_ACT x) 3

/-- A whole number of 24 bits, as a result of the filter is. -/
def In24 (v : Int) : Prop := -0x800000 ≤ v ∧ v ≤ 0x7fffff

theorem putS_of_in24 (c : Chip) (f : Fld) (v : Int) (hf : f.width = 24) (hv : In24 v) : c.putS f v = c.put f (bitsOf 24 v) := by
  obtain ⟨hlow, hhigh⟩ := hv
  rw [Chip.putS, hf, satS, if_neg (by norm_num; omega), if_neg (by norm_num; omega)]

theorem bitsOf_lt (v : Int) : bitsOf 24 v < 2 ^ 24 := by
  unfold bitsOf
  omega

theorem signedOf_bitsOf (v : Int) (hv : In24 v) : signedOf 24 (bitsOf 24 v) = v := by
  obtain ⟨hlow, hhigh⟩ := hv
  unfold signedOf bitsOf
  norm_num
  omega

theorem calAverage_zero (c : Chip) (x : Nat) (v : Int) (hv : In24 v) : c.calAverage x 0 v = c.zeroDone x v := by
  unfold Chip.calAverage
  dsimp only
  rw [if_pos rfl, putS_of_in24 _ _ _ rfl hv, sqUpd_hw]
  rfl

/-- The gain of a full step: REF over the difference of the two averages, in Q22 (R225). -/
def Chip.calGain (c : Chip) (x : Nat) (v : Int) : Int :=
  rne (c.getS (SQ.CALCTL_REF x) * 2 ^ 22 * (v - (c.sqs.get x).calZero).sign) (v - (c.sqs.get x).calZero).natAbs

/-- The coefficients of the calibrated entry, with the full step's average. -/
def Chip.calStored (c : Chip) (x : Nat) (v g : Int) : Chip :=
  ((c.put (SQ.CALST_RAW x) (bitsOf 24 v)).put (SQ.ENT_CALOFS_CALOFS x (c.sqs.get x).calEntry) (bitsOf 24 (c.sqs.get x).calZero)).put
    (SQ.ENT_CALGAIN_CALGAIN x (c.sqs.get x).calEntry) g.toNat

theorem calAverage_full (c : Chip) (x : Nat) (v : Int) (hv : In24 v) (hdiff : (c.sqs.get x).calZero ≠ v) (hlow : 0x200000 ≤ c.calGain x v) (hhigh : c.calGain x v ≤ 0x800000) :
    c.calAverage x 1 v = (c.calStored x v (c.calGain x v)).calEnd x 5 := by
  have hfz : v - (c.sqs.get x).calZero ≠ 0 := sub_ne_zero.2 hdiff.symm
  have hsign (n : Int) : (if v - (c.sqs.get x).calZero < 0 then -n else n) = n * (v - (c.sqs.get x).calZero).sign := by
    split_ifs with hneg
    · rw [Int.sign_eq_neg_one_of_neg hneg, mul_neg_one]
    · rw [Int.sign_eq_one_of_pos (by omega), mul_one]
  have href : (c.put (SQ.CALST_RAW x) (bitsOf 24 v)).getS (SQ.CALCTL_REF x) = c.getS (SQ.CALCTL_REF x) :=
    congrArg (signedOf 24) (get_put_apart c _ _ _ rfl (sqFld_apart x _ _ _ _ (by decide)))
  unfold Chip.calAverage
  dsimp only
  rw [if_neg (by decide), putS_of_in24 _ _ _ rfl hv, href, hsign, if_neg hfz, ← Chip.calGain, if_neg (by simp [hfz]; omega)]
  rfl

/-! The average of a step's outputs (R225; log entry 174). -/

/-- One more output of a step's sum; none once one is over-range. -/
def SqSet.addCode (q : SqSet) (x : Nat) (a : Option Int) (k : Conversion) : Option Int :=
  match a, q.code x k with
  | some a, .inl r => some (a + r)
  | _, _ => none

theorem average_eq (q : SqSet) (x : Nat) (l : List Conversion) : q.average x l = (l.foldl (q.addCode x) (some 0)).map fun t => rne t l.length := rfl

theorem code_in24 (q : SqSet) (x : Nat) (k : Conversion) (r : Int) (h : q.code x k = .inl r) : In24 r := by
  cases k with
  | overload pos => cases h
  | input nv exc =>
    simp only [SqSet.code] at h
    split_ifs at h with hhigh hlow
    cases h
    exact ⟨not_lt.1 hlow, not_lt.1 hhigh⟩

theorem foldl_addCode_none (q : SqSet) (x : Nat) (l : List Conversion) : l.foldl (q.addCode x) none = none := by
  induction l with
  | nil => rfl
  | cons k l ih => exact ih

/-- The sum of codes of 24 bits. -/
theorem foldl_addCode_mem (q : SqSet) (x : Nat) (l : List Conversion) : ∀ a t : Int, l.foldl (q.addCode x) (some a) = some t →
    a + -0x800000 * l.length ≤ t ∧ t ≤ a + 0x7fffff * l.length := by
  induction l with
  | nil =>
    intro a t h
    cases h
    simp
  | cons k l ih =>
    intro a t h
    cases hcode : q.code x k with
    | inr pos =>
      have hnone : q.addCode x (some a) k = none := by simp [SqSet.addCode, hcode]
      rw [List.foldl_cons, hnone, foldl_addCode_none] at h
      cases h
    | inl r =>
      have hsome : q.addCode x (some a) k = some (a + r) := by simp [SqSet.addCode, hcode]
      rw [List.foldl_cons, hsome] at h
      obtain ⟨hlow, hhigh⟩ := ih _ _ h
      obtain ⟨hrlow, hrhigh⟩ := code_in24 q x k r hcode
      push_cast [List.length_cons]
      omega

/-- The average of 24-bit codes has 24 bits. -/
theorem average_in24 (q : SqSet) (x : Nat) (l : List Conversion) (v : Int) (hl : 0 < l.length) (h : q.average x l = some v) : In24 v := by
  rw [average_eq] at h
  obtain ⟨t, ht, rfl⟩ := Option.map_eq_some_iff.1 h
  obtain ⟨hlow, hhigh⟩ := foldl_addCode_mem q x l 0 t ht
  have hlower := rne_mono l.length hl (by omega : -0x800000 * (l.length : Int) ≤ t)
  have hupper := rne_mono l.length hl (by omega : t ≤ 0x7fffff * (l.length : Int))
  rw [rne_mul _ _ hl] at hlower hupper
  exact ⟨hlower, hupper⟩

/-- An overload among the outputs leaves no average (R227). -/
theorem average_of_overload (q : SqSet) (x : Nat) (l : List Conversion) (pos : Bool) (h : .overload pos ∈ l) : q.average x l = none := by
  obtain ⟨l₁, l₂, rfl⟩ := List.append_of_mem h
  have hnone (a : Option Int) : q.addCode x a (.overload pos) = none := by cases a <;> rfl
  rw [average_eq, List.foldl_append, List.foldl_cons, hnone, foldl_addCode_none, Option.map_none]

/-! The outputs of a running step (R225, R227). -/

theorem calDone_of_length_ne (c : Chip) (x : Nat) (l : List Conversion) (h : l.length ≠ 2 ^ (c.sqs.get x).calAvg) : c.calDone x l = c := by
  unfold Chip.calDone
  dsimp only
  split
  · exact if_pos (by simp [h])
  · rfl

theorem calDone_overrange (c : Chip) (x step : Nat) (l : List Conversion) (hon : c.sqOn x = true) (hrun : (c.sqs.get x).run = .cal step)
    (hl : l.length = 2 ^ (c.sqs.get x).calAvg) (h : (c.sqs.get x).inUse.average x l = none) : c.calDone x l = c.calEnd x 9 := by
  simp only [Chip.calDone, hrun, h]
  exact if_neg (by simp [hon, hl])

theorem calDone_average (c : Chip) (x step : Nat) (l : List Conversion) (v : Int) (hon : c.sqOn x = true) (hrun : (c.sqs.get x).run = .cal step)
    (hl : l.length = 2 ^ (c.sqs.get x).calAvg) (h : (c.sqs.get x).inUse.average x l = some v) : c.calDone x l = c.calAverage x step v := by
  simp only [Chip.calDone, hrun, h]
  exact if_neg (by simp [hon, hl])

/-! What the states of a calibration read (R225 to R227). -/

theorem Effect.calTold {s t : State} {h : Chip → Chip} {fields : List Fld} {srcs : List Nat} {msgs : List FaultMsg} {outs : List Output}
    (e : Effect s t h fields srcs msgs outs) (x status : Nat) :
    Effect s { t with chip := t.chip.calTold x status } h (fields ++ [SQ.CALST_STATUS x] ++ [SQ.EVT_CALF x] ++ [SQ.EVTCNT_CALCNT x]) (srcs ++ [srcSq x]) msgs outs :=
  (e.put _ _).event _ _ _

theorem calTaken_laste (c : Chip) (x : Nat) (a : CalArgs) : (c.calTaken x a).get (SQ.CTRL_LASTE x) = c.get (SQ.CTRL_LASTE x) := calTaken_get c x a _ (sqReg_ne x (by decide))

/-- The fields that a step writes to CALCTL change nothing that refuses it. -/
theorem calRefuses_taken (c : Chip) (x step e : Nat) (a : CalArgs) (h : c.calRefuses x step e) : (c.calTaken x a).calRefuses x step e := by
  rwa [Chip.calRefuses, calTaken_laste, calTaken_sqs]

/-- A zero request with nothing else pending runs its step at once. -/
theorem calStep_zero_runs (c : Chip) (x e : Nat) (hentry : e ≤ c.get (SQ.CTRL_LASTE x)) (hphase : (c.sqs.get x).calPhase = 0) (hrun : (c.sqs.get x).run = .idle)
    (hinjs : (c.sqs.get x).injs = []) : c.calStep x 0 e = (c.calBegun x e).zeroRuns x := by
  have hhw := sqUpd_hw (c.put (SQ.CALST_STATUS x) 1) x
  rw [calStep_zero c x e hentry hphase, sqNext_begun]
  · rw [Chip.calBegun, hhw]
    exact hrun
  · rw [Chip.calBegun, hhw]
    exact congrArg (List.map _) hinjs
  · rw [Chip.calBegun, hhw]

theorem zeroRuns_fields (c : Chip) (x : Nat) : (c.zeroRuns x).get (SQ.CALST_STATUS x) = 2 ∧ (c.zeroRuns x).get (SQ.STAT_ACT x) = 3 := by
  constructor
  · rw [Chip.zeroRuns, get_put_apart _ (SQ.STAT_ACT x) (SQ.CALST_STATUS x) _ rfl (sqFld_apart x _ _ _ _ (by decide)), Chip.sqRun, get_sqUpd, get_sqUpd, get_put_same _ _ _ rfl]
    rfl
  · rw [Chip.zeroRuns, get_put_same _ _ _ rfl]
    rfl

/-- The zero step runs for the entry, from the time, that the request gave. -/
theorem zeroRuns_hw (c : Chip) (x : Nat) : ((c.zeroRuns x).sqs.get x).run = .cal 0 ∧ ((c.zeroRuns x).sqs.get x).calEntry = (c.sqs.get x).calEntry ∧
    ((c.zeroRuns x).sqs.get x).calAt = (c.sqs.get x).calAt := by
  simp only [Chip.zeroRuns, put_sqs, Chip.sqRun, sqUpd_hw, and_self]

theorem calBegun_hw (c : Chip) (x e : Nat) : ((c.calBegun x e).sqs.get x).calEntry = e ∧ ((c.calBegun x e).sqs.get x).calAt = c.now := by
  simp only [Chip.calBegun, sqUpd_hw, and_self]

theorem effect_zeroRuns (s : State) (x e : Nat) (a : CalArgs) : Effect s { s with chip := ((s.chip.calTaken x a).calBegun x e).zeroRuns x }
    (fun c => { c with sqs := (((s.chip.calTaken x a).calBegun x e).zeroRuns x).sqs })
    [SQ.CALCTL_STEP x, SQ.CALCTL_ENTRY x, SQ.CALCTL_REF x, SQ.CALST_STATUS x, SQ.STAT_ACT x] [] [] [] :=
  (((((((Effect.calTaken s x a).put (SQ.CALST_STATUS x) 1).sqUpd x _).put (SQ.CALST_STATUS x) 2).sqUpd x _).sqUpd x _).put (SQ.STAT_ACT x) 3).widen _ (by simp)

theorem zeroDone_fields (c : Chip) (x : Nat) (v : Int) : (c.zeroDone x v).get (SQ.CALST_STATUS x) = 3 ∧ (c.zeroDone x v).get (SQ.CALST_RAW x) = bitsOf 24 v := by
  constructor
  · rw [Chip.zeroDone, get_put_apart _ (SQ.STAT_ACT x) (SQ.CALST_STATUS x) _ rfl (sqFld_apart x _ _ _ _ (by decide)), get_sqUpd, get_put_same _ _ _ rfl]
    rfl
  · rw [Chip.zeroDone, get_put_apart _ (SQ.STAT_ACT x) (SQ.CALST_RAW x) _ rfl (sqFld_apart x _ _ _ _ (by decide)), get_sqUpd, get_put_apart _ _ _ _ rfl (Fld.apart_of_bits _ _ rfl),
      get_put_same _ _ _ rfl]
    exact Nat.mod_eq_of_lt (bitsOf_lt v)

theorem zeroDone_hw (c : Chip) (x : Nat) (v : Int) : ((c.zeroDone x v).sqs.get x).calZero = v ∧ ((c.zeroDone x v).sqs.get x).calPhase = 3 ∧ ((c.zeroDone x v).sqs.get x).run = .idle := by
  simp only [Chip.zeroDone, put_sqs, sqUpd_hw, and_self]

theorem effect_zeroDone (s : State) (x : Nat) (v : Int) : Effect s { s with chip := s.chip.zeroDone x v } (fun c => { c with sqs := (s.chip.zeroDone x v).sqs })
    [SQ.CALST_STATUS x, SQ.CALST_RAW x, SQ.STAT_ACT x] [] [] [] :=
  (((((Effect.start s).put (SQ.CALST_RAW x) _).put (SQ.CALST_STATUS x) 3).sqUpd x _).put (SQ.STAT_ACT x) 3).widen _ (by simp)

theorem sqRegs_of_lt (x a : Nat) (ha : a < 0x1ac) : sqRegs x (sqBase x + a) = true := span_of_le_lt ⟨by omega, by omega⟩

theorem calEndRegs_sqRegs (x o : Nat) (h : calEndRegs x o = true) : sqRegs x o = true := by
  simp only [calEndRegs, Bool.or_eq_true, beq_iff_eq] at h
  rcases h with ((rfl | rfl) | rfl) | rfl <;> exact sqRegs_of_lt x _ (by decide)

/-- The registers that a calibrated entry's coefficients and the step's average go to. -/
def calStoreRegs (x e o : Nat) : Bool := o == SQ.CALST x || o == SQ.ENT_CALOFS x e || o == SQ.ENT_CALGAIN x e

theorem calStored_onlyIn (c : Chip) (x : Nat) (v g : Int) : c.OnlyIn (calStoreRegs x (c.sqs.get x).calEntry) (c.calStored x v g) :=
  (((Chip.OnlyIn.refl _ c).put _ _ (by simp [calStoreRegs, SQ.CALST_RAW])).put _ _ (by simp [calStoreRegs, SQ.ENT_CALOFS_CALOFS])).put _ _
    (by simp [calStoreRegs, SQ.ENT_CALGAIN_CALGAIN])

theorem calStoreRegs_sqRegs (x e o : Nat) (he : e < 16) (h : calStoreRegs x e o = true) : sqRegs x o = true := by
  simp only [calStoreRegs, Bool.or_eq_true, beq_iff_eq, SQ.CALST, SQ.ENT_CALOFS, SQ.ENT_CALGAIN] at h
  exact span_of_le_lt (by omega)

/-- The entries' coefficients lie apart from what the end of a calibration changes. -/
theorem calEndRegs_entry (x e : Nat) (he : e < 16) : calEndRegs x (SQ.ENT_CALOFS x e) = false ∧ calEndRegs x (SQ.ENT_CALGAIN x e) = false := by
  simp only [calEndRegs, SQ.ENT_CALOFS, SQ.ENT_CALGAIN, SQ.CALST, SQ.EVT, SQ.EVTCNT, SQ.STAT, Bool.or_eq_false_iff, beq_eq_false_iff_ne]
  omega

theorem calStored_fields (c : Chip) (x : Nat) (v g : Int) (hzero : In24 (c.sqs.get x).calZero) (hlow : 0 ≤ g) (hhigh : g < 2 ^ 24) :
    (c.calStored x v g).get (SQ.CALST_RAW x) = bitsOf 24 v ∧ (c.calStored x v g).getS (SQ.ENT_CALOFS_CALOFS x (c.sqs.get x).calEntry) = (c.sqs.get x).calZero ∧
      ((c.calStored x v g).get (SQ.ENT_CALGAIN_CALGAIN x (c.sqs.get x).calEntry) : Int) = g := by
  generalize hcal : (c.sqs.get x).calEntry = e
  have hraw_ofs : SQ.CALST x ≠ SQ.ENT_CALOFS x e := by simp only [SQ.CALST, SQ.ENT_CALOFS]; omega
  have hraw_gain : SQ.CALST x ≠ SQ.ENT_CALGAIN x e := by simp only [SQ.CALST, SQ.ENT_CALGAIN]; omega
  have hofs_gain : SQ.ENT_CALOFS x e ≠ SQ.ENT_CALGAIN x e := by simp only [SQ.ENT_CALOFS, SQ.ENT_CALGAIN]; omega
  rw [Chip.calStored, hcal]
  refine ⟨?_, ?_, ?_⟩
  · rw [get_put_apart _ (SQ.ENT_CALGAIN_CALGAIN x e) (SQ.CALST_RAW x) _ rfl (Fld.apart_of_off_ne _ _ hraw_gain),
      get_put_apart _ (SQ.ENT_CALOFS_CALOFS x e) (SQ.CALST_RAW x) _ rfl (Fld.apart_of_off_ne _ _ hraw_ofs), get_put_same _ _ _ rfl]
    exact Nat.mod_eq_of_lt (bitsOf_lt v)
  · rw [Chip.getS, get_put_apart _ (SQ.ENT_CALGAIN_CALGAIN x e) (SQ.ENT_CALOFS_CALOFS x e) _ rfl (Fld.apart_of_off_ne _ _ hofs_gain), get_put_same _ _ _ rfl]
    exact (congrArg (signedOf 24) (Nat.mod_eq_of_lt (bitsOf_lt _))).trans (signedOf_bitsOf _ hzero)
  · rw [get_put_same _ _ _ rfl]
    simp only [SQ.ENT_CALGAIN_CALGAIN]
    omega

/-- A calibration that has stored its coefficients ends with STATUS 5, and keeps them (R225, R227). -/
theorem calStored_ends (c : Chip) (x : Nat) (v g : Int) (he : (c.sqs.get x).calEntry < 16) (hzero : In24 (c.sqs.get x).calZero) (hlow : 0 ≤ g) (hhigh : g < 2 ^ 24) :
    ((c.calStored x v g).calEnd x 5).get (SQ.CALST_RAW x) = bitsOf 24 v ∧
      ((c.calStored x v g).calEnd x 5).getS (SQ.ENT_CALOFS_CALOFS x (c.sqs.get x).calEntry) = (c.sqs.get x).calZero ∧
      (((c.calStored x v g).calEnd x 5).get (SQ.ENT_CALGAIN_CALGAIN x (c.sqs.get x).calEntry) : Int) = g ∧
      Recorded c ((c.calStored x v g).calEnd x 5) (SQ.EVT_CALF x) (SQ.EVTCNT_CALCNT x) ∧ c.OnlyIn (sqRegs x) ((c.calStored x v g).calEnd x 5) := by
  have hended := calEnd_ended (c.calStored x v g) x 5 (by decide)
  have hstored := calStored_onlyIn c x v g
  obtain ⟨hraw, hofs, hgain⟩ := calStored_fields c x v g hzero hlow hhigh
  obtain ⟨hofs_kept, hgain_kept⟩ := calEndRegs_entry x _ he
  have hcount : calStoreRegs x (c.sqs.get x).calEntry (SQ.EVTCNT x) = false := by
    simp only [calStoreRegs, SQ.EVTCNT, SQ.CALST, SQ.ENT_CALOFS, SQ.ENT_CALGAIN, Bool.or_eq_false_iff, beq_eq_false_iff_ne]
    omega
  exact ⟨hended.raw.trans hraw, (congrArg (signedOf 24) (hended.regs.get _ hofs_kept)).trans hofs, (congrArg Nat.cast (hended.regs.get _ hgain_kept)).trans hgain,
    hended.recorded.congr (hstored.get _ hcount).symm rfl rfl, (hstored.mono fun o => calStoreRegs_sqRegs x _ o he).trans (hended.regs.mono (calEndRegs_sqRegs x))⟩

/-- The end of a calibration, as the statements say it. -/
theorem Chip.CalEnded.keeps {x status : Nat} {s : State} {t : Chip} (h : CalEnded x status s.chip t) : Keeps s { s with chip := t } (calEndRegs x) := ⟨rfl, rfl, h.regs.same⟩

theorem exec_sqCalibrationStepDone (s : State) (x : SqId) (l : List Conversion) :
    Machine.exec (.sqCalibrationStepDone x l) s = .next { s with chip := s.chip.calDone x.val l } := rfl

/-- Settles O31: a refusal and the end of a calibration are each one shared operation, which a boundary of the sequence follows; the averages stay within 24 bits, so that RAW, the offset and the
gain are stored as they are. -/
theorem convertersCalibrate : Obligations.ConvertersCalibrate := by
  unfold Obligations.ConvertersCalibrate
  refine ⟨fun s req x step entry ref h hrefuse => ?_, fun s req x entry ref h hentry hphase hidle hinjs => ?_, fun s x l v hon hcal hl hv => ?_,
    fun s x l v g hon hcal hl hv he hdiff hzlow hzhigh hg hglow hghigh => ?_, fun s x l step hon hcal hl hover => ?_, fun s x l hl => ?_, fun s req x h hphase => ?_,
    fun s x hphase hdue => ?_⟩
  · have hrefuses : s.chip.calRefuses x.val step.val entry.val := by simpa only [Chip.calRefuses, Fin.ext_iff, Fin.val_zero, Fin.val_one] using hrefuse
    rw [exec_sqCalibrateStep s req x ⟨step, entry, ref⟩ h, calStep_refused _ _ _ _ (calRefuses_taken _ _ _ _ _ hrefuses)]
    exact ⟨_, rfl, calTold_status _ _ 6 (by decide), (calTold_recorded _ _ 6).congr (calTaken_get _ _ _ _ (sqReg_ne x.val (by decide))).symm rfl rfl,
      (Effect.calTaken s x.val _).calTold x.val 6⟩
  · have hruns := calStep_zero_runs (s.chip.calTaken x.val ⟨0, entry, ref⟩) x.val entry.val (by rwa [calTaken_laste]) hphase hidle hinjs
    obtain ⟨hstatus, hact⟩ := zeroRuns_fields ((s.chip.calTaken x.val ⟨0, entry, ref⟩).calBegun x.val entry.val) x.val
    obtain ⟨hrun, hfor, hsince⟩ := zeroRuns_hw ((s.chip.calTaken x.val ⟨0, entry, ref⟩).calBegun x.val entry.val) x.val
    obtain ⟨hnamed, hnow⟩ := calBegun_hw (s.chip.calTaken x.val ⟨0, entry, ref⟩) x.val entry.val
    rw [exec_sqCalibrateStep s req x ⟨0, entry, ref⟩ h, Fin.val_zero, hruns]
    exact ⟨_, rfl, hstatus, hact, hrun, hfor.trans hnamed, hsince.trans hnow, effect_zeroRuns s x.val entry.val _⟩
  · have hv24 := average_in24 _ _ _ _ (by rw [hl]; exact Nat.two_pow_pos _) hv
    obtain ⟨hstatus, hraw⟩ := zeroDone_fields s.chip x.val v
    obtain ⟨hzero, hphase, hidle⟩ := zeroDone_hw s.chip x.val v
    rw [exec_sqCalibrationStepDone, calDone_average _ _ _ _ _ hon hcal hl hv, calAverage_zero _ _ _ hv24]
    exact ⟨_, rfl, hstatus, hraw, hzero, hphase, hidle, effect_zeroDone s x.val v⟩
  · have hv24 := average_in24 _ _ _ _ (by rw [hl]; exact Nat.two_pow_pos _) hv
    change g = s.chip.calGain x.val v at hg
    subst hg
    obtain ⟨hraw, hofs, hgain, hrecorded, hregs⟩ := calStored_ends s.chip x.val v (s.chip.calGain x.val v) he ⟨hzlow, hzhigh⟩ (by omega) (by omega)
    have hended := calEnd_ended (s.chip.calStored x.val v (s.chip.calGain x.val v)) x.val 5 (by decide)
    rw [exec_sqCalibrationStepDone, calDone_average _ _ _ _ _ hon hcal hl hv, calAverage_full _ _ _ hv24 hdiff hglow hghigh]
    exact ⟨_, rfl, hended.status, hraw, hofs, hgain, hrecorded, hended.phase, hended.faults, ⟨rfl, rfl, hregs.same⟩⟩
  · obtain ⟨k, hk, hload⟩ := hover
    have hnone : (s.chip.sqs.get x.val).inUse.average x.val l = none := by
      rcases List.mem_pair.1 hload with rfl | rfl
      · exact average_of_overload _ _ _ true hk
      · exact average_of_overload _ _ _ false hk
    have hended := calEnd_ended s.chip x.val 9 (by decide)
    rw [exec_sqCalibrationStepDone, calDone_overrange _ _ _ _ hon hcal hl hnone]
    exact ⟨_, rfl, hended.status, hended.recorded, hended.phase, hended.keeps⟩
  · rw [exec_sqCalibrationStepDone, calDone_of_length_ne _ _ _ hl]
    exact ⟨_, rfl, rfl⟩
  · have hended := calEnd_ended s.chip x.val 7 (by decide)
    rw [exec_sqCalibrateAbort s req x h, Chip.calAbort, if_neg hphase]
    exact ⟨_, rfl, hended.status, hended.recorded, hended.phase, hended.keeps⟩
  · have hrun : Machine.exec (.sqCalholdExpire x) s = .next { s with chip := s.chip.calHoldExpire x.val } := rfl
    have hended := calEnd_ended s.chip x.val 0xa (by decide)
    have hends : s.chip.calHoldExpire x.val = s.chip.calEnd x.val 0xa := if_pos (by simp [hphase, hdue])
    rw [hrun, hends]
    exact ⟨_, rfl, hended.status, hended.recorded, hended.phase, hended.keeps⟩

end Sys2Proof.Machine

namespace Sys2Proof.Machine

/-! A loop comparator: what an entry into its active state sets going (R242 to R245, R438). -/

theorem exec_loopComparatorActive (n : LoopId) (ov : Bool) (v : Int) (s : State) :
    Machine.exec (.loopComparatorActive n ov v) s = .next { s with chip := s.chip.comparatorOn n.val ov v } := by
  have hrun : Machine.exec (.loopComparatorActive n ov v) s = .next { s with chip := if s.chip.coreRuns then s.chip.comparatorOn n.val ov v else s.chip } := rfl
  rw [hrun]
  by_cases hcore : s.chip.coreRuns = true
  · rw [if_pos hcore]
  · rw [if_neg hcore, Chip.comparatorOn, if_pos (by simpa using hcore)]

/-- A loop with no auto-tune run has none to abort (R111). -/
theorem tuneAbort_of_idle (c : Chip) (n cause : Nat) (h : (c.tunes.get n).phase = .idle) : c.tuneAbort n cause = c := by
  simp only [Chip.tuneAbort, h]

theorem pmbLatch_onlyIn (c : Chip) (pages j b : Nat) : c.OnlyIn (· == PMB.STAT) (c.pmbLatch pages j b) := by
  have hlatched (x : PmbHw) : c.OnlyIn (· == PMB.STAT) { c with pmb := x } := (Chip.OnlyIn.refl _ c).upd rfl
  unfold Chip.pmbLatch
  exact .either ((hlatched _).put _ _ (beq_self_eq_true _)) (.refl _ c)

/-- Beside its registers a latch changes the status bytes alone, and only while HOST is on. -/
theorem pmbLatch_inner (c : Chip) (pages j b : Nat) :
    (c.pmbLatch pages j b).inner = if c.domOn .host then { c.inner with pmb := { c.inner.pmb with status := c.inner.pmb.status.upd (8 * j + b) (· ||| pages) } } else c.inner := by
  unfold Chip.pmbLatch
  split <;> rfl

/-- A latch posts nothing: doorbells, fault messages and outputs stay. -/
theorem pmbLatch_posts (c : Chip) (pages j b : Nat) : (c.pmbLatch pages j b).bells = c.bells ∧ (c.pmbLatch pages j b).bellOrder = c.bellOrder ∧
    (c.pmbLatch pages j b).faultQ = c.faultQ ∧ (c.pmbLatch pages j b).outbox = c.outbox := by
  unfold Chip.pmbLatch
  split <;> exact ⟨rfl, rfl, rfl, rfl⟩

theorem pmbLatch_sameBut {s t : Chip} {l : List Fld} (h : SameBut s t l) (pages j b : Nat) (hl : PMB.STAT_ALERT ∈ l) : SameBut s (t.pmbLatch pages j b) l := by
  unfold Chip.pmbLatch
  split
  · exact (h.congr rfl).put PMB.STAT_ALERT _ hl
  · exact h

theorem Effect.pmbLatch {s t : State} {fields : List Fld} {srcs : List Nat} {msgs : List FaultMsg} {outs : List Output}
    (e : Effect s t id fields srcs msgs outs) (pages j b : Nat) (hhost : ∀ f ∈ fields, PWR.DOMSTAT_HOST.apart f = true) :
    Effect s { t with chip := t.chip.pmbLatch pages j b } (fun c => c.pmbLatch pages j b) (fields ++ [PMB.STAT_ALERT]) srcs msgs outs := by
  obtain ⟨hbells, horder, hfaults, houts⟩ := pmbLatch_posts t.chip pages j b
  have hon : t.chip.domOn .host = s.chip.domOn .host := congrArg (· != 0) (e.fields PWR.DOMSTAT_HOST rfl hhost)
  have hinner : t.chip.inner = s.chip.inner := e.inner
  exact ⟨e.nvm, e.pending, by rw [pmbLatch_inner, pmbLatch_inner, hon, hinner], pmbLatch_sameBut (e.widen _ fun f hf => List.mem_append_left _ hf).fields _ _ _ (by simp),
    fun i => by rw [hbells, e.bells i], horder.trans e.order, hfaults.trans e.faults, houts.trans e.outputs⟩

/-- A comparator's output as its loop's registers show it, over-voltage or under-voltage (R244). -/
def cmplAct (ov : Bool) (n : Nat) : Fld := if ov then CMPL.EVT_OVACT n else CMPL.EVT_UVACT n

/-- Its flag (R245). -/
def cmplFlag (ov : Bool) (n : Nat) : Fld := if ov then CMPL.EVT_OVF n else CMPL.EVT_UVF n

/-- Its event counter (R245). -/
def cmplCnt (ov : Bool) (n : Nat) : Fld := if ov then CMPL.EVTCNT_OVCNT n else CMPL.EVTCNT_UVCNT n

/-- The event of an entry into the active state, and its cause. -/
def Chip.comparatorTold (c : Chip) (n : Nat) (ov : Bool) : Chip :=
  ((c.put (cmplAct ov n) 1).event (cmplFlag ov n) (cmplCnt ov n) (0x180 + n)).raise ⟨if ov then 0x6120 else 0x4121, n, c.reg (LOOP.ERRMON n)⟩

/-- The bit of STATUS_VOUT that a comparator latches (R438). -/
def cmplLatch (ov : Bool) : Nat := if ov then 7 else 4

theorem cmpl_places (n : Nat) : CMPL.EVT n ≠ CMPL.EVTCNT n ∧ CMPL.EVT n ≠ PMB.STAT ∧ CMPL.EVTCNT n ≠ PMB.STAT ∧ PWR.DOMSTAT ≠ CMPL.EVT n ∧ PWR.DOMSTAT ≠ CMPL.EVTCNT n := by
  simp only [CMPL.EVT, CMPL.EVTCNT, PMB.STAT, PWR.DOMSTAT]
  omega

theorem cmpl_fits (ov : Bool) (n : Nat) : (cmplAct ov n).fits = true ∧ (cmplFlag ov n).fits = true ∧ (cmplCnt ov n).fits = true := by
  cases ov <;> exact ⟨rfl, rfl, rfl⟩

theorem cmpl_offs (ov : Bool) (n : Nat) : (cmplAct ov n).off = CMPL.EVT n ∧ (cmplFlag ov n).off = CMPL.EVT n ∧ (cmplCnt ov n).off = CMPL.EVTCNT n := by
  cases ov <;> exact ⟨rfl, rfl, rfl⟩

theorem cmpl_apart (ov : Bool) (n : Nat) : (cmplAct ov n).apart (cmplFlag ov n) = true ∧ (cmplAct ov n).apart (cmplCnt ov n) = true ∧ (cmplFlag ov n).apart (cmplCnt ov n) = true ∧
    (cmplCnt ov n).apart (cmplAct ov n) = true ∧ (cmplCnt ov n).apart (cmplFlag ov n) = true := by
  obtain ⟨hact, hflag, hcnt⟩ := cmpl_offs ov n
  have hregs : CMPL.EVT n ≠ CMPL.EVTCNT n := (cmpl_places n).1
  refine ⟨?_, ?_, ?_, ?_, ?_⟩
  · cases ov <;> exact Fld.apart_of_bits _ _ rfl
  all_goals exact Fld.apart_of_off_ne _ _ (by simp only [hact, hflag, hcnt, ne_eq, hregs, hregs.symm, not_false_eq_true])

theorem comparatorTold_act (c : Chip) (n : Nat) (ov : Bool) : (c.comparatorTold n ov).get (cmplAct ov n) = 1 := by
  obtain ⟨hact, -, -⟩ := cmpl_fits ov n
  obtain ⟨hflag, hcnt, -⟩ := cmpl_apart ov n
  have hw : (cmplAct ov n).width = 1 := by cases ov <;> rfl
  rw [Chip.comparatorTold, get_raise, get_event_apart _ _ _ _ _ hact hflag hcnt, get_put_same _ _ _ hact, hw]
  rfl

theorem comparatorTold_recorded (c : Chip) (n : Nat) (ov : Bool) : Recorded c (c.comparatorTold n ov) (cmplFlag ov n) (cmplCnt ov n) := by
  obtain ⟨-, hflag, hcnt⟩ := cmpl_fits ov n
  obtain ⟨-, -, hfc, hca, hcf⟩ := cmpl_apart ov n
  have hw : (cmplFlag ov n).width = 1 := by cases ov <;> rfl
  exact (recorded_event _ _ _ (0x180 + n) hflag hcnt hfc hcf hw).congr (get_put_apart _ _ _ _ hcnt hca).symm rfl rfl

theorem effect_comparatorTold (s : State) (n : Nat) (ov : Bool) : Effect s { s with chip := s.chip.comparatorTold n ov } id [cmplAct ov n, cmplFlag ov n, cmplCnt ov n] [0x180 + n]
    [⟨if ov then 0x6120 else 0x4121, n, s.chip.reg (LOOP.ERRMON n)⟩] [] :=
  (((Effect.start s).put (cmplAct ov n) 1).event (cmplFlag ov n) (cmplCnt ov n) (0x180 + n)).raise _

/-- What an enabled entry into the active state shows, records and changes. -/
theorem comparatorTold_latched (s : State) (n : Nat) (ov : Bool) (t : Chip) (ht : t = (s.chip.comparatorTold n ov).pmbLatch (2 ^ n) 0 (cmplLatch ov)) :
    t.get (cmplAct ov n) = 1 ∧ Recorded s.chip t (cmplFlag ov n) (cmplCnt ov n) ∧
      Effect s { s with chip := t } (fun c => c.pmbLatch (2 ^ n) 0 (cmplLatch ov)) [cmplAct ov n, cmplFlag ov n, cmplCnt ov n, PMB.STAT_ALERT] [0x180 + n]
        [⟨if ov then 0x6120 else 0x4121, n, s.chip.reg (LOOP.ERRMON n)⟩] [] := by
  subst ht
  obtain ⟨hact, hflag, hcnt⟩ := cmpl_offs ov n
  obtain ⟨-, hevt, hevtcnt, hdomevt, hdomcnt⟩ := cmpl_places n
  have hlatch (f : Fld) (hf : f.off ≠ PMB.STAT) := (pmbLatch_onlyIn (s.chip.comparatorTold n ov) (2 ^ n) 0 (cmplLatch ov)).get f (by simpa using hf)
  refine ⟨(hlatch _ (by rwa [hact])).trans (comparatorTold_act _ _ _),
    (comparatorTold_recorded _ _ _).congr rfl (hlatch _ (by rwa [hflag])) (hlatch _ (by rwa [hcnt])), (effect_comparatorTold s n ov).pmbLatch _ _ _ fun f hf => Fld.apart_of_off_ne _ _ ?_⟩
  simp only [List.mem_cons, List.not_mem_nil, or_false] at hf
  rcases hf with rfl | rfl | rfl
  · rwa [hact]
  · rwa [hflag]
  · rwa [hcnt]

/-- The loop's comparator compares, and its input is past the threshold: an output that was inactive becomes active (R242 to R244). -/
def Chip.comparatorTrips (c : Chip) (n : Nat) (ov : Bool) (v : Int) : Prop :=
  c.get (cmplAct ov n) = 0 ∧ if ov then ((4 * c.ovThreshold n : Nat) : Int) < v
    else c.uvCompares n = true ∧ v < (4 * (c.get (LOOP.TARGET_VTGT n) - 4 * c.get (CMPL.REL_UVREL n)) : Nat)

theorem put_cmplAct_errmon (c : Chip) (n v : Nat) (ov : Bool) (hn : n < 32) : (c.put (cmplAct ov n) v).reg (LOOP.ERRMON n) = c.reg (LOOP.ERRMON n) := by
  obtain ⟨hact, -, -⟩ := cmpl_offs ov n
  refine reg_put_other _ _ _ _ ?_
  rw [hact, LOOP.ERRMON, CMPL.EVT]
  omega

/-- The bit that enables a comparator's event (R245). -/
def cmplEn (ov : Bool) (n : Nat) : Fld := if ov then CMPL.CFG_OVEN n else CMPL.CFG_UVEN n

theorem comparatorOn_of_trips (c : Chip) (n : LoopId) (ov : Bool) (v : Int) (hcore : c.coreRuns = true) (hidle : (c.tunes.get n.val).phase = .idle) (htrips : c.comparatorTrips n.val ov v) :
    c.comparatorOn n.val ov v =
      if c.bit (cmplEn ov n.val) then (c.comparatorTold n.val ov).pmbLatch (2 ^ n.val) 0 (cmplLatch ov) else c.put (cmplAct ov n.val) 1 := by
  obtain ⟨hact, hpast⟩ := htrips
  have habort : (c.put (cmplAct ov n.val) 1).tuneAbort n.val 8 = c.put (cmplAct ov n.val) 1 := tuneAbort_of_idle _ _ _ hidle
  have hoff : c.bit (cmplAct ov n.val) = false := by rw [Chip.bit, hact]; rfl
  have herr := put_cmplAct_errmon c n.val 1 ov n.isLt
  cases ov with
  | true =>
    have hthr : decide (v ≤ ((4 * c.ovThreshold n.val : Nat) : Int)) = false := decide_eq_false (not_le.2 hpast)
    simp only [cmplAct, if_true] at hoff habort herr
    simp only [Chip.comparatorOn, hcore, hoff, hthr, habort, herr, Bool.not_true, Bool.or_self, Bool.false_eq_true, if_false, if_true, Chip.comparatorTold, cmplAct, cmplFlag, cmplCnt, cmplEn,
      cmplLatch]
  | false =>
    obtain ⟨hcompares, hbelow⟩ := hpast
    have hthr : decide (((4 * (c.get (LOOP.TARGET_VTGT n.val) - 4 * c.get (CMPL.REL_UVREL n.val)) : Nat) : Int) ≤ v) = false := decide_eq_false (not_le.2 hbelow)
    simp only [cmplAct, Bool.false_eq_true, if_false] at hoff habort herr
    simp only [Chip.comparatorOn, hcore, hcompares, hoff, hthr, habort, herr, Bool.not_true, Bool.or_self, Bool.false_eq_true, if_false, Chip.comparatorTold, cmplAct, cmplFlag, cmplCnt, cmplEn,
      cmplLatch]

/-- An OV output that stays active counts once (R244). -/
theorem comparatorOn_of_active (c : Chip) (n : Nat) (v : Int) (hact : c.get (CMPL.EVT_OVACT n) = 1) : c.comparatorOn n true v = c := by
  have hbit : c.bit (CMPL.EVT_OVACT n) = true := by rw [Chip.bit, hact]; rfl
  simp [Chip.comparatorOn, hbit]

/-- Outside RUN and TUNE, while the target moves, and masked, the UV comparator does not compare (R242, R243). -/
theorem comparatorOn_of_not_compares (c : Chip) (n : Nat) (v : Int) (h : c.uvCompares n = false) : c.comparatorOn n false v = c := by
  simp [Chip.comparatorOn, h]

/-- With the target still, the OV threshold follows it in RUN and TUNE (R242). -/
theorem ovThreshold_still (c : Chip) (n : Nat) (hstate : c.loopState n ∈ [2, 4]) (hstill : c.get (LOOP.TARGET_RAMPING n) = 0) (hhold : (c.loops.get n).vhiAt = none) :
    c.ovThreshold n = min (c.get (CMPL.ABS_OVABS n)) (c.get (LOOP.TARGET_VTGT n) + 4 * c.get (CMPL.REL_OVREL n)) := by
  have hruns : ¬(c.loopState n = 0 ∨ c.loopState n = 1) := by
    rcases List.mem_pair.1 hstate with h | h <;> omega
  simp [Chip.ovThreshold, Chip.bit, hruns, hstill, hhold]

theorem ovThreshold_off (c : Chip) (n : Nat) (hstate : c.loopState n ∈ [0, 1]) : c.ovThreshold n = c.get (CMPL.ABS_OVABS n) := by
  simp [Chip.ovThreshold, List.mem_pair.1 hstate]

theorem uvCompares_iff (c : Chip) (n : Nat) : c.uvCompares n = true ↔ c.loopState n ∈ [2, 4] ∧ c.get (LOOP.TARGET_RAMPING n) = 0 ∧ (c.loops.get n).maskAt = none := by
  simp [Chip.uvCompares, Chip.bit, and_assoc]

/-! The mask of the UV comparator (R242, R243). -/

theorem exec_uvMaskEnd (s : State) (n : LoopId) : Machine.exec (.uvMaskEnd n) s = .next { s with chip := if s.chip.coreRuns then s.chip.uvMaskEnd n.val else s.chip } := rfl

/-- RBLK has passed since the mask and the hold of the highest target began: both end. -/
theorem uvMaskEnd_of_past (c : Chip) (n a : Nat) (hmask : (c.loops.get n).maskAt = some a) (hhold : (c.loops.get n).vhiAt = some a) (hpast : a + c.get (CMPL.CFG_RBLK n) ≤ c.now) :
    c.uvMaskEnd n = c.engUpd n fun h => { h with maskAt := none, vhiAt := none } := by
  simp [Chip.uvMaskEnd, Chip.engUpd, Tbl.upd, hmask, hhold, hpast]

theorem uvMaskEnd_of_early (c : Chip) (n a : Nat) (hmask : (c.loops.get n).maskAt = some a) (hearly : c.now < a + c.get (CMPL.CFG_RBLK n)) :
    ((c.uvMaskEnd n).loops.get n).maskAt = some a := by
  simp [Chip.uvMaskEnd, Chip.engUpd, hmask, not_le.2 hearly]

/-! The return (R244). -/

theorem exec_loopComparatorInactive (s : State) (n : LoopId) (ov : Bool) (hcore : s.chip.coreRuns = true) :
    Machine.exec (.loopComparatorInactive n ov) s = .next { s with chip := s.chip.put (cmplAct ov n.val) 0 } := by
  have hrun : Machine.exec (.loopComparatorInactive n ov) s = .next { s with chip := if s.chip.coreRuns then s.chip.put (cmplAct ov n.val) 0 else s.chip } := rfl
  rw [hrun, if_pos hcore]

theorem comparatorInactive_spec (s : State) (n : LoopId) (ov : Bool) (hcore : s.chip.coreRuns = true) :
    ∃ t, Machine.exec (.loopComparatorInactive n ov) s = .next t ∧ t.chip.get (cmplAct ov n.val) = 0 ∧ Effect s t id [cmplAct ov n.val] [] [] [] := by
  obtain ⟨hact, -, -⟩ := cmpl_fits ov n.val
  exact ⟨_, exec_loopComparatorInactive s n ov hcore, (get_put_same _ _ _ hact).trans (Nat.zero_mod _), (Effect.start s).put _ 0⟩

/-- An enabled comparator's entry into the active state, as the statements say it. -/
theorem comparatorActive_spec (s : State) (n : LoopId) (ov : Bool) (v : Int) (hcore : s.chip.coreRuns = true) (hen : s.chip.get (cmplEn ov n.val) = 1)
    (hidle : (s.chip.tunes.get n.val).phase = .idle) (htrips : s.chip.comparatorTrips n.val ov v) :
    ∃ t, Machine.exec (.loopComparatorActive n ov v) s = .next t ∧ t.chip.get (cmplAct ov n.val) = 1 ∧ Recorded s.chip t.chip (cmplFlag ov n.val) (cmplCnt ov n.val) ∧
      Effect s t (fun c => c.pmbLatch (2 ^ n.val) 0 (cmplLatch ov)) [cmplAct ov n.val, cmplFlag ov n.val, cmplCnt ov n.val, PMB.STAT_ALERT] [0x180 + n.val]
        [⟨if ov then 0x6120 else 0x4121, n.val, s.chip.reg (LOOP.ERRMON n.val)⟩] [] := by
  have hbit : s.chip.bit (cmplEn ov n.val) = true := by rw [Chip.bit, hen]; rfl
  have hon := comparatorOn_of_trips s.chip n ov v hcore hidle htrips
  rw [if_pos hbit] at hon
  exact ⟨_, exec_loopComparatorActive n ov v s, comparatorTold_latched s n.val ov _ hon⟩

/-- Settles O19: an entry into the active state is one operation for both comparators, which an output that is active, and a UV output that is not compared, never reach. -/
theorem loopComparatorsProtect : Obligations.LoopComparatorsProtect := by
  unfold Obligations.LoopComparatorsProtect
  refine ⟨fun s n v hcore hstate hstill hhold hact hen hidle hover => ?_, fun s n v hcore hstate hact hen hidle hover => ?_, fun s n v _ hact => ?_,
    fun s n v hcore hstate hstill hmask hact hen hidle hbelow => ?_, fun s n v _ hmasked => ?_, fun s n a hcore hmask hhold hpast => ?_, fun s n a _ hmask hearly => ?_,
    fun s n hcore => comparatorInactive_spec s n true hcore, fun s n hcore => comparatorInactive_spec s n false hcore⟩
  · refine comparatorActive_spec s n true v hcore hen hidle ⟨hact, ?_⟩
    simp only [if_true, ovThreshold_still _ _ hstate hstill hhold, Nat.cast_mul, Nat.cast_ofNat]
    exact hover
  · have htrips : s.chip.comparatorTrips n.val true v := ⟨hact, by simpa only [if_true, ovThreshold_off _ _ hstate] using hover⟩
    have hbit : ¬s.chip.bit (cmplEn true n.val) = true := by rw [Chip.bit, show s.chip.get (cmplEn true n.val) = 0 from hen]; decide
    have hon := comparatorOn_of_trips s.chip n true v hcore hidle htrips
    rw [if_neg hbit] at hon
    rw [exec_loopComparatorActive, hon]
    exact ⟨_, rfl, get_put_same _ _ _ rfl, (Effect.start s).put _ 1⟩
  · rw [exec_loopComparatorActive, comparatorOn_of_active _ _ _ hact]
    exact ⟨_, rfl, rfl⟩
  · exact comparatorActive_spec s n false v hcore hen hidle ⟨hact, (uvCompares_iff _ _).2 ⟨hstate, hstill, hmask⟩, hbelow⟩
  · have hnot : s.chip.uvCompares n.val = false := by
      refine Bool.eq_false_iff.2 fun h => ?_
      obtain ⟨hstate, hstill, hmask⟩ := (uvCompares_iff _ _).1 h
      rcases hmasked with hout | hramps | hsome
      · exact hout hstate
      · omega
      · simp [hmask] at hsome
    rw [exec_loopComparatorActive, comparatorOn_of_not_compares _ _ _ hnot]
    exact ⟨_, rfl, rfl⟩
  · rw [exec_uvMaskEnd, if_pos hcore, uvMaskEnd_of_past _ _ _ hmask hhold hpast]
    exact ⟨_, rfl, congrArg LoopHw.maskAt (Tbl.get_upd_same _ _ _),
      (Effect.start s).innerStep (fun c => c.engUpd n.val fun h => { h with maskAt := none, vhiAt := none }) rfl rfl rfl rfl rfl rfl⟩
  · rw [exec_uvMaskEnd]
    refine ⟨_, rfl, ?_, ?_⟩ <;> dsimp only <;> split
    · exact uvMaskEnd_of_early _ _ _ hmask hearly
    · exact hmask
    · rfl
    · rfl

end Sys2Proof.Machine

namespace Sys2Proof.Machine

/-! The request for a confirmation: an injection into a sequenced converter of the hub (R223, R249). -/

/-- Converter x moves on: registers of its own alone change, no pair's ticks are counted, and nothing is posted or put out. -/
structure Chip.Converts (x : Nat) (s t : Chip) : Prop where
  regs : s.OnlyIn (sqRegs x) t
  undet : t.undet = s.undet
  faults : t.faultQ = s.faultQ
  outs : t.outbox = s.outbox

namespace Chip.Converts

variable {x : Nat} {s t u : Chip}

theorem refl (x : Nat) (s : Chip) : Converts x s s := ⟨.refl _ _, rfl, rfl, rfl⟩

theorem trans (h : Converts x s t) (k : Converts x t u) : Converts x s u :=
  ⟨h.regs.trans k.regs, k.undet.trans h.undet, k.faults.trans h.faults, k.outs.trans h.outs⟩

theorem setReg (h : Converts x s t) (o : Nat) (w : Word) (ho : sqRegs x o = true) : Converts x s (t.setReg o w) := ⟨h.regs.setReg o w ho, h.undet, h.faults, h.outs⟩

theorem put (h : Converts x s t) (f : Fld) (v : Nat) (hf : sqRegs x f.off = true) : Converts x s (t.put f v) := h.setReg _ _ hf

theorem sqUpd (h : Converts x s t) (f : SqHw → SqHw) : Converts x s (t.sqUpd x f) := ⟨h.regs.sqUpd x f, h.undet, h.faults, h.outs⟩

theorem sqRun (h : Converts x s t) (e : Nat) (r : SqRun) : Converts x s (t.sqRun x e r) := h.sqUpd _

theorem either {b : Prop} [Decidable b] (h : Converts x s t) (k : Converts x s u) : Converts x s (if b then t else u) := by
  split
  · exact h
  · exact k

end Chip.Converts

theorem sqNext_converts (c : Chip) (x : Nat) : c.Converts x (c.sqNext x) := by
  have hrefl : c.Converts x c := .refl x c
  have hstatus : c.Converts x (c.put (SQ.CALST_STATUS x) 2) := hrefl.put _ _ (sqRegs_of_lt x _ (by decide))
  unfold Chip.sqNext
  dsimp only
  split
  · exact hrefl
  · refine .put ?_ _ _ (sqRegs_of_lt x _ (by decide))
    split
    · split
      · exact hrefl.sqRun _ _
      · exact .either ((hstatus.sqUpd _).sqRun _ _) (.either (hrefl.sqRun _ _) (.either (hrefl.sqRun _ _) hrefl))
    · split
      · exact hrefl.sqRun _ _
      · exact .either (.sqRun ((hrefl.sqUpd _).put (SQ.STAT_CUR x) _ (sqRegs_of_lt x _ (by decide))) _ _) (hrefl.sqUpd _)

theorem sqSlot_lt (c : Chip) (x k : Nat) (h : c.sqSlot x = some k) : k < 4 := by
  have hmem := List.mem_of_find?_eq_some h
  split at hmem
  · simp only [List.mem_cons, List.not_mem_nil, or_false] at hmem
    omega
  · obtain ⟨j, -, rfl⟩ := List.mem_map.1 hmem
    exact Nat.mod_lt _ (by decide)

theorem sqTakeSlot_converts (c : Chip) (x k e : Nat) (confirm : Option Nat) (hk : k < 4) : c.Converts x (c.sqTakeSlot x k e confirm) := by
  have hpend := ((Chip.Converts.refl x c).put (SQ.INJST_LAST x) k (sqRegs_of_lt x _ (by decide))).put (SQ.INJST_PEND x) (setBitAt (c.get (SQ.INJST_PEND x)) k true) (sqRegs_of_lt x _ (by decide))
  have hres : sqRegs x (SQ.INJRES x k) = true := by
    rw [SQ.INJRES, Nat.add_assoc]
    exact sqRegs_of_lt x _ (by omega)
  exact (hpend.setReg _ 0 hres).sqUpd _

theorem sqConfirm_converts (c : Chip) (x e r : Nat) : c.Converts x (c.sqConfirm x e r) := by
  unfold Chip.sqConfirm
  split
  · exact (Chip.Converts.refl x c).sqUpd _
  · next k hslot => exact (sqTakeSlot_converts c x k e (some r) (sqSlot_lt c x k hslot)).trans (sqNext_converts _ x)

theorem span_iff {a b o : Nat} : span a b o = true ↔ a ≤ o ∧ o < b := by simp [span]

/-- CONFSQ names one of the two converters of the hub (R249, R503). -/
theorem sqRegs_confSq (c : Chip) (r o : Nat) (h : sqRegs (c.confSq r) o = true) : span 0x1d000 0x1d800 o = true := by
  have hlt : c.confSq r < 2 ^ 1 := Nat.mod_lt _ (Nat.two_pow_pos 1)
  rw [sqRegs, sqBase_hub hlt, span_iff] at h
  exact span_of_le_lt ⟨by omega, by omega⟩

/-- The request made: CONFPEND is set, and the undetermined ticks are counted anew. -/
def Chip.confAsked (c : Chip) (r : Nat) : Chip := { c with undet := c.undet.set r 0 }.put (WMON.STAT_CONFPEND r) 1

theorem wmConfirm_due (c : Chip) (r : Nat) (hen : c.get (WMON.CFG_EN r) = 1) (hconf : c.get (WMON.CFG_CONFEN r) = 1) (hstate : c.get (WMON.STAT_STATE r) = 3)
    (hpend : c.get (WMON.STAT_CONFPEND r) = 0) (hdue : 2 ^ c.get (WMON.CFG_CONFDLY r) ≤ c.undet.get r) (hhka : c.domOn .hka = true) :
    c.wmConfirm r = (c.confAsked r).sqConfirm (c.confSq r) (c.get (WMON.CFG_CONFENT r)) r := by
  simp [Chip.wmConfirm, Chip.bit, hen, hconf, hstate, hpend, hdue, hhka, Chip.confAsked]

/-- A monitor's registers lie below those of the converters. -/
theorem sqRegs_wmStat (c : Chip) (q r : Nat) (hr : r < 64) : sqRegs (c.confSq q) (WMON.STAT r) = false := by
  refine Bool.eq_false_iff.2 fun h => ?_
  obtain ⟨hlow, -⟩ := span_iff.1 (sqRegs_confSq c q _ h)
  rw [WMON.STAT] at hlow
  omega

theorem confAsked_fields (c : Chip) (r : Nat) : (c.confAsked r).get (WMON.STAT_CONFPEND r) = 1 ∧ (c.confAsked r).get (WMON.STAT_STATE r) = c.get (WMON.STAT_STATE r) ∧
    (c.confAsked r).undet.get r = 0 :=
  ⟨get_put_same _ _ _ rfl, get_put_apart _ _ _ _ rfl (Fld.apart_of_bits _ _ rfl), Tbl.get_set_same _ _ _⟩

theorem confAsked_onlyIn (c : Chip) (r : Nat) : c.OnlyIn (· == WMON.STAT r) (c.confAsked r) := by
  have hcount : c.OnlyIn (· == WMON.STAT r) { c with undet := c.undet.set r 0 } := (Chip.OnlyIn.refl _ c).upd rfl
  exact hcount.put _ _ (beq_self_eq_true _)

/-- A request that is due, as the statement says it. -/
theorem windowConfirm_spec (s : State) (r : RailId) (hen : s.chip.get (WMON.CFG_EN r.val) = 1) (hconf : s.chip.get (WMON.CFG_CONFEN r.val) = 1)
    (hstate : s.chip.get (WMON.STAT_STATE r.val) = 3) (hpend : s.chip.get (WMON.STAT_CONFPEND r.val) = 0) (hdue : 2 ^ s.chip.get (WMON.CFG_CONFDLY r.val) ≤ s.chip.undet.get r.val)
    (hhka : s.chip.domOn .hka = true) : ∃ t, Machine.exec (.windowConfirmRequest r) s = .next t ∧
      t.chip.get (WMON.STAT_CONFPEND r.val) = 1 ∧ t.chip.get (WMON.STAT_STATE r.val) = 3 ∧ t.chip.undet.get r.val = 0 ∧ t.chip.faultQ = s.chip.faultQ ∧ t.chip.outbox = s.chip.outbox ∧
      Keeps s t (fun o => o == WMON.STAT r.val || span 0x1d000 0x1d800 o) := by
  have hrun : Machine.exec (.windowConfirmRequest r) s = .next { s with chip := s.chip.wmConfirm r.val } := rfl
  have hconverts := sqConfirm_converts (s.chip.confAsked r.val) (s.chip.confSq r.val) (s.chip.get (WMON.CFG_CONFENT r.val)) r.val
  have hstat := sqRegs_wmStat s.chip r.val r.val r.isLt
  obtain ⟨hasked, hkept, hcount⟩ := confAsked_fields s.chip r.val
  rw [hrun, wmConfirm_due _ _ hen hconf hstate hpend hdue hhka]
  refine ⟨_, rfl, (hconverts.regs.get _ hstat).trans hasked, (hconverts.regs.get _ hstat).trans (hkept.trans hstate), by rw [hconverts.undet]; exact hcount, hconverts.faults, hconverts.outs,
    rfl, rfl, (((confAsked_onlyIn _ _).mono fun o ho => ?_).trans (hconverts.regs.mono fun o ho => ?_)).same⟩
  · rw [ho, Bool.true_or]
  · rw [sqRegs_confSq _ _ _ ho, Bool.or_true]

end Sys2Proof.Machine

namespace Sys2Proof.Machine

/-! What a tick sets going elsewhere: generators, auto-tune runs and the sequencer write registers of their own, which lie beyond those of the monitors. -/

/-- Registers from 0x10000 on: those of CORE, HOST and the dies (R503, R504). -/
def beyond (o : Nat) : Bool := decide (0x10000 ≤ o)

theorem beyond_of_le {o : Nat} (h : 0x10000 ≤ o) : beyond o = true := decide_eq_true h

/-- A register of a row of blocks on the hub. -/
theorem beyond_hub {a b : Nat} (h : 0x10000 ≤ a) : beyond (a + b) = true := beyond_of_le (Nat.le_add_right_of_le h)

/-- A register of a die. -/
theorem beyond_die (d a b : Nat) : beyond (dieBase d + a + b) = true := by
  refine beyond_of_le ?_
  rw [dieBase]
  omega

/-- Registers below 0x10000, among them the monitors', and the counts of undetermined ticks stay. -/
structure Chip.Spares (s t : Chip) : Prop where
  regs : s.OnlyIn beyond t
  undet : t.undet = s.undet

namespace Chip.Spares

variable {s t u : Chip}

theorem refl (s : Chip) : Spares s s := ⟨.refl _ _, rfl⟩

theorem trans (h : Spares s t) (k : Spares t u) : Spares s u := ⟨h.regs.trans k.regs, k.undet.trans h.undet⟩

/-- The other parts of the chip do not count. -/
theorem upd (h : Spares s t) (hr : u.regs = t.regs) (hu : u.undet = t.undet) : Spares s u := ⟨h.regs.upd hr, hu.trans h.undet⟩

theorem put (h : Spares s t) (f : Fld) (v : Nat) (hf : beyond f.off = true) : Spares s (t.put f v) := ⟨h.regs.put f v hf, h.undet⟩

theorem putB (h : Spares s t) (f : Fld) (b : Bool) (hf : beyond f.off = true) : Spares s (t.putB f b) := h.put f _ hf

theorem add (h : Spares s t) (f : Fld) (n : Nat) (hf : beyond f.off = true) : Spares s (t.add f n) := h.put f _ hf

theorem incWrap (h : Spares s t) (f : Fld) (hf : beyond f.off = true) : Spares s (t.incWrap f) := h.put f _ hf

theorem bell (h : Spares s t) (i : Nat) : Spares s (t.bell i) := h.upd rfl rfl

theorem raise (h : Spares s t) (m : FaultMsg) : Spares s (t.raise m) := h.upd rfl rfl

theorem out (h : Spares s t) (o : Output) : Spares s (t.out o) := h.upd rfl rfl

theorem event (h : Spares s t) (f g : Fld) (i : Nat) (hf : beyond f.off = true) (hg : beyond g.off = true) : Spares s (t.event f g i) := ((h.put f 1 hf).add g 1 hg).bell i

theorem either {b : Prop} [Decidable b] (h : Spares s t) (k : Spares s u) : Spares s (if b then t else u) := by
  split
  · exact h
  · exact k

theorem foldl {β : Type} {l : List β} {f : Chip → β → Chip} (h : Spares s t) (hf : ∀ x c, Spares c (f c x)) : Spares s (l.foldl f t) := by
  induction l generalizing t with
  | nil => exact h
  | cons x l ih => exact ih (h.trans (hf x t))

theorem forEach {l : List Nat} {f : Nat → Chip → Chip} (h : Spares s t) (hf : ∀ i c, Spares c (f i c)) : Spares s (t.forEach l f) := h.foldl fun i c => hf i c

end Chip.Spares

/-! The window trip wires (R138 to R141, R250). -/

namespace Chip.Spares

variable {s t : Chip}

theorem genUpd (h : s.Spares t) (p : Nat) (f : GenHw → GenHw) : s.Spares (t.genUpd p f) := h.upd rfl rfl

theorem genShow (h : s.Spares t) (p : Nat) : s.Spares (t.genShow p) := by
  unfold Chip.genShow
  exact (h.put _ _ (beyond_die _ _ _)).putB _ _ (beyond_die _ _ _)

theorem tripLatch (h : s.Spares t) (p : Nat) : s.Spares (t.tripLatch p) := by
  have hlat (v : Nat) := (h.put (PWM.TRIPST_LAT p) v (beyond_die _ _ _)).put (PWM.TRIPST_TRIPF p) 1 (beyond_die _ _ _)
  have hcnt (v k : Nat) := (hlat v).add (PWM.TRIPCNT_LTCNT p) k (beyond_die _ _ _)
  unfold Chip.tripLatch
  exact .either h (.genUpd (.forEach (.foldl (hcnt _ _) fun _ u => .bell (.refl u) _) fun _ u => .genUpd (.refl u) _ _) _ _)

theorem tripCycle (h : s.Spares t) (p : Nat) : s.Spares (t.tripCycle p) := by
  have hevent := h.event (PWM.TRIPST_CBCF p) (PWM.TRIPCNT_CBCCNT p) (srcPwm p) (beyond_die _ _ _) (beyond_die _ _ _)
  unfold Chip.tripCycle
  exact .either h (.genUpd (.forEach (.genUpd (.either h hevent) _ _) fun _ u => .genUpd (.refl u) _ _) _ _)

theorem tripEval (h : s.Spares t) (p : Nat) : s.Spares (t.tripEval p) := by
  have hact := ((h.put (PWM.TRIPST_ACT p) (t.tripInputs p) (beyond_die _ _ _)).tripLatch p).tripCycle p
  unfold Chip.tripEval Chip.genShowAll
  exact .either ((hact.genShow _).genShow _) (hact.genShow _)

theorem wmWires (h : s.Spares t) (r : Nat) : s.Spares (t.wmWires r) := by
  refine h.forEach fun d u => ?_
  have hdies (x : Tbl DieHw fun _ => {}) : u.Spares { u with dies := x } := (refl u).upd rfl rfl
  unfold Chip.setWmWire
  exact .either (.refl u) (.either ((hdies _).forEach fun p v => (refl v).tripEval p) (hdies _))

/-! Auto-tune (R111). -/

theorem askDrop (h : s.Spares t) (a : Asker) : s.Spares (t.askDrop a) := by
  unfold Chip.askDrop
  exact .either (h.upd rfl rfl) (h.upd rfl rfl)

theorem askDone (h : s.Spares t) (a : Asker) : s.Spares (t.askDone a) := by
  unfold Chip.askDone
  exact .either (h.upd rfl rfl) h

theorem tuneUpd (h : s.Spares t) (n : Nat) (f : TuneHw → TuneHw) : s.Spares (t.tuneUpd n f) := h.upd rfl rfl

theorem tuneAbort (h : s.Spares t) (n cause : Nat) : s.Spares (t.tuneAbort n cause) := by
  have hresult := (h.put (COEF.TUNESTAT_RESULT n) 4 (beyond_hub (by decide))).put (COEF.TUNESTAT_CAUSE n) cause (beyond_hub (by decide))
  have hmark := hresult.event (COEF.TUNEEVT_ABRTF n) (COEF.TUNEEVT_ABRTCNT n) (srcCoef n) (beyond_hub (by decide)) (beyond_hub (by decide))
  unfold Chip.tuneAbort
  dsimp only
  split
  · exact h
  · exact h
  · exact (hmark.askDrop _).tuneUpd n _
  · exact (hmark.askDone _).tuneUpd n _
  · exact hmark.tuneUpd n _

theorem tuneAbortAll (h : s.Spares t) (cause : Nat) : s.Spares (t.tuneAbortAll cause) := h.forEach fun n u => (refl u).tuneAbort n cause

end Chip.Spares

/-! The event ring and the guard windows, which a change of a domain reaches (R356, R430). -/

namespace Chip.Spares

variable {s t : Chip}

theorem linkWake (h : s.Spares t) : s.Spares t.linkWake := .either (h.put _ _ rfl) h

theorem signalVec (h : s.Spares t) (v : Nat) : s.Spares (t.signalVec v) := by
  have hpend : s.Spares (t.put (PBA.BITS_PEND 0) (setBitAt (t.get (PBA.BITS_PEND 0)) v true)) := h.put _ _ rfl
  unfold Chip.signalVec
  exact .either h (.either (.either (h.linkWake.out _) hpend) (.either (.either (hpend.out _) (hpend.linkWake.out _)) hpend))

theorem withRings (h : s.Spares t) (r : Tbl RingHw fun _ => {}) : s.Spares { t with rings := r } := h.upd rfl rfl

theorem ringCount (h : s.Spares t) (r : Nat) (irq : Bool) : s.Spares (t.ringCount r irq) := by
  unfold Chip.ringCount
  exact .either (((h.withRings _).withRings _).signalVec _) (h.withRings _)

theorem ringStore (h : s.Spares t) (r : Nat) (bytes : List Byte) : s.Spares (t.ringStore r bytes) := by
  have hwritten (e : Output) := (h.out e).incWrap (RING.DIDX_DIDX r) (beyond_hub (by decide))
  have hcounted (e : Output) (b : Prop) [Decidable b] := either (b := b) ((hwritten e).incWrap (RING.CNT_CNT r) (beyond_hub (by decide))) (hwritten e)
  unfold Chip.ringStore Chip.fullShow
  exact (((hcounted _ _).out _).withRings _).putB _ _ (beyond_hub (by decide))

theorem ringDrop (h : s.Spares t) (r : Nat) : s.Spares (t.ringDrop r) := (h.add (RING.CNT_CNT r) 1 (beyond_hub (by decide))).withRings _

theorem hostEvent (h : s.Spares t) (type inst : Nat) (body : List Byte) : s.Spares (t.hostEvent type inst body) := by
  have hhif (x : HifHw) : s.Spares { t with hif := x } := h.upd rfl rfl
  unfold Chip.hostEvent
  exact .either h (.either ((hhif _).ringDrop _) (.either (.either (hhif _) ((hhif _).ringDrop _)) (.either ((hhif _).ringDrop _) (((hhif _).ringStore _ _).ringCount _ _))))

theorem guardShow (h : s.Spares t) : s.Spares t.guardShow := by
  unfold Chip.guardShow
  exact (h.put FLT.STAT_GREASON _ rfl).putB FLT.STAT_GUARD _ rfl

theorem withFlt (h : s.Spares t) (x : FltHw) : s.Spares { t with flt := x } := h.upd rfl rfl

theorem guardOpen (h : s.Spares t) (g : Nat) : s.Spares (t.guardOpen g) := by
  unfold Chip.guardOpen
  exact .either h (h.withFlt _).guardShow

theorem guardClose (h : s.Spares t) (g : Nat) : s.Spares (t.guardClose g) := (h.withFlt _).guardShow

/-! The sequencer (R322 to R343). -/

theorem railUpd (h : s.Spares t) (r : Nat) (f : RailHw → RailHw) : s.Spares (t.railUpd r f) := h.upd rfl rfl

theorem domUpd (h : s.Spares t) (d : Nat) (f : DomHw → DomHw) : s.Spares (t.domUpd d f) := h.upd rfl rfl

theorem guardDomains (h : s.Spares t) : s.Spares t.guardDomains := by
  have hone (b : Prop) [Decidable b] : s.Spares (if b then t.guardClose 1 else t) := .either (h.guardClose 1) h
  unfold Chip.guardDomains
  exact .either (hone _) ((hone _).guardClose 4)

theorem metRefresh (h : s.Spares t) : s.Spares t.metRefresh := h.forEach fun r u => (refl u).railUpd r _

theorem domStartNow (h : s.Spares t) (d : Nat) (requal : Bool) : s.Spares (t.domStartNow d requal) := by
  have hrails (l : List Nat) : s.Spares (t.forEach l fun r t => ((t.put (SEQR.STAT_STATE r) 1).put (SEQR.STAT_CAUSE r) 0).railUpd r fun h => { h with metAt := none }) :=
    h.forEach fun r u => (((refl u).put _ _ (beyond_hub (by decide))).put _ _ (beyond_hub (by decide))).railUpd r _
  unfold Chip.domStartNow
  exact .either (hrails _).metRefresh (.metRefresh (.either (((hrails _).domUpd _ _).guardOpen 4) ((hrails _).domUpd _ _)))

theorem domShow (h : s.Spares t) (d : Nat) : s.Spares (t.domShow d) := by
  have hcounts (k m : Nat) := (h.put (SEQD.STAT_NRAIL d) k (beyond_hub (by decide))).put (SEQD.STAT_NGOOD d) m (beyond_hub (by decide))
  have hstate (k m st : Nat) := (hcounts k m).put (SEQD.STAT_STATE d) st (beyond_hub (by decide))
  have hup (k m st : Nat) := (hstate k m st).event (SEQD.EVT_UPF d) (SEQD.EVTCNT_UPCNT d) (srcDom d) (beyond_hub (by decide)) (beyond_hub (by decide))
  have hdown (k m st : Nat) := (hstate k m st).event (SEQD.EVT_DOWNF d) (SEQD.EVTCNT_DOWNCNT d) (srcDom d) (beyond_hub (by decide)) (beyond_hub (by decide))
  unfold Chip.domShow
  exact .either (hcounts _ _) (.hostEvent (.either ((hup _ _ _).domUpd _ _) (.either (hdown _ _ _) (.either ((hstate _ _ _).domUpd _ _) (hstate _ _ _)))) _ _ _)

theorem domPend (h : s.Spares t) (d : Nat) : s.Spares (t.domPend d) := by
  have hpend : s.Spares (t.put (SEQD.STAT_PENDST d) 0) := h.put _ _ (beyond_hub (by decide))
  have hrefused := hpend.event (SEQD.EVT_REFF d) (SEQD.EVTCNT_REFCNT d) (srcDom d) (beyond_hub (by decide)) (beyond_hub (by decide))
  unfold Chip.domPend
  exact .either (.either ((hpend.domStartNow d false).domShow d) hrefused) h

theorem seqRefresh (h : s.Spares t) : s.Spares t.seqRefresh := by
  have hdoms : s.Spares ((t.metRefresh.forEach [0, 1, 2, 3] fun d u => u.domShow d).forEach [0, 1, 2, 3] fun d u => u.domPend d) :=
    (h.metRefresh.forEach fun d u => (refl u).domShow d).forEach fun d u => (refl u).domPend d
  have hshown (a b : Bool) := (hdoms.putB SEQ.GSTAT_ALLOFF a rfl).putB SEQ.GSTAT_INGOOD b rfl
  unfold Chip.seqRefresh
  exact .guardDomains (.either ((hshown _ _).put SEQ.GSTAT_INSHUT 0 rfl) (hshown _ _))

theorem railEnd (h : s.Spares t) (r : Nat) (latch : Bool) (cause : Nat) : s.Spares (t.railEnd r latch cause) := by
  have hstat (v : Nat) := ((h.put (SEQR.STAT_STATE r) v (beyond_hub (by decide))).put (SEQR.STAT_CAUSE r) cause (beyond_hub (by decide))).railUpd r fun h =>
    { h with ordered := false, latch := false, metAt := none, asked := false, leave := false, goodAt := none, late := false, failed := false }
  unfold Chip.railEnd
  exact (either ((hstat _).event _ _ _ (beyond_hub (by decide)) (beyond_hub (by decide))) (hstat _)).wmWires r

theorem orderOne (h : s.Spares t) (r cause : Nat) (latch hard : Bool) : s.Spares (t.orderOne r cause latch hard) := by
  unfold Chip.orderOne
  exact .either h (.either (h.railEnd _ _ _) (.either ((either (h.askDrop _) h).railEnd _ _ _) (.either (h.railUpd _ _) (h.railUpd _ _))))

theorem orderStop (h : s.Spares t) (rs : List Nat) (cause : Nat) (latch hard : Bool) : s.Spares (t.orderStop rs cause latch hard) :=
  (h.forEach fun r u => (refl u).orderOne r cause latch hard).seqRefresh

theorem log (h : s.Spares t) (r : LogRec) : s.Spares (t.log r) := by
  have hstore (x : StoreHw) : s.Spares { t with store := x } := h.upd rfl rfl
  unfold Chip.log
  exact (either ((hstore _).add THM.NVMW_DROPCNT 1 rfl) (hstore _)).put THM.NVMW_BUFOCC _ rfl

theorem firstFailure (h : s.Spares t) (r cause : Nat) : s.Spares (t.firstFailure r cause) := by
  have hctl (d : Nat) := (((h.put SEQ.FFCTL_VALID 1 rfl).put SEQ.FFCTL_CAUSE cause rfl).put SEQ.FFCTL_DOMAIN d rfl).put SEQ.FFCTL_RAIL r rfl
  unfold Chip.firstFailure
  exact .either h ((((hctl _).put SEQ.FFTIME_LO_FFTL _ rfl).put SEQ.FFTIME_HI_FFTH _ rfl).log _)

theorem railFail (h : s.Spares t) (r cause : Nat) : s.Spares (t.railFail r cause) := by
  have hfails (m : FaultMsg) := (((h.event (SEQR.EVT_FAILF r) (SEQR.EVTCNT_FAILCNT r) (srcRail r) (beyond_hub (by decide)) (beyond_hub (by decide))).firstFailure r cause).railUpd r
    fun h => { h with failed := true }).raise m
  have hordered (m : FaultMsg) := ((hfails m).put (SEQR.STAT_CAUSE r) cause (beyond_hub (by decide))).orderOne r cause true false
  have hlatched (m : FaultMsg) (d : Nat) := (((hordered m).domUpd d fun h => { h with ownLatch := true }).put (SEQD.STAT_LVALID d) 1 (beyond_hub (by decide))).put (SEQD.STAT_LRAIL d) r
    (beyond_hub (by decide))
  unfold Chip.railFail
  exact .either h (.either (hfails _) (.either ((hordered _).orderStop _ _ _ _) ((hlatched _ _).orderStop _ _ _ _)))

theorem seqEval (h : s.Spares t) (r : Nat) : s.Spares (t.seqEval r) := by
  have hshown (b : Prop) [Decidable b] : s.Spares (if b then t else t.putB (SEQR.STAT_RAWGOOD r) (t.rawGood r)) := .either h (h.putB _ _ (beyond_hub (by decide)))
  unfold Chip.seqEval
  exact .either (.either (((hshown _).add _ _ (beyond_hub (by decide))).railUpd _ _) (.either ((hshown _).railUpd _ _) (hshown _))) (.either ((hshown _).railFail _ _) (hshown _))

theorem railLook (h : s.Spares t) (r : Nat) : s.Spares (t.railLook r) := .either (h.seqEval r) h

end Chip.Spares

end Sys2Proof.Machine

namespace Sys2Proof.Machine

/-! A tick of a window monitor (R247 to R250, R254). -/

/-- The state of a pair as STAT shows it. -/
def Chip.wmShown (c : Chip) (r st : Nat) (confirmed : Bool) : Chip := (c.put (WMON.STAT_STATE r) st).putB (WMON.STAT_CONFD r) confirmed

/-- The flag of an entry into OVER, state 1, or UNDER, state 2. -/
def wmFlag (st r : Nat) : Fld := if st = 1 then WMON.EVT_OVERF r else WMON.EVT_UNDERF r

/-- Its counter. -/
def wmCnt (st r : Nat) : Fld := if st = 1 then WMON.EVTCNT_OVERCNT r else WMON.EVTCNT_UNDERCNT r

/-- An entry into OVER or UNDER is an event. -/
def Chip.wmEntered (c : Chip) (r st : Nat) : Chip := (c.wmShown r st false).event (wmFlag st r) (wmCnt st r) (srcWmon r)

theorem wmSet_entered (c : Chip) (r st : Nat) (hst : st = 1 ∨ st = 2) (h : c.get (WMON.STAT_STATE r) ≠ st) :
    c.wmSet r st false = ((c.wmEntered r st).tuneAbortAll 7).wmWires r := by
  rcases hst with rfl | rfl <;> simp [Chip.wmSet, Chip.wmEntered, Chip.wmShown, wmFlag, wmCnt, h.symm]

/-- A state that the pair holds already, and GOOD, are no entry: nothing is recorded. -/
theorem wmSet_quiet (c : Chip) (r st : Nat) (confirmed : Bool) (h : c.get (WMON.STAT_STATE r) = st ∨ st = 0) :
    c.wmSet r st confirmed = (c.wmShown r st confirmed).wmWires r := by
  rcases h with h | rfl
  · simp [Chip.wmSet, Chip.wmShown, h]
  · simp [Chip.wmSet, Chip.wmShown]

/-- The registers of rail r's monitor. -/
def wmRegs (r o : Nat) : Bool := span (0x1000 + 0x20 * r) (0x1020 + 0x20 * r) o

theorem wmRegs_places (r : Nat) : wmRegs r (WMON.STAT r) = true ∧ wmRegs r (WMON.EVT r) = true ∧ wmRegs r (WMON.EVTCNT r) = true := by
  refine ⟨span_of_le_lt ?_, span_of_le_lt ?_, span_of_le_lt ?_⟩ <;> simp only [WMON.STAT, WMON.EVT, WMON.EVTCNT] <;> omega

theorem wmStat_ne (r : Nat) : WMON.STAT r ≠ WMON.EVT r ∧ WMON.STAT r ≠ WMON.EVTCNT r ∧ WMON.EVT r ≠ WMON.EVTCNT r := by
  simp only [WMON.STAT, WMON.EVT, WMON.EVTCNT]
  omega

/-- A monitor's registers lie below 0x10000. -/
theorem beyond_wm {r o : Nat} (hr : r < 64) (h : wmRegs r o = true) : beyond o = false := by
  obtain ⟨-, hhigh⟩ := span_iff.1 h
  exact decide_eq_false (by omega)

theorem wmShown_fields (c : Chip) (r st : Nat) (hst : st < 4) : (c.wmShown r st false).get (WMON.STAT_STATE r) = st ∧ (c.wmShown r st false).get (WMON.STAT_CONFD r) = 0 :=
  ⟨(get_put_apart _ _ _ _ rfl (Fld.apart_of_bits _ _ rfl)).trans ((get_put_same _ _ _ rfl).trans (Nat.mod_eq_of_lt hst)), get_put_same _ _ _ rfl⟩

theorem wmShown_onlyIn (c : Chip) (r st : Nat) (confirmed : Bool) : c.OnlyIn (· == WMON.STAT r) (c.wmShown r st confirmed) :=
  ((Chip.OnlyIn.refl (· == WMON.STAT r) c).put (WMON.STAT_STATE r) st (beq_self_eq_true _)).put (WMON.STAT_CONFD r) _ (beq_self_eq_true _)

theorem wmShown_wmRegs (c : Chip) (r st : Nat) (confirmed : Bool) : c.OnlyIn (wmRegs r) (c.wmShown r st confirmed) :=
  (wmShown_onlyIn c r st confirmed).mono fun o ho => by rw [beq_iff_eq.1 ho]; exact (wmRegs_places r).1

theorem wmFlag_cnt (st r : Nat) : (wmFlag st r).off = WMON.EVT r ∧ (wmCnt st r).off = WMON.EVTCNT r ∧ (wmFlag st r).fits = true ∧ (wmCnt st r).fits = true ∧ (wmFlag st r).width = 1 := by
  unfold wmFlag wmCnt
  split <;> exact ⟨rfl, rfl, rfl, rfl, rfl⟩

/-- What an entry shows, records and changes. -/
theorem wmEntered_spec (c : Chip) (r st : Nat) (hst : st < 4) : (c.wmEntered r st).get (WMON.STAT_STATE r) = st ∧ (c.wmEntered r st).get (WMON.STAT_CONFD r) = 0 ∧
    Recorded c (c.wmEntered r st) (wmFlag st r) (wmCnt st r) ∧ c.OnlyIn (wmRegs r) (c.wmEntered r st) := by
  obtain ⟨hse, hsc, hec⟩ := wmStat_ne r
  obtain ⟨-, hevt, hevtcnt⟩ := wmRegs_places r
  obtain ⟨hflag, hcnt, hff, hcf, hw⟩ := wmFlag_cnt st r
  obtain ⟨hstate, hconfd⟩ := wmShown_fields c r st hst
  have hstat (f : Fld) (hf : f.fits = true) (hoff : f.off = WMON.STAT r) : (c.wmEntered r st).get f = (c.wmShown r st false).get f :=
    get_event_apart _ _ _ _ _ hf (Fld.apart_of_off_ne _ _ (by rwa [hoff, hflag])) (Fld.apart_of_off_ne _ _ (by rwa [hoff, hcnt]))
  have hfc : (wmFlag st r).off ≠ (wmCnt st r).off := by rwa [hflag, hcnt]
  have hsame : c.get (wmCnt st r) = (c.wmShown r st false).get (wmCnt st r) := ((wmShown_onlyIn c r st false).get _ (by simpa [hcnt] using hsc.symm)).symm
  exact ⟨(hstat _ rfl rfl).trans hstate, (hstat _ rfl rfl).trans hconfd,
    (recorded_event _ _ _ (srcWmon r) hff hcf (Fld.apart_of_off_ne _ _ hfc) (Fld.apart_of_off_ne _ _ hfc.symm) hw).congr hsame rfl rfl,
    (wmShown_wmRegs c r st false).event _ _ _ (by rwa [hflag]) (by rwa [hcnt])⟩

/-! Which state a sample gives (R248). -/

theorem wmJudge_over (c : Chip) (r : Nat) (uv : Int) (h : ((c.get (WMON.THR_WHI r) * 1000 : Nat) : Int) < uv) : c.wmJudge r uv = some 1 :=
  if_pos (by push_cast at h; exact h)

theorem wmJudge_under (c : Chip) (r : Nat) (uv : Int) (hhigh : uv ≤ (c.get (WMON.THR_WHI r) * 1000 : Nat)) (h : uv < (c.get (WMON.THR_WLO r) * 1000 : Nat)) : c.wmJudge r uv = some 2 := by
  push_cast at hhigh h
  simp only [Chip.wmJudge]
  rw [if_neg (by omega), if_pos h]

theorem wmJudge_good (c : Chip) (r : Nat) (uv : Int) (hlow : ((c.get (WMON.THR_WLO r) + c.get (WMON.CFG_WHYS r) : Nat) : Int) * 1000 < uv)
    (hhigh : uv < ((c.get (WMON.THR_WHI r) : Int) - c.get (WMON.CFG_WHYS r)) * 1000) : c.wmJudge r uv = some 0 := by
  push_cast at hlow
  simp only [Chip.wmJudge]
  rw [if_neg (by omega), if_neg (by omega), if_pos (by simp [hlow, hhigh])]

/-- Within a hysteresis band a sample gives no state. -/
theorem wmJudge_band (c : Chip) (r : Nat) (uv : Int) (hhigh : uv ≤ (c.get (WMON.THR_WHI r) * 1000 : Nat)) (hlow : ((c.get (WMON.THR_WLO r) * 1000 : Nat) : Int) ≤ uv)
    (hband : uv ≤ ((c.get (WMON.THR_WLO r) + c.get (WMON.CFG_WHYS r) : Nat) : Int) * 1000 ∨ ((c.get (WMON.THR_WHI r) : Int) - c.get (WMON.CFG_WHYS r)) * 1000 ≤ uv) : c.wmJudge r uv = none := by
  push_cast at hhigh hlow hband
  simp only [Chip.wmJudge]
  rw [if_neg (by omega), if_neg (by omega), if_neg]
  simp only [Bool.and_eq_true, decide_eq_true_eq]
  omega

/-! The tick. -/

/-- A tick at its instant on the grid of an enabled pair (R247, R539). -/
structure Chip.WmTicks (c : Chip) (r : Nat) : Prop where
  on : c.domOn .aon = true
  en : c.get (WMON.CFG_EN r) = 1
  grid : c.gridAt (gridRail r) (c.wmTickInt r) = true

/-- The end of a tick: the pair counts its undetermined ticks in a row. -/
def Chip.wmCounted (c t : Chip) (r : Nat) : Chip := { t with undet := t.undet.set r (if t.get (WMON.STAT_STATE r) = 3 then c.undet.get r + 1 else 0) }

/-- A mark on the grid for the rail's ticks leaves that of its confirmations. -/
theorem gridConf_gridMark (c : Chip) (r : Nat) : (c.gridMark (gridRail r)).grid.get (gridConf r) = c.grid.get (gridConf r) :=
  Tbl.get_set_other _ _ _ _ (by simp only [gridConf, gridRail]; omega)

theorem wmTick_judged (c : Chip) (r st : Nat) (uv : Int) (h : c.WmTicks r) (hconf : c.grid.get (gridConf r) ≠ c.now + 1) (hjudge : c.wmJudge r uv = some st) :
    c.wmTick r uv = c.wmCounted ((c.gridMark (gridRail r)).wmSet r st false) r := by
  have hmarked : (c.gridMark (gridRail r)).wmJudge r uv = some st := hjudge
  have hconf' : (c.gridMark (gridRail r)).grid.get (gridConf r) ≠ (c.gridMark (gridRail r)).now + 1 := by rwa [gridConf_gridMark]
  simp only [Chip.wmTick, Chip.bit, h.on, h.en, h.grid, hmarked, if_neg hconf']
  rfl

/-- A confirmation at this count stands, and a sample within a hysteresis band gives no state (R248, R254). -/
theorem wmTick_unjudged (c : Chip) (r : Nat) (uv : Int) (h : c.WmTicks r) (hkept : c.grid.get (gridConf r) = c.now + 1 ∨ c.wmJudge r uv = none) :
    c.wmTick r uv = c.wmCounted (c.gridMark (gridRail r)) r := by
  cases hjudge : c.wmJudge r uv with
  | none =>
    have hmarked : (c.gridMark (gridRail r)).wmJudge r uv = none := hjudge
    simp only [Chip.wmTick, Chip.bit, h.on, h.en, h.grid, hmarked]
    rfl
  | some st =>
    have hmarked : (c.gridMark (gridRail r)).wmJudge r uv = some st := hjudge
    have hconf : (c.gridMark (gridRail r)).grid.get (gridConf r) = (c.gridMark (gridRail r)).now + 1 := by
      rw [gridConf_gridMark]
      exact hkept.resolve_right (by simp [hjudge])
    simp only [Chip.wmTick, Chip.bit, h.on, h.en, h.grid, hmarked, if_pos hconf]
    rfl

theorem wmTick_of_no_instant (c : Chip) (r : Nat) (uv : Int) (h : c.gridAt (gridRail r) (c.wmTickInt r) = false) : c.wmTick r uv = c := by
  simp [Chip.wmTick, h]

theorem wmTick_of_disabled (c : Chip) (r : Nat) (uv : Int) (h : c.get (WMON.CFG_EN r) = 0) : c.wmTick r uv = c := by
  simp [Chip.wmTick, Chip.bit, h]

theorem exec_windowTick (s : State) (r : RailId) (uv : Int) : Machine.exec (.windowTick r uv) s = .next { s with chip := (s.chip.wmTick r.val uv).railLook r.val } := rfl

/-- The rail's sources are looked at after the tick: no monitor's register changes, and no count of ticks (R325). -/
theorem railLook_spares (c : Chip) (r : Nat) : c.Spares (c.railLook r) := (Chip.Spares.refl c).railLook r

/-- What a judged tick shows, and that it changes the registers of one monitor beside those beyond. -/
structure Chip.WmTicked (c t : Chip) (r st : Nat) : Prop where
  state : t.get (WMON.STAT_STATE r) = st
  confd : t.get (WMON.STAT_CONFD r) = 0
  undet : t.undet.get r = 0
  regs : c.OnlyIn (fun o => wmRegs r o || beyond o) t

/-- A judged tick: from the state `u` in which the pair shows its new state on, registers beyond the monitors' change. -/
theorem tick_judged (c u : Chip) (r : RailId) (st : Nat) (uv : Int) (h : c.WmTicks r.val) (hconf : c.grid.get (gridConf r.val) ≠ c.now + 1) (hjudge : c.wmJudge r.val uv = some st)
    (hst : st < 3) (hset : u.Spares ((c.gridMark (gridRail r.val)).wmSet r.val st false)) (hstate : u.get (WMON.STAT_STATE r.val) = st) (hconfd : u.get (WMON.STAT_CONFD r.val) = 0)
    (hregs : c.OnlyIn (wmRegs r.val) u) : c.WmTicked ((c.wmTick r.val uv).railLook r.val) r.val st ∧ u.OnlyIn beyond ((c.wmTick r.val uv).railLook r.val) := by
  have hstat := beyond_wm r.isLt (wmRegs_places r.val).1
  have hkept : ((c.gridMark (gridRail r.val)).wmSet r.val st false).get (WMON.STAT_STATE r.val) = st := (hset.regs.get _ hstat).trans hstate
  have hcounted : u.OnlyIn beyond (c.wmCounted ((c.gridMark (gridRail r.val)).wmSet r.val st false) r.val) := hset.regs.upd rfl
  have hlook := railLook_spares (c.wmCounted ((c.gridMark (gridRail r.val)).wmSet r.val st false) r.val) r.val
  have hafter := hcounted.trans hlook.regs
  rw [wmTick_judged _ _ _ _ h hconf hjudge]
  refine ⟨⟨(hafter.get _ hstat).trans hstate, (hafter.get _ hstat).trans hconfd, ?_, (hregs.mono fun o ho => by rw [ho, Bool.true_or]).trans (hafter.mono fun o ho => by rw [ho, Bool.or_true])⟩, hafter⟩
  rw [hlook.undet, Chip.wmCounted, hkept, if_neg (by omega)]
  exact Tbl.get_set_same _ _ _

/-- GOOD, and a state that the pair holds already, are shown without an event. -/
theorem tick_quiet (c : Chip) (r : RailId) (st : Nat) (uv : Int) (h : c.WmTicks r.val) (hconf : c.grid.get (gridConf r.val) ≠ c.now + 1) (hjudge : c.wmJudge r.val uv = some st)
    (hst : st < 3) (hquiet : c.get (WMON.STAT_STATE r.val) = st ∨ st = 0) : c.WmTicked ((c.wmTick r.val uv).railLook r.val) r.val st ∧
      ∀ o, wmRegs r.val o = true → o ≠ WMON.STAT r.val → ((c.wmTick r.val uv).railLook r.val).reg o = c.reg o := by
  obtain ⟨hstate, hconfd⟩ := wmShown_fields (c.gridMark (gridRail r.val)) r.val st (by omega)
  have hshown := (wmShown_onlyIn (c.gridMark (gridRail r.val)) r.val st false).updFirst (s := c) rfl
  have hregs := (wmShown_wmRegs (c.gridMark (gridRail r.val)) r.val st false).updFirst (s := c) rfl
  have hset : ((c.gridMark (gridRail r.val)).wmShown r.val st false).Spares ((c.gridMark (gridRail r.val)).wmSet r.val st false) := by
    rw [wmSet_quiet (c.gridMark (gridRail r.val)) _ _ _ hquiet]
    exact (Chip.Spares.refl _).wmWires r.val
  obtain ⟨hticked, hafter⟩ := tick_judged c _ r st uv h hconf hjudge hst hset hstate hconfd hregs
  exact ⟨hticked, fun o ho hne => (hafter.same o (beyond_wm r.isLt ho)).trans (hshown.same o (by simpa using hne))⟩

/-- An entry into OVER or UNDER is recorded. -/
theorem tick_entered (c : Chip) (r : RailId) (st : Nat) (uv : Int) (h : c.WmTicks r.val) (hconf : c.grid.get (gridConf r.val) ≠ c.now + 1) (hjudge : c.wmJudge r.val uv = some st)
    (hst : st = 1 ∨ st = 2) (hentry : c.get (WMON.STAT_STATE r.val) ≠ st) : c.WmTicked ((c.wmTick r.val uv).railLook r.val) r.val st ∧
      Recorded c ((c.wmTick r.val uv).railLook r.val) (wmFlag st r.val) (wmCnt st r.val) := by
  obtain ⟨hstate, hconfd, hrecorded, hregs⟩ := wmEntered_spec (c.gridMark (gridRail r.val)) r.val st (by omega)
  obtain ⟨-, hevt, hevtcnt⟩ := wmRegs_places r.val
  obtain ⟨hflag, hcnt, -⟩ := wmFlag_cnt st r.val
  have hset : ((c.gridMark (gridRail r.val)).wmEntered r.val st).Spares ((c.gridMark (gridRail r.val)).wmSet r.val st false) := by
    rw [wmSet_entered (c.gridMark (gridRail r.val)) _ _ hst hentry]
    exact ((Chip.Spares.refl _).tuneAbortAll 7).wmWires r.val
  obtain ⟨hticked, hafter⟩ := tick_judged c _ r st uv h hconf hjudge (by omega) hset hstate hconfd (hregs.updFirst rfl)
  exact ⟨hticked, hrecorded.congr rfl (hafter.get _ (beyond_wm r.isLt (by rwa [hflag]))) (hafter.get _ (beyond_wm r.isLt (by rwa [hcnt])))⟩

/-- A tick that gives no state keeps it, and counts on while it is UNDET. -/
theorem tick_unjudged (c : Chip) (r : RailId) (uv : Int) (h : c.WmTicks r.val) (hkept : c.grid.get (gridConf r.val) = c.now + 1 ∨ c.wmJudge r.val uv = none) :
    c.OnlyIn beyond ((c.wmTick r.val uv).railLook r.val) ∧
      ((c.wmTick r.val uv).railLook r.val).undet.get r.val = if c.get (WMON.STAT_STATE r.val) = 3 then c.undet.get r.val + 1 else 0 := by
  have hlook := railLook_spares (c.wmCounted (c.gridMark (gridRail r.val)) r.val) r.val
  rw [wmTick_unjudged _ _ _ h hkept]
  refine ⟨hlook.regs.updFirst rfl, ?_⟩
  rw [hlook.undet]
  exact Tbl.get_set_same _ _ _

/-- A disabled pair samples nothing, and the look at a rail in OFF refreshes its raw good signal alone (R251, R325). -/
theorem effect_windowTick_disabled (s : State) (r : Nat) (hidle : s.chip.domOn .core = false ∨ s.chip.get (SEQR.STAT_STATE r) = 0) :
    Effect s { s with chip := s.chip.railLook r } id [SEQR.STAT_RAWGOOD r] [] [] [] := by
  by_cases hcore : s.chip.coreRuns = true
  · have hoff : s.chip.railState r = 0 := hidle.resolve_left fun h => by simp [Chip.coreRuns, h] at hcore
    have heval : s.chip.railLook r = s.chip.putB (SEQR.STAT_RAWGOOD r) (s.chip.rawGood r) := by simp [Chip.railLook, hcore, Chip.seqEval, hoff]
    rw [heval]
    exact (Effect.start s).put _ _
  · have heval : s.chip.railLook r = s.chip := if_neg hcore
    rw [heval]
    exact (Effect.start s).widen _ (by simp)

/-- A judged tick as the statement frames it. -/
theorem Chip.WmTicked.keeps {s : State} {t : Chip} {r st : Nat} (h : WmTicked s.chip t r st) :
    Keeps s { s with chip := t } (fun o => span (0x1000 + 0x20 * r) (0x1020 + 0x20 * r) o || decide (0x10000 ≤ o)) := ⟨rfl, rfl, h.regs.same⟩

/-- Settles O20: a tick sets one pair's state, and whatever it sets going after that spares the monitors. -/
theorem windowMonitorsJudgeTheirRails : Obligations.WindowMonitorsJudgeTheirRails := by
  unfold Obligations.WindowMonitorsJudgeTheirRails
  refine ⟨fun s r uv hon hen hgrid hconf hover => ?_, fun s r uv hon hen hgrid hconf hhigh hunder => ?_, fun s r uv hon hen hgrid hconf hlow hhigh => ?_,
    fun s r uv hon hen hgrid hconf hhigh hlow hband => ?_, fun s r uv hgrid => ?_, fun s r uv hon hen hgrid hconf => ?_, fun s r uv hen hidle => ?_, windowConfirm_spec⟩
  · have hjudge := wmJudge_over s.chip r.val uv hover
    by_cases hwas : s.chip.get (WMON.STAT_STATE r.val) = 1
    · obtain ⟨hticked, hsame⟩ := tick_quiet s.chip r 1 uv ⟨hon, hen, hgrid⟩ hconf hjudge (by decide) (.inl hwas)
      have hcnt := hsame (WMON.EVTCNT r.val) (wmRegs_places r.val).2.2 (wmStat_ne r.val).2.1.symm
      exact ⟨_, exec_windowTick s r uv, hticked.state, hticked.confd, hticked.undet, fun h => absurd hwas h, fun _ => congrArg (fun w => wordField w 24 8) hcnt, hticked.keeps⟩
    · obtain ⟨hticked, hrecorded⟩ := tick_entered s.chip r 1 uv ⟨hon, hen, hgrid⟩ hconf hjudge (.inl rfl) hwas
      exact ⟨_, exec_windowTick s r uv, hticked.state, hticked.confd, hticked.undet, fun _ => hrecorded, fun h => absurd h hwas, hticked.keeps⟩
  · have hjudge := wmJudge_under s.chip r.val uv hhigh hunder
    by_cases hwas : s.chip.get (WMON.STAT_STATE r.val) = 2
    · obtain ⟨hticked, -⟩ := tick_quiet s.chip r 2 uv ⟨hon, hen, hgrid⟩ hconf hjudge (by decide) (.inl hwas)
      exact ⟨_, exec_windowTick s r uv, hticked.state, hticked.confd, hticked.undet, fun h => absurd hwas h, hticked.keeps⟩
    · obtain ⟨hticked, hrecorded⟩ := tick_entered s.chip r 2 uv ⟨hon, hen, hgrid⟩ hconf hjudge (.inr rfl) hwas
      exact ⟨_, exec_windowTick s r uv, hticked.state, hticked.confd, hticked.undet, fun _ => hrecorded, hticked.keeps⟩
  · obtain ⟨hticked, hsame⟩ := tick_quiet s.chip r 0 uv ⟨hon, hen, hgrid⟩ hconf (wmJudge_good s.chip r.val uv hlow hhigh) (by decide) (.inr rfl)
    obtain ⟨-, hevt, hevtcnt⟩ := wmRegs_places r.val
    obtain ⟨hne, hnecnt, -⟩ := wmStat_ne r.val
    exact ⟨_, exec_windowTick s r uv, hticked.state, hticked.confd, hticked.undet, hsame _ hevt hne.symm, hsame _ hevtcnt hnecnt.symm, hticked.keeps⟩
  · obtain ⟨hregs, hcount⟩ := tick_unjudged s.chip r uv ⟨hon, hen, hgrid⟩ (.inr (wmJudge_band s.chip r.val uv hhigh hlow hband))
    exact ⟨_, exec_windowTick s r uv, hregs.same _ (beyond_wm r.isLt (wmRegs_places r.val).1), hcount, rfl, rfl, hregs.same⟩
  · have hlook := railLook_spares s.chip r.val
    rw [exec_windowTick, wmTick_of_no_instant _ _ _ hgrid]
    exact ⟨_, rfl, hlook.undet, rfl, rfl, hlook.regs.same⟩
  · obtain ⟨hregs, hcount⟩ := tick_unjudged s.chip r uv ⟨hon, hen, hgrid⟩ (.inl hconf)
    exact ⟨_, exec_windowTick s r uv, hcount, rfl, rfl, hregs.same⟩
  · rw [exec_windowTick, wmTick_of_disabled _ _ _ hen]
    exact ⟨_, rfl, effect_windowTick_disabled s r.val hidle⟩

end Sys2Proof.Machine

namespace Sys2Proof.Machine

/-! REG_WRITE where its register is CTRL of the hot-swap input: the gate follows EN there too (R300, R425; log entry 157). -/

/-- REG_WRITE of one pair: 0 to CTRL of the hot-swap input. -/
def disableInput : Cmd := { ring := 0, flags := 0, tag := 0, target := 1, args := bytesLE 4 HSW.CTRL ++ List.replicate 52 0 }

/-- The input conducts, and command ring 0 has one command to be served, with room in its completion ring. -/
def ringConducts : State :=
  { chip := inputConducts.chip |>.put HIF.CTRL_EN 1 |>.put HIF.STAT_LINKUP 1 |>.put (RING.STAT_STATE 0) 1 |>.put (RING.STAT_STATE 8) 1 |>.put (RING.HIDX_HIDX 0) 1
      |>.put (RING.MOD_MODCNT 8) 2 }

theorem ringConducts_gate : ringConducts.chip.get HSW.STAT_GATE = 1 := by decide +kernel

theorem ringConducts_serves : ringConducts.chip.serves disableInput = true := by decide +kernel

/-- The command that takes EN away leaves the gate low. -/
theorem regWrite_disableInput {t : State} {cold : ColdIn} (ht : Machine.exec (.regWrite disableInput none cold) ringConducts = .next t) : t.chip.get HSW.STAT_GATE = 0 := by
  have hrun : Machine.exec (.regWrite disableInput none cold) ringConducts
      = .next ({ ringConducts with chip := ringConducts.chip.cmdRegWrite ringConducts.nvm disableInput none }.coldIfDue cold) := rfl
  have hheld : (ringConducts.chip.cmdRegWrite ringConducts.nvm disableInput none).flt.coldHeld = false := by decide +kernel
  rw [hrun, coldIfDue_of_not_held { ringConducts with chip := ringConducts.chip.cmdRegWrite ringConducts.nvm disableInput none } cold hheld] at ht
  cases ht
  decide +kernel

/-- Refutes O52: its clause for REG_WRITE lets a write to any register of `fieldsOnly` change beside the rings that register alone, but a command that clears EN of HSW.CTRL
while the input conducts holds the gate low, and GATE of HSW.STAT goes to 0. -/
theorem not_ringCommandsReadWriteAndCommand : ¬ Obligations.RingCommandsReadWriteAndCommand := by
  unfold Obligations.RingCommandsReadWriteAndCommand
  rintro ⟨-, -, -, -, -, -, -, -, -, -, written, -⟩
  obtain ⟨t, ht, -, answers⟩ := written ringConducts disableInput ⟨true, true, true, 256⟩ ringConducts_serves (by decide +kernel) rfl rfl (by decide +kernel) (by decide +kernel) (by decide +kernel)
    (by decide +kernel) (by decide +kernel) (by decide +kernel) (by decide +kernel) (by decide +kernel)
  have hlow : t.chip.get HSW.STAT_GATE = 0 := regWrite_disableInput ht
  have hsame : t.chip.reg HSW.STAT = ringConducts.chip.reg HSW.STAT := answers.keeps.regs HSW.STAT (by decide +kernel)
  rw [Chip.get, show HSW.STAT_GATE.off = HSW.STAT from rfl, hsame] at hlow
  exact absurd (ringConducts_gate.symm.trans hlow) (by decide)

end Sys2Proof.Machine

namespace Sys2Proof.Machine

/-! MFR_REG_DATA, written, where its register is CTRL of the hot-swap input (R300, R440; log entry 157). -/

/-- A write of MFR_REG_DATA that nothing forbids writes the register at the offset, moves the offset on and acknowledges. -/
theorem pmbRegWrite_allowed (c : Chip) (m : List Host.Cell) (v : Word) (hup : c.reqUp .pmbus = true) (hwp : c.get PMB.STAT_WP = 0) (hen : c.get PMB.CFG_REGWEN = 1) :
    c.pmbRegWrite m v true .good = ((c.busWrite m .pmbus c.pmb.regAddr v true).pmbAdvance).pmbReply [] := by
  simp [Chip.pmbRegWrite, Chip.pmbWrite, Chip.pmbPec, Chip.wpAllows, Chip.bit, hup, hwp, hen]

/-- With no cold start requested by it, the write of MFR_REG_DATA is its register write. -/
theorem mfrRegDataWrite_chip {s t : State} {v : Word} {dieOk : Bool} {cold : ColdIn} (h : (s.chip.pmbRegWrite s.nvm v dieOk .good).flt.coldHeld = false)
    (ht : Machine.exec (.mfrRegDataWrite v dieOk .good cold) s = .next t) : t.chip = s.chip.pmbRegWrite s.nvm v dieOk .good := by
  have hrun : Machine.exec (.mfrRegDataWrite v dieOk .good cold) s = .next ({ s with chip := s.chip.pmbRegWrite s.nvm v dieOk .good }.coldIfDue cold) := rfl
  rw [hrun, coldIfDue_of_not_held { s with chip := s.chip.pmbRegWrite s.nvm v dieOk .good } cold h] at ht
  cases ht
  rfl

/-- A write of 0 by PMBus to CTRL of a conducting input leaves the gate low. -/
theorem mfrRegDataWrite_disablesInput {s t : State} {cold : ColdIn} (hoffset : s.chip.pmb.regAddr = HSW.CTRL) (hreach : s.chip.reaches .pmbus HSW.CTRL = true)
    (hup : s.chip.reqUp .pmbus = true) (hwp : s.chip.get PMB.STAT_WP = 0) (hen : s.chip.get PMB.CFG_REGWEN = 1) (hlock : s.chip.get ACC.ACCST_LOCKED = 0)
    (hctrl : s.chip.reg HSW.CTRL = 1) (hgate : s.chip.get HSW.STAT_GATE = 1) (hheld : s.chip.flt.coldHeld = false)
    (ht : Machine.exec (.mfrRegDataWrite 0 true .good cold) s = .next t) : t.chip.get HSW.STAT_GATE = 0 := by
  have hlow : s.chip.pmbRegWrite s.nvm 0 true .good = ((((s.chip.setReg HSW.CTRL 0).gateLow false).pmbAdvance).pmbReply []) := by
    rw [pmbRegWrite_allowed _ _ _ hup hwp hen, hoffset, busWrite_hswCtrl_zero _ _ .pmbus true hreach hlock hctrl hgate]
  have hstill : (s.chip.pmbRegWrite s.nvm 0 true .good).flt.coldHeld = false := by
    rw [hlow]
    exact (congrArg FltHw.coldHeld (gateLow_flt (s.chip.setReg HSW.CTRL 0) false)).trans hheld
  rw [mfrRegDataWrite_chip hstill ht, hlow]
  exact gateLow_gate (s.chip.setReg HSW.CTRL 0) false

/-- The input conducts, and registers may be written by PMBus. -/
def regwenConducts : Chip := inputConducts.chip.put PMB.CFG_REGWEN 1

theorem regwenConducts_get (f : Fld) (h : f.off ≠ PMB.CFG) : regwenConducts.get f = inputConducts.chip.get f := by
  simp only [Chip.get]
  rw [regwenConducts, reg_put_other _ _ _ _ h]

theorem regwenConducts_regwen : regwenConducts.get PMB.CFG_REGWEN = 1 := get_put_same _ _ _ (by decide)

theorem regwenConducts_wp : regwenConducts.get PMB.STAT_WP = 0 := (regwenConducts_get _ (by decide)).trans (by decide +kernel)

theorem regwenConducts_locked : regwenConducts.get ACC.ACCST_LOCKED = 0 := (regwenConducts_get _ (by decide)).trans (by decide +kernel)

theorem regwenConducts_ctrl : regwenConducts.reg HSW.CTRL = 1 := (reg_put_other _ _ _ _ (by decide)).trans (by decide +kernel)

theorem regwenConducts_gate : regwenConducts.get HSW.STAT_GATE = 1 := (regwenConducts_get _ (by decide)).trans (by decide +kernel)

theorem regwenConducts_up : regwenConducts.reqUp .pmbus = true := by
  have hup : inputConducts.chip.reqUp .pmbus = true := by decide +kernel
  simp only [Chip.reqUp, Chip.domOn, Chip.inHoldup, Chip.bit] at hup ⊢
  rw [regwenConducts_get PWR.DOMSTAT_CORE (by decide), regwenConducts_get PWR.DOMSTAT_HOST (by decide), regwenConducts_get PWR.DOMSTAT_HOLDUP (by decide)]
  exact hup

theorem regwenConducts_on : regwenConducts.offAt HSW.CTRL = false := by
  have hdom : domAt HSW.CTRL = some .hka := by decide
  have hka : inputConducts.chip.get PWR.DOMSTAT_HKA = 1 := by decide +kernel
  have hiso : regwenConducts.power.isolated = false := rfl
  simp [Chip.offAt, hdom, Chip.domOn, Chip.bit, hiso, regwenConducts_get PWR.DOMSTAT_HKA (by decide), hka]

/-- PMBus reaches CTRL of the input. -/
theorem regwenConducts_reaches : regwenConducts.reaches .pmbus HSW.CTRL = true := by
  simp [Chip.reaches, regwenConducts_up, regwenConducts_on, Chip.mayWrite, Chip.pmbMayWrite, Chip.bit, regwenConducts_wp, regwenConducts_regwen]

/-- MFR_REG_ADDR holds the offset of CTRL of the conducting input. -/
def pmbusConducts : State := { chip := { regwenConducts with pmb := { regwenConducts.pmb with regAddr := HSW.CTRL } } }

/-- Refutes O55: its clause for MFR_REG_DATA lets a write to any register of `fieldsOnly` change that register alone, but one that clears EN of HSW.CTRL while the input conducts holds
the gate low, and GATE of HSW.STAT goes to 0. -/
theorem not_pMBusWritesAreCheckedAndCarriedOut : ¬ Obligations.PMBusWritesAreCheckedAndCarriedOut := by
  unfold Obligations.PMBusWritesAreCheckedAndCarriedOut
  rintro ⟨-, -, -, -, -, -, -, -, -, -, -, -, -, -, -, -, written, -⟩
  have hheld : pmbusConducts.chip.flt.coldHeld = false := rfl
  have hfields : fieldsOnly pmbusConducts.chip.pmb.regAddr = true := show fieldsOnly HSW.CTRL = true by decide
  have hoff : pmbusConducts.chip.offAt pmbusConducts.chip.pmb.regAddr = false := regwenConducts_on
  obtain ⟨t, ht, -, -, -, -, keeps⟩ := written pmbusConducts 0 true ⟨true, true, true, 256⟩ regwenConducts_up hheld regwenConducts_wp regwenConducts_regwen regwenConducts_locked hfields
    rfl hoff rfl rfl rfl
  have hlow : t.chip.get HSW.STAT_GATE = 0 :=
    mfrRegDataWrite_disablesInput (s := pmbusConducts) rfl regwenConducts_reaches regwenConducts_up regwenConducts_wp regwenConducts_regwen regwenConducts_locked regwenConducts_ctrl regwenConducts_gate hheld ht
  have hsame : t.chip.reg HSW.STAT = regwenConducts.reg HSW.STAT := keeps.regs HSW.STAT rfl
  rw [Chip.get, show HSW.STAT_GATE.off = HSW.STAT from rfl, hsame] at hlow
  exact absurd (regwenConducts_gate.symm.trans hlow) (by decide)

end Sys2Proof.Machine

namespace Sys2Proof.Machine

/-! A grant of the budget arbiter to a hint, with two holding hints of one HID on another link: READY of the one overwrites the other, and its floor with it (R277, R279). -/

/-- The hint whose leave the arbiter is about to grant, on link 7. -/
def askedHint : Hint := { hid := 1, mask := 1, step := 1, lead := 0, phase := .asked, readyIn := 0 }

/-- A holding hint that lowers, whose READY has not been recorded. -/
def lowerHint : Hint := { hid := 2, mask := 1, step := 0, lead := 0, phase := .holding }

/-- A holding hint of the same HID, which keeps a floor of two phases. -/
def raiseHint : Hint := { hid := 2, mask := 1, step := 1, lead := 0, phase := .holding, readyIn := 0, floors := [(2, 0), (0, 0), (0, 0), (0, 0)] }

/-- The leave that the asked hint has requested. -/
def hintLeaveReq : BudReq := ⟨⟨.hint 7 askedHint.hid, 0, 1, 0⟩, 0, 0, false⟩

/-- The input is ON and the request fits; select 0 of links 0 and 7 names loop 0. -/
def hintsWait : State :=
  { chip := { State.reset.chip.put PWR.DOMSTAT_CORE 1 |>.put HSW.STAT_STATE 3 |>.put (HINT.CFG_EN 7) 1 |>.put (HINT.MAP_SEL0 7) 0x20 |>.put (HINT.MAP_SEL0 0) 0x20 with
      bud := { queue := [hintLeaveReq] }
      hintHw := (Tbl.empty.set 0 { hints := [lowerHint, raiseHint] }).set 7 { hints := [askedHint] } } }

theorem hintsWait_grantable : hintsWait.chip.grantable = some hintLeaveReq := by decide +kernel

theorem hintsWait_link : (hintsWait.chip.hintHw.get 7).hints = [askedHint] ∧ hintsWait.chip.get (HINT.CFG_EN 7) = 1 ∧ (0, 0) ∈ hintsWait.chip.hintLoops 7 askedHint.mask := by
  decide +kernel

/-- The device as the grant leaves it, with the look at READY that follows. -/
def hintsGranted : Chip := (hintsWait.chip.budgetGrant true).hintReady

/-- The grant has put the floor of two phases into force on the loop. -/
theorem hintsGranted_floorN : (hintsGranted.loopPh.get 0).floorN = 2 := by decide +kernel

/-- No hint that holds afterwards asks for a floor. -/
theorem hintsGranted_floorsOf : (hintsGranted.floorsOf 0).1 = 0 := by decide +kernel

theorem exec_budgetGrant_chip {s t : State} {tileOk : Bool} (hcore : s.chip.coreRuns = true) (ht : Machine.exec (.budgetGrant tileOk) s = .next t) :
    t.chip = (s.chip.budgetGrant tileOk).hintReady := by
  have hrun : Machine.exec (.budgetGrant tileOk) s = .next { s with chip := if s.chip.coreRuns then (s.chip.budgetGrant tileOk).hintReady else s.chip } := rfl
  rw [← Host.Outcome.next.inj (hrun.symm.trans ht)]
  exact if_pos hcore

/-- Refutes O32: its clause for BUDGET_GRANT says of every state that the loop's floor after the grant is the greatest of those of the holding hints, but the look at READY after
the grant replaces every hint of a HID on a link: in a state where two holding hints of a link share their HID, the floor of the second is lost from the hints while the loop
keeps it. -/
theorem not_hintsAreJudgedAndEnd : ¬ Obligations.HintsAreJudgedAndEnd := by
  unfold Obligations.HintsAreJudgedAndEnd
  rintro ⟨-, -, -, -, -, -, -, granted, -⟩
  have hcore : hintsWait.chip.coreRuns = true := by decide +kernel
  have hsafe : hintsWait.chip.get FLT.STAT_SAFE = 0 := by decide +kernel
  have hready : ∀ l : Fin 8, (hintsWait.chip.hintHw.get l.val).ready = none := by decide +kernel
  obtain ⟨hhints, hen, hloop⟩ := hintsWait_link
  obtain ⟨t, ht, -, -, -, -, -, -, floors, -⟩ := granted hintsWait true hintLeaveReq 7 askedHint hcore hintsWait_grantable rfl hhints rfl (by decide) hsafe hen hready
  have hchip : t.chip = hintsGranted := exec_budgetGrant_chip hcore ht
  have hsame : (hintsGranted.loopPh.get 0).floorN = (hintsGranted.floorsOf 0).1 := hchip ▸ (floors (0, 0) hloop).1
  rw [hintsGranted_floorN, hintsGranted_floorsOf] at hsame
  exact absurd hsame (by decide)

end Sys2Proof.Machine

namespace Sys2Proof.Machine

/-! AVSBus ports: which loops a frame addresses, and the answer to it (R266, R269, R289). -/

theorem avsLoop_lt {c : Chip} {k sel n : Nat} (h : c.avsLoop k sel = some n) : n < 32 := by
  unfold Chip.avsLoop at h
  dsimp only at h
  split at h
  · cases h
    exact Nat.mod_lt _ (by decide)
  · cases h

theorem avsLoop_sel {c : Chip} {k sel n : Nat} (h : c.avsLoop k sel = some n) : sel < 4 := by
  unfold Chip.avsLoop at h
  dsimp only at h
  split at h
  · next hsel => exact of_decide_eq_true ((Bool.and_eq_true_iff.1 hsel).1)
  · cases h

/-- The loops of a port's mapped selects, in the order of the selects. -/
def Chip.avsPortLoops (c : Chip) (k : Nat) : List Nat := (List.range 4).filterMap fun j => c.avsLoop k j

theorem avsMapped_loops (c : Chip) (k : Nat) : (c.avsMapped k).map (·.2) = c.avsPortLoops k := by
  rw [Chip.avsMapped, List.map_filterMap]
  refine List.filterMap_congr fun j _ => ?_
  cases c.avsLoop k j <;> rfl

theorem mem_avsMapped {c : Chip} {k : Nat} {x : Nat × Nat} (h : x ∈ c.avsMapped k) : c.avsLoop k x.1 = some x.2 := by
  obtain ⟨j, -, hj⟩ := List.mem_filterMap.1 h
  obtain ⟨n, hn, rfl⟩ := Option.map_eq_some_iff.1 hj
  exact hn

/-- The selects that a frame addresses, each with its loop, are mapped ones. -/
theorem avsSels_loops_lt (c : Chip) (k sel : Nat) : ∀ n ∈ ((c.avsSels k sel).getD []).map (·.2), n < 32 := by
  intro n hn
  obtain ⟨x, hx, rfl⟩ := List.mem_map.1 hn
  unfold Chip.avsSels at hx
  split at hx
  · exact avsLoop_lt (mem_avsMapped hx)
  · cases hloop : c.avsLoop k sel with
    | none => simp [hloop] at hx
    | some m =>
      obtain rfl : x = (sel, m) := by simpa [hloop] using hx
      exact avsLoop_lt hloop

theorem avsSels_broadcast (c : Chip) (k : Nat) : c.avsSels k 0xf = some (c.avsMapped k) := if_pos rfl

theorem avsSels_mapped {c : Chip} {k sel n : Nat} (h : c.avsLoop k sel = some n) : c.avsSels k sel = some [(sel, n)] := by
  have hsel : sel ≠ 0xf := by have := avsLoop_sel h; omega
  simp [Chip.avsSels, hsel, h]

theorem avsSels_unmapped {c : Chip} {k sel : Nat} (hsel : sel ≠ 0xf) (h : c.avsLoop k sel = none) : c.avsSels k sel = none := by
  simp [Chip.avsSels, hsel, h]

/-- VDone of an answer: there are loops, and each stands at its setpoint (R269). -/
def Chip.avsDone (c : Chip) (loops : List Nat) : Bool :=
  (loops.all fun n => c.get (LOOP.TARGET_VTGT n) == c.get (AVSL.SETPT_SETPT n)) && !loops.isEmpty

/-- AVSControl of an answer: there are loops, and the AVSBus owns each (R269). -/
def Chip.avsCtl (c : Chip) (loops : List Nat) : Bool := (loops.all fun n => c.get (AVSL.CTRL_OWNER n) == 1) && !loops.isEmpty

theorem avsDone_one (c : Chip) (n : Nat) : c.avsDone [n] = (c.get (LOOP.TARGET_VTGT n) == c.get (AVSL.SETPT_SETPT n)) := by simp [Chip.avsDone]

theorem avsCtl_one (c : Chip) (n : Nat) : c.avsCtl [n] = (c.get (AVSL.CTRL_OWNER n) == 1) := by simp [Chip.avsCtl]

/-- A test of all elements of a list looks at its elements only. -/
theorem all_congr_mem {α : Type} {p q : α → Bool} {l : List α} (h : ∀ a ∈ l, p a = q a) : l.all p = l.all q := by
  rw [Bool.eq_iff_iff, List.all_eq_true, List.all_eq_true]
  exact forall₂_congr fun a ha => by rw [h a ha]

theorem avsDone_congr {s t : Chip} {loops : List Nat} (h : ∀ n ∈ loops, t.get (LOOP.TARGET_VTGT n) = s.get (LOOP.TARGET_VTGT n) ∧ t.get (AVSL.SETPT_SETPT n) = s.get (AVSL.SETPT_SETPT n)) :
    t.avsDone loops = s.avsDone loops := by
  have hall : (loops.all fun n => t.get (LOOP.TARGET_VTGT n) == t.get (AVSL.SETPT_SETPT n)) = loops.all fun n => s.get (LOOP.TARGET_VTGT n) == s.get (AVSL.SETPT_SETPT n) :=
    all_congr_mem fun n hn => by rw [(h n hn).1, (h n hn).2]
  rw [Chip.avsDone, Chip.avsDone, hall]

theorem avsCtl_congr {s t : Chip} {loops : List Nat} (h : ∀ n ∈ loops, t.get (AVSL.CTRL_OWNER n) = s.get (AVSL.CTRL_OWNER n)) : t.avsCtl loops = s.avsCtl loops := by
  have hall : (loops.all fun n => t.get (AVSL.CTRL_OWNER n) == 1) = loops.all fun n => s.get (AVSL.CTRL_OWNER n) == 1 :=
    all_congr_mem fun n hn => by rw [h n hn]
  rw [Chip.avsCtl, Chip.avsCtl, hall]

/-- The frame that an answer puts on a port. -/
def Chip.avsFrameOut (c : Chip) (k ack data : Nat) (loops : List Nat) : Output := .avs k ack data (c.avsDone loops) (c.avsHw.get k).alert (c.avsCtl loops)

theorem avsAnswer_eq (c : Chip) (k ack data : Nat) (loops : List Nat) :
    c.avsAnswer k ack data loops = (c.incWrap (AVSP.FRAMES_COUNT k)).out (c.avsFrameOut k ack data loops) := rfl

theorem Effect.avsAnswer {s t : State} {h : Chip → Chip} {fields : List Fld} {srcs : List Nat} {msgs : List FaultMsg} {outs : List Output}
    (e : Effect s t h fields srcs msgs outs) (k ack data : Nat) (loops : List Nat) :
    Effect s { t with chip := t.chip.avsAnswer k ack data loops } h (fields ++ [AVSP.FRAMES_COUNT k]) srcs msgs (outs ++ [t.chip.avsFrameOut k ack data loops]) :=
  (e.put _ _).out _

/-- The registers of the AVSBus ports. -/
def portRegs (o : Nat) : Bool := span 0x20000 0x20200 o

theorem portRegs_evt (k : Fin 8) : portRegs (AVSP.EVT k.val) = true := span_of_le_lt (by simp only [AVSP.EVT]; omega)

theorem portRegs_evtcnt (k : Fin 8) : portRegs (AVSP.EVTCNT k.val) = true := span_of_le_lt (by simp only [AVSP.EVTCNT]; omega)

theorem span_eq_false {a b o : Nat} (h : o < a ∨ b ≤ o) : span a b o = false := by
  rcases h with h | h <;> simp [span, h]

theorem portRegs_target {n : Nat} (h : n < 32) : portRegs (LOOP.TARGET n) = false := span_eq_false (.inl (by simp only [LOOP.TARGET]; omega))

theorem portRegs_ctrl (n : Nat) : portRegs (AVSL.CTRL n) = false := span_eq_false (.inr (by simp only [AVSL.CTRL]; omega))

theorem portRegs_setpt (n : Nat) : portRegs (AVSL.SETPT n) = false := span_eq_false (.inr (by simp only [AVSL.SETPT]; omega))

/-- Beside the ports' registers, an answer says of its loops what they show. -/
theorem avsFrameOut_congr {s t : Chip} (h : s.OnlyIn portRegs t) (k ack data : Nat) {loops : List Nat} (hloops : ∀ n ∈ loops, n < 32) :
    t.avsFrameOut k ack data loops = .avs k ack data (s.avsDone loops) (t.avsHw.get k).alert (s.avsCtl loops) := by
  rw [Chip.avsFrameOut, avsDone_congr fun n hn => ⟨h.get _ (portRegs_target (hloops n hn)), h.get _ (portRegs_setpt n)⟩, avsCtl_congr fun n _ => h.get _ (portRegs_ctrl n)]

/-! A frame that reaches its port, and what the port records of one that it cannot carry out (R266, R267, R269). -/

theorem avsFrame_good {c : Chip} {k : Nat} (hcore : c.coreRuns = true) (hen : c.get (AVSP.CFG_EN k) = 1) (f : Chip → Chip) : c.avsFrame k true f = f c := by
  simp [Chip.avsFrame, hcore, Chip.bit, hen]

theorem avsFrame_bad {c : Chip} {k : Nat} (hcore : c.coreRuns = true) (hen : c.get (AVSP.CFG_EN k) = 1) (f : Chip → Chip) : c.avsFrame k false f = c.avsBadCrc k := by
  simp [Chip.avsFrame, hcore, Chip.bit, hen]

theorem avsFrame_disabled {c : Chip} {k : Nat} (hen : c.get (AVSP.CFG_EN k) = 0) (crcOk : Bool) (f : Chip → Chip) : c.avsFrame k crcOk f = c := by
  simp [Chip.avsFrame, Chip.bit, hen]

@[simp] theorem get_avsUpd (c : Chip) (k : Nat) (f : AvsHw → AvsHw) (g : Fld) : (c.avsUpd k f).get g = c.get g := rfl

@[simp] theorem avsUpd_hw (c : Chip) (k : Nat) (f : AvsHw → AvsHw) : (c.avsUpd k f).avsHw.get k = f (c.avsHw.get k) := Tbl.get_upd_same _ _ _

/-- The inner state of a port changes. -/
theorem Effect.avsUpd {s t : State} {h : Chip → Chip} {fields : List Fld} {srcs : List Nat} {msgs : List FaultMsg} {outs : List Output}
    (e : Effect s t h fields srcs msgs outs) (k : Nat) (f : AvsHw → AvsHw) :
    Effect s { t with chip := t.chip.avsUpd k f } (fun c => (h c).avsUpd k f) fields srcs msgs outs :=
  e.innerStep (fun c => c.avsUpd k f) rfl rfl rfl rfl rfl (congrArg (fun c => c.avsUpd k f) e.inner)

/-- An event of a port that raises its alert. -/
def Chip.avsAlert (c : Chip) (k : Nat) (flag cnt : Fld) : Chip := (c.event flag cnt (srcAvs k)).avsUpd k fun a => { a with alert := true }

theorem avsAlert_regs (c : Chip) (k : Fin 8) (flag cnt : Fld) (hflag : flag.off = AVSP.EVT k.val) (hcnt : cnt.off = AVSP.EVTCNT k.val) :
    c.OnlyIn portRegs (c.avsAlert k.val flag cnt) := by
  have event := (Chip.OnlyIn.refl portRegs c).event flag cnt (srcAvs k.val) (hflag ▸ portRegs_evt k) (hcnt ▸ portRegs_evtcnt k)
  exact event.upd rfl

@[simp] theorem avsAlert_alert (c : Chip) (k : Nat) (flag cnt : Fld) : ((c.avsAlert k flag cnt).avsHw.get k).alert = true :=
  congrArg AvsHw.alert (avsUpd_hw (c.event flag cnt (srcAvs k)) k _)

/-- A frame that a port answers with an event of its own and its alert. -/
theorem effect_avsAlert (s : State) (k : Fin 8) (flag cnt : Fld) (hflag : flag.off = AVSP.EVT k.val) (hcnt : cnt.off = AVSP.EVTCNT k.val) (ack data : Nat) {loops : List Nat}
    (hloops : ∀ n ∈ loops, n < 32) :
    Effect s { s with chip := (s.chip.avsAlert k.val flag cnt).avsAnswer k.val ack data loops } (fun c => c.avsUpd k.val fun a => { a with alert := true })
      [flag, cnt, AVSP.FRAMES_COUNT k.val] [0xc0 + k.val] [] [.avs k.val ack data (s.chip.avsDone loops) true (s.chip.avsCtl loops)] := by
  have answered := ((((Effect.start s).event flag cnt (srcAvs k.val)).avsUpd k.val fun a => { a with alert := true }).avsAnswer k.val ack data loops)
  have shown : (s.chip.avsAlert k.val flag cnt).avsFrameOut k.val ack data loops = .avs k.val ack data (s.chip.avsDone loops) true (s.chip.avsCtl loops) := by
    rw [avsFrameOut_congr (avsAlert_regs s.chip k flag cnt hflag hcnt) k.val ack data hloops, avsAlert_alert]
  exact shown ▸ answered

/-- The flags, the counters and the frame counter of a port lie in registers of their own. -/
theorem port_offs_ne (k : Nat) : AVSP.EVT k ≠ AVSP.EVTCNT k ∧ AVSP.EVT k ≠ AVSP.FRAMES k ∧ AVSP.EVTCNT k ≠ AVSP.FRAMES k := by
  simp only [AVSP.EVT, AVSP.EVTCNT, AVSP.FRAMES]
  omega

/-- What an event of a port records stands after the answer. -/
theorem recorded_avsAlert (c : Chip) (k ack data : Nat) (flag cnt : Fld) (loops : List Nat) (hflag : flag.off = AVSP.EVT k) (hcnt : cnt.off = AVSP.EVTCNT k)
    (hf : flag.fits = true) (hc : cnt.fits = true) (hw : flag.width = 1) : Recorded c ((c.avsAlert k flag cnt).avsAnswer k ack data loops) flag cnt := by
  obtain ⟨hfc, hff, hcf⟩ := port_offs_ne k
  rw [← hflag, ← hcnt] at hfc
  rw [← hflag] at hff
  rw [← hcnt] at hcf
  exact (recorded_event c flag cnt (srcAvs k) hf hc (Fld.apart_of_off_ne _ _ hfc) (Fld.apart_of_off_ne _ _ hfc.symm) hw).congr rfl
    (get_put_apart _ (AVSP.FRAMES_COUNT k) _ _ hf (Fld.apart_of_off_ne _ _ hff)) (get_put_apart _ (AVSP.FRAMES_COUNT k) _ _ hc (Fld.apart_of_off_ne _ _ hcf))

/-! Reads of a port (R267). -/

theorem avsRead_select {c : Chip} {k sel n : Nat} (hcore : c.coreRuns = true) (hen : c.get (AVSP.CFG_EN k) = 1) (hsel : sel ≠ 0xf) (hloop : c.avsLoop k sel = some n)
    (f : Chip → Nat → Chip × Nat) : c.avsRead k sel true f = (f c n).1.avsAnswer k 0 (f c n).2 [n] := by
  rw [Chip.avsRead, avsFrame_good hcore hen]
  simp [hsel, hloop]

theorem avsRead_broadcast {c : Chip} {k : Nat} (hcore : c.coreRuns = true) (hen : c.get (AVSP.CFG_EN k) = 1) (f : Chip → Nat → Chip × Nat) :
    c.avsRead k (15 : Fin 16).val true f = c.avsUnsupported k 0xf := by
  rw [Chip.avsRead, avsFrame_good hcore hen]
  exact if_pos rfl

theorem avsOther_good {c : Chip} {k : Nat} (hcore : c.coreRuns = true) (hen : c.get (AVSP.CFG_EN k) = 1) (sel : Nat) : c.avsOther k sel true = c.avsUnsupported k sel :=
  avsFrame_good hcore hen _

/-- The frame of an answer that tells of one loop. -/
def Chip.avsLoopFrame (c : Chip) (k ack data n : Nat) : Output :=
  .avs k ack data (c.get (LOOP.TARGET_VTGT n) == c.get (AVSL.SETPT_SETPT n)) (c.avsHw.get k).alert (c.get (AVSL.CTRL_OWNER n) == 1)

theorem avsFrameOut_one (c : Chip) (k ack data n : Nat) : c.avsFrameOut k ack data [n] = c.avsLoopFrame k ack data n := by
  rw [Chip.avsFrameOut, avsDone_one, avsCtl_one, Chip.avsLoopFrame]

section
variable {s : State} {k : Fin 8} {sel : Fin 16} {n : Nat} (hcore : s.chip.coreRuns = true) (hen : s.chip.get (AVSP.CFG_EN k.val) = 1) (hsel : sel.val ≠ 0xf)
  (hloop : s.chip.avsLoop k.val sel.val = some n)
include hcore hen hsel hloop

/-- A read whose value is there answers with it. -/
theorem effect_avsRead (f : Chip → Nat → Chip × Nat) (v : Nat) (hf : f s.chip n = (s.chip, v)) :
    Effect s { s with chip := s.chip.avsRead k.val sel.val true f } id [AVSP.FRAMES_COUNT k.val] [] [] [s.chip.avsLoopFrame k.val 0 v n] := by
  rw [avsRead_select hcore hen hsel hloop, hf, ← avsFrameOut_one]
  exact (Effect.start s).avsAnswer k.val 0 v [n]

/-- A read whose value leaves a choice takes at most free values for it. -/
theorem effect_avsRead_free (f : Chip → Nat → Chip × Nat) (v : Nat) (free : Nat) (hf : f s.chip n = ({ s.chip with freeCtr := free }, v)) :
    Effect s { s with chip := s.chip.avsRead k.val sel.val true f } (fun c => { c with freeCtr := (s.chip.avsRead k.val sel.val true f).freeCtr }) [AVSP.FRAMES_COUNT k.val] [] []
      [s.chip.avsLoopFrame k.val 0 v n] := by
  rw [avsRead_select hcore hen hsel hloop, hf, ← avsFrameOut_one]
  have moved : Effect s { s with chip := { s.chip with freeCtr := free } } (fun c => { c with freeCtr := free }) [] [] [] [] :=
    (Effect.start s).innerStep (fun c => { c with freeCtr := free }) rfl rfl rfl rfl rfl rfl
  exact moved.avsAnswer k.val 0 v [n]

end

/-- A quotient with an open rounding is one of two neighbours, the exact one where there is one, and takes at most one free value. -/
theorem openDiv_cases (c : Chip) (n : Int) (d : Nat) :
    (n % d = 0 ∧ c.openDiv n d = (c, n / d)) ∨ (n % d ≠ 0 ∧ (c.openDiv n d = (c.freeNext, n / d) ∨ c.openDiv n d = (c.freeNext, n / d + 1))) := by
  unfold Chip.openDiv
  split
  · next hexact => exact .inl ⟨hexact, rfl⟩
  · next hrest =>
    refine .inr ⟨hrest, ?_⟩
    rcases Nat.mod_two_eq_zero_or_one c.freeVal with h | h <;> simp [h]

/-- The hottest of the active phases' stages is the greatest temperature among them. -/
theorem foldl_hottest (temp : Nat → Int) (m : Int) : ∀ (l : List Nat) (a : Option Int), (∀ p ∈ l, temp p ≤ m) → (∀ w, a = some w → w ≤ m) → (a = some m ∨ ∃ p ∈ l, temp p = m) →
    l.foldl (fun a p => match a with | none => some (temp p) | some w => some (max (temp p) w)) a = some m
  | [], a, _, _, hfound => by simpa using hfound
  | p :: l, a, hle, ha, hfound => by
    have hp : temp p ≤ m := hle p List.mem_cons_self
    refine foldl_hottest temp m l _ (fun q hq => hle q (List.mem_cons_of_mem _ hq)) (fun w hw => ?_) ?_
    · cases a with
      | none => cases hw; exact hp
      | some v => cases hw; exact max_le hp (ha v rfl)
    · rcases hfound with rfl | ⟨q, hq, hqm⟩
      · exact .inl (by simp [max_eq_right hp])
      · rcases List.mem_cons.1 hq with rfl | hq
        · refine .inl ?_
          cases a with
          | none => exact congrArg some hqm
          | some v => exact congrArg some ((max_eq_left (by rw [hqm]; exact ha v rfl)).trans hqm)
        · exact .inr ⟨q, hq, hqm⟩

theorem hotStage_eq (c : Chip) (n : Nat) (m : Int) (hm : ∃ p ∈ (c.loopPh.get n).act, c.getS (STB.STG_TEMP (p / 32 + 1) (p % 32)) = m)
    (hle : ∀ p ∈ (c.loopPh.get n).act, c.getS (STB.STG_TEMP (p / 32 + 1) (p % 32)) ≤ m) : c.hotStage n = some m :=
  foldl_hottest (fun p => c.getS (STB.STG_TEMP (p / 32 + 1) (p % 32))) m _ none hle (by simp) (.inr hm)

/-- The value of a current read: hundredths of an ampere, rounded either way (R267). -/
theorem avsCurrent_cases (c : Chip) (n : Nat) (hle : c.loopSum n ≤ 10000) : ∃ v ∈ [(max (c.loopSum n) 0 * 25 / 4).toNat, (max (c.loopSum n) 0 * 25 / 4).toNat + 1],
    (4 ∣ c.loopSum n * 25 → v = (max (c.loopSum n) 0 * 25 / 4).toNat) ∧ ∃ free, avsCurrent c n = ({ c with freeCtr := free }, v) := by
  have h0 : 0 ≤ max (c.loopSum n) 0 := le_max_right _ _
  have h1 : max (c.loopSum n) 0 ≤ 10000 := max_le hle (by decide)
  unfold avsCurrent
  rcases openDiv_cases c (max (c.loopSum n) 0 * 25) 4 with ⟨-, hr⟩ | ⟨hrest, hr | hr⟩
  · refine ⟨_, by simp, fun _ => rfl, c.freeCtr, ?_⟩
    rw [hr]
    exact congrArg (Prod.mk c) (by omega)
  · refine ⟨_, by simp, fun _ => rfl, c.freeCtr + 1, ?_⟩
    rw [hr]
    exact congrArg (Prod.mk c.freeNext) (by omega)
  · refine ⟨(max (c.loopSum n) 0 * 25 / 4).toNat + 1, by simp, fun hd => by omega, c.freeCtr + 1, ?_⟩
    rw [hr]
    exact congrArg (Prod.mk c.freeNext) (by omega)

/-- The value of a temperature read: tenths of a degree, rounded either way (R267). -/
theorem avsTemp_cases (c : Chip) (n : Nat) (m : Int) (hm : c.hotStage n = some m) :
    ∃ v ∈ [m * 10 / 8, m * 10 / 8 + 1], (4 ∣ m * 5 → v = m * 10 / 8) ∧ ∃ free, avsTemp c n = ({ c with freeCtr := free }, bitsOf 16 v) := by
  simp only [avsTemp, hm]
  rcases openDiv_cases c (m * 10) 8 with ⟨-, hr⟩ | ⟨hrest, hr | hr⟩
  · exact ⟨_, by simp, fun _ => rfl, c.freeCtr, by rw [hr]; rfl⟩
  · exact ⟨_, by simp, fun _ => rfl, c.freeCtr + 1, by rw [hr]; rfl⟩
  · exact ⟨m * 10 / 8 + 1, by simp, fun hd => by omega, c.freeCtr + 1, by rw [hr]; rfl⟩

/-- A data type that the port does not support: UNSF, the alert, and the answer 3 with the status of the loops that the frame addresses (R267, R269). -/
theorem avsUnsupported_tells (s : State) (k : Fin 8) (sel : Nat) {loops : List Nat} (hloops : ((s.chip.avsSels k.val sel).getD []).map (·.2) = loops) :
    Recorded s.chip (s.chip.avsUnsupported k.val sel) (AVSP.EVT_UNSF k.val) (AVSP.EVTCNT_UNSCNT k.val) ∧
      Effect s { s with chip := s.chip.avsUnsupported k.val sel } (fun c => c.avsUpd k.val fun a => { a with alert := true })
        [AVSP.EVT_UNSF k.val, AVSP.EVTCNT_UNSCNT k.val, AVSP.FRAMES_COUNT k.val] [0xc0 + k.val] [] [.avs k.val 3 0 (s.chip.avsDone loops) true (s.chip.avsCtl loops)] := by
  subst hloops
  exact ⟨recorded_avsAlert _ _ _ _ _ _ _ rfl rfl rfl rfl rfl, effect_avsAlert s k _ _ rfl rfl 3 0 (avsSels_loops_lt _ _ _)⟩

/-- A frame that the port cannot carry out, to every mapped select. -/
theorem avsUnsupported_broadcast {s : State} {k : Fin 8} {i : Instr} {c : Chip} (hc : c = s.chip.avsUnsupported k.val 0xf)
    (hi : Machine.exec i s = .next { s with chip := c }) : ∃ t, Machine.exec i s = .next t ∧ Recorded s.chip t.chip (AVSP.EVT_UNSF k.val) (AVSP.EVTCNT_UNSCNT k.val) ∧
      Effect s t (fun c => c.avsUpd k.val fun a => { a with alert := true }) [AVSP.EVT_UNSF k.val, AVSP.EVTCNT_UNSCNT k.val, AVSP.FRAMES_COUNT k.val] [0xc0 + k.val] []
        [.avs k.val 3 0 (((List.range 4).filterMap fun j => s.chip.avsLoop k.val j).all (fun n => s.chip.get (LOOP.TARGET_VTGT n) == s.chip.get (AVSL.SETPT_SETPT n)) && !((List.range 4).filterMap fun j => s.chip.avsLoop k.val j).isEmpty) true
          (((List.range 4).filterMap fun j => s.chip.avsLoop k.val j).all (fun n => s.chip.get (AVSL.CTRL_OWNER n) == 1) && !((List.range 4).filterMap fun j => s.chip.avsLoop k.val j).isEmpty)] := by
  subst hc
  exact ⟨_, hi, avsUnsupported_tells s k 0xf ((congrArg (fun l : Option (List (Nat × Nat)) => (l.getD []).map (·.2)) (avsSels_broadcast s.chip k.val)).trans (avsMapped_loops s.chip k.val))⟩

theorem exec_avsVersionRead (s : State) (k : Fin 8) (sel : Fin 16) (crcOk : Bool) :
    Machine.exec (.avsVersionRead k sel false crcOk) s = .next { s with chip := s.chip.avsRead k.val sel.val crcOk fun t _ => (t, Config.avsVersion.val) } := rfl

/-- Settles O34: a read of a mapped select answers with its value, of which only the rounding may be free, and a read that the port cannot carry out answers 3 with the status of the
loops that its frame addresses. -/
theorem avsReadsAnswerTheirLoop : Obligations.AvsReadsAnswerTheirLoop := by
  unfold Obligations.AvsReadsAnswerTheirLoop
  refine ⟨?_, ?_, ?_, ?_, ?_, ?_, ?_, ?_, ?_, ?_, ?_, ?_, ?_, ?_, ?_⟩
  · intro s k sel n hcore hen hsel hloop
    exact ⟨_, rfl, effect_avsRead hcore hen hsel hloop avsTarget _ rfl⟩
  · intro s k sel n hcore hen hsel hloop
    exact ⟨_, rfl, effect_avsRead hcore hen hsel hloop avsRate _ rfl⟩
  · intro s k sel n hcore hen hsel hloop hle
    obtain ⟨v, hv, hexact, free, hread⟩ := avsCurrent_cases s.chip n hle
    exact ⟨_, rfl, v, hv, hexact, effect_avsRead_free hcore hen hsel hloop avsCurrent v free hread⟩
  · intro s k sel n m hcore hen hsel hloop hm hle
    obtain ⟨v, hv, hexact, free, hread⟩ := avsTemp_cases s.chip n m (hotStage_eq s.chip n m hm hle)
    exact ⟨_, rfl, v, hv, hexact, effect_avsRead_free hcore hen hsel hloop avsTemp _ free hread⟩
  · intro s k sel n hcore hen hsel hloop
    exact ⟨_, rfl, effect_avsRead hcore hen hsel hloop (Chip.avsStatus · k.val ·) _ rfl⟩
  · intro s k sel n hcore hen hsel hloop
    exact ⟨_, rfl, effect_avsRead hcore hen hsel hloop (fun t _ => (t, Config.avsVersion.val)) _ rfl⟩
  · intro s k sel n hcore hen hsel hloop
    have told := avsUnsupported_tells s k sel.val (loops := [n]) (by rw [avsSels_mapped hloop]; rfl)
    rw [avsDone_one, avsCtl_one, ← avsOther_good hcore hen] at told
    exact ⟨_, rfl, told⟩
  · intro s k sel hcore hen hsel hloop
    have told := avsUnsupported_tells s k sel.val (loops := []) (by rw [avsSels_unmapped hsel hloop]; rfl)
    rw [← avsOther_good hcore hen] at told
    exact ⟨_, rfl, told⟩
  · exact fun s k hcore hen => avsUnsupported_broadcast (avsOther_good hcore hen 0xf) rfl
  · exact fun s k hcore hen => avsUnsupported_broadcast (avsRead_broadcast hcore hen _) rfl
  · exact fun s k hcore hen => avsUnsupported_broadcast (avsRead_broadcast hcore hen _) rfl
  · exact fun s k hcore hen => avsUnsupported_broadcast (avsRead_broadcast hcore hen _) rfl
  · exact fun s k hcore hen => avsUnsupported_broadcast (avsRead_broadcast hcore hen _) rfl
  · exact fun s k hcore hen => avsUnsupported_broadcast (avsRead_broadcast hcore hen _) rfl
  · exact fun s k hcore hen => avsUnsupported_broadcast (avsRead_broadcast hcore hen _) (exec_avsVersionRead s k 15 true)

end Sys2Proof.Machine

namespace Sys2Proof.Machine

/-! A setpoint that a loop takes (R59, R260, R262). -/

/-- Registers of a loop that a new setpoint may change: the setpoint, TARGET with RAMPING, and UVACT. -/
def setptRegs (n o : Nat) : Bool := o == AVSL.SETPT n || o == LOOP.TARGET n || o == CMPL.EVT n

/-- The registers that say who owns a loop, how it runs and what its limits are stay out of them. -/
theorem setptRegs_ctrl (n m : Nat) : setptRegs n (AVSL.CTRL m) = false := by
  simp only [setptRegs, AVSL.CTRL, AVSL.SETPT, LOOP.TARGET, CMPL.EVT, Bool.or_eq_false_iff, beq_eq_false_iff_ne]
  omega

theorem setptRegs_vlim (n m : Nat) : setptRegs n (AVSL.VLIM m) = false := by
  simp only [setptRegs, AVSL.VLIM, AVSL.SETPT, LOOP.TARGET, CMPL.EVT, Bool.or_eq_false_iff, beq_eq_false_iff_ne]
  omega

theorem setptRegs_status (n m : Nat) : setptRegs n (LOOP.STATUS m) = false := by
  simp only [setptRegs, LOOP.STATUS, AVSL.SETPT, LOOP.TARGET, CMPL.EVT, Bool.or_eq_false_iff, beq_eq_false_iff_ne]
  omega

theorem setptRegs_slew (n m : Nat) : setptRegs n (AVSL.SLEW m) = false := by
  simp only [setptRegs, AVSL.SLEW, AVSL.SETPT, LOOP.TARGET, CMPL.EVT, Bool.or_eq_false_iff, beq_eq_false_iff_ne]
  omega

theorem setptRegs_ports {n : Nat} (hn : n < 32) (k : Fin 8) : setptRegs n (AVSP.FRAMES k.val) = false := by
  simp only [setptRegs, AVSP.FRAMES, AVSL.SETPT, LOOP.TARGET, CMPL.EVT, Bool.or_eq_false_iff, beq_eq_false_iff_ne]
  omega

theorem get_vtgt_put_uvact (c : Chip) (n m v : Nat) (hn : n < 32) (hm : m < 32) : (c.put (CMPL.EVT_UVACT n) v).get (LOOP.TARGET_VTGT m) = c.get (LOOP.TARGET_VTGT m) :=
  get_put_apart _ _ _ _ rfl (Fld.apart_of_off_ne _ _ (by simp only [LOOP.TARGET_VTGT, LOOP.TARGET, CMPL.EVT_UVACT, CMPL.EVT]; omega))

theorem get_vtgt_put_ramping (c : Chip) (n m v : Nat) : (c.put (LOOP.TARGET_RAMPING n) v).get (LOOP.TARGET_VTGT m) = c.get (LOOP.TARGET_VTGT m) :=
  get_put_apart _ _ _ _ rfl (Fld.apart_of_bits _ _ (by rfl))

/-- RAMPING, UVACT and the engine's own state follow, and VTGT stays. -/
structure Chip.Follows (n : Nat) (s t : Chip) : Prop where
  regs : s.OnlyIn (fun o => o == LOOP.TARGET n || o == CMPL.EVT n) t
  vtgt : ∀ m < 32, t.get (LOOP.TARGET_VTGT m) = s.get (LOOP.TARGET_VTGT m)
  faults : t.faultQ = s.faultQ
  outbox : t.outbox = s.outbox
  ports : t.avsHw = s.avsHw

namespace Chip.Follows
variable {n : Nat} {s t : Chip}

theorem ramping (s : Chip) (n v : Nat) : Follows n s (s.put (LOOP.TARGET_RAMPING n) v) :=
  ⟨(Chip.OnlyIn.refl _ s).put _ _ (by simp [LOOP.TARGET_RAMPING]), fun m _ => get_vtgt_put_ramping s n m v, rfl, rfl, rfl⟩

theorem engUpd (h : Follows n s t) (f : LoopHw → LoopHw) : Follows n s (t.engUpd n f) := ⟨h.regs.upd rfl, h.vtgt, h.faults, h.outbox, h.ports⟩

theorem uvact (h : Follows n s t) (hn : n < 32) (v : Nat) : Follows n s (t.put (CMPL.EVT_UVACT n) v) :=
  ⟨h.regs.put _ _ (by simp [CMPL.EVT_UVACT]), fun m hm => (get_vtgt_put_uvact t n m v hn hm).trans (h.vtgt m hm), h.faults, h.outbox, h.ports⟩

theorem either {b : Prop} [Decidable b] {u : Chip} (h : Follows n s t) (k : Follows n s u) : Follows n s (if b then t else u) := by
  split
  · exact h
  · exact k

end Chip.Follows

theorem rampRefresh_follows (c : Chip) {n : Nat} (hn : n < 32) : c.Follows n (c.rampRefresh n) := by
  unfold Chip.rampRefresh
  have base : c.Follows n (c.putB (LOOP.TARGET_RAMPING n) (c.loopState n != 0 && c.get (LOOP.TARGET_VTGT n) != c.goal n)) := .ramping c n _
  have turned := fun f g => (base.engUpd f).either (b := c.get (LOOP.TARGET_VTGT n) = c.goal n) (base.either (b := (c.loops.get n).dir = if c.get (LOOP.TARGET_VTGT n) < c.goal n then 1 else -1) (base.engUpd g))
  exact (((turned _ _).uvact hn 0).engUpd _).either (((turned _ _).engUpd _).either (turned _ _))

/-- The AVSBus owns the loop, it runs, and the value lies within its limits (R262, R264). -/
structure Chip.AvsSettable (c : Chip) (n v : Nat) : Prop where
  owner : c.get (AVSL.CTRL_OWNER n) = 1
  runs : c.loopState n = 2
  low : c.get (AVSL.VLIM_VMIN n) ≤ v
  high : v ≤ c.get (AVSL.VLIM_VMAX n)

theorem setpointCmd_settable {c : Chip} {n v : Nat} (h : c.AvsSettable n v) : c.setpointCmd n 1 v = ((c.put (AVSL.SETPT_SETPT n) v).rampRefresh n, 0) := by
  obtain ⟨howner, hruns, hlow, hhigh⟩ := h
  simp [Chip.setpointCmd, howner, hruns, Nat.not_lt.2 hlow, Nat.not_lt.2 hhigh]

theorem avsSetpoint_settable {c : Chip} {n v : Nat} (h : c.AvsSettable n v) (k : Nat) : c.avsSetpoint k n v = ((c.put (AVSL.SETPT_SETPT n) v).rampRefresh n, 0) := by
  simp [Chip.avsSetpoint, setpointCmd_settable h]

theorem get_lt_two_pow (c : Chip) (f : Fld) : c.get f < 2 ^ f.width := Nat.mod_lt _ (Nat.two_pow_pos _)

/-- What is within VMAX fits SETPT. -/
theorem Chip.AvsSettable.fits {c : Chip} {n v : Nat} (h : c.AvsSettable n v) : v < 2 ^ 14 := Nat.lt_of_le_of_lt h.high (get_lt_two_pow c (AVSL.VLIM_VMAX n))

/-- A setpoint of each loop of a list is taken: nothing else changes, but how the loops stand to their targets and what is held for them. -/
structure Chip.Commanded (loops : List Nat) (v : Nat) (s t : Chip) : Prop where
  regs : s.OnlyIn (fun o => loops.any (setptRegs · o)) t
  setpt : ∀ m, t.get (AVSL.SETPT_SETPT m) = if m ∈ loops then v else s.get (AVSL.SETPT_SETPT m)
  vtgt : ∀ m < 32, t.get (LOOP.TARGET_VTGT m) = s.get (LOOP.TARGET_VTGT m)
  faults : t.faultQ = s.faultQ
  outbox : t.outbox = s.outbox
  ports : t.avsHw = s.avsHw

namespace Chip.Commanded
variable {l m : List Nat} {v : Nat} {s t u : Chip}

theorem refl (v : Nat) (s : Chip) : Commanded [] v s s := ⟨.refl _ s, by simp, fun _ _ => rfl, rfl, rfl, rfl⟩

theorem append (h : Commanded l v s t) (k : Commanded m v t u) : Commanded (l ++ m) v s u where
  regs := (h.regs.mono (by simp +contextual)).trans (k.regs.mono (by simp +contextual))
  setpt n := by
    rw [k.setpt, h.setpt]
    by_cases hn : n ∈ m <;> simp [hn]
  vtgt n hn := (k.vtgt n hn).trans (h.vtgt n hn)
  faults := k.faults.trans h.faults
  outbox := k.outbox.trans h.outbox
  ports := k.ports.trans h.ports

theorem get_one {n : Nat} (h : Commanded [n] v s t) (f : Fld) (hf : setptRegs n f.off = false) : t.get f = s.get f := h.regs.get f (by simpa using hf)

/-- The registers that decide whether a loop may take a setpoint stay. -/
theorem settable {n w : Nat} (h : Commanded l v s t) (k : s.AvsSettable n w) : t.AvsSettable n w := by
  have same : ∀ f : Fld, (∀ i ∈ l, setptRegs i f.off = false) → t.get f = s.get f := fun f hf => h.regs.get f (by simpa using hf)
  obtain ⟨howner, hruns, hlow, hhigh⟩ := k
  refine ⟨(same _ fun i _ => setptRegs_ctrl i n).trans howner, (same _ fun i _ => setptRegs_status i n).trans hruns, ?_, ?_⟩
  · rw [same (AVSL.VLIM_VMIN n) fun i _ => setptRegs_vlim i n]
    exact hlow
  · rw [same (AVSL.VLIM_VMAX n) fun i _ => setptRegs_vlim i n]
    exact hhigh

end Chip.Commanded

/-- The fields that show what is held for a loop read 0. -/
def Chip.avsUnheld (c : Chip) (n : Nat) : Chip := (c.put (AVSL.SETPT_HELD n) 0).put (AVSL.SETPT_HOLDV n) 0

theorem setpt_ne_of_ne {m n : Nat} (h : m ≠ n) : AVSL.SETPT m ≠ AVSL.SETPT n := by
  simp only [AVSL.SETPT]
  omega

theorem ref_ne_setpt (m n : Nat) : AVSL.REF m ≠ AVSL.SETPT n := by
  simp only [AVSL.SETPT, AVSL.REF]
  omega

theorem ctrl_ne_setpt (m n : Nat) : AVSL.CTRL m ≠ AVSL.SETPT n := by
  simp only [AVSL.CTRL, AVSL.SETPT]
  omega

theorem get_setpt_avsUnheld (c : Chip) (n m : Nat) : (c.avsUnheld n).get (AVSL.SETPT_SETPT m) = c.get (AVSL.SETPT_SETPT m) := by
  rw [Chip.avsUnheld, get_put_apart _ _ _ _ rfl (Fld.apart_of_bits _ _ rfl), get_put_apart _ _ _ _ rfl (Fld.apart_of_bits _ _ rfl)]

theorem avsUnheld_regs (c : Chip) (n : Nat) : c.OnlyIn (· == AVSL.SETPT n) (c.avsUnheld n) :=
  ((Chip.OnlyIn.refl _ c).put (AVSL.SETPT_HELD n) 0 (by simp [AVSL.SETPT_HELD])).put (AVSL.SETPT_HOLDV n) 0 (by simp [AVSL.SETPT_HOLDV])

theorem target_ne_setpt (m n : Nat) : LOOP.TARGET m ≠ AVSL.SETPT n := by
  simp only [LOOP.TARGET, AVSL.SETPT]
  omega

theorem setptRegs_eq (n o : Nat) : setptRegs n o = (o == AVSL.SETPT n || (o == LOOP.TARGET n || o == CMPL.EVT n)) := Bool.or_assoc _ _ _

/-- A settable loop takes its setpoint. -/
theorem commanded_avsSetpoint {c : Chip} {n v : Nat} (hn : n < 32) (h : c.AvsSettable n v) : c.Commanded [n] v ((c.put (AVSL.SETPT_SETPT n) v).rampRefresh n) := by
  have follows := rampRefresh_follows (c.put (AVSL.SETPT_SETPT n) v) hn
  have setptSame : ∀ m, ((c.put (AVSL.SETPT_SETPT n) v).rampRefresh n).get (AVSL.SETPT_SETPT m) = (c.put (AVSL.SETPT_SETPT n) v).get (AVSL.SETPT_SETPT m) := fun m => by
    refine follows.regs.get _ ?_
    simp only [LOOP.TARGET, CMPL.EVT, AVSL.SETPT_SETPT, AVSL.SETPT, Bool.or_eq_false_iff, beq_eq_false_iff_ne]
    omega
  refine ⟨?_, fun m => ?_, fun m hm => ?_, follows.faults, follows.outbox, follows.ports⟩
  · refine (((Chip.OnlyIn.refl _ c).put (AVSL.SETPT_SETPT n) v ?_).trans (follows.regs.mono ?_))
    · simp [setptRegs, AVSL.SETPT_SETPT]
    · intro o ho
      simp only [List.any_cons, List.any_nil, Bool.or_false, setptRegs_eq, ho, Bool.or_true]
  · rw [setptSame]
    by_cases hm : m = n
    · subst hm
      simpa using (get_put_same c (AVSL.SETPT_SETPT m) v rfl).trans (Nat.mod_eq_of_lt h.fits)
    · simpa [hm] using get_put_apart c (AVSL.SETPT_SETPT n) (AVSL.SETPT_SETPT m) v rfl (Fld.apart_of_off_ne _ _ (setpt_ne_of_ne hm))
  · rw [follows.vtgt m hm]
    exact get_put_apart c _ _ v rfl (Fld.apart_of_off_ne _ _ (target_ne_setpt m n))

/-- What shows of the values held decides nothing about a setpoint. -/
theorem avsUnheld_settable {c : Chip} {n m v : Nat} (h : c.AvsSettable m v) : (c.avsUnheld n).AvsSettable m v := by
  have same : ∀ f : Fld, f.off ≠ AVSL.SETPT n → (c.avsUnheld n).get f = c.get f := fun f hf => (avsUnheld_regs c n).get f (by simpa using hf)
  obtain ⟨howner, hruns, hlow, hhigh⟩ := h
  refine ⟨(same _ ?_).trans howner, (same _ ?_).trans hruns, ?_, ?_⟩
  · simp only [AVSL.CTRL_OWNER, AVSL.CTRL, AVSL.SETPT]; omega
  · simp only [LOOP.STATUS_STATE, LOOP.STATUS, AVSL.SETPT]; omega
  · rwa [same (AVSL.VLIM_VMIN m) (by simp only [AVSL.VLIM_VMIN, AVSL.VLIM, AVSL.SETPT]; omega)]
  · rwa [same (AVSL.VLIM_VMAX m) (by simp only [AVSL.VLIM_VMAX, AVSL.VLIM, AVSL.SETPT]; omega)]

theorem Chip.Commanded.ofUnheld {c t : Chip} {n v : Nat} (h : (c.avsUnheld n).Commanded [n] v t) : c.Commanded [n] v t where
  regs := ((avsUnheld_regs c n).mono fun o ho => by simp [setptRegs, beq_iff_eq.1 ho]).trans h.regs
  setpt m := by rw [h.setpt, get_setpt_avsUnheld]
  vtgt m hm := by rw [h.vtgt m hm, (avsUnheld_regs c n).get _ (beq_eq_false_iff_ne.2 (target_ne_setpt m n))]
  faults := h.faults
  outbox := h.outbox
  ports := h.ports

/-! What is held for a select (R268). -/

/-- Nothing is held for a select. -/
structure AvsHw.HoldsNothing (a : AvsHw) (sel : Nat) : Prop where
  voltage : (a.holdV[sel]?).join = none
  slew : (a.holdS[sel]?).join = none
  reset : a.holdR[sel]? ≠ some true
  status : a.holdE[sel]? ≠ some true

theorem set_eq_self {α : Type} {l : List α} {i : Nat} {x : α} (h : ∀ y, l[i]? = some y → y = x) : l.set i x = l := by
  refine List.ext_getElem? fun j => ?_
  rw [List.getElem?_set]
  split
  · next hij =>
    subst hij
    split
    · next hlt => rw [List.getElem?_eq_getElem hlt, h _ (List.getElem?_eq_getElem hlt)]
    · next hge => exact (List.getElem?_eq_none (Nat.le_of_not_lt hge)).symm
  · rfl

theorem set_none_of_join {α : Type} {l : List (Option α)} {i : Nat} (h : (l[i]?).join = none) : l.set i none = l :=
  set_eq_self fun y hy => by simpa [hy] using h

theorem set_false_of_ne {l : List Bool} {i : Nat} (h : l[i]? ≠ some true) : l.set i false = l :=
  set_eq_self fun y hy => by
    cases y
    · rfl
    · exact absurd hy h

theorem getD_false_of_ne {l : List Bool} {i : Nat} (h : l[i]? ≠ some true) : (l[i]?).getD false = false := by
  cases hi : l[i]? with
  | none => rfl
  | some b => cases b with
    | false => rfl
    | true => exact absurd hi h

theorem avsUpd_self {c : Chip} {k : Nat} {f : AvsHw → AvsHw} (h : f (c.avsHw.get k) = c.avsHw.get k) : c.avsUpd k f = c := by
  rw [Chip.avsUpd, Tbl.upd, h, Tbl.set_get]

/-- A select for which nothing is held has nothing to apply. -/
theorem avsRelease_idle {c : Chip} {k sel n : Nat} (h : (c.avsHw.get k).HoldsNothing sel) : c.avsRelease k sel n = c.avsUnheld n := by
  obtain ⟨hv, hs, hr, he⟩ := h
  have hupd : (c.avsUpd k fun a => { a with holdV := a.holdV.set sel none, holdS := a.holdS.set sel none, holdR := a.holdR.set sel false, holdE := a.holdE.set sel false }) = c :=
    avsUpd_self (by simp only [set_none_of_join hv, set_none_of_join hs, set_false_of_ne hr, set_false_of_ne he])
  simp only [Chip.avsRelease, hupd, hv, hs, getD_false_of_ne hr, getD_false_of_ne he]
  rfl

/-- A command to one select: what is held for it first, then the command, and the answer. -/
theorem avsCommit_one (c : Chip) (k sel n : Nat) (cmd : Chip → Nat → Chip × Nat) :
    c.avsCommit k [(sel, n)] cmd = (cmd (c.avsRelease k sel n) n).1.avsAnswer k (if (cmd (c.avsRelease k sel n) n).2 = 0 then 0 else 1) 0 [n] := by
  simp [Chip.avsCommit]

/-! The answer of a port to one select. -/

theorem get_avsAnswer (c : Chip) (k ack data : Nat) (loops : List Nat) (f : Fld) (h : f.off ≠ AVSP.FRAMES k) : (c.avsAnswer k ack data loops).get f = c.get f := by
  rw [avsAnswer_eq, Chip.incWrap]
  exact congrArg (fun w => wordField w f.lo f.width) (reg_put_other c (AVSP.FRAMES_COUNT k) _ _ h)

theorem avsAnswer_frames (c : Chip) (k ack data : Nat) (loops : List Nat) : (c.avsAnswer k ack data loops).get (AVSP.FRAMES_COUNT k) = (c.get (AVSP.FRAMES_COUNT k) + 1) % 2 ^ 32 :=
  get_put_same c (AVSP.FRAMES_COUNT k) _ rfl

theorem avsAnswer_regs (c : Chip) (k ack data : Nat) (loops : List Nat) : c.OnlyIn (· == AVSP.FRAMES k) (c.avsAnswer k ack data loops) :=
  ((Chip.OnlyIn.refl _ c).put (AVSP.FRAMES_COUNT k) _ (by simp [AVSP.FRAMES_COUNT])).upd rfl

/-- The registers of a port's frames and of the loops' setpoints do not meet. -/
theorem loopRegs_ne_frames (k : Fin 8) {n : Nat} (hn : n < 32) : LOOP.TARGET n ≠ AVSP.FRAMES k.val ∧ AVSL.SETPT n ≠ AVSP.FRAMES k.val ∧ AVSL.CTRL n ≠ AVSP.FRAMES k.val
    ∧ AVSL.SLEW n ≠ AVSP.FRAMES k.val ∧ AVSL.REF n ≠ AVSP.FRAMES k.val := by
  simp only [LOOP.TARGET, AVSL.SETPT, AVSL.CTRL, AVSL.SLEW, AVSL.REF, AVSP.FRAMES]
  omega

/-- What the answer to a setpoint that was taken shows, and what it leaves. -/
theorem commanded_answer {s t : Chip} {k : Fin 8} {n v : Nat} (h : s.Commanded [n] v t) (hn : n < 32) (howner : s.get (AVSL.CTRL_OWNER n) = 1) :
    (t.avsAnswer k.val 0 0 [n]).get (AVSL.SETPT_SETPT n) = v ∧ (t.avsAnswer k.val 0 0 [n]).get (LOOP.TARGET_VTGT n) = s.get (LOOP.TARGET_VTGT n) ∧
      (t.avsAnswer k.val 0 0 [n]).get (AVSP.FRAMES_COUNT k.val) = (s.get (AVSP.FRAMES_COUNT k.val) + 1) % 2 ^ 32 ∧
      (t.avsAnswer k.val 0 0 [n]).outbox = s.outbox ++ [.avs k.val 0 0 (s.get (LOOP.TARGET_VTGT n) == v) (s.avsHw.get k.val).alert true] ∧
      s.OnlyIn (fun o => o == AVSL.SETPT n || o == AVSP.FRAMES k.val || o == LOOP.TARGET n || o == CMPL.EVT n) (t.avsAnswer k.val 0 0 [n]) := by
  obtain ⟨htarget, hsetpt, -⟩ := loopRegs_ne_frames k hn
  have taken : t.get (AVSL.SETPT_SETPT n) = v := by simpa using h.setpt n
  have owned : t.get (AVSL.CTRL_OWNER n) = 1 := (h.get_one _ (setptRegs_ctrl n n)).trans howner
  refine ⟨?_, ?_, ?_, ?_, ?_⟩
  · rw [get_avsAnswer _ _ _ _ _ _ hsetpt, taken]
  · rw [get_avsAnswer _ _ _ _ _ _ htarget, h.vtgt n hn]
  · rw [avsAnswer_frames, h.get_one _ (setptRegs_ports hn k)]
  · show t.outbox ++ [t.avsFrameOut k.val 0 0 [n]] = _
    rw [avsFrameOut_one, Chip.avsLoopFrame, taken, owned, h.vtgt n hn, h.outbox, h.ports]
    rfl
  · refine (h.regs.mono fun o ho => ?_).trans ((avsAnswer_regs t k.val 0 0 [n]).mono fun o ho => by simp [beq_iff_eq.1 ho])
    simp only [List.any_cons, List.any_nil, setptRegs, Bool.or_false, Bool.or_eq_true] at ho ⊢
    tauto

/-- A setpoint commanded to one settable select for which nothing is held. -/
theorem avsCommit_setpoint {c : Chip} {k sel n v : Nat} (cmd : Chip → Nat → Chip × Nat) (hheld : (c.avsHw.get k).HoldsNothing sel) (hn : n < 32) (hmay : c.AvsSettable n v)
    (hcmd : cmd (c.avsUnheld n) n = (c.avsUnheld n).avsSetpoint k n v) : ∃ t, c.Commanded [n] v t ∧ c.avsCommit k [(sel, n)] cmd = t.avsAnswer k 0 0 [n] := by
  have may := avsUnheld_settable (n := n) hmay
  refine ⟨_, (commanded_avsSetpoint hn may).ofUnheld, ?_⟩
  rw [avsCommit_one, avsRelease_idle hheld, hcmd, avsSetpoint_settable may]
  rfl

/-! Commands that a loop refuses, and slew commands (R263, R264). -/

theorem setpointCmd_notOwner {c : Chip} {n v : Nat} (h : c.get (AVSL.CTRL_OWNER n) ≠ 1) : c.setpointCmd n 1 v = (c.refuseCmd n 1, 1) := by
  simp [Chip.setpointCmd, h]

theorem refuseCmd_owner (c : Chip) (n : Nat) : c.refuseCmd n 1 = (c.put (AVSL.REF_LASTREF n) 1).event (AVSL.REF_REFF n) (AVSL.REF_REFCNT n) (0x1a0 + n) := rfl

theorem avsSetpoint_notOwner {c : Chip} {n v : Nat} (h : c.get (AVSL.CTRL_OWNER n) ≠ 1) (k : Nat) :
    c.avsSetpoint k n v = ((c.refuseCmd n 1).avsUpd k fun a => { a with alert := true }, 1) := by
  simp [Chip.avsSetpoint, setpointCmd_notOwner h]

/-- The slew that a rate in mV/µs asks for: 0 acts as 1 (R263). -/
theorem rate_slew (rate : Nat) : (if 1000 * rate = 0 then 1000 else 1000 * rate) = 1000 * max rate 1 := by
  split <;> omega

/-- A slew within the hardware limit is taken, and one above it clips there. -/
theorem slewCmd_taken {c : Chip} {n rate : Nat} (howner : c.get (AVSL.CTRL_OWNER n) = 1) (hruns : c.loopState n ∈ [2, 4]) :
    c.slewCmd n 1 (1000 * rate) 1000 = if c.slewMax n < 1000 * max rate 1
      then ((c.put (AVSL.SLEW_SLEWCMD n) (c.slewMax n)).event (AVSL.REF_CLIPF n) (AVSL.REF_CLIPCNT n) (0x1a0 + n), 0)
      else (c.put (AVSL.SLEW_SLEWCMD n) (1000 * max rate 1), 0) := by
  have hstate : ¬(decide (c.loopState n ≠ 2) && decide (c.loopState n ≠ 4)) = true := by
    rcases List.mem_pair.1 hruns with h | h <;> simp [h]
  unfold Chip.slewCmd
  dsimp only
  rw [if_neg (not_not.2 howner), if_neg hstate, rate_slew]

theorem avsSlew_within {c : Chip} {n rate : Nat} (k : Nat) (howner : c.get (AVSL.CTRL_OWNER n) = 1) (hruns : c.loopState n ∈ [2, 4]) (hmax : 1000 * max rate 1 ≤ c.slewMax n) :
    c.avsSlew k n (1000 * rate) = (c.put (AVSL.SLEW_SLEWCMD n) (1000 * max rate 1), 0) := by
  unfold Chip.avsSlew
  rw [slewCmd_taken howner hruns, rate_slew, if_neg (Nat.not_lt.2 hmax)]
  simp [Nat.not_lt.2 hmax]

theorem avsSlew_above {c : Chip} {n rate : Nat} (k : Nat) (howner : c.get (AVSL.CTRL_OWNER n) = 1) (hruns : c.loopState n ∈ [2, 4]) (hmax : c.slewMax n < 1000 * max rate 1) :
    c.avsSlew k n (1000 * rate) = (((c.put (AVSL.SLEW_SLEWCMD n) (c.slewMax n)).event (AVSL.REF_CLIPF n) (AVSL.REF_CLIPCNT n) (0x1a0 + n)).avsUpd k fun a => { a with alert := true }, 0) := by
  unfold Chip.avsSlew
  rw [slewCmd_taken howner hruns, rate_slew, if_pos hmax]
  simp only [hmax, decide_true, Bool.or_true, if_true]

end Sys2Proof.Machine

namespace Sys2Proof.Machine

/-! What a write to one mapped select does on an enabled port (R267, R268). -/

section
variable {c : Chip} {k sel n : Nat} (hcore : c.coreRuns = true) (hen : c.get (AVSP.CFG_EN k) = 1) (hloop : c.avsLoop k sel = some n)
include hcore hen hloop

theorem avsWriteV_select (mv : Nat) : c.avsWriteV k sel false mv true = c.avsCommit k [(sel, n)] fun t n => t.avsSetpoint k n (4 * mv) := by
  rw [Chip.avsWriteV, avsFrame_good hcore hen, avsSels_mapped hloop]
  rfl

theorem avsWriteSlew_select (rate : Nat) : c.avsWriteSlew k sel false rate true = c.avsCommit k [(sel, n)] fun t n => t.avsSlew k n (1000 * rate) := by
  rw [Chip.avsWriteSlew, avsFrame_good hcore hen, avsSels_mapped hloop]
  rfl

theorem avsReset_select : c.avsReset k sel false true = c.avsCommit k [(sel, n)] fun t n => t.avsDefault k n := by
  rw [Chip.avsReset, avsFrame_good hcore hen, avsSels_mapped hloop]
  rfl

theorem avsStatusWrite_select : c.avsStatusWrite k sel false true = c.avsCommit k [(sel, n)] fun t _ => (t.avsUpd k fun a => { a with alert := false }, 0) := by
  rw [Chip.avsStatusWrite, avsFrame_good hcore hen, avsSels_mapped hloop]
  rfl

theorem avsWriteSlew_hold (rate : Nat) : c.avsWriteSlew k sel true rate true = (c.avsUpd k fun a => { a with holdS := a.holdS.set sel (some (1000 * rate)) }).avsAnswer k 0 0 [n] := by
  rw [Chip.avsWriteSlew, avsFrame_good hcore hen, avsSels_mapped hloop]
  rfl

theorem avsReset_hold : c.avsReset k sel true true = (c.avsUpd k fun a => { a with holdR := a.holdR.set sel true }).avsAnswer k 0 0 [n] := by
  rw [Chip.avsReset, avsFrame_good hcore hen, avsSels_mapped hloop]
  rfl

theorem avsStatusWrite_hold : c.avsStatusWrite k sel true true = (c.avsUpd k fun a => { a with holdE := a.holdE.set sel true }).avsAnswer k 0 0 [n] := by
  rw [Chip.avsStatusWrite, avsFrame_good hcore hen, avsSels_mapped hloop]
  rfl

end

/-- The frame tells of a loop's target, setpoint and owner, and of the port's alert. -/
theorem avsFrameOut_shown {s t : Chip} {k n : Nat} {alert : Bool} (ack data : Nat) (hv : t.get (LOOP.TARGET_VTGT n) = s.get (LOOP.TARGET_VTGT n))
    (hs : t.get (AVSL.SETPT_SETPT n) = s.get (AVSL.SETPT_SETPT n)) (hc : t.get (AVSL.CTRL_OWNER n) = s.get (AVSL.CTRL_OWNER n))
    (ha : (t.avsHw.get k).alert = alert) :
    t.avsFrameOut k ack data [n] = .avs k ack data (s.get (LOOP.TARGET_VTGT n) == s.get (AVSL.SETPT_SETPT n)) alert (s.get (AVSL.CTRL_OWNER n) == 1) := by
  rw [avsFrameOut_one, Chip.avsLoopFrame, hv, hs, hc, ha]

/-- An answer adds its frame, and counts it. -/
theorem Effect.answered {s : State} {c : Chip} {h : Chip → Chip} {fields : List Fld} {srcs : List Nat} {msgs : List FaultMsg} {outs : List Output}
    (e : Effect s { s with chip := c } h fields srcs msgs outs) (k ack data : Nat) {loops : List Nat} {o : Output} (ho : c.avsFrameOut k ack data loops = o) :
    Effect s { s with chip := c.avsAnswer k ack data loops } h (fields ++ [AVSP.FRAMES_COUNT k]) srcs msgs (outs ++ [o]) :=
  ho ▸ e.avsAnswer k ack data loops

/-- A write that only notes what is held for its select changes the port's own state and the frame count. -/
theorem effect_avsNoted (s : State) (k n : Nat) (f : AvsHw → AvsHw) (hf : (f (s.chip.avsHw.get k)).alert = (s.chip.avsHw.get k).alert) :
    Effect s { s with chip := (s.chip.avsUpd k f).avsAnswer k 0 0 [n] } (fun c => c.avsUpd k f) [AVSP.FRAMES_COUNT k] [] [] [s.chip.avsLoopFrame k 0 0 n] := by
  have noted : Effect s { s with chip := s.chip.avsUpd k f } (fun c => c.avsUpd k f) [] [] [] [] := (Effect.start s).avsUpd k f
  exact noted.answered k 0 0 (avsFrameOut_shown 0 0 rfl rfl rfl (by rw [avsUpd_hw, hf]))

/-- The registers that a frame tells of are not those that show what is held. -/
theorem avsUnheld_shown (c : Chip) (n : Nat) : (c.avsUnheld n).get (LOOP.TARGET_VTGT n) = c.get (LOOP.TARGET_VTGT n) ∧
    (c.avsUnheld n).get (AVSL.SETPT_SETPT n) = c.get (AVSL.SETPT_SETPT n) ∧ (c.avsUnheld n).get (AVSL.CTRL_OWNER n) = c.get (AVSL.CTRL_OWNER n) := by
  exact ⟨(avsUnheld_regs c n).get _ (beq_eq_false_iff_ne.2 (target_ne_setpt n n)), get_setpt_avsUnheld c n n,
    (avsUnheld_regs c n).get _ (beq_eq_false_iff_ne.2 (ctrl_ne_setpt n n))⟩

theorem avsUnheld_runs (c : Chip) (n : Nat) : (c.avsUnheld n).loopState n = c.loopState n ∧ (c.avsUnheld n).slewMax n = c.slewMax n := by
  have hstate : (c.avsUnheld n).get (LOOP.STATUS_STATE n) = c.get (LOOP.STATUS_STATE n) := (avsUnheld_regs c n).get _ (beq_eq_false_iff_ne.2 (by
    simp only [LOOP.STATUS_STATE, LOOP.STATUS, AVSL.SETPT]; omega))
  have hmax : (c.avsUnheld n).get (AVSL.SLEW_SLEWMAX n) = c.get (AVSL.SLEW_SLEWMAX n) := (avsUnheld_regs c n).get _ (beq_eq_false_iff_ne.2 (by
    simp only [AVSL.SLEW_SLEWMAX, AVSL.SLEW, AVSL.SETPT]; omega))
  exact ⟨hstate, by rw [Chip.slewMax, hmax, Chip.slewMax]⟩

theorem effect_avsUnheld (s : State) (n : Nat) : Effect s { s with chip := s.chip.avsUnheld n } id [AVSL.SETPT_HELD n, AVSL.SETPT_HOLDV n] [] [] [] :=
  ((Effect.start s).put _ _).put _ _

/-- A status write clears the port's alert. -/
theorem effect_avsStatusWrite (s : State) (k n : Nat) :
    Effect s { s with chip := ((s.chip.avsUnheld n).avsUpd k fun a => { a with alert := false }).avsAnswer k 0 0 [n] } (fun c => c.avsUpd k fun a => { a with alert := false })
      [AVSL.SETPT_HELD n, AVSL.SETPT_HOLDV n, AVSP.FRAMES_COUNT k] [] []
      [.avs k 0 0 (s.chip.get (LOOP.TARGET_VTGT n) == s.chip.get (AVSL.SETPT_SETPT n)) false (s.chip.get (AVSL.CTRL_OWNER n) == 1)] := by
  have cleared : Effect s { s with chip := (s.chip.avsUnheld n).avsUpd k fun a => { a with alert := false } } (fun c => c.avsUpd k fun a => { a with alert := false })
      [AVSL.SETPT_HELD n, AVSL.SETPT_HOLDV n] [] [] [] := (effect_avsUnheld s n).avsUpd k _
  obtain ⟨hv, hs, hc⟩ := avsUnheld_shown s.chip n
  exact cleared.answered k 0 0 (avsFrameOut_shown 0 0 ((get_avsUpd _ _ _ _).trans hv) ((get_avsUpd _ _ _ _).trans hs) ((get_avsUpd _ _ _ _).trans hc) (by rw [avsUpd_hw]))

/-- An effect that leaves open how the ports stand. -/
theorem Effect.openPorts {s t : State} {h : Chip → Chip} {fields : List Fld} {srcs : List Nat} {msgs : List FaultMsg} {outs : List Output}
    (e : Effect s t h fields srcs msgs outs) : Effect s t (fun c => { h c with avsHw := t.chip.avsHw }) fields srcs msgs outs :=
  e.innerStep (fun c => { c with avsHw := t.chip.avsHw }) rfl rfl rfl rfl rfl (congrArg (fun c => { c with avsHw := t.chip.avsHw }) e.inner)

end Sys2Proof.Machine

namespace Sys2Proof.Machine

/-! A voltage that is held (R268). -/

/-- Holding a voltage for one select. -/
def Chip.avsHoldV (c : Chip) (k mv : Nat) (x : Nat × Nat) : Chip :=
  let t := (c.avsUpd k fun a => { a with holdV := a.holdV.set x.1 (some (4 * mv)) }).put (AVSL.SETPT_HELD x.2) 1
  if 4 * mv < 2 ^ 14 then t.put (AVSL.SETPT_HOLDV x.2) (4 * mv) else (t.put (AVSL.SETPT_HOLDV x.2) t.freeVal).freeNext

theorem avsWriteV_hold {c : Chip} {k sel : Nat} {sels : List (Nat × Nat)} (hcore : c.coreRuns = true) (hen : c.get (AVSP.CFG_EN k) = 1) (hsels : c.avsSels k sel = some sels) (mv : Nat) :
    c.avsWriteV k sel true mv true = (sels.foldl (fun t x => t.avsHoldV k mv x) c).avsAnswer k 0 0 (sels.map (·.2)) := by
  rw [Chip.avsWriteV, avsFrame_good hcore hen, hsels]
  rfl

/-- A voltage is held for each select of a list: what is held shows, and nothing is commanded. -/
structure Chip.Holding (k mv : Nat) (l : List (Nat × Nat)) (s t : Chip) : Prop where
  regs : s.OnlyIn (fun o => (l.map (·.2)).any (o == AVSL.SETPT ·)) t
  setpt : ∀ m, t.get (AVSL.SETPT_SETPT m) = s.get (AVSL.SETPT_SETPT m)
  held : ∀ m, m ∈ l.map (·.2) ∨ s.get (AVSL.SETPT_HELD m) = 1 → t.get (AVSL.SETPT_HELD m) = 1
  length : (t.avsHw.get k).holdV.length = (s.avsHw.get k).holdV.length
  voltage : ∀ j, (j ∈ l.map (·.1) ∧ j < (s.avsHw.get k).holdV.length) ∨ (s.avsHw.get k).holdV[j]? = some (some (4 * mv)) → (t.avsHw.get k).holdV[j]? = some (some (4 * mv))
  alert : (t.avsHw.get k).alert = (s.avsHw.get k).alert
  faults : t.faultQ = s.faultQ
  outbox : t.outbox = s.outbox

namespace Chip.Holding
variable {k mv : Nat} {l m : List (Nat × Nat)} {s t u : Chip}

theorem refl (k mv : Nat) (s : Chip) : Holding k mv [] s s := ⟨.refl _ s, fun _ => rfl, by simp, rfl, by simp, rfl, rfl, rfl⟩

theorem append (h : Holding k mv l s t) (i : Holding k mv m t u) : Holding k mv (l ++ m) s u where
  regs := (h.regs.mono (by simp +contextual)).trans (i.regs.mono (by simp +contextual))
  setpt n := (i.setpt n).trans (h.setpt n)
  held n hn := by
    simp only [List.map_append, List.mem_append] at hn
    rcases hn with (hl | hm) | hs
    · exact i.held n (.inr (h.held n (.inl hl)))
    · exact i.held n (.inl hm)
    · exact i.held n (.inr (h.held n (.inr hs)))
  length := i.length.trans h.length
  voltage j hj := by
    simp only [List.map_append, List.mem_append] at hj
    rcases hj with ⟨hl | hm, hlt⟩ | hs
    · exact i.voltage j (.inr (h.voltage j (.inl ⟨hl, hlt⟩)))
    · exact i.voltage j (.inl ⟨hm, h.length ▸ hlt⟩)
    · exact i.voltage j (.inr (h.voltage j (.inr hs)))
  alert := i.alert.trans h.alert
  faults := i.faults.trans h.faults
  outbox := i.outbox.trans h.outbox

/-- One select: HELD and HOLDV show it, HOLDV with any value. -/
theorem one (s : Chip) (k mv sel n w : Nat) : Holding k mv [(sel, n)] s
    (((s.avsUpd k fun a => { a with holdV := a.holdV.set sel (some (4 * mv)) }).put (AVSL.SETPT_HELD n) 1).put (AVSL.SETPT_HOLDV n) w) where
  regs := by
    have noted : s.OnlyIn (fun o => ([(sel, n)].map (·.2)).any (o == AVSL.SETPT ·)) (s.avsUpd k fun a => { a with holdV := a.holdV.set sel (some (4 * mv)) }) :=
      (Chip.OnlyIn.refl _ s).upd rfl
    exact (noted.put (AVSL.SETPT_HELD n) 1 (by simp [AVSL.SETPT_HELD])).put (AVSL.SETPT_HOLDV n) w (by simp [AVSL.SETPT_HOLDV])
  setpt m := by
    rw [get_put_apart _ _ _ _ rfl (Fld.apart_of_bits _ _ rfl), get_put_apart _ _ _ _ rfl (Fld.apart_of_bits _ _ rfl), get_avsUpd]
  held m hm := by
    rw [get_put_apart _ _ _ _ rfl (Fld.apart_of_bits _ _ rfl)]
    by_cases hmn : m = n
    · subst hmn
      exact get_put_same _ _ _ rfl
    · rw [get_put_apart _ (AVSL.SETPT_HELD n) (AVSL.SETPT_HELD m) _ rfl (Fld.apart_of_off_ne _ _ (setpt_ne_of_ne hmn)), get_avsUpd]
      simpa [hmn] using hm
  length := by
    show ((s.avsUpd k _).avsHw.get k).holdV.length = _
    rw [avsUpd_hw, List.length_set]
  voltage j hj := by
    show ((s.avsUpd k _).avsHw.get k).holdV[j]? = _
    rw [avsUpd_hw]
    show ((s.avsHw.get k).holdV.set sel _)[j]? = _
    rw [List.getElem?_set]
    split
    · next hsel =>
      subst hsel
      rcases hj with ⟨-, hlt⟩ | hs
      · rw [if_pos hlt]
      · obtain ⟨hlt, -⟩ := List.getElem?_eq_some_iff.1 hs
        rw [if_pos hlt]
    · next hsel =>
      rcases hj with ⟨hmem, -⟩ | hs
      · exact absurd (by simpa using hmem) (Ne.symm hsel)
      · exact hs
  alert := by
    show ((s.avsUpd k _).avsHw.get k).alert = _
    rw [avsUpd_hw]
  faults := rfl
  outbox := rfl

/-- The next free value is taken, and nothing else changes. -/
theorem freeNext (h : Holding k mv l s t) : Holding k mv l s t.freeNext := ⟨h.regs.upd rfl, h.setpt, h.held, h.length, h.voltage, h.alert, h.faults, h.outbox⟩

theorem step (s : Chip) (k mv : Nat) (x : Nat × Nat) : Holding k mv [x] s (s.avsHoldV k mv x) := by
  unfold Chip.avsHoldV
  dsimp only
  split
  · exact one s k mv x.1 x.2 _
  · exact (one s k mv x.1 x.2 _).freeNext

theorem foldl (k mv : Nat) : ∀ (l : List (Nat × Nat)) (s : Chip), Holding k mv l s (l.foldl (fun t x => t.avsHoldV k mv x) s)
  | [], s => refl k mv s
  | x :: l, s => (step s k mv x).append (foldl k mv l _)

end Chip.Holding

/-! A setpoint commanded to every mapped select (R268). -/

/-- One command of a write and commit. -/
def avsCommitStep (k : Nat) (cmd : Chip → Nat → Chip × Nat) (acc : Chip × Bool) (x : Nat × Nat) : Chip × Bool :=
  ((cmd (acc.1.avsRelease k x.1 x.2) x.2).1, acc.2 && (cmd (acc.1.avsRelease k x.1 x.2) x.2).2 == 0)

theorem avsCommit_eq (c : Chip) (k : Nat) (sels : List (Nat × Nat)) (cmd : Chip → Nat → Chip × Nat) :
    c.avsCommit k sels cmd = (sels.foldl (avsCommitStep k cmd) (c, true)).1.avsAnswer k (if (sels.foldl (avsCommitStep k cmd) (c, true)).2 then 0 else 1) 0 (sels.map (·.2)) := rfl

/-- Every loop of a list takes the setpoint, where nothing is held for its select. -/
theorem commit_setpoints (k v : Nat) : ∀ (l : List (Nat × Nat)) (c : Chip), (∀ x ∈ l, x.2 < 32 ∧ (c.avsHw.get k).HoldsNothing x.1 ∧ c.AvsSettable x.2 v) →
    ∃ t, c.Commanded (l.map (·.2)) v t ∧ l.foldl (avsCommitStep k fun t n => t.avsSetpoint k n v) (c, true) = (t, true)
  | [], c, _ => ⟨c, .refl v c, rfl⟩
  | x :: l, c, h => by
    obtain ⟨hlt, hheld, hmay⟩ := h x List.mem_cons_self
    have may := avsUnheld_settable (n := x.2) hmay
    have first := (commanded_avsSetpoint hlt may).ofUnheld
    have hstep : avsCommitStep k (fun t n => t.avsSetpoint k n v) (c, true) x = ((((c.avsUnheld x.2).put (AVSL.SETPT_SETPT x.2) v).rampRefresh x.2), true) := by
      rw [avsCommitStep, avsRelease_idle hheld, avsSetpoint_settable may]
      rfl
    obtain ⟨t, ht, hrun⟩ := commit_setpoints k v l (((c.avsUnheld x.2).put (AVSL.SETPT_SETPT x.2) v).rampRefresh x.2) fun y hy => by
      obtain ⟨hylt, hyheld, hymay⟩ := h y (List.mem_cons_of_mem _ hy)
      exact ⟨hylt, first.ports ▸ hyheld, first.settable hymay⟩
    exact ⟨t, first.append ht, by rw [List.foldl_cons, hstep, hrun]⟩

end Sys2Proof.Machine

namespace Sys2Proof.Machine

/-! The answers to a refused setpoint, to a slew command, and to a command that first applies a voltage held (R263, R264, R268). -/

/-- What a loop refuses for its owner is recorded in REF, with reason 1. -/
theorem refuseCmd_owner_records (c : Chip) (n : Nat) : (c.refuseCmd n 1).get (AVSL.REF_LASTREF n) = 1 ∧ Recorded c (c.refuseCmd n 1) (AVSL.REF_REFF n) (AVSL.REF_REFCNT n) ∧
    c.OnlyIn (· == AVSL.REF n) (c.refuseCmd n 1) := by
  rw [refuseCmd_owner]
  refine ⟨?_, ?_, ?_⟩
  · rw [get_event_apart _ _ _ _ _ rfl (Fld.apart_of_bits _ _ rfl) (Fld.apart_of_bits _ _ rfl)]
    exact get_put_same _ _ _ rfl
  · exact (recorded_event (c.put (AVSL.REF_LASTREF n) 1) (AVSL.REF_REFF n) (AVSL.REF_REFCNT n) (0x1a0 + n) rfl rfl (Fld.apart_of_bits _ _ rfl) (Fld.apart_of_bits _ _ rfl) rfl).congr
      (get_put_apart _ _ _ _ rfl (Fld.apart_of_bits _ _ rfl)).symm rfl rfl
  · have shown : c.OnlyIn (· == AVSL.REF n) (c.put (AVSL.REF_LASTREF n) 1) := (Chip.OnlyIn.refl _ c).put (AVSL.REF_LASTREF n) 1 (by simp [AVSL.REF_LASTREF])
    exact shown.event _ _ _ (by simp [AVSL.REF_REFF]) (by simp [AVSL.REF_REFCNT])

/-- REF of a loop is none of the registers that a frame tells of. -/
theorem ref_apart (n : Nat) : LOOP.TARGET n ≠ AVSL.REF n ∧ AVSL.SETPT n ≠ AVSL.REF n ∧ AVSL.CTRL n ≠ AVSL.REF n := by
  simp only [LOOP.TARGET, AVSL.SETPT, AVSL.CTRL, AVSL.REF]
  omega

/-- A setpoint of another owner's loop, refused, with the port's alert. -/
def Chip.avsRefused (c : Chip) (k n : Nat) : Chip := ((c.avsUnheld n).refuseCmd n 1).avsUpd k fun a => { a with alert := true }

theorem avsRefused_get (c : Chip) (k n : Nat) (f : Fld) (hf : f.off ≠ AVSL.REF n) : (c.avsRefused k n).get f = (c.avsUnheld n).get f := by
  obtain ⟨-, -, hregs⟩ := refuseCmd_owner_records (c.avsUnheld n) n
  rw [Chip.avsRefused, get_avsUpd]
  exact hregs.get f (beq_eq_false_iff_ne.2 hf)

theorem avsRefused_records (c : Chip) (k n : Nat) : (c.avsRefused k n).get (AVSL.REF_LASTREF n) = 1 ∧ Recorded c (c.avsRefused k n) (AVSL.REF_REFF n) (AVSL.REF_REFCNT n) := by
  obtain ⟨hreason, hrecord, -⟩ := refuseCmd_owner_records (c.avsUnheld n) n
  refine ⟨?_, hrecord.congr ((avsUnheld_regs c n).get _ (beq_eq_false_iff_ne.2 (ref_ne_setpt n n))).symm ?_ ?_⟩
  · rw [Chip.avsRefused, get_avsUpd, hreason]
  · rw [Chip.avsRefused, get_avsUpd]
  · rw [Chip.avsRefused, get_avsUpd]

theorem avsRefused_alert (c : Chip) (k n : Nat) : ((c.avsRefused k n).avsHw.get k).alert = true := by rw [Chip.avsRefused, avsUpd_hw]

theorem avsRefused_regs (c : Chip) (k n : Nat) : c.OnlyIn (fun o => o == AVSL.SETPT n || o == AVSL.REF n) (c.avsRefused k n) := by
  obtain ⟨-, -, hregs⟩ := refuseCmd_owner_records (c.avsUnheld n) n
  have unheld : c.OnlyIn (fun o => o == AVSL.SETPT n || o == AVSL.REF n) (c.avsUnheld n) := (avsUnheld_regs c n).mono fun o ho => by simp [beq_iff_eq.1 ho]
  have refused : (c.avsUnheld n).OnlyIn (fun o => o == AVSL.SETPT n || o == AVSL.REF n) ((c.avsUnheld n).refuseCmd n 1) := hregs.mono fun o ho => by simp [beq_iff_eq.1 ho]
  exact (unheld.trans refused).upd rfl

theorem avsRefused_queues (c : Chip) (k n : Nat) : (c.avsRefused k n).outbox = c.outbox ∧ (c.avsRefused k n).faultQ = c.faultQ := ⟨rfl, rfl⟩

theorem avsAnswer_outbox (c : Chip) (k ack data : Nat) (loops : List Nat) : (c.avsAnswer k ack data loops).outbox = c.outbox ++ [c.avsFrameOut k ack data loops] := rfl

theorem avsAnswer_hw (c : Chip) (k ack data : Nat) (loops : List Nat) : (c.avsAnswer k ack data loops).avsHw = c.avsHw := rfl

theorem avsAnswer_faults (c : Chip) (k ack data : Nat) (loops : List Nat) : (c.avsAnswer k ack data loops).faultQ = c.faultQ := rfl

/-- The answer to a refused setpoint: reason 1 is recorded, the port's alert is set, and the setpoint stays. -/
theorem refused_answer (c : Chip) (k : Fin 8) {n : Nat} (hn : n < 32) (howner : c.get (AVSL.CTRL_OWNER n) ≠ 1) :
    ((c.avsRefused k.val n).avsAnswer k.val 1 0 [n]).get (AVSL.SETPT_SETPT n) = c.get (AVSL.SETPT_SETPT n) ∧
      ((c.avsRefused k.val n).avsAnswer k.val 1 0 [n]).get (AVSL.REF_LASTREF n) = 1 ∧
      Recorded c ((c.avsRefused k.val n).avsAnswer k.val 1 0 [n]) (AVSL.REF_REFF n) (AVSL.REF_REFCNT n) ∧
      (((c.avsRefused k.val n).avsAnswer k.val 1 0 [n]).avsHw.get k.val).alert = true ∧
      ((c.avsRefused k.val n).avsAnswer k.val 1 0 [n]).outbox = c.outbox ++ [.avs k.val 1 0 (c.get (LOOP.TARGET_VTGT n) == c.get (AVSL.SETPT_SETPT n)) true false] ∧
      ((c.avsRefused k.val n).avsAnswer k.val 1 0 [n]).faultQ = c.faultQ ∧
      c.OnlyIn (fun o => o == AVSL.SETPT n || o == AVSP.FRAMES k.val || o == AVSL.REF n) ((c.avsRefused k.val n).avsAnswer k.val 1 0 [n]) := by
  obtain ⟨-, hsetpt, -, -, href⟩ := loopRegs_ne_frames k hn
  obtain ⟨htargetRef, hsetptRef, hctrlRef⟩ := ref_apart n
  obtain ⟨hreason, hrecord⟩ := avsRefused_records c k.val n
  obtain ⟨hv, hs, hc⟩ := avsUnheld_shown c n
  have setpt : (c.avsRefused k.val n).get (AVSL.SETPT_SETPT n) = c.get (AVSL.SETPT_SETPT n) := (avsRefused_get c k.val n _ hsetptRef).trans hs
  refine ⟨(get_avsAnswer _ _ _ _ _ _ hsetpt).trans setpt, (get_avsAnswer _ _ _ _ _ _ href).trans hreason, ?_, ?_, ?_, ?_, ?_⟩
  · exact hrecord.congr rfl (get_avsAnswer _ _ _ _ _ (AVSL.REF_REFF n) href) (get_avsAnswer _ _ _ _ _ (AVSL.REF_REFCNT n) href)
  · rw [avsAnswer_hw, avsRefused_alert]
  · rw [avsAnswer_outbox, avsFrameOut_shown 1 0 ((avsRefused_get c k.val n _ htargetRef).trans hv) setpt ((avsRefused_get c k.val n _ hctrlRef).trans hc) (avsRefused_alert c k.val n),
      (avsRefused_queues c k.val n).1, beq_eq_false_iff_ne.2 howner]
  · rw [avsAnswer_faults, (avsRefused_queues c k.val n).2]
  · have refused : c.OnlyIn (fun o => o == AVSL.SETPT n || o == AVSP.FRAMES k.val || o == AVSL.REF n) (c.avsRefused k.val n) :=
      (avsRefused_regs c k.val n).mono fun o ho => by
        simp only [Bool.or_eq_true] at ho ⊢
        exact ho.elim (fun h => .inl (.inl h)) .inr
    exact refused.trans ((avsAnswer_regs _ k.val 1 0 [n]).mono fun o ho => by simp [beq_iff_eq.1 ho])

theorem avsCommit_refused {c : Chip} {k sel n v : Nat} (hheld : (c.avsHw.get k).HoldsNothing sel) (howner : c.get (AVSL.CTRL_OWNER n) ≠ 1) :
    c.avsCommit k [(sel, n)] (fun t n => t.avsSetpoint k n v) = (c.avsRefused k n).avsAnswer k 1 0 [n] := by
  obtain ⟨-, -, hc⟩ := avsUnheld_shown c n
  rw [avsCommit_one, avsRelease_idle hheld, avsSetpoint_notOwner (hc.symm ▸ howner)]
  rfl

/-! Slew commands (R263). -/

theorem slewMax_fits (c : Chip) (n : Nat) : c.slewMax n < 2 ^ 16 := Nat.lt_of_le_of_lt (Nat.min_le_right _ _) (by decide)

theorem slew_apart (n : Nat) : LOOP.TARGET n ≠ AVSL.SLEW n ∧ AVSL.SETPT n ≠ AVSL.SLEW n ∧ AVSL.CTRL n ≠ AVSL.SLEW n ∧ AVSL.REF n ≠ AVSL.SLEW n ∧ AVSL.SLEW n ≠ AVSL.REF n := by
  simp only [LOOP.TARGET, AVSL.SETPT, AVSL.CTRL, AVSL.REF, AVSL.SLEW]
  omega

theorem get_put_slew (c : Chip) (n v : Nat) (f : Fld) (hf : f.off ≠ AVSL.SLEW n) : (c.put (AVSL.SLEW_SLEWCMD n) v).get f = c.get f := by
  simp only [Chip.get]
  rw [reg_put_other _ _ _ _ hf]

/-- A slew within the limit is taken; nothing else that a frame tells of changes. -/
theorem effect_avsSlew (s : State) (k : Fin 8) {n v : Nat} (hn : n < 32) (hv : v < 2 ^ 16) (howner : s.chip.get (AVSL.CTRL_OWNER n) = 1) :
    (((s.chip.avsUnheld n).put (AVSL.SLEW_SLEWCMD n) v).avsAnswer k.val 0 0 [n]).get (AVSL.SLEW_SLEWCMD n) = v ∧
      Effect s { s with chip := ((s.chip.avsUnheld n).put (AVSL.SLEW_SLEWCMD n) v).avsAnswer k.val 0 0 [n] } id
        [AVSL.SETPT_HELD n, AVSL.SETPT_HOLDV n, AVSL.SLEW_SLEWCMD n, AVSP.FRAMES_COUNT k.val] [] []
        [.avs k.val 0 0 (s.chip.get (LOOP.TARGET_VTGT n) == s.chip.get (AVSL.SETPT_SETPT n)) (s.chip.avsHw.get k.val).alert true] := by
  obtain ⟨-, -, -, hslew, -⟩ := loopRegs_ne_frames k hn
  obtain ⟨htarget, hsetpt, hctrl, -, -⟩ := slew_apart n
  obtain ⟨ht, hs, hc⟩ := avsUnheld_shown s.chip n
  constructor
  · rw [get_avsAnswer _ _ _ _ _ (AVSL.SLEW_SLEWCMD n) hslew, get_put_same _ _ _ rfl]
    exact Nat.mod_eq_of_lt hv
  · have taken : Effect s { s with chip := (s.chip.avsUnheld n).put (AVSL.SLEW_SLEWCMD n) v } id [AVSL.SETPT_HELD n, AVSL.SETPT_HOLDV n, AVSL.SLEW_SLEWCMD n] [] [] [] :=
      (effect_avsUnheld s n).put (AVSL.SLEW_SLEWCMD n) v
    have frame := avsFrameOut_shown (s := s.chip) (t := (s.chip.avsUnheld n).put (AVSL.SLEW_SLEWCMD n) v) (k := k.val) (alert := (s.chip.avsHw.get k.val).alert) 0 0
      ((get_put_slew _ n v (LOOP.TARGET_VTGT n) htarget).trans ht) ((get_put_slew _ n v (AVSL.SETPT_SETPT n) hsetpt).trans hs) ((get_put_slew _ n v (AVSL.CTRL_OWNER n) hctrl).trans hc) rfl
    rw [howner] at frame
    exact taken.answered k.val 0 0 frame

/-- A slew above the limit, clipped, with the port's alert. -/
def Chip.avsClipped (c : Chip) (k n : Nat) : Chip :=
  (((c.avsUnheld n).put (AVSL.SLEW_SLEWCMD n) (c.slewMax n)).event (AVSL.REF_CLIPF n) (AVSL.REF_CLIPCNT n) (0x1a0 + n)).avsUpd k fun a => { a with alert := true }

theorem avsClipped_alert (c : Chip) (k n : Nat) : ((c.avsClipped k n).avsHw.get k).alert = true := by rw [Chip.avsClipped, avsUpd_hw]

theorem avsClipped_slew (c : Chip) (k n : Nat) : (c.avsClipped k n).get (AVSL.SLEW_SLEWCMD n) = c.slewMax n := by
  obtain ⟨-, -, -, -, hne⟩ := slew_apart n
  rw [Chip.avsClipped, get_avsUpd, get_event_apart _ _ _ _ _ rfl (Fld.apart_of_off_ne _ _ hne) (Fld.apart_of_off_ne _ _ hne), get_put_same _ _ _ rfl]
  exact Nat.mod_eq_of_lt (slewMax_fits c n)

theorem avsClipped_records (c : Chip) (k n : Nat) : Recorded c (c.avsClipped k n) (AVSL.REF_CLIPF n) (AVSL.REF_CLIPCNT n) := by
  obtain ⟨-, -, -, hne, -⟩ := slew_apart n
  have clipped := recorded_event ((c.avsUnheld n).put (AVSL.SLEW_SLEWCMD n) (c.slewMax n)) (AVSL.REF_CLIPF n) (AVSL.REF_CLIPCNT n) (0x1a0 + n) rfl rfl (Fld.apart_of_bits _ _ rfl)
    (Fld.apart_of_bits _ _ rfl) rfl
  refine clipped.congr ?_ ?_ ?_
  · rw [get_put_slew _ n _ (AVSL.REF_CLIPCNT n) hne, (avsUnheld_regs c n).get (AVSL.REF_CLIPCNT n) (beq_eq_false_iff_ne.2 (ref_ne_setpt n n))]
  · rw [Chip.avsClipped, get_avsUpd]
  · rw [Chip.avsClipped, get_avsUpd]

section
variable {c : Chip} {k sel n rate : Nat} (hheld : (c.avsHw.get k).HoldsNothing sel) (howner : c.get (AVSL.CTRL_OWNER n) = 1) (hruns : c.loopState n ∈ [2, 4])
include hheld howner hruns

theorem avsCommit_slew (hmax : 1000 * max rate 1 ≤ c.slewMax n) :
    c.avsCommit k [(sel, n)] (fun t n => t.avsSlew k n (1000 * rate)) = ((c.avsUnheld n).put (AVSL.SLEW_SLEWCMD n) (1000 * max rate 1)).avsAnswer k 0 0 [n] := by
  obtain ⟨-, -, hc⟩ := avsUnheld_shown c n
  obtain ⟨hstate, hlimit⟩ := avsUnheld_runs c n
  rw [avsCommit_one, avsRelease_idle hheld, avsSlew_within k (hc.trans howner) (hstate ▸ hruns) (hlimit ▸ hmax)]
  rfl

theorem avsCommit_clip (hmax : c.slewMax n < 1000 * max rate 1) :
    c.avsCommit k [(sel, n)] (fun t n => t.avsSlew k n (1000 * rate)) = (c.avsClipped k n).avsAnswer k 0 0 [n] := by
  obtain ⟨-, -, hc⟩ := avsUnheld_shown c n
  obtain ⟨hstate, hlimit⟩ := avsUnheld_runs c n
  rw [avsCommit_one, avsRelease_idle hheld, avsSlew_above k (hc.trans howner) (hstate ▸ hruns) (hlimit ▸ hmax), hlimit]
  rfl

end

/-! A slew command that first applies a voltage held (R268). -/

/-- Nothing is held for a select any more. -/
def Chip.avsTaken (c : Chip) (k sel : Nat) : Chip :=
  c.avsUpd k fun a => { a with holdV := a.holdV.set sel none, holdS := a.holdS.set sel none, holdR := a.holdR.set sel false, holdE := a.holdE.set sel false }

theorem avsTaken_alert (c : Chip) (k sel : Nat) : ((c.avsTaken k sel).avsHw.get k).alert = (c.avsHw.get k).alert := by rw [Chip.avsTaken, avsUpd_hw]

theorem avsTaken_holdV (c : Chip) (k sel v : Nat) (h : (c.avsHw.get k).holdV[sel]? = some (some v)) : ((c.avsTaken k sel).avsHw.get k).holdV[sel]? = some none := by
  obtain ⟨hlt, -⟩ := List.getElem?_eq_some_iff.1 h
  rw [Chip.avsTaken, avsUpd_hw]
  simp [hlt]

/-- The held voltage is commanded. -/
def Chip.avsApplied (c : Chip) (k sel n v : Nat) : Chip := (((c.avsTaken k sel).avsUnheld n).put (AVSL.SETPT_SETPT n) v).rampRefresh n

theorem commanded_avsApplied {c : Chip} {n v : Nat} (k sel : Nat) (hn : n < 32) (hmay : c.AvsSettable n v) : (c.avsTaken k sel).Commanded [n] v (c.avsApplied k sel n v) := by
  have may : (c.avsTaken k sel).AvsSettable n v := ⟨hmay.owner, hmay.runs, hmay.low, hmay.high⟩
  exact (commanded_avsSetpoint hn (avsUnheld_settable may)).ofUnheld

theorem avsRelease_voltage {c : Chip} {k sel n v : Nat} (hv : (c.avsHw.get k).holdV[sel]? = some (some v)) (hs : ((c.avsHw.get k).holdS[sel]?).join = none)
    (hr : (c.avsHw.get k).holdR[sel]? ≠ some true) (he : (c.avsHw.get k).holdE[sel]? ≠ some true) (hmay : c.AvsSettable n v) :
    c.avsRelease k sel n = c.avsApplied k sel n v := by
  have may : (c.avsTaken k sel).AvsSettable n v := ⟨hmay.owner, hmay.runs, hmay.low, hmay.high⟩
  have applied : (((c.avsTaken k sel).avsUnheld n).avsSetpoint k n v).1 = c.avsApplied k sel n v := by
    rw [avsSetpoint_settable (avsUnheld_settable may)]
    rfl
  rw [← applied]
  simp only [Chip.avsRelease, hv, hs, Option.join_some, getD_false_of_ne hr, getD_false_of_ne he]
  rfl

/-- What was held no longer shows. -/
theorem avsApplied_unheld (c : Chip) (k sel v : Nat) {n : Nat} (hn : n < 32) : (c.avsApplied k sel n v).get (AVSL.SETPT_HELD n) = 0 ∧ (c.avsApplied k sel n v).get (AVSL.SETPT_HOLDV n) = 0 := by
  have follows := rampRefresh_follows (((c.avsTaken k sel).avsUnheld n).put (AVSL.SETPT_SETPT n) v) hn
  have spared : (fun o => o == LOOP.TARGET n || o == CMPL.EVT n) (AVSL.SETPT n) = false := by
    simp only [LOOP.TARGET, CMPL.EVT, AVSL.SETPT, Bool.or_eq_false_iff, beq_eq_false_iff_ne]
    omega
  constructor
  · rw [Chip.avsApplied, follows.regs.get (AVSL.SETPT_HELD n) spared, get_put_apart _ _ _ _ rfl (Fld.apart_of_bits _ _ rfl), Chip.avsUnheld,
      get_put_apart _ _ _ _ rfl (Fld.apart_of_bits _ _ rfl), get_put_same _ _ _ rfl, Nat.zero_mod]
  · rw [Chip.avsApplied, follows.regs.get (AVSL.SETPT_HOLDV n) spared, get_put_apart _ _ _ _ rfl (Fld.apart_of_bits _ _ rfl), Chip.avsUnheld, get_put_same _ _ _ rfl,
      Nat.zero_mod]

theorem avsCommit_apply {c : Chip} {k sel n v rate : Nat} (hv : (c.avsHw.get k).holdV[sel]? = some (some v)) (hs : ((c.avsHw.get k).holdS[sel]?).join = none)
    (hr : (c.avsHw.get k).holdR[sel]? ≠ some true) (he : (c.avsHw.get k).holdE[sel]? ≠ some true) (hn : n < 32) (hmay : c.AvsSettable n v) (hmax : 1000 * max rate 1 ≤ c.slewMax n) :
    c.avsCommit k [(sel, n)] (fun t n => t.avsSlew k n (1000 * rate)) = ((c.avsApplied k sel n v).put (AVSL.SLEW_SLEWCMD n) (1000 * max rate 1)).avsAnswer k 0 0 [n] := by
  have commanded := commanded_avsApplied k sel hn hmay
  have may : (c.avsApplied k sel n v).AvsSettable n v := commanded.settable ⟨hmay.owner, hmay.runs, hmay.low, hmay.high⟩
  have hlimit : (c.avsApplied k sel n v).slewMax n = c.slewMax n := by
    rw [Chip.slewMax, commanded.get_one (AVSL.SLEW_SLEWMAX n) (setptRegs_slew n n)]
    rfl
  rw [avsCommit_one, avsRelease_voltage hv hs hr he hmay, avsSlew_within k may.owner (by simp [may.runs]) (hlimit ▸ hmax)]
  rfl

/-- The answer to a slew command that has applied a held voltage. -/
theorem applied_answer {c : Chip} (k : Fin 8) {sel n v w : Nat} (hn : n < 32) (hw : w < 2 ^ 16) (hmay : c.AvsSettable n v) (hv : (c.avsHw.get k.val).holdV[sel]? = some (some v)) :
    ∃ t, ((c.avsApplied k.val sel n v).put (AVSL.SLEW_SLEWCMD n) w).avsAnswer k.val 0 0 [n] = t ∧ t.get (AVSL.SETPT_SETPT n) = v ∧ t.get (AVSL.SLEW_SLEWCMD n) = w ∧
      t.get (AVSL.SETPT_HELD n) = 0 ∧ t.get (AVSL.SETPT_HOLDV n) = 0 ∧ (t.avsHw.get k.val).holdV[sel]? = some none ∧
      t.outbox = c.outbox ++ [.avs k.val 0 0 (c.get (LOOP.TARGET_VTGT n) == v) (c.avsHw.get k.val).alert true] ∧ t.faultQ = c.faultQ ∧
      c.OnlyIn (fun o => o == AVSL.SETPT n || o == AVSL.SLEW n || o == AVSP.FRAMES k.val || o == LOOP.TARGET n || o == CMPL.EVT n) t := by
  obtain ⟨-, hsetpt, -, hslew, -⟩ := loopRegs_ne_frames k hn
  obtain ⟨htargetSlew, hsetptSlew, hctrlSlew, -, -⟩ := slew_apart n
  obtain ⟨hheld, hholdV⟩ := avsApplied_unheld c k.val sel v hn
  have commanded := commanded_avsApplied k.val sel hn hmay
  have taken : (c.avsApplied k.val sel n v).get (AVSL.SETPT_SETPT n) = v := by simpa using commanded.setpt n
  have owned : (c.avsApplied k.val sel n v).get (AVSL.CTRL_OWNER n) = 1 := (commanded.get_one _ (setptRegs_ctrl n n)).trans hmay.owner
  have same : ∀ f : Fld, f.off = AVSL.SETPT n → (((c.avsApplied k.val sel n v).put (AVSL.SLEW_SLEWCMD n) w).avsAnswer k.val 0 0 [n]).get f = (c.avsApplied k.val sel n v).get f :=
    fun f hf => (get_avsAnswer _ _ _ _ _ _ (hf ▸ hsetpt)).trans (get_put_slew _ _ _ _ (hf ▸ hsetptSlew))
  refine ⟨_, rfl, ?_, ?_, ?_, ?_, ?_, ?_, ?_, ?_⟩
  · rw [same _ rfl, taken]
  · rw [get_avsAnswer _ _ _ _ _ (AVSL.SLEW_SLEWCMD n) hslew, get_put_same _ _ _ rfl]
    exact Nat.mod_eq_of_lt hw
  · rw [same _ rfl, hheld]
  · rw [same _ rfl, hholdV]
  · show ((c.avsApplied k.val sel n v).avsHw.get k.val).holdV[sel]? = some none
    rw [commanded.ports, avsTaken_holdV c k.val sel v hv]
  · have frame : ((c.avsApplied k.val sel n v).put (AVSL.SLEW_SLEWCMD n) w).avsFrameOut k.val 0 0 [n] = .avs k.val 0 0 (c.get (LOOP.TARGET_VTGT n) == v) (c.avsHw.get k.val).alert true := by
      rw [avsFrameOut_one, Chip.avsLoopFrame, get_put_slew _ n w (LOOP.TARGET_VTGT n) htargetSlew, get_put_slew _ n w (AVSL.SETPT_SETPT n) hsetptSlew,
        get_put_slew _ n w (AVSL.CTRL_OWNER n) hctrlSlew, taken, owned, commanded.vtgt n hn]
      show Output.avs _ _ _ _ (((c.avsApplied k.val sel n v).avsHw.get k.val).alert) _ = _
      rw [commanded.ports, avsTaken_alert]
      rfl
    rw [avsAnswer_outbox, frame]
    exact congrArg (· ++ _) commanded.outbox
  · exact commanded.faults
  · have applied : (c.avsTaken k.val sel).OnlyIn (fun o => o == AVSL.SETPT n || o == AVSL.SLEW n || o == AVSP.FRAMES k.val || o == LOOP.TARGET n || o == CMPL.EVT n) (c.avsApplied k.val sel n v) :=
      commanded.regs.mono fun o ho => by
        simp only [List.any_cons, List.any_nil, setptRegs, Bool.or_false, Bool.or_eq_true] at ho ⊢
        tauto
    have slewed := applied.put (AVSL.SLEW_SLEWCMD n) w (by simp [AVSL.SLEW_SLEWCMD])
    exact (slewed.trans ((avsAnswer_regs _ k.val 0 0 [n]).mono fun o ho => by simp [beq_iff_eq.1 ho])).updFirst rfl

end Sys2Proof.Machine

namespace Sys2Proof.Machine

/-! What the AVSBus writes run. -/

theorem exec_avsTargetVoltageWrite (s : State) (k : Fin 8) (sel : Fin 16) (hold : Bool) (mv : BitVec 16) (crcOk : Bool) :
    Machine.exec (.avsTargetVoltageWrite k sel hold mv crcOk) s = .next { s with chip := s.chip.avsWriteV k.val sel.val hold mv.toNat crcOk } := rfl

theorem exec_avsTransitionRateWrite (s : State) (k : Fin 8) (sel : Fin 16) (hold : Bool) (rate : BitVec 16) (crcOk : Bool) :
    Machine.exec (.avsTransitionRateWrite k sel hold rate crcOk) s = .next { s with chip := s.chip.avsWriteSlew k.val sel.val hold rate.toNat crcOk } := rfl

theorem exec_avsResetVoltage (s : State) (k : Fin 8) (sel : Fin 16) (hold crcOk : Bool) :
    Machine.exec (.avsResetVoltage k sel hold crcOk) s = .next { s with chip := s.chip.avsReset k.val sel.val hold crcOk } := rfl

theorem exec_avsStatusWrite (s : State) (k : Fin 8) (sel : Fin 16) (hold crcOk : Bool) :
    Machine.exec (.avsStatusWrite k sel false hold crcOk) s = .next { s with chip := s.chip.avsStatusWrite k.val sel.val hold crcOk } := rfl

theorem exec_avsOtherWrite (s : State) (k : Fin 8) (sel : Fin 16) (hold crcOk : Bool) :
    Machine.exec (.avsStatusWrite k sel true hold crcOk) s = .next { s with chip := s.chip.avsOther k.val sel.val crcOk } := rfl

theorem exec_avsFrameTimeout (s : State) (k : Fin 8) : Machine.exec (.avsFrameTimeout k) s = .next { s with chip := s.chip.avsTimeout k.val } := rfl

/-- A command that leaves a chip leaves any chip equal to it. -/
theorem exec_chip {s : State} {i : Instr} {c d : Chip} (hi : Machine.exec i s = .next { s with chip := c }) (h : c = d) : Machine.exec i s = .next { s with chip := d } := h ▸ hi

/-- A voltage held for one select: HELD, HOLDV and the port's own state. -/
theorem effect_avsHoldV (s : State) (k : Fin 8) {sel n mv : Nat} (hn : n < 32) (hsel : sel < 4) (hlength : (s.chip.avsHw.get k.val).holdV.length = 4) (hmv : 4 * mv < 2 ^ 14) :
    ∃ c, (s.chip.avsHoldV k.val mv (sel, n)).avsAnswer k.val 0 0 [n] = c ∧ c.get (AVSL.SETPT_HELD n) = 1 ∧ c.get (AVSL.SETPT_HOLDV n) = 4 * mv ∧
      c.get (AVSL.SETPT_SETPT n) = s.chip.get (AVSL.SETPT_SETPT n) ∧ (c.avsHw.get k.val).holdV[sel]? = some (some (4 * mv)) ∧
      Effect s { s with chip := c } (fun d => { d with avsHw := c.avsHw }) [AVSL.SETPT_HELD n, AVSL.SETPT_HOLDV n, AVSP.FRAMES_COUNT k.val] [] []
        [.avs k.val 0 0 (s.chip.get (LOOP.TARGET_VTGT n) == s.chip.get (AVSL.SETPT_SETPT n)) (s.chip.avsHw.get k.val).alert (s.chip.get (AVSL.CTRL_OWNER n) == 1)] := by
  obtain ⟨-, hsetpt, -⟩ := loopRegs_ne_frames k hn
  have holding := Chip.Holding.step s.chip k.val mv (sel, n)
  have shown : s.chip.avsHoldV k.val mv (sel, n) =
      ((s.chip.avsUpd k.val fun a => { a with holdV := a.holdV.set sel (some (4 * mv)) }).put (AVSL.SETPT_HELD n) 1).put (AVSL.SETPT_HOLDV n) (4 * mv) := if_pos hmv
  have noted : Effect s { s with chip := s.chip.avsHoldV k.val mv (sel, n) } (fun c => c.avsUpd k.val fun a => { a with holdV := a.holdV.set sel (some (4 * mv)) })
      [AVSL.SETPT_HELD n, AVSL.SETPT_HOLDV n] [] [] [] := shown ▸ ((((Effect.start s).avsUpd k.val _).put (AVSL.SETPT_HELD n) 1).put (AVSL.SETPT_HOLDV n) (4 * mv))
  have unmoved : ∀ f : Fld, f.off ≠ AVSL.SETPT n → (s.chip.avsHoldV k.val mv (sel, n)).get f = s.chip.get f := fun f hf => holding.regs.get f (by simpa using hf)
  refine ⟨_, rfl, ?_, ?_, ?_, ?_, ?_⟩
  · rw [get_avsAnswer _ _ _ _ _ (AVSL.SETPT_HELD n) hsetpt]
    exact holding.held n (.inl (by simp))
  · rw [get_avsAnswer _ _ _ _ _ (AVSL.SETPT_HOLDV n) hsetpt, shown, get_put_same _ _ _ rfl]
    exact Nat.mod_eq_of_lt hmv
  · rw [get_avsAnswer _ _ _ _ _ (AVSL.SETPT_SETPT n) hsetpt, holding.setpt]
  · exact holding.voltage sel (.inl ⟨by simp, hlength ▸ hsel⟩)
  · exact (noted.answered k.val 0 0 (avsFrameOut_shown 0 0 (unmoved _ (target_ne_setpt n n)) (holding.setpt n) (unmoved _ (ctrl_ne_setpt n n)) holding.alert)).openPorts

/-- The loops of a port's mapped selects. -/
theorem mem_avsPortLoops {c : Chip} {k n : Nat} (h : n ∈ c.avsPortLoops k) : n < 32 := by
  obtain ⟨j, -, hj⟩ := List.mem_filterMap.1 h
  exact avsLoop_lt hj

/-- A broadcast setpoint that every mapped loop takes. -/
theorem avsWriteV_broadcast {c : Chip} {k : Fin 8} {mv : Nat} (hcore : c.coreRuns = true) (hen : c.get (AVSP.CFG_EN k.val) = 1)
    (hheld : ∀ j < 4, (c.avsHw.get k.val).HoldsNothing j) (hmay : ∀ n ∈ c.avsPortLoops k.val, c.AvsSettable n (4 * mv)) :
    ∃ t, c.Commanded (c.avsPortLoops k.val) (4 * mv) t ∧ c.avsWriteV k.val (15 : Fin 16).val false mv true = t.avsAnswer k.val 0 0 (c.avsPortLoops k.val) := by
  obtain ⟨t, ht, hrun⟩ := commit_setpoints k.val (4 * mv) (c.avsMapped k.val) c fun x hx => by
    have hloop := mem_avsMapped hx
    exact ⟨avsLoop_lt hloop, hheld x.1 (avsLoop_sel hloop), hmay x.2 (avsMapped_loops c k.val ▸ List.mem_map_of_mem hx)⟩
  refine ⟨t, avsMapped_loops c k.val ▸ ht, ?_⟩
  have commit : c.avsWriteV k.val (15 : Fin 16).val false mv true = c.avsCommit k.val (c.avsMapped k.val) fun t n => t.avsSetpoint k.val n (4 * mv) := by
    rw [Chip.avsWriteV, avsFrame_good hcore hen]
    rfl
  rw [commit, avsCommit_eq, hrun, avsMapped_loops]
  rfl

/-- A broadcast voltage held for every mapped select. -/
theorem avsWriteV_broadcast_hold {c : Chip} {k : Fin 8} (mv : Nat) (hcore : c.coreRuns = true) (hen : c.get (AVSP.CFG_EN k.val) = 1) :
    ∃ t, c.Holding k.val mv (c.avsMapped k.val) t ∧ c.avsWriteV k.val (15 : Fin 16).val true mv true = t.avsAnswer k.val 0 0 (c.avsPortLoops k.val) :=
  ⟨_, Chip.Holding.foldl k.val mv (c.avsMapped k.val) c, by rw [← avsMapped_loops]; exact avsWriteV_hold hcore hen (avsSels_broadcast c k.val) mv⟩

/-- The answer to a broadcast setpoint that every loop has taken. -/
theorem commanded_broadcast_answer {c t : Chip} {k : Fin 8} {v : Nat} {loops : List Nat} (h : c.Commanded loops v t) (hlt : ∀ n ∈ loops, n < 32) (hne : loops ≠ [])
    (howner : ∀ n ∈ loops, c.get (AVSL.CTRL_OWNER n) = 1) :
    (∀ n ∈ loops, (t.avsAnswer k.val 0 0 loops).get (AVSL.SETPT_SETPT n) = v ∧ (t.avsAnswer k.val 0 0 loops).get (LOOP.TARGET_VTGT n) = c.get (LOOP.TARGET_VTGT n)) ∧
      (t.avsAnswer k.val 0 0 loops).outbox = c.outbox ++ [.avs k.val 0 0 (loops.all fun n => c.get (LOOP.TARGET_VTGT n) == v) (c.avsHw.get k.val).alert true] ∧
      c.OnlyIn (fun o => o == AVSP.FRAMES k.val || loops.any (setptRegs · o)) (t.avsAnswer k.val 0 0 loops) := by
  have taken : ∀ n ∈ loops, t.get (AVSL.SETPT_SETPT n) = v := fun n hn => by rw [h.setpt, if_pos hn]
  have owned : ∀ n ∈ loops, t.get (AVSL.CTRL_OWNER n) = 1 := fun n hn =>
    (h.regs.get (AVSL.CTRL_OWNER n) (List.any_eq_false.2 fun i _ => (Bool.not_eq_true _).mpr (setptRegs_ctrl i n))).trans (howner n hn)
  have filled : loops.isEmpty = false := List.isEmpty_eq_false_iff.2 hne
  have done : t.avsDone loops = loops.all fun n => c.get (LOOP.TARGET_VTGT n) == v := by
    rw [Chip.avsDone, filled, Bool.not_false, Bool.and_true]
    exact all_congr_mem fun n hn => by rw [h.vtgt n (hlt n hn), taken n hn]
  have ctl : t.avsCtl loops = true := by
    rw [Chip.avsCtl, filled, Bool.not_false, Bool.and_true, List.all_eq_true]
    exact fun n hn => beq_iff_eq.2 (owned n hn)
  refine ⟨fun n hn => ?_, ?_, ?_⟩
  · obtain ⟨htarget, hsetpt, -⟩ := loopRegs_ne_frames k (hlt n hn)
    exact ⟨(get_avsAnswer _ _ _ _ _ (AVSL.SETPT_SETPT n) hsetpt).trans (taken n hn), (get_avsAnswer _ _ _ _ _ (LOOP.TARGET_VTGT n) htarget).trans (h.vtgt n (hlt n hn))⟩
  · rw [avsAnswer_outbox, Chip.avsFrameOut, done, ctl, h.outbox, h.ports]
  · exact (h.regs.mono fun o ho => by rw [ho, Bool.or_true]).trans ((avsAnswer_regs t k.val 0 0 loops).mono fun o ho => by rw [ho, Bool.true_or])

/-- The answer to a broadcast voltage that is held. -/
theorem holding_broadcast_answer {c t : Chip} {k : Fin 8} {mv : Nat} (h : c.Holding k.val mv (c.avsMapped k.val) t) (hlength : (c.avsHw.get k.val).holdV.length = 4) :
    (∀ j < 4, c.avsLoop k.val j ≠ none → ((t.avsAnswer k.val 0 0 (c.avsPortLoops k.val)).avsHw.get k.val).holdV[j]? = some (some (4 * mv))) ∧
      (∀ n ∈ c.avsPortLoops k.val, (t.avsAnswer k.val 0 0 (c.avsPortLoops k.val)).get (AVSL.SETPT_HELD n) = 1 ∧
        (t.avsAnswer k.val 0 0 (c.avsPortLoops k.val)).get (AVSL.SETPT_SETPT n) = c.get (AVSL.SETPT_SETPT n)) ∧
      (t.avsAnswer k.val 0 0 (c.avsPortLoops k.val)).outbox =
        c.outbox ++ [.avs k.val 0 0 (c.avsDone (c.avsPortLoops k.val)) (c.avsHw.get k.val).alert (c.avsCtl (c.avsPortLoops k.val))] ∧
      c.OnlyIn (fun o => o == AVSP.FRAMES k.val || (c.avsPortLoops k.val).any (o == AVSL.SETPT ·)) (t.avsAnswer k.val 0 0 (c.avsPortLoops k.val)) := by
  have regs := h.regs
  rw [avsMapped_loops] at regs
  have unmoved : ∀ f : Fld, (∀ n, f.off ≠ AVSL.SETPT n) → t.get f = c.get f := fun f hf => regs.get f (List.any_eq_false.2 fun n _ => by simpa using hf n)
  refine ⟨fun j hj hloop => ?_, fun n hn => ?_, ?_, ?_⟩
  · refine h.voltage j (.inl ⟨?_, hlength ▸ hj⟩)
    obtain ⟨n, hn⟩ := Option.ne_none_iff_exists'.1 hloop
    exact List.mem_map.2 ⟨(j, n), List.mem_filterMap.2 ⟨j, by simpa using (by omega : j = 0 ∨ j = 1 ∨ j = 2 ∨ j = 3), by rw [hn]; rfl⟩, rfl⟩
  · obtain ⟨-, hsetpt, -⟩ := loopRegs_ne_frames k (mem_avsPortLoops hn)
    exact ⟨(get_avsAnswer _ _ _ _ _ (AVSL.SETPT_HELD n) hsetpt).trans (h.held n (.inl (avsMapped_loops c k.val ▸ hn))),
      (get_avsAnswer _ _ _ _ _ (AVSL.SETPT_SETPT n) hsetpt).trans (h.setpt n)⟩
  · rw [avsAnswer_outbox, Chip.avsFrameOut, h.outbox, h.alert, avsDone_congr fun n _ => ⟨unmoved (LOOP.TARGET_VTGT n) (target_ne_setpt n), h.setpt n⟩,
      avsCtl_congr fun n _ => unmoved (AVSL.CTRL_OWNER n) (ctrl_ne_setpt n)]
  · exact (regs.mono fun o ho => by rw [ho, Bool.or_true]).trans ((avsAnswer_regs t k.val 0 0 _).mono fun o ho => by rw [ho, Bool.true_or])

/-- A frame with a bad CRC, and one to a select that is not mapped (R264, R269). -/
theorem avsBadCrc_tells (s : State) (k : Fin 8) : Recorded s.chip (s.chip.avsBadCrc k.val) (AVSP.EVT_CRCF k.val) (AVSP.EVTCNT_CRCCNT k.val) ∧
    Effect s { s with chip := s.chip.avsBadCrc k.val } (fun c => c.avsUpd k.val fun a => { a with alert := true })
      [AVSP.EVT_CRCF k.val, AVSP.EVTCNT_CRCCNT k.val, AVSP.FRAMES_COUNT k.val] [0xc0 + k.val] [] [.avs k.val 2 0 false true false] :=
  ⟨recorded_avsAlert _ _ _ _ _ _ _ rfl rfl rfl rfl rfl, effect_avsAlert s k _ _ rfl rfl 2 0 (loops := []) (by simp)⟩

theorem avsUnmapped_tells (s : State) (k : Fin 8) : Recorded s.chip (s.chip.avsUnmapped k.val) (AVSP.EVT_UNMF k.val) (AVSP.EVTCNT_UNMCNT k.val) ∧
    Effect s { s with chip := s.chip.avsUnmapped k.val } (fun c => c.avsUpd k.val fun a => { a with alert := true })
      [AVSP.EVT_UNMF k.val, AVSP.EVTCNT_UNMCNT k.val, AVSP.FRAMES_COUNT k.val] [0xc0 + k.val] [] [.avs k.val 3 0 false true false] :=
  ⟨recorded_avsAlert _ _ _ _ _ _ _ rfl rfl rfl rfl rfl, effect_avsAlert s k _ _ rfl rfl 3 0 (loops := []) (by simp)⟩

theorem avsReset_unmapped {c : Chip} {k sel : Nat} (hcore : c.coreRuns = true) (hen : c.get (AVSP.CFG_EN k) = 1) (hsel : sel ≠ 0xf) (hloop : c.avsLoop k sel = none) (hold : Bool) :
    c.avsReset k sel hold true = c.avsUnmapped k := by
  rw [Chip.avsReset, avsFrame_good hcore hen, avsSels_unmapped hsel hloop]

/-- AVS_CLK stopped within a frame (R270). -/
theorem avsTimeout_tells (s : State) (k : Fin 8) (hcore : s.chip.coreRuns = true) (hen : s.chip.get (AVSP.CFG_EN k.val) = 1) :
    Recorded s.chip (s.chip.avsTimeout k.val) (AVSP.EVT_FTOF k.val) (AVSP.EVTCNT_FTOCNT k.val) ∧
      Effect s { s with chip := s.chip.avsTimeout k.val } id [AVSP.EVT_FTOF k.val, AVSP.EVTCNT_FTOCNT k.val] [0xc0 + k.val] [] [] := by
  have told : s.chip.avsTimeout k.val = s.chip.event (AVSP.EVT_FTOF k.val) (AVSP.EVTCNT_FTOCNT k.val) (srcAvs k.val) := by simp [Chip.avsTimeout, hcore, Chip.bit, hen]
  obtain ⟨hapart, -, -⟩ := port_offs_ne k.val
  rw [told]
  exact ⟨recorded_event _ _ _ _ rfl rfl (Fld.apart_of_off_ne _ _ hapart) (Fld.apart_of_off_ne _ _ hapart.symm) rfl, (Effect.start s).event _ _ _⟩

end Sys2Proof.Machine

namespace Sys2Proof.Machine

/-- VBOOT is not what shows of the values held. -/
theorem avsDefault_unheld (c : Chip) (k n : Nat) : (c.avsUnheld n).avsDefault k n = (c.avsUnheld n).avsSetpoint k n (c.get (AVSL.CTRL_VBOOT n)) := by
  rw [Chip.avsDefault, (avsUnheld_regs c n).get (AVSL.CTRL_VBOOT n) (beq_eq_false_iff_ne.2 (ctrl_ne_setpt n n))]

theorem avsCommit_status {c : Chip} {k sel n : Nat} (hheld : (c.avsHw.get k).HoldsNothing sel) :
    c.avsCommit k [(sel, n)] (fun t _ => (t.avsUpd k fun a => { a with alert := false }, 0)) = ((c.avsUnheld n).avsUpd k fun a => { a with alert := false }).avsAnswer k 0 0 [n] := by
  rw [avsCommit_one, avsRelease_idle hheld]
  rfl

/-- Settles O33: the writes of an AVSBus port, each by what it commands, holds or records, and by its answer. -/
theorem avsWritesCommandTheirLoop : Obligations.AvsWritesCommandTheirLoop := by
  unfold Obligations.AvsWritesCommandTheirLoop
  refine ⟨?_, ?_, ?_, ?_, ?_, ?_, ?_, ?_, ?_, ?_, ?_, ?_, ?_, ?_, ?_, ?_, ?_, ?_, ?_, ?_⟩
  · intro s k sel n mv hcore hen hloop hv hs hr he howner hruns hlow hhigh
    have hn := avsLoop_lt hloop
    obtain ⟨t, ht, hrun⟩ := avsCommit_setpoint (fun t n => t.avsSetpoint k.val n (4 * mv.toNat)) ⟨hv, hs, hr, he⟩ hn ⟨howner, hruns, hlow, hhigh⟩ rfl
    obtain ⟨setpt, vtgt, frames, out, regs⟩ := commanded_answer (k := k) ht hn howner
    exact ⟨_, exec_chip (exec_avsTargetVoltageWrite s k sel false mv true) ((avsWriteV_select hcore hen hloop _).trans hrun), setpt, vtgt, frames, out, ht.faults, rfl, rfl, regs.same⟩
  · intro s k sel n mv hcore hen hloop hv hs hr he howner
    obtain ⟨setpt, reason, recorded, alert, out, faults, regs⟩ := refused_answer s.chip k (avsLoop_lt hloop) howner
    have hrun := (avsWriteV_select hcore hen hloop mv.toNat).trans (avsCommit_refused ⟨hv, hs, hr, he⟩ howner)
    exact ⟨_, exec_chip (exec_avsTargetVoltageWrite s k sel false mv true) hrun, setpt, reason, recorded, alert, out, faults, rfl, rfl, regs.same⟩
  · intro s k sel n mv hcore hen hloop hlength hmv
    obtain ⟨c, hc, held, holdV, setpt, voltage, effect⟩ := effect_avsHoldV s k (mv := mv.toNat) (avsLoop_lt hloop) (avsLoop_sel hloop) hlength (by omega)
    exact ⟨_, exec_chip (exec_avsTargetVoltageWrite s k sel true mv true) ((avsWriteV_hold hcore hen (avsSels_mapped hloop) _).trans hc), held, holdV, setpt, voltage, effect⟩
  · intro s k sel n rate hcore hen hloop hv hs hr he howner hruns hmax
    obtain ⟨slew, effect⟩ := effect_avsSlew s k (avsLoop_lt hloop) (Nat.lt_of_le_of_lt hmax (slewMax_fits s.chip n)) howner
    exact ⟨_, exec_chip (exec_avsTransitionRateWrite s k sel false rate true) ((avsWriteSlew_select hcore hen hloop _).trans (avsCommit_slew ⟨hv, hs, hr, he⟩ howner hruns hmax)), slew,
      effect.openPorts.widen _ (by simp)⟩
  · intro s k sel n rate hcore hen hloop hv hs hr he howner hruns hmax
    obtain ⟨-, -, -, hslew, href⟩ := loopRegs_ne_frames k (avsLoop_lt hloop)
    refine ⟨_, exec_chip (exec_avsTransitionRateWrite s k sel false rate true) ((avsWriteSlew_select hcore hen hloop _).trans (avsCommit_clip ⟨hv, hs, hr, he⟩ howner hruns hmax)), ?_, ?_,
      avsClipped_alert s.chip k.val n⟩
    · exact (get_avsAnswer _ _ _ _ _ (AVSL.SLEW_SLEWCMD n) hslew).trans (avsClipped_slew s.chip k.val n)
    · exact (avsClipped_records s.chip k.val n).congr rfl (get_avsAnswer _ _ _ _ _ (AVSL.REF_CLIPF n) href) (get_avsAnswer _ _ _ _ _ (AVSL.REF_CLIPCNT n) href)
  · intro s k sel n hcore hen hloop hv hs hr he howner hruns hlow hhigh
    have hn := avsLoop_lt hloop
    obtain ⟨t, ht, hrun⟩ := avsCommit_setpoint (fun t n => t.avsDefault k.val n) ⟨hv, hs, hr, he⟩ hn ⟨howner, hruns, hlow, hhigh⟩ (avsDefault_unheld s.chip k.val n)
    obtain ⟨setpt, vtgt, -, out, regs⟩ := commanded_answer (k := k) ht hn howner
    exact ⟨_, exec_chip (exec_avsResetVoltage s k sel false true) ((avsReset_select hcore hen hloop).trans hrun), setpt, vtgt, out, ht.faults, rfl, rfl, regs.same⟩
  · intro s k sel n hcore hen hloop hv hs hr he
    have hrun := (avsStatusWrite_select hcore hen hloop).trans (avsCommit_status ⟨hv, hs, hr, he⟩)
    exact ⟨_, exec_chip (exec_avsStatusWrite s k sel false true) hrun, congrArg AvsHw.alert (avsUpd_hw (s.chip.avsUnheld n) k.val _), effect_avsStatusWrite s k.val n⟩
  · intro s k sel n hcore hen hloop _
    exact ⟨_, exec_chip (exec_avsResetVoltage s k sel true true) (avsReset_hold hcore hen hloop), effect_avsNoted s k.val n _ rfl⟩
  · intro s k sel n hcore hen hloop _
    exact ⟨_, exec_chip (exec_avsStatusWrite s k sel true true) (avsStatusWrite_hold hcore hen hloop), effect_avsNoted s k.val n _ rfl⟩
  · intro s k sel n hold hcore hen _ hloop
    have told := avsUnsupported_tells s k sel.val (loops := [n]) (by rw [avsSels_mapped hloop]; rfl)
    rw [avsDone_one, avsCtl_one] at told
    exact ⟨_, exec_chip (exec_avsOtherWrite s k sel hold true) (avsOther_good hcore hen sel.val), told⟩
  · intro s k sel hold hcore hen hsel hloop
    have told := avsUnsupported_tells s k sel.val (loops := []) (by rw [avsSels_unmapped hsel hloop]; rfl)
    exact ⟨_, exec_chip (exec_avsOtherWrite s k sel hold true) (avsOther_good hcore hen sel.val), told⟩
  · intro s k hold hcore hen
    exact avsUnsupported_broadcast (avsOther_good hcore hen 0xf) (exec_avsOtherWrite s k 15 hold true)
  · intro s k mv hcore hen hheld hne hmay
    obtain ⟨t, ht, hrun⟩ := avsWriteV_broadcast (mv := mv.toNat) hcore hen
      (fun j hj => let ⟨hv, hs, hr, he⟩ := hheld j hj; ⟨hv, hs, hr, he⟩) (fun n hn => let ⟨howner, hruns, hlow, hhigh⟩ := hmay n hn; ⟨howner, hruns, hlow, hhigh⟩)
    obtain ⟨taken, out, regs⟩ := commanded_broadcast_answer (k := k) ht (fun n hn => mem_avsPortLoops hn) hne fun n hn => (hmay n hn).1
    exact ⟨_, exec_chip (exec_avsTargetVoltageWrite s k 15 false mv true) hrun, taken, out, ht.faults, rfl, rfl, regs.same⟩
  · intro s k mv hcore hen hlength
    obtain ⟨t, ht, hrun⟩ := avsWriteV_broadcast_hold (k := k) mv.toNat hcore hen
    obtain ⟨voltage, shown, out, regs⟩ := holding_broadcast_answer ht hlength
    exact ⟨_, exec_chip (exec_avsTargetVoltageWrite s k 15 true mv true) hrun, voltage, shown, ht.faults, out, rfl, rfl, regs.same⟩
  · intro s k sel n rate hcore hen _ hloop
    exact ⟨_, exec_chip (exec_avsTransitionRateWrite s k sel true rate true) (avsWriteSlew_hold hcore hen hloop _), effect_avsNoted s k.val n _ rfl⟩
  · intro s k sel n v rate hcore hen _ hloop hv hs hr he howner hruns _ hlow hhigh hmax
    have hn := avsLoop_lt hloop
    have hmay : s.chip.AvsSettable n v := ⟨howner, hruns, hlow, hhigh⟩
    obtain ⟨t, ht, setpt, slew, held, holdV, voltage, out, faults, regs⟩ := applied_answer k hn (Nat.lt_of_le_of_lt hmax (slewMax_fits s.chip n)) hmay hv
    exact ⟨_, exec_chip (exec_avsTransitionRateWrite s k sel false rate true) ((avsWriteSlew_select hcore hen hloop _).trans ((avsCommit_apply hv hs hr he hn hmay hmax).trans ht)), setpt, slew,
      held, holdV, voltage, out, faults, rfl, rfl, regs.same⟩
  · intro s k sel hold mv hcore hen
    exact ⟨_, exec_chip (exec_avsTargetVoltageWrite s k sel hold mv false) (avsFrame_bad hcore hen _), avsBadCrc_tells s k⟩
  · intro s k sel hcore hen hsel hloop
    exact ⟨_, exec_chip (exec_avsResetVoltage s k sel false true) (avsReset_unmapped hcore hen hsel hloop false), avsUnmapped_tells s k⟩
  · intro s k hcore hen
    exact ⟨_, exec_avsFrameTimeout s k, avsTimeout_tells s k hcore hen⟩
  · intro s k sel mv hen
    exact ⟨_, exec_chip (exec_avsTargetVoltageWrite s k sel false mv true) (avsFrame_disabled hen true _), rfl⟩

end Sys2Proof.Machine

namespace Sys2Proof.Machine

/-! Every command goes on to a next state; what it may write of the non-volatile memory, and that the memory keeps its canonical form (R487, R488). -/

/-- The queue is as before, and a memory in canonical form stays so. -/
structure State.Advances (s t : State) : Prop where
  pending : t.pending = s.pending
  sound : s.Sound → t.Sound

namespace State.Advances

theorem refl (s : State) : s.Advances s := ⟨rfl, id⟩

theorem trans {s t u : State} (h : s.Advances t) (k : t.Advances u) : s.Advances u :=
  ⟨k.pending.trans h.pending, k.sound ∘ h.sound⟩

/-- A change of the device alone. -/
theorem device (s : State) (c : Chip) : s.Advances { s with chip := c } := ⟨rfl, id⟩

/-- Bytes written, with any change of the device. -/
theorem write (s : State) (a : Nat) (l : List Byte) (c : Chip) : s.Advances { s with nvm := nvmWrite s.nvm a l, chip := c } :=
  ⟨rfl, nvmWrite_wf l s.nvm a⟩

/-- A choice between two states that advance from one. -/
theorem ite {s t u : State} {p : Prop} [Decidable p] (h : s.Advances t) (k : s.Advances u) : s.Advances (if p then t else u) := by
  split
  · exact h
  · exact k

theorem foldl {α : Type} {f : State → α → State} (hf : ∀ (s : State) (x : α), s.Advances (f s x)) (l : List α) (s : State) : s.Advances (l.foldl f s) := by
  induction l generalizing s with
  | nil => exact refl s
  | cons x l ih => exact (hf s x).trans (ih (f s x))

end State.Advances

theorem advances_lineWrite (s : State) (good : Bool) (coefOk : BitVec 128) : s.Advances (s.lineWrite good coefOk) := by
  unfold State.lineWrite
  split
  · exact .refl s
  split
  · exact .refl s
  split
  · exact .refl s
  · exact .ite (.write s _ _ _) (.write s _ _ _)

theorem advances_bootFlush (s : State) : s.Advances s.bootFlush :=
  .ite ⟨rfl, linesWritten_wf _ _⟩ (.refl s)

theorem advances_logClose (s : State) (whole : Nat) : s.Advances (s.logClose whole) := by
  unfold State.logClose
  split
  · have written := State.Advances.foldl (fun (u : State) r => State.Advances.write u (u.chip.logLineOf r).addr (u.chip.logLineOf r).data u.chip.logAdvance)
      (s.chip.logWaiting.take whole) s
    dsimp only
    split
    · exact written.trans (.write _ _ _ _)
    · exact written
  · exact .refl s

/-- Each round of a cold start writes the memory only by the lines that boot control waits for. -/
theorem advances_coldGo (n : Nat) (s : State) (cold : ColdIn) (msgs : List FaultMsg) : s.Advances (State.coldGo n s cold msgs) := by
  induction n generalizing s msgs with
  | zero => exact .refl s
  | succ n ih =>
    rw [State.coldGo]
    refine .ite (.device s _) (.ite (.device s _) (.ite (.device s _) ?_))
    dsimp only
    split
    · exact .device s _
    · exact .ite (((State.Advances.device s _).trans (advances_bootFlush _)).trans (ih _ _)) (.device s _)

theorem advances_coldIfDue (s : State) (cold : ColdIn) : s.Advances (s.coldIfDue cold) :=
  .ite (((State.Advances.device s _).trans (advances_logClose _ _)).trans (advances_coldGo _ _ _ _)) (.refl s)

theorem advances_suppliesGood (s : State) (cold : ColdIn) : s.Advances (s.suppliesGood cold) :=
  .ite (.ite ((State.Advances.device s _).trans (advances_coldGo _ _ _ _)) (.device s _)) (.refl s)

theorem advances_coolingRestart (s : State) (cold : ColdIn) : s.Advances (s.coolingRestart cold) :=
  .ite (advances_coldGo _ _ _ _) (.refl s)

theorem advances_bootTimeout (s : State) (cold : ColdIn) : s.Advances (s.bootTimeout cold) := by
  unfold State.bootTimeout
  split
  · exact .refl s
  · exact .ite (.ite (.device s _) ((State.Advances.device s _).trans (advances_coldGo _ _ _ _))) (.refl s)

/-- An event after which a requested cold start may begin (R362). -/
theorem advances_device_coldIfDue (s : State) (c : Chip) (cold : ColdIn) : s.Advances ({ s with chip := c }.coldIfDue cold) :=
  (State.Advances.device s c).trans (advances_coldIfDue _ cold)

/-- A command that writes no line and cannot begin a cold start changes the device alone. -/
theorem exec_device (c : Instr) (s : State) (h : mayWriteNvm c = false) : ∃ u : Chip, Machine.exec c s = .next { s with chip := u } := by
  cases c
  case nvmLineWrite | suppliesGood | stopStepEnd | stopStepTimeout | safetoExpire | coldStartRequest | coolingRestart | regWrite | mfrRegDataWrite
      | bootTimeout | registerWrite => simp [mayWriteNvm] at h
  all_goals exact ⟨_, rfl⟩

/-- Every command goes on to a next state, with its queue and a canonical memory. -/
theorem exec_advances (c : Instr) (s : State) : ∃ t, Machine.exec c s = .next t ∧ s.Advances t := by
  cases hw : mayWriteNvm c
  case false =>
    obtain ⟨u, hu⟩ := exec_device c s hw
    exact ⟨_, hu, .device s u⟩
  case true =>
    cases c
    case nvmLineWrite b => exact ⟨_, rfl, advances_lineWrite s _ _⟩
    case suppliesGood cold => exact ⟨_, rfl, advances_suppliesGood s cold⟩
    case coolingRestart cold => exact ⟨_, rfl, advances_coolingRestart s cold⟩
    case bootTimeout cold => exact ⟨_, rfl, advances_bootTimeout s cold⟩
    case stopStepEnd | stopStepTimeout | safetoExpire | coldStartRequest | regWrite | mfrRegDataWrite | registerWrite =>
      exact ⟨_, rfl, advances_device_coldIfDue s _ _⟩
    all_goals simp [mayWriteNvm] at hw

/-- Settles O1: the step's second branch is the command's meaning on the rest of the queue. -/
theorem stepRunsTheFrontCommand : Obligations.StepRunsTheFrontCommand := fun _ _ _ => rfl

/-- Settles O5: an idle step changes the device alone, and so does every command, or it writes by `nvmWrite` alone. -/
theorem everyStepKeepsTheMemoryCanonical : Obligations.EveryStepKeepsTheMemoryCanonical := by
  intro s sound
  refine ⟨sound, ?_⟩
  unfold step
  split
  · exact ⟨_, rfl, (State.Advances.ite (.device s _) (.refl s)).sound sound⟩
  · obtain ⟨t, ht, advances⟩ := exec_advances _ _
    exact ⟨t, ht, advances.sound sound⟩

/-- Settles O6: every command leaves the queue, and one that changes the device alone leaves every byte. -/
theorem otherCommandsLeaveTheMemory : Obligations.OtherCommandsLeaveTheMemory := by
  intro c s
  obtain ⟨t, ht, advances⟩ := exec_advances c s
  refine ⟨t, ht, advances.pending, fun hw a => ?_⟩
  obtain ⟨u, hu⟩ := exec_device c s hw
  obtain rfl : { s with chip := u } = t := by simpa [hu] using ht
  rfl

end Sys2Proof.Machine

namespace Sys2Proof.Machine

/-! An entry in the event ring signals its vector, which wakes a link that rests in L1: HIF.STAT.LSTATE returns to 0 (R427, R431).
The statements below let a command with such an entry change host registers of 0x31000 to 0x36000 alone, and HIF.STAT is at 0x30004. -/

/-- The step's device shows its link in L0. -/
def linkWoken : Host.Outcome State Fault Refusal → Bool
  | .next t => t.chip.get HIF.STAT_LSTATE == 0
  | _ => false

/-- A command that wakes the link from L1 changes HIF.STAT. -/
theorem not_keeps_of_linkWoken {c : Instr} {s t : State} {may : Nat → Bool} (rests : s.chip.get HIF.STAT_LSTATE = 1) (woken : linkWoken (Machine.exec c s) = true)
    (kept : may HIF.STAT = false) (ht : Machine.exec c s = .next t) : ¬ Keeps s t may := by
  intro keeps
  have same : t.chip.get HIF.STAT_LSTATE = s.chip.get HIF.STAT_LSTATE := congrArg (wordField · _ _) (keeps.regs HIF.STAT kept)
  simp only [ht, linkWoken, same, rests] at woken
  exact absurd woken (by decide)

/-- The event ring runs with its vector unmasked, and the link rests in L1. -/
def eventsSignal : Chip :=
  { State.reset.chip.put PWR.DOMSTAT_CORE 1 |>.put PWR.DOMSTAT_HOST 1 |>.put HIF.CTRL_EN 1 |>.put HIF.STAT_LINKUP 1 |>.put HIF.STAT_LSTATE 1 |>.put (RING.STAT_STATE evtRing) 1
      |>.put (MSIX.VCTRL_MASK 0) 0 with
    hif := { State.reset.chip.hif with msixEn := true, busMaster := true } }

/-- The supplies of a cold start that no command below begins. -/
def suppliesBad : ColdIn := ⟨false, false, false, 0⟩

/-- The input is ON and rail 0 waits for its release. -/
def railWaits : State := { chip := eventsSignal.put (SEQR.STAT_STATE 0) 1 |>.put (SEQD.STAT_STATE 0) 1 |>.put HSW.CTRL_EN 1 |>.put HSW.STAT_STATE 3 |>.put HSW.FAST_IFAST 0 }

/-- The input is ON and rail 0 is OFF. -/
def railRests : State := { chip := eventsSignal.put (SEQR.STAT_STATE 0) 0 |>.put HSW.STAT_STATE 3 }

/-- Rail 0 is latched, and its domain with it. -/
def railLatched : State := { chip := { eventsSignal.put (SEQR.STAT_STATE 0) 6 |>.put (SEQD.STAT_STATE 0) 4 with doms := Tbl.empty.set 0 { ownLatch := true } } }

/-- The stop step of rail 0 runs, and its loop is off. -/
def railStops : State := { chip := eventsSignal.put (SEQR.STAT_STATE 0) 5 |>.put (SEQD.STAT_STATE 0) 3 }

/-- Every fault slot is taken, and a fault message of class F1 waits. -/
def tableFull : State :=
  { chip := { (List.range 64).foldl (fun c i => c.put (FLT.ENT0_STATE i) 1) (eventsSignal.put FLT.STAT_GUARD 0) with faultQ := [⟨0x2000, 0, 0⟩] } }

/-- A fault message of class F0 waits, for whose class events are posted. -/
def loggedFault : State := { chip := { eventsSignal.put HIF.CTRL_EVCLS 0 with faultQ := [⟨0x1000, 0, 0⟩] } }

/-- A warm start waits for BOOTOK. -/
def warmStarts : State :=
  { chip := { eventsSignal.put PWR.DOMSTAT_POL 1 |>.put FW.STAT_START 2 with
      fw := { State.reset.chip.fw with bootAt := some 0, released := true, warmRing := none }
      boot := { State.reset.chip.boot with bootsel := 0, raise := 0 } } }


/-- Alerts are enabled in every state that leaves PMB.CFG at its reset value, whatever the address strap. -/
theorem alerten_of_reset {c : Chip} (h : c.reg PMB.CFG = resetWord PMB.CFG) : c.bit PMB.CFG_ALERTEN = true := by
  have strap : ∀ x : Fin 8, wordField (resetFields [⟨24, 7, .ro, 0x40 + x.val⟩, ⟨19, 1, .rwl, 1⟩, ⟨18, 1, .rwl, 0⟩, ⟨17, 1, .rwl, 0⟩, ⟨16, 1, .rwl, 1⟩, ⟨8, 8, .rwl, 0⟩]) 19 1 != 0 := by decide
  have reset : (wordField (resetWord PMB.CFG) 19 1 != 0) = true := strap Config.pmbStrap
  rw [← h] at reset
  exact reset

/-- What a PMBus latch does where HOST is on and alerts are enabled. -/
theorem pmbLatch_of_alerten {c : Chip} (pages j b : Nat) (host : c.domOn .host = true) (alerten : c.bit PMB.CFG_ALERTEN = true) :
    c.pmbLatch pages j b = ({ c with pmb := { c.pmb with status := c.pmb.status.upd (8 * j + b) (· ||| pages) } } : Chip).putB PMB.STAT_ALERT
      ((c.pmb.status.upd (8 * j + b) (· ||| pages)).entries.any fun e => e.2 != 0) := by
  have same : ({ c with pmb := { c.pmb with status := c.pmb.status.upd (8 * j + b) (· ||| pages) } } : Chip).bit PMB.CFG_ALERTEN = true := alerten
  simp only [Chip.pmbLatch, host, if_true, Chip.pmbAlert, Chip.pmbPending, same, Bool.true_and]

/-- The fast breaker's trip orders rail 0 to stop and wakes the link. -/
theorem fastBreaker_wakes : linkWoken (Machine.exec (.fastBreaker 1) railWaits) = true := by
  have acts : railWaits.chip.fastBreaker 1 = railWaits.chip.hswTrip 1 0x2202 HSW.EVT_FASTF HSW.EVTCNT_FASTCNT := if_pos (by decide +kernel)
  have alerten := alerten_of_reset (c := (railWaits.chip.event HSW.EVT_FASTF HSW.EVTCNT_FASTCNT 8).inputFault 0x2202) rfl
  change linkWoken (.next { railWaits with chip := railWaits.chip.fastBreaker 1 }) = true
  rw [acts, Chip.hswTrip, if_neg (by decide), pmbLatch_of_alerten _ _ _ (by decide +kernel) alerten]
  decide +kernel

/-- Refutes O38: the fast breaker trips with rail 0 in WAIT; the rail's return to OFF changes its domain's state, and the event of that change wakes the link. -/
theorem not_tripsAndLossesDropTheInput : ¬ Obligations.TripsAndLossesDropTheInput := by
  rintro ⟨h, -⟩
  obtain ⟨t, ht, -, -, -, -, -, -, -, -, -, -, -, -, -, keeps⟩ := h railWaits 1 (by decide +kernel) (by decide +kernel)
  exact not_keeps_of_linkWoken (by decide +kernel) fastBreaker_wakes (by decide +kernel) ht keeps

/-- Refutes O40: a STOP takes rail 0 from WAIT to OFF, and the event of its domain's new state wakes the link. -/
theorem not_aStopFromSoftwareLatchesNothing : ¬ Obligations.AStopFromSoftwareLatchesNothing := by
  rintro ⟨h, -⟩
  obtain ⟨t, ht, -, -, -, -, -, -, -, keeps⟩ := h railWaits .ring 0 (by decide +kernel) (by decide +kernel)
  exact not_keeps_of_linkWoken (by decide +kernel) (by decide +kernel) (by decide +kernel) ht keeps

/-- Refutes O41: a START takes rail 0 from OFF to WAIT, and the event of its domain's new state wakes the link. -/
theorem not_railsStartAndQualify : ¬ Obligations.RailsStartAndQualify := by
  rintro ⟨h, -⟩
  obtain ⟨t, ht, -, -, -, -, -, keeps⟩ := h railRests .ring 0 (by decide +kernel) (by decide +kernel) (by decide +kernel) (by decide +kernel) (by decide +kernel)
  exact not_keeps_of_linkWoken (by decide +kernel) (by decide +kernel) (by decide +kernel) ht keeps

/-- Refutes O42: a CLR takes rail 0 from LATCHED to OFF, and the event of its domain's new state wakes the link. -/
theorem not_railsFailAndLatch : ¬ Obligations.RailsFailAndLatch := by
  rintro ⟨-, -, -, -, h, -⟩
  obtain ⟨t, ht, -, -, -, -, -, keeps⟩ := h railLatched .ring 0 (by decide +kernel) (by decide +kernel) (by decide +kernel) (by decide +kernel)
  exact not_keeps_of_linkWoken (by decide +kernel) (by decide +kernel) (by decide +kernel) ht keeps

/-- Refutes O43: the stop step of rail 0 ends, and the event of its domain's new state wakes the link. -/
theorem not_stopStepsFollowTheOrder : ¬ Obligations.StopStepsFollowTheOrder := by
  rintro ⟨-, -, h, -⟩
  obtain ⟨t, ht, -, -, -, -, -, -, keeps⟩ := h railStops 0 suppliesBad (by decide +kernel) (by decide +kernel) (by decide +kernel) (by decide +kernel) (by decide +kernel)
    (by decide +kernel) (by decide +kernel) (by decide +kernel)
  exact not_keeps_of_linkWoken (by decide +kernel) (by decide +kernel) (by decide +kernel) ht keeps

/-- Refutes O44: the F1 fault that finds every slot taken is logged, and its event wakes the link. -/
theorem not_aFullFaultTableDropsNoF2 : ¬ Obligations.AFullFaultTableDropsNoF2 := by
  rintro ⟨h, -⟩
  obtain ⟨t, ht, -, -, -, -, -, -, -, -, -, keeps⟩ := h tableFull 0 ⟨0x2000, 0, 0⟩ (by decide +kernel) rfl (by decide +kernel) (by decide +kernel) (by decide +kernel)
    (by decide +kernel) (by decide +kernel) (by decide +kernel)
  exact not_keeps_of_linkWoken (by decide +kernel) (by decide +kernel) (by decide +kernel) ht keeps

/-- Refutes O45: the event of an F0 fault that is only logged wakes the link. -/
theorem not_faultsAreHeldByClass : ¬ Obligations.FaultsAreHeldByClass := by
  rintro ⟨h, -⟩
  obtain ⟨t, ht, -, -, -, keeps⟩ := h loggedFault 0 ⟨0x1000, 0, 0⟩ (by decide +kernel) rfl (by decide +kernel) (by decide +kernel) (by decide +kernel) (by decide +kernel)
  exact not_keeps_of_linkWoken (by decide +kernel) (by decide +kernel) (by decide +kernel) ht keeps

/-- Refutes O58: BOOTOK ends a warm start, and the event of the running image wakes the link. -/
theorem not_firmwareServesTheMailboxAndStarts : ¬ Obligations.FirmwareServesTheMailboxAndStarts := by
  rintro ⟨-, -, -, -, -, -, -, -, -, h, -⟩
  obtain ⟨t, ht, -, -, -, -, -, -, -, -, keeps⟩ := h warmStarts 0 (by decide +kernel) (by decide +kernel) (by decide +kernel) (by decide +kernel) (by decide +kernel) (by decide +kernel)
  exact not_keeps_of_linkWoken (by decide +kernel) (by decide +kernel) (by decide +kernel) ht keeps

end Sys2Proof.Machine

namespace Sys2Proof.Machine

/-! CMTST of a commit that waits shows whether it waits for the write window or for leave (R500): 3 with the window open and no leave asked for, and else 2.
It is shown anew as a burst's leave is granted and as a job joins the queue, which two statements below leave out; a third leaves out the closing record of hold-up. -/

/-- CMTST.STATUS of a step's device. -/
def commitStatus : Host.Outcome State Fault Refusal → Nat
  | .next t => t.chip.get TILE.CMTST_STATUS
  | _ => 0

theorem commitStatus_of_next {o : Host.Outcome State Fault Refusal} {t : State} {n : Nat} (shown : commitStatus o = n) (ht : o = .next t) :
    t.chip.get TILE.CMTST_STATUS = n := by
  rw [ht] at shown
  exact shown

/-- The request for leave of a burst. -/
def burstReq : BudReq := ⟨⟨.nvm, 0, 1, 0⟩, 0, 0, false⟩

/-- The input is ON, the write window is open, and a commit waits for the leave that its burst has asked for. -/
def commitAwaitsLeave : State :=
  { chip := { State.reset.chip.put PWR.DOMSTAT_CORE 1 |>.put HSW.STAT_STATE 3 |>.put THM.STAT_WINOPEN 1 |>.put TILE.CMTST_STATUS 2 with
      bud := { queue := [burstReq] }
      store := { State.reset.chip.store with leave := .asked } } }

/-- Refutes O39: the grant of the burst's leave shows the commit as no longer waiting, so CMTST changes with it. -/
theorem not_leaveIsAskedGrantedAndEnded : ¬ Obligations.LeaveIsAskedGrantedAndEnded := by
  rintro ⟨-, -, -, h, -⟩
  obtain ⟨t, ht, -, -, -, -, -, -, -, -, -, keeps⟩ := h commitAwaitsLeave true burstReq (by decide +kernel) (by decide +kernel) rfl rfl (by decide +kernel)
  have waited : commitAwaitsLeave.chip.get TILE.CMTST_STATUS = 2 := by decide +kernel
  have same : t.chip.get TILE.CMTST_STATUS = commitAwaitsLeave.chip.get TILE.CMTST_STATUS := congrArg (wordField · _ _) (keeps.regs TILE.CMTST (by decide))
  have shown : t.chip.get TILE.CMTST_STATUS = 3 := commitStatus_of_next (by decide +kernel) ht
  omega

/-- A commit waits with the window open, and one line fewer than a burst of 64 allows waits for an image; ring 3 with completion ring 5 has a command waiting. -/
def imageNearBurst : State :=
  { chip := { State.reset.chip.domsPut true |>.put PWR.DOMSTAT_HOLDUP 0 |>.put HSW.STAT_STATE 3 |>.put THM.STAT_WINOPEN 1 |>.put TILE.CMTST_STATUS 3 |>.put NVM.CFG_BURSTTH 1
        |>.put HIF.STAT_LINKUP 1 |>.put HIF.STAT_DSTATE 0 |>.put HIF.CTRL_EN 1 |>.put (RING.STAT_STATE 3) 1 |>.put (RING.CFG_CPLSEL 3) 5
        |>.put (RING.STAT_STATE 13) 1 |>.put (RING.CFG_LOG2N 13) 6 |>.put (RING.HIDX_HIDX 3) 1 |>.put (RING.MOD_MODCNT 13) 255 |>.put FW.STAT_HOLD 0 |>.put FW.STAT_START 0 |>.put FW.STAT_RUNSLOT 0 with
      rings := (State.reset.chip.rings.set 3 {}).set 13 {}
      store := { State.reset.chip.store with jobs := [⟨.image, .image 3 1, List.replicate 64 ⟨slotBase 1, []⟩, 0⟩] } } }

/-- IMAGE_STAGE of four bytes into slot 1. -/
def imageCmd : Cmd := ⟨3, 0, 0, 1, [0, 0, 0, 0, 4]⟩

/-- Refutes O53: the line that IMAGE_STAGE queues makes the burst ask for leave, and CMTST shows that the commit waits for it. -/
theorem not_ringCommandsStageCommitAndStart : ¬ Obligations.RingCommandsStageCommitAndStart := by
  rintro ⟨-, -, -, -, -, -, -, -, -, h, -⟩
  obtain ⟨t, ht, -, -, -, -, -, keeps⟩ := h imageNearBurst imageCmd [] (by decide +kernel) (by decide +kernel) (by decide) (by decide +kernel) (by decide) (by decide) (by decide) (by decide)
  have waited : imageNearBurst.chip.get TILE.CMTST_STATUS = 3 := by decide +kernel
  have same : t.chip.get TILE.CMTST_STATUS = imageNearBurst.chip.get TILE.CMTST_STATUS := congrArg (wordField · _ _) (keeps.regs TILE.CMTST (by decide +kernel))
  have shown : t.chip.get TILE.CMTST_STATUS = 2 := commitStatus_of_next (by decide +kernel) ht
  omega

/-- How many records the log buffer of a step's device holds. -/
def logBuffered : Host.Outcome State Fault Refusal → Nat
  | .next t => t.chip.store.logBuf.length
  | _ => 0

/-- In hold-up the last record of the log has failed three writes, and the closing record waits for the log to be empty. -/
def lastRecordFails : State :=
  { chip := { State.reset.chip.domsPut true |>.put PWR.DOMSTAT_HOLDUP 1 |>.put THM.STAT_WINOPEN 1 with
      store := { State.reset.chip.store with tries := 3, trying := some .log, logBuf := [{ type := 1 }], closing := true } } }

/-- Refutes O59: in hold-up the fourth failure of a log line lets the closing record into the buffer (R311, R493), which the statement leaves as it was. -/
theorem not_tilesAreStagedWrittenAndScrubbed : ¬ Obligations.TilesAreStagedWrittenAndScrubbed := by
  rintro ⟨-, -, -, -, -, -, -, h, -⟩
  obtain ⟨t, ht, -, -, kept, -⟩ := h lastRecordFails 0 (by decide +kernel) (by decide +kernel) (by decide +kernel) (by decide +kernel) rfl
  have two : logBuffered (Machine.exec (.nvmLineWrite ⟨false, 0⟩) lastRecordFails) = 2 := by decide +kernel
  rw [ht, logBuffered, kept] at two
  exact absurd two (by decide +kernel)

end Sys2Proof.Machine

namespace Sys2Proof.Machine

/-! A round of the cross-check marks a sensor whose estimate, that of its hot neighbours, is above the warning level: DIEWF latches on PMBus (R374, R376, R438), and PMB.STAT shows the alert, which the statement of the round leaves as it was. -/

/-- Sensor 0 reads 0 °C beside two neighbours at 112.5 °C, and a round is due. -/
def coldSensor : State :=
  { chip := { State.reset.chip.domsPut true |>.put PWR.DOMSTAT_HOLDUP 0 |>.put THM.CFG_XCHK 1 |>.put THM.WARN_DIEWARN 800
        |>.put (THM.SENS_VALID 0) 1 |>.put (THM.SENS_VALID 1) 1 |>.put (THM.SENS_VALID 2) 1 |>.put (THM.SENS_USED 1) 900 |>.put (THM.SENS_USED 2) 900
        |>.put (THM.NBR_NBR0 0) 129 |>.put (THM.NBR_NBR1 0) 130 with
      time := { State.reset.chip.time with now := 1000000000 } } }

theorem crossCheck_alerts : coldSensor.chip.crossCheck.get PMB.STAT_ALERT = 1 := by
  have worst : (coldSensor.chip.thermUpd fun h => { h with roundAt := coldSensor.chip.now }).sensWorst = some 0 := by decide +kernel
  rw [Chip.crossCheck, if_neg (by decide +kernel)]
  simp only [worst]
  rw [if_neg (by decide +kernel), Chip.sensMark]
  rw [if_pos (by decide), if_pos (by decide), if_pos (by decide +kernel), Chip.sensWarn]
  rw [if_neg (by decide +kernel), if_pos (by decide +kernel), pmbLatch_of_alerten _ _ _ (by decide +kernel) (alerten_of_reset rfl)]
  decide +kernel

/-- Refutes O48: the mark of sensor 0 shows an alert in PMB.STAT. -/
theorem not_sensorsWindowAndShutdown : ¬ Obligations.SensorsWindowAndShutdown := by
  rintro ⟨-, -, -, h, -⟩
  obtain ⟨t, ht, -, -, -, -, -, -, -, keeps⟩ := h coldSensor 0 (by decide +kernel) (by decide +kernel) (by decide +kernel) (by decide +kernel) (by decide +kernel) (by decide +kernel)
  have chip : coldSensor.chip.crossCheck = t.chip := congrArg State.chip (Host.Outcome.next.inj ht)
  have same : t.chip.get PMB.STAT_ALERT = coldSensor.chip.get PMB.STAT_ALERT := congrArg (wordField · _ _) (keeps.regs PMB.STAT (by decide))
  have clear : coldSensor.chip.get PMB.STAT_ALERT = 0 := by decide +kernel
  rw [← chip, crossCheck_alerts, clear] at same
  exact absurd same (by decide)

end Sys2Proof.Machine

namespace Sys2Proof.Machine

/-! MCTP: the packets of a message and their reassembly, the answers to requests that wait, and the register read (R441, R442). -/

theorem Effect.mctpUpd {s t : State} {h : Chip → Chip} {fields : List Fld} {srcs : List Nat} {msgs : List FaultMsg} {outs : List Output}
    (e : Effect s t h fields srcs msgs outs) (f : MctpHw → MctpHw) :
    Effect s { t with chip := t.chip.mctpUpd f } (fun c => (h c).mctpUpd f) fields srcs msgs outs :=
  e.innerStep (fun c => c.mctpUpd f) rfl rfl rfl rfl rfl (congrArg (fun c => c.mctpUpd f) e.inner)

theorem bytesLE_one (v : Nat) : bytesLE 1 v = [BitVec.ofNat 8 v] := rfl

/-! ### Packets -/

/-- A packet that the device takes on either binding: MCTP is served, the packet is for the device, the link is up and the length fits. -/
structure Chip.TakesPacket (c : Chip) (dest len : Nat) : Prop where
  up : c.mctpUp = true
  mine : dest = c.get PMB.STAT_EID ∨ dest = 0 ∨ dest = 0xff
  link : c.get HIF.STAT_LINKUP = 1
  short : len ≤ 64

/-- The part that a packet continues. -/
def MctpPart.continues (b src tag : Nat) (p : MctpPart) : Bool := p.binding == b && p.src == src && p.tag == tag

/-- What a message in parts becomes with one packet more. -/
def Chip.mctpTake (c : Chip) (b src : Nat) (eom : Bool) (seq tag : Nat) (body : List Byte) : Chip :=
  if 4096 < body.length then c.mctpDrop
  else if eom then c.mctpWhole ⟨b, src, tag, body⟩
  else if 4 ≤ c.mctp.parts.length then c.mctpDrop
  else c.mctpUpd fun h => { h with parts := h.parts ++ [⟨b, src, tag, (seq + 1) % 4, body⟩] }

theorem mctpPacket_taken {c : Chip} {dest : Nat} {pl : List Byte} (h : c.TakesPacket dest pl.length) (b src : Nat) (som eom : Bool) (seq tag : Nat) :
    c.mctpPacket b src dest som eom seq tag pl =
      let old := c.mctp.parts.find? (MctpPart.continues b src tag)
      let t := c.mctpUpd fun h => { h with parts := h.parts.filter fun p => !p.continues b src tag }
      if som then (if old.isSome then t.mctpDrop else t).mctpTake b src eom seq tag pl
      else match old with
        | none => c
        | some p => if p.seq = seq then t.mctpTake b src eom seq tag (p.body ++ pl) else t.mctpDrop := by
  have linked : c.bit HIF.STAT_LINKUP = true := by simp [Chip.bit, h.link]
  have mine : (dest == c.get PMB.STAT_EID || dest == 0 || dest == 0xff) = true := by simpa [or_assoc] using h.mine
  rw [Chip.mctpPacket, if_neg (by simp [h.up, mine, linked, Nat.not_lt.mpr h.short])]
  rfl

theorem mctpPacket_not_mine {c : Chip} {dest : Nat} (h : c.mctpUp = false ∨ dest ≠ c.get PMB.STAT_EID ∧ dest ≠ 0 ∧ dest ≠ 0xff)
    (b src : Nat) (som eom : Bool) (seq tag : Nat) (pl : List Byte) : c.mctpPacket b src dest som eom seq tag pl = c := by
  rw [Chip.mctpPacket, if_pos]
  obtain down | ⟨eid, zero, all⟩ := h
  · simp [down]
  · simp [eid, zero, all]

/-- A first packet whose message is not in parts yet. -/
theorem mctpPacket_first {c : Chip} {b dest : Nat} {pl : List Byte} (h : c.TakesPacket dest pl.length) {src tag : Nat}
    (new : ∀ p ∈ c.mctp.parts, p.binding ≠ b ∨ p.src ≠ src ∨ p.tag ≠ tag) (eom : Bool) (seq : Nat) :
    c.mctpPacket b src dest true eom seq tag pl = c.mctpTake b src eom seq tag pl := by
  have other : ∀ p ∈ c.mctp.parts, p.continues b src tag = false := fun p hp => by
    have := new p hp
    simp only [MctpPart.continues, Bool.and_eq_false_iff, beq_eq_false_iff_ne]
    tauto
  have fresh : c.mctp.parts.find? (MctpPart.continues b src tag) = none := by
    simp only [List.find?_eq_none, Bool.not_eq_true]
    exact other
  have kept : c.mctp.parts.filter (fun p => !p.continues b src tag) = c.mctp.parts := by
    simpa [List.filter_eq_self] using other
  rw [mctpPacket_taken h]
  simp only [fresh, if_true, Option.isSome_none, Bool.false_eq_true, if_false, Chip.mctpUpd, kept]

/-- A further packet of the one message that is in parts. -/
theorem mctpPacket_next {c : Chip} {p : MctpPart} {dest : Nat} {pl : List Byte} (h : c.TakesPacket dest pl.length) (only : c.mctp.parts = [p])
    (eom : Bool) (seq : Nat) :
    c.mctpPacket p.binding p.src dest false eom seq p.tag pl =
      let t := c.mctpUpd fun h => { h with parts := [] }
      if p.seq = seq then t.mctpTake p.binding p.src eom seq p.tag (p.body ++ pl) else t.mctpDrop := by
  have same : p.continues p.binding p.src p.tag = true := by simp [MctpPart.continues]
  rw [mctpPacket_taken h]
  simp only [only, List.find?_cons, same, Bool.false_eq_true, if_false, Chip.mctpUpd, List.filter_cons, Bool.not_true, List.filter_nil]

theorem mctpDrop_effect {s t : State} {h : Chip → Chip} {outs : List Output} (e : Effect s t h [] [] [] outs) :
    Effect s { t with chip := t.chip.mctpDrop } h [PMB.EVT_MDROPF, PMB.EVTCNT2_MDROPCNT] [0xe2] [] outs :=
  e.event PMB.EVT_MDROPF PMB.EVTCNT2_MDROPCNT 0xe2

theorem mctpDrop_recorded (c : Chip) : Recorded c c.mctpDrop PMB.EVT_MDROPF PMB.EVTCNT2_MDROPCNT :=
  recorded_event c _ _ _ (by decide) (by decide) (by decide) (by decide) rfl

theorem mctpWhole_of_kind {q : MctpMsg} (h : q.kind ≠ none) (c : Chip) : c.mctpWhole q = c.mctpUpd fun x => { x with inbox := x.inbox ++ [q] } := by
  rw [Chip.mctpWhole, if_pos (Option.isSome_iff_ne_none.mpr h)]

/-- A control command that is not one of the five is refused at once. -/
theorem mctpWhole_unsupported (c : Chip) (b src tag : Nat) (x cmd : Byte) (request : 128 ≤ x.toNat) (other : cmd = 0 ∨ 5 < cmd.toNat) :
    c.mctpWhole ⟨b, src, tag, [0, x, cmd]⟩ = c.out (.mctp b src 0 [x &&& 31, cmd, 5]) := by
  have unknown : ¬(1 ≤ cmd.toNat ∧ cmd.toNat ≤ 5) := by
    rintro ⟨low, high⟩
    obtain rfl | above := other
    · exact absurd low (by decide)
    · omega
  have type : (⟨b, src, tag, [0, x, cmd]⟩ : MctpMsg).at 0 = 0 := rfl
  have kind : (⟨b, src, tag, [0, x, cmd]⟩ : MctpMsg).kind = none := by
    rw [MctpMsg.kind, if_pos type, if_neg]
    simp only [MctpMsg.at, List.getD_cons_zero, List.getD_cons_succ, Bool.and_eq_true, decide_eq_true_eq]
    tauto
  have instBits : BitVec.ofNat 8 (x.toNat % 32) = x &&& 31 := by
    apply BitVec.eq_of_toNat_eq
    rw [BitVec.toNat_ofNat, BitVec.toNat_and]
    exact (Nat.mod_eq_of_lt (by omega)).trans (Nat.and_two_pow_sub_one_eq_mod x.toNat 5).symm
  rw [Chip.mctpWhole, kind, if_neg (by simp), if_pos type, if_pos (by simpa [MctpMsg.at] using request)]
  simp [Chip.mctpSend, MctpMsg.at, bytesLE_one, instBits]

/-! ### Answers to requests that wait -/

/-- A request waits at place k of the inbox. -/
structure Chip.AwaitsAnswer (c : Chip) (k : Nat) (q : MctpMsg) (kind : Nat) : Prop where
  up : c.mctpUp = true
  waits : c.mctp.inbox[k]? = some q
  kind : q.kind = some kind

/-- The device without the request at place k of its inbox. -/
def Chip.mctpTaken (c : Chip) (k : Nat) : Chip := c.mctpUpd fun h => { h with inbox := h.inbox.eraseIdx k }

@[simp] theorem get_mctpTaken (c : Chip) (k : Nat) (f : Fld) : (c.mctpTaken k).get f = c.get f := rfl

theorem mctpAnswer_of_awaits {c : Chip} {k kind : Nat} {q : MctpMsg} (h : c.AwaitsAnswer k q kind) (f : Chip → MctpMsg → Chip) :
    c.mctpAnswer k kind f = f (c.mctpTaken k) q := by
  simp only [Chip.mctpAnswer, h.waits]
  rw [if_pos (by simp [h.up, h.kind])]
  rfl

theorem mctpAnswer_of_none {c : Chip} {k : Nat} (h : c.mctp.inbox.length ≤ k) (kind : Nat) (f : Chip → MctpMsg → Chip) : c.mctpAnswer k kind f = c := by
  simp only [Chip.mctpAnswer, List.getElem?_eq_none h]

theorem ctlAnswer_of_awaits {c : Chip} {k cmd : Nat} {q : MctpMsg} (h : c.AwaitsAnswer k q cmd) {len : Nat} (hlen : q.body.length = 3 + len) (f : Chip → MctpMsg → Chip) :
    c.ctlAnswer k cmd len f = f (c.mctpTaken k) q := by
  rw [Chip.ctlAnswer, mctpAnswer_of_awaits h, if_pos hlen]

/-- A control request names its command in its third byte. -/
theorem at_two_of_kind {q : MctpMsg} {cmd : Nat} (h : q.kind = some cmd) (control : cmd ≤ 5) : q.at 2 = cmd := by
  unfold MctpMsg.kind at h
  split at h
  · split at h
    · exact Option.some.inj h
    · cases h
  · split at h
    · split at h
      · have := Option.some.inj h; omega
      · cases h
    · split at h
      · split at h
        · have := Option.some.inj h; omega
        · cases h
      · cases h

theorem ctlReply_eq {q : MctpMsg} {cmd : Nat} (h : q.kind = some cmd) (control : cmd ≤ 5) (c : Chip) (cc : Byte) (data : List Byte) :
    c.ctlReply q cc data = c.out (.mctp q.binding q.src 0 (bytesLE 1 (q.at 1 % 32) ++ [BitVec.ofNat 8 cmd, cc] ++ data)) := by
  simp [Chip.ctlReply, Chip.mctpSend, at_two_of_kind h control, bytesLE_one]

/-- A request is taken from the inbox and answered. -/
theorem Effect.mctpAnswered (s : State) (k : Nat) (o : Output) :
    Effect s { s with chip := (s.chip.mctpTaken k).out o } (fun c => { c with mctp := { c.mctp with inbox := c.mctp.inbox.eraseIdx k } }) [] [] [] [o] :=
  ((Effect.start s).mctpUpd fun h => { h with inbox := h.inbox.eraseIdx k }).out o

/-! ### The register read -/

/-- A register that a read changes nothing of: outside the mailbox RAM, the processors' claims, the memory's window and the snapshots. -/
structure Chip.PlainRead (c : Chip) (o : Nat) : Prop where
  aligned : o % 4 = 0
  box : inMailbox o = false
  on : c.offAt o = false
  word : o ∉ snapWords
  pair : ∀ x ∈ snapPairs, x.1 ≠ o
  claim : inPP o = false
  window : o ≠ NVM.RDDATA

/-- What a plain register answers. -/
def Chip.plainWord (c : Chip) (o : Nat) : Word := if (regAt o).isSome then c.readable o else 0

theorem aligned_of_offsetOk {o : Nat} (h : offsetOk o = true) : o % 4 = 0 := by
  simp only [offsetOk, Bool.and_eq_true, beq_iff_eq, decide_eq_true_eq] at h
  tauto

theorem busRead_plain {c : Chip} {o : Nat} (h : c.PlainRead o) (m : List Host.Cell) {req : Requester} (up : c.reqUp req = true) :
    c.busRead m req o = (c.plainWord o, c) := by
  have single : snapPairs.find? (fun x => x.1 == o) = none := by simpa [List.find?_eq_none] using fun a b hx => h.pair (a, b) hx
  unfold Chip.busRead Chip.plainWord
  rw [if_neg (by simp [up]), if_neg (by simp [h.aligned]), if_neg (by simp [h.box])]
  cases known : regAt o with
  | none => simp
  | some r =>
    rw [if_neg (by simp), if_neg (by simp [h.on]), Chip.regRead, if_neg (by simp [h.claim]), if_neg h.window, single]
    simp [h.word]

theorem readSeq_plain (m : List Host.Cell) {req : Requester} {c : Chip} (up : c.reqUp req = true) (l : List (Nat × Nat)) (vs : List Word)
    (h : ∀ x ∈ l, offsetOk x.2 = true ∧ c.PlainRead x.2) : Chip.readSeq m req none l c vs = (c, vs ++ l.map fun x => c.plainWord x.2, none) := by
  induction l generalizing vs with
  | nil => simp [Chip.readSeq]
  | cons x l ih =>
    obtain ⟨ok, plain⟩ := h x (by simp)
    rw [Chip.readSeq, if_neg (by simp [ok]), if_neg (by simp), busRead_plain plain m up, ih _ fun y hy => h y (by simp [hy])]
    simp

theorem Effect.accEvent {s t : State} {h : Chip → Chip} {fields : List Fld} {srcs : List Nat} {msgs : List FaultMsg} {outs : List Output}
    (e : Effect s t h fields srcs msgs outs) (flag cnt : Fld) (o : Nat) :
    Effect s { t with chip := t.chip.accEvent flag cnt o } h (fields ++ [flag] ++ [cnt] ++ [ACC.ACCST_LASTOFS]) srcs msgs outs :=
  ((e.put flag 1).put cnt (min ((t.chip.put flag 1).get cnt + 1) (2 ^ cnt.width - 1))).put ACC.ACCST_LASTOFS o

theorem recorded_unaligned (c : Chip) (o : Nat) : Recorded c (c.accEvent ACC.ACCST_RSVF ACC.ACCCNT_RSVCNT o) ACC.ACCST_RSVF ACC.ACCCNT_RSVCNT := by
  have told := recorded_event c ACC.ACCST_RSVF ACC.ACCCNT_RSVCNT 0 rfl rfl rfl rfl rfl
  have moved : ∀ f : Fld, f.fits = true → f.apart ACC.ACCST_LASTOFS = true → (c.accEvent ACC.ACCST_RSVF ACC.ACCCNT_RSVCNT o).get f = (c.event ACC.ACCST_RSVF ACC.ACCCNT_RSVCNT 0).get f :=
    fun f hf ha => get_put_apart _ _ _ _ hf ha
  rw [Recorded, moved _ rfl rfl, moved _ rfl rfl]
  exact told

theorem lastofs_accEvent (c : Chip) (flag cnt : Fld) {o : Nat} (h : o < 0x200000) : (c.accEvent flag cnt o).get ACC.ACCST_LASTOFS = o :=
  (get_put_same _ _ _ rfl).trans (Nat.mod_eq_of_lt h)

/-- The answer to a register read of one to 32 plain registers. -/
theorem mctpRegRead_plain {c : Chip} {k n : Nat} {q : MctpMsg} (h : c.AwaitsAnswer k q 0x100) (length : q.body.length = 4 + 4 * n) (least : 1 ≤ n) (most : n ≤ 32)
    (plain : ∀ i ∈ List.range n, offsetOk (fieldLE (q.body.drop 4) (4 * i) 4) = true ∧ c.PlainRead (fieldLE (q.body.drop 4) (4 * i) 4)) (m : List Host.Cell) :
    c.mctpRegRead m k none = (c.mctpTaken k).out (.mctp q.binding q.src 0x7e
      ([0x1e, 0x3c, 1, 0] ++ (List.range n).flatMap fun i => bytesLE 4 (c.plainWord (fieldLE (q.body.drop 4) (4 * i) 4)).toNat)) := by
  have up : (c.mctpTaken k).reqUp .mctp = true := by
    have := h.up
    simp only [Chip.mctpUp, Bool.and_eq_true] at this
    exact this.1
  have taken : ∀ x ∈ (List.range n).map fun i => (i, fieldLE (q.body.drop 4) (4 * i) 4), offsetOk x.2 = true ∧ (c.mctpTaken k).PlainRead x.2 := by
    intro x hx
    obtain ⟨i, hi, rfl⟩ := List.mem_map.mp hx
    obtain ⟨ok, aligned, box, on, word, pair, claim, window⟩ := plain i hi
    exact ⟨ok, aligned, box, on, word, pair, claim, window⟩
  have args : (q.body.drop 4).length = 4 * n := by rw [List.length_drop]; omega
  rw [Chip.mctpRegRead, mctpAnswer_of_awaits h]
  simp only [args]
  rw [if_neg (by simp; omega), show 4 * n / 4 = n by omega, readSeq_plain m up _ _ taken]
  simp only [Chip.mctpSend, List.nil_append, List.map_map, List.flatMap_map]
  rfl

/-- The request names its vendor and command in its first four bytes. -/
theorem four_le_of_regRead {q : MctpMsg} (h : q.kind = some 0x100) : 4 ≤ q.body.length := by
  unfold MctpMsg.kind at h
  split at h
  · split at h
    · next control => simp only [Bool.and_eq_true, decide_eq_true_eq] at control; simp at h; omega
    · cases h
  · split at h
    · split at h
      · next vendor => simp only [Bool.and_eq_true, decide_eq_true_eq] at vendor; exact vendor.1.1.1
      · cases h
    · split at h
      · split at h
        · simp at h; omega
        · cases h
      · cases h

theorem mctpRegRead_badLength {c : Chip} {k : Nat} {q : MctpMsg} (h : c.AwaitsAnswer k q 0x100) (length : q.body.length % 4 ≠ 0 ∨ q.body.length = 4 ∨ 132 < q.body.length)
    (m : List Host.Cell) (fail : Option Nat) :
    c.mctpRegRead m k fail = (c.mctpTaken k).out (.mctp q.binding q.src 0x7e [0x1e, 0x3c, 1, 2]) := by
  have four := four_le_of_regRead h.kind
  rw [Chip.mctpRegRead, mctpAnswer_of_awaits h]
  simp only [List.length_drop]
  rw [if_pos (by simp; omega)]
  rfl

/-- The first offset lies outside the map or is not aligned: what is recorded of it, and the answer. -/
theorem mctpRegRead_badOffset {c : Chip} {k : Nat} {q : MctpMsg} (h : c.AwaitsAnswer k q 0x100) (aligned : q.body.length % 4 = 0) (least : 8 ≤ q.body.length)
    (most : q.body.length ≤ 132) (bad : offsetOk (fieldLE (q.body.drop 4) 0 4) = false) (m : List Host.Cell) (fail : Option Nat) :
    c.mctpRegRead m k fail = (((c.mctpTaken k).unaligned (fieldLE (q.body.drop 4) 0 4)).out (.mctp q.binding q.src 0x7e [0x1e, 0x3c, 1, 1])) := by
  obtain ⟨n, hn⟩ : ∃ n, q.body.length - 4 = 4 * (n + 1) := ⟨(q.body.length - 8) / 4, by omega⟩
  rw [Chip.mctpRegRead, mctpAnswer_of_awaits h]
  simp only [List.length_drop, hn]
  rw [if_neg (by simp; omega), show 4 * (n + 1) / 4 = n + 1 by omega, List.range_succ_eq_map, List.map_cons, Chip.readSeq, if_pos (by simpa using bad)]
  rfl

/-- Settles O56: a packet is taken, dropped or ignored by the parts it meets, and each answer takes its request from the inbox and puts one message out. -/
theorem mctpMessagesAreReassembledAndAnswered : Obligations.MctpMessagesAreReassembledAndAnswered := by
  have fin2 : ∀ {a : Nat}, a < 2 → (Fin.ofNat 2 a).val = a := Nat.mod_eq_of_lt
  have fin4 : ∀ {a : Nat}, a < 4 → (Fin.ofNat 4 a).val = a := Nat.mod_eq_of_lt
  have fin16 : ∀ {a : Nat}, a < 16 → (Fin.ofNat 16 a).val = a := Nat.mod_eq_of_lt
  have byte : ∀ {a : Nat}, a < 256 → (BitVec.ofNat 8 a).toNat = a := Nat.mod_eq_of_lt
  refine ⟨?_, ?_, ?_, ?_, ?_, ?_, ?_, ?_, ?_, ?_, ?_, ?_, ?_, ?_, ?_, ?_, ?_⟩
  · intro s b src dest seq tag pl up link mine short empty kind
    have mine' : dest.toNat = s.chip.get PMB.STAT_EID ∨ dest.toNat = 0 ∨ dest.toNat = 0xff := by
      obtain h | rfl | rfl := mine
      exacts [.inl h, .inr (.inl rfl), .inr (.inr rfl)]
    have taken := mctpPacket_first (b := b.val) (src := src.toNat) (tag := tag.val) ⟨up, mine', link, short⟩ (by simp [empty]) true seq.val
    rw [Chip.mctpTake, if_neg (by omega), if_pos rfl, mctpWhole_of_kind kind] at taken
    exact ⟨_, exec_chip rfl taken, (Effect.start s).mctpUpd _⟩
  · intro s b src seq tag pl up link short new room
    have taken := mctpPacket_first ⟨up, .inr (.inl rfl), link, short⟩ new false seq.val
    rw [Chip.mctpTake, if_neg (by omega), if_neg (by decide), if_neg (by omega)] at taken
    exact ⟨_, exec_chip rfl taken, (Effect.start s).mctpUpd _⟩
  · intro s p pl up link only binding src tag seq short whole kind
    have taken := mctpPacket_next ⟨up, .inr (.inr rfl), link, short⟩ only true p.seq
    dsimp only at taken
    rw [if_pos rfl, Chip.mctpTake, if_neg (by omega), if_pos rfl, mctpWhole_of_kind kind] at taken
    refine ⟨_, exec_chip (d := (s.chip.mctpUpd fun h => { h with parts := [] }).mctpUpd fun h => { h with inbox := h.inbox ++ [⟨p.binding, p.src, p.tag, p.body ++ pl⟩] }) rfl ?_,
      ((Effect.start s).mctpUpd fun h => { h with parts := [] }).mctpUpd fun h => { h with inbox := h.inbox ++ [⟨p.binding, p.src, p.tag, p.body ++ pl⟩] }⟩
    · rw [fin2 binding, byte src, fin4 seq, fin16 tag]
      exact taken
  · intro s p pl seq eom up link only binding src tag short bad
    have taken := mctpPacket_next ⟨up, .inr (.inr rfl), link, short⟩ only eom seq.val
    have dropped : s.chip.mctpPacket p.binding p.src 0xff false eom seq.val p.tag pl = (s.chip.mctpUpd fun h => { h with parts := [] }).mctpDrop := by
      rw [taken]
      dsimp only
      split
      · rw [Chip.mctpTake, if_pos (bad.resolve_left (not_not.mpr ‹_›))]
      · rfl
    refine ⟨_, exec_chip (d := (s.chip.mctpUpd fun h => { h with parts := [] }).mctpDrop) rfl ?_, ?_, mctpDrop_effect ((Effect.start s).mctpUpd fun h => { h with parts := [] })⟩
    · rw [fin2 binding, byte src, fin16 tag]
      exact dropped
    · exact mctpDrop_recorded (s.chip.mctpUpd fun h => { h with parts := [] })
  · intro s b src seq tag pl up link short new full
    have taken := mctpPacket_first ⟨up, .inr (.inl rfl), link, short⟩ new false seq.val
    rw [Chip.mctpTake, if_neg (by omega), if_neg (by decide), if_pos (by omega)] at taken
    exact ⟨_, exec_chip rfl taken, mctpDrop_recorded s.chip, mctpDrop_effect (Effect.start s)⟩
  · intro s b src dest som eom seq tag pl other
    refine ⟨s, exec_chip (d := s.chip) rfl (mctpPacket_not_mine ?_ _ _ _ _ _ _ _), rfl⟩
    obtain down | ⟨eid, zero, all⟩ := other
    · exact .inl down
    · exact .inr ⟨eid, fun h => zero (BitVec.eq_of_toNat_eq h), fun h => all (BitVec.eq_of_toNat_eq h)⟩
  · intro s b src seq tag x cmd up link empty request other
    have taken := mctpPacket_first (b := b.val) (src := src.toNat) (tag := tag.val) (pl := [0, x, cmd]) ⟨up, .inr (.inl rfl), link, by simp⟩ (by simp [empty]) true seq.val
    rw [Chip.mctpTake, if_neg (by simp), if_pos rfl, mctpWhole_unsupported _ _ _ _ _ _ request other] at taken
    exact ⟨_, exec_chip rfl taken, (Effect.start s).out _⟩
  · intro s k q up waits kind length free op low high
    have stored : ((s.chip.mctpTaken k).put PMB.STAT_EID (q.at 4)).get PMB.STAT_EID = q.at 4 := by
      rw [get_put_same _ _ _ rfl]
      exact Nat.mod_eq_of_lt (Nat.lt_trans high (by decide))
    have answer : s.chip.setEid k = ((s.chip.mctpTaken k).put PMB.STAT_EID (q.at 4)).out
        (.mctp q.binding q.src 0 (bytesLE 1 (q.at 1 % 32) ++ [1, 0, 0] ++ bytesLE 1 (q.at 4) ++ [0])) := by
      rw [Chip.setEid, ctlAnswer_of_awaits ⟨up, waits, kind⟩ length]
      dsimp only
      rw [if_neg (by simpa using free), if_pos (by omega), if_neg (by simp; omega), ctlReply_eq kind (by decide), stored]
      simp
    exact ⟨_, exec_chip rfl answer, stored, (((Effect.start s).mctpUpd fun h => { h with inbox := h.inbox.eraseIdx k }).put PMB.STAT_EID (q.at 4)).out _⟩
  · intro s k q up waits kind length held
    have answer : s.chip.setEid k = (s.chip.mctpTaken k).out (.mctp q.binding q.src 0 (bytesLE 1 (q.at 1 % 32) ++ [1, Config.opRejected])) := by
      rw [Chip.setEid, ctlAnswer_of_awaits ⟨up, waits, kind⟩ length]
      dsimp only
      rw [if_pos (by simpa using held), ctlReply_eq kind (by decide)]
      simp
    exact ⟨_, exec_chip rfl answer, Effect.mctpAnswered s k _⟩
  · intro s k q up waits kind length
    have answer : s.chip.getEid k = (s.chip.mctpTaken k).out (.mctp q.binding q.src 0
        (bytesLE 1 (q.at 1 % 32) ++ [2, 0] ++ bytesLE 1 (s.chip.get PMB.STAT_EID) ++ [if s.chip.get PMB.CFG_SEID = 0 then 0 else 2, 0])) := by
      rw [Chip.getEid, ctlAnswer_of_awaits ⟨up, waits, kind⟩ length, ctlReply_eq kind (by decide)]
      rfl
    exact ⟨_, exec_chip rfl answer, Effect.mctpAnswered s k _⟩
  · intro s k q up waits kind length
    have answer : s.chip.getUuid k = (s.chip.mctpTaken k).out (.mctp q.binding q.src 0 (bytesLE 1 (q.at 1 % 32) ++ [3, 0] ++ (List.finRange 16).map Config.uuid)) := by
      rw [Chip.getUuid, ctlAnswer_of_awaits ⟨up, waits, kind⟩ length, ctlReply_eq kind (by decide)]
      rfl
    exact ⟨_, exec_chip rfl answer, Effect.mctpAnswered s k _⟩
  · intro s k q up waits kind length
    have answer : s.chip.getMctpVersion k = (s.chip.mctpTaken k).out (.mctp q.binding q.src 0 (bytesLE 1 (q.at 1 % 32) ++ [4] ++
        (if q.at 3 = 0xff ∨ q.at 3 = 0 ∨ q.at 3 = 5 ∨ q.at 3 = 0x7e then [0, 1] ++ bytesLE 4 (Config.mctpVersion (Fin.ofNat 256 (q.at 3))).toNat else [0x80]))) := by
      rw [Chip.getMctpVersion, ctlAnswer_of_awaits ⟨up, waits, kind⟩ length]
      dsimp only
      rw [ctlReply_eq kind (by decide), ctlReply_eq kind (by decide)]
      by_cases served : q.at 3 = 0xff ∨ q.at 3 = 0 ∨ q.at 3 = 5 ∨ q.at 3 = 0x7e
      · rw [if_pos (by simpa using served), if_pos served]
        simp
      · rw [if_neg (by simpa using served), if_neg served]
        simp
    exact ⟨_, exec_chip rfl answer, Effect.mctpAnswered s k _⟩
  · intro s k q up waits kind length
    have answer : s.chip.getMessageTypes k = (s.chip.mctpTaken k).out (.mctp q.binding q.src 0 (bytesLE 1 (q.at 1 % 32) ++ [5, 0, 2, 5, 0x7e])) := by
      rw [Chip.getMessageTypes, ctlAnswer_of_awaits ⟨up, waits, kind⟩ length, ctlReply_eq kind (by decide)]
      simp
    exact ⟨_, exec_chip rfl answer, Effect.mctpAnswered s k _⟩
  · intro s k q up waits kind length
    have answer : s.chip.getMessageTypes k = (s.chip.mctpTaken k).out (.mctp q.binding q.src 0 (bytesLE 1 (q.at 1 % 32) ++ [5, 3])) := by
      rw [Chip.getMessageTypes, Chip.ctlAnswer, mctpAnswer_of_awaits ⟨up, waits, kind⟩, if_neg (by simpa using length), ctlReply_eq kind (by decide)]
      simp
    exact ⟨_, exec_chip rfl answer, Effect.mctpAnswered s k _⟩
  · intro s k q n up waits kind length least most plain
    have answer := mctpRegRead_plain ⟨up, waits, kind⟩ length least most (fun i hi => by
      obtain ⟨ok, box, on, word, pair, claim, window⟩ := plain i hi
      exact ⟨ok, aligned_of_offsetOk ok, box, on, word, pair, claim, window⟩) s.nvm
    have words : ∀ o, (s.chip.plainWord o).toNat = if (regAt o).isSome then (s.chip.readable o).toNat else 0 := fun o => by
      rw [Chip.plainWord]; split <;> rfl
    simp only [words] at answer
    exact ⟨_, exec_chip rfl answer, Effect.mctpAnswered s k _⟩
  · intro s k q fail code up waits kind cause
    obtain ⟨rfl, aligned, least, most, bad⟩ | ⟨rfl, length⟩ := cause
    · have answer := mctpRegRead_badOffset ⟨up, waits, kind⟩ aligned least most bad s.nvm (fail.map (·.val))
      by_cases inMap : fieldLE (q.body.drop 4) 0 4 < 0x200000
      · have unaligned : fieldLE (q.body.drop 4) 0 4 % 4 ≠ 0 := by simpa [offsetOk, inMap] using bad
        rw [Chip.unaligned, if_pos (by simp [unaligned, inMap])] at answer
        refine ⟨_, exec_chip rfl answer, fun _ _ => ⟨?_, ?_⟩, ?_⟩
        · exact recorded_unaligned (s.chip.mctpTaken k) _
        · exact lastofs_accEvent _ _ _ inMap
        · rw [if_pos ⟨rfl, inMap⟩]
          exact (((Effect.start s).mctpUpd fun h => { h with inbox := h.inbox.eraseIdx k }).accEvent _ _ _).widen _ (by simp) |>.out _
      · rw [Chip.unaligned, if_neg (by simp [inMap])] at answer
        refine ⟨_, exec_chip rfl answer, fun _ h => absurd h inMap, ?_⟩
        rw [if_neg (by simp [inMap])]
        exact Effect.mctpAnswered s k _
    · have answer := mctpRegRead_badLength ⟨up, waits, kind⟩ length s.nvm (fail.map (·.val))
      refine ⟨_, exec_chip rfl answer, fun h => absurd h (by decide), ?_⟩
      rw [if_neg (fun h => absurd h.1 (by decide))]
      exact Effect.mctpAnswered s k _
  · intro s k absent
    have eid : s.chip.getEid k = s.chip := by rw [Chip.getEid, Chip.ctlAnswer, mctpAnswer_of_none absent]
    have read : s.chip.mctpRegRead s.nvm k none = s.chip := by rw [Chip.mctpRegRead, mctpAnswer_of_none absent]
    exact ⟨⟨s, exec_chip (d := s.chip) rfl eid, rfl⟩, s, exec_chip (d := s.chip) rfl read, rfl⟩

end Sys2Proof.Machine

namespace Sys2Proof.Machine

/-! The SPDM responder: what each request makes of its binding's connection, and what it answers (R443, R444, R461, R470). -/

/-! ### Lengths -/

@[simp] theorem length_bytesLE (n v : Nat) : (bytesLE n v).length = n := by
  induction n generalizing v with
  | zero => rfl
  | succ n ih => simp [bytesLE, ih]

@[simp] theorem length_bytesBE (n v : Nat) : (bytesBE n v).length = n := by simp [bytesBE]

/-- Four words of each sequence stay four. -/
theorem length_shaStep (st : List (BitVec 64) × List (BitVec 64)) (kw : BitVec 64) (h : st.1.length = 4 ∧ st.2.length = 4) :
    (shaStep st kw).1.length = 4 ∧ (shaStep st kw).2.length = 4 := by
  unfold shaStep
  split
  · exact ⟨rfl, rfl⟩
  · exact h

theorem length_shaSteps (l : List (BitVec 64)) (st : List (BitVec 64) × List (BitVec 64)) (h : st.1.length = 4 ∧ st.2.length = 4) :
    (l.foldl shaStep st).1.length = 4 ∧ (l.foldl shaStep st).2.length = 4 := by
  induction l generalizing st with
  | nil => exact h
  | cons x l ih => exact ih _ (length_shaStep st x h)

theorem length_shaBlock (digest : List (BitVec 64)) (block : List Byte) (h : digest.length = 8) : (shaBlock digest block).length = 8 := by
  obtain ⟨h1, h2⟩ := length_shaSteps (((shaWords 64 ((List.range 16).map fun i => BitVec.ofNat 64 (natBE ((block.drop (8 * i)).take 8))).reverse).reverse).zipWith (· + ·) shaConsts)
    (digest.take 4, digest.drop 4) (by simp [h])
  simp [shaBlock, h, h1, h2]

@[simp] theorem length_sha384 (l : List Byte) : (sha384 l).length = 48 := by
  have start : shaStart.length = 8 := rfl
  have digest : ∀ (m : List Byte) (r : List Nat) (d : List (BitVec 64)), d.length = 8 →
      (r.foldl (fun d i => shaBlock d ((m.drop (128 * i)).take 128)) d).length = 8 := by
    intro m r
    induction r with
    | nil => exact fun _ h => h
    | cons i r ih => exact fun d h => ih _ (length_shaBlock _ _ h)
  simp [sha384, List.length_flatMap, digest _ _ _ start]

/-! ### The connection of a binding -/

theorem Tbl.set_set {α : Type} [DecidableEq α] {d : Nat → α} (t : Tbl α d) (k : Nat) (v w : α) : (t.set k v).set k w = t.set k w := by
  apply Tbl.ext_get
  intro j
  simp only [Tbl.get_set]
  split <;> rfl

/-- The device without the request at place k of the inbox, with a connection for its binding. -/
def Chip.spdmWith (c : Chip) (k : Nat) (q : MctpMsg) (x : SpdmConn) : Chip := c.mctpUpd fun h => { h with inbox := h.inbox.eraseIdx k, spdm := h.spdm.set q.binding x }

theorem spdmWith_self (c : Chip) (k : Nat) (q : MctpMsg) : c.spdmWith k q (c.spdm q) = c.mctpTaken k := by
  simp only [Chip.spdmWith, Chip.spdm, Chip.mctpTaken, Chip.mctpUpd, Tbl.set_get]

@[simp] theorem spdm_spdmWith (c : Chip) (k : Nat) (q : MctpMsg) (x : SpdmConn) : (c.spdmWith k q x).spdm q = x := Tbl.get_set_same _ _ _

@[simp] theorem spdmUpd_spdmWith (c : Chip) (k : Nat) (q : MctpMsg) (x : SpdmConn) (f : SpdmConn → SpdmConn) : (c.spdmWith k q x).spdmUpd q f = c.spdmWith k q (f x) := by
  simp only [Chip.spdmWith, Chip.spdmUpd, Chip.mctpUpd, Tbl.upd, Tbl.get_set_same, Tbl.set_set]

@[simp] theorem outbox_spdmWith (c : Chip) (k : Nat) (q : MctpMsg) (x : SpdmConn) : (c.spdmWith k q x).outbox = c.outbox := rfl

/-- A response that the requester takes whole. -/
theorem spdmSend_whole {c : Chip} {q : MctpMsg} {r : List Byte} (h : r.length ≤ (c.spdm q).size) : c.spdmSend q r = c.out (.mctp q.binding q.src 5 r) := if_pos h

/-- The connection as a request of a code finds it: a large response ends with every request but CHUNK_GET, a measurement transcript with every other than GET_MEASUREMENTS. -/
def SpdmConn.atRequest (x : SpdmConn) (code : Nat) : SpdmConn :=
  if code = 0x86 then x else { x with large := none, meas := if code = 0xe0 then x.meas else [] }

theorem spdmAnswer_of_awaits {c : Chip} {k code : Nat} {q : MctpMsg} (h : c.AwaitsAnswer k q (0x200 + code)) (version : q.at 1 = 0x12) (stage len : Nat) (f : Chip → MctpMsg → Chip) :
    c.spdmAnswer k code stage len f =
      let t := c.spdmWith k q ((c.spdm q).atRequest code)
      if ((c.spdm q).atRequest code).stage ≠ stage then t.spdmError q 4 0 [] else if q.spdm.length < len then t.spdmError q 1 0 [] else f t q := by
  rw [Chip.spdmAnswer, mctpAnswer_of_awaits h, ← spdmWith_self c k q]
  simp only [version, ne_eq, not_true_eq_false, if_false, SpdmConn.atRequest]
  by_cases chunk : code = 0x86 <;> simp [chunk]

/-- A request in its order and of its length. -/
theorem spdmAnswer_ready {c : Chip} {k code stage len : Nat} {q : MctpMsg} (h : c.AwaitsAnswer k q (0x200 + code)) (version : q.at 1 = 0x12)
    (ordered : (c.spdm q).stage = stage) (long : len ≤ q.spdm.length) (f : Chip → MctpMsg → Chip) :
    c.spdmAnswer k code stage len f = f (c.spdmWith k q ((c.spdm q).atRequest code)) q := by
  have stage' : ((c.spdm q).atRequest code).stage = stage := by rw [← ordered, SpdmConn.atRequest]; split <;> rfl
  rw [spdmAnswer_of_awaits h version]
  dsimp only
  rw [if_neg (not_not.mpr stage'), if_neg (Nat.not_lt.mpr long)]

/-- A connection changes, and one message goes out. -/
theorem spdm_told {s : State} {i : Instr} {k : Nat} {q : MctpMsg} {x : SpdmConn} {o : Output} (hi : Machine.exec i s = .next { s with chip := (s.chip.spdmWith k q x).out o }) :
    ∃ t, Machine.exec i s = .next t ∧ t.chip.spdm q = x ∧
      Effect s t (fun c => { c with mctp := { c.mctp with inbox := c.mctp.inbox.eraseIdx k, spdm := c.mctp.spdm.set q.binding (t.chip.spdm q) } }) [] [] [] [o] := by
  have shown : ((s.chip.spdmWith k q x).out o).spdm q = x := spdm_spdmWith _ _ _ _
  refine ⟨_, hi, shown, ?_⟩
  rw [shown]
  exact ((Effect.start s).mctpUpd fun h => { h with inbox := h.inbox.eraseIdx k, spdm := h.spdm.set q.binding x }).out o

theorem spdmError_eq (c : Chip) (q : MctpMsg) (code data : Nat) : c.spdmError q code data [] = c.out (.mctp q.binding q.src 5 [0x12, 0x7f, BitVec.ofNat 8 code, BitVec.ofNat 8 data]) := rfl

/-! ### Responses that wait for a signature, and measurements -/

theorem spdmWith_freshBytes (c : Chip) (k : Nat) (q : MctpMsg) (x : SpdmConn) (n : Nat) :
    (c.spdmWith k q x).freshBytes n = (c.freeNext.spdmWith k q x, bytesLE n c.freeVal) := rfl

/-- How a response with a transcript joins those that wait for a signature. -/
structure Chip.Signs (c t : Chip) (k : Nat) (q : MctpMsg) (x : SpdmConn) (body transcript : List Byte) : Prop where
  outbox : t.outbox = c.outbox
  inbox : t.mctp.inbox = c.mctp.inbox.eraseIdx k
  signing : t.mctp.signing = c.mctp.signing ++ [⟨q.binding, q.src, q.tag, body, transcript⟩]
  spdm : t.spdm q = x
  faultQ : t.faultQ = c.faultQ
  regs : t.regs = c.regs

theorem spdmSign_signs (c : Chip) (k : Nat) (q : MctpMsg) (x : SpdmConn) (body transcript : List Byte) :
    c.Signs ((c.freeNext.spdmWith k q x).spdmSign q body transcript) k q x body transcript :=
  ⟨rfl, rfl, rfl, spdm_spdmWith c.freeNext k q x, rfl, rfl⟩

theorem Chip.Signs.queue {c t : Chip} {k : Nat} {q : MctpMsg} {x : SpdmConn} {body transcript : List Byte} (h : c.Signs t k q x body transcript) :
    t.mctp.signing.length = c.mctp.signing.length + 1 ∧ t.mctp.signing.take c.mctp.signing.length = c.mctp.signing ∧
      ∀ j ∈ t.mctp.signing.drop c.mctp.signing.length, j = ⟨q.binding, q.src, q.tag, body, transcript⟩ := by
  simp [h.signing]

theorem keeps_of_regs {s : State} {c : Chip} (h : c.regs = s.chip.regs) : Keeps s { s with chip := c } fun _ => false :=
  ⟨rfl, rfl, fun o _ => by simp only [Chip.reg, h]⟩

/-- Block 6 holds the epoch. -/
theorem measBlock_epoch (c : Chip) (m : List Host.Cell) : c.measBlock m 6 = some ([6, 1, 11, 0, 0x83, 8, 0] ++ bytesLE 8 c.epoch) := by
  simp [Chip.measBlock, Chip.measValue, bytesLE]

/-- Two of the nine blocks are those of the running image. -/
theorem length_measAll (c : Chip) (m : List Host.Cell) : (c.measAll m).length = if c.fw.released then 9 else 7 := by
  cases h : c.fw.released <;> simp [Chip.measAll, Chip.measBlock, Chip.measValue, List.range_succ_eq_map, h]

/-- The unsigned answer with block 6 alone: a header, the block, a nonce and no opaque data. -/
def epochMeasurement (c : Chip) : List Byte :=
  [0x12, 0x60, 0, 0, 1, 15, 0, 0] ++ ([6, 1, 11, 0, 0x83, 8, 0] ++ bytesLE 8 c.epoch) ++ bytesLE 32 c.freeVal ++ [0, 0]

/-- The signed answer with the number of blocks. -/
def blockCount (c : Chip) : List Byte := [0x12, 0x60, if c.fw.released then 9 else 7, 0, 0, 0, 0, 0] ++ bytesLE 32 c.freeVal ++ [0, 0]

/-- An SPDM request holds at least its four bytes of header. -/
theorem four_le_of_spdm {q : MctpMsg} {code : Nat} (h : q.kind = some (0x200 + code)) : 4 ≤ q.spdm.length := by
  unfold MctpMsg.kind at h
  split at h
  · split at h
    · next control => simp only [Bool.and_eq_true, decide_eq_true_eq] at control; simp at h; omega
    · cases h
  · split at h
    · split at h
      · simp at h; omega
      · cases h
    · split at h
      · split at h
        · next spdm => simp only [Bool.and_eq_true, decide_eq_true_eq] at spdm; simp [MctpMsg.spdm]; omega
        · cases h
      · cases h

/-- Settles O57: every answer is the request's connection changed and one message, or one response more that waits for its signature. -/
theorem spdmAnswersItsRequests : Obligations.SpdmAnswersItsRequests := by
  refine ⟨?_, ?_, ?_, ?_, ?_, ?_, ?_, ?_, ?_, ?_, ?_, ?_, ?_, ?_⟩
  · intro s k q up waits kind version
    have answer : s.chip.spdmVersion k = (s.chip.spdmWith k q { stage := 1, vca := q.spdm ++ [0x10, 0x04, 0, 0, 0, 1, 0, 0x12], handle := (s.chip.spdm q).handle }).out
        (.mctp q.binding q.src 5 [0x10, 0x04, 0, 0, 0, 1, 0, 0x12]) := by
      rw [Chip.spdmVersion, mctpAnswer_of_awaits ⟨up, waits, kind⟩, if_neg (not_not.mpr version), ← spdmWith_self s.chip k q]
      dsimp only
      rw [spdmUpd_spdmWith]
      rfl
    exact spdm_told (exec_chip rfl answer)
  · intro s k q up waits kind version
    have answer : s.chip.spdmVersion k = (s.chip.mctpTaken k).out (.mctp q.binding q.src 5 [0x12, 0x7f, 0x41, 0]) := by
      rw [Chip.spdmVersion, mctpAnswer_of_awaits ⟨up, waits, kind⟩, if_pos version]
      rfl
    exact ⟨_, exec_chip rfl answer, Effect.mctpAnswered s k _⟩
  · intro s k q up waits kind version stage long least most
    refine spdm_told (exec_chip rfl ?_)
    change s.chip.spdmCapabilities k = _
    rw [Chip.spdmCapabilities, spdmAnswer_ready ⟨up, waits, kind⟩ version stage long]
    dsimp only
    rw [if_neg (by simp; omega), spdmUpd_spdmWith]
    rfl
  · intro s k q up waits kind version stage
    refine spdm_told (exec_chip rfl ?_)
    change s.chip.spdmCapabilities k = _
    rw [Chip.spdmCapabilities, spdmAnswer_of_awaits ⟨up, waits, kind⟩ version]
    exact if_pos stage
  · intro s k q up waits kind version stage long meas asym hash
    refine spdm_told (exec_chip rfl ?_)
    change s.chip.spdmAlgorithms k = _
    rw [Chip.spdmAlgorithms, spdmAnswer_ready ⟨up, waits, kind⟩ version stage long]
    simp only [meas, asym, hash, spdmUpd_spdmWith]
    rfl
  · intro s k q up waits kind version stage size
    refine spdm_told (exec_chip rfl ?_)
    change s.chip.spdmDigests k = _
    have long : 4 ≤ q.spdm.length := four_le_of_spdm (code := 0x81) kind
    rw [Chip.spdmDigests, spdmAnswer_ready ⟨up, waits, kind⟩ version stage long, Chip.spdmCert, spdmUpd_spdmWith, spdmSend_whole (by simpa [SpdmConn.atRequest] using size)]
    rfl
  · intro s k q up waits kind version stage whole size long slot
    have ready : s.chip.spdmCertificate k = _ := spdmAnswer_ready ⟨up, waits, kind⟩ version stage long _
    by_cases offset : certChain.length ≤ fieldLE q.spdm 4 2
    · rw [if_pos (by simp [offset]), spdmError_eq] at ready
      exact ⟨_, exec_chip rfl ready, rfl, rfl, by simp, rfl, keeps_of_regs rfl, fun _ => rfl, fun h => absurd h (Nat.not_lt.mpr offset)⟩
    · have chunks : ((s.chip.spdm q).atRequest 0x82).chunks = false := whole
      rw [if_neg (by simp [slot, offset])] at ready
      simp only [spdm_spdmWith, chunks, Bool.false_eq_true, if_false, Chip.spdmCert, spdmUpd_spdmWith] at ready
      rw [spdmSend_whole (by simp [SpdmConn.atRequest]; omega)] at ready
      exact ⟨_, exec_chip rfl ready, rfl, rfl, by simp, rfl, keeps_of_regs rfl, fun h => absurd h offset, fun _ => rfl⟩
  · intro s k q up waits kind version stage long param type
    have ready : s.chip.spdmChallenge s.nvm k = _ := spdmAnswer_ready ⟨up, waits, kind⟩ version stage long _
    have signs : s.chip.Signs (s.chip.spdmChallenge s.nvm k) k q { (s.chip.spdm q).atRequest 0x83 with cert := [] }
        ([0x12, 0x03, 0, 1] ++ sha384 certChain ++ bytesLE 32 s.chip.freeVal ++ [] ++ [0, 0])
        ((s.chip.spdm q).vca ++ (s.chip.spdm q).cert ++ q.spdm ++ ([0x12, 0x03, 0, 1] ++ sha384 certChain ++ bytesLE 32 s.chip.freeVal ++ [] ++ [0, 0])) := by
      rw [ready, if_neg (by simp [param, type])]
      simp only [spdmWith_freshBytes, type, if_true, spdm_spdmWith, spdmUpd_spdmWith]
      exact spdmSign_signs _ _ _ _ _ _
    obtain ⟨length, before, last⟩ := signs.queue
    refine ⟨_, rfl, signs.outbox, signs.inbox, length, before, fun j hj => ?_, signs.spdm, signs.faultQ, keeps_of_regs signs.regs⟩
    rw [last j hj]
    exact ⟨rfl, rfl, rfl, by simp, by simp, by simp [List.drop_append], by simp⟩
  · intro s k q up waits kind version stage size unsigned op
    have answer : s.chip.spdmMeasurements s.nvm k = (s.chip.freeNext.spdmWith k q { s.chip.spdm q with large := none, meas := (s.chip.spdm q).meas ++ q.spdm ++ epochMeasurement s.chip }).out
        (.mctp q.binding q.src 5 (epochMeasurement s.chip)) := by
      rw [Chip.spdmMeasurements, spdmAnswer_ready ⟨up, waits, kind⟩ version stage (four_le_of_spdm (code := 0xe0) kind)]
      simp only [op, unsigned, measBlock_epoch, spdmWith_freshBytes, spdm_spdmWith, spdmUpd_spdmWith, OfNat.ofNat_ne_zero, Nat.reduceEqDiff, zero_ne_one, decide_false, Bool.false_and,
        Bool.false_eq_true, if_false, Option.map_some, List.flatten_cons, List.flatten_nil, List.append_nil, List.length_append, length_bytesLE, List.length_cons, List.length_nil, Nat.reduceAdd]
      exact spdmSend_whole (c := s.chip.freeNext.spdmWith k q { s.chip.spdm q with large := none, meas := (s.chip.spdm q).meas ++ q.spdm ++ epochMeasurement s.chip }) (q := q)
        (r := epochMeasurement s.chip) (by simp [epochMeasurement]; omega)
    refine ⟨_, exec_chip rfl answer, rfl, rfl, by simp, ⟨epochMeasurement s.chip, ?_, ?_, ?_, ?_, ?_⟩, rfl, keeps_of_regs rfl⟩
    · simp
    · simp [epochMeasurement]
    · simp [epochMeasurement]
    · simp [epochMeasurement, List.drop_append]
    · exact spdm_spdmWith s.chip.freeNext k q _
  · intro s k q up waits kind version stage signed op long slot
    have signs : s.chip.Signs (s.chip.spdmMeasurements s.nvm k) k q { s.chip.spdm q with large := none, meas := [] } (blockCount s.chip)
        ((s.chip.spdm q).vca ++ (s.chip.spdm q).meas ++ q.spdm ++ blockCount s.chip) := by
      have blocks : bytesLE 1 ((s.chip.spdmWith k q ((s.chip.spdm q).atRequest 0xe0)).measAll s.nvm).length = [if s.chip.fw.released then 9 else 7] := by
        rw [length_measAll]
        change bytesLE 1 (if s.chip.fw.released then 9 else 7) = _
        split <;> rfl
      rw [Chip.spdmMeasurements, spdmAnswer_ready ⟨up, waits, kind⟩ version stage (four_le_of_spdm (code := 0xe0) kind)]
      simp only [op, signed, spdmWith_freshBytes, spdm_spdmWith, spdmUpd_spdmWith, if_true, blocks]
      rw [if_neg (by simp [slot]; omega)]
      exact spdmSign_signs _ _ _ _ _ _
    obtain ⟨length, before, last⟩ := signs.queue
    refine ⟨_, rfl, signs.outbox, signs.inbox, length, before, fun j hj => ?_, signs.spdm, signs.faultQ, keeps_of_regs signs.regs⟩
    rw [last j hj]
    exact ⟨rfl, rfl, rfl, by simp [blockCount], by simp [blockCount], rfl⟩
  · intro s j l up waiting whole
    have size : (j.body ++ (List.range 96).map (Config.deviceSign s.chip.freeCtr j.transcript)).length ≤ (s.chip.mctp.spdm.get j.binding).size := by simpa using whole
    have answer : s.chip.signatureDone = (s.chip.freeNext.mctpUpd fun h => { h with signing := l }).out
        (.mctp j.binding j.src 5 (j.body ++ (List.range 96).map (Config.deviceSign s.chip.freeCtr j.transcript))) := by
      simp only [Chip.signatureDone, waiting]
      rw [if_neg (by simp [up])]
      exact spdmSend_whole (c := s.chip.freeNext.mctpUpd fun h => { h with signing := l }) (q := ⟨j.binding, j.src, j.tag, []⟩) size
    refine ⟨_, exec_chip rfl answer, ?_⟩
    exact ⟨rfl, rfl, rfl, SameBut.refl _ _, fun _ => rfl, rfl, (List.append_nil _).symm, rfl⟩
  · intro s idle
    have still : s.chip.signatureDone = s.chip := by simp only [Chip.signatureDone, idle]
    exact ⟨s, exec_chip (d := s.chip) rfl still, rfl⟩
  · intro s k q r up waits kind version stage long large handle number later sent whole
    refine spdm_told (exec_chip rfl ?_)
    change s.chip.spdmChunk k = _
    rw [Chip.spdmChunk, spdmAnswer_ready ⟨up, waits, kind⟩ version stage long]
    simp only [spdm_spdmWith, spdmUpd_spdmWith, SpdmConn.atRequest, if_true, large, handle, number, ne_eq, not_true_eq_false, decide_false, Bool.or_self, Bool.false_eq_true, if_false]
    have rest : min (r.length - (s.chip.spdm q).sent) ((s.chip.spdm q).size - 12) = r.length - (s.chip.spdm q).sent := by omega
    have all : (s.chip.spdm q).sent + (r.length - (s.chip.spdm q).sent) = r.length := by omega
    have tail : (r.drop (s.chip.spdm q).sent).take (r.length - (s.chip.spdm q).sent) = r.drop (s.chip.spdm q).sent := List.take_of_length_le (by simp)
    simp only [beq_eq_false_iff_ne.mpr later, Bool.false_eq_true, if_false, rest, all, tail, le_refl, decide_true, if_true, List.append_nil]
    rfl
  · intro s k q r up waits kind version stage long large handle number first sent size more
    refine spdm_told (exec_chip rfl ?_)
    change s.chip.spdmChunk k = _
    rw [Chip.spdmChunk, spdmAnswer_ready ⟨up, waits, kind⟩ version stage long]
    simp only [spdm_spdmWith, spdmUpd_spdmWith, SpdmConn.atRequest, if_true, large, handle, number, first, sent, ne_eq, not_true_eq_false, decide_false, Bool.or_self, Bool.false_eq_true, if_false]
    have part : min (r.length - 0) ((s.chip.spdm q).size - 16) = (s.chip.spdm q).size - 16 := by omega
    have more' : decide (r.length ≤ (s.chip.spdm q).size - 16) = false := by simpa using more
    simp only [beq_self_eq_true, if_true, part, more', Nat.zero_add, List.drop_zero, Bool.false_eq_true, if_false]
    rfl

end Sys2Proof.Machine

namespace Sys2Proof.Machine

/-! The PMBus reads (R435 to R440): a LINEAR11 word lies within one step of its fraction, a read that is valid answers and changes nothing, and one that is not latches its bit. -/

/-! A LINEAR11 word (R437; log entry 7). -/

/-- The fraction n / d in steps of 2 ^ (k − 16). -/
def linScale (n : Int) (d k : Nat) : Int × Nat := if k < 16 then (n * 2 ^ (16 - k), d) else (n, d * 2 ^ (k - 16))

/-- The exponents whose mantissa holds both neighbours of n / d. -/
def linFits (n : Int) (d : Nat) : List Nat :=
  (List.range 32).filter fun k => let q := (linScale n d k).1 / ((linScale n d k).2 : Int); decide (-1024 ≤ q) && decide (q < 1023)

/-- The word of an exponent and a mantissa. -/
def linWord (k : Nat) (m : Int) : Nat := (k + 16) % 32 * 2 ^ 11 + bitsOf 11 m

theorem linWord_lt (k : Nat) (m : Int) : linWord k m < 65536 := by
  unfold linWord bitsOf
  omega

theorem linWord_mantissa (k : Nat) {m : Int} (low : -1024 ≤ m) (high : m < 1024) : signedOf 11 (linWord k m) = m := by
  unfold linWord signedOf bitsOf
  norm_num
  omega

theorem linWord_exponent {k : Nat} (m : Int) (small : k < 32) : signedOf 5 (linWord k m / 2 ^ 11) = (k : Int) - 16 := by
  have top : linWord k m / 2 ^ 11 = (k + 16) % 32 := by unfold linWord bitsOf; omega
  rw [top]
  unfold signedOf
  norm_num
  omega

/-- A mantissa that is a neighbour of the scaled quotient gives a word within one step. -/
theorem linNear_linWord {n m : Int} {d k : Nat} (small : k < 32) (low : -1024 ≤ m) (high : m < 1024)
    (near : (m * (linScale n d k).2 - (linScale n d k).1).natAbs < (linScale n d k).2) : linNear (linWord k m) n d := by
  unfold linNear lin11Num lin11Den
  rw [linWord_mantissa k low high, linWord_exponent m small]
  unfold linScale at near
  split at near
  · rw [show ((k : Int) - 16).toNat = 0 by omega, show (-((k : Int) - 16)).toNat = 16 - k by omega]
    simpa using near
  · rw [show ((k : Int) - 16).toNat = k - 16 by omega, show (-((k : Int) - 16)).toNat = 0 by omega]
    have regroup : m * ((d * 2 ^ (k - 16) : Nat) : Int) - n = m * 2 ^ (k - 16) * d - n * ((2 ^ 0 : Nat) : Int) := by push_cast; ring
    rw [← regroup, Nat.mul_comm (2 ^ (k - 16))]
    exact near

/-- An open quotient is one of the two neighbours of the fraction. -/
theorem openDiv_near (c : Chip) (n : Int) {d : Nat} (pos : 0 < d) :
    (c.openDiv n d).2 ≤ n / d + 1 ∧ n / d ≤ (c.openDiv n d).2 ∧ ((c.openDiv n d).2 * d - n).natAbs < d := by
  have split := Int.mul_ediv_add_emod n d
  have lowRest := Int.emod_nonneg n (show (d : Int) ≠ 0 by omega)
  have highRest := Int.emod_lt_of_pos n (show (0 : Int) < d by omega)
  have exact' : n / d * d = n - n % d := by rw [Int.mul_comm]; omega
  rcases openDiv_cases c n d with ⟨even, h⟩ | ⟨rest, h | h⟩ <;> rw [h] <;> dsimp only <;> refine ⟨by omega, by omega, ?_⟩
  · omega
  · omega
  · have above : (n / d + 1) * (d : Int) - n = d - n % d := by rw [Int.add_mul, exact']; ring
    omega

/-- A division with an open rounding touches the free values alone. -/
theorem openDiv_free (c : Chip) (n : Int) (d : Nat) : (c.openDiv n d).1 = { c with freeCtr := (c.openDiv n d).1.freeCtr } := by
  unfold Chip.openDiv
  split <;> rfl

theorem lin11_free (c : Chip) (n : Int) (d : Nat) : (c.lin11 n d).1 = { c with freeCtr := (c.lin11 n d).1.freeCtr } :=
  openDiv_free c.freeNext _ _

theorem getD_mem_of_ne_nil {α : Type} {l : List α} (some : l ≠ []) (v : Nat) (a : α) : l.getD (v % max 1 l.length) a ∈ l := by
  have pos := List.length_pos_iff.mpr some
  have lt : v % max 1 l.length < l.length := lt_of_lt_of_eq (Nat.mod_lt _ (by omega)) (by omega)
  rw [List.getD_eq_getElem _ _ lt]
  exact List.getElem_mem lt

/-- The largest exponent fits every fraction below 1,023 of its steps. -/
theorem linFits_of_bounded {n : Int} {d : Nat} (pos : 0 < d) (low : -1024 * (d * 2 ^ 15 : Nat) ≤ n) (high : n < 1023 * (d * 2 ^ 15 : Nat)) : linFits n d ≠ [] := by
  have stepPos : (0 : Int) < (d * 2 ^ 15 : Nat) := by positivity
  have fits : 31 ∈ linFits n d :=
    List.mem_filter.mpr ⟨by simp, Bool.and_eq_true_iff.mpr ⟨decide_eq_true ((Int.le_ediv_iff_mul_le stepPos).mpr low), decide_eq_true ((Int.ediv_lt_iff_lt_mul stepPos).mpr high)⟩⟩
  exact List.ne_nil_of_mem fits

theorem lin11_near (c : Chip) {n : Int} {d : Nat} (pos : 0 < d) (fits : linFits n d ≠ []) : (c.lin11 n d).2 < 65536 ∧ linNear (c.lin11 n d).2 n d := by
  have chosen : (linFits n d).getD (c.freeVal % max 1 (linFits n d).length) 31 ∈ linFits n d := getD_mem_of_ne_nil fits _ _
  obtain ⟨k, hk⟩ : ∃ k, (linFits n d).getD (c.freeVal % max 1 (linFits n d).length) 31 = k := ⟨_, rfl⟩
  have word : (c.lin11 n d).2 = linWord k (c.freeNext.openDiv (linScale n d k).1 (linScale n d k).2).2 := by rw [← hk]; rfl
  rw [hk] at chosen
  obtain ⟨range, bounds⟩ := List.mem_filter.mp chosen
  simp only [Bool.and_eq_true, decide_eq_true_eq] at bounds
  have scalePos : 0 < (linScale n d k).2 := by unfold linScale; split <;> positivity
  obtain ⟨most, least, near⟩ := openDiv_near c.freeNext (linScale n d k).1 scalePos
  rw [word]
  exact ⟨linWord_lt _ _, linNear_linWord (List.mem_range.mp range) (by omega) (by omega) near⟩

/-! Reads that answer. -/

theorem pmbRead_valid {c : Chip} {valid : Nat → Bool} {f : Chip → Chip × List Byte} (up : c.reqUp .pmbus = true) (page : valid (c.get PMB.STAT_PAGE) = true) :
    c.pmbRead valid f = (f c).1.pmbReply (f c).2 := by
  rw [Chip.pmbRead, if_neg (by simp [up]), if_pos page]

theorem pmbOnly_valid {c : Chip} {pec : Pec} {valid : Nat → Bool} {f : Chip → Chip × List Byte} (up : c.reqUp .pmbus = true) (page : valid (c.get PMB.STAT_PAGE) = true) :
    c.pmbOnly false pec valid f = (f c).1.pmbReply (f c).2 := pmbRead_valid up page

theorem pmbFixed_valid {c : Chip} {pec : Pec} {valid : Nat → Bool} {l : List Byte} (up : c.reqUp .pmbus = true) (page : valid (c.get PMB.STAT_PAGE) = true) :
    c.pmbFixed false pec valid l = c.pmbReply l := pmbRead_valid (f := fun t => (t, l)) up page

section
variable {s : State} {i : Instr} {c : Chip} (run : Machine.exec i s = .next { s with chip := c })
include run

/-- A reply that takes nothing from the device. -/
theorem shows_of_reply {l : List Byte} (reply : c = s.chip.pmbReply l) : ∃ t, Machine.exec i s = .next t ∧ Effect s t id [] [] [] [.pmbus (some l)] :=
  ⟨_, exec_chip run reply, (Effect.start s).out _⟩

/-- A LINEAR11 reply. -/
theorem linReplies_of_reply {n : Int} {d : Nat} (reply : c = (s.chip.linReply n d).1.pmbReply (s.chip.linReply n d).2) (pos : 0 < d) (low : -1024 * (d * 2 ^ 15 : Nat) ≤ n)
    (high : n < 1023 * (d * 2 ^ 15 : Nat)) : ∃ t, Machine.exec i s = .next t ∧ LinReplies s t n d := by
  obtain ⟨small, near⟩ := lin11_near s.chip pos (linFits_of_bounded pos low high)
  have moved : Effect s { s with chip := { s.chip with freeCtr := (s.chip.lin11 n d).1.freeCtr } } (fun c => { c with freeCtr := (s.chip.lin11 n d).1.freeCtr }) [] [] [] [] :=
    (Effect.start s).innerStep (fun c => { c with freeCtr := (s.chip.lin11 n d).1.freeCtr }) rfl rfl rfl rfl rfl rfl
  rw [Chip.linReply, lin11_free] at reply
  exact ⟨_, exec_chip run reply, ⟨(s.chip.lin11 n d).2, small⟩, near, moved.out _⟩

end

/-! Reads that are refused. -/

theorem bitAt_eq_testBit (m k : Nat) : bitAt m k = m.testBit k := by
  rw [bitAt, Nat.testBit_eq_decide_div_mod_eq]
  rfl

theorem bitAt_or (a b k : Nat) : bitAt (a ||| b) k = (bitAt a k || bitAt b k) := by simp [bitAt_eq_testBit]

/-- The set of pages that a command acts on, page by page. -/
theorem bitAt_pmbMask (c : Chip) {q : Nat} (small : q < 65) : bitAt c.pmbMask q = c.pageIn q := by
  unfold Chip.pmbMask Chip.pageIn
  rw [bitAt_eq_testBit]
  dsimp only
  split
  · next all =>
    rw [all, pmbEvery, Nat.testBit_two_pow_sub_one]
    simp [small, show q ≤ 64 by omega]
  · next one =>
    rw [Nat.testBit_two_pow, beq_eq_false_iff_ne.mpr one, Bool.false_and, Bool.or_false]
    rfl

/-- A latch while HOST is on, after a change of registers that leaves PAGE. -/
theorem latches_pmbLatch {c u : Chip} (host : u.domOn .host = true) (status : u.pmb = c.pmb) {j b : Nat} : Latches c (u.pmbLatch c.pmbMask j b) c.pageIn j b := by
  intro q i
  have latched : (u.pmbLatch c.pmbMask j b).pmb.status = c.pmb.status.upd (8 * j + b) (· ||| c.pmbMask) := by
    rw [Chip.pmbLatch, if_pos host, ← status]
    rfl
  rw [latched, Tbl.get_upd]
  by_cases h : i.val = 8 * j + b
  · rw [if_pos h, bitAt_or, bitAt_pmbMask c q.isLt, h, decide_eq_true rfl, Bool.true_and]
  · rw [if_neg h, decide_eq_false h, Bool.false_and, Bool.or_false]

theorem pmbLatch_regAddr (c : Chip) (pages j b : Nat) : (c.pmbLatch pages j b).pmb.regAddr = c.pmb.regAddr := by
  unfold Chip.pmbLatch
  split <;> rfl

theorem host_of_pmbusUp {c : Chip} (up : c.reqUp .pmbus = true) : c.domOn .host = true := by
  simp only [Chip.reqUp, Bool.and_eq_true] at up
  exact up.2

theorem pmbRead_invalid {c : Chip} {valid : Nat → Bool} {f : Chip → Chip × List Byte} (up : c.reqUp .pmbus = true) (page : valid (c.get PMB.STAT_PAGE) = false) :
    c.pmbRead valid f = c.pmbBad c.pmbMask 7 := by
  rw [Chip.pmbRead, if_neg (by simp [up]), if_neg (by simp [page])]

section
variable {s : State} {i : Instr} {c : Chip} (run : Machine.exec i s = .next { s with chip := c })
include run

/-- A read on a page that has no such command. -/
theorem refuses_of_bad (up : s.chip.reqUp .pmbus = true) (refused : c = s.chip.pmbBad s.chip.pmbMask 7) : ∃ t, Machine.exec i s = .next t ∧ Latches s.chip t.chip s.chip.pageIn 4 7 ∧ Recorded s.chip t.chip PMB.EVT_CMLF PMB.EVTCNT_CMLCNT ∧
    t.chip.outbox = s.chip.outbox ++ [.pmbus none] ∧ Keeps s t (fun o => o == PMB.STAT || o == PMB.EVT || o == PMB.EVTCNT) := by
  have latched := pmbLatch_onlyIn s.chip s.chip.pmbMask 4 7
  have told : Chip.OnlyIn (fun o => o == PMB.STAT || o == PMB.EVT || o == PMB.EVTCNT) s.chip (s.chip.pmbBad s.chip.pmbMask 7) :=
    (((latched.mono (by simp_all)).put PMB.EVT_CMLF 1 rfl).put PMB.EVTCNT_CMLCNT _ rfl).upd rfl
  refine ⟨_, exec_chip run refused, latches_pmbLatch (host_of_pmbusUp up) rfl, ?_, ?_, rfl, rfl, told.same⟩
  · exact (recorded_event _ PMB.EVT_CMLF PMB.EVTCNT_CMLCNT 0xe2 rfl rfl rfl rfl rfl).congr (latched.get _ rfl).symm rfl rfl
  · exact congrArg (· ++ _) (pmbLatch_posts _ _ _ _).2.2.2

end

/-! The values read. -/

theorem signedOf_bounds {n : Nat} (pos : 0 < n) (v : Nat) : -(2 ^ (n - 1) : Nat) ≤ signedOf n v ∧ signedOf n v < (2 ^ (n - 1) : Nat) := by
  have double : 2 ^ n = 2 * 2 ^ (n - 1) := by rw [← Nat.pow_succ', Nat.succ_eq_add_one, Nat.sub_add_cancel pos]
  have lt := Nat.mod_lt v (Nat.two_pow_pos n)
  unfold signedOf
  split <;> omega

theorem getS_bounds (c : Chip) (f : Fld) (pos : 0 < f.width) : -(2 ^ (f.width - 1) : Nat) ≤ c.getS f ∧ c.getS f < (2 ^ (f.width - 1) : Nat) := signedOf_bounds pos _

/-- The stage temperatures are 12 bits wide. -/
theorem hotStage_bounds {c : Chip} {n : Nat} {v : Int} (h : c.hotStage n = some v) : -2048 ≤ v ∧ v < 2048 := by
  have each : ∀ p, -2048 ≤ c.getS (STB.STG_TEMP (dieOf p) (p % 32)) ∧ c.getS (STB.STG_TEMP (dieOf p) (p % 32)) < 2048 := fun p => getS_bounds c (STB.STG_TEMP (dieOf p) (p % 32)) (Nat.succ_pos 11)
  unfold Chip.hotStage at h
  refine List.foldlRecOn (motive := fun m => ∀ v, m = some v → -2048 ≤ v ∧ v < 2048) _ _ (fun v h => by cases h) (fun m ih p _ v h => ?_) v h
  cases m with
  | none => cases h; exact each p
  | some w =>
    cases h
    obtain ⟨low, high⟩ := ih w rfl
    obtain ⟨low', high'⟩ := each p
    omega

/-- READ_VOUT by the loop's estimate. -/
theorem voutNow_estimate {c : Chip} {q : Nat} (loop : q < 32) (old : (c.senseRes.get q).1 = 0 ∨ (c.senseRes.get q).1 + 10000 ≤ c.now) :
    c.voutNow q = (c, (c.get (LOOP.TARGET_VTGT q) : Int) - c.getS (LOOP.ERRMON_ECODE q)) := by
  unfold Chip.voutNow
  dsimp only
  rw [if_neg (by simp; omega), if_pos loop]

/-- READ_VOUT of an external rail with no recent result. -/
theorem voutNow_none {c : Chip} {q : Nat} (ext : 32 ≤ q) (old : (c.senseRes.get q).1 = 0 ∨ (c.senseRes.get q).1 + 10000 ≤ c.now) : c.voutNow q = (c, 0) := by
  unfold Chip.voutNow
  dsimp only
  rw [if_neg (by simp; omega), if_neg (by omega)]

/-- READ_VOUT by a result of the last 10 ms. -/
theorem voutNow_recent {c : Chip} {q : Nat} (some : (c.senseRes.get q).1 ≠ 0) (recent : c.now < (c.senseRes.get q).1 + 10000) :
    c.voutNow q = c.openDiv (signedOf 24 (c.senseRes.get q).2.1 * 20000) (2 ^ (c.senseRes.get q).2.2 * 2 ^ 23) := by
  unfold Chip.voutNow
  dsimp only
  rw [if_pos (by simp; omega)]

theorem satS_of_mem {v : Int} (low : -32768 ≤ v) (high : v ≤ 32767) : satS 16 v = v := by
  rw [satS, if_neg (by norm_num; omega), if_neg (by norm_num; omega)]

theorem pmbReadVout_valid {c : Chip} {pec : Pec} {q : Nat} (up : c.reqUp .pmbus = true) (page : c.get PMB.STAT_PAGE = q) (rail : q < 64) :
    c.pmbReadVout false pec = (c.voutNow q).1.pmbReply (bytesLE 2 (bitsOf 16 (satS 16 (c.voutNow q).2))) := by
  rw [Chip.pmbReadVout, pmbOnly_valid up (by rw [page]; exact decide_eq_true rail), page]

/-! A failing access of a phase die's register (R27, R440, R506). -/

theorem resendRest_onlyIn (c : Chip) (n : Nat) : c.OnlyIn (· == LINK.LINKSTAT n) (c.resendRest n) := by
  have resent : c.OnlyIn (· == LINK.LINKSTAT n) (c.forEach (List.range (3 - (c.dies.get n).resends)) fun _ u => u.event (LINK.LINKSTAT_ERRF n) (LINK.LINKSTAT_SFRETRY n) (0x18 + n)) :=
    (Chip.OnlyIn.refl _ c).forEach fun _ _ u => (((Chip.OnlyIn.refl (· == LINK.LINKSTAT n) u).put (LINK.LINKSTAT_ERRF n) _ (beq_self_eq_true _)).put (LINK.LINKSTAT_SFRETRY n) _ (beq_self_eq_true _)).upd rfl
  exact resent.upd rfl

/-- The resends are events alone. -/
theorem resendRest_posts (c : Chip) (n : Nat) : (c.resendRest n).pmb = c.pmb ∧ (c.resendRest n).faultQ = c.faultQ ∧ (c.resendRest n).outbox = c.outbox := by
  unfold Chip.resendRest Chip.forEach
  exact List.foldlRecOn (motive := fun t : Chip => t.pmb = c.pmb ∧ t.faultQ = c.faultQ ∧ t.outbox = c.outbox) _ _ ⟨rfl, rfl, rfl⟩ fun _ ih _ _ => ih

theorem dieAccess_lt {c : Chip} {o : Nat} (h : c.dieAccess o = true) : (o - dieWindow) / 0x20000 < 7 := by
  simp only [Chip.dieAccess, Bool.and_eq_true, decide_eq_true_eq] at h
  obtain ⟨⟨low, known⟩, -⟩ := h
  rw [regAt, if_neg (Nat.not_lt.mpr low)] at known
  by_cases inside : dieWindow ≤ o ∧ o < dieWindow + 7 * 0x20000
  · exact (Nat.div_lt_iff_lt_mul (by decide)).mpr (by omega)
  · simp [dieOfOff, inside] at known

/-- What a failing access leaves of the registers beside its own. -/
theorem accFail_onlyIn {c : Chip} {o : Nat} (die : c.dieAccess o = true) : c.OnlyIn (fun p => decide (p < 0x48)) (c.accFail o) := by
  have low := dieAccess_lt die
  have resent := (resendRest_onlyIn c ((o - dieWindow) / 0x20000 + 1)).mono (U := fun p => decide (p < 0x48)) fun p hp => by
    rw [beq_iff_eq.mp hp, LINK.LINKSTAT]
    exact decide_eq_true (by omega)
  exact (((resent.put ACC.ACCST_FAILF 1 rfl).put ACC.ACCCNT_FAILCNT _ rfl).put ACC.ACCST_LASTOFS o rfl).upd rfl

theorem recorded_accFail {c : Chip} {o : Nat} (die : c.dieAccess o = true) : Recorded c (c.accFail o) ACC.ACCST_FAILF ACC.ACCCNT_FAILCNT := by
  have low := dieAccess_lt die
  have resent := resendRest_onlyIn c ((o - dieWindow) / 0x20000 + 1)
  have told := recorded_event (c.resendRest ((o - dieWindow) / 0x20000 + 1)) ACC.ACCST_FAILF ACC.ACCCNT_FAILCNT 0 rfl rfl rfl rfl rfl
  refine told.congr (resent.get ACC.ACCCNT_FAILCNT ?_).symm (get_put_apart _ _ _ _ rfl rfl) (get_put_apart _ _ _ _ rfl rfl)
  rw [beq_eq_false_iff_ne, LINK.LINKSTAT, show ACC.ACCCNT_FAILCNT.off = 0x44 from rfl]
  omega

theorem pmbRegRead_fails {c : Chip} {m : List Host.Cell} (up : c.reqUp .pmbus = true) (die : c.dieAccess c.pmb.regAddr = true) :
    c.pmbRegRead m false = (((c.accFail c.pmb.regAddr).pmbLatch c.pmbMask 4 1).pmbAdvance).pmbReply [4, 0xff, 0xff, 0xff, 0xff] := by
  rw [Chip.pmbRegRead, pmbRead_valid up rfl]
  dsimp only
  rw [if_pos (by simp [die])]
  rfl

/-- Settles O54: a valid read answers with what its row names, and any other latches bit 7. -/
theorem pMBusReadsShowTheDevice : Obligations.PMBusReadsShowTheDevice := by
  have loopPage : ∀ {c : Chip} {n : LoopId}, c.get PMB.STAT_PAGE = n.val → pgLoop (c.get PMB.STAT_PAGE) = true := fun {c n} h => by rw [h]; exact decide_eq_true n.isLt
  have railPage : ∀ {c : Chip} {r : RailId}, c.get PMB.STAT_PAGE = r.val → pgRail (c.get PMB.STAT_PAGE) = true := fun {c r} h => by rw [h]; exact decide_eq_true r.isLt
  have inputPage : ∀ {c : Chip}, c.get PMB.STAT_PAGE = 0x40 → pgInput (c.get PMB.STAT_PAGE) = true := fun h => by rw [h]; rfl
  refine ⟨?_, ?_, ?_, ?_, ?_, ?_, ?_, ?_, ?_, ?_, ?_, ?_, ?_, ?_⟩
  · intro s pec up
    refine ⟨?_, ?_, ?_, ?_, ?_, ?_, ?_, ?_, ?_, ?_, ?_, ?_⟩
    · exact shows_of_reply rfl (by beta_reduce; rw [Chip.pmbPage, pmbRead_valid up rfl])
    · exact shows_of_reply rfl (by beta_reduce; rw [Chip.pmbProtect, pmbRead_valid up rfl])
    · exact shows_of_reply rfl (pmbFixed_valid up rfl)
    · exact shows_of_reply rfl (pmbFixed_valid up rfl)
    · exact shows_of_reply rfl (by beta_reduce; rw [Chip.pmbId, pmbFixed_valid up rfl]; rfl)
    · exact shows_of_reply rfl (by beta_reduce; rw [Chip.pmbModel, pmbFixed_valid up rfl]; rfl)
    · exact shows_of_reply rfl (by beta_reduce; rw [Chip.pmbRevision, pmbOnly_valid up rfl]; rfl)
    · exact shows_of_reply rfl (by beta_reduce; rw [Chip.pmbSerial, pmbOnly_valid up rfl]; rfl)
    · exact shows_of_reply rfl (by beta_reduce; rw [Chip.pmbRegAddr, pmbRead_valid up rfl]; rfl)
    · exact shows_of_reply rfl (by beta_reduce; rw [Chip.pmbSummary, pmbOnly_valid up rfl]; rfl)
    · exact shows_of_reply rfl (by beta_reduce; rw [Chip.pmbEpoch, pmbOnly_valid up rfl]; rfl)
    · exact shows_of_reply rfl (by beta_reduce; rw [Chip.pmbSeqState, pmbOnly_valid up rfl]; rfl)
  · intro s n pec up page
    have loop := loopPage page
    have small : ∀ f : Fld, f.width ≤ 18 → s.chip.get f < 2 ^ 18 := fun f hf => lt_of_lt_of_le (get_lt_two_pow s.chip f) (Nat.pow_le_pow_right (by decide) hf)
    have rate := small (AVSL.SLEW_SLEWCMD n.val) (Nat.le_of_ble_eq_true rfl)
    have limit := small (AVSL.ILIM_ILIM n.val) (Nat.le_of_ble_eq_true rfl)
    obtain ⟨low, high⟩ : -2 ^ 17 ≤ s.chip.getS (LOOP.ISUM_ISUM n.val) ∧ s.chip.getS (LOOP.ISUM_ISUM n.val) < 2 ^ 17 := getS_bounds s.chip (LOOP.ISUM_ISUM n.val) (Nat.succ_pos 17)
    refine ⟨?_, ?_, ?_, ?_, ?_, ?_, ?_⟩
    · exact shows_of_reply rfl (pmbFixed_valid up loop)
    · exact shows_of_reply rfl (by beta_reduce; rw [Chip.pmbVoutRead, pmbRead_valid up loop, wordReply, page])
    · exact shows_of_reply rfl (by beta_reduce; rw [Chip.pmbVoutMax, pmbOnly_valid up loop, wordReply, page])
    · exact shows_of_reply rfl (by beta_reduce; rw [Chip.pmbVoutMin, pmbOnly_valid up loop, wordReply, page])
    · exact linReplies_of_reply rfl (by beta_reduce; rw [Chip.pmbRateRead, pmbRead_valid up loop, page]) (by decide) (by omega) (by omega)
    · exact linReplies_of_reply rfl (by beta_reduce; rw [Chip.pmbOcLimit, pmbOnly_valid up loop, page]) (by decide) (by omega) (by omega)
    · exact linReplies_of_reply rfl (by beta_reduce; rw [Chip.pmbIout, pmbOnly_valid up loop, page]) (by decide) (by omega) (by omega)
  · intro s n pec up page old
    have estimate := voutNow_estimate n.isLt old
    have target := get_lt_two_pow s.chip (LOOP.TARGET_VTGT n.val)
    obtain ⟨lowCode, highCode⟩ : -2 ^ 11 ≤ s.chip.getS (LOOP.ERRMON_ECODE n.val) ∧ s.chip.getS (LOOP.ERRMON_ECODE n.val) < 2 ^ 11 :=
      getS_bounds s.chip (LOOP.ERRMON_ECODE n.val) (Nat.succ_pos 11)
    obtain ⟨lowSum, highSum⟩ : -2 ^ 17 ≤ s.chip.getS (LOOP.ISUM_ISUM n.val) ∧ s.chip.getS (LOOP.ISUM_ISUM n.val) < 2 ^ 17 := getS_bounds s.chip (LOOP.ISUM_ISUM n.val) (Nat.succ_pos 17)
    replace target : s.chip.get (LOOP.TARGET_VTGT n.val) < 2 ^ 14 := target
    have power : (((s.chip.get (LOOP.TARGET_VTGT n.val) : Int) - s.chip.getS (LOOP.ERRMON_ECODE n.val)) * s.chip.getS (LOOP.ISUM_ISUM n.val)).natAbs ≤ 2 ^ 15 * 2 ^ 17 := by
      rw [Int.natAbs_mul]
      exact Nat.mul_le_mul (by omega) (by omega)
    refine ⟨?_, ?_⟩
    · exact shows_of_reply rfl (by beta_reduce; rw [pmbReadVout_valid up page (by omega), estimate])
    · refine linReplies_of_reply rfl ?_ (by decide) (by omega) (by omega)
      beta_reduce
      rw [Chip.pmbPout, pmbOnly_valid up (loopPage page), page, estimate]
  · intro s r pec up page ext old
    exact shows_of_reply rfl (by beta_reduce; rw [pmbReadVout_valid up page r.isLt, voutNow_none ext old]; dsimp only; rw [satS_of_mem (v := 0) (by decide) (by decide)]; rfl)
  · intro s r pec v up page some recent low high least most
    have pos : 0 < 2 ^ (s.chip.senseRes.get r.val).2.2 * 2 ^ 23 := by positivity
    have quotient : signedOf 24 (s.chip.senseRes.get r.val).2.1 * 20000 / ((2 ^ (s.chip.senseRes.get r.val).2.2 * 2 ^ 23 : Nat) : Int) = v :=
      le_antisymm (Int.lt_add_one_iff.mp ((Int.ediv_lt_iff_lt_mul (by omega)).mpr most)) ((Int.le_ediv_iff_mul_le (by omega)).mpr least)
    obtain ⟨above, below, -⟩ := openDiv_near s.chip (signedOf 24 (s.chip.senseRes.get r.val).2.1 * 20000) pos
    have free := openDiv_free s.chip (signedOf 24 (s.chip.senseRes.get r.val).2.1 * 20000) (2 ^ (s.chip.senseRes.get r.val).2.2 * 2 ^ 23)
    have reply := pmbReadVout_valid (pec := pec) up page r.isLt
    rw [quotient] at above below
    rw [voutNow_recent some recent, free, satS_of_mem (by omega) (by omega)] at reply
    refine ⟨_, exec_chip rfl reply, ?_, rfl, rfl, rfl, rfl, fun _ _ => rfl⟩
    obtain same | next := (by omega : (s.chip.openDiv (signedOf 24 (s.chip.senseRes.get r.val).2.1 * 20000) (2 ^ (s.chip.senseRes.get r.val).2.2 * 2 ^ 23)).2 = v ∨
      (s.chip.openDiv (signedOf 24 (s.chip.senseRes.get r.val).2.1 * 20000) (2 ^ (s.chip.senseRes.get r.val).2.2 * 2 ^ 23)).2 = v + 1)
    · exact .inl (by rw [same]; rfl)
    · exact .inr (by rw [next]; rfl)
  · intro s pec up page
    have input := inputPage page
    have vin : s.chip.get HSW.VI_VIN < 2 ^ 16 := get_lt_two_pow s.chip HSW.VI_VIN
    have pin : s.chip.get HSW.PV_PIN < 2 ^ 16 := get_lt_two_pow s.chip HSW.PV_PIN
    obtain ⟨lowIin, highIin⟩ : -2 ^ 15 ≤ s.chip.getS HSW.VI_IIN ∧ s.chip.getS HSW.VI_IIN < 2 ^ 15 := getS_bounds s.chip HSW.VI_IIN (by decide)
    obtain ⟨lowTj, highTj⟩ : -2 ^ 11 ≤ s.chip.getS THM.STAT_HUBTJ ∧ s.chip.getS THM.STAT_HUBTJ < 2 ^ 11 := getS_bounds s.chip THM.STAT_HUBTJ (by decide)
    refine ⟨?_, ?_, ?_, ?_⟩
    · exact linReplies_of_reply rfl (by beta_reduce; rw [Chip.pmbVin, pmbOnly_valid up input]) (by decide) (by omega) (by omega)
    · exact linReplies_of_reply rfl (by beta_reduce; rw [Chip.pmbIin, pmbOnly_valid up input]) (by decide) (by omega) (by omega)
    · exact linReplies_of_reply rfl (by beta_reduce; rw [Chip.pmbPin, pmbOnly_valid up input]) (by decide) (by omega) (by omega)
    · refine linReplies_of_reply rfl ?_ (by decide) (by omega) (by omega)
      beta_reduce
      rw [Chip.pmbTemp, pmbOnly_valid up (by simp [input]), page]
      rfl
  · intro s n pec v up page hot
    obtain ⟨low, high⟩ := hotStage_bounds hot
    refine linReplies_of_reply rfl ?_ (by decide) (by omega) (by omega)
    beta_reduce
    rw [Chip.pmbTemp, pmbOnly_valid up (by simp [loopPage page]), page]
    dsimp only
    rw [if_neg (by omega), hot]
  · intro s r pec up page
    refine ⟨?_, ?_⟩
    · exact shows_of_reply rfl (by beta_reduce; rw [Chip.pmbOperation, Option.isSome_none, pmbOnly_valid up (railPage page), page])
    · exact shows_of_reply rfl (by beta_reduce; rw [pmbFixed_valid up (railPage page)]; rfl)
  · intro s q up page
    have any : pgAny (s.chip.get PMB.STAT_PAGE) = true := by rw [page]; exact decide_eq_true (by omega)
    have listed : ∀ code : Nat, code ≠ 7 → s.chip.pmbStatus code none = s.chip.pmbReply (match statusByte code with
        | some j => bytesLE 1 (s.chip.pmbByte q.val j)
        | none => if code = 0 then bytesLE 1 (s.chip.pmbWord q.val) else bytesLE 2 (s.chip.pmbWord q.val)) := fun code other => by
      rw [Chip.pmbStatus, if_neg (by simpa using other), pmbRead_valid up any, page]
      cases statusByte code <;> rfl
    refine ⟨?_, ?_, ?_, ?_, ?_, ?_, ?_, ?_⟩
    all_goals exact shows_of_reply rfl (listed _ (by decide))
  · intro s q code other up page absent
    have refused : s.chip.pmbStatus code.val other = s.chip.pmbBad s.chip.pmbMask 7 := by
      rw [Chip.pmbStatus, if_pos (by simpa [Fin.ext_iff] using absent), pmbRead_invalid up rfl]
    obtain ⟨t, run, latches, told⟩ := refuses_of_bad (i := .statusRead ⟨code, other⟩) rfl up refused
    have one : ∀ p : Fin 65, s.chip.pageIn p.val = (p.val == q.val) := fun p => by
      rw [Chip.pageIn, page, show (q.val == 0xff) = false by simp; omega, Bool.false_and, Bool.or_false, Bool.beq_comm]
    exact ⟨t, run, fun p j => by rw [latches p j, one], told⟩
  · intro s pec up page
    have noLoop : pgLoop (s.chip.get PMB.STAT_PAGE) = false := decide_eq_false (by omega)
    have noRail : pgRail (s.chip.get PMB.STAT_PAGE) = false := decide_eq_false (by omega)
    obtain ⟨t, run, latches, told, out, -⟩ := refuses_of_bad (i := .readIout false pec) rfl up (by beta_reduce; rw [Chip.pmbIout, Chip.pmbOnly, if_neg (by decide), pmbRead_invalid up noLoop])
    exact ⟨⟨t, run, latches, told, out⟩, refuses_of_bad rfl up (by beta_reduce; rw [Chip.pmbOperation, Chip.pmbOnly, if_neg (by decide), pmbRead_invalid up noRail])⟩
  · intro s dieOk up reach aligned box on word pair claim window
    have answer : s.chip.pmbRegRead s.nvm dieOk = s.chip.pmbAdvance.pmbReply
        (4 :: bytesLE 4 (if (regAt s.chip.pmb.regAddr).isSome then (s.chip.readable s.chip.pmb.regAddr).toNat else 0)) := by
      rw [Chip.pmbRegRead, pmbRead_valid up rfl]
      dsimp only
      rw [if_neg (by obtain h | h := reach <;> simp [h]), busRead_plain ⟨aligned, box, on, word, pair, claim, window⟩ s.nvm up, Chip.plainWord]
      split <;> rfl
    have moved : Effect s { s with chip := s.chip.pmbAdvance } Chip.pmbAdvance [] [] [] [] := (Effect.start s).innerStep Chip.pmbAdvance rfl rfl rfl rfl rfl rfl
    exact ⟨_, exec_chip rfl answer, moved.out _⟩
  · intro s up die aligned
    have rest := accFail_onlyIn die
    obtain ⟨pmb, faults, outs⟩ := resendRest_posts s.chip ((s.chip.pmb.regAddr - dieWindow) / 0x20000 + 1)
    obtain ⟨-, -, faults', outs'⟩ := pmbLatch_posts (s.chip.accFail s.chip.pmb.regAddr) s.chip.pmbMask 4 1
    have kept : (s.chip.accFail s.chip.pmb.regAddr).pmb = s.chip.pmb := pmb
    have host : (s.chip.accFail s.chip.pmb.regAddr).domOn .host = true :=
      (congrArg (· != 0) (rest.get PWR.DOMSTAT_HOST rfl)).trans (host_of_pmbusUp up)
    refine ⟨_, exec_chip rfl (pmbRegRead_fails up die), latches_pmbLatch host kept, ?_, ?_, ?_, ?_⟩
    · have latch := pmbLatch_onlyIn (s.chip.accFail s.chip.pmb.regAddr) s.chip.pmbMask 4 1
      exact (recorded_accFail die).congr rfl (latch.get _ rfl) (latch.get _ rfl)
    · exact congrArg (fun a => (a + 4) % 2 ^ 32) ((pmbLatch_regAddr _ _ _ _).trans (congrArg PmbHw.regAddr kept))
    · exact congrArg (· ++ _) (outs'.trans outs)
    · exact faults'.trans (congrArg (· ++ _) faults)
  · intro s up
    have answer : s.chip.alertAnswer = s.chip.out (.pmbus (if s.chip.get PMB.STAT_ALERT = 1 then some (bytesLE 1 (2 * s.chip.get PMB.CFG_ADDR)) else none)) := by
      rw [Chip.alertAnswer, if_neg (by simp [up]), bit_eq_decide_one _ _ rfl]
      by_cases low : s.chip.get PMB.STAT_ALERT = 1 <;> simp [low, Chip.pmbReply]
    exact ⟨_, exec_chip rfl answer, (Effect.start s).out _⟩

end Sys2Proof.Machine

namespace Sys2Proof.Machine

/-! The hot-swap input (R294 to R304): what a sample counts with the gate low, the shorted FET, and the ways from QUALIFY to ON and from WAIT to QUALIFY. -/

/-- An operation that shows values: it writes registers of `T`, takes free values and changes nothing else. -/
structure Chip.Displays (T : Nat → Bool) (s t : Chip) : Prop where
  regs : Chip.OnlyIn T s t
  rest : t = { s with regs := t.regs, freeCtr := t.freeCtr }

namespace Chip.Displays

variable {T : Nat → Bool} {s t : Chip}

theorem refl (T : Nat → Bool) (s : Chip) : Displays T s s := ⟨.refl _ _, rfl⟩

theorem put (h : Displays T s t) (f : Fld) (v : Nat) (hf : T f.off = true) : Displays T s (t.put f v) := by
  obtain ⟨regs, rest⟩ := h
  refine ⟨regs.put f v hf, ?_⟩
  rw [rest]
  rfl

theorem openDiv (h : Displays T s t) (n : Int) (d : Nat) : Displays T s (t.openDiv n d).1 := by
  obtain ⟨regs, rest⟩ := h
  unfold Chip.openDiv
  split
  · exact ⟨regs, rest⟩
  · refine ⟨regs.upd rfl, ?_⟩
    dsimp only
    rw [rest]
    rfl

end Chip.Displays

theorem budShow_displays (c : Chip) : c.Displays (span 0x23000 0x23200) c.budShow := by
  unfold Chip.budShow Chip.putB
  dsimp only
  refine (((((Chip.Displays.put ?_ _ _ rfl).put _ _ rfl).put _ _ rfl).put _ _ rfl).put _ _ rfl).put _ _ rfl
  split
  · exact .refl _ c
  · exact ((Chip.Displays.refl _ c).openDiv _ _).openDiv _ _

theorem Chip.Displays.hsw {T : Nat → Bool} {s t : Chip} (h : s.Displays T t) : t.hsw = s.hsw := by rw [h.rest]

theorem Chip.Displays.now {T : Nat → Bool} {s t : Chip} (h : s.Displays T t) : t.now = s.now := by rw [h.rest]; rfl

/-- The conversions of one sample, and the means and the energy that it moves (R294). -/
def Chip.measured (s : Chip) (vins hsout : Nat) (shunt : Int) : Chip × InSample :=
  let s := s.gridTake gridInput 1
  let div := s.get HSW.SCALE_DIVV
  let rsh := s.get HSW.SCALE_RSH
  let (s, vin) := s.openDiv ((vins * div : Nat) : Int) 256
  let (s, vout) := s.openDiv ((hsout * div : Nat) : Int) 256
  let (s, iin) := if rsh = 0 then (s.freeNext, signedOf 32 s.freeVal) else s.openDiv (shunt * 1000) rsh
  let x : InSample := ⟨vin.toNat, vout.toNat, iin⟩
  let t := s.hswUpd fun h => { h with hist := (x :: h.hist).take 255, energy := h.energy + (x.vin : Int) * x.iin }
  let (t, e) := t.hswMeans.openDiv t.hsw.energy (10 ^ 15)
  ((t.put HSW.ENERGY_LO_ENL (bitsOf 64 e)).put HSW.ENERGY_HI_ENH (bitsOf 64 e / 2 ^ 32), x)

/-- The readings of the input monitor. -/
def inputReadings (o : Nat) : Bool := o == HSW.VI || o == HSW.PV || o == HSW.ENERGY_LO || o == HSW.ENERGY_HI

theorem hswMeans_displays (c : Chip) : c.Displays inputReadings c.hswMeans := by
  unfold Chip.hswMeans Chip.putS
  dsimp only
  exact ((((((((Chip.Displays.refl _ c).openDiv _ _).openDiv _ _).openDiv _ _).openDiv _ _).put _ _ rfl).put _ _ rfl).put _ _ rfl).put _ _ rfl

theorem Chip.Displays.trans {T : Nat → Bool} {s t u : Chip} (h : s.Displays T t) (k : t.Displays T u) : s.Displays T u :=
  ⟨h.regs.trans k.regs, by rw [k.rest, h.rest]⟩

/-- A sample that is taken: what it measures is then counted. -/
theorem inputSample_of_instant {c u : Chip} {x : InSample} {vins hsout : Nat} {shunt : Int} (hka : c.domOn .hka = true) (whole : c.power.isolated = false)
    (instant : c.gridOrTb3 gridInput 1 = true) (measured : c.measured vins hsout shunt = (u, x)) :
    ∃ ws, c.inputSample vins hsout shunt = (((u.hswCounts x).hswInrush x).hswSoa x).budShow.telSample 4 0 0 ws := by
  obtain ⟨rfl, rfl⟩ := Prod.mk.inj measured
  rw [Chip.inputSample, if_neg (by simp [hka, whole, instant])]
  exact ⟨_, rfl⟩

/-- What the measuring leaves, beside the sample that it puts before the others. -/
theorem measured_spec {c u : Chip} {x : InSample} {vins hsout : Nat} {shunt : Int} (measured : c.measured vins hsout shunt = (u, x)) :
    u.hsw = { c.hsw with hist := (x :: c.hsw.hist).take 255, energy := c.hsw.energy + (x.vin : Int) * x.iin } ∧ u.now = c.now ∧
      ∀ f : Fld, inputReadings f.off = false → u.get f = c.get f := by
  have free : ∀ (d : Chip) (rsh : Nat) (n : Int), d.Displays inputReadings (if rsh = 0 then (d.freeNext, signedOf 32 d.freeVal) else d.openDiv n rsh).1 := fun d rsh n => by
    split
    · exact ⟨(Chip.OnlyIn.refl _ d).upd rfl, rfl⟩
    · exact (Chip.Displays.refl _ d).openDiv _ _
  unfold Chip.measured at measured
  dsimp only at measured
  obtain ⟨moved, rfl⟩ := Prod.mk.inj measured
  subst moved
  have before := (((Chip.Displays.refl inputReadings (c.gridTake gridInput 1)).openDiv ((vins * (c.gridTake gridInput 1).get HSW.SCALE_DIVV : Nat) : Int) 256).openDiv
    ((hsout * (c.gridTake gridInput 1).get HSW.SCALE_DIVV : Nat) : Int) 256).trans (free _ ((c.gridTake gridInput 1).get HSW.SCALE_RSH) (shunt * 1000))
  have after := fun d : Chip => (((hswMeans_displays d).openDiv d.hsw.energy (10 ^ 15)).put HSW.ENERGY_LO_ENL (bitsOf 64 (d.hswMeans.openDiv d.hsw.energy (10 ^ 15)).2) rfl).put
    HSW.ENERGY_HI_ENH (bitsOf 64 (d.hswMeans.openDiv d.hsw.energy (10 ^ 15)).2 / 2 ^ 32) rfl
  refine ⟨?_, ?_, fun f hf => ?_⟩
  · rw [(after _).hsw, Chip.hswUpd, before.hsw]
    rfl
  · rw [(after _).now]
    exact before.now
  · rw [(after _).regs.get f hf]
    exact before.regs.get f hf

theorem telSample_hsw (c : Chip) (kind inst trig : Nat) (ws : List Word) : (c.telSample kind inst trig ws).hsw = c.hsw := by
  have produced : ∀ (d : Chip) (strm kind inst dec start : Nat) (words : List Word), (d.telProduce strm kind inst dec start words).hsw = d.hsw := fun d _ _ _ _ _ _ => by
    unfold Chip.telProduce
    dsimp only
    split <;> rfl
  unfold Chip.telSample
  split
  · rfl
  · dsimp only
    split
    · rfl
    · split
      · exact produced _ _ _ _ _ _ _
      · rfl

theorem hswInrush_counts (c : Chip) (x : InSample) : (c.hswInrush x).hsw.hist = c.hsw.hist ∧ (c.hswInrush x).hsw.shN = c.hsw.shN := by
  unfold Chip.hswInrush
  split <;> exact ⟨rfl, rfl⟩

theorem hswSoa_counts (c : Chip) (x : InSample) : (c.hswSoa x).hsw.hist = c.hsw.hist ∧ (c.hswSoa x).hsw.shN = c.hsw.shN := by
  unfold Chip.hswSoa
  split
  · exact ⟨rfl, rfl⟩
  · dsimp only
    rw [put_hsw, ((Chip.Displays.refl (fun _ => true) (c.hswUpd _)).openDiv _ _).hsw]
    exact ⟨rfl, rfl⟩

/-- The 1 ms after the gate went low (R304). -/
def Chip.gateQuiet (s : Chip) : Bool := match s.hsw.lowAt with | some a => decide (s.now < a + 1000) | none => false

theorem hswCounts_short (c : Chip) (x : InSample) (enabled : c.get HSW.CTRL_EN = 1) (off : c.get HSW.STAT_STATE ≠ 2) (off' : c.get HSW.STAT_STATE ≠ 3) :
    (c.hswCounts x).hsw.shN = if c.gateQuiet then c.hsw.shN else consec c.hsw.shN (decide (((62500 * c.get HSW.FAST_ISHORT : Nat) : Int) < x.iin)) :=
  if_neg (by simp [Chip.bit, Chip.hswState, enabled, off, off'])

/-- The count of samples above ISHORT, with the gate held low (R304). -/
theorem inputSample_short {c : Chip} (hka : c.domOn .hka = true) (whole : c.power.isolated = false) (instant : c.gridOrTb3 gridInput 1 = true) (enabled : c.get HSW.CTRL_EN = 1)
    (off : c.get HSW.STAT_STATE ≠ 2) (off' : c.get HSW.STAT_STATE ≠ 3) (vins hsout : Nat) (shunt : Int) :
    (c.inputSample vins hsout shunt).hsw.shN = if c.gateQuiet then c.hsw.shN
      else consec c.hsw.shN (decide (((62500 * c.get HSW.FAST_ISHORT : Nat) : Int) < ((c.inputSample vins hsout shunt).hsw.hist.headD ⟨0, 0, 0⟩).iin)) := by
  obtain ⟨⟨u, x⟩, measured⟩ : ∃ ux, c.measured vins hsout shunt = ux := ⟨_, rfl⟩
  obtain ⟨ws, sampled⟩ := inputSample_of_instant hka whole instant measured
  obtain ⟨hsw, now, same⟩ := measured_spec measured
  obtain ⟨hist, short⟩ := hswSoa_counts ((u.hswCounts x).hswInrush x) x
  obtain ⟨hist', short'⟩ := hswInrush_counts (u.hswCounts x) x
  have first : (c.inputSample vins hsout shunt).hsw.hist.headD ⟨0, 0, 0⟩ = x := by
    rw [sampled, telSample_hsw, (budShow_displays _).hsw, hist, hist', Chip.hswCounts]
    simp [Chip.hswUpd, hsw]
  have quiet : u.gateQuiet = c.gateQuiet := by rw [Chip.gateQuiet, hsw, now]; rfl
  have state := same HSW.STAT_STATE rfl
  rw [first, sampled, telSample_hsw, (budShow_displays _).hsw, short, short',
    hswCounts_short u x ((same HSW.CTRL_EN rfl).trans enabled) (state ▸ off) (state ▸ off'), quiet, same HSW.FAST_ISHORT rfl, hsw]

/-- Settles O35: the samples before 1 ms has passed since the gate went low leave the count. -/
theorem aShortedFetIsCaught : Obligations.AShortedFetIsCaught := by
  refine ⟨?_, ?_, ?_⟩
  · intro s vins hsout shunt hka whole instant enabled off off'
    have count := inputSample_short hka whole instant enabled off off' vins hsout shunt
    refine ⟨_, rfl, fun past => ?_, fun a low early => ?_⟩
    · have quiet : s.chip.gateQuiet = false := by
        unfold Chip.gateQuiet
        cases low : s.chip.hsw.lowAt with
        | none => rfl
        | some a => exact decide_eq_false (Nat.not_lt.mpr (past.resolve_left (by simp [low]) a (by simp [low])))
      rw [quiet, if_neg Bool.false_ne_true, consec] at count
      simpa using count
    · have quiet : s.chip.gateQuiet = true := by rw [Chip.gateQuiet, Option.mem_def.mp low]; exact decide_eq_true early
      exact count.trans (if_pos quiet)
  · intro s hka enabled off off' off'' short
    have caught : s.chip.shortedFet = (((((s.chip.put HSW.STAT_STATE 6).put HSW.STAT_CAUSE 8).put HSW.EVT_SHORTF 1).bell 8).raise ⟨0x8207, 0, s.chip.reg HSW.VI⟩) := by
      rw [Chip.shortedFet]
      dsimp only
      rw [if_pos (by simp [Chip.bit, Chip.hswState, enabled, hka, off, off', off'', short]), Chip.inputFault, reg_bell, Chip.flag, reg_put_other _ _ _ _ (by decide),
        reg_put_other _ _ _ _ (by decide), reg_put_other _ _ _ _ (by decide)]
    refine ⟨_, exec_chip rfl caught, ?_, ?_, ?_, ((((Effect.start s).put HSW.STAT_STATE 6).put HSW.STAT_CAUSE 8).put HSW.EVT_SHORTF 1).bell 8 |>.raise _⟩
    · rw [get_raise, get_bell, get_put_apart _ _ _ _ rfl rfl, get_put_apart _ _ _ _ rfl rfl, get_put_same _ _ _ rfl]
      rfl
    · rw [get_raise, get_bell, get_put_apart _ _ _ _ rfl rfl, get_put_same _ _ _ rfl]
      rfl
    · rw [get_raise, get_bell, get_put_same _ _ _ rfl]
      rfl
  · intro s none
    have idle : s.chip.shortedFet = s.chip := by
      rw [Chip.shortedFet]
      dsimp only
      refine if_neg fun all => ?_
      simp only [Bool.and_eq_true, decide_eq_true_eq, Chip.bit, bne_iff_ne] at all
      unfold Chip.hswState at all
      omega
    exact ⟨s, exec_chip (d := s.chip) rfl idle, rfl⟩

/-! To ON, and out of WAIT (R296 to R300, R303, R310). -/

/-- With the cold start's steps behind it, or with the input not ON, a change of the input's state begins none of them. -/
theorem coldStep8_of_done {c : Chip} (h : c.get HSW.STAT_STATE = 3 → c.fw.diesStep = true ∧ c.fw.autoDone = true) : c.coldStep8 = c := by
  by_cases on : c.get HSW.STAT_STATE = 3
  · obtain ⟨dies, auto⟩ := h on
    rw [Chip.coldStep8, if_neg (by simp [dies]), Chip.coldStep9]
    dsimp only
    rw [if_neg (by simp [auto])]
  · have off : c.inputOn = false := beq_eq_false_iff_ne.mpr on
    rw [Chip.coldStep8, if_neg (by simp [off]), Chip.coldStep9]
    dsimp only
    rw [if_neg (by simp [off])]

/-- The arbiter's requests that none refuses have their test, and the waits run (R308, R310). -/
def Chip.waitsRun (s : Chip) : Chip := s.budUpd fun b => { b with onSince := some s.now, queue := b.queue.map fun q => { q with untested := false } }

theorem budOn_of_fitting {c : Chip} (fitting : ∀ q ∈ c.bud.queue, q.untested = true → c.tooBig q.ask.peak = false) : c.budOn = c.waitsRun.budShow := by
  have kept : ∀ (l : List BudReq) (u : Chip), (∀ q ∈ l, u.tooBig q.ask.peak = false) →
      l.foldl (fun u q => if u.tooBig q.ask.peak then (u.unqueue q.ask.who).refuse q.ask.who 1 else u) u = u := fun l u h => by
    induction l with
    | nil => rfl
    | cons q l ih =>
      rw [List.foldl_cons, if_neg (by simp [h q (by simp)])]
      exact ih fun p hp => h p (List.mem_cons_of_mem _ hp)
  unfold Chip.budOn
  dsimp only
  rw [kept]
  · rfl
  · exact fun q hq => fitting q (List.mem_of_mem_filter hq) (List.mem_filter.mp hq).2

/-- The input's own part of becoming ON (R298, R300). -/
def Chip.inputTurnsOn (s : Chip) : Chip :=
  ((s.put HSW.STAT_STATE 3).hswUpd fun h => { h with onAt := s.now, uvN := 0, ovN := 0, tripAt := none }).put SEQ.GSTAT_INGOOD 1

theorem inputTurnsOn_onlyIn (c : Chip) : c.OnlyIn (fun o => o == HSW.STAT || o == SEQ.GSTAT) c.inputTurnsOn :=
  (((Chip.OnlyIn.refl _ c).put HSW.STAT_STATE 3 rfl).upd (u := (c.put HSW.STAT_STATE 3).hswUpd fun h => { h with onAt := c.now, uvN := 0, ovN := 0, tripAt := none }) rfl).put
    SEQ.GSTAT_INGOOD 1 rfl

/-- The budget's test asks the samples and the arbiter's configuration alone. -/
theorem tooBig_congr {c d : Chip} (hist : d.hsw.hist = c.hsw.hist) (regs : ∀ f : Fld, span 0x23000 0x23200 f.off = true → d.get f = c.get f) (peak : Nat) :
    d.tooBig peak = c.tooBig peak := by
  unfold Chip.tooBig Chip.currentFits Chip.vavgOk Chip.pbud Chip.ibud Chip.avgSums Chip.avgSamples
  rw [hist, regs BUD.CFG_PBUD rfl, regs BUD.CFG_IBUD rfl, regs BUD.RATE_AVGW rfl]

/-- The input becomes ON with no request to refuse. -/
theorem hswOn_of_fitting {c : Chip} (requal : c.hsw.requal = false) (fitting : ∀ q ∈ c.bud.queue, q.untested = true → c.tooBig q.ask.peak = false) :
    c.hswOn = c.inputTurnsOn.waitsRun.budShow := by
  have same : ∀ peak, c.inputTurnsOn.tooBig peak = c.tooBig peak := tooBig_congr rfl fun f hf => by
    have inBud : 0x23000 ≤ f.off ∧ f.off < 0x23200 := by simpa [span] using hf
    exact (inputTurnsOn_onlyIn c).get f (by simp [HSW.STAT, SEQ.GSTAT]; omega)
  have ready : c.inputTurnsOn.budOn = c.inputTurnsOn.waitsRun.budShow := budOn_of_fitting fun q mem untested => (same q.ask.peak).trans (fitting q mem untested)
  have stays : c.inputTurnsOn.budOn.hsw.requal = false := by rw [ready, (budShow_displays _).hsw]; exact requal
  exact (if_neg (fun h => Bool.false_ne_true (stays.symm.trans h))).trans ready

/-- With the input ON nothing inhibits the arbiter. -/
theorem inhibit_budShow {c : Chip} (on : c.get HSW.STAT_STATE = 3) : c.budShow.get BUD.STAT_INHIBIT = 0 := by
  have free : ∀ (d : Chip) (n : Int) (k : Nat), (d.openDiv n k).1.inputOn = d.inputOn := fun d n k => by
    unfold Chip.openDiv
    split <;> rfl
  have stays : c.inputOn = true := beq_iff_eq.mpr on
  unfold Chip.budShow Chip.putB
  dsimp only
  rw [get_put_same _ _ _ rfl]
  split
  · rw [stays]; rfl
  · rw [free, free, stays]; rfl

/-- What becoming ON shows, and what it leaves. -/
theorem hswOn_spec (s : State) {c : Chip} (on : c = s.chip.inputTurnsOn.waitsRun.budShow) : c.get HSW.STAT_STATE = 3 ∧ c.get SEQ.GSTAT_INGOOD = 1 ∧ c.get BUD.STAT_INHIBIT = 0 ∧
    c.hsw = { s.chip.hsw with onAt := s.chip.now, uvN := 0, ovN := 0, tripAt := none } ∧ c.fw = s.chip.fw ∧
    c.bud = { s.chip.bud with onSince := some s.chip.now, queue := s.chip.bud.queue.map fun q => { q with untested := false } } ∧ c.faultQ = s.chip.faultQ ∧ c.outbox = s.chip.outbox ∧
    Keeps s { s with chip := c } (fun o => o == HSW.STAT || o == SEQ.GSTAT || span 0x23000 0x23200 o) := by
  have shown := budShow_displays s.chip.inputTurnsOn.waitsRun
  have state : s.chip.inputTurnsOn.get HSW.STAT_STATE = 3 := by
    rw [Chip.inputTurnsOn, get_put_apart _ _ _ _ rfl rfl]
    exact get_put_same _ _ _ rfl
  have good : s.chip.inputTurnsOn.get SEQ.GSTAT_INGOOD = 1 := get_put_same _ _ _ rfl
  have changed := ((inputTurnsOn_onlyIn s.chip).upd (u := s.chip.inputTurnsOn.waitsRun) rfl).mono (U := fun o => o == HSW.STAT || o == SEQ.GSTAT || span 0x23000 0x23200 o) (by simp_all)
  subst on
  refine ⟨(shown.regs.get _ rfl).trans state, (shown.regs.get _ rfl).trans good, ?_, ?_, ?_, ?_, ?_, ?_, rfl, rfl, ?_⟩
  · exact inhibit_budShow state
  · rw [shown.rest]; rfl
  · rw [shown.rest]; rfl
  · rw [shown.rest]; rfl
  · rw [shown.rest]; rfl
  · rw [shown.rest]; rfl
  · exact (changed.trans (shown.regs.mono (by simp_all))).same

theorem hswLeaveWait_of_due {c : Chip} (state : c.get HSW.STAT_STATE = 4) (off : c.bit SEQ.GSTAT_ALLOFF = true)
    (due : ∀ a ∈ c.hsw.tripAt, a + 1000 * c.get HSW.RETRY_TRETRY ≤ c.now) : c.hswLeaveWait = c.hswQualify := by
  unfold Chip.hswLeaveWait Chip.hswState
  cases trip : c.hsw.tripAt with
  | none => exact if_pos (by simp [state, off])
  | some a => exact if_pos (by simp [state, off, due a (by simp [trip])])

theorem hswLeaveWait_of_early {c : Chip} (early : c.get HSW.STAT_STATE ≠ 4 ∨ c.bit SEQ.GSTAT_ALLOFF = false ∨ ∃ a ∈ c.hsw.tripAt, c.now < a + 1000 * c.get HSW.RETRY_TRETRY) :
    c.hswLeaveWait = c := by
  unfold Chip.hswLeaveWait Chip.hswState
  obtain other | on | ⟨a, trip, before⟩ := early
  · exact if_neg (by simp [other])
  · exact if_neg (by simp [on])
  · rw [Option.mem_def.mp trip]
    exact if_neg (by simp [Nat.not_le.mpr before])

/-- Settles O37: each way leads to its state with its own fields, and the cold start's steps, done before, add nothing. -/
theorem theInputQualifiesAndComesOn : Obligations.TheInputQualifiesAndComesOn := by
  refine ⟨?_, ?_, ?_, ?_, ?_, ?_, ?_, ?_⟩
  · intro s state enabled long
    have inrush : ((s.chip.put HSW.STAT_STATE 2).put HSW.STAT_GATE 1).get HSW.STAT_STATE = 2 := (get_put_apart _ _ _ _ rfl rfl).trans (get_put_same _ _ _ rfl)
    have entered : s.chip.hswQualified.coldStep8 =
        ((s.chip.put HSW.STAT_STATE 2).put HSW.STAT_GATE 1).hswUpd fun h => { h with inAt := s.chip.now, full := false, goodAt := none, soa := 0, cbN := 0 } := by
      have qualified : s.chip.hswQualified =
          ((s.chip.put HSW.STAT_STATE 2).put HSW.STAT_GATE 1).hswUpd fun h => { h with inAt := s.chip.now, full := false, goodAt := none, soa := 0, cbN := 0 } := by
        rw [Chip.hswQualified, if_pos (by simp [Chip.hswState, state, long]), if_pos (by simp [Chip.bit, enabled])]
      rw [qualified]
      exact coldStep8_of_done fun on => absurd (inrush.symm.trans on) (by decide)
    refine ⟨_, exec_chip rfl entered, inrush, get_put_same _ _ _ rfl, ?_⟩
    exact (((Effect.start s).put HSW.STAT_STATE 2).put HSW.STAT_GATE 1).innerStep (fun c => c.hswUpd fun h => { h with inAt := s.chip.now, full := false, goodAt := none, soa := 0, cbN := 0 })
      rfl rfl rfl rfl rfl rfl
  · intro s early done
    have idle : s.chip.hswQualified = s.chip := by
      refine if_neg fun due => ?_
      simp only [Bool.and_eq_true, decide_eq_true_eq] at due
      exact absurd due.2 (Nat.not_le.mpr (early due.1))
    exact ⟨s, exec_chip (d := s.chip) rfl (by beta_reduce; rw [idle, coldStep8_of_done done]), rfl⟩
  · intro s state disabled long requal dies auto empty
    have qualified : s.chip.hswQualified = s.chip.inputTurnsOn.waitsRun.budShow := by
      rw [Chip.hswQualified, if_pos (by simp [Chip.hswState, state, long]), if_neg (by simp [Chip.bit, disabled]), hswOn_of_fitting requal (by simp [empty])]
    obtain ⟨on, good, runs, hsw, fw, bud, faults, outs, keeps⟩ := hswOn_spec s qualified
    refine ⟨_, exec_chip rfl (coldStep8_of_done fun _ => ⟨by rw [fw, dies], by rw [fw, auto]⟩), on, good, runs,
      congrArg HswHw.onAt hsw, congrArg HswHw.uvN hsw, congrArg HswHw.ovN hsw, congrArg BudHw.onSince bud, by rw [bud], faults, outs, keeps⟩
  · intro s a w state good long requal dies auto only untested small
    have qualified : s.chip.hswInputGood = s.chip.inputTurnsOn.waitsRun.budShow := by
      rw [Chip.hswInputGood, good]
      dsimp only
      rw [if_pos (by simp [Chip.hswState, state, long]), hswOn_of_fitting requal (by simp [only, small])]
    obtain ⟨on, good, runs, hsw, fw, bud, faults, outs, keeps⟩ := hswOn_spec s qualified
    refine ⟨_, exec_chip rfl (coldStep8_of_done fun _ => ⟨by rw [fw, dies], by rw [fw, auto]⟩), on, good, runs,
      congrArg HswHw.onAt hsw, congrArg HswHw.uvN hsw, congrArg HswHw.ovN hsw, congrArg BudHw.onSince bud, (congrArg BudHw.queue bud).trans (by rw [only]; rfl), faults, outs, keeps⟩
  · intro s state off due
    have left : s.chip.retryExpire = (s.chip.put HSW.STAT_STATE 1).hswUpd fun h => { h with qualAt := s.chip.now } :=
      hswLeaveWait_of_due state (by simp [Chip.bit, off]) due
    refine ⟨_, exec_chip rfl left, get_put_same _ _ _ rfl, ?_⟩
    exact ((Effect.start s).put HSW.STAT_STATE 1).innerStep (fun c => c.hswUpd fun h => { h with qualAt := s.chip.now }) rfl rfl rfl rfl rfl rfl
  · intro s early
    have idle : s.chip.retryExpire = s.chip := hswLeaveWait_of_early (by simpa [Chip.bit] using early)
    exact ⟨s, exec_chip (d := s.chip) rfl idle, rfl⟩
  · intro s state long
    have reset : s.chip.triesReset = s.chip.put HSW.STAT_TRIES 0 := if_pos (by simp [Chip.hswState, state, long])
    exact ⟨_, exec_chip rfl reset, get_put_same _ _ _ rfl, (Effect.start s).put _ _⟩
  · intro s early
    have idle : s.chip.triesReset = s.chip := if_neg fun due => by
      simp only [Bool.and_eq_true, decide_eq_true_eq] at due
      exact early.elim (fun other => other due.1) fun before => absurd due.2 (Nat.not_le.mpr before)
    exact ⟨s, exec_chip (d := s.chip) rfl idle, rfl⟩

end Sys2Proof.Machine

namespace Sys2Proof.Machine

/-! The host rings (R419 to R433): polls and kicks, a ring that stops, moderation, and the telemetry records. -/

theorem kick_row : HIF.KICK % 4 = 0 ∧ (regAt HIF.KICK).isSome = true ∧ inMailbox HIF.KICK = false ∧ inMsix HIF.KICK = false ∧ plainReg HIF.KICK = true ∧
    pairMask HIF.KICK = 0 ∧ accMask HIF.KICK (· == .rw) = 0 ∧ lockMask HIF.KICK = 0 ∧ accMask HIF.KICK (· == .w1c) = 0 ∧ cntClears HIF.KICK = none := by decide +kernel

/-- A KICK that reaches its register. -/
theorem exec_kick (s : State) (req : Requester) (h : s.chip.reaches req HIF.KICK = true) : Machine.exec (.kick req) s = .next { s with chip := s.chip.kick } := by
  obtain ⟨aligned, known, box, msix, plain, pair, rw', lock, flags, cnt⟩ := kick_row
  have carries : Carries s.chip HIF.KICK 1 :=
    ⟨aligned, known, box, msix, plain, by simp [rw'], by simp [lock], by simp [pair], by simp [flags], fun b fs h => by simp [cnt] at h⟩
  have word : fldSet (s.chip.carry HIF.KICK) HIF.KICK_GO 1 = 1 := by
    rw [show s.chip.carry HIF.KICK = 0 by simp [Chip.carry, pair]]
    exact (by decide : wordPut 0 0 1 1 = 1)
  have run : Machine.exec (.kick req) s = .next { s with chip := s.chip.busWrite s.nvm req HIF.KICK (fldSet (s.chip.carry HIF.KICK) HIF.KICK_GO 1) true } := rfl
  rw [run, word, busWrite_carries _ _ _ _ _ _ h carries]
  rfl

/-! A ring that stops (R420, R421). -/

/-- A ring that does not run drops what is posted, and counts it. -/
theorem hostEvent_dropped {c : Chip} (core : c.domOn .core = true) (stopped : c.get (RING.STAT_STATE evtRing) ≠ 1) (type inst : Nat) (body : List Byte) :
    c.hostEvent type inst body = (c.hifUpd fun h => { h with evSeq := (h.evSeq + 1) % 2 ^ 16 }).ringDrop evtRing := by
  have halts : (c.hifUpd fun h => { h with evSeq := (h.evSeq + 1) % 2 ^ 16 }).ringRuns evtRing = false := by
    have state : ((c.hifUpd fun h => { h with evSeq := (h.evSeq + 1) % 2 ^ 16 }).get (RING.STAT_STATE evtRing) == 1) = false := beq_eq_false_iff_ne.mpr stopped
    rw [Chip.ringRuns, state, Bool.and_false]
  rw [Chip.hostEvent, if_neg (by simp [core])]
  exact if_pos (Bool.or_eq_true_iff.mpr (.inr (congrArg (! ·) halts)))

/-- What a ring that stops changes, with the event ring not running. -/
structure Chip.Stops (s t : Chip) (r : Nat) : Prop where
  regs : s.OnlyIn (fun o => o == HIF.EVT || o == HIF.EVTCNT || o == RING.STAT r || o == RING.CNT 16) t
  state : t.get (RING.STAT_STATE r) = 3
  recorded : Recorded s t HIF.EVT_RINGERRF HIF.EVTCNT_RINGERRCNT
  dmaCount : t.get HIF.EVTCNT_DMAERRCNT = s.get HIF.EVTCNT_DMAERRCNT
  faults : t.faultQ = s.faultQ
  outs : t.outbox = s.outbox
  busy : ∀ q, (t.rings.get q).busy = (s.rings.get q).busy

theorem hifEvent_onlyIn (c : Chip) (flag cnt : Fld) : c.OnlyIn (fun o => o == flag.off || o == cnt.off) (c.hifEvent flag cnt) :=
  (((Chip.OnlyIn.refl _ c).put flag 1 (by simp)).put cnt _ (by simp)).upd rfl

/-- A field of a ring's registers, or of PWR, reads the same after an event of the function. -/
theorem get_ringErrorEvent (c : Chip) {f : Fld} (evt : f.off ≠ HIF.EVT) (cnt : f.off ≠ HIF.EVTCNT) : (c.hifEvent HIF.EVT_RINGERRF HIF.EVTCNT_RINGERRCNT).get f = c.get f :=
  (hifEvent_onlyIn c _ _).get f (by simp [HIF.EVT_RINGERRF, HIF.EVTCNT_RINGERRCNT, evt, cnt])

theorem get_put_off_ne (c : Chip) (f g : Fld) (v : Nat) (h : g.off ≠ f.off) : (c.put f v).get g = c.get g := congrArg (wordField · g.lo g.width) (reg_put_other c f v g.off h)

theorem ringError_stops {c : Chip} {r : Nat} (other : r ≠ evtRing) (core : c.domOn .core = true) (stopped : c.get (RING.STAT_STATE evtRing) ≠ 1) : c.Stops (c.ringError r) r := by
  obtain ⟨u, told⟩ : ∃ u, (c.put (RING.STAT_STATE r) 3).hifEvent HIF.EVT_RINGERRF HIF.EVTCNT_RINGERRCNT = u := ⟨_, rfl⟩
  have moved : ∀ f : Fld, f.off ≠ HIF.EVT → f.off ≠ HIF.EVTCNT → u.get f = (c.put (RING.STAT_STATE r) 3).get f := fun f evt cnt => told ▸ get_ringErrorEvent _ evt cnt
  have far : RING.STAT evtRing ≠ RING.STAT r ∧ PWR.DOMSTAT ≠ RING.STAT r ∧ (∀ q, RING.STAT q ≠ HIF.EVT) ∧ (∀ q, RING.STAT q ≠ HIF.EVTCNT) ∧
      RING.STAT r ≠ RING.CNT evtRing ∧ HIF.EVTCNT ≠ RING.STAT r ∧ HIF.EVTCNT ≠ RING.CNT evtRing := by
    simp only [PWR.DOMSTAT, HIF.EVT, HIF.EVTCNT, RING.STAT, RING.CNT, evtRing, ne_eq] at other ⊢
    exact ⟨by omega, by omega, fun q => by omega, fun q => by omega, by omega, by omega, by omega⟩
  obtain ⟨evtStat, pwr, statEvt, statCnt, ownCnt, cntStat, cntCnt⟩ := far
  have core' : u.domOn .core = true := (congrArg (· != 0) ((moved PWR.DOMSTAT_CORE (by decide) (by decide)).trans (get_put_off_ne _ _ _ _ pwr))).trans core
  have stopped' : u.get (RING.STAT_STATE evtRing) ≠ 1 := by
    rw [moved (RING.STAT_STATE evtRing) (statEvt _) (statCnt _), get_put_off_ne _ _ _ _ evtStat]
    exact stopped
  have dropped : c.ringError r = (u.hifUpd fun h => { h with evSeq := (h.evSeq + 1) % 2 ^ 16 }).ringDrop evtRing := by
    rw [Chip.ringError, told, if_neg other, hostEvent_dropped core' stopped']
  have same : ∀ f : Fld, f.off ≠ RING.CNT evtRing → (c.ringError r).get f = u.get f := fun f hf => by
    rw [dropped]
    exact get_put_off_ne _ _ _ _ hf
  have recorded := (recorded_event (c.put (RING.STAT_STATE r) 3) HIF.EVT_RINGERRF HIF.EVTCNT_RINGERRCNT 0xe0 rfl rfl rfl rfl rfl).congr (s' := c) (t' := c.ringError r)
    (get_put_off_ne _ _ _ _ cntStat).symm ((same HIF.EVT_RINGERRF (by decide)).trans (by rw [← told]; rfl)) ((same HIF.EVTCNT_RINGERRCNT cntCnt).trans (by rw [← told]; rfl))
  have changed : c.OnlyIn (fun o => o == HIF.EVT || o == HIF.EVTCNT || o == RING.STAT r || o == RING.CNT 16) u := by
    rw [← told]
    exact ((Chip.OnlyIn.refl _ c).put (RING.STAT_STATE r) 3 (by simp [RING.STAT_STATE])).trans ((hifEvent_onlyIn _ _ _).mono (by simp_all [HIF.EVT_RINGERRF, HIF.EVTCNT_RINGERRCNT]))
  have state : (c.ringError r).get (RING.STAT_STATE r) = 3 := by
    rw [same (RING.STAT_STATE r) ownCnt, moved (RING.STAT_STATE r) (statEvt _) (statCnt _)]
    exact get_put_same _ _ _ rfl
  have regs : c.OnlyIn (fun o => o == HIF.EVT || o == HIF.EVTCNT || o == RING.STAT r || o == RING.CNT 16) (c.ringError r) := by
    rw [dropped]
    exact ((changed.upd rfl).put (RING.CNT_CNT evtRing) _ (by simp [RING.CNT_CNT, evtRing])).upd rfl
  have dmaCount : (c.ringError r).get HIF.EVTCNT_DMAERRCNT = c.get HIF.EVTCNT_DMAERRCNT := by
    rw [same HIF.EVTCNT_DMAERRCNT cntCnt, ← told, Chip.hifEvent, Chip.event, get_bell]
    exact (get_put_apart _ _ _ _ rfl rfl).trans ((get_put_apart _ _ _ _ rfl rfl).trans (get_put_off_ne _ _ _ _ cntStat))
  refine ⟨regs, state, recorded, dmaCount, ?_, ?_, fun q => ?_⟩
  · rw [dropped, ← told]
    rfl
  · rw [dropped, ← told]
    rfl
  · have rings : (c.ringError r).rings = c.rings.upd evtRing fun h => { h with loss := true } := by
      rw [dropped, ← told]
      rfl
    rw [rings, Tbl.get_upd]
    split
    · next h => rw [h]
    · rfl

/-- A vector is signalled at once (R428). -/
theorem signalVec_sent {c : Chip} {v : Nat} (up : c.get HIF.STAT_LINKUP = 1) (host : c.domOn .host = true) (d0 : c.get HIF.STAT_DSTATE = 0) (msix : c.hif.msixEn = true)
    (master : c.hif.busMaster = true) (func : c.hif.funcMask = false) (mask : c.get (MSIX.VCTRL_MASK v) = 0) : c.signalVec v = c.linkWake.out (.msix v) := by
  rw [Chip.signalVec, if_neg (by simp [Chip.bit, up, host]), if_pos (by simp [Chip.inD0, d0]), if_pos (by simp [Chip.bit, msix, master, func, mask])]

theorem linkWake_lstate (c : Chip) : c.linkWake.get HIF.STAT_LSTATE = if c.get HIF.STAT_LSTATE = 1 then 0 else c.get HIF.STAT_LSTATE := by
  unfold Chip.linkWake
  by_cases rests : c.get HIF.STAT_LSTATE = 1
  · rw [if_pos (beq_iff_eq.mpr rests), if_pos rests]
    exact get_put_same _ _ _ rfl
  · rw [if_neg (by simpa using rests), if_neg rests]

theorem Effect.linkWake {s t : State} {h : Chip → Chip} {fields : List Fld} {srcs : List Nat} {msgs : List FaultMsg} {outs : List Output}
    (e : Effect s t h fields srcs msgs outs) : Effect s { t with chip := t.chip.linkWake } h (fields ++ [HIF.STAT_LSTATE]) srcs msgs outs := by
  unfold Chip.linkWake
  split
  · exact e.put _ _
  · exact e.widen _ (by simp_all)

/-! A poll of the doorbell area (R419, R420). -/

/-- A poll that takes place: a kicked one ends, or the periodic one has its instant. -/
def Chip.pollTaken (s : Chip) : Chip := if s.hif.pollBusy then { s with hif := { s.hif with pollBusy := s.hif.kickAgain, kickAgain := false } } else s.gridMark gridPoll

theorem pollTaken_regs (c : Chip) : c.pollTaken.regs = c.regs := by
  unfold Chip.pollTaken
  split <;> rfl

/-- The read of the doorbell area. -/
def Chip.areaRead (s : Chip) : Chip := s.pollTaken.out (.hostRead ((s.reg HIF.DBBASE_LO).toNat + 2 ^ 32 * (s.reg HIF.DBBASE_HI).toNat) 128)

theorem hostPoll_of_due {c : Chip} (live : c.hostLive = true) (due : c.mayPoll = true) (bells : List Word) (ok : Bool) :
    c.hostPoll bells ok = if ok then c.areaRead.forEach allRings fun r u => u.pollRing bells r else c.areaRead.hifEvent HIF.EVT_DMAERRF HIF.EVTCNT_DMAERRCNT := by
  rw [Chip.hostPoll, if_neg (by simp [live, due])]
  rfl

theorem Effect.areaRead (s : State) : Effect s { s with chip := s.chip.areaRead } Chip.pollTaken [] [] []
    [.hostRead ((s.chip.reg HIF.DBBASE_LO).toNat + 2 ^ 32 * (s.chip.reg HIF.DBBASE_HI).toNat) 128] := by
  have same : s.chip.pollTaken.bells = s.chip.bells ∧ s.chip.pollTaken.bellOrder = s.chip.bellOrder ∧ s.chip.pollTaken.faultQ = s.chip.faultQ ∧
      s.chip.pollTaken.outbox = s.chip.outbox := by
    unfold Chip.pollTaken
    split <;> exact ⟨rfl, rfl, rfl, rfl⟩
  obtain ⟨bells, order, faults, outs⟩ := same
  exact ((Effect.start s).innerStep Chip.pollTaken (pollTaken_regs _) bells order faults outs rfl).out _

/-- How far a ring's host index is ahead of the device's, or behind it (R420). -/
def Chip.ringAhead (s : Chip) (bells : List Word) (r : Nat) : Nat :=
  if r < 8 then (bellWord bells r + 2 ^ 32 - s.get (RING.DIDX_DIDX r)) % 2 ^ 32 else (s.get (RING.DIDX_DIDX r) + 2 ^ 32 - bellWord bells r) % 2 ^ 32

theorem pollRing_idle {c : Chip} {r : Nat} (idle : c.get (RING.STAT_STATE r) ≠ 1) (bells : List Word) : c.pollRing bells r = c := if_pos idle

theorem pollRing_legal {c : Chip} {bells : List Word} {r : Nat} (runs : c.get (RING.STAT_STATE r) = 1) (legal : c.ringAhead bells r ≤ 2 ^ c.get (RING.CFG_LOG2N r)) :
    c.pollRing bells r = (c.put (RING.HIDX_HIDX r) (bellWord bells r)).fullShow r := (if_neg (not_not.mpr runs)).trans (if_neg (Nat.not_lt.mpr legal))

theorem pollRing_illegal {c : Chip} {bells : List Word} {r : Nat} (runs : c.get (RING.STAT_STATE r) = 1) (illegal : 2 ^ c.get (RING.CFG_LOG2N r) < c.ringAhead bells r) :
    c.pollRing bells r = (c.put (RING.HIDX_HIDX r) (bellWord bells r)).ringError r := (if_neg (not_not.mpr runs)).trans (if_pos illegal)

/-- The registers that a legal poll of some rings shows. -/
def polledRegs (l : List Nat) (o : Nat) : Bool := l.any fun r => o == RING.HIDX r || o == RING.STAT r

theorem polls_idle (bells : List Word) (l : List Nat) (c : Chip) (idle : ∀ r ∈ l, c.get (RING.STAT_STATE r) ≠ 1) : c.forEach l (fun r u => u.pollRing bells r) = c := by
  induction l with
  | nil => rfl
  | cons r l ih =>
    have first := pollRing_idle (idle r (by simp)) bells
    rw [Chip.forEach, List.foldl_cons, first]
    exact ih fun q hq => idle q (by simp [hq])

/-- Every ring's host index is legal. -/
theorem polls_legal (bells : List Word) (l : List Nat) (c : Chip) (distinct : l.Nodup)
    (legal : ∀ r ∈ l, c.get (RING.STAT_STATE r) = 1 → c.ringAhead bells r ≤ 2 ^ c.get (RING.CFG_LOG2N r)) :
    c.Displays (polledRegs l) (c.forEach l fun r u => u.pollRing bells r) ∧ ∀ r ∈ l, (c.forEach l fun r u => u.pollRing bells r).get (RING.STAT_STATE r) = c.get (RING.STAT_STATE r) ∧
      (c.forEach l fun r u => u.pollRing bells r).get (RING.HIDX_HIDX r) = if c.get (RING.STAT_STATE r) = 1 then bellWord bells r else c.get (RING.HIDX_HIDX r) := by
  induction l generalizing c with
  | nil => exact ⟨.refl _ c, by simp⟩
  | cons r l ih =>
    obtain ⟨fresh, distinct⟩ := List.nodup_cons.mp distinct
    obtain ⟨u, polled⟩ : ∃ u, c.pollRing bells r = u := ⟨_, rfl⟩
    have first : c.Displays (polledRegs [r]) u ∧ u.get (RING.STAT_STATE r) = c.get (RING.STAT_STATE r) ∧
        u.get (RING.HIDX_HIDX r) = if c.get (RING.STAT_STATE r) = 1 then bellWord bells r else c.get (RING.HIDX_HIDX r) := by
      rw [← polled]
      by_cases runs : c.get (RING.STAT_STATE r) = 1
      · rw [pollRing_legal runs (legal r (by simp) runs), if_pos runs]
        refine ⟨((Chip.Displays.refl _ c).put _ _ (by simp [polledRegs, RING.HIDX_HIDX])).put _ _ (by simp [polledRegs, RING.STAT_FULL]), ?_, ?_⟩
        · rw [Chip.fullShow, Chip.putB, get_put_apart _ _ _ _ rfl (by simp [Fld.apart, RING.STAT_STATE, RING.STAT_FULL]),
            get_put_off_ne _ _ _ _ (by simp [RING.STAT_STATE, RING.HIDX_HIDX, RING.STAT, RING.HIDX])]
        · rw [Chip.fullShow, Chip.putB, get_put_off_ne _ _ _ _ (by simp [RING.STAT_FULL, RING.HIDX_HIDX, RING.STAT, RING.HIDX]), get_put_same _ _ _ rfl]
          exact Nat.mod_eq_of_lt (BitVec.isLt _)
      · rw [pollRing_idle runs, if_neg runs]
        exact ⟨.refl _ c, rfl, rfl⟩
    obtain ⟨shown, state, host⟩ := first
    have other : ∀ q ∈ l, ∀ f : Fld, (f.off = RING.STAT q ∨ f.off = RING.HIDX q ∨ f.off = RING.CFG q ∨ f.off = RING.DIDX q) → u.get f = c.get f := fun q hq f hf => by
      have differ : q ≠ r := fun h => fresh (h ▸ hq)
      refine shown.regs.get f ?_
      simp only [polledRegs, List.any_cons, List.any_nil, Bool.or_false, Bool.or_eq_false_iff, beq_eq_false_iff_ne, RING.STAT, RING.HIDX, RING.CFG, RING.DIDX] at hf ⊢
      omega
    obtain ⟨rest, each⟩ := ih u distinct fun q hq runs => by
      have same := other q hq
      have ahead : u.ringAhead bells q = c.ringAhead bells q := by rw [Chip.ringAhead, Chip.ringAhead, same (RING.DIDX_DIDX q) (by simp [RING.DIDX_DIDX])]
      rw [ahead, same (RING.CFG_LOG2N q) (by simp [RING.CFG_LOG2N])]
      exact legal q (by simp [hq]) ((same (RING.STAT_STATE q) (by simp [RING.STAT_STATE])).symm.trans runs)
    have total : c.forEach (r :: l) (fun r u => u.pollRing bells r) = u.forEach l fun r u => u.pollRing bells r := by rw [← polled]; rfl
    rw [total]
    refine ⟨⟨(shown.regs.mono ?_).trans (rest.regs.mono ?_), by rw [rest.rest, shown.rest]⟩, fun q hq => ?_⟩
    · intro o ho
      simp_all [polledRegs]
    · intro o ho
      simp_all [polledRegs]
    · rcases List.mem_cons.mp hq with rfl | hq
      · have apart : ∀ f : Fld, (f.off = RING.STAT q ∨ f.off = RING.HIDX q) → polledRegs l f.off = false := fun f hf => by
          simp only [polledRegs, List.any_eq_false, Bool.or_eq_true, beq_iff_eq, RING.STAT, RING.HIDX] at hf ⊢
          intro p hp
          have differ : p ≠ q := fun h => fresh (h ▸ hp)
          omega
        rw [rest.regs.get (RING.STAT_STATE q) (apart _ (.inl rfl)), rest.regs.get (RING.HIDX_HIDX q) (apart _ (.inr rfl))]
        exact ⟨state, host⟩
      · obtain ⟨stays, taken⟩ := each q hq
        rw [stays, taken, other q hq (RING.STAT_STATE q) (.inl rfl), other q hq (RING.HIDX_HIDX q) (.inr (.inl rfl))]
        exact ⟨rfl, rfl⟩

/-- One ring alone runs, and its poll leaves the others stopped. -/
theorem polls_one (bells : List Word) {r : Nat} (l : List Nat) (c : Chip) (distinct : l.Nodup) (mem : r ∈ l) (idle : ∀ q ∈ l, q ≠ r → c.get (RING.STAT_STATE q) ≠ 1)
    (after : ∀ q ∈ l, q ≠ r → (c.pollRing bells r).get (RING.STAT_STATE q) ≠ 1) : c.forEach l (fun r u => u.pollRing bells r) = c.pollRing bells r := by
  induction l with
  | nil => cases mem
  | cons q l ih =>
    obtain ⟨fresh, distinct⟩ := List.nodup_cons.mp distinct
    by_cases here : q = r
    · subst here
      exact polls_idle bells l _ fun p hp => after p (by simp [hp]) fun h => fresh (h ▸ hp)
    · have skip := pollRing_idle (idle q (by simp) here) bells
      rw [Chip.forEach, List.foldl_cons, skip]
      exact ih distinct ((List.mem_cons.mp mem).resolve_left (Ne.symm here)) (fun p hp => idle p (by simp [hp])) fun p hp => after p (by simp [hp])

theorem mem_allRings {r : Fin 22} (h : r.val ≠ 17) : r.val ∈ allRings := by
  revert r
  decide

theorem lt_of_mem_allRings {r : Nat} (h : r ∈ allRings) : r < 22 ∧ r ≠ 17 := (by decide : ∀ q ∈ allRings, q < 22 ∧ q ≠ 17) r h

/-! An entry (R417, R418, R430). -/

/-- An entry as ring r stores it: with PHASE in its byte 7, and LOSS. -/
def Chip.entryBytes (s : Chip) (r : Nat) (bytes : List Byte) : List Byte :=
  let b7 := (bytes.getD 7 0).toNat % 128 + 128 * (1 - s.get (RING.DIDX_DIDX r) / 2 ^ s.get (RING.CFG_LOG2N r) % 2)
  (padTo 64 bytes).set 7 (BitVec.ofNat 8 (if (s.rings.get r).loss && b7 % 2 == 0 then b7 + 1 else b7))

/-- What storing an entry does. -/
structure Chip.Stores (s t : Chip) (r : Nat) (bytes : List Byte) : Prop where
  outs : t.outbox = s.outbox ++ [.entry r (s.get (RING.DIDX_DIDX r)) (s.entryAddr r (s.get (RING.DIDX_DIDX r))) (s.entryBytes r bytes),
    .writeback r (s.backAddr r) ((s.get (RING.DIDX_DIDX r) + 1) % 2 ^ 32)]
  index : t.get (RING.DIDX_DIDX r) = (s.get (RING.DIDX_DIDX r) + 1) % 2 ^ 32
  regs : s.OnlyIn (fun o => o == RING.DIDX r || o == RING.CNT r || o == RING.STAT r) t
  hif : t.hif = s.hif
  faults : t.faultQ = s.faultQ
  unsig : (t.rings.get r).unsig = (s.rings.get r).unsig

theorem ringStore_stores (c : Chip) (r : Nat) (bytes : List Byte) : c.Stores (c.ringStore r bytes) r bytes := by
  obtain ⟨d, indexed⟩ : ∃ d, (c.out (.entry r (c.get (RING.DIDX_DIDX r)) (c.entryAddr r (c.get (RING.DIDX_DIDX r))) (c.entryBytes r bytes))).incWrap (RING.DIDX_DIDX r) = d := ⟨_, rfl⟩
  obtain ⟨e, counted⟩ : ∃ e, (if 8 ≤ r && decide (r < 16) then d.incWrap (RING.CNT_CNT r) else d) = e := ⟨_, rfl⟩
  have stored : c.ringStore r bytes = ((e.out (.writeback r (e.backAddr r) ((c.get (RING.DIDX_DIDX r) + 1) % 2 ^ 32))).ringUpd r fun h => { h with loss := false }).fullShow r := by
    rw [← counted, ← indexed]
    rfl
  have first : c.OnlyIn (fun o => o == RING.DIDX r || o == RING.CNT r || o == RING.STAT r) d := by
    rw [← indexed]
    exact ((Chip.OnlyIn.refl (fun o => o == RING.DIDX r || o == RING.CNT r || o == RING.STAT r) c).upd
      (u := c.out (.entry r (c.get (RING.DIDX_DIDX r)) (c.entryAddr r (c.get (RING.DIDX_DIDX r))) (c.entryBytes r bytes))) rfl).put (RING.DIDX_DIDX r) _ (by simp [RING.DIDX_DIDX])
  have second : c.OnlyIn (fun o => o == RING.DIDX r || o == RING.CNT r || o == RING.STAT r) e := by
    rw [← counted]
    exact (first.put (RING.CNT_CNT r) _ (by simp [RING.CNT_CNT])).either first
  have index : e.get (RING.DIDX_DIDX r) = (c.get (RING.DIDX_DIDX r) + 1) % 2 ^ 32 := by
    have own : d.get (RING.DIDX_DIDX r) = (c.get (RING.DIDX_DIDX r) + 1) % 2 ^ 32 := by
      rw [← indexed, Chip.incWrap, get_put_same _ _ _ rfl]
      rfl
    rw [← counted]
    split
    · exact (get_put_off_ne _ _ _ _ (by simp [RING.DIDX_DIDX, RING.CNT_CNT, RING.DIDX, RING.CNT])).trans own
    · exact own
  have others : e.outbox = d.outbox ∧ e.hif = d.hif ∧ e.faultQ = d.faultQ ∧ e.rings = d.rings := by
    rw [← counted]
    split <;> exact ⟨rfl, rfl, rfl, rfl⟩
  obtain ⟨outs, hif, faults, rings⟩ := others
  have base : d.outbox = c.outbox ++ [.entry r (c.get (RING.DIDX_DIDX r)) (c.entryAddr r (c.get (RING.DIDX_DIDX r))) (c.entryBytes r bytes)] ∧ d.hif = c.hif ∧
      d.faultQ = c.faultQ ∧ d.rings = c.rings := by
    rw [← indexed]
    exact ⟨rfl, rfl, rfl, rfl⟩
  obtain ⟨outs', hif', faults', rings'⟩ := base
  have back : e.backAddr r = c.backAddr r := by
    have same : ∀ o, (o = HIF.WBBASE_LO ∨ o = HIF.WBBASE_HI) → e.reg o = c.reg o := fun o ho => second.same o (by
      simp only [RING.DIDX, RING.CNT, RING.STAT, HIF.WBBASE_LO, HIF.WBBASE_HI, Bool.or_eq_false_iff, beq_eq_false_iff_ne] at ho ⊢
      omega)
    rw [Chip.backAddr, Chip.backAddr, same _ (.inl rfl), same _ (.inr rfl)]
  rw [stored]
  refine ⟨?_, ?_, ?_, hif.trans hif', faults.trans faults', ?_⟩
  · refine (congrArg (· ++ [.writeback r (e.backAddr r) ((c.get (RING.DIDX_DIDX r) + 1) % 2 ^ 32)]) (outs.trans outs')).trans ?_
    rw [back, List.append_assoc]
    rfl
  · exact (get_put_off_ne _ _ _ _ (by simp [RING.DIDX_DIDX, RING.STAT_FULL, RING.DIDX, RING.STAT])).trans index
  · exact (second.upd (u := (e.out (.writeback r (e.backAddr r) ((c.get (RING.DIDX_DIDX r) + 1) % 2 ^ 32))).ringUpd r fun h => { h with loss := false }) rfl).put (RING.STAT_FULL r) _
      (by simp [RING.STAT_FULL])
  · refine (congrArg RingHw.unsig (Tbl.get_upd_same _ _ _)).trans ?_
    exact congrArg (fun x : Tbl RingHw _ => (x.get r).unsig) (rings.trans rings')

/-- An entry that does not fill its ring's moderation signals nothing (R427). -/
theorem ringCount_quiet {c : Chip} {r : Nat} (quiet : (c.rings.get r).unsig + 1 < orOne (c.get (RING.MOD_MODCNT r))) :
    c.ringCount r false = c.ringUpd r fun h => { h with unsig := h.unsig + 1, first := (if h.unsig = 0 then c.now else h.first) } := by
  have unsig : ((c.ringUpd r fun h => { h with unsig := h.unsig + 1, first := (if h.unsig = 0 then c.now else h.first) }).rings.get r).unsig = (c.rings.get r).unsig + 1 :=
    congrArg RingHw.unsig (Tbl.get_upd_same _ _ _)
  refine if_neg fun signals => ?_
  rw [Bool.false_or, decide_eq_true_eq] at signals
  exact absurd (lt_of_le_of_lt (le_of_le_of_eq signals unsig) quiet) (lt_irrefl _)

/-- An entry of 64 bytes with no bit of PHASE or LOSS of its own. -/
theorem entryBytes_of_plain {c : Chip} {r : Nat} {bytes : List Byte} (length : bytes.length = 64) (flag : (bytes.getD 7 0).toNat < 2) (loss : (c.rings.get r).loss = false) :
    c.entryBytes r bytes = bytes.set 7 (BitVec.ofNat 8 ((bytes.getD 7 0).toNat + 128 * (1 - c.get (RING.DIDX_DIDX r) / 2 ^ c.get (RING.CFG_LOG2N r) % 2))) := by
  have whole : padTo 64 bytes = bytes := by rw [padTo, List.take_append_of_le_length (by omega), List.take_of_length_le (by omega)]
  rw [Chip.entryBytes, whole, loss, Bool.false_and, if_neg Bool.false_ne_true, Nat.mod_eq_of_lt (by omega)]

/-! Telemetry records (R431 to R433). -/

/-- A stream's SEQ counts a record. -/
def Chip.streamCounts (s : Chip) (strm : Nat) : Chip := { s with streams := s.streams.upd strm fun x => { x with seq := (x.seq + 1) % 2 ^ 16 } }

theorem telProduce_dropped {c : Chip} {strm : Nat} (full : c.ringRuns (telRing strm) = false ∨ c.ringFull (telRing strm) = true ∨ 64 ≤ c.hif.telQ.length ∨ c.telRoom = false)
    (kind inst dec start : Nat) (words : List Word) : c.telProduce strm kind inst dec start words = (c.streamCounts strm).ringDrop (telRing strm) := by
  have drops : (!c.domOn .host || !c.ringRuns (telRing strm) || !c.inD0 || c.ringFull (telRing strm) || decide (64 ≤ c.hif.telQ.length) || !c.telRoom) = true := by
    obtain h | h | h | h := full <;> simp [h]
  exact if_pos drops

/-- The bytes of a telemetry record (R431). -/
def Chip.telBytes (s : Chip) (strm kind inst dec start : Nat) (words : List Word) : List Byte :=
  bytesLE 1 kind ++ bytesLE 1 words.length ++ bytesLE 2 (s.streams.get strm).seq ++ bytesLE 1 inst ++ bytesLE 1 dec
    ++ [0, if (s.rings.get (telRing strm)).loss then 1 else 0] ++ bytesLE 8 start ++ padTo 48 (words.flatMap fun w => bytesLE 4 w.toNat)

/-- One more record in the telemetry queue, and in the count of this step. -/
def HifHw.queued (h : HifHw) (now : Nat) (e : HeldEntry) : HifHw :=
  { h with telAt := now, telSent := (if h.telAt = now then h.telSent + 1 else 1), telQ := h.telQ ++ [e] }

theorem ringRuns_congr {c d : Chip} (h : d.regs = c.regs) (r : Nat) : d.ringRuns r = c.ringRuns r := by
  have host : d.domOn .host = c.domOn .host := congrArg (· != 0) (get_congr h PWR.DOMSTAT_HOST)
  rw [Chip.ringRuns, Chip.ringRuns, host, Chip.bit, Chip.bit, get_congr h, get_congr h]

theorem host_of_ringRuns {c : Chip} {r : Nat} (h : c.ringRuns r = true) : c.domOn .host = true := by
  simp only [Chip.ringRuns, Bool.and_eq_true] at h
  tauto

/-- What a record that joins the telemetry queue changes. -/
structure Chip.Queues (s t : Chip) (strm : Nat) (bytes : List Byte) : Prop where
  tels : t.tels = s.tels
  seq : (t.streams.get strm).seq = ((s.streams.get strm).seq + 1) % 2 ^ 16
  loss : (t.rings.get (telRing strm)).loss = false
  queue : t.hif.telQ = s.hif.telQ ++ [⟨telRing strm, bytes, false⟩]
  faults : t.faultQ = s.faultQ
  outs : t.outbox = s.outbox
  regs : s.OnlyIn (· == RING.STAT (telRing strm)) t

theorem telProduce_queues {c : Chip} {strm : Nat} (runs : c.ringRuns (telRing strm) = true) (d0 : c.inD0 = true) (room : c.ringFull (telRing strm) = false)
    (wait : c.hif.telQ.length < 64) (rate : c.telRoom = true) (kind inst dec start : Nat) (words : List Word) :
    c.Queues (c.telProduce strm kind inst dec start words) strm (c.telBytes strm kind inst dec start words) := by
  have waits : ¬ (!c.domOn .host || !c.ringRuns (telRing strm) || !c.inD0 || c.ringFull (telRing strm) || decide (64 ≤ c.hif.telQ.length) || !c.telRoom) = true := by
    simp [host_of_ringRuns runs, runs, d0, room, wait, rate]
  have queued : c.telProduce strm kind inst dec start words = (((c.streamCounts strm).hifUpd fun h => h.queued c.now ⟨telRing strm, c.telBytes strm kind inst dec start words, false⟩).ringUpd
      (telRing strm) fun h => { h with loss := false, reserved := h.reserved + 1 }).fullShow (telRing strm) := if_neg waits
  rw [queued]
  obtain ⟨u, moved⟩ : ∃ u, ((c.streamCounts strm).hifUpd fun h => h.queued c.now ⟨telRing strm, c.telBytes strm kind inst dec start words, false⟩).ringUpd
      (telRing strm) (fun h => { h with loss := false, reserved := h.reserved + 1 }) = u := ⟨_, rfl⟩
  have shown : (u.fullShow (telRing strm)).tels = u.tels ∧ (u.fullShow (telRing strm)).streams = u.streams ∧ (u.fullShow (telRing strm)).rings = u.rings ∧
      (u.fullShow (telRing strm)).hif = u.hif ∧ (u.fullShow (telRing strm)).faultQ = u.faultQ ∧ (u.fullShow (telRing strm)).outbox = u.outbox := ⟨rfl, rfl, rfl, rfl, rfl, rfl⟩
  obtain ⟨tels, streams, rings, hif, faults, outs⟩ := shown
  rw [moved]
  refine ⟨tels.trans ?_, ?_, ?_, ?_, faults.trans ?_, outs.trans ?_, ((Chip.OnlyIn.refl _ c).upd (u := u) ?_).put (RING.STAT_FULL (telRing strm)) _ (beq_self_eq_true _)⟩
  · rw [← moved]; rfl
  · rw [streams, ← moved]
    exact congrArg StreamHw.seq (Tbl.get_upd_same _ _ _)
  · rw [rings, ← moved]
    exact congrArg RingHw.loss (Tbl.get_upd_same _ _ _)
  · rw [hif, ← moved]; rfl
  · rw [← moved]; rfl
  · rw [← moved]; rfl
  · rw [← moved]; rfl

/-- A record that a source has filled leaves it. -/
def Chip.telEmptied (s : Chip) (key : Nat) : Chip := { s with tels := s.tels.upd key fun h => { h with words := [] } }

theorem telFlush_of_due {c : Chip} {kind inst trig : Nat} {h : TelHw} (source : c.tels.get (1024 * kind + 2 * inst + trig) = h) (some : h.words ≠ [])
    (due : h.start + orOne (c.get (RING.MOD_TFLUSH (telRing h.strm))) ≤ c.now) :
    c.telFlush kind inst trig = (c.telEmptied (1024 * kind + 2 * inst + trig)).telProduce h.strm kind inst h.dec h.start h.words := by
  subst source
  exact if_pos (by simp [some, due])

/-- A record of the queue is written, with no signal. -/
theorem telWrite_stores {c : Chip} {e : HeldEntry} (runs : c.ringRuns e.ring = true) (quiet : (c.rings.get e.ring).unsig + 1 < orOne (c.get (RING.MOD_MODCNT e.ring)))
    (length : e.bytes.length = 64) (flag : (e.bytes.getD 7 0).toNat < 2) :
    (c.telWrite e).outbox = c.outbox ++ [.entry e.ring (c.get (RING.DIDX_DIDX e.ring)) (c.entryAddr e.ring (c.get (RING.DIDX_DIDX e.ring)))
        (e.bytes.set 7 (BitVec.ofNat 8 ((e.bytes.getD 7 0).toNat + 128 * (1 - c.get (RING.DIDX_DIDX e.ring) / 2 ^ c.get (RING.CFG_LOG2N e.ring) % 2)))),
      .writeback e.ring (c.backAddr e.ring) ((c.get (RING.DIDX_DIDX e.ring) + 1) % 2 ^ 32)] ∧
    (c.telWrite e).get (RING.DIDX_DIDX e.ring) = (c.get (RING.DIDX_DIDX e.ring) + 1) % 2 ^ 32 ∧ (c.telWrite e).hif = c.hif ∧ (c.telWrite e).faultQ = c.faultQ ∧
    c.OnlyIn (fun o => o == RING.DIDX e.ring || o == RING.CNT e.ring || o == RING.STAT e.ring) (c.telWrite e) := by
  obtain ⟨t, begun⟩ : ∃ t, (c.ringUpd e.ring fun h => { h with loss := false, reserved := h.reserved - 1 }) = t := ⟨_, rfl⟩
  obtain ⟨u, put⟩ : ∃ u, t.ringStore e.ring e.bytes = u := ⟨_, rfl⟩
  have regs : t.regs = c.regs := by rw [← begun]; rfl
  have runs' : t.ringRuns e.ring = true := by rw [← begun]; exact runs
  have loss : (t.rings.get e.ring).loss = false := by rw [← begun]; exact congrArg RingHw.loss (Tbl.get_upd_same _ _ _)
  have unsig : (t.rings.get e.ring).unsig = (c.rings.get e.ring).unsig := by
    rw [← begun]
    exact (congrArg RingHw.unsig (Tbl.get_upd_same _ _ _)).trans rfl
  have same : t.outbox = c.outbox ∧ t.hif = c.hif ∧ t.faultQ = c.faultQ := by rw [← begun]; exact ⟨rfl, rfl, rfl⟩
  obtain ⟨outs, hif, faults⟩ := same
  have stores := ringStore_stores t e.ring e.bytes
  rw [put] at stores
  have counts := ringCount_quiet (c := u) (r := e.ring) (by
    rw [stores.unsig, unsig, stores.regs.get (RING.MOD_MODCNT e.ring) (by simp [RING.MOD_MODCNT, RING.MOD, RING.DIDX, RING.CNT, RING.STAT]), get_congr regs]
    exact quiet)
  have written : c.telWrite e = ((u.ringUpd e.ring fun h => { h with unsig := h.unsig + 1, first := (if h.unsig = 0 then u.now else h.first) }).ringUpd e.ring
      fun h => { h with loss := (c.rings.get e.ring).loss || h.loss }) := by
    have step : c.telWrite e = (if t.ringRuns e.ring then t.ringPut e.ring e.bytes false else t.ringDrop e.ring).ringUpd e.ring fun h => { h with loss := (c.rings.get e.ring).loss || h.loss } := by
      rw [← begun]
      rfl
    rw [step, if_pos runs', Chip.ringPut, put, counts]
  have index : ∀ f, t.get f = c.get f := get_congr regs
  rw [written]
  refine ⟨?_, ?_, stores.hif.trans hif, stores.faults.trans faults, ((Chip.OnlyIn.refl _ c).upd regs).trans (stores.regs.upd rfl)⟩
  · refine stores.outs.trans ?_
    rw [outs, entryBytes_of_plain length flag loss, index, index]
    unfold Chip.entryAddr Chip.backAddr Chip.reg
    rw [regs, index]
  · refine (get_congr rfl _).trans (stores.index.trans ?_)
    rw [index]

/-- The ring engine writes the one record that waits. -/
theorem telDrain_one {c : Chip} {e : HeldEntry} (host : c.domOn .host = true) (d0 : c.inD0 = true) (queue : c.hif.telQ = [e]) :
    c.telDrain = (c.hifUpd fun h => { h with telQ := [] }).telWrite e := by
  rw [Chip.telDrain, if_neg (by simp [host, d0]), queue]
  rfl

/-- A count that saturates. -/
theorem get_inc (c : Chip) (f : Fld) (fits : f.fits = true) : (c.inc f).get f = counted c f := by
  rw [Chip.inc, Chip.add, get_put_same _ _ _ fits]
  apply Nat.mod_eq_of_lt
  have := Nat.two_pow_pos f.width
  omega

theorem get_ringDrop (c : Chip) (r : Nat) : (c.ringDrop r).get (RING.CNT_CNT r) = counted c (RING.CNT_CNT r) :=
  (get_congr (s := c.inc (RING.CNT_CNT r)) rfl _).trans (get_inc c _ rfl)

theorem counted_congr {c d : Chip} (h : d.regs = c.regs) (f : Fld) : counted d f = counted c f := by rw [counted, counted, get_congr h]

/-- Legal host indices are taken (R419). -/
theorem hostPoll_takes_indices :
    ∀ (s : State) (bells : List Word), s.chip.hostLive = true → s.chip.mayPoll = true → (∀ r : Fin 22, r.val ≠ 17 → s.chip.get (RING.STAT_STATE r.val) = 1 →
      (if r.val < 8 then (bellWord bells r.val + 2 ^ 32 - s.chip.get (RING.DIDX_DIDX r.val)) % 2 ^ 32 else (s.chip.get (RING.DIDX_DIDX r.val) + 2 ^ 32 - bellWord bells r.val) % 2 ^ 32) ≤ 2 ^ s.chip.get (RING.CFG_LOG2N r.val)) →
    ∃ t, Machine.exec (.hostPoll bells true) s = .next t ∧ (∀ r : Fin 22, r.val ≠ 17 → t.chip.get (RING.STAT_STATE r.val) = s.chip.get (RING.STAT_STATE r.val) ∧
        t.chip.get (RING.HIDX_HIDX r.val) = (if s.chip.get (RING.STAT_STATE r.val) = 1 then bellWord bells r.val else s.chip.get (RING.HIDX_HIDX r.val))) ∧
      t.chip.hif = (if s.chip.hif.pollBusy then { s.chip.hif with pollBusy := s.chip.hif.kickAgain, kickAgain := false } else s.chip.hif) ∧ t.chip.faultQ = s.chip.faultQ ∧ t.chip.outbox = s.chip.outbox ++ [.hostRead ((s.chip.reg HIF.DBBASE_LO).toNat + 2 ^ 32 * (s.chip.reg HIF.DBBASE_HI).toNat) 128] ∧ Keeps s t (fun o => span 0x31000 0x312c0 o) := by
  intro s bells live due legal
  have read := Effect.areaRead s
  have same : ∀ f, s.chip.areaRead.get f = s.chip.get f := get_congr (pollTaken_regs s.chip)
  obtain ⟨shown, each⟩ := polls_legal bells allRings s.chip.areaRead (by decide) fun r hr runs => by
    obtain ⟨low, other⟩ := lt_of_mem_allRings hr
    rw [Chip.ringAhead, same, same]
    exact legal ⟨r, low⟩ other ((same _).symm.trans runs)
  refine ⟨_, exec_chip rfl (hostPoll_of_due live due bells true), fun r other => ?_, ?_, ?_, ?_, ?_⟩
  · obtain ⟨state, host⟩ := each r.val (mem_allRings other)
    rw [same, same] at host
    exact ⟨state.trans (same _), host⟩
  · refine (congrArg Chip.hif shown.rest).trans (?_ : s.chip.pollTaken.hif = _)
    unfold Chip.pollTaken
    split <;> rfl
  · exact (congrArg Chip.faultQ shown.rest).trans (read.faults.trans (List.append_nil _))
  · exact (congrArg Chip.outbox shown.rest).trans read.outputs
  · have far : ∀ o, polledRegs allRings o = true → span 0x31000 0x312c0 o = true := fun o ho => by
      obtain ⟨r, hr, at'⟩ := List.any_eq_true.mp ho
      obtain ⟨low, -⟩ := lt_of_mem_allRings hr
      simp only [Bool.or_eq_true, beq_iff_eq, RING.HIDX, RING.STAT] at at'
      exact span_of_le_lt (by omega)
    exact ⟨rfl, rfl, ((Chip.OnlyIn.refl _ s.chip).upd (u := s.chip.areaRead) (pollTaken_regs s.chip) |>.trans (shown.regs.mono far)).same⟩

/-- A host index out of range stops its ring, one that alone runs (R420). -/
theorem hostPoll_stops_ring :
    ∀ (s : State) (bells : List Word) (r : Fin 22), s.chip.hostLive = true → s.chip.mayPoll = true → 18 ≤ r.val → (∀ q : Fin 22, q.val ≠ 17 → (s.chip.get (RING.STAT_STATE q.val) = 1 ↔ q = r)) → 2 ^ s.chip.get (RING.CFG_LOG2N r.val) < (s.chip.get (RING.DIDX_DIDX r.val) + 2 ^ 32 - bellWord bells r.val) % 2 ^ 32 →
    ∃ t, Machine.exec (.hostPoll bells true) s = .next t ∧ t.chip.get (RING.STAT_STATE r.val) = 3 ∧ Recorded s.chip t.chip HIF.EVT_RINGERRF HIF.EVTCNT_RINGERRCNT ∧ t.chip.faultQ = s.chip.faultQ ∧ t.chip.outbox = s.chip.outbox ++ [.hostRead ((s.chip.reg HIF.DBBASE_LO).toNat + 2 ^ 32 * (s.chip.reg HIF.DBBASE_HI).toNat) 128] ∧
      Keeps s t (fun o => o == HIF.EVT || o == HIF.EVTCNT || span 0x31000 0x312c0 o) := by
  intro s bells r live due high only illegal
  have read := Effect.areaRead s
  have same : ∀ f, s.chip.areaRead.get f = s.chip.get f := get_congr (pollTaken_regs s.chip)
  have mem := mem_allRings (r := r) (by omega)
  have runs : s.chip.areaRead.get (RING.STAT_STATE r.val) = 1 := (same _).trans ((only r (by omega)).mpr rfl)
  have stopped : ∀ q ∈ allRings, q ≠ r.val → s.chip.areaRead.get (RING.STAT_STATE q) ≠ 1 := fun q hq differ => by
    obtain ⟨low, other⟩ := lt_of_mem_allRings hq
    rw [same]
    exact fun h => differ (congrArg Fin.val ((only ⟨q, low⟩ other).mp h))
  have polled := pollRing_illegal (bells := bells) runs (by rw [Chip.ringAhead, if_neg (by omega), same, same]; exact illegal)
  have host : ∀ f : Fld, f.off ≠ RING.HIDX r.val → (s.chip.areaRead.put (RING.HIDX_HIDX r.val) (bellWord bells r.val)).get f = s.chip.areaRead.get f := fun f hf => get_put_off_ne _ _ _ _ hf
  have core : s.chip.domOn .core = true := by
    simp only [Chip.hostLive, Chip.coreRuns, Bool.and_eq_true] at live
    tauto
  have stops := ringError_stops (c := s.chip.areaRead.put (RING.HIDX_HIDX r.val) (bellWord bells r.val)) (r := r.val) (by simp only [evtRing]; omega)
    ((congrArg (· != 0) ((host PWR.DOMSTAT_CORE (by simp only [PWR.DOMSTAT_CORE, PWR.DOMSTAT, RING.HIDX]; omega)).trans (same _))).trans core)
    (by rw [host (RING.STAT_STATE evtRing) (by simp [RING.STAT_STATE, RING.STAT, RING.HIDX]; omega)]; exact stopped evtRing (by decide) (by simp only [evtRing]; omega))
  rw [← polled] at stops
  have after : ∀ q ∈ allRings, q ≠ r.val → (s.chip.areaRead.pollRing bells r.val).get (RING.STAT_STATE q) ≠ 1 := fun q hq differ => by
    rw [stops.regs.get (RING.STAT_STATE q) (by simp [RING.STAT_STATE, RING.STAT, RING.CNT, HIF.EVT, HIF.EVTCNT]; omega),
      host (RING.STAT_STATE q) (by simp [RING.STAT_STATE, RING.STAT, RING.HIDX]; omega)]
    exact stopped q hq differ
  have ends := (hostPoll_of_due live due bells true).trans (polls_one bells allRings s.chip.areaRead (by decide) mem stopped after)
  refine ⟨_, exec_chip rfl ends, stops.state, ?_, ?_, ?_, ?_⟩
  · exact stops.recorded.congr ((same _).symm.trans (host HIF.EVTCNT_RINGERRCNT (by simp [HIF.EVTCNT_RINGERRCNT, HIF.EVTCNT, RING.HIDX]; omega)).symm) rfl rfl
  · exact stops.faults.trans (read.faults.trans (List.append_nil _))
  · exact stops.outs.trans read.outputs
  · have far : ∀ o, (o == HIF.EVT || o == HIF.EVTCNT || o == RING.STAT r.val || o == RING.CNT 16) = true → (o == HIF.EVT || o == HIF.EVTCNT || span 0x31000 0x312c0 o) = true := fun o ho => by
      have below := r.isLt
      simp only [Bool.or_eq_true, beq_iff_eq, RING.STAT, RING.CNT, span, Bool.and_eq_true, decide_eq_true_eq] at ho ⊢
      omega
    have shown : s.chip.OnlyIn (fun o => o == HIF.EVT || o == HIF.EVTCNT || span 0x31000 0x312c0 o) (s.chip.areaRead.put (RING.HIDX_HIDX r.val) (bellWord bells r.val)) :=
      ((Chip.OnlyIn.refl _ s.chip).upd (u := s.chip.areaRead) (pollTaken_regs s.chip)).put (RING.HIDX_HIDX r.val) _ (by
        have below := r.isLt
        exact Bool.or_eq_true_iff.mpr (.inr (span_of_le_lt (by simp only [RING.HIDX_HIDX, RING.HIDX]; omega))))
    exact ⟨rfl, rfl, (shown.trans (stops.regs.mono far)).same⟩

/-- A failed read of a command ring stops it (R421). -/
theorem dmaReadError_stops_ring :
    ∀ (s : State) (r : Fin 8), s.chip.hostLive = true → s.chip.get (RING.STAT_STATE r.val) = 1 → s.chip.get (RING.STAT_STATE 16) ≠ 1 → ∃ t, Machine.exec (.dmaReadError r) s = .next t ∧ t.chip.get (RING.STAT_STATE r.val) = 3 ∧
      Recorded s.chip t.chip HIF.EVT_RINGERRF HIF.EVTCNT_RINGERRCNT ∧ Recorded s.chip t.chip HIF.EVT_DMAERRF HIF.EVTCNT_DMAERRCNT ∧ (t.chip.rings.get r.val).busy = (s.chip.rings.get r.val).busy ∧ t.chip.faultQ = s.chip.faultQ ∧ t.chip.outbox = s.chip.outbox ∧
      Keeps s t (fun o => o == HIF.EVT || o == HIF.EVTCNT || o == RING.STAT r.val || o == RING.CNT 16) := by
  intro s r live runs stopped
  have core : s.chip.domOn .core = true := by
    simp only [Chip.hostLive, Chip.coreRuns, Bool.and_eq_true] at live
    tauto
  have stops := ringError_stops (c := s.chip) (r := r.val) (by simp only [evtRing]; omega) core stopped
  have failed : s.chip.dmaError r.val = (s.chip.ringError r.val).hifEvent HIF.EVT_DMAERRF HIF.EVTCNT_DMAERRCNT := if_pos (by simp [live, runs])
  have told := hifEvent_onlyIn (s.chip.ringError r.val) HIF.EVT_DMAERRF HIF.EVTCNT_DMAERRCNT
  have ringErr : ∀ f : Fld, f.fits = true → f.apart HIF.EVT_DMAERRF = true → f.apart HIF.EVTCNT_DMAERRCNT = true →
      ((s.chip.ringError r.val).hifEvent HIF.EVT_DMAERRF HIF.EVTCNT_DMAERRCNT).get f = (s.chip.ringError r.val).get f := fun f fits flag cnt => by
    rw [Chip.hifEvent, Chip.event, get_bell]
    exact (get_put_apart _ _ _ _ fits cnt).trans (get_put_apart _ _ _ _ fits flag)
  refine ⟨_, exec_chip rfl failed, ?_, ?_, ?_, stops.busy r.val, stops.faults, stops.outs, rfl, rfl, ?_⟩
  · refine (told.get (RING.STAT_STATE r.val) ?_).trans stops.state
    simp only [RING.STAT_STATE, RING.STAT, HIF.EVT_DMAERRF, HIF.EVTCNT_DMAERRCNT, HIF.EVT, HIF.EVTCNT, Bool.or_eq_false_iff, beq_eq_false_iff_ne]
    omega
  · exact stops.recorded.congr rfl (ringErr _ rfl rfl rfl) (ringErr _ rfl rfl rfl)
  · exact (recorded_event (s.chip.ringError r.val) HIF.EVT_DMAERRF HIF.EVTCNT_DMAERRCNT 0xe0 rfl rfl rfl rfl rfl).congr stops.dmaCount.symm rfl rfl
  · exact (stops.regs.trans (told.mono (by simp_all [HIF.EVT_DMAERRF, HIF.EVTCNT_DMAERRCNT]))).same

/-- A record that fits joins the telemetry queue (R431, R433). -/
theorem telemetryFlush_queues :
    ∀ (s : State) (kind : Fin 5) (inst : Fin 256) (trig : Fin 2) (h : TelHw) (strm : Fin 4), s.chip.tels.get (1024 * kind.val + 2 * inst.val + trig.val) = h → h.words ≠ [] → h.strm = strm.val → h.start + orOne (s.chip.get (RING.MOD_TFLUSH (18 + strm.val))) ≤ s.chip.now →
    s.chip.ringRuns (18 + strm.val) = true → s.chip.inD0 = true → s.chip.ringFull (18 + strm.val) = false → s.chip.hif.telQ.length < 64 → s.chip.telRoom = true → ∃ t, Machine.exec (.telemetryFlush kind inst trig) s = .next t ∧
      (t.chip.tels.get (1024 * kind.val + 2 * inst.val + trig.val)).words = [] ∧ (t.chip.streams.get strm.val).seq = ((s.chip.streams.get strm.val).seq + 1) % 2 ^ 16 ∧ (t.chip.rings.get (18 + strm.val)).loss = false ∧
      t.chip.hif.telQ = s.chip.hif.telQ ++ [⟨18 + strm.val, bytesLE 1 kind.val ++ bytesLE 1 h.words.length ++ bytesLE 2 (s.chip.streams.get strm.val).seq ++ bytesLE 1 inst.val ++ bytesLE 1 h.dec ++
          [0, if (s.chip.rings.get (18 + strm.val)).loss then 1 else 0] ++ bytesLE 8 h.start ++ padTo 48 (h.words.flatMap fun w => bytesLE 4 w.toNat), false⟩] ∧
      t.chip.faultQ = s.chip.faultQ ∧ t.chip.outbox = s.chip.outbox ∧ Keeps s t (fun o => o == RING.STAT (18 + strm.val)) := by
  intro s kind inst trig h strm source some stream due runs d0 room wait rate
  have flushed := telFlush_of_due source some (stream ▸ due)
  rw [stream] at flushed
  have queues := telProduce_queues (c := s.chip.telEmptied (1024 * kind.val + 2 * inst.val + trig.val)) runs d0 room wait rate kind.val inst.val h.dec h.start h.words
  refine ⟨_, exec_chip rfl flushed, ?_, queues.seq, queues.loss, queues.queue, queues.faults, queues.outs, rfl, rfl, queues.regs.same⟩
  dsimp only
  rw [queues.tels]
  exact congrArg TelHw.words (Tbl.get_upd_same _ _ _)

/-- A step without a command writes the record that waits (R433; log entry 201). -/
theorem idle_writes_record :
    ∀ (s : State) (strm : Fin 4) (bytes : List Byte), s.pending = [] → s.chip.power.aon = true → s.chip.hif.telQ = [⟨18 + strm.val, bytes, false⟩] → bytes.length = 64 → (bytes.getD 7 0).toNat < 2 → s.chip.ringRuns (18 + strm.val) = true → s.chip.inD0 = true →
    (s.chip.rings.get (18 + strm.val)).unsig + 1 < orOne (s.chip.get (RING.MOD_MODCNT (18 + strm.val))) → ∃ t, step s = .next t ∧ t.chip.hif.telQ = [] ∧ t.chip.get (RING.DIDX_DIDX (18 + strm.val)) = (s.chip.get (RING.DIDX_DIDX (18 + strm.val)) + 1) % 2 ^ 32 ∧
      t.chip.outbox = s.chip.outbox ++ [.entry (18 + strm.val) (s.chip.get (RING.DIDX_DIDX (18 + strm.val))) (s.chip.entryAddr (18 + strm.val) (s.chip.get (RING.DIDX_DIDX (18 + strm.val))))
          (bytes.set 7 (BitVec.ofNat 8 ((bytes.getD 7 0).toNat + 128 * (1 - s.chip.get (RING.DIDX_DIDX (18 + strm.val)) / 2 ^ s.chip.get (RING.CFG_LOG2N (18 + strm.val)) % 2)))),
        .writeback (18 + strm.val) (s.chip.backAddr (18 + strm.val)) ((s.chip.get (RING.DIDX_DIDX (18 + strm.val)) + 1) % 2 ^ 32)] ∧
      t.chip.faultQ = s.chip.faultQ ∧ Keeps s t (fun o => span (0x31000 + 0x20 * (18 + strm.val)) (0x31020 + 0x20 * (18 + strm.val)) o) := by
  intro s strm bytes idle aon queue length flag runs d0 quiet
  obtain ⟨c, emptied⟩ : ∃ c : Chip, (s.chip.tick.hifUpd fun h => { h with telQ := [] }) = c := ⟨_, rfl⟩
  have ticked : s.chip.tick.regs = s.chip.regs ∧ s.chip.tick.rings = s.chip.rings ∧ s.chip.tick.hif = s.chip.hif ∧ s.chip.tick.outbox = s.chip.outbox ∧
      s.chip.tick.faultQ = s.chip.faultQ := by
    rw [tick_eq]
    exact ⟨rfl, rfl, rfl, rfl, rfl⟩
  obtain ⟨regs, rings, hif, outs, faults⟩ := ticked
  have same : c.regs = s.chip.regs ∧ c.rings = s.chip.rings ∧ c.hif.telQ = [] ∧ c.outbox = s.chip.outbox ∧ c.faultQ = s.chip.faultQ := by
    rw [← emptied]
    exact ⟨regs, rings, rfl, outs, faults⟩
  obtain ⟨regs', rings', empty, outs', faults'⟩ := same
  have runsOf : ∀ d : Chip, d.regs = s.chip.regs → d.ringRuns (18 + strm.val) = true := fun d hd => (ringRuns_congr hd _).trans runs
  have drained := telDrain_one (c := s.chip.tick) (host_of_ringRuns (runsOf _ regs)) (by rw [← d0, Chip.inD0, Chip.inD0, get_congr regs]) (hif ▸ queue)
  rw [emptied] at drained
  obtain ⟨written, index, hif'', faults'', own⟩ := telWrite_stores (c := c) (e := ⟨18 + strm.val, bytes, false⟩) (runsOf c regs') (by rw [rings', get_congr regs']; exact quiet) length flag
  have ends : step s = .next s.idle := by rw [step, idle]
  rw [idle_of_powered s aon, drained] at ends
  refine ⟨_, ends, ?_, ?_, ?_, faults''.trans faults', rfl, rfl, ?_⟩
  · rw [hif'', empty]
  · rw [index, get_congr regs']
  · rw [written, outs', get_congr regs', get_congr regs']
    unfold Chip.entryAddr Chip.backAddr Chip.reg
    rw [regs', get_congr regs']
  · have far : ∀ o, (o == RING.DIDX (18 + strm.val) || o == RING.CNT (18 + strm.val) || o == RING.STAT (18 + strm.val)) = true →
        span (0x31000 + 0x20 * (18 + strm.val)) (0x31020 + 0x20 * (18 + strm.val)) o = true := fun o ho => by
      simp only [Bool.or_eq_true, beq_iff_eq, RING.DIDX, RING.CNT, RING.STAT] at ho
      exact span_of_le_lt (by omega)
    exact (((Chip.OnlyIn.refl _ s.chip).upd regs').trans (own.mono far)).same

/-- A record that does not fit is dropped, counted, and told by LOSS (R433). -/
theorem telemetryFlush_drops :
    ∀ (s : State) (kind : Fin 5) (inst : Fin 256) (trig : Fin 2) (strm : Fin 4), (s.chip.tels.get (1024 * kind.val + 2 * inst.val + trig.val)).words ≠ [] → (s.chip.tels.get (1024 * kind.val + 2 * inst.val + trig.val)).strm = strm.val →
    (s.chip.tels.get (1024 * kind.val + 2 * inst.val + trig.val)).start + orOne (s.chip.get (RING.MOD_TFLUSH (18 + strm.val))) ≤ s.chip.now → (s.chip.ringRuns (18 + strm.val) = false ∨ s.chip.ringFull (18 + strm.val) = true ∨ 64 ≤ s.chip.hif.telQ.length ∨ s.chip.telRoom = false) →
    ∃ t, Machine.exec (.telemetryFlush kind inst trig) s = .next t ∧ (t.chip.tels.get (1024 * kind.val + 2 * inst.val + trig.val)).words = [] ∧ (t.chip.rings.get (18 + strm.val)).loss = true ∧ t.chip.get (RING.CNT_CNT (18 + strm.val)) = counted s.chip (RING.CNT_CNT (18 + strm.val)) ∧
      t.chip.hif.telQ = s.chip.hif.telQ ∧ t.chip.faultQ = s.chip.faultQ ∧ t.chip.outbox = s.chip.outbox ∧ Keeps s t (fun o => o == RING.CNT (18 + strm.val)) := by
  intro s kind inst trig strm some stream due full
  have flushed := telFlush_of_due rfl some (stream ▸ due)
  rw [stream, telProduce_dropped (c := s.chip.telEmptied (1024 * kind.val + 2 * inst.val + trig.val)) full] at flushed
  refine ⟨_, exec_chip rfl flushed, ?_, ?_, ?_, rfl, rfl, rfl, ?_⟩
  · exact congrArg TelHw.words (Tbl.get_upd_same _ _ _)
  · exact congrArg RingHw.loss (Tbl.get_upd_same _ _ _)
  · exact (get_ringDrop _ _).trans (counted_congr rfl _)
  · exact ⟨rfl, rfl, ((Chip.OnlyIn.refl (fun o => o == RING.CNT (18 + strm.val)) s.chip).put (RING.CNT_CNT (18 + strm.val)) _ (beq_self_eq_true _)).same⟩

/-- Settles O51: each poll, ring error, signal and record by its own lemma above. -/
theorem ringsArePolledSignalledAndFlushed : Obligations.RingsArePolledSignalledAndFlushed := by
  refine ⟨hostPoll_takes_indices, hostPoll_stops_ring, ?_, ?_, ?_, dmaReadError_stops_ring, ?_, telemetryFlush_queues, idle_writes_record, telemetryFlush_drops⟩
  · intro s bells live due
    have failed : s.chip.hostPoll bells false = s.chip.areaRead.hifEvent HIF.EVT_DMAERRF HIF.EVTCNT_DMAERRCNT := hostPoll_of_due live due bells false
    refine ⟨_, exec_chip rfl failed, ?_, (Effect.areaRead s).event _ _ _⟩
    exact (recorded_event s.chip.areaRead HIF.EVT_DMAERRF HIF.EVTCNT_DMAERRCNT 0xe0 rfl rfl rfl rfl rfl).congr (get_congr (pollTaken_regs s.chip) _).symm rfl rfl
  · intro s bells ok none
    have idle : s.chip.hostPoll bells ok = s.chip := by rw [Chip.hostPoll, if_pos (by simp [none])]
    exact ⟨s, exec_chip (d := s.chip) rfl idle, rfl⟩
  · intro s req reach
    have kicked : s.chip.kick = { s.chip with hif := { s.chip.hif with pollBusy := true, kickAgain := s.chip.hif.kickAgain || s.chip.hif.pollBusy } } := by
      unfold Chip.kick
      cases busy : s.chip.hif.pollBusy <;> simp [busy]
    exact ⟨_, exec_chip (exec_kick s req reach) kicked,
      (Effect.start s).innerStep (fun c => { c with hif := { c.hif with pollBusy := true, kickAgain := c.hif.kickAgain || c.hif.pollBusy } }) rfl rfl rfl rfl rfl rfl⟩
  · intro s r host some due up d0 msix master func mask
    have signalled : s.chip.moderation r.val = (s.chip.ringUpd r.val fun h => { h with unsig := 0 }).linkWake.out (.msix (s.chip.get (RING.CFG_VEC r.val))) := by
      rw [Chip.moderation, if_pos (by simp [host, some, due])]
      exact signalVec_sent (c := s.chip.ringUpd r.val fun h => { h with unsig := 0 }) up host d0 msix master func mask
    refine ⟨_, exec_chip rfl signalled, ?_, linkWake_lstate (s.chip.ringUpd r.val fun h => { h with unsig := 0 })⟩
    exact (((Effect.start s).innerStep (fun c => c.ringUpd r.val fun h => { h with unsig := 0 }) rfl rfl rfl rfl rfl rfl).linkWake).out _

end Sys2Proof.Machine

namespace Sys2Proof.Machine

/-! The PCIe function and its link (R414 to R417, R428, R429, R434, R446 to R448). -/

/-! What a lost link discards (R416). -/

/-- Only registers of `T`, and the engine's own view of the rings, change. -/
structure Chip.OnRings (T : Nat → Bool) (s t : Chip) : Prop where
  regs : s.OnlyIn T t
  rest : t = { s with regs := t.regs, rings := t.rings }

namespace Chip.OnRings

variable {T U : Nat → Bool} {s t u : Chip}

theorem refl (T : Nat → Bool) (s : Chip) : OnRings T s s := ⟨.refl _ _, rfl⟩

theorem put (h : OnRings T s t) (f : Fld) (v : Nat) (hf : T f.off = true) : OnRings T s (t.put f v) := by
  refine ⟨h.regs.put f v hf, ?_⟩
  obtain ⟨-, h⟩ := h
  generalize t.regs = regs, t.rings = rings at h
  subst h
  rfl

theorem ringUpd (h : OnRings T s t) (r : Nat) (f : RingHw → RingHw) : OnRings T s (t.ringUpd r f) := by
  refine ⟨h.regs.upd rfl, ?_⟩
  obtain ⟨-, h⟩ := h
  generalize t.regs = regs, t.rings = rings at h
  subst h
  rfl

theorem trans (h : OnRings T s t) (k : OnRings T t u) : OnRings T s u := ⟨h.regs.trans k.regs, by rw [k.rest, h.rest]⟩

theorem mono (h : OnRings T s t) (hTU : ∀ o, T o = true → U o = true) : OnRings U s t := ⟨h.regs.mono hTU, h.rest⟩

theorem hif (h : OnRings T s t) : t.hif = s.hif := by rw [h.rest]

theorem faults (h : OnRings T s t) : t.faultQ = s.faultQ := by rw [h.rest]

theorem outs (h : OnRings T s t) : t.outbox = s.outbox := by rw [h.rest]

end Chip.OnRings

/-- A ring's command in progress stays. -/
def Chip.SameBusy (s t : Chip) : Prop := ∀ q, (t.rings.get q).busy = (s.rings.get q).busy

theorem Chip.SameBusy.ringUpd {s t : Chip} (h : s.SameBusy t) (r : Nat) {f : RingHw → RingHw} (keeps : ∀ x, (f x).busy = x.busy) : s.SameBusy (t.ringUpd r f) := fun q => by
  have moved : ((t.ringUpd r f).rings.get q).busy = (t.rings.get q).busy := by
    rw [Chip.ringUpd, Tbl.get_upd]
    split
    · next here => rw [keeps, here]
    · rfl
  exact moved.trans (h q)

theorem ringDrop_eq (c : Chip) (r : Nat) : c.ringDrop r = (c.put (RING.CNT_CNT r) (min (c.get (RING.CNT_CNT r) + 1) (2 ^ (RING.CNT_CNT r).width - 1))).ringUpd r fun h => { h with loss := true } := rfl

theorem ringDrop_onRings (c : Chip) (r : Nat) : c.OnRings (· == RING.CNT r) (c.ringDrop r) := by
  rw [ringDrop_eq]
  exact ((Chip.OnRings.refl _ c).put _ _ (by simp [RING.CNT_CNT])).ringUpd r _

theorem ringDrop_busy (c : Chip) (r : Nat) : c.SameBusy (c.ringDrop r) := by
  rw [ringDrop_eq]
  exact Chip.SameBusy.ringUpd (t := c.put (RING.CNT_CNT r) _) (fun _ => rfl) r fun _ => rfl

/-- One held entry is discarded. -/
def Chip.heldDrop (s : Chip) (e : HeldEntry) : Chip := if e.ring = evtRing then s.ringDrop evtRing else s.inc HIF.LOST_CPLLOST

def heldRegs (o : Nat) : Bool := o == RING.CNT evtRing || o == HIF.LOST

theorem heldDrops (l : List HeldEntry) (c : Chip) : c.OnRings heldRegs (l.foldl Chip.heldDrop c) ∧ c.SameBusy (l.foldl Chip.heldDrop c) := by
  induction l generalizing c with
  | nil => exact ⟨.refl _ c, fun _ => rfl⟩
  | cons e l ih =>
    have first : c.OnRings heldRegs (c.heldDrop e) ∧ c.SameBusy (c.heldDrop e) := by
      unfold Chip.heldDrop
      split
      · exact ⟨(ringDrop_onRings c evtRing).mono fun o ho => by simp_all [heldRegs], ringDrop_busy c evtRing⟩
      · exact ⟨(Chip.OnRings.refl _ c).put _ _ (by decide), fun _ => rfl⟩
    obtain ⟨rest, busy⟩ := ih (c.heldDrop e)
    exact ⟨first.1.trans rest, fun q => (busy q).trans (first.2 q)⟩

/-- One record of the telemetry queue is dropped. -/
def Chip.telDrop (s : Chip) (e : HeldEntry) : Chip := (s.ringUpd e.ring fun h => { h with reserved := h.reserved - 1 }).ringDrop e.ring

def telRegs (l : List HeldEntry) (o : Nat) : Bool := l.any fun e => o == RING.CNT e.ring

theorem telDrops (l : List HeldEntry) (c : Chip) : c.OnRings (telRegs l) (l.foldl Chip.telDrop c) ∧ c.SameBusy (l.foldl Chip.telDrop c) := by
  induction l generalizing c with
  | nil => exact ⟨.refl _ c, fun _ => rfl⟩
  | cons e l ih =>
    have first : c.OnRings (telRegs (e :: l)) (c.telDrop e) ∧ c.SameBusy (c.telDrop e) := by
      have reserved : c.SameBusy (c.ringUpd e.ring fun h => { h with reserved := h.reserved - 1 }) := Chip.SameBusy.ringUpd (t := c) (fun _ => rfl) _ fun _ => rfl
      refine ⟨((Chip.OnRings.refl _ c).ringUpd e.ring _).trans ((ringDrop_onRings _ e.ring).mono fun o ho => ?_), fun q => (ringDrop_busy _ e.ring q).trans (reserved q)⟩
      simp_all [telRegs]
    obtain ⟨rest, busy⟩ := ih (c.telDrop e)
    refine ⟨first.1.trans (rest.mono fun o ho => ?_), fun q => (busy q).trans (first.2 q)⟩
    rw [telRegs] at ho
    rw [telRegs, List.any_cons, ho, Bool.or_true]

theorem heldDiscard_eq (c : Chip) : c.heldDiscard = (c.hif.held.foldl Chip.heldDrop c).hifUpd fun h => { h with held := [], heldEvents := 0, pollBusy := false, kickAgain := false } := rfl

theorem telDiscard_eq (c : Chip) : c.telDiscard = c.hif.telQ.foldl Chip.telDrop (c.hifUpd fun h => { h with telQ := [] }) := rfl

/-! The rings are disabled. -/

/-- The registers that a ring's end changes. -/
def killRegs (l : List Nat) (o : Nat) : Bool := l.any fun r => o == RING.CFG r || o == RING.STAT r

/-- A ring that has been disabled, with its command in progress marked. -/
structure Chip.Killed (s t : Chip) (r : Nat) : Prop where
  en : t.get (RING.CFG_EN r) = 0
  state : t.get (RING.STAT_STATE r) = 0
  busy : (t.rings.get r).busy = (s.rings.get r).busy.map fun b => { b with dead := true }

theorem ringKill_onRings (c : Chip) (r : Nat) : c.OnRings (killRegs [r]) (c.ringKill r) := by
  rw [Chip.ringKill]
  exact ((((Chip.OnRings.refl _ c).put _ _ (by simp [killRegs, RING.CFG_EN])).put _ _ (by simp [killRegs, RING.STAT_STATE])).put _ _ (by simp [killRegs, RING.STAT_FULL])).ringUpd r _

theorem ringKill_killed (c : Chip) (r : Nat) : c.Killed (c.ringKill r) r := by
  obtain ⟨u, hu⟩ : ∃ u, ((c.put (RING.CFG_EN r) 0).put (RING.STAT_STATE r) 0).put (RING.STAT_FULL r) 0 = u := ⟨_, rfl⟩
  have kill : c.ringKill r = u.ringUpd r fun h => { busy := h.busy.map fun b => { b with dead := true } } := by rw [← hu]; rfl
  have rings : u.rings = c.rings := by rw [← hu]; rfl
  have regs : (u.ringUpd r fun h => { busy := h.busy.map fun b => { b with dead := true } }).regs = u.regs := rfl
  have cfgStat : RING.CFG r ≠ RING.STAT r := by simp [RING.CFG, RING.STAT]
  rw [kill]
  refine ⟨?_, ?_, ?_⟩
  · rw [get_congr regs, ← hu, get_put_off_ne _ _ _ _ cfgStat, get_put_off_ne _ _ _ _ cfgStat]
    exact get_put_same _ _ _ rfl
  · rw [get_congr regs, ← hu, get_put_apart _ _ _ _ rfl (by simp [Fld.apart, RING.STAT_STATE, RING.STAT_FULL])]
    exact get_put_same _ _ _ rfl
  · rw [← rings]
    exact congrArg RingHw.busy (Tbl.get_upd_same _ _ _)

theorem ringKill_others (c : Chip) {r q : Nat} (h : q ≠ r) : (c.ringKill r).rings.get q = c.rings.get q := Tbl.get_upd_other _ _ _ _ h

theorem killRegs_other {l : List Nat} {r : Nat} (h : r ∉ l) : killRegs l (RING.CFG r) = false ∧ killRegs l (RING.STAT r) = false := by
  simp only [killRegs, List.any_eq_false, Bool.or_eq_true, beq_iff_eq, RING.CFG, RING.STAT]
  refine ⟨fun q hq => ?_, fun q hq => ?_⟩ <;>
  · have : q ≠ r := fun e => h (e ▸ hq)
    omega

theorem ringKills (l : List Nat) (c : Chip) (distinct : l.Nodup) :
    c.OnRings (killRegs l) (c.forEach l fun r t => t.ringKill r) ∧ (∀ r ∈ l, c.Killed (c.forEach l fun r t => t.ringKill r) r) ∧
      ∀ r, r ∉ l → (c.forEach l fun r t => t.ringKill r).rings.get r = c.rings.get r := by
  induction l generalizing c with
  | nil => exact ⟨.refl _ c, by simp, fun _ _ => rfl⟩
  | cons r l ih =>
    obtain ⟨fresh, distinct⟩ := List.nodup_cons.mp distinct
    obtain ⟨rest, each, others⟩ := ih (c.ringKill r) distinct
    have total : c.forEach (r :: l) (fun r t => t.ringKill r) = (c.ringKill r).forEach l fun r t => t.ringKill r := rfl
    rw [total]
    refine ⟨((ringKill_onRings c r).mono fun o ho => ?_).trans (rest.mono fun o ho => ?_), fun q hq => ?_, fun q hq => ?_⟩
    · simp only [killRegs, List.any_cons, List.any_nil, Bool.or_false] at ho ⊢
      rw [ho, Bool.true_or]
    · rw [killRegs] at ho
      rw [killRegs, List.any_cons, ho, Bool.or_true]
    · rcases List.mem_cons.mp hq with rfl | hq
      · obtain ⟨en, state, busy⟩ := ringKill_killed c q
        obtain ⟨cfg, stat⟩ := killRegs_other fresh
        exact ⟨(rest.regs.get (RING.CFG_EN q) cfg).trans en, (rest.regs.get (RING.STAT_STATE q) stat).trans state, (congrArg RingHw.busy (others q fresh)).trans busy⟩
      · obtain ⟨en, state, busy⟩ := each q hq
        exact ⟨en, state, by rw [busy, ringKill_others c (ne_of_mem_of_not_mem hq fresh)]⟩
    · obtain ⟨differ, fresh'⟩ := not_or.mp (mt List.mem_cons.mpr hq)
      rw [others q fresh', ringKill_others c differ]

/-- The registers that a lost link changes in the rings. -/
def Chip.downRegs (s : Chip) (o : Nat) : Bool := o == HIF.CTRL || heldRegs o || telRegs s.hif.telQ o || killRegs allRings o

/-- What a lost link leaves of the interface's own state. -/
def HifHw.down (h : HifHw) : HifHw := { h with held := [], heldEvents := 0, pollBusy := false, kickAgain := false, telQ := [] }

/-- What a lost link does to the rings. -/
structure Chip.GoesDown (s t : Chip) : Prop where
  regs : s.OnlyIn s.downRegs t
  en : t.get HIF.CTRL_EN = 0
  rings : ∀ r ∈ allRings, s.Killed t r
  hif : t.hif = s.hif.down
  faults : t.faultQ = s.faultQ
  outs : t.outbox = s.outbox
  lost : s.hif.held = [] → t.reg HIF.LOST = s.reg HIF.LOST

theorem telRegs_low {l : List HeldEntry} {o : Nat} (h : o < 0x3101c) : telRegs l o = false := by
  simp only [telRegs, List.any_eq_false, beq_iff_eq, RING.CNT]
  intro e _
  omega

theorem killRegs_low {l : List Nat} {o : Nat} (h : o < 0x31008) : killRegs l o = false := by
  simp only [killRegs, List.any_eq_false, Bool.or_eq_true, beq_iff_eq, RING.CFG, RING.STAT]
  intro e _
  omega

theorem ringsDown_spec (c : Chip) : c.GoesDown c.ringsDown := by
  obtain ⟨a, disabled⟩ : ∃ a, c.put HIF.CTRL_EN 0 = a := ⟨_, rfl⟩
  obtain ⟨b, discarded⟩ : ∃ b, a.hif.held.foldl Chip.heldDrop a = b := ⟨_, rfl⟩
  obtain ⟨d, cleared⟩ : ∃ d, (b.hifUpd fun h => { h with held := [], heldEvents := 0, pollBusy := false, kickAgain := false }).hifUpd (fun h => { h with telQ := [] }) = d := ⟨_, rfl⟩
  obtain ⟨e, dropped⟩ : ∃ e, b.hif.telQ.foldl Chip.telDrop d = e := ⟨_, rfl⟩
  have down : c.ringsDown = e.forEach allRings fun r t => t.ringKill r := by
    rw [← dropped, ← cleared, ← discarded, ← disabled]
    rfl
  have aRegs : c.OnlyIn (· == HIF.CTRL) a := by
    rw [← disabled]
    exact (Chip.OnlyIn.refl _ c).put _ _ (by decide)
  have aEn : a.get HIF.CTRL_EN = 0 := by
    rw [← disabled]
    exact get_put_same _ _ _ rfl
  have aRest : a.hif = c.hif ∧ a.faultQ = c.faultQ ∧ a.outbox = c.outbox ∧ a.rings = c.rings := by
    rw [← disabled]
    exact ⟨rfl, rfl, rfl, rfl⟩
  obtain ⟨aHif, aFaults, aOuts, aRings⟩ := aRest
  obtain ⟨bOn, bBusy⟩ := heldDrops a.hif.held a
  rw [discarded] at bOn bBusy
  have dRest : d.regs = b.regs ∧ d.rings = b.rings ∧ d.hif = b.hif.down ∧ d.faultQ = b.faultQ ∧ d.outbox = b.outbox := by
    rw [← cleared]
    exact ⟨rfl, rfl, rfl, rfl, rfl⟩
  obtain ⟨dRegs, dRings, dHif, dFaults, dOuts⟩ := dRest
  obtain ⟨eOn, eBusy⟩ := telDrops b.hif.telQ d
  rw [dropped] at eOn eBusy
  obtain ⟨kOn, kEach, -⟩ := ringKills allRings e (by decide)
  rw [down]
  have telQ : b.hif.telQ = c.hif.telQ := by rw [bOn.hif, aHif]
  have busy : ∀ q, (e.rings.get q).busy = (c.rings.get q).busy := fun q => by rw [eBusy q, dRings, bBusy q, aRings]
  refine ⟨?_, ?_, fun r hr => ?_, ?_, ?_, ?_, fun none => ?_⟩
  · refine Chip.OnlyIn.trans (t := e) (Chip.OnlyIn.trans (t := d) (Chip.OnlyIn.upd (t := b) (Chip.OnlyIn.trans (t := a) ?_ ?_) dRegs) ?_) ?_
    · exact aRegs.mono fun o ho => by simp_all [Chip.downRegs]
    · exact bOn.regs.mono fun o ho => by simp_all [Chip.downRegs]
    · exact eOn.regs.mono fun o ho => by simp_all [Chip.downRegs]
    · exact kOn.regs.mono fun o ho => by simp_all [Chip.downRegs]
  · rw [kOn.regs.get _ (killRegs_low (by decide)), eOn.regs.get _ (telRegs_low (by decide)), get_congr dRegs, bOn.regs.get _ (by decide), aEn]
  · obtain ⟨en, state, busy'⟩ := kEach r hr
    exact ⟨en, state, by rw [busy', busy]⟩
  · rw [kOn.hif, eOn.hif, dHif, bOn.hif, aHif]
  · rw [kOn.faults, eOn.faults, dFaults, bOn.faults, aFaults]
  · rw [kOn.outs, eOn.outs, dOuts, bOn.outs, aOuts]
  · have same : b = a := by rw [← discarded, aHif, none]; rfl
    have lost : ∀ t : Chip, t.reg HIF.LOST = t.regs.get HIF.LOST := fun _ => rfl
    rw [lost, lost, kOn.regs.same _ (killRegs_low (by decide)), eOn.regs.same _ (telRegs_low (by decide)), dRegs, same, aRegs.same _ (by decide)]

/-! Link up, link down and Function Level Reset (R414, R416, R446, R447). -/

theorem pcieUp_of_down {c : Chip} (host : c.domOn .host = true) (down : c.get HIF.STAT_LINKUP = 0) (gen : Nat) (two : Bool) :
    c.pcieUp gen two = ((((c.put HIF.STAT_LINKUP 1).put HIF.STAT_SPEED (gen + 1)).put HIF.STAT_WIDTH (if two then 2 else 1)).put HIF.STAT_LSTATE 0).put TIME.TBSTAT_TB4OK 1 :=
  if_pos (by simp [host, Chip.bit, down])

theorem pcieLinkUp_shows :
    ∀ (s : State) (gen : Fin 4) (two : Bool), s.chip.domOn .host = true → s.chip.get HIF.STAT_LINKUP = 0 → ∃ t, Machine.exec (.pcieLinkUp gen two) s = .next t ∧ t.chip.get HIF.STAT_LINKUP = 1 ∧ t.chip.get HIF.STAT_SPEED = gen.val + 1 ∧
      t.chip.get HIF.STAT_WIDTH = (if two then 2 else 1) ∧ t.chip.get HIF.STAT_LSTATE = 0 ∧ t.chip.get TIME.TBSTAT_TB4OK = 1 ∧ Effect s t id [HIF.STAT_LINKUP, HIF.STAT_SPEED, HIF.STAT_WIDTH, HIF.STAT_LSTATE, TIME.TBSTAT_TB4OK] [] [] [] := by
  intro s gen two host down
  have e := (((((Effect.start s).put HIF.STAT_LINKUP 1).put HIF.STAT_SPEED (gen.val + 1)).put HIF.STAT_WIDTH (if two then 2 else 1)).put HIF.STAT_LSTATE 0).put TIME.TBSTAT_TB4OK 1
  refine ⟨_, exec_chip rfl (pcieUp_of_down host down gen.val two), ?_, ?_, ?_, ?_, ?_, e⟩
  · exact (get_put_apart _ _ _ _ rfl rfl).trans <| (get_put_apart _ _ _ _ rfl rfl).trans <| (get_put_apart _ _ _ _ rfl rfl).trans <|
      (get_put_apart _ _ _ _ rfl rfl).trans (get_put_same _ _ _ rfl)
  · refine (get_put_apart _ _ _ _ rfl rfl).trans <| (get_put_apart _ _ _ _ rfl rfl).trans <| (get_put_apart _ _ _ _ rfl rfl).trans <| (get_put_same _ _ _ rfl).trans ?_
    exact Nat.mod_eq_of_lt (show gen.val + 1 < 2 ^ 3 by omega)
  · refine (get_put_apart _ _ _ _ rfl rfl).trans <| (get_put_apart _ _ _ _ rfl rfl).trans <| (get_put_same _ _ _ rfl).trans ?_
    cases two <;> rfl
  · exact (get_put_apart _ _ _ _ rfl rfl).trans (get_put_same _ _ _ rfl)
  · exact get_put_same _ _ _ rfl

/-- The link's fields after it is lost. -/
def Chip.linkGone (s : Chip) (tb4 : Bool) : Chip := ((((s.put HIF.STAT_LINKUP 0).put HIF.STAT_SPEED 0).put HIF.STAT_WIDTH 0).put HIF.STAT_LSTATE 3).putB TIME.TBSTAT_TB4OK tb4

theorem pcieDown_of_up {c : Chip} (host : c.domOn .host = true) (up : c.get HIF.STAT_LINKUP = 1) (tb4 : Bool) :
    c.pcieDown tb4 = (c.ringsDown.hifEvent HIF.EVT_LINKDF HIF.EVTCNT_LINKDCNT).linkGone tb4 := if_pos (by simp [host, Chip.bit, up])

theorem linkGone_onlyIn (c : Chip) (tb4 : Bool) : c.OnlyIn (fun o => o == HIF.STAT || o == TIME.TBSTAT) (c.linkGone tb4) :=
  (((((Chip.OnlyIn.refl _ c).put HIF.STAT_LINKUP 0 rfl).put HIF.STAT_SPEED 0 rfl).put HIF.STAT_WIDTH 0 rfl).put HIF.STAT_LSTATE 3 rfl).put TIME.TBSTAT_TB4OK tb4.toNat rfl

theorem linkGone_link (c : Chip) (tb4 : Bool) : (c.linkGone tb4).get HIF.STAT_LINKUP = 0 ∧ (c.linkGone tb4).get HIF.STAT_LSTATE = 3 ∧ (c.linkGone tb4).get TIME.TBSTAT_TB4OK = tb4.toNat := by
  refine ⟨?_, ?_, ?_⟩
  · exact (get_put_apart _ _ _ _ rfl rfl).trans <| (get_put_apart _ _ _ _ rfl rfl).trans <| (get_put_apart _ _ _ _ rfl rfl).trans <|
      (get_put_apart _ _ _ _ rfl rfl).trans (get_put_same _ _ _ rfl)
  · exact (get_put_apart _ _ _ _ rfl rfl).trans (get_put_same _ _ _ rfl)
  · refine (get_put_same _ _ _ rfl).trans ?_
    cases tb4 <;> rfl

theorem downRegs_of_mid {c : Chip} {o : Nat} (ctrl : o ≠ HIF.CTRL) (lost : o ≠ HIF.LOST) (low : o < 0x31008) : c.downRegs o = false := by
  have cnt : (o == RING.CNT evtRing) = false := beq_eq_false_iff_ne.mpr (by simp only [RING.CNT, evtRing]; omega)
  simp [Chip.downRegs, heldRegs, ctrl, lost, cnt, telRegs_low (show o < 0x3101c by omega), killRegs_low low]

/-- What a lost link changes in the rings lies in the function, or is a count of dropped telemetry. -/
theorem downRegs_within {c : Chip} {o : Nat} (h : c.downRegs o = true) : (span 0x30000 0x312c0 o || c.hif.telQ.any fun e => o == RING.CNT e.ring) = true := by
  simp only [Chip.downRegs, Bool.or_eq_true] at h
  rw [Bool.or_eq_true]
  obtain ((ctrl | held) | tel) | kill := h
  · exact .inl (by rw [beq_iff_eq.mp ctrl]; rfl)
  · simp only [heldRegs, Bool.or_eq_true, beq_iff_eq] at held
    obtain rfl | rfl := held <;> exact .inl rfl
  · exact .inr tel
  · obtain ⟨r, hr, here⟩ := List.any_eq_true.mp kill
    have small := (lt_of_mem_allRings hr).1
    simp only [Bool.or_eq_true, beq_iff_eq, RING.CFG, RING.STAT] at here
    exact .inl (span_of_le_lt (by omega))

theorem ring_not_event (r : Nat) : RING.CFG r ≠ HIF.EVT ∧ RING.STAT r ≠ HIF.EVT ∧ RING.CFG r ≠ HIF.EVTCNT ∧ RING.STAT r ≠ HIF.EVTCNT ∧ RING.CFG r ≠ HIF.STAT ∧ RING.STAT r ≠ HIF.STAT ∧
    RING.CFG r ≠ TIME.TBSTAT ∧ RING.STAT r ≠ TIME.TBSTAT := by
  simp only [RING.CFG, RING.STAT, HIF.EVT, HIF.EVTCNT, HIF.STAT, TIME.TBSTAT]
  refine ⟨?_, ?_, ?_, ?_, ?_, ?_, ?_, ?_⟩ <;> omega

theorem pcieLinkDown_stops :
    ∀ (s : State) (tb4 : Bool), s.chip.domOn .host = true → s.chip.get HIF.STAT_LINKUP = 1 → ∃ t, Machine.exec (.pcieLinkDown tb4) s = .next t ∧ t.chip.get TIME.TBSTAT_TB4OK = tb4.toNat ∧ Recorded s.chip t.chip HIF.EVT_LINKDF HIF.EVTCNT_LINKDCNT ∧ t.chip.get HIF.STAT_LINKUP = 0 ∧ t.chip.get HIF.STAT_LSTATE = 3 ∧ t.chip.get HIF.CTRL_EN = 0 ∧
      (∀ r : Fin 22, r.val ≠ 17 → t.chip.get (RING.CFG_EN r.val) = 0 ∧ t.chip.get (RING.STAT_STATE r.val) = 0 ∧ (t.chip.rings.get r.val).busy = (s.chip.rings.get r.val).busy.map fun b => { b with dead := true }) ∧
      t.chip.hif.held = [] ∧ t.chip.hif.pollBusy = false ∧ t.chip.hif.evSeq = s.chip.hif.evSeq ∧ t.chip.faultQ = s.chip.faultQ ∧ t.chip.hif.telQ = [] ∧ t.chip.outbox = s.chip.outbox ∧ Keeps s t (fun o => span 0x30000 0x312c0 o || o == TIME.TBSTAT || s.chip.hif.telQ.any (fun e => o == RING.CNT e.ring)) := by
  intro s tb4 host up
  obtain ⟨d, stopped⟩ : ∃ d, s.chip.ringsDown = d := ⟨_, rfl⟩
  have down : s.chip.GoesDown d := stopped ▸ ringsDown_spec s.chip
  obtain ⟨u, told⟩ : ∃ u, d.hifEvent HIF.EVT_LINKDF HIF.EVTCNT_LINKDCNT = u := ⟨_, rfl⟩
  have event : d.OnlyIn (fun o => o == HIF.EVT || o == HIF.EVTCNT) u := told ▸ hifEvent_onlyIn d HIF.EVT_LINKDF HIF.EVTCNT_LINKDCNT
  have recorded : Recorded d u HIF.EVT_LINKDF HIF.EVTCNT_LINKDCNT := told ▸ recorded_event d _ _ 0xe0 rfl rfl rfl rfl rfl
  have kept : u.hif = d.hif ∧ u.faultQ = d.faultQ ∧ u.outbox = d.outbox ∧ u.rings = d.rings := by
    rw [← told]
    exact ⟨rfl, rfl, rfl, rfl⟩
  obtain ⟨hif, faults, outs, rings⟩ := kept
  obtain ⟨v, gone⟩ : ∃ v, u.linkGone tb4 = v := ⟨_, rfl⟩
  have shown : u.OnlyIn (fun o => o == HIF.STAT || o == TIME.TBSTAT) v := gone ▸ linkGone_onlyIn u tb4
  have link : v.get HIF.STAT_LINKUP = 0 ∧ v.get HIF.STAT_LSTATE = 3 ∧ v.get TIME.TBSTAT_TB4OK = tb4.toNat := gone ▸ linkGone_link u tb4
  have kept : v.hif = u.hif ∧ v.faultQ = u.faultQ ∧ v.outbox = u.outbox ∧ v.rings = u.rings := by
    rw [← gone]
    exact ⟨rfl, rfl, rfl, rfl⟩
  obtain ⟨hif', faults', outs', rings'⟩ := kept
  have hifDown : v.hif = s.chip.hif.down := by rw [hif', hif, down.hif]
  have counter : d.get HIF.EVTCNT_LINKDCNT = s.chip.get HIF.EVTCNT_LINKDCNT := down.regs.get _ (downRegs_of_mid (by decide) (by decide) (by decide))
  obtain ⟨flag, count⟩ := recorded
  refine ⟨{ s with chip := v }, exec_chip rfl ((pcieDown_of_up host up tb4).trans (by rw [stopped, told, gone])), link.2.2, ⟨?_, ?_⟩, link.1, link.2.1, ?_, fun r other => ?_, ?_, ?_, ?_, ?_, ?_, ?_, rfl, rfl, ?_⟩
  · exact (shown.get HIF.EVT_LINKDF (by decide)).trans flag
  · refine (shown.get HIF.EVTCNT_LINKDCNT (by decide)).trans (count.trans ?_)
    rw [counted, counted, counter]
  · exact (shown.get HIF.CTRL_EN (by decide)).trans ((event.get HIF.CTRL_EN (by decide)).trans down.en)
  · obtain ⟨en, state, busy⟩ := down.rings r.val (mem_allRings other)
    have far := ring_not_event r.val
    refine ⟨?_, ?_, ?_⟩
    · exact (shown.get (RING.CFG_EN r.val) (by simp [RING.CFG_EN, far])).trans ((event.get (RING.CFG_EN r.val) (by simp [RING.CFG_EN, far])).trans en)
    · exact (shown.get (RING.STAT_STATE r.val) (by simp [RING.STAT_STATE, far])).trans ((event.get (RING.STAT_STATE r.val) (by simp [RING.STAT_STATE, far])).trans state)
    · exact (congrArg (fun x : Tbl RingHw _ => (x.get r.val).busy) (rings'.trans rings)).trans busy
  · exact congrArg HifHw.held hifDown
  · exact congrArg HifHw.pollBusy hifDown
  · exact Eq.trans (b := s.chip.hif.down.evSeq) (congrArg HifHw.evSeq hifDown) rfl
  · exact faults'.trans (faults.trans down.faults)
  · exact congrArg HifHw.telQ hifDown
  · exact outs'.trans (outs.trans down.outs)
  · refine ((down.regs.mono fun o ho => ?_).trans ((event.mono fun o ho => ?_).trans (shown.mono fun o ho => ?_))).same
    · have := downRegs_within ho
      simp only [Bool.or_eq_true] at this ⊢
      tauto
    · simp only [Bool.or_eq_true, beq_iff_eq] at ho
      obtain rfl | rfl := ho <;> rfl
    · simp only [Bool.or_eq_true, beq_iff_eq] at ho
      obtain rfl | rfl := ho <;> rfl

theorem cellsGet_filter {α : Type} (d : Nat → α) (l : List (Nat × α)) (p : Nat → Bool) (k : Nat) (h : CellsWf d l) :
    cellsGet d (l.filter fun e => !p e.1) k = if p k then d k else cellsGet d l k := by
  induction l with
  | nil => exact (ite_self _).symm
  | cons e l ih =>
    obtain ⟨rising, own⟩ := h
    obtain ⟨first, rest⟩ := List.pairwise_cons.mp rising
    have tail := ih ⟨rest, fun x hx => own x (List.mem_cons_of_mem _ hx)⟩
    by_cases before : k < e.1
    · have below : cellsGet d ((e :: l).filter fun x => !p x.1) k = d k := cellsGet_below d _ k fun x hx => by
        rcases List.mem_cons.mp (List.mem_of_mem_filter hx) with rfl | hx
        · exact before
        · exact lt_trans before (first x hx)
      rw [below, cellsGet, if_neg (ne_of_gt before), if_pos before, ite_self]
    · by_cases dropped : p e.1 = true
      · rw [List.filter_cons_of_neg (by simp [dropped]), tail, cellsGet, if_neg before]
        by_cases here : e.1 = k
        · rw [← here, if_pos dropped, if_pos dropped]
        · rw [if_neg here]
      · rw [List.filter_cons_of_pos (by simp [dropped]), cellsGet, cellsGet, if_neg before, if_neg before]
        by_cases here : e.1 = k
        · rw [if_pos here, if_pos here, ← here, if_neg dropped]
        · rw [if_neg here, if_neg here, tail]

theorem Tbl.get_drop {α : Type} {d : Nat → α} (t : Tbl α d) (p : Nat → Bool) (k : Nat) : (t.drop p).get k = if p k then d k else t.get k := cellsGet_filter d t.entries p k t.wf

/-- The function after its reset: its registers and its own state at their reset values. -/
def Chip.funcReset (s : Chip) : Chip := { s with regs := s.regs.drop inFunction, hif := { evSeq := s.hif.evSeq, subsystem := s.hif.subsystem } }

/-- STAT and LOST are given back, and the function is in D0. -/
def Chip.funcKeeps (s : Chip) (stat lost : Word) : Chip := (((s.setReg HIF.STAT stat).put HIF.STAT_DSTATE 0).put HIF.STAT_PAUSED 0).setReg HIF.LOST lost

theorem flReset_of_up {c : Chip} (host : c.domOn .host = true) (up : c.get HIF.STAT_LINKUP = 1) :
    c.flReset = (c.ringsDown.funcReset.funcKeeps (c.reg HIF.STAT) (c.ringsDown.reg HIF.LOST)).hifEvent HIF.EVT_FLRF HIF.LOST_FLRCNT := if_pos (by simp [host, Chip.bit, up])

theorem funcReset_reg (c : Chip) (o : Nat) : c.funcReset.reg o = if inFunction o then resetWord o else c.reg o := Tbl.get_drop c.regs inFunction o

theorem funcKeeps_onlyIn (c : Chip) (stat lost : Word) : c.OnlyIn (fun o => o == HIF.STAT || o == HIF.LOST) (c.funcKeeps stat lost) :=
  ((((Chip.OnlyIn.refl _ c).setReg HIF.STAT stat rfl).put HIF.STAT_DSTATE 0 rfl).put HIF.STAT_PAUSED 0 rfl).setReg HIF.LOST lost rfl

theorem funcKeeps_lost (c : Chip) (stat lost : Word) : (c.funcKeeps stat lost).reg HIF.LOST = lost := reg_setReg_same _ _ _

theorem get_setReg_of_ne (c : Chip) (o : Nat) (w : Word) (f : Fld) (h : f.off ≠ o) : (c.setReg o w).get f = c.get f := congrArg (wordField · f.lo f.width) (reg_setReg_other c o f.off w h)

theorem get_setReg_of_off (c : Chip) (o : Nat) (w : Word) (f : Fld) (h : f.off = o) : (c.setReg o w).get f = wordField w f.lo f.width := by
  subst h
  exact congrArg (wordField · f.lo f.width) (reg_setReg_same c f.off w)

theorem funcKeeps_stat (c s : Chip) (lost : Word) : (c.funcKeeps (s.reg HIF.STAT) lost).get HIF.STAT_LINKUP = s.get HIF.STAT_LINKUP ∧
    (c.funcKeeps (s.reg HIF.STAT) lost).get HIF.STAT_SPEED = s.get HIF.STAT_SPEED ∧ (c.funcKeeps (s.reg HIF.STAT) lost).get HIF.STAT_DSTATE = 0 ∧
    (c.funcKeeps (s.reg HIF.STAT) lost).get HIF.STAT_PAUSED = 0 := by
  refine ⟨?_, ?_, ?_, ?_⟩
  · exact (get_setReg_of_ne _ _ _ _ (by decide)).trans <| (get_put_apart _ _ _ _ rfl rfl).trans <| (get_put_apart _ _ _ _ rfl rfl).trans (get_setReg_of_off _ _ _ _ rfl)
  · exact (get_setReg_of_ne _ _ _ _ (by decide)).trans <| (get_put_apart _ _ _ _ rfl rfl).trans <| (get_put_apart _ _ _ _ rfl rfl).trans (get_setReg_of_off _ _ _ _ rfl)
  · exact (get_setReg_of_ne _ _ _ _ (by decide)).trans <| (get_put_apart _ _ _ _ rfl rfl).trans (get_put_same _ _ _ rfl)
  · exact (get_setReg_of_ne _ _ _ _ (by decide)).trans (get_put_same _ _ _ rfl)

theorem functionLevelReset_resets :
    ∀ (s : State), s.chip.domOn .host = true → s.chip.get HIF.STAT_LINKUP = 1 → s.chip.hif.held = [] → ∃ t, Machine.exec .functionLevelReset s = .next t ∧ t.chip.get HIF.EVT_FLRF = 1 ∧ t.chip.get HIF.LOST_FLRCNT = counted s.chip HIF.LOST_FLRCNT ∧ t.chip.get HIF.LOST_CPLLOST = s.chip.get HIF.LOST_CPLLOST ∧
      t.chip.get HIF.STAT_LINKUP = 1 ∧ t.chip.get HIF.STAT_SPEED = s.chip.get HIF.STAT_SPEED ∧ t.chip.get HIF.STAT_DSTATE = 0 ∧ t.chip.get HIF.STAT_PAUSED = 0 ∧ t.chip.hif = { evSeq := s.chip.hif.evSeq, subsystem := s.chip.hif.subsystem } ∧
      (∀ o : Nat, inFunction o = true → o ≠ HIF.STAT → o ≠ HIF.LOST → o ≠ HIF.EVT → t.chip.reg o = resetWord o) ∧ t.chip.faultQ = s.chip.faultQ ∧ t.chip.outbox = s.chip.outbox ∧ Keeps s t (fun o => inFunction o || s.chip.hif.telQ.any (fun e => o == RING.CNT e.ring)) := by
  intro s host up held
  obtain ⟨d, stopped⟩ : ∃ d, s.chip.ringsDown = d := ⟨_, rfl⟩
  have down : s.chip.GoesDown d := stopped ▸ ringsDown_spec s.chip
  obtain ⟨w, reset⟩ : ∃ w, d.funcReset = w := ⟨_, rfl⟩
  have words : ∀ o, w.reg o = if inFunction o then resetWord o else d.reg o := fun o => reset ▸ funcReset_reg d o
  have kept : w.hif = { evSeq := d.hif.evSeq, subsystem := d.hif.subsystem } ∧ w.faultQ = d.faultQ ∧ w.outbox = d.outbox := by
    rw [← reset]
    exact ⟨rfl, rfl, rfl⟩
  obtain ⟨hif, faults, outs⟩ := kept
  obtain ⟨u, given⟩ : ∃ u, w.funcKeeps (s.chip.reg HIF.STAT) (d.reg HIF.LOST) = u := ⟨_, rfl⟩
  have keeps : w.OnlyIn (fun o => o == HIF.STAT || o == HIF.LOST) u := given ▸ funcKeeps_onlyIn w (s.chip.reg HIF.STAT) (d.reg HIF.LOST)
  have stat : u.get HIF.STAT_LINKUP = s.chip.get HIF.STAT_LINKUP ∧ u.get HIF.STAT_SPEED = s.chip.get HIF.STAT_SPEED ∧ u.get HIF.STAT_DSTATE = 0 ∧ u.get HIF.STAT_PAUSED = 0 :=
    given ▸ funcKeeps_stat w s.chip (d.reg HIF.LOST)
  have lost : u.reg HIF.LOST = s.chip.reg HIF.LOST := given ▸ (funcKeeps_lost w (s.chip.reg HIF.STAT) (d.reg HIF.LOST)).trans (down.lost held)
  have kept : u.hif = w.hif ∧ u.faultQ = w.faultQ ∧ u.outbox = w.outbox := by
    rw [← given]
    exact ⟨rfl, rfl, rfl⟩
  obtain ⟨hif', faults', outs'⟩ := kept
  obtain ⟨v, told⟩ : ∃ v, u.hifEvent HIF.EVT_FLRF HIF.LOST_FLRCNT = v := ⟨_, rfl⟩
  have event : u.OnlyIn (fun o => o == HIF.EVT || o == HIF.LOST) v := told ▸ hifEvent_onlyIn u HIF.EVT_FLRF HIF.LOST_FLRCNT
  have recorded : Recorded u v HIF.EVT_FLRF HIF.LOST_FLRCNT := told ▸ recorded_event u _ _ 0xe0 rfl rfl rfl rfl rfl
  have other : v.get HIF.LOST_CPLLOST = u.get HIF.LOST_CPLLOST := by
    rw [← told]
    exact (get_put_apart _ _ _ _ rfl rfl).trans (get_put_apart _ _ _ _ rfl rfl)
  have kept : v.hif = u.hif ∧ v.faultQ = u.faultQ ∧ v.outbox = u.outbox := by
    rw [← told]
    exact ⟨rfl, rfl, rfl⟩
  obtain ⟨hif'', faults'', outs''⟩ := kept
  have count : ∀ f : Fld, f.off = HIF.LOST → u.get f = s.chip.get f := fun f hf => by rw [Chip.get, Chip.get, hf, lost]
  have outside : ∀ {o}, o ≠ HIF.STAT → o ≠ HIF.LOST → o ≠ HIF.EVT → v.reg o = w.reg o := fun {o} notStat notLost notEvt =>
    (event.same o (by simp [notEvt, notLost])).trans (keeps.same o (by simp [notStat, notLost]))
  refine ⟨{ s with chip := v }, exec_chip rfl ((flReset_of_up host up).trans (by rw [stopped, reset, given, told])), recorded.1, ?_, ?_, ?_, ?_, ?_, ?_, ?_, ?_, ?_, ?_, rfl, rfl, ?_⟩
  · refine recorded.2.trans ?_
    rw [counted, counted, count HIF.LOST_FLRCNT rfl]
  · exact other.trans (count HIF.LOST_CPLLOST rfl)
  · exact (event.get HIF.STAT_LINKUP (by decide)).trans (stat.1.trans up)
  · exact (event.get HIF.STAT_SPEED (by decide)).trans stat.2.1
  · exact (event.get HIF.STAT_DSTATE (by decide)).trans stat.2.2.1
  · exact (event.get HIF.STAT_PAUSED (by decide)).trans stat.2.2.2
  · refine (hif''.trans (hif'.trans hif)).trans ?_
    rw [down.hif]
    rfl
  · intro o inside notStat notLost notEvt
    refine (outside notStat notLost notEvt).trans ?_
    rw [words o, if_pos inside]
  · exact faults''.trans (faults'.trans (faults.trans down.faults))
  · exact outs''.trans (outs'.trans (outs.trans down.outs))
  · intro o keep
    obtain ⟨far, quiet⟩ := Bool.or_eq_false_iff.mp keep
    have apart : ∀ p, inFunction p = true → o ≠ p := fun p hp e => Bool.false_ne_true (far.symm.trans (e ▸ hp))
    refine (outside (apart _ rfl) (apart _ rfl) (apart _ rfl)).trans ?_
    rw [words o, if_neg (by simp [far])]
    refine down.regs.same o (Bool.eq_false_iff.mpr fun moved => ?_)
    have within := downRegs_within moved
    rw [quiet, Bool.or_false, span, Bool.and_eq_true, decide_eq_true_eq, decide_eq_true_eq] at within
    simp only [inFunction, Bool.or_eq_false_iff, Bool.and_eq_false_iff, decide_eq_false_iff_not] at far
    omega

/-! Pending messages are sent (R428). -/

/-- A vector's pending message is sent, when it is not masked. -/
def Chip.msixSend (s : Chip) (v : Nat) : Chip :=
  if bitAt (s.get (PBA.BITS_PEND 0)) v && !s.bit (MSIX.VCTRL_MASK v) then (s.put (PBA.BITS_PEND 0) (setBitAt (s.get (PBA.BITS_PEND 0)) v false)).linkWake.out (.msix v) else s

theorem msixSends_of_none (l : List Nat) {c : Chip} (none : c.get (PBA.BITS_PEND 0) = 0) : c.forEach l (fun v t => t.msixSend v) = c := by
  induction l with
  | nil => rfl
  | cons v l ih =>
    have idle : c.msixSend v = c := if_neg (by rw [none, bitAt, Nat.zero_div]; exact Bool.false_ne_true)
    rw [Chip.forEach, List.foldl_cons, idle]
    exact ih

/-- Nothing is pending in the PBA. -/
theorem msixFlush_of_none {c : Chip} (none : c.get (PBA.BITS_PEND 0) = 0) : c.msixFlush = c := (congrArg (ite _ · c) (msixSends_of_none (List.range 32) none)).trans (ite_self c)

/-- The message of a vector goes out. -/
def Chip.msixSent (s : Chip) (v : Nat) : Chip := ((s.put (PBA.BITS_PEND 0) 0).linkWake).out (.msix v)

theorem linkWake_stat (c : Chip) : c.OnlyIn (· == HIF.STAT) c.linkWake := by
  unfold Chip.linkWake
  exact ((Chip.OnlyIn.refl _ c).put HIF.STAT_LSTATE 0 rfl).either (.refl _ c)

theorem msixSent_pend (c : Chip) (v : Nat) : (c.msixSent v).get (PBA.BITS_PEND 0) = 0 := by
  have out : (c.msixSent v).regs = (c.put (PBA.BITS_PEND 0) 0).linkWake.regs := rfl
  rw [get_congr out, (linkWake_stat _).get (PBA.BITS_PEND 0) (by decide)]
  exact get_put_same _ _ _ rfl

theorem bitAt_two_pow (v i : Nat) : bitAt (2 ^ v) i = decide (v = i) := by rw [bitAt_eq_testBit, Nat.testBit_two_pow]

theorem msixSend_own {c : Chip} {v : Nat} (pend : c.get (PBA.BITS_PEND 0) = 2 ^ v) (open_ : c.get (MSIX.VCTRL_MASK v) = 0) : c.msixSend v = c.msixSent v := by
  have cleared : setBitAt (2 ^ v) v false = 0 := by
    have set : bitAt (2 ^ v) v = true := by rw [bitAt_two_pow, decide_eq_true rfl]
    rw [setBitAt, set, if_neg (by decide), if_neg Bool.false_ne_true, Nat.sub_self]
  have goes : (bitAt (c.get (PBA.BITS_PEND 0)) v && !c.bit (MSIX.VCTRL_MASK v)) = true := by
    rw [pend, bitAt_two_pow, decide_eq_true rfl, Chip.bit, open_]
    rfl
  rw [Chip.msixSend, if_pos goes, pend, cleared]
  rfl

theorem msixSends_one {v : Nat} (l : List Nat) (mem : v ∈ l) {c : Chip} (pend : c.get (PBA.BITS_PEND 0) = 2 ^ v) (open_ : c.get (MSIX.VCTRL_MASK v) = 0) :
    c.forEach l (fun v t => t.msixSend v) = c.msixSent v := by
  induction l with
  | nil => cases mem
  | cons i l ih =>
    rw [Chip.forEach, List.foldl_cons]
    by_cases here : i = v
    · subst here
      rw [msixSend_own pend open_]
      exact msixSends_of_none l (msixSent_pend c i)
    · have skip : c.msixSend i = c := if_neg (by rw [pend, bitAt_two_pow, decide_eq_false (Ne.symm here), Bool.false_and]; exact Bool.false_ne_true)
      rw [skip]
      exact ih ((List.mem_cons.mp mem).resolve_left (Ne.symm here))

theorem msixFlush_one {c : Chip} {v : Fin 32} (up : c.get HIF.STAT_LINKUP = 1) (d0 : c.get HIF.STAT_DSTATE = 0) (msix : c.hif.msixEn = true) (master : c.hif.busMaster = true)
    (func : c.hif.funcMask = false) (pend : c.get (PBA.BITS_PEND 0) = 2 ^ v.val) (open_ : c.get (MSIX.VCTRL_MASK v.val) = 0) : c.msixFlush = c.msixSent v.val :=
  (if_pos (by simp [Chip.bit, Chip.inD0, up, d0, msix, master, func])).trans (msixSends_one (List.range 32) (List.mem_range.mpr v.isLt) pend open_)

/-! Power states and MSI-X (R428, R429). -/

/-- What the host has written in the configuration space. -/
def Chip.funcConfig (s : Chip) (pme busMaster msix funcMask : Bool) : Chip :=
  s.hifUpd fun h => { h with pmeEn := pme, busMaster := busMaster, msixEn := msix, funcMask := funcMask }

theorem hifUpd_inner (c : Chip) (f : HifHw → HifHw) : (c.hifUpd f).inner = c.inner.hifUpd f := rfl

theorem Effect.hifUpd {s t : State} {h : Chip → Chip} {fields : List Fld} {srcs : List Nat} {msgs : List FaultMsg} {outs : List Output}
    (e : Effect s t h fields srcs msgs outs) (f : HifHw → HifHw) : Effect s { t with chip := t.chip.hifUpd f } (fun c => (h c).hifUpd f) fields srcs msgs outs :=
  e.innerStep (fun c => c.hifUpd f) rfl rfl rfl rfl rfl (by rw [hifUpd_inner, hifUpd_inner, e.inner])

theorem telDiscard_of_empty {c : Chip} (empty : c.hif.telQ = []) : c.telDiscard = c := by
  obtain ⟨h, hh⟩ : ∃ h, c.hif = h := ⟨_, rfl⟩
  have same : ({ h with telQ := [] } : HifHw) = h := by
    rw [hh] at empty
    cases h
    simp_all
  rw [telDiscard_eq, empty, List.foldl_nil, Chip.hifUpd, hh, same, ← hh]

/-- The function pauses: its telemetry is dropped, and it polls no more. -/
def Chip.pauses (s : Chip) : Chip := ((s.telDiscard.put HIF.STAT_DSTATE 3).put HIF.STAT_PAUSED 1).hifUpd fun h => { h with pollBusy := false, kickAgain := false }

theorem powerState_pauses {c : Chip} (host : c.domOn .host = true) (up : c.get HIF.STAT_LINKUP = 1) (link : Nat) (pme bm ms fm : Bool) :
    c.powerState true link pme bm ms fm = ((c.funcConfig pme bm ms fm).put HIF.STAT_LSTATE link).pauses := (if_pos (by simp [host, Chip.bit, up])).trans (if_pos rfl)

theorem telDiscard_onlyIn (c : Chip) : c.OnlyIn (telRegs c.hif.telQ) c.telDiscard := by
  rw [telDiscard_eq]
  exact (telDrops c.hif.telQ _).1.regs.updFirst rfl

theorem telDiscard_hif (c : Chip) : c.telDiscard.hif = { c.hif with telQ := [] } := by
  rw [telDiscard_eq, (telDrops c.hif.telQ _).1.hif]
  rfl

theorem link_fits (link : Fin 3) : link.val % 2 ^ 2 = link.val := Nat.mod_eq_of_lt (by omega)

theorem powerStateChange_pauses :
    ∀ (s : State) (link : Fin 3) (pme bm ms : Bool) (fm : Bool), s.chip.domOn .host = true → s.chip.get HIF.STAT_LINKUP = 1 → ∃ t, Machine.exec (.powerStateChange true link pme bm ⟨ms, fm⟩) s = .next t ∧ t.chip.get HIF.STAT_DSTATE = 3 ∧ t.chip.get HIF.STAT_PAUSED = 1 ∧ t.chip.get HIF.STAT_LSTATE = link.val ∧
      t.chip.hif.funcMask = fm ∧ t.chip.hif.telQ = [] ∧ (s.chip.hif.telQ = [] → Effect s t (fun c => { c with hif := { c.hif with pmeEn := pme, busMaster := bm, msixEn := ms, funcMask := fm, pollBusy := false, kickAgain := false } }) [HIF.STAT_DSTATE, HIF.STAT_PAUSED, HIF.STAT_LSTATE] [] [] []) := by
  intro s link pme bm ms fm host up
  obtain ⟨c, configured⟩ : ∃ c, (s.chip.funcConfig pme bm ms fm).put HIF.STAT_LSTATE link.val = c := ⟨_, rfl⟩
  have lstate : c.get HIF.STAT_LSTATE = link.val := by
    rw [← configured]
    exact (get_put_same _ _ _ rfl).trans (link_fits link)
  have mask : c.hif.funcMask = fm := by rw [← configured]; rfl
  obtain ⟨d, discarded⟩ : ∃ d, c.telDiscard = d := ⟨_, rfl⟩
  have regs : c.OnlyIn (telRegs c.hif.telQ) d := discarded ▸ telDiscard_onlyIn c
  have hif : d.hif = { c.hif with telQ := [] } := discarded ▸ telDiscard_hif c
  have pauses : c.pauses = ((d.put HIF.STAT_DSTATE 3).put HIF.STAT_PAUSED 1).hifUpd fun h => { h with pollBusy := false, kickAgain := false } := by rw [← discarded]; rfl
  obtain ⟨e, paused⟩ : ∃ e, (d.put HIF.STAT_DSTATE 3).put HIF.STAT_PAUSED 1 = e := ⟨_, rfl⟩
  have fields : e.get HIF.STAT_DSTATE = 3 ∧ e.get HIF.STAT_PAUSED = 1 ∧ e.get HIF.STAT_LSTATE = d.get HIF.STAT_LSTATE := by
    rw [← paused]
    exact ⟨(get_put_apart _ _ _ _ rfl rfl).trans (get_put_same _ _ _ rfl), get_put_same _ _ _ rfl, (get_put_apart _ _ _ _ rfl rfl).trans (get_put_apart _ _ _ _ rfl rfl)⟩
  have hif' : e.hif = d.hif := by rw [← paused]; rfl
  obtain ⟨u, idle⟩ : ∃ u, (e.hifUpd fun h => { h with pollBusy := false, kickAgain := false }) = u := ⟨_, rfl⟩
  have same : u.regs = e.regs ∧ u.hif = { e.hif with pollBusy := false, kickAgain := false } := by
    rw [← idle]
    exact ⟨rfl, rfl⟩
  obtain ⟨regs', hif''⟩ := same
  refine ⟨{ s with chip := u }, exec_chip rfl ((powerState_pauses host up link.val pme bm ms fm).trans ?_), (get_congr regs' _).trans fields.1, (get_congr regs' _).trans fields.2.1, ?_, ?_, ?_, fun empty => ?_⟩
  · rw [configured, pauses, paused, idle]
  · rw [get_congr regs', fields.2.2, regs.get _ (telRegs_low (by decide)), lstate]
  · rw [hif'', hif', hif]
    exact mask
  · rw [hif'', hif', hif]
  · have none : c.hif.telQ = [] := by rw [← configured]; exact empty
    have same : d = (s.chip.funcConfig pme bm ms fm).put HIF.STAT_LSTATE link.val := by rw [← discarded, telDiscard_of_empty none, configured]
    rw [← idle, ← paused, same]
    have effect := (((((Effect.start s).hifUpd fun h => { h with pmeEn := pme, busMaster := bm, msixEn := ms, funcMask := fm }).put HIF.STAT_LSTATE link.val).put HIF.STAT_DSTATE 3).put
      HIF.STAT_PAUSED 1).hifUpd fun h => { h with pollBusy := false, kickAgain := false }
    exact effect.widen _ (by simp)

theorem pend_of_zero {c : Chip} (zero : c.reg (PBA.BITS 0) = 0) : c.get (PBA.BITS_PEND 0) = 0 := by
  have word : c.get (PBA.BITS_PEND 0) = wordField (c.reg (PBA.BITS 0)) 0 32 := rfl
  rw [word, zero]
  rfl

/-- The function is in D0 again, and nothing is held any more. -/
def Chip.resumed (s : Chip) : Chip := ((s.put HIF.STAT_DSTATE 0).put HIF.STAT_PAUSED 0).hifUpd fun h => { h with held := [], heldEvents := 0 }

theorem powerState_resumes {c : Chip} (host : c.domOn .host = true) (up : c.get HIF.STAT_LINKUP = 1) (link : Nat) (pme bm ms fm : Bool) :
    c.powerState false link pme bm ms fm = (c.hif.held.foldl Chip.heldWrite ((c.funcConfig pme bm ms fm).put HIF.STAT_LSTATE link).resumed).msixFlush :=
  (if_pos (by simp [host, Chip.bit, up])).trans (if_neg Bool.false_ne_true)

theorem resumed_regs (c : Chip) : c.resumed.regs = ((c.put HIF.STAT_DSTATE 0).put HIF.STAT_PAUSED 0).regs := rfl

theorem resumed_stat (c : Chip) (link : Fin 3) : (c.put HIF.STAT_LSTATE link.val).resumed.get HIF.STAT_DSTATE = 0 ∧ (c.put HIF.STAT_LSTATE link.val).resumed.get HIF.STAT_PAUSED = 0 ∧
    (c.put HIF.STAT_LSTATE link.val).resumed.get HIF.STAT_LSTATE = link.val := by
  obtain ⟨d, shown⟩ : ∃ d, c.put HIF.STAT_LSTATE link.val = d := ⟨_, rfl⟩
  have lstate : d.get HIF.STAT_LSTATE = link.val := by
    rw [← shown]
    exact (get_put_same _ _ _ rfl).trans (link_fits link)
  rw [shown, get_congr (resumed_regs d), get_congr (resumed_regs d), get_congr (resumed_regs d)]
  refine ⟨?_, ?_, ?_⟩
  · exact (get_put_apart _ _ _ _ rfl rfl).trans (get_put_same _ _ _ rfl)
  · exact get_put_same _ _ _ rfl
  · rw [get_put_apart _ _ _ _ rfl rfl, get_put_apart _ _ _ _ rfl rfl, lstate]

theorem resumed_onlyIn (c : Chip) (link : Nat) : c.OnlyIn (· == HIF.STAT) (c.put HIF.STAT_LSTATE link).resumed :=
  ((((Chip.OnlyIn.refl _ c).put HIF.STAT_LSTATE link rfl).put HIF.STAT_DSTATE 0 rfl).put HIF.STAT_PAUSED 0 rfl).upd rfl

theorem powerStateChange_resumes :
    ∀ (s : State) (link : Fin 3) (pme bm ms : Bool) (fm : Bool), s.chip.domOn .host = true → s.chip.get HIF.STAT_LINKUP = 1 → s.chip.hif.held = [] → s.chip.reg (PBA.BITS 0) = 0 → ∃ t, Machine.exec (.powerStateChange false link pme bm ⟨ms, fm⟩) s = .next t ∧ t.chip.get HIF.STAT_DSTATE = 0 ∧ t.chip.get HIF.STAT_PAUSED = 0 ∧
      t.chip.get HIF.STAT_LSTATE = link.val ∧ Effect s t (fun c => { c with hif := { c.hif with pmeEn := pme, busMaster := bm, msixEn := ms, funcMask := fm, held := [], heldEvents := 0 } }) [HIF.STAT_DSTATE, HIF.STAT_PAUSED, HIF.STAT_LSTATE] [] [] [] := by
  intro s link pme bm ms fm host up held pba
  have run : s.chip.powerState false link.val pme bm ms fm = ((s.chip.funcConfig pme bm ms fm).put HIF.STAT_LSTATE link.val).resumed := by
    rw [powerState_resumes host up, held, List.foldl_nil]
    refine msixFlush_of_none (((resumed_onlyIn _ link.val).get (PBA.BITS_PEND 0) (by decide)).trans ?_)
    exact (get_congr (s := s.chip) rfl _).trans (pend_of_zero pba)
  obtain ⟨dstate, paused, lstate⟩ := resumed_stat (s.chip.funcConfig pme bm ms fm) link
  have effect := (((((Effect.start s).hifUpd fun h => { h with pmeEn := pme, busMaster := bm, msixEn := ms, funcMask := fm }).put HIF.STAT_LSTATE link.val).put HIF.STAT_DSTATE 0).put
    HIF.STAT_PAUSED 0).hifUpd fun h => { h with held := [], heldEvents := 0 }
  exact ⟨_, exec_chip rfl run, dstate, paused, lstate, effect.widen _ (by simp)⟩

theorem powerStateChange_writes :
    ∀ (s : State) (r : Fin 8) (bytes : List Byte) (fm : Bool), s.chip.domOn .host = true → s.chip.get HIF.STAT_LINKUP = 1 → s.chip.get HIF.CTRL_EN = 1 → s.chip.hif.held = [⟨8 + r.val, bytes, false⟩] → s.chip.get (RING.STAT_STATE (8 + r.val)) = 1 → s.chip.reg (PBA.BITS 0) = 0 →
    ∃ t, Machine.exec (.powerStateChange false 0 true true ⟨true, fm⟩) s = .next t ∧ t.chip.hif.held = [] ∧ t.chip.get HIF.STAT_PAUSED = 0 ∧ t.chip.get (RING.DIDX_DIDX (8 + r.val)) = (s.chip.get (RING.DIDX_DIDX (8 + r.val)) + 1) % 2 ^ 32 ∧ t.chip.outbox.length = s.chip.outbox.length + 2 ∧
      t.chip.outbox.getLast? = some (.writeback (8 + r.val) (s.chip.backAddr (8 + r.val)) ((s.chip.get (RING.DIDX_DIDX (8 + r.val)) + 1) % 2 ^ 32)) := by
  intro s r bytes fm host up enabled held runs pba
  obtain ⟨c, resumed⟩ : ∃ c, ((s.chip.funcConfig true true true fm).put HIF.STAT_LSTATE (0 : Fin 3).val).resumed = c := ⟨_, rfl⟩
  have regs : s.chip.OnlyIn (· == HIF.STAT) c := resumed ▸ (resumed_onlyIn (s.chip.funcConfig true true true fm) 0).updFirst rfl
  have paused : c.get HIF.STAT_PAUSED = 0 := resumed ▸ (resumed_stat (s.chip.funcConfig true true true fm) 0).2.1
  have kept : c.hif.held = [] ∧ c.outbox = s.chip.outbox := by
    rw [← resumed]
    exact ⟨rfl, rfl⟩
  have apart : ∀ f : Fld, f.off ≠ HIF.STAT → c.get f = s.chip.get f := fun f hf => regs.get f (beq_eq_false_iff_ne.mpr hf)
  have place : RING.STAT (8 + r.val) ≠ HIF.STAT ∧ RING.DIDX (8 + r.val) ≠ HIF.STAT ∧ 0x31000 < RING.DIDX (8 + r.val) ∧ 0x31000 < RING.CNT (8 + r.val) ∧ 0x31000 < RING.STAT (8 + r.val) ∧
      RING.DIDX (8 + r.val) < 0x32000 ∧ RING.CNT (8 + r.val) < 0x32000 ∧ RING.STAT (8 + r.val) < 0x32000 := by
    simp only [RING.STAT, RING.DIDX, RING.CNT, HIF.STAT]
    omega
  obtain ⟨stat, didx, lo1, lo2, lo3, hi1, hi2, hi3⟩ := place
  have runs' : c.ringRuns (8 + r.val) = true := by
    rw [Chip.ringRuns, Bool.and_eq_true, Bool.and_eq_true, beq_iff_eq]
    exact ⟨⟨(congrArg (· != 0) (apart PWR.DOMSTAT_HOST (by decide))).trans host, bne_iff_ne.mpr (by rw [apart HIF.CTRL_EN (by decide), enabled]; exact Nat.one_ne_zero)⟩,
      (apart (RING.STAT_STATE (8 + r.val)) stat).trans runs⟩
  obtain ⟨u, written⟩ : ∃ u, c.ringStore (8 + r.val) bytes = u := ⟨_, rfl⟩
  have stores : c.Stores u (8 + r.val) bytes := written ▸ ringStore_stores c (8 + r.val) bytes
  have quiet : ∀ f : Fld, f.off < 0x31000 ∨ 0x32000 ≤ f.off → u.get f = c.get f := fun f hf => stores.regs.get f (by
    simp only [Bool.or_eq_false_iff, beq_eq_false_iff_ne]
    omega)
  have run : s.chip.powerState false (0 : Fin 3).val true true true fm = u := by
    have write : c.heldWrite ⟨8 + r.val, bytes, false⟩ = u := by
      rw [Chip.heldWrite, if_neg (show ¬ 8 + r.val = evtRing by simp only [evtRing]; omega), if_pos runs', written]
    rw [powerState_resumes host up, held, resumed, List.foldl_cons, List.foldl_nil, write]
    refine msixFlush_of_none ((quiet (PBA.BITS_PEND 0) (.inr (by decide))).trans ?_)
    exact (apart (PBA.BITS_PEND 0) (by decide)).trans (pend_of_zero pba)
  have back : c.backAddr (8 + r.val) = s.chip.backAddr (8 + r.val) := by
    have same : ∀ o, (o = HIF.WBBASE_LO ∨ o = HIF.WBBASE_HI) → c.reg o = s.chip.reg o := fun o ho => regs.same o (by obtain rfl | rfl := ho <;> decide)
    rw [Chip.backAddr, Chip.backAddr, same _ (.inl rfl), same _ (.inr rfl)]
  refine ⟨{ s with chip := u }, exec_chip rfl run, ?_, ?_, ?_, ?_, ?_⟩
  · exact (congrArg HifHw.held stores.hif).trans kept.1
  · exact (quiet HIF.STAT_PAUSED (.inl (by decide))).trans paused
  · exact stores.index.trans (by rw [apart (RING.DIDX_DIDX (8 + r.val)) didx])
  · refine (congrArg List.length stores.outs).trans ?_
    rw [kept.2, List.length_append]
    rfl
  · refine (congrArg List.getLast? stores.outs).trans ?_
    rw [back, apart (RING.DIDX_DIDX (8 + r.val)) didx]
    simp

/-- MSI-X and Bus Master as the host has written them. -/
def Chip.busConfig (s : Chip) (msix busMaster : Bool) : Chip := s.hifUpd fun h => { h with msixEn := msix, busMaster := busMaster }

theorem msixUnmask_vector {c : Chip} (host : c.domOn .host = true) (v : Nat) (msix busMaster : Bool) :
    c.msixUnmask (some v) msix busMaster = ((c.busConfig msix busMaster).put (MSIX.VCTRL_MASK v) 0).msixFlush := if_pos host

theorem msixUnmask_function {c : Chip} (host : c.domOn .host = true) (msix busMaster : Bool) :
    c.msixUnmask none msix busMaster = ((c.busConfig msix busMaster).hifUpd fun h => { h with funcMask := false }).msixFlush := if_pos host

theorem msixUnmask_sends :
    ∀ (s : State) (v : Fin 32), s.chip.domOn .host = true → s.chip.get HIF.STAT_LINKUP = 1 → s.chip.get HIF.STAT_DSTATE = 0 → s.chip.hif.funcMask = false → s.chip.get (PBA.BITS_PEND 0) = 2 ^ v.val → ∃ t, Machine.exec (.msixUnmask (some v) true true) s = .next t ∧
      t.chip.get (MSIX.VCTRL_MASK v.val) = 0 ∧ t.chip.get (PBA.BITS_PEND 0) = 0 ∧ Effect s t (fun c => { c with hif := { c.hif with msixEn := true, busMaster := true } }) [MSIX.VCTRL_MASK v.val, PBA.BITS_PEND 0, HIF.STAT_LSTATE] [] [] [.msix v.val] ∧ t.chip.get HIF.STAT_LSTATE = (if s.chip.get HIF.STAT_LSTATE = 1 then 0 else s.chip.get HIF.STAT_LSTATE) := by
  intro s v host up d0 func pend
  obtain ⟨c, unmasked⟩ : ∃ c, (s.chip.busConfig true true).put (MSIX.VCTRL_MASK v.val) 0 = c := ⟨_, rfl⟩
  have regs : s.chip.OnlyIn (· == MSIX.VCTRL v.val) c := unmasked ▸ ((Chip.OnlyIn.refl _ s.chip).upd (u := s.chip.busConfig true true) rfl).put (MSIX.VCTRL_MASK v.val) 0 (beq_self_eq_true _)
  have far : HIF.STAT ≠ MSIX.VCTRL v.val ∧ PBA.BITS 0 ≠ MSIX.VCTRL v.val := by
    simp only [HIF.STAT, PBA.BITS, MSIX.VCTRL]
    omega
  have apart : ∀ f : Fld, (f.off = HIF.STAT ∨ f.off = PBA.BITS 0) → c.get f = s.chip.get f := fun f hf => regs.get f (beq_eq_false_iff_ne.mpr (by obtain h | h := hf <;> rw [h] <;> simp [far]))
  have mask : c.get (MSIX.VCTRL_MASK v.val) = 0 := by
    rw [← unmasked]
    exact get_put_same _ _ _ rfl
  have hif : c.hif.msixEn = true ∧ c.hif.busMaster = true ∧ c.hif.funcMask = s.chip.hif.funcMask := by
    rw [← unmasked]
    exact ⟨rfl, rfl, rfl⟩
  have flush : c.msixFlush = c.msixSent v.val :=
    msixFlush_one ((apart _ (.inl rfl)).trans up) ((apart _ (.inl rfl)).trans d0) hif.1 hif.2.1 (hif.2.2.trans func) ((apart _ (.inr rfl)).trans pend) mask
  have sent : (c.msixSent v.val).regs = (c.put (PBA.BITS_PEND 0) 0).linkWake.regs := rfl
  refine ⟨{ s with chip := c.msixSent v.val }, exec_chip rfl ((msixUnmask_vector host v.val true true).trans (by rw [unmasked, flush])), ?_, msixSent_pend c v.val, ?_, ?_⟩
  · rw [get_congr sent, (linkWake_stat _).get (MSIX.VCTRL_MASK v.val) (beq_eq_false_iff_ne.mpr far.1.symm), get_put_off_ne _ _ _ _ (show MSIX.VCTRL v.val ≠ PBA.BITS 0 from far.2.symm), mask]
  · have effect := (((((Effect.start s).hifUpd fun h => { h with msixEn := true, busMaster := true }).put (MSIX.VCTRL_MASK v.val) 0).put (PBA.BITS_PEND 0) 0).linkWake).out (.msix v.val)
    rw [← unmasked]
    exact effect
  · rw [get_congr sent, linkWake_lstate, get_put_off_ne _ _ _ _ (show HIF.STAT ≠ PBA.BITS 0 by decide), apart HIF.STAT_LSTATE (.inl rfl)]

theorem msixUnmask_disabled :
    ∀ (s : State) (bm : Bool), s.chip.domOn .host = true → ∃ t, Machine.exec (.msixUnmask none false bm) s = .next t ∧ Effect s t (fun c => { c with hif := { c.hif with msixEn := false, busMaster := bm, funcMask := false } }) [] [] [] [] := by
  intro s bm host
  obtain ⟨c, configured⟩ : ∃ c, (s.chip.busConfig false bm).hifUpd (fun h => { h with funcMask := false }) = c := ⟨_, rfl⟩
  have off : c.hif.msixEn = false := by rw [← configured]; rfl
  have stays : c.msixFlush = c := if_neg (by rw [off, Bool.and_false, Bool.false_and, Bool.false_and]; exact Bool.false_ne_true)
  have effect := ((Effect.start s).hifUpd fun h => { h with msixEn := false, busMaster := bm }).hifUpd fun h => { h with funcMask := false }
  refine ⟨{ s with chip := c }, exec_chip rfl ((msixUnmask_function host false bm).trans (by rw [configured, stays])), ?_⟩
  rw [← configured]
  exact effect

/-! A ring is configured (R417, R434, R448). -/

theorem getLsbD_taken (v w m : Word) {i : Nat} (hi : i < 32) : (v &&& ~~~m ||| w &&& m).getLsbD i = if m.getLsbD i then w.getLsbD i else v.getLsbD i := by
  rw [BitVec.getLsbD_or, BitVec.getLsbD_and, BitVec.getLsbD_and, BitVec.getLsbD_not, decide_eq_true hi]
  cases m.getLsbD i <;> simp

/-- A field that a write's mask holds whole takes the written word's value. -/
theorem wordField_taken (v w m : Word) {lo width : Nat} (inWord : lo + width ≤ 32) (whole : ∀ i < width, m.getLsbD (i + lo) = true) :
    wordField (v &&& ~~~m ||| w &&& m) lo width = wordField w lo width := by
  apply Nat.eq_of_testBit_eq
  intro i
  rw [wordField_testBit, wordField_testBit]
  by_cases hi : i < width
  · rw [getLsbD_taken _ _ _ (by omega), whole i hi, if_pos rfl]
  · simp [hi]

/-- A field that a write's mask leaves out keeps its value. -/
theorem wordField_untaken (v w m : Word) {lo width : Nat} (inWord : lo + width ≤ 32) (none : ∀ i < width, m.getLsbD (i + lo) = false) :
    wordField (v &&& ~~~m ||| w &&& m) lo width = wordField v lo width := by
  apply Nat.eq_of_testBit_eq
  intro i
  rw [wordField_testBit, wordField_testBit]
  by_cases hi : i < width
  · rw [getLsbD_taken _ _ _ (by omega), none i hi, if_neg Bool.false_ne_true]
  · simp [hi]

theorem wordField_of_zero (lo width : Nat) : wordField 0 lo width = 0 := by simp [wordField]

/-- The bits of a ring's CFG: EN, LOG2N, and CPLSEL and FBURST of a command ring or VEC of another. -/
def ringMask (r : Nat) : Word := if r < 8 then 0x9f007f00 else 0x9f1f0000

theorem ringCfg_row : ∀ r : Fin 22, r.val ≠ 17 → RING.CFG r.val % 4 = 0 ∧ (regAt (RING.CFG r.val)).isSome = true ∧ inMailbox (RING.CFG r.val) = false ∧ inMsix (RING.CFG r.val) = false ∧
    accMask (RING.CFG r.val) (· == .rw) = ringMask r.val ∧ pairMask (RING.CFG r.val) = ringMask r.val ∧ anyMask (RING.CFG r.val) = ringMask r.val ∧ lockMask (RING.CFG r.val) = 0 ∧
    accMask (RING.CFG r.val) (· == .w1c) = 0 ∧ cntClears (RING.CFG r.val) = none := by decide +kernel

theorem ringMask_bits (r : Nat) : (ringMask r).getLsbD 31 = true ∧ (∀ i < 5, (ringMask r).getLsbD (i + 24) = true) ∧ (8 ≤ r → ∀ i < 5, (ringMask r).getLsbD (i + 16) = true) ∧
    (r < 8 → ∀ i < 3, (ringMask r).getLsbD (i + 12) = true) := by
  unfold ringMask
  split
  · next command => exact ⟨by decide, by decide, fun h => absurd command (by omega), fun _ => by decide⟩
  · next other => exact ⟨by decide, by decide, fun _ => by decide, fun h => absurd h other⟩

theorem regPut_ringCfg (c : Chip) (r : Fin 22) (w : Word) : c.regPut (RING.CFG r.val) w = c.ringCfgWrite r.val w := by
  have off : RING.CFG r.val = 0x31008 + 0x20 * r.val := rfl
  have win : dieWindow = 0x100000 := rfl
  have ring : (0x31008 + 0x20 * r.val - 0x31000) / 0x20 = r.val := by omega
  simp only [Chip.regPut, off, win, ring, Bool.and_eq_true, decide_eq_true_eq]
  rw [if_neg (by omega), if_neg (by omega), if_neg (by omega), if_neg (by omega), if_pos (by omega)]

theorem fieldWrite_ringCfg (c : Chip) {r : Fin 22} (h : r.val ≠ 17) (w : Word) :
    c.fieldWrite (RING.CFG r.val) w = c.ringCfgWrite r.val (c.reg (RING.CFG r.val) &&& ~~~ringMask r.val ||| w &&& ringMask r.val) := by
  obtain ⟨-, -, -, -, rw', pair, -, lock, flags, -⟩ := ringCfg_row r h
  have mask : c.writeMask (RING.CFG r.val) = ringMask r.val := by rw [Chip.writeMask, rw', pair, ite_self]
  have locked : (c.reg (RING.CFG r.val) ^^^ w) &&& lockMask (RING.CFG r.val) = 0 := by rw [lock]; exact BitVec.and_zero
  have cleared : accMask (RING.CFG r.val) (· == .w1c) &&& w = 0 := by rw [flags]; exact BitVec.zero_and
  have some : ringMask r.val ≠ 0 := by
    unfold ringMask
    split <;> decide
  simp only [Chip.fieldWrite, locked, cleared, mask, bne_self_eq_false, Bool.and_false, Bool.false_eq_true, if_false, if_true]
  rw [if_neg some, regPut_ringCfg]

/-- The registers of the hub, PP apart, whose write is a command. -/
def commandRegs : List Nat :=
  [PWR.DOMCTL, SEQ.FFCTL, FLT.GUARD, FLT.ACK, FLT.INJ, FLT.SWRAISE, FLT.CSREQ, EVH.DOORBELL, HIF.KICK, FW.CTRL, FW.MBTAKE, FW.MBDONE, TILE.STGCTL, TILE.CMTCTL]

/-- A register of the hub with no command beside its fields. -/
theorem hubOps_none (c : Chip) (m : List Host.Cell) (req : Requester) {o : Nat} (w : Word) (b : Bool) (high : 0x25000 ≤ o) (other : inPP o = false) (command : o ∉ commandRegs) :
    c.hubOps m req o w b = c := by
  simp only [commandRegs, List.mem_cons, List.not_mem_nil, or_false, not_or] at command
  obtain ⟨h1, h2, h3, h4, h5, h6, h7, h8, h9, h10, h11, h12, h13, h14⟩ := command
  have blocks : (decide (0x14000 ≤ o) && decide (o < 0x16000)) = false ∧ (decide (0x1a000 ≤ o) && decide (o < 0x1a800)) = false ∧ (decide (0x24000 ≤ o) && decide (o < 0x24080)) = false := by
    simp only [Bool.and_eq_false_iff, decide_eq_false_iff_not]
    omega
  obtain ⟨coef, segments, domains⟩ := blocks
  simp only [Chip.hubOps, h1, h2, h3, h4, h5, h6, h7, h8, h9, h10, h11, h12, h13, h14, coef, segments, domains, other, if_false, Bool.false_eq_true]

theorem busWrite_ringCfg (c : Chip) (m : List Host.Cell) (req : Requester) {r : Fin 22} (h : r.val ≠ 17) (w : Word) (b : Bool) (reach : c.reaches req (RING.CFG r.val) = true) :
    c.busWrite m req (RING.CFG r.val) w b = c.ringCfgWrite r.val (c.reg (RING.CFG r.val) &&& ~~~ringMask r.val ||| w &&& ringMask r.val) := by
  obtain ⟨aligned, known, box, msix, -, -, -, -, -, cnt⟩ := ringCfg_row r h
  have off : RING.CFG r.val = 0x31008 + 0x20 * r.val := rfl
  have place : 0x25000 ≤ RING.CFG r.val ∧ inPP (RING.CFG r.val) = false ∧ RING.CFG r.val ∉ commandRegs ∧ ¬ dieWindow ≤ RING.CFG r.val := by
    have win : dieWindow = 0x100000 := rfl
    simp only [off, win, inPP, commandRegs, List.mem_cons, List.not_mem_nil, or_false, not_or, Bool.and_eq_false_iff, decide_eq_false_iff_not, PWR.DOMCTL, SEQ.FFCTL, FLT.GUARD, FLT.ACK,
      FLT.INJ, FLT.SWRAISE, FLT.CSREQ, EVH.DOORBELL, HIF.KICK, FW.CTRL, FW.MBTAKE, FW.MBDONE, TILE.STGCTL, TILE.CMTCTL]
    omega
  obtain ⟨high, other, command, low⟩ := place
  rw [busWrite_reaches c m req _ w b reach aligned box msix known, Chip.regWrite, fieldWrite_ringCfg c h, Chip.cntClear, cnt]
  dsimp only
  rw [Chip.regOps, if_neg low, if_neg (by simp only [off, Bool.and_eq_true, decide_eq_true_eq]; omega), hubOps_none _ _ _ _ _ high other command]

/-- A ring's CFG takes a word while EN is 0, or while it is 1. -/
def Chip.ringTakes (s : Chip) (r : Nat) (m w : Word) : Chip :=
  s.setBits (RING.CFG r) (ringMask r &&& m) (s.reg (RING.CFG r) &&& ~~~ringMask r ||| w &&& ringMask r)

theorem ringTakes_field (c : Chip) (r : Nat) (m w : Word) {lo width : Nat} (inWord : lo + width ≤ 32) (mask : ∀ i < width, (ringMask r).getLsbD (i + lo) = true)
    (takes : ∀ i < width, m.getLsbD (i + lo) = true) : (c.ringTakes r m w).get ⟨RING.CFG r, lo, width⟩ = wordField w lo width := by
  rw [Chip.ringTakes, Chip.setBits, get_setReg_of_off _ _ _ _ (by rfl)]
  refine (wordField_taken _ _ _ inWord fun i hi => ?_).trans (wordField_taken _ _ _ inWord mask)
  rw [BitVec.getLsbD_and, mask i hi, takes i hi, Bool.and_true]

theorem ringTakes_kept (c : Chip) (r : Nat) (m w : Word) {lo width : Nat} (inWord : lo + width ≤ 32) (none : ∀ i < width, m.getLsbD (i + lo) = false) :
    (c.ringTakes r m w).get ⟨RING.CFG r, lo, width⟩ = c.get ⟨RING.CFG r, lo, width⟩ := by
  rw [Chip.ringTakes, Chip.setBits, get_setReg_of_off _ _ _ _ (by rfl)]
  refine wordField_untaken _ _ _ inWord fun i hi => ?_
  rw [BitVec.getLsbD_and, none i hi, Bool.and_false]

theorem ringTakes_onlyIn (c : Chip) (r : Nat) (m w : Word) : c.OnlyIn (· == RING.CFG r) (c.ringTakes r m w) := (Chip.OnlyIn.refl _ c).setReg _ _ (beq_self_eq_true _)

/-- EN of a word that has passed the ring's mask. -/
theorem en_taken (v w : Word) (r : Nat) : (v &&& ~~~ringMask r ||| w &&& ringMask r).getLsbD 31 = w.getLsbD 31 := by
  rw [getLsbD_taken _ _ _ (by decide), (ringMask_bits r).1, if_pos rfl]

/-- A ring starts at index 0. -/
def Chip.ringStarts (s : Chip) (r : Nat) : Chip :=
  ((((((s.put (RING.CFG_EN r) 1).setReg (RING.DIDX r) 0).setReg (RING.HIDX r) 0).put (RING.STAT_STATE r) 1)).ringUpd r fun h => { h with unsig := 0 }).fullShow r

theorem ringCfgWrite_starts {c : Chip} {r : Fin 22} (h : r.val ≠ 17) {w : Word} (off : c.get (RING.CFG_EN r.val) = 0) (en : w.getLsbD 31 = true)
    (least : 6 ≤ w.toNat / 2 ^ 24 % 32) (most : w.toNat / 2 ^ 24 % 32 ≤ 16) :
    c.ringCfgWrite r.val (c.reg (RING.CFG r.val) &&& ~~~ringMask r.val ||| w &&& ringMask r.val) = (c.ringTakes r.val 0x7fffffff#32 w).ringStarts r.val := by
  obtain ⟨-, -, -, -, -, -, any, -, -, -⟩ := ringCfg_row r h
  have was : c.bit (RING.CFG_EN r.val) = false := by rw [Chip.bit, off]; rfl
  have size : (c.ringTakes r.val 0x7fffffff#32 w).get (RING.CFG_LOG2N r.val) = w.toNat / 2 ^ 24 % 32 := ringTakes_field c r.val _ w (by decide) (ringMask_bits r.val).2.1 (by decide)
  have takes : c.setBits (RING.CFG r.val) (ringMask r.val &&& 0x7fffffff#32) (c.reg (RING.CFG r.val) &&& ~~~ringMask r.val ||| w &&& ringMask r.val) = c.ringTakes r.val 0x7fffffff#32 w := rfl
  rw [Chip.ringCfgWrite]
  simp only [was, any, en_taken, en, Bool.false_eq_true, if_false, Bool.not_true, takes, size]
  rw [if_neg (by simp only [Bool.or_eq_true, decide_eq_true_eq]; omega)]
  rfl

theorem ringCfgWrite_stops {c : Chip} {r : Fin 22} (h : r.val ≠ 17) {w : Word} (on : c.get (RING.CFG_EN r.val) = 1) (en : w.getLsbD 31 = false) :
    c.ringCfgWrite r.val (c.reg (RING.CFG r.val) &&& ~~~ringMask r.val ||| w &&& ringMask r.val) =
      (c.ringTakes r.val 0x801f0f00#32 w).put (RING.STAT_STATE r.val) (if r.val < 8 && ((c.ringTakes r.val 0x801f0f00#32 w).rings.get r.val).busy.isSome then 2 else 0) := by
  obtain ⟨-, -, -, -, -, -, any, -, -, -⟩ := ringCfg_row r h
  have was : c.bit (RING.CFG_EN r.val) = true := by rw [Chip.bit, on]; rfl
  rw [Chip.ringCfgWrite]
  simp only [was, any, en_taken, en, if_true, Bool.false_eq_true, if_false]
  rfl

theorem ringCfgWrite_enables :
    ∀ (s : State) (req : Requester) (r : Fin 22) (value : Word), s.chip.reaches req (RING.CFG r.val) = true → r.val ≠ 17 → s.chip.get (RING.CFG_EN r.val) = 0 → value.getLsbD 31 = true → 6 ≤ value.toNat / 2 ^ 24 % 32 → value.toNat / 2 ^ 24 % 32 ≤ 16 →
    ∃ t, Machine.exec (.ringCfgWrite req r value) s = .next t ∧ t.chip.get (RING.CFG_EN r.val) = 1 ∧ t.chip.get (RING.CFG_LOG2N r.val) = value.toNat / 2 ^ 24 % 32 ∧ (8 ≤ r.val → t.chip.get (RING.CFG_VEC r.val) = value.toNat / 2 ^ 16 % 32) ∧ (r.val < 8 → t.chip.get (RING.CFG_CPLSEL r.val) = value.toNat / 2 ^ 12 % 8) ∧
      t.chip.get (RING.STAT_STATE r.val) = 1 ∧ t.chip.get (RING.DIDX_DIDX r.val) = 0 ∧ t.chip.get (RING.HIDX_HIDX r.val) = 0 ∧ (t.chip.rings.get r.val).unsig = 0 ∧ t.chip.faultQ = s.chip.faultQ ∧ t.chip.outbox = s.chip.outbox ∧
      Keeps s t (fun o => span (0x31000 + 0x20 * r.val) (0x31020 + 0x20 * r.val) o) := by
  intro s req r value reach other off en least most
  obtain ⟨c, taken⟩ : ∃ c, s.chip.ringTakes r.val 0x7fffffff#32 value = c := ⟨_, rfl⟩
  obtain ⟨d, started⟩ : ∃ d, (((c.put (RING.CFG_EN r.val) 1).setReg (RING.DIDX r.val) 0).setReg (RING.HIDX r.val) 0).put (RING.STAT_STATE r.val) 1 = d := ⟨_, rfl⟩
  obtain ⟨e, reset⟩ : ∃ e, (d.ringUpd r.val fun h => { h with unsig := 0 }) = e := ⟨_, rfl⟩
  obtain ⟨t, shown⟩ : ∃ t, e.fullShow r.val = t := ⟨_, rfl⟩
  have places : RING.CFG r.val ≠ RING.STAT r.val ∧ RING.CFG r.val ≠ RING.HIDX r.val ∧ RING.CFG r.val ≠ RING.DIDX r.val ∧ RING.DIDX r.val ≠ RING.STAT r.val ∧ RING.DIDX r.val ≠ RING.HIDX r.val ∧
      RING.HIDX r.val ≠ RING.STAT r.val := by
    simp only [RING.CFG, RING.STAT, RING.HIDX, RING.DIDX]
    omega
  obtain ⟨cfgStat, cfgHidx, cfgDidx, didxStat, didxHidx, hidxStat⟩ := places
  obtain ⟨-, size, vector, completion⟩ := ringMask_bits r.val
  have regs : e.regs = d.regs := by rw [← reset]; rfl
  have final : ∀ f : Fld, f.off ≠ RING.STAT r.val → t.get f = d.get f := fun f hf => by
    rw [← shown, Chip.fullShow, Chip.putB, get_put_off_ne _ _ _ _ hf, get_congr regs]
  have field : ∀ f : Fld, f.off = RING.CFG r.val → f.fits = true → f.lo + f.width ≤ 31 → t.get f = c.get f := fun f hf fits low => by
    have away : ∀ o, RING.CFG r.val ≠ o → f.off ≠ o := fun o ho => hf ▸ ho
    rw [final f (away _ cfgStat), ← started, get_put_off_ne _ _ _ _ (away _ cfgStat), get_setReg_of_ne _ _ _ _ (away _ cfgHidx), get_setReg_of_ne _ _ _ _ (away _ cfgDidx),
      get_put_apart _ _ _ _ fits (by simp [Fld.apart, RING.CFG_EN, low])]
  have run : s.chip.busWrite s.nvm req (RING.CFG r.val) value true = t := by
    rw [busWrite_ringCfg _ _ _ other _ _ reach, ringCfgWrite_starts other off en least most, taken, Chip.ringStarts, started, reset, shown]
  refine ⟨{ s with chip := t }, exec_chip rfl run, ?_, ?_, fun kind => ?_, fun kind => ?_, ?_, ?_, ?_, ?_, ?_, ?_, rfl, rfl, ?_⟩
  · refine (final (RING.CFG_EN r.val) cfgStat).trans ?_
    rw [← started, get_put_off_ne _ _ _ _ cfgStat, get_setReg_of_ne _ _ _ _ cfgHidx, get_setReg_of_ne _ _ _ _ cfgDidx]
    exact get_put_same _ _ _ rfl
  · refine (field (RING.CFG_LOG2N r.val) rfl rfl (show 24 + 5 ≤ 31 by decide)).trans ?_
    rw [← taken]
    exact ringTakes_field _ _ _ _ (by decide) size (by decide)
  · refine (field (RING.CFG_VEC r.val) rfl rfl (show 16 + 5 ≤ 31 by decide)).trans ?_
    rw [← taken]
    exact ringTakes_field _ _ _ _ (by decide) (vector kind) (by decide)
  · refine (field (RING.CFG_CPLSEL r.val) rfl rfl (show 12 + 3 ≤ 31 by decide)).trans ?_
    rw [← taken]
    exact ringTakes_field _ _ _ _ (by decide) (completion kind) (by decide)
  · rw [← shown, Chip.fullShow, Chip.putB]
    refine (get_put_apart _ _ _ _ rfl (by simp [Fld.apart, RING.STAT_STATE, RING.STAT_FULL])).trans ((get_congr regs _).trans ?_)
    rw [← started]
    exact get_put_same _ _ _ rfl
  · refine (final (RING.DIDX_DIDX r.val) didxStat).trans ?_
    rw [← started, get_put_off_ne _ _ _ _ didxStat, get_setReg_of_ne _ _ _ _ didxHidx, get_setReg_of_off _ _ _ _ (by rfl)]
    exact wordField_of_zero _ _
  · refine (final (RING.HIDX_HIDX r.val) hidxStat).trans ?_
    rw [← started, get_put_off_ne _ _ _ _ hidxStat, get_setReg_of_off _ _ _ _ (by rfl)]
    exact wordField_of_zero _ _
  · have rings : t.rings = d.rings.upd r.val fun h => { h with unsig := 0 } := by
      rw [← shown, ← reset]
      rfl
    exact (congrArg (fun x : Tbl RingHw _ => (x.get r.val).unsig) rings).trans (congrArg RingHw.unsig (Tbl.get_upd_same _ _ _))
  · rw [← shown, ← reset, ← started, ← taken]
    rfl
  · rw [← shown, ← reset, ← started, ← taken]
    rfl
  · have own : ∀ o, (o = RING.CFG r.val ∨ o = RING.DIDX r.val ∨ o = RING.HIDX r.val ∨ o = RING.STAT r.val) → span (0x31000 + 0x20 * r.val) (0x31020 + 0x20 * r.val) o = true := fun o ho =>
      span_of_le_lt (by simp only [RING.CFG, RING.STAT, RING.HIDX, RING.DIDX] at ho; omega)
    have first : s.chip.OnlyIn (fun o => span (0x31000 + 0x20 * r.val) (0x31020 + 0x20 * r.val) o) c :=
      taken ▸ (ringTakes_onlyIn s.chip r.val 0x7fffffff#32 value).mono fun o ho => own o (.inl (beq_iff_eq.mp ho))
    have second : s.chip.OnlyIn (fun o => span (0x31000 + 0x20 * r.val) (0x31020 + 0x20 * r.val) o) d :=
      started ▸ (((first.put (RING.CFG_EN r.val) 1 (own _ (.inl rfl))).setReg (RING.DIDX r.val) 0 (own _ (.inr (.inl rfl)))).setReg (RING.HIDX r.val) 0 (own _ (.inr (.inr (.inl rfl))))).put
        (RING.STAT_STATE r.val) 1 (own _ (.inr (.inr (.inr rfl))))
    exact (shown ▸ (second.upd regs).put (RING.STAT_FULL r.val) _ (own _ (.inr (.inr (.inr rfl)))) : s.chip.OnlyIn (fun o => span (0x31000 + 0x20 * r.val) (0x31020 + 0x20 * r.val) o) t).same

theorem ringCfgWrite_disables :
    ∀ (s : State) (req : Requester) (r : Fin 22) (value : Word), s.chip.reaches req (RING.CFG r.val) = true → r.val ≠ 17 → s.chip.get (RING.CFG_EN r.val) = 1 → value.getLsbD 31 = false →
    ∃ t, Machine.exec (.ringCfgWrite req r value) s = .next t ∧ t.chip.get (RING.CFG_EN r.val) = 0 ∧ t.chip.get (RING.CFG_LOG2N r.val) = s.chip.get (RING.CFG_LOG2N r.val) ∧
      t.chip.get (RING.STAT_STATE r.val) = (if r.val < 8 ∧ (s.chip.rings.get r.val).busy ≠ none then 2 else 0) ∧ t.chip.inner = s.chip.inner ∧ t.chip.faultQ = s.chip.faultQ ∧ t.chip.outbox = s.chip.outbox ∧ Keeps s t (fun o => o == RING.CFG r.val || o == RING.STAT r.val) := by
  intro s req r value reach other on en
  have cfgStat : RING.CFG r.val ≠ RING.STAT r.val := by simp [RING.CFG, RING.STAT]
  have run : s.chip.busWrite s.nvm req (RING.CFG r.val) value true =
      (s.chip.ringTakes r.val 0x801f0f00#32 value).put (RING.STAT_STATE r.val) (if r.val < 8 && ((s.chip.ringTakes r.val 0x801f0f00#32 value).rings.get r.val).busy.isSome then 2 else 0) := by
    rw [busWrite_ringCfg _ _ _ other _ _ reach, ringCfgWrite_stops other on en]
  obtain ⟨-, size, -, -⟩ := ringMask_bits r.val
  refine ⟨_, exec_chip rfl run, ?_, ?_, ?_, rfl, rfl, rfl, rfl, rfl, ?_⟩
  · refine (get_put_off_ne _ _ _ _ cfgStat).trans ((ringTakes_field _ _ _ _ (by decide) (fun i hi => ?_) (by decide)).trans ?_)
    · rw [Nat.lt_one_iff.mp hi]
      exact (ringMask_bits r.val).1
    · apply Nat.eq_of_testBit_eq
      intro i
      rw [wordField_testBit, Nat.zero_testBit, Bool.and_eq_false_iff]
      by_cases here : i = 0
      · exact .inr (here ▸ en)
      · exact .inl (decide_eq_false (by omega))
  · exact (get_put_off_ne _ _ _ _ cfgStat).trans (ringTakes_kept _ _ _ _ (by decide) (by decide))
  · have rings : (s.chip.ringTakes r.val 0x801f0f00#32 value).rings = s.chip.rings := rfl
    rw [get_put_same _ _ _ rfl, rings]
    by_cases drains : r.val < 8 ∧ (s.chip.rings.get r.val).busy ≠ none
    · rw [if_pos drains, if_pos (by simp [drains.1, Option.isSome_iff_ne_none.mpr drains.2])]
      rfl
    · rw [if_neg drains, if_neg (by simpa [Option.isSome_iff_ne_none] using drains)]
      rfl
  · exact (((ringTakes_onlyIn s.chip r.val 0x801f0f00#32 value).mono fun o ho => by rw [ho, Bool.true_or]).put (RING.STAT_STATE r.val) _ (by simp [RING.STAT_STATE])).same

/-- Settles O50: each clause is one command, and a lost link is the rings' end. -/
theorem theFunctionFollowsItsLink : Obligations.TheFunctionFollowsItsLink := by
  unfold Obligations.TheFunctionFollowsItsLink
  exact ⟨pcieLinkUp_shows, pcieLinkDown_stops, functionLevelReset_resets, powerStateChange_pauses, powerStateChange_resumes, powerStateChange_writes, msixUnmask_sends, msixUnmask_disabled,
    ringCfgWrite_enables, ringCfgWrite_disables⟩

end Sys2Proof.Machine

namespace Sys2Proof.Machine

/-! The event hub (R389 to R402). -/

/-! What a routing evaluation leaves (R397, R404). -/

/-- The fields that an evaluation shows, winner words apart: routes, requests, sleep, PARK and the recorded wake. -/
inductive Fld.Decided : Fld → Prop
  | routed (i : Nat) (hi : i < 2048) : Fld.Decided (SRC.STATE_ROUTED i)
  | proc (i : Nat) (hi : i < 2048) : Fld.Decided (SRC.STATE_PP i)
  | request (k : Nat) (hk : k < 4) : Fld.Decided (PP.STAT_REQ k)
  | requestClass (k : Nat) (hk : k < 4) : Fld.Decided (PP.STAT_REQCLS k)
  | asleep (k : Nat) (hk : k < 4) : Fld.Decided (PP.STAT_ASLEEP k)
  | park (k : Nat) (hk : k < 4) : Fld.Decided (PP.CTRL_PARK k)
  | awake : Fld.Decided EVH.STAT_AWAKE
  | wake (lo width : Nat) : Fld.Decided ⟨EVH.WAKEST, lo, width⟩

/-- A field that no evaluation changes. -/
structure Fld.Free (f : Fld) : Prop where
  fits : f.fits = true
  apart : ∀ g : Fld, g.Decided → f.apart g = true
  win : ∀ k, k < 4 → f.off ≠ PP.WIN k

/-- Free fields, the sources and what waits outside stay. -/
structure Chip.Settles (s t : Chip) : Prop where
  fields : ∀ f : Fld, f.Free → t.get f = s.get f
  srcs : t.srcs = s.srcs
  bells : t.bells = s.bells

namespace Chip.Settles

variable {s t u : Chip}

theorem refl (s : Chip) : Settles s s := ⟨fun _ _ => rfl, rfl, rfl⟩

theorem trans (h : Settles s t) (k : Settles t u) : Settles s u := ⟨fun f hf => (k.fields f hf).trans (h.fields f hf), k.srcs.trans h.srcs, k.bells.trans h.bells⟩

theorem put (h : Settles s t) (g : Fld) (v : Nat) (hg : g.Decided) : Settles s (t.put g v) :=
  ⟨fun f hf => (get_put_apart t g f v hf.fits (hf.apart g hg)).trans (h.fields f hf), h.srcs, h.bells⟩

theorem setWin (h : Settles s t) (k : Nat) (w : Word) (hk : k < 4) : Settles s (t.setReg (PP.WIN k) w) :=
  ⟨fun f hf => (get_setReg_of_ne t _ w f (hf.win k hk)).trans (h.fields f hf), h.srcs, h.bells⟩

theorem evh (h : Settles s t) (e : EvhHw) : Settles s { t with evh := e } := ⟨h.fields, h.srcs, h.bells⟩

theorem forEach {l : List Nat} {f : Nat → Chip → Chip} (h : Settles s t) (hf : ∀ i ∈ l, ∀ c, Settles c (f i c)) : Settles s (t.forEach l f) := by
  induction l generalizing t with
  | nil => exact h
  | cons i l ih => exact ih (h.trans (hf i List.mem_cons_self t)) fun j hj => hf j (List.mem_cons_of_mem _ hj)

end Chip.Settles

theorem winClear_settles (c : Chip) (k : Nat) (hk : k < 4) : c.Settles (c.winClear k) := by
  unfold Chip.winClear
  refine .setWin (.put (.put ?_ _ 0 (.request k hk)) _ 0 (.requestClass k hk)) k 0 hk
  split
  · split
    · next hi => exact .put (.refl c) _ _ (.routed _ hi)
    · exact .refl c
  · exact .refl c

theorem winSet_settles (c : Chip) (i k : Nat) (tie : Bool) (hi : i < 2048) (hk : k < 4) : c.Settles (c.winSet i k tie) := by
  have shown : c.Settles ((((c.put (SRC.STATE_ROUTED i) 1).put (SRC.STATE_PP i) k).put (PP.STAT_REQ k) 1).put (PP.STAT_REQCLS k) (c.get (SRC.CFG_CLS i))) :=
    .put (.put (.put (.put (.refl c) _ _ (.routed i hi)) _ _ (.proc i hi)) _ _ (.request k hk)) _ _ (.requestClass k hk)
  unfold Chip.winSet
  dsimp only
  split
  · exact .evh (.put (.evh (shown.setWin k _ hk) _) _ _ (.wake 11 2)) _
  · exact .evh (shown.setWin k _ hk) _

theorem routeOnce_settles (c : Chip) : c.Settles c.routeOnce := by
  have place (l : List (Nat × Nat × Bool)) (t : Chip) (h : c.Settles t) (hl : ∀ r ∈ l, r.1 < 2048 ∧ r.2.1 < 4) :
      c.Settles (l.foldl (fun u r => u.winSet r.1 r.2.1 r.2.2) t) := by
    induction l generalizing t with
    | nil => exact h
    | cons r l ih =>
      obtain ⟨⟨hi, hk⟩, hl⟩ := List.forall_mem_cons.1 hl
      exact ih _ (h.trans (winSet_settles t _ _ _ hi hk)) hl
  have cleared : c.Settles (c.forEach (List.range 4) fun k u => u.winClear k) := .forEach (.refl c) fun k hk u => winClear_settles u k (List.mem_range.1 hk)
  unfold Chip.routeOnce
  refine place _ _ (.evh cleared _) fun r hr => ?_
  obtain ⟨hi, hk⟩ := mem_routePass _ _ _ _ r hr
  exact ⟨routables_lt _ _ hi, hk⟩

theorem awakeRefresh_settles (c : Chip) : c.Settles c.awakeRefresh := by
  rw [awakeRefresh_eq]
  exact .forEach (.refl c) fun k hk u => .put (.put (.refl u) _ _ (.asleep k (List.mem_range.1 hk))) _ _ .awake

theorem wakeRecord_settles (c : Chip) (i : Nat) (pol : Bool) : c.Settles (c.wakeRecord i pol) := by
  unfold Chip.wakeRecord
  exact .evh (.put (.put (.put (.put (.refl c) _ _ (.wake 31 1)) _ _ (.wake 30 1)) _ _ (.wake 11 2)) _ _ (.wake 0 11)) _

theorem unpark_settles (c : Chip) (k i : Nat) (hk : k < 4) : c.Settles ((((c.put (PP.CTRL_PARK k) 0).wakeLine k true).awakeRefresh).wakeRecord i false) :=
  ((((Chip.Settles.refl c).put _ 0 (.park k hk)).evh _).trans (awakeRefresh_settles _)).trans (wakeRecord_settles _ _ _)

/-- An evaluation, with what it unparks. -/
theorem routeN_settles (n : Nat) (c : Chip) : c.Settles (Chip.routeN n c) := by
  induction n generalizing c with
  | zero => exact routeOnce_settles c
  | succ n ih =>
    have once := routeOnce_settles c
    rw [Chip.routeN]
    split
    · exact once.evh _
    · split
      · exact once
      · split
        · exact (once.trans (unpark_settles _ _ _ (lowestProc_lt _))).trans (ih _)
        · exact once

theorem evaluate_settles (c : Chip) : c.Settles c.evaluate := routeN_settles 4 c

/-- A wake clears PARK; nothing in an evaluation sets it. -/
def Chip.KeepsUnparked (s t : Chip) : Prop := ∀ k, k < 4 → s.get (PP.CTRL_PARK k) = 0 → t.get (PP.CTRL_PARK k) = 0

theorem Chip.Shows.unparked {s t : Chip} (h : s.Shows t) : s.KeepsUnparked t := fun k hk zero => (congrArg (wordField · 0 1) (h.ctrl k hk)).trans zero

theorem Chip.KeepsUnparked.evh {s t : Chip} (h : s.KeepsUnparked t) (e : EvhHw) : s.KeepsUnparked { t with evh := e } := fun k hk zero => by
  have regs : ({ t with evh := e } : Chip).regs = t.regs := rfl
  rw [get_congr regs]
  exact h k hk zero

theorem routeN_unparked (n : Nat) (c : Chip) : c.KeepsUnparked (Chip.routeN n c) := by
  induction n generalizing c with
  | zero => exact (routeOnce_routes c).toShows.unparked
  | succ n ih =>
    have once := (routeOnce_routes c).toShows.unparked
    rw [Chip.routeN]
    split
    · exact once.evh _
    · split
      · exact once
      · split
        · next i _ =>
          obtain ⟨j, target⟩ : ∃ j, lowestProc (c.routeOnce.get (SRC.CFG_TGT i)) = j := ⟨_, rfl⟩
          obtain ⟨u, woken⟩ : ∃ u, (c.routeOnce.put (PP.CTRL_PARK j) 0).wakeLine j true = u := ⟨_, rfl⟩
          have regs : u.regs = (c.routeOnce.put (PP.CTRL_PARK j) 0).regs := by rw [← woken]; rfl
          dsimp only
          rw [target, woken]
          intro k hk zero
          refine ih _ k hk ?_
          rw [(wakeRecord_onlyIn u.awakeRefresh i false).get (PP.CTRL_PARK k) (beq_eq_false_iff_ne.mpr (by simp only [PP.CTRL_PARK, PP.CTRL, EVH.WAKEST]; omega))]
          refine (awakeRefresh_shown u).1.unparked k hk ?_
          rw [get_congr regs]
          by_cases here : k = j
          · rw [here]
            exact get_put_same _ _ _ rfl
          · rw [get_put_off_ne _ _ _ _ (show PP.CTRL k ≠ PP.CTRL j by simp only [PP.CTRL]; omega)]
            exact once k hk zero
        · exact once

theorem evaluate_unparked (c : Chip) : c.KeepsUnparked c.evaluate := routeN_unparked 4 c

/-- No source of the hub is pending. -/
def Chip.Idle (s : Chip) : Prop := ∀ i, i < 2048 → (s.srcs.get i).ready = false

theorem routables_of_idle {c : Chip} (idle : c.Idle) : c.routables = [] := by
  have none : (c.srcs.entries.map (·.1)).filter c.srcRoutable = [] := List.filter_eq_nil_iff.mpr fun i _ => by
    by_cases hi : i < 2048
    · simp [Chip.srcRoutable, idle i hi]
    · simp [Chip.srcRoutable, hi]
  rw [Chip.routables, none, List.foldl_nil]

theorem reg_evh (c : Chip) (e : EvhHw) (o : Nat) : ({ c with evh := e } : Chip).reg o = c.reg o := rfl

/-- With nothing pending an evaluation unparks no processor. -/
theorem evaluate_of_idle {c : Chip} (idle : c.Idle) {k : Nat} (hk : k < 4) : c.evaluate.reg (PP.CTRL k) = c.reg (PP.CTRL k) := by
  have once := (routeOnce_routes c).ctrl k hk
  have still : c.routeOnce.Idle := fun i hi => by rw [(routeOnce_settles c).srcs]; exact idle i hi
  have nobody : ∀ ctl, c.routeOnce.parkedSource ctl = none := fun ctl => by rw [Chip.parkedSource, routables_of_idle still]; rfl
  rw [Chip.evaluate, Chip.routeN]
  split
  · rw [reg_evh]
    exact once
  · split
    · exact once
    · split
      · next i found => exact absurd (found.symm.trans (nobody _)) (Option.some_ne_none i)
      · exact once

/-! The fields that stay (R412). -/

theorem apart_of_range {f g : Fld} (h : f.lo + f.width ≤ g.lo ∨ g.lo + g.width ≤ f.lo) : f.apart g = true :=
  Fld.apart_of_bits f g (by rw [Bool.or_eq_true, decide_eq_true_eq, decide_eq_true_eq]; exact h)

/-- A field of a register that no evaluation writes. -/
theorem free_of_reg {o : Nat} (lo width : Nat) (fits : lo + width ≤ 32) (source : ∀ i, i < 2048 → o ≠ SRC.STATE i) (proc : ∀ k, k < 4 → o ≠ PP.STAT k ∧ o ≠ PP.CTRL k ∧ o ≠ PP.WIN k)
    (hub : o ≠ EVH.STAT) (wake : o ≠ EVH.WAKEST) : Fld.Free ⟨o, lo, width⟩ where
  fits := decide_eq_true fits
  apart g hg := by
    refine Fld.apart_of_off_ne _ _ ?_
    cases hg with
    | routed i hi => exact source i hi
    | proc i hi => exact source i hi
    | request k hk => exact (proc k hk).1
    | requestClass k hk => exact (proc k hk).1
    | asleep k hk => exact (proc k hk).1
    | park k hk => exact (proc k hk).2.1
    | awake => exact hub
    | wake lo width => exact wake
  win k hk := (proc k hk).2.2

/-- CNT, INSRV and PEND of a source. -/
theorem free_source {i : Nat} (hi : i < 2048) (lo width : Nat) (fits : lo + width ≤ 32) (bits : lo + width ≤ 2 ∨ 5 ≤ lo) : Fld.Free ⟨SRC.STATE i, lo, width⟩ where
  fits := decide_eq_true fits
  apart g hg := by
    have far : ∀ k, k < 4 → SRC.STATE i ≠ PP.STAT k ∧ SRC.STATE i ≠ PP.CTRL k ∧ SRC.STATE i ≠ EVH.STAT ∧ SRC.STATE i ≠ EVH.WAKEST := fun k hk => by
      simp only [SRC.STATE, PP.STAT, PP.CTRL, EVH.STAT, EVH.WAKEST]
      omega
    cases hg with
    | routed j hj => exact apart_of_range (by dsimp only [SRC.STATE_ROUTED]; omega)
    | proc j hj => exact apart_of_range (by dsimp only [SRC.STATE_PP]; omega)
    | request k hk => exact Fld.apart_of_off_ne _ _ (far k hk).1
    | requestClass k hk => exact Fld.apart_of_off_ne _ _ (far k hk).1
    | asleep k hk => exact Fld.apart_of_off_ne _ _ (far k hk).1
    | park k hk => exact Fld.apart_of_off_ne _ _ (far k hk).2.1
    | awake => exact Fld.apart_of_off_ne _ _ (far 0 (by decide)).2.2.1
    | wake lo' width' => exact Fld.apart_of_off_ne _ _ (far 0 (by decide)).2.2.2
  win k hk := by
    simp only [SRC.STATE, PP.WIN]
    omega

/-- DEPTH, RUNPRI and FASTBK of a processor. -/
theorem free_stat {k : Nat} (hk : k < 4) (lo width : Nat) (bits : lo + width ≤ 28 ∨ lo = 29 ∧ width = 1) : Fld.Free ⟨PP.STAT k, lo, width⟩ where
  fits := decide_eq_true (by dsimp only; omega)
  apart g hg := by
    have far : (∀ i, i < 2048 → PP.STAT k ≠ SRC.STATE i) ∧ (∀ j, j < 4 → PP.STAT k ≠ PP.CTRL j) ∧ PP.STAT k ≠ EVH.STAT ∧ PP.STAT k ≠ EVH.WAKEST := by
      simp only [SRC.STATE, PP.STAT, PP.CTRL, EVH.STAT, EVH.WAKEST]
      exact ⟨fun i hi => by omega, fun j hj => by omega, by omega, by omega⟩
    cases hg with
    | routed i hi => exact Fld.apart_of_off_ne _ _ (far.1 i hi)
    | proc i hi => exact Fld.apart_of_off_ne _ _ (far.1 i hi)
    | request j hj => exact apart_of_range (by dsimp only [PP.STAT_REQ]; omega)
    | requestClass j hj => exact apart_of_range (by dsimp only [PP.STAT_REQCLS]; omega)
    | asleep j hj => exact apart_of_range (by dsimp only [PP.STAT_ASLEEP]; omega)
    | park j hj => exact Fld.apart_of_off_ne _ _ (far.2.1 j hj)
    | awake => exact Fld.apart_of_off_ne _ _ far.2.2.1
    | wake lo' width' => exact Fld.apart_of_off_ne _ _ far.2.2.2
  win j hj := by
    simp only [PP.STAT, PP.WIN]
    omega

/-- PMR of a processor. -/
theorem free_pmr {k : Nat} (hk : k < 4) : Fld.Free (PP.CTRL_PMR k) where
  fits := rfl
  apart g hg := by
    have far : (∀ i, i < 2048 → PP.CTRL k ≠ SRC.STATE i) ∧ (∀ j, j < 4 → PP.CTRL k ≠ PP.STAT j) ∧ PP.CTRL k ≠ EVH.STAT ∧ PP.CTRL k ≠ EVH.WAKEST := by
      simp only [SRC.STATE, PP.STAT, PP.CTRL, EVH.STAT, EVH.WAKEST]
      exact ⟨fun i hi => by omega, fun j hj => by omega, by omega, by omega⟩
    cases hg with
    | routed i hi => exact Fld.apart_of_off_ne _ _ (far.1 i hi)
    | proc i hi => exact Fld.apart_of_off_ne _ _ (far.1 i hi)
    | request j hj => exact Fld.apart_of_off_ne _ _ (far.2.1 j hj)
    | requestClass j hj => exact Fld.apart_of_off_ne _ _ (far.2.1 j hj)
    | asleep j hj => exact Fld.apart_of_off_ne _ _ (far.2.1 j hj)
    | park j hj => simp [Fld.apart, PP.CTRL_PMR, PP.CTRL_PARK]
    | awake => exact Fld.apart_of_off_ne _ _ far.2.2.1
    | wake lo' width' => exact Fld.apart_of_off_ne _ _ far.2.2.2
  win j hj := by
    simp only [PP.CTRL_PMR, PP.CTRL, PP.WIN]
    omega

/-- The words of a register that no evaluation writes. -/
theorem Chip.Settles.word {s t : Chip} (h : s.Settles t) {o : Nat} (free : Fld.Free ⟨o, 0, 32⟩) : t.reg o = s.reg o := by
  have same : wordField (t.reg o) 0 32 = wordField (s.reg o) 0 32 := h.fields _ free
  refine BitVec.eq_of_toNat_eq ?_
  simpa [wordField, Nat.mod_eq_of_lt (t.reg o).isLt, Nat.mod_eq_of_lt (s.reg o).isLt] using same

/-! Doorbells (R389 to R394). -/

/-- Nothing outside the hub changes, and no doorbell message. -/
structure Chip.InHub (s t : Chip) : Prop where
  regs : s.OnlyIn hubRegs t
  bells : t.bells = s.bells
  faults : t.faultQ = s.faultQ
  outs : t.outbox = s.outbox

namespace Chip.InHub

variable {s t u : Chip}

theorem refl (s : Chip) : InHub s s := ⟨.refl _ _, rfl, rfl, rfl⟩

theorem trans (h : InHub s t) (k : InHub t u) : InHub s u := ⟨h.regs.trans k.regs, k.bells.trans h.bells, k.faults.trans h.faults, k.outs.trans h.outs⟩

theorem put (h : InHub s t) (f : Fld) (v : Nat) (hf : hubRegs f.off = true) : InHub s (t.put f v) := ⟨h.regs.put f v hf, h.bells, h.faults, h.outs⟩

theorem setReg (h : InHub s t) (o : Nat) (w : Word) (ho : hubRegs o = true) : InHub s (t.setReg o w) := ⟨h.regs.setReg o w ho, h.bells, h.faults, h.outs⟩

theorem upd (h : InHub s t) (kr : u.regs = t.regs) (kb : u.bells = t.bells) (kf : u.faultQ = t.faultQ) (ko : u.outbox = t.outbox) : InHub s u :=
  ⟨h.regs.upd kr, kb.trans h.bells, kf.trans h.faults, ko.trans h.outs⟩

theorem either {b : Prop} [Decidable b] (h : InHub s t) (k : InHub s u) : InHub s (if b then t else u) := by
  split
  · exact h
  · exact k

end Chip.InHub

theorem evaluate_inHub (c : Chip) : c.InHub c.evaluate := ⟨(evaluate_evaluated c).regs, (evaluate_settles c).bells, (evaluate_evaluated c).faults, (evaluate_evaluated c).outs⟩

theorem awakeRefresh_inHub (c : Chip) : c.InHub c.awakeRefresh := ⟨(awakeRefresh_shown c).1.regs, (awakeRefresh_settles c).bells, (awakeRefresh_shown c).1.faults, (awakeRefresh_shown c).1.outs⟩

/-- A step that changes what is noted of the sources, and no register. -/
structure Chip.Notes (s t : Chip) : Prop where
  regs : t.regs = s.regs
  bells : t.bells = s.bells
  faults : t.faultQ = s.faultQ
  outs : t.outbox = s.outbox

theorem Chip.Notes.refl (s : Chip) : s.Notes s := ⟨rfl, rfl, rfl, rfl⟩

theorem Chip.Notes.trans {s t u : Chip} (h : s.Notes t) (k : t.Notes u) : s.Notes u := ⟨k.regs.trans h.regs, k.bells.trans h.bells, k.faults.trans h.faults, k.outs.trans h.outs⟩

theorem Chip.Notes.inHub {s t : Chip} (h : s.Notes t) : s.InHub t := (Chip.InHub.refl s).upd h.regs h.bells h.faults h.outs

/-- What is noted of source i changes. -/
def Chip.srcUpd (s : Chip) (i : Nat) (f : SrcHw → SrcHw) : Chip := { s with srcs := s.srcs.upd i f }

theorem srcUpd_notes (c : Chip) (i : Nat) (f : SrcHw → SrcHw) : c.Notes (c.srcUpd i f) := ⟨rfl, rfl, rfl, rfl⟩

theorem srcUpd_same (c : Chip) (i : Nat) (f : SrcHw → SrcHw) : (c.srcUpd i f).srcs.get i = f (c.srcs.get i) := Tbl.get_upd_same _ _ _

theorem srcUpd_other (c : Chip) (f : SrcHw → SrcHw) {i j : Nat} (h : j ≠ i) : (c.srcUpd i f).srcs.get j = c.srcs.get j := Tbl.get_upd_other _ _ _ _ h

theorem srcPend_notes (c : Chip) (i : Nat) : c.Notes (c.srcPend i) := by
  unfold Chip.srcPend
  split <;> exact ⟨rfl, rfl, rfl, rfl⟩

/-- A source that becomes pending keeps its marks. -/
theorem srcPend_same (c : Chip) (i : Nat) : ((c.srcPend i).srcs.get i).ready = true ∧ ((c.srcPend i).srcs.get i).unreleased = (c.srcs.get i).unreleased ∧
    ((c.srcPend i).srcs.get i).released = (c.srcs.get i).released := by
  unfold Chip.srcPend
  split
  · next ready => exact ⟨ready, rfl, rfl⟩
  · have own : ∀ f : SrcHw → SrcHw, (c.srcs.upd i f).get i = f (c.srcs.get i) := fun f => Tbl.get_upd_same _ _ _
    dsimp only
    rw [own]
    exact ⟨rfl, rfl, rfl⟩

theorem srcPend_other (c : Chip) {i j : Nat} (h : j ≠ i) : (c.srcPend i).srcs.get j = c.srcs.get j := by
  unfold Chip.srcPend
  split
  · rfl
  · exact Tbl.get_upd_other _ _ _ _ h

theorem srcRelease_of_serving {c : Chip} {i : Nat} (serving : c.get (SRC.STATE_INSRV i) = 1) :
    c.srcRelease i = (c.srcUpd i fun h => { h with unreleased := false }).srcUpd i fun h => { h with released := true } := by
  have bit : (c.srcUpd i fun h => { h with unreleased := false }).bit (SRC.STATE_INSRV i) = true := by rw [Chip.bit, get_congr (srcUpd_notes c i _).regs, serving]; rfl
  exact if_pos bit

theorem srcRelease_of_waiting {c : Chip} {i : Nat} (waiting : c.get (SRC.STATE_INSRV i) ≠ 1) : c.srcRelease i = (c.srcUpd i fun h => { h with unreleased := false }).srcPend i := by
  have zero : c.get (SRC.STATE_INSRV i) = 0 := by
    have : c.get (SRC.STATE_INSRV i) < 2 ^ 1 := get_lt_two_pow c (SRC.STATE_INSRV i)
    omega
  have bit : ¬ (c.srcUpd i fun h => { h with unreleased := false }).bit (SRC.STATE_INSRV i) = true := by
    rw [Chip.bit, get_congr (srcUpd_notes c i _).regs, zero]
    exact Bool.false_ne_true
  exact if_neg bit

theorem srcRelease_notes (c : Chip) (i : Nat) : c.Notes (c.srcRelease i) := by
  by_cases serving : c.get (SRC.STATE_INSRV i) = 1
  · rw [srcRelease_of_serving serving]
    exact (srcUpd_notes c i _).trans (srcUpd_notes _ i _)
  · rw [srcRelease_of_waiting serving]
    exact (srcUpd_notes c i _).trans (srcPend_notes _ i)

/-- A source whose doorbells have been released. -/
structure SrcHw.Done (h : SrcHw) (inService : Nat) : Prop where
  unreleased : h.unreleased = false
  ready : inService = 0 → h.ready = true
  released : inService = 1 → h.released = true

theorem srcRelease_done (c : Chip) (i : Nat) : ((c.srcRelease i).srcs.get i).Done (c.get (SRC.STATE_INSRV i)) := by
  by_cases serving : c.get (SRC.STATE_INSRV i) = 1
  · rw [srcRelease_of_serving serving, srcUpd_same, srcUpd_same, serving]
    exact ⟨rfl, fun h => absurd h (by decide), fun _ => rfl⟩
  · rw [srcRelease_of_waiting serving]
    obtain ⟨ready, unreleased, -⟩ := srcPend_same (c.srcUpd i fun h => { h with unreleased := false }) i
    rw [srcUpd_same] at unreleased
    exact ⟨unreleased, fun _ => ready, fun h => absurd h serving⟩

theorem srcRelease_other (c : Chip) {i j : Nat} (h : j ≠ i) : (c.srcRelease i).srcs.get j = c.srcs.get j := by
  by_cases serving : c.get (SRC.STATE_INSRV i) = 1
  · rw [srcRelease_of_serving serving, srcUpd_other _ _ h, srcUpd_other _ _ h]
  · rw [srcRelease_of_waiting serving, srcPend_other _ h, srcUpd_other _ _ h]

/-- What is noted of source i in a group's release: released, or as before. -/
theorem srcReleases (l : List Nat) (c : Chip) (i : Nat) : c.Notes (c.forEach l fun j u => u.srcRelease j) ∧
    (((c.forEach l fun j u => u.srcRelease j).srcs.get i).Done (c.get (SRC.STATE_INSRV i)) ∨ i ∉ l ∧ (c.forEach l fun j u => u.srcRelease j).srcs.get i = c.srcs.get i) := by
  induction l generalizing c with
  | nil => exact ⟨.refl c, .inr ⟨List.not_mem_nil, rfl⟩⟩
  | cons j l ih =>
    have first := srcRelease_notes c j
    obtain ⟨rest, marked⟩ := ih (c.srcRelease j)
    rw [get_congr first.regs] at marked
    refine ⟨first.trans rest, ?_⟩
    have total : c.forEach (j :: l) (fun j u => u.srcRelease j) = (c.srcRelease j).forEach l fun j u => u.srcRelease j := rfl
    rw [total]
    obtain done | ⟨fresh, same⟩ := marked
    · exact .inl done
    · by_cases here : i = j
      · subst here
        exact .inl (same ▸ srcRelease_done c i)
      · exact .inr ⟨by simp [here, fresh], same.trans (srcRelease_other c here)⟩

/-- A group's STATE lies in the hub, and it is no source's register. -/
theorem group_place {g : Nat} (hg : g < 64) : hubRegs (GRP.STATE g) = true ∧ (∀ i, SRC.STATE i ≠ GRP.STATE g) ∧ (∀ i, SRC.CFG i ≠ GRP.STATE g) ∧ GRP.STATE g ≠ EVH.EVTCNT ∧
    (∀ k, k < 4 → GRP.STATE g ≠ PP.STAT k ∧ GRP.STATE g ≠ PP.CTRL k ∧ GRP.STATE g ≠ PP.WIN k) ∧ GRP.STATE g ≠ EVH.STAT ∧ GRP.STATE g ≠ EVH.WAKEST := by
  simp only [GRP.STATE, SRC.STATE, SRC.CFG, EVH.EVTCNT, PP.STAT, PP.CTRL, PP.WIN, EVH.STAT, EVH.WAKEST]
  refine ⟨span_of_le_lt (by omega), fun i => by omega, fun i => by omega, by omega, fun k hk => by omega, by omega, by omega⟩

/-- What a group's release does: its own register, and what is noted of each source. -/
theorem groupRelease_spec (c : Chip) {g : Nat} (hg : g < 64) : c.InHub (c.groupRelease g) ∧ c.OnlyIn (· == GRP.STATE g) (c.groupRelease g) ∧ (c.groupRelease g).get (GRP.STATE_ACC g) = 0 ∧
    (c.groupRelease g).get (GRP.STATE_ARMED g) = 0 ∧
    ∀ i, ((c.groupRelease g).srcs.get i).Done (c.get (SRC.STATE_INSRV i)) ∨ i ∉ c.unreleasedOf g ∧ (c.groupRelease g).srcs.get i = c.srcs.get i := by
  obtain ⟨u, released⟩ : ∃ u, (c.forEach (c.unreleasedOf g) fun i u => u.srcRelease i) = u := ⟨_, rfl⟩
  have each := fun i => srcReleases (c.unreleasedOf g) c i
  rw [released] at each
  obtain ⟨notes, -⟩ := each 0
  have shown : c.groupRelease g = (u.put (GRP.STATE_ACC g) 0).put (GRP.STATE_ARMED g) 0 := by rw [← released]; rfl
  obtain ⟨place, -⟩ := group_place hg
  rw [shown]
  refine ⟨(notes.inHub.put _ 0 place).put _ 0 place, (((Chip.OnlyIn.refl (· == GRP.STATE g) c).upd notes.regs).put (GRP.STATE_ACC g) 0 (beq_self_eq_true _)).put (GRP.STATE_ARMED g) 0 (beq_self_eq_true _), ?_, get_put_same _ _ _ rfl, fun i => (each i).2⟩
  exact (get_put_apart _ _ _ _ rfl (by simp [Fld.apart, GRP.STATE_ACC, GRP.STATE_ARMED])).trans (get_put_same _ _ _ rfl)

/-- A group's timer starts with its first doorbell. -/
def Chip.groupArm (s : Chip) (g : Nat) : Chip := if s.bit (GRP.STATE_ARMED g) then s else { s.put (GRP.STATE_ARMED g) 1 with groupStart := s.groupStart.set g s.now }

/-- A doorbell of a member before the group may release. -/
def Chip.groupCounts (s : Chip) (i n : Nat) : Chip :=
  ((s.srcUpd i fun h => { h with unreleased := true }).add (GRP.STATE_ACC (s.get (SRC.CFG_GRP i))) n).groupArm (s.get (SRC.CFG_GRP i))

theorem groupBell_eq (c : Chip) (i n : Nat) : c.groupBell i n =
    if orOne ((c.groupCounts i n).get (GRP.CFG_CNTTH (c.get (SRC.CFG_GRP i)))) ≤ (c.groupCounts i n).get (GRP.STATE_ACC (c.get (SRC.CFG_GRP i))) then
      (c.groupCounts i n).groupRelease (c.get (SRC.CFG_GRP i)) else c.groupCounts i n := rfl

theorem groupArm_spec (c : Chip) {g : Nat} (hg : g < 64) : c.InHub (c.groupArm g) ∧ c.OnlyIn (· == GRP.STATE g) (c.groupArm g) ∧ (c.groupArm g).srcs = c.srcs := by
  unfold Chip.groupArm
  split
  · exact ⟨.refl c, .refl _ c, rfl⟩
  · exact ⟨((Chip.InHub.refl c).put (GRP.STATE_ARMED g) 1 (group_place hg).1).upd rfl rfl rfl rfl, ((Chip.OnlyIn.refl (· == GRP.STATE g) c).put (GRP.STATE_ARMED g) 1 (beq_self_eq_true _)).upd rfl, rfl⟩

theorem groupCounts_spec (c : Chip) (i n : Nat) : c.InHub (c.groupCounts i n) ∧ c.OnlyIn (· == GRP.STATE (c.get (SRC.CFG_GRP i))) (c.groupCounts i n) ∧
    ((c.groupCounts i n).srcs.get i).unreleased = true := by
  have small : c.get (SRC.CFG_GRP i) < 2 ^ 6 := get_lt_two_pow c (SRC.CFG_GRP i)
  unfold Chip.groupCounts
  generalize c.get (SRC.CFG_GRP i) = g at small ⊢
  obtain ⟨u, added⟩ : ∃ u, (c.srcUpd i fun h => { h with unreleased := true }).add (GRP.STATE_ACC g) n = u := ⟨_, rfl⟩
  have inHub : c.InHub u := added ▸ (srcUpd_notes c i _).inHub.put (GRP.STATE_ACC g) _ (group_place small).1
  have regs : c.OnlyIn (· == GRP.STATE g) u := added ▸ ((Chip.OnlyIn.refl (· == GRP.STATE g) c).upd (srcUpd_notes c i _).regs).put (GRP.STATE_ACC g) _ (beq_self_eq_true _)
  have marked : (u.srcs.get i).unreleased = true := by
    rw [← added]
    exact congrArg SrcHw.unreleased (srcUpd_same c i _)
  obtain ⟨inHub', regs', srcs⟩ := groupArm_spec u small
  rw [added]
  exact ⟨inHub.trans inHub', regs.trans regs', by rw [srcs]; exact marked⟩

/-- A doorbell of a member that is not in service leaves it pending, or waiting for its group. -/
theorem groupBell_spec (c : Chip) (i n : Nat) : c.InHub (c.groupBell i n) ∧ c.OnlyIn (· == GRP.STATE (c.get (SRC.CFG_GRP i))) (c.groupBell i n) ∧
    (c.get (SRC.STATE_INSRV i) = 0 → ((c.groupBell i n).srcs.get i).ready = true ∨ ((c.groupBell i n).srcs.get i).unreleased = true) := by
  have small : c.get (SRC.CFG_GRP i) < 2 ^ 6 := get_lt_two_pow c (SRC.CFG_GRP i)
  obtain ⟨inHub, regs, marked⟩ := groupCounts_spec c i n
  rw [groupBell_eq]
  generalize c.groupCounts i n = u, c.get (SRC.CFG_GRP i) = g at small inHub regs marked ⊢
  split
  · obtain ⟨inHub', regs', -, -, each⟩ := groupRelease_spec u small
    refine ⟨inHub.trans inHub', regs.trans regs', fun waiting => ?_⟩
    have still : u.get (SRC.STATE_INSRV i) = 0 := (regs.get _ (beq_eq_false_iff_ne.mpr ((group_place small).2.1 i))).trans waiting
    obtain done | ⟨-, same⟩ := each i
    · exact .inl (done.ready still)
    · exact .inr (by rw [same]; exact marked)
  · exact ⟨inHub, regs, fun _ => .inr marked⟩

/-- A source's doorbells are counted (R391). -/
def Chip.bellCounts (s : Chip) (i n : Nat) : Chip :=
  if 255 < s.get (SRC.STATE_CNT i) + n then (s.put (SRC.STATE_CNT i) (min (s.get (SRC.STATE_CNT i) + n) 255)).inc EVH.EVTCNT_SATCNT
  else s.put (SRC.STATE_CNT i) (min (s.get (SRC.STATE_CNT i) + n) 255)

/-- A source becomes pending, or its group takes the doorbell (R391, R394). -/
def Chip.bellPends (s : Chip) (i n : Nat) : Chip :=
  if s.bit (SRC.CFG_GV i) then s.groupBell i n else if s.bit (SRC.STATE_INSRV i) then s else s.srcPend i

theorem ring_eq (c : Chip) (i n : Nat) : c.ring i n = (((c.bellCounts i n).bellPends i n).srcRefresh i).evaluate := rfl

/-- A source's registers lie in the hub, apart from its counters and its processors. -/
theorem source_place {i : Nat} (hi : i < 2048) : hubRegs (SRC.STATE i) = true ∧ SRC.STATE i ≠ EVH.EVTCNT ∧ SRC.STATE i ≠ EVH.STAT ∧ SRC.CFG i ≠ SRC.STATE i ∧ SRC.CFG i ≠ EVH.EVTCNT ∧
    SRC.CFG i ≠ EVH.STAT := by
  simp only [SRC.STATE, SRC.CFG, EVH.EVTCNT, EVH.STAT]
  exact ⟨span_of_le_lt (by omega), by omega, by omega, by omega, by omega, by omega⟩

theorem bellCounts_inHub (c : Chip) {i : Nat} (hi : i < 2048) (n : Nat) : c.InHub (c.bellCounts i n) ∧ (c.bellCounts i n).srcs = c.srcs := by
  have first := fun v => (Chip.InHub.refl c).put (SRC.STATE_CNT i) v (source_place hi).1
  unfold Chip.bellCounts
  split
  · exact ⟨(first _).put EVH.EVTCNT_SATCNT _ rfl, rfl⟩
  · exact ⟨first _, rfl⟩

theorem bellCounts_cnt (c : Chip) {i : Nat} (hi : i < 2048) (n : Nat) : (c.bellCounts i n).get (SRC.STATE_CNT i) = min (c.get (SRC.STATE_CNT i) + n) 255 ∧
    (c.bellCounts i n).get EVH.EVTCNT_SATCNT = if 255 < c.get (SRC.STATE_CNT i) + n then counted c EVH.EVTCNT_SATCNT else c.get EVH.EVTCNT_SATCNT := by
  have far := (source_place hi).2.1
  have own : ∀ v, v ≤ 255 → (c.put (SRC.STATE_CNT i) v).get (SRC.STATE_CNT i) = v := fun v hv => (get_put_same _ _ _ rfl).trans (Nat.mod_eq_of_lt (show v < 2 ^ 8 by omega))
  have other : ∀ v, (c.put (SRC.STATE_CNT i) v).get EVH.EVTCNT_SATCNT = c.get EVH.EVTCNT_SATCNT := fun v => get_put_off_ne _ _ _ _ (show EVH.EVTCNT ≠ SRC.STATE i from far.symm)
  unfold Chip.bellCounts
  split
  · refine ⟨(get_put_off_ne _ _ _ _ (show SRC.STATE i ≠ EVH.EVTCNT from far)).trans (own _ (Nat.min_le_right _ _)), (get_inc _ _ rfl).trans ?_⟩
    rw [counted, counted, other]
  · exact ⟨own _ (Nat.min_le_right _ _), other _⟩

theorem bellCounts_other (c : Chip) (i n : Nat) {f : Fld} (fits : f.fits = true) (cnt : f.apart (SRC.STATE_CNT i) = true) (sat : f.off ≠ EVH.EVTCNT) :
    (c.bellCounts i n).get f = c.get f := by
  unfold Chip.bellCounts
  split
  · exact (get_put_off_ne _ _ _ _ sat).trans (get_put_apart _ _ _ _ fits cnt)
  · exact get_put_apart _ _ _ _ fits cnt

/-- PEND follows the count, and nothing is noted. -/
theorem srcRefresh_inHub (c : Chip) {i : Nat} (hi : i < 2048) : c.InHub (c.srcRefresh i) ∧ (c.srcRefresh i).srcs = c.srcs :=
  ⟨((Chip.InHub.refl c).put (SRC.STATE_PEND i) _ (source_place hi).1).put EVH.STAT_NPEND _ rfl, rfl⟩

theorem srcRefresh_other (c : Chip) (i : Nat) {f : Fld} (fits : f.fits = true) (pend : f.apart (SRC.STATE_PEND i) = true) (npend : f.off ≠ EVH.STAT) : (c.srcRefresh i).get f = c.get f :=
  (get_put_off_ne _ _ _ _ npend).trans (get_put_apart _ _ _ _ fits pend)

theorem srcRefresh_pend {c : Chip} {i : Nat} (hi : i < 2048) (waiting : c.get (SRC.STATE_INSRV i) = 0) (some : c.get (SRC.STATE_CNT i) ≠ 0) : (c.srcRefresh i).get (SRC.STATE_PEND i) = 1 := by
  have pends : (!c.bit (SRC.STATE_INSRV i) && c.get (SRC.STATE_CNT i) != 0) = true := by
    rw [Chip.bit, waiting, bne_iff_ne.mpr some]
    rfl
  refine (get_put_off_ne _ _ _ _ (show SRC.STATE i ≠ EVH.STAT from (source_place hi).2.2.1)).trans ((get_put_same _ _ _ rfl).trans ?_)
  rw [pends]
  rfl

/-- What a doorbell does to the hub. -/
structure Chip.Rung (s t : Chip) (i n : Nat) : Prop where
  inHub : s.InHub t
  count : t.get (SRC.STATE_CNT i) = min (s.get (SRC.STATE_CNT i) + n) 255
  saturated : t.get EVH.EVTCNT_SATCNT = if 255 < s.get (SRC.STATE_CNT i) + n then counted s EVH.EVTCNT_SATCNT else s.get EVH.EVTCNT_SATCNT
  pending : s.get (SRC.CFG_GV i) = 0 → s.get (SRC.STATE_INSRV i) = 0 → (t.srcs.get i).ready = true ∧ t.get (SRC.STATE_PEND i) = 1
  member : s.get (SRC.CFG_GV i) = 1 → s.get (SRC.STATE_INSRV i) = 0 → (t.srcs.get i).ready = true ∨ (t.srcs.get i).unreleased = true

/-- The group or the source takes a doorbell; no field of the source moves. -/
theorem bellPends_spec (c : Chip) {i : Nat} (n : Nat) : c.InHub (c.bellPends i n) ∧ c.OnlyIn (· == GRP.STATE (c.get (SRC.CFG_GRP i))) (c.bellPends i n) ∧
    (c.get (SRC.CFG_GV i) = 0 → c.get (SRC.STATE_INSRV i) = 0 → ((c.bellPends i n).srcs.get i).ready = true) ∧
    (c.get (SRC.CFG_GV i) = 1 → c.get (SRC.STATE_INSRV i) = 0 → ((c.bellPends i n).srcs.get i).ready = true ∨ ((c.bellPends i n).srcs.get i).unreleased = true) := by
  by_cases member : c.get (SRC.CFG_GV i) = 0
  · have bit : ¬ c.bit (SRC.CFG_GV i) = true := by rw [Chip.bit, member]; exact Bool.false_ne_true
    rw [Chip.bellPends, if_neg bit]
    by_cases waiting : c.get (SRC.STATE_INSRV i) = 0
    · have idle : ¬ c.bit (SRC.STATE_INSRV i) = true := by rw [Chip.bit, waiting]; exact Bool.false_ne_true
      have notes := srcPend_notes c i
      rw [if_neg idle]
      exact ⟨notes.inHub, (Chip.OnlyIn.refl _ c).upd notes.regs, fun _ _ => (srcPend_same c i).1, fun h => absurd (member.symm.trans h) (by decide)⟩
    · have serving : c.bit (SRC.STATE_INSRV i) = true := bne_iff_ne.mpr waiting
      rw [if_pos serving]
      exact ⟨.refl c, .refl _ c, fun _ h => absurd h waiting, fun h => absurd (member.symm.trans h) (by decide)⟩
  · have bit : c.bit (SRC.CFG_GV i) = true := bne_iff_ne.mpr member
    obtain ⟨inHub, regs, marked⟩ := groupBell_spec c i n
    rw [Chip.bellPends, if_pos bit]
    exact ⟨inHub, regs, fun h => absurd h member, fun _ => marked⟩

theorem free_satcnt : Fld.Free EVH.EVTCNT_SATCNT :=
  free_of_reg 0 16 (by decide) (fun i _ => by simp only [EVH.EVTCNT, SRC.STATE]; omega) (fun k _ => by simp only [EVH.EVTCNT, PP.STAT, PP.CTRL, PP.WIN]; omega) (by decide) (by decide)

theorem ring_rung (c : Chip) {i : Nat} (hi : i < 2048) {n : Nat} (some : n ≠ 0) : c.Rung (c.ring i n) i n := by
  rw [ring_eq]
  obtain ⟨a, counts⟩ : ∃ a, c.bellCounts i n = a := ⟨_, rfl⟩
  have counted' : c.InHub a ∧ a.srcs = c.srcs := counts ▸ bellCounts_inHub c hi n
  have cnt : a.get (SRC.STATE_CNT i) = min (c.get (SRC.STATE_CNT i) + n) 255 ∧
      a.get EVH.EVTCNT_SATCNT = if 255 < c.get (SRC.STATE_CNT i) + n then counted c EVH.EVTCNT_SATCNT else c.get EVH.EVTCNT_SATCNT := counts ▸ bellCounts_cnt c hi n
  have same : ∀ f : Fld, f.fits = true → f.apart (SRC.STATE_CNT i) = true → f.off ≠ EVH.EVTCNT → a.get f = c.get f := fun f fits apart sat => counts ▸ bellCounts_other c i n fits apart sat
  obtain ⟨b, pends⟩ : ∃ b, a.bellPends i n = b := ⟨_, rfl⟩
  have step := bellPends_spec a (i := i) n
  rw [pends] at step
  obtain ⟨inHub, regs, pending, member⟩ := step
  obtain ⟨d, refreshed⟩ : ∃ d, b.srcRefresh i = d := ⟨_, rfl⟩
  have shows : b.InHub d ∧ d.srcs = b.srcs := refreshed ▸ srcRefresh_inHub b hi
  have others : ∀ f : Fld, f.fits = true → f.apart (SRC.STATE_PEND i) = true → f.off ≠ EVH.STAT → d.get f = b.get f := fun f fits pend npend => refreshed ▸ srcRefresh_other b i fits pend npend
  obtain ⟨place, evtcnt, stat, cfg, cfgEvtcnt, -⟩ := source_place hi
  have small : a.get (SRC.CFG_GRP i) < 2 ^ 6 := get_lt_two_pow a (SRC.CFG_GRP i)
  obtain ⟨-, source, -, group, -⟩ := group_place small
  have own : ∀ f : Fld, f.off = SRC.STATE i → b.get f = a.get f := fun f hf => regs.get f (beq_eq_false_iff_ne.mpr (hf ▸ source i))
  have gv : a.get (SRC.CFG_GV i) = c.get (SRC.CFG_GV i) := same _ rfl (Fld.apart_of_off_ne _ _ cfg) cfgEvtcnt
  have insrv : a.get (SRC.STATE_INSRV i) = c.get (SRC.STATE_INSRV i) := same _ rfl (by simp [Fld.apart, SRC.STATE_INSRV, SRC.STATE_CNT]) evtcnt
  have settles := evaluate_settles d
  rw [counts, pends, refreshed]
  have last : ∀ f : Fld, f.Free → d.evaluate.get f = d.get f := settles.fields
  refine ⟨counted'.1.trans (inHub.trans (shows.1.trans (evaluate_inHub d))), ?_, ?_, fun noMember waiting => ⟨?_, ?_⟩, fun isMember waiting => ?_⟩
  · rw [last (SRC.STATE_CNT i) (free_source hi 24 8 (by decide) (.inr (by decide))), others (SRC.STATE_CNT i) rfl (by simp [Fld.apart, SRC.STATE_PEND, SRC.STATE_CNT]) stat, own (SRC.STATE_CNT i) rfl]
    exact cnt.1
  · rw [last _ free_satcnt, others _ rfl (Fld.apart_of_off_ne _ _ evtcnt.symm) (by decide), regs.get _ (beq_eq_false_iff_ne.mpr group.symm)]
    exact cnt.2
  · rw [settles.srcs, shows.2]
    exact pending (gv.trans noMember) (insrv.trans waiting)
  · rw [last (SRC.STATE_PEND i) (free_source hi 0 1 (by decide) (.inl (by decide))), ← refreshed]
    refine srcRefresh_pend hi ((own _ rfl).trans (insrv.trans waiting)) ?_
    rw [own (SRC.STATE_CNT i) rfl, cnt.1]
    omega
  · rw [settles.srcs, shows.2]
    exact member (gv.trans isMember) (insrv.trans waiting)

/-- The message of a source leaves its port. -/
def Chip.bellTaken (s : Chip) (i : Nat) : Chip :=
  { s with bells := s.bells.set i 0, bellOrder := s.bellOrder.erase i, evh := { s.evh with port := (bellPort i + 1) % 8 } }

theorem deliverBell_of_turn {c : Chip} {i : Nat} (core : c.coreRuns = true) (some : c.bells.get i ≠ 0) (first : c.bellFirst i = true) (turn : c.bellTurn = Option.some (bellPort i)) :
    c.deliverBell i = (c.bellTaken i).ring i (c.bells.get i) := if_neg (by simp [core, some, first, turn])

theorem doorbell_pends :
    ∀ (s : State) (src : SourceId), s.chip.coreRuns = true → s.chip.bells.get src.val ≠ 0 → s.chip.bellFirst src.val = true → s.chip.bellTurn = some (bellPort src.val) → ∃ t, Machine.exec (.doorbell src) s = .next t ∧
    t.chip.bells.get src.val = 0 ∧ (∀ j, j ≠ src.val → t.chip.bells.get j = s.chip.bells.get j) ∧
    t.chip.get (SRC.STATE_CNT src.val) = min (s.chip.get (SRC.STATE_CNT src.val) + s.chip.bells.get src.val) 255 ∧
    t.chip.get EVH.EVTCNT_SATCNT = (if 255 < s.chip.get (SRC.STATE_CNT src.val) + s.chip.bells.get src.val then counted s.chip EVH.EVTCNT_SATCNT else s.chip.get EVH.EVTCNT_SATCNT) ∧
    (s.chip.get (SRC.CFG_GV src.val) = 0 → s.chip.get (SRC.STATE_INSRV src.val) = 0 → (t.chip.srcs.get src.val).ready = true ∧ t.chip.get (SRC.STATE_PEND src.val) = 1) ∧
    (s.chip.get (SRC.CFG_GV src.val) = 1 → s.chip.get (SRC.STATE_INSRV src.val) = 0 → (t.chip.srcs.get src.val).ready = true ∨ (t.chip.srcs.get src.val).unreleased = true) ∧
    t.chip.faultQ = s.chip.faultQ ∧ t.chip.outbox = s.chip.outbox ∧ Keeps s t (fun o => decide (0x28000 ≤ o) && decide (o < 0x2e000)) := by
  intro s src core some first turn
  obtain ⟨c, taken⟩ : ∃ c, s.chip.bellTaken src.val = c := ⟨_, rfl⟩
  have regs : c.regs = s.chip.regs := by rw [← taken]; rfl
  have kept : c.bells = s.chip.bells.set src.val 0 ∧ c.faultQ = s.chip.faultQ ∧ c.outbox = s.chip.outbox := by
    rw [← taken]
    exact ⟨rfl, rfl, rfl⟩
  obtain ⟨bells, faults, outs⟩ := kept
  obtain ⟨u, delivered⟩ : ∃ u, c.ring src.val (s.chip.bells.get src.val) = u := ⟨_, rfl⟩
  obtain ⟨inHub, count, saturated, pending, member⟩ := delivered ▸ ring_rung c src.isLt some
  rw [counted_congr regs, get_congr regs, get_congr regs] at saturated
  rw [get_congr regs] at count
  rw [get_congr regs, get_congr regs] at pending member
  refine ⟨{ s with chip := u }, exec_chip rfl ((deliverBell_of_turn core some first turn).trans (by rw [taken, delivered])), ?_, fun j other => ?_, count, saturated, pending, member,
    inHub.faults.trans faults, inHub.outs.trans outs, rfl, rfl, (inHub.regs.updFirst regs).same⟩
  · exact (congrArg (Tbl.get · src.val) (inHub.bells.trans bells)).trans (Tbl.get_set_same _ _ _)
  · exact (congrArg (Tbl.get · j) (inHub.bells.trans bells)).trans (Tbl.get_set_other _ _ _ _ other)

theorem doorbell_row : EVH.DOORBELL % 4 = 0 ∧ (regAt EVH.DOORBELL).isSome = true ∧ inMailbox EVH.DOORBELL = false ∧ inMsix EVH.DOORBELL = false ∧ plainReg EVH.DOORBELL = true ∧
    pairMask EVH.DOORBELL = 0 ∧ accMask EVH.DOORBELL (· == .rw) = 0 ∧ lockMask EVH.DOORBELL = 0 ∧ accMask EVH.DOORBELL (· == .w1c) = 0 ∧ cntClears EVH.DOORBELL = none := by decide +kernel

/-- A register with no configuration field, flag or counter takes its command alone. -/
theorem carries_of_bare {c : Chip} {o : Nat} (w : Word)
    (row : o % 4 = 0 ∧ (regAt o).isSome = true ∧ inMailbox o = false ∧ inMsix o = false ∧ plainReg o = true ∧ pairMask o = 0 ∧ accMask o (· == .rw) = 0 ∧ lockMask o = 0 ∧
      accMask o (· == .w1c) = 0 ∧ cntClears o = none) : Carries c o w := by
  obtain ⟨aligned, known, box, msix, plain, pair, rw', lock, flags, cnt⟩ := row
  exact ⟨aligned, known, box, msix, plain, by simp [rw'], by simp [lock], by simp [pair], by simp [flags], fun b fs h => by simp [cnt] at h⟩

/-- The word of a command that names a source. -/
theorem sourceWord (src : SourceId) : wordField (wordPut 0 0 11 src.val) 0 11 = src.val := (wordField_put_same _ _ _ _ (by decide)).trans (Nat.mod_eq_of_lt src.isLt)

theorem exec_softwareDoorbell (s : State) (req : Requester) (src : SourceId) (h : s.chip.reaches req EVH.DOORBELL = true) :
    Machine.exec (.softwareDoorbell req src) s = .next { s with chip := s.chip.softBell src.val } := by
  have bare : s.chip.carry EVH.DOORBELL = 0 := by
    obtain ⟨-, -, -, -, -, pair, -⟩ := doorbell_row
    rw [Chip.carry, pair]
    exact BitVec.and_zero
  have run : Machine.exec (.softwareDoorbell req src) s = .next { s with chip := s.chip.busWrite s.nvm req EVH.DOORBELL (fldSet (s.chip.carry EVH.DOORBELL) EVH.DOORBELL_SRC src.val) true } := rfl
  have bells : s.chip.regOps s.nvm req EVH.DOORBELL (wordPut 0 0 11 src.val) true = s.chip.softBell (wordField (wordPut 0 0 11 src.val) 0 11) := rfl
  have word : fldSet 0 EVH.DOORBELL_SRC src.val = wordPut 0 0 11 src.val := rfl
  rw [run, bare, word, busWrite_carries _ _ _ _ _ _ h (carries_of_bare _ doorbell_row), bells, sourceWord]

theorem softwareDoorbell_pends :
    ∀ (s : State) (req : Requester) (src : SourceId), s.chip.reaches req EVH.DOORBELL = true → 0x7c0 ≤ src.val → ∃ t, Machine.exec (.softwareDoorbell req src) s = .next t ∧
    t.chip.get (SRC.STATE_CNT src.val) = min (s.chip.get (SRC.STATE_CNT src.val) + 1) 255 ∧
    (s.chip.get (SRC.CFG_GV src.val) = 0 → s.chip.get (SRC.STATE_INSRV src.val) = 0 → (t.chip.srcs.get src.val).ready = true ∧ t.chip.get (SRC.STATE_PEND src.val) = 1) ∧
    t.chip.faultQ = s.chip.faultQ ∧ t.chip.outbox = s.chip.outbox ∧ Keeps s t (fun o => decide (0x28000 ≤ o) && decide (o < 0x2e000)) := by
  intro s req src reach soft
  obtain ⟨u, delivered⟩ : ∃ u, s.chip.ring src.val 1 = u := ⟨_, rfl⟩
  obtain ⟨inHub, count, -, pending, -⟩ := delivered ▸ ring_rung s.chip src.isLt Nat.one_ne_zero
  have bells : s.chip.softBell src.val = u := by rw [Chip.softBell, if_pos soft, delivered]
  exact ⟨{ s with chip := u }, exec_chip (exec_softwareDoorbell s req src reach) bells, count, pending, inHub.faults, inHub.outs, rfl, rfl, inHub.regs.same⟩

theorem recorded_eventQuiet (c : Chip) (flag cnt : Fld) (hf : flag.fits = true) (hc : cnt.fits = true) (ha : flag.apart cnt = true) (hb : cnt.apart flag = true) (hw : flag.width = 1) :
    Recorded c (c.eventQuiet flag cnt) flag cnt := by
  have told : c.event flag cnt 0 = (c.eventQuiet flag cnt).bell 0 := rfl
  have recorded := recorded_event c flag cnt 0 hf hc ha hb hw
  rw [told, Recorded, get_bell, get_bell] at recorded
  exact recorded

theorem Effect.eventQuiet {s t : State} {h : Chip → Chip} {fields : List Fld} {srcs : List Nat} {msgs : List FaultMsg} {outs : List Output}
    (e : Effect s t h fields srcs msgs outs) (flag cnt : Fld) : Effect s { t with chip := t.chip.eventQuiet flag cnt } h (fields ++ [flag] ++ [cnt]) srcs msgs outs :=
  (e.put flag 1).put cnt (min ((t.chip.put flag 1).get cnt + 1) (2 ^ cnt.width - 1))

theorem softwareDoorbell_refused :
    ∀ (s : State) (req : Requester) (src : SourceId), s.chip.reaches req EVH.DOORBELL = true → src.val < 0x7c0 → ∃ t, Machine.exec (.softwareDoorbell req src) s = .next t ∧
    Recorded s.chip t.chip EVH.EVT_DBREFF EVH.EVTCNT_DBREFCNT ∧ Effect s t id [EVH.EVT_DBREFF, EVH.EVTCNT_DBREFCNT] [] [] [] := by
  intro s req src reach hard
  have refused : s.chip.softBell src.val = s.chip.eventQuiet EVH.EVT_DBREFF EVH.EVTCNT_DBREFCNT := if_neg (by omega)
  exact ⟨_, exec_chip (exec_softwareDoorbell s req src reach) refused, recorded_eventQuiet _ _ _ rfl rfl rfl rfl rfl, (Effect.start s).eventQuiet _ _⟩

theorem groupTimer_of_due {c : Chip} {g : Nat} (armed : c.get (GRP.STATE_ARMED g) = 1) (due : c.groupStart.get g + orOne (c.get (GRP.CFG_TIME g)) ≤ c.now) :
    c.groupTimer g = (c.groupRelease g).evaluate := if_pos (by simp [Chip.bit, armed, due])

theorem free_group {g : Nat} (hg : g < 64) (lo width : Nat) (fits : lo + width ≤ 32) : Fld.Free ⟨GRP.STATE g, lo, width⟩ := by
  obtain ⟨-, source, -, -, proc, stat, wake⟩ := group_place hg
  exact free_of_reg lo width fits (fun i _ => (source i).symm) proc stat wake

theorem groupTimerExpire_releases :
    ∀ (s : State) (g : Fin 64), s.chip.coreRuns = true → s.chip.get (GRP.STATE_ARMED g.val) = 1 →
    s.chip.groupStart.get g.val + orOne (s.chip.get (GRP.CFG_TIME g.val)) ≤ s.chip.now → ∃ t, Machine.exec (.groupTimerExpire g) s = .next t ∧
    t.chip.get (GRP.STATE_ACC g.val) = 0 ∧ t.chip.get (GRP.STATE_ARMED g.val) = 0 ∧
    (∀ src : SourceId, src.val ∈ s.chip.unreleasedOf g.val → (t.chip.srcs.get src.val).unreleased = false ∧
      (s.chip.get (SRC.STATE_INSRV src.val) = 0 → (t.chip.srcs.get src.val).ready = true) ∧ (s.chip.get (SRC.STATE_INSRV src.val) = 1 → (t.chip.srcs.get src.val).released = true)) ∧
    t.chip.faultQ = s.chip.faultQ ∧ t.chip.outbox = s.chip.outbox ∧ Keeps s t (fun o => decide (0x28000 ≤ o) && decide (o < 0x2e000)) := by
  intro s g core armed due
  obtain ⟨u, released⟩ : ∃ u, s.chip.groupRelease g.val = u := ⟨_, rfl⟩
  obtain ⟨inHub, -, acc, armed', each⟩ := released ▸ groupRelease_spec s.chip g.isLt
  have settles := evaluate_settles u
  have whole := inHub.trans (evaluate_inHub u)
  refine ⟨{ s with chip := u.evaluate }, exec_chip rfl ((if_pos core).trans ((groupTimer_of_due armed due).trans (by rw [released]))), ?_, ?_, fun src mem => ?_, whole.faults, whole.outs, rfl, rfl, whole.regs.same⟩
  · exact (settles.fields _ (free_group g.isLt 24 8 (by decide))).trans acc
  · exact (settles.fields _ (free_group g.isLt 0 1 (by decide))).trans armed'
  · obtain ⟨unreleased, ready, released⟩ := (each src.val).resolve_right fun h => h.1 mem
    rw [← settles.srcs] at unreleased ready released
    exact ⟨unreleased, ready, released⟩

/-! Sources and processors are configured (R395, R402). -/

theorem findBlock_skip {o : Nat} {b : BlockRow} (bs : List BlockRow) (h : ¬ (b.base ≤ o ∧ o < b.base + b.count * b.stride)) : findBlock o (b :: bs) = findBlock o bs := by
  rw [findBlock, if_neg h]

theorem findBlock_hit {o k : Nat} {b : BlockRow} {r : RegRow} (bs : List BlockRow) (h : b.base ≤ o ∧ o < b.base + b.count * b.stride) (rel : (o - b.base) % b.stride = k)
    (row : findReg k b.regs = some r) : findBlock o (b :: bs) = some (b.dom, r) := by
  rw [findBlock, if_pos h, rel, row]

/-- Every source has the row of CFG (R504). -/
theorem regAt_srcCfg {i : Nat} (hi : i < 2048) : regAt (SRC.CFG i) = regAt (SRC.CFG 0) := by
  obtain ⟨r, row⟩ := Option.isSome_iff_exists.mp (by decide : (findReg 0 regsOfSRC).isSome = true)
  have place : ∀ j, j < 2048 → regAt (SRC.CFG j) = some (.core, r) := fun j hj => by
    have off : SRC.CFG j = 0x2a000 + 8 * j := rfl
    have win : dieWindow = 0x100000 := rfl
    have rel : (0x2a000 + 8 * j - 0x2a000) % 8 = 0 := by omega
    rw [regAt, off, win, if_pos (by omega), if_neg (by omega), hubBlocks1]
    iterate 11 rw [findBlock_skip _ (by dsimp only; omega)]
    exact findBlock_hit _ ⟨by dsimp only; omega, by dsimp only; omega⟩ rel row
  rw [place i hi, place 0 (by decide)]

theorem accMask_congr {o p : Nat} (h : regAt o = regAt p) (q : Acc → Bool) : accMask o q = accMask p q := by rw [accMask, accMask, h]

theorem srcCfg_row (i : SourceId) : (regAt (SRC.CFG i.val)).isSome = true ∧ accMask (SRC.CFG i.val) (· == .rw) = 0xfffe000f ∧ pairMask (SRC.CFG i.val) = 0xfffe000f ∧
    lockMask (SRC.CFG i.val) = 0 ∧ accMask (SRC.CFG i.val) (· == .w1c) = 0 := by
  have row := regAt_srcCfg i.isLt
  rw [pairMask, lockMask, accMask_congr row, accMask_congr row, accMask_congr row, accMask_congr row, row]
  decide +kernel

/-- CFG of a source names no counter. -/
theorem cntClears_srcCfg {i : Nat} (hi : i < 2048) : cntClears (SRC.CFG i) = none := by
  have off : SRC.CFG i = 0x2a000 + 8 * i := rfl
  have win : dieWindow = 0x100000 := rfl
  rw [cntClears, off, win, if_neg (by omega), cntHub]
  repeat rw [if_neg (by simp only [Bool.and_eq_true, decide_eq_true_eq, inPP, ACC.ACCCNT, TIME.TBSTAT, HSW.EVT, BUD.EVT, FLT.EVT, THM.EVT, EVH.EVT, HIF.EVT, PMB.EVT, FW.EVT, SEC.EVT, TILE.EVT, NVM.EVT]; omega)]

theorem srcCfg_place (i : SourceId) : SRC.CFG i.val % 4 = 0 ∧ inMailbox (SRC.CFG i.val) = false ∧ inMsix (SRC.CFG i.val) = false ∧ 0x25000 ≤ SRC.CFG i.val ∧ inPP (SRC.CFG i.val) = false ∧
    SRC.CFG i.val ∉ commandRegs ∧ ¬ dieWindow ≤ SRC.CFG i.val := by
  have off : SRC.CFG i.val = 0x2a000 + 8 * i.val := rfl
  have win : dieWindow = 0x100000 := rfl
  simp only [off, win, inMailbox, inMsix, inPP, commandRegs, List.mem_cons, List.not_mem_nil, or_false, not_or, Bool.or_eq_false_iff, Bool.and_eq_false_iff, decide_eq_false_iff_not, PWR.DOMCTL,
    SEQ.FFCTL, FLT.GUARD, FLT.ACK, FLT.INJ, FLT.SWRAISE, FLT.CSREQ, EVH.DOORBELL, HIF.KICK, FW.CTRL, FW.MBTAKE, FW.MBDONE, TILE.STGCTL, TILE.CMTCTL]
  omega

theorem regPut_srcCfg (c : Chip) (i : SourceId) (w : Word) : c.regPut (SRC.CFG i.val) w = c.srcCfgWrite i.val w := by
  have off : SRC.CFG i.val = 0x2a000 + 8 * i.val := rfl
  have win : dieWindow = 0x100000 := rfl
  have source : (0x2a000 + 8 * i.val - 0x2a000) / 8 = i.val := by omega
  simp only [Chip.regPut, off, win, source, Bool.and_eq_true, decide_eq_true_eq]
  rw [if_neg (by omega), if_pos (by omega)]

/-- A register of the hub whose fields a write takes whole, by an operation of its own. -/
theorem fieldWrite_own {c : Chip} {o : Nat} {m : Word} (w : Word) (some : m ≠ 0) (rw' : accMask o (· == .rw) = m) (pair : pairMask o = m) (lock : lockMask o = 0)
    (flags : accMask o (· == .w1c) = 0) : c.fieldWrite o w = c.regPut o (c.reg o &&& ~~~m ||| w &&& m) := by
  have mask : c.writeMask o = m := by rw [Chip.writeMask, rw', pair, ite_self]
  have locked : (c.reg o ^^^ w) &&& lockMask o = 0 := by rw [lock]; exact BitVec.and_zero
  have cleared : accMask o (· == .w1c) &&& w = 0 := by rw [flags]; exact BitVec.zero_and
  simp only [Chip.fieldWrite, locked, cleared, mask, bne_self_eq_false, Bool.and_false, Bool.false_eq_true, if_false, if_true]
  rw [if_neg some]

theorem busWrite_srcCfg (c : Chip) (m : List Host.Cell) (req : Requester) (i : SourceId) (w : Word) (b : Bool) (reach : c.reaches req (SRC.CFG i.val) = true) :
    c.busWrite m req (SRC.CFG i.val) w b = c.srcCfgWrite i.val (c.reg (SRC.CFG i.val) &&& ~~~0xfffe000f ||| w &&& 0xfffe000f) := by
  obtain ⟨known, rw', pair, lock, flags⟩ := srcCfg_row i
  obtain ⟨aligned, box, msix, high, other, command, low⟩ := srcCfg_place i
  rw [busWrite_reaches c m req _ w b reach aligned box msix known, Chip.regWrite, fieldWrite_own w (by decide) rw' pair lock flags, regPut_srcCfg, Chip.cntClear, cntClears_srcCfg i.isLt]
  dsimp only
  rw [Chip.regOps, if_neg low, if_neg (by rw [Bool.and_eq_true, decide_eq_true_eq, decide_eq_true_eq]; omega), hubOps_none _ _ _ _ _ high other command]

theorem masked_taken (v w m : Word) : (v &&& ~~~m ||| w &&& m) &&& m = w &&& m := by
  apply BitVec.eq_of_getLsbD_eq
  intro i hi
  rw [BitVec.getLsbD_and, getLsbD_taken v w m hi, BitVec.getLsbD_and]
  cases m.getLsbD i <;> simp

/-- A source with its new CFG, before its group lets it go. -/
def Chip.srcTakes (s : Chip) (i : Nat) (w : Word) : Chip := s.setReg (SRC.CFG i) (w &&& ~~~0x1fff0#32)

/-- A source whose doorbells its old group held is let go when it leaves the group. -/
def Chip.srcLeaves (t : Chip) (i : Nat) (member : Bool) (group : Nat) : Chip :=
  if (member && (!t.bit (SRC.CFG_GV i) || t.get (SRC.CFG_GRP i) != group)) && (t.srcs.get i).unreleased then t.srcRelease i else t

theorem srcCfgWrite_eq (c : Chip) (i : Nat) (w : Word) : c.srcCfgWrite i w = ((c.srcTakes i w).srcLeaves i (c.bit (SRC.CFG_GV i)) (c.get (SRC.CFG_GRP i))).evaluate := rfl

theorem srcLeaves_notes (c : Chip) (i : Nat) (member : Bool) (group : Nat) : c.Notes (c.srcLeaves i member group) := by
  unfold Chip.srcLeaves
  split
  · exact srcRelease_notes c i
  · exact .refl c

theorem srcLeaves_unreleased {c : Chip} {i : Nat} (group : Nat) (leaves : c.get (SRC.CFG_GV i) = 0) : ((c.srcLeaves i true group).srcs.get i).unreleased = false := by
  have moved : (true && (!c.bit (SRC.CFG_GV i) || c.get (SRC.CFG_GRP i) != group)) = true := by
    rw [Chip.bit, leaves]
    rfl
  rw [Chip.srcLeaves, moved, Bool.true_and]
  split
  · exact (srcRelease_done c i).unreleased
  · next none => exact Bool.eq_false_iff.mpr none

theorem sourceCfgWrite_takes :
    ∀ (s : State) (req : Requester) (src : SourceId) (value : Word), s.chip.reaches req (SRC.CFG src.val) = true → ∃ t, Machine.exec (.sourceCfgWrite req src value) s = .next t ∧
    t.chip.reg (SRC.CFG src.val) = value &&& ~~~0x0001fff0#32 ∧
    (s.chip.get (SRC.CFG_GV src.val) = 1 → value.getLsbD 23 = false → (t.chip.srcs.get src.val).unreleased = false) ∧
    t.chip.faultQ = s.chip.faultQ ∧ t.chip.outbox = s.chip.outbox ∧ Keeps s t (fun o => decide (0x28000 ≤ o) && decide (o < 0x2e000)) := by
  intro s req src value reach
  have small : src.val < 2048 := src.isLt
  obtain ⟨c, takes⟩ : ∃ c, s.chip.srcTakes src.val (s.chip.reg (SRC.CFG src.val) &&& ~~~0xfffe000f ||| value &&& 0xfffe000f) = c := ⟨_, rfl⟩
  obtain ⟨u, leaves⟩ : ∃ u, c.srcLeaves src.val (s.chip.bit (SRC.CFG_GV src.val)) (s.chip.get (SRC.CFG_GRP src.val)) = u := ⟨_, rfl⟩
  have word : c.reg (SRC.CFG src.val) = value &&& ~~~0x0001fff0#32 := by
    have complement : ~~~0x1fff0#32 = 0xfffe000f := by decide
    rw [← takes, Chip.srcTakes, reg_setReg_same, complement, masked_taken]
  have inHub : s.chip.InHub c := takes ▸ (Chip.InHub.refl s.chip).setReg (SRC.CFG src.val) _ (span_of_le_lt (by simp only [SRC.CFG]; omega))
  have notes : c.Notes u := leaves ▸ srcLeaves_notes c _ _ _
  have settles := evaluate_settles u
  have whole := (inHub.trans notes.inHub).trans (evaluate_inHub u)
  have free : Fld.Free ⟨SRC.CFG src.val, 0, 32⟩ := by
    refine free_of_reg 0 32 (by decide) (fun i hi => ?_) (fun k hk => ?_) ?_ ?_ <;>
    · simp only [SRC.CFG, SRC.STATE, PP.STAT, PP.CTRL, PP.WIN, EVH.STAT, EVH.WAKEST]
      omega
  have run : s.chip.busWrite s.nvm req (SRC.CFG src.val) value true = u.evaluate := by rw [busWrite_srcCfg _ _ _ _ _ _ reach, srcCfgWrite_eq, takes, leaves]
  refine ⟨{ s with chip := u.evaluate }, exec_chip rfl run, ?_, fun member off => ?_, whole.faults, whole.outs, rfl, rfl, whole.regs.same⟩
  · refine (settles.word free).trans (Eq.trans ?_ word)
    exact congrArg (Tbl.get · (SRC.CFG src.val)) notes.regs
  · have gone : c.get (SRC.CFG_GV src.val) = 0 := by
      refine (congrArg (wordField · 23 1) word).trans (Nat.eq_of_testBit_eq fun i => ?_)
      rw [wordField_testBit, Nat.zero_testBit, Bool.and_eq_false_iff]
      by_cases here : i = 0
      · rw [here, Nat.zero_add, BitVec.getLsbD_and, off, Bool.false_and]
        exact .inr rfl
      · exact .inl (decide_eq_false (by omega))
    have was : s.chip.bit (SRC.CFG_GV src.val) = true := by rw [Chip.bit, member]; rfl
    refine (congrArg (fun x : Tbl SrcHw _ => (x.get src.val).unreleased) settles.srcs).trans ?_
    rw [← leaves, was]
    exact srcLeaves_unreleased _ gone

theorem ppCtrl_row : ∀ k : Fin 4, PP.CTRL k.val % 4 = 0 ∧ (regAt (PP.CTRL k.val)).isSome = true ∧ inMailbox (PP.CTRL k.val) = false ∧ inMsix (PP.CTRL k.val) = false ∧
    accMask (PP.CTRL k.val) (· == .rw) = 0xff ∧ pairMask (PP.CTRL k.val) = 0xff ∧ lockMask (PP.CTRL k.val) = 0 ∧ accMask (PP.CTRL k.val) (· == .w1c) = 0 ∧ cntClears (PP.CTRL k.val) = none := by
  decide +kernel

theorem regPut_ppCtrl (c : Chip) (k : ProcId) (w : Word) : c.regPut (PP.CTRL k.val) w = c.ppCtrlWrite k.val w := by
  have off : PP.CTRL k.val = 0x28100 + 0x80 * k.val := rfl
  have win : dieWindow = 0x100000 := rfl
  have proc : (0x28100 + 0x80 * k.val - 0x28100) / 0x80 = k.val := by omega
  simp only [Chip.regPut, off, win, proc, Bool.and_eq_true, decide_eq_true_eq]
  rw [if_neg (by omega), if_neg (by omega), if_pos (by omega)]

/-- CTRL of a processor has no command. -/
theorem regOps_ppCtrl (c : Chip) (m : List Host.Cell) (req : Requester) (k : ProcId) (w : Word) (b : Bool) : c.regOps m req (PP.CTRL k.val) w b = c :=
  match k with
  | 0 => rfl
  | 1 => rfl
  | 2 => rfl
  | 3 => rfl

theorem busWrite_ppCtrl (c : Chip) (m : List Host.Cell) (req : Requester) (k : ProcId) (w : Word) (b : Bool) (reach : c.reaches req (PP.CTRL k.val) = true) :
    c.busWrite m req (PP.CTRL k.val) w b = c.ppCtrlWrite k.val (c.reg (PP.CTRL k.val) &&& ~~~0xff ||| w &&& 0xff) := by
  obtain ⟨aligned, known, box, msix, rw', pair, lock, flags, cnt⟩ := ppCtrl_row k
  rw [busWrite_reaches c m req _ w b reach aligned box msix known, Chip.regWrite, fieldWrite_own w (by decide) rw' pair lock flags, regPut_ppCtrl, Chip.cntClear, cnt]
  exact regOps_ppCtrl _ _ _ _ _ _

/-- A processor with its new CTRL, before the evaluation. -/
def Chip.procTakes (s : Chip) (k : Nat) (w : Word) : Chip := (if w.getLsbD 0 then s.wakeLine k false else s).setReg (PP.CTRL k) (w &&& 0xff#32)

theorem ppCtrlWrite_eq (c : Chip) (k : Nat) (w : Word) : c.ppCtrlWrite k w = (c.procTakes k w).awakeRefresh.evaluate := rfl

theorem procTakes_spec (c : Chip) {k : Nat} (hk : k < 4) (w : Word) : c.InHub (c.procTakes k w) ∧ (c.procTakes k w).srcs = c.srcs ∧ (c.procTakes k w).reg (PP.CTRL k) = w &&& 0xff#32 := by
  have place : hubRegs (PP.CTRL k) = true := span_of_le_lt (by simp only [PP.CTRL]; omega)
  unfold Chip.procTakes
  have woken : c.InHub (c.wakeLine k false) := (Chip.InHub.refl c).upd rfl rfl rfl rfl
  refine ⟨(woken.either (.refl c)).setReg _ _ place, ?_, reg_setReg_same _ _ _⟩
  split <;> rfl

theorem processorCtrlWrite_takes :
    ∀ (s : State) (req : Requester) (k : ProcId) (value : Word), s.chip.reaches req (PP.CTRL k.val) = true → ∃ t, Machine.exec (.processorCtrlWrite req k value) s = .next t ∧
    t.chip.get (PP.CTRL_PMR k.val) = wordField value 1 7 ∧ (value.getLsbD 0 = false → t.chip.get (PP.CTRL_PARK k.val) = 0) ∧
    (value.getLsbD 0 = true → (∀ src : SourceId, (s.chip.srcs.get src.val).ready = false) → t.chip.get (PP.CTRL_PARK k.val) = 1) ∧
    t.chip.faultQ = s.chip.faultQ ∧ t.chip.outbox = s.chip.outbox ∧ Keeps s t (fun o => decide (0x28000 ≤ o) && decide (o < 0x2e000)) := by
  intro s req k value reach
  obtain ⟨c, takes⟩ : ∃ c, s.chip.procTakes k.val (s.chip.reg (PP.CTRL k.val) &&& ~~~0xff ||| value &&& 0xff) = c := ⟨_, rfl⟩
  obtain ⟨inHub, srcs, word⟩ := takes ▸ procTakes_spec s.chip k.isLt (s.chip.reg (PP.CTRL k.val) &&& ~~~0xff ||| value &&& 0xff)
  rw [show (0xff#32 : Word) = 0xff from rfl, masked_taken] at word
  have settles := (awakeRefresh_settles c).trans (evaluate_settles c.awakeRefresh)
  have whole := (inHub.trans (awakeRefresh_inHub c)).trans (evaluate_inHub _)
  have shows := (awakeRefresh_shown c).1
  have run : s.chip.busWrite s.nvm req (PP.CTRL k.val) value true = c.awakeRefresh.evaluate := by rw [busWrite_ppCtrl _ _ _ _ _ _ reach, ppCtrlWrite_eq, takes]
  have park : c.get (PP.CTRL_PARK k.val) = (value.getLsbD 0).toNat := by
    refine (congrArg (wordField · 0 1) word).trans (Nat.eq_of_testBit_eq fun i => ?_)
    rw [wordField_testBit, Nat.testBit_bool_toNat]
    by_cases here : i = 0
    · rw [here, Nat.zero_add, BitVec.getLsbD_and]
      simp
    · simp [here]
  refine ⟨{ s with chip := c.awakeRefresh.evaluate }, exec_chip rfl run, ?_, fun unparked => ?_, fun parked idle => ?_, whole.faults, whole.outs, rfl, rfl, whole.regs.same⟩
  · refine (settles.fields _ (free_pmr k.isLt)).trans ((congrArg (wordField · 1 7) word).trans (Nat.eq_of_testBit_eq fun i => ?_))
    rw [wordField_testBit, wordField_testBit, BitVec.getLsbD_and]
    by_cases inside : i < 7
    · have mask : (0xff : Word).getLsbD (i + 1) = true := (by decide : ∀ j < 7, (0xff : Word).getLsbD (j + 1) = true) i inside
      rw [mask, Bool.and_true]
    · rw [decide_eq_false inside, Bool.false_and, Bool.false_and]
  · refine evaluate_unparked _ k.val k.isLt (shows.unparked k.val k.isLt ?_)
    rw [park, unparked]
    rfl
  · have still : c.awakeRefresh.Idle := fun i hi => by
      rw [(awakeRefresh_settles c).srcs, srcs]
      exact idle ⟨i, hi⟩
    refine (congrArg (wordField · 0 1) ((evaluate_of_idle still k.isLt).trans (shows.ctrl k.val k.isLt))).trans (Eq.trans park ?_)
    rw [parked]
    rfl

/-! Claims (R400, R405). -/

theorem claim_row : ∀ k : Fin 4, PP.CLAIM k.val % 4 = 0 ∧ (regAt (PP.CLAIM k.val)).isNone = false ∧ inMailbox (PP.CLAIM k.val) = false ∧
    (inPP (PP.CLAIM k.val) && PP.CLAIM k.val = PP.CLAIM ((PP.CLAIM k.val - 0x28100) / 0x80)) = true ∧ (PP.CLAIM k.val - 0x28100) / 0x80 = k.val := by decide +kernel

/-- A read of CLAIM that reaches its register. -/
theorem exec_claim (s : State) (req : Requester) (k : ProcId) (up : s.chip.reqUp req = true) (on : s.chip.offAt (PP.CLAIM k.val) = false) {u : Chip} {w : Word}
    (claim : s.chip.claim k.val = (w, u)) : Machine.exec (.claim req k) s = .next { s with chip := u.out (.data req (PP.CLAIM k.val) w true) } := by
  obtain ⟨aligned, known, box, here, proc⟩ := claim_row k
  have read : s.chip.busRead s.nvm req (PP.CLAIM k.val) = (w, u) := by
    rw [Chip.busRead, if_neg (by simp [up]), if_neg (by simp [aligned]), if_neg (by simp [box]), if_neg (by simp [known]), if_neg (by simp [on]), Chip.regRead, if_pos here, proc, claim]
  have answer : s.chip.busAnswer s.nvm req (PP.CLAIM k.val) = u.out (.data req (PP.CLAIM k.val) w true) := by rw [Chip.busAnswer, read, if_pos up]
  exact exec_chip rfl answer

theorem claim_empty :
    ∀ (s : State) (req : Requester) (k : ProcId), s.chip.reqUp req = true → s.chip.offAt (PP.CLAIM k.val) = false → s.chip.polAsleep = false →
    s.chip.evh.winners.getD k.val none = none → ∃ t, Machine.exec (.claim req k) s = .next t ∧
    Recorded s.chip t.chip (PP.EVT_EMPF k.val) (PP.EVTCNT_EMPCNT k.val) ∧ Effect s t id [PP.EVT_EMPF k.val, PP.EVTCNT_EMPCNT k.val] [] [] [.data req (PP.CLAIM k.val) 0 true] := by
  intro s req k up on awake nobody
  have claim : s.chip.claim k.val = (0, s.chip.eventQuiet (PP.EVT_EMPF k.val) (PP.EVTCNT_EMPCNT k.val)) := by rw [Chip.claim, if_neg (by simp [awake]), nobody]
  have differ : PP.EVT k.val ≠ PP.EVTCNT k.val := by simp [PP.EVT, PP.EVTCNT]
  obtain ⟨flag, count⟩ := recorded_eventQuiet s.chip (PP.EVT_EMPF k.val) (PP.EVTCNT_EMPCNT k.val) rfl rfl (Fld.apart_of_off_ne _ _ differ) (Fld.apart_of_off_ne _ _ differ.symm) rfl
  exact ⟨_, exec_claim s req k up on claim, ⟨(get_out _ _ _).trans flag, (get_out _ _ _).trans count⟩, ((Effect.start s).eventQuiet (PP.EVT_EMPF k.val) (PP.EVTCNT_EMPCNT k.val)).out _⟩

/-- The winner of processor k is taken from it. -/
def Chip.winTaken (s : Chip) (k i : Nat) : Chip :=
  let t := s.winClear k
  let t := if s.evh.ties.getD k false then t.put EVH.STAT_RRPTR ((k + 1) % 4) else t
  { t with srcs := t.srcs.upd i (fun h => { h with ready := false, released := false, unreleased := false }), evh := { t.evh with winners := t.evh.winners.set k none } }

/-- Source i is in service at processor k. -/
def Chip.beginsService (s : Chip) (k i : Nat) : Chip := ((s.put (SRC.STATE_CNT i) 0).put (SRC.STATE_INSRV i) 1).put (SRC.STATE_PP i) k

/-- Source i is pushed at place d of processor k's stack. -/
def Chip.pushed (s : Chip) (k d i cls pri : Nat) : Chip := (((s.put (PP.STK_VALID k d) 1).put (PP.STK_CLS k d) cls).put (PP.STK_PRI k d) pri).put (PP.STK_SRC k d) i

/-- Processor k runs at a depth, a priority and a class. -/
def Chip.runsAt (s : Chip) (k depth pri cls : Nat) : Chip := ((s.put (PP.STAT_DEPTH k) depth).put (PP.STAT_RUNPRI k) pri).put (PP.STAT_FASTBK k) cls

theorem claim_winner {c : Chip} {k i : Nat} (awake : c.polAsleep = false) (winner : c.evh.winners.getD k none = some i) :
    c.claim k = (c.reg (PP.WIN k),
      ((((((c.winTaken k i).beginsService k i).pushed k (c.get (PP.STAT_DEPTH k)) i (c.get (PP.WIN_CLS k)) (c.get (PP.WIN_PRI k))).runsAt k (c.get (PP.STAT_DEPTH k) + 1) (c.get (PP.WIN_PRI k))
        (c.get (PP.WIN_CLS k))).incWrap (PP.ACKCNT_COUNT k)).srcRefresh i).evaluate) := by
  rw [Chip.claim, if_neg (by simp [awake]), winner]
  rfl

theorem winTaken_spec (c : Chip) {k : Nat} (hk : k < 4) (i : Nat) : c.InHub (c.winTaken k i) ∧ ∀ f : Fld, f.Free → f.off ≠ EVH.STAT → (c.winTaken k i).get f = c.get f := by
  obtain ⟨u, cleared⟩ : ∃ u, c.winClear k = u := ⟨_, rfl⟩
  have routes : c.Routes u := cleared ▸ winClear_routes c k hk
  have settles : c.Settles u := cleared ▸ winClear_settles c k hk
  have inHub : c.InHub u := ⟨routes.regs, settles.bells, routes.faults, routes.outs⟩
  obtain ⟨v, turned⟩ : ∃ v, (if c.evh.ties.getD k false then u.put EVH.STAT_RRPTR ((k + 1) % 4) else u) = v := ⟨_, rfl⟩
  have inHub' : c.InHub v := turned ▸ (inHub.put EVH.STAT_RRPTR _ rfl).either inHub
  have regs : u.OnlyIn (· == EVH.STAT) v := turned ▸ ((Chip.OnlyIn.refl (· == EVH.STAT) u).put EVH.STAT_RRPTR _ rfl).either (.refl _ u)
  have taken : (c.winTaken k i).regs = v.regs ∧ (c.winTaken k i).bells = v.bells ∧ (c.winTaken k i).faultQ = v.faultQ ∧ (c.winTaken k i).outbox = v.outbox := by
    rw [← turned, ← cleared]
    exact ⟨rfl, rfl, rfl, rfl⟩
  obtain ⟨kr, kb, kf, ko⟩ := taken
  refine ⟨inHub'.upd kr kb kf ko, fun f free other => ?_⟩
  rw [get_congr kr, regs.get f (beq_eq_false_iff_ne.mpr other), settles.fields f free]

theorem beginsService_spec (c : Chip) (k : Nat) {i : Nat} (hi : i < 2048) : c.InHub (c.beginsService k i) ∧ c.OnlyIn (· == SRC.STATE i) (c.beginsService k i) ∧ (c.beginsService k i).get (SRC.STATE_CNT i) = 0 ∧
    (c.beginsService k i).get (SRC.STATE_INSRV i) = 1 := by
  have place := (source_place hi).1
  refine ⟨(((Chip.InHub.refl c).put _ _ place).put _ _ place).put _ _ place,
    (((Chip.OnlyIn.refl (· == SRC.STATE i) c).put (SRC.STATE_CNT i) 0 (beq_self_eq_true _)).put (SRC.STATE_INSRV i) 1 (beq_self_eq_true _)).put (SRC.STATE_PP i) k (beq_self_eq_true _), ?_, ?_⟩
  · exact (get_put_apart _ _ _ _ rfl (by simp [Fld.apart, SRC.STATE_CNT, SRC.STATE_PP])).trans <|
      (get_put_apart _ _ _ _ rfl (by simp [Fld.apart, SRC.STATE_CNT, SRC.STATE_INSRV])).trans (get_put_same _ _ _ rfl)
  · exact (get_put_apart _ _ _ _ rfl (by simp [Fld.apart, SRC.STATE_INSRV, SRC.STATE_PP])).trans (get_put_same _ _ _ rfl)

/-- A place of the stack lies in the hub, apart from the registers of the processors and the sources. -/
theorem stack_place {k d : Nat} (hk : k < 4) (hd : d < 16) : hubRegs (PP.STK k d) = true ∧ (∀ i, i < 2048 → PP.STK k d ≠ SRC.STATE i) ∧
    (∀ j, j < 4 → PP.STK k d ≠ PP.STAT j ∧ PP.STK k d ≠ PP.CTRL j ∧ PP.STK k d ≠ PP.WIN j) ∧ PP.STK k d ≠ EVH.STAT ∧ PP.STK k d ≠ EVH.WAKEST ∧ PP.STK k d ≠ PP.ACKCNT k := by
  simp only [PP.STK, SRC.STATE, PP.STAT, PP.CTRL, PP.WIN, EVH.STAT, EVH.WAKEST, PP.ACKCNT]
  exact ⟨span_of_le_lt (by omega), fun i _ => by omega, fun j _ => by omega, by omega, by omega, by omega⟩

theorem free_stack {k d : Nat} (hk : k < 4) (hd : d < 16) (lo width : Nat) (fits : lo + width ≤ 32) : Fld.Free ⟨PP.STK k d, lo, width⟩ := by
  obtain ⟨-, source, proc, stat, wake, -⟩ := stack_place hk hd
  exact free_of_reg lo width fits source proc stat wake

theorem pushed_spec (c : Chip) {k d i : Nat} (hk : k < 4) (hd : d < 16) (hi : i < 2048) (cls pri : Nat) : c.InHub (c.pushed k d i cls pri) ∧
    c.OnlyIn (· == PP.STK k d) (c.pushed k d i cls pri) ∧ (c.pushed k d i cls pri).get (PP.STK_VALID k d) = 1 ∧ (c.pushed k d i cls pri).get (PP.STK_SRC k d) = i := by
  have place := (stack_place hk hd).1
  refine ⟨((((Chip.InHub.refl c).put _ _ place).put _ _ place).put _ _ place).put _ _ place,
    ((((Chip.OnlyIn.refl (· == PP.STK k d) c).put (PP.STK_VALID k d) 1 (beq_self_eq_true _)).put (PP.STK_CLS k d) cls (beq_self_eq_true _)).put (PP.STK_PRI k d) pri (beq_self_eq_true _)).put
      (PP.STK_SRC k d) i (beq_self_eq_true _), ?_, ?_⟩
  · exact (get_put_apart _ _ _ _ rfl (by simp [Fld.apart, PP.STK_VALID, PP.STK_SRC])).trans <| (get_put_apart _ _ _ _ rfl (by simp [Fld.apart, PP.STK_VALID, PP.STK_PRI])).trans <|
      (get_put_apart _ _ _ _ rfl (by simp [Fld.apart, PP.STK_VALID, PP.STK_CLS])).trans (get_put_same _ _ _ rfl)
  · exact (get_put_same _ _ _ rfl).trans (Nat.mod_eq_of_lt hi)

theorem stat_place {k : Nat} (hk : k < 4) : hubRegs (PP.STAT k) = true ∧ (∀ i, PP.STAT k ≠ SRC.STATE i) ∧ PP.STAT k ≠ EVH.STAT ∧ PP.STAT k ≠ PP.ACKCNT k := by
  simp only [PP.STAT, SRC.STATE, EVH.STAT, PP.ACKCNT]
  exact ⟨span_of_le_lt (by omega), fun i => by omega, by omega, by omega⟩

theorem runsAt_spec (c : Chip) {k : Nat} (hk : k < 4) {depth pri cls : Nat} (hdepth : depth < 32) (hpri : pri < 128) (hcls : cls < 2) : c.InHub (c.runsAt k depth pri cls) ∧
    c.OnlyIn (· == PP.STAT k) (c.runsAt k depth pri cls) ∧ (c.runsAt k depth pri cls).get (PP.STAT_DEPTH k) = depth ∧ (c.runsAt k depth pri cls).get (PP.STAT_RUNPRI k) = pri ∧
    (c.runsAt k depth pri cls).get (PP.STAT_FASTBK k) = cls := by
  have place := (stat_place hk).1
  refine ⟨(((Chip.InHub.refl c).put _ _ place).put _ _ place).put _ _ place,
    (((Chip.OnlyIn.refl (· == PP.STAT k) c).put (PP.STAT_DEPTH k) depth (beq_self_eq_true _)).put (PP.STAT_RUNPRI k) pri (beq_self_eq_true _)).put (PP.STAT_FASTBK k) cls (beq_self_eq_true _),
    ?_, ?_, ?_⟩
  · exact (get_put_apart _ _ _ _ rfl (by simp [Fld.apart, PP.STAT_DEPTH, PP.STAT_FASTBK])).trans <|
      (get_put_apart _ _ _ _ rfl (by simp [Fld.apart, PP.STAT_DEPTH, PP.STAT_RUNPRI])).trans ((get_put_same _ _ _ rfl).trans (Nat.mod_eq_of_lt hdepth))
  · exact (get_put_apart _ _ _ _ rfl (by simp [Fld.apart, PP.STAT_RUNPRI, PP.STAT_FASTBK])).trans ((get_put_same _ _ _ rfl).trans (Nat.mod_eq_of_lt hpri))
  · exact (get_put_same _ _ _ rfl).trans (Nat.mod_eq_of_lt hcls)

theorem ackcnt_place {k : Nat} (hk : k < 4) : hubRegs (PP.ACKCNT k) = true ∧ (∀ i, i < 2048 → PP.ACKCNT k ≠ SRC.STATE i) ∧
    (∀ j, j < 4 → PP.ACKCNT k ≠ PP.STAT j ∧ PP.ACKCNT k ≠ PP.CTRL j ∧ PP.ACKCNT k ≠ PP.WIN j) ∧ PP.ACKCNT k ≠ EVH.STAT ∧ PP.ACKCNT k ≠ EVH.WAKEST := by
  simp only [PP.ACKCNT, SRC.STATE, PP.STAT, PP.CTRL, PP.WIN, EVH.STAT, EVH.WAKEST]
  exact ⟨span_of_le_lt (by omega), fun i _ => by omega, fun j _ => by omega, by omega, by omega⟩

theorem free_ackcnt {k : Nat} (hk : k < 4) : Fld.Free (PP.ACKCNT_COUNT k) := by
  obtain ⟨-, source, proc, stat, wake⟩ := ackcnt_place hk
  exact free_of_reg 0 32 (by decide) source proc stat wake

theorem claim_serves :
    ∀ (s : State) (req : Requester) (k : ProcId) (i : SourceId), s.chip.reqUp req = true → s.chip.offAt (PP.CLAIM k.val) = false → s.chip.polAsleep = false →
    s.chip.evh.winners.getD k.val none = some i.val → s.chip.get (PP.STAT_DEPTH k.val) < 16 → ∃ t, Machine.exec (.claim req k) s = .next t ∧
    t.chip.outbox = s.chip.outbox ++ [.data req (PP.CLAIM k.val) (s.chip.reg (PP.WIN k.val)) true] ∧
    t.chip.get (SRC.STATE_CNT i.val) = 0 ∧ t.chip.get (SRC.STATE_INSRV i.val) = 1 ∧ t.chip.get (PP.STAT_DEPTH k.val) = s.chip.get (PP.STAT_DEPTH k.val) + 1 ∧
    t.chip.get (PP.STK_SRC k.val (s.chip.get (PP.STAT_DEPTH k.val))) = i.val ∧ t.chip.get (PP.STK_VALID k.val (s.chip.get (PP.STAT_DEPTH k.val))) = 1 ∧
    t.chip.get (PP.STAT_RUNPRI k.val) = s.chip.get (PP.WIN_PRI k.val) ∧ t.chip.get (PP.STAT_FASTBK k.val) = s.chip.get (PP.WIN_CLS k.val) ∧
    t.chip.get (PP.ACKCNT_COUNT k.val) = (s.chip.get (PP.ACKCNT_COUNT k.val) + 1) % 2 ^ 32 ∧
    t.chip.faultQ = s.chip.faultQ ∧ Keeps s t (fun o => decide (0x28000 ≤ o) && decide (o < 0x2e000)) := by
  intro s req k i up on awake winner room
  have hk : k.val < 4 := k.isLt
  have hi : i.val < 2048 := i.isLt
  have claim := claim_winner awake winner
  have priority : s.chip.get (PP.WIN_PRI k.val) < 2 ^ 6 := get_lt_two_pow _ (PP.WIN_PRI k.val)
  have class_ : s.chip.get (PP.WIN_CLS k.val) < 2 ^ 1 := get_lt_two_pow _ (PP.WIN_CLS k.val)
  generalize s.chip.get (PP.WIN_PRI k.val) = pri, s.chip.get (PP.WIN_CLS k.val) = cls, s.chip.get (PP.STAT_DEPTH k.val) = depth at claim priority class_ room ⊢
  obtain ⟨inHub1, kept⟩ := winTaken_spec s.chip hk i.val
  generalize s.chip.winTaken k.val i.val = a at claim inHub1 kept
  obtain ⟨inHub2, source, cnt, insrv⟩ := beginsService_spec a k.val hi
  generalize a.beginsService k.val i.val = b at claim inHub2 source cnt insrv
  obtain ⟨inHub3, stack, valid, number⟩ := pushed_spec b hk room hi cls pri
  generalize b.pushed k.val depth i.val cls pri = d at claim inHub3 stack valid number
  obtain ⟨inHub4, stat, depth', runs, fast⟩ := runsAt_spec d hk (show depth + 1 < 32 by omega) (show pri < 128 by omega) (show cls < 2 by omega)
  generalize d.runsAt k.val (depth + 1) pri cls = e at claim inHub4 stat depth' runs fast
  obtain ⟨ackHub, ackSource, ackProc, ackStat, -⟩ := ackcnt_place hk
  have inHub5 : e.InHub (e.incWrap (PP.ACKCNT_COUNT k.val)) := (Chip.InHub.refl e).put _ _ ackHub
  have ack : e.OnlyIn (· == PP.ACKCNT k.val) (e.incWrap (PP.ACKCNT_COUNT k.val)) := (Chip.OnlyIn.refl (· == PP.ACKCNT k.val) e).put (PP.ACKCNT_COUNT k.val) _ (beq_self_eq_true _)
  have acked : (e.incWrap (PP.ACKCNT_COUNT k.val)).get (PP.ACKCNT_COUNT k.val) = (e.get (PP.ACKCNT_COUNT k.val) + 1) % 2 ^ 32 := get_put_same _ _ _ rfl
  generalize e.incWrap (PP.ACKCNT_COUNT k.val) = g at claim inHub5 ack acked
  obtain ⟨inHub6, -⟩ := srcRefresh_inHub g hi
  have others : ∀ f : Fld, f.fits = true → f.apart (SRC.STATE_PEND i.val) = true → f.off ≠ EVH.STAT → (g.srcRefresh i.val).get f = g.get f := fun f fits pend npend => srcRefresh_other g i.val fits pend npend
  generalize g.srcRefresh i.val = h at claim inHub6 others
  have settles := (evaluate_settles h).fields
  have whole := (((((inHub1.trans inHub2).trans inHub3).trans inHub4).trans inHub5).trans inHub6).trans (evaluate_inHub h)
  obtain ⟨-, sourceEvtcnt, sourceStat, -⟩ := source_place hi
  obtain ⟨stkHub, stkSource, stkProc, stkStat, -, stkAck⟩ := stack_place hk room
  obtain ⟨-, statSource, statStat, statAck⟩ := stat_place hk
  have last : ∀ f : Fld, f.Free → f.apart (SRC.STATE_PEND i.val) = true → f.off ≠ EVH.STAT → f.off ≠ PP.ACKCNT k.val → h.evaluate.get f = e.get f := fun f free pend npend own =>
    (settles f free).trans ((others f free.fits pend npend).trans (ack.get f (beq_eq_false_iff_ne.mpr own)))
  have ownSource : ∀ f : Fld, f.off = SRC.STATE i.val → e.get f = b.get f := fun f hf =>
    (stat.get f (beq_eq_false_iff_ne.mpr (hf ▸ (statSource i.val).symm))).trans (stack.get f (beq_eq_false_iff_ne.mpr (hf ▸ (stkSource i.val hi).symm)))
  have ownStack : ∀ f : Fld, f.off = PP.STK k.val depth → e.get f = d.get f := fun f hf => stat.get f (beq_eq_false_iff_ne.mpr (hf ▸ (stkProc k.val hk).1))
  have pushedLast : ∀ f : Fld, f.Free → f.off = PP.STK k.val depth → h.evaluate.get f = d.get f := fun f free hf =>
    (last f free (Fld.apart_of_off_ne _ _ (hf ▸ stkSource i.val hi)) (hf ▸ stkStat) (hf ▸ stkAck)).trans (ownStack f hf)
  have statLast : ∀ f : Fld, f.Free → f.off = PP.STAT k.val → h.evaluate.get f = e.get f := fun f free hf =>
    last f free (Fld.apart_of_off_ne _ _ (hf ▸ statSource i.val)) (hf ▸ statStat) (hf ▸ statAck)
  refine ⟨_, exec_claim s req k up on claim, ?_, ?_, ?_, ?_, ?_, ?_, ?_, ?_, ?_, whole.faults, rfl, rfl, whole.regs.same⟩
  · exact congrArg (· ++ [Output.data req (PP.CLAIM k.val) (s.chip.reg (PP.WIN k.val)) true]) whole.outs
  · exact (last (SRC.STATE_CNT i.val) (free_source hi 24 8 (by decide) (.inr (by decide))) (by simp [Fld.apart, SRC.STATE_CNT, SRC.STATE_PEND]) sourceStat (ackSource i.val hi).symm).trans
      ((ownSource _ rfl).trans cnt)
  · exact (last (SRC.STATE_INSRV i.val) (free_source hi 1 1 (by decide) (.inl (by decide))) (by simp [Fld.apart, SRC.STATE_INSRV, SRC.STATE_PEND]) sourceStat (ackSource i.val hi).symm).trans
      ((ownSource _ rfl).trans insrv)
  · exact (statLast (PP.STAT_DEPTH k.val) (free_stat hk 16 5 (.inl (by decide))) rfl).trans depth'
  · exact (pushedLast (PP.STK_SRC k.val depth) (free_stack hk room 0 11 (by decide)) rfl).trans number
  · exact (pushedLast (PP.STK_VALID k.val depth) (free_stack hk room 31 1 (by decide)) rfl).trans valid
  · exact (statLast (PP.STAT_RUNPRI k.val) (free_stat hk 8 7 (.inl (by decide))) rfl).trans runs
  · exact (statLast (PP.STAT_FASTBK k.val) (free_stat hk 29 1 (.inr ⟨rfl, rfl⟩)) rfl).trans fast
  · have free := free_ackcnt hk
    refine (settles _ free).trans ((others _ free.fits (Fld.apart_of_off_ne _ _ (ackSource i.val hi)) ackStat).trans (acked.trans ?_))
    rw [stat.get (PP.ACKCNT_COUNT k.val) (beq_eq_false_iff_ne.mpr (ackProc k.val hk).1), stack.get (PP.ACKCNT_COUNT k.val) (beq_eq_false_iff_ne.mpr stkAck.symm),
      source.get (PP.ACKCNT_COUNT k.val) (beq_eq_false_iff_ne.mpr (ackSource i.val hi)), kept _ free ackStat]

/-! Ends of interrupts (R401, R405). -/

theorem eoi_row : ∀ k : Fin 4, PP.EOI k.val % 4 = 0 ∧ (regAt (PP.EOI k.val)).isSome = true ∧ inMailbox (PP.EOI k.val) = false ∧ inMsix (PP.EOI k.val) = false ∧ plainReg (PP.EOI k.val) = true ∧
    pairMask (PP.EOI k.val) = 0 ∧ accMask (PP.EOI k.val) (· == .rw) = 0 ∧ lockMask (PP.EOI k.val) = 0 ∧ accMask (PP.EOI k.val) (· == .w1c) = 0 ∧ cntClears (PP.EOI k.val) = none := by decide +kernel

theorem regOps_eoi (c : Chip) (m : List Host.Cell) (req : Requester) (k : ProcId) (w : Word) (b : Bool) : c.regOps m req (PP.EOI k.val) w b = c.endOfInterrupt k.val (wordField w 0 11) :=
  match k with
  | 0 => rfl
  | 1 => rfl
  | 2 => rfl
  | 3 => rfl

theorem exec_endOfInterrupt (s : State) (req : Requester) (k : ProcId) (src : SourceId) (h : s.chip.reaches req (PP.EOI k.val) = true) :
    Machine.exec (.endOfInterrupt req k src) s = .next { s with chip := s.chip.endOfInterrupt k.val src.val } := by
  have bare : s.chip.carry (PP.EOI k.val) = 0 := by
    obtain ⟨-, -, -, -, -, pair, -⟩ := eoi_row k
    rw [Chip.carry, pair]
    exact BitVec.and_zero
  have run : Machine.exec (.endOfInterrupt req k src) s =
      .next { s with chip := s.chip.busWrite s.nvm req (PP.EOI k.val) (fldSet (s.chip.carry (PP.EOI k.val)) (PP.EOI_SRC k.val) src.val) true } := rfl
  have word : fldSet 0 (PP.EOI_SRC k.val) src.val = wordPut 0 0 11 src.val := rfl
  rw [run, bare, word, busWrite_carries _ _ _ _ _ _ h (carries_of_bare _ (eoi_row k)), regOps_eoi, sourceWord]

/-- The flag and the fault of an end of interrupt out of order. -/
def Chip.eoiViolation (s : Chip) (k top i : Nat) : Chip := (s.eventQuiet (PP.EVT_ORDF k) (PP.EVTCNT_ORDCNT k)).raise ⟨0x2021, k, BitVec.ofNat 32 (top * 2 ^ 16 + i)⟩

theorem endOfInterrupt_violation {c : Chip} {k i : Nat} (awake : c.polAsleep = false) (order : c.get (PP.STAT_DEPTH k) = 0 ∨ c.get (PP.STK_SRC k (c.get (PP.STAT_DEPTH k) - 1)) ≠ i) :
    c.endOfInterrupt k i = c.eoiViolation k (if c.get (PP.STAT_DEPTH k) = 0 then 0x7ff else c.get (PP.STK_SRC k (c.get (PP.STAT_DEPTH k) - 1))) i := by
  have wrong : ¬ (c.get (PP.STAT_DEPTH k) != 0 && c.get (PP.STK_SRC k (c.get (PP.STAT_DEPTH k) - 1)) == i) = true := by
    rw [Bool.and_eq_true, bne_iff_ne, beq_iff_eq]
    tauto
  rw [Chip.endOfInterrupt, if_neg (by simp [awake]), if_neg wrong]
  rfl

theorem eoiViolation_recorded (s : State) (k : ProcId) (top i : Nat) : Recorded s.chip (s.chip.eoiViolation k.val top i) (PP.EVT_ORDF k.val) (PP.EVTCNT_ORDCNT k.val) ∧
    Effect s { s with chip := s.chip.eoiViolation k.val top i } id [PP.EVT_ORDF k.val, PP.EVTCNT_ORDCNT k.val] [] [⟨0x2021, k.val, BitVec.ofNat 32 (top * 2 ^ 16 + i)⟩] [] := by
  have differ : PP.EVT k.val ≠ PP.EVTCNT k.val := by simp [PP.EVT, PP.EVTCNT]
  obtain ⟨flag, count⟩ := recorded_eventQuiet s.chip (PP.EVT_ORDF k.val) (PP.EVTCNT_ORDCNT k.val) rfl rfl (Fld.apart_of_off_ne _ _ differ) (Fld.apart_of_off_ne _ _ differ.symm) rfl
  exact ⟨⟨(get_raise _ _ _).trans flag, (get_raise _ _ _).trans count⟩, ((Effect.start s).eventQuiet (PP.EVT_ORDF k.val) (PP.EVTCNT_ORDCNT k.val)).raise _⟩

theorem endOfInterrupt_other :
    ∀ (s : State) (req : Requester) (k : ProcId) (src : SourceId), s.chip.reaches req (PP.EOI k.val) = true → s.chip.polAsleep = false →
    1 ≤ s.chip.get (PP.STAT_DEPTH k.val) → s.chip.get (PP.STK_SRC k.val (s.chip.get (PP.STAT_DEPTH k.val) - 1)) ≠ src.val →
    ∃ t, Machine.exec (.endOfInterrupt req k src) s = .next t ∧ Recorded s.chip t.chip (PP.EVT_ORDF k.val) (PP.EVTCNT_ORDCNT k.val) ∧
      Effect s t id [PP.EVT_ORDF k.val, PP.EVTCNT_ORDCNT k.val] []
        [⟨0x2021, k.val, BitVec.ofNat 32 (s.chip.get (PP.STK_SRC k.val (s.chip.get (PP.STAT_DEPTH k.val) - 1)) * 2 ^ 16 + src.val)⟩] [] := by
  intro s req k src reach awake some other
  have run := endOfInterrupt_violation awake (.inr other)
  rw [if_neg (by omega)] at run
  obtain ⟨recorded, effect⟩ := eoiViolation_recorded s k (s.chip.get (PP.STK_SRC k.val (s.chip.get (PP.STAT_DEPTH k.val) - 1))) src.val
  exact ⟨_, exec_chip (exec_endOfInterrupt s req k src reach) run, recorded, effect⟩

theorem endOfInterrupt_empty :
    ∀ (s : State) (req : Requester) (k : ProcId) (src : SourceId), s.chip.reaches req (PP.EOI k.val) = true → s.chip.polAsleep = false → s.chip.get (PP.STAT_DEPTH k.val) = 0 →
    ∃ t, Machine.exec (.endOfInterrupt req k src) s = .next t ∧ Recorded s.chip t.chip (PP.EVT_ORDF k.val) (PP.EVTCNT_ORDCNT k.val) ∧
      Effect s t id [PP.EVT_ORDF k.val, PP.EVTCNT_ORDCNT k.val] [] [⟨0x2021, k.val, BitVec.ofNat 32 (0x7ff * 2 ^ 16 + src.val)⟩] [] := by
  intro s req k src reach awake empty
  have run := endOfInterrupt_violation (i := src.val) awake (.inl empty)
  rw [if_pos empty] at run
  obtain ⟨recorded, effect⟩ := eoiViolation_recorded s k 0x7ff src.val
  exact ⟨_, exec_chip (exec_endOfInterrupt s req k src reach) run, recorded, effect⟩

/-- A source's service ends in its register and its marks. -/
def Chip.srcIdle (s : Chip) (i : Nat) : Chip :=
  (s.put (SRC.STATE_INSRV i) 0).srcUpd i fun h =>
    { h with released := false, unreleased := h.unreleased || (s.get (SRC.STATE_CNT i) != 0 && s.bit (SRC.CFG_GV i) && !(s.srcs.get i).released) }

theorem srcEnd_eq (c : Chip) (i : Nat) : c.srcEnd i =
    (if c.get (SRC.STATE_CNT i) != 0 && (!c.bit (SRC.CFG_GV i) || (c.srcs.get i).released) then (c.srcIdle i).srcPend i else c.srcIdle i).srcRefresh i := rfl

theorem srcEnd_spec (c : Chip) {i : Nat} (hi : i < 2048) : c.InHub (c.srcEnd i) ∧ c.OnlyIn (fun o => o == SRC.STATE i || o == EVH.STAT) (c.srcEnd i) ∧ (c.srcEnd i).get (SRC.STATE_INSRV i) = 0 ∧
    (c.get (SRC.STATE_CNT i) ≠ 0 → c.get (SRC.CFG_GV i) = 0 → ((c.srcEnd i).srcs.get i).ready = true) := by
  obtain ⟨place, -, stat, -⟩ := source_place hi
  obtain ⟨u, idles⟩ : ∃ u, c.srcIdle i = u := ⟨_, rfl⟩
  have inHub : c.InHub u := idles ▸ ((Chip.InHub.refl c).put (SRC.STATE_INSRV i) 0 place).upd rfl rfl rfl rfl
  have regs : c.OnlyIn (· == SRC.STATE i) u := idles ▸ ((Chip.OnlyIn.refl (· == SRC.STATE i) c).put (SRC.STATE_INSRV i) 0 (beq_self_eq_true _)).upd rfl
  have insrv : u.get (SRC.STATE_INSRV i) = 0 := by
    have same : u.regs = (c.put (SRC.STATE_INSRV i) 0).regs := by rw [← idles]; rfl
    rw [get_congr same]
    exact get_put_same _ _ _ rfl
  obtain ⟨v, again⟩ : ∃ v, (if c.get (SRC.STATE_CNT i) != 0 && (!c.bit (SRC.CFG_GV i) || (c.srcs.get i).released) then u.srcPend i else u) = v := ⟨_, rfl⟩
  have notes : u.Notes v := by
    rw [← again]
    split
    · exact srcPend_notes u i
    · exact .refl u
  obtain ⟨inHub', srcs⟩ := srcRefresh_inHub v hi
  have shown : v.OnlyIn (fun o => o == SRC.STATE i || o == EVH.STAT) (v.srcRefresh i) :=
    ((Chip.OnlyIn.refl (fun o => o == SRC.STATE i || o == EVH.STAT) v).put (SRC.STATE_PEND i) _ (by simp [SRC.STATE_PEND])).put EVH.STAT_NPEND _ (by simp [EVH.STAT_NPEND])
  rw [srcEnd_eq, idles, again]
  refine ⟨(inHub.trans notes.inHub).trans inHub', (Chip.OnlyIn.upd (regs.mono fun o ho => by rw [ho, Bool.true_or]) notes.regs).trans shown, ?_, fun some noMember => ?_⟩
  · rw [srcRefresh_other v i rfl (by simp [Fld.apart, SRC.STATE_INSRV, SRC.STATE_PEND]) stat, get_congr notes.regs, insrv]
  · have pends : (c.get (SRC.STATE_CNT i) != 0 && (!c.bit (SRC.CFG_GV i) || (c.srcs.get i).released)) = true := by
      rw [bne_iff_ne.mpr some, Chip.bit, noMember]
      rfl
    rw [srcs, ← again, if_pos pends]
    exact (srcPend_same u i).1

/-- The top entry of a stack is popped. -/
def Chip.popped (s : Chip) (k d : Nat) : Chip := s.setReg (PP.STK k (d - 1)) 0

theorem endOfInterrupt_top {c : Chip} {k i d : Nat} (awake : c.polAsleep = false) (depth : c.get (PP.STAT_DEPTH k) = d) (some : d ≠ 0) (top : c.get (PP.STK_SRC k (d - 1)) = i) :
    c.endOfInterrupt k i = (((c.popped k d).runsAt k (d - 1) (if d = 1 then 64 else ((c.popped k d).put (PP.STAT_DEPTH k) (d - 1)).get (PP.STK_PRI k (d - 2)))
      (if d = 1 then 0 else (((c.popped k d).put (PP.STAT_DEPTH k) (d - 1))).get (PP.STK_CLS k (d - 2)))).srcEnd i).evaluate := by
  have here : (d != 0 && c.get (PP.STK_SRC k (d - 1)) == i) = true := by
    rw [bne_iff_ne.mpr some, beq_iff_eq.mpr top]
    rfl
  rw [Chip.endOfInterrupt, depth, if_neg (by simp [awake]), if_pos here]
  rfl

/-- Below the top of the stack a pop changes nothing. -/
theorem popped_below (c : Chip) {k d : Nat} (hk : k < 4) (deep : 2 ≤ d) (most : d ≤ 16) (lo width : Nat) :
    ((c.popped k d).put (PP.STAT_DEPTH k) (d - 1)).get ⟨PP.STK k (d - 2), lo, width⟩ = c.get ⟨PP.STK k (d - 2), lo, width⟩ := by
  have far := (stack_place hk (show d - 2 < 16 by omega)).2.2.1 k hk
  have below : PP.STK k (d - 2) ≠ PP.STK k (d - 1) := by
    simp only [PP.STK]
    omega
  exact (get_put_off_ne _ _ _ _ far.1).trans (get_setReg_of_ne _ _ _ _ below)

theorem endOfInterrupt_pops :
    ∀ (s : State) (req : Requester) (k : ProcId) (src : SourceId), s.chip.reaches req (PP.EOI k.val) = true → s.chip.polAsleep = false →
    1 ≤ s.chip.get (PP.STAT_DEPTH k.val) → s.chip.get (PP.STAT_DEPTH k.val) ≤ 16 → s.chip.get (PP.STK_SRC k.val (s.chip.get (PP.STAT_DEPTH k.val) - 1)) = src.val →
    ∃ t, Machine.exec (.endOfInterrupt req k src) s = .next t ∧ t.chip.get (PP.STAT_DEPTH k.val) = s.chip.get (PP.STAT_DEPTH k.val) - 1 ∧
      t.chip.reg (PP.STK k.val (s.chip.get (PP.STAT_DEPTH k.val) - 1)) = 0 ∧ t.chip.get (SRC.STATE_INSRV src.val) = 0 ∧
      (s.chip.get (PP.STAT_DEPTH k.val) = 1 → t.chip.get (PP.STAT_RUNPRI k.val) = 64) ∧
      (2 ≤ s.chip.get (PP.STAT_DEPTH k.val) → t.chip.get (PP.STAT_RUNPRI k.val) = s.chip.get (PP.STK_PRI k.val (s.chip.get (PP.STAT_DEPTH k.val) - 2))) ∧
      (s.chip.get (SRC.STATE_CNT src.val) ≠ 0 → s.chip.get (SRC.CFG_GV src.val) = 0 → (t.chip.srcs.get src.val).ready = true) ∧
      t.chip.faultQ = s.chip.faultQ ∧ t.chip.outbox = s.chip.outbox ∧ Keeps s t (fun o => decide (0x28000 ≤ o) && decide (o < 0x2e000)) := by
  intro s req k src reach awake least most top
  have hk : k.val < 4 := k.isLt
  have hi : src.val < 2048 := src.isLt
  obtain ⟨d, depth⟩ : ∃ d, s.chip.get (PP.STAT_DEPTH k.val) = d := ⟨_, rfl⟩
  rw [depth] at least most top ⊢
  have run := endOfInterrupt_top awake depth (by omega) top
  obtain ⟨a, pops⟩ : ∃ a, s.chip.popped k.val d = a := ⟨_, rfl⟩
  rw [pops] at run
  obtain ⟨pri, priority⟩ : ∃ pri, (if d = 1 then 64 else (a.put (PP.STAT_DEPTH k.val) (d - 1)).get (PP.STK_PRI k.val (d - 2))) = pri := ⟨_, rfl⟩
  obtain ⟨cls, class_⟩ : ∃ cls, (if d = 1 then 0 else (a.put (PP.STAT_DEPTH k.val) (d - 1)).get (PP.STK_CLS k.val (d - 2))) = cls := ⟨_, rfl⟩
  rw [priority, class_] at run
  have hpri : pri < 2 ^ 7 := by
    rw [← priority]
    split
    · decide
    · exact lt_trans (get_lt_two_pow _ (PP.STK_PRI k.val (d - 2))) (show 2 ^ 6 < 2 ^ 7 by decide)
  have hcls : cls < 2 ^ 1 := by
    rw [← class_]
    split
    · decide
    · exact get_lt_two_pow _ (PP.STK_CLS k.val (d - 2))
  have below : 2 ≤ d → pri = s.chip.get (PP.STK_PRI k.val (d - 2)) := fun deep => by
    rw [← priority, if_neg (by omega), ← pops]
    exact popped_below _ hk deep most 24 6
  obtain ⟨stkHub, stkSource, stkProc, stkStat, -, -⟩ := stack_place hk (show d - 1 < 16 by omega)
  have inHub1 : s.chip.InHub a := pops ▸ (Chip.InHub.refl s.chip).setReg _ 0 stkHub
  have regs1 : s.chip.OnlyIn (· == PP.STK k.val (d - 1)) a := pops ▸ (Chip.OnlyIn.refl (· == PP.STK k.val (d - 1)) s.chip).setReg _ 0 (beq_self_eq_true _)
  have zero : a.reg (PP.STK k.val (d - 1)) = 0 := by
    rw [← pops]
    exact reg_setReg_same _ _ _
  obtain ⟨inHub2, regs2, depth', runs, -⟩ := runsAt_spec a hk (show d - 1 < 32 by omega) hpri hcls
  generalize a.runsAt k.val (d - 1) pri cls = b at run inHub2 regs2 depth' runs
  obtain ⟨inHub3, regs3, insrv, ready⟩ := srcEnd_spec b hi
  generalize b.srcEnd src.val = e at run inHub3 regs3 insrv ready
  obtain ⟨-, statSource, statStat, -⟩ := stat_place hk
  have settles := evaluate_settles e
  have whole := ((inHub1.trans inHub2).trans inHub3).trans (evaluate_inHub e)
  have statLast : ∀ f : Fld, f.Free → f.off = PP.STAT k.val → e.evaluate.get f = b.get f := fun f free hf =>
    (settles.fields f free).trans (regs3.get f (by rw [hf]; simp [statSource, statStat]))
  have first : ∀ f : Fld, (f.off = SRC.STATE src.val ∨ f.off = SRC.CFG src.val) → b.get f = s.chip.get f := fun f hf => by
    have far : f.off ≠ PP.STAT k.val ∧ f.off ≠ PP.STK k.val (d - 1) := by
      simp only [SRC.STATE, SRC.CFG] at hf
      simp only [PP.STAT, PP.STK]
      omega
    rw [regs2.get f (beq_eq_false_iff_ne.mpr far.1), regs1.get f (beq_eq_false_iff_ne.mpr far.2)]
  refine ⟨_, exec_chip (exec_endOfInterrupt s req k src reach) run, ?_, ?_, ?_, fun one => ?_, fun deep => ?_, fun some noMember => ?_, whole.faults, whole.outs, rfl, rfl, whole.regs.same⟩
  · exact (statLast (PP.STAT_DEPTH k.val) (free_stat hk 16 5 (.inl (by decide))) rfl).trans depth'
  · refine (settles.word (free_stack hk (show d - 1 < 16 by omega) 0 32 (by decide))).trans ?_
    refine (regs3.same _ (by simp [stkSource src.val hi, stkStat])).trans ((regs2.same _ (beq_eq_false_iff_ne.mpr (stkProc k.val hk).1)).trans zero)
  · exact (settles.fields _ (free_source hi 1 1 (by decide) (.inl (by decide)))).trans insrv
  · refine (statLast (PP.STAT_RUNPRI k.val) (free_stat hk 8 7 (.inl (by decide))) rfl).trans (runs.trans ?_)
    rw [← priority, if_pos one]
  · exact (statLast (PP.STAT_RUNPRI k.val) (free_stat hk 8 7 (.inl (by decide))) rfl).trans (runs.trans (below deep))
  · refine (congrArg (fun x : Tbl SrcHw _ => (x.get src.val).ready) settles.srcs).trans (ready ?_ ?_)
    · exact fun none => some ((first (SRC.STATE_CNT src.val) (.inl rfl)).symm.trans none)
    · exact (first (SRC.CFG_GV src.val) (.inr rfl)).trans noMember

/-- Settles O49: each clause is one access or one event of the hub, and a routing evaluation after it leaves what the clause names. -/
theorem eventsArePendedClaimedAndEnded : Obligations.EventsArePendedClaimedAndEnded := by
  unfold Obligations.EventsArePendedClaimedAndEnded
  exact ⟨doorbell_pends, softwareDoorbell_pends, softwareDoorbell_refused, groupTimerExpire_releases, sourceCfgWrite_takes, claim_serves, claim_empty, endOfInterrupt_pops, endOfInterrupt_other,
    endOfInterrupt_empty, processorCtrlWrite_takes⟩

end Sys2Proof.Machine
